-- ==== Sys2Proof/Word.lean ====
section
/-! DEFINITION. The words of the model: bytes, 64-bit words, and the plain sparse table every memory of the block is kept in. -/

namespace Sys2Proof

/-- One byte. -/
abbrev Byte := BitVec 8

/-- One 64-bit word: a Skink general register, a metadata word. -/
abbrev Word := BitVec 64

/-- Sparse data by key, kept in one canonical form: keys strictly rising, and no entry equal to what an unlisted
key reads as (`Machine.tset` keeps it). -/
abbrev Tab (α : Type) := List (Nat × α)

end Sys2Proof
end

