-- ==== Sys2Proof/Syntax.lean ====
section
/-! DEFINITION. The commands the block takes: one constructor of `Instr` for each row of the opcode table, with the
operands that its sender, or the part of the world that causes the event, decides. -/

namespace Sys2Proof

/-- A dictionary context (R454): the PCIe window, an OAP session on MGMT or in-band, the CAN port, the SDP. -/
inductive Ctx where
  | pcie
  | oapMgmt (session : Fin 8)
  | oapInband (session : Fin 8)
  | can
  | sdp
deriving DecidableEq, Repr

/-- A fault the time unit finds at an epoch boundary or with a sample (R385): none; two of three copies disagree; a
correctable tracker or history error; an uncorrectable error in domain `d`'s tracker; an uncorrectable error in history
entry `i`, counted from the oldest. -/
inductive TimeFault where
  | none
  | corrected
  | tracker (d : Fin 2)
  | history (i : Nat)
deriving DecidableEq, Repr

/-- What the admission FIFO gives for a record that is to be sent (R494). -/
inductive StageRead where
  | good
  | fifoCorrected
  | fifoUncorrected
deriving DecidableEq, Repr

/-- The result of a SECDED check. -/
inductive Ecc where
  | good
  | corrected
  | uncorrectable
deriving DecidableEq, Repr

/-- What a burst read shows (R401): the controller's SECDED result, the stack's SEV, the syndrome. -/
structure BurstEcc where
  secded : Ecc
  sev : Fin 4
  syndrome : BitVec 16
deriving DecidableEq, Repr

/-- How a thaw ends (R408): every step has passed; the retraining of step 2 has failed; the listed burst at an offset still reads
uncorrectable in step 6. -/
inductive ThawEnd where
  | passed
  | retrainFailed
  | unreadable (off : BitVec 30) (ecc : BurstEcc)
deriving DecidableEq, Repr

/-- Which copy of a shadow or golden copy could be read (R83, R102, R164, R298). -/
inductive CopyRead where
  | first
  | second
  | neither
deriving DecidableEq, Repr

/-- How the reload of a clutch's store ends (R164, R165): the clutch, the golden copy whose CRC is good, how many compares of the store CRC
mismatched. -/
structure StoreReload where
  clutch : Fin 16
  copy : CopyRead
  mismatches : Fin 3
deriving DecidableEq, Repr

/-- A memory error met while a word of a table or a store is read: none; a correctable one; an uncorrectable one. -/
inductive WordEcc where
  | good
  | corrected
  | uncorrected
deriving DecidableEq, Repr

/-- What an access of the FSU finds in the flow cache, the stash or the locator bits (R244): nothing; a correctable error; an
uncorrectable one in the line of a handle, in a stash place or in a word of locator bits; or the rebuilding of such a
word has ended. -/
inductive FsuEcc where
  | good
  | corrected
  | line (h : Fin 4)
  | stash (p : Fin 1024)
  | locator (w : Fin 2097152)
  | rebuilt (w : Fin 2097152)
deriving DecidableEq, Repr

/-- A memory error met in a policer's state (R350). -/
inductive MeterEcc where
  | good
  | corrected
  | uncorrected
deriving DecidableEq, Repr

/-- A memory error met while a frame is admitted or chosen (R350, R385): none; a correctable one; an uncorrectable one in the descriptor of a
queue, of the launch calendar or of the express FIFO; an uncorrectable one in the state of a shaper, 0 to 7 of a queue and 8 of the port. -/
inductive QueueEcc where
  | good
  | corrected
  | queue (q : Fin 8)
  | calendar
  | express
  | shaper (q : Fin 9)
deriving DecidableEq, Repr

/-- A memory error met while a cell is handled (R329): none; a correctable one; an uncorrectable one in cell data; an
uncorrectable one in the links of the VOQ. -/
inductive BufEcc where
  | good
  | corrected
  | data
  | links
deriving DecidableEq, Repr


/-- What the fetch and the operand reads of a microword find (R111, R162): nothing; a bit of the stored word, or of the
dispatch entry that the word takes, has flipped; a register of the thread has a parity error. -/
inductive IssueErr where
  | good
  | word (bit : Fin 136)
  | entry (bit : Fin 51)
  | register
deriving DecidableEq, Repr

/-- The ALU fields of a microword (R136): DST, SRC_A, SRC_B, B_IMM and IMM. -/
structure AluArgs where
  dst : Fin 128
  a : Fin 128
  b : Fin 128
  bImm : Bool
  imm : BitVec 16
deriving DecidableEq, Repr

/-- The memory and leap fields of a microword (R136): MDST, MADR, HND, SEG, MSRC and MIMM. -/
structure MemArgs where
  mdst : Fin 32
  madr : Fin 32
  hnd : Fin 4
  seg : Fin 8
  msrc : Fin 32
  mimm : BitVec 10
deriving DecidableEq, Repr

/-- The edit fields of a microword (R136): ESRC and EIMM. -/
structure EditArgs where
  src : Fin 128
  imm : BitVec 20
deriving DecidableEq, Repr

/-- What the commit unit's test of a leap finds (R202, R203): nothing; a correctable or an uncorrectable error in the claim
table; a parity error in the leap's buffer. -/
inductive LeapErr where
  | good
  | claimCorrected
  | claimBad
  | buffer
deriving DecidableEq, Repr

/-- What comes with a received frame: RS-FEC codewords corrected and not correctable, a PCS coding error, a reassembly error
and how many preemptable fragments the frame came in, a parity error in a MAC buffer (R51), whether the pipe's input queue is full
(R20), and how far its timestamp point lies back (R358), in units of 2^-16 ns. -/
structure RxInfo where
  corrected : BitVec 32
  uncorrected : BitVec 32
  pcsError : Bool
  reassembly : Bool
  fragments : Nat
  parity : Bool
  queueFull : Bool
  back : BitVec 48
deriving DecidableEq, Repr

/-- What the parser and a rule lookup find (R83): a parity error of the frame buffer; an error in a slot that the lookup
reads, and which slot; whether the lookup reads a slot already known to be damaged. -/
structure ParseErr where
  parity : Bool
  rule : WordEcc
  slot : Fin 131072
  readsBad : Bool
deriving DecidableEq, Repr

/-- What a scan finds (R102, R103): nothing; a datapath parity error; a corrected error; an uncorrectable error in a state
word, or, from 229,376 on, in a set slot; a read of a word already known to be damaged. -/
inductive PatErr where
  | good
  | parity
  | corrected
  | bad (word : Fin 229440)
  | damaged
deriving DecidableEq, Repr

/-- What goes wrong with a ring (R439): UR, CA, poisoned data or a completion timeout on a read of ring memory; an
uncorrectable (EV219) or a corrected (EV218) error in the host interface's memory; a PCIe correctable error (EV220). -/
inductive RingFault where
  | ur
  | ca
  | poisoned
  | timeout
  | state
  | corrected
  | aer
deriving DecidableEq, Repr

/-- The registers of a delivery ring's page beside DR_CTRL (R435). -/
structure DelRegs where
  base : BitVec 64
  wb : BitVec 64
  brBase : BitVec 64
  holdLimit : Fin 10001
  coalTime : Fin 1000001
deriving DecidableEq, Repr

/-- A register of the PCIe function that no row of the table reaches, as software writes it (R415, R416): an entry of the MSI-X table; the
power state; the bits of the AER logs that a write of 1 clears; Device Control and
Device Control 2; bytes of MB_REQUEST and MB_CTRL (R468). -/
inductive HostReg where
  | msix (vector : Fin 128) (entry : BitVec 128)
  | power (d3hot : Bool)
  | aer (corr uncorr : Bool)
  | control (devCtl devCtl2 : BitVec 16)
  | mbRequest (offset : Fin 1400) (bytes : List Byte)
  | mbCtrl (ctrl : BitVec 8)
deriving DecidableEq, Repr

/-- The second read of a host's image, which writes the store (R431): the image is as it was; it has changed; a PCIe error ended it. -/
inductive SecondRead where
  | same
  | changed
  | failed
deriving DecidableEq, Repr

/-- How the accesses to a data buffer end (R427, DMA_ERROR): well; a read fails after so many bytes; a write does. -/
inductive Dma where
  | good
  | readError (bytes : Nat)
  | writeError (bytes : Nat)
deriving DecidableEq, Repr

/-- Where a clutch load comes from (R157): a dictionary write of cs_load, or a command entry. -/
inductive LoadFrom where
  | dict (c : Ctx) (v : List Byte)
  | ring (r : Fin 64) (entry : BitVec 256) (image : List Byte) (dma : Dma)
deriving DecidableEq, Repr

/-- A check that the device or the fault manager makes of itself and that may fail (EV237, EV238, EV239). -/
inductive DeviceCheck where
  | none
  | configIntegrity
  | faultRecord
  | faultManager
deriving DecidableEq, Repr

/-- An uncorrectable error in the Eft's retention memory, and the rule or sampler channel it strikes (EV249). -/
inductive EftMemory where
  | good
  | rule (r : Fin 64)
  | channel (c : Fin 16)
deriving DecidableEq, Repr

/-- The commands. -/
inductive Instr where
  /-- R34. A port receives a whole frame; the MAC checks FCS, length and link state, creates the metadata block and passes it to step 1 or discards it. -/
  | frameReceive (port : Fin 256) (frame : List Byte) (rx : RxInfo)
  /-- R56. The parser takes a packet from the pipe's input queue, parses its headers and writes the parse result vector and windows. -/
  | parse (pipe : Fin 4) (err : ParseErr)
  /-- R83. The rewrite of a damaged rule slot from the shadow completes, or both shadow copies are found unreadable. -/
  | ruleRewriteDone (slot : Fin 131072) (copy : CopyRead)
  /-- R87. An in-service pattern engine takes a payload window and scans and decodes it. -/
  | patternScan (engine : Fin 24) (err : PatErr)
  /-- R102. The rewrite of a damaged automaton word from the shadow completes. -/
  | patMemRewriteDone (word : Fin 229440) (copy : CopyRead)
  /-- R90. A window's pattern result reaches the join stage. -/
  | patternResult (engine : Fin 24)
  /-- R89. The join stage releases the head packet to the spray unit once its classification and pattern result are complete. -/
  | joinRelease (pipe : Fin 4)
  /-- R118. The spray unit takes a packet, allocates its reorder entry, LSN and claim reservation, and assigns it to a thread or single-file queue. -/
  | spray (pipe : Fin 4)
  /-- R119. A packet has waited more than 1 µs at the head of its join stage and EV066 is raised. -/
  | sprayStallTimeout (pipe : Fin 4)
  /-- R112. A thread's context load completes 10 CCLK after assignment and the thread starts at dispatch[0][OPCODE]. -/
  | contextLoaded (thread : Fin 2048) (err : IssueErr)
  /-- R147. A microword with NXT SEQ is issued and the thread continues at the next address. -/
  | seq (thread : Fin 2048) (err : IssueErr)
  /-- R148. A microword with NXT DISP is issued and the thread continues at the selected dispatch target. -/
  | disp (thread : Fin 2048) (err : IssueErr)
  /-- R147. A microword with NXT HALT is issued; the run ends and the leap goes to the commit unit. -/
  | halt (thread : Fin 2048) (err : IssueErr)
  /-- R153. A run ends by TRAP; the leap is abandoned, DROP set and the trap recorded. -/
  | trap (thread : Fin 2048) (err : IssueErr)
  /-- R140. ALU operation NOP writes nothing. -/
  | nop (thread : Fin 2048) (x : AluArgs)
  /-- R140. ALU operation MOV writes B to DST. -/
  | mov (thread : Fin 2048) (x : AluArgs)
  /-- R140. ALU operation ADD writes A + B and sets the flags. -/
  | add (thread : Fin 2048) (x : AluArgs)
  /-- R140. ALU operation SUB writes A − B and sets the flags. -/
  | sub (thread : Fin 2048) (x : AluArgs)
  /-- R140. ALU operation AND writes A AND B. -/
  | and (thread : Fin 2048) (x : AluArgs)
  /-- R140. ALU operation OR writes A OR B. -/
  | or (thread : Fin 2048) (x : AluArgs)
  /-- R140. ALU operation XOR writes A XOR B. -/
  | xor (thread : Fin 2048) (x : AluArgs)
  /-- R140. ALU operation ANDN writes A AND NOT B. -/
  | andn (thread : Fin 2048) (x : AluArgs)
  /-- R140. ALU operation SHL shifts A left. -/
  | shl (thread : Fin 2048) (x : AluArgs)
  /-- R140. ALU operation SHR shifts A right logically. -/
  | shr (thread : Fin 2048) (x : AluArgs)
  /-- R140. ALU operation SAR shifts A right arithmetically. -/
  | sar (thread : Fin 2048) (x : AluArgs)
  /-- R140. ALU operation EXT extracts a bit field of A. -/
  | ext (thread : Fin 2048) (x : AluArgs)
  /-- R140. ALU operation INS inserts B into a bit field of A. -/
  | ins (thread : Fin 2048) (x : AluArgs)
  /-- R140. ALU operation MIN writes the unsigned minimum. -/
  | min (thread : Fin 2048) (x : AluArgs)
  /-- R140. ALU operation MAX writes the unsigned maximum. -/
  | max (thread : Fin 2048) (x : AluArgs)
  /-- R140. ALU operation SDIFF writes the sign-extended wrap difference of A and B. -/
  | sdiff (thread : Fin 2048) (x : AluArgs)
  /-- R140. ALU operation CMP sets the flags from A − B. -/
  | cmp (thread : Fin 2048) (x : AluArgs)
  /-- R140. ALU operation TSTB sets the flags from A AND B. -/
  | tstb (thread : Fin 2048) (x : AluArgs)
  /-- R140. ALU operation ABSD writes the absolute difference. -/
  | absd (thread : Fin 2048) (x : AluArgs)
  /-- R140. ALU operation POPC writes the number of 1 bits of A. -/
  | popc (thread : Fin 2048) (x : AluArgs)
  /-- R140. ALU operation FFS writes the index of the lowest 1 bit of A. -/
  | ffs (thread : Fin 2048) (x : AluArgs)
  /-- R140. ALU operation BSWAP reverses the byte order of the low bytes of A. -/
  | bswap (thread : Fin 2048) (x : AluArgs)
  /-- R140. ALU operation MOVZ writes B when Z is 1. -/
  | movz (thread : Fin 2048) (x : AluArgs)
  /-- R140. ALU operation MOVNZ writes B when Z is 0. -/
  | movnz (thread : Fin 2048) (x : AluArgs)
  /-- R143. Memory operation LDS loads 8 scratch bytes into a register. -/
  | lds (thread : Fin 2048) (x : MemArgs)
  /-- R143. Memory operation STS stores a register into scratch. -/
  | sts (thread : Fin 2048) (x : MemArgs)
  /-- R143. Memory operation LDH loads 8 frame header bytes beyond the window. -/
  | ldh (thread : Fin 2048) (x : MemArgs)
  /-- R143. Operation HASH computes CRC-32C over registers. -/
  | hash (thread : Fin 2048) (x : MemArgs)
  /-- R280. Lookup LKMAC reads the MAC table. -/
  | lkmac (thread : Fin 2048) (x : MemArgs)
  /-- R289. Lookup LKNAT reads the NAT table. -/
  | lknat (thread : Fin 2048) (x : MemArgs)
  /-- R290. Lookup LKLPM4 reads an IPv4 LPM table. -/
  | lklpm4 (thread : Fin 2048) (x : MemArgs)
  /-- R290. Lookup LKLPM6 reads an IPv6 LPM table. -/
  | lklpm6 (thread : Fin 2048) (x : MemArgs)
  /-- R292. Lookup LKMCG reads a multicast group. -/
  | lkmcg (thread : Fin 2048) (x : MemArgs)
  /-- R295. Lookup LKMBR reads a load-balancer member. -/
  | lkmbr (thread : Fin 2048) (x : MemArgs)
  /-- R281. Operation LEARN buffers a learn request to take effect at commit. -/
  | learn (thread : Fin 2048) (x : MemArgs)
  /-- R174. Leap operation LBIND binds a handle to a record and claims it. -/
  | lbind (thread : Fin 2048) (x : MemArgs)
  /-- R179. Leap operation LRD reads a record segment. -/
  | lrd (thread : Fin 2048) (x : MemArgs)
  /-- R178. Leap operation LSET buffers a direct 8-byte write. -/
  | lset (thread : Fin 2048) (x : MemArgs)
  /-- R180. Leap operation LADD buffers a commutative add. -/
  | ladd (thread : Fin 2048) (x : MemArgs)
  /-- R180. Leap operation LMAX buffers a commutative maximum. -/
  | lmax (thread : Fin 2048) (x : MemArgs)
  /-- R180. Leap operation LMIN buffers a commutative minimum. -/
  | lmin (thread : Fin 2048) (x : MemArgs)
  /-- R180. Leap operation LOR buffers a commutative OR. -/
  | lor (thread : Fin 2048) (x : MemArgs)
  /-- R184. Leap operation LSEQ buffers a deferred sequence check. -/
  | lseq (thread : Fin 2048) (x : MemArgs)
  /-- R186. Leap operation LDUP buffers a deferred duplicate check. -/
  | ldup (thread : Fin 2048) (x : MemArgs)
  /-- R188. Leap operation LTOK buffers a deferred token-bucket check. -/
  | ltok (thread : Fin 2048) (x : MemArgs)
  /-- R189. Leap operation LINS reserves a slot for a new record. -/
  | lins (thread : Fin 2048) (x : MemArgs)
  /-- R190. Leap operation LDEL marks a record for deletion. -/
  | ldel (thread : Fin 2048) (x : MemArgs)
  /-- R181. Leap operation LABORT abandons the leap and releases its claims. -/
  | labort (thread : Fin 2048) (x : MemArgs)
  /-- R145. Edit HSET writes header window bytes. -/
  | hset (thread : Fin 2048) (x : EditArgs)
  /-- R145. Edit SETDEST writes DEST and DEST_MC. -/
  | setdest (thread : Fin 2048) (x : EditArgs)
  /-- R145. Edit SETQ writes EGRESS_Q. -/
  | setq (thread : Fin 2048) (x : EditArgs)
  /-- R145. Edit FLAGS sets and clears verdict flags. -/
  | flags (thread : Fin 2048) (x : EditArgs)
  /-- R145. Edit SETEDIT writes EDIT_IDX. -/
  | setedit (thread : Fin 2048) (x : EditArgs)
  /-- R145. Edit SETLAUNCH writes LAUNCH and sets LAUNCH_VALID. -/
  | setlaunch (thread : Fin 2048) (x : EditArgs)
  /-- R145. Edit REASON writes PUNT_REASON. -/
  | reason (thread : Fin 2048) (x : EditArgs)
  /-- R145. Edit COLOUR writes COLOUR. -/
  | colour (thread : Fin 2048) (x : EditArgs)
  /-- R489. Edit POSTCARD requests a flow postcard on a channel. -/
  | postcard (thread : Fin 2048) (x : EditArgs)
  /-- R145. Edit PROGDATA writes PROG_DATA. -/
  | progdata (thread : Fin 2048) (x : EditArgs)
  /-- R116. A split-phase memory, hash, lookup or leap operation writes its result register. -/
  | operationResult (thread : Fin 2048) (place : Fin 8) (word : WordEcc) (pos : Fin 9) (fsu : FsuEcc)
  /-- R194. The commit unit tests a halted leap in LSN order and commits it or aborts it. -/
  | leapCommit (thread : Fin 2048) (err : LeapErr)
  /-- R112. The leap's final status reaches the thread, which frees, replays or discards its late packet. -/
  | leapStatusDelivered (thread : Fin 2048)
  /-- R204. A halted leap has waited longer than leap_wait_limit and EV101 is raised. -/
  | leapWaitLimit (thread : Fin 2048)
  /-- R192. A write-class operation has waited LOCK_TIMEOUT on a locked record; the lock is broken or the leap ends LOCK_TIMEOUT. -/
  | lockWaitTimeout (thread : Fin 2048)
  /-- R125. The reorder stage releases or discards its DONE head entry. -/
  | reorderRelease (pipe : Fin 4) (ecc : Ecc) (fault : TimeFault)
  /-- R125. The head entry has been allocated for reorder_timeout and is skipped, its thread marked LATE. -/
  | reorderTimeout (pipe : Fin 4)
  /-- R332. The traffic manager polices, applies RED and places a released packet into a VOQ or spill. -/
  | tmAdmit (overload : Bool) (ecc : MeterEcc)
  /-- R312. A spilling VOQ's on-chip cells fall to refill_level and fetches of spilled cells start. -/
  | spillRefill (voq : BitVec 16)
  /-- R315. A spill fetch returns and the cell is appended on chip, or the cell and its packet are discarded. -/
  | spillFetchReturn (voq : BitVec 16) (mismatch : Bool)
  /-- R317. In a fabric slot an input function sends one allowed cell to its connected middle. -/
  | inputSlot (station : Fin 32) (ecc : BufEcc)
  /-- R326. A cell arrives at a middle station and is queued, replicated for multicast. -/
  | cellAtMiddle (middle : Fin 32) (ecc : BufEcc) (word : WordEcc)
  /-- R319. In a fabric slot a middle function sends one cell and a control word to its connected output. -/
  | middleSlot (middle : Fin 32) (ecc : BufEcc) (parity : Bool)
  /-- R321. A cell arrives at an output group's reorder context and is released, held or dropped as late. -/
  | cellAtOutput (station : Fin 32) (ecc : BufEcc)
  /-- R322. A reorder context has held a cell for its timeout and skips the gap. -/
  | fabReorderTimeout (grp inGrp : Fin 32) (kind : Fin 9)
  /-- R341. The egress pipe makes each copy, edits it and admits it to a queue, FIFO or launch calendar. -/
  | egressAdmit (grp : Fin 32) (port : Fin 256) (desc : QueueEcc) (word : WordEcc) (edit : Option (Fin 256))
  /-- R343. When the MAC can start a frame the scheduler chooses one, drops stale frames, and the MAC starts it. -/
  | frameStart (port : Fin 256) (preemptable : Bool) (ofs : BitVec 32) (ecc : QueueEcc)
  /-- R378. A launch calendar's head frame reaches its start point and the guard band or start takes effect. -/
  | launchDue (port : Fin 256) (ofs : BitVec 32)
  /-- R27. A write of port_mode is checked and sets the lanes' port mode. -/
  | portModeWrite (c : Ctx) (port : Fin 256) (v : List Byte)
  /-- R35. A write of admin_up enables or disables a port. -/
  | adminUpWrite (c : Ctx) (port : Fin 256) (v : List Byte)
  /-- R48. A write of a link filter time applies to the running filter. -/
  | linkFilterWrite (c : Ctx) (port : Fin 256) (up : Bool) (v : List Byte)
  /-- R33. A lane's amplitude stays past its threshold for 1 µs and signal detect asserts or deasserts. -/
  | signalDetectChange (lane : Fin 64) (on : Bool)
  /-- R34. A port's PCS gains or loses block or alignment lock. -/
  | pcsLockChange (port : Fin 256) (lock : BitVec 8) (speed : Fin 4)
  /-- R34. A port starts or stops receiving local or remote fault. -/
  | linkFaultReceive (port : Fin 256) (kind : Fin 3)
  /-- R35. A fault has lasted LINK_DOWN_FILTER and the port leaves UP for DOWN or HOLDING. -/
  | linkDownFilterExpiry (port : Fin 256)
  /-- R35. A port has been free of fault for LINK_UP_FILTER and enters UP. -/
  | linkUpFilterExpiry (port : Fin 256)
  /-- R35. DOWN_HOLD_TIME elapses for a HOLDING port, which flushes and goes DOWN. -/
  | downHoldExpiry (port : Fin 256)
  /-- R29. A lane fails to train within 500 ms and restarts training. -/
  | trainingTimeout (lane : Fin 64)
  /-- R31. The MAC Merge verify procedure succeeds or fails after three attempts. -/
  | mmVerifyDone (port : Fin 256) (ok : Bool)
  /-- R51. A lane PLL loses lock and the port is taken out of UP. -/
  | lanePllUnlock (lane : Fin 64)
  /-- R50. A write of counters_clear clears a port's counters. -/
  | portCountersClear (c : Ctx) (port : Fin 256) (v : List Byte)
  /-- R74. A write of hue_commit is judged and, if accepted, schedules a commit point. -/
  | hueCommit (c : Ctx) (v : List Byte)
  /-- R69. At the commit point the active hue advances in all pipes and the scrubber restarts. -/
  | commitPoint
  /-- R73. A write of hue_abort removes every staged object. -/
  | hueAbort (c : Ctx) (v : List Byte)
  /-- R72. A rule header write stages a new object or a retirement. -/
  | ruleHeaderWrite (c : Ctx) (v : List Byte)
  /-- R66. A write of a free slot's value, mask or action. -/
  | ruleContentWrite (c : Ctx) (part : Fin 3) (v : List Byte)
  /-- R447. A write stages a per-hue value such as hue_next_image, hue_miss_action or leap_keyed_ops. -/
  | rwhValueWrite (c : Ctx) (obj : Fin 3) (v : List Byte)
  /-- R78. A non-active hue stays in the window longer than hue_drain_limit and EV039 is raised. -/
  | hueDrainLimit (hue : BitVec 16)
  /-- R81. The hue scrubber visits one tagged object and frees or advances it. -/
  | hueScrubVisit
  /-- R93. A pattern-set header write stages or retires a set. -/
  | patSetHeaderWrite (c : Ctx) (v : List Byte)
  /-- R93. A write of an automaton state word. -/
  | patWordWrite (c : Ctx) (v : List Byte)
  /-- R104. A pattern engine is isolated and its windows re-run elsewhere. -/
  | patEngineIsolate (c : Ctx) (v : List Byte)
  /-- R105. Regrowth of a pattern engine starts. -/
  | patEngineRegrow (c : Ctx) (v : List Byte)
  /-- R130. A write of clutch_drain starts draining a clutch. -/
  | clutchDrain (c : Ctx) (v : List Byte)
  /-- R129. A write of clutch_return returns a clutch to service. -/
  | clutchReturn (c : Ctx) (v : List Byte)
  /-- R131. A Skink is isolated and its packets replayed elsewhere. -/
  | skinkIsolate (c : Ctx) (v : List Byte)
  /-- R518. Regrowth of a Skink starts. -/
  | skinkRegrow (c : Ctx) (v : List Byte)
  /-- R122. A write of sf_entry makes, pins or clears a single-file entry and binds it. -/
  | sfEntryWrite (c : Ctx) (v : List Byte)
  /-- R200. An unpinned single-file entry has been idle for sf_idle and is cleared. -/
  | sfIdleExpiry (entry : Fin 256)
  /-- R133. A write of reorder_timeout applies to entries allocated from the next CCLK. -/
  | reorderTimeoutWrite (c : Ctx) (v : List Byte)
  /-- R132. A read of reorder_high_water returns and clears it. -/
  | reorderHighWaterRead (c : Ctx) (pipe : Fin 4)
  /-- R159. A write of cs_buf_data stores 256 B in the image buffer and claims it. -/
  | csBufData (c : Ctx) (v : List Byte)
  /-- R455. A context's image-buffer claim ends after 10 s without a cs_buf_data write. -/
  | imageBufferClaimExpiry
  /-- R157. A clutch load from the dictionary or a host ring checks an image and starts writing it. -/
  | csLoad (source : LoadFrom)
  /-- R158. A clutch load's writes and read-back complete and clutch_image is set. -/
  | csLoadDone (clutch : Fin 16) (mismatches : Fin 3) (second : SecondRead)
  /-- R161. A write of hue_image_load stages a HUE image. -/
  | hueImageLoad (c : Ctx) (v : List Byte)
  /-- R151. A write of disp0_stage stages a bank-0 dispatch entry for hue N. -/
  | disp0Stage (c : Ctx) (v : List Byte)
  /-- R163. A clutch's rewrite and reload after a machine check completes and its CRC is compared. -/
  | csRepairDone (clutch : Fin 16) (copy : CopyRead) (mismatches : Fin 3)
  /-- R237. A table read command returns entries or records. -/
  | tblDmaRead (ring : Fin 64) (entry : BitVec 256) (buf : List Byte) (words : List WordEcc) (dma : Dma)
  /-- R237. A table write command writes entries or records. -/
  | tblDmaWrite (ring : Fin 64) (entry : BitVec 256) (buf : List Byte) (dma : Dma)
  /-- R240. A flow write with INSERT inserts a record under an internal lock. -/
  | tblDmaInsert (ring : Fin 64) (entry : BitVec 256) (buf : List Byte) (dma : Dma)
  /-- R297. A table write with DELETE removes a key or route. -/
  | tblDmaDelete (ring : Fin 64) (entry : BitVec 256) (buf : List Byte) (dma : Dma)
  /-- R238. A lock command enters the lock table and becomes pending. -/
  | tblLock (ring : Fin 64) (entry : BitVec 256) (buf : List Byte) (dma : Dma)
  /-- R193. A pending lock is granted once no open leap holds an accepted write on its records. -/
  | tblLockGrant (lock : Fin 64)
  /-- R238. An unlock command releases a lock. -/
  | tblUnlock (ring : Fin 64) (entry : BitVec 256) (buf : List Byte) (dma : Dma)
  /-- R241. A search command looks up a flow key without filling the cache. -/
  | tblSearch (ring : Fin 64) (entry : BitVec 256) (buf : List Byte) (dma : Dma)
  /-- R242. An iteration command returns the next valid record from a cursor. -/
  | tblNext (ring : Fin 64) (entry : BitVec 256) (dma : Dma)
  /-- R243. A flush by port command queues a flow or MAC flush. -/
  | tblFlushPort (ring : Fin 64) (entry : BitVec 256)
  /-- R243. A flush by template command queues a flow flush. -/
  | tblFlushTemplate (ring : Fin 64) (entry : BitVec 256)
  /-- R243. A flush pass ends and its commands complete. -/
  | flowFlushDone (dma : List (Fin 64 × Dma))
  /-- R231. A write of flow_cache_flush writes back and invalidates cache lines. -/
  | flowCacheFlush (c : Ctx) (v : List Byte)
  /-- R221. A flow-store bucket read returns to the FSU, which answers the lookup and fills the cache. -/
  | bucketReadReturn (tag : Nat) (ecc : FsuEcc)
  /-- R228. The FSU walks buckets to find a path to place a stash record. -/
  | relocWalk (place : Fin 1024)
  /-- R229. Earlier reads of a moved record's old place have returned and the move completes. -/
  | relocMoveDone (path : Fin 16)
  /-- R232. The sweeper visits a record, ages, clamps or exports it. -/
  | sweeperVisit (ecc : FsuEcc)
  /-- R207. A key-template write is checked and stored. -/
  | keyTmplWrite (c : Ctx) (v : List Byte)
  /-- R208. A write of hash_salt while the store is empty. -/
  | hashSaltWrite (c : Ctx) (v : List Byte)
  /-- R213. A record-template header write stages or retires a template. -/
  | tmplHeaderWrite (c : Ctx) (v : List Byte)
  /-- R284. The learn unit applies the oldest sorted request once it is learn_sort_window old. -/
  | learnApply (ecc : WordEcc) (pos : Fin 9)
  /-- R286. The MAC sweeper visits an entry, ages or clamps it. -/
  | macSweepVisit (ecc : WordEcc)
  /-- R287. A MAC flush by port starts or queues. -/
  | macFlushPort (c : Ctx) (v : List Byte)
  /-- R287. A MAC flush walk ends. -/
  | macFlushDone (words : List (BitVec 22 × WordEcc)) (dma : Dma)
  /-- R328. A middle station is isolated. -/
  | middleIsolate (c : Ctx) (v : List Byte)
  /-- R518. Regrowth of a middle station starts. -/
  | middleRegrow (c : Ctx) (v : List Byte)
  /-- R336. A policer configuration write resets its tokens. -/
  | polConfigWrite (c : Ctx) (v : List Byte)
  /-- R347. A shaper configuration write resets its tokens. -/
  | shaperWrite (c : Ctx) (port : Fin 256) (queue : Fin 9) (v : List Byte)
  /-- R337. A RED profile write. -/
  | redProfileWrite (c : Ctx) (v : List Byte)
  /-- R344. A WRR weight write taking effect at the next round. -/
  | queueWeightWrite (c : Ctx) (port : Fin 256) (queue : Fin 8) (v : List Byte)
  /-- R344. A write of strict_count ends the WRR round. -/
  | strictCountWrite (c : Ctx) (port : Fin 256) (v : List Byte)
  /-- R355. At an epoch boundary the time unit applies pending INC changes, steps and board delays. -/
  | epochBoundary (fault : TimeFault)
  /-- R373. Every 512th epoch W's increment is updated toward the active domain. -/
  | wUpdate
  /-- R369. A domain has accepted no sample for dom_loss_timeout and enters HOLDOVER. -/
  | domLossTimeout (d : Fin 2)
  /-- R369. A write of dom_enable enables or disables a domain. -/
  | domEnableWrite (c : Ctx) (d : Fin 2) (v : List Byte)
  /-- R372. A write of w_select switches W to a LOCKED domain. -/
  | wSelectWrite (c : Ctx) (v : List Byte)
  /-- R372. A write of w_set sets W in FREE. -/
  | wSet (c : Ctx) (v : List Byte)
  /-- R371. A write of dom_step steps a domain in SOFTWARE mode. -/
  | domStep (c : Ctx) (d : Fin 2) (v : List Byte)
  /-- R371. A write of dom_inc sets a domain's increment in SOFTWARE mode. -/
  | domIncWrite (c : Ctx) (d : Fin 2) (v : List Byte)
  /-- R386. A write of time_snapshot captures all four counters in one tick. -/
  | timeSnapshot (c : Ctx) (v : List Byte)
  /-- R383. An event-input level has been stable for evt_filter and is captured. -/
  | evtInEdge (k : Fin 4) (falling : Bool) (samples : Nat)
  /-- R383. A read of evt_fifo returns and removes the oldest capture. -/
  | evtFifoRead (c : Ctx) (k : Fin 4)
  /-- R381. A PPS output's counter reaches its period and the pulse rises or falls. -/
  | ppsEdge (k : Fin 2) (rise : Bool)
  /-- R360. A phase interval ends and a port's ts_state is re-judged. -/
  | phaseInterval (port : Fin 256) (move : Nat)
  /-- R392. A controller's training passes or fails. -/
  | hbmTrainingDone (pc : Fin 128) (pass : Bool) (spares : Nat) (bad : List (Fin 16))
  /-- R393. At hbm_retrain_interval a controller refreshes all banks and retrains its data phases. -/
  | hbmRetrain (pc : Fin 128) (pass spare : Bool)
  /-- R395. A bank's refresh falls due and the controller refreshes it. -/
  | hbmRefresh (pc : Fin 128)
  /-- R395. Every 1 ms a controller reads the stack temperature and sets the refresh rate. -/
  | hbmTempSample (stack : Fin 4) (temp : BitVec 32)
  /-- R401. A read returns from the stack and its ECC results are combined. -/
  | hbmReadComplete (pc : Fin 128) (ecc : BurstEcc)
  /-- R404. The stack reports a command/address parity error. -/
  | hbmCaParity (pc : Fin 128) (offset : BitVec 30) (write : Bool) (client : Fin 8)
  /-- R398. A FILL row held open reaches 128 MCLK without the write-back or release. -/
  | rowHoldExpiry (pc : Fin 128) (bank : Fin 48)
  /-- R403. The patrol scrub reads the next burst. -/
  | hbmPatrolScrub (pc : Fin 128)
  /-- R408. A write of hbm_thaw starts a thaw. -/
  | hbmThaw (c : Ctx) (v : List Byte)
  /-- R408. A thaw's steps end and the controller is ACTIVE or FROZEN. -/
  | hbmThawDone (pc : Fin 128) (res : ThawEnd) (spare : Bool) (bad : List (BitVec 30))
  /-- R409. A pseudo-channel is retired. -/
  | hbmRetire (c : Ctx) (v : List Byte)
  /-- R410. Regrowth of a retired pseudo-channel starts. -/
  | hbmRegrow (c : Ctx) (v : List Byte)
  /-- R407. A soft post-package repair of a row starts. -/
  | hbmPprSoft (c : Ctx)
  /-- R407. A hard post-package repair of a row starts. -/
  | hbmPprHard (c : Ctx)
  /-- R407. A row repair ends with success or failure. -/
  | hbmPprDone (pc : Fin 128) (pass : Bool) (bad : List (BitVec 30))
  /-- R421. A command-ring doorbell is ignored, accepted or is a ring-level error. -/
  | crDoorbell (ring : Fin 64) (value : BitVec 32)
  /-- R421. A delivery-ring doorbell moves H or is refused. -/
  | drDoorbell (ring : Fin 64) (value : BitVec 32)
  /-- R421. A buffer-ring doorbell moves the buffer producer or is refused. -/
  | brDoorbell (ring : Fin 64) (value : BitVec 32)
  /-- R423. A CR_CTRL write enabling a command ring. -/
  | crCtrlWrite (ring : Fin 64) (base wb : BitVec 64) (ctrl : BitVec 32) (posted : List (BitVec 8)) (regs : List HostReg)
  /-- R434. A write of ENABLE 0 stops a command ring under STOP_MODE. -/
  | crStop (ring : Fin 64) (posted : List (BitVec 8))
  /-- R435. A DR_CTRL write enables or disables a delivery ring. -/
  | drCtrlWrite (ring : Fin 64) (regs : DelRegs) (ctrl : BitVec 32)
  /-- R425. Command entry NOP completes. -/
  | cmdNop (ring : Fin 64) (entry : BitVec 256)
  /-- R428. Command entry PKT_INJECT sends a host frame into the parser or step 9. -/
  | pktInject (ring : Fin 64) (entry : BitVec 256) (buf : List Byte) (dma : Dma)
  /-- R430. Command entry HUE_STAGE stages hue-image records. -/
  | hueStage (ring : Fin 64) (entry : BitVec 256) (buf : List Byte) (dma : Dma)
  /-- R438. An item is written to a delivery ring, held or dropped. -/
  | deliverItem (ring : Fin 64) (entry : BitVec 256) (bad : Bool)
  /-- R438. A held delivery item has waited HOLD_LIMIT and is dropped. -/
  | deliveryHoldExpiry (ring : Fin 64)
  /-- R437. DR_COAL_TIME after the first unsignalled item the ring's vector is raised. -/
  | deliveryCoalTimer (ring : Fin 64)
  /-- R441. A function-level or hot reset resets the host interface. -/
  | functionLevelReset
  /-- R441. The PCIe link goes down and the host interface is reset. -/
  | pcieLinkDown
  /-- R417. A host read of BAR2 is served from the software region. -/
  | bar2Read (offset : BitVec 35) (len : Fin 4097)
  /-- R417. A host write of BAR2 is accepted into the software region. -/
  | bar2Write (offset : BitVec 35) (data : List Byte)
  /-- R469. A mailbox doorbell executes MB_REQUEST. -/
  | mbDoorbell (request : List Byte) (ctrl : BitVec 8)
  /-- R451. A dictionary write of an object with no row of its own is judged, applied and journaled. -/
  | dictWrite (c : Ctx) (idx : BitVec 16) (sub : BitVec 8) (v : List Byte)
  /-- R457. A write of a path enable. -/
  | pathEnableWrite (c : Ctx) (path : Fin 5) (v : List Byte)
  /-- R466. An OAP request datagram on MGMT is checked and executed, re-answered or discarded. -/
  | oapRequest (mgmtPort : Fin 2) (frame : List Byte)
  /-- R461. An ARP request for mgmt_ipv4 is answered. -/
  | oapArpRequest (mgmtPort : Fin 2) (frame : List Byte)
  /-- R466. An OAP session has been idle for oap_session_timeout and ends. -/
  | oapSessionExpiry (inband : Bool) (session : Fin 8)
  /-- R470. A CANopen SDO request frame is served. -/
  | sdoRequest (cobId : BitVec 11) (fd : Bool) (data : List Byte)
  /-- R473. A segmented transfer's gap exceeds sdo_timeout and it is aborted. -/
  | sdoSegmentTimeout
  /-- R475. A write of save 1 snapshots N objects and starts writing a flash bank. -/
  | save (c : Ctx)
  /-- R475. A write of save 2 invalidates both flash banks. -/
  | erase (c : Ctx)
  /-- R475. A flash save ends OK or FLASH_FAIL. -/
  | saveDone (ok : Bool)
  /-- R479. A write of str_enable starts or stops the stream port. -/
  | strEnableWrite (c : Ctx) (v : List Byte)
  /-- R479. Stream-port receive alignment is gained or lost. -/
  | strLaneLockChange (lock : BitVec 8) (deskewed : Bool)
  /-- R480. A flow-control control word is received and applied or ignored. -/
  | fcControlWord (crcOk reset : Bool) (status : BitVec 16)
  /-- R480. No good control word for str_fc_timeout; every channel is XOFF. -/
  | fcTimeout
  /-- R481. The stream transmitter sends one burst of a record on an XON channel. -/
  | strBurstSend (staged : StageRead)
  /-- R506. The fault manager takes an occurrence, merges, coalesces or records it and takes its reactions. -/
  | eventOccurrence (found : DeviceCheck)
  /-- R556. The Eft completes writing the first-fault record to flash. -/
  | firstFaultWritten (ok : Bool)
  /-- R507. An open fault record reaches fm_open_limit and closes. -/
  | recordOpenLimit (seq : BitVec 32)
  /-- R514. CROAK_N's minimum width ends and the pin is released or held. -/
  | croakTimerExpiry
  /-- R514. A write of croak_level requests release or asserts CROAK_N. -/
  | croakLevelWrite (c : Ctx) (v : List Byte)
  /-- R505. A write of ev_clear clears a source's escalation. -/
  | evClear (c : Ctx) (src : Fin 250) (v : List Byte)
  /-- R501. A write of a source's reaction or escalation settings. -/
  | evConfigWrite (c : Ctx) (src : Fin 250) (obj : Fin 4) (v : List Byte)
  /-- R512. A write of fm_log_ack acknowledges log records. -/
  | fmLogAck (c : Ctx) (v : List Byte)
  /-- R513. A write of fm_summary_clear clears summary bits. -/
  | fmSummaryClear (c : Ctx) (v : List Byte)
  /-- R510. A write of fm_first_clear clears fm_first_fault. -/
  | fmFirstClear (c : Ctx) (v : List Byte)
  /-- R517. A write of fm_isolate isolates a unit. -/
  | fmIsolate (c : Ctx) (v : List Byte)
  /-- R518. A write of fm_regrow starts regrowth of a unit. -/
  | fmRegrow (c : Ctx) (v : List Byte)
  /-- R518. A unit's regrowth steps end; it is readmitted at the next commit point or stays isolated. -/
  | unitRegrowthDone (utype : Fin 17) (unit : Fin 256) (pass : Bool) (spares : Nat)
  /-- R525. PWRGOOD rises after 1 ms low and the device powers on and boots. -/
  | powerOnReset (device : BitVec 14) (straps : BitVec 3) (slot0 slot1 : List Byte)
  /-- R587. PWRGOOD falls and the Eft releases the core enables. -/
  | pwrgoodFall
  /-- R525. RESET_N low starts a cold reset. -/
  | resetN (straps : BitVec 3)
  /-- R529. WARM_N low starts an unorderly warm reset. -/
  | warmN
  /-- R528. A write of reset_cmd 1 starts an orderly warm reset. -/
  | resetCmdWarm (c : Ctx)
  /-- R525. A write of reset_cmd 2 starts a cold reset. -/
  | resetCmdCold (c : Ctx) (straps : BitVec 3)
  /-- R528. The Skinks empty or 10 ms pass and the orderly reset goes on to flush and reset the core. -/
  | warmDrainDone
  /-- R530. After a warm reset or wake the device restores its state and returns to ACTIVE. -/
  | restartSequence (reloads : List StoreReload)
  /-- R536. A write of brumate or a BRUMATE action starts brumation entry. -/
  | brumate (c : Ctx) (v : List Byte)
  /-- R537. Entry steps end, the rails are off and power_state is BRUMATION. -/
  | brumationReached
  /-- R539. A write of wake or a WAKE action starts the wake. -/
  | wake (c : Ctx) (v : List Byte)
  /-- R541. Once a second the Eft loads coarse time from W. -/
  | coarseTimeLoad
  /-- R543. The Eft forwards or drops a frame between the watch ports. -/
  | passFrame (fromB : Bool) (frame : List Byte) (lost : Bool)
  /-- R546. A sampler channel takes a sample and accepts or rejects it. -/
  | samplerSample (chan : Fin 16) (x : BitVec 32)
  /-- R546. A channel has accepted no sample for four periods. -/
  | samplerTimeout (chan : Fin 16) (held : Bool)
  /-- R547. A write of sampler_cfg empties the channel's window. -/
  | samplerCfgWrite (c : Ctx) (chan : Fin 16) (v : List Byte)
  /-- R549. Every 1 ms the Eft evaluates its rules and takes the actions of those that fire. -/
  | eftRuleEval (memory : EftMemory)
  /-- R553. A heartbeat gap reaches eft_wdog_timeout and the Eft starts a warm or cold reset. -/
  | wdogTimeout (last : BitVec 64) (straps : BitVec 3)
  /-- R558. REFCLK is found outside its window over 1 ms and both domains enter HOLDOVER. -/
  | refclkWindowCheck
  /-- R558. AONCLK fails and the Eft switches to its internal oscillator. -/
  | aonclkFault
  /-- R586. A rail has held in range for 1 ms and the Eft raises the next enable. -/
  | railEnableStep (held : Bool)
  /-- R586. A rail fails to reach its range within 15 ms of its enable. -/
  | railTimeout
  /-- R584. VDD_CORE or VDD_SRAM stays outside its window for 10 µs. -/
  | coreRailFault (rail : Fin 2)
  /-- R598. Every 1 ms the die sensors are read against the grade maximum. -/
  | tjSample (sensor : Fin 7) (mc : BitVec 32)
  /-- R598. A sensor reads above 125 °C for 100 µs. -/
  | thermalTrip
  /-- R524. The root PLL loses lock. -/
  | rpllUnlock
  /-- R565. A write of dbg_halt halts a thread or Skink. -/
  | dbgHalt (c : Ctx) (v : List Byte)
  /-- R566. A write of dbg_step makes a halted thread issue n words. -/
  | dbgStep (c : Ctx) (v : List Byte)
  /-- R567. A write of dbg_resume resumes a thread or Skink. -/
  | dbgResume (c : Ctx) (v : List Byte)
  /-- R569. A halted thread's leap stays open for halt_leap_timeout and is force-aborted. -/
  | haltLeapTimeout (thread : Fin 2048)
  /-- R570. A write arming or disarming a breakpoint. -/
  | breakpointWrite (c : Ctx) (clutch : Fin 16) (b : Fin 4) (v : List Byte)
  /-- R572. A write of trace_ctrl starts or stops trace recording. -/
  | traceCtrlWrite (c : Ctx) (clutch : Fin 16) (v : List Byte)
  /-- R574. A clutch offers its oldest unexported trace entries as a TRACE record. -/
  | traceExport (clutch : Fin 16)
  /-- R575. dbg_mem_cmd READ reads 32 B of a debug space. -/
  | dbgMemRead (c : Ctx) (parity : Bool)
  /-- R575. dbg_mem_cmd WRITE writes 32 B of a debug space. -/
  | dbgMemWrite (c : Ctx)
  /-- R576. A write of lane_prbs starts or stops a lane's pattern generator and checker. -/
  | lanePrbsWrite (c : Ctx) (lane : Fin 64) (v : List Byte) (pattern : Option Nat)
  /-- R580. boot_load 1 loads and checks the FULL boot image. -/
  | bootLoadFull (c : Ctx)
  /-- R580. boot_load 2 loads and checks the HUE boot image. -/
  | bootLoadHue (c : Ctx)
  /-- R580. A write of boot_go finishes a stopped boot. -/
  | bootGo (c : Ctx) (bad : List (Fin 16))
  /-- R558. SDP_TRST_N stable low resets the TAP. -/
  | tapReset
  /-- R562. TAP instruction EXTEST drives the boundary scan. -/
  | extest (bits : List Bool)
  /-- R562. TAP instruction SAMPLE/PRELOAD captures the boundary scan. -/
  | samplePreload (bits : List Bool)
  /-- R563. TAP instruction IDCODE returns the ID code. -/
  | idcode
  /-- R562. TAP instruction BYPASS selects the bypass register. -/
  | bypass (code : BitVec 8) (bits : List Bool)
  /-- R564. DICT operation STATUS captures the request state. -/
  | dictStatus
  /-- R564. DICT operation PUT appends a request byte. -/
  | dictPut (byte : Byte)
  /-- R564. DICT operation GO executes the SDP request. -/
  | dictGo
  /-- R564. DICT operation GET returns the next response byte. -/
  | dictGet
  /-- R298. The rewrite of a damaged forwarding-table word from its shadow completes within 10 µs, or both shadow copies are found unreadable. -/
  | tableRewriteDone (target : Fin 32) (item : Nat) (readable : Bool)
  /-- R404. A controller detects a parity error in its own queues and freezes with CAUSE QUEUE_PARITY. -/
  | hbmQueueParity (pc : Fin 128) (client : Fin 8)
  /-- R439. A device read of command-ring or buffer-ring memory gets no completion within the completion timeout, or gets UR, CA or poisoned data, and the function halts. -/
  | pcieCompletionTimeout (ring : Fin 64) (delivery : Bool) (fault : RingFault)
  /-- R525. RESET_N returns high, ending the trigger of a cold reset, and the boot proceeds from that point. -/
  | resetNRelease
  /-- R586. The rail of a released enable has fallen below 10 % of nominal, or 5 ms have passed, and the Eft releases the next enable. -/
  | railReleaseStep
  /-- R29. A lane finishes link training successfully and the port leaves the TRAINING detail on its way to UP. -/
  | linkTrainingDone (lane : Fin 64)
  /-- R478. A data packet received on STR_RX is discarded and counted in str_rx_discard. -/
  | strRxPacket
deriving DecidableEq, Repr

end Sys2Proof
end

