-- ==== Sys2Proof/WellFormed.lean ====
section
/-! DEFINITION. Which commands a sender can form. The operand types bound every number already; what is left are the lengths of byte
strings. No meaning refuses a command for its length: where the spec names an outcome, such as LENGTH of R451, that is what happens. -/

namespace Sys2Proof

/-- A frame's length fits LENGTH of R18. -/
def frameOk (f : List Byte) : Bool := decide (f.length < 2 ^ 14)

/-- The value of a dictionary item fits a PDU (R463). -/
def valueOk (v : List Byte) : Bool := decide (v.length ≤ 1400)

/-- A request PDU (R463, R468). -/
def requestOk (r : List Byte) : Bool := decide (r.length ≤ 1400)

/-- A data buffer fits DATA_LEN of R424. -/
def bufferOk (b : List Byte) : Bool := decide (b.length < 2 ^ 32)

/-- The bytes of one PCIe write (R418). -/
def windowOk (b : List Byte) : Bool := decide (b.length ≤ 4096)

/-- The data of a CAN FD frame (R470). -/
def canOk (b : List Byte) : Bool := decide (b.length ≤ 64)

/-- A boot slot of the flash (R555). -/
def slotOk (b : List Byte) : Bool := decide (b.length ≤ 2 ^ 22)

/-- Where a clutch load comes from. -/
def sourceOk : LoadFrom → Bool
  | .dict _ v => valueOk v
  | .ring _ _ image _ => bufferOk image

/-- A command that a sender can form. -/
def Instr.wellFormed : Instr → Bool
  | .frameReceive _ frame _ => frameOk frame
  | .parse _ _ => true
  | .ruleRewriteDone _ _ => true
  | .patternScan _ _ => true
  | .patMemRewriteDone _ _ => true
  | .patternResult _ => true
  | .joinRelease _ => true
  | .spray _ => true
  | .sprayStallTimeout _ => true
  | .contextLoaded _ _ => true
  | .seq _ _ => true
  | .disp _ _ => true
  | .halt _ _ => true
  | .trap _ _ => true
  | .nop _ _ => true
  | .mov _ _ => true
  | .add _ _ => true
  | .sub _ _ => true
  | .and _ _ => true
  | .or _ _ => true
  | .xor _ _ => true
  | .andn _ _ => true
  | .shl _ _ => true
  | .shr _ _ => true
  | .sar _ _ => true
  | .ext _ _ => true
  | .ins _ _ => true
  | .min _ _ => true
  | .max _ _ => true
  | .sdiff _ _ => true
  | .cmp _ _ => true
  | .tstb _ _ => true
  | .absd _ _ => true
  | .popc _ _ => true
  | .ffs _ _ => true
  | .bswap _ _ => true
  | .movz _ _ => true
  | .movnz _ _ => true
  | .lds _ _ => true
  | .sts _ _ => true
  | .ldh _ _ => true
  | .hash _ _ => true
  | .lkmac _ _ => true
  | .lknat _ _ => true
  | .lklpm4 _ _ => true
  | .lklpm6 _ _ => true
  | .lkmcg _ _ => true
  | .lkmbr _ _ => true
  | .learn _ _ => true
  | .lbind _ _ => true
  | .lrd _ _ => true
  | .lset _ _ => true
  | .ladd _ _ => true
  | .lmax _ _ => true
  | .lmin _ _ => true
  | .lor _ _ => true
  | .lseq _ _ => true
  | .ldup _ _ => true
  | .ltok _ _ => true
  | .lins _ _ => true
  | .ldel _ _ => true
  | .labort _ _ => true
  | .hset _ _ => true
  | .setdest _ _ => true
  | .setq _ _ => true
  | .flags _ _ => true
  | .setedit _ _ => true
  | .setlaunch _ _ => true
  | .reason _ _ => true
  | .colour _ _ => true
  | .postcard _ _ => true
  | .progdata _ _ => true
  | .operationResult _ _ _ _ _ => true
  | .leapCommit _ _ => true
  | .leapStatusDelivered _ => true
  | .leapWaitLimit _ => true
  | .lockWaitTimeout _ => true
  | .reorderRelease _ _ _ => true
  | .reorderTimeout _ => true
  | .tmAdmit _ _ => true
  | .spillRefill _ => true
  | .spillFetchReturn _ _ => true
  | .inputSlot _ _ => true
  | .cellAtMiddle _ _ _ => true
  | .middleSlot _ _ _ => true
  | .cellAtOutput _ _ => true
  | .fabReorderTimeout _ _ _ => true
  | .egressAdmit _ _ _ _ _ => true
  | .frameStart _ _ _ _ => true
  | .launchDue _ _ => true
  | .portModeWrite _ _ v => valueOk v
  | .adminUpWrite _ _ v => valueOk v
  | .linkFilterWrite _ _ _ v => valueOk v
  | .signalDetectChange _ _ => true
  | .pcsLockChange _ _ _ => true
  | .linkFaultReceive _ _ => true
  | .linkDownFilterExpiry _ => true
  | .linkUpFilterExpiry _ => true
  | .downHoldExpiry _ => true
  | .trainingTimeout _ => true
  | .mmVerifyDone _ _ => true
  | .lanePllUnlock _ => true
  | .portCountersClear _ _ v => valueOk v
  | .hueCommit _ v => valueOk v
  | .commitPoint => true
  | .hueAbort _ v => valueOk v
  | .ruleHeaderWrite _ v => valueOk v
  | .ruleContentWrite _ _ v => valueOk v
  | .rwhValueWrite _ _ v => valueOk v
  | .hueDrainLimit _ => true
  | .hueScrubVisit => true
  | .patSetHeaderWrite _ v => valueOk v
  | .patWordWrite _ v => valueOk v
  | .patEngineIsolate _ v => valueOk v
  | .patEngineRegrow _ v => valueOk v
  | .clutchDrain _ v => valueOk v
  | .clutchReturn _ v => valueOk v
  | .skinkIsolate _ v => valueOk v
  | .skinkRegrow _ v => valueOk v
  | .sfEntryWrite _ v => valueOk v
  | .sfIdleExpiry _ => true
  | .reorderTimeoutWrite _ v => valueOk v
  | .reorderHighWaterRead _ _ => true
  | .csBufData _ v => valueOk v
  | .imageBufferClaimExpiry => true
  | .csLoad source => sourceOk source
  | .csLoadDone _ _ _ => true
  | .hueImageLoad _ v => valueOk v
  | .disp0Stage _ v => valueOk v
  | .csRepairDone _ _ _ => true
  | .tblDmaRead _ _ buf _ _ => bufferOk buf
  | .tblDmaWrite _ _ buf _ => bufferOk buf
  | .tblDmaInsert _ _ buf _ => bufferOk buf
  | .tblDmaDelete _ _ buf _ => bufferOk buf
  | .tblLock _ _ buf _ => bufferOk buf
  | .tblLockGrant _ => true
  | .tblUnlock _ _ buf _ => bufferOk buf
  | .tblSearch _ _ buf _ => bufferOk buf
  | .tblNext _ _ _ => true
  | .tblFlushPort _ _ => true
  | .tblFlushTemplate _ _ => true
  | .flowFlushDone _ => true
  | .flowCacheFlush _ v => valueOk v
  | .bucketReadReturn _ _ => true
  | .relocWalk _ => true
  | .relocMoveDone _ => true
  | .sweeperVisit _ => true
  | .keyTmplWrite _ v => valueOk v
  | .hashSaltWrite _ v => valueOk v
  | .tmplHeaderWrite _ v => valueOk v
  | .learnApply _ _ => true
  | .macSweepVisit _ => true
  | .macFlushPort _ v => valueOk v
  | .macFlushDone _ _ => true
  | .middleIsolate _ v => valueOk v
  | .middleRegrow _ v => valueOk v
  | .polConfigWrite _ v => valueOk v
  | .shaperWrite _ _ _ v => valueOk v
  | .redProfileWrite _ v => valueOk v
  | .queueWeightWrite _ _ _ v => valueOk v
  | .strictCountWrite _ _ v => valueOk v
  | .epochBoundary _ => true
  | .wUpdate => true
  | .domLossTimeout _ => true
  | .domEnableWrite _ _ v => valueOk v
  | .wSelectWrite _ v => valueOk v
  | .wSet _ v => valueOk v
  | .domStep _ _ v => valueOk v
  | .domIncWrite _ _ v => valueOk v
  | .timeSnapshot _ v => valueOk v
  | .evtInEdge _ _ _ => true
  | .evtFifoRead _ _ => true
  | .ppsEdge _ _ => true
  | .phaseInterval _ _ => true
  | .hbmTrainingDone _ _ _ _ => true
  | .hbmRetrain _ _ _ => true
  | .hbmRefresh _ => true
  | .hbmTempSample _ _ => true
  | .hbmReadComplete _ _ => true
  | .hbmCaParity _ _ _ _ => true
  | .rowHoldExpiry _ _ => true
  | .hbmPatrolScrub _ => true
  | .hbmThaw _ v => valueOk v
  | .hbmThawDone _ _ _ _ => true
  | .hbmRetire _ v => valueOk v
  | .hbmRegrow _ v => valueOk v
  | .hbmPprSoft _ => true
  | .hbmPprHard _ => true
  | .hbmPprDone _ _ _ => true
  | .crDoorbell _ _ => true
  | .drDoorbell _ _ => true
  | .brDoorbell _ _ => true
  | .crCtrlWrite _ _ _ _ _ _ => true
  | .crStop _ _ => true
  | .drCtrlWrite _ _ _ => true
  | .cmdNop _ _ => true
  | .pktInject _ _ buf _ => bufferOk buf
  | .hueStage _ _ buf _ => bufferOk buf
  | .deliverItem _ _ _ => true
  | .deliveryHoldExpiry _ => true
  | .deliveryCoalTimer _ => true
  | .functionLevelReset => true
  | .pcieLinkDown => true
  | .bar2Read _ _ => true
  | .bar2Write _ data => windowOk data
  | .mbDoorbell request _ => requestOk request
  | .dictWrite _ _ _ v => valueOk v
  | .pathEnableWrite _ _ v => valueOk v
  | .oapRequest _ frame => frameOk frame
  | .oapArpRequest _ frame => frameOk frame
  | .oapSessionExpiry _ _ => true
  | .sdoRequest _ _ data => canOk data
  | .sdoSegmentTimeout => true
  | .save _ => true
  | .erase _ => true
  | .saveDone _ => true
  | .strEnableWrite _ v => valueOk v
  | .strLaneLockChange _ _ => true
  | .fcControlWord _ _ _ => true
  | .fcTimeout => true
  | .strBurstSend _ => true
  | .eventOccurrence _ => true
  | .firstFaultWritten _ => true
  | .recordOpenLimit _ => true
  | .croakTimerExpiry => true
  | .croakLevelWrite _ v => valueOk v
  | .evClear _ _ v => valueOk v
  | .evConfigWrite _ _ _ v => valueOk v
  | .fmLogAck _ v => valueOk v
  | .fmSummaryClear _ v => valueOk v
  | .fmFirstClear _ v => valueOk v
  | .fmIsolate _ v => valueOk v
  | .fmRegrow _ v => valueOk v
  | .unitRegrowthDone _ _ _ _ => true
  | .powerOnReset _ _ slot0 slot1 => slotOk slot0 && slotOk slot1
  | .pwrgoodFall => true
  | .resetN _ => true
  | .warmN => true
  | .resetCmdWarm _ => true
  | .resetCmdCold _ _ => true
  | .warmDrainDone => true
  | .restartSequence _ => true
  | .brumate _ v => valueOk v
  | .brumationReached => true
  | .wake _ v => valueOk v
  | .coarseTimeLoad => true
  | .passFrame _ frame _ => frameOk frame
  | .samplerSample _ _ => true
  | .samplerTimeout _ _ => true
  | .samplerCfgWrite _ _ v => valueOk v
  | .eftRuleEval _ => true
  | .wdogTimeout _ _ => true
  | .refclkWindowCheck => true
  | .aonclkFault => true
  | .railEnableStep _ => true
  | .railTimeout => true
  | .coreRailFault _ => true
  | .tjSample _ _ => true
  | .thermalTrip => true
  | .rpllUnlock => true
  | .dbgHalt _ v => valueOk v
  | .dbgStep _ v => valueOk v
  | .dbgResume _ v => valueOk v
  | .haltLeapTimeout _ => true
  | .breakpointWrite _ _ _ v => valueOk v
  | .traceCtrlWrite _ _ v => valueOk v
  | .traceExport _ => true
  | .dbgMemRead _ _ => true
  | .dbgMemWrite _ => true
  | .lanePrbsWrite _ _ v _ => valueOk v
  | .bootLoadFull _ => true
  | .bootLoadHue _ => true
  | .bootGo _ _ => true
  | .tapReset => true
  | .extest _ => true
  | .samplePreload _ => true
  | .idcode => true
  | .bypass _ _ => true
  | .dictStatus => true
  | .dictPut _ => true
  | .dictGo => true
  | .dictGet => true
  | .tableRewriteDone _ _ _ => true
  | .hbmQueueParity _ _ => true
  | .pcieCompletionTimeout _ _ _ => true
  | .resetNRelease => true
  | .railReleaseStep => true
  | .linkTrainingDone _ => true
  | .strRxPacket => true

end Sys2Proof
end

