-- ==== Sys2Proof/Config.lean ====
section
/-! DEFINITION. What a part fixes (fuses, straps of the board) and the free values: constants with no body, of which no
proof can see a value. -/

namespace Sys2Proof.Config

/-- A value the spec leaves open, drawn afresh by advancing `State.free`. -/
opaque freeValue : Nat → Nat

/-- The fused grade: 0 E, 1 C (R477). -/
opaque fusedGrade : Bool

/-- The fused serial number, 16 bytes (R477). -/
opaque fusedSerial : BitVec 128

/-- The fused receive latency in ps for a port mode and FEC setting, 32 bits two's complement (R358, ts_cal_entry). -/
opaque rxLat : Nat → Nat → BitVec 32

/-- The fused transmit latency in ps for a port mode and FEC setting, 32 bits two's complement (R359, ts_cal_entry). -/
opaque txLat : Nat → Nat → BitVec 32

/-- The fused input delay of an event pin in ps (R383). -/
opaque evtDelay : Nat → BitVec 16

/-- The hard-repair resources that the stack gives a pseudo-channel's controller (R413). -/
opaque hpprStack : Nat → BitVec 8

/-- The spare data lanes that a stack has for lane repair (R392). -/
opaque spareLanes : Nat → BitVec 8

/-- The granule of HBM0's image region at which the image buffer begins; R391 gives its size and not its place. -/
opaque imageBufferAt : BitVec 18

/-- The granule of HBM1's image region at which the MAC save begins; an entry has 16 of its 32 Mi bytes. -/
opaque macSaveAt : BitVec 18

/-- The granule of a stack's image region at which its copy of the shadows, of 64 MiB, begins (R391). -/
opaque shadowStart : Nat → BitVec 18

/-- The burst of a copy of the shadows that holds an object, by kind and number (R391). -/
opaque shadowAt : Nat → Nat → BitVec 21

/-- The granule of a stack's image region at which the golden copy of 16 MiB of an image begins, by the image's order (R391). -/
opaque goldenAt : Nat → Nat → BitVec 18

/-- The frame an edit descriptor makes of a frame (R18, R291): the spec gives no descriptor format. -/
opaque editBytes : Nat → List Byte → List Byte

/-- The bytes an edit descriptor inserts ahead of the network header. -/
opaque editIns : Nat → List Byte → Nat

/-- The place of a port's start grid against W, in units of 2^-8 ps, for a launch near a time (R379): the grid is fixed by
the transmit PCS, and W steps and slews past it. -/
opaque gridPhase : Nat → Nat → Nat

/-- The `k`-th pattern that the state words of a pattern set hold, as a number (R91): the spec gives state words no format. -/
opaque patternAt : List (Nat × Nat) → Nat → Nat

/-- The sequence number that the copies of a packet, named by its item, carry in their PRP trailer or HSR tag (R45): the spec gives no rule. -/
opaque redundancySeq : Nat → BitVec 16

/-- Which actions of the original a mirror copy of MODE PORT keeps (R491): bit 0 POL_SET, 1 EDIT_IDX, 2 the launch fields, 3 MARK, 4 EXPRESS,
5 PROG_DATA. The spec names only its port and queue. -/
opaque mirrorKeeps : BitVec 6

/-- The type of service, time to live and flags of the in-band agent's IPv4 headers (R462): the spec states none of them. -/
opaque oapTos : BitVec 8

/-- See `oapTos`. -/
opaque oapTtl : BitVec 8

/-- See `oapTos`: DF. -/
opaque oapDontFragment : Bool

/-- Whether the in-band agent's UDP datagrams carry a checksum or 0 (R462). -/
opaque oapUdpChecksum : Bool

/-- The number by which the debug view of a thread shows each state of R112, in the order of its table (R575). -/
opaque threadCode : Nat → BitVec 4

/-- The number of the result MEM_FROZEN of dbg_mem_cmd (R575). -/
opaque memFrozenCode : BitVec 8

end Sys2Proof.Config
end

