-- ==== Sys2Proof/Machine/Bits.lean ====
section
/-! DEFINITION. Bit fields, byte orders, two's complement, saturating counts, wrapping comparison (R5, R6, R8) and the
sparse tables. -/

namespace Sys2Proof.Machine

/-- The field of `w` bits whose least significant bit is bit `lo`, the layout rule of every field table. -/
def fld (v lo w : Nat) : Nat := (v >>> lo) % 2 ^ w

/-- One bit as a Bool. -/
def bit (v i : Nat) : Bool := fld v i 1 == 1

/-- `v` with the field `[lo + w - 1 : lo]` replaced by the low `w` bits of `x`. -/
def setFld (v lo w x : Nat) : Nat :=
  (v >>> (lo + w)) <<< (lo + w) + (x % 2 ^ w) <<< lo + v % 2 ^ lo

/-- 1 or 0. -/
def b2n (b : Bool) : Nat := if b then 1 else 0

/-- Little-endian bytes as a number: byte 0 holds bits [7:0] (R5, R445). -/
def leNat : List Byte → Nat
  | [] => 0
  | b :: bs => b.toNat + 256 * leNat bs

/-- The `n` low bytes of `v`, least significant first. -/
def leBytes : Nat → Nat → List Byte
  | 0, _ => []
  | n + 1, v => BitVec.ofNat 8 v :: leBytes n (v / 256)

/-- Network-order bytes as a number. -/
def beNat (bs : List Byte) : Nat := bs.foldl (fun a b => a * 256 + b.toNat) 0

/-- The `n` low bytes of `v`, most significant first. -/
def beBytes (n v : Nat) : List Byte := (leBytes n v).reverse

/-- Two's complement reading of a `w`-bit number. -/
def toSigned (w v : Nat) : Int :=
  if v % 2 ^ w < 2 ^ (w - 1) then ((v % 2 ^ w : Nat) : Int) else ((v % 2 ^ w : Nat) : Int) - (2 : Int) ^ w

/-- The `w`-bit two's complement number of an integer. -/
def ofSigned (w : Nat) (i : Int) : Nat := (i % (2 : Int) ^ w).toNat

/-- R6: the signed `w`-bit difference of two values of a field that wraps. -/
def wrapDiff (w a b : Nat) : Int := toSigned w (a + 2 ^ w - b % 2 ^ w)

/-- R6: the signed difference of two values of a field that wraps at `m`. -/
def modDiff (m a b : Nat) : Int :=
  let d := (a + (m - b % m)) % m
  if 2 * d < m then (d : Int) else (d : Int) - (m : Int)

/-- R6: `a` is later than `b`. -/
def later (w a b : Nat) : Bool := 0 < wrapDiff w a b

/-- R8: an unsigned count of `w` bits saturates. -/
def satAdd (w a n : Nat) : Nat := min (a + n) (2 ^ w - 1)

/-- The bytes `[off, off + n)` of a list, short where the list ends. -/
def slice (l : List α) (off n : Nat) : List α := (l.drop off).take n

/-- `l` with the bytes from `off` replaced by `x`; bytes of `x` past the end of `l` are dropped. -/
def splice (l : List α) (off : Nat) (x : List α) : List α :=
  if off ≤ l.length then l.take off ++ (x.take (l.length - off)) ++ l.drop (off + x.length) else l

/-- `n` elements, the missing ones filled with `d`. -/
def padTo (d : α) (n : Nat) (l : List α) : List α := (l ++ List.replicate (n - l.length) d).take n

/-- The number of 1 bits among the low `n` bits. -/
def popCount : Nat → Nat → Nat
  | 0, _ => 0
  | n + 1, v => v % 2 + popCount n (v / 2)

/-- One byte into a reflected CRC register with the reflected polynomial `poly`. -/
def crcBits (poly : Nat) : Nat → Nat → Nat
  | 0, c => c
  | n + 1, c => crcBits poly n (if c % 2 = 1 then Nat.xor (c / 2) poly else c / 2)

/-- A reflected 32-bit CRC with seed and final inversion 0xFFFF_FFFF. -/
def crcRefl (poly : Nat) (bs : List Byte) : Nat :=
  Nat.xor 0xFFFFFFFF (bs.foldl (fun c b => crcBits poly 8 (Nat.xor c b.toNat)) 0xFFFFFFFF)

/-- CRC-32 of R155 (IEEE 802.3 polynomial, reflected). -/
def crc32 (bs : List Byte) : Nat := crcRefl 0xEDB88320 bs

/-- CRC-32C (Castagnoli polynomial, reflected). -/
def crc32c (bs : List Byte) : Nat := crcRefl 0x82F63B78 bs

/-- The ones' complement sum of the 16-bit network-order words of a list of bytes; a last odd byte is a high byte. -/
def sum16 : List Byte → Nat
  | [] => 0
  | [b] => b.toNat * 256
  | a :: b :: t => a.toNat * 256 + b.toNat + sum16 t

/-- A ones' complement sum folded to 16 bits. -/
def fold16 (n : Nat) : Nat :=
  let a := n % 65536 + n / 65536
  let b := a % 65536 + a / 65536
  b % 65536 + b / 65536

/-! Sparse tables. -/

/-- The entry listed under a key. -/
def tfind : Tab α → Nat → Option α
  | [], _ => none
  | (k, v) :: t, i => if i = k then some v else tfind t i

/-- What a key reads as; `d` is what an unlisted key reads as. -/
def tget (d : α) (t : Tab α) (i : Nat) : α := (tfind t i).getD d

/-- List `v` under `k`, in key order. -/
def tput (k : Nat) (v : α) : Tab α → Tab α
  | [] => [(k, v)]
  | (j, w) :: t => if k < j then (k, v) :: (j, w) :: t else if k = j then (k, v) :: t else (j, w) :: tput k v t

/-- Unlist a key. -/
def tdel (k : Nat) (t : Tab α) : Tab α := t.filter (fun p => decide (p.1 ≠ k))

/-- Write `v` under `k`, keeping the canonical form: the value an unlisted key reads as removes the entry. -/
def tset [DecidableEq α] (d : α) (t : Tab α) (k : Nat) (v : α) : Tab α :=
  if v = d then tdel k t else tput k v t

/-- Change what one key reads as. -/
def tmod [DecidableEq α] (d : α) (t : Tab α) (k : Nat) (f : α → α) : Tab α :=
  tset d t k (f (tget d t k))

/-- The keys rise strictly. -/
def trising : Tab α → Bool
  | [] => true
  | [_] => true
  | (a, _) :: (b, w) :: t => decide (a < b) && trising ((b, w) :: t)

/-- The canonical form. -/
def twf [DecidableEq α] (d : α) (t : Tab α) : Bool := trising t && t.all (fun p => decide (p.2 ≠ d))

/-- The entries whose key lies in `[lo, lo + n)`. -/
def trange (t : Tab α) (lo n : Nat) : Tab α := t.filter (fun p => decide (lo ≤ p.1 ∧ p.1 < lo + n))

/-- The table without the entries whose key lies in `[lo, lo + n)`. -/
def tclear (t : Tab α) (lo n : Nat) : Tab α := t.filter (fun p => !decide (lo ≤ p.1 ∧ p.1 < lo + n))

/-- A reflected CRC with an initial value and the final inversion. -/
def crcFrom (poly init : Nat) (bs : List Byte) : Nat :=
  Nat.xor 0xFFFFFFFF (bs.foldl (fun c b => crcBits poly 8 (Nat.xor c b.toNat)) init)

end Sys2Proof.Machine
end

