-- ==== Sys2Proof/Machine/DictTypes.lean ====
section
/-! DEFINITION. The attributes of a dictionary object (R444 to R449). -/

namespace Sys2Proof.Machine

/-- The types of R445; the number is the bytes of the value. -/
inductive Ty where
  | bool
  | u (bytes : Nat)
  | i (bytes : Nat)
  | enum8
  | time80
  | tstamp96
  | octets (bytes : Nat)
  | bitmap
deriving DecidableEq, Repr

/-- The access rights of R446. -/
inductive Acc where
  | ro | wo | rw | rwh | cmd
deriving DecidableEq, Repr

/-- The persistence classes of R449. -/
inductive Cls where
  | v | f | w | c | n
deriving DecidableEq, Repr

/-- How an object's default is given: a number; a rule over the source number (R502, R522) or over the straps
(R471, R477); or `live`, a value that another part of the state holds or that is fused. -/
inductive Dflt where
  | val (n : Nat)
  | evClass | evReaction | evEscN | evEscWindow | evEscReaction
  | mgmtMac | mgmtIp | inbandMac
  | live
deriving DecidableEq, Repr

/-- One row of a dictionary table. It has `n` indices from `idx` on, and `m` subindices from `sub` on at each. -/
structure Obj where
  name : String
  idx : Nat
  sub : Nat
  n : Nat
  m : Nat
  ty : Ty
  acc : Acc
  cls : Cls
  dflt : Dflt
  rng : List (Int × Int)
deriving DecidableEq, Repr

end Sys2Proof.Machine
end

