-- ==== Sys2Proof/Machine/DictTable.lean ====
section
/-! DEFINITION. The objects of the dictionary: one definition for each row of the dictionary tables of the chapters (R47, R49, R50, R84, R106, R132, R166, R204, R246, R299, R330, R351, R386, R413, R442, R477, R496, R522, R523, R559, R581),
with its index, subindex, instances, type, access, persistence class, default and Range. -/

namespace Sys2Proof.Machine.Objs

/-! R47. -/
abbrev port_mode : Obj := ⟨"port_mode", 0x2000, 0x1, 256, 1, .enum8, .rw, .n, .val 0, [(0, 9)]⟩
abbrev admin_up : Obj := ⟨"admin_up", 0x2000, 0x2, 256, 1, .bool, .rw, .n, .val 0, []⟩
abbrev fec_mode : Obj := ⟨"fec_mode", 0x2000, 0x3, 256, 1, .enum8, .rw, .n, .val 0, [(0, 3)]⟩
abbrev port_role : Obj := ⟨"port_role", 0x2000, 0x4, 256, 1, .enum8, .rw, .n, .val 0, [(0, 4)]⟩
abbrev pair_port : Obj := ⟨"pair_port", 0x2000, 0x5, 256, 1, (.u 1), .rw, .n, .val 0, [(0, 255)]⟩
abbrev link_down_filter : Obj := ⟨"link_down_filter", 0x2000, 0x6, 256, 1, (.u 4), .rw, .n, .val 10000, [(1000, 10000000)]⟩
abbrev link_up_filter : Obj := ⟨"link_up_filter", 0x2000, 0x7, 256, 1, (.u 4), .rw, .n, .val 100000, [(0, 100000000)]⟩
abbrev down_policy : Obj := ⟨"down_policy", 0x2000, 0x8, 256, 1, .enum8, .rw, .n, .val 0, [(0, 1)]⟩
abbrev down_hold_time : Obj := ⟨"down_hold_time", 0x2000, 0x9, 256, 1, (.u 4), .rw, .n, .val 2000000, [(0, 10000000)]⟩
abbrev mac_flush_on_down : Obj := ⟨"mac_flush_on_down", 0x2000, 0xa, 256, 1, .bool, .rw, .n, .val 1, []⟩
abbrev preempt_enable : Obj := ⟨"preempt_enable", 0x2000, 0xb, 256, 1, .bool, .rw, .n, .val 0, []⟩
abbrev preempt_queues : Obj := ⟨"preempt_queues", 0x2000, 0xc, 256, 1, (.u 1), .rw, .n, .val 0, [(0, 255)]⟩
abbrev preempt_verify : Obj := ⟨"preempt_verify", 0x2000, 0xd, 256, 1, .bool, .rw, .n, .val 1, []⟩
abbrev max_frame : Obj := ⟨"max_frame", 0x2000, 0xe, 256, 1, (.u 2), .rw, .n, .val 1536, [(64, 9216)]⟩
abbrev sd_assert_mv : Obj := ⟨"sd_assert_mv", 0x2000, 0xf, 256, 1, (.u 2), .rw, .n, .val 90, [(40, 300)]⟩
abbrev sd_deassert_mv : Obj := ⟨"sd_deassert_mv", 0x2000, 0x10, 256, 1, (.u 2), .rw, .n, .val 60, [(30, 290)]⟩
abbrev usx_speed : Obj := ⟨"usx_speed", 0x2000, 0x11, 256, 1, .enum8, .rw, .n, .val 0, [(0, 4)]⟩
abbrev link_training : Obj := ⟨"link_training", 0x2000, 0x12, 256, 1, .bool, .rw, .n, .val 1, []⟩
/-! R49. -/
abbrev link_state : Obj := ⟨"link_state", 0x2100, 0x1, 256, 1, .enum8, .ro, .v, .val 0, []⟩
abbrev link_state_detail : Obj := ⟨"link_state_detail", 0x2100, 0x2, 256, 1, .enum8, .ro, .v, .val 0, []⟩
abbrev fec_active : Obj := ⟨"fec_active", 0x2100, 0x3, 256, 1, .enum8, .ro, .v, .val 1, []⟩
abbrev speed_active : Obj := ⟨"speed_active", 0x2100, 0x4, 256, 1, (.u 4), .ro, .v, .val 0, []⟩
abbrev mm_status : Obj := ⟨"mm_status", 0x2100, 0x5, 256, 1, .enum8, .ro, .v, .val 0, []⟩
abbrev lane_signal : Obj := ⟨"lane_signal", 0x2100, 0x6, 256, 1, (.u 1), .ro, .v, .val 0, []⟩
abbrev lane_lock : Obj := ⟨"lane_lock", 0x2100, 0x7, 256, 1, (.u 1), .ro, .v, .val 0, []⟩
abbrev last_change : Obj := ⟨"last_change", 0x2100, 0x8, 256, 1, .tstamp96, .ro, .v, .val 0, []⟩
abbrev hold_remaining : Obj := ⟨"hold_remaining", 0x2100, 0x9, 256, 1, (.u 4), .ro, .v, .val 0, []⟩
/-! R50. -/
abbrev rx_frames : Obj := ⟨"rx_frames", 0x2200, 0x1, 256, 1, (.u 8), .ro, .f, .val 0, []⟩
abbrev rx_octets : Obj := ⟨"rx_octets", 0x2200, 0x2, 256, 1, (.u 8), .ro, .f, .val 0, []⟩
abbrev rx_fcs_err : Obj := ⟨"rx_fcs_err", 0x2200, 0x3, 256, 1, (.u 8), .ro, .f, .val 0, []⟩
abbrev rx_runt : Obj := ⟨"rx_runt", 0x2200, 0x4, 256, 1, (.u 8), .ro, .f, .val 0, []⟩
abbrev rx_oversize : Obj := ⟨"rx_oversize", 0x2200, 0x5, 256, 1, (.u 8), .ro, .f, .val 0, []⟩
abbrev rx_overrun : Obj := ⟨"rx_overrun", 0x2200, 0x6, 256, 1, (.u 8), .ro, .f, .val 0, []⟩
abbrev rx_pause : Obj := ⟨"rx_pause", 0x2200, 0x7, 256, 1, (.u 8), .ro, .f, .val 0, []⟩
abbrev rx_pcs_err : Obj := ⟨"rx_pcs_err", 0x2200, 0x8, 256, 1, (.u 8), .ro, .f, .val 0, []⟩
abbrev fec_corrected : Obj := ⟨"fec_corrected", 0x2200, 0x9, 256, 1, (.u 8), .ro, .f, .val 0, []⟩
abbrev fec_uncorrected : Obj := ⟨"fec_uncorrected", 0x2200, 0xa, 256, 1, (.u 8), .ro, .f, .val 0, []⟩
abbrev tx_frames : Obj := ⟨"tx_frames", 0x2200, 0xb, 256, 1, (.u 8), .ro, .f, .val 0, []⟩
abbrev tx_octets : Obj := ⟨"tx_octets", 0x2200, 0xc, 256, 1, (.u 8), .ro, .f, .val 0, []⟩
abbrev tx_drop_down : Obj := ⟨"tx_drop_down", 0x2200, 0xd, 256, 1, (.u 8), .ro, .f, .val 0, []⟩
abbrev tx_drop_stale : Obj := ⟨"tx_drop_stale", 0x2200, 0xe, 256, 1, (.u 8), .ro, .f, .val 0, []⟩
abbrev tx_aborted : Obj := ⟨"tx_aborted", 0x2200, 0xf, 256, 1, (.u 8), .ro, .f, .val 0, []⟩
abbrev link_down_count : Obj := ⟨"link_down_count", 0x2200, 0x10, 256, 1, (.u 8), .ro, .f, .val 0, []⟩
abbrev mm_frag_tx : Obj := ⟨"mm_frag_tx", 0x2200, 0x11, 256, 1, (.u 8), .ro, .f, .val 0, []⟩
abbrev mm_frag_rx : Obj := ⟨"mm_frag_rx", 0x2200, 0x12, 256, 1, (.u 8), .ro, .f, .val 0, []⟩
abbrev mm_reasm_err : Obj := ⟨"mm_reasm_err", 0x2200, 0x13, 256, 1, (.u 8), .ro, .f, .val 0, []⟩
abbrev counters_clear : Obj := ⟨"counters_clear", 0x2200, 0xff, 256, 1, .bool, .cmd, .v, .val 0, [(1, 1)]⟩
/-! R84. -/
abbrev hue_active : Obj := ⟨"hue_active", 0x4000, 0x1, 1, 1, (.u 2), .ro, .w, .val 0, []⟩
abbrev hue_oldest : Obj := ⟨"hue_oldest", 0x4000, 0x2, 1, 1, (.u 2), .ro, .v, .val 0, []⟩
abbrev hue_window : Obj := ⟨"hue_window", 0x4000, 0x3, 1, 1, (.u 1), .ro, .v, .val 1, []⟩
abbrev hue_next_image : Obj := ⟨"hue_next_image", 0x4000, 0x4, 1, 1, (.u 4), .rwh, .w, .val 0, []⟩
abbrev hue_active_image : Obj := ⟨"hue_active_image", 0x4000, 0x5, 1, 1, (.u 4), .ro, .w, .val 0, []⟩
abbrev min_clutches : Obj := ⟨"min_clutches", 0x4000, 0x6, 1, 1, (.u 1), .rw, .n, .val 12, [(1, 16)]⟩
abbrev hue_commit : Obj := ⟨"hue_commit", 0x4000, 0x7, 1, 1, (.u 1), .cmd, .v, .val 0, [(1, 1)]⟩
abbrev hue_abort : Obj := ⟨"hue_abort", 0x4000, 0x8, 1, 1, (.u 1), .cmd, .v, .val 0, [(1, 1)]⟩
abbrev hue_count : Obj := ⟨"hue_count", 0x4000, 0x9, 1, 4, (.u 4), .ro, .v, .val 0, []⟩
abbrev hue_drain_limit : Obj := ⟨"hue_drain_limit", 0x4000, 0xd, 1, 1, (.u 4), .rw, .n, .val 10000000, [(100000, 1000000000)]⟩
abbrev hue_commit_time : Obj := ⟨"hue_commit_time", 0x4000, 0xe, 1, 1, .tstamp96, .ro, .v, .val 0, []⟩
abbrev hue_staged_count : Obj := ⟨"hue_staged_count", 0x4000, 0xf, 1, 1, (.u 4), .ro, .v, .val 0, []⟩
abbrev hue_scrub_busy : Obj := ⟨"hue_scrub_busy", 0x4000, 0x10, 1, 1, .bool, .ro, .v, .val 0, []⟩
abbrev hue_miss_action : Obj := ⟨"hue_miss_action", 0x4000, 0x11, 1, 1, (.octets 16), .rwh, .w, .val 0, []⟩
abbrev rule_select : Obj := ⟨"rule_select", 0x4001, 0x1, 1, 1, (.u 4), .rw, .v, .val 0, [(0, 131071)]⟩
abbrev rule_header : Obj := ⟨"rule_header", 0x4001, 0x2, 1, 1, (.octets 8), .rwh, .w, .val 0, []⟩
abbrev rule_value : Obj := ⟨"rule_value", 0x4001, 0x3, 1, 1, (.octets 40), .rwh, .w, .val 0, []⟩
abbrev rule_mask : Obj := ⟨"rule_mask", 0x4001, 0x4, 1, 1, (.octets 40), .rwh, .w, .val 0, []⟩
abbrev rule_action : Obj := ⟨"rule_action", 0x4001, 0x5, 1, 1, (.octets 16), .rwh, .w, .val 0, []⟩
abbrev rule_hits : Obj := ⟨"rule_hits", 0x4001, 0x6, 1, 1, (.u 8), .ro, .f, .val 0, []⟩
abbrev rule_free_count : Obj := ⟨"rule_free_count", 0x4001, 0x7, 1, 1, (.u 4), .ro, .v, .val 131072, []⟩
abbrev port_class : Obj := ⟨"port_class", 0x4100, 0x1, 256, 1, (.u 1), .rw, .n, .val 0, [(0, 255)]⟩
abbrev vlan_tpid3 : Obj := ⟨"vlan_tpid3", 0x4020, 0x1, 1, 1, (.u 2), .rw, .n, .val 37120, [(1536, 65535)]⟩
abbrev tcp_port_iec104 : Obj := ⟨"tcp_port_iec104", 0x4020, 0x2, 1, 1, (.u 2), .rw, .n, .val 2404, [(1, 65535)]⟩
abbrev tcp_port_dnp3 : Obj := ⟨"tcp_port_dnp3", 0x4020, 0x3, 1, 1, (.u 2), .rw, .n, .val 20000, [(1, 65535)]⟩
abbrev tcp_port_modbus : Obj := ⟨"tcp_port_modbus", 0x4020, 0x4, 1, 1, (.u 2), .rw, .n, .val 502, [(1, 65535)]⟩
abbrev tcp_port_mms : Obj := ⟨"tcp_port_mms", 0x4020, 0x5, 1, 1, (.u 2), .rw, .n, .val 102, [(1, 65535)]⟩
abbrev parse_err : Obj := ⟨"parse_err", 0x4030, 0x1, 1, 4, (.u 8), .ro, .f, .val 0, []⟩
abbrev parse_depth : Obj := ⟨"parse_depth", 0x4031, 0x1, 1, 4, (.u 8), .ro, .f, .val 0, []⟩
abbrev class_miss : Obj := ⟨"class_miss", 0x4032, 0x1, 1, 4, (.u 8), .ro, .f, .val 0, []⟩
abbrev class_mem_drop : Obj := ⟨"class_mem_drop", 0x4033, 0x1, 1, 4, (.u 8), .ro, .f, .val 0, []⟩
abbrev parser_parity_drop : Obj := ⟨"parser_parity_drop", 0x4034, 0x1, 1, 4, (.u 8), .ro, .f, .val 0, []⟩
/-! R106. -/
abbrev pat_engines_in_service : Obj := ⟨"pat_engines_in_service", 0x4400, 0x1, 1, 1, (.u 4), .ro, .v, .val 16777215, []⟩
abbrev pat_engine_isolate : Obj := ⟨"pat_engine_isolate", 0x4400, 0x2, 1, 1, (.u 1), .cmd, .v, .val 0, [(0, 23)]⟩
abbrev pat_engine_regrow : Obj := ⟨"pat_engine_regrow", 0x4400, 0x3, 1, 1, (.u 1), .cmd, .v, .val 0, [(0, 23)]⟩
abbrev pat_words_free : Obj := ⟨"pat_words_free", 0x4400, 0x4, 1, 1, (.u 4), .ro, .v, .val 229376, []⟩
abbrev pat_patterns_used : Obj := ⟨"pat_patterns_used", 0x4400, 0x5, 1, 1, (.u 4), .ro, .v, .val 0, []⟩
abbrev pat_set_select : Obj := ⟨"pat_set_select", 0x4401, 0x1, 1, 1, (.u 1), .rw, .v, .val 0, [(0, 63)]⟩
abbrev pat_set_header : Obj := ⟨"pat_set_header", 0x4401, 0x2, 1, 1, (.octets 8), .rwh, .w, .val 0, []⟩
abbrev pat_set_desc : Obj := ⟨"pat_set_desc", 0x4401, 0x3, 1, 1, (.octets 8), .rwh, .w, .val 0, []⟩
abbrev pat_set_extract : Obj := ⟨"pat_set_extract", 0x4401, 0x4, 1, 1, (.octets 32), .rwh, .w, .val 0, []⟩
abbrev pat_set_hits : Obj := ⟨"pat_set_hits", 0x4401, 0x5, 1, 1, (.u 8), .ro, .f, .val 0, []⟩
abbrev pat_mem_addr : Obj := ⟨"pat_mem_addr", 0x4402, 0x1, 1, 1, (.u 4), .rw, .v, .val 0, [(0, 229375)]⟩
abbrev pat_mem_data : Obj := ⟨"pat_mem_data", 0x4402, 0x2, 1, 1, (.octets 32), .rw, .w, .val 0, []⟩
abbrev pat_trunc : Obj := ⟨"pat_trunc", 0x4410, 0x1, 1, 4, (.u 8), .ro, .f, .val 0, []⟩
abbrev pat_malformed : Obj := ⟨"pat_malformed", 0x4411, 0x1, 1, 4, (.u 8), .ro, .f, .val 0, []⟩
abbrev pat_limit : Obj := ⟨"pat_limit", 0x4412, 0x1, 1, 4, (.u 8), .ro, .f, .val 0, []⟩
abbrev pat_mem_drop : Obj := ⟨"pat_mem_drop", 0x4413, 0x1, 1, 4, (.u 8), .ro, .f, .val 0, []⟩
abbrev pat_no_engine_drop : Obj := ⟨"pat_no_engine_drop", 0x4414, 0x1, 1, 4, (.u 8), .ro, .f, .val 0, []⟩
abbrev pat_rerun : Obj := ⟨"pat_rerun", 0x4415, 0x1, 1, 4, (.u 8), .ro, .f, .val 0, []⟩
/-! R132. -/
abbrev skinks_in_service : Obj := ⟨"skinks_in_service", 0x4800, 0x1, 1, 1, .bitmap, .ro, .v, .val 115792089237316195423570985008687907853269984665640564039457584007913129639935, []⟩
abbrev spray_pipe_quota : Obj := ⟨"spray_pipe_quota", 0x4800, 0x2, 1, 1, (.u 2), .rw, .n, .val 768, [(512, 2048)]⟩
abbrev reorder_timeout : Obj := ⟨"reorder_timeout", 0x4800, 0x3, 1, 1, (.u 4), .rw, .n, .val 2000, [(500, 20000)]⟩
abbrev prog_word_limit : Obj := ⟨"prog_word_limit", 0x4800, 0x4, 1, 1, (.u 2), .rw, .n, .val 0, [(0, 0), (64, 16384)]⟩
abbrev clutch_drain : Obj := ⟨"clutch_drain", 0x4800, 0x5, 1, 1, (.u 1), .cmd, .v, .val 0, [(0, 15)]⟩
abbrev clutch_return : Obj := ⟨"clutch_return", 0x4800, 0x6, 1, 1, (.u 1), .cmd, .v, .val 0, [(0, 15)]⟩
abbrev skink_isolate : Obj := ⟨"skink_isolate", 0x4800, 0x7, 1, 1, (.u 1), .cmd, .v, .val 0, [(0, 255)]⟩
abbrev skink_regrow : Obj := ⟨"skink_regrow", 0x4800, 0x8, 1, 1, (.u 1), .cmd, .v, .val 0, [(0, 255)]⟩
abbrev threads_busy : Obj := ⟨"threads_busy", 0x4800, 0x9, 1, 1, (.u 2), .ro, .v, .val 0, []⟩
abbrev sf_used : Obj := ⟨"sf_used", 0x4800, 0xa, 1, 1, (.u 2), .ro, .v, .val 0, []⟩
abbrev sf_select : Obj := ⟨"sf_select", 0x4800, 0xb, 1, 1, (.u 1), .rw, .v, .val 0, [(0, 255)]⟩
abbrev sf_entry : Obj := ⟨"sf_entry", 0x4800, 0xc, 1, 1, (.octets 16), .rw, .v, .val 0, []⟩
abbrev clutch_state : Obj := ⟨"clutch_state", 0x4801, 0x1, 1, 16, .enum8, .ro, .v, .val 0, []⟩
abbrev clutch_image : Obj := ⟨"clutch_image", 0x4802, 0x1, 1, 16, (.u 4), .ro, .w, .val 0, []⟩
abbrev clutch_packets : Obj := ⟨"clutch_packets", 0x4803, 0x1, 1, 16, (.u 8), .ro, .f, .val 0, []⟩
abbrev reorder_released : Obj := ⟨"reorder_released", 0x4810, 0x1, 1, 4, (.u 8), .ro, .f, .val 0, []⟩
abbrev reorder_timeout_count : Obj := ⟨"reorder_timeout_count", 0x4811, 0x1, 1, 4, (.u 8), .ro, .f, .val 0, []⟩
abbrev reorder_late_drop : Obj := ⟨"reorder_late_drop", 0x4812, 0x1, 1, 4, (.u 8), .ro, .f, .val 0, []⟩
abbrev prog_drop : Obj := ⟨"prog_drop", 0x4813, 0x1, 1, 4, (.u 8), .ro, .f, .val 0, []⟩
abbrev reorder_high_water : Obj := ⟨"reorder_high_water", 0x4814, 0x1, 1, 4, (.u 2), .ro, .v, .val 0, []⟩
abbrev spray_stall_cycles : Obj := ⟨"spray_stall_cycles", 0x4815, 0x1, 1, 4, (.u 8), .ro, .f, .val 0, []⟩
abbrev prog_trap_drop : Obj := ⟨"prog_trap_drop", 0x4816, 0x1, 1, 4, (.u 8), .ro, .f, .val 0, []⟩
abbrev sf_queue_drop : Obj := ⟨"sf_queue_drop", 0x4817, 0x1, 1, 4, (.u 8), .ro, .f, .val 0, []⟩
/-! R166. -/
abbrev cs_buf_offset : Obj := ⟨"cs_buf_offset", 0x4820, 0x1, 1, 1, (.u 4), .rw, .v, .val 0, [(0, 1048320)]⟩
abbrev cs_buf_data : Obj := ⟨"cs_buf_data", 0x4820, 0x2, 1, 1, (.octets 256), .wo, .v, .val 0, []⟩
abbrev cs_load_source : Obj := ⟨"cs_load_source", 0x4820, 0x3, 1, 1, .enum8, .rw, .v, .val 0, [(0, 1)]⟩
abbrev cs_load_addr : Obj := ⟨"cs_load_addr", 0x4820, 0x4, 1, 1, (.u 8), .rw, .v, .val 0, [(0, 23622320064)]⟩
abbrev cs_load : Obj := ⟨"cs_load", 0x4820, 0x5, 1, 1, (.u 1), .cmd, .v, .val 0, [(0, 15)]⟩
abbrev hue_image_load : Obj := ⟨"hue_image_load", 0x4820, 0x6, 1, 1, (.u 1), .cmd, .v, .val 0, [(1, 1)]⟩
abbrev hue_load_fail : Obj := ⟨"hue_load_fail", 0x4820, 0x7, 1, 1, (.u 4), .ro, .v, .val 0, []⟩
abbrev disp_select : Obj := ⟨"disp_select", 0x4820, 0x8, 1, 1, (.u 1), .rw, .v, .val 0, [(0, 255)]⟩
abbrev disp0_stage : Obj := ⟨"disp0_stage", 0x4820, 0x9, 1, 1, (.u 2), .rwh, .w, .val 0, []⟩
abbrev disp0_entry : Obj := ⟨"disp0_entry", 0x4820, 0xa, 1, 1, (.octets 6), .ro, .w, .val 0, []⟩
abbrev cs_peek_select : Obj := ⟨"cs_peek_select", 0x4820, 0xb, 1, 1, (.u 4), .rw, .v, .val 0, [(0, 1048575)]⟩
abbrev cs_peek_data : Obj := ⟨"cs_peek_data", 0x4820, 0xc, 1, 1, (.octets 17), .ro, .v, .val 0, []⟩
abbrev cs_reloads : Obj := ⟨"cs_reloads", 0x4821, 0x1, 1, 16, (.u 8), .ro, .f, .val 0, []⟩
abbrev cs_mchk : Obj := ⟨"cs_mchk", 0x4822, 0x1, 1, 16, (.u 8), .ro, .f, .val 0, []⟩
abbrev ucode_trap_drop : Obj := ⟨"ucode_trap_drop", 0x4830, 0x1, 1, 4, (.u 8), .ro, .f, .val 0, []⟩
abbrev ucode_trap_addr : Obj := ⟨"ucode_trap_addr", 0x4831, 0x1, 1, 1, (.u 4), .ro, .v, .val 0, []⟩
/-! R204. -/
abbrev leap_keyed_ops : Obj := ⟨"leap_keyed_ops", 0x5000, 0x1, 1, 1, .bitmap, .rwh, .w, .val 0, []⟩
abbrev lock_break : Obj := ⟨"lock_break", 0x5000, 0x2, 1, 1, .bool, .rw, .n, .val 1, []⟩
abbrev sf_auto : Obj := ⟨"sf_auto", 0x5000, 0x3, 1, 1, .bool, .rw, .n, .val 1, []⟩
abbrev sf_abort_threshold : Obj := ⟨"sf_abort_threshold", 0x5000, 0x4, 1, 1, (.u 2), .rw, .n, .val 16, [(1, 1024)]⟩
abbrev sf_window : Obj := ⟨"sf_window", 0x5000, 0x5, 1, 1, (.u 4), .rw, .n, .val 100000, [(1000, 10000000)]⟩
abbrev sf_idle : Obj := ⟨"sf_idle", 0x5000, 0x6, 1, 1, (.u 4), .rw, .n, .val 10000000, [(100000, 1000000000)]⟩
abbrev leap_wait_limit : Obj := ⟨"leap_wait_limit", 0x5000, 0x7, 1, 1, (.u 4), .rw, .n, .val 10000, [(1000, 10000000)]⟩
abbrev leaps_open : Obj := ⟨"leaps_open", 0x5000, 0x8, 1, 1, (.u 2), .ro, .v, .val 0, []⟩
abbrev lsn_next : Obj := ⟨"lsn_next", 0x5000, 0x9, 1, 1, (.u 8), .ro, .v, .val 0, []⟩
abbrev horizon_lsn : Obj := ⟨"horizon_lsn", 0x5000, 0xa, 1, 1, (.u 8), .ro, .v, .val 0, []⟩
abbrev claims_used : Obj := ⟨"claims_used", 0x5000, 0xb, 1, 1, (.u 2), .ro, .v, .val 0, []⟩
abbrev leap_committed : Obj := ⟨"leap_committed", 0x5001, 0x1, 1, 1, (.u 8), .ro, .f, .val 0, []⟩
abbrev leap_abort_conflict : Obj := ⟨"leap_abort_conflict", 0x5001, 0x2, 1, 1, (.u 8), .ro, .f, .val 0, []⟩
abbrev leap_abort_mchk : Obj := ⟨"leap_abort_mchk", 0x5001, 0x3, 1, 1, (.u 8), .ro, .f, .val 0, []⟩
abbrev leap_abandoned : Obj := ⟨"leap_abandoned", 0x5001, 0x4, 1, 1, (.u 8), .ro, .f, .val 0, []⟩
abbrev leap_lock_timeout : Obj := ⟨"leap_lock_timeout", 0x5001, 0x5, 1, 1, (.u 8), .ro, .f, .val 0, []⟩
abbrev lock_breaks : Obj := ⟨"lock_breaks", 0x5001, 0x6, 1, 1, (.u 8), .ro, .f, .val 0, []⟩
abbrev ins_full : Obj := ⟨"ins_full", 0x5001, 0x7, 1, 1, (.u 8), .ro, .f, .val 0, []⟩
abbrev rec_unavailable : Obj := ⟨"rec_unavailable", 0x5001, 0x8, 1, 1, (.u 8), .ro, .f, .val 0, []⟩
abbrev deferred_drop : Obj := ⟨"deferred_drop", 0x5001, 0x9, 1, 1, (.u 8), .ro, .f, .val 0, []⟩
abbrev order_breach : Obj := ⟨"order_breach", 0x5001, 0xa, 1, 1, (.u 8), .ro, .f, .val 0, []⟩
abbrev horizon_wait_cycles : Obj := ⟨"horizon_wait_cycles", 0x5001, 0xb, 1, 1, (.u 8), .ro, .f, .val 0, []⟩
abbrev late_keyed_binds : Obj := ⟨"late_keyed_binds", 0x5001, 0xc, 1, 1, (.u 8), .ro, .f, .val 0, []⟩
/-! R246. -/
abbrev records_used : Obj := ⟨"records_used", 0x5010, 0x1, 1, 1, (.u 4), .ro, .v, .val 0, []⟩
abbrev stash_used : Obj := ⟨"stash_used", 0x5010, 0x2, 1, 1, (.u 2), .ro, .v, .val 0, []⟩
abbrev lock_timeout : Obj := ⟨"lock_timeout", 0x5010, 0x3, 1, 1, (.u 4), .rw, .n, .val 1000000, [(10000, 100000000)]⟩
abbrev sweep_period : Obj := ⟨"sweep_period", 0x5010, 0x4, 1, 1, (.u 2), .rw, .n, .val 10, [(1, 1800)]⟩
abbrev hash_salt : Obj := ⟨"hash_salt", 0x5010, 0x5, 1, 1, (.u 4), .rw, .n, .val 0, []⟩
abbrev flow_cache_flush : Obj := ⟨"flow_cache_flush", 0x5010, 0x6, 1, 1, (.u 1), .cmd, .v, .val 0, [(1, 1)]⟩
abbrev locks_held : Obj := ⟨"locks_held", 0x5010, 0x7, 1, 1, (.u 1), .ro, .v, .val 0, []⟩
abbrev learn_notice_ring : Obj := ⟨"learn_notice_ring", 0x5010, 0x8, 1, 1, (.u 1), .rw, .n, .val 0, [(0, 63)]⟩
abbrev learn_notice_hold : Obj := ⟨"learn_notice_hold", 0x5010, 0x9, 1, 1, (.u 4), .rw, .n, .val 10000000, [(0, 1000000000)]⟩
abbrev reloc_moves : Obj := ⟨"reloc_moves", 0x5010, 0xa, 1, 1, (.u 8), .ro, .f, .val 0, []⟩
abbrev flow_key : Obj := ⟨"flow_key", 0x5010, 0xb, 1, 1, (.octets 48), .rw, .v, .val 0, []⟩
abbrev flow_key_tmpl : Obj := ⟨"flow_key_tmpl", 0x5010, 0xc, 1, 1, (.u 1), .rw, .v, .val 0, [(0, 15)]⟩
abbrev flow_search : Obj := ⟨"flow_search", 0x5010, 0xd, 1, 1, (.u 1), .cmd, .v, .val 0, [(1, 1)]⟩
abbrev flow_record : Obj := ⟨"flow_record", 0x5010, 0xe, 1, 1, (.octets 136), .rw, .v, .val 0, []⟩
abbrev flow_lock : Obj := ⟨"flow_lock", 0x5010, 0xf, 1, 1, (.u 1), .cmd, .v, .val 0, [(1, 1)]⟩
abbrev flow_unlock : Obj := ⟨"flow_unlock", 0x5010, 0x10, 1, 1, (.u 1), .cmd, .v, .val 0, [(1, 1)]⟩
abbrev flow_write : Obj := ⟨"flow_write", 0x5010, 0x11, 1, 1, (.u 1), .cmd, .v, .val 0, [(1, 2)]⟩
abbrev flow_cursor : Obj := ⟨"flow_cursor", 0x5010, 0x12, 1, 1, (.u 4), .rw, .v, .val 0, [(0, 268436480)]⟩
abbrev flow_next : Obj := ⟨"flow_next", 0x5010, 0x13, 1, 1, (.u 1), .cmd, .v, .val 0, [(1, 1)]⟩
abbrev flow_flush_port : Obj := ⟨"flow_flush_port", 0x5010, 0x14, 1, 1, (.u 1), .cmd, .v, .val 0, [(0, 255)]⟩
abbrev flow_flush_tmpl : Obj := ⟨"flow_flush_tmpl", 0x5010, 0x15, 1, 1, (.u 1), .cmd, .v, .val 0, [(0, 15)]⟩
abbrev flow_flush_deleted : Obj := ⟨"flow_flush_deleted", 0x5010, 0x16, 1, 1, (.u 8), .ro, .v, .val 0, []⟩
abbrev cache_hits : Obj := ⟨"cache_hits", 0x5011, 0x1, 1, 1, (.u 8), .ro, .f, .val 0, []⟩
abbrev cache_misses : Obj := ⟨"cache_misses", 0x5011, 0x2, 1, 1, (.u 8), .ro, .f, .val 0, []⟩
abbrev second_reads : Obj := ⟨"second_reads", 0x5011, 0x3, 1, 1, (.u 8), .ro, .f, .val 0, []⟩
abbrev inserts : Obj := ⟨"inserts", 0x5011, 0x4, 1, 1, (.u 8), .ro, .f, .val 0, []⟩
abbrev deletes : Obj := ⟨"deletes", 0x5011, 0x5, 1, 1, (.u 8), .ro, .f, .val 0, []⟩
abbrev aged : Obj := ⟨"aged", 0x5011, 0x6, 1, 1, (.u 8), .ro, .f, .val 0, []⟩
abbrev rec_stale : Obj := ⟨"rec_stale", 0x5011, 0x7, 1, 1, (.u 8), .ro, .f, .val 0, []⟩
abbrev rec_lost : Obj := ⟨"rec_lost", 0x5011, 0x8, 1, 1, (.u 8), .ro, .f, .val 0, []⟩
abbrev reloc_fail : Obj := ⟨"reloc_fail", 0x5011, 0x9, 1, 1, (.u 8), .ro, .f, .val 0, []⟩
abbrev learn_notices : Obj := ⟨"learn_notices", 0x5011, 0xa, 1, 1, (.u 8), .ro, .f, .val 0, []⟩
abbrev learn_suppressed : Obj := ⟨"learn_suppressed", 0x5011, 0xb, 1, 1, (.u 8), .ro, .f, .val 0, []⟩
abbrev sweep_lock_skip : Obj := ⟨"sweep_lock_skip", 0x5011, 0xc, 1, 1, (.u 8), .ro, .f, .val 0, []⟩
abbrev tmpl_select : Obj := ⟨"tmpl_select", 0x5012, 0x1, 1, 1, (.u 1), .rw, .v, .val 0, [(0, 63)]⟩
abbrev tmpl_header : Obj := ⟨"tmpl_header", 0x5012, 0x2, 1, 1, (.octets 8), .rwh, .w, .val 0, []⟩
abbrev tmpl_desc : Obj := ⟨"tmpl_desc", 0x5012, 0x3, 1, 1, (.octets 136), .rwh, .w, .val 0, []⟩
abbrev tmpl_free_count : Obj := ⟨"tmpl_free_count", 0x5012, 0x4, 1, 1, (.u 1), .ro, .v, .val 64, []⟩
abbrev key_tmpl_select : Obj := ⟨"key_tmpl_select", 0x5013, 0x1, 1, 1, (.u 1), .rw, .v, .val 0, [(0, 15)]⟩
abbrev key_tmpl_desc : Obj := ⟨"key_tmpl_desc", 0x5013, 0x2, 1, 1, (.octets 48), .rw, .n, .val 0, []⟩
abbrev learn_mode : Obj := ⟨"learn_mode", 0x5100, 0x1, 256, 1, .enum8, .rw, .n, .val 0, [(0, 1)]⟩
/-! R299. -/
abbrev mac_entries : Obj := ⟨"mac_entries", 0x5800, 0x1, 1, 1, (.u 4), .ro, .v, .val 0, []⟩
abbrev mac_age_limit : Obj := ⟨"mac_age_limit", 0x5800, 0x2, 1, 1, (.u 2), .rw, .n, .val 300, [(0, 1080)]⟩
abbrev mac_sweep_period : Obj := ⟨"mac_sweep_period", 0x5800, 0x3, 1, 1, (.u 1), .rw, .n, .val 1, [(1, 10)]⟩
abbrev move_hold : Obj := ⟨"move_hold", 0x5800, 0x4, 1, 1, (.u 2), .rw, .n, .val 1000, [(0, 60000)]⟩
abbrev move_limit : Obj := ⟨"move_limit", 0x5800, 0x5, 1, 1, (.u 1), .rw, .n, .val 4, [(1, 6)]⟩
abbrev move_window : Obj := ⟨"move_window", 0x5800, 0x6, 1, 1, (.u 2), .rw, .n, .val 10, [(1, 600)]⟩
abbrev learn_sort_window : Obj := ⟨"learn_sort_window", 0x5800, 0x7, 1, 1, (.u 4), .rw, .n, .val 4000, [(1000, 100000)]⟩
abbrev mac_hash_salt : Obj := ⟨"mac_hash_salt", 0x5800, 0x8, 1, 1, (.u 4), .rw, .n, .val 0, []⟩
abbrev mac_flush_port : Obj := ⟨"mac_flush_port", 0x5800, 0x9, 1, 1, (.u 2), .cmd, .v, .val 0, [(0, 255), (65535, 65535)]⟩
abbrev mac_save : Obj := ⟨"mac_save", 0x5800, 0xa, 1, 1, .bool, .rw, .n, .val 0, []⟩
abbrev nat_restore : Obj := ⟨"nat_restore", 0x5800, 0xb, 1, 1, .bool, .rw, .n, .val 1, []⟩
abbrev learn_requests : Obj := ⟨"learn_requests", 0x5801, 0x1, 1, 1, (.u 8), .ro, .f, .val 0, []⟩
abbrev learn_filtered : Obj := ⟨"learn_filtered", 0x5801, 0x2, 1, 1, (.u 8), .ro, .f, .val 0, []⟩
abbrev learn_late : Obj := ⟨"learn_late", 0x5801, 0x3, 1, 1, (.u 8), .ro, .f, .val 0, []⟩
abbrev learn_overflow : Obj := ⟨"learn_overflow", 0x5801, 0x4, 1, 1, (.u 8), .ro, .f, .val 0, []⟩
abbrev learn_denied : Obj := ⟨"learn_denied", 0x5801, 0x5, 1, 1, (.u 8), .ro, .f, .val 0, []⟩
abbrev learn_flush_drop : Obj := ⟨"learn_flush_drop", 0x5801, 0x6, 1, 1, (.u 8), .ro, .f, .val 0, []⟩
abbrev moves : Obj := ⟨"moves", 0x5801, 0x7, 1, 1, (.u 8), .ro, .f, .val 0, []⟩
abbrev move_refused : Obj := ⟨"move_refused", 0x5801, 0x8, 1, 1, (.u 8), .ro, .f, .val 0, []⟩
abbrev static_violation : Obj := ⟨"static_violation", 0x5801, 0x9, 1, 1, (.u 8), .ro, .f, .val 0, []⟩
abbrev mac_aged : Obj := ⟨"mac_aged", 0x5801, 0xa, 1, 1, (.u 8), .ro, .f, .val 0, []⟩
abbrev mac_flushed : Obj := ⟨"mac_flushed", 0x5801, 0xb, 1, 1, (.u 8), .ro, .f, .val 0, []⟩
abbrev table_mem_drop : Obj := ⟨"table_mem_drop", 0x5801, 0xc, 1, 1, (.u 8), .ro, .f, .val 0, []⟩
abbrev tbl_target : Obj := ⟨"tbl_target", 0x5802, 0x1, 1, 1, .enum8, .rw, .v, .val 16, [(16, 25)]⟩
abbrev tbl_index : Obj := ⟨"tbl_index", 0x5802, 0x2, 1, 1, (.u 4), .rw, .v, .val 0, []⟩
abbrev tbl_key : Obj := ⟨"tbl_key", 0x5802, 0x3, 1, 1, (.octets 20), .rw, .v, .val 0, []⟩
abbrev tbl_data : Obj := ⟨"tbl_data", 0x5802, 0x4, 1, 1, (.octets 40), .rw, .v, .val 0, []⟩
abbrev tbl_cmd : Obj := ⟨"tbl_cmd", 0x5802, 0x5, 1, 1, (.u 2), .cmd, .v, .val 0, [(1, 5)]⟩
abbrev npt6_len : Obj := ⟨"npt6_len", 0x5a00, 0x1, 256, 1, (.u 1), .rw, .n, .val 48, [(1, 48)]⟩
abbrev pair_group : Obj := ⟨"pair_group", 0x5900, 0x1, 256, 1, (.u 2), .rw, .n, .val 0, [(0, 65535)]⟩
abbrev nat_used : Obj := ⟨"nat_used", 0x5805, 0x1, 1, 1, (.u 4), .ro, .v, .val 0, []⟩
abbrev lpm_used : Obj := ⟨"lpm_used", 0x5805, 0x2, 1, 1, (.u 4), .ro, .v, .val 0, []⟩
/-! R330. -/
abbrev spill_classes : Obj := ⟨"spill_classes", 0x6000, 0x1, 1, 1, (.u 1), .rw, .n, .val 31, [(0, 255)]⟩
abbrev spill_threshold : Obj := ⟨"spill_threshold", 0x6000, 0x2, 1, 1, (.u 4), .rw, .n, .val 2048, [(256, 65536)]⟩
abbrev spill_pool_reserve : Obj := ⟨"spill_pool_reserve", 0x6000, 0x3, 1, 1, (.u 4), .rw, .n, .val 8192, [(0, 65536)]⟩
abbrev refill_level : Obj := ⟨"refill_level", 0x6000, 0x4, 1, 1, (.u 2), .rw, .n, .val 256, [(32, 4096)]⟩
abbrev spill_max_blocks : Obj := ⟨"spill_max_blocks", 0x6000, 0x5, 1, 1, (.u 4), .rw, .n, .val 2048, [(1, 131072)]⟩
abbrev voq_onchip_max : Obj := ⟨"voq_onchip_max", 0x6000, 0x6, 1, 1, (.u 4), .rw, .n, .val 16384, [(256, 106496)]⟩
abbrev fab_xoff_class : Obj := ⟨"fab_xoff_class", 0x6000, 0x7, 1, 1, (.u 2), .rw, .n, .val 384, [(64, 2048)]⟩
abbrev fab_xon_class : Obj := ⟨"fab_xon_class", 0x6000, 0x8, 1, 1, (.u 2), .rw, .n, .val 256, [(0, 2047)]⟩
abbrev fab_xoff_total : Obj := ⟨"fab_xoff_total", 0x6000, 0x9, 1, 1, (.u 2), .rw, .n, .val 2560, [(512, 2560)]⟩
abbrev fab_xon_total : Obj := ⟨"fab_xon_total", 0x6000, 0xa, 1, 1, (.u 2), .rw, .n, .val 2048, [(0, 2559)]⟩
abbrev hold_cells : Obj := ⟨"hold_cells", 0x6000, 0xb, 1, 1, (.u 2), .rw, .n, .val 1024, [(0, 1024)]⟩
abbrev fab_reorder_timeout : Obj := ⟨"fab_reorder_timeout", 0x6000, 0xc, 1, 1, (.u 4), .rw, .n, .val 250000, [(10000, 1000000)]⟩
abbrev fab_reorder_timeout_exp : Obj := ⟨"fab_reorder_timeout_exp", 0x6000, 0xd, 1, 1, (.u 4), .rw, .n, .val 2000, [(1000, 100000)]⟩
abbrev middles_in_service : Obj := ⟨"middles_in_service", 0x6000, 0xe, 1, 1, (.u 4), .ro, .v, .val 4294967295, []⟩
abbrev middle_isolate : Obj := ⟨"middle_isolate", 0x6000, 0xf, 1, 1, (.u 1), .cmd, .v, .val 0, [(0, 31)]⟩
abbrev middle_regrow : Obj := ⟨"middle_regrow", 0x6000, 0x10, 1, 1, (.u 1), .cmd, .v, .val 0, [(0, 31)]⟩
abbrev spill_blocks_used : Obj := ⟨"spill_blocks_used", 0x6000, 0x11, 1, 1, (.u 4), .ro, .v, .val 0, []⟩
abbrev voq_select : Obj := ⟨"voq_select", 0x6001, 0x1, 1, 1, (.u 2), .rw, .v, .val 0, []⟩
abbrev voq_state : Obj := ⟨"voq_state", 0x6001, 0x2, 1, 1, .enum8, .ro, .v, .val 0, []⟩
abbrev voq_onchip : Obj := ⟨"voq_onchip", 0x6001, 0x3, 1, 1, (.u 4), .ro, .v, .val 0, []⟩
abbrev voq_spilled : Obj := ⟨"voq_spilled", 0x6001, 0x4, 1, 1, (.u 4), .ro, .v, .val 0, []⟩
abbrev mcg_select : Obj := ⟨"mcg_select", 0x6002, 0x1, 1, 1, (.u 2), .rw, .v, .val 0, [(0, 65535)]⟩
abbrev mcg_copies : Obj := ⟨"mcg_copies", 0x6002, 0x2, 1, 1, (.u 8), .ro, .f, .val 0, []⟩
abbrev mcg_refused : Obj := ⟨"mcg_refused", 0x6002, 0x3, 1, 1, (.u 8), .ro, .f, .val 0, []⟩
abbrev pool_free : Obj := ⟨"pool_free", 0x6010, 0x1, 1, 4, (.u 4), .ro, .v, .val 106496, []⟩
abbrev pool_drop : Obj := ⟨"pool_drop", 0x6011, 0x1, 1, 4, (.u 8), .ro, .f, .val 0, []⟩
abbrev spill_refused : Obj := ⟨"spill_refused", 0x6012, 0x1, 1, 4, (.u 8), .ro, .f, .val 0, []⟩
abbrev spill_full_drop : Obj := ⟨"spill_full_drop", 0x6013, 0x1, 1, 4, (.u 8), .ro, .f, .val 0, []⟩
abbrev spill_lost : Obj := ⟨"spill_lost", 0x6014, 0x1, 1, 4, (.u 8), .ro, .f, .val 0, []⟩
abbrev cells_spilled : Obj := ⟨"cells_spilled", 0x6015, 0x1, 1, 4, (.u 8), .ro, .f, .val 0, []⟩
abbrev reorder_skips : Obj := ⟨"reorder_skips", 0x6020, 0x1, 1, 32, (.u 8), .ro, .f, .val 0, []⟩
abbrev late_cells : Obj := ⟨"late_cells", 0x6021, 0x1, 1, 32, (.u 8), .ro, .f, .val 0, []⟩
abbrev reasm_drop : Obj := ⟨"reasm_drop", 0x6022, 0x1, 1, 32, (.u 8), .ro, .f, .val 0, []⟩
abbrev express_deep : Obj := ⟨"express_deep", 0x6023, 0x1, 1, 32, (.u 8), .ro, .f, .val 0, []⟩
abbrev store_used : Obj := ⟨"store_used", 0x6024, 0x1, 1, 32, (.u 2), .ro, .v, .val 0, []⟩
abbrev xoff_map : Obj := ⟨"xoff_map", 0x6025, 0x1, 1, 32, (.u 1), .ro, .v, .val 0, []⟩
/-! R351. -/
abbrev red_select : Obj := ⟨"red_select", 0x3400, 0x1, 1, 1, (.u 1), .rw, .v, .val 0, [(0, 15)]⟩
abbrev red_profile : Obj := ⟨"red_profile", 0x3400, 0x2, 1, 1, (.octets 16), .rw, .n, .val 0, []⟩
abbrev pol_select : Obj := ⟨"pol_select", 0x3400, 0x3, 1, 1, (.u 2), .rw, .v, .val 1, [(1, 4095)]⟩
abbrev pol_config : Obj := ⟨"pol_config", 0x3400, 0x4, 1, 1, (.octets 32), .rw, .n, .val 0, []⟩
abbrev pol_tokens : Obj := ⟨"pol_tokens", 0x3400, 0x5, 1, 1, (.octets 16), .ro, .v, .val 0, []⟩
abbrev pol_green : Obj := ⟨"pol_green", 0x3400, 0x6, 1, 1, (.u 8), .ro, .f, .val 0, []⟩
abbrev pol_yellow : Obj := ⟨"pol_yellow", 0x3400, 0x7, 1, 1, (.u 8), .ro, .f, .val 0, []⟩
abbrev pol_red : Obj := ⟨"pol_red", 0x3400, 0x8, 1, 1, (.u 8), .ro, .f, .val 0, []⟩
abbrev pol_red_drop : Obj := ⟨"pol_red_drop", 0x3400, 0x9, 1, 1, (.u 8), .ro, .f, .val 0, []⟩
abbrev strict_count : Obj := ⟨"strict_count", 0x3500, 0x1, 256, 1, (.u 1), .rw, .n, .val 3, [(0, 4)]⟩
abbrev port_shaper : Obj := ⟨"port_shaper", 0x3500, 0x2, 256, 1, (.octets 16), .rw, .n, .val 0, []⟩
abbrev queue_weight : Obj := ⟨"queue_weight", 0x3500, 0x10, 256, 8, (.u 1), .rw, .n, .val 1, [(1, 255)]⟩
abbrev queue_max : Obj := ⟨"queue_max", 0x3500, 0x20, 256, 8, (.u 2), .rw, .n, .val 1024, [(1, 4096)]⟩
abbrev queue_red_profile : Obj := ⟨"queue_red_profile", 0x3500, 0x30, 256, 8, (.u 1), .rw, .n, .val 0, [(0, 15)]⟩
abbrev max_residence : Obj := ⟨"max_residence", 0x3500, 0x40, 256, 8, (.u 4), .rw, .n, .val 0, [(0, 130000)]⟩
abbrev queue_shaper : Obj := ⟨"queue_shaper", 0x3500, 0x50, 256, 8, (.octets 16), .rw, .n, .val 0, []⟩
abbrev queue_len : Obj := ⟨"queue_len", 0x3600, 0x60, 256, 8, (.u 2), .ro, .v, .val 0, []⟩
abbrev tx_queue_drop : Obj := ⟨"tx_queue_drop", 0x3600, 0x10, 256, 8, (.u 8), .ro, .f, .val 0, []⟩
abbrev red_drop : Obj := ⟨"red_drop", 0x3600, 0x20, 256, 8, (.u 8), .ro, .f, .val 0, []⟩
abbrev red_mark : Obj := ⟨"red_mark", 0x3600, 0x30, 256, 8, (.u 8), .ro, .f, .val 0, []⟩
abbrev tx_queue_frames : Obj := ⟨"tx_queue_frames", 0x3600, 0x40, 256, 8, (.u 8), .ro, .f, .val 0, []⟩
abbrev express_drop : Obj := ⟨"express_drop", 0x3600, 0x50, 256, 1, (.u 8), .ro, .f, .val 0, []⟩
abbrev calendar_drop : Obj := ⟨"calendar_drop", 0x3600, 0x51, 256, 1, (.u 8), .ro, .f, .val 0, []⟩
abbrev mark_not_ect : Obj := ⟨"mark_not_ect", 0x3600, 0x52, 256, 1, (.u 8), .ro, .f, .val 0, []⟩
/-! R386. -/
abbrev time_snapshot : Obj := ⟨"time_snapshot", 0x3000, 0x1, 1, 1, (.u 1), .cmd, .v, .val 0, [(1, 1)]⟩
abbrev snap_f : Obj := ⟨"snap_f", 0x3000, 0x2, 1, 1, .tstamp96, .ro, .v, .val 0, []⟩
abbrev snap_a : Obj := ⟨"snap_a", 0x3000, 0x3, 1, 1, .tstamp96, .ro, .v, .val 0, []⟩
abbrev snap_b : Obj := ⟨"snap_b", 0x3000, 0x4, 1, 1, .tstamp96, .ro, .v, .val 0, []⟩
abbrev snap_w : Obj := ⟨"snap_w", 0x3000, 0x5, 1, 1, .tstamp96, .ro, .v, .val 0, []⟩
abbrev w_state : Obj := ⟨"w_state", 0x3000, 0x6, 1, 1, .enum8, .ro, .w, .val 0, []⟩
abbrev w_active : Obj := ⟨"w_active", 0x3000, 0x7, 1, 1, .enum8, .ro, .w, .val 0, []⟩
abbrev w_select : Obj := ⟨"w_select", 0x3000, 0x8, 1, 1, .enum8, .rw, .n, .val 0, [(0, 1)]⟩
abbrev w_revert : Obj := ⟨"w_revert", 0x3000, 0x9, 1, 1, .bool, .rw, .n, .val 0, []⟩
abbrev slew_max : Obj := ⟨"slew_max", 0x3000, 0xa, 1, 1, (.u 4), .rw, .n, .val 2000, [(10, 10000)]⟩
abbrev w_inc : Obj := ⟨"w_inc", 0x3000, 0xb, 1, 1, (.u 8), .ro, .v, .val 0x01999999999A, []⟩
abbrev w_offset : Obj := ⟨"w_offset", 0x3000, 0xc, 1, 1, (.i 8), .ro, .v, .val 0, []⟩
abbrev w_set : Obj := ⟨"w_set", 0x3000, 0xd, 1, 1, .time80, .cmd, .v, .val 0, []⟩
abbrev w_step_size : Obj := ⟨"w_step_size", 0x3000, 0xe, 1, 1, (.i 8), .ro, .w, .val 0, []⟩
abbrev lt_max_ahead : Obj := ⟨"lt_max_ahead", 0x3000, 0xf, 1, 1, (.u 4), .rw, .n, .val 1000000000, [(1000, 2000000000)]⟩
abbrev lt_late_tol : Obj := ⟨"lt_late_tol", 0x3000, 0x10, 1, 1, (.u 4), .rw, .n, .val 0, [(0, 1000000)]⟩
abbrev ts_report_ring : Obj := ⟨"ts_report_ring", 0x3000, 0x11, 1, 1, (.u 1), .rw, .n, .val 0, [(0, 63)]⟩
abbrev dom_enable : Obj := ⟨"dom_enable", 0x3001, 0x1, 2, 1, .bool, .rw, .n, .val 0, []⟩
abbrev dom_mode : Obj := ⟨"dom_mode", 0x3001, 0x2, 2, 1, .enum8, .rw, .n, .val 0, [(0, 1)]⟩
abbrev dom_state : Obj := ⟨"dom_state", 0x3001, 0x3, 2, 1, .enum8, .ro, .w, .val 0, []⟩
abbrev dom_sw_locked : Obj := ⟨"dom_sw_locked", 0x3001, 0x4, 2, 1, .bool, .rw, .v, .val 0, []⟩
abbrev dom_inc : Obj := ⟨"dom_inc", 0x3001, 0x5, 2, 1, (.u 8), .rw, .w, .val 0x01999999999A, [(0, 281474976710655)]⟩
abbrev dom_step : Obj := ⟨"dom_step", 0x3001, 0x6, 2, 1, (.i 8), .cmd, .v, .val 0, []⟩
abbrev dom_kp : Obj := ⟨"dom_kp", 0x3001, 0x7, 2, 1, (.u 4), .rw, .n, .val 131072, [(0, 16777216)]⟩
abbrev dom_ki : Obj := ⟨"dom_ki", 0x3001, 0x8, 2, 1, (.u 4), .rw, .n, .val 33554, [(0, 16777216)]⟩
abbrev dom_lock_thresh : Obj := ⟨"dom_lock_thresh", 0x3001, 0x9, 2, 1, (.u 4), .rw, .n, .val 50, [(1, 100000)]⟩
abbrev dom_lock_count : Obj := ⟨"dom_lock_count", 0x3001, 0xa, 2, 1, (.u 1), .rw, .n, .val 8, [(1, 128)]⟩
abbrev dom_plaus_limit : Obj := ⟨"dom_plaus_limit", 0x3001, 0xb, 2, 1, (.u 4), .rw, .n, .val 1000, [(10, 1000000)]⟩
abbrev dom_plaus_count : Obj := ⟨"dom_plaus_count", 0x3001, 0xc, 2, 1, (.u 1), .rw, .n, .val 8, [(1, 128)]⟩
abbrev dom_loss_timeout : Obj := ⟨"dom_loss_timeout", 0x3001, 0xd, 2, 1, (.u 4), .rw, .n, .val 3000, [(100, 60000)]⟩
abbrev dom_step_thresh : Obj := ⟨"dom_step_thresh", 0x3001, 0xe, 2, 1, (.u 4), .rw, .n, .val 1000, [(100, 1000000000)]⟩
abbrev dom_offset : Obj := ⟨"dom_offset", 0x3001, 0xf, 2, 1, (.i 8), .ro, .v, .val 0, []⟩
abbrev dom_freq : Obj := ⟨"dom_freq", 0x3001, 0x10, 2, 1, (.i 4), .ro, .w, .val 0, []⟩
abbrev dom_samples : Obj := ⟨"dom_samples", 0x3001, 0x11, 2, 1, (.u 8), .ro, .f, .val 0, []⟩
abbrev dom_rejected : Obj := ⟨"dom_rejected", 0x3001, 0x12, 2, 1, (.u 8), .ro, .f, .val 0, []⟩
abbrev dom_stale : Obj := ⟨"dom_stale", 0x3001, 0x13, 2, 1, (.u 8), .ro, .f, .val 0, []⟩
abbrev dom_rate_drop : Obj := ⟨"dom_rate_drop", 0x3001, 0x14, 2, 1, (.u 8), .ro, .f, .val 0, []⟩
abbrev dom_steps : Obj := ⟨"dom_steps", 0x3001, 0x15, 2, 1, (.u 8), .ro, .f, .val 0, []⟩
abbrev pps_mode : Obj := ⟨"pps_mode", 0x3010, 0x1, 2, 1, .enum8, .rw, .n, .val 0, [(0, 2)]⟩
abbrev pps_source : Obj := ⟨"pps_source", 0x3010, 0x2, 2, 1, .enum8, .rw, .n, .val 3, [(0, 3)]⟩
abbrev pps_rate : Obj := ⟨"pps_rate", 0x3010, 0x3, 2, 1, .enum8, .rw, .n, .val 0, [(0, 3)]⟩
abbrev pps_offset : Obj := ⟨"pps_offset", 0x3010, 0x4, 2, 1, (.i 4), .rw, .n, .val 0, [(-500000000, 500000000)]⟩
abbrev pps_width : Obj := ⟨"pps_width", 0x3010, 0x5, 2, 1, (.u 4), .rw, .n, .val 100000000, [(16, 500000000)]⟩
abbrev pps_require_lock : Obj := ⟨"pps_require_lock", 0x3010, 0x6, 2, 1, .bool, .rw, .n, .val 1, []⟩
abbrev rclk_lane : Obj := ⟨"rclk_lane", 0x3010, 0x7, 2, 1, (.u 1), .rw, .n, .val 0, [(0, 63)]⟩
abbrev rclk_div : Obj := ⟨"rclk_div", 0x3010, 0x8, 2, 1, (.u 1), .rw, .n, .val 5, [(1, 64)]⟩
abbrev evt_enable : Obj := ⟨"evt_enable", 0x3012, 0x1, 4, 1, .bool, .rw, .n, .val 0, []⟩
abbrev evt_edge : Obj := ⟨"evt_edge", 0x3012, 0x2, 4, 1, .enum8, .rw, .n, .val 0, [(0, 2)]⟩
abbrev evt_filter : Obj := ⟨"evt_filter", 0x3012, 0x3, 4, 1, (.u 2), .rw, .n, .val 20, [(2, 1000)]⟩
abbrev evt_source : Obj := ⟨"evt_source", 0x3012, 0x4, 4, 1, .enum8, .rw, .n, .val 3, [(0, 3)]⟩
abbrev evt_report : Obj := ⟨"evt_report", 0x3012, 0x5, 4, 1, .bool, .rw, .n, .val 0, []⟩
abbrev evt_fifo : Obj := ⟨"evt_fifo", 0x3012, 0x6, 4, 1, (.octets 16), .ro, .v, .val 0, []⟩
abbrev evt_count : Obj := ⟨"evt_count", 0x3012, 0x7, 4, 1, (.u 1), .ro, .v, .val 0, []⟩
abbrev evt_overflow : Obj := ⟨"evt_overflow", 0x3012, 0x8, 4, 1, (.u 8), .ro, .f, .val 0, []⟩
abbrev ts_cal_select : Obj := ⟨"ts_cal_select", 0x3020, 0x1, 1, 1, (.u 1), .rw, .v, .val 17, [(0, 255)]⟩
abbrev ts_cal_entry : Obj := ⟨"ts_cal_entry", 0x3020, 0x2, 1, 1, (.octets 8), .ro, .n, .live, []⟩
abbrev ts_rx_board : Obj := ⟨"ts_rx_board", 0x3100, 0x1, 256, 1, (.i 4), .rw, .n, .val 0, [(-100000, 100000)]⟩
abbrev ts_tx_board : Obj := ⟨"ts_tx_board", 0x3100, 0x2, 256, 1, (.i 4), .rw, .n, .val 0, [(-100000, 100000)]⟩
abbrev ts_state : Obj := ⟨"ts_state", 0x3100, 0x3, 256, 1, .enum8, .ro, .v, .val 0, []⟩
abbrev lt_round : Obj := ⟨"lt_round", 0x3100, 0x4, 256, 1, .enum8, .rw, .n, .val 0, [(0, 1)]⟩
abbrev lt_late_drop : Obj := ⟨"lt_late_drop", 0x3100, 0x5, 256, 1, (.u 8), .ro, .f, .val 0, []⟩
abbrev lt_late_sent : Obj := ⟨"lt_late_sent", 0x3100, 0x6, 256, 1, (.u 8), .ro, .f, .val 0, []⟩
abbrev lt_far_drop : Obj := ⟨"lt_far_drop", 0x3100, 0x7, 256, 1, (.u 8), .ro, .f, .val 0, []⟩
abbrev lt_slip : Obj := ⟨"lt_slip", 0x3100, 0x8, 256, 1, (.u 8), .ro, .f, .val 0, []⟩
abbrev ptp_edit_err : Obj := ⟨"ptp_edit_err", 0x3100, 0x9, 256, 1, (.u 8), .ro, .f, .val 0, []⟩
/-! R413. -/
abbrev hbm_retired_map : Obj := ⟨"hbm_retired_map", 0x6800, 0x1, 1, 1, .bitmap, .ro, .n, .val 0, []⟩
abbrev hbm_thaw : Obj := ⟨"hbm_thaw", 0x6800, 0x2, 1, 1, (.u 1), .cmd, .v, .val 0, [(0, 127)]⟩
abbrev hbm_retire : Obj := ⟨"hbm_retire", 0x6800, 0x3, 1, 1, (.u 1), .cmd, .v, .val 0, [(0, 127)]⟩
abbrev hbm_regrow : Obj := ⟨"hbm_regrow", 0x6800, 0x4, 1, 1, (.u 1), .cmd, .v, .val 0, [(0, 127)]⟩
abbrev hbm_ppr_target : Obj := ⟨"hbm_ppr_target", 0x6800, 0x5, 1, 1, (.u 4), .rw, .v, .val 0, [(0, 2147483647)]⟩
abbrev hbm_ppr : Obj := ⟨"hbm_ppr", 0x6800, 0x6, 1, 1, (.u 1), .cmd, .v, .val 0, [(1, 2)]⟩
abbrev hbm_retrain_interval : Obj := ⟨"hbm_retrain_interval", 0x6800, 0x7, 1, 1, (.u 4), .rw, .n, .val 1024, [(256, 65536)]⟩
abbrev hbm_scrub_period : Obj := ⟨"hbm_scrub_period", 0x6800, 0x8, 1, 1, (.u 4), .rw, .n, .val 86400, [(0, 0), (3600, 604800)]⟩
abbrev hbm_state : Obj := ⟨"hbm_state", 0x6801, 0x1, 1, 128, .enum8, .ro, .w, .val 0, []⟩
abbrev hbm_diag : Obj := ⟨"hbm_diag", 0x6802, 0x1, 1, 128, (.octets 32), .ro, .w, .val 0, []⟩
abbrev hbm_ecc_corr : Obj := ⟨"hbm_ecc_corr", 0x6803, 0x1, 1, 128, (.u 8), .ro, .f, .val 0, []⟩
abbrev hbm_ondie_corr : Obj := ⟨"hbm_ondie_corr", 0x6804, 0x1, 1, 128, (.u 8), .ro, .f, .val 0, []⟩
abbrev hbm_freezes : Obj := ⟨"hbm_freezes", 0x6805, 0x1, 1, 128, (.u 8), .ro, .f, .val 0, []⟩
abbrev hbm_sppr_count : Obj := ⟨"hbm_sppr_count", 0x6806, 0x1, 1, 128, (.u 1), .ro, .w, .val 0, []⟩
abbrev hbm_hppr_avail : Obj := ⟨"hbm_hppr_avail", 0x6807, 0x1, 1, 128, (.u 1), .ro, .v, .live, []⟩
abbrev hbm_stack_temp : Obj := ⟨"hbm_stack_temp", 0x6808, 0x1, 1, 4, (.i 4), .ro, .v, .val 0, []⟩
/-! R442. -/
abbrev hi_state : Obj := ⟨"hi_state", 0x7000, 0x1, 1, 1, .enum8, .ro, .v, .val 0, []⟩
abbrev hi_halt_cause : Obj := ⟨"hi_halt_cause", 0x7000, 0x2, 1, 1, .enum8, .ro, .f, .val 0, []⟩
abbrev hi_halt_ring : Obj := ⟨"hi_halt_ring", 0x7000, 0x3, 1, 1, (.u 1), .ro, .f, .val 0, []⟩
abbrev hi_halt_time : Obj := ⟨"hi_halt_time", 0x7000, 0x4, 1, 1, .tstamp96, .ro, .f, .val 0, []⟩
abbrev err_vector : Obj := ⟨"err_vector", 0x7000, 0x5, 1, 1, (.u 1), .rw, .n, .val 127, [(0, 127)]⟩
abbrev hi_halts : Obj := ⟨"hi_halts", 0x7000, 0x6, 1, 1, (.u 8), .ro, .f, .val 0, []⟩
abbrev bar2_range_err : Obj := ⟨"bar2_range_err", 0x7000, 0x7, 1, 1, (.u 8), .ro, .f, .val 0, []⟩
abbrev bar2_frozen : Obj := ⟨"bar2_frozen", 0x7000, 0x8, 1, 1, (.u 8), .ro, .f, .val 0, []⟩
abbrev punt_ring : Obj := ⟨"punt_ring", 0x7300, 0x1, 256, 1, (.u 1), .rw, .n, .val 0, [(0, 63)]⟩
abbrev cmd_entries : Obj := ⟨"cmd_entries", 0x7100, 0x1, 64, 1, (.u 8), .ro, .f, .val 0, []⟩
abbrev cmd_errors : Obj := ⟨"cmd_errors", 0x7100, 0x2, 64, 1, (.u 8), .ro, .f, .val 0, []⟩
abbrev cmd_aborted : Obj := ⟨"cmd_aborted", 0x7100, 0x3, 64, 1, (.u 8), .ro, .f, .val 0, []⟩
abbrev db_ignored : Obj := ⟨"db_ignored", 0x7100, 0x4, 64, 1, (.u 8), .ro, .f, .val 0, []⟩
abbrev locks_released : Obj := ⟨"locks_released", 0x7100, 0x5, 64, 1, (.u 8), .ro, .f, .val 0, []⟩
abbrev dlv_items : Obj := ⟨"dlv_items", 0x7200, 0x1, 64, 1, (.u 8), .ro, .f, .val 0, []⟩
abbrev dlv_drop : Obj := ⟨"dlv_drop", 0x7200, 0x2, 64, 1, (.u 8), .ro, .f, .val 0, []⟩
abbrev dlv_truncated : Obj := ⟨"dlv_truncated", 0x7200, 0x3, 64, 1, (.u 8), .ro, .f, .val 0, []⟩
abbrev dlv_bad_buffer : Obj := ⟨"dlv_bad_buffer", 0x7200, 0x4, 64, 1, (.u 8), .ro, .f, .val 0, []⟩
/-! R477. -/
abbrev vendor_id : Obj := ⟨"vendor_id", 0x1000, 0x1, 1, 1, (.u 2), .ro, .n, .val 8058, []⟩
abbrev pcie_device_id : Obj := ⟨"pcie_device_id", 0x1000, 0x2, 1, 1, (.u 2), .ro, .n, .val 12800, []⟩
abbrev part_name : Obj := ⟨"part_name", 0x1000, 0x3, 1, 1, (.octets 16), .ro, .n, .val 0x303032334d4c56, []⟩
abbrev stepping : Obj := ⟨"stepping", 0x1000, 0x4, 1, 1, (.octets 2), .ro, .n, .live, []⟩
abbrev grade : Obj := ⟨"grade", 0x1000, 0x5, 1, 1, .enum8, .ro, .n, .live, []⟩
abbrev serial_number : Obj := ⟨"serial_number", 0x1000, 0x6, 1, 1, (.octets 16), .ro, .n, .live, []⟩
abbrev device_id : Obj := ⟨"device_id", 0x1000, 0x7, 1, 1, (.u 2), .ro, .c, .val 0, []⟩
abbrev can_node_id : Obj := ⟨"can_node_id", 0x1000, 0x8, 1, 1, (.u 1), .ro, .c, .live, []⟩
abbrev dict_format : Obj := ⟨"dict_format", 0x1000, 0x9, 1, 1, (.u 2), .ro, .n, .val 256, []⟩
abbrev save : Obj := ⟨"save", 0x1010, 0x1, 1, 1, (.u 1), .cmd, .v, .val 0, [(1, 2)]⟩
abbrev save_count : Obj := ⟨"save_count", 0x1010, 0x2, 1, 1, (.u 4), .ro, .n, .val 0, []⟩
abbrev n_dirty : Obj := ⟨"n_dirty", 0x1010, 0x3, 1, 1, .bool, .ro, .w, .val 0, []⟩
abbrev save_loaded : Obj := ⟨"save_loaded", 0x1010, 0x4, 1, 1, .enum8, .ro, .c, .val 0, []⟩
abbrev path_pcie : Obj := ⟨"path_pcie", 0x1f00, 0x1, 1, 1, .enum8, .rw, .n, .val 2, [(0, 2)]⟩
abbrev path_oap_mgmt : Obj := ⟨"path_oap_mgmt", 0x1f00, 0x2, 1, 1, .enum8, .rw, .n, .val 2, [(0, 2)]⟩
abbrev path_oap_inband : Obj := ⟨"path_oap_inband", 0x1f00, 0x3, 1, 1, .enum8, .rw, .n, .val 0, [(0, 2)]⟩
abbrev path_can : Obj := ⟨"path_can", 0x1f00, 0x4, 1, 1, .enum8, .rw, .n, .val 1, [(0, 2)]⟩
abbrev path_sdp : Obj := ⟨"path_sdp", 0x1f00, 0x5, 1, 1, .enum8, .rw, .n, .val 2, [(0, 2)]⟩
abbrev mgmt_mac : Obj := ⟨"mgmt_mac", 0x1f01, 0x1, 1, 1, (.octets 6), .rw, .n, .mgmtMac, []⟩
abbrev mgmt_ipv4 : Obj := ⟨"mgmt_ipv4", 0x1f01, 0x2, 1, 1, (.u 4), .rw, .n, .mgmtIp, []⟩
abbrev inband_mac : Obj := ⟨"inband_mac", 0x1f01, 0x3, 1, 1, (.octets 6), .rw, .n, .inbandMac, []⟩
abbrev inband_ipv4 : Obj := ⟨"inband_ipv4", 0x1f01, 0x4, 1, 1, (.u 4), .rw, .n, .val 0, []⟩
abbrev mgmt_vlan : Obj := ⟨"mgmt_vlan", 0x1f01, 0x5, 1, 1, (.u 2), .rw, .n, .val 4094, [(1, 4094)]⟩
abbrev inband_queue : Obj := ⟨"inband_queue", 0x1f01, 0x6, 1, 1, (.u 1), .rw, .n, .val 6, [(0, 7)]⟩
abbrev oap_session_timeout : Obj := ⟨"oap_session_timeout", 0x1f01, 0x7, 1, 1, (.u 4), .rw, .n, .val 60, [(1, 3600)]⟩
abbrev oap_rate : Obj := ⟨"oap_rate", 0x1f01, 0x8, 1, 1, (.u 2), .rw, .n, .val 1000, [(10, 10000)]⟩
abbrev oap_drop : Obj := ⟨"oap_drop", 0x1f01, 0x9, 1, 1, (.u 8), .ro, .f, .val 0, []⟩
abbrev oap_resent : Obj := ⟨"oap_resent", 0x1f01, 0xa, 1, 1, (.u 8), .ro, .f, .val 0, []⟩
abbrev oap_stale_seq : Obj := ⟨"oap_stale_seq", 0x1f01, 0xb, 1, 1, (.u 8), .ro, .f, .val 0, []⟩
abbrev mb_ignored : Obj := ⟨"mb_ignored", 0x1f01, 0xc, 1, 1, (.u 8), .ro, .f, .val 0, []⟩
abbrev sdo_timeout : Obj := ⟨"sdo_timeout", 0x1f02, 0x1, 1, 1, (.u 2), .rw, .n, .val 1000, [(10, 10000)]⟩
abbrev can_drop : Obj := ⟨"can_drop", 0x1f02, 0x2, 1, 1, (.u 8), .ro, .w, .val 0, []⟩
abbrev sdo_aborts : Obj := ⟨"sdo_aborts", 0x1f02, 0x3, 1, 1, (.u 8), .ro, .w, .val 0, []⟩
abbrev journal_next_seq : Obj := ⟨"journal_next_seq", 0xf000, 0x1, 1, 1, (.u 4), .ro, .w, .val 0, []⟩
abbrev journal_select : Obj := ⟨"journal_select", 0xf000, 0x2, 1, 1, (.u 4), .rw, .v, .val 0, []⟩
abbrev journal_entry : Obj := ⟨"journal_entry", 0xf000, 0x3, 1, 1, (.octets 48), .ro, .w, .val 0, []⟩
abbrev journal_lost : Obj := ⟨"journal_lost", 0xf000, 0x4, 1, 1, (.u 8), .ro, .w, .val 0, []⟩
abbrev journal_channel : Obj := ⟨"journal_channel", 0xf000, 0x5, 1, 1, (.u 1), .rw, .n, .val 255, [(0, 63), (255, 255)]⟩
/-! R496. -/
abbrev str_enable : Obj := ⟨"str_enable", 0x7800, 0x1, 1, 1, .bool, .rw, .n, .val 0, []⟩
abbrev str_link_state : Obj := ⟨"str_link_state", 0x7800, 0x2, 1, 1, .enum8, .ro, .v, .val 0, []⟩
abbrev str_metaframe : Obj := ⟨"str_metaframe", 0x7800, 0x3, 1, 1, (.u 2), .rw, .n, .val 2048, [(128, 8192)]⟩
abbrev str_fc_timeout : Obj := ⟨"str_fc_timeout", 0x7800, 0x4, 1, 1, (.u 4), .rw, .n, .val 10000, [(1000, 1000000)]⟩
abbrev str_event_channel : Obj := ⟨"str_event_channel", 0x7800, 0x5, 1, 1, (.u 1), .rw, .n, .val 255, [(0, 63), (255, 255)]⟩
abbrev str_lane_lock : Obj := ⟨"str_lane_lock", 0x7800, 0x6, 1, 1, (.u 1), .ro, .v, .val 0, []⟩
abbrev str_fc_crc_err : Obj := ⟨"str_fc_crc_err", 0x7800, 0x7, 1, 1, (.u 8), .ro, .f, .val 0, []⟩
abbrev str_rx_discard : Obj := ⟨"str_rx_discard", 0x7800, 0x8, 1, 1, (.u 8), .ro, .f, .val 0, []⟩
abbrev str_chan_enable : Obj := ⟨"str_chan_enable", 0x7801, 0x1, 1, 64, .bool, .rw, .n, .val 1, []⟩
abbrev str_chan_buf : Obj := ⟨"str_chan_buf", 0x7802, 0x1, 1, 64, (.u 2), .rw, .n, .val 1, [(1, 512)]⟩
abbrev str_chan_seq : Obj := ⟨"str_chan_seq", 0x7803, 0x1, 1, 64, (.u 4), .ro, .v, .val 0, []⟩
abbrev str_records : Obj := ⟨"str_records", 0x7804, 0x1, 1, 64, (.u 8), .ro, .f, .val 0, []⟩
abbrev str_drop_full : Obj := ⟨"str_drop_full", 0x7805, 0x1, 1, 64, (.u 8), .ro, .f, .val 0, []⟩
abbrev str_drop_rate : Obj := ⟨"str_drop_rate", 0x7806, 0x1, 1, 64, (.u 8), .ro, .f, .val 0, []⟩
abbrev str_drop_off : Obj := ⟨"str_drop_off", 0x7807, 0x1, 1, 64, (.u 8), .ro, .f, .val 0, []⟩
abbrev str_lost : Obj := ⟨"str_lost", 0x7808, 0x1, 1, 64, (.u 8), .ro, .f, .val 0, []⟩
abbrev str_buf_used : Obj := ⟨"str_buf_used", 0x7809, 0x1, 1, 64, (.u 4), .ro, .v, .val 0, []⟩
abbrev str_xoff_time : Obj := ⟨"str_xoff_time", 0x780a, 0x1, 1, 64, (.u 8), .ro, .f, .val 0, []⟩
abbrev mirror_session : Obj := ⟨"mirror_session", 0x7810, 0x1, 1, 16, (.octets 8), .rw, .n, .val 0x24000000000000, []⟩
/-! R522. -/
abbrev ev_base_class : Obj := ⟨"ev_base_class", 0x8000, 0x1, 250, 1, .enum8, .ro, .v, .evClass, []⟩
abbrev ev_reaction : Obj := ⟨"ev_reaction", 0x8000, 0x2, 250, 1, (.u 1), .rw, .n, .evReaction, []⟩
abbrev ev_esc_n : Obj := ⟨"ev_esc_n", 0x8000, 0x3, 250, 1, (.u 2), .rw, .n, .evEscN, [(0, 65535)]⟩
abbrev ev_esc_window : Obj := ⟨"ev_esc_window", 0x8000, 0x4, 250, 1, (.u 4), .rw, .n, .evEscWindow, [(1, 3600000)]⟩
abbrev ev_esc_reaction : Obj := ⟨"ev_esc_reaction", 0x8000, 0x5, 250, 1, (.u 1), .rw, .n, .evEscReaction, []⟩
abbrev ev_escalated : Obj := ⟨"ev_escalated", 0x8000, 0x6, 250, 1, .bool, .ro, .w, .val 0, []⟩
abbrev ev_clear : Obj := ⟨"ev_clear", 0x8000, 0x7, 250, 1, (.u 1), .cmd, .v, .val 0, [(1, 1)]⟩
abbrev ev_count : Obj := ⟨"ev_count", 0x8000, 0x8, 250, 1, (.u 8), .ro, .f, .val 0, []⟩
abbrev ev_last_time : Obj := ⟨"ev_last_time", 0x8000, 0x9, 250, 1, .tstamp96, .ro, .v, .val 0, []⟩
abbrev ev_window_count : Obj := ⟨"ev_window_count", 0x8000, 0xa, 250, 1, (.u 2), .ro, .v, .val 0, []⟩
/-! R523. -/
abbrev fm_summary : Obj := ⟨"fm_summary", 0x8100, 0x1, 1, 1, (.u 1), .ro, .w, .val 0, []⟩
abbrev fm_summary_clear : Obj := ⟨"fm_summary_clear", 0x8100, 0x2, 1, 1, (.u 1), .cmd, .v, .val 0, [(1, 1)]⟩
abbrev croak_level : Obj := ⟨"croak_level", 0x8100, 0x3, 1, 1, .bool, .rw, .w, .val 0, []⟩
abbrev croak_min_width : Obj := ⟨"croak_min_width", 0x8100, 0x4, 1, 1, (.u 4), .rw, .n, .val 1000000, [(1000, 100000000)]⟩
abbrev safe_tx : Obj := ⟨"safe_tx", 0x8100, 0x5, 1, 1, .enum8, .rw, .n, .val 0, [(0, 1)]⟩
abbrev fm_autotomy_enable : Obj := ⟨"fm_autotomy_enable", 0x8100, 0x6, 1, 1, .bool, .rw, .n, .val 1, []⟩
abbrev fm_coalesce_window : Obj := ⟨"fm_coalesce_window", 0x8100, 0x7, 1, 1, (.u 4), .rw, .n, .val 1000, [(10, 1000000)]⟩
abbrev fm_open_limit : Obj := ⟨"fm_open_limit", 0x8100, 0x8, 1, 1, (.u 4), .rw, .n, .val 1000, [(1, 60000)]⟩
abbrev fm_event_ring : Obj := ⟨"fm_event_ring", 0x8100, 0x9, 1, 1, (.u 1), .rw, .n, .val 255, [(0, 63), (255, 255)]⟩
abbrev fm_first_fault : Obj := ⟨"fm_first_fault", 0x8100, 0xa, 1, 1, (.octets 48), .ro, .w, .val 0, []⟩
abbrev fm_first_clear : Obj := ⟨"fm_first_clear", 0x8100, 0xb, 1, 1, (.u 1), .cmd, .v, .val 0, [(1, 1)]⟩
abbrev fm_log_next_seq : Obj := ⟨"fm_log_next_seq", 0x8100, 0xc, 1, 1, (.u 4), .ro, .w, .val 0, []⟩
abbrev fm_log_select : Obj := ⟨"fm_log_select", 0x8100, 0xd, 1, 1, (.u 4), .rw, .v, .val 0, []⟩
abbrev fm_log_entry : Obj := ⟨"fm_log_entry", 0x8100, 0xe, 1, 1, (.octets 48), .ro, .w, .val 0, []⟩
abbrev fm_log_ack : Obj := ⟨"fm_log_ack", 0x8100, 0xf, 1, 1, (.u 4), .cmd, .v, .val 0, []⟩
abbrev fm_lost : Obj := ⟨"fm_lost", 0x8100, 0x10, 1, 4, (.u 8), .ro, .w, .val 0, []⟩
abbrev fm_isolate : Obj := ⟨"fm_isolate", 0x8100, 0x14, 1, 1, (.u 4), .cmd, .v, .val 0, []⟩
abbrev fm_regrow : Obj := ⟨"fm_regrow", 0x8100, 0x15, 1, 1, (.u 4), .cmd, .v, .val 0, []⟩
/-! R559. -/
abbrev watch_port_a : Obj := ⟨"watch_port_a", 0x9000, 0x1, 1, 1, (.u 1), .rw, .n, .val 240, [(240, 240), (244, 244), (248, 248), (252, 252)]⟩
abbrev watch_port_b : Obj := ⟨"watch_port_b", 0x9000, 0x2, 1, 1, (.u 1), .rw, .n, .val 244, [(240, 240), (244, 244), (248, 248), (252, 252)]⟩
abbrev pass_through : Obj := ⟨"pass_through", 0x9000, 0x3, 1, 1, .bool, .rw, .n, .val 1, []⟩
abbrev reset_cmd : Obj := ⟨"reset_cmd", 0x9000, 0x4, 1, 1, (.u 1), .cmd, .v, .val 0, [(1, 2)]⟩
abbrev last_reset : Obj := ⟨"last_reset", 0x9000, 0x5, 1, 1, .enum8, .ro, .c, .val 0, []⟩
abbrev warm_resets : Obj := ⟨"warm_resets", 0x9000, 0x6, 1, 1, (.u 4), .ro, .c, .val 0, []⟩
abbrev brumate : Obj := ⟨"brumate", 0x9000, 0x7, 1, 1, (.u 1), .cmd, .v, .val 0, [(1, 1)]⟩
abbrev wake : Obj := ⟨"wake", 0x9000, 0x8, 1, 1, (.u 1), .cmd, .v, .val 0, [(1, 1)]⟩
abbrev power_state : Obj := ⟨"power_state", 0x9000, 0x9, 1, 1, .enum8, .ro, .w, .val 0, []⟩
abbrev brum_discarded : Obj := ⟨"brum_discarded", 0x9000, 0xa, 1, 1, (.u 8), .ro, .w, .val 0, []⟩
abbrev eft_wdog_enable : Obj := ⟨"eft_wdog_enable", 0x9000, 0xb, 1, 1, .bool, .rw, .n, .val 1, []⟩
abbrev eft_wdog_timeout : Obj := ⟨"eft_wdog_timeout", 0x9000, 0xc, 1, 1, (.u 2), .rw, .n, .val 500, [(50, 1000)]⟩
abbrev eft_wdog_limit : Obj := ⟨"eft_wdog_limit", 0x9000, 0xd, 1, 1, (.u 1), .rw, .n, .val 3, [(0, 16)]⟩
abbrev eft_wdog_window : Obj := ⟨"eft_wdog_window", 0x9000, 0xe, 1, 1, (.u 4), .rw, .n, .val 3600, [(60, 86400)]⟩
abbrev coarse_time : Obj := ⟨"coarse_time", 0x9000, 0xf, 1, 1, .tstamp96, .ro, .c, .val 0, []⟩
abbrev aon_source : Obj := ⟨"aon_source", 0x9000, 0x10, 1, 1, .enum8, .ro, .c, .val 0, []⟩
abbrev eft_ff_last : Obj := ⟨"eft_ff_last", 0x9000, 0x11, 1, 1, (.octets 256), .ro, .c, .val 0, []⟩
abbrev pass_frames : Obj := ⟨"pass_frames", 0x9000, 0x12, 1, 1, (.u 8), .ro, .c, .val 0, []⟩
abbrev pass_drop : Obj := ⟨"pass_drop", 0x9000, 0x13, 1, 1, (.u 8), .ro, .c, .val 0, []⟩
abbrev eft_ev_lost : Obj := ⟨"eft_ev_lost", 0x9000, 0x14, 1, 1, (.u 8), .ro, .c, .val 0, []⟩
abbrev sampler_cfg : Obj := ⟨"sampler_cfg", 0x9010, 0x1, 1, 16, (.octets 16), .rw, .n, .val 0, []⟩
abbrev sampler_value : Obj := ⟨"sampler_value", 0x9011, 0x1, 1, 16, (.i 4), .ro, .c, .val 0, []⟩
abbrev sampler_status : Obj := ⟨"sampler_status", 0x9012, 0x1, 1, 16, (.u 1), .ro, .c, .val 0, []⟩
abbrev sampler_rejects : Obj := ⟨"sampler_rejects", 0x9013, 0x1, 1, 16, (.u 4), .ro, .c, .val 0, []⟩
abbrev eft_rule : Obj := ⟨"eft_rule", 0x9020, 0x1, 1, 64, (.octets 16), .rw, .n, .val 0, []⟩
abbrev eft_rule_fires : Obj := ⟨"eft_rule_fires", 0x9021, 0x1, 1, 64, (.u 4), .ro, .c, .val 0, []⟩
abbrev canned_frame : Obj := ⟨"canned_frame", 0x9030, 0x1, 1, 8, (.octets 130), .rw, .n, .val 0, []⟩
abbrev eft_log_select : Obj := ⟨"eft_log_select", 0x9040, 0x1, 1, 1, (.u 2), .rw, .v, .val 0, [(0, 255)]⟩
abbrev eft_log_entry : Obj := ⟨"eft_log_entry", 0x9040, 0x2, 1, 1, (.octets 16), .ro, .c, .val 0, []⟩
abbrev eft_log_next : Obj := ⟨"eft_log_next", 0x9040, 0x3, 1, 1, (.u 2), .ro, .c, .val 0, []⟩
/-! R581. -/
abbrev halt_leap_timeout : Obj := ⟨"halt_leap_timeout", 0xa000, 0x1, 1, 1, (.u 4), .rw, .n, .val 100000, [(1000, 1000000000)]⟩
abbrev debug_hold_leaps : Obj := ⟨"debug_hold_leaps", 0xa000, 0x2, 1, 1, .bool, .rw, .v, .val 0, []⟩
abbrev dbg_halt : Obj := ⟨"dbg_halt", 0xa000, 0x3, 1, 1, (.u 2), .cmd, .v, .val 0, []⟩
abbrev dbg_resume : Obj := ⟨"dbg_resume", 0xa000, 0x4, 1, 1, (.u 2), .cmd, .v, .val 0, []⟩
abbrev dbg_step : Obj := ⟨"dbg_step", 0xa000, 0x5, 1, 1, (.u 4), .cmd, .v, .val 0, []⟩
abbrev halted_threads : Obj := ⟨"halted_threads", 0xa000, 0x6, 1, 1, (.u 2), .ro, .v, .val 0, []⟩
abbrev dbg_mem_space : Obj := ⟨"dbg_mem_space", 0xa000, 0x7, 1, 1, .enum8, .rw, .v, .val 0, [(0, 5)]⟩
abbrev dbg_mem_addr : Obj := ⟨"dbg_mem_addr", 0xa000, 0x8, 1, 1, (.u 8), .rw, .v, .val 0, []⟩
abbrev dbg_mem_data : Obj := ⟨"dbg_mem_data", 0xa000, 0x9, 1, 1, (.octets 32), .rw, .v, .val 0, []⟩
abbrev dbg_mem_cmd : Obj := ⟨"dbg_mem_cmd", 0xa000, 0xa, 1, 1, (.u 1), .cmd, .v, .val 0, [(1, 2)]⟩
abbrev trace_channel : Obj := ⟨"trace_channel", 0xa000, 0xb, 1, 1, (.u 1), .rw, .n, .val 255, [(0, 63), (255, 255)]⟩
abbrev boot_mode : Obj := ⟨"boot_mode", 0xa000, 0xc, 1, 1, .enum8, .ro, .c, .val 0, []⟩
abbrev boot_status : Obj := ⟨"boot_status", 0xa000, 0xd, 1, 1, .enum8, .ro, .c, .val 0, []⟩
abbrev boot_slot : Obj := ⟨"boot_slot", 0xa000, 0xe, 1, 1, .enum8, .ro, .c, .val 0, []⟩
abbrev boot_load : Obj := ⟨"boot_load", 0xa000, 0xf, 1, 1, (.u 1), .cmd, .v, .val 0, [(1, 2)]⟩
abbrev boot_go : Obj := ⟨"boot_go", 0xa000, 0x10, 1, 1, (.u 1), .cmd, .v, .val 0, [(1, 1)]⟩
abbrev breakpoint : Obj := ⟨"breakpoint", 0xa010, 0x1, 16, 4, (.octets 8), .rw, .v, .val 0, []⟩
abbrev trace_ctrl : Obj := ⟨"trace_ctrl", 0xa020, 0x1, 16, 1, (.octets 8), .rw, .v, .val 0, []⟩
abbrev trace_used : Obj := ⟨"trace_used", 0xa020, 0x2, 16, 1, (.u 2), .ro, .v, .val 0, []⟩
abbrev trace_lost : Obj := ⟨"trace_lost", 0xa020, 0x3, 16, 1, (.u 8), .ro, .v, .val 0, []⟩
abbrev trace_select : Obj := ⟨"trace_select", 0xa020, 0x4, 16, 1, (.u 4), .rw, .v, .val 0, []⟩
abbrev trace_entry : Obj := ⟨"trace_entry", 0xa020, 0x5, 16, 1, (.octets 16), .ro, .v, .val 0, []⟩
abbrev bp_hits : Obj := ⟨"bp_hits", 0xa020, 0x6, 16, 1, (.u 8), .ro, .v, .val 0, []⟩
abbrev lane_prbs : Obj := ⟨"lane_prbs", 0xa100, 0x1, 1, 64, (.u 1), .rw, .v, .val 0, []⟩
abbrev lane_prbs_errors : Obj := ⟨"lane_prbs_errors", 0xa101, 0x1, 1, 64, (.u 8), .ro, .v, .val 0, []⟩
abbrev lane_prbs_lock : Obj := ⟨"lane_prbs_lock", 0xa102, 0x1, 1, 64, .bool, .ro, .v, .val 0, []⟩

/-- The objects of the port pages (R450). -/
def portPage : List Obj :=
  [port_mode, admin_up, fec_mode, port_role, pair_port, link_down_filter, link_up_filter, down_policy, down_hold_time, mac_flush_on_down, preempt_enable, preempt_queues, preempt_verify, max_frame, sd_assert_mv, sd_deassert_mv, usx_speed, link_training, link_state, link_state_detail, fec_active, speed_active, mm_status, lane_signal, lane_lock, last_change, hold_remaining, rx_frames, rx_octets, rx_fcs_err, rx_runt, rx_oversize, rx_overrun, rx_pause, rx_pcs_err, fec_corrected, fec_uncorrected, tx_frames, tx_octets, tx_drop_down] ++
  [tx_drop_stale, tx_aborted, link_down_count, mm_frag_tx, mm_frag_rx, mm_reasm_err, counters_clear]

/-- The objects of the hue pages (R450). -/
def huePage : List Obj :=
  [hue_active, hue_oldest, hue_window, hue_next_image, hue_active_image, min_clutches, hue_commit, hue_abort, hue_count, hue_drain_limit, hue_commit_time, hue_staged_count, hue_scrub_busy, hue_miss_action, rule_select, rule_header, rule_value, rule_mask, rule_action, rule_hits, rule_free_count, vlan_tpid3, tcp_port_iec104, tcp_port_dnp3, tcp_port_modbus, tcp_port_mms, parse_err, parse_depth, class_miss, class_mem_drop, parser_parity_drop, port_class]

/-- The objects of the pattern pages (R450). -/
def patternPage : List Obj :=
  [pat_engines_in_service, pat_engine_isolate, pat_engine_regrow, pat_words_free, pat_patterns_used, pat_set_select, pat_set_header, pat_set_desc, pat_set_extract, pat_set_hits, pat_mem_addr, pat_mem_data, pat_trunc, pat_malformed, pat_limit, pat_mem_drop, pat_no_engine_drop, pat_rerun]

/-- The objects of the skink pages (R450). -/
def skinkPage : List Obj :=
  [skinks_in_service, spray_pipe_quota, reorder_timeout, prog_word_limit, clutch_drain, clutch_return, skink_isolate, skink_regrow, threads_busy, sf_used, sf_select, sf_entry, clutch_state, clutch_image, clutch_packets, reorder_released, reorder_timeout_count, reorder_late_drop, prog_drop, reorder_high_water, spray_stall_cycles, prog_trap_drop, sf_queue_drop, cs_buf_offset, cs_buf_data, cs_load_source, cs_load_addr, cs_load, hue_image_load, hue_load_fail, disp_select, disp0_stage, disp0_entry, cs_peek_select, cs_peek_data, cs_reloads, cs_mchk, ucode_trap_drop, ucode_trap_addr]

/-- The objects of the flow pages (R450). -/
def flowPage : List Obj :=
  [leap_keyed_ops, lock_break, sf_auto, sf_abort_threshold, sf_window, sf_idle, leap_wait_limit, leaps_open, lsn_next, horizon_lsn, claims_used, leap_committed, leap_abort_conflict, leap_abort_mchk, leap_abandoned, leap_lock_timeout, lock_breaks, ins_full, rec_unavailable, deferred_drop, order_breach, horizon_wait_cycles, late_keyed_binds, records_used, stash_used, lock_timeout, sweep_period, hash_salt, flow_cache_flush, locks_held, learn_notice_ring, learn_notice_hold, reloc_moves, flow_key, flow_key_tmpl, flow_search, flow_record, flow_lock, flow_unlock, flow_write] ++
  [flow_cursor, flow_next, flow_flush_port, flow_flush_tmpl, flow_flush_deleted, cache_hits, cache_misses, second_reads, inserts, deletes, aged, rec_stale, rec_lost, reloc_fail, learn_notices, learn_suppressed, sweep_lock_skip, tmpl_select, tmpl_header, tmpl_desc, tmpl_free_count, key_tmpl_select, key_tmpl_desc, learn_mode]

/-- The objects of the table pages (R450). -/
def tablePage : List Obj :=
  [mac_entries, mac_age_limit, mac_sweep_period, move_hold, move_limit, move_window, learn_sort_window, mac_hash_salt, mac_flush_port, mac_save, nat_restore, learn_requests, learn_filtered, learn_late, learn_overflow, learn_denied, learn_flush_drop, moves, move_refused, static_violation, mac_aged, mac_flushed, table_mem_drop, tbl_target, tbl_index, tbl_key, tbl_data, tbl_cmd, nat_used, lpm_used, npt6_len, pair_group]

/-- The objects of the fabric pages (R450). -/
def fabricPage : List Obj :=
  [spill_classes, spill_threshold, spill_pool_reserve, refill_level, spill_max_blocks, voq_onchip_max, fab_xoff_class, fab_xon_class, fab_xoff_total, fab_xon_total, hold_cells, fab_reorder_timeout, fab_reorder_timeout_exp, middles_in_service, middle_isolate, middle_regrow, spill_blocks_used, voq_select, voq_state, voq_onchip, voq_spilled, mcg_select, mcg_copies, mcg_refused, pool_free, pool_drop, spill_refused, spill_full_drop, spill_lost, cells_spilled, reorder_skips, late_cells, reasm_drop, express_deep, store_used, xoff_map]

/-- The objects of the egress pages (R450). -/
def egressPage : List Obj :=
  [red_select, red_profile, pol_select, pol_config, pol_tokens, pol_green, pol_yellow, pol_red, pol_red_drop, strict_count, port_shaper, queue_weight, queue_max, queue_red_profile, max_residence, queue_shaper, queue_len, tx_queue_drop, red_drop, red_mark, tx_queue_frames, express_drop, calendar_drop, mark_not_ect]

/-- The objects of the time pages (R450). -/
def timePage : List Obj :=
  [time_snapshot, snap_f, snap_a, snap_b, snap_w, w_state, w_active, w_select, w_revert, slew_max, w_inc, w_offset, w_set, w_step_size, lt_max_ahead, lt_late_tol, ts_report_ring, dom_enable, dom_mode, dom_state, dom_sw_locked, dom_inc, dom_step, dom_kp, dom_ki, dom_lock_thresh, dom_lock_count, dom_plaus_limit, dom_plaus_count, dom_loss_timeout, dom_step_thresh, dom_offset, dom_freq, dom_samples, dom_rejected, dom_stale, dom_rate_drop, dom_steps, pps_mode, pps_source] ++
  [pps_rate, pps_offset, pps_width, pps_require_lock, rclk_lane, rclk_div, evt_enable, evt_edge, evt_filter, evt_source, evt_report, evt_fifo, evt_count, evt_overflow, ts_cal_select, ts_cal_entry, ts_rx_board, ts_tx_board, ts_state, lt_round, lt_late_drop, lt_late_sent, lt_far_drop, lt_slip, ptp_edit_err]

/-- The objects of the hbm pages (R450). -/
def hbmPage : List Obj :=
  [hbm_retired_map, hbm_thaw, hbm_retire, hbm_regrow, hbm_ppr_target, hbm_ppr, hbm_retrain_interval, hbm_scrub_period, hbm_state, hbm_diag, hbm_ecc_corr, hbm_ondie_corr, hbm_freezes, hbm_sppr_count, hbm_hppr_avail, hbm_stack_temp]

/-- The objects of the host pages (R450). -/
def hostPage : List Obj :=
  [hi_state, hi_halt_cause, hi_halt_ring, hi_halt_time, err_vector, hi_halts, bar2_range_err, bar2_frozen, punt_ring, cmd_entries, cmd_errors, cmd_aborted, db_ignored, locks_released, dlv_items, dlv_drop, dlv_truncated, dlv_bad_buffer]

/-- The objects of the device pages (R450). -/
def devicePage : List Obj :=
  [vendor_id, pcie_device_id, part_name, stepping, grade, serial_number, device_id, can_node_id, dict_format, save, save_count, n_dirty, save_loaded, path_pcie, path_oap_mgmt, path_oap_inband, path_can, path_sdp, mgmt_mac, mgmt_ipv4, inband_mac, inband_ipv4, mgmt_vlan, inband_queue, oap_session_timeout, oap_rate, oap_drop, oap_resent, oap_stale_seq, mb_ignored, sdo_timeout, can_drop, sdo_aborts]

/-- The objects of the journal pages (R450). -/
def journalPage : List Obj :=
  [journal_next_seq, journal_select, journal_entry, journal_lost, journal_channel]

/-- The objects of the stream pages (R450). -/
def streamPage : List Obj :=
  [str_enable, str_link_state, str_metaframe, str_fc_timeout, str_event_channel, str_lane_lock, str_fc_crc_err, str_rx_discard, str_chan_enable, str_chan_buf, str_chan_seq, str_records, str_drop_full, str_drop_rate, str_drop_off, str_lost, str_buf_used, str_xoff_time, mirror_session]

/-- The objects of the fault pages (R450). -/
def faultPage : List Obj :=
  [ev_base_class, ev_reaction, ev_esc_n, ev_esc_window, ev_esc_reaction, ev_escalated, ev_clear, ev_count, ev_last_time, ev_window_count, fm_summary, fm_summary_clear, croak_level, croak_min_width, safe_tx, fm_autotomy_enable, fm_coalesce_window, fm_open_limit, fm_event_ring, fm_first_fault, fm_first_clear, fm_log_next_seq, fm_log_select, fm_log_entry, fm_log_ack, fm_lost, fm_isolate, fm_regrow]

/-- The objects of the eft pages (R450). -/
def eftPage : List Obj :=
  [watch_port_a, watch_port_b, pass_through, reset_cmd, last_reset, warm_resets, brumate, wake, power_state, brum_discarded, eft_wdog_enable, eft_wdog_timeout, eft_wdog_limit, eft_wdog_window, coarse_time, aon_source, eft_ff_last, pass_frames, pass_drop, eft_ev_lost, sampler_cfg, sampler_value, sampler_status, sampler_rejects, eft_rule, eft_rule_fires, canned_frame, eft_log_select, eft_log_entry, eft_log_next]

/-- The objects of the debug pages (R450). -/
def debugPage : List Obj :=
  [halt_leap_timeout, debug_hold_leaps, dbg_halt, dbg_resume, dbg_step, halted_threads, dbg_mem_space, dbg_mem_addr, dbg_mem_data, dbg_mem_cmd, trace_channel, boot_mode, boot_status, boot_slot, boot_load, boot_go, breakpoint, trace_ctrl, trace_used, trace_lost, trace_select, trace_entry, bp_hits, lane_prbs, lane_prbs_errors, lane_prbs_lock]

/-- The objects whose index lies where the index map of R450 puts this index. -/
def pageOf (idx : Nat) : List Obj :=
  if idx < 0x2000 then devicePage
  else if idx < 0x3000 then portPage
  else if idx < 0x3400 then timePage
  else if idx < 0x4000 then egressPage
  else if idx < 0x4400 then huePage
  else if idx < 0x4800 then patternPage
  else if idx < 0x5000 then skinkPage
  else if idx < 0x5800 then flowPage
  else if idx < 0x6000 then tablePage
  else if idx < 0x6800 then fabricPage
  else if idx < 0x7000 then hbmPage
  else if idx < 0x7800 then hostPage
  else if idx < 0x8000 then streamPage
  else if idx < 0x9000 then faultPage
  else if idx < 0xa000 then eftPage
  else if idx < 0xf000 then debugPage
  else journalPage

/-- Every object of the dictionary. -/
def all : List Obj :=
  portPage ++ huePage ++ patternPage ++ skinkPage ++ flowPage ++ tablePage ++ fabricPage ++ egressPage ++ timePage ++ hbmPage ++ hostPage ++ devicePage ++ journalPage ++ streamPage ++ faultPage ++ eftPage ++ debugPage

end Sys2Proof.Machine.Objs
end

