-- ==== Sys2Proof/Machine/EvTable.lean ====
section
/-! DEFINITION. The event sources (R498): base class and unit type (R511) of each source that a chapter describes, from the event tables of R51, R85, R107, R134, R167, R205, R247, R300, R331, R352, R387, R414, R443, R497, R524 and R560. -/

namespace Sys2Proof.Machine

/-- A source: its number, base class, UNIT_TYPE, and for NAMED the unit of its Unit column, numbered in the tables' order. -/
structure EvRow where
  src : Nat
  cls : Nat
  unit : Nat
  named : Nat
deriving DecidableEq, Repr

/-- The sources that are ever raised; every other number is reserved. -/
def evRows : List EvRow :=
  [⟨0, 0, 2, 0⟩, ⟨1, 0, 2, 0⟩, ⟨2, 0, 1, 0⟩, ⟨3, 1, 2, 0⟩, ⟨4, 0, 2, 0⟩, ⟨5, 0, 2, 0⟩, ⟨6, 1, 2, 0⟩, ⟨7, 1, 2, 0⟩, ⟨8, 0, 2, 0⟩, ⟨9, 1, 2, 0⟩, ⟨10, 2, 1, 0⟩, ⟨11, 1, 2, 0⟩, ⟨12, 1, 2, 0⟩, ⟨13, 0, 2, 0⟩, ⟨14, 1, 1, 0⟩, ⟨32, 0, 3, 0⟩, ⟨33, 0, 3, 0⟩, ⟨34, 1, 3, 0⟩, ⟨35, 1, 16, 1⟩, ⟨36, 2, 16, 1⟩, ⟨37, 0, 16, 2⟩, ⟨38, 0, 16, 2⟩, ⟨39, 1, 16, 2⟩, ⟨40, 2, 16, 2⟩, ⟨41, 2, 16, 1⟩, ⟨48, 0, 3, 0⟩, ⟨49, 0, 3, 0⟩, ⟨50, 0, 3, 0⟩, ⟨51, 1, 16, 3⟩, ⟨52, 2, 16, 3⟩] ++
  [⟨53, 1, 7, 0⟩, ⟨54, 2, 7, 0⟩, ⟨55, 2, 3, 0⟩, ⟨56, 2, 16, 3⟩, ⟨64, 0, 3, 0⟩, ⟨65, 0, 3, 0⟩, ⟨66, 0, 3, 0⟩, ⟨67, 1, 4, 0⟩, ⟨68, 0, 16, 4⟩, ⟨69, 1, 16, 4⟩, ⟨70, 1, 16, 4⟩, ⟨71, 0, 6, 0⟩, ⟨72, 0, 6, 0⟩, ⟨73, 1, 5, 0⟩, ⟨74, 2, 5, 0⟩, ⟨75, 2, 6, 0⟩, ⟨76, 2, 16, 5⟩, ⟨77, 2, 3, 0⟩, ⟨78, 0, 3, 0⟩, ⟨80, 1, 6, 0⟩, ⟨81, 1, 6, 0⟩, ⟨82, 2, 6, 0⟩, ⟨83, 1, 4, 0⟩, ⟨84, 0, 6, 0⟩, ⟨86, 1, 16, 6⟩, ⟨96, 0, 16, 7⟩, ⟨97, 1, 16, 8⟩, ⟨98, 1, 4, 0⟩, ⟨99, 1, 16, 7⟩, ⟨100, 1, 4, 0⟩] ++
  [⟨101, 0, 16, 7⟩, ⟨102, 1, 16, 7⟩, ⟨103, 2, 16, 7⟩, ⟨104, 1, 16, 7⟩, ⟨105, 0, 16, 8⟩, ⟨106, 0, 16, 8⟩, ⟨107, 1, 16, 8⟩, ⟨108, 1, 16, 8⟩, ⟨109, 1, 16, 8⟩, ⟨110, 1, 16, 9⟩, ⟨111, 2, 16, 9⟩, ⟨112, 1, 16, 8⟩, ⟨113, 2, 16, 10⟩, ⟨114, 0, 16, 8⟩, ⟨115, 1, 16, 11⟩, ⟨116, 0, 16, 8⟩, ⟨117, 0, 16, 8⟩, ⟨120, 0, 16, 12⟩, ⟨121, 1, 16, 12⟩, ⟨122, 1, 16, 12⟩, ⟨123, 1, 16, 13⟩, ⟨124, 0, 16, 12⟩, ⟨125, 1, 16, 13⟩, ⟨126, 2, 16, 13⟩, ⟨127, 0, 16, 12⟩, ⟨128, 2, 10, 0⟩, ⟨129, 0, 10, 0⟩, ⟨130, 1, 11, 0⟩, ⟨131, 1, 11, 0⟩, ⟨132, 1, 11, 0⟩] ++
  [⟨133, 1, 10, 0⟩, ⟨134, 0, 3, 0⟩, ⟨135, 0, 3, 0⟩, ⟨136, 1, 3, 0⟩, ⟨137, 1, 3, 0⟩, ⟨138, 1, 16, 14⟩, ⟨139, 2, 16, 14⟩, ⟨140, 2, 16, 14⟩, ⟨141, 1, 16, 15⟩, ⟨142, 2, 11, 0⟩, ⟨144, 0, 2, 0⟩, ⟨145, 0, 2, 0⟩, ⟨147, 0, 2, 0⟩, ⟨148, 1, 2, 0⟩, ⟨149, 1, 2, 0⟩, ⟨150, 1, 16, 16⟩, ⟨151, 2, 2, 0⟩, ⟨152, 2, 16, 16⟩, ⟨160, 1, 8, 0⟩, ⟨161, 0, 8, 0⟩, ⟨162, 2, 8, 0⟩, ⟨163, 2, 8, 0⟩, ⟨164, 2, 8, 0⟩, ⟨165, 2, 8, 0⟩, ⟨166, 1, 8, 0⟩, ⟨167, 0, 8, 0⟩, ⟨168, 2, 8, 0⟩, ⟨169, 0, 8, 0⟩, ⟨170, 0, 8, 0⟩, ⟨171, 1, 8, 0⟩] ++
  [⟨172, 1, 9, 0⟩, ⟨192, 0, 12, 0⟩, ⟨193, 1, 12, 0⟩, ⟨194, 1, 12, 0⟩, ⟨195, 0, 12, 0⟩, ⟨196, 0, 12, 0⟩, ⟨197, 0, 16, 17⟩, ⟨198, 0, 16, 17⟩, ⟨199, 2, 16, 17⟩, ⟨200, 0, 16, 17⟩, ⟨201, 0, 2, 0⟩, ⟨202, 1, 2, 0⟩, ⟨203, 1, 2, 0⟩, ⟨204, 0, 15, 0⟩, ⟨205, 1, 16, 17⟩, ⟨206, 0, 2, 0⟩, ⟨207, 2, 12, 0⟩, ⟨208, 2, 16, 18⟩, ⟨209, 0, 13, 0⟩, ⟨210, 1, 13, 0⟩, ⟨211, 0, 13, 0⟩, ⟨212, 1, 16, 18⟩, ⟨213, 0, 16, 18⟩, ⟨214, 1, 16, 18⟩, ⟨215, 0, 16, 18⟩, ⟨216, 0, 13, 0⟩, ⟨217, 0, 13, 0⟩, ⟨218, 1, 16, 18⟩, ⟨219, 2, 16, 18⟩, ⟨220, 0, 16, 18⟩] ++
  [⟨224, 1, 16, 19⟩, ⟨225, 0, 16, 19⟩, ⟨226, 0, 14, 0⟩, ⟨227, 0, 16, 19⟩, ⟨228, 1, 16, 19⟩, ⟨229, 1, 14, 0⟩, ⟨230, 1, 16, 19⟩, ⟨231, 2, 16, 19⟩, ⟨232, 2, 0, 0⟩, ⟨233, 3, 0, 0⟩, ⟨234, 1, 0, 0⟩, ⟨235, 3, 0, 0⟩, ⟨236, 3, 0, 0⟩, ⟨237, 3, 0, 0⟩, ⟨238, 3, 16, 20⟩, ⟨239, 3, 16, 20⟩, ⟨240, 2, 0, 0⟩, ⟨241, 0, 0, 0⟩, ⟨242, 0, 0, 0⟩, ⟨243, 1, 16, 21⟩, ⟨244, 1, 16, 21⟩, ⟨245, 0, 16, 22⟩, ⟨246, 2, 0, 0⟩, ⟨247, 0, 2, 0⟩, ⟨248, 1, 16, 23⟩, ⟨249, 2, 16, 23⟩]

/-- The row of a source. -/
def evRow (src : Nat) : Option EvRow := evRows.find? (fun r => r.src == src)

/-- The base class of a source; a reserved source is judged as C0 (R522). -/
def evBaseClass (src : Nat) : Nat := ((evRow src).map (·.cls)).getD 0

/-- The UNIT_TYPE of a source. -/
def evUnitType (src : Nat) : Nat := ((evRow src).map (·.unit)).getD 0

/-- The unit of the Unit column of a NAMED source; 0 of another. -/
def evNamed (src : Nat) : Nat := ((evRow src).map (·.named)).getD 0

end Sys2Proof.Machine
end

