-- ==== Sys2Proof/Machine/Units/Dict.lean ====
section
/-! DEFINITION. The state of the object dictionary and its access paths (chapter 16) beside the objects' values. -/

namespace Sys2Proof.Machine

/-- One change-journal entry (R459). `exported` is the mark of R460; `offered` says that a record of the entry is in
its stream channel. -/
structure JEntry where
  seq : Nat
  time : Nat
  idx : Nat
  sub : Nat
  path : Nat
  session : Nat
  len : Nat
  crc : Nat
  head : Nat
  exported : Bool
  offered : Bool
deriving DecidableEq, Repr

/-- One OAP session (R466): source address and UDP port, LAST_SEQ, the stored response, and the F time in ns of its
last request. -/
structure Session where
  ip : Nat
  port : Nat
  lastSeq : Nat
  lastResp : List Byte
  lastF : Nat
deriving DecidableEq, Repr

/-- A segmented SDO transfer in progress (R473): the bytes still to send, or those received; `lastF` is the Eft's time in ns of its last
frame. -/
structure SdoXfer where
  upload : Bool
  idx : Nat
  sub : Nat
  toggle : Bool
  data : List Byte
  lastF : Nat
deriving DecidableEq, Repr

/-- An execution of a CMD object that has not ended (R448): its context, the object's key, and the unit it works on where the object serves several. -/
structure CmdRun where
  ctx : Nat
  key : Nat
  unit : Nat
deriving DecidableEq, Repr

/-- The dictionary unit. `objs` holds every object's value, by index and subindex, where it differs from its default.
`locals` holds each context's path-local instances (R454), `results` each context's CMD results (R448), `running` the
executions that have not ended, `mbRun` the response that a BUSY mailbox will give, empty where it gives none (R469). -/
structure DictUnit where
  objs : Tab Nat
  locals : Tab Nat
  results : Tab Nat
  running : List CmdRun
  journal : List JEntry
  sessMgmt : Tab Session
  sessInband : Tab Session
  rateMgmt : Nat × Nat
  rateInband : Nat × Nat
  sdo : Option SdoXfer
  mbRequest : List Byte
  mbResponse : List Byte
  mbStatus : Nat
  mbCtrl : Nat
  mbRun : List Byte
deriving DecidableEq, Repr

/-- The dictionary unit after reset: every object at its default, no session, no transfer, the mailbox IDLE. -/
def DictUnit.init : DictUnit :=
  ⟨[], [], [], [], [], [], [], (0, 0), (0, 0), none, [], [], 0, 0, []⟩

end Sys2Proof.Machine
end

