-- ==== Sys2Proof/Machine/Units/Eft.lean ====
section
/-! DEFINITION. The state of the Eft (chapters 19 and 21) beside its dictionary objects: where the device stands between its resets,
the power enables, the samplers and rules, the flash, and the watch ports it carries. -/

namespace Sys2Proof.Machine

/-- Where the device stands between its resets (R525 to R531, R536 to R540, R579, R580): the core runs; steps 1 and 2 of R528 before a
warm reset, or before brumation; the rails are being released for brumation; brumation; the rails are being raised for a boot, or
for a wake; the restart sequence is to run; RESET_N is held low; the HBM controllers train during a boot; the boot has
stopped under R580; PWRGOOD is low. -/
inductive Phase where
  | running
  | draining
  | entering
  | releasing
  | asleep
  | raising
  | waking
  | restart
  | held
  | training
  | stopped
  | off
deriving DecidableEq, Repr

/-- A sampler channel (R546, R547): the last accepted samples, newest first, the time in ns of the Eft of the last accepted one (or
of the configuration), and whether the sample before was rejected. -/
structure Sampler where
  window : List Int
  last : Nat
  rejecting : Bool
deriving DecidableEq, Repr

/-- A channel that has taken no sample. -/
def Sampler.init : Sampler := ⟨[], 0, false⟩

/-- A decision rule (R549): since when its condition holds, in ns of the Eft, and whether it has fired since its condition was last
false. -/
structure RuleState where
  since : Option Nat
  fired : Bool
deriving DecidableEq, Repr

/-- A rule that has never been evaluated. -/
def RuleState.init : RuleState := ⟨none, false⟩

/-- A copy of every class-N value (R475): the objects that differ from their defaults, and those that units keep by number:
policer configurations, RED profiles, key templates. -/
structure NImage where
  objs : Tab Nat
  pol : Tab Nat
  red : Tab Nat
  keys : Tab Nat
deriving DecidableEq, Repr

/-- No value differs from its default. -/
def NImage.empty : NImage := ⟨[], [], [], []⟩

/-- A bank of the flash (R475): its generation and its image. -/
structure NBank where
  gen : Nat
  image : NImage
deriving DecidableEq, Repr

/-- A save in progress (R475): the snapshot, and the context that waits for the result. -/
structure Saving where
  image : NImage
  ctx : Nat
deriving DecidableEq, Repr

/-- An occurrence that the Eft holds while the core is off (R538): source, unit type, unit, DETAIL and coarse time. -/
structure EftOcc where
  src : Nat
  utype : Nat
  unit : Nat
  detail : Nat
  time : Nat
deriving DecidableEq, Repr

/-- The Eft. `ticks` counts steps of 1.6 ns of the always-on clock; `clocks` says that the RPLL is locked and the core runs; `kind` is the reset in progress
(0 none, 1 warm, 2 cold, 3 POR), `trigger` the value last_reset takes at its end, `orderly` that R528 runs, `macSaved` that step 4 of
R528 has saved the MAC entries; `since` the Eft's time in ns of the phase's start; `resetLow` the level of RESET_N; `strapBoot`
the BOOT_MODE sampled last. `pwrEn` are PWR_EN[3:0], `railSince` the time of their last change and `monitored` the rails that EV236
watches as bits. `carry` are the watch ports that the Eft carries, `passA` and `passB` what R543 keeps of the last 512 frames
forwarded from each of them (0 for one without an HSR tag). `log` is the log by index. `queue` holds the occurrences of R538,
`wakeHeld` a WAKE action held under R540, `wdog` the times in ns of the watchdog's triggers, `active` when power_state became ACTIVE, `hot` the sensors for which EV234 waits for 5 °C less (R598). `bank0` and `bank1` are the N banks, `saving` the saves in progress, the oldest first, `ff` the
first-fault slots as numbers of 256 bytes, `boot0` and `boot1` the boot slots' bytes, `safeCopy` the copy of R557, `bootFull` and `bootHue` the
images that boot_load has accepted (R580). `fifoA` and `fifoB` hold the frames received on each watch port, each with the Eft's time in ns at which it
has been sent on the other (R543); `railIn` is the time at which the rail of the last enable came into its range. -/
structure Eft where
  ticks : Nat
  clocks : Bool
  phase : Phase
  kind : Nat
  trigger : Nat
  orderly : Bool
  macSaved : Bool
  since : Nat
  resetLow : Bool
  strapBoot : Nat
  pwrEn : Nat
  railSince : Nat
  monitored : Nat
  carry : Option (Nat × Nat)
  passA : List Nat
  passB : List Nat
  samplers : Tab Sampler
  rules : Tab RuleState
  log : Tab Nat
  queue : List EftOcc
  wakeHeld : Bool
  wdog : List Nat
  active : Nat
  hot : Nat
  bank0 : Option NBank
  bank1 : Option NBank
  saving : List Saving
  ff : Tab Nat
  boot0 : List Byte
  boot1 : List Byte
  safeCopy : Tab Nat
  bootFull : Option (List Byte)
  bootHue : Option (List Byte)
  fifoA : List (List Byte × Nat)
  fifoB : List (List Byte × Nat)
  railIn : Option Nat
deriving DecidableEq, Repr

/-- The Eft of a device that has booted: the rails up, the core running, the flash empty. -/
def Eft.init : Eft :=
  ⟨0, true, .running, 0, 0, false, false, 0, false, 0, 7, 0, 3, none, [], [], [], [], [], [], false, [], 0, 0, none, none, [], [], [], [], [],
   none, none, [], [], none⟩

end Sys2Proof.Machine
end

