-- ==== Sys2Proof/Machine/Units/Egress.lean ====
section
/-! DEFINITION. The state of the egress ports: queues, express FIFO, launch calendar, shapers and the frame in
transmission (chapters 12 and 13). -/

namespace Sys2Proof.Machine

/-- A frame in step 12: the frame without FCS, its queue number, EXPRESS, ADMIT_T, the launch fields, MARK's PROG_DATA with the
adjusted HDR_OFS of its PTP edit (R364), what the checksum fix-up of that edit needs, the cells it holds in the egress
store, and whether it is LATE and due at once. -/
structure EgFrame where
  body : List Byte
  cls : Nat
  exp : Bool
  admitT : Nat
  lateOk : Bool
  launchValid : Bool
  launch : Nat
  prog : Nat
  ptp : Option Nat
  prv : Nat
  shift : Nat
  cells : Nat
  late : Bool
deriving DecidableEq, Repr

/-- A frame in transmission: bytes still to go (FCS included), total bytes, the F time in ns at which the running part
started, whether it is held back by a preemption, and whether it was cut before. -/
structure TxFrame where
  left : Nat
  total : Nat
  since : Nat
  paused : Bool
  cut : Bool
deriving DecidableEq, Repr

/-- A shaper's tokens (R347) in units of 2^-32 unit, and the F time in counter units to which they are filled. -/
structure ShState where
  tok : Int
  fill : Nat
deriving DecidableEq, Repr

/-- One egress port: the eight queues, the express FIFO, the launch calendar, the WRR credits (R346), the shapers of the
queues and of the port, and the express and preemptable frames in transmission (R343); `launchEnd` is the F time in ns at which the last launched frame's transmission ends (R378). -/
structure EgPort where
  queues : List (List EgFrame)
  expr : List EgFrame
  cal : List EgFrame
  credit : List Nat
  qsh : List ShState
  psh : ShState
  txE : Option TxFrame
  txP : Option TxFrame
  launchEnd : Nat
deriving DecidableEq, Repr

/-- An empty port. -/
def EgPort.empty : EgPort :=
  ⟨List.replicate 8 [], [], [], List.replicate 8 0, List.replicate 8 ⟨0, 0⟩, ⟨0, 0⟩, none, none, 0⟩

/-- The egress ports by number. -/
structure EgressUnit where
  ports : Tab EgPort
deriving DecidableEq, Repr

/-- The egress ports at reset. -/
def EgressUnit.init : EgressUnit := ⟨[]⟩

end Sys2Proof.Machine
end

