-- ==== Sys2Proof/Machine/Units/Fault.lean ====
section
/-! DEFINITION. The state of the fault manager (chapter 18). -/

namespace Sys2Proof.Machine

/-- An occurrence on its way to the fault manager (R499): source, unit type and number, the DETAIL of R511, the W time
of detection as TSTAMP96, the F time of detection in ns, where the raising unit acted on the handling of another
unit's fault (R507) that unit (of a NAMED one the number of its name), and the item, of a kind that the source gives, whose handling R604 has last. -/
structure Occ where
  src : Nat
  utype : Nat
  unit : Nat
  detail : Nat
  wtime : Nat
  ftime : Nat
  cause : Option (Nat × Nat)
  item : Nat
deriving DecidableEq, Repr

/-- A record of the fault manager (R511), with the marks it keeps beside the layout: acknowledged (R512), stored in the
log (R605), its creation time and the detection of its first occurrence in ns of F, and the item of that occurrence. -/
structure EvRec where
  seq : Nat
  time : Nat
  src : Nat
  cls : Nat
  base : Nat
  escalated : Bool
  first : Bool
  multi : Bool
  isOpen : Bool
  reacted : Nat
  safe : Bool
  suppressed : Bool
  utype : Nat
  unit : Nat
  count : Nat
  merged : Nat
  lastDt : Nat
  detail : Nat
  acked : Bool
  logged : Bool
  born : Nat
  firstF : Nat
  item : Nat
deriving DecidableEq, Repr

/-- The window count of a source (R504): the sub-windows c[0] to c[15], and the number k of the sub-window last
counted into. -/
structure EvWindow where
  c : List Nat
  k : Nat
deriving DecidableEq, Repr

/-- The states of CROAK_N (R514). -/
inductive Croak where
  | boot | pulse | held | released
deriving DecidableEq, Repr

/-- The fault manager. `raised` holds the occurrences that wait (R506); `recs` the records, oldest first, of which those
with `logged` are the fault log; `croakStart` is the Eft's time in ns at which the minimum width last started; `regrowing` and `passed` are the units, by type and
number, whose regrowth runs and whose passed regrowth waits for the next hue commit point (R518). -/
structure FaultMgr where
  raised : List Occ
  recs : List EvRec
  windows : Tab EvWindow
  firstHeld : Bool
  summary : Nat
  croak : Croak
  croakSeen : Bool
  releasePending : Bool
  croakRunning : Bool
  croakStart : Nat
  safe : Bool
  firstFaultPending : Bool
  regrowing : List (Nat × Nat)
  passed : List (Nat × Nat)
deriving DecidableEq, Repr

/-- The fault manager after power-on, once the boot has reached DONE without an occurrence. -/
def FaultMgr.init : FaultMgr := ⟨[], [], [], false, 0, .released, false, false, false, 0, false, false, [], []⟩

end Sys2Proof.Machine
end

