-- ==== Sys2Proof/Machine/Units/Hue.lean ====
section
/-! DEFINITION. The state of the hue unit and of the tagged objects it scrubs (chapter 3) beside their dictionary
objects. -/

namespace Sys2Proof.Machine

/-- A tagged object's header (R63): VALID, OPEN, WIDE, PRIO, VU, VF, as the 64-bit number of the slot, and its content. -/
structure Tagged where
  header : Nat
  body : List Nat
deriving DecidableEq, Repr

/-- A free slot. -/
def Tagged.free : Tagged := ⟨0, []⟩

/-- A run of HUE_STAGE or hue_image_load that has staged its records and has not ended (R74, R161): who waits for it, and what it
ends with: the status of an entry, and its RESULT or the result of a context. -/
structure StageRun where
  ctx : Option Nat
  ring : Option Nat
  status : Nat
  result : Nat
deriving DecidableEq, Repr

/-- The hue unit. `counts` holds the in-flight count of each hue (R76), `retired` the F time in ns at which a hue in the
window stopped being active (R78), `slow` the hues whose EV039 has been raised, `commit` an accepted commit on its way to its commit point (the context
by number, none for a boot), `scrubPos` the next object of the hue scrubber (R81), `rules` the classifier's slots,
`badRules` the slots an uncorrectable error spoils with whether a rewrite is still to come (R83), `missNow` and
`missOld` the miss action of the active hue and of older hues in the window, `missStaged` and `imageStaged` the staged
values of hue N, `keyedNow`, `keyedOld` and `keyedStaged` the bitmap of R175 in the same way, `hits` the hit counters, `staging` the runs of HUE_STAGE and hue_image_load under way,
`disp0` the shadow of the bank-0 entries (R152), `holders` each packet's hue and how many of its copies still count (R76), `nextPid` the next packet's number. -/
structure HueUnit where
  counts : Tab Nat
  retired : Tab Nat
  slow : List Nat
  commit : Option (Option Nat)
  scrubPos : Nat
  rules : Tab Tagged
  badRules : Tab Bool
  missNow : Nat
  missOld : Tab Nat
  missStaged : Option Nat
  imageOld : Tab Nat
  imageStaged : Option Nat
  keyedNow : Nat
  keyedOld : Tab Nat
  keyedStaged : Option Nat
  hits : Tab Nat
  staging : List StageRun
  disp0 : Tab Nat
  holders : Tab (Nat × Nat)
  nextPid : Nat
deriving DecidableEq, Repr

/-- The hue unit at reset: hue 0 alone, no object staged. -/
def HueUnit.init : HueUnit :=
  ⟨[], [], [], none, 0, [], [], 0, [], none, [], none, 0, [], none, [], [], [], [], 0⟩

end Sys2Proof.Machine
end

