-- ==== Sys2Proof/Machine/Units/Tables.lean ====
section
/-! DEFINITION. The state of the forwarding tables and the learn unit (chapter 10) beside their dictionary objects. -/

namespace Sys2Proof.Machine

/-- Who holds a lock or waits for a flush: a command ring, or a dictionary context by number. -/
inductive Owner where
  | ring (r : Nat)
  | dict (ctx : Nat)
deriving DecidableEq, Repr

/-- A learn request (R281, R282): MAC and FID as the 60-bit number of an entry's bits [127:68], the port it is learned on, PAIR, the ingress port
and IN_TS in units of 2^-16 ns. -/
structure LearnReq where
  key : Nat
  port : Nat
  pair : Bool
  inPort : Nat
  ts : Nat
deriving DecidableEq, Repr

/-- A MAC flush (R287): its port or 0xFFFF, who waits for its completion, and the entries deleted so far. -/
structure MacFlush where
  port : Nat
  owner : Option Owner
  deleted : Nat
deriving DecidableEq, Repr

/-- The forwarding tables. `mac` holds the slots of the MAC table by slot index, the stash from 2,097,152 on (R296), each
as the number of R276 with LOCK 0 (a lock shows in `macLocks`); `nat` the slots of the NAT table (R288), key in bits [127:64] and data in bits [63:0], the stash
from 131,072 on; `lpm4` and `lpm6` the routes by table, length and prefix, with bit 48 set beside the 48 bits of data;
`mcg`, `edit`, `mbrSet`, `mbr` and `mbrBkt` the indexed tables. `bad` are the words that an uncorrectable error spoils, by target and key, and whether
a rewrite is still to come (R298). `filter` is the last 1,024 requests of each pipe with their MAC time, `sort` the sort
buffer in order, `applied` the latest IN_TS applied. `macLocks` are the owners of MAC locks by key, `sweepPos` the next
place of the MAC sweeper, `old` and `stepPass` the protection of R375: the keys of the entries whose LAST_SEEN was written
before the last step of W, and the passes left. -/
structure TableUnit where
  mac : Tab Nat
  nat : Tab Nat
  lpm4 : Tab Nat
  lpm6 : Tab Nat
  mcg : Tab Nat
  edit : Tab Nat
  mbrSet : Tab Nat
  mbr : Tab Nat
  mbrBkt : Tab Nat
  bad : Tab Bool
  filter : Tab (List (Nat × Nat × Nat))
  sort : List LearnReq
  applied : Option Nat
  flush : Option MacFlush
  flushWait : List MacFlush
  macLocks : Tab Owner
  sweepPos : Nat
  old : List Nat
  stepPass : Nat
deriving DecidableEq, Repr

/-- The tables at reset: empty. -/
def TableUnit.init : TableUnit :=
  ⟨[], [], [], [], [], [], [], [], [], [], [], [], none, none, [], [], 0, [], 0⟩

end Sys2Proof.Machine
end

