-- ==== Sys2Proof/Machine/Units/Fsu.lean ====
section
/-! DEFINITION. The state of the Flow State Unit (chapter 8) beside its dictionary objects. -/

namespace Sys2Proof.Machine

/-- What a lock covers (R237): a key as the 384-bit number of its bytes, a slot, a bucket. -/
inductive LockTarget where
  | key (k : Nat)
  | slot (n : Nat)
  | bucket (b : Nat)
deriving DecidableEq, Repr

/-- An entry of the lock table (R238). `ins` is the image of a software insert that waits for the lock it takes on its key
(R240); none for a lock that a command took. -/
structure FlowLock where
  target : LockTarget
  owner : Owner
  granted : Bool
  ins : Option Nat
deriving DecidableEq, Repr

/-- The states of a flow-cache line (R223); an INVALID line is not listed. -/
inductive LineSt where
  | absent | clean | dirty
deriving DecidableEq, Repr

/-- A flow-cache line (R223): state, record image (1,024 bits, byte 0 lowest), versions of the segments, generation, the
last-commit LSN, the home as a slot index or 2^28 plus a stash place, how many commits it has seen since it was filled,
the order of its last use, and whether it is an overflow line. -/
structure Line where
  st : LineSt
  img : Nat
  vers : List Nat
  gen : Nat
  lastLsn : Option Nat
  home : Nat
  commits : Nat
  used : Nat
  overflow : Bool
deriving DecidableEq, Repr

/-- A lookup in flight (R221, R222): its key, the reads still to return, the buckets whose read returned MEM_FROZEN,
whether B2 has been read, and whether it has its answer and waits for a cache line (R224). -/
structure Fill where
  key : Nat
  wait : List Nat
  frozen : List Nat
  readB2 : Bool
  ready : Bool
deriving DecidableEq, Repr

/-- One move of a relocation path (R229): the key of the record that moves, from a place into a slot. -/
structure Move where
  key : Nat
  src : Nat
  dst : Nat
deriving DecidableEq, Repr

/-- A relocation path (R228, R229): its moves from the free end, the first of which has been written into its slot, and
the bucket reads that must return before the old place is cleared (step 4). -/
structure Path where
  moves : List Move
  waits : List Nat
deriving DecidableEq, Repr

/-- A flow flush (R243): by port or by template, who waits, deleted and skipped so far. -/
structure FlowFlush where
  byPort : Bool
  value : Nat
  owner : Owner
  deleted : Nat
  skipped : Nat
  running : Bool
deriving DecidableEq, Repr

/-- The FSU. `slots` holds the records of the flow store in HBM by slot index with BKT_ALT 0, `bktAlt` BKT_ALT of each bucket
(R220), `stash` the stash places; `locBad` the locator words of 64 bits that read 1 until rebuilt (R244); `lines` the flow
cache by key; `fills` the lookups in flight; `bucketReads` the bucket reads issued and not returned, as tag and bucket,
`nextTag` the next tag; `reserved` the places that open leaps reserve; `locks` the lock table and `broken` the locks that
R192 broke and their owners have not learned of; `notices` the keys of the last 4,096 notices with their time in ns of F
(R236), `paths` the relocation paths, `sweepPos` the sweeper's next slot or 2^28 plus a stash place, `sweepStart` and
`sweepLen` the pass's start in ns of F and its period in s, `slowRaised` that EV115 was raised in it, `flushes` the flow
flushes, `old` and `stepPass` the protection of R375: the keys of the records whose LAST_SEEN was written before the last
step of W, and the passes left; `keyTmpl` the key templates (R206), `tmpls` the template slots (R212), `useClock` the
order of the next use of a line. -/
structure Fsu where
  slots : Tab Nat
  bktAlt : Tab Nat
  stash : Tab Nat
  locBad : List Nat
  lines : Tab Line
  fills : List Fill
  bucketReads : List (Nat × Nat)
  nextTag : Nat
  reserved : List Nat
  locks : List FlowLock
  broken : List (Owner × LockTarget)
  notices : List (Nat × Nat)
  paths : List Path
  sweepPos : Nat
  sweepStart : Nat
  sweepLen : Nat
  slowRaised : Bool
  flushes : List FlowFlush
  old : List Nat
  stepPass : Nat
  keyTmpl : Tab Nat
  tmpls : Tab Tagged
  useClock : Nat
deriving DecidableEq, Repr

/-- The FSU at reset: no record, an empty cache (R230). -/
def Fsu.init : Fsu :=
  ⟨[], [], [], [], [], [], [], 0, [], [], [], [], [], 0, 0, 10, false, [], [], 0, [], [], 0⟩

end Sys2Proof.Machine
end

