-- ==== Sys2Proof/Machine/Units/Hbm.lean ====
section
/-! DEFINITION. The state of the HBM controllers (chapter 14) beside their dictionary objects, and what HBM holds that no other unit's
state does. Flow-store buckets, spill slots and staged records are held by their clients as the queues' newest data give them (R397); the
shadows of R391 hold what the on-chip objects they copy hold. -/

namespace Sys2Proof.Machine

/-- A read of one burst (R396): client number of R405, the burst's offset under R389, the client's tag, and FILL (R398). -/
structure HbmReq where
  client : Nat
  off : Nat
  tag : Nat
  fill : Bool
deriving DecidableEq, Repr

/-- A read that has completed: its request, and whether with MEM_FROZEN (R404). -/
structure HbmDone where
  req : HbmReq
  frozen : Bool
deriving DecidableEq, Repr

/-- What a write that ends with MEM_FROZEN leaves undone in its client's state: burst `k` of a flow-store slot with the slot's image before
it, BKT_ALT of a bucket before it, a spilled cell by VOQ and position, a staged record by channel and SEQ, a burst of a copy of the shadows or
of a golden copy, a place of the MAC save, an access of the host by its tag and the burst's region offset (R418). -/
inductive HbmUndo where
  | slot (i k old : Nat)
  | alt (b old : Nat)
  | spill (voq pos : Nat)
  | stage (chan seq : Nat)
  | shadow (stack burst : Nat)
  | golden (stack image burst : Nat)
  | mac (place : Nat)
  | bar2 (tag off : Nat)
deriving DecidableEq, Repr

/-- A write of one burst: client number, offset, its 32 bytes in the software region (none elsewhere, where the client's state holds them),
and what is undone should it end with MEM_FROZEN. The controller's own write-back of R402 has client number 8. -/
structure HbmWrite where
  client : Nat
  off : Nat
  data : List Byte
  undo : List HbmUndo
deriving DecidableEq, Repr

/-- A request that a client has presented and the controller has not accepted (R396). -/
inductive HbmAsk where
  | read (r : HbmReq)
  | write (w : HbmWrite)
deriving DecidableEq, Repr

/-- What a controller is doing beside serving: a thaw, a regrowth, or a soft or hard repair of a row of a bank (R406, R407). -/
inductive HbmJob where
  | thaw | regrow | pprSoft (bank row : Nat) | pprHard (bank row : Nat)
deriving DecidableEq, Repr

/-- One controller. `wait` are the requests presented and not accepted, in order, `rq` and `wq` the accepted reads and writes, oldest first
(R396), `writing` that it issues writes (R399), `lastWriter` the client whose write was accepted last, `fix` the corrected bursts still to be
written back (R402), `marks` the bursts a row repair replaced with zeros (R407), `sppr` the banks that hold a soft
repair, `hpprUsed` the hard-repair resources used, `held` the FILL rows held open with bank, row and F time in ns (R398),
`openRow` the open row of each bank plus 1, `nextBank` the next bank to refresh, `patrol` the next burst of the patrol
scrub and `patrolStart` the F time in ns at which its pass began, `lastRetrain` the F time in ns of the last retraining, `asleep` that the
pseudo-channel is in self-refresh (R394). -/
structure HbmCtl where
  wait : List HbmAsk
  rq : List HbmReq
  wq : List HbmWrite
  writing : Bool
  lastWriter : Nat
  fix : List Nat
  done : List HbmDone
  marks : List Nat
  sppr : List Nat
  hpprUsed : Nat
  held : List (Nat × Nat × Nat)
  openRow : Tab Nat
  nextBank : Nat
  patrol : Nat
  patrolStart : Nat
  lastRetrain : Nat
  job : Option HbmJob
  asleep : Bool
deriving DecidableEq, Repr

/-- A controller at reset. -/
def HbmCtl.init : HbmCtl := ⟨[], [], [], false, 0, [], [], [], [], 0, [], [], 0, 0, 0, 0, none, false⟩

/-- A host read of BAR2 in progress: its tag, region offset and length, the bursts that have returned with their bytes, how many have not,
and whether one ended with MEM_FROZEN. -/
structure Bar2Read where
  tag : Nat
  off : Nat
  len : Nat
  got : List (Nat × List Byte)
  left : Nat
  frozen : Option Nat
deriving DecidableEq, Repr

/-- An access of the host through BAR2: a read of a length, or a write. -/
inductive BarAsk where
  | read (off len : Nat)
  | write (off : Nat) (data : List Byte)
deriving DecidableEq, Repr

/-- The controllers, and the bytes of the software region by region offset; an unlisted byte reads 0 (DESIGN CHOICE, log
entry 17). `bar2` are the host reads in progress, `bar2Tag` the next tag; `spares` the spare lanes each stack has in use (R392);
`goldenBad` the bursts of golden copies, as stack, image and burst of the copy, that were written with zeros (R407, R408), and `shadowBad`
those of the copies of the shadows, as stack and burst; `bar2Held` the accesses of the host that wait for the acceptance of an earlier write
(R417); `bar2Lost` the tags of the last writes of the host that are counted as discarded (R418); `macSave` the saved MAC entries with their slots, by their place in the save (R298, R391). -/
structure Hbm where
  ctls : Tab HbmCtl
  sw : List Host.Cell
  bar2 : List Bar2Read
  bar2Tag : Nat
  spares : Tab Nat
  goldenBad : List (Nat × Nat × Nat)
  shadowBad : List (Nat × Nat)
  macSave : Tab (Nat × Nat)
  bar2Held : List BarAsk
  bar2Lost : List Nat
deriving DecidableEq, Repr

/-- HBM at reset. -/
def Hbm.init : Hbm := ⟨[], [], [], 0, [], [], [], [], [], []⟩

end Sys2Proof.Machine
end

