-- ==== Sys2Proof/Machine/Units/Host.lean ====
section
/-! DEFINITION. The state of the PCIe host interface (chapter 15) beside its dictionary objects. -/

namespace Sys2Proof.Machine

/-- STATE of CR_STATUS (R422). -/
inductive RingState where
  | disabled | running | stopping
deriving DecidableEq, Repr

/-- What an entry in execution waits for (R429): a lock's grant, an injected frame's admission, a flush, a clutch
load, the staging of records. -/
inductive RingWait where
  | lock | inject | flush | csLoad | insert | stage
deriving DecidableEq, Repr

/-- An entry in execution: what it waits for, its FLAGS and its data buffer address and length. -/
structure RingBusy where
  wait : RingWait
  flags : Nat
  addr : Nat
  len : Nat
deriving DecidableEq, Repr

/-- A command ring (R420 to R423); `posted` are the FLAGS of the entries that a stop leaves not started (R433, R434). -/
structure CmdRing where
  base : Nat
  wb : Nat
  ctrl : Nat
  st : RingState
  h : Nat
  p : Nat
  busy : Option RingBusy
  posted : List Nat
deriving DecidableEq, Repr

/-- A command ring at reset. -/
def CmdRing.init : CmdRing := ⟨0, 0, 0, .disabled, 0, 0, none, []⟩

/-- An item on its way to a delivery ring (R437, R438): ring, KIND, data, the fields of the delivery entry, the packet
whose hue count it stays in (R76), and its arrival in ns of F. -/
structure DItem where
  ring : Nat
  kind : Nat
  data : List Byte
  inTs : Nat
  hue : Nat
  opcode : Nat
  inPort : Nat
  reason : Nat
  pid : Option Nat
  arrived : Nat
deriving DecidableEq, Repr

/-- A delivery ring and its buffer ring (R435 to R438). -/
structure DelRing where
  base : Nat
  wb : Nat
  brBase : Nat
  ctrl : Nat
  holdLimit : Nat
  coalTime : Nat
  running : Bool
  p : Nat
  h : Nat
  pb : Nat
  hold : List DItem
  drops : Nat
  unsig : Nat
  unsigSince : Nat
deriving DecidableEq, Repr

/-- A delivery ring at reset (R435). -/
def DelRing.init : DelRing := ⟨0, 0, 0, 0x01000000, 100, 0, false, 0, 0, 0, [], 0, 0, 0⟩

/-- An entry of the MSI-X table at reset: masked (PRESUMED, the PCI layout: address [63:0], data [95:64], mask [96]). -/
def msixReset : Nat := 2 ^ 96

/-- The PCIe function beside its BARs (R415): whether it is in D3hot and not in D0, whether AER has logged a correctable or an
uncorrectable error, and the Device Control and Device Control 2 registers (PRESUMED, the PCI layout: max payload, max read request and relaxed
ordering in the first, the completion timeout in bits [3:0] and 10-bit tags in the second). -/
structure PcieFn where
  d3hot : Bool
  aerCorr : Bool
  aerUncorr : Bool
  devCtl : Nat
  devCtl2 : Nat
deriving DecidableEq, Repr

/-- The host interface: the rings by number, the ring whose entry was started last (R429), the items that wait for DELIVER_ITEM, the MSI-X
table by vector, the MSI-X messages held pending (R440) as a bit per vector, and the PCIe function. -/
structure HostIf where
  cmd : Tab CmdRing
  del : Tab DelRing
  items : List DItem
  lastRing : Nat
  msixTab : Tab Nat
  msixPending : Nat
  pcie : PcieFn
deriving DecidableEq, Repr

/-- The host interface at reset; the first ring to be served is ring 0. -/
def HostIf.init : HostIf := ⟨[], [], [], 63, [], 0, ⟨false, false, false, 0x2810, 0⟩⟩

/-- The host interface after a reset of the function: D0, and the AER logs kept. -/
def HostIf.restart (h : HostIf) : HostIf :=
  { HostIf.init with pcie := { HostIf.init.pcie with aerCorr := h.pcie.aerCorr, aerUncorr := h.pcie.aerUncorr } }

end Sys2Proof.Machine
end

