-- ==== Sys2Proof/Machine/Units/Out.lean ====
section
/-! DEFINITION. What the block puts out at its pins and on its paths. The list of outputs is the model's own field: it is
how a command's effect on the outside can be stated. -/

namespace Sys2Proof.Machine

/-- An output. -/
inductive Output where
  /-- The answer to a dictionary item: context, index, subindex, code of R451, and the value of a read. -/
  | answer (c : Ctx) (idx sub code : Nat) (value : List Byte)
  /-- A frame's transmission on a port starts (R343), with its egress timestamp in counter units; FCS included. -/
  | frame (port : Nat) (bytes : List Byte) (egress : Nat)
  /-- The MAC ends the express or the preemptable frame in transmission on a port with an invalid FCS (R37). -/
  | frameCut (port : Nat) (preemptable : Bool)
  /-- A write to host memory. -/
  | hostWrite (addr : Nat) (bytes : List Byte)
  /-- An MSI-X message (R419): a memory write of 4 bytes to the address in the vector's entry of the table. -/
  | msix (vector addr data : Nat)
  /-- A UDP datagram or an ARP reply sent on a management port: the port, the receiver's MAC, IPv4 address and UDP port
  (0 for ARP), and the payload. -/
  | mgmt (mgmtPort : Nat) (da ip udpPort : Nat) (bytes : List Byte)
  /-- A CAN frame: COB-ID and data. -/
  | can (cobId : Nat) (data : List Byte)
  /-- A burst on the stream port: channel, first, last, bytes. -/
  | burst (chan : Nat) (first last : Bool) (bytes : List Byte)
  /-- The Eft passes a frame out of a watch port (R543). -/
  | pass (port : Nat) (bytes : List Byte)
  /-- The completion of a host read of BAR2: the data, or none for poisoned data (R418). -/
  | completion (data : Option (List Byte))
  /-- A word on the TAP's data output. -/
  | tap (bits : Nat)
  /-- What the TAP's instruction register captured comes out (R561). -/
  | tapIr (bits : Nat)
  /-- The bits of the boundary-scan or of the bypass register come out. -/
  | tapBits (bits : List Bool)
  /-- The Eft sends clock pulses on AON_SCL (R546). -/
  | i2cClocks (n : Nat)
deriving DecidableEq, Repr

end Sys2Proof.Machine
end

