-- ==== Sys2Proof/Machine/Units/Pattern.lean ====
section
/-! DEFINITION. The state of the pattern engines (chapter 4) beside their dictionary objects. -/

namespace Sys2Proof.Machine

/-- A payload window on its way through an engine: its packet and pipe, the set slot, PAYLOAD_KIND, hue, the bytes, and the
length of the frame's payload from OFF_PAY on (R99). -/
structure Window where
  pid : Nat
  pipe : Nat
  set : Nat
  kind : Nat
  hue : Nat
  bytes : List Byte
  payLen : Nat
deriving DecidableEq, Repr

/-- An engine: the windows queued to it, and the results on their way to the join stage (R90). -/
structure PatEngine where
  queue : List Window
  done : List (Window × Nat)
deriving DecidableEq, Repr

/-- An idle engine. -/
def PatEngine.idle : PatEngine := ⟨[], []⟩

/-- The pattern engines. `sets` holds the set slots, with the descriptor and the 256 bits of extraction rules as content;
`words` the state words of 256 bits; `badWords` the words an uncorrectable error spoils, with whether a rewrite is still
to come (R102). -/
structure PatternUnit where
  engines : Tab PatEngine
  sets : Tab Tagged
  words : Tab Nat
  badWords : Tab Bool
  hits : Tab Nat
deriving DecidableEq, Repr

/-- The pattern engines at reset: no set. -/
def PatternUnit.init : PatternUnit := ⟨[], [], [], [], []⟩

end Sys2Proof.Machine
end

