-- ==== Sys2Proof/Machine/Units/Packet.lean ====
section
/-! DEFINITION. A packet, and what stays known of a packet between the reorder stage and its last copy's end. -/

namespace Sys2Proof.Machine

/-- A packet from step 1 to step 8: the model's own number, the metadata block (R18), the parse result vector (R56), the flow
key (R207), the
pattern result (R101), the frame from DA to FCS, the header window before any HSET of the run and what follows it (R251), and the ring whose
PKT_INJECT waits for the parser (R428). -/
structure Packet where
  pid : Nat
  md : Nat
  prv : Nat
  key : Nat
  pat : Nat
  frame : List Byte
  orig : List Byte
  inject : Option Nat
deriving DecidableEq, Repr

/-- A packet or mirror copy that enters step 9: its number in the traffic manager, the packet whose hue count it stays in
(R76), metadata, parse result vector, the frame without FCS, the frame's bytes before HSET, and the ring of a
PKT_INJECT with DIRECT = 1. -/
structure TmItem where
  pid : Nat
  md : Nat
  prv : Nat
  body : List Byte
  orig : List Byte
  inject : Option Nat
deriving DecidableEq, Repr

/-- What is kept of an item in steps 9 to 11 beside its cells: the packet whose count it stays in, what the checksum
fix-up needs (R251), its ports of entry and (for a unicast packet) of exit, the output groups it has not ended at (32 before the home middle has replicated a multicast packet),
and the ring of R428. -/
structure Flight where
  pid : Nat
  prv : Nat
  orig : List Byte
  inPort : Nat
  port : Nat
  outs : List Nat
  inject : Option Nat
deriving DecidableEq, Repr

end Sys2Proof.Machine
end

