-- ==== Sys2Proof/Machine/Units/Ports.lean ====
section
/-! DEFINITION. The state of the lanes, ports and ingress pipes (chapter 2) beside their dictionary objects. -/

namespace Sys2Proof.Machine

/-- The link side of a port. `rxFault` is the fault it receives (1 local, 2 remote), `phy` the speed in Mb/s its PHY last
named, `bad` whether it is in fault (R34) and `since` the F time in ns of the last change of that, `trained` the lanes
that have trained and `trainStart` when each lane's training started (R29), `policy`, `holdLen` and `holdStart` the
DOWN_POLICY, DOWN_HOLD_TIME and F time in ns of the last down declaration (R42), `fecCount` the codewords corrected since
`fecSince`, and whether EV004 was raised in that second. -/
structure PortLink where
  rxFault : Nat
  phy : Nat
  bad : Bool
  since : Nat
  trained : Nat
  trainStart : List Nat
  policy : Nat
  holdLen : Nat
  holdStart : Nat
  fecCount : Nat
  fecSince : Nat
  fecHigh : Bool
deriving DecidableEq, Repr

/-- A port after reset: its lanes carry no signal. -/
def PortLink.init : PortLink := ⟨0, 0, true, 0, 0, List.replicate 8 0, 0, 0, 0, 0, 0, false⟩

/-- The lanes and ports. `sig` is the signal detect of each lane as a bit; `inq` the input queue of each pipe's parser, `pseq` the next PSEQ
of each pipe. -/
structure PortUnit where
  links : Tab PortLink
  sig : Nat
  inq : Tab (List Packet)
  pseq : Tab Nat
deriving DecidableEq, Repr

/-- The lanes and ports at reset. -/
def PortUnit.init : PortUnit := ⟨[], 0, [], []⟩

end Sys2Proof.Machine
end

