-- ==== Sys2Proof/Machine/Units/Skink.lean ====
section
/-! DEFINITION. The state of the spray unit, the Skinks, the commit unit and the reorder stages (chapters 5 to 7) beside
their dictionary objects, and of the clutches' control stores. -/

namespace Sys2Proof.Machine

/-- The states of a thread (R112). -/
inductive ThState where
  | free | loading | running | committing | debugHalt
deriving DecidableEq, Repr

/-- What a bind has returned (R143). -/
inductive BindSt where
  | pending | found | absent | unavailable
deriving DecidableEq, Repr

/-- A bound handle (R174): the 48-byte key, the result, the generation read, how many commits the record had seen at the
first access (R194), whether it was bound with OWN, the template and reserved place of an accepted LINS, the template of a
NOTIFIED one, whether LDEL was issued on it and whether that marked the record. -/
structure Handle where
  key : Nat
  own : Bool
  st : BindSt
  gen : Nat
  seen : Nat
  ins : Option (Nat × Nat)
  notified : Option Nat
  dead : Bool
  del : Bool
deriving DecidableEq, Repr

/-- The write-class operations (R175). -/
inductive WKind where
  | lset | ladd | lmax | lmin | lor | lseq | ldup | ltok | lins | ldel
deriving DecidableEq, Repr

/-- A buffered write-class operation: kind, handle, segment, MIMM and operand. -/
structure LeapOp where
  kind : WKind
  hnd : Nat
  seg : Nat
  mimm : Nat
  data : Nat
deriving DecidableEq, Repr

/-- A segment read with the version it returned (R179). -/
structure LeapRead where
  key : Nat
  seg : Nat
  ver : Nat
deriving DecidableEq, Repr

/-- The leap of one run: whether the run issued a leap operation, whether LABORT, a trap or the word limit abandoned it, the handles, the buffered operations in issue order, the reads, the
learn request (R281) and whether an LINS returned INS_FULL or REC_UNAVAILABLE (R215). -/
structure Leap where
  used : Bool
  abandoned : Bool
  handles : Tab Handle
  ops : List LeapOp
  reads : List LeapRead
  learn : Option Nat
  norec : Bool
deriving DecidableEq, Repr

/-- A fresh leap. -/
def Leap.empty : Leap := ⟨false, false, [], [], [], none, false⟩

/-- A split-phase operation's result (R116): values known at issue; a table lookup served later (code of R143, MIMM and
its key words); a bind; a segment read with the number of operations that precede it; a scratch load. -/
inductive PendKind where
  | value (v : List Nat)
  | lookup (op mimm k0 k1 : Nat)
  | bind (hnd : Nat)
  | lrd (hnd seg ops : Nat)
  | scratch (v : Nat)
deriving DecidableEq, Repr

/-- A pending operation: its first result register, how many registers it writes, and what it returns. -/
structure Pend where
  reg : Nat
  n : Nat
  kind : PendKind
deriving DecidableEq, Repr

/-- A packet from spray to its thread's freeing: the packet as dispatched, its LSN, pipe and reorder entry, the LATE flag
of R113, the clutch a machine check arose on (R118), whether it was steered by a single-file entry, whether its leap's
binding is open (R175) and whether the leap holds its reservation of five claims (R173). -/
structure Job where
  pkt : Packet
  lsn : Nat
  pipe : Nat
  entry : Nat
  late : Bool
  avoid : Option Nat
  sf : Bool
  bindOpen : Bool
  reserved : Bool
deriving DecidableEq, Repr

/-- A thread (R109). `flags` holds Z, N, C, V in bits 3 to 0 (R141), `words` the words issued in the run (R115), `since` the
F time in ns of assignment, `halted` that of HALT, `tested` whether the commit unit has ended the leap and `status` its status
on the way to the thread (R191), `lockWait` a write-class operation that waits for a lock and since when (R192), `postcard` the
channel last named (R489), `waitRaised` that EV101 was raised, `stepLeft` the words that dbg_step still issues (R566),
`bpSkip` that the next word issues without an ADDR hit (R571), `haltSince` the F time in ns of the entry to DEBUG_HALT,
`forced` that R569 has force-aborted the leap. -/
structure Thread where
  st : ThState
  job : Option Job
  bound : Option Nat
  g : List Nat
  hw : List Byte
  md : Nat
  flags : Nat
  top : Nat
  pc : Nat
  words : Nat
  pend : List Pend
  leap : Leap
  since : Nat
  halted : Nat
  inCommit : Bool
  status : Option Nat
  lockWait : Option (LeapOp × Nat)
  postcard : Option Nat
  waitRaised : Bool
  stepLeft : Nat
  bpSkip : Bool
  haltSince : Nat
  forced : Bool
deriving DecidableEq, Repr

/-- A thread that has never run. -/
def Thread.init : Thread :=
  ⟨.free, none, none, List.replicate 32 0, List.replicate 128 0, 0, 0, 0, 0, 0, [], Leap.empty, 0, 0, false, none, none,
   none, false, 0, false, 0, false⟩

/-- A reorder entry (R125): its number in allocation order, the packet, when it was allocated in ns of F and its timeout
(R133); when DONE, the packet as its final run left it, with the postcard's channel and the final leap status and
thread. -/
structure REntry where
  id : Nat
  pid : Nat
  alloc : Nat
  timeout : Nat
  done : Option Packet
  drop : Bool
  postcard : Option Nat
  status : Nat
  thread : Nat
deriving DecidableEq, Repr

/-- A packet in the join stage of a pipe (R89): the packet, whether its pattern result is still to come, and
whether the stage has released it to the spray unit. -/
structure JoinItem where
  pkt : Packet
  waiting : Bool
  released : Bool
deriving DecidableEq, Repr

/-- A clutch's store: microwords of 136 bits by address, dispatch entries of 51 bits by number, the ENTRY list of its image
(R157), and the words and dispatch entries to be rewritten (R163). -/
structure ClutchStore where
  words : Tab Nat
  disp : Tab Nat
  entries : List Nat
  repairing : List Nat
deriving DecidableEq, Repr

/-- An empty store. -/
def ClutchStore.init : ClutchStore := ⟨[], [], [], []⟩

/-- A golden copy of an image's content (R158): the image ID, words, dispatch entries, ENTRY list. -/
structure Golden where
  image : Nat
  words : Tab Nat
  disp : Tab Nat
  entries : List Nat
deriving DecidableEq, Repr

/-- A load of a clutch in progress: its clutch, the image's content, and who waits for the result. -/
structure CsLoad where
  clutch : Nat
  golden : Golden
  ring : Option Nat
  ctx : Option Nat
deriving DecidableEq, Repr

/-- A single-file entry (R121): the hash pair, PINNED, the bound thread, the queue of jobs, when it was last busy in ns of F, and whether it
waits for a rebinding (R124). -/
structure SfEntry where
  h1 : Nat
  h2 : Nat
  pinned : Bool
  thread : Nat
  queue : List Job
  idleSince : Nat
  rebind : Bool
deriving DecidableEq, Repr

/-- The spray unit, Skinks and reorder stages. `join` and `rings` by pipe; `replay` the packets returned for replay by pipe;
`entryNext` the next reorder entry of each pipe; `lastClutch` and `lastSkink` the round-robin places of R118; `lastThread` by Skink
(R114); `stall` since when the head of each pipe waits, and whether EV066 and EV078 were raised; `highWater` of R132;
`scratch` the local memory by `thread * 3072 + byte`; `sf` the VALID entries of the single-file table and `sfOff`
the PINNED, H1 and H2 bits that its other entries hold (R121); `stores` by clutch; `golden` the golden copies; `loads` the loads
in progress; `buffer` the 1 MiB image buffer of R159 by offset and `bufClaim` who holds it (R455) and since when. -/
structure SkinkUnit where
  join : Tab (List JoinItem)
  rings : Tab (List REntry)
  entryNext : Tab Nat
  replay : Tab (List Job)
  threads : Tab Thread
  lastClutch : Nat
  lastSkink : Tab Nat
  lastThread : Tab Nat
  stall : Tab (Nat × Bool × Bool)
  scratch : Tab Nat
  sf : Tab SfEntry
  sfOff : Tab Nat
  stores : Tab ClutchStore
  golden : List Golden
  loads : List CsLoad
  buffer : List Host.Cell
  bufClaim : Option (Nat × Nat)
deriving DecidableEq, Repr

/-- The spray unit and Skinks at reset: every thread FREE, every store empty. DESIGN CHOICE: the round robins of R114 and R118 start as if place 15
(thread 7 of a Skink) had been served last, so that the first packet goes to clutch 0 and its first Skink (log 1). -/
def SkinkUnit.init : SkinkUnit := ⟨[], [], [], [], [], 15, [], [], [], [], [], [], [], [], [], [], none⟩

/-- The commit unit (chapter 7). `lsnNext` the next LSN, `claims` the claim table as LSN and hash pair, `reserved` the LSNs
that hold a reservation (R173), `sfAborts` the F times in ns of the aborts against a hash pair (R199), `strict` the leaps that commit strictly
in order after an uncorrectable claim error (R203). -/
structure CommitUnit where
  lsnNext : Nat
  claims : List (Nat × Nat × Nat)
  reserved : List Nat
  sfAborts : List (Nat × Nat × Nat)
  strict : List Nat
deriving DecidableEq, Repr

/-- The commit unit at reset: the LSN starts at 0 (R204). -/
def CommitUnit.init : CommitUnit := ⟨0, [], [], [], []⟩

/-- A clutch's trace buffer (R572): the entries of 128 bits, oldest first, the trace index of the first, the index of the next
entry to export, the index ranges (first, one past the last) whose record R494 discarded and that are offered again, how
many entries a trigger still lets in, and whether recording has stopped. -/
structure TraceBuf where
  entries : List Nat
  first : Nat
  exported : Nat
  again : List (Nat × Nat)
  left : Option Nat
  stopped : Bool
deriving DecidableEq, Repr

/-- An empty trace buffer. -/
def TraceBuf.empty : TraceBuf := ⟨[], 0, 0, [], none, false⟩

/-- The debug functions (chapter 20): the threads whose halt is pending, the halted Skinks (R565), the trace buffers by
clutch, the TAP's instruction register, its bypass and boundary-scan registers (R562), and the SDP's request, response, response pointer and state (R564: 0 no response,
1 under way, 2 a response is ready). -/
structure DebugUnit where
  haltPend : List Nat
  skinkHalt : List Nat
  trace : Tab TraceBuf
  ir : Nat
  bypass : Bool
  boundary : List Bool
  request : List Byte
  response : List Byte
  respAt : Nat
  state : Nat
deriving DecidableEq, Repr

/-- The debug functions at reset: IDCODE selected, nothing halted. -/
def DebugUnit.init : DebugUnit := ⟨[], [], [], 2, false, [], [], [], 0, 0⟩

end Sys2Proof.Machine
end

