-- ==== Sys2Proof/Machine/Units/Stream.lean ====
section
/-! DEFINITION. The state of the stream port (chapter 17) beside its dictionary objects. -/

namespace Sys2Proof.Machine

/-- Where a staged record came from, so that R460 and R574 can mark it exported: the journal SEQ, or a clutch and the
first trace index with the number of entries. -/
inductive RecRef where
  | none
  | journal (seq : Nat)
  | trace (clutch first count : Nat)
deriving DecidableEq, Repr

/-- A staged record: its bytes, header of R487 included, where it came from, its SEQ, the staging offsets of its 32-byte parts (R484), and
whether the write of one of them ended with MEM_FROZEN (R494). -/
structure StrRec where
  bytes : List Byte
  ref : RecRef
  seq : Nat
  places : List Nat
  lost : Bool
deriving DecidableEq, Repr

/-- One channel: the records in its buffer, oldest first, how many bytes of the head have been sent, the place in its ring where the next
record goes, and how many of the staging reads for its next burst have not returned (R396). -/
structure StrChan where
  recs : List StrRec
  sent : Nat
  next : Nat
  reads : Nat
deriving DecidableEq, Repr

/-- An empty channel. -/
def StrChan.empty : StrChan := ⟨[], 0, 0, 0⟩

/-- The stream port. `xon` is the calendar's status in effect (R480), `calPos` the group of 16 entries that the next
control word carries, `fcPend` the statuses received and not yet in effect (due time in ns of F, group, status bits),
`lastGood` the F time in ns of the last control word with a correct CRC-24, `statusSeen` that a valid status came since
alignment, `tokens` and `tokenTime` the bucket of R485 and the F time in ns to which it is filled, `rr` the channel
served last, `xoffMark` the F time in ns to which str_xoff_time is counted. -/
structure StreamPort where
  chans : Tab StrChan
  xon : Nat
  calPos : Nat
  fcPend : List (Nat × Nat × Nat)
  lastGood : Nat
  fcLost : Bool
  deskewed : Bool
  statusSeen : Bool
  tokens : Nat
  tokenTime : Nat
  rr : Nat
  xoffMark : Nat
deriving DecidableEq, Repr

/-- The bucket size of R485. -/
def strBucket : Nat := 262144

/-- The stream port after reset: every channel empty and XOFF, the bucket full (DESIGN CHOICE, log entry 12). -/
def StreamPort.init : StreamPort := ⟨[], 0, 0, [], 0, true, false, false, strBucket, 0, 63, 0⟩

end Sys2Proof.Machine
end

