-- ==== Sys2Proof/Machine/Units/Time.lean ====
section
/-! DEFINITION. The state of the time unit (chapter 13) beside its dictionary objects. A counter is one number in units
of 2^-40 ns, modulo 2^48 seconds; its S, N and Q of R353 are its digits. -/

namespace Sys2Proof.Machine

/-- One second in counter units. -/
def secUnits : Nat := 1000000000 * 2 ^ 40

/-- The wrap of a counter: 2^48 seconds (R353). -/
def ctrWrap : Nat := 2 ^ 48 * secUnits

/-- INC_NOM of R355. -/
def incNom : Nat := 0x01999999999A

/-- A domain tracker (R366 to R371). `i` and `y` are the filter values of R370 in units of 2^-80 x 10^-9 ppb, which
hold every product of that rule exactly. `lastT2` is the t2 of the last accepted sample in units of 2^-16 ns (R368),
`filterT2` that of the last sample since ACQUIRE or HOLDOVER, `pendStep` the steps that the next epoch boundary applies (R369, R371), `lastF` the F time in ns of the last accepted sample. -/
structure Tracker where
  i : Int
  y : Int
  inc : Nat
  pendInc : Option Nat
  pendStep : List Int
  lastT2 : Option Nat
  filterT2 : Option Nat
  lastF : Nat
  lockRun : Nat
  rejectRun : Nat
deriving DecidableEq, Repr

/-- One entry of the difference history (R367): the counters and increments in effect from one epoch boundary on; `bad` marks an entry that
an uncorrectable error has damaged (R385). -/
structure EpochEntry where
  w : Nat
  a : Nat
  b : Nat
  incW : Nat
  incA : Nat
  incB : Nat
  bad : Bool
deriving DecidableEq, Repr

/-- The board delays of the ports from the epoch boundary on at which W read `start` (R362). -/
structure BoardSet where
  start : Nat
  rx : Tab Int
  tx : Tab Int
deriving DecidableEq, Repr

/-- A capture in an event FIFO (R383): TSTAMP96 and edge (0 rising, 1 falling). -/
structure EvtCapture where
  time : Nat
  edge : Nat
deriving DecidableEq, Repr

/-- The time unit. `ticks` counts TCLK ticks and `epochs` the epoch boundaries taken since RPLL lock. `wPend` is the value in ns that w_set gives W at the next epoch boundary (R372). `incWBase` is the
INC of the last update of R373 without its correction. `boards` are the sets of board delays that have been in effect, the newest
first (R362), `quiet`
the consecutive quiet phase intervals of each port (R360), `newLocked` a bit for each domain that became LOCKED since the
last epoch boundary, `wUpdates` the updates of R373 made, `evtCount` the capture count of each event pin, `evtLast` the
first sample of the last edge taken at each (R383, R558), `ppsHigh` whether
the pulse or the divided clock of each PPS output is high, and `rclkCount` the half periods of 156.25 MHz since the divided clock last turned
(R382). -/
structure TimeUnit where
  ticks : Nat
  epochs : Nat
  f : Nat
  a : Nat
  b : Nat
  w : Nat
  incW : Nat
  incWBase : Nat
  pendIncW : Option Nat
  trkA : Tracker
  trkB : Tracker
  wPend : Option Nat
  newLocked : Nat
  wUpdates : Nat
  history : List EpochEntry
  boards : List BoardSet
  quiet : Tab Nat
  ppsHigh : List Bool
  rclkCount : List Nat
  evtFifo : List (List EvtCapture)
  evtCount : List Nat
  evtLast : List (Option Nat)
deriving DecidableEq, Repr

/-- A tracker after reset (R384). -/
def Tracker.init : Tracker := ⟨0, 0, incNom, none, [], none, none, 0, 0, 0⟩

/-- The time unit at RPLL lock (R354, R384): all four counters 0. -/
def TimeUnit.init : TimeUnit :=
  ⟨0, 0, 0, 0, 0, 0, incNom, incNom, none, Tracker.init, Tracker.init, none, 0, 0, [], [], [],
   [false, false], [0, 0], [[], [], [], []], [0, 0, 0, 0], [none, none, none, none]⟩

end Sys2Proof.Machine
end

