-- ==== Sys2Proof/Machine/Units/Tm.lean ====
section
/-! DEFINITION. The state of the traffic manager and the fabric (chapters 11 and 12) up to the egress pipe. -/

namespace Sys2Proof.Machine

/-- A cell with its route word (R304 to R307): `item` and `idx` name the packet and the cell's place in it, `head` is the
header of R305 (0 but in a first cell), `data` the 80-byte payload, trailer included; `dst` is the output group, or the
multicast group, and `port` the port its packet is for, 256 for multicast. -/
structure Cell where
  item : Nat
  idx : Nat
  first : Bool
  last : Bool
  mc : Bool
  exp : Bool
  cls : Nat
  src : Nat
  dst : Nat
  port : Nat
  seq : Nat
  head : Nat
  data : List Byte
  poison : Bool
deriving DecidableEq, Repr

/-- A spilled cell: its position in the VOQ's spilled sequence, its block, its slot, whether its fetch is in flight, and whether the write of
its slot ended with MEM_FROZEN or the slot was overwritten with zeros, so that the slot does not hold it. -/
structure SpillCell where
  cell : Cell
  pos : Nat
  block : Nat
  slot : Nat
  fetching : Bool
  lost : Bool
deriving DecidableEq, Repr

/-- A block of a chain: its number, the granules that are skipped (R315) as a bit each, and the next slot. -/
structure SpillBlock where
  id : Nat
  skip : Nat
  next : Nat
deriving DecidableEq, Repr

/-- An input VOQ (R309, R312). `skipping` says that cells up to the next FIRST are discarded (R315). -/
structure Voq where
  cells : List Cell
  spill : List SpillCell
  blocks : List SpillBlock
  spilling : Bool
  seq : Nat
  pos : Nat
  skipping : Bool
deriving DecidableEq, Repr

/-- An empty VOQ. -/
def Voq.empty : Voq := ⟨[], [], [], false, 0, 0, false⟩

/-- The counts of R318 for one input station and one middle: cells sent and releases learned of at the input, releases
at the middle; normal and EXPRESS. -/
structure Quota where
  sentN : Nat
  sentE : Nat
  credN : Nat
  credE : Nat
  relN : Nat
  relE : Nat
deriving DecidableEq, Repr

/-- No cell sent. -/
def Quota.zero : Quota := ⟨0, 0, 0, 0, 0, 0⟩

/-- A reorder context (R321, R322) with its reassembly (R323): the expected SEQ, the held cells, how long the timer has run
and since when it runs (F in ns), the F time at which a gap is skipped for an isolated middle with that middle (R328), and the cells of
the run so far. -/
structure Reord where
  e : Nat
  held : List Cell
  waited : Nat
  since : Option Nat
  skipAt : Option (Nat × Nat)
  run : List Cell
deriving DecidableEq, Repr

/-- A fresh context. -/
def Reord.init : Reord := ⟨0, [], 0, none, none, []⟩

/-- A policer's state (R335): both buckets, the F time of the last fill in counter units, and its counters. -/
structure PolState where
  tc : Nat
  te : Nat
  fill : Option Nat
  green : Nat
  yellow : Nat
  red : Nat
  redDrop : Nat
deriving DecidableEq, Repr

/-- A policer at reset. -/
def PolState.init : PolState := ⟨0, 0, none, 0, 0, 0, 0⟩

/-- The RED average of a queue (R338), and the F time in ns since which it is empty. -/
structure RedAvg where
  avg : Nat
  empty : Nat
deriving DecidableEq, Repr

/-- A cell on a connection: the slot at whose start it arrives, its destination, the cell. -/
structure OnWire where
  slot : Nat
  dest : Nat
  cell : Cell
deriving DecidableEq, Repr

/-- A reassembled packet that waits for step 11: its output group, its item, the header of R305, the fields of the route
word that go on, the frame without FCS, ADMIT_T, and its cells. -/
structure Ready where
  grp : Nat
  item : Nat
  head : Nat
  mc : Bool
  exp : Bool
  cls : Nat
  dst : Nat
  inGrp : Nat
  body : List Byte
  admitT : Nat
  cells : Nat
deriving DecidableEq, Repr

/-- The traffic manager and the fabric. `items` are the items that wait for TM_ADMIT, `flights` those in steps 9 to 11;
`voqs` by VOQ ID, `used` the spill blocks in use; `lastGrp` the output group last served of each input group (R317);
`wire1` and `wire2` the cells on the connections, `mids` the FIFOs of the middles by `(middle * 32 + group) * 16 + kind`,
`mcast` the output groups of the multicast packet whose cells a home middle is receiving, by `(middle * 32 + input group)
* 16 + kind`; `quota` by `input * 32 + middle`; `xoffView` the XOFF field a station last received from a middle of a group, by
`station * 32 + group`; `sent1` and `sent2` the slot in which a connection last carried a cell, plus 1; `reord` by
`(output group * 64 + input group) * 16 + kind`, multicast contexts at input group + 32; `xoffTotal` and `xoffClass` the two parts of R324's
declarations; `ready` the packets that wait for step 11. -/
structure TmUnit where
  items : List TmItem
  flights : Tab Flight
  nextItem : Nat
  pols : Tab PolState
  polCfg : Tab Nat
  redProf : Tab Nat
  reds : Tab RedAvg
  voqs : Tab Voq
  used : List Nat
  lastGrp : Tab Nat
  wire1 : List OnWire
  wire2 : List OnWire
  mids : Tab (List Cell)
  mcast : Tab (List Nat)
  quota : Tab Quota
  xoffView : Tab Nat
  sent1 : Tab Nat
  sent2 : Tab Nat
  reord : Tab Reord
  xoffTotal : Tab Bool
  xoffClass : Tab Nat
  ready : List Ready
  mcCopies : Tab Nat
  mcRefused : Tab Nat
deriving DecidableEq, Repr

/-- The traffic manager and the fabric at reset: empty. -/
def TmUnit.init : TmUnit :=
  ⟨[], [], 0, [], [], [], [], [], [], [], [], [], [], [], [], [], [], [], [], [], [], [], [], []⟩

end Sys2Proof.Machine
end

