-- ==== Sys2Proof/Machine/State.lean ====
section
/-! DEFINITION. The state of the block: plain data. One field for each unit of the device, the outputs so far, the counter
of free values, and the queue of waiting commands. -/

namespace Sys2Proof.Machine

/-- The state. -/
structure State where
  /-- The object dictionary, its paths and the change journal (chapter 16). -/
  dict : DictUnit
  /-- The fault manager (chapter 18). -/
  fm : FaultMgr
  /-- The time unit (chapter 13). -/
  time : TimeUnit
  /-- The stream port (chapter 17). -/
  str : StreamPort
  /-- The PCIe host interface (chapter 15). -/
  host : HostIf
  /-- The HBM controllers and the software region (chapter 14). -/
  hbm : Hbm
  /-- The lanes, ports and ingress queues (chapter 2). -/
  ports : PortUnit
  /-- The pattern engines (chapter 4). -/
  pat : PatternUnit
  /-- The hue unit, the classifier's rules and the packets' hue counts (chapter 3). -/
  hue : HueUnit
  /-- The traffic manager and the cyclic fabric (chapters 11 and 12). -/
  tm : TmUnit
  /-- The egress ports (chapters 12 and 13). -/
  eg : EgressUnit
  /-- The forwarding tables and the learn unit (chapter 10). -/
  tbl : TableUnit
  /-- The join stages, spray unit, Skinks, control stores and reorder stages (chapters 5 and 6). -/
  sk : SkinkUnit
  /-- The commit unit (chapter 7). -/
  cu : CommitUnit
  /-- The Flow State Unit (chapter 8). -/
  fsu : Fsu
  /-- The debug functions (chapter 20). -/
  dbg : DebugUnit
  /-- The Eft, the power enables and the device's resets (chapters 19 and 21). -/
  eft : Eft
  /-- The outputs, oldest first (the model's own field). -/
  outbox : List Output
  /-- How many free values have been drawn (the model's own field). -/
  free : Nat
  /-- The commands that wait, first in, first out. -/
  pending : List Instr
deriving DecidableEq, Repr

/-- Why a step can stop with a fault. -/
inductive Fault where
  /-- A command whose operands no sender can form (`Instr.wellFormed` is false) reached a meaning that cannot read them.
  Raised by no meaning of the present model: every operand type admits only values a sender can form. Safe. -/
  | illFormed
deriving DecidableEq, Repr

/-- Why a command can be refused. -/
inductive Refusal where
  /-- The command has no meaning in the model yet; raised by an arm of `exec` alone. Safe. -/
  | notModelled (mnemonic : String)
deriving DecidableEq, Repr

/-- The state right after reset: every unit at the values its chapter states for reset. -/
def State.reset : State where
  dict := DictUnit.init
  fm := FaultMgr.init
  time := TimeUnit.init
  str := StreamPort.init
  host := HostIf.init
  hbm := Hbm.init
  ports := PortUnit.init
  pat := PatternUnit.init
  hue := HueUnit.init
  tm := TmUnit.init
  eg := EgressUnit.init
  tbl := TableUnit.init
  sk := SkinkUnit.init
  cu := CommitUnit.init
  fsu := Fsu.init
  dbg := DebugUnit.init
  eft := Eft.init
  outbox := []
  free := 0
  pending := []

end Sys2Proof.Machine
end

