-- ==== Sys2Proof/Machine/Ops.lean ====
section
/-! DEFINITION. The shared operations: reading and writing a dictionary object's value, times, raising an event,
putting out, drawing a free value, and the one way a dictionary write is judged, applied and journaled. -/

namespace Sys2Proof.Machine

/-- What a meaning answers with. -/
abbrev Out := Host.Outcome State Fault Refusal

/-! ## Objects -/

/-- The bytes of a value of a type (R445). -/
def Ty.size : Ty → Nat
  | .bool => 1
  | .u n => n
  | .i n => n
  | .enum8 => 1
  | .time80 => 10
  | .tstamp96 => 12
  | .octets n => n
  | .bitmap => 32

/-- The place of instance `i` of an object: `index * 256 + subindex`. -/
def Obj.key (o : Obj) (i : Nat) : Nat := (o.idx + i / o.m) * 256 + o.sub + i % o.m

/-- ev_reaction after a reset that clears it (R502): LOG; LOG and NOTIFY; LOG, NOTIFY and CROAK, by class. -/
def evReactionDefault (src : Nat) : Nat :=
  if src = 82 then 15
  else match evBaseClass src with
    | 0 => 1
    | 1 => 3
    | _ => 7

/-- ev_esc_n after a reset that clears it (R502). -/
def evEscNDefault (src : Nat) : Nat :=
  if src = 0 then 10 else if src = 53 ∨ src = 73 ∨ src = 80 ∨ src = 81 ∨ src = 121 then 3 else 0

/-- ev_esc_window in ms after a reset that clears it (R502, R522). -/
def evEscWindowDefault (src : Nat) : Nat := if src = 0 ∨ src = 121 then 60000 else 10000

/-- ev_esc_reaction after a reset that clears it (R502). -/
def evEscReactionDefault (src : Nat) : Nat := if src = 53 ∨ src = 73 ∨ src = 80 ∨ src = 81 then 15 else 7

/-- The default of instance `i` of an object on a device with DEVICE_ID `dev` (R444, R477, R502). An OCTETS value is its
bytes read least significant first. -/
def Obj.default (o : Obj) (i dev : Nat) : Nat :=
  match o.dflt with
  | .val n => n
  | .evClass => evBaseClass i
  | .evReaction => evReactionDefault i
  | .evEscN => evEscNDefault i
  | .evEscWindow => evEscWindowDefault i
  | .evEscReaction => evEscReactionDefault i
  | .mgmtMac => leNat ([0x02, 0x55, 0x4C, 0x00] ++ beBytes 2 dev)
  | .inbandMac => leNat ([0x02, 0x55, 0x4C, 0x01] ++ beBytes 2 dev)
  | .mgmtIp => 169 * 2 ^ 24 + 254 * 2 ^ 16 + (1 + dev / 256) * 256 + dev % 256
  | .live => 0

/-- DEVICE_ID as sampled at power-up (R477); its own default is 0. -/
def DictUnit.devId (u : DictUnit) : Nat := (tfind u.objs (0x1000 * 256 + 7)).getD 0

/-- DEVICE_ID as sampled at power-up (R477). -/
def State.devId (s : State) : Nat := s.dict.devId

/-- The value of instance `i` of an object. -/
def DictUnit.rd (u : DictUnit) (o : Obj) (i : Nat) : Nat := (tfind u.objs (o.key i)).getD (o.default i u.devId)

/-- The value of instance `i` of an object. -/
def State.rd (s : State) (o : Obj) (i : Nat := 0) : Nat := s.dict.rd o i

/-- The dictionary with the value of instance `i` of an object replaced. -/
def DictUnit.wr (u : DictUnit) (o : Obj) (i v : Nat) : DictUnit :=
  { u with objs := tset (o.default i u.devId) u.objs (o.key i) v }

/-- The device's own write of an object's value. -/
def State.wr (s : State) (o : Obj) (i v : Nat) : State := { s with dict := s.dict.wr o i v }

/-- R8: an event or statistics counter counts `n` more and saturates at the maximum of its type. -/
def State.bump (s : State) (o : Obj) (i : Nat := 0) (n : Nat := 1) : State :=
  s.wr o i (satAdd (8 * o.ty.size) (s.rd o i) n)

/-- A clutch's trace buffer. -/
def State.traceBuf (s : State) (c : Nat) : TraceBuf := tget TraceBuf.empty s.dbg.trace c

/-- Replace a clutch's trace buffer. -/
def State.setTrace (s : State) (c : Nat) (b : TraceBuf) : State :=
  { s with dbg := { s.dbg with trace := tset TraceBuf.empty s.dbg.trace c b } }

/-- A value as a signed number, for the I32 and I64 types (R445). -/
def State.rdInt (s : State) (o : Obj) (i : Nat := 0) : Int := toSigned (8 * o.ty.size) (s.rd o i)

/-- The device's own write of a signed value. -/
def State.wrInt (s : State) (o : Obj) (i : Nat) (v : Int) : State := s.wr o i (ofSigned (8 * o.ty.size) v)

/-! ## Time -/

/-- The F counter in whole ns (R354); every duration of the model is measured on it. -/
def State.fNs (s : State) : Nat := s.time.f / 2 ^ 40

/-- R356: a counter in units of 2^-16 ns, a half rounding upward. -/
def toLin (t : Nat) : Nat := (t + 2 ^ 23) / 2 ^ 24

/-- A time in units of 2^-16 ns in the layout of TSTAMP96 (R356): seconds, nanoseconds, fraction. -/
def linStamp (r : Nat) : Nat :=
  (r / (1000000000 * 65536) % 2 ^ 48) * 2 ^ 48 + (r / 65536 % 1000000000) * 65536 + r % 65536

/-- A TSTAMP96 as a number of units of 2^-16 ns. -/
def stampLin (t : Nat) : Nat := (fld t 48 48 * 1000000000 + fld t 16 32) * 65536 + fld t 0 16

/-- A counter as TSTAMP96. -/
def stamp96 (t : Nat) : Nat := linStamp (toLin t)

/-- W in TSTAMP96. -/
def State.wStamp (s : State) : Nat := stamp96 s.time.w

/-- The ns at which F, and with it every time of F, wraps. -/
def wrapNs : Nat := 2 ^ 48 * 10 ^ 9

/-- The time of F since `start` in ns, as R6 takes the difference of two times: negative where `start` lies ahead. -/
def State.sinceNs (s : State) (start : Nat) : Int := modDiff wrapNs s.fNs start

/-- The ns of F that have passed since `start`. -/
def State.spanNs (s : State) (start : Nat) : Nat := (s.sinceNs start).toNat

/-- Whether `ns` nanoseconds of F have passed since `start`. -/
def State.elapsed (s : State) (start ns : Nat) : Bool := decide ((ns : Int) ≤ s.sinceNs start)

/-- How far F has run since it read `start`, in its own units. -/
def State.sinceF (s : State) (start : Nat) : Nat := (s.time.f + ctrWrap - start) % ctrWrap

/-- R6 for two ingress times or times of a domain, in units of 2^-16 ns of W: `a` less `b`. -/
def linDiff (a b : Nat) : Int := modDiff (wrapNs * 65536) a b

/-- The ticks of an epoch: 2.048 us of TCLK (R355). -/
def epochTicks : Nat := 1280

/-- R362: the board delay of a port for a timestamp point that crosses the balls at `t`, a time of W. A delay applies to the points that cross
the reference plane, which lies `sign` times the delay after the balls, once it has taken effect: `next`, which the dictionary holds, from the
next epoch boundary on, else the newest set of `sel` whose boundary lies before the crossing. -/
def boardDelay (u : TimeUnit) (sel : BoardSet → Tab Int) (sign next : Int) (p : Nat) (t : Nat) : Int :=
  let left := ((u.epochs + 1) * epochTicks - u.ticks) * u.incW
  let plane := fun (d : Int) => (((t : Int) + sign * d * 2 ^ 40 / 1000) % (ctrWrap : Int)).toNat
  let delay := fun (b : BoardSet) => tget 0 (sel b) p
  if (left : Int) < modDiff ctrWrap (plane next) u.w then next
  else match u.boards.find? (fun b => decide (0 ≤ modDiff ctrWrap (plane (delay b)) b.start)) with
    | some b => delay b
    | none => (u.boards.getLast?.map delay).getD 0

/-! ## Outputs, free values, events -/

/-- Put something out. -/
def State.put (s : State) (o : Output) : State := { s with outbox := s.outbox ++ [o] }

/-- Draw a free value: nothing constrains it. -/
def State.draw (s : State) : Nat × State := (Config.freeValue s.free, { s with free := s.free + 1 })

/-- Raise an occurrence (R499) with a unit type of its own. -/
def State.raiseOf (s : State) (src utype unit : Nat) (detail : Nat := 0) (cause : Option (Nat × Nat) := none) (item : Nat := 0) :
    State :=
  { s with fm := { s.fm with raised := s.fm.raised ++ [⟨src, utype, unit, detail, s.wStamp, s.fNs, cause, item⟩] } }

/-- Raise an occurrence of a source for a unit number; the source's row gives the unit type. -/
def State.raise (s : State) (src unit : Nat) (detail : Nat := 0) (cause : Option (Nat × Nat) := none) (item : Nat := 0) :
    State :=
  s.raiseOf src (evUnitType src) unit detail cause item

end Sys2Proof.Machine
end

