-- ==== Sys2Proof/Machine/HbmOps.lean ====
section
/-! DEFINITION. HBM as its clients use it (chapter 14): the places of regions, requests, the queues of a controller, and what a request that
ends with MEM_FROZEN leaves behind. -/

namespace Sys2Proof.Machine

/-- A controller. -/
def State.ctl (s : State) (p : Nat) : HbmCtl := tget HbmCtl.init s.hbm.ctls p

/-- Replace a controller. -/
def State.setCtl (s : State) (p : Nat) (x : HbmCtl) : State :=
  { s with hbm := { s.hbm with ctls := tset HbmCtl.init s.hbm.ctls p x } }

/-- A request that waits, where it is a read. -/
def HbmAsk.asRead : HbmAsk → Option HbmReq
  | .read r => some r
  | .write _ => none

/-- A request that waits, where it is a write. -/
def HbmAsk.asWrite : HbmAsk → Option HbmWrite
  | .read _ => none
  | .write w => some w

/-- hbm_state of R406. -/
def State.pcState (s : State) (p : Nat) : Nat := s.rd Objs.hbm_state p

/-- A pseudo-channel serves requests. -/
def State.pcServes (s : State) (p : Nat) : Bool := s.pcState p == 1

/-- A pseudo-channel completes requests with MEM_FROZEN: it is FROZEN, THAWING, RETIRED or REGROWING (R404, R409). In TRAINING no client has
begun yet. -/
def State.pcRefuses (s : State) (p : Nat) : Bool := decide (2 ≤ s.pcState p)

/-- A pseudo-channel is retired: its bit of hbm_retired_map is set, or it is RETIRED, or REGROWING until its readmission (R406, R410). -/
def State.pcRetired (s : State) (p : Nat) : Bool := bit (s.rd Objs.hbm_retired_map) p || decide (4 ≤ s.pcState p)

/-- The retired pseudo-channels, a bit each. -/
def State.retiredMask (s : State) : Nat := (List.range 128).foldl (fun m p => setFld m p 1 (b2n (s.pcRetired p))) 0

/-- Set or clear a bit of hbm_retired_map, of class N: the flash no longer holds its value (R477). -/
def State.setRetired (s : State) (p : Nat) (b : Bool) : State :=
  (s.wr Objs.hbm_retired_map 0 (setFld (s.rd Objs.hbm_retired_map) p 1 (b2n b))).wr Objs.n_dirty 0 1

/-! ## Places (R388 to R391) -/

/-- The stack of a pseudo-channel (R388). -/
def stackOf (p : Nat) : Nat := p / 32

/-- The channel of a pseudo-channel in its stack (R388). -/
def channelOf (p : Nat) : Nat := p / 2 % 16

/-- The number of a pseudo-channel in its channel (R388). -/
def halfOf (p : Nat) : Nat := p % 2

/-- The stack ID, bank group and bank by which the stack addresses a bank (R388). -/
def bankName (k : Nat) : Nat × Nat × Nat := (k / 16, k / 4 % 4, k % 4)

/-- The bank of an offset in a pseudo-channel. -/
def bankOf (o : Nat) : Nat := o / 1024 % 48

/-- The row of an offset in a pseudo-channel. -/
def rowOf (o : Nat) : Nat := o / 1024 / 48

/-- The burst of an offset within its row. -/
def burstOf (o : Nat) : Nat := o / 32 % 32

/-- The bursts of a pseudo-channel: 768 MiB of 32 bytes. -/
def pcBursts : Nat := 0x30000000 / 32

/-- The pseudo-channel of a flow-store bucket. -/
def bucketPc (b : Nat) : Nat := b % 128

/-- The offset of a flow-store bucket in its pseudo-channel. -/
def bucketOff (b : Nat) : Nat := b / 128 * 256

/-- The offset of burst `k` of a flow-store slot (R216). -/
def slotBurst (i k : Nat) : Nat := bucketOff (i / 2) + i % 2 * 128 + k * 32

/-- The pseudo-channel of a spill slot. -/
def slotPc (slot : Nat) : Nat := slot / 16

/-- The offset of a spill slot in its pseudo-channel. -/
def slotOff (block slot : Nat) : Nat := 0x10000000 + 2048 * block + 128 * (slot % 16)

/-- The pseudo-channel of an offset of telemetry staging or of the software region, whose granules lie one by one in all 128. -/
def swPc (r : Nat) : Nat := r / 2048 % 128

/-- The offset in its pseudo-channel of an offset of telemetry staging. -/
def stageOff (r : Nat) : Nat := 0x20000000 + r / 2048 / 128 * 2048 + r % 2048

/-- The offset of telemetry staging that lies at an offset of a pseudo-channel. -/
def stageOfPc (p o : Nat) : Nat := ((o - 0x20000000) / 2048 * 128 + p) * 2048 + o % 2048

/-- The pseudo-channel of a granule of the image region of a stack. -/
def imagePc (stack g : Nat) : Nat := 32 * stack + g % 32

/-- The offset in its pseudo-channel of a granule of an image region. -/
def imageOff (g : Nat) : Nat := 0x24000000 + g / 32 * 2048

/-- The granule of its stack's image region that lies at an offset of a pseudo-channel. -/
def imageOfPc (p o : Nat) : Nat := (o - 0x24000000) / 2048 * 32 + p % 32

/-- The offset in its pseudo-channel of a software-region offset. -/
def swOff (r : Nat) : Nat := 0x25000000 + r / 2048 / 128 * 2048 + r % 2048

/-- The software-region offset of an offset of a pseudo-channel in that region. -/
def swOfPc (p o : Nat) : Nat := ((o - 0x25000000) / 2048 * 128 + p) * 2048 + o % 2048

/-- The size of the software region: 22 GiB. -/
def swSize : Nat := 0x580000000

/-- The pseudo-channel that holds a byte of the image buffer, which lies in HBM0 (R391). -/
def bufferPc (off : Nat) : Nat := imagePc 0 (Config.imageBufferAt.toNat + off / 2048)

/-- The pseudo-channel that holds place `k` of the MAC save, in HBM1: 16 bytes each (R391). -/
def macSavePc (k : Nat) : Nat := imagePc 1 (Config.macSaveAt.toNat + k / 128)

/-- The places of the MAC save: 32 MiB of 16 bytes. -/
def macPlaces : Nat := 2097152

/-- What a burst of an image region belongs to (R391): a burst of a copy of the shadows, of the golden copy of an image by its order, of the image
buffer by its offset, of the MAC save, or nothing. -/
inductive ImageUse where
  | shadow (stack burst : Nat)
  | golden (stack index burst : Nat)
  | buffer (off : Nat)
  | mac (burst : Nat)
  | unused
deriving DecidableEq, Repr

/-- The burst, from a granule `g0` on, at which offset `off` of granule `g` lies, within `n` granules. -/
def burstFrom (g0 n g off : Nat) : Option Nat := if g0 ≤ g ∧ g < g0 + n then some ((g - g0) * 64 + off % 2048 / 32) else none

/-- The golden copy of a stack in which a burst lies: 16 MiB for each image. -/
def goldenIn (stack g off : Nat) : ImageUse :=
  ((List.range 16).findSome? (fun i => (burstFrom (Config.goldenAt stack i).toNat 8192 g off).map (ImageUse.golden stack i))).getD .unused

/-- The copy of the shadows of a stack in which a burst lies: 64 MiB. -/
def shadowIn (stack g off : Nat) : ImageUse := ((burstFrom (Config.shadowStart stack).toNat 32768 g off).map (ImageUse.shadow stack)).getD .unused

/-- What lies at an offset of the image region of a pseudo-channel (R391): HBM0 has the image buffer beside a copy of the shadows, HBM1 the MAC
save beside the golden copies. -/
def imageAt (p off : Nat) : ImageUse :=
  let g := imageOfPc p off
  match stackOf p with
  | 0 => match burstFrom Config.imageBufferAt.toNat 512 g off with
    | some k => .buffer (32 * k)
    | none => shadowIn 0 g off
  | 1 => match burstFrom Config.macSaveAt.toNat 16384 g off with
    | some k => .mac k
    | none => goldenIn 1 g off
  | 2 => shadowIn 2 g off
  | _ => goldenIn 3 g off

/-- The pseudo-channel of a burst of a stack's copy of the shadows. -/
def shadowPc (stack burst : Nat) : Nat := imagePc stack ((Config.shadowStart stack).toNat + burst / 64)

/-- The pseudo-channel of a burst of a stack's golden copy of an image. -/
def goldenPc (stack index burst : Nat) : Nat := imagePc stack ((Config.goldenAt stack index).toNat + burst / 64)

/-- The mark, among the bursts of `goldenBad` or `shadowBad`, of all bursts that lie in a pseudo-channel. -/
def wholePc (p : Nat) : Nat := 2 ^ 21 + p

/-- A burst of a stack's copy of the shadows can be read: its pseudo-channel answers, and it was not written with zeros (R404, R407). -/
def State.shadowServes (s : State) (stack burst : Nat) : Bool :=
  let p := shadowPc stack burst
  !s.pcRefuses p && !s.hbm.shadowBad.contains (stack, burst) && !s.hbm.shadowBad.contains (stack, wholePc p)

/-- Which shadow copy of an object, in HBM0 or HBM2, a rewrite can use (R391, R404), where `found` tells whose data is good. -/
def State.shadowRead (s : State) (kind item : Nat) (found : CopyRead) : CopyRead :=
  let k := (Config.shadowAt kind item).toNat
  match found with
  | .first => if s.shadowServes 0 k then .first else if s.shadowServes 2 k then .second else .neither
  | .second => if s.shadowServes 2 k then .second else .neither
  | .neither => .neither

/-- A burst of a stack's golden copy of an image can be read. -/
def State.goldenBurstServes (s : State) (stack index image burst : Nat) : Bool :=
  let p := goldenPc stack index burst
  !s.pcRefuses p && !s.hbm.goldenBad.contains (stack, image, burst) && !s.hbm.goldenBad.contains (stack, image, wholePc p)

/-- The golden copy of an image in a stack can be read: it spreads over the stack's 32 pseudo-channels (R390), all of which answer, and no
burst of it was written with zeros. -/
def State.goldenServes (s : State) (stack image : Nat) : Bool :=
  (List.range 32).all (fun i => !s.pcRefuses (32 * stack + i)) && !s.hbm.goldenBad.any (fun b => b.1 == stack && b.2.1 == image)

/-- The first pseudo-channel of a list that answers MEM_FROZEN, as the unit whose handling an access acts on (R507). -/
def State.refusedBy (s : State) (l : List Nat) : Option (Nat × Nat) := (l.find? s.pcRefuses).map (fun p => (8, p))

/-- The pseudo-channel that keeps a rewrite from both copies of an object's shadow. -/
def State.shadowRefused (s : State) (kind item : Nat) : Option (Nat × Nat) :=
  let k := (Config.shadowAt kind item).toNat
  s.refusedBy [shadowPc 0 k, shadowPc 2 k]

/-- The pseudo-channel that keeps a reload from a golden copy in a stack. -/
def State.goldenRefused (s : State) (stack : Nat) : Option (Nat × Nat) := s.refusedBy ((List.range 32).map (32 * stack + ·))

/-- R164: the golden copy that a reload of an image can use: HBM1's, else HBM3's. -/
def State.goldenRead (s : State) (image : Nat) (found : CopyRead) : CopyRead :=
  match found with
  | .first => if s.goldenServes 1 image then .first else if s.goldenServes 3 image then .second else .neither
  | .second => if s.goldenServes 3 image then .second else .neither
  | .neither => .neither

/-- The spare lanes that a stack has left (R392). -/
def State.sparesLeft (s : State) (stack : Nat) : Nat := (Config.spareLanes stack).toNat - tget 0 s.hbm.spares stack

/-- Spare lanes are taken into use (R392); EV166 for each. -/
def State.takeSpares (s : State) (p n : Nat) : State :=
  let s1 : State := { s with hbm := { s.hbm with spares := tmod 0 s.hbm.spares (stackOf p) (· + n) } }
  (List.range n).foldl (fun (s : State) _ => s.raise 166 p (fld (s.rd Objs.hbm_diag p) 0 128)) s1

/-! ## Channels of the stream port -/

/-- One channel of the stream port. -/
def State.chan (s : State) (c : Nat) : StrChan := tget StrChan.empty s.str.chans c

/-- Replace one channel. -/
def State.setChan (s : State) (c : Nat) (x : StrChan) : State :=
  { s with str := { s.str with chans := tset StrChan.empty s.str.chans c x } }

/-! ## What a write that ends with MEM_FROZEN leaves -/

/-- What a lost write leaves of HBM's own content: a burst of an image region that does not hold what it should. -/
def Hbm.undo (h : Hbm) : HbmUndo → Hbm
  | .shadow stack k => { h with shadowBad := (stack, k) :: h.shadowBad.filter (· ≠ (stack, k)) }
  | .golden stack image k => { h with goldenBad := (stack, image, k) :: h.goldenBad.filter (· ≠ (stack, image, k)) }
  | .mac k => { h with macSave := tdel k h.macSave }
  | _ => h

/-- Two entries undo the same thing. -/
def HbmUndo.same : HbmUndo → HbmUndo → Bool
  | .slot i k _, .slot j l _ => i == j && k == l
  | .alt b _, .alt c _ => b == c
  | .spill v n, .spill w m => v == w && n == m
  | .stage c n, .stage d m => c == d && n == m
  | .shadow c n, .shadow d m => c == d && n == m
  | .golden c i n, .golden d j m => c == d && i == j && n == m
  | .mac n, .mac m => n == m
  | .bar2 n _, .bar2 m _ => n == m
  | _, _ => false

/-- The burst of a slot reads as before the write. A write-back that is lost loses its record, whose stale home R226 deletes after a thaw
(R244). -/
def State.undoSlot (s : State) (i k old : Nat) : State :=
  let cur := (tfind s.fsu.slots i).getD old
  let r := setFld cur (256 * k) 256 (fld old (256 * k) 256)
  let t : State := { s with fsu := { s.fsu with slots := if bit r 487 then tput i r s.fsu.slots else tdel i s.fsu.slots } }
  if k = 1 ∧ bit old 487 = true ∧ bit old 484 = true ∧ (tfind s.fsu.slots i).isSome ∧ bit cur 484 = false then t.bump Objs.rec_lost else t

/-- A spilled cell whose slot was not written. -/
def spillLost (pos : Nat) (v : Voq) : Voq := { v with spill := v.spill.map (fun c => if c.pos = pos then { c with lost := true } else c) }

/-- A staged record of which a granule was not written (R494). -/
def stageLost (seq : Nat) (x : StrChan) : StrChan := { x with recs := x.recs.map (fun r => if r.seq = seq then { r with lost := true } else r) }

/-- R418: one access of the host, at a region offset, to a pseudo-channel that does not serve is counted. -/
def bar2Frozen (s : State) (a : Nat) : State := (s.bump Objs.bar2_frozen).raise 214 0 0 (some (8, swPc a))

/-- R418: a write of the host, by its tag, of which a burst is discarded; it counts once. -/
def State.bar2Discard (s : State) (tag a : Nat) : State :=
  if s.hbm.bar2Lost.contains tag then s
  else bar2Frozen { s with hbm := { s.hbm with bar2Lost := (tag :: s.hbm.bar2Lost).take 1024 } } a

/-- One thing that a lost write leaves undone. -/
def State.undo (s : State) : HbmUndo → State
  | .slot i k old => s.undoSlot i k old
  | .alt b old => { s with fsu := { s.fsu with bktAlt := tset 0 s.fsu.bktAlt b old } }
  | .spill voq pos => { s with tm := { s.tm with voqs := tmod Voq.empty s.tm.voqs voq (spillLost pos) } }
  | .stage c seq => { s with str := { s.str with chans := tmod StrChan.empty s.str.chans c (stageLost seq) } }
  | .bar2 tag a => s.bar2Discard tag a
  | u => { s with hbm := s.hbm.undo u }

/-- A write ends with MEM_FROZEN. -/
def State.loseWrite (s : State) (w : HbmWrite) : State := w.undo.foldl State.undo s

/-! ## Reads that end -/

/-- A byte that a read of BAR2 has collected. -/
def Bar2Read.byte (b : Bar2Read) (i : Nat) : Byte :=
  let a := b.off + i
  ((b.got.find? (fun g => g.1 = a / 32 * 32)).map (fun g => g.2.getD (a % 32) 0)).getD 0

/-- Every burst of a host read has returned (R417, R418). -/
def State.bar2End (s : State) (b : Bar2Read) : State :=
  match b.frozen with
  | some a => (bar2Frozen s a).put (.completion none)
  | none => s.put (.completion (some ((List.range b.len).map b.byte)))

/-- A burst of a host read returns. -/
def State.bar2Got (s : State) (tag addr : Nat) (frozen : Bool) (data : List Byte) : State :=
  match s.hbm.bar2.find? (fun b => b.tag = tag) with
  | none => s
  | some b =>
    let b1 := { b with got := (addr, data) :: b.got, left := b.left - 1, frozen := if frozen then some addr else b.frozen }
    let others := s.hbm.bar2.filter (fun b => b.tag ≠ tag)
    if b1.left = 0 then ({ s with hbm := { s.hbm with bar2 := others } } : State).bar2End b1
    else { s with hbm := { s.hbm with bar2 := others ++ [b1] } }

/-- The head record of a channel cannot be read whole (R494). -/
def loseHead : List StrRec → List StrRec
  | [] => []
  | r :: rest => { r with lost := true } :: rest

/-- A staging read of a channel returns; a head record of which a read ends with MEM_FROZEN is lost (R494). -/
def StrChan.got (x : StrChan) (frozen : Bool) : StrChan :=
  { x with reads := x.reads - 1, recs := if frozen then loseHead x.recs else x.recs }

/-- A read ends, with its data or with MEM_FROZEN; those of the patrol scrub and of the FSU's background work, whose client acts of its own
(log 19), leave nothing. -/
def State.endRead (s : State) (p : Nat) (r : HbmReq) (frozen : Bool) (data : List Byte) : State :=
  if r.client = 6 ∨ r.client = 2 then s
  else if r.client = 3 then { s with str := { s.str with chans := tmod StrChan.empty s.str.chans r.tag (fun x => x.got frozen) } }
  else if r.client = 4 then s.bar2Got r.tag (swOfPc p r.off) frozen data
  else s.setCtl p { s.ctl p with done := (s.ctl p).done ++ [⟨r, frozen⟩] }

/-- The `n` bursts of a client's read, once all have ended: whether one ended with MEM_FROZEN, and what else is done. -/
def takeDone (l : List HbmDone) (client tag n : Nat) : Option (Bool × List HbmDone) :=
  let mine := l.filter (fun d => d.req.client = client ∧ d.req.tag = tag)
  if n ≤ mine.length then some (mine.any (·.frozen), l.filter (fun d => !(d.req.client = client ∧ d.req.tag = tag))) else none

/-! ## Requests (R396, R404) -/

/-- A read of a burst is presented; a controller that answers MEM_FROZEN ends it at once. -/
def State.hbmRead (s : State) (p : Nat) (r : HbmReq) : State :=
  if s.pcRefuses p then s.endRead p r true [] else s.setCtl p { s.ctl p with wait := (s.ctl p).wait ++ [.read r] }

/-- A client reads `n` bursts from an offset on. -/
def State.hbmReads (s : State) (p client off tag n : Nat) (fill : Bool) : State :=
  (List.range n).foldl (fun (s : State) k => s.hbmRead p ⟨client, off + 32 * k, tag, fill⟩) s

/-- A write of a burst is presented; a controller that answers MEM_FROZEN loses it. -/
def State.hbmWrite (s : State) (p : Nat) (w : HbmWrite) : State :=
  if s.pcRefuses p then s.loseWrite w else s.setCtl p { s.ctl p with wait := (s.ctl p).wait ++ [.write w] }

/-- A request waits at a controller. -/
def Hbm.present (h : Hbm) (p : Nat) (q : HbmAsk) : Hbm :=
  { h with ctls := tmod HbmCtl.init h.ctls p (fun x => { x with wait := x.wait ++ [q] }) }

/-- The FSU's background read of a bucket takes its place in the queues (R396); its sender does not wait for it (log 19). -/
def State.bgRead (s : State) (b : Nat) : State :=
  let p := bucketPc b
  { s with hbm := if s.pcRefuses p then s.hbm
                  else (List.range 8).foldl (fun h k => h.present p (.read ⟨2, bucketOff b + 32 * k, 0, false⟩)) s.hbm }

/-- Writes of an image region: pseudo-channel, offset, and what is undone should the write be lost. -/
def State.imageWrites (s : State) (l : List (Nat × Nat × HbmUndo)) : State :=
  { s with hbm := l.foldl (fun h w =>
      if s.pcRefuses w.1 then h.undo w.2.2 else h.present w.1 (.write ⟨5, w.2.1, [], [w.2.2]⟩)) s.hbm }

/-- The offset in its pseudo-channel of a burst of a part of an image region that begins at a granule. -/
def imageBurst (start k : Nat) : Nat := imageOff (start + k / 64) + k % 64 * 32

/-- An accepted write of an object writes both copies of its shadow (R82). -/
def State.shadowWrite (s : State) (kind item : Nat) : State :=
  let k := (Config.shadowAt kind item).toNat
  let fresh : State := { s with hbm := { s.hbm with shadowBad := s.hbm.shadowBad.filter (fun b => b.2 ≠ k) } }
  fresh.imageWrites ([0, 2].map (fun x => (shadowPc x k, imageBurst (Config.shadowStart x).toNat k, HbmUndo.shadow x k)))

/-- The bursts that the content of an image takes in its golden copy: 16,384 words of 16 bytes and 768 entries of 2. -/
def goldenBursts : Nat := 8240

/-- The golden copies of an image, by its order, are written in HBM1 and HBM3 (R158). -/
def State.goldenWrites (s : State) (image : Nat) : State :=
  let i := s.sk.golden.findIdx (fun g => g.image = image)
  s.imageWrites ([1, 3].flatMap (fun x => (List.range goldenBursts).map (fun k =>
    (goldenPc x i k, imageBurst (Config.goldenAt x i).toNat k, HbmUndo.golden x image k))))

/-- The MAC save writes its places (R298). -/
def State.macWrites (s : State) (places : List Nat) : State :=
  s.imageWrites (places.map (fun k => (macSavePc k, imageBurst Config.macSaveAt.toNat (k / 2), HbmUndo.mac k)))

/-! ## The queues of a controller (R396 to R399) -/

/-- Among the reads that wait, the one of the highest client priority, the oldest of its client (R396). DEDUCED: a read does not pass a write
that its own client presented before it, so that a client reads what it wrote. -/
def pickRead : Nat → List Nat → List HbmAsk → Option (Nat × HbmReq)
  | _, _, [] => none
  | i, b, .write w :: t => pickRead (i + 1) (w.client :: b) t
  | i, b, .read r :: t =>
    let rest := pickRead (i + 1) b t
    if b.contains r.client then rest
    else match rest with
      | none => some (i, r)
      | some (j, q) => if q.client < r.client then some (j, q) else some (i, r)

/-- The first write of a client that waits. -/
def firstWrite (client : Nat) : Nat → List HbmAsk → Option (Nat × HbmWrite)
  | _, [] => none
  | i, .write w :: t => if w.client = client then some (i, w) else firstWrite client (i + 1) t
  | i, .read _ :: t => firstWrite client (i + 1) t

/-- Among the writes that wait, the next client's in round robin (R396). -/
def pickWrite (last : Nat) (l : List HbmAsk) : Option (Nat × HbmWrite) :=
  ((List.range 8).map (fun k => (last + 1 + k) % 8)).findSome? (fun c => firstWrite c 0 l)

/-- A controller accepts a write: one of a burst already queued replaces its data and keeps its place (R397); a corrected burst that it
writes anew is not written back (R402); the FSU's write of burst 1 ends the hold of its row (R398). -/
def HbmCtl.addWrite (x : HbmCtl) (w : HbmWrite) : HbmCtl :=
  let merge := fun (e : HbmWrite) => ({ w with undo := e.undo ++ w.undo.filter (fun u => !e.undo.any u.same) } : HbmWrite)
  let wq := if x.wq.any (fun e => e.off = w.off) then x.wq.map (fun e => if e.off = w.off then merge e else e) else x.wq ++ [w]
  let held := if w.client = 0 ∧ w.off / 32 % 4 = 1 then x.held.filter (fun h => !(h.1 == bankOf w.off && h.2.1 == rowOf w.off)) else x.held
  { x with wq := wq, held := held, lastWriter := w.client, fix := x.fix.filter (· ≠ w.off) }

/-- A controller accepts a read: the newest queued write of its burst answers it (R397), else it is queued. -/
def State.addRead (s : State) (p : Nat) (r : HbmReq) : State :=
  match (s.ctl p).wq.find? (fun w => w.off = r.off) with
  | some w => s.endRead p r false w.data
  | none => s.setCtl p { s.ctl p with rq := (s.ctl p).rq ++ [r] }

/-- R396: a controller accepts one request: the read or the write that R396 picks for a queue with room, whichever was presented first
(DESIGN CHOICE: R396 does not order reads and writes). -/
def State.hbmAccept (s : State) (p : Nat) : State :=
  let x := s.ctl p
  let r := if x.rq.length < 64 then pickRead 0 [] x.wait else none
  let w := (pickWrite x.lastWriter x.wait).filter (fun w => decide (x.wq.length < 64) || x.wq.any (fun e => e.off = w.2.off))
  let read := fun (i : Nat) (q : HbmReq) => (s.setCtl p { x with wait := x.wait.eraseIdx i }).addRead p q
  let write := fun (i : Nat) (q : HbmWrite) => s.setCtl p (({ x with wait := x.wait.eraseIdx i } : HbmCtl).addWrite q)
  match r, w with
  | none, none => s
  | some (i, q), none => read i q
  | none, some (i, q) => write i q
  | some (i, q), some (j, v) => if i < j then read i q else write j v

/-- A row of the bank of an offset other than the offset's is held open for a fill (R398). -/
def HbmCtl.heldOff (x : HbmCtl) (off : Nat) : Bool := x.held.any (fun h => h.1 == bankOf off && h.2.1 != rowOf off)

/-- A queued write can be issued: no read of its burst is queued (R397), and its row can be opened. -/
def HbmCtl.canWrite (x : HbmCtl) (w : HbmWrite) : Bool := !x.rq.any (fun r => r.off == w.off) && !x.heldOff w.off

/-- R399: whether the controller issues writes: from 48 entries on, or while no read waits, down to 16 entries, or to none. -/
def HbmCtl.turned (x : HbmCtl) : HbmCtl :=
  let more := if x.writing then decide (16 < x.wq.length) else decide (48 ≤ x.wq.length)
  { x with writing := x.wq.any x.canWrite && (more || x.rq.isEmpty) }

/-- The open row of an offset's bank is its own. -/
def HbmCtl.rowOpen (x : HbmCtl) (off : Nat) : Bool := tget 0 x.openRow (bankOf off) == rowOf off + 1

/-- R397: the read that is issued next: the oldest to an open row, else the oldest. -/
def HbmCtl.nextRead (x : HbmCtl) : Option (Nat × HbmReq) :=
  let l := (x.rq.zipIdx.map (fun q => (q.2, q.1))).filter (fun q => !x.heldOff q.2.off)
  match l.find? (fun q => x.rowOpen q.2.off) with
  | some q => some q
  | none => l.head?

/-- A row is opened; it closes another of its bank (R398). -/
def HbmCtl.opened (x : HbmCtl) (off : Nat) : HbmCtl := { x with openRow := tset 0 x.openRow (bankOf off) (rowOf off + 1) }

/-- A burst's bytes go to the stack. -/
def swStore (sw : List Host.Cell) (addr : Nat) (data : List Byte) : List Host.Cell :=
  (data.zipIdx).foldl (fun t p => tset 0 t (addr + p.2) p.1) sw

/-- The bytes that the stack holds at a region offset of the software region. -/
def stackBytes (h : Hbm) (r n : Nat) : List Byte := (List.range n).map (fun i => tget 0 h.sw (r + i))

/-- What a write that is issued leaves in the software region. -/
def Hbm.stored (h : Hbm) (p : Nat) (w : HbmWrite) : Hbm := if w.data = [] then h else { h with sw := swStore h.sw (swOfPc p w.off) w.data }

/-- A controller issues the oldest write it can. -/
def State.issueWrite (s : State) (p : Nat) : State :=
  let x := s.ctl p
  match x.wq.find? x.canWrite with
  | none => s
  | some w =>
    let t := s.setCtl p (({ x with wq := x.wq.erase w } : HbmCtl).opened w.off)
    { t with hbm := t.hbm.stored p w }

/-- R402: the oldest corrected burst joins the write queue. -/
def State.writeBack (s : State) (p : Nat) : State :=
  let x := s.ctl p
  match x.fix with
  | [] => s
  | o :: rest =>
    if x.wq.length < 64 then
      let data := if o < 0x25000000 then [] else stackBytes s.hbm (swOfPc p o) 32
      s.setCtl p { x with fix := rest, wq := x.wq ++ [⟨8, o, data, []⟩] }
    else s

/-- One MCLK of a controller: it accepts one request and may issue one write. -/
def State.mclk (s : State) (p : Nat) : State :=
  let t := (s.hbmAccept p).writeBack p
  let x := (t.ctl p).turned
  let u := t.setCtl p x
  if x.writing then u.issueWrite p else u

/-- The MCLK edges in a tick: MCLK has 1 GHz, and a tick lasts 1.6 ns. -/
def mclks (tick : Nat) : Nat := tick * 8 / 5 - (tick - 1) * 8 / 5

/-- What a tick does to the controllers that serve and are not in self-refresh. -/
def State.ctlsTick (s : State) : State :=
  (s.hbm.ctls.map (·.1)).foldl (fun (s : State) p =>
    if s.pcServes p && !(s.ctl p).asleep then (List.range (mclks s.time.ticks)).foldl (fun (s : State) _ => s.mclk p) s else s) s

/-! ## The software region -/

/-- The newest data of a burst that a client has presented or the controller has queued. -/
def HbmCtl.newest (x : HbmCtl) (off : Nat) : Option (List Byte) :=
  ((x.wq ++ x.wait.filterMap HbmAsk.asWrite).reverse.find? (fun w => w.off = off)).map (·.data)

/-- A byte of the software region as a client reads it: the newest write of its burst, or the stack (R397). -/
def swByte (s : State) (r : Nat) : Byte :=
  match (s.ctl (swPc r)).newest (swOff (r / 32 * 32)) with
  | some d => d.getD (r % 32) 0
  | none => tget 0 s.hbm.sw r

/-- Bytes of the software region; one whose pseudo-channel answers MEM_FROZEN reads 0 (DESIGN CHOICE, as for the image buffer). -/
def swRead (s : State) (r n : Nat) : List Byte := (List.range n).map (fun i => if s.pcRefuses (swPc (r + i)) then 0 else swByte s (r + i))

/-- The host's write of one burst, of the access with a tag. -/
def swQueue (s : State) (tag addr : Nat) (data : List Byte) : State := s.hbmWrite (swPc addr) ⟨4, swOff addr, data, [.bar2 tag addr]⟩

end Sys2Proof.Machine
end

