-- ==== Sys2Proof/Machine/Offers.lean ====
section
/-! DEFINITION. What units hand to the stream port and to the delivery rings: records offered to channels (R483 to R487,
R492), journal entries (R460, R486), and items for delivery (R438). -/

namespace Sys2Proof.Machine

/-- A record's room in the buffer (R484): LENGTH rounded up to a multiple of 32. -/
def recRoom (len : Nat) : Nat := (len + 31) / 32 * 32

/-- R480: the 16 statuses of a control word replace those of their group. -/
def fcApply (xon group bits : Nat) : Nat := setFld xon (group * 16) 16 bits

/-- R480: the calendar in effect now, 100 ns after each control word. -/
def State.xonCalendar (s : State) : Nat :=
  (s.str.fcPend.filter (fun e => s.elapsed e.1 0)).foldl (fun x e => fcApply x e.2.1 e.2.2) s.str.xon

/-- R480: a channel is XON for the transmitter. -/
def State.chanXon (s : State) (c : Nat) : Bool :=
  s.rd Objs.str_link_state == 2 && !s.str.fcLost && bit s.xonCalendar c

/-- The ns for which a channel was XOFF (R480) from `start` to now: `cal` holds at `start`, and each word of the list takes effect at its time. -/
def State.offSpan (s : State) (c : Nat) : Nat → Nat → List (Nat × Nat × Nat) → Nat
  | start, cal, [] => if s.rd Objs.str_link_state == 2 && !s.str.fcLost && bit cal c then 0 else s.spanNs start
  | start, cal, (due, g, w) :: rest =>
    if s.elapsed due 0 then
      (if s.rd Objs.str_link_state == 2 && !s.str.fcLost && bit cal c then 0 else s.spanNs start - s.spanNs due) +
        s.offSpan c due (fcApply cal g w) rest
    else s.offSpan c start cal rest

/-- The ns for which a channel was XOFF since str_xoff_time was last brought up to date, while the port is enabled. -/
def State.xoffNs (s : State) (c : Nat) : Nat :=
  if s.rd Objs.str_enable = 1 then s.offSpan c s.str.xoffMark s.str.xon s.str.fcPend else 0

/-- Occupancy of a channel buffer (R484). -/
def chanUsed (x : StrChan) : Nat := x.recs.foldl (fun n r => n + recRoom r.bytes.length) 0

/-- How many pseudo-channels are retired. -/
def State.retiredCount (s : State) : Nat := popCount 128 s.retiredMask

/-- The size of a channel buffer: str_chan_buf units of 256 KiB, without the granules of retired pseudo-channels
(R484, R494). -/
def State.chanSize (s : State) (c : Nat) : Nat :=
  s.rd Objs.str_chan_buf c * 262144 * (128 - s.retiredCount) / 128

/-- The admission tokens now (R485): 23 bytes per ns, at most 256 KiB. -/
def State.tokensNow (s : State) : Nat := min strBucket (s.str.tokens + 23 * s.spanNs s.str.tokenTime)

/-- R484, R494: the staging offsets of `n` parts of 32 bytes of a record of a channel, from a place of its ring on, without the granules of
retired pseudo-channels; and the place after them. A channel's ring begins at its number times 128 MiB. -/
def State.stagePlaces (s : State) (c : Nat) : Nat → Nat → Nat → List Nat × Nat
  | 0, _, p => ([], p)
  | _, 0, p => ([], p)
  | fuel + 1, n + 1, p =>
    let size := s.rd Objs.str_chan_buf c * 262144
    let r := c * 134217728 + p
    let next := fun (k : Nat) => if size ≤ p + k then 0 else p + k
    if s.pcRetired (swPc r) then s.stagePlaces c fuel (n + 1) (next 2048)
    else
      let rest := s.stagePlaces c fuel n (next 32)
      (r :: rest.1, rest.2)

/-- The staging writes of a record (R485). -/
def State.stageWrites (s : State) (c seq : Nat) (places : List Nat) : State :=
  places.foldl (fun (s : State) r => s.hbmWrite (swPc r) ⟨3, stageOff r, [], [.stage c seq]⟩) s

/-- The staging reads of the next burst of a channel's head record are presented (R396, R481). -/
def State.stageFetch (s : State) (c : Nat) : State :=
  let x := s.chan c
  match x.recs with
  | [] => s
  | r :: _ =>
    let parts := (r.places.drop (x.sent / 32)).take 8
    parts.foldl (fun (s : State) a => s.hbmRead (swPc a) ⟨3, stageOff a, c, false⟩) (s.setChan c { x with reads := parts.length })

/-- Both enables of R483. -/
def State.chanOn (s : State) (c : Nat) : Bool := s.rd Objs.str_enable == 1 && s.rd Objs.str_chan_enable c == 1

/-- R483 would admit a record of `len` bytes. -/
def State.wouldAdmit (s : State) (c len : Nat) : Bool :=
  s.chanOn c && decide (len ≤ s.tokensNow) && decide (chanUsed (s.chan c) + recRoom len ≤ s.chanSize c)

/-- The common header (R487). -/
def strHeader (s : State) (c ty len seq : Nat) : List Byte :=
  let lin := toLin s.time.w
  let sec := lin / (1000000000 * 65536)
  let ns := lin / 65536 % 1000000000
  leBytes 16 (seq * 2 ^ 96 + len * 2 ^ 80 + ty * 2 ^ 72 + c * 2 ^ 64 + s.devId * 2 ^ 50 + (sec % 65536) * 2 ^ 32 + ns)

/-- R483: a unit offers a record, given by its bytes from 16 on; the channel's next SEQ is taken whether the record is
admitted or dropped. -/
def State.offer (s : State) (c ty : Nat) (body : List Byte) (ref : RecRef := .none) : State :=
  let len := 16 + body.length
  let seq := s.rd Objs.str_chan_seq c
  let s1 := s.wr Objs.str_chan_seq c ((seq + 1) % 2 ^ 32)
  if s.chanOn c = false then s1.bump Objs.str_drop_off c
  else if s.tokensNow < len then (s1.bump Objs.str_drop_rate c).raise 227 0
  else if s.chanSize c < chanUsed (s.chan c) + recRoom len then (s1.bump Objs.str_drop_full c).raise 226 c
  else
    let x := s.chan c
    let start := if s.rd Objs.str_chan_buf c * 262144 ≤ x.next then 0 else x.next
    let (places, next) := s.stagePlaces c (recRoom len / 32 * 129) (recRoom len / 32) start
    let r : StrRec := ⟨strHeader s c ty len seq ++ body, ref, seq, places, false⟩
    let s2 := s1.setChan c { x with recs := x.recs ++ [r], next := next }
    let s3 := ({ s2 with str := { s2.str with tokens := s.tokensNow - len, tokenTime := s.fNs } }).stageWrites c seq places
    if x.recs = [] then s3.stageFetch c else s3

/-- The 48 bytes of a journal entry (R459). -/
def JEntry.bytes (e : JEntry) : List Byte :=
  leBytes 48 (e.seq * 2 ^ 352 + e.time * 2 ^ 256 + e.idx * 2 ^ 240 + e.sub * 2 ^ 232 + e.path * 2 ^ 228 +
    e.session * 2 ^ 224 + e.len * 2 ^ 215 + e.crc * 2 ^ 160 + e.head)

/-- The marks of one journal entry. -/
def State.journalMark (s : State) (seq : Nat) (exported offered : Bool) : State :=
  let js := s.dict.journal.map (fun e => if e.seq = seq then { e with exported := exported, offered := offered } else e)
  { s with dict := { s.dict with journal := js } }

/-- R460, R486: with journal_channel set, the oldest entry that is neither exported nor in its channel is offered when
R483 would admit it. -/
def State.journalOffer (s : State) : State :=
  let c := s.rd Objs.journal_channel
  if c = 255 then s
  else match s.dict.journal.find? (fun e => !e.exported && !e.offered) with
    | some e => if s.wouldAdmit c 64 then (s.offer c 4 e.bytes (.journal e.seq)).journalMark e.seq false true else s
    | none => s

/-- An item goes on its way to a delivery ring (R438). -/
def State.deliver (s : State) (ring kind : Nat) (data : List Byte) : State :=
  { s with host := { s.host with items := s.host.items ++ [⟨ring, kind, data, 0, 0, 0, 0, 0, none, s.fNs⟩] } }

/-- An entry of the MSI-X table (R416). -/
def State.msixEntry (s : State) (v : Nat) : Nat := tget msixReset s.host.msixTab v

/-- The MSI-X pending bit of a vector (R416). -/
def State.setPending (s : State) (v : Nat) (b : Bool) : State :=
  { s with host := { s.host with msixPending := setFld s.host.msixPending v 1 (b2n b) } }

/-- Bytes written into the 1,400 of MB_REQUEST (R468). -/
def mbOverlay (held : List Byte) (off : Nat) (l : List Byte) : List Byte :=
  let p := padTo 0 1400 held
  (p.take off ++ l ++ p.drop (off + l.length)).take 1400

/-- A write of MB_REQUEST: while BUSY it is discarded and counted (R469). -/
def State.mbWrite (s : State) (off : Nat) (l : List Byte) : State :=
  if s.dict.mbStatus = 1 then s.bump Objs.mb_ignored
  else { s with dict := { s.dict with mbRequest := mbOverlay s.dict.mbRequest off l } }

/-- MSI-X (R419, R440): a message is sent, or held pending while the function is HALTED or the vector masked. -/
def State.msix (s : State) (v : Nat) : State :=
  let e := s.msixEntry v
  if s.rd Objs.hi_state = 1 ∨ bit e 96 = true then s.setPending v true else s.put (.msix v (fld e 0 64) (fld e 64 32))

/-- R564: the response of a BUSY DICT register is complete; a request without a response leaves it IDLE. -/
def State.sdpTick (s : State) : State :=
  if s.dbg.state = 1 then { s with dbg := { s.dbg with state := if s.dbg.response.isEmpty then 0 else 2 } } else s

/-- R469: the response of a BUSY mailbox is complete; a request without a response leaves it IDLE. -/
def State.mbTick (s : State) : State :=
  if s.dict.mbStatus ≠ 1 then s
  else if s.dict.mbRun.isEmpty then { s with dict := { s.dict with mbStatus := 0 } }
  else
    let t : State := { s with dict := { s.dict with mbResponse := s.dict.mbRun, mbRun := [], mbStatus := 2 } }
    if bit t.dict.mbCtrl 7 then t.msix (fld t.dict.mbCtrl 0 7) else t

end Sys2Proof.Machine
end

