-- ==== Sys2Proof/Machine/DictWrite.lean ====
section
/-! DEFINITION. The one way a dictionary write is judged, applied and journaled (R446 to R460). -/

namespace Sys2Proof.Machine

/-! ## Contexts and codes -/

/-- The number of a context. -/
def ctxCode : Ctx → Nat
  | .pcie => 0
  | .oapMgmt n => 1 + n.val
  | .oapInband n => 9 + n.val
  | .can => 17
  | .sdp => 18

/-- PATH of R459. -/
def ctxPath : Ctx → Nat
  | .pcie => 0
  | .oapMgmt _ => 1
  | .oapInband _ => 2
  | .can => 3
  | .sdp => 4

/-- SESSION of R459. -/
def ctxSession : Ctx → Nat
  | .oapMgmt n => n.val
  | .oapInband n => n.val
  | _ => 0

/-- The answers of R451. -/
inductive Code where
  | ok | noObject | noSub | readOnly | writeOnly | type | range | state | busy | pathDisabled | length
deriving DecidableEq, Repr

/-- The code numbers of R451. -/
def Code.num : Code → Nat
  | .ok => 0
  | .noObject => 1
  | .noSub => 2
  | .readOnly => 3
  | .writeOnly => 4
  | .type => 5
  | .range => 6
  | .state => 7
  | .busy => 8
  | .pathDisabled => 9
  | .length => 10

/-- The first of two refusals, in the order of R603 where both belong to one row of R451's table. -/
def Code.orElse (a b : Code) : Code := if a = .ok then b else a

/-- A refusal when a condition holds. -/
def refuseIf (c : Bool) (k : Code) : Code := if c then k else .ok

/-- The enable of a context's path (R456). -/
def State.pathEnable (s : State) : Ctx → Nat
  | .pcie => s.rd Objs.path_pcie
  | .oapMgmt _ => s.rd Objs.path_oap_mgmt
  | .oapInband _ => s.rd Objs.path_oap_inband
  | .can => s.rd Objs.path_can
  | .sdp => s.rd Objs.path_sdp

/-- power_state is one of those in which R474 narrows the paths. -/
def State.powerNarrow (s : State) : Bool :=
  let p := s.rd Objs.power_state
  1 ≤ p && p ≤ 4

/-- The stopped boot of R580: RESETTING with boot_status WAITING or FAILED. -/
def State.stoppedBoot (s : State) : Bool :=
  s.rd Objs.power_state == 4 && (s.rd Objs.boot_status == 1 || s.rd Objs.boot_status == 2)

/-- BOOT_MODE SDP_HOLD of R577. -/
def bootModeSdpHold : Nat := 7

/-- Whether a path answers items at all: R516 in the safe state, where the SDP needs the rails (R557), R474 in the narrowed power states. -/
def State.pathServed (s : State) (c : Ctx) : Bool :=
  if s.fm.safe then ctxPath c == 3 || (ctxPath c == 4 && s.eft.pwrEn % 8 == 7)
  else if s.stoppedBoot then
    s.rd Objs.boot_mode != bootModeSdpHold || ctxPath c == 3 || ctxPath c == 4
  else if s.powerNarrow then ctxPath c == 3
  else true

/-- Whether R474 or R516 answers an item with STATE. -/
def State.itemNarrowed (s : State) (o : Obj) (write : Bool) : Bool :=
  if s.fm.safe then
    if write then !(0x9000 ≤ o.idx && o.idx ≤ 0x9FFF)
    else !((0x8000 ≤ o.idx && o.idx ≤ 0x9FFF) || o.cls == .w)
  else if s.stoppedBoot then false
  else if s.powerNarrow then
    if write then !(0x9000 ≤ o.idx && o.idx ≤ 0x9FFF)
    else !(o.cls == .w || o.cls == .c || (0x9000 ≤ o.idx && o.idx ≤ 0x9FFF) || o.idx == 0xF000)
  else false

/-! ## Judging a write (R451) -/

/-- The path-local objects of R454, with those that R523, R559 and R581 add. -/
def pathLocal (k : Nat) : Bool :=
  k ∈ [0x400101, 0x440101, 0x440201, 0x48000B, 0x482001, 0x482003, 0x482004, 0x482008, 0x48200B, 0x501201, 0x501301,
       0x50100B, 0x50100C, 0x50100E, 0x501012, 0x580201, 0x580202, 0x580203, 0x580204, 0x600101, 0x600201, 0x340001,
       0x340003, 0x302001, 0xF00002, 0x81000D, 0x904001, 0xA00007, 0xA00008, 0xA00009] ||
  (0xA02004 ≤ k && k ≤ 0xA02F04 && k % 256 == 4)

/-- The TYPE row of R451 that depends on the type alone. -/
def typeBad (t : Ty) (v : Nat) : Bool :=
  match t with
  | .bool => 2 ≤ v
  | .time80 => 1000000000 ≤ fld v 0 32
  | .tstamp96 => 1000000000 ≤ fld v 16 32
  | _ => false

/-- Some field of a list of places and widths is not 0. -/
def anySet (v : Nat) (l : List (Nat × Nat)) : Bool := l.any (fun f => fld v f.1 f.2 != 0)

/-- The reserved fields of a parameter set of a record template, by its KIND (R183, R185, R187). -/
def paramReserved (x : Nat) : Bool :=
  match fld x 126 2 with
  | 1 => anySet x [(0, 32)]
  | 2 => anySet x [(0, 96)]
  | 3 => anySet x [(96, 4), (0, 48)]
  | _ => false

/-- A reserved field of an OCTETS layout is not 0 (R451), for the layouts of R63, R64, R92, R94, R121, R206, R210, R212, R545,
R548, R570 and R572; other layouts are judged in their chapters' checks. -/
def reservedBad (k v : Nat) : Bool :=
  if k = Objs.rule_header.key 0 then anySet v [(48, 13)]
  else if k = Objs.rule_action.key 0 ∨ k = Objs.hue_miss_action.key 0 then anySet v [(0, 67)]
  else if k = Objs.pat_set_header.key 0 ∨ k = Objs.tmpl_header.key 0 then anySet v [(32, 29), (62, 1)]
  else if k = Objs.pat_set_desc.key 0 then anySet v [(0, 1)]
  else if k = Objs.pat_set_extract.key 0 then (List.range 8).any (fun i => fld v (32 * i) 9 != 0)
  else if k = Objs.tmpl_desc.key 0 then
    anySet v [(32, 20)] || (List.range 4).any (fun i => paramReserved (fld v (576 + 128 * i) 128))
  else if k = Objs.key_tmpl_desc.key 0 then (List.range 12).any (fun i => fld v (32 * i) 12 != 0)
  else if k = Objs.sf_entry.key 0 then anySet v [(64, 44)]
  else if k = Objs.flow_record.key 0 then anySet v [(480, 3), (384, 32)]
  else if k / 256 = 0x9010 then anySet v [(92, 7)]
  else if k / 256 = 0x9020 then anySet v [(120, 5), (64, 13)]
  else if k / 4096 = 0xA01 then anySet v [(46, 6)]
  else if k / 4096 = 0xA02 ∧ k % 256 = 1 then anySet v [(43, 17)]
  else false

/-- The Range of an object (the last column of its row); an empty list means none. -/
def rangeBad (o : Obj) (v : Nat) : Bool :=
  let x : Int := match o.ty with
    | .i n => toSigned (8 * n) v
    | _ => (v : Int)
  !(o.rng.isEmpty || o.rng.any (fun r => r.1 ≤ x && x ≤ r.2))

/-- The value of a path-local object in a context, or of any other object. -/
def State.rdCtx (s : State) (c : Ctx) (o : Obj) (i : Nat := 0) : Nat :=
  if pathLocal (o.key i) then (tfind s.dict.locals (ctxCode c * 2 ^ 24 + o.key i)).getD (o.default i s.devId)
  else s.rd o i

/-- A write of an object's value through a context. -/
def State.wrCtx (s : State) (c : Ctx) (o : Obj) (i v : Nat) : State :=
  if pathLocal (o.key i) then
    { s with dict := { s.dict with locals := tset (o.default i s.devId) s.dict.locals (ctxCode c * 2 ^ 24 + o.key i) v } }
  else s.wr o i v

/-- An execution of the object started by the context runs (R448). -/
def State.runs (s : State) (c : Ctx) (k : Nat) : Bool := s.dict.running.any (fun r => r.ctx == ctxCode c && r.key == k)

/-- R451: the code of a write of instance `i` of an object; `check` gives the refusals of the object's chapter. -/
def judgeWrite (c : Ctx) (o : Obj) (i : Nat) (v : List Byte) (check : Nat → State → Code) (s : State) : Code :=
  let x := leNat v
  if s.pathEnable c < 2 then .pathDisabled
  else if o.acc = .ro then .readOnly
  else if v.length ≠ o.ty.size then .length
  else if typeBad o.ty x || reservedBad (o.key i) x then .type
  else if check x s = .type then .type
  else if rangeBad o x then .range
  else if check x s = .range then .range
  else if s.itemNarrowed o true then .state
  else if check x s = .state then .state
  else if s.runs c (o.key i) then .busy
  else check x s

/-! ## Journal and results -/

/-- R458 to R460: one more entry; the journal holds the 4,096 newest, and an entry replaced before it was exported
counts in journal_lost. -/
def State.journalAdd (s : State) (c : Ctx) (o : Obj) (i : Nat) (v : List Byte) : State :=
  let seq := s.rd Objs.journal_next_seq
  let k := o.key i
  let e : JEntry := ⟨seq, s.wStamp, k / 256, k % 256, ctxPath c, ctxSession c, v.length, crc32 v, leNat (v.take 20), false, false⟩
  let s := s.wr Objs.journal_next_seq 0 ((seq + 1) % 2 ^ 32)
  match s.dict.journal with
  | old :: rest =>
    if s.dict.journal.length < 4096 then { s with dict := { s.dict with journal := s.dict.journal ++ [e] } }
    else
      let s := { s with dict := { s.dict with journal := rest ++ [e] } }
      if old.exported then s else s.bump Objs.journal_lost
  | [] => { s with dict := { s.dict with journal := [e] } }

/-- The result a context reads of a CMD object (R448). -/
def State.result (s : State) (c : Ctx) (k : Nat) : Nat := tget 0 s.dict.results (ctxCode c * 2 ^ 24 + k)

/-- Set the result a context (by number) reads of a CMD object. -/
def State.setResultN (s : State) (c k r : Nat) : State :=
  { s with dict := { s.dict with results := tset 0 s.dict.results (c * 2 ^ 24 + k) r } }

/-- Set the result a context reads of a CMD object. -/
def State.setResult (s : State) (c : Ctx) (k r : Nat) : State := s.setResultN (ctxCode c) k r

/-- An execution on a unit starts: reads return `r` (PENDING or BUSY) until it ends (R448). -/
def State.startRunOn (s : State) (c : Ctx) (k unit r : Nat) : State :=
  let s := s.setResult c k r
  { s with dict := { s.dict with running := ⟨ctxCode c, k, unit⟩ :: s.dict.running } }

/-- An execution starts (R448). -/
def State.startRun (s : State) (c : Ctx) (k r : Nat) : State := s.startRunOn c k 0 r

/-- An execution ends with a result; one that its context did not live to see reports nothing. -/
def State.endRun (s : State) (c k r : Nat) : State :=
  if s.dict.running.any (fun x => x.ctx == c && x.key == k) then
    let s := s.setResultN c k r
    { s with dict := { s.dict with running := s.dict.running.filter (fun x => !(x.ctx == c && x.key == k)) } }
  else s

/-- Every context's execution of an object on a unit ends with one result. -/
def State.endRuns (s : State) (k unit r : Nat) : State :=
  (s.dict.running.filter (fun x => x.key = k && x.unit = unit)).foldl (fun s x => s.endRun x.ctx k r) s

/-- The RW objects whose value a unit keeps by the number that a select object names: pat_mem_data, sf_entry, key_tmpl_desc,
red_profile, pol_config. -/
def banked (k : Nat) : Bool := k ∈ [0x440202, 0x48000C, 0x501302, 0x340002, 0x340004]

/-- The value an accepted write leaves in the object: RW objects hold it; CMD, WO and RWH objects do not. -/
def State.storeWritten (s : State) (c : Ctx) (o : Obj) (i x : Nat) : State :=
  if banked (o.key i) then s
  else if o.acc = .rw then
    let old := s.rd o i
    let s := s.wrCtx c o i x
    if o.cls = .n ∧ old ≠ x ∧ pathLocal (o.key i) = false then s.wr Objs.n_dirty 0 1 else s
  else if o.acc = .cmd then s.setResult c (o.key i) 0
  else s

/-- What every accepted write does: the object's value and the journal entry (R458). -/
def acceptBase (c : Ctx) (o : Obj) (i : Nat) (v : List Byte) (s : State) : State :=
  let s := s.storeWritten c o i (leNat v)
  if pathLocal (o.key i) then s else (s.journalAdd c o i v).journalOffer

/-- An accepted write takes effect: the value, the journal entry, and the object's own effect. -/
def acceptWrite (c : Ctx) (o : Obj) (i : Nat) (v : List Byte) (apply : Nat → State → State) (s : State) : State :=
  apply (leNat v) (acceptBase c o i v s)

/-- A dictionary write of instance `i` of an object: judged (R451), and when accepted applied and journaled; a refused
write changes nothing but the answer (R452). `check` gives the refusals of the object's chapter, `refused` what the
chapter does on its refusals beside the answer, `apply` the effect. -/
def writeObj (c : Ctx) (o : Obj) (i : Nat) (v : List Byte) (check : Nat → State → Code)
    (apply : Nat → State → State) (s : State) (refused : Code → State → State := fun _ s => s) : State :=
  if s.pathServed c = false then s
  else
    let k := judgeWrite c o i v check s
    let s := if k = .ok then acceptWrite c o i v apply s else refused k s
    s.put (.answer c (o.key i / 256) (o.key i % 256) k.num [])

/-- R451: the code of a read of instance `i` of an object; `check` gives the refusals of the object's chapter. -/
def judgeRead (c : Ctx) (o : Obj) (check : State → Code) (s : State) : Code :=
  if s.pathEnable c < 1 then .pathDisabled
  else if o.acc = .wo then .writeOnly
  else if check s = .range then .range
  else if s.itemNarrowed o false then .state
  else check s

/-- A dictionary read (R452): judged, answered with the whole value, and, when executed, with the effect the chapter
gives a read. -/
def readObj (c : Ctx) (o : Obj) (i : Nat) (value : State → Nat) (check : State → Code) (effect : State → State)
    (s : State) : State :=
  if s.pathServed c = false then s
  else
    let k := judgeRead c o check s
    if k = .ok then
      (effect s).put (.answer c (o.key i / 256) (o.key i % 256) 0 (leBytes o.ty.size (value s)))
    else s.put (.answer c (o.key i / 256) (o.key i % 256) k.num [])

/-- No refusal of the chapter's own. -/
def noCheck : Nat → State → Code := fun _ _ => .ok

/-- No effect beside the object's value. -/
def noApply : Nat → State → State := fun _ s => s

end Sys2Proof.Machine
end

