-- ==== Sys2Proof/Machine/Hbm.lean ====
section
/-! DEFINITION. The HBM controllers (chapter 14): training, refresh, error handling, freeze and repair; and host accesses
to the software region through BAR2 (R417, R418). -/

namespace Sys2Proof.Machine

/-! ## Freeze (R404, R405) -/

/-- hbm_diag of R405. -/
def diagRec (time cause sev syndrome client rd wr p off : Nat) (write : Bool) : Nat :=
  let place := if cause = 3 ∨ cause = 4 then 0
    else bankOf off * 2 ^ 90 + rowOf off * 2 ^ 76 + burstOf off * 2 ^ 71 + b2n write * 2 ^ 70 + off
  time * 2 ^ 160 + cause * 2 ^ 152 + sev * 2 ^ 150 + syndrome * 2 ^ 128 + client * 2 ^ 120 + (rd % 256) * 2 ^ 112 +
    (wr % 256) * 2 ^ 104 + p * 2 ^ 96 + place

/-- The source that a CAUSE raises. -/
def causeSource (cause : Nat) : Nat := if cause = 1 then 162 else if cause = 2 then 163 else if cause = 3 then 164 else 165

/-- The requests of a controller that it has not issued end with MEM_FROZEN (R404, R409): the reads, then the writes, the newest first. -/
def State.flushCtl (s : State) (p : Nat) : State :=
  let x := s.ctl p
  let reads := x.rq ++ x.wait.filterMap HbmAsk.asRead
  let writes := x.wq ++ x.wait.filterMap HbmAsk.asWrite
  let t := s.setCtl p { x with rq := [], wq := [], wait := [], fix := [], held := [], writing := false }
  writes.reverse.foldl State.loseWrite (reads.foldl (fun (s : State) r => s.endRead p r true []) t)

/-- R404: a controller freezes; every queued request completes with MEM_FROZEN, and so do those that wait, which are not counted. -/
def hbmFreeze (s : State) (p cause sev syndrome client off : Nat) (write : Bool) : State :=
  if s.pcState p = 1 then
    let x := s.ctl p
    let diag := diagRec s.wStamp cause sev syndrome client x.rq.length x.wq.length p off write
    let s := ((s.wr Objs.hbm_state p 2).flushCtl p).wr Objs.hbm_diag p diag
    (s.bump Objs.hbm_freezes p).raise (causeSource cause) p (fld diag 0 128)
  else s

/-- R409, the controller's part of entering RETIRED: queued requests complete with MEM_FROZEN and the map bit is set. -/
def hbmRetireCtl (s : State) (p : Nat) : State :=
  let t := (s.wr Objs.hbm_state p 4).flushCtl p
  (t.setCtl p { t.ctl p with job := none }).setRetired p true

/-! ## Training, refresh, temperature -/

/-- HBM_TRAINING_DONE (R392, R406): `spares` are the spare lanes that step 3 needs; the training fails where the stack has not so many. -/
def hbmTrainingDone (s : State) (p : Nat) (pass : Bool) (spares : Nat) : State :=
  if s.pcState p = 0 then
    if s.pcRetired p then hbmRetireCtl s p
    else if pass = true ∧ spares ≤ s.sparesLeft (stackOf p) then (s.wr Objs.hbm_state p 1).takeSpares p spares
    else (hbmRetireCtl s p).raise 165 p (fld (s.rd Objs.hbm_diag p) 0 128)
  else s

/-- A retraining ends (R393, R394); one that needs a spare lane the stack has not got fails (DEDUCED). -/
def State.retrained (s : State) (p : Nat) (pass spare : Bool) : State :=
  if pass = true ∧ b2n spare ≤ s.sparesLeft (stackOf p) then s.takeSpares p (b2n spare) else hbmFreeze s p 4 0 0 7 0 false

/-- HBM_RETRAIN: at hbm_retrain_interval an all-bank refresh closes every row, and the data phases are retrained (R393); a controller in
self-refresh retrains when the core returns (R394). -/
def hbmRetrain (s : State) (p : Nat) (pass spare : Bool) : State :=
  let x := s.ctl p
  let due := if x.asleep then s.eft.phase == .restart else s.elapsed x.lastRetrain (s.rd Objs.hbm_retrain_interval * 1000)
  if s.pcState p = 1 ∧ due = true then
    (s.setCtl p { x with lastRetrain := s.fNs, openRow := [], held := [], asleep := false }).retrained p pass spare
  else s

/-- The meaning of HBM_RETRAIN. -/
def execHbmRetrain (pc : Fin 128) (pass spare : Bool) (s : State) : Out := .next (hbmRetrain s pc.val pass spare)

/-- HBM_REFRESH (R395): the next bank in ascending order; its row closes. Refresh stops only in RETIRED. -/
def hbmRefresh (s : State) (p : Nat) : State :=
  if s.pcState p = 4 then s
  else
    let x := s.ctl p
    let held := x.held.filter (fun h => h.1 ≠ x.nextBank)
    s.setCtl p { x with openRow := tdel x.nextBank x.openRow, held := held, nextBank := (x.nextBank + 1) % 48 }

/-- The meaning of HBM_REFRESH. -/
def execHbmRefresh (pc : Fin 128) (s : State) : Out := .next (hbmRefresh s pc.val)

/-- R395: the refresh rate that a stack temperature asks for. -/
def refreshRate (t : Int) : Nat := if 95 < t then 4 else if 85 < t then 2 else 1

/-- HBM_TEMP_SAMPLE (R395). DESIGN CHOICE (log 76): of the stack's pseudo-channels the first gives the hbm_diag of R511. -/
def hbmTempSample (s : State) (stack temp : Nat) : State :=
  let s := s.wr Objs.hbm_stack_temp stack temp
  if refreshRate (toSigned 32 temp) = 4 then s.raise 172 stack (fld (s.rd Objs.hbm_diag (32 * stack)) 0 128) else s

/-- The meaning of HBM_TEMP_SAMPLE. -/
def execHbmTempSample (stack : Fin 4) (temp : BitVec 32) (s : State) : Out :=
  .next (hbmTempSample s stack.val temp.toNat)

/-! ## Reads and errors -/

/-- A read is issued and returns: its row is open, and a FILL read holds it (R398). -/
def readServed (s : State) (p i : Nat) (r : HbmReq) : State :=
  let x := (s.ctl p).opened r.off
  let b := bankOf r.off
  let held := if r.fill then (b, rowOf r.off, s.fNs) :: x.held.filter (fun h => h.1 ≠ b) else x.held
  let data := if r.off < 0x25000000 then [] else stackBytes s.hbm (swOfPc p r.off) 32
  (s.setCtl p { x with rq := x.rq.eraseIdx i, held := held }).endRead p r false data

/-- R402: a corrected burst is to be written back, unless a write of it has been accepted since the read. -/
def State.correct (s : State) (p off : Nat) : State :=
  let x := s.ctl p
  if x.wq.any (fun w => w.off = off) then s else s.setCtl p { x with fix := x.fix.filter (· ≠ off) ++ [off] }

/-- HBM_READ_COMPLETE (R401, R402): the next read in the order of R397, unless the controller is at its writes (R399). -/
def hbmReadComplete (s : State) (p : Nat) (e : BurstEcc) : State :=
  let x := (s.ctl p).turned
  match x.nextRead with
  | none => s
  | some (i, r) =>
    if s.pcState p = 1 ∧ x.asleep = false ∧ x.writing = false then
      if e.secded = .uncorrectable ∨ e.sev = 3 then
        hbmFreeze s p 1 e.sev.val e.syndrome.toNat r.client r.off false
      else
        let s := readServed (s.setCtl p x) p i r
        let diag := fld (s.rd Objs.hbm_diag p) 0 128
        if e.secded = .corrected then ((s.correct p r.off).bump Objs.hbm_ecc_corr p).raise 160 p diag
        else if e.sev = 0 then s
        else (s.bump Objs.hbm_ondie_corr p).raise 161 p diag
    else s

/-- The meaning of HBM_READ_COMPLETE. -/
def execHbmReadComplete (pc : Fin 128) (ecc : BurstEcc) (s : State) : Out := .next (hbmReadComplete s pc.val ecc)

/-- The meaning of HBM_CA_PARITY (R404). -/
def execHbmCaParity (pc : Fin 128) (offset : BitVec 30) (write : Bool) (client : Fin 8) (s : State) : Out :=
  .next (hbmFreeze s pc.val 2 0 0 client.val offset.toNat write)

/-- The meaning of HBM_QUEUE_PARITY (R404). -/
def execHbmQueueParity (pc : Fin 128) (client : Fin 8) (s : State) : Out :=
  .next (hbmFreeze s pc.val 3 0 0 client.val 0 false)

/-- R398: the FSU's write of burst 1 or its release ends the hold of a bank's row. -/
def releaseRow (s : State) (p bank : Nat) : State :=
  let x := s.ctl p
  s.setCtl p { x with held := x.held.filter (fun h => h.1 ≠ bank) }

/-- ROW_HOLD_EXPIRY (R398): 128 MCLK, which are 128 ns. -/
def rowHoldExpiry (s : State) (p bank : Nat) : State :=
  if (s.ctl p).held.any (fun h => h.1 == bank && s.elapsed h.2.2 128) then releaseRow s p bank else s

/-- The meaning of ROW_HOLD_EXPIRY. -/
def execRowHoldExpiry (pc : Fin 128) (bank : Fin 48) (s : State) : Out := .next (rowHoldExpiry s pc.val bank.val)

/-- HBM_PATROL_SCRUB (R403): the next burst is read at the lowest priority once it is due, so that a pass lasts hbm_scrub_period. -/
def hbmPatrolScrub (s : State) (p : Nat) : State :=
  let x := s.ctl p
  let period := s.rd Objs.hbm_scrub_period * 1000000000
  if period ≠ 0 ∧ s.pcState p = 1 ∧ s.elapsed x.patrolStart (x.patrol * period / pcBursts) = true then
    let next := (x.patrol + 1) % pcBursts
    let start := if next = 0 then (x.patrolStart + period) % wrapNs else x.patrolStart
    (s.setCtl p { x with patrol := next, patrolStart := start }).hbmRead p ⟨6, x.patrol * 32, 0, false⟩
  else s

/-- The meaning of HBM_PATROL_SCRUB. -/
def execHbmPatrolScrub (pc : Fin 128) (s : State) : Out := .next (hbmPatrolScrub s pc.val)

/-! ## Repair commands -/

/-- R406: hbm_thaw, hbm_regrow and hbm_ppr are refused outside the state the table allows, and with BUSY while a
command of the controller runs; STATE comes first (R603). -/
def hbmCmdCheck (p need : Nat) (s : State) : Code :=
  if s.pcState p ≠ need then .state else refuseIf (s.ctl p).job.isSome .busy

/-- HBM_THAW (R408): the queues, which the freeze has emptied, are cleared, and the steps start. -/
def thawApply (c : Ctx) (p : Nat) (s : State) : State :=
  let s := s.setCtl p { s.ctl p with rq := [], wq := [], job := some .thaw }
  (s.wr Objs.hbm_state p 3).startRunOn c (Objs.hbm_thaw.key 0) p 8

/-- The refusals of a thaw. -/
def thawCheck : Nat → State → Code := fun x s => hbmCmdCheck x 2 s

/-- The meaning of HBM_THAW. -/
def execHbmThaw (c : Ctx) (v : List Byte) (s : State) : Out :=
  .next (writeObj c Objs.hbm_thaw 0 v thawCheck (thawApply c) s)

/-- The fields of hbm_ppr_target: pseudo-channel and bank. -/
def pprPc (t : Nat) : Nat := fld t 24 7

/-- The bank of hbm_ppr_target. -/
def pprBank (t : Nat) : Nat := fld t 16 6

/-- R413: hard-repair resources left. -/
def hpprAvail (s : State) (p : Nat) : Nat := (Config.hpprStack p).toNat - (s.ctl p).hpprUsed

/-- R407: the refusals of hbm_ppr; STATE comes before BUSY (R603). -/
def pprCheck : Nat → State → Code := fun x s =>
  let t := s.rd Objs.hbm_ppr_target
  let p := pprPc t
  if x = 1 ∧ (s.ctl p).sppr.contains (pprBank t) = true then .state
  else if x ≠ 1 ∧ hpprAvail s p = 0 then .state
  else hbmCmdCheck p 2 s

/-- R407: a repair starts. -/
def pprApply (c : Ctx) (x : Nat) (s : State) : State :=
  let t := s.rd Objs.hbm_ppr_target
  let job := if x = 1 then HbmJob.pprSoft (pprBank t) (fld t 0 14) else .pprHard (pprBank t) (fld t 0 14)
  (s.setCtl (pprPc t) { s.ctl (pprPc t) with job := some job }).startRunOn c (Objs.hbm_ppr.key 0) (pprPc t) 8

/-- A write of hbm_ppr. -/
def writePpr (c : Ctx) (v : List Byte) (s : State) : State := writeObj c Objs.hbm_ppr 0 v pprCheck (pprApply c) s

/-- The meaning of HBM_PPR_SOFT. -/
def execHbmPprSoft (c : Ctx) (s : State) : Out := .next (writePpr c [1] s)

/-- The meaning of HBM_PPR_HARD. -/
def execHbmPprHard (c : Ctx) (s : State) : Out := .next (writePpr c [2] s)

/-- R407: the bank field of hbm_ppr_target is one of the 48 banks, and its reserved fields are 0. -/
def pprTargetCheck : Nat → State → Code := fun x _ =>
  refuseIf (fld x 31 1 != 0 || fld x 22 2 != 0 || fld x 14 2 != 0 || decide (48 ≤ fld x 16 6)) .range

/-! ## Host accesses to the software region (R417, R418) -/

/-- The bursts that an access of `n` bytes at a region offset touches, by region offset. -/
def swBursts (r n : Nat) : List Nat := ((List.range n).map (fun i => (r + i) / 32 * 32)).dedup

/-- A read through BAR2 is served (R417, R418): every burst is read; the last to return completes the access. -/
def barRead (s : State) (r n : Nat) : State :=
  let bursts := swBursts r n
  if swSize ≤ r then ((s.bump Objs.bar2_range_err).raise 215 0 r).put (.completion (some (List.replicate n 0)))
  else if bursts = [] then s.put (.completion (some []))
  else
    let tag := s.hbm.bar2Tag
    let h := { s.hbm with bar2 := s.hbm.bar2 ++ [⟨tag, r, n, [], bursts.length, none⟩], bar2Tag := tag + 1 }
    bursts.foldl (fun (s : State) a => s.hbmRead (swPc a) ⟨4, swOff a, tag, false⟩) { s with hbm := h }

/-- A burst with the bytes that an access of `data` at a region offset gives it. -/
def swPatch (s : State) (a r : Nat) (data : List Byte) : List Byte :=
  (List.range 32).map (fun i => if r ≤ a + i then (data[a + i - r]?).getD (swByte s (a + i)) else swByte s (a + i))

/-- A write through BAR2 is served (R417, R418): the bursts whose pseudo-channel serves are written; the others are discarded. -/
def barWrite (s : State) (r : Nat) (data : List Byte) : State :=
  let bursts := swBursts r data.length
  if swSize ≤ r then (s.bump Objs.bar2_range_err).raise 215 0 r
  else
    let tag := s.hbm.bar2Tag
    let s : State := { s with hbm := { s.hbm with bar2Tag := tag + 1 } }
    let t := (bursts.filter (fun a => !s.pcRefuses (swPc a))).foldl (fun (s : State) a => swQueue s tag a (swPatch s a r data)) s
    match bursts.find? (fun a => s.pcRefuses (swPc a)) with
    | some a => t.bar2Discard tag a
    | none => t

/-- An access of the host is served. -/
def State.barServe (s : State) : BarAsk → State
  | .read r n => barRead s r n
  | .write r data => barWrite s r data

/-- A write of the host waits for its acceptance. -/
def State.barWaits (s : State) : Bool :=
  s.hbm.ctls.any (fun c => c.2.wait.any (fun a => match a with
    | .write w => w.client == 4
    | .read _ => false))

/-- R417: an access of the host is served, or waits until every write before it is accepted. -/
def State.barAccess (s : State) (a : BarAsk) : State :=
  if s.barWaits ∨ s.hbm.bar2Held ≠ [] then { s with hbm := { s.hbm with bar2Held := s.hbm.bar2Held ++ [a] } } else s.barServe a

/-- The accesses of the host that wait are served in their order, up to one that must still wait. -/
def barRetry : List BarAsk → State → State
  | [], s => s
  | a :: rest, s => if s.barWaits then { s with hbm := { s.hbm with bar2Held := a :: rest } } else barRetry rest (s.barServe a)

/-- What a tick does to HBM. -/
def State.hbmTick (s : State) : State :=
  let t := s.ctlsTick
  if t.hbm.bar2Held = [] then t else barRetry t.hbm.bar2Held { t with hbm := { t.hbm with bar2Held := [] } }

/-- The meaning of BAR2_READ. -/
def execBar2Read (offset : BitVec 35) (len : Fin 4097) (s : State) : Out := .next (s.barAccess (.read offset.toNat len.val))

/-- The meaning of BAR2_WRITE. -/
def execBar2Write (offset : BitVec 35) (data : List Byte) (s : State) : Out := .next (s.barAccess (.write offset.toNat data))

end Sys2Proof.Machine
end

