-- ==== Sys2Proof/Machine/HueOps.lean ====
section
/-! DEFINITION. The in-flight counts of the hues, the window and its reclamation (R76, R77). -/

namespace Sys2Proof.Machine

/-- The active hue. -/
def State.hueActive (s : State) : Nat := s.rd Objs.hue_active

/-- The oldest hue in the window. -/
def State.hueOldest (s : State) : Nat := s.rd Objs.hue_oldest

/-- The hues in the window (hue_window). -/
def State.hueWindow (s : State) : Nat := (s.hueActive + 65536 - s.hueOldest) % 65536 + 1

/-- The in-flight count of a hue. -/
def State.hueCount (s : State) (h : Nat) : Nat := tget 0 s.hue.counts h

/-- Hue N, the hue that is staged: the active hue plus 1. -/
def State.hueN (s : State) : Nat := (s.hueActive + 1) % 65536

/-- The hue unit forgets what it kept of a reclaimed hue. -/
def forgetHue (u : HueUnit) (h : Nat) : HueUnit :=
  { u with retired := tdel h u.retired, slow := u.slow.filter (· ≠ h), missOld := tdel h u.missOld,
           imageOld := tdel h u.imageOld, keyedOld := tdel h u.keyedOld }

/-- R77: reclaim the oldest hue while its count is zero, up to the active hue. -/
def reclaim : Nat → State → State
  | 0, s => s
  | n + 1, s =>
    let o := s.hueOldest
    if o = s.hueActive ∨ s.hueCount o ≠ 0 then s
    else
      let s1 := s.wr Objs.hue_oldest 0 ((o + 1) % 65536)
      reclaim n { s1 with hue := forgetHue s1.hue o }

/-- R76: a packet takes a hue. -/
def State.hueTake (s : State) (pid h : Nat) : State :=
  let u := { s.hue with counts := tmod 0 s.hue.counts h (fun n => satAdd 32 n 1), holders := tput pid (h, 1) s.hue.holders }
  { s with hue := u }

/-- R76: `n` more copies of a packet count. -/
def State.holdMore (s : State) (pid n : Nat) : State :=
  match tfind s.hue.holders pid with
  | none => s
  | some (h, k) => { s with hue := { s.hue with holders := tput pid (h, k + n) s.hue.holders } }

/-- R76, R77: one copy of a packet has ended; after the last the count falls and the window may shrink. -/
def State.holdEnd (s : State) (pid : Nat) : State :=
  match tfind s.hue.holders pid with
  | none => s
  | some (h, k) =>
    if 1 < k then { s with hue := { s.hue with holders := tput pid (h, k - 1) s.hue.holders } }
    else
      let u := { s.hue with holders := tdel pid s.hue.holders, counts := tmod 0 s.hue.counts h (· - 1) }
      reclaim 4 { s with hue := u }

/-- R76: a packet with every copy of it has ended. -/
def State.holdDrop (s : State) (pid : Nat) : State :=
  match tfind s.hue.holders pid with
  | none => s
  | some (h, _) =>
    let u := { s.hue with holders := tdel pid s.hue.holders, counts := tmod 0 s.hue.counts h (· - 1) }
    reclaim 4 { s with hue := u }

/-- The next packet number. -/
def State.newPid (s : State) : Nat × State := (s.hue.nextPid, { s with hue := { s.hue with nextPid := s.hue.nextPid + 1 } })

/-- R71: whether an object with this header is visible under a hue. VALID is bit 63, OPEN bit 61, VU bits [31:16], VF
bits [15:0]. -/
def visible (header h : Nat) : Bool :=
  bit header 63 && decide (0 ≤ wrapDiff 16 h (fld header 0 16)) &&
    (bit header 61 || decide (0 < wrapDiff 16 (fld header 16 16) h))

end Sys2Proof.Machine
end

