-- ==== Sys2Proof/Machine/PortOps.lean ====
section
/-! DEFINITION. Where ports lie (R17, R25, R303), their rates, and the pairs of R44. -/

namespace Sys2Proof.Machine

/-- The lanes a port mode occupies (R26). -/
def modeLanes (mode : Nat) : Nat := if mode = 7 then 2 else if mode = 8 then 4 else if mode = 9 then 8 else if mode = 0 then 0 else 1

/-- The station of a port (R25). -/
def stationOf (port : Nat) : Nat := port / 8

/-- The pipe of a port (R25). -/
def pipeOf (port : Nat) : Nat := port / 64

/-- port_mode of a port. -/
def State.portMode (s : State) (p : Nat) : Nat := s.rd Objs.port_mode p

/-- The group of a station (R303), numbered by its first station. -/
def State.grpOf (s : State) (st : Nat) : Nat :=
  if s.portMode (32 * (st / 4)) = 9 then 4 * (st / 4)
  else if s.portMode (16 * (st / 2)) = 8 then 2 * (st / 2)
  else st

/-- How many stations a group has. -/
def State.grpSize (s : State) (g : Nat) : Nat :=
  if s.portMode (32 * (g / 4)) = 9 then 4 else if s.portMode (16 * (g / 2)) = 8 then 2 else 1

/-- The group of a port. -/
def State.grpOfPort (s : State) (p : Nat) : Nat := s.grpOf (stationOf p)

/-- link_state of R35: 0 DISABLED, 1 DOWN, 2 UP, 3 HOLDING, 4 ISOLATED. -/
def State.link (s : State) (p : Nat) : Nat := s.rd Objs.link_state p

/-- The port's link state is UP. -/
def State.isUp (s : State) (p : Nat) : Bool := s.link p == 2

/-- The rate of a port in Mb/s. -/
def State.rate (s : State) (p : Nat) : Nat := s.rd Objs.speed_active p

/-- The time in ns that a port takes to send `n` bytes, rounded up. -/
def State.sendNs (s : State) (p n : Nat) : Nat := (n * 8000 + s.rate p - 1) / s.rate p

/-- The role that complements a role (R44). -/
def otherRole (r : Nat) : Nat := if r = 1 then 2 else if r = 2 then 1 else if r = 3 then 4 else if r = 4 then 3 else 0

/-- R44: the port's PRP or HSR role is in effect. -/
def State.pairValid (s : State) (p : Nat) : Bool :=
  let r := s.rd Objs.port_role p
  let q := s.rd Objs.pair_port p
  r != 0 && p != q && s.rd Objs.port_role q == otherRole r && s.rd Objs.pair_port q == p &&
    s.portMode p == s.portMode q && s.rate p == s.rate q && pipeOf p == pipeOf q

/-- The port under which addresses are learned on `p` (R283): the A port of a valid pair. -/
def State.learnPort (s : State) (p : Nat) : Nat :=
  if s.pairValid p then
    let r := s.rd Objs.port_role p
    if r = 1 ∨ r = 3 then p else s.rd Objs.pair_port p
  else p

/-- A mode with frame preemption (R26). -/
def preemptMode (mode : Nat) : Bool := decide (4 ≤ mode)

/-- PREEMPT_ENABLE is 1 on a port whose mode allows preemption (R30). -/
def State.preemptOn (s : State) (p : Nat) : Bool := s.rd Objs.preempt_enable p == 1 && preemptMode (s.portMode p)

/-- Preemption is in effect on a port (R31, R380). -/
def State.preempts (s : State) (p : Nat) : Bool :=
  s.preemptOn p && (s.rd Objs.mm_status p == 2 || s.rd Objs.preempt_verify p == 0)

/-- The FEC setting that AUTO selects for a mode (R26). -/
def autoFec (mode : Nat) : Nat := if 6 ≤ mode then 3 else 1

/-- The FEC setting in use: 1 NONE, 2 RS528, 3 RS544. -/
def State.fec (s : State) (p : Nat) : Nat :=
  let f := s.rd Objs.fec_mode p
  if f = 0 then autoFec (s.portMode p) else f

end Sys2Proof.Machine
end

