-- ==== Sys2Proof/Machine/FsuOps.lean ====
section
/-! DEFINITION. The Flow State Unit as its rows and the leaps use it (chapter 8): records and their places, the flow cache,
lookups, placing, locks and deletions. -/

namespace Sys2Proof.Machine

/-! ## Records (R168, R210) -/

/-- The key of a record image. -/
def recKey (r : Nat) : Nat := fld r 0 384
/-- OWNER_PORT. -/
def recPort (r : Nat) : Nat := fld r 496 8
/-- TMPL. -/
def recTmpl (r : Nat) : Nat := fld r 492 4
/-- VALID. -/
def recValid (r : Nat) : Bool := bit r 487
/-- ALT. -/
def recAlt (r : Nat) : Bool := bit r 486
/-- CHECKED_OUT. -/
def recOut (r : Nat) : Bool := bit r 484
/-- LAST_SEEN. -/
def recSeen (r : Nat) : Nat := fld r 416 32
/-- Set CHECKED_OUT. -/
def setOut (r : Nat) (b : Bool) : Nat := setFld r 484 1 (b2n b)
/-- Set LAST_SEEN. -/
def setSeen (r t : Nat) : Nat := setFld r 416 32 t
/-- The 128-bit content of a segment. -/
def segOf (r k : Nat) : Nat := fld r (128 * k) 128
/-- Replace a segment. -/
def setSeg (r k v : Nat) : Nat := setFld r (128 * k) 128 v

/-- R211: a time in units of 2^-16 ns in last-seen units. -/
def seenUnits (lin : Nat) : Nat := lin / 2 ^ 36 % 2 ^ 32

/-- W in last-seen units. -/
def State.seenNow (s : State) : Nat := seenUnits (toLin s.time.w)

/-! ## Hashes and places (R208, R216, R217) -/

/-- H1 and H2 of a key. -/
def State.flowHash (s : State) (key : Nat) : Nat × Nat :=
  let init := Nat.xor 0xFFFFFFFF (s.rd Objs.hash_salt)
  let b := leBytes 48 key
  (crcFrom 0x82F63B78 init b, crcFrom 0xEDB88320 init b)

/-- B1 and B2 of a key. -/
def State.flowBuckets (s : State) (key : Nat) : Nat × Nat :=
  let (h1, h2) := s.flowHash key
  let b1 := h1 % 2 ^ 27
  let b2 := h2 % 2 ^ 27
  (b1, if b1 % 128 = b2 % 128 then setFld b2 0 7 (Nat.xor (b2 % 128) 0x40) else b2)

/-- The first stash place, as a place number. -/
def stashBase : Nat := 2 ^ 28

/-- The image at a place. -/
def State.homeImg (s : State) (p : Nat) : Option Nat :=
  if p < stashBase then tfind s.fsu.slots p else tfind s.fsu.stash (p - stashBase)

/-- The FSU's write of a burst of the flow store, where the pseudo-channel serves (R396). -/
def State.fsuWrite (s : State) (b off : Nat) (u : HbmUndo) : State :=
  if s.pcServes (bucketPc b) then s.hbmWrite (bucketPc b) ⟨0, off, [], [u]⟩ else s

/-- The writes of the bursts of a slot in which an image differs from the one before (R225); of a new record that is in the flow cache,
bursts 0 and 1 alone (R227). -/
def State.slotWrites (s : State) (i old img : Nat) : State :=
  let n := if old = 0 ∧ recOut img = true then 2 else 4
  ((List.range n).filter (fun k => fld old (256 * k) 256 ≠ fld img (256 * k) 256)).foldl
    (fun s k => s.fsuWrite (i / 2) (slotBurst i k) (.slot i k old)) s

/-- Write an image at a place; the write of a slot whose pseudo-channel does not serve ends with MEM_FROZEN, and nothing changes (R404). -/
def State.setHome (s : State) (p img : Nat) : State :=
  if p < stashBase then
    if s.pcServes (bucketPc (p / 2)) = false then s
    else ({ s with fsu := { s.fsu with slots := tput p img s.fsu.slots } }).slotWrites p ((tfind s.fsu.slots p).getD 0) img
  else
    let t : State := { s with fsu := { s.fsu with stash := tput (p - stashBase) img s.fsu.stash } }
    if s.fsu.stash.length < 896 ∧ t.fsu.stash.length = 896 then t.raise 107 0 else t

/-- A place holds a record of a key. -/
def State.holdsKey (s : State) (key p : Nat) : Bool := (s.homeImg p).any (fun r => recKey r == key)

/-- A move's record is in both places (R229 steps 3 to 5). -/
def State.twice (s : State) (m : Move) : Bool := s.holdsKey m.key m.src && s.holdsKey m.key m.dst

/-- Where a record in the course of a move will live. -/
def State.movesTo (s : State) (key : Nat) : Option Nat :=
  (s.fsu.paths.findSome? (fun p => p.moves.head?.filter (fun m => m.key == key && s.twice m))).map (·.dst)

/-- ALT of a record at a place. -/
def State.altAt (s : State) (key p : Nat) : Bool := decide (p < stashBase) && p / 2 != (s.flowBuckets key).1

/-- Empty a place: VALID, which lies in burst 1 of a slot, is written 0; a slot whose pseudo-channel does not serve stays as it is (R404). -/
def State.clearHome (s : State) (p : Nat) : State :=
  if p < stashBase then
    match tfind s.fsu.slots p with
    | none => s
    | some r =>
      if s.pcServes (bucketPc (p / 2)) = false then s
      else ({ s with fsu := { s.fsu with slots := tdel p s.fsu.slots } }).fsuWrite (p / 2) (slotBurst p 1) (.slot p 1 r)
  else { s with fsu := { s.fsu with stash := tdel (p - stashBase) s.fsu.stash } }

/-- The bucket of a slot lies in a pseudo-channel that serves; stash places always can be used. -/
def State.placeServes (s : State) (p : Nat) : Bool := decide (stashBase ≤ p) || s.pcServes (bucketPc (p / 2))

/-- The slots of both buckets of a key. -/
def bucketSlots (b : Nat × Nat) : List Nat := [2 * b.1, 2 * b.1 + 1, 2 * b.2, 2 * b.2 + 1]

/-- The stash place of a key. -/
def State.stashFind (s : State) (key : Nat) : Option Nat := (s.fsu.stash.find? (fun p => recKey p.2 = key)).map (fun p => stashBase + p.1)

/-- The places that hold a copy of a record, two of them in the course of a move (R217, R229): the stash, B1, B2. -/
def State.copies (s : State) (key : Nat) : List Nat :=
  (s.stashFind key).toList ++ (bucketSlots (s.flowBuckets key)).filter (fun i => match tfind s.fsu.slots i with
    | some r => recKey r == key
    | none => false)

/-- The home of a key: the stash, the copy in B1, the copy in B2. -/
def State.homeOf (s : State) (key : Nat) : Option Nat := (s.copies key).head?

/-- R219: the locator bit of a bucket. -/
def State.locator (s : State) (b : Nat) : Bool :=
  tget 0 s.fsu.bktAlt b != 0 || s.pcRetired (bucketPc b) || s.fsu.locBad.contains (b / 64)

/-- R220: BKT_ALT of a bucket takes a value, in the cache line of its slot 0 where there is one, else by a write of that slot's burst 1, which
changes nothing where its pseudo-channel does not serve (R404). -/
def State.setAlt (s : State) (b n : Nat) : State :=
  let old := tget 0 s.fsu.bktAlt b
  let t : State := { s with fsu := { s.fsu with bktAlt := tset 0 s.fsu.bktAlt b n } }
  let inLine := match tfind s.fsu.slots (2 * b) with
    | some r => (tfind s.fsu.lines (recKey r)).any (fun l => decide (l.st ≠ .absent))
    | none => false
  if n = old ∨ inLine = true then t
  else if s.pcServes (bucketPc b) then t.fsuWrite b (slotBurst (2 * b) 1) (.alt b old)
  else s

/-- R220: BKT_ALT counts one more. -/
def State.bktInc (s : State) (b : Nat) : State := s.setAlt b (min (tget 0 s.fsu.bktAlt b + 1) 255)

/-- R220: BKT_ALT counts one less; a saturated count stays. -/
def State.bktDec (s : State) (b : Nat) : State :=
  let n := tget 0 s.fsu.bktAlt b
  s.setAlt b (if n = 255 then 255 else n - 1)

/-! ## Locks (R237, R238) -/

/-- The keys of the records that a target names (R238). -/
def State.targetKeys (s : State) : LockTarget → List Nat
  | .key k => [k]
  | .slot n => ((tfind s.fsu.slots n).map recKey).toList
  | .bucket b => ((tfind s.fsu.slots (2 * b)).map recKey).toList ++ ((tfind s.fsu.slots (2 * b + 1)).map recKey).toList

/-- Two targets cover the same record (R238). -/
def State.overlap (s : State) (a b : LockTarget) : Bool := (s.targetKeys a).any (fun k => (s.targetKeys b).contains k)

/-- A record is covered by a lock, held or pending (R192). -/
def State.flowLocked (s : State) (key : Nat) : Bool := s.fsu.locks.any (fun l => (s.targetKeys l.target).contains key)

/-- A slot is kept from inserts and moves by a slot or bucket lock (R227, R228). -/
def State.slotLocked (s : State) (i : Nat) : Bool :=
  s.fsu.locks.any (fun l => match l.target with
    | .slot n => n == i
    | .bucket b => b == i / 2
    | .key _ => false)

/-- The flow cache holds a record. -/
def State.cached (s : State) (key : Nat) : Bool := (tfind s.fsu.lines key).any (fun l => decide (l.st ≠ .absent))

/-- An image as software reads it: LOCK, and BKT_ALT in slot 0 of a bucket, which reads 0 in the flow cache (R210, R237). -/
def State.recImage (s : State) (p img : Nat) : Nat :=
  let r := setFld img 485 1 (b2n (s.flowLocked (recKey img)))
  if p < stashBase ∧ p % 2 = 0 ∧ s.cached (recKey img) = false then setFld r 504 8 (tget 0 s.fsu.bktAlt (p / 2)) else r

/-! ## Open leaps as the FSU sees them -/

/-- An open leap binds a record (R169). -/
def State.keyBound (s : State) (key : Nat) : Bool :=
  s.sk.threads.any (fun t => !t.2.leap.abandoned && t.2.leap.handles.any (fun h => h.2.key == key))

/-- The lowest open LSN (R6 on 48 bits). -/
def State.oldestLsn (s : State) : Option Nat :=
  s.cu.reserved.foldl (fun o l =>
    match o with
    | none => some l
    | some x => if later 48 x l then some l else some x) none

/-- An open leap claims a hash pair. -/
def State.claimed (s : State) (h : Nat × Nat) : Bool := s.cu.claims.any (fun c => c.2.1 == h.1 && c.2.2 == h.2)

/-! ## The flow cache (R223 to R225) -/

/-- A line. -/
def State.line (s : State) (key : Nat) : Option Line := tfind s.fsu.lines key

/-- Replace a line. -/
def State.setLine (s : State) (key : Nat) (l : Line) : State := { s with fsu := { s.fsu with lines := tput key l s.fsu.lines } }

/-- Remove a line. -/
def State.dropLine (s : State) (key : Nat) : State := { s with fsu := { s.fsu with lines := tdel key s.fsu.lines } }

/-- A line is used. -/
def State.touchLine (s : State) (key : Nat) : State :=
  match s.line key with
  | none => s
  | some l =>
    let t := s.setLine key { l with used := s.fsu.useClock }
    { t with fsu := { t.fsu with useClock := s.fsu.useClock + 1 } }

/-- R224: a line is evictable. -/
def State.evictable (s : State) (key : Nat) (l : Line) : Bool :=
  !s.keyBound key && (match l.lastLsn, s.oldestLsn with
    | some x, some o => !later 48 x o
    | _, _ => true)

/-- The set of a key (R223). -/
def State.cacheSet (s : State) (key : Nat) : Nat := (s.flowHash key).1 % 22528

/-- Every copy of a record takes an image, each with its own ALT, so that copies stay identical during a move (R229). -/
def State.putRec (s : State) (key home img : Nat) : State :=
  (home :: (s.copies key).filter (fun p => p != home && s.placeServes p)).foldl
    (fun s p => s.setHome p (setFld img 486 1 (b2n (s.altAt key p)))) s

/-- R225, R244: a line leaves the cache; a write-back that finds its pseudo-channel frozen loses the record, whose stale home is deleted
under R226 after a thaw. -/
def State.evict (s : State) (key : Nat) (l : Line) : State :=
  let t := s.dropLine key
  match l.st with
  | .absent => t
  | _ => if s.placeServes l.home then t.putRec key l.home (setOut l.img false) else t.bump Objs.rec_lost

/-- R244: a DIRTY line that an open leap binds and that cannot be written back is discarded; its home stays. -/
def State.loseLine (s : State) (key : Nat) (l : Line) : State :=
  let t := if s.keyBound key then s.setLine key { l with st := .absent, img := 0, home := 0, gen := (l.gen + 1) % 256 } else s.dropLine key
  t.bump Objs.rec_lost

/-- The order in which R224 takes victims: ABSENT, CLEAN, DIRTY. -/
def lineRank (l : Line) : Nat :=
  match l.st with
  | .absent => 0
  | .clean => 1
  | .dirty => 2

/-- The victim among evictable lines. -/
def pickVictim : List (Nat × Line) → Option (Nat × Line)
  | [] => none
  | x :: rest =>
    match pickVictim rest with
    | none => some x
    | some y =>
      if lineRank x.2 < lineRank y.2 ∨ (lineRank x.2 = lineRank y.2 ∧ x.2.used < y.2.used) then some x else some y

/-- R224: a line is allocated, after an eviction where its set is full, else as an overflow line; none while all are full. -/
def State.allocLine (s : State) (key : Nat) (l : Line) : Option State :=
  let mine := s.fsu.lines.filter (fun p => !p.2.overflow && s.cacheSet p.1 == s.cacheSet key)
  let put := fun (t : State) (o : Bool) => (t.setLine key { l with overflow := o }).touchLine key
  if mine.length < 16 then some (put s false)
  else match pickVictim (mine.filter (fun p => s.evictable p.1 p.2)) with
    | some (k, v) => some (put (s.evict k v) false)
    | none =>
      if (s.fsu.lines.filter (fun p => p.2.overflow)).length < 256 then some (put s true) else none

/-- A fresh line. -/
def Line.fresh (st : LineSt) (img home : Nat) : Line := ⟨st, img, List.replicate 8 0, 0, none, home, 0, 0, false⟩

/-- The current image of a record at its home (R237). -/
def State.curImg (s : State) (key home : Nat) : Nat :=
  match s.line key with
  | some l => if l.st = .absent then (s.homeImg home).getD 0 else l.img
  | none => (s.homeImg home).getD 0

/-! ## Deletion -/

/-- A copy of a record leaves its place (R220); one that cannot be cleared stays (R404). -/
def State.dropCopy (s : State) (key p : Nat) : State :=
  match s.homeImg p with
  | none => s
  | some r =>
    if recKey r = key ∧ s.placeServes p = true then
      let t := s.clearHome p
      if p < stashBase ∧ recAlt r = true then t.bktDec (s.flowBuckets key).1 else t
    else s

/-- A record is deleted wherever it lives; a line that an open leap binds stays as ABSENT with its generation bumped
(R232), any other line goes. -/
def State.delRec (s : State) (key : Nat) : State :=
  let t := (bucketSlots (s.flowBuckets key)).foldl (fun s p => s.dropCopy key p) s
  let t := match s.stashFind key with
    | some p => t.clearHome p
    | none => t
  let t : State := { t with fsu := { t.fsu with old := t.fsu.old.filter (· ≠ key) } }
  match t.line key with
  | none => t
  | some l =>
    if t.keyBound key then t.setLine key { l with st := .absent, img := 0, home := 0, gen := (l.gen + 1) % 256 }
    else t.dropLine key

/-- R226: a stale record. -/
def State.delStale (s : State) (key : Nat) : State := (((s.delRec key).bump Objs.rec_stale).bump Objs.rec_lost).raise 108 0

/-- R226: the FSU reads a record whose home says CHECKED_OUT while the key is neither in the flow cache nor in a fill. -/
def State.stale (s : State) (key : Nat) : Bool :=
  (s.line key).isNone && !s.fsu.fills.any (fun f => f.key == key) &&
    (s.homeOf key).any (fun p => s.placeServes p && recOut ((s.homeImg p).getD 0))

/-- A stale record goes as it is read (R226). -/
def State.purgeKey (s : State) (key : Nat) : State := if s.stale key then s.delStale key else s

/-- The buckets, B1 and B2, that a lookup which does not fill the cache reads in HBM (R221). -/
def State.lookupReads (s : State) (key : Nat) : Bool × Bool :=
  let (b1, b2) := s.flowBuckets key
  let void1 := s.pcRetired (bucketPc b1)
  let void2 := s.pcRetired (bucketPc b2)
  if s.fsu.fills.any (fun f => f.key == key) || (s.stashFind key).isSome || (void1 && void2) then (false, false)
  else
    let full := (tfind s.fsu.slots (2 * b1)).isSome && (tfind s.fsu.slots (2 * b1 + 1)).isSome
    let first := s.holdsKey key (2 * b1) || s.holdsKey key (2 * b1 + 1)
    (!void1, !void2 && (void1 || s.locator b1 || (full && !first)))

/-- A lookup that does not fill the cache counts as R221 reads (R246), and its reads take their places in the queues (R396). -/
def State.countLookup (s : State) (key : Nat) : State :=
  match s.line key with
  | some l => if l.st = .absent then s else s.bump Objs.cache_hits
  | none =>
    let b := s.flowBuckets key
    let (r1, r2) := s.lookupReads key
    let s1 := if r1 || r2 then s.bump Objs.cache_misses else s
    let s2 := if r1 then s1.bgRead b.1 else s1
    if r2 then (s2.bgRead b.2).bump Objs.second_reads else s2

/-- The buckets that a command on a slot or a bucket reads (R396). -/
def State.readTarget (s : State) : LockTarget → State
  | .key _ => s
  | .slot n => s.bgRead (n / 2)
  | .bucket b => s.bgRead b

/-- The reads with which the FSU serves a software command on a target: a key is looked up (R221), and stale records go (R226). -/
def State.fsuSees (s : State) (t : LockTarget) : State :=
  match t with
  | .key k => (s.countLookup k).purgeKey k
  | _ => (s.targetKeys t).foldl State.purgeKey (s.readTarget t)

/-- LAST_SEEN of a key has been written: R375 no longer covers it. -/
def State.recFresh (s : State) (key : Nat) : State := { s with fsu := { s.fsu with old := s.fsu.old.filter (· ≠ key) } }

/-! ## Placing (R227) -/

/-- The VALID records in slots and stash; a record that moves has two copies until the move ends. -/
def State.recordsUsed (s : State) : Nat :=
  s.fsu.slots.length + s.fsu.stash.length - (s.fsu.paths.filter (fun p => p.moves.head?.any s.twice)).length

/-- A slot can take a record. -/
def State.slotFree (s : State) (i : Nat) : Bool :=
  (tfind s.fsu.slots i).isNone && !s.fsu.reserved.contains i && !s.slotLocked i && s.placeServes i

/-- R227: the records held and the inserts reserved have reached the limit. -/
def State.atLimit (s : State) : Bool := decide (2 ^ 27 ≤ s.recordsUsed + s.fsu.reserved.length)

/-- R227: the place for a new record. -/
def State.freePlace (s : State) (key : Nat) : Option Nat :=
  if s.atLimit then none
  else match (bucketSlots (s.flowBuckets key)).find? s.slotFree with
    | some i => some i
    | none => ((List.range 1024).find? (fun i => (tfind s.fsu.stash i).isNone && !s.fsu.reserved.contains (stashBase + i))).map (stashBase + ·)

/-- Both buckets of a key are void (R244). -/
def State.bothVoid (s : State) (key : Nat) : Bool :=
  let b := s.flowBuckets key
  s.pcRetired (bucketPc b.1) && s.pcRetired (bucketPc b.2)

/-- A new record is written at its place, after R220 when that is in B2. -/
def State.placeRec (s : State) (key p img : Nat) : State :=
  let alt := s.altAt key p
  let t := if alt then s.bktInc (s.flowBuckets key).1 else s
  t.setHome p (setFld img 486 1 (b2n alt))

/-! ## Lookups (R221, R222) -/

/-- A bind that waits for a key gets its answer (R174): the result, the generation, and the commits seen. -/
def bindAnswer (key : Nat) (st : BindSt) (code gen seen : Nat) (t : Thread) : Thread :=
  let mine : Nat → Bool := fun h => match tfind t.leap.handles h with
    | some x => x.key == key && decide (x.st = .pending)
    | none => false
  let pend := t.pend.map (fun p => match p.kind with
    | .bind h => if mine h then { p with kind := .value [code] } else p
    | _ => p)
  let handles := t.leap.handles.map (fun p =>
    if p.2.key = key ∧ p.2.st = .pending then (p.1, { p.2 with st := st, gen := gen, seen := seen }) else p)
  { t with pend := pend, leap := { t.leap with handles := handles } }

/-- How many binds wait for a key. -/
def State.bindsWaiting (s : State) (key : Nat) : Nat :=
  s.sk.threads.foldl (fun n t => n + (t.2.leap.handles.filter (fun h => h.2.key = key && decide (h.2.st = .pending))).length) 0

/-- Every bind that waits for a key gets its answer. -/
def State.answerBinds (s : State) (key : Nat) (st : BindSt) (code gen seen : Nat) : State :=
  { s with sk := { s.sk with threads := s.sk.threads.map (fun p => (p.1, bindAnswer key st code gen seen p.2)) } }

/-- A line answers the binds that wait for its key. -/
def State.answerFromLine (s : State) (key : Nat) : State :=
  match s.line key with
  | none => s
  | some l =>
    let s := s.touchLine key
    if l.st = .absent then s.answerBinds key .absent 1 l.gen l.commits else s.answerBinds key .found 0 l.gen l.commits

/-- R507: a bind that ends UNAVAILABLE acts on the MEM_FROZEN of a pseudo-channel: that of a bucket whose read met it, else of bucket B1. -/
def State.unavailCause (s : State) (key : Nat) (frozen : List Nat) : Option (Nat × Nat) :=
  some (8, bucketPc (frozen.headD (s.flowBuckets key).1))

/-- Binds end UNAVAILABLE (R221); `frozen` holds the buckets whose read met MEM_FROZEN. -/
def State.answerUnavail (s : State) (key : Nat) (frozen : List Nat) : State :=
  let n := s.bindsWaiting key
  let t := s.answerBinds key .unavailable 2 0 0
  (List.range n).foldl (fun s _ => (s.bump Objs.rec_unavailable).raise 109 0 0 (s.unavailCause key frozen)) t

/-- A record found at its home enters the cache, CHECKED_OUT in its home (R225); none while no line is to be had. The home of a record that
moves is already its new slot (R229). -/
def State.checkOut (s : State) (key found : Nat) : Option State :=
  let home := (s.movesTo key).getD found
  let img := setOut ((s.homeImg home).getD 0) true
  (s.allocLine key (Line.fresh .clean img home)).map (fun t => (t.putRec key home img).answerFromLine key)

/-- An ABSENT line for the binds that wait (R223). -/
def State.absentLine (s : State) (key : Nat) : Option State :=
  if s.bindsWaiting key = 0 then some s
  else (s.allocLine key (Line.fresh .absent 0 0)).map (fun t => t.answerFromLine key)

/-- The place where a lookup finds a key (R221): the first of its copies that is in the stash, or in a bucket whose read returned data. -/
def State.homeRead (s : State) (key : Nat) (frozen : List Nat) : Option Nat :=
  (s.copies key).find? (fun p => decide (stashBase ≤ p) || (!frozen.contains (p / 2) && !s.pcRetired (bucketPc (p / 2))))

/-- The answer of a lookup whose reads have returned; none while it waits for a line. -/
def State.fillAnswer (s : State) (f : Fill) : Option State :=
  match s.homeRead f.key f.frozen with
  | some p =>
    if recOut ((s.homeImg p).getD 0) then (s.delStale f.key).absentLine f.key
    else s.checkOut f.key p
  | none =>
    if f.frozen ≠ [] ∨ s.bothVoid f.key = true then some (s.answerUnavail f.key f.frozen) else s.absentLine f.key

/-- A lookup ends, or waits for a line. -/
def State.fillEnd (s : State) (f : Fill) : State :=
  let rest := s.fsu.fills.filter (fun x => x.key ≠ f.key)
  match { s with fsu := { s.fsu with fills := rest } }.fillAnswer f with
  | some t => t
  | none => { s with fsu := { s.fsu with fills := rest ++ [{ f with wait := [], ready := true }] } }

/-- A bucket read is issued (R216, R396); answers its tag. -/
def State.readBucket (s : State) (b : Nat) : Nat × State :=
  let tag := s.fsu.nextTag
  let t : State := { s with fsu := { s.fsu with nextTag := tag + 1, bucketReads := s.fsu.bucketReads ++ [(tag, b)] } }
  (tag, t.hbmReads (bucketPc b) 0 (bucketOff b) tag 8 true)

/-- R221: a lookup that may fill the cache starts; one in flight for the key is joined (R222). -/
def State.startLookup (s : State) (key : Nat) : State :=
  match s.line key with
  | some l => if l.st = .absent then s.answerFromLine key else (s.bump Objs.cache_hits).answerFromLine key
  | none =>
    if s.fsu.fills.any (fun f => f.key = key) then s
    else if (s.stashFind key).isSome then s.fillEnd ⟨key, [], [], true, false⟩
    else
      let (b1, b2) := s.flowBuckets key
      let void1 := s.pcRetired (bucketPc b1)
      let void2 := s.pcRetired (bucketPc b2)
      if void1 && void2 then s.answerUnavail key []
      else
        let s0 := s.bump Objs.cache_misses
        let both := !void2 && (void1 || s.locator b1)
        let (w1, s1) := if void1 then (([] : List Nat), s0) else let (t, x) := s0.readBucket b1; ([t], x)
        let (w2, s2) := if both then let (t, x) := s1.readBucket b2; ([t], x.bump Objs.second_reads) else (([] : List Nat), s1)
        { s2 with fsu := { s2.fsu with fills := s2.fsu.fills ++ [⟨key, w1 ++ w2, [], both, false⟩] } }

/-- Lookups that wait for a line try again. -/
def State.fsuTick (s : State) : State := (s.fsu.fills.filter (·.ready)).foldl (fun s f => s.fillEnd f) s

/-! ## Errors (R244) -/

/-- An uncorrectable error in a line. -/
def State.lineBad (s : State) (key : Nat) : State :=
  match s.line key with
  | none => s
  | some l =>
    let t := s.raise 111 0
    match l.st with
    | .clean =>
      match s.homeImg l.home with
      | some r => if s.placeServes l.home then t.setLine key { l with img := setOut r true, gen := (l.gen + 1) % 256 } else t.delStale key
      | none => t.delStale key
    | _ => t.delStale key

/-- An uncorrectable error in a stash place. -/
def State.stashBad (s : State) (p : Nat) : State :=
  match tfind s.fsu.stash p with
  | none => s
  | some r => ((s.delRec (recKey r)).bump Objs.rec_lost).raise 113 0

/-- R244: what an access to the flow cache, the stash or the locator bits finds; `keys` are those of the handles. -/
def State.fsuEcc (s : State) (keys : List Nat) : FsuEcc → State
  | .good => s
  | .corrected => s.raise 110 0
  | .line h => match keys[h.val]? with
    | some k => s.lineBad k
    | none => s
  | .stash p => s.stashBad p.val
  | .locator w => { s with fsu := { s.fsu with locBad := w.val :: s.fsu.locBad.filter (· ≠ w.val) } }.raise 112 0
  | .rebuilt w => { s with fsu := { s.fsu with locBad := s.fsu.locBad.filter (· ≠ w.val) } }

/-! ## Templates (R212 to R214) -/

/-- The descriptor of a template number under a hue. -/
def State.tmplBody (s : State) (tnum hue : Nat) : Option Nat :=
  (s.fsu.tmpls.find? (fun p => visible p.2.header hue && fld (p.2.body.getD 0 0) 60 4 == tnum)).map (fun p => p.2.body.getD 0 0)

/-- INIT of a descriptor: segments 4 to 7. -/
def tmplInit (d : Nat) : Nat := fld d 64 512

/-- Parameter set `k`. -/
def tmplSet (d k : Nat) : Nat := fld d (576 + 128 * k) 128

end Sys2Proof.Machine
end

