-- ==== Sys2Proof/Machine/LockOps.lean ====
section
/-! DEFINITION. What the release of a lock does to leaps: threads and their handles, the statuses of LINS and LDEL, the acceptance of
write-class operations and of those that a lock kept waiting (R178, R189, R190, R192). -/

namespace Sys2Proof.Machine

/-! ## Threads and handles -/

/-- A thread. -/
def State.th (s : State) (t : Nat) : Thread := tget Thread.init s.sk.threads t

/-- Replace a thread. -/
def State.setTh (s : State) (t : Nat) (x : Thread) : State :=
  { s with sk := { s.sk with threads := tset Thread.init s.sk.threads t x } }

/-- Change a thread. -/
def State.modTh (s : State) (t : Nat) (f : Thread → Thread) : State := s.setTh t (f (s.th t))

/-- A handle of a thread. -/
def Thread.handle (x : Thread) (h : Nat) : Option Handle := tfind x.leap.handles h

/-- R174: every handle bound to a record changes together. -/
def setHandles (key : Nat) (f : Handle → Handle) (l : Leap) : Leap :=
  { l with handles := l.handles.map (fun p => if p.2.key = key then (p.1, f p.2) else p) }

/-! ## Write-class operations -/

/-- R189: the status of an LINS, the reserved place, and its counters. -/
def insertStatus (s : State) (x : Thread) (h : Handle) : Nat × Option Nat × State :=
  if h.st = .found ∨ h.ins.isSome = true then (0x11, none, s)
  else if s.rd Objs.learn_mode (fld x.md 32 8) = 1 then (0x15, none, s)
  else if s.atLimit then (0x13, none, (s.bump Objs.ins_full).raise 105 0)
  else if s.bothVoid h.key then (0x14, none, (s.bump Objs.rec_unavailable).raise 109 0 0 (s.unavailCause h.key []))
  else match s.freePlace h.key with
    | none => (0x13, none, (s.bump Objs.ins_full).raise 105 0)
    | some p => (0x10, some p, { s with fsu := { s.fsu with reserved := s.fsu.reserved ++ [p] } })

/-- A write-class operation that no lock keeps is accepted by the FSU; `data` of an LINS or LDEL is its result register and
`mimm` of an LINS its template. -/
def acceptOp (s : State) (t : Nat) (o : LeapOp) : State :=
  let x := s.th t
  let y := { x with leap := { x.leap with used := true, ops := x.leap.ops ++ [o] }, lockWait := none }
  match x.handle o.hnd with
  | none => s
  | some h =>
    match o.kind with
    | .lins =>
      let (st, place, s1) := insertStatus s x h
      let f : Handle → Handle := fun g =>
        if st = 0x10 then { g with ins := place.map (fun p => (fld o.mimm 0 4, p)) }
        else if st = 0x15 then { g with notified := some (fld o.mimm 0 4) } else g
      let leap := setHandles h.key f y.leap
      let leap1 := { leap with norec := leap.norec || st == 0x13 || st == 0x14 }
      s1.setTh t { y with leap := leap1, pend := y.pend ++ [⟨o.data, 1, .value [st]⟩] }
    | .ldel =>
      let st := if h.st = .found then 0x10 else 0x12
      let g := { h with dead := true, del := decide (h.st = .found) }
      s.setTh t { y with leap := { y.leap with handles := tput o.hnd g y.leap.handles }, pend := y.pend ++ [⟨o.data, 1, .value [st]⟩] }
    | _ => s.setTh t y

/-- A waiting operation is accepted once the lock has cleared (R192). -/
def State.settleLock (s : State) (t : Nat) : State :=
  let x := s.th t
  match x.lockWait with
  | none => s
  | some (o, _) =>
    match x.handle o.hnd with
    | none => s
    | some h => if s.flowLocked h.key then s else acceptOp s t o

/-- R192: the operations that wait and that no lock keeps any longer are accepted. -/
def State.settleLocks (s : State) : State :=
  (s.sk.threads.filter (fun t => t.2.lockWait.isSome)).foldl (fun s t => s.settleLock t.1) s

/-! ## The end of locks -/

/-- The locks of an owner leave the lock table; a held one counts, a pending one is withdrawn (R432). An insert
in execution completes its effects (R439). The operations that waited for them are accepted (R192). -/
def State.dropLocks (s : State) (o : Owner) : State :=
  let f := { s.fsu with locks := s.fsu.locks.filter (fun l => (l.ins.isSome && !l.granted) || decide (l.owner ≠ o)),
                        broken := s.fsu.broken.filter (fun b => decide (b.1 ≠ o)) }
  let t := { s.tbl with macLocks := s.tbl.macLocks.filter (fun p => decide (p.2 ≠ o)) }
  State.settleLocks { s with fsu := f, tbl := t }

end Sys2Proof.Machine
end

