-- ==== Sys2Proof/Machine/Flags.lean ====
section
/-! DEFINITION. The four flags of a thread and the test opcode (R141, R142). The flags are one number: Z, N, C, V in bits 3
to 0. -/

namespace Sys2Proof.Machine

/-- The flags as one number. -/
def mkFlags (z n c v : Bool) : Nat := 8 * b2n z + 4 * b2n n + 2 * b2n c + b2n v

/-- Z. -/
def flagZ (f : Nat) : Bool := bit f 3

/-- Z and N of a value, with C and V given. -/
def valFlags (x : Nat) (c v : Bool) : Nat := mkFlags (x == 0) (bit x 63) c v

/-- Carry of A + B. -/
def addCarry (a b : Nat) : Bool := decide (2 ^ 64 ≤ a + b)

/-- Signed overflow of A + B. -/
def addOver (a b : Nat) : Bool := bit a 63 == bit b 63 && bit (a + b) 63 != bit a 63

/-- Borrow of A − B. -/
def subBorrow (a b : Nat) : Bool := decide (a < b)

/-- A − B modulo 2^64. -/
def sub64 (a b : Nat) : Nat := (a + 2 ^ 64 - b) % 2 ^ 64

/-- Signed overflow of A − B. -/
def subOver (a b : Nat) : Bool := bit a 63 != bit b 63 && bit (sub64 a b) 63 != bit a 63

/-- R141: the flags after ALU operation `op` on A and B with the value computed; NOP, MOV, MOVZ and MOVNZ leave them. -/
def aluFlags (op a b x old : Nat) : Nat :=
  if op < 2 ∨ 0x16 ≤ op then old
  else if op = 2 then valFlags x (addCarry a b) (addOver a b)
  else if op = 3 ∨ op = 0x0F ∨ op = 0x10 then valFlags x (subBorrow a b) (subOver a b)
  else valFlags x false false

/-- R142: TOP after a word, from TST, TOP before, the flags as set by the word, PARSE_FLAGS, STATUS, ANY_MATCH and
FV_VALID. -/
def topAfter (tst top flags pflags status anyMatch fvValid : Nat) : Nat :=
  match tst with
  | 1 => flags
  | 2 => fld pflags 8 8
  | 3 => fld pflags 0 8
  | 4 => (status % 8) * 32 + (anyMatch % 2) * 16 + fvValid % 16
  | 5 => (top * 2 + b2n (flagZ flags)) % 256
  | 6 => 0
  | _ => top

end Sys2Proof.Machine
end

