-- ==== Sys2Proof/Machine/Operands.lean ====
section
/-! DEFINITION. The operands of a microword, its ALU operation and its edit, as functions of a thread (R138 to R145). -/

namespace Sys2Proof.Machine

/-! ## Operands (R138, R139) -/

/-- The parse result vector of the thread's packet. -/
def Thread.prv (t : Thread) : Nat := (t.job.map (fun j => j.pkt.prv)).getD 0

/-- The pattern result of the thread's packet. -/
def Thread.pat (t : Thread) : Nat := (t.job.map (fun j => j.pkt.pat)).getD 0

/-- A general register. -/
def Thread.reg (t : Thread) (r : Nat) : Nat := t.g.getD r 0

/-- Write a general register. -/
def Thread.setReg (t : Thread) (r v : Nat) : Thread := { t with g := t.g.set r (v % 2 ^ 64) }

/-- The operand of a selector. -/
def Thread.sel (t : Thread) (k : Nat) : Nat :=
  if k < 32 then t.reg k
  else if k < 48 then beNat (slice t.hw (8 * (k - 32)) 8)
  else if k < 56 then fld t.md (64 * (k - 48)) 64
  else if k < 58 then fld t.prv (64 * (k - 56)) 64
  else if k < 72 then fld t.pat (64 * (k - 58)) 64
  else if k = 72 then t.top
  else 0

/-- The bits of metadata word `k` that an ALU write changes: the RW fields of R18. -/
def mdMask (k : Nat) : Nat :=
  match k with
  | 0 => 0xFF * 2 ^ 40
  | 3 => 0xFFFF * 2 ^ 48
  | 4 => 0xF + (2 ^ 41 - 1) * 2 ^ 8
  | 5 => (2 ^ 24 - 1) + 0xFFFF * 2 ^ 48
  | 6 => 2 ^ 64 - 1
  | _ => 0

/-- `new` where the mask is 1, `old` elsewhere. -/
def mergeBits (mask new old : Nat) : Nat := Nat.xor old (Nat.land (Nat.xor old new) mask)

/-- R139: an ALU write of a destination operand. -/
def Thread.setSel (t : Thread) (k v : Nat) : Thread :=
  if k < 32 then t.setReg k v
  else if 48 ≤ k ∧ k < 56 then
    let w := k - 48
    { t with md := setFld t.md (64 * w) 64 (mergeBits (mdMask w) (v % 2 ^ 64) (fld t.md (64 * w) 64)) }
  else t

/-- A selector that a DST may name. -/
def dstOk (k : Nat) : Bool := decide (k < 32) || (decide (48 ≤ k) && decide (k < 56))

/-! ## ALU operations (R140) -/

/-- The position of the lowest 1 bit; 64 when there is none. -/
def ffs : Nat → Nat → Nat
  | 0, _ => 64
  | n + 1, a => if bit a (64 - (n + 1)) then 64 - (n + 1) else ffs n a

/-- `x` of `w` bits sign-extended to 64. -/
def sext64 (w x : Nat) : Nat := ofSigned 64 (toSigned w x)

/-- The value that ALU operation `op` computes from A, B, IMM and Z; that of CMP and TSTB is not written. -/
def aluVal (op a b imm : Nat) : Nat :=
  match op with
  | 0x01 => b
  | 0x02 => (a + b) % 2 ^ 64
  | 0x03 => sub64 a b
  | 0x04 => Nat.land a b
  | 0x05 => Nat.lor a b
  | 0x06 => Nat.xor a b
  | 0x07 => Nat.land a (Nat.xor b (2 ^ 64 - 1))
  | 0x08 => a * 2 ^ (b % 64) % 2 ^ 64
  | 0x09 => a / 2 ^ (b % 64)
  | 0x0A => ofSigned 64 (toSigned 64 a / (2 : Int) ^ (b % 64))
  | 0x0B => fld a (imm % 64) (fld imm 6 6 + 1)
  | 0x0C => setFld a (imm % 64) (fld imm 6 6 + 1) b
  | 0x0D => min a b
  | 0x0E => max a b
  | 0x0F => sext64 (imm % 64 + 1) (sub64 a b)
  | 0x10 => sub64 a b
  | 0x11 => Nat.land a b
  | 0x12 => (toSigned 64 (sub64 a b)).natAbs % 2 ^ 64
  | 0x13 => popCount 64 a
  | 0x14 => ffs 64 a
  | 0x15 => beNat (leBytes (2 * 2 ^ (imm % 4)) a)
  | 0x16 => b
  | 0x17 => b
  | _ => 0

/-- The operation writes DST, given Z. -/
def aluWrites (op : Nat) (z : Bool) : Bool :=
  match op with
  | 0x00 => false
  | 0x10 => false
  | 0x11 => false
  | 0x16 => z
  | 0x17 => !z
  | _ => true

/-- The ALU step of a word: operands from `t` (as before the word), the value computed and the thread with DST and the flags
written. -/
def aluStep (t : Thread) (op dst a b : Nat) (bImm : Bool) (imm : Nat) : Thread :=
  let x := t.sel a
  let y := if bImm then imm else t.sel b
  let v := aluVal op x y imm
  let t1 := if aluWrites op (flagZ t.flags) then t.setSel dst v else t
  { t1 with flags := aluFlags op x y v t.flags }

/-! ## Edits (R145) -/

/-- Replace a field of the metadata block. -/
def Thread.setMd (t : Thread) (lo w v : Nat) : Thread := { t with md := setFld t.md lo w v }

/-- The flag bits DROP, MARK, PUNT, MIRROR, EXPRESS, LATE_OK of the metadata, from bit 0 up. -/
def verdictBits (md : Nat) : Nat :=
  b2n (bit md 40) + 2 * b2n (bit md 41) + 4 * b2n (bit md 42) + 8 * b2n (bit md 43) + 16 * b2n (bit md 44) + 32 * b2n (bit md 45)

/-- The six verdict flags written from bits 0 to 5 of a mask, in which DROP, MARK, PUNT, MIRROR, EXPRESS and LATE_OK lie in
bits 40 to 45 of R18. -/
def Thread.setVerdict (t : Thread) (v : Nat) : Thread := t.setMd 40 6 v

/-- The edit of a word: operands from `old` (the thread before the word), the effect on `t`. -/
def editStep (old t : Thread) (eop src imm : Nat) : Thread :=
  let x := old.sel src
  let taken := if bit imm 19 then x else fld imm 0 16
  match eop with
  | 0x01 =>
    let n := fld imm 7 3 + 1
    { t with hw := splice t.hw (fld imm 0 7) (beBytes n x) }
  | 0x02 => (t.setMd 240 16 taken).setMd 259 1 (fld imm 16 1)
  | 0x03 => t.setMd 256 3 (fld imm 0 3)
  | 0x04 =>
    let m := if bit imm 19 then x else imm
    let set := Nat.lor (verdictBits t.md) (fld m 0 6)
    t.setVerdict (Nat.land set (Nat.xor (fld m 6 6) 63))
  | 0x05 => t.setMd 368 16 taken
  | 0x06 => (t.setMd 264 40 x).setMd 304 1 1
  | 0x07 => t.setMd 336 8 (fld imm 0 8)
  | 0x08 => t.setMd 46 2 (fld imm 0 2)
  | 0x09 => { t with postcard := some (fld imm 0 6) }
  | 0x0A => t.setMd 384 64 x
  | _ => t

end Sys2Proof.Machine
end

