-- ==== Sys2Proof/Machine/Microword.lean ====
section
/-! DEFINITION. The microword and the dispatch entry (R136, R137, R149): their fields, parity, reserved encodings, and the
registers that a word reads and writes. -/

namespace Sys2Proof.Machine

/-! ## Fields (R136) -/

/-- NXT. -/
def mwNxt (w : Nat) : Nat := fld w 126 2
/-- DB. -/
def mwDb (w : Nat) : Nat := fld w 124 2
/-- OPC_SRC. -/
def mwOpcSrc (w : Nat) : Nat := fld w 122 2
/-- OPC_REG. -/
def mwOpcReg (w : Nat) : Nat := fld w 117 5
/-- TST. -/
def mwTst (w : Nat) : Nat := fld w 113 4
/-- ALU_OP. -/
def mwAlu (w : Nat) : Nat := fld w 106 6
/-- DST. -/
def mwDst (w : Nat) : Nat := fld w 99 7
/-- SRC_A. -/
def mwA (w : Nat) : Nat := fld w 92 7
/-- SRC_B. -/
def mwB (w : Nat) : Nat := fld w 85 7
/-- B_IMM. -/
def mwBImm (w : Nat) : Bool := bit w 84
/-- IMM. -/
def mwImm (w : Nat) : Nat := fld w 68 16
/-- MOP. -/
def mwMop (w : Nat) : Nat := fld w 62 6
/-- MDST. -/
def mwMdst (w : Nat) : Nat := fld w 57 5
/-- MADR. -/
def mwMadr (w : Nat) : Nat := fld w 52 5
/-- HND. -/
def mwHnd (w : Nat) : Nat := fld w 50 2
/-- SEG. -/
def mwSeg (w : Nat) : Nat := fld w 47 3
/-- MSRC. -/
def mwMsrc (w : Nat) : Nat := fld w 42 5
/-- MIMM. -/
def mwMimm (w : Nat) : Nat := fld w 32 10
/-- EOP. -/
def mwEop (w : Nat) : Nat := fld w 27 5
/-- ESRC. -/
def mwEsrc (w : Nat) : Nat := fld w 20 7
/-- EIMM. -/
def mwEimm (w : Nat) : Nat := fld w 0 20

/-- A word that holds one ALU operation alone. -/
def aluWord (op : Nat) (x : AluArgs) : Nat :=
  op * 2 ^ 106 + x.dst.val * 2 ^ 99 + x.a.val * 2 ^ 92 + x.b.val * 2 ^ 85 + b2n x.bImm * 2 ^ 84 + x.imm.toNat * 2 ^ 68

/-- A word that holds one memory or leap operation alone. -/
def memWord (op : Nat) (x : MemArgs) : Nat :=
  op * 2 ^ 62 + x.mdst.val * 2 ^ 57 + x.madr.val * 2 ^ 52 + x.hnd.val * 2 ^ 50 + x.seg.val * 2 ^ 47 + x.msrc.val * 2 ^ 42 +
    x.mimm.toNat * 2 ^ 32

/-- A word that holds one edit alone. -/
def editWord (op : Nat) (x : EditArgs) : Nat := op * 2 ^ 27 + x.src.val * 2 ^ 20 + x.imm.toNat

/-! ## Parity (R137, R149) -/

/-- Parity bits of the `n` 16-bit groups of `w`: bit k makes group k and itself even. -/
def parityBits : Nat → Nat → Nat
  | 0, _ => 0
  | n + 1, w => popCount 16 w % 2 + 2 * parityBits n (w / 65536)

/-- A 128-bit microword with PAR. -/
def withPar (w : Nat) : Nat := w % 2 ^ 128 + parityBits 8 w * 2 ^ 128

/-- PAR of a stored microword holds. -/
def parOk (w : Nat) : Bool := fld w 128 8 == parityBits 8 (fld w 0 128)

/-- A dispatch entry of 48 bits with its parity bits. -/
def entryPar (e : Nat) : Nat := e % 2 ^ 48 + parityBits 3 e * 2 ^ 48

/-- The parity of a stored dispatch entry holds. -/
def entryParOk (e : Nat) : Bool := fld e 48 3 == parityBits 3 (fld e 0 48)

/-- An entry of banks 1 to 3: both halves equal. -/
def entryOf (valid : Bool) (target : Nat) : Nat :=
  entryPar (b2n valid * 2 ^ 47 + b2n valid * 2 ^ 46 + target % 2 ^ 14 * 2 ^ 32 + target % 2 ^ 14 * 2 ^ 16)

/-- R150: the half of an entry that hue `h` takes: valid, and TARGET. -/
def entryHalf (e h : Nat) : Bool × Nat :=
  if 0 ≤ wrapDiff 16 h (fld e 0 16) then (bit e 47, fld e 32 14) else (bit e 46, fld e 16 14)

/-! ## Registers (R116, R143) -/

/-- The ALU operation reads operand A. -/
def aluReadsA (op : Nat) : Bool := !(op ∈ [0x00, 0x01, 0x16, 0x17])

/-- The ALU operation reads operand B. -/
def aluReadsB (op : Nat) : Bool := !(op ∈ [0x00, 0x0B, 0x13, 0x14, 0x15])

/-- The ALU operation may write DST. -/
def aluHasDst (op : Nat) : Bool := !(op ∈ [0x00, 0x10, 0x11])

/-- Registers a memory or leap operation reads from MADR on, whether it reads MSRC, and registers it writes from MDST on. -/
def memRegs (op mimm : Nat) : Nat × Bool × Nat :=
  match op with
  | 0x01 => (1, false, 1)
  | 0x02 => (1, true, 0)
  | 0x03 => (1, false, 1)
  | 0x04 => (mimm % 8 + 1, false, 1)
  | 0x08 => (1, false, 1)
  | 0x09 => (1, false, 2)
  | 0x0A => (1, false, 1)
  | 0x0B => (2, false, 2)
  | 0x0C => (1, false, 1)
  | 0x0D => (1, false, 1)
  | 0x0E => (1, false, 0)
  | 0x10 => if bit mimm 9 then (0, false, 1) else (6, false, 1)
  | 0x11 => (0, false, 2)
  | 0x1C => (0, false, 1)
  | 0x1D => (0, false, 1)
  | 0x1F => (0, false, 0)
  | 0x00 => (0, false, 0)
  | _ => (0, true, 0)

/-- The memory and leap operation codes of R143. -/
def mopCodes : List Nat :=
  [0x00, 0x01, 0x02, 0x03, 0x04, 0x08, 0x09, 0x0A, 0x0B, 0x0C, 0x0D, 0x0E, 0x10, 0x11, 0x12, 0x13, 0x14, 0x15, 0x16, 0x18,
   0x19, 0x1A, 0x1C, 0x1D, 0x1F]

/-- The edit reads ESRC. -/
def editReads (eop imm : Nat) : Bool :=
  eop == 0x01 || eop == 0x06 || eop == 0x0A || (bit imm 19 && (eop == 0x02 || eop == 0x04 || eop == 0x05))

/-- A selector as a list of general registers. -/
def gReg (k : Nat) : List Nat := if k < 32 then [k] else []

/-- The general registers that a word reads or writes. -/
def wordRegs (w : Nat) : List Nat :=
  let op := mwAlu w
  let (n, src, m) := memRegs (mwMop w) (mwMimm w)
  (if aluReadsA op then gReg (mwA w) else []) ++
  (if aluReadsB op && !mwBImm w then gReg (mwB w) else []) ++
  (if aluHasDst op then gReg (mwDst w) else []) ++
  (if mwNxt w = 1 ∧ mwOpcSrc w = 2 then [mwOpcReg w] else []) ++
  (if editReads (mwEop w) (mwEimm w) then gReg (mwEsrc w) else []) ++
  (List.range n).map (· + mwMadr w) ++ (if src then [mwMsrc w] else []) ++ (List.range m).map (· + mwMdst w)

/-! ## Reserved encodings (R136 to R148) -/

/-- A word with a reserved encoding or a non-zero reserved field. -/
def wordBad (w : Nat) : Bool :=
  let op := mwAlu w
  let imm := mwImm w
  let (n, _, m) := memRegs (mwMop w) (mwMimm w)
  bit w 112 || mwOpcSrc w == 3 || decide (7 ≤ mwTst w) || decide (0x18 ≤ op) ||
  !dstOk (mwDst w) || decide (72 < mwA w) || decide (72 < mwB w) || decide (72 < mwEsrc w) ||
  (decide (op ∈ [0x0B, 0x0C, 0x0F, 0x15]) && mwBImm w) ||
  (op == 0x0C && decide (64 < imm % 64 + fld imm 6 6 + 1)) ||
  (op == 0x15 && imm % 4 == 3) ||
  (mwNxt w == 1 && mwDb w == 0 && mwOpcSrc w != 0) ||
  !(mwMop w ∈ mopCodes) || decide (32 < mwMadr w + n) || decide (32 < mwMdst w + m) ||
  (mwMop w == 0x11 && mwMdst w % 2 == 1) ||
  decide (0x0A < mwEop w) ||
  (mwEop w == 0x01 && decide (128 < fld (mwEimm w) 0 7 + fld (mwEimm w) 7 3 + 1))

end Sys2Proof.Machine
end

