-- ==== Sys2Proof/Machine/SkinkOps.lean ====
section
/-! DEFINITION. What the Skinks, the spray unit and the commit unit share (chapters 5 to 7, 20): threads, the microword trace,
debug halts, claims, assigning a packet to a thread, and the ends of a run. -/

namespace Sys2Proof.Machine

/-! ## Access -/

/-- The clutch of a thread (R108). -/
def clutchOf (t : Nat) : Nat := t / 128

/-- The Skink of a thread (R108). -/
def skinkOf (t : Nat) : Nat := t / 8

/-- A clutch's store. -/
def State.cs (s : State) (c : Nat) : ClutchStore := tget ClutchStore.init s.sk.stores c

/-- Replace a clutch's store. -/
def State.setCs (s : State) (c : Nat) (x : ClutchStore) : State :=
  { s with sk := { s.sk with stores := tset ClutchStore.init s.sk.stores c x } }

/-- The CCLK count (0.8 ns) of the F counter. -/
def State.cclk (s : State) : Nat := s.time.f * 5 / (4 * 2 ^ 40)

/-! ## Microword trace (R572 to R574) -/

/-- trace_ctrl records a thread. -/
def traceTakes (ctrl t : Nat) : Bool :=
  bit ctrl 63 && (if bit ctrl 60 then fld ctrl 32 11 == t else bit ctrl (skinkOf t % 16))

/-- R572, R574: one more entry in a buffer; answers whether an entry not yet exported was lost. -/
def traceInto (b : TraceBuf) (stop : Bool) (e : Nat) : Bool × TraceBuf :=
  if b.stopped || b.left == some 0 then (false, { b with stopped := true })
  else if 4096 ≤ b.entries.length then
    if stop then (false, { b with stopped := true })
    else
      let n := b.first + 1
      let lost := decide (b.exported ≤ b.first) || b.again.any (·.1 ≤ b.first)
      (lost, { b with entries := b.entries.drop 1 ++ [e], first := n, exported := max b.exported n,
                      again := (b.again.map (fun r => (max r.1 n, r.2))).filter (fun r => r.1 < r.2), left := b.left.map (· - 1) })
  else (false, { b with entries := b.entries ++ [e], left := b.left.map (· - 1) })

/-- R573: an entry for a thread. -/
def State.traceAdd (s : State) (t evt addr nxt mop top flags data : Nat) : State :=
  let c := clutchOf t
  let ctrl := s.rd Objs.trace_ctrl c
  if traceTakes ctrl t then
    let e := (s.cclk % 2 ^ 32) * 2 ^ 96 + t * 2 ^ 85 + addr * 2 ^ 71 + nxt * 2 ^ 69 + mop * 2 ^ 63 + top * 2 ^ 55 + flags * 2 ^ 51 +
      evt * 2 ^ 48 + data % 2 ^ 48
    let (lost, b) := traceInto (s.traceBuf c) (bit ctrl 62) e
    let s1 := s.setTrace c b
    if lost then s1.bump Objs.trace_lost c else s1
  else s

/-- An entry that names no word. -/
def State.traceEvt (s : State) (t evt data : Nat) : State :=
  s.traceAdd t evt 0 0 0 (s.th t).top (s.th t).flags data

/-- R572: a TRACE_TRIGGER hit in a clutch. -/
def State.traceTrigger (s : State) (c : Nat) : State :=
  let post := fld (s.rd Objs.trace_ctrl c) 16 16
  let b := s.traceBuf c
  if post = 0 ∨ b.left.isSome then s else s.setTrace c { b with left := some post }

/-! ## Debug halts (R565, R569) -/

/-- The word at the address at which a thread stands. -/
def State.wordAt (s : State) (t : Nat) : Nat := tget 0 (s.cs (clutchOf t)).words (s.th t).pc

/-- A thread enters DEBUG_HALT; its leap's binding closes. The trace entry names the word before which the thread halts (R573). -/
def State.enterHalt (s : State) (t : Nat) : State :=
  let s1 := s.modTh t (fun x => { x with st := .debugHalt, haltSince := s.fNs, stepLeft := 0,
                                         job := x.job.map (fun j => { j with bindOpen := false }) })
  let d := { s1.dbg with haltPend := s1.dbg.haltPend.filter (· ≠ t) }
  { s1 with dbg := d }.traceAdd t 6 (s.th t).pc (mwNxt (s.wordAt t)) (mwMop (s.wordAt t)) (s.th t).top (s.th t).flags 0

/-- R565: a halt of a thread. -/
def State.haltThread (s : State) (t : Nat) : State :=
  match (s.th t).st with
  | .running => s.enterHalt t
  | .debugHalt => s
  | _ => { s with dbg := { s.dbg with haltPend := t :: s.dbg.haltPend.filter (· ≠ t) } }

/-- The threads of a Skink. -/
def skinkThreads (k : Nat) : List Nat := (List.range 8).map (· + 8 * k)

/-- The threads of a clutch. -/
def clutchThreads (c : Nat) : List Nat := (List.range 128).map (· + 128 * c)

/-- R565: a halt of a Skink. -/
def State.haltSkink (s : State) (k : Nat) : State :=
  let d := { s.dbg with skinkHalt := k :: s.dbg.skinkHalt.filter (· ≠ k) }
  (skinkThreads k).foldl State.haltThread { s with dbg := d }

/-- R570, R571: a breakpoint that hits at a word `w` at `pc`, which left `top` and `flags`. -/
def State.bpAct (s : State) (t pc w top flags action : Nat) : State :=
  let c := clutchOf t
  let s1 := (s.bump Objs.bp_hits c).traceAdd t 4 pc (mwNxt w) (mwMop w) top flags 0
  match action with
  | 0 => s1.haltThread t
  | 1 => s1.haltSkink (skinkOf t)
  | _ => s1.traceTrigger c

/-- R571: the breakpoints of a thread's clutch of a kind that a condition meets at a word, each in turn. -/
def State.bpCheck (s : State) (t kind pc w top flags : Nat) (hit : Nat → Bool) : State :=
  (List.range 4).foldl (fun s b =>
    let v := s.rd Objs.breakpoint (clutchOf t * 4 + b)
    if bit v 63 && fld v 60 3 == kind && hit v then s.bpAct t pc w top flags (fld v 58 2) else s) s

/-! ## Claims and LSNs (R171 to R177, R203) -/

/-- An LSN comes before another (R171). -/
def lsnBefore (a b : Nat) : Bool := later 48 b a

/-- R173, R181: a leap's claims and its reservation are released. -/
def State.releaseLsn (s : State) (lsn : Nat) : State :=
  let c := { s.cu with claims := s.cu.claims.filter (fun x => x.1 ≠ lsn), reserved := s.cu.reserved.filter (· ≠ lsn),
                       strict := s.cu.strict.filter (· ≠ lsn) }
  { s with cu := c }

/-- A claim of a leap on a hash pair, once. -/
def State.addClaim (s : State) (lsn : Nat) (h : Nat × Nat) : State :=
  if s.cu.claims.contains (lsn, h.1, h.2) then s
  else { s with cu := { s.cu with claims := s.cu.claims ++ [(lsn, h.1, h.2)] } }

/-- The jobs that wait in single-file queues or for replay. -/
def State.queuedJobs (s : State) : List Job :=
  (s.sk.sf.map (fun e => e.2.queue)).flatten ++ (s.sk.replay.map (fun p => p.2)).flatten

/-- Every job, in threads and queues. -/
def State.allJobs (s : State) : List Job := s.sk.threads.filterMap (fun t => t.2.job) ++ s.queuedJobs

/-- The lowest of some LSNs. -/
def lowestLsn (l : List Nat) : Option Nat :=
  l.foldl (fun o x => match o with
    | none => some x
    | some y => if lsnBefore x y then some x else some y) none

/-- R175: the horizon, when a binding is open. -/
def State.horizon (s : State) : Option Nat := lowestLsn ((s.allJobs.filter (fun j => j.bindOpen)).map (·.lsn))

/-- The hash pair of a job's own record. -/
def Job.pair (j : Job) : Nat × Nat := (fld j.pkt.md 176 32, fld j.pkt.md 208 32)

/-- The LSN of the last commit on a record is later than `lsn` (R176, R177). -/
def State.committedLater (s : State) (key lsn : Nat) : Bool :=
  match s.line key with
  | some l => match l.lastLsn with
    | some x => lsnBefore lsn x
    | none => false
  | none => false

/-- R176: the breach of a late claim on a record. -/
def State.orderBreach (s : State) (key lsn : Nat) : State :=
  if s.committedLater key lsn then (s.bump Objs.order_breach).raise 99 0 lsn else s

/-! ## Images and eligibility (R79, R117) -/

/-- The image that a hue requires. -/
def State.imageOf (s : State) (h : Nat) : Nat :=
  if h = s.hueActive then s.rd Objs.hue_active_image else tget 0 s.hue.imageOld h

/-- The bitmap of R175 of a hue. -/
def State.keyedOps (s : State) (h : Nat) : Nat := if h = s.hueActive then s.hue.keyedNow else tget 0 s.hue.keyedOld h

/-- R79: an image serves a requirement. -/
def imageServes (held need : Nat) : Bool := held / 65536 == need / 65536 && decide (need % 65536 ≤ held % 65536)

/-- The clutch is IN_SERVICE and holds an image that R79 accepts for a hue. -/
def State.clutchServes (s : State) (c h : Nat) : Bool :=
  s.rd Objs.clutch_state c == 0 && imageServes (s.rd Objs.clutch_image c) (s.imageOf h)

/-- R117, R131: a clutch that serves a hue is eligible while any of its Skinks are in service. -/
def State.clutchEligible (s : State) (c h : Nat) : Bool :=
  s.clutchServes c h && (List.range 16).any (fun i => bit (s.rd Objs.skinks_in_service) (16 * c + i))

/-- A Skink is in service and not left out by a debug halt (R118, R565). -/
def State.skinkServes (s : State) (k : Nat) : Bool :=
  bit (s.rd Objs.skinks_in_service) k && !s.dbg.skinkHalt.contains k

/-- A thread is FREE and bound to no single-file entry. -/
def State.thFree (s : State) (t : Nat) : Bool :=
  let x := s.th t
  decide (x.st = .free) && x.bound.isNone

/-! ## Reorder entries -/

/-- The ring of a pipe. -/
def State.ring (s : State) (p : Nat) : List REntry := tget [] s.sk.rings p

/-- Replace the ring of a pipe. -/
def State.setRing (s : State) (p : Nat) (l : List REntry) : State :=
  { s with sk := { s.sk with rings := tset [] s.sk.rings p l } }

/-- Change a reorder entry. -/
def State.modEntry (s : State) (p id : Nat) (f : REntry → REntry) : State :=
  s.setRing p ((s.ring p).map (fun e => if e.id = id then f e else e))

/-! ## Threads and packets -/

/-- The header window of a frame (R55). DESIGN CHOICE: the frame whose end R55 speaks of is the frame as received, so that the window of a frame
shorter than 132 bytes shows its FCS; R57's TRUNC goes by the frame without it, of which the headers are made. -/
def headerWindow (frame : List Byte) : List Byte := padTo 0 128 frame

/-- The frame with the header window as edited (R145). -/
def editedFrame (frame hw : List Byte) : List Byte := hw.take (min 128 frame.length) ++ frame.drop 128

/-- The packet as a thread leaves it. -/
def Thread.packet (x : Thread) (j : Job) : Packet :=
  { j.pkt with md := x.md, frame := editedFrame j.pkt.frame x.hw, orig := headerWindow j.pkt.frame ++ j.pkt.frame.drop 128 }

/-- R109, R118: a packet is assigned to a thread, whose Skink is then the one that took its clutch's previous packet. DESIGN CHOICE (log 54):
clutch_packets counts every assignment, that of a steered packet from its single-file queue too. -/
def State.assign (s : State) (t : Nat) (j : Job) : State :=
  let x := s.th t
  let y : Thread :=
    { Thread.init with st := .loading, job := some j, bound := x.bound, hw := headerWindow j.pkt.frame, md := j.pkt.md,
                       since := s.fNs }
  let s0 : State := { s with sk := { s.sk with lastSkink := tput (clutchOf t) (skinkOf t % 16) s.sk.lastSkink } }
  let s1 := (s0.setTh t y).bump Objs.clutch_packets (clutchOf t)
  s1.traceEvt t 5 (fld j.pkt.md 30 2 * 2 ^ 30 + fld j.pkt.md 0 30)

/-- R129: a DRAINING clutch whose threads are all FREE is DRAINED. -/
def State.drainCheck (s : State) (c : Nat) : State :=
  if s.rd Objs.clutch_state c = 1 ∧ (clutchThreads c).all (fun t => decide ((s.th t).st = .free)) = true then
    (s.wr Objs.clutch_state c 2).raise 71 c
  else s

/-! ## Single-file entries (R121 to R124) -/

/-- The Skink that R122 binds: the lowest with no bound thread in a clutch eligible for the active hue. -/
def State.sfSkink (s : State) (hue : Nat) : Option Nat :=
  (List.range 256).find? (fun k =>
    s.skinkServes k && s.clutchServes (k / 16) hue && (s.th (8 * k + 7)).bound.isNone)

/-- The entry of a hash pair. -/
def State.sfFind (s : State) (h : Nat × Nat) : Option (Nat × SfEntry) :=
  s.sk.sf.find? (fun e => e.2.h1 == h.1 && e.2.h2 == h.2)

/-- Write an entry. -/
def State.setSf (s : State) (i : Nat) (e : SfEntry) : State := { s with sk := { s.sk with sf := tput i e s.sk.sf } }

/-- The image of a thread's clutch serves the hue of a job (R79). -/
def State.jobServed (s : State) (t : Nat) (j : Job) : Bool :=
  imageServes (s.rd Objs.clutch_image (clutchOf t)) (s.imageOf (fld j.pkt.md 48 16))

/-- Bind entry `i` to thread 7 of a Skink. -/
def State.bindSf (s : State) (i k : Nat) : State := s.modTh (8 * k + 7) (fun x => { x with bound := some i })

/-- R124: the entry must move before its next packet starts. -/
def State.sfMustMove (s : State) (e : SfEntry) : Bool :=
  e.rebind || (match e.queue with
    | j :: _ => !s.jobServed e.thread j
    | [] => false)

/-- R124: an entry whose bound thread is FREE moves, where it must, to the Skink that R122 binds; none where there is no such Skink. -/
def State.sfMoved (s : State) (i : Nat) (e : SfEntry) : Option (State × SfEntry) :=
  if s.sfMustMove e then
    (s.sfSkink s.hueActive).map (fun k =>
      let e1 := { e with thread := 8 * k + 7, rebind := false }
      (((s.modTh e.thread (fun x => { x with bound := none })).bindSf i k).setSf i e1, e1))
  else some (s, e)

/-- The bound thread of an entry is FREE: the entry moves where R124 says so, and starts its next packet, which waits where no image of the
clutch serves its hue (R79) or a debug halt holds the Skink (R565). -/
def State.sfService (s : State) (i : Nat) : State :=
  match tfind s.sk.sf i with
  | none => s
  | some e =>
    if (s.th e.thread).st ≠ .free then s
    else
      match s.sfMoved i e with
      | none => s
      | some (s1, e1) =>
        if (s1.th e1.thread).st ≠ .free ∨ s1.dbg.skinkHalt.contains (skinkOf e1.thread) = true then s1
        else match e1.queue with
          | [] => s1.setSf i { e1 with idleSince := s.fNs }
          | j :: rest => if s1.jobServed e1.thread j then (s1.setSf i { e1 with queue := rest }).assign e1.thread j else s1

/-- R124: the entries that must move and could not, because no Skink was to be had, try again. -/
def State.sfRetry (s : State) : State :=
  (s.sk.sf.filter (fun e => s.sfMustMove e.2)).foldl (fun s e => s.sfService e.1) s

/-- R123: a job is dropped at its entry's queue. A packet that the reorder stage has skipped holds no reorder entry and is discarded late
(R11, R126). -/
def State.sfDrop (s : State) (j : Job) : State :=
  let s1 := s.releaseLsn j.lsn
  let s2 :=
    if j.late then ((s1.bump Objs.reorder_late_drop j.pipe).raise 65 j.pipe).holdDrop j.pkt.pid
    else s1.modEntry j.pipe j.entry (fun r => { r with done := some j.pkt, drop := true })
  (s2.bump Objs.sf_queue_drop j.pipe).raise 69 0

/-- R123: a job joins an entry's queue, or is dropped there. -/
def State.sfEnqueue (s : State) (i : Nat) (j : Job) : State :=
  match tfind s.sk.sf i with
  | none => s
  | some e =>
    let total := s.sk.sf.foldl (fun n x => n + x.2.queue.length) 0
    if 64 ≤ e.queue.length ∨ 1024 ≤ total then s.sfDrop j
    else (s.setSf i { e with queue := e.queue ++ [j] }).sfService i

/-- R122: an entry is made VALID and bound; none when no Skink is to be had. -/
def State.sfMake (s : State) (i : Nat) (h1 h2 : Nat) (pinned : Bool) : Option State :=
  match s.sfSkink s.hueActive with
  | none => none
  | some k =>
    let s1 := (s.bindSf i k).setSf i ⟨h1, h2, pinned, 8 * k + 7, [], s.fNs, false⟩
    some { s1 with sk := { s1.sk with sfOff := tdel i s1.sk.sfOff } }

/-- The bound entries of a clutch or Skink must be bound again (R124). -/
def State.sfRebind (s : State) (hit : Nat → Bool) : State :=
  let s1 : State := { s with sk := { s.sk with sf := s.sk.sf.map (fun e => if hit e.2.thread then (e.1, { e.2 with rebind := true }) else e) } }
  (s1.sk.sf.filter (fun e => hit e.2.thread)).foldl (fun s e => s.sfService e.1) s1

/-! ## The ends of a run -/

/-- The reservations of a leap's inserts are released (R190). -/
def State.dropInserts (s : State) (l : Leap) : State :=
  let places := l.handles.filterMap (fun h => h.2.ins.map (·.2))
  { s with fsu := { s.fsu with reserved := s.fsu.reserved.filter (fun p => !places.contains p) } }

/-- Results that still come of binds and reads when a run's leap is abandoned are free values. -/
def freePends : List Pend → State → List Pend × State
  | [], s => ([], s)
  | p :: rest, s =>
    match p.kind with
    | .bind _ =>
      let (v, s1) := s.draw
      let (r, s2) := freePends rest s1
      ({ p with kind := .value [v % 256] } :: r, s2)
    | .lrd _ _ _ =>
      let (v, s1) := s.draw
      let (r, s2) := freePends rest s1
      ({ p with kind := .value [v % 2 ^ 64, v / 2 ^ 64 % 2 ^ 64] } :: r, s2)
    | _ =>
      let (r, s2) := freePends rest s
      (p :: r, s2)

/-- R181: a run's leap is abandoned. -/
def State.abandon (s : State) (t : Nat) : State :=
  let x := s.th t
  match x.job with
  | none => s
  | some j =>
    let s1 := (s.dropInserts x.leap).releaseLsn j.lsn
    let (p, s2) := freePends x.pend s1
    let leap := { Leap.empty with used := true, abandoned := true, learn := x.leap.learn }
    s2.setTh t { x with leap := leap, pend := p, lockWait := none, job := some { j with bindOpen := false, reserved := false } }

/-- A thread becomes FREE; its registers stay (R606). -/
def Thread.freed (x : Thread) : Thread :=
  { Thread.init with bound := x.bound, g := x.g, hw := x.hw, md := x.md, flags := x.flags, top := x.top, pc := x.pc }

/-- The postcard of R488, from byte 16 on. -/
def postcardBody (md outcome thread status : Nat) : List Byte :=
  let flags := verdictBits md
  leBytes 48 ((fld md 384 64 * 2 ^ 448 + fld md 208 32 * 2 ^ 416 + fld md 176 32 * 2 ^ 384 + fld md 64 96 * 2 ^ 288 +
    fld md 48 16 * 2 ^ 272 + fld md 240 16 * 2 ^ 256 + fld md 160 8 * 2 ^ 248 + fld md 32 8 * 2 ^ 240 + fld md 305 14 * 2 ^ 226 +
    fld md 259 1 * 2 ^ 225 + fld md 256 3 * 2 ^ 222 + fld md 46 2 * 2 ^ 220 + fld md 260 4 * 2 ^ 216 + outcome * 2 ^ 214 +
    flags * 2 ^ 208 + thread * 2 ^ 197 + fld md 30 2 * 2 ^ 190 + fld md 0 30 * 2 ^ 160 + status * 2 ^ 152) / 2 ^ 128)

/-- R489: the postcard of a packet's final run is offered. -/
def State.postcard (s : State) (chan : Option Nat) (md outcome thread status : Nat) : State :=
  match chan with
  | none => s
  | some c => s.offer c 1 (postcardBody md outcome thread status)

/-- The thread's packet leaves it with a final leap status (R112, R126). -/
def State.threadFree (s : State) (t status : Nat) : State :=
  let x := s.th t
  match x.job with
  | none => s
  | some j =>
    let pkt := x.packet j
    let s1 := s.setTh t x.freed
    let s2 :=
      if j.late then
        (((s1.bump Objs.reorder_late_drop j.pipe).raise 65 j.pipe).postcard x.postcard x.md 2 t status).holdDrop pkt.pid
      else
        s1.modEntry j.pipe j.entry (fun r =>
          { r with done := some pkt, drop := bit x.md 40, postcard := x.postcard, status := status, thread := t })
    let s3 := match x.bound with
      | some i => s2.sfService i
      | none => s2
    s3.drainCheck (clutchOf t)

/-- A run whose leap was abandoned ends. -/
def State.endAbandoned (s : State) (t : Nat) : State :=
  let s1 := if (s.th t).forced then s else s.bump Objs.leap_abandoned
  s1.threadFree t 3

/-- R153: a run ends by TRAP, or as for TRAP, at a place. -/
def State.trapRun (s : State) (t place : Nat) (isEntry : Bool) : State :=
  let x := s.th t
  match x.job with
  | none => s
  | some j =>
    let s1 := if x.leap.abandoned then s else s.abandon t
    let s2 := s1.modTh t (fun x => x.setMd 40 1 1)
    let s3 := (s2.bump Objs.ucode_trap_drop j.pipe).wr Objs.ucode_trap_addr 0
      (b2n isEntry * 2 ^ 31 + clutchOf t * 2 ^ 16 + place)
    (s3.raise 83 t).endAbandoned t

/-- R115: the issued-word limit. -/
def State.wordLimit (s : State) (t : Nat) : State :=
  let x := s.th t
  match x.job with
  | none => s
  | some j =>
    let s1 := if x.leap.abandoned then s else s.abandon t
    let s2 := s1.modTh t (fun x => x.setMd 40 1 1)
    ((s2.bump Objs.prog_trap_drop j.pipe).raise 67 t).endAbandoned t

/-- R18: REPLAY of a packet counts one more. -/
def replayed (md : Nat) : Nat := setFld md 260 4 (min (fld md 260 4 + 1) 15)

/-- EV100: REPLAY reaches 15. -/
def State.replaySat (s : State) (t md : Nat) (cause : Option (Nat × Nat) := none) : State :=
  if fld md 260 4 = 14 then s.raise 100 t 0 cause else s

/-- R111, R131, R162, R202: the run of a thread ends in ABORTED_MCHK; the leap keeps its claims and the packet goes back to the
spray unit. A leap that has committed stays committed (R126): its packet leaves the thread as it would have. `cause` is the unit whose fault
this handles where the thread does not lie in it (R507). -/
def State.machineCheck (s : State) (t : Nat) (cause : Option (Nat × Nat) := none) : State :=
  let x := s.th t
  match x.job with
  | none => s
  | some j =>
    if x.status = some 0 then s.threadFree t 0
    else
    let md := j.pkt.md
    let j1 := { j with pkt := { j.pkt with md := replayed md }, avoid := some (clutchOf t), bindOpen := false }
    let s1 := ((s.dropInserts x.leap).traceEvt t 3 j.lsn).bump Objs.leap_abort_mchk
    let s2 := (s1.replaySat t md cause).setTh t x.freed
    let s3 : State := { s2 with sk := { s2.sk with replay := tmod [] s2.sk.replay j.pipe (· ++ [j1]) } }
    let s4 := match x.bound with
      | some i => s3.sfService i
      | none => s3
    s4.drainCheck (clutchOf t)

/-- R111: a register parity error or an uncorrectable scratch error of a thread; R606 where it holds no packet. -/
def State.skinkParity (s : State) (t : Nat) : State :=
  (s.raise 73 (skinkOf t) 0 none (((s.th t).job.map (·.lsn)).getD 0)).machineCheck t

/-- R173, R181: a fresh leap of a replay after LABORT reserves and claims again under its own LSN. DESIGN CHOICE (log 51): its binding stays
closed, also for a declared OPCODE. -/
def State.reclaim (s : State) (j : Job) : State :=
  if j.reserved then s
  else
    let s1 := s.addClaim j.lsn j.pair
    let s2 : State := { s1 with cu := { s1.cu with reserved := s1.cu.reserved ++ [j.lsn] } }
    s2.orderBreach j.pkt.key j.lsn

/-- R117, R118: the clutch, Skink and thread that a packet of a hue goes to. -/
def State.pickThread (s : State) (hue : Nat) (avoid : Option Nat) : Option Nat :=
  let clutchOk := fun c => s.clutchServes c hue && avoid != some c &&
    (List.range 16).any (fun i => s.skinkServes (16 * c + i) && (skinkThreads (16 * c + i)).any s.thFree)
  match ((List.range 16).map (fun i => (s.sk.lastClutch + 1 + i) % 16)).find? clutchOk with
  | none => none
  | some c =>
    let last := tget 15 s.sk.lastSkink c
    let skOk := fun i => s.skinkServes (16 * c + i) && (skinkThreads (16 * c + i)).any s.thFree
    match ((List.range 16).map (fun i => (last + 1 + i) % 16)).find? skOk with
    | none => none
    | some i => (skinkThreads (16 * c + i)).find? s.thFree

/-- The clutch of a thread took the previous sprayed packet (R118 step 2). -/
def State.picked (s : State) (t : Nat) : State := { s with sk := { s.sk with lastClutch := clutchOf t } }

end Sys2Proof.Machine
end

