-- ==== Sys2Proof/Machine/RingOps.lean ====
section
/-! DEFINITION. Locks and command rings as other units use them: a lock's release (R192, R238, R432), an entry's completion
(R433), the end of a stopping ring (R434). -/

namespace Sys2Proof.Machine

/-! ## Locks -/

/-- The held locks of an owner. -/
def State.heldLocks (s : State) (o : Owner) : Nat :=
  (s.fsu.locks.filter (fun l => decide (l.owner = o) && l.granted)).length +
    (s.tbl.macLocks.filter (fun p => decide (p.2 = o))).length

/-- R432: the device releases every lock of a ring, counts each and raises EV217. -/
def State.releaseRing (s : State) (r : Nat) : State :=
  let n := s.heldLocks (.ring r)
  let s1 := s.dropLocks (.ring r)
  if n = 0 then s1 else (s1.bump Objs.locks_released r n).raise 217 r

/-! ## Command rings -/

/-- A command ring. -/
def State.cr (s : State) (r : Nat) : CmdRing := tget CmdRing.init s.host.cmd r

/-- Replace a command ring. -/
def State.setCr (s : State) (r : Nat) (x : CmdRing) : State :=
  { s with host := { s.host with cmd := tset CmdRing.init s.host.cmd r x } }

/-- The host function is HALTED (R440). -/
def State.hostHalted (s : State) : Bool := s.rd Objs.hi_state == 1

/-- SIZE of a ring from its control register. -/
def ringSize (ctrl : Nat) : Nat := 2 ^ fld ctrl 8 5

/-- The host address of entry `i` of a ring (R420). -/
def entryAddr (base ctrl i : Nat) : Nat := base + 32 * (i % ringSize ctrl)

/-- The write of RESULT and STATUS of the entry at H, as one write (R433). -/
def statusWrite (x : CmdRing) (status result : Nat) : Output :=
  .hostWrite (entryAddr x.base x.ctrl x.h) (leBytes 8 (result * 2 ^ 32 + status))

/-- R434: every entry from H up to P completes with ABORTED. -/
def abortRest : Nat → Nat → State → State
  | 0, _, s => s
  | n + 1, r, s =>
    let x := s.cr r
    if x.h = x.p then s
    else
      let s1 := s.put (statusWrite x 0x80FF 0)
      let s2 := s1.setCr r { x with h := (x.h + 1) % 2 ^ 32 }
      abortRest n r ((s2.bump Objs.cmd_aborted r).bump Objs.cmd_entries r)

/-- The messages for the entries that a stop has completed with ABORTED and IRQ set (R433). -/
def State.abortIrqs (s : State) (x : CmdRing) : State :=
  let rest := x.posted.take ((x.p + 2 ^ 32 - x.h) % 2 ^ 32)
  if bit x.ctrl 23 then (rest.filter (bit · 0)).foldl (fun (s : State) _ => s.msix (fld x.ctrl 16 7)) s else s

/-- R434: a STOPPING ring with no entry in execution ends: the rest ABORTED, HEAD_WB := P, VECTOR for the entries with IRQ set, locks
released, DISABLED. -/
def State.finishStop (s : State) (r : Nat) : State :=
  let s1 := abortRest 65536 r s
  let x := s1.cr r
  let s2 := (s1.put (.hostWrite x.wb (leBytes 4 x.p))).abortIrqs (s.cr r)
  let s3 := s2.setCr r { x with st := .disabled, busy := none, posted := [], ctrl := setFld x.ctrl 0 1 0 }
  s3.releaseRing r

/-- An error code among 0x8001 to 0x8006. -/
def cmdIsError (status : Nat) : Bool := 0x8001 ≤ status && status ≤ 0x8006

/-- R433: the entry at H completes with a status and a result. At a HALTED function nothing is written (R439). A STOPPING
ring then ends (R434). -/
def State.cmdComplete (s : State) (r status result flags : Nat) : State :=
  let x := s.cr r
  if s.hostHalted then s.setCr r { x with busy := none }
  else
    let h := (x.h + 1) % 2 ^ 32
    let s1 := (s.put (statusWrite x status result)).setCr r { x with h := h, busy := none }
    let s2 := s1.bump Objs.cmd_entries r
    let s3 := if cmdIsError status then s2.bump Objs.cmd_errors r else s2
    let s4 := s3.put (.hostWrite x.wb (leBytes 4 h))
    let s5 := if bit flags 0 && bit x.ctrl 23 then s4.msix (fld x.ctrl 16 7) else s4
    if x.st = .stopping then s5.finishStop r else s5

/-- A write of the data buffer, cut short by an error. -/
def State.bufWrite (s : State) (addr : Nat) (data : List Byte) (dma : Dma) : State :=
  let d := match dma with
    | .writeError k => data.take k
    | _ => data
  if d = [] then s else s.put (.hostWrite addr d)

/-- AER logs an uncorrectable error (R415). -/
def State.aerUncorr (s : State) : State := { s with host := { s.host with pcie := { s.host.pcie with aerUncorr := true } } }

/-- A flush of a ring completes: the records skipped go to bytes 0 to 7 of a buffer that has room for them (R425, R427). -/
def State.flushRing (s : State) (r deleted skipped : Nat) (dma : Dma) : State :=
  match (s.cr r).busy with
  | some b =>
    if b.wait = .flush then
      let result := min deleted (2 ^ 32 - 1)
      if 8 ≤ b.len ∧ s.hostHalted = false then
        let t := s.bufWrite b.addr (leBytes 8 skipped) dma
        if dma = .good then t.cmdComplete r 1 result b.flags else (t.aerUncorr.cmdComplete r 0x8006 result b.flags).raise 210 r
      else s.cmdComplete r 1 result b.flags
    else s
  | none => s

/-- The entry in execution of a ring that waits for `w` completes. -/
def State.cmdWaitDone (s : State) (r : Nat) (w : RingWait) (status result : Nat) : State :=
  match (s.cr r).busy with
  | some b => if b.wait = w then s.cmdComplete r status result b.flags else s
  | none => s

end Sys2Proof.Machine
end

