-- ==== Sys2Proof/Machine/Tables.lean ====
section
/-! DEFINITION. The forwarding tables, software access to them, their lookups, and the learn unit (chapter 10). -/

namespace Sys2Proof.Machine

/-! ## Hashes and places (R277, R278) -/

/-- The two buckets of a key over `2 ^ w` buckets (R277). -/
def buckets (w salt : Nat) (key : List Byte) : Nat × Nat :=
  let init := Nat.xor 0xFFFFFFFF salt
  let a := crcFrom 0x82F63B78 init key % 2 ^ w
  let b := crcFrom 0xEDB88320 init key % 2 ^ w
  (a, if a = b then Nat.xor b 1 else b)

/-- The bucket that a slot's entry could move to. -/
def otherBucket (bs : Nat × Nat) (slot : Nat) : Nat := if slot / 4 = bs.1 then bs.2 else bs.1

/-- A free slot of a bucket. -/
def freeSlot (t : Tab Nat) (b : Nat) : Option Nat := [4 * b, 4 * b + 1, 4 * b + 2, 4 * b + 3].find? (fun i => (tfind t i).isNone)

/-- R278: the shortest relocation path of at most `n` moves; a bucket comes with the slots that the path has emptied on the
way to it, last first, and the answer begins with the free slot. -/
def findPath (t : Tab Nat) (alt : Nat → Nat) : Nat → List (Nat × List Nat) → Option (List Nat)
  | 0, _ => none
  | n + 1, front =>
    match front.findSome? (fun p => (freeSlot t p.1).map (fun i => i :: p.2)) with
    | some path => some path
    | none =>
      findPath t alt n ((front.map (fun p => [4 * p.1, 4 * p.1 + 1, 4 * p.1 + 2, 4 * p.1 + 3].map (fun i => (alt i, i :: p.2)))).flatten)

/-- The moves of a path from its free end; answers the slot that is free then. -/
def runPath (fix : Nat → Nat → Nat) : List Nat → Tab Nat → Tab Nat × Option Nat
  | [], t => (t, none)
  | [i], t => (t, some i)
  | i :: j :: rest, t =>
    match tfind t j with
    | some e => runPath fix (j :: rest) (tdel j (tput i (fix i e) t))
    | none => (t, some j)

/-- A free place in the stash. -/
def freeStash (t : Tab Nat) (lo n : Nat) : Option Nat := (List.range n).map (· + lo) |>.find? (fun i => (tfind t i).isNone)

/-! ## MAC entries (R276) -/

/-- MAC and FID of an entry. -/
def macKey (e : Nat) : Nat := fld e 68 60
/-- PORT. -/
def macPort (e : Nat) : Nat := fld e 60 8
/-- LAST_SEEN. -/
def macSeen (e : Nat) : Nat := fld e 44 16
/-- MOVE_FIRST. -/
def macMoveFirst (e : Nat) : Nat := fld e 28 16
/-- MOVE_LAST. -/
def macMoveLast (e : Nat) : Nat := fld e 12 16
/-- MOVE_COUNT. -/
def macMoves (e : Nat) : Nat := fld e 9 3
/-- STATIC. -/
def macStatic (e : Nat) : Bool := bit e 7
/-- PAIR. -/
def macPair (e : Nat) : Bool := bit e 3

/-- The 8 bytes of a key (R277). -/
def macBytes (k : Nat) : List Byte := beBytes 6 (k / 4096) ++ beBytes 2 (k % 4096)

/-- The key that 8 bytes name. -/
def macOfBytes (b : List Byte) : Nat := beNat (b.take 6) * 4096 + beNat (slice b 6 2) % 4096

/-- R276: a time in units of 2^-16 ns as a MAC time. -/
def macTime (lin : Nat) : Nat := lin / 2 ^ 41 % 65536

/-- The MAC time of W. -/
def State.macNow (s : State) : Nat := macTime (toLin s.time.w)

/-- A time in ns rounded up to whole MAC time units. -/
def macUnits (ns : Nat) : Nat := (ns + 2 ^ 25 - 1) / 2 ^ 25

/-- The first stash place of the MAC table (R296). -/
def macStash : Nat := 2097152

/-- The slot of a key: the copy in M1 or M2, or in the stash. -/
def State.macFind (s : State) (k : Nat) : Option Nat := (s.tbl.mac.find? (fun p => macKey p.2 = k)).map (·.1)

/-- The buckets of a MAC key. -/
def State.macBuckets (s : State) (k : Nat) : Nat × Nat := buckets 19 (s.rd Objs.mac_hash_salt) (macBytes k)

/-- Replace the MAC slots. -/
def State.setMac (s : State) (t : Tab Nat) : State := { s with tbl := { s.tbl with mac := t } }

/-- ALT of an entry in a slot. -/
def State.fixAlt (s : State) (slot e : Nat) : Nat :=
  setFld e 6 1 (b2n (decide (slot < macStash) && slot / 4 != (s.macBuckets (macKey e)).1))

/-- R278: an insert; none where every way fails. -/
def State.macInsert (s : State) (e : Nat) : Option State :=
  let bs := s.macBuckets (macKey e)
  let alt := fun i => match tfind s.tbl.mac i with
    | some x => otherBucket (s.macBuckets (macKey x)) i
    | none => 0
  match findPath s.tbl.mac alt 17 [(bs.1, []), (bs.2, [])] with
  | some path =>
    match runPath s.fixAlt path s.tbl.mac with
    | (t, some i) => some (s.setMac (tput i (s.fixAlt i e) t))
    | (_, none) => none
  | none =>
    match freeStash s.tbl.mac macStash 256 with
    | some i => some (s.setMac (tput i (s.fixAlt i e) s.tbl.mac))
    | none => none

/-- An insert that may fail with TABLE_FULL and EV123. -/
def macPut (s : State) (e : Nat) : Bool × State :=
  match s.macInsert e with
  | some t => (true, t)
  | none => (false, s.raise 123 0)

/-- LAST_SEEN of a key has been written: R375 no longer covers it. -/
def State.macFresh (s : State) (k : Nat) : State := { s with tbl := { s.tbl with old := s.tbl.old.filter (· ≠ k) } }

/-- An entry leaves the table, with its lock. -/
def State.macDelete (s : State) (slot : Nat) : State :=
  let k := macKey ((tfind s.tbl.mac slot).getD 0)
  { s with tbl := { s.tbl with mac := tdel slot s.tbl.mac, macLocks := tdel k s.tbl.macLocks, old := s.tbl.old.filter (· ≠ k) } }

/-- LOCK of a key. -/
def State.macLocked (s : State) (k : Nat) : Bool := (tfind s.tbl.macLocks k).isSome

/-- A move hold is running (R285). -/
def State.macHeld (s : State) (e now : Nat) : Bool :=
  decide (0 < macMoves e) && decide (wrapDiff 16 now (macMoveLast e) < (macUnits (s.rd Objs.move_hold * 1000000) : Int))

/-! ## Errors of table words (R298) -/

/-- The key of a table word in `bad`: target code and item. -/
def badKey (target item : Nat) : Nat := item * 32 + target

/-- A lookup reads a word of a table other than the MAC table: whether it can be used. A word that waits for its rewrite gives every lookup
the same result, with its event. -/
def readWord (s : State) (target item : Nat) (ecc : WordEcc) : Bool × State :=
  if (tfind s.tbl.bad (badKey target item)).isSome then (false, s.raise 126 0 0 none (badKey target item))
  else match ecc with
    | .good => (true, s)
    | .corrected => (true, s.raise 125 0)
    | .uncorrected =>
      (false, { s with tbl := { s.tbl with bad := tput (badKey target item) true s.tbl.bad } }.raise 126 0 0 none (badKey target item))

/-- A word is whole again. -/
def State.wordWhole (s : State) (target item : Nat) : State := { s with tbl := { s.tbl with bad := tdel (badKey target item) s.tbl.bad } }

/-- A word has been written, and with it its shadow. -/
def State.wordWritten (s : State) (target item : Nat) : State := (s.wordWhole target item).shadowWrite 2 (badKey target item)

/-- TABLE_REWRITE_DONE: the rewrite of a damaged word ends; without a readable shadow, of which a copy must answer (R404), the drops go on
(R298). -/
def tableRewriteDone (s : State) (target item : Nat) (readable : Bool) : State :=
  match tfind s.tbl.bad (badKey target item) with
  | some true =>
    if readable && s.shadowRead 2 (badKey target item) .first != .neither then s.wordWhole target item
    else { s with tbl := { s.tbl with bad := tput (badKey target item) false s.tbl.bad } }.raise 126 0 0
      (s.shadowRefused 2 (badKey target item)) (badKey target item)
  | _ => s

/-- The meaning of TABLE_REWRITE_DONE. -/
def execTableRewriteDone (target : Fin 32) (item : Nat) (readable : Bool) (s : State) : Out :=
  .next (tableRewriteDone s target.val item readable)

/-! ## Lookups of a thread: the two result registers, or none where R298 drops the packet -/

/-- The slot that the word at a place of a hashed lookup is: the slots of both buckets, 0 to 7, and beyond them the slot of the entry found. -/
def wordSlot (bs : Nat × Nat) (found : Option Nat) (pos : Nat) : Nat :=
  if pos < 4 then 4 * bs.1 + pos else if pos < 8 then 4 * bs.2 + (pos - 4) else found.getD (4 * bs.1)

/-- R298: the learn unit deletes the entry in a slot that has an error. -/
def macDamaged (s : State) (slot : Nat) : State :=
  (if (tfind s.tbl.mac slot).isSome then s.macDelete slot else s).raise 126 0 0 none (badKey 0x11 slot)

/-- R298: an access other than a lookup reads the word of a slot of the MAC table; an entry with an uncorrectable error is deleted. -/
def slotEcc (s : State) (slot : Nat) : WordEcc → State
  | .good => s
  | .corrected => s.raise 125 0
  | .uncorrected => macDamaged s slot

/-- R298: the learn unit reads the words of a key, the one at `pos` with an error. -/
def macEcc (s : State) (k : Nat) (ecc : WordEcc) (pos : Nat) : State := slotEcc s (wordSlot (s.macBuckets k) (s.macFind k) pos) ecc

/-- R280: LKMAC; an error is in the word at `pos` of those that the lookup reads. -/
def lkMac (s : State) (a : Nat) (ecc : WordEcc) (pos : Nat) : Option (Nat × Nat) × State :=
  let k := a / 16
  match ecc, s.macFind k with
  | .uncorrected, r => (some (0, 0), macDamaged s (wordSlot (s.macBuckets k) r pos))
  | _, none => (some (0, 0), if ecc = .corrected then s.raise 125 0 else s)
  | _, some i =>
    let e := (tfind s.tbl.mac i).getD 0
    let now := s.macNow
    let v := 2 ^ 63 + b2n (macStatic e) * 2 ^ 62 + b2n (macPair e) * 2 ^ 61 + b2n (s.macHeld e now) * 2 ^ 60 +
      (now + 65536 - macSeen e) % 65536 * 2 ^ 32 + macPort e
    (some (v, 0), if ecc = .corrected then s.raise 125 0 else s)

/-- The key of a NAT slot. -/
def natKey (e : Nat) : Nat := fld e 64 64

/-- R289: bytes 2 to 7 of a key masked to the first `n` bits. -/
def natMask (k n : Nat) : Nat :=
  let a := beNat (slice (leBytes 8 k) 2 6)
  fld k 0 16 + leNat (beBytes 6 (a - a % 2 ^ (48 - n))) * 65536

/-- The slot of a NAT key. -/
def State.natFind (s : State) (k : Nat) : Option Nat := (s.tbl.nat.find? (fun p => natKey p.2 = k)).map (·.1)

/-- The buckets of a NAT key (R288). -/
def State.natBuckets (s : State) (k : Nat) : Nat × Nat := buckets 15 (s.rd Objs.mac_hash_salt) (leBytes 8 k)

/-- R289: LKNAT; an error is in the word at `pos` of those that the lookup reads. -/
def lkNat (s : State) (a : Nat) (ecc : WordEcc) (pos : Nat) : Option (Nat × Nat) × State :=
  let k := if fld a 0 8 = 6 ∨ fld a 0 8 = 7 then natMask a (s.rd Objs.npt6_len (fld a 8 8)) else a
  let r := s.natFind k
  let slots := (List.range 8).map (wordSlot (s.natBuckets k) r) ++ r.toList
  let item := (slots.find? (fun i => (tfind s.tbl.bad (badKey 0x12 i)).isSome)).getD (wordSlot (s.natBuckets k) r pos)
  match readWord s 0x12 item ecc, r with
  | (false, s1), _ => (none, s1)
  | (true, s1), none => (some (0, 0), s1)
  | (true, s1), some i => (some (fld ((tfind s.tbl.nat i).getD 0) 0 64, 2 ^ 63), s1)

/-- The key of an LPM4 route. -/
def lpm4Key (t len pfx : Nat) : Nat := (t * 256 + len) * 2 ^ 32 + pfx

/-- The key of an LPM6 route. -/
def lpm6Key (t len pfx : Nat) : Nat := (t * 256 + len) * 2 ^ 128 + pfx

/-- An address cut to a prefix length of `w` bits. -/
def cutPrefix (w len a : Nat) : Nat := a / 2 ^ (w - len) * 2 ^ (w - len)

/-- The longest route that matches: its length, key and data. -/
def lpmFind (routes : Tab Nat) (key : Nat → Nat) : Nat → Option (Nat × Nat × Nat)
  | 0 => (tfind routes (key 0)).map (fun d => (0, key 0, d))
  | n + 1 => match tfind routes (key (n + 1)) with
    | some d => some (n + 1, key (n + 1), d)
    | none => lpmFind routes key n

/-- The result of an LPM lookup (R290). The word it reads is that of its route, and of the table's default route `root` where none matches. -/
def lpmResult (s : State) (target root : Nat) (r : Option (Nat × Nat × Nat)) (ecc : WordEcc) : Option (Nat × Nat) × State :=
  match readWord s target ((r.map (fun x => x.2.1)).getD root) ecc, r with
  | (false, s1), _ => (none, s1)
  | (true, s1), none => (some (0, 0), s1)
  | (true, s1), some (len, _, d) => (some (2 ^ 63 + len * 2 ^ 48 + fld d 0 48, 0), s1)

/-- R290: LKLPM4. -/
def lkLpm4 (s : State) (t a : Nat) (ecc : WordEcc) : Option (Nat × Nat) × State :=
  lpmResult s 0x13 (lpm4Key t 0 0) (lpmFind s.tbl.lpm4 (fun n => lpm4Key t n (cutPrefix 32 n (a % 2 ^ 32))) 32) ecc

/-- R290: LKLPM6. -/
def lkLpm6 (s : State) (t hi lo : Nat) (ecc : WordEcc) : Option (Nat × Nat) × State :=
  lpmResult s 0x14 (lpm6Key t 0 0) (lpmFind s.tbl.lpm6 (fun n => lpm6Key t n (cutPrefix 128 n (hi * 2 ^ 64 + lo))) 128) ecc

/-- R292: LKMCG, for a packet of an ingress port. -/
def lkMcg (s : State) (g inPort : Nat) (ecc : WordEcc) : Option (Nat × Nat) × State :=
  match readWord s 0x15 g ecc with
  | (false, s1) => (none, s1)
  | (true, s1) =>
    let map := fld (tget 0 s.tbl.mcg g) 64 256
    (some (b2n (map != 0) * 2 ^ 63 + b2n (bit map inPort) * 2 ^ 16 + popCount 256 map, 0), s1)

/-- MBR_COUNT of a descriptor. -/
def mbrCount (d : Nat) : Nat := fld d 29 9

/-- R295: the member that a lookup names: its index; none where OK is 0. -/
def mbrIndex (s : State) (d a : Nat) (named : Bool) : Option Nat :=
  if bit d 63 = false ∨ (named = false ∧ bit d 62 = true) then none
  else
    let i := if named then fld a 0 8 else tget 0 s.tbl.mbrBkt (fld d 38 21 + fld a 0 12 / 2 ^ fld d 59 3)
    if i < mbrCount d then some i else none

/-- R295: LKMBR. An error is in the word at `pos`: 0 the descriptor, 1 the stored bucket, from 2 on the member. -/
def lkMbr (s : State) (a : Nat) (named : Bool) (ecc : WordEcc) (pos : Nat) : Option (Nat × Nat) × State :=
  let set := fld a 16 12
  let err := fun (k : Nat) => if min pos 2 = k then ecc else .good
  match readWord s 0x17 set (err 0) with
  | (false, s1) => (none, s1)
  | (true, s1) =>
    let d := tget 0 s.tbl.mbrSet set
    if bit d 63 = false ∨ (named = false ∧ bit d 62 = true) then (some (0, 0), s1)
    else
      match if named then (true, s1) else readWord s1 0x19 (fld d 38 21 + fld a 0 12 / 2 ^ fld d 59 3) (err 1) with
      | (false, s2) => (none, s2)
      | (true, s2) =>
        match mbrIndex s d a named with
        | none => (some (0, 0), s2)
        | some i =>
          let place := fld d 0 16 + i
          match readWord s2 0x18 place (err 2) with
          | (false, s3) => (none, s3)
          | (true, s3) =>
            let m := tget 0 s.tbl.mbr place
            (some (2 ^ 63 + fld m 30 2 * 2 ^ 48 + i * 2 ^ 40 + fld m 8 16 * 2 ^ 24 + fld m 0 8, 0), s3)

/-! ## Software access (R296, R297). Answers a status of R427. -/

/-- Whether a MAC key is locked by another owner. -/
def macForeign (s : State) (k : Nat) (o : Owner) : Bool :=
  match tfind s.tbl.macLocks k with
  | some x => decide (x ≠ o)
  | none => false

/-- A MAC entry as software reads it. -/
def State.macImage (s : State) (slot : Nat) : Nat :=
  match tfind s.tbl.mac slot with
  | some e => setFld e 4 1 (b2n (s.macLocked (macKey e)))
  | none => 0

/-- R297: a WRITE to MAC_KEY. -/
def macWrite (s : State) (k d : Nat) (o : Owner) : Nat × State :=
  if macForeign s k o then (0x800A, s)
  else
    let e := k * 2 ^ 68 + fld d 60 8 * 2 ^ 60 + s.macNow * 2 ^ 44 + 256 + fld d 7 1 * 128 + 32
    match s.macFind k with
    | some i => (1, (s.setMac (tput i (s.fixAlt i e) s.tbl.mac)).macFresh k)
    | none =>
      match macPut (s.macFresh k) e with
      | (true, t) => (1, t)
      | (false, t) => (0x8009, t)

/-- R288: a NAT key with its unused bytes 0. -/
def natCleanKey (k : Nat) : Nat := if 3 ≤ fld k 0 8 ∧ fld k 0 8 ≤ 5 then k % 2 ^ 48 else k % 2 ^ 64

/-- R288: NAT data with its unused bytes 0. -/
def natCleanData (k d : Nat) : Nat :=
  match fld k 0 8 with
  | 1 => d % 2 ^ 48
  | 2 => d % 2 ^ 48
  | 3 => d % 2 ^ 32
  | 4 => d % 2 ^ 32
  | _ => d % 2 ^ 64

/-- The marks of damaged NAT words go with the entries that a relocation moves. -/
def moveMarks : List Nat → Tab Bool → Tab Bool
  | i :: j :: rest, t =>
    let t1 := match tfind t (badKey 0x12 j) with
      | some b => tput (badKey 0x12 i) b (tdel (badKey 0x12 j) t)
      | none => tdel (badKey 0x12 i) t
    moveMarks (j :: rest) t1
  | _, t => t

/-- The first stash place of the NAT table. -/
def natStash : Nat := 131072

/-- R288: a NAT entry is placed; false where no place is found. -/
def natPut (s : State) (k d : Nat) : Bool × State :=
  let e := k * 2 ^ 64 + d
  let put := fun (i : Nat) (t : Tab Nat) => { s with tbl := { s.tbl with nat := tput i e t } }
  match s.natFind k with
  | some i => (true, (put i s.tbl.nat).wordWritten 0x12 i)
  | none =>
    let bs := s.natBuckets k
    let alt := fun i => match tfind s.tbl.nat i with
      | some x => otherBucket (s.natBuckets (natKey x)) i
      | none => 0
    match findPath s.tbl.nat alt 17 [(bs.1, []), (bs.2, [])] with
    | some path =>
      match runPath (fun _ x => x) path s.tbl.nat with
      | (t, some i) =>
        let s1 := put i t
        (true, State.wordWritten { s1 with tbl := { s1.tbl with bad := moveMarks path s1.tbl.bad } } 0x12 i)
      | (_, none) => (false, s.raise 123 0)
    | none =>
      match freeStash s.tbl.nat natStash 64 with
      | some i => (true, (put i s.tbl.nat).wordWritten 0x12 i)
      | none => (false, s.raise 123 0)

/-- R289: the data of a POOL entry lies outside what the table allows. -/
def natBad (k d : Nat) : Bool :=
  let b := leBytes 8 d
  let n := (b.getD 6 0).toNat
  fld k 0 8 == 5 && (decide (15 < n) || decide (65536 < beNat (slice b 4 2) + 2 ^ n))

/-- The table, length and prefix of an LPM key (R426). -/
def lpmParts (w : Nat) (key : List Byte) : Nat × Nat × Nat :=
  ((key.getD 0 0).toNat, (key.getD 1 0).toNat, leNat (slice key 4 w))

/-- The LPM places in use (R274). -/
def State.lpmUsed (s : State) : Nat := s.tbl.lpm4.length + 4 * s.tbl.lpm6.length

/-- R290: a route is added or replaced; its data with bit 48 set marks the place. -/
def lpmPut (s : State) (target k d cost : Nat) : Nat × State :=
  let routes := if target = 0x13 then s.tbl.lpm4 else s.tbl.lpm6
  let set := fun (t : Tab Nat) => if target = 0x13 then { s with tbl := { s.tbl with lpm4 := t } } else { s with tbl := { s.tbl with lpm6 := t } }
  let e := 2 ^ 48 + fld d 31 17 * 2 ^ 31 + fld d 0 16
  if (tfind routes k).isNone ∧ 131072 < s.lpmUsed + cost then (0x8009, s.raise 123 0)
  else (1, (set (tput k e routes)).wordWritten target k)

/-- R290: a route lies outside what the table allows. -/
def lpmBad (w len p : Nat) : Bool := decide (w < len) || p != cutPrefix w len p

/-- R291: a group's list runs past the edit lists. -/
def mcgBad (g : Nat) : Bool := bit g 62 && decide (131072 < fld g 32 17 + popCount 256 (fld g 64 256))

/-- R294: a descriptor lies outside what the table allows. -/
def mbrSetBad (s : State) (d : Nat) : Bool :=
  let n := 4096 / 2 ^ fld d 59 3
  decide (4 < fld d 59 3) || decide (256 < mbrCount d) || decide (65536 < fld d 0 16 + mbrCount d) ||
    decide (1572864 < fld d 38 21 + n) ||
    (List.range n).any (fun i => decide (mbrCount d ≤ tget 0 s.tbl.mbrBkt (fld d 38 21 + i)))

/-- How many items an indexed table has. -/
def tblItems (target : Nat) : Nat :=
  match target with
  | 0x11 => macStash + 256
  | 0x15 => 65536
  | 0x16 => 131072
  | 0x17 => 4096
  | 0x18 => 65536
  | 0x19 => 1572864
  | _ => 0

/-- The bytes of an item. -/
def tblItemBytes (target : Nat) : Nat :=
  match target with
  | 0x10 => 16
  | 0x11 => 16
  | 0x12 => 8
  | 0x13 => 6
  | 0x14 => 6
  | 0x15 => 40
  | 0x16 => 2
  | 0x17 => 8
  | 0x18 => 4
  | _ => 1

/-- The keyed targets. -/
def tblKeyed (target : Nat) : Bool := target == 0x10 || target == 0x12 || target == 0x13 || target == 0x14

/-- R288, R290, R427: a key or an index out of range. -/
def tblBadTarget (target index : Nat) (key : List Byte) : Bool :=
  if target = 0x12 then (key.getD 0 0).toNat == 0 || decide (7 < (key.getD 0 0).toNat)
  else if target = 0x13 ∨ target = 0x14 then decide (15 < (key.getD 0 0).toNat)
  else if target = 0x10 then false
  else decide (tblItems target ≤ index)

/-- READ of one item: status and data as a number. -/
def tblRead (s : State) (target index : Nat) (key : List Byte) : Nat × Nat :=
  if tblBadTarget target index key then (0x8005, 0)
  else
    let found := fun (r : Option Nat) => match r with
      | some d => (1, d)
      | none => (0x8008, 0)
    match target with
    | 0x10 => found ((s.macFind (macOfBytes key)).map s.macImage)
    | 0x11 => (1, s.macImage index)
    | 0x12 => found ((s.natFind (natCleanKey (leNat (key.take 8)))).map (fun i => fld ((tfind s.tbl.nat i).getD 0) 0 64))
    | 0x13 => let (t, n, p) := lpmParts 4 key; found ((tfind s.tbl.lpm4 (lpm4Key t n p)).map (fun d => fld d 0 48))
    | 0x14 => let (t, n, p) := lpmParts 16 key; found ((tfind s.tbl.lpm6 (lpm6Key t n p)).map (fun d => fld d 0 48))
    | 0x15 => (1, tget 0 s.tbl.mcg index)
    | 0x16 => (1, tget 0 s.tbl.edit index)
    | 0x17 => (1, tget 0 s.tbl.mbrSet index)
    | 0x18 => (1, tget 0 s.tbl.mbr index)
    | _ => (1, tget 0 s.tbl.mbrBkt index)

/-- The word that a READ of a table other than the MAC table goes by: the slot of a NAT key, a route, or the item. -/
def readItem (s : State) (target index : Nat) (key : List Byte) : Nat :=
  match target with
  | 0x12 => let k := natCleanKey (leNat (key.take 8)); (s.natFind k).getD (4 * (s.natBuckets k).1)
  | 0x13 => let (t, n, p) := lpmParts 4 key; lpm4Key t n p
  | 0x14 => let (t, n, p) := lpmParts 16 key; lpm6Key t n p
  | _ => index

/-- READ of one item with the errors of R298: status, data, and the state. A MAC entry with an uncorrectable error is deleted before it is read;
of another word with one the status stands and the data is a free value (DESIGN CHOICE, log 116). -/
def softRead (s : State) (target index : Nat) (key : List Byte) (ecc : WordEcc) : Nat × Nat × State :=
  if tblBadTarget target index key then (0x8005, 0, s)
  else if target = 0x10 ∨ target = 0x11 then
    let k := macOfBytes key
    let t := slotEcc s (if target = 0x11 then index else wordSlot (s.macBuckets k) (s.macFind k) 8) ecc
    let r := tblRead t target index key
    (r.1, r.2, t)
  else
    let r := tblRead s target index key
    match readWord s target (readItem s target index key) ecc with
    | (true, t) => (r.1, r.2, t)
    | (false, t) => if r.1 = 1 then (1, t.draw.1 % 2 ^ (8 * tblItemBytes target), t.draw.2) else (r.1, r.2, t)

/-- WRITE of one item: status. A reserved field of the data is not kept (R4). -/
def tblWrite (s : State) (target index : Nat) (key : List Byte) (d : Nat) (o : Owner) : Nat × State :=
  if tblBadTarget target index key then (0x8005, s)
  else match target with
    | 0x10 => macWrite s (macOfBytes key) d o
    | 0x11 => (0x8005, s)
    | 0x12 =>
      let k := natCleanKey (leNat (key.take 8))
      if natBad k d then (0x800D, s)
      else match natPut s k (natCleanData k d) with
        | (true, t) => (1, t)
        | (false, t) => (0x8009, t)
    | 0x13 =>
      let (t, n, p) := lpmParts 4 key
      if lpmBad 32 n p then (0x800D, s) else lpmPut s 0x13 (lpm4Key t n p) d 1
    | 0x14 =>
      let (t, n, p) := lpmParts 16 key
      if lpmBad 128 n p then (0x800D, s) else lpmPut s 0x14 (lpm6Key t n p) d 4
    | 0x15 =>
      if mcgBad d then (0x800D, s)
      else
        let g := fld d 62 258 * 2 ^ 62 + fld d 16 33 * 2 ^ 16
        (1, { s with tbl := { s.tbl with mcg := tset 0 s.tbl.mcg index g } }.wordWritten 0x15 index)
    | 0x16 => (1, { s with tbl := { s.tbl with edit := tset 0 s.tbl.edit index (fld d 0 16) } }.wordWritten 0x16 index)
    | 0x17 =>
      if mbrSetBad s d then (0x800D, s)
      else
        let x := fld d 29 35 * 2 ^ 29 + fld d 0 16
        (1, { s with tbl := { s.tbl with mbrSet := tset 0 s.tbl.mbrSet index x } }.wordWritten 0x17 index)
    | 0x18 =>
      if fld d 30 2 = 3 then (0x800D, s)
      else
        let x := fld d 30 2 * 2 ^ 30 + fld d 0 24
        (1, { s with tbl := { s.tbl with mbr := tset 0 s.tbl.mbr index x } }.wordWritten 0x18 index)
    | _ => (1, { s with tbl := { s.tbl with mbrBkt := tset 0 s.tbl.mbrBkt index (fld d 0 8) } }.wordWritten 0x19 index)

/-- DELETE of a keyed item: status. -/
def tblDelete (s : State) (target : Nat) (key : List Byte) (o : Owner) : Nat × State :=
  if tblBadTarget target 0 key then (0x8005, s)
  else match target with
    | 0x10 =>
      let k := macOfBytes key
      if macForeign s k o then (0x800A, s)
      else match s.macFind k with
        | some i => (1, s.macDelete i)
        | none => (0x8008, s)
    | 0x12 =>
      match s.natFind (natCleanKey (leNat (key.take 8))) with
      | some i => (1, { s with tbl := { s.tbl with nat := tdel i s.tbl.nat } }.wordWritten 0x12 i)
      | none => (0x8008, s)
    | 0x13 =>
      let (t, n, p) := lpmParts 4 key
      let k := lpm4Key t n p
      if (tfind s.tbl.lpm4 k).isSome then (1, { s with tbl := { s.tbl with lpm4 := tdel k s.tbl.lpm4 } }.wordWritten 0x13 k)
      else (0x8008, s)
    | 0x14 =>
      let (t, n, p) := lpmParts 16 key
      let k := lpm6Key t n p
      if (tfind s.tbl.lpm6 k).isSome then (1, { s with tbl := { s.tbl with lpm6 := tdel k s.tbl.lpm6 } }.wordWritten 0x14 k)
      else (0x8008, s)
    | _ => (0x8005, s)

/-- LOCK of a MAC key: status. -/
def macLock (s : State) (key : List Byte) (o : Owner) : Nat × State :=
  let k := macOfBytes key
  if (s.macFind k).isNone then (0x8008, s)
  else if macForeign s k o then (0x800A, s)
  else (1, { s with tbl := { s.tbl with macLocks := tput k o s.tbl.macLocks } })

/-- UNLOCK of a MAC key: status. -/
def macUnlock (s : State) (key : List Byte) (o : Owner) : Nat × State :=
  let k := macOfBytes key
  if (s.macFind k).isNone then (0x8008, s)
  else if macForeign s k o then (0x800A, s)
  else (1, { s with tbl := { s.tbl with macLocks := tdel k s.tbl.macLocks } })

/-! ## Learning (R281 to R285) -/

/-- A request's place in the sort buffer: by IN_TS, ties by the lower IN_PORT. -/
def sortInsert (r : LearnReq) : List LearnReq → List LearnReq
  | [] => [r]
  | h :: t => if linDiff h.ts r.ts < 0 ∨ (h.ts = r.ts ∧ h.inPort ≤ r.inPort) then h :: sortInsert r t else r :: h :: t

/-- R282: a committed request for the key of G[MADR], from a packet of `inPort` with IN_TS `ts` (units of 2^-16 ns). -/
def State.learnEnqueue (s : State) (key inPort ts : Nat) : State :=
  let port := s.learnPort inPort
  let pipe := pipeOf inPort
  let last := tget [] s.tbl.filter pipe
  let s0 := s.bump Objs.learn_requests
  if last.contains (key, port, macTime ts) then s0.bump Objs.learn_filtered
  else
    let last1 := (last ++ [(key, port, macTime ts)])
    let s1 : State := { s0 with tbl := { s0.tbl with filter := tput pipe (last1.drop (last1.length - 1024)) s0.tbl.filter } }
    let late := match s.tbl.applied with
      | some a => decide (linDiff ts a < 0)
      | none => false
    if late then s1.bump Objs.learn_late
    else if 4096 ≤ s.tbl.sort.length then (s1.bump Objs.learn_overflow).raise 122 0
    else { s1 with tbl := { s1.tbl with sort := sortInsert ⟨key, port, s.pairValid inPort, inPort, ts⟩ s1.tbl.sort } }

/-- R285: a move. -/
def macMove (s : State) (i e : Nat) (r : LearnReq) (now : Nat) : State :=
  if s.macHeld e now then s.bump Objs.move_refused
  else
    let fresh := decide (macMoves e = 0) || decide ((macUnits (s.rd Objs.move_window * 1000000000) : Int) ≤ wrapDiff 16 now (macMoveFirst e))
    let e1 := if fresh then setFld (setFld e 28 16 now) 9 3 1 else setFld e 9 3 (min (macMoves e + 1) 7)
    let e2 := setFld (setFld (setFld (setFld e1 12 16 now) 60 8 r.port) 44 16 now) 3 1 (b2n r.pair)
    let s1 := (((s.setMac (tput i e2 s.tbl.mac)).macFresh r.key).bump Objs.moves).raise 120 0
    if s.rd Objs.move_limit < macMoves e2 then s1.raise 121 0 else s1

/-- R284: one request is applied. -/
def learnOne (s : State) (r : LearnReq) : State :=
  let now := macTime r.ts
  let notify := s.rd Objs.learn_mode r.inPort == 1
  let flushed := match s.tbl.flush with
    | some f => f.port == r.port || f.port == 0xFFFF
    | none => false
  if flushed then s.bump Objs.learn_flush_drop
  else if s.macLocked r.key then s.bump Objs.learn_denied
  else match s.macFind r.key with
    | none =>
      if notify then s.bump Objs.learn_denied
      else (macPut (s.macFresh r.key) (r.key * 2 ^ 68 + r.port * 2 ^ 60 + now * 2 ^ 44 + 256 + b2n r.pair * 8)).2
    | some i =>
      let e := (tfind s.tbl.mac i).getD 0
      if macPort e = r.port then (s.setMac (tput i (setFld e 44 16 now) s.tbl.mac)).macFresh r.key
      else if macStatic e then (s.bump Objs.static_violation).raise 124 0
      else if notify then s.bump Objs.learn_denied
      else macMove s i e r now


/-- LEARN_APPLY (R282): the oldest request whose IN_TS lies learn_sort_window before W. -/
def learnApply (s : State) (ecc : WordEcc) (pos : Nat) : State :=
  match s.tbl.sort with
  | [] => s
  | r :: rest =>
    if ((s.rd Objs.learn_sort_window * 65536 : Nat) : Int) ≤ linDiff (toLin s.time.w) r.ts then
      let s1 : State := { s with tbl := { s.tbl with sort := rest, applied := some r.ts } }
      learnOne (macEcc s1 r.key ecc pos) r
    else s

/-- The meaning of LEARN_APPLY. -/
def execLearnApply (ecc : WordEcc) (pos : Fin 9) (s : State) : Out := .next (learnApply s ecc pos.val)

/-! ## Sweeper and flush (R286, R287) -/

/-- R286: the sweeper at one entry. -/
def macSweepOne (s : State) (i e : Nat) : State :=
  let now := s.macNow
  let k := macKey e
  let e := if 0 < s.tbl.stepPass ∧ s.tbl.old.contains k = true then setFld e 44 16 now else e
  let s := (s.setMac (tput i e s.tbl.mac)).macFresh k
  let age := wrapDiff 16 now (macSeen e)
  let limit := s.rd Objs.mac_age_limit
  if macStatic e = false ∧ s.macLocked k = false ∧ limit ≠ 0 ∧ (macUnits (limit * 1000000000) : Int) ≤ age ∧ s.tbl.stepPass = 0 then
    (s.macDelete i).bump Objs.mac_aged
  else
    let e1 := if (macStatic e = true ∨ limit = 0) ∧ 2 ^ 14 ≤ age then setFld e 44 16 ((now + 65536 - 2 ^ 14) % 65536) else e
    let calm := decide (0 < macMoves e) && decide ((macUnits (s.rd Objs.move_window * 1000000000) : Int) ≤ wrapDiff 16 now (macMoveFirst e)) &&
      decide ((macUnits (s.rd Objs.move_hold * 1000000) : Int) ≤ wrapDiff 16 now (macMoveLast e))
    s.setMac (tput i (if calm then setFld e1 9 3 0 else e1) s.tbl.mac)

/-- MAC_SWEEP_VISIT: the next VALID entry; without one the pass ends. -/
def macSweep (s : State) (ecc : WordEcc) : State :=
  match s.tbl.mac.find? (fun p => s.tbl.sweepPos ≤ p.1) with
  | none => { s with tbl := { s.tbl with sweepPos := 0, stepPass := s.tbl.stepPass - 1 } }
  | some (i, e) =>
    let s1 : State := { s with tbl := { s.tbl with sweepPos := i + 1 } }
    match ecc with
    | .uncorrected => macDamaged s1 i
    | _ => macSweepOne (slotEcc s1 i ecc) i e

/-- The meaning of MAC_SWEEP_VISIT. -/
def execMacSweepVisit (ecc : WordEcc) (s : State) : Out := .next (macSweep s ecc)

/-- Whether a MAC flush finds four waiting. -/
def State.macFlushFull (s : State) : Bool := s.tbl.flush.isSome && decide (4 ≤ s.tbl.flushWait.length)

/-- R287: a flush starts or waits; one that finds four waiting is lost. -/
def State.startMacFlush (s : State) (port : Nat) (o : Option Owner) : State :=
  let f : MacFlush := ⟨port, o, 0⟩
  if s.tbl.flush.isNone then { s with tbl := { s.tbl with flush := some f } }
  else if s.tbl.flushWait.length < 4 then { s with tbl := { s.tbl with flushWait := s.tbl.flushWait ++ [f] } }
  else s

/-- The meaning of MAC_FLUSH_PORT. -/
def execMacFlushPort (c : Ctx) (v : List Byte) (s : State) : Out :=
  .next (writeObj c Objs.mac_flush_port 0 v (fun _ s => refuseIf s.macFlushFull .busy)
    (fun x s => (s.startRun c (Objs.mac_flush_port.key 0) 8).startMacFlush x (some (.dict (ctxCode c)))) s)

/-- R287: an entry falls to a flush by a port. -/
def macFlushes (s : State) (port e : Nat) : Bool :=
  let p := macPort e
  let q := s.rd Objs.pair_port p
  !macStatic e && !s.macLocked (macKey e) &&
    (if macPair e then (port == p || port == q || port == 0xFFFF) && !s.isUp p && !s.isUp q
     else port == p || port == 0xFFFF)

/-- An entry that a flush by a port passes over for its lock alone. -/
def macSkips (s : State) (port e : Nat) : Bool := s.macLocked (macKey e) && macFlushes { s with tbl := { s.tbl with macLocks := [] } } port e

/-- The completion of a flush by its owner: the entries deleted and those skipped for locks (R425). -/
def flushOwnerDone (s : State) (o : Option Owner) (key deleted skipped : Nat) (dma : Dma) : State :=
  match o with
  | some (.ring r) => s.flushRing r deleted skipped dma
  | some (.dict c) => s.endRun c key 0
  | none => s

/-- MAC_FLUSH_DONE: the walk of the running flush ends; the next one starts. `words` are the slots that the walk found with an error (R298). -/
def macFlushDone (s : State) (words : List (BitVec 22 × WordEcc)) (dma : Dma) : State :=
  match s.tbl.flush with
  | none => s
  | some f =>
    let s := words.foldl (fun s w => slotEcc s w.1.toNat w.2) s
    let gone := s.tbl.mac.filter (fun p => macFlushes s f.port p.2)
    let skipped := (s.tbl.mac.filter (fun p => macSkips s f.port p.2)).length
    let s1 := gone.foldl (fun s p => s.macDelete p.1) s
    let s2 : State := { s1 with tbl := { s1.tbl with flush := s.tbl.flushWait.head?, flushWait := s.tbl.flushWait.drop 1 } }
    flushOwnerDone ((s2.bump Objs.mac_flushed 0 gone.length).raise 127 0) f.owner (Objs.mac_flush_port.key 0) gone.length skipped dma

/-- The meaning of MAC_FLUSH_DONE. -/
def execMacFlushDone (words : List (BitVec 22 × WordEcc)) (dma : Dma) (s : State) : Out := .next (macFlushDone s words dma)

/-- R277: mac_hash_salt is refused while an entry is VALID. -/
def macSaltCheck : Nat → State → Code := fun _ s => refuseIf (!s.tbl.mac.isEmpty) .state

end Sys2Proof.Machine
end

