-- ==== Sys2Proof/Machine/Leaps.lean ====
section
/-! DEFINITION. The leap operations (R174 to R190): deferred operations on a segment, issue, and their effect at commit. -/

namespace Sys2Proof.Machine

/-! ## Deferred operations (R183 to R188) -/

/-- R184: LSEQ of parameter set `ps` on a segment with an operand: the segment and the action code. -/
def lseq (ps seg operand : Nat) : Nat × Nat :=
  let w := fld ps 121 5 + 1
  let base := fld ps 120 1
  let m := if fld ps 32 32 = 0 then 2 ^ w else fld ps 32 32
  let s := operand % 2 ^ w
  let last := fld seg 0 32
  let accept := fun (seg : Nat) => setFld seg 0 32 s
  let outcome := fun (seg o : Nat) => setFld seg 112 3 o
  let restart := (outcome (accept (setFld seg 96 16 (satAdd 16 (fld seg 96 16) 1))) 5, fld ps 118 2)
  if bit seg 119 = false then (outcome (setFld (accept seg) 119 1 1) 0, 0)
  else if s < base ∨ m ≤ s then restart
  else
    let l := m - base
    let d0 : Nat := (((s : Int) - (last : Int)) % (l : Int)).toNat
    if l / 2 < d0 then
      if l - d0 ≤ fld ps 96 16 then (outcome (setFld seg 64 16 (satAdd 16 (fld seg 64 16) 1)) 4, fld ps 114 2)
      else restart
    else if d0 = 0 then (outcome (setFld seg 80 16 (satAdd 16 (fld seg 80 16) 1)) 3, fld ps 112 2)
    else if d0 = 1 then (outcome (accept seg) 1, 0)
    else if d0 ≤ fld ps 64 32 then (outcome (accept (setFld seg 32 32 (satAdd 32 (fld seg 32 32) (d0 - 1)))) 2, fld ps 116 2)
    else restart

/-- R186: LDUP of a parameter set on a segment, with the operand and the age. -/
def ldup (ps seg operand : Nat) (age : Int) : Nat × Nat :=
  let w := fld ps 122 4 + 1
  let n := fld ps 116 6 + 1
  let s := operand % 2 ^ w
  let forget := fld ps 96 16
  let high := fld seg 0 16
  let seen := fld seg 16 64
  let outcome := fun (seg o : Nat) => setFld seg 120 2 o
  let cut := fun (seg : Nat) => setFld seg 16 64 (fld seg 16 64 % 2 ^ n)
  let dup := (cut (outcome (setFld seg 80 32 (satAdd 32 (fld seg 80 32) 1)) 1), fld ps 114 2)
  if bit seg 127 = false ∨ (forget ≠ 0 ∧ (forget : Int) ≤ age) then
    (outcome (setFld (setFld (setFld seg 0 16 s) 16 64 0) 127 1 1) 0, 0)
  else
    let d := toSigned w (s + 2 ^ 16 - high)
    if 0 < d then
      let k := d.toNat
      let seen' := if 64 < k then 0 else (seen * 2 ^ k + 2 ^ (k - 1)) % 2 ^ 64
      (cut (outcome (setFld (setFld seg 16 64 seen') 0 16 s) 0), 0)
    else if d = 0 then dup
    else
      let k := (-d).toNat
      if k ≤ n then
        if bit seen (k - 1) then dup else (cut (outcome (setFld seg 16 64 (setFld seen (k - 1) 1 1)) 0), 0)
      else (cut (outcome (setFld seg 112 8 (satAdd 8 (fld seg 112 8) 1)) 2), fld ps 112 2)

/-- R188: LTOK of a parameter set on a segment, with the operand, the packet's time in ns and the age. -/
def ltok (ps seg operand ns : Nat) (age : Int) : Nat × Nat :=
  let c := operand % 2 ^ 24
  let t := if ns % 2 ^ 32 = 0 then 1 else ns % 2 ^ 32
  let full := fld ps 100 24 * 2 ^ 32
  let last := fld seg 64 32
  let tokens := fld seg 0 64
  let e := wrapDiff 32 t last
  let (tk, lt) :=
    if last = 0 ∨ 2000 ≤ age then (full, t)
    else if 0 < e then (min (tokens + e.toNat * fld ps 48 48) full, t)
    else (tokens, last)
  let seg1 := setFld seg 64 32 lt
  if c * 2 ^ 32 ≤ tk then (setFld seg1 0 64 (tk - c * 2 ^ 32), 0)
  else (setFld (setFld seg1 0 64 tk) 96 32 (satAdd 32 (fld seg 96 32) 1), fld ps 124 2)

/-! ## Buffered operations on a segment -/

/-- IN_TS of a packet as a linear time in units of 2^-16 ns. -/
def inLin (md : Nat) : Nat := stampLin (fld md 64 96)

/-- The template of a packet's hue that a number names. -/
def State.tmplOf (s : State) (md tnum : Nat) : Option Nat := s.tmplBody tnum (fld md 48 16)

/-- R180: the field of a commutative operation: its first bit and width. -/
def commField (mimm : Nat) : Nat × Nat := (8 * (mimm % 16), 8 * 2 ^ fld mimm 8 2)

/-- A buffered operation on the content of its segment: the content and the action code (R178, R180, R182). `desc` is the
template's descriptor, `seen` LAST_SEEN of the record before this commit. -/
def applySeg (desc md seen : Nat) (o : LeapOp) (seg : Nat) : Nat × Nat :=
  let (lo, w) := commField o.mimm
  let x := o.data % 2 ^ w
  let y := fld seg lo w
  let ps := tmplSet desc (o.mimm % 4)
  let age := wrapDiff 32 (seenUnits (inLin md)) seen
  match o.kind with
  | .lset => (setFld seg (64 * (o.mimm % 2)) 64 o.data, 0)
  | .ladd => (setFld seg lo w (x + y), 0)
  | .lmax => (setFld seg lo w (max x y), 0)
  | .lmin => (setFld seg lo w (min x y), 0)
  | .lor => (setFld seg lo w (Nat.lor x y), 0)
  | .lseq => lseq ps seg o.data
  | .ldup => ldup ps seg o.data age
  | .ltok => ltok ps seg o.data (inLin md / 65536) age
  | .lins => (seg, 0)
  | .ldel => (seg, 0)

/-- R182: an action code on a packet's verdict. -/
def actOn (md act : Nat) : Nat :=
  match act with
  | 1 => setFld md 41 1 1
  | 2 => setFld md 46 2 2
  | 3 => setFld md 40 1 1
  | _ => md

/-! ## Handles -/

/-- The template of the record that a handle names (R182, R214). -/
def State.handleTmpl (s : State) (h : Handle) : Nat :=
  match h.ins with
  | some (t, _) => t
  | none => match s.line h.key with
    | some l => recTmpl l.img
    | none => 0

/-- Segment 3 and INIT of a record that an LINS creates (R227), with CHECKED_OUT. -/
def State.newRecord (s : State) (key tmpl place md : Nat) : Nat :=
  let now := seenUnits (inLin md)
  let alt := s.altAt key place
  let head := fld md 32 8 * 2 ^ 112 + tmpl * 2 ^ 108 + fld key 376 4 * 2 ^ 104 + 2 ^ 103 + b2n alt * 2 ^ 102 + 2 ^ 100 + now * 2 ^ 64 +
    now * 2 ^ 32
  tmplInit ((s.tmplOf md tmpl).getD 0) * 2 ^ 512 + head * 2 ^ 384 + key % 2 ^ 384

/-- The content that an LRD reads before the leap's own operations (R179, R189), LOCK as it stands (R238), with the version of a committed segment. -/
def State.readSeg (s : State) (md : Nat) (h : Handle) (k : Nat) : Nat × Option Nat :=
  match h.ins with
  | some (t, p) => (segOf (s.newRecord h.key t p md) k, none)
  | none => match s.line h.key with
    | some l =>
      if l.st = .absent then (0, none)
      else (segOf (setFld l.img 485 1 (b2n (s.flowLocked h.key))) k, some (l.vers.getD k 0))
    | none => (0, none)

/-- The first `n` operations of a leap on a segment of a record, in issue order. -/
def State.ownOps (s : State) (x : Thread) (h : Handle) (k n seg : Nat) : Nat :=
  let desc := (s.tmplOf x.md (s.handleTmpl h)).getD 0
  let seen := match s.line h.key with
    | some l => if l.st = .absent then seenUnits (inLin x.md) else recSeen l.img
    | none => seenUnits (inLin x.md)
  (x.leap.ops.take n).foldl (fun v o =>
    match x.handle o.hnd with
    | some g => if g.key = h.key ∧ o.seg = k ∧ o.kind ≠ .lins ∧ o.kind ≠ .ldel then (applySeg desc x.md seen o v).1 else v
    | none => v) seg

/-! ## Issue -/

/-- What an operation's issue does: the run goes on, or ends as for TRAP. -/
abbrev Issued := Bool × State

/-- A result register's value on the way. -/
def State.addPend (s : State) (t : Nat) (p : Pend) : State := s.modTh t (fun x => { x with pend := x.pend ++ [p] })

/-- R174 to R176: LBIND. A handle to a record that another handle names shares that one's insert; an LDEL ends its own handle alone (R190). -/
def leapBind (s : State) (t mdst hnd : Nat) (own : Bool) (key : Nat) : Issued :=
  let x := s.th t
  match x.job with
  | none => (false, s)
  | some j =>
    if x.leap.abandoned ∨ (x.handle hnd).isSome = true then (true, s)
    else
      let h := s.flowHash key
      let known := s.cu.claims.contains (j.lsn, h.1, h.2)
      let s1 :=
        if own || known then s
        else
          let s0 := s.addClaim j.lsn h
          if j.bindOpen then s0
          else
            let a := s0.orderBreach key j.lsn
            if s.cu.claims.any (fun c => c.2.1 == h.1 && c.2.2 == h.2 && lsnBefore j.lsn c.1) then a.bump Objs.late_keyed_binds
            else a
      let twin := (x.leap.handles.find? (fun p => p.2.key = key)).map (·.2)
      let hd : Handle := match twin with
        | some g => { g with own := own || g.own, st := .pending, dead := false, del := false }
        | none => ⟨key, own, .pending, 0, 0, none, none, false, false⟩
      let leap : Leap := { x.leap with used := true, handles := tput hnd hd x.leap.handles }
      let closes := decide (4 ≤ leap.handles.length)
      let y := { x with leap := leap, job := some { j with bindOpen := j.bindOpen && !closes },
                        pend := x.pend ++ [⟨mdst, 1, .bind hnd⟩] }
      (false, (s1.setTh t y).startLookup key)

/-- The operations that R179 keeps from a handle, by what the handle's bind returned. -/
def handleRefuses (x : Thread) (hnd : Nat) (onAbsent : Bool) : Bool :=
  match x.handle hnd with
  | none => true
  | some h => h.dead || decide (h.st = .unavailable) || (decide (h.st = .absent) && h.ins.isNone && !onAbsent)

/-- R179: LRD. -/
def leapRead (s : State) (t mdst hnd seg : Nat) : Issued :=
  let x := s.th t
  if x.leap.abandoned || handleRefuses x hnd (seg == 3) then (true, s)
  else
    let y := { x with leap := { x.leap with used := true }, pend := x.pend ++ [⟨mdst, 2, .lrd hnd seg x.leap.ops.length⟩] }
    (false, s.setTh t y)

/-- R179, R182, R214: what ends the run at the issue of a write-class operation. -/
def writeRefuses (s : State) (x : Thread) (o : LeapOp) : Bool :=
  let structural := decide (o.kind = .lins) || decide (o.kind = .ldel)
  x.leap.abandoned || handleRefuses x o.hnd structural || decide (32 ≤ x.leap.ops.length) ||
  (!structural && decide (o.seg < 4)) ||
  (match x.handle o.hnd with
  | none => true
  | some h =>
    match o.kind with
    | .lins => (s.tmplOf x.md (fld o.mimm 0 4)).isNone
    | .ldel => false
    | .lset => false
    | .lseq => (s.tmplOf x.md (s.handleTmpl h)).all (fun d => fld (tmplSet d (o.mimm % 4)) 126 2 != 1)
    | .ldup => (s.tmplOf x.md (s.handleTmpl h)).all (fun d => fld (tmplSet d (o.mimm % 4)) 126 2 != 2)
    | .ltok => (s.tmplOf x.md (s.handleTmpl h)).all (fun d => fld (tmplSet d (o.mimm % 4)) 126 2 != 3)
    | _ => (commField o.mimm).1 % (commField o.mimm).2 != 0)

/-- R178, R192: a write-class operation is issued; on a locked record it waits. -/
def leapWrite (s : State) (t : Nat) (o : LeapOp) : Issued :=
  let x := s.th t
  if writeRefuses s x o then (true, s)
  else
    let x1 := { x with leap := { x.leap with used := true }, job := x.job.map (fun j => { j with bindOpen := false }) }
    let s1 := s.setTh t x1
    match x.handle o.hnd with
    | none => (true, s)
    | some h => if s1.flowLocked h.key then (false, s1.setTh t { x1 with lockWait := some (o, s.fNs) }) else (false, acceptOp s1 t o)

/-- R181: LABORT. -/
def leapAbort (s : State) (t : Nat) : Issued := if (s.th t).leap.abandoned then (true, s) else (false, s.abandon t)

/-! ## Commit (R194) -/

/-- R235, R236: the learn notice of a NOTIFIED insert. -/
def learnNotice (s : State) (md key tmpl : Nat) : State :=
  let h := s.flowHash key
  let id := h.1 * 2 ^ 32 + h.2
  if s.fsu.notices.any (fun n => n.1 == id && !s.elapsed n.2 (s.rd Objs.learn_notice_hold)) then s.bump Objs.learn_suppressed
  else
    let kept := s.fsu.notices.filter (fun n => n.1 ≠ id)
    let kept := if 4096 ≤ kept.length then kept.drop 1 else kept
    let s1 : State := { s with fsu := { s.fsu with notices := kept ++ [(id, s.fNs)] } }
    let v := fld md 48 16 * 2 ^ 496 + fld md 160 8 * 2 ^ 480 + tmpl * 2 ^ 476 + fld key 376 4 * 2 ^ 472 + fld md 32 8 * 2 ^ 464 +
      fld md 80 32 * 2 ^ 432 + fld md 112 48 * 2 ^ 384 + key
    (s1.bump Objs.learn_notices).deliver (s.rd Objs.learn_notice_ring) 2 (leBytes 64 v)

/-- A leap at commit: the state, the metadata with the verdict so far, whether a deferred operation dropped, and the segments
written, as key and segment. -/
structure Commit where
  st : State
  md : Nat
  dropped : Bool
  written : List (Nat × Nat)

/-- One buffered operation takes effect. -/
def commitOp (x : Thread) (c : Commit) (o : LeapOp) : Commit :=
  match x.handle o.hnd with
  | none => c
  | some h =>
    match c.st.line h.key with
    | none => c
    | some l =>
      match o.kind with
      | .lins =>
        match h.ins, h.notified with
        | some (tmpl, place), _ =>
          if l.st = .absent then
            let img := c.st.newRecord h.key tmpl place x.md
            let s1 := c.st.placeRec h.key place img
            let s2 := s1.setLine h.key { l with st := .dirty, img := img, home := place, gen := (l.gen + 1) % 256 }
            { c with st := { s2 with fsu := { s2.fsu with reserved := s2.fsu.reserved.filter (fun p => decide (h.ins.map Prod.snd ≠ some p)) } }.bump Objs.inserts }
          else c
        | none, some tmpl => { c with st := learnNotice c.st x.md h.key tmpl }
        | none, none => c
      | .ldel => if h.del && decide (l.st ≠ .absent) then { c with st := (c.st.delRec h.key).bump Objs.deletes } else c
      | _ =>
        if l.st = .absent then c
        else
          let desc := (c.st.tmplOf x.md (recTmpl l.img)).getD 0
          let (v, act) := applySeg desc x.md (recSeen l.img) o (segOf l.img o.seg)
          { c with st := c.st.setLine h.key { l with st := .dirty, img := setSeg l.img o.seg v }, md := actOn c.md act,
                   dropped := c.dropped || act == 3, written := (h.key, o.seg) :: c.written }

/-- R169, R170, R177: a record that a leap bound, after its operations. LAST_SEEN is that of a record that a bind returned FOUND or that the
leap inserted, which `seen` tells. -/
def commitRecord (lsn lin : Nat) (written : List (Nat × Nat)) (seen : Nat → Bool) (s : State) (h : Handle) : State :=
  match s.line h.key with
  | none => s
  | some l =>
    let vers := (List.range 8).map (fun k => if written.contains (h.key, k) then (l.vers.getD k 0 + 1) % 256 else l.vers.getD k 0)
    let l1 := { l with vers := vers, commits := l.commits + 1, lastLsn := some lsn }
    let t := seenUnits lin
    if l.st ≠ .absent ∧ seen h.key = true ∧ later 32 t (recSeen l.img) = true then
      (s.setLine h.key { l1 with img := setSeen l.img t, st := .dirty }).recFresh h.key
    else s.setLine h.key l1

/-- The handles of a leap, one for each record. -/
def leapRecords (l : Leap) : List Handle :=
  (l.handles.map (·.2)).foldl (fun a h => if a.any (fun g => g.key = h.key) then a else a ++ [h]) []

/-- R170: a leap bound the record of a key FOUND, or inserted it. -/
def leapHas (l : Leap) (key : Nat) : Bool :=
  l.handles.any (fun h => h.2.key == key && (decide (h.2.st = .found) || h.2.ins.isSome))

/-- R215: a packet without a record is dropped where its template says so. -/
def norecDrop (s : State) (x : Thread) (md : Nat) : Nat :=
  let missed := x.leap.norec || x.leap.handles.any (fun h => h.2.own && decide (h.2.st = .unavailable))
  match s.tmplOf md (fld md 172 4) with
  | some d => if missed && bit d 59 then setFld md 40 1 1 else md
  | none => md

/-- R194: a leap takes effect. -/
def commitLeap (s : State) (t : Nat) (x : Thread) (j : Job) : State :=
  let c := x.leap.ops.foldl (commitOp x) ⟨s, x.md, false, []⟩
  let s1 := (leapRecords x.leap).foldl (commitRecord j.lsn (inLin x.md) c.written (leapHas x.leap)) c.st
  let s2 := if c.dropped then s1.bump Objs.deferred_drop else s1
  let md := norecDrop s2 x c.md
  let s3 := match x.leap.learn with
    | some k => s2.learnEnqueue k (fld x.md 32 8) (inLin x.md)
    | none => s2
  let s4 := s3.setTh t { x with md := md, leap := { Leap.empty with used := true }, pend := [],
                                job := some { j with reserved := false }, status := some 0 }
  ((s4.releaseLsn j.lsn).bump Objs.leap_committed).traceEvt t 1 j.lsn

/-- R194: the hash pair of the first read that is no longer current; none where every read is. DESIGN CHOICE (log 51): a bind that returned
UNAVAILABLE gave no generation, and is not validated. -/
def staleRead (s : State) (l : Leap) : Option Nat :=
  let bind := (l.handles.find? (fun p =>
    decide (p.2.st ≠ .unavailable) && decide (p.2.st ≠ .pending) && (match s.line p.2.key with
      | some x => x.gen != p.2.gen || decide (256 ≤ x.commits - p.2.seen)
      | none => true))).map (fun p => p.2.key)
  match bind with
  | some k => some k
  | none => (l.reads.find? (fun r => match s.line r.key with
    | some x => x.vers.getD r.seg 0 != r.ver
    | none => true)).map (·.key)

/-- R199: while sf_auto is 1, an abort counts against the leap's own record, which may become single-file. -/
def sfCount (s : State) (j : Job) : State :=
  if s.rd Objs.sf_auto ≠ 1 then s
  else
  let h := j.pair
  let recent := s.cu.sfAborts.filter (fun a => !s.elapsed a.1 (s.rd Objs.sf_window + 1)) ++ [(s.fNs, h.1, h.2)]
  let mine := recent.filter (fun a => a.2.1 == h.1 && a.2.2 == h.2)
  let s1 : State := { s with cu := { s.cu with sfAborts := recent } }
  if s.rd Objs.sf_abort_threshold ≤ mine.length ∧ (s.sfFind h).isNone = true then
    let s2 : State := { s1 with cu := { s1.cu with sfAborts := recent.filter (fun a => !(a.2.1 == h.1 && a.2.2 == h.2)) } }
    match (List.range 256).find? (fun i => (tfind s.sk.sf i).isNone) with
    | none => s2.raise 70 0
    | some i => match s2.sfMake i h.1 h.2 false with
      | none => s2.raise 70 0
      | some s3 => s3.raise 68 0
  else s1

/-- R194: abort(L). -/
def abortLeap (s : State) (t : Nat) (x : Thread) (j : Job) (key : Nat) : State :=
  let s1 := (s.dropInserts x.leap).setTh t { x with leap := { Leap.empty with used := true }, pend := [], status := some 1 }
  let s2 := ((s1.bump Objs.leap_abort_conflict).raise 96 0).traceEvt t 2 j.lsn
  if key = j.pkt.key then sfCount s2 j else s2

/-- R194, R203: why a halted leap waits: an earlier claim (or an earlier leap while R203 holds), or the horizon alone. -/
def leapWaits (s : State) (lsn : Nat) : Bool × Bool :=
  let mine := s.cu.claims.filter (fun c => c.1 == lsn)
  let earlier := s.cu.claims.any (fun c => lsnBefore c.1 lsn && mine.any (fun m => m.2 == c.2))
  let strict :=
    if s.cu.strict = [] then false
    else if s.cu.strict.contains lsn then s.cu.reserved.any (fun l => lsnBefore l lsn)
    else true
  let behind := match s.horizon with
    | some h => !lsnBefore lsn h
    | none => false
  (earlier || strict, behind)

/-- R238: a reserved place that a lock of software has closed since gives way to another free one; none where there is no other. -/
def reseat (key tmpl place : Nat) (s : State) (x : Thread) : Option (State × Thread) :=
  if s.slotLocked place = false then some (s, x)
  else
    let kept := s.fsu.reserved.filter (· ≠ place)
    let s1 : State := { s with fsu := { s.fsu with reserved := kept } }
    (s1.freePlace key).map (fun q =>
      ({ s1 with fsu := { s1.fsu with reserved := kept ++ [q] } },
       { x with leap := setHandles key (fun g => { g with ins := some (tmpl, q) }) x.leap }))

/-- Every reserved place of a leap is open to its insert, or another takes its part. -/
def reseatAll (x : Thread) (s : State) : Option (State × Thread) :=
  (leapRecords x.leap).foldl (fun r h => match r, h.ins with
    | some (s, x), some (tmpl, place) => reseat h.key tmpl place s x
    | r, _ => r) (some (s, x))

/-- LEAP_COMMIT: the commit unit tests the halted leap of a thread. A leap whose insert has no place that a lock leaves open waits
(R238; DESIGN CHOICE, log 46). -/
def leapTest (s : State) (t : Nat) (err : LeapErr) : State :=
  let x := s.th t
  match x.job with
  | none => s
  | some j =>
    if x.inCommit = false ∨ x.status ≠ none then s
    else
      let s := match err with
        | .claimCorrected => s.raise 102 0
        | .claimBad => { s with cu := { s.cu with strict := s.cu.reserved } }.raise 103 0
        | _ => s
      if err = .buffer then (s.raise 104 0 0 none j.lsn).machineCheck t (some (16, evNamed 104))
      else match leapWaits s j.lsn with
        | (true, _) => s
        | (false, true) => s.bump Objs.horizon_wait_cycles
        | (false, false) => match staleRead s x.leap with
          | some k => abortLeap s t x j k
          | none => match reseatAll x s with
            | none => s
            | some (s1, y) => commitLeap s1 t y j

/-- R112: a replay on the same thread. -/
def replayHere (s : State) (t : Nat) (x : Thread) (j : Job) : State :=
  let md := j.pkt.md
  let j1 := { j with pkt := { j.pkt with md := replayed md }, bindOpen := false }
  let y : Thread := { Thread.init with st := .loading, job := some j1, bound := x.bound, hw := headerWindow j.pkt.frame,
                                       md := j1.pkt.md, since := s.fNs }
  ((s.replaySat t md).setTh t y).bpCheck t 2 0 0 y.top y.flags (fun _ => true)

/-- LEAP_STATUS_DELIVERED: the leap's final status reaches the thread (R112). -/
def statusDelivered (s : State) (t : Nat) : State :=
  let x := s.th t
  match x.job, x.status with
  | some j, some 1 => replayHere s t x j
  | some _, some st => s.threadFree t st
  | _, _ => s

/-- LEAP_WAIT_LIMIT (R204). -/
def leapWaitLimit (s : State) (t : Nat) : State :=
  let x := s.th t
  if x.inCommit = true ∧ x.status = none ∧ x.waitRaised = false ∧ s.elapsed x.halted (s.rd Objs.leap_wait_limit) = true then
    (s.setTh t { x with waitRaised := true }).raise 101 0 ((x.job.map (·.lsn)).getD 0)
  else s

end Sys2Proof.Machine
end

