-- ==== Sys2Proof/Machine/Fsu.lean ====
section
/-! DEFINITION. The rows of the Flow State Unit (chapter 8): reads that return, relocation, the sweeper, flushes, locks, and
software access to flow records. -/

namespace Sys2Proof.Machine

/-! ## Bucket reads (R221) -/

/-- A lookup after one of its reads has returned. -/
def fillStep (s : State) (f : Fill) : State :=
  let put := fun (x : Fill) (t : State) => { t with fsu := { t.fsu with fills := t.fsu.fills.map (fun y => if y.key = x.key then x else y) } }
  if f.wait ≠ [] then put f s
  else
    let (b1, b2) := s.flowBuckets f.key
    let found := (s.homeRead f.key f.frozen).isSome
    let room := (tfind s.fsu.slots (2 * b1)).isNone || (tfind s.fsu.slots (2 * b1 + 1)).isNone
    if f.readB2 || found || room || s.pcRetired (bucketPc b2) then s.fillEnd f
    else
      let (t, s1) := s.readBucket b2
      put { f with wait := [t], readB2 := true } (s1.bump Objs.second_reads)

/-- The key of the line that a fill for a key would take the place of (R224). -/
def State.victimOf (s : State) (key : Nat) : Option Nat :=
  (pickVictim (s.fsu.lines.filter (fun p => !p.2.overflow && s.cacheSet p.1 == s.cacheSet key && s.evictable p.1 p.2))).map (·.1)

/-- R398: the FSU releases the row of a bucket read where no write of burst 1 of the bucket is to follow. -/
def State.releaseUnused (s : State) (p b : Nat) : State :=
  if (s.ctl p).wait.any (fun a => match a with
    | .write w => w.client == 0 && (w.off == slotBurst (2 * b) 1 || w.off == slotBurst (2 * b + 1) 1)
    | .read _ => false) then s
  else releaseRow s p (bankOf (bucketOff b))

/-- BUCKET_READ_RETURN: the read of this tag returns to the FSU. An error in a line is one in the line that the fill replaces. -/
def bucketReturn (s : State) (tag : Nat) (ecc : FsuEcc) : State :=
  match s.fsu.bucketReads.find? (fun r => r.1 = tag) with
  | none => s
  | some (_, b) =>
    let p := bucketPc b
    match takeDone (s.ctl p).done 0 tag 8 with
    | none => s
    | some (frozen, rest) =>
      let victim := (s.fsu.fills.find? (fun f => f.wait.contains tag)).bind (fun f => s.victimOf f.key)
      let s1 := (s.setCtl p { s.ctl p with done := rest }).fsuEcc victim.toList ecc
      let s2 : State := { s1 with fsu := { s1.fsu with bucketReads := s1.fsu.bucketReads.filter (fun r => r.1 ≠ tag) } }
      match s2.fsu.fills.find? (fun f => f.wait.contains tag) with
      | none => s2.releaseUnused p b
      | some f =>
        (fillStep s2 { f with wait := f.wait.erase tag, frozen := if frozen then b :: f.frozen else f.frozen }).releaseUnused p b

/-- The meaning of BUCKET_READ_RETURN. -/
def execBucketReadReturn (tag : Nat) (ecc : FsuEcc) (s : State) : Out := .next (bucketReturn s tag ecc)

/-! ## Relocation (R228, R229) -/

/-- The buckets that the running paths touch. -/
def pathBuckets (s : State) : List Nat :=
  (s.fsu.paths.map (fun p => (p.moves.map (fun m => [m.src / 2, m.dst / 2])).flatten)).flatten

/-- A bucket may take part in a new path. -/
def bucketOpen (s : State) (b : Nat) : Bool :=
  s.pcServes (bucketPc b) && !(pathBuckets s).contains b &&
    !s.fsu.locks.any (fun l => decide (l.target = LockTarget.bucket b))

/-- The bucket, of the two of the record in a slot, in which it does not live. -/
def otherHome (s : State) (i : Nat) : Nat :=
  let b := s.flowBuckets (recKey ((tfind s.fsu.slots i).getD 0))
  if i / 2 = b.1 then b.2 else b.1

/-- R228: the walk from a bucket; `chain` holds the victims so far with their slots, last first. Answers the moves from the
free end without the stash record's, the slot that the stash record takes, and whether 64 moves found no free slot. -/
def relocWalk : Nat → State → Nat → List (Nat × Nat) → Option (Nat × List (Nat × Nat)) × Bool × State
  | 0, s, _, _ => (none, true, s)
  | n + 1, s, b, chain =>
    if bucketOpen s b = false then (none, false, s)
    else
      let s := s.fsuSees (.bucket b)
      match [2 * b, 2 * b + 1].find? s.slotFree with
      | some q => (some (q, chain), false, s)
      | none =>
        let (r, s1) := s.draw
        let order := if r % 2 = 0 then [2 * b, 2 * b + 1] else [2 * b + 1, 2 * b]
        let ok := fun i => (tfind s1.fsu.slots i).isSome && !s1.slotLocked i && !chain.any (fun c => c.2 == i) &&
          bucketOpen s1 (otherHome s1 i)
        match order.find? ok with
        | none => (none, false, s1)
        | some i => relocWalk n s1 (otherHome s1 i) ((recKey ((tfind s1.fsu.slots i).getD 0), i) :: chain)

/-- The moves of a chain into a free slot, from the free end; the stash record comes last. -/
def chainMoves (key place : Nat) : Nat → List (Nat × Nat) → List Move
  | q, [] => [⟨key, place, q⟩]
  | q, (k, i) :: rest => ⟨k, i, q⟩ :: chainMoves key place i rest

/-- The line of a record, where it has one, names a new home. -/
def State.lineHome (s : State) (key home : Nat) : State :=
  match s.line key with
  | some l => if l.st = .absent then s else s.setLine key { l with home := home, img := setFld l.img 486 1 (b2n (s.altAt key home)) }
  | none => s

/-- R229 steps 2 and 3: the record is written into its new slot; none when the record or the slot is no longer as found, or a lock keeps
the record where it is (R238). -/
def writeMove (s : State) (m : Move) : Option (List Nat × State) :=
  match s.homeImg m.src with
  | none => none
  | some r =>
    if recKey r = m.key ∧ s.slotFree m.dst = true ∧ s.slotLocked m.src = false then
      let s2 := (s.placeRec m.key m.dst r).lineHome m.key m.dst
      let waits := (s.fsu.bucketReads.filter (fun t => t.2 == m.dst / 2 || (decide (m.src < stashBase) && t.2 == m.src / 2))).map (·.1)
      some (waits, s2)
    else none

/-- R228: the first bucket of a walk, by the LFSR word `x`, a bucket that cannot take part left out. -/
def walkStart (s : State) (x b1 b2 : Nat) : Nat :=
  if x % 2 = 0 then if bucketOpen s b1 then b1 else b2
  else if bucketOpen s b2 then b2 else b1

/-- RELOC_WALK: the FSU tries to place the record of a stash place. -/
def relocStart (s : State) (place : Nat) : State :=
  match tfind s.fsu.stash place with
  | none => s
  | some r =>
    let key := recKey r
    if 16 ≤ s.fsu.paths.length ∨ s.fsu.paths.any (fun p => p.moves.any (fun m => m.key == key)) = true then s
    else
      let (x, s0) := s.draw
      let (b1, b2) := s0.flowBuckets key
      match relocWalk 64 s0 (walkStart s0 x b1 b2) [] with
      | (none, true, s1) => (s1.bump Objs.reloc_fail).raise 106 0
      | (none, false, s1) => s1
      | (some (q, chain), _, s1) =>
        let moves := chainMoves key (stashBase + place) q chain
        match moves with
        | [] => s1
        | m :: _ =>
          match writeMove s1 m with
          | none => s1
          | some (w, s2) => { s2 with fsu := { s2.fsu with paths := s2.fsu.paths ++ [⟨moves, w⟩] } }

/-- The meaning of RELOC_WALK. -/
def execRelocWalk (place : Fin 1024) (s : State) : Out := .next (relocStart s place.val)

/-- R229 steps 5 to 7: the old place of a move is cleared, where the record still is in both. -/
def State.endMove (s : State) (m : Move) : State := (if s.twice m then s.dropCopy m.key m.src else s).bump Objs.reloc_moves

/-- R238: a lock that came while a record was in both places of a move keeps it in the old one. -/
def State.undoMove (s : State) (m : Move) : State := if s.twice m then (s.dropCopy m.key m.dst).lineHome m.key m.src else s

/-- RELOC_MOVE_DONE (R229 steps 4 to 7): the old place is cleared and the next move of the path is written. -/
def relocDone (s : State) (i : Nat) : State :=
  match s.fsu.paths[i]? with
  | none => s
  | some p =>
    if p.waits.any (fun t => s.fsu.bucketReads.any (fun r => r.1 == t)) then s
    else match p.moves with
      | [] => { s with fsu := { s.fsu with paths := s.fsu.paths.eraseIdx i } }
      | m :: rest =>
        if s.slotLocked m.src then
          let t := s.undoMove m
          { t with fsu := { t.fsu with paths := t.fsu.paths.eraseIdx i } }
        else
        let s1 := s.endMove m
        match rest with
        | [] => { s1 with fsu := { s1.fsu with paths := s1.fsu.paths.eraseIdx i } }
        | m2 :: _ =>
          match writeMove s1 m2 with
          | none => { s1 with fsu := { s1.fsu with paths := s1.fsu.paths.eraseIdx i } }
          | some (w, s2) => { s2 with fsu := { s2.fsu with paths := s2.fsu.paths.set i ⟨rest, w⟩ } }

/-- The meaning of RELOC_MOVE_DONE. -/
def execRelocMoveDone (path : Fin 16) (s : State) : Out := .next (relocDone s path.val)

/-! ## The sweeper (R232 to R234) and flow flushes (R243) -/

/-- The next record at or after a place whose pseudo-channel serves. -/
def nextRec (s : State) (from' : Nat) : Option (Nat × Nat) :=
  match s.fsu.slots.find? (fun p => decide (from' ≤ p.1) && s.placeServes p.1) with
  | some p => some p
  | none => (s.fsu.stash.find? (fun p => from' ≤ stashBase + p.1)).map (fun p => (stashBase + p.1, p.2))

/-- The first four flushes run. -/
def startRunning : Nat → List FlowFlush → List FlowFlush
  | _, [] => []
  | 0, l => l
  | n + 1, f :: t => { f with running := true } :: startRunning n t

/-- A pass begins: a flush pass of 1 s where flushes wait, else a regular one. -/
def newPass (s : State) : State :=
  let len := if s.fsu.flushes = [] then s.rd Objs.sweep_period else 1
  let f := startRunning 4 s.fsu.flushes
  let u := { s.fsu with sweepPos := 0, sweepStart := s.fNs, sweepLen := len, slowRaised := false, flushes := f }
  { s with fsu := { u with stepPass := s.fsu.stepPass - 1 } }

/-- The flow export of a deleted record (R490), from its byte 16 on. -/
def exportBody (place age img : Nat) : List Byte :=
  leBytes 16 (place * 2 ^ 96 + age * 2 ^ 64 + 1 * 2 ^ 56 + recTmpl img * 2 ^ 52 + fld img 488 4 * 2 ^ 48) ++ leBytes 128 img

/-- A flush's criterion meets a record. -/
def flushMeets (f : FlowFlush) (img : Nat) : Bool := f.running && (if f.byPort then recPort img == f.value else recTmpl img == f.value)

/-- Every running flush that meets a record counts it. -/
def countFlush (skipped : Bool) (img : Nat) : List FlowFlush → List FlowFlush
  | [] => []
  | f :: t =>
    (if flushMeets f img then
      (if skipped then { f with skipped := f.skipped + 1 } else { f with deleted := f.deleted + 1 })
    else f) :: countFlush skipped img t

/-- The sweeper's own write of LAST_SEEN; it bumps no version. -/
def sweepSeen (s : State) (key home t : Nat) : State :=
  match s.line key with
  | some l => if l.st = .absent then s else s.setLine key { l with img := setSeen l.img t, st := .dirty }
  | none => match s.homeImg home with
    | some r => s.putRec key home (setSeen r t)
    | none => s

/-- The clamp of R233. -/
def seenClamp : Nat := 2 ^ 31 - 2 ^ 21

/-- R232 to R234, R243: the sweeper at one record. -/
def sweepOne (s : State) (home key : Nat) : State :=
  let now := s.seenNow
  let s := if 0 < s.fsu.stepPass ∧ s.fsu.old.contains key = true then (sweepSeen s key home now).recFresh key else s
  let img := s.curImg key home
  let age := wrapDiff 32 now (recSeen img)
  let locked := s.flowLocked key
  let blocked := locked || s.claimed (s.flowHash key)
  let clamp := fun (s : State) =>
    if (seenClamp : Int) ≤ age then (sweepSeen s key home ((now + 2 ^ 32 - seenClamp) % 2 ^ 32)).recFresh key else s
  if s.fsu.flushes.any (·.running) then
    if s.fsu.flushes.any (fun f => flushMeets f img) then
      let s1 : State := { s with fsu := { s.fsu with flushes := if blocked && !locked then s.fsu.flushes else countFlush locked img s.fsu.flushes } }
      if blocked then clamp (s1.bump Objs.sweep_lock_skip) else (s1.delRec key).bump Objs.deletes
    else clamp s
  else
    let d := (s.tmplBody (recTmpl img) s.hueActive).getD 0
    let limit := fld d 0 32
    if limit ≠ 0 ∧ (limit : Int) ≤ age ∧ s.fsu.stepPass = 0 then
      if blocked then clamp (s.bump Objs.sweep_lock_skip)
      else
        let s1 := (s.delRec key).bump Objs.aged
        if bit d 58 then s1.offer (fld d 52 6) 2 (exportBody home (ofSigned 32 age) (s.recImage home img)) else s1
    else clamp s

/-- R247: a pass that has overrun its length by more than 10 % raises EV115, once. -/
def State.sweepLate (s : State) : State :=
  if s.elapsed s.fsu.sweepStart (s.fsu.sweepLen * 1100000000) && !s.fsu.slowRaised then
    ({ s with fsu := { s.fsu with slowRaised := true } } : State).raise 115 0
  else s

/-- SWEEPER_VISIT: the next record; after the last a regular pass that has lasted its period ends. -/
def sweepVisit (s : State) (ecc : FsuEcc) : State :=
  let s := s.sweepLate
  match nextRec s s.fsu.sweepPos with
  | none =>
    if s.fsu.flushes.any (·.running) then s
    else if s.elapsed s.fsu.sweepStart (s.fsu.sweepLen * 1000000000) then newPass s
    else s
  | some (home, r) =>
    let key := recKey r
    let s1 := { s with fsu := { s.fsu with sweepPos := home + 1 } }.fsuEcc [key] ecc
    if (s1.homeImg home).isNone then s1
    else if recOut r ∧ (s1.line key).isNone ∧ s1.fsu.fills.any (fun f => f.key == key) = false then (s1.countLookup key).delStale key
    else sweepOne (s1.countLookup key) home key

/-- The meaning of SWEEPER_VISIT. -/
def execSweeperVisit (ecc : FsuEcc) (s : State) : Out := .next (sweepVisit s ecc)

/-- R243: a flow flush waits; none where eight wait. -/
def State.startFlowFlush (s : State) (byPort : Bool) (value : Nat) (o : Owner) : Option State :=
  if 8 ≤ (s.fsu.flushes.filter (fun f => !f.running)).length then none
  else some { s with fsu := { s.fsu with flushes := s.fsu.flushes ++ [⟨byPort, value, o, 0, 0, false⟩] } }

/-- How the write of a ring's flush to its data buffer ends. -/
def dmaOf (dma : List (Fin 64 × Dma)) (r : Nat) : Dma := ((dma.find? (fun d => d.1.val = r)).map (·.2)).getD .good

/-- The completion of a flow flush (R243, R425). -/
def flushEnd (dma : List (Fin 64 × Dma)) (s : State) (f : FlowFlush) : State :=
  let s := (s.wr Objs.flow_flush_deleted 0 f.deleted).raise 114 0
  match f.owner with
  | .dict c => s.endRun c ((if f.byPort then Objs.flow_flush_port else Objs.flow_flush_tmpl).key 0) 1
  | .ring r => s.flushRing r f.deleted f.skipped (dmaOf dma r)

/-- FLOW_FLUSH_DONE: a flush pass that has visited every record ends after its second. -/
def flowFlushDone (s : State) (dma : List (Fin 64 × Dma)) : State :=
  if s.fsu.flushes.any (·.running) = true ∧ (nextRec s s.fsu.sweepPos).isNone = true ∧
      s.elapsed s.fsu.sweepStart 1000000000 = true then
    let s := s.sweepLate
    let run := s.fsu.flushes.filter (·.running)
    let s1 : State := { s with fsu := { s.fsu with flushes := s.fsu.flushes.filter (fun f => !f.running) } }
    newPass (run.foldl (flushEnd dma) s1)
  else s

/-- The meaning of FLOW_FLUSH_DONE. -/
def execFlowFlushDone (dma : List (Fin 64 × Dma)) (s : State) : Out := .next (flowFlushDone s dma)

/-! ## Cache flush and salt -/

/-- R231: one line. -/
def flushLine (s : State) (key : Nat) : State :=
  match s.line key with
  | none => s
  | some l =>
    if s.evictable key l then s.evict key l
    else if l.st = .dirty then
      if s.placeServes l.home then (s.setLine key { l with st := .clean }).putRec key l.home (setOut l.img true)
      else s.loseLine key l
    else s

/-- R231: every line of the flow cache. -/
def State.flushCache (s : State) : State := (s.fsu.lines.map (·.1)).foldl flushLine s

/-- The meaning of FLOW_CACHE_FLUSH. -/
def execFlowCacheFlush (c : Ctx) (v : List Byte) (s : State) : Out :=
  .next (writeObj c Objs.flow_cache_flush 0 v noCheck (fun _ s => s.flushCache) s)

/-- R208: hash_salt is refused while the store or the stash holds a record. -/
def saltCheck : Nat → State → Code := fun _ s => refuseIf (!s.fsu.slots.isEmpty || !s.fsu.stash.isEmpty) .state

/-- The meaning of HASH_SALT_WRITE. -/
def execHashSaltWrite (c : Ctx) (v : List Byte) (s : State) : Out :=
  .next (writeObj c Objs.hash_salt 0 v saltCheck noApply s)

/-! ## Locks (R193, R238) -/

/-- An open leap holds an accepted write-class operation on a key (R193). -/
def leapWrites (s : State) (key : Nat) : Bool :=
  s.sk.threads.any (fun t => t.2.leap.ops.any (fun o => match tfind t.2.leap.handles o.hnd with
    | some h => h.key == key
    | none => false))

/-- A record named by a target lies in a pseudo-channel that does not serve (R426). -/
def State.flowBlocked (s : State) : LockTarget → Bool
  | .key k => match s.homeOf k with
    | some p => !s.placeServes p
    | none => false
  | .slot n => !s.placeServes n
  | .bucket b => !s.pcServes (bucketPc b)

/-- What the FSU has read when it serves a LOCK, READ, WRITE or SEARCH of a target; nothing of a record that R426 keeps back. -/
def State.served (s : State) (t : LockTarget) : State := if s.flowBlocked t then s else s.fsuSees t

/-- R238: a lock command; none while it is pending. Operations that a lock no longer keeps waiting are accepted before it (R192). -/
def flowLock (s : State) (t : LockTarget) (o : Owner) : Option Nat × State :=
  let s := s.settleLocks
  let s := s.served t
  if s.flowBlocked t then (some 0x800A, s)
  else if 64 ≤ s.fsu.locks.length then (some 0x8009, s.raise 117 0)
  else if s.fsu.locks.any (fun l => s.overlap l.target t) then (some 0x800A, s)
  else (none, { s with fsu := { s.fsu with locks := s.fsu.locks ++ [⟨t, o, false, none⟩] } })

/-- R238: an unlock command. -/
def flowUnlock (s : State) (t : LockTarget) (o : Owner) : Nat × State :=
  if s.flowBlocked t then (0x800A, s)
  else if s.fsu.broken.contains (o, t) then (0x8007, { s with fsu := { s.fsu with broken := s.fsu.broken.erase (o, t) } })
  else match s.fsu.locks.find? (fun l => decide (l.target = t) && decide (l.owner = o) && l.granted) with
    | some l => (1, State.settleLocks { s with fsu := { s.fsu with locks := s.fsu.locks.erase l } })
    | none => (0x800A, s)

/-- R227, R240: a record is inserted by software: the status. -/
def insertRec (s : State) (key img : Nat) : Nat × State :=
  if (s.homeOf key).isSome || s.bothVoid key then (0x800A, s)
  else match s.freePlace key with
    | none => (0x8009, s.raise 105 0)
    | some p =>
      let now := s.seenNow
      let head := recPort img * 2 ^ 112 + recTmpl img * 2 ^ 108 + fld key 376 4 * 2 ^ 104 + 2 ^ 103 + 2 ^ 99 + now * 2 ^ 64 + now * 2 ^ 32
      let r := fld img 512 512 * 2 ^ 512 + head * 2 ^ 384 + key
      let s1 := s.bump Objs.inserts
      match s1.line key with
      | some l =>
        let s2 := s1.placeRec key p (setOut r true)
        (1, s2.setLine key { l with st := .dirty, home := p, gen := (l.gen + 1) % 256, img := setFld (setOut r true) 486 1 (b2n (s1.altAt key p)) })
      | none => (1, s1.placeRec key p r)

/-- The command that waits for a lock ends with a status. -/
def lockEnd (s : State) (l : FlowLock) (status : Nat) : State :=
  match l.owner, l.ins with
  | .ring r, none => s.cmdWaitDone r .lock status 0
  | .ring r, some _ => s.cmdWaitDone r .insert status (b2n (status == 1))
  | .dict c, none => s.endRun c (Objs.flow_lock.key 0) status
  | .dict c, some _ => s.endRun c (Objs.flow_write.key 0) status

/-- A pending lock is granted; an insert that waited for it places its record and releases it (R240). -/
def lockTaken (s : State) (i : Nat) (l : FlowLock) : State :=
  match l.target, l.ins with
  | .key k, some img =>
    let s1 : State := { s with fsu := { s.fsu with locks := s.fsu.locks.eraseIdx i } }
    (lockEnd (insertRec s1 k img).2 l (insertRec s1 k img).1).settleLocks
  | _, _ => lockEnd { s with fsu := { s.fsu with locks := s.fsu.locks.set i { l with granted := true } } } l 1

/-- TBL_LOCK_GRANT (R193). -/
def lockGrant (s : State) (i : Nat) : State :=
  match s.fsu.locks[i]? with
  | none => s
  | some l => if l.granted || (s.targetKeys l.target).any (leapWrites s) then s else lockTaken s i l

/-- The meaning of TBL_LOCK_GRANT. -/
def execTblLockGrant (lock : Fin 64) (s : State) : Out := .next (lockGrant s lock.val)

/-- R192: a lock is broken; a pending one is withdrawn with LOCK_TIMEOUT. -/
def breakLock (s : State) (l : FlowLock) : State :=
  let s1 := ({ s with fsu := { s.fsu with locks := s.fsu.locks.erase l } }.bump Objs.lock_breaks).raise 97 0
  (if l.granted then { s1 with fsu := { s1.fsu with broken := s1.fsu.broken ++ [(l.owner, l.target)] } }
  else lockEnd s1 l 0x8007).settleLocks

/-! ## Software reads and writes (R237, R240 to R242) -/

/-- The image of a slot as software reads it. -/
def State.slotImage (s : State) (n : Nat) : Nat :=
  match tfind s.fsu.slots n with
  | some r => s.recImage n (s.curImg (recKey r) n)
  | none => if n % 2 = 0 then tget 0 s.fsu.bktAlt (n / 2) * 2 ^ 504 else 0

/-- READ of one item, as served: status and bytes. -/
def flowRead (s : State) (t : LockTarget) : Nat × List Byte :=
  if s.flowBlocked t then (0x800A, [])
  else match t with
    | .key k => match s.homeOf k with
      | some p => (1, leBytes 128 (s.recImage p (s.curImg k p)))
      | none => (0x8008, [])
    | .slot n => (1, leBytes 128 (s.slotImage n))
    | .bucket b => (1, leBytes 128 (s.slotImage (2 * b)) ++ leBytes 128 (s.slotImage (2 * b + 1)))

/-- A held lock of an owner covers a target. -/
def lockCovers (s : State) (o : Owner) (t : LockTarget) : Bool :=
  s.fsu.locks.any (fun l => l.granted && decide (l.owner = o) &&
    (decide (l.target = t) || (match t with
      | .key k => (s.targetKeys l.target).contains k
      | .slot n => decide (l.target = .bucket (n / 2)) || (s.targetKeys t).any (fun k => decide (l.target = .key k))
      | .bucket _ => false)))

/-- R237: a software write of a record: its status. -/
def writeRec (s : State) (key home img : Nat) : Nat × State :=
  if recKey img ≠ key then (0x800A, s)
  else if recValid img = false then (1, (s.delRec key).bump Objs.deletes)
  else
    let old := s.curImg key home
    let new := setFld (setFld (setSeen old (recSeen img)) 496 8 (recPort img)) 512 512 (fld img 512 512)
    let s := s.recFresh key
    match s.line key with
    | some l =>
      let vers := (List.range 8).map (fun k => if segOf old k = segOf new k then l.vers.getD k 0 else (l.vers.getD k 0 + 1) % 256)
      (1, s.setLine key { l with img := new, st := .dirty, vers := vers })
    | none => (1, s.putRec key home new)

/-- A slot image of a FLOW_BUCKET write. -/
def writeSlot (s : State) (n img : Nat) : Nat × State :=
  match tfind s.fsu.slots n with
  | some r => writeRec s (recKey r) n img
  | none => (1, s)

/-- A slot image that its slot's content refuses: the status, or none. -/
def slotRefuses (s : State) (n img : Nat) : Option Nat :=
  match tfind s.fsu.slots n with
  | some r => if recKey img ≠ recKey r then some 0x800A else none
  | none => if recValid img then some 0x8008 else none

/-- R237: WRITE of one item: status. -/
def flowWrite (s : State) (t : LockTarget) (o : Owner) (data : List Byte) : Nat × State :=
  if s.flowBlocked t then (0x800A, s)
  else if s.fsu.broken.contains (o, t) then (0x8007, { s with fsu := { s.fsu with broken := s.fsu.broken.erase (o, t) } })
  else if lockCovers s o t = false then (0x800A, s)
  else
    let s := s.fsuSees t
    let img := leNat (data.take 128)
    match t with
    | .key k => match s.homeOf k with
      | some p => writeRec s k p img
      | none => (0x8008, s)
    | .slot n => match tfind s.fsu.slots n with
      | some r => writeRec s (recKey r) n img
      | none => (0x8008, s)
    | .bucket b =>
      let img2 := leNat (slice data 128 128)
      match slotRefuses s (2 * b) img, slotRefuses s (2 * b + 1) img2 with
      | some x, _ => (x, s)
      | none, some x => (x, s)
      | none, none => (1, (writeSlot (writeSlot s (2 * b) img).2 (2 * b + 1) img2).2)

/-- R240: a software insert takes a lock on its key under R193: the status, or none while an open leap holds an accepted
write-class operation on the key. -/
def flowInsert (s : State) (key : Nat) (data : List Byte) (o : Owner) : Option Nat × State :=
  let img := leNat (data.take 128)
  let s := s.settleLocks.fsuSees (.key key)
  if s.flowLocked key || (s.homeOf key).isSome then (some 0x800A, s)
  else if leapWrites s key then
    if 64 ≤ s.fsu.locks.length then (some 0x8009, s)
    else (none, { s with fsu := { s.fsu with locks := s.fsu.locks ++ [⟨.key key, o, false, some img⟩] } })
  else (some (insertRec s key img).1, (insertRec s key img).2)

/-- R241: a search, as served: status, image and place. -/
def flowSearch (s : State) (key : Nat) : Nat × Nat × Nat :=
  if s.flowBlocked (.key key) then (0x800A, 0, 0)
  else match s.homeOf key with
    | some p => (1, s.recImage p (s.curImg key p), p)
    | none => (0x8008, 0, 0)

/-- R226 and R242: the first of some records that is not stale, with its place; the stale ones before it go. -/
def nextFound : List (Nat × Nat) → State → Option (Nat × Nat) × State
  | [], s => (none, s)
  | (p, r) :: rest, s => if s.stale (recKey r) then nextFound rest (s.delStale (recKey r)) else (some (p, r), s)

/-- R242: the end of the slots that one command examines. -/
def nextTop (cursor : Nat) : Nat := if cursor < stashBase then min ((cursor / 2 + 4096) * 2) stashBase else stashBase

/-- R242: the places, with their records, that one command examines. -/
def State.nextPlaces (s : State) (cursor : Nat) : List (Nat × Nat) :=
  let top := nextTop cursor
  s.fsu.slots.filter (fun p => decide (cursor ≤ p.1) && decide (p.1 < top)) ++
    (if top < stashBase then []
     else (s.fsu.stash.map (fun p => (stashBase + p.1, p.2))).filter (fun p => decide (cursor ≤ p.1)))

/-- R396: the reads of the buckets that one command examines, up to the first record, take their places in the queues. -/
def State.nextReads (s : State) (cursor : Nat) : State :=
  let last := match s.nextPlaces cursor with
    | (p, _) :: _ => min (p / 2) (2 ^ 27 - 1)
    | [] => min (nextTop cursor / 2) (2 ^ 27) - 1
  let n := last + 1 - cursor / 2
  let buckets := ((List.range n).map (· + cursor / 2)).filter (fun b => !s.pcRefuses (bucketPc b))
  { s with hbm := buckets.foldl (fun h b => (List.range 8).foldl (fun h k => h.present (bucketPc b) (.read ⟨2, bucketOff b + 32 * k, 0, false⟩)) h) s.hbm }

/-- R242, R426: one iteration: the status, the record found, if any, with its place, the next cursor, and the state. -/
def flowNext (s : State) (cursor : Nat) : Nat × Option (Nat × Nat) × Nat × State :=
  match nextFound (s.nextPlaces cursor) (s.nextReads cursor) with
  | (some (p, r), t) =>
    if t.placeServes p then (1, some (t.recImage p (t.curImg (recKey r) p), p), p + 1, t) else (0x800A, none, cursor, t)
  | (none, t) => (1, none, (if nextTop cursor < stashBase then nextTop cursor else stashBase + 1024), t)

/-- The key that a buffer names (R207, R426): bytes 0 to 46, and the key template as byte 47. -/
def flowKeyOf (bytes : List Byte) (tmpl : Nat) : Nat := leNat (padTo 0 47 (bytes.take 47)) + (tmpl % 16) * 2 ^ 376

end Sys2Proof.Machine
end

