-- ==== Sys2Proof/Machine/Parse.lean ====
section
/-! DEFINITION. The parser's layers, the parse result vector and the classifier key, as functions of a frame (R52 to R62). -/

namespace Sys2Proof.Machine

/-- What the parser has found so far. `pos` counts the bytes parsed as header; offsets are 0xFF for an absent layer; `et`
is the innermost Ethertype or length, `next` the protocol or next header reached, `ipEnd` where the IP length ends, `go` that
parsing goes on; `flags` is PARSE_FLAGS without ERR; `sub` is SUB of R61. -/
structure Parsed where
  pos : Nat
  offE : Nat
  offHsr : Nat
  offMpls : Nat
  off3 : Nat
  off4 : Nat
  vlan : Nat
  mpls : Nat
  ext : Nat
  l3 : Nat
  l4 : Nat
  et : Nat
  next : Nat
  ipEnd : Nat
  flags : Nat
  ptp : Bool
  sub : Nat
  go : Bool
deriving DecidableEq, Repr

/-- What the parser is told of its surroundings: vlan_tpid3, the in-band MAC address, the four TCP ports of R58 in their order,
whether the port takes PRP trailers. -/
structure ParseCfg where
  tpid3 : Nat
  own : List Byte
  ports : List Nat
  prp : Bool
deriving DecidableEq, Repr

/-- A network-order field of `n` bytes at an offset. -/
def netAt (f : List Byte) (i n : Nat) : Nat := beNat (slice f i n)

/-- Set a bit of PARSE_FLAGS. -/
def Parsed.flag (p : Parsed) (b : Nat) : Parsed := { p with flags := setFld p.flags b 1 1 }

/-- Parsing stops. -/
def Parsed.stop (p : Parsed) : Parsed := { p with go := false }

/-- The frame ended inside a header (R57). -/
def Parsed.trunc (p : Parsed) : Parsed := (p.flag 14).stop

/-- A limit of R53. -/
def Parsed.depth (p : Parsed) : Parsed := (p.flag 13).stop

/-- A header of `k` bytes at `pos` in a frame of `n` bytes: cut by the frame, beyond byte 255, or taken by `f`. -/
def Parsed.take (p : Parsed) (n k : Nat) (f : Parsed → Parsed) : Parsed :=
  if n < p.pos + k then p.trunc
  else if 256 < p.pos + k then p.depth
  else f { p with pos := p.pos + k }

/-- A header of `k` bytes at `pos` that is one more than R53 allows; one that the frame's end cuts is TRUNC and not DEPTH. -/
def Parsed.over (p : Parsed) (n k : Nat) : Parsed := if n < p.pos + k then p.trunc else p.depth

/-- A TPID that names a VLAN tag (R52). -/
def isTpid (tpid3 et : Nat) : Bool := et == 0x8100 || et == 0x88A8 || et == tpid3

/-- The VLAN tags: at most three; a fourth is DEPTH. -/
def parseVlan (tpid3 : Nat) (f : List Byte) : Nat → Parsed → Parsed
  | 0, p => if isTpid tpid3 p.et && p.go then p.over f.length 4 else p
  | n + 1, p =>
    if isTpid tpid3 p.et && p.go then
      parseVlan tpid3 f n (p.take f.length 4 (fun p => { p with vlan := p.vlan + 1, offE := p.offE + 4, et := netAt f (p.offE + 4) 2 }))
    else p

/-- The HSR tag. -/
def parseHsr (f : List Byte) (p : Parsed) : Parsed :=
  if p.go && p.et == 0x892F then
    p.take f.length 6 (fun p => { p.flag 12 with offHsr := p.offE, offE := p.offE + 6, et := netAt f (p.offE + 6) 2 })
  else p

/-- A PTP common header at `pos` (R52): messageType and domainNumber give SUB. -/
def parsePtp (f : List Byte) (p : Parsed) : Parsed :=
  let b := p.pos
  p.take f.length 34 (fun p => { p.flag 10 with ptp := true, sub := netAt f b 1 % 16 * 4096 + netAt f (b + 4) 1, go := false })

/-- An L4 header of `k` bytes at byte `b` with L4_BAD: the parser stops, with DEPTH too where the header ends beyond byte 255 (R53). -/
def Parsed.bad4 (p : Parsed) (b k : Nat) : Parsed := if 256 < b + k then (p.flag 5).depth else (p.flag 5).stop

/-- The L4 header (R52, R53, R57). -/
def parseL4 (f : List Byte) (p : Parsed) : Parsed :=
  let n := f.length
  let b := p.pos
  let put (t : Nat) (p : Parsed) : Parsed := { p with off4 := b, l4 := t }
  let cut (k : Nat) (p : Parsed) : Parsed := if p.ipEnd < b + k then p.flag 5 else p
  if p.next = 17 then
    if n < b + 8 then (cut 8 p).trunc
    else if p.ipEnd < b + 8 then p.bad4 b 8
    else
      let q := p.take n 8 (put 1)
      let d := netAt f (b + 2) 2
      if q.go && (d == 319 || d == 320) then parsePtp f q else q
  else if p.next = 6 then
    if n < b + 20 then (cut 20 p).trunc
    else
      let k := netAt f (b + 12) 1 / 16 * 4
      if k < 20 then p.bad4 b 20
      else if n < b + k then (cut k p).trunc
      else if p.ipEnd < b + k then p.bad4 b k
      else p.take n k (put 2)
  else if p.next = 1 then p.take n 8 (put 3)
  else if p.next = 58 then p.take n 8 (put 4)
  else { p with l4 := 5, go := false }

/-- A next header that names an IPv6 extension header (R52). -/
def isExt (next : Nat) : Bool := next == 0 || next == 43 || next == 60 || next == 51 || next == 44

/-- The length of the IPv6 extension header at `b`: at least 8 bytes. -/
def extLen (f : List Byte) (next b : Nat) : Nat :=
  if next = 44 then 8 else if next = 51 then (netAt f (b + 1) 1 + 2) * 4 else (netAt f (b + 1) 1 + 1) * 8

/-- The IPv6 extension headers: at most eight; a ninth is DEPTH. -/
def parseExt (f : List Byte) : Nat → Parsed → Parsed
  | 0, p => if p.go && isExt p.next then (if f.length < p.pos + 8 then p.trunc else p.over f.length (extLen f p.next p.pos)) else p
  | n + 1, p =>
    let b := p.pos
    if p.go = false then p
    else if isExt p.next then
      if f.length < b + 8 then p.trunc
      else
        let k := extLen f p.next b
        let frag := decide (p.next = 44)
        parseExt f n (p.take f.length k (fun p =>
          let q := { p.flag 7 with ext := p.ext + 1, next := netAt f b 1 }
          if frag then
            let r := q.flag 9
            if netAt f (b + 2) 2 / 8 = 0 then r else r.flag 8
          else q))
    else p

/-- The IPv4 header. DESIGN CHOICE: of a header that the frame's end cuts, a bad version, IHL or length is not told: TRUNC alone is set (log 61). -/
def parseIp4 (f : List Byte) (p : Parsed) : Parsed :=
  let n := f.length
  let b := p.pos
  if n < b + 20 then p.trunc
  else
    let k := netAt f b 1 % 16 * 4
    if netAt f b 1 / 16 ≠ 4 ∨ k < 20 then (p.flag 6).stop
    else if n < b + k then p.trunc
    else if 256 < b + k then p.depth
    else if fold16 (sum16 (slice f b k)) ≠ 65535 ∨ n < b + netAt f (b + 2) 2 then (p.flag 6).stop
    else
      let fr := netAt f (b + 6) 2
      let p1 : Parsed := { p with pos := b + k, off3 := b, l3 := 1, next := netAt f (b + 9) 1, ipEnd := b + netAt f (b + 2) 2 }
      let p2 := if k = 20 then p1 else p1.flag 7
      let p3 := if netAt f (b + 8) 1 ≤ 1 then p2.flag 4 else p2
      let p4 := if fr % 16384 = 0 then p3 else p3.flag 9
      if fr % 8192 = 0 then parseL4 f p4 else (p4.flag 8).stop

/-- The IPv6 header and its extension headers; no L4 header is parsed behind a fragment offset that is not zero (R57). -/
def parseIp6 (f : List Byte) (p : Parsed) : Parsed :=
  let n := f.length
  let b := p.pos
  if n < b + 40 then p.trunc
  else if netAt f b 1 / 16 ≠ 6 then (p.flag 6).stop
  else if 256 < b + 40 then p.depth
  else if n < b + 40 + netAt f (b + 4) 2 then (p.flag 6).stop
  else
    let p1 : Parsed := { p with pos := b + 40, off3 := b, l3 := 2, next := netAt f (b + 6) 1, ipEnd := b + 40 + netAt f (b + 4) 2 }
    let p2 := if netAt f (b + 7) 1 ≤ 1 then p1.flag 4 else p1
    let p3 := parseExt f 8 p2
    if bit p3.flags 8 then p3.stop else if p3.go then parseL4 f p3 else p3

/-- The MPLS labels: at most four; a fifth is DEPTH. -/
def parseMpls (f : List Byte) : Nat → Parsed → Parsed
  | 0, p => p.over f.length 4
  | n + 1, p =>
    let b := p.pos
    let q := p.take f.length 4 (fun p => { p with mpls := p.mpls + 1, offMpls := if p.mpls = 0 then b else p.offMpls })
    if q.go = false then q
    else if netAt f (b + 2) 1 % 2 = 0 then parseMpls f n q
    else if q.pos < f.length ∧ netAt f q.pos 1 / 16 = 4 then parseIp4 f q
    else if q.pos < f.length ∧ netAt f q.pos 1 / 16 = 6 then parseIp6 f q
    else { q with l3 := 4, go := false }

/-- The layer that the innermost Ethertype names. -/
def parseL3 (f : List Byte) (p : Parsed) : Parsed :=
  if p.go = false then p
  else if p.et < 0x0600 then (p.flag 0).stop
  else if p.et = 0x0806 then { p with l3 := 3, go := false }
  else if p.et = 0x88B8 ∨ p.et = 0x88BA then
    let b := p.pos
    p.take f.length 8 (fun p => { p with sub := netAt f b 2, go := false })
  else if p.et = 0x88F7 then parsePtp f p
  else if p.et = 0x8847 ∨ p.et = 0x8848 then parseMpls f 4 p
  else if p.et = 0x0800 then parseIp4 f p
  else if p.et = 0x86DD then parseIp6 f p
  else p.stop

/-- Nothing parsed yet. -/
def Parsed.init : Parsed := ⟨0, 0xFF, 0xFF, 0xFF, 0xFF, 0xFF, 0, 0, 0, 0, 0, 0, 0, 0, 0, false, 0, true⟩

/-- The flags of the addresses (R57): GROUP_DA, OWN_MAC, BAD_SA. -/
def addrFlags (own f : List Byte) (p : Parsed) : Parsed :=
  let da := f.take 6
  let p1 := if netAt f 0 1 % 2 = 1 then p.flag 3 else p
  let p2 := if da = own then p1.flag 2 else p1
  if netAt f 6 6 = 0 ∨ netAt f 6 1 % 2 = 1 then p2.flag 1 else p2

/-- The layers of a frame without its FCS: a header that the FCS would have to complete is cut. -/
def parseFrame (c : ParseCfg) (f : List Byte) : Parsed :=
  let p := (addrFlags c.own f Parsed.init).take f.length 14 (fun p => { p with offE := 12, et := netAt f 12 2 })
  if p.go then
    let v := parseVlan c.tpid3 f 3 p
    parseL3 f (if v.go then parseHsr f v else v)
  else p

/-- The VLAN tags of a frame, at most three. -/
def tagCount (tpid3 : Nat) (f : List Byte) : Nat → Nat → Nat
  | 0, _ => 0
  | n + 1, off => if isTpid tpid3 (netAt f off 2) then 1 + tagCount tpid3 f n (off + 4) else 0

/-- The LSDU length of a frame without FCS by IEC 62439-3: from the byte after the Ethertype, VLAN tags not counted. -/
def lsduLen (tpid3 : Nat) (f : List Byte) : Nat := f.length - 14 - 4 * tagCount tpid3 f 3 12

/-- R54: the PRP trailer of a frame without FCS. -/
def prpTrailer (c : ParseCfg) (f : List Byte) : Option (List Byte) :=
  let t := f.drop (f.length - 6)
  if c.prp && decide (20 ≤ f.length) && netAt t 4 2 == 0x88FB && netAt t 2 2 % 4096 == lsduLen c.tpid3 f then some t else none

/-- ERR, DEPTH or IP_NONFIRST. -/
def Parsed.noPay (p : Parsed) : Bool := bit p.flags 14 || bit p.flags 6 || bit p.flags 5 || bit p.flags 13 || bit p.flags 8

/-- The protocol a TCP or UDP port names (R58). -/
def portKind (ports : List Nat) (tcp : Bool) (x : Nat) : Option Nat :=
  if tcp && x == ports.getD 0 0 then some 4
  else if x == ports.getD 1 0 then some 5
  else if tcp && x == ports.getD 2 0 then some 6
  else if tcp && x == ports.getD 3 0 then some 7
  else none

/-- PAYLOAD_KIND (R58). -/
def payKind (c : ParseCfg) (f : List Byte) (p : Parsed) : Nat :=
  if p.noPay then 0
  else if p.et = 0x88B8 then 1
  else if p.et = 0x88BA then 2
  else if p.ptp then 3
  else if p.l4 = 1 ∨ p.l4 = 2 then
    let tcp := p.l4 == 2
    match portKind c.ports tcp (netAt f (p.off4 + 2) 2) with
    | some k => k
    | none => (portKind c.ports tcp (netAt f p.off4 2)).getD 8
  else 9

/-- PARSE_FLAGS with ERR and PRP. -/
def parseFlags (c : ParseCfg) (f : List Byte) (p : Parsed) : Nat :=
  let err := bit p.flags 14 || bit p.flags 6 || bit p.flags 5
  setFld (setFld p.flags 15 1 (b2n err)) 11 1 (b2n (prpTrailer c f).isSome)

/-- The parse result vector (R56). -/
def prvOf (c : ParseCfg) (f : List Byte) (p : Parsed) : Nat :=
  let t := (prpTrailer c f).getD []
  let size := netAt t 2 2 % 4096
  let lan := netAt t 2 1 / 16
  parseFlags c f p * 2 ^ 100 + size * 2 ^ 88 + lan * 2 ^ 84 + netAt t 0 2 * 2 ^ 68 + payKind c f p * 2 ^ 64 + p.ext * 2 ^ 60 +
    p.mpls * 2 ^ 57 + p.vlan * 2 ^ 55 + p.l4 * 2 ^ 52 + p.l3 * 2 ^ 49 + p.pos * 2 ^ 40 + p.offMpls * 2 ^ 32 +
    p.offHsr * 2 ^ 24 + p.off4 * 2 ^ 16 + p.off3 * 2 ^ 8 + p.offE

/-- The length of a frame's payload from OFF_PAY on, to the FCS or a PRP trailer. -/
def payLen (c : ParseCfg) (f : List Byte) (p : Parsed) : Nat :=
  f.length - (if (prpTrailer c f).isSome then 6 else 0) - p.pos

/-- The payload window (R55). -/
def payWindow (c : ParseCfg) (f : List Byte) (p : Parsed) : List Byte := slice f p.pos (min 512 (payLen c f p))

/-! ## The classifier key (R60 to R62) -/

/-- SPORT and DPORT (R61). -/
def keyPorts (f : List Byte) (p : Parsed) : Nat × Nat :=
  if p.l4 = 1 ∨ p.l4 = 2 then (netAt f p.off4 2, netAt f (p.off4 + 2) 2)
  else if p.l4 = 3 ∨ p.l4 = 4 then (netAt f p.off4 2, 0)
  else (0, 0)

/-- FMT (R60). -/
def keyFmt (p : Parsed) : Nat := if p.l3 = 1 then 1 else if p.l3 = 2 then 2 else 0

/-- The common part (R60). -/
def keyCommon (inPort cls : Nat) (f : List Byte) (p : Parsed) (flags : Nat) : Nat :=
  let t1 := netAt f 14 2
  let t2 := netAt f 18 2
  let outer := if p.vlan = 0 then 0xFFF * 2 ^ 32 else (t1 % 4096) * 2 ^ 32 + t1 / 8192 * 2 ^ 29 + t1 / 4096 % 2 * 2 ^ 28
  let inner := if p.vlan ≤ 1 then 0xFFF * 2 ^ 16 else (t2 % 4096) * 2 ^ 16
  keyFmt p * 2 ^ 60 + inPort * 2 ^ 52 + cls * 2 ^ 44 + outer + inner + flags

/-- The first `n` bytes of the payload window as a number; bytes past its end read 0. -/
def payHead (n : Nat) (w : List Byte) : Nat := beNat (padTo 0 n w)

/-- TCP_FLAGS (R61). -/
def tcpFlags (f : List Byte) (p : Parsed) : Nat := if p.l4 = 2 then netAt f (p.off4 + 13) 1 else 0

/-- MPLS_LABEL (R61). -/
def mplsLabel (f : List Byte) (p : Parsed) : Nat := if p.mpls = 0 then 0 else netAt f p.offMpls 3 / 16

/-- The classifier key: its width in bits and its value. -/
def classKey (inPort cls : Nat) (f : List Byte) (p : Parsed) (flags : Nat) (win : List Byte) : Nat × Nat :=
  let com := keyCommon inPort cls f p flags
  let (sp, dp) := keyPorts f p
  if p.l3 = 1 then
    (320, com * 2 ^ 256 + netAt f (p.off3 + 12) 4 * 2 ^ 224 + netAt f (p.off3 + 16) 4 * 2 ^ 192 +
      netAt f (p.off3 + 9) 1 * 2 ^ 184 + netAt f (p.off3 + 1) 1 * 2 ^ 176 + sp * 2 ^ 160 + dp * 2 ^ 144 + p.sub * 2 ^ 128 +
      tcpFlags f p * 2 ^ 120 + mplsLabel f p * 2 ^ 100 + payHead 12 win)
  else if p.l3 = 2 then
    let w := netAt f p.off3 4
    (640, com * 2 ^ 576 + netAt f (p.off3 + 8) 16 * 2 ^ 448 + netAt f (p.off3 + 24) 16 * 2 ^ 320 + p.next * 2 ^ 312 +
      w / 2 ^ 20 % 256 * 2 ^ 304 + w % 2 ^ 20 * 2 ^ 284 + sp * 2 ^ 268 + dp * 2 ^ 252 + p.sub * 2 ^ 236 + tcpFlags f p * 2 ^ 228 +
      mplsLabel f p * 2 ^ 208 + payHead 16 win)
  else
    (320, com * 2 ^ 256 + netAt f 0 6 * 2 ^ 208 + netAt f 6 6 * 2 ^ 160 + p.et * 2 ^ 144 + p.sub * 2 ^ 128 + payHead 16 win)

/-! ## The flow key (R206, R207) -/

/-- The bits an extraction takes from its source: their number and value. -/
def extractBits (w key : Nat) (win : Nat) (x : Nat) : Nat × Nat :=
  let off := fld x 20 10
  let len := fld x 12 8 + 1
  if bit x 30 then (len, win / 2 ^ (1024 - off - len) % 2 ^ len)
  else (len, key * 2 ^ (640 - w) / 2 ^ (640 - off - len) % 2 ^ len)

/-- The enabled extractions of a template, concatenated: their bits and value. -/
def extractAll (tmpl w key win : Nat) : Nat × Nat :=
  (List.range 12).foldl (fun (a : Nat × Nat) i =>
    let x := fld tmpl (32 * i) 32
    if bit x 31 then
      let (n, v) := extractBits w key win x
      (a.1 + n, a.2 * 2 ^ n + v)
    else a) (0, 0)

/-- The 48-byte flow key, byte 0 in bits [7:0]. -/
def flowKey (num tmpl w key : Nat) (hw : List Byte) : Nat :=
  let (n, v) := extractAll tmpl w key (beNat (padTo 0 128 hw))
  leNat (beBytes 47 (v * 2 ^ (376 - n)) ++ [BitVec.ofNat 8 (num % 16)])

/-- R207: a template that a write may not store: an extraction past the end of its source, or more than 376 bits. -/
def tmplBad (tmpl : Nat) : Bool :=
  let xs := ((List.range 12).map (fun i => fld tmpl (32 * i) 32)).filter (fun x => bit x 31)
  xs.any (fun x => (if bit x 30 then 1024 else 640) < fld x 20 10 + fld x 12 8 + 1) ||
    decide (376 < xs.foldl (fun n x => n + fld x 12 8 + 1) 0)

end Sys2Proof.Machine
end

