-- ==== Sys2Proof/Machine/EgressOps.lean ====
section
/-! DEFINITION. The egress ports as the fabric, the ports and the time unit use them: the store's counts (R324), RED (R338),
flushes (R38), the frame in transmission (R37), the copy's edits (R251, R340, R363, R45). -/

namespace Sys2Proof.Machine

/-! ## Ports and their store -/

/-- An egress port. -/
def State.ep (s : State) (p : Nat) : EgPort := tget EgPort.empty s.eg.ports p

/-- Replace an egress port. -/
def State.setEp (s : State) (p : Nat) (x : EgPort) : State :=
  { s with eg := { s.eg with ports := tset EgPort.empty s.eg.ports p x } }

/-- One queue of a port. -/
def EgPort.q (x : EgPort) (q : Nat) : List EgFrame := x.queues.getD q []

/-- Replace one queue of a port. -/
def EgPort.setQ (x : EgPort) (q : Nat) (l : List EgFrame) : EgPort := { x with queues := x.queues.set q l }

/-- The cells of a list of frames. -/
def cellsOf (l : List EgFrame) : Nat := l.foldl (fun n f => n + f.cells) 0

/-- The cells a port's frames of class `c` hold, EXPRESS frames apart. -/
def EgPort.classCells (x : EgPort) (c : Nat) : Nat :=
  cellsOf (x.q c) + cellsOf (x.cal.filter (fun f => f.cls = c && !f.exp))

/-- Every cell a port's frames hold. -/
def EgPort.allCells (x : EgPort) : Nat :=
  (x.queues.foldl (fun n l => n + cellsOf l) 0) + cellsOf x.expr + cellsOf x.cal

/-- The ports of a group of stations. -/
def State.grpPorts (s : State) (g : Nat) : List Nat := (List.range (8 * s.grpSize g)).map (fun i => 8 * g + i)

/-! ## RED (R338) -/

/-- The RED profile's three colours: minimum, maximum and max_p (R337). -/
def redColour (prof c : Nat) : Nat × Nat × Nat :=
  if c = 0 then (fld prof 104 16, fld prof 88 16, fld prof 80 8)
  else if c = 1 then (fld prof 64 16, fld prof 48 16, fld prof 40 8)
  else (fld prof 24 16, fld prof 8 16, fld prof 0 8)

/-- One averaging step: avg + (q - avg) * 2^-k, in units of 2^-16 packet. -/
def redStep (avg q k : Nat) : Nat := ((avg : Int) + (((q * 65536 : Nat) : Int) - (avg : Int)) / (2 ^ k : Nat)).toNat

/-- `n` averaging steps with an empty queue. -/
def redIdle (k : Nat) : Nat → Nat → Nat
  | 0, avg => avg
  | n + 1, avg => redIdle k n (redStep avg 0 k)

/-- What RED decides. -/
inductive RedOut where
  | pass | mark | drop
deriving DecidableEq, Repr

/-- RED's averages by queue: a VOQ by its ID, an egress queue at `65536 + port * 8 + queue`. -/
def State.redAvg (s : State) (key : Nat) : RedAvg := tget ⟨0, 0⟩ s.tm.reds key

/-- R338: RED for a packet of colour `c` under a profile, with `q` packets in its queue; the LFSR's value is free. -/
def State.red (s : State) (key profNo c q : Nat) : RedOut × State :=
  let prof := tget 0 s.tm.redProf profNo
  let k := fld prof 120 4
  let q := min q 65535
  let a := s.redAvg key
  let us := s.spanNs a.empty / 1000
  let avg0 := if q = 0 then redIdle k (min us 64) a.avg else a.avg
  let avg := redStep avg0 q k
  let a1 : RedAvg := ⟨avg, a.empty⟩
  let s1 : State := { s with tm := { s.tm with reds := tset ⟨0, 0⟩ s.tm.reds key a1 } }
  let (mn, mx, mp) := redColour prof c
  if mx = 0 ∨ avg < mn * 65536 then (.pass, s1)
  else if mx * 65536 ≤ avg then (.drop, s1)
  else
    let (r, s2) := s1.draw
    if (r % 65536) * (mx - mn) * 256 < mp * (avg - mn * 65536) then
      if bit prof 124 then (.mark, s2) else (.drop, s2)
    else (.pass, s2)

/-- A queue that RED acts on has become empty. -/
def State.redEmpty (s : State) (key : Nat) : State :=
  let a := s.redAvg key
  { s with tm := { s.tm with reds := tset ⟨0, 0⟩ s.tm.reds key { a with empty := s.fNs } } }

/-! ## Flush and abort -/

/-- R38: the frames of a port's eight queues and its launch calendar are discarded, each counted in tx_drop_down. -/
def State.egFlush (s : State) (p : Nat) : State :=
  let x := s.ep p
  let n := (x.queues.foldl (fun n l => n + l.length) 0) + x.cal.length
  let s1 := (s.setEp p { x with queues := List.replicate 8 [], cal := [] }).bump Objs.tx_drop_down p n
  (List.range 8).foldl (fun (s : State) q => if x.q q = [] then s else s.redEmpty (65536 + p * 8 + q)) s1

/-- R39: when a hold expires, everything held is discarded, the express FIFO too. -/
def State.egFlushHeld (s : State) (p : Nat) : State :=
  let s1 := s.egFlush p
  (s1.setEp p { s1.ep p with expr := [] }).bump Objs.tx_drop_down p (s.ep p).expr.length

/-- An occurrence for each of `n` frames. -/
def State.raiseEach (s : State) (n src unit : Nat) : State := (List.range n).foldl (fun (s : State) _ => s.raise src unit) s

/-- The bytes a port has sent of a running frame after some ns. -/
def txSent (rate ns : Nat) : Nat := ns * rate / 8000

/-- A running frame has been sent whole. -/
def State.txOver (s : State) (rate : Nat) (t : TxFrame) : Bool := !t.paused && t.left ≤ txSent rate (s.spanNs t.since)

/-- A frame transmitted whole is counted (R50); the last fragment of a cut frame counts in mm_frag_tx. -/
def State.txCount (s : State) (p : Nat) (t : TxFrame) : State :=
  let s1 := (s.bump Objs.tx_frames p).bump Objs.tx_octets p t.total
  if t.cut then s1.bump Objs.mm_frag_tx p else s1

/-- The MACs of a port go on to the present: frames sent whole are counted. -/
def State.txSettle (s : State) (p : Nat) : State :=
  let x := s.ep p
  let r := s.rate p
  match x.txE with
  | some t =>
    if s.txOver r t then (s.setEp p { x with txE := none }).txCount p t else s
  | none =>
    match x.txP with
    | some t => if s.txOver r t then (s.setEp p { x with txP := none }).txCount p t else s
    | none => s

/-- R37: a port leaves UP; a frame in transmission ends with an invalid FCS and counts in tx_aborted. -/
def State.txAbort (s : State) (p : Nat) : State :=
  let s := (s.txSettle p).txSettle p
  let x := s.ep p
  let n := b2n x.txE.isSome + b2n x.txP.isSome
  let s := s.setEp p { x with txE := none, txP := none }
  let s := if x.txE.isSome then s.put (.frameCut p false) else s
  let s := if x.txP.isSome then s.put (.frameCut p true) else s
  if n = 0 then s else (s.bump Objs.tx_aborted p n).raiseEach n 13 p

/-! ## Edits of a copy -/

/-- The parse result vector of a packet that was never parsed: every offset absent. -/
def prvAbsent : Nat := 0xFF * 2 ^ 32 + 0xFF * 2 ^ 24 + 0xFF * 2 ^ 16 + 0xFF * 2 ^ 8 + 12

/-- L3_TYPE of a parse result vector. -/
def prvL3 (v : Nat) : Nat := fld v 49 3
/-- L4_TYPE of a parse result vector. -/
def prvL4 (v : Nat) : Nat := fld v 52 3
/-- OFF_L3. -/
def prvOffL3 (v : Nat) : Nat := fld v 8 8
/-- OFF_L4. -/
def prvOffL4 (v : Nat) : Nat := fld v 16 8
/-- PARSE_FLAGS (R57). -/
def prvFlags (v : Nat) : Nat := fld v 100 16

/-- The bytes over which R251 keeps the difference, as offsets in the frame before any insertion. -/
def fixRange (prv : Nat) : List Nat :=
  let o3 := prvOffL3 prv
  let o4 := prvOffL4 prv
  let a := if prvL3 prv = 1 then (List.range 8).map (· + (o3 + 12))
    else if prvL3 prv = 2 then (List.range 32).map (· + (o3 + 8)) else []
  let b := if prvL4 prv = 1 ∨ prvL4 prv = 2 then (List.range 4).map (· + o4) else []
  a ++ b

/-- The place of the L4 checksum in the L4 header (R251 step 3), for UDP, TCP and ICMPv6. -/
def l4SumOff (l4 : Nat) : Option Nat := if l4 = 1 then some 6 else if l4 = 2 then some 16 else if l4 = 4 then some 2 else none

/-- Equation 3 of RFC 1624 with the zero rules of R251 step 4. -/
def l4NewSum (l4 l3 hc mOld mNew : Nat) : Nat :=
  if l4 = 1 ∧ l3 = 1 ∧ hc = 0 then 0
  else
    let r := 65535 - fold16 (fold16 ((65535 - hc) + (65535 - mOld)) + mNew)
    if l4 = 1 ∧ r = 0 then 65535 else r

/-- The byte at an offset of the frame before any HSET and edit. -/
def origByte (orig body : List Byte) (shift i : Nat) : Byte := if i < orig.length then orig.getD i 0 else body.getD (i + shift) 0

/-- R251: the checksum fix-up of a copy. `shift` bytes were inserted ahead of the network header. -/
def fixSums (prv : Nat) (orig body : List Byte) (shift : Nat) : List Byte :=
  let old := (fixRange prv).map (origByte orig body shift)
  let new := (fixRange prv).map (fun i => body.getD (i + shift) 0)
  let o3 := prvOffL3 prv
  let at3 := o3 + shift
  let ihl := ((body.getD at3 0).toNat % 16) * 4
  let hdrChanged := (List.range ihl).any (fun i => decide (origByte orig body shift (o3 + i) ≠ body.getD (at3 + i) 0))
  let b1 :=
    if prvL3 prv = 1 ∧ bit (prvFlags prv) 6 = false ∧ hdrChanged = true then
      let z := splice body (at3 + 10) [0, 0]
      splice z (at3 + 10) (beBytes 2 (65535 - fold16 (sum16 (slice z at3 ihl))))
    else body
  match l4SumOff (prvL4 prv) with
  | none => b1
  | some k =>
    let at4 := prvOffL4 prv + shift + k
    if bit (prvFlags prv) 8 = true ∨ b1.length < at4 + 2 then b1
    else
      let hc := beNat [origByte orig body shift (prvOffL4 prv + k), origByte orig body shift (prvOffL4 prv + k + 1)]
      let same := decide (old = new) && decide (beNat (slice b1 at4 2) = hc)
      if same then b1
      else splice b1 at4 (beBytes 2 (l4NewSum (prvL4 prv) (prvL3 prv) hc (fold16 (sum16 old)) (fold16 (sum16 new))))

/-- The L4 checksum of a copy follows an edit of its payload (R251 step 1, R364). -/
def followSum (prv : Nat) (before after : List Byte) (shift : Nat) : List Byte :=
  match l4SumOff (prvL4 prv) with
  | none => after
  | some k =>
    let o4 := prvOffL4 prv + shift
    if bit (prvFlags prv) 8 = true ∨ after.length < o4 + k + 2 then after
    else
      let hc := beNat (slice before (o4 + k) 2)
      splice after (o4 + k)
        (beBytes 2 (l4NewSum (prvL4 prv) (prvL3 prv) hc (fold16 (sum16 (before.drop o4))) (fold16 (sum16 (after.drop o4)))))

/-- R340: the CE mark on an IPv4 or IPv6 copy whose ECN field reads 01, 10 or 11; none where it cannot be made. -/
def markCe (prv : Nat) (body : List Byte) (shift : Nat) : Option (List Byte) :=
  let o := prvOffL3 prv + shift
  let b := (body.getD (o + 1) 0).toNat
  if prvL3 prv = 1 ∧ b % 4 ≠ 0 then some (splice body (o + 1) [BitVec.ofNat 8 (b / 4 * 4 + 3)])
  else if prvL3 prv = 2 ∧ b / 16 % 4 ≠ 0 then some (splice body (o + 1) [BitVec.ofNat 8 (setFld b 4 2 3)])
  else none

/-- R45: the PRP trailer or HSR tag that a copy to a port of a valid pair carries; the sequence number is free. The tag stands
after the VLAN tags, as R52 expects it. Answers the frame and the bytes inserted ahead of the network header. -/
def addRedundancy (tpid3 role seq : Nat) (body : List Byte) : List Byte × Nat :=
  let size := (lsduLen tpid3 body + 6) % 4096
  if role = 1 ∨ role = 2 then
    (body ++ beBytes 2 seq ++ beBytes 2 ((if role = 1 then 0xA else 0xB) * 4096 + size) ++ [0x88, 0xFB], 0)
  else if role = 3 ∨ role = 4 then
    let at12 := 12 + 4 * tagCount tpid3 body 3 12
    let path := if role = 3 then 0 else 1
    (body.take at12 ++ [0x89, 0x2F] ++ beBytes 2 (path * 4096 + size) ++ beBytes 2 seq ++ body.drop at12, 6)
  else (body, 0)

/-! ## Launch times -/

/-- A counter in the launch format (R356): units of 2^-8 ns modulo 2^40. -/
def launchOf (t : Nat) : Nat := (t + 2 ^ 31) / 2 ^ 32 % 2 ^ 40

/-- diff of R377: LAUNCH minus now as a signed 40-bit number of 2^-8 ns. -/
def State.launchDiff (s : State) (launch : Nat) : Int := wrapDiff 40 launch (launchOf s.time.w)

/-- R378: place a frame in the calendar in order of LAUNCH, frames of equal LAUNCH in order of admission, behind the LATE frames at its
head; a LATE frame goes to the head (R377). -/
def calInsert (f : EgFrame) : List EgFrame → List EgFrame
  | [] => [f]
  | h :: t =>
    if f.late then f :: h :: t
    else if h.late then h :: calInsert f t
    else if 0 ≤ wrapDiff 40 f.launch h.launch then h :: calInsert f t
    else f :: h :: t

end Sys2Proof.Machine
end

