-- ==== Sys2Proof/Machine/Fabric.lean ====
section
/-! DEFINITION. The traffic manager and the cyclic fabric (chapters 11 and 12): admission, spill, the two stages, reorder and
reassembly. -/

namespace Sys2Proof.Machine

/-! ## Slots, VOQs, flights -/

/-- R301: the slot number since RPLL lock; a slot lasts 4 ns, which is 2.5 ticks. -/
def State.slotNo (s : State) : Nat := s.time.ticks * 2 / 5

/-- R309: a VOQ ID. -/
def voqId (mc : Bool) (inGrp outGrp kind : Nat) : Nat := b2n mc * 2 ^ 15 + inGrp * 2 ^ 10 + outGrp * 2 ^ 5 + kind

/-- A VOQ. -/
def State.voq (s : State) (id : Nat) : Voq := tget Voq.empty s.tm.voqs id

/-- Replace a VOQ. -/
def State.setVoq (s : State) (id : Nat) (v : Voq) : State := { s with tm := { s.tm with voqs := tset Voq.empty s.tm.voqs id v } }

/-- The packets of a VOQ, on chip and spilled (R339). -/
def Voq.packets (v : Voq) : Nat :=
  (v.cells.filter (·.last)).length + (v.spill.filter (fun c => c.cell.last)).length

/-- The pipe of an input group. -/
def grpPipe (g : Nat) : Nat := g / 8

/-- The kind of a cell: its class, or 8 for EXPRESS (R309). -/
def Cell.kind (c : Cell) : Nat := if c.exp then 8 else c.cls

/-- The middle is in service. -/
def State.middleIn (s : State) (m : Nat) : Bool := bit (s.rd Objs.middles_in_service) m

/-- An injected frame's entry completes (R428). -/
def State.injectDone (s : State) (r : Option Nat) (status result : Nat) : State :=
  match r with
  | some n => s.cmdWaitDone n .inject status result
  | none => s

/-- A packet ends at an output group: it has been placed or lost there. After its last group its count ends (R76). -/
def State.flightEnd (s : State) (item g : Nat) : State :=
  match tfind s.tm.flights item with
  | none => s
  | some f =>
    let outs := f.outs.erase g
    if outs = [] then
      ({ s with tm := { s.tm with flights := tdel item s.tm.flights } }.injectDone f.inject 1 1).holdEnd f.pid
    else { s with tm := { s.tm with flights := tput item { f with outs := outs } s.tm.flights } }

/-- A packet is lost at every output group it has not ended at. -/
def State.flightLost (s : State) (item : Nat) : State :=
  match tfind s.tm.flights item with
  | none => s
  | some f => ({ s with tm := { s.tm with flights := tdel item s.tm.flights } }.injectDone f.inject 1 1).holdEnd f.pid

/-- A cell is lost: its packet ends at the output group it was for, or everywhere before its replication. -/
def State.cellLost (s : State) (c : Cell) (g : Nat) : State := if c.mc then s.flightEnd c.item g else s.flightLost c.item

/-! ## Policers (R333 to R336) -/

/-- A policer's state. -/
def State.pol (s : State) (n : Nat) : PolState := tget PolState.init s.tm.pols n

/-- Replace a policer's state. -/
def State.setPol (s : State) (n : Nat) (p : PolState) : State :=
  { s with tm := { s.tm with pols := tset PolState.init s.tm.pols n p } }

/-- The buckets FILL gives a configuration (R336). -/
def polFill (cfg : Nat) : Nat × Nat := if bit cfg 3 then (0, 0) else (fld cfg 112 24 * 2 ^ 32, fld cfg 136 24 * 2 ^ 32)

/-- The colour as received: 0b11 is red (R18). -/
def colourIn (c : Nat) : Nat := if c = 3 then 2 else c

/-- R335: both buckets and the colour for a packet of `len` bytes and colour `c`, `e` counter units after the last fill. -/
def polStep (cfg tc te e len c : Nat) : Nat × Nat × Nat :=
  let inc := if bit cfg 4 then c else 0
  let b : Nat := if bit cfg 5 then 2 ^ 32 else (((len : Int) + toSigned 8 (fld cfg 104 8)) * 2 ^ 32).toNat
  let cbs := fld cfg 112 24 * 2 ^ 32
  let pbs := fld cfg 136 24 * 2 ^ 32
  let dc := e * fld cfg 160 48 / 2 ^ 40
  let dp := e * fld cfg 208 48 / 2 ^ 40
  if fld cfg 6 2 = 1 then
    let tc1 := min (tc + dc) cbs
    let te1 := if cbs < tc + dc then min (te + (tc + dc - cbs)) pbs else te
    if inc = 0 ∧ b ≤ tc1 then (tc1 - b, te1, 0)
    else if inc ≠ 2 ∧ b ≤ te1 then (tc1, te1 - b, 1)
    else (tc1, te1, 2)
  else
    let tc1 := min (tc + dc) cbs
    let tp1 := min (te + dp) pbs
    if inc = 2 ∨ tp1 < b then (tc1, tp1, 2)
    else if inc = 1 ∨ tc1 < b then (tc1, tp1 - b, 1)
    else (tc1 - b, tp1 - b, 0)

/-- R335: policer `n` acts on a packet; answers its colour and whether it is dropped. -/
def State.police (s : State) (n len colour : Nat) : Nat × Bool × State :=
  let cfg := tget 0 s.tm.polCfg n
  let received := colourIn colour
  if n = 0 ∨ fld cfg 6 2 = 0 then (colour, false, s)
  else
    let p := s.pol n
    let e := match p.fill with
      | none => 0
      | some f => s.sinceF f
    let (tc, te, c) := polStep cfg p.tc p.te e len received
    let out := max c received
    let drop := out == 2 && bit cfg 2
    (out, drop, s.setPol n { p with
      tc := tc, te := te, fill := some s.time.f
      green := satAdd 64 p.green (b2n (out == 0)), yellow := satAdd 64 p.yellow (b2n (out == 1))
      red := satAdd 64 p.red (b2n (out == 2)), redDrop := satAdd 64 p.redDrop (b2n drop) })

/-- R334: the refusals of a policer configuration. -/
def polCheck : Nat → State → Code := fun x _ =>
  let adj := toSigned 8 (fld x 104 8)
  if fld x 8 96 ≠ 0 ∨ fld x 0 2 ≠ 0 then .type
  else if fld x 6 2 = 1 ∧ fld x 208 48 ≠ 0 then .type
  else if fld x 6 2 = 0 then .ok
  else refuseIf (fld x 6 2 == 3 || fld x 112 24 == 0 || (fld x 6 2 == 2 && fld x 136 24 == 0) ||
    (fld x 6 2 == 2 && decide (fld x 208 48 < fld x 160 48)) || decide (adj < -64) || decide (63 < adj)) .range

/-- R336: an accepted configuration resets the policer's tokens, and the fill time restarts; its shadow is written (R350). -/
def polApply (n x : Nat) (s : State) : State :=
  let (tc, te) := polFill x
  let s1 := if tget 0 s.tm.polCfg n = x then s else s.wr Objs.n_dirty 0 1
  let s2 : State := { s1 with tm := { s1.tm with polCfg := tset 0 s1.tm.polCfg n x } }
  (s2.setPol n { s.pol n with tc := tc, te := te, fill := some s.time.f }).shadowWrite 6 n

/-- The meaning of POL_CONFIG_WRITE: the policer is the one pol_select of the context names. -/
def execPolConfigWrite (c : Ctx) (v : List Byte) (s : State) : Out :=
  .next (writeObj c Objs.pol_config 0 v polCheck (polApply (s.rdCtx c Objs.pol_select)) s)

/-- R337: the refusals of a RED profile. -/
def redCheck : Nat → State → Code := fun x _ =>
  if fld x 125 3 ≠ 0 then .type
  else refuseIf ([0, 1, 2].any (fun c => (redColour x c).2.1 ≠ 0 ∧ (redColour x c).2.1 ≤ (redColour x c).1)) .range

/-- A RED profile takes effect. -/
def redApply (n x : Nat) (s : State) : State :=
  let s1 := if tget 0 s.tm.redProf n = x then s else s.wr Objs.n_dirty 0 1
  { s1 with tm := { s1.tm with redProf := tset 0 s1.tm.redProf n x } }

/-- The meaning of RED_PROFILE_WRITE: the profile is the one red_select of the context names. -/
def execRedProfileWrite (c : Ctx) (v : List Byte) (s : State) : Out :=
  .next (writeObj c Objs.red_profile 0 v redCheck (redApply (s.rdCtx c Objs.red_select)) s)

/-! ## Admission in step 9 (R304 to R314, R332) -/

/-- R304: the cells a packet of LENGTH `len` occupies. -/
def cellCount (len : Nat) : Nat := (len + 79) / 80

/-- R306: the trailer. -/
def trailer (len admitT : Nat) : Nat := len * 2 ^ 18 + (admitT % 65536) * 4

/-- ADMIT_T of the present: W in units of 4,096 ns (R306). -/
def State.admitNow (s : State) : Nat := s.time.w / (2 ^ 40 * 4096) % 65536

/-- R305: the header of a packet's first cell. -/
def cellHead (md portOfs : Nat) (mark : Bool) (colour : Nat) : Nat :=
  fld md 384 64 * 2 ^ 64 + fld md 264 40 * 2 ^ 24 + fld md 304 1 * 2 ^ 23 +
    (if bit md 259 then 0 else fld md 368 16) * 2 ^ 7 + portOfs * 16 + b2n mark * 8 + fld md 45 1 * 4 + colour

/-- R304 to R307: the cells of a packet. -/
def makeCells (item md : Nat) (body : List Byte) (admitT head grp : Nat) : List Cell :=
  let len := body.length + 4
  let n := cellCount len
  let bytes := padTo 0 (80 * n - 4) body ++ leBytes 4 (trailer len admitT)
  (List.range n).map (fun k =>
    ⟨item, k, k == 0, k + 1 == n, bit md 259, bit md 44, fld md 256 3, 0,
     if bit md 259 then fld md 240 16 else grp, if bit md 259 then 256 else fld md 240 8, 0, if k = 0 then head else 0, slice bytes (80 * k) 80, false⟩)

/-- The next slot of a block that is not skipped. -/
def nextSlot (b : SpillBlock) : Nat → Nat → Option Nat
  | 0, _ => none
  | n + 1, k => if k < 2048 then if bit b.skip (k / 16) then nextSlot b n (k + 1) else some k else none

/-- R311: the chain takes one more slot, in the last block or in a free one; none when no block can be had. -/
def takeSlot (retired limit : Nat) (blocks : List SpillBlock) (used : List Nat) :
    Option (Nat × Nat × List SpillBlock × List Nat) :=
  let inLast := match blocks.getLast? with
    | some b => (nextSlot b 2049 b.next).map (fun k => (b, k))
    | none => none
  match inLast with
  | some (b, k) => some (b.id, k, blocks.dropLast ++ [{ b with next := k + 1 }], used)
  | none =>
    if limit ≤ blocks.length ∨ 131072 ≤ used.length then none
    else match (List.range (used.length + 1)).find? (fun i => !used.contains i) with
      | none => none
      | some i =>
        match nextSlot ⟨i, retired, 0⟩ 2049 0 with
        | some k => some (i, k, blocks ++ [⟨i, retired, k + 1⟩], i :: used)
        | none => none

/-- The cells of a packet written to spill slots (R311, R314); none when the VOQ cannot hold them. -/
def spillCells (retired limit : Nat) : List Cell → Voq → List Nat → Option (Voq × List Nat)
  | [], v, used => some (v, used)
  | c :: cs, v, used =>
    match takeSlot retired limit v.blocks used with
    | none => none
    | some (b, k, blocks, used1) =>
      spillCells retired limit cs
        { v with blocks := blocks, spill := v.spill ++ [⟨c, v.pos, b, k, false, false⟩], pos := (v.pos + 1) % 2 ^ 32,
                 spilling := true } used1

/-- The free cells of a pipe's pool change. -/
def State.poolAdd (s : State) (pipe : Nat) (d : Int) : State :=
  s.wr Objs.pool_free pipe ((s.rd Objs.pool_free pipe : Int) + d).toNat

/-- The writes of the slot of a spilled cell (R314, R396). -/
def State.spillWrites (s : State) (voq : Nat) (c : SpillCell) : State :=
  (List.range 4).foldl (fun (s : State) k =>
    s.hbmWrite (slotPc c.slot) ⟨1, slotOff c.block c.slot + 32 * k, [], [.spill voq c.pos]⟩) s

/-- R310 to R313: place a packet's cells in its VOQ, on chip or in spill, or drop it; `overload` says that R23 refuses
spill. Answers whether the packet was placed. -/
def placePacket (s : State) (id kind pipe : Nat) (cells : List Cell) (overload : Bool) : Bool × State :=
  let v := s.voq id
  let n := cells.length
  let free := s.rd Objs.pool_free pipe
  let may := decide (kind < 8) && bit (s.rd Objs.spill_classes) kind
  let spill := v.spilling || (may && (decide (s.rd Objs.spill_threshold ≤ v.cells.length) ||
    decide (free < s.rd Objs.spill_pool_reserve)))
  if spill then
    if overload then (false, (s.bump Objs.spill_refused pipe).raise 135 pipe)
    else match spillCells s.retiredMask (s.rd Objs.spill_max_blocks) cells v s.tm.used with
      | none => (false, (s.bump Objs.spill_full_drop pipe).raise 136 pipe)
      | some (v1, used) =>
        let s1 := s.setVoq id v1
        let s2 : State := { s1 with tm := { s1.tm with used := used } }
        let s2 := (v1.spill.drop v.spill.length).foldl (fun (s : State) c => s.spillWrites id c) s2
        (true, (s2.wr Objs.spill_blocks_used 0 used.length).bump Objs.cells_spilled pipe n)
  else if free < n ∨ s.rd Objs.voq_onchip_max < v.cells.length + n then
    (false, (s.bump Objs.pool_drop pipe).raise 134 pipe)
  else (true, (s.setVoq id { v with cells := v.cells ++ cells }).poolAdd pipe (-(n : Int)))

/-- An item that step 9 drops. -/
def State.itemDrop (s : State) (it : TmItem) : State := (s.injectDone it.inject 1 1).holdEnd it.pid

/-- R332 point 3: the packet takes its item number and its cells are placed. -/
def admitPlace (s : State) (it : TmItem) (colour : Nat) (mark overload : Bool) : State :=
  let md := it.md
  let mc := bit md 259
  let kind := if bit md 44 then 8 else fld md 256 3
  let ing := s.grpOfPort (fld md 32 8)
  let outg := if mc then 0 else s.grpOfPort (fld md 240 8)
  let ofs := if mc then (fld md 32 8 - 8 * ing) % 8 else (fld md 240 8 - 8 * outg) % 8
  let id := voqId mc ing outg kind
  let head := cellHead md ofs mark colour
  let item := s.tm.nextItem
  let cells := makeCells item md it.body s.admitNow head outg
  match placePacket s id kind (grpPipe ing) cells overload with
  | (false, s1) => s1.itemDrop it
  | (true, s1) =>
    let f : Flight := ⟨it.pid, it.prv, it.orig, fld md 32 8, if mc then 256 else fld md 240 8, if mc then [32] else [outg], it.inject⟩
    { s1 with tm := { s1.tm with nextItem := item + 1, flights := tput item f s1.tm.flights } }

/-- TM_ADMIT (R332): the oldest released packet meets its policer, RED on its VOQ and the buffer. -/
def tmAdmit (s : State) (overload : Bool) : State :=
  match s.tm.items with
  | [] => s
  | it :: rest =>
    let s0 : State := { s with tm := { s.tm with items := rest } }
    let md := it.md
    match s0.police (fld md 320 12) (it.body.length + 4) (fld md 46 2) with
    | (_, true, s1) => s1.itemDrop it
    | (colour, false, s1) =>
      if bit md 259 then admitPlace s1 it colour (bit md 41) overload
      else if 256 ≤ fld md 240 16 then s1.itemDrop it
      else
        let p := fld md 240 8
        let q := fld md 256 3
        let kind := if bit md 44 then 8 else q
        let id := voqId false (s1.grpOfPort (fld md 32 8)) (s1.grpOfPort p) kind
        match s1.red id (s1.rd Objs.queue_red_profile (p * 8 + q)) (colourIn colour) (s1.voq id).packets with
        | (.drop, s2) => ((s2.bump Objs.red_drop (p * 8 + q)).raise 145 p).itemDrop it
        | (.mark, s2) => admitPlace (s2.bump Objs.red_mark (p * 8 + q)) it colour true overload
        | (.pass, s2) => admitPlace s2 it colour (bit md 41) overload

/-- R350: what the read of a policer's state finds. -/
def meterEcc (s : State) (n : Nat) : MeterEcc → State
  | .good => s
  | .corrected => s.raise 150 0
  | .uncorrected => (s.setPol n { s.pol n with tc := 0, te := 0, fill := some s.time.f }).raise 152 0

/-- The meaning of TM_ADMIT: the oldest item meets its policer, whose state may be in error, RED and the buffer. -/
def execTmAdmit (overload : Bool) (ecc : MeterEcc) (s : State) : Out :=
  match s.tm.items with
  | [] => .next s
  | it :: _ => .next (tmAdmit (meterEcc s (fld it.md 320 12) ecc) overload)

/-! ## Refill (R312, R315) -/

/-- The route word of a spilled cell (R307, R314): the station that will send it is not known yet and reads 0, and so does SEQ, which for a
multicast cell carries GROUP instead (DEDUCED, log entry 108). -/
def spillRoute (c : Cell) : Nat :=
  b2n c.first * 2 ^ 31 + b2n c.last * 2 ^ 30 + b2n c.mc * 2 ^ 29 + b2n c.exp * 2 ^ 28 + c.cls * 2 ^ 25 +
    (if c.mc then fld c.dst 15 1 * 2 ^ 19 + fld c.dst 0 15 else c.dst * 2 ^ 15)

/-- The 96 bytes of a cell: its header and its payload (R304, R305). -/
def Cell.bytes (c : Cell) : List Byte := leBytes 16 c.head ++ c.data

/-- The 128 bytes of a spill slot of a VOQ (R314): the cell, then the tag. -/
def SpillCell.image (voq : Nat) (x : SpillCell) : List Byte :=
  x.cell.bytes ++ leBytes 32 (spillRoute x.cell * 2 ^ 224 + crc32 x.cell.bytes * 2 ^ 192 + voq * 2 ^ 176 + x.pos * 2 ^ 144)

/-- The spilled cell in a slot of a block, with its VOQ. -/
def State.spillAt (s : State) (block slot : Nat) : Option (Nat × SpillCell) :=
  s.tm.voqs.findSome? (fun p => (p.2.spill.find? (fun x => x.block = block ∧ x.slot = slot)).map (fun x => (p.1, x)))

/-- The tag of a spill fetch. -/
def spillTag (voq pos : Nat) : Nat := voq * 2 ^ 32 + pos

/-- The fetches of the first cells not yet fetched, at most `n` of them. -/
def issueFetches (id : Nat) : Nat → List SpillCell → State → List SpillCell × State
  | _, [], s => ([], s)
  | 0, l, s => (l, s)
  | n + 1, c :: cs, s =>
    if c.fetching then
      let (l, s1) := issueFetches id (n + 1) cs s
      (c :: l, s1)
    else
      let s1 := s.hbmReads (slotPc c.slot) 1 (slotOff c.block c.slot) (spillTag id c.pos) 4 false
      let (l, s2) := issueFetches id n cs s1
      ({ c with fetching := true } :: l, s2)

/-- SPILL_REFILL (R312): at or below refill_level, spilled cells are fetched in order, up to 64 in flight. -/
def spillRefill (s : State) (id : Nat) : State :=
  let v := s.voq id
  if v.spilling ∧ v.cells.length ≤ s.rd Objs.refill_level then
    let n := 64 - (v.spill.filter (·.fetching)).length
    let (l, s1) := issueFetches id n v.spill s
    s1.setVoq id { v with spill := l }
  else s

/-- The meaning of SPILL_REFILL. -/
def execSpillRefill (voq : BitVec 16) (s : State) : Out := .next (spillRefill s voq.toNat)

/-- The blocks that no spilled cell lies in are freed, all of them once the VOQ is ONCHIP. -/
def freeBlocks (s : State) (id : Nat) (v : Voq) : State :=
  let keep := if v.spill = [] then [] else
    v.blocks.filter (fun b => v.spill.any (fun c => c.block = b.id) || some b = v.blocks.getLast?)
  let used := s.tm.used.filter (fun i => !(v.blocks.any (fun b => b.id = i)) || keep.any (fun b => b.id = i))
  let s1 := s.setVoq id { v with blocks := keep, spilling := !(v.spill.isEmpty) }
  ({ s1 with tm := { s1.tm with used := used } }).wr Objs.spill_blocks_used 0 used.length

/-- A VOQ that holds no packet any more is empty for RED (R338). -/
def idleVoq (s : State) (id : Nat) : State := if (s.voq id).packets = 0 then s.redEmpty id else s

/-- SPILL_FETCH_RETURN (R312, R315): the oldest fetch of the VOQ returns; `mismatch` says that CRC, VOQ or POS of the slot
does not match, as they do not where the slot was not written. A cell goes on chip once the pool has a free place for it. -/
def spillFetchReturn (s : State) (id : Nat) (mismatch : Bool) : State :=
  let v := s.voq id
  let pipe := grpPipe (fld id 10 5)
  match v.spill with
  | [] => s
  | c :: rest =>
    let pc := slotPc c.slot
    match takeDone (s.ctl pc).done 1 (spillTag id c.pos) 4 with
    | none => s
    | some (frozen, done) =>
      let s0 := s.setCtl pc { s.ctl pc with done := done }
      if frozen || mismatch || c.lost then
        let mine := v.cells.filter (fun x => x.item = c.cell.item)
        let keep := v.cells.filter (fun x => x.item ≠ c.cell.item)
        let s1 := ((s0.bump Objs.spill_lost pipe (1 + mine.length)).raise 137 pipe 0 (if frozen then some (8, pc) else none)).poolAdd pipe mine.length
        (idleVoq (freeBlocks s1 id { v with spill := rest, cells := keep, skipping := true }) id).cellLost c.cell 32
      else if v.skipping && !c.cell.first then
        let s1 := (s0.bump Objs.spill_lost pipe).raise 137 pipe
        (idleVoq (freeBlocks s1 id { v with spill := rest }) id).cellLost c.cell 32
      else if s.rd Objs.pool_free pipe = 0 then s
      else
        (freeBlocks s0 id { v with spill := rest, cells := v.cells ++ [c.cell], skipping := false }).poolAdd pipe (-1)

/-- The meaning of SPILL_FETCH_RETURN. -/
def execSpillFetchReturn (voq : BitVec 16) (mismatch : Bool) (s : State) : Out := .next (spillFetchReturn s voq.toNat mismatch)

/-! ## Stage 1 (R316, R317, R318, R325) -/

/-- The quota counts of an input station at a middle. -/
def State.quota (s : State) (i m : Nat) : Quota := tget Quota.zero s.tm.quota (i * 32 + m)

/-- Replace the quota counts. -/
def State.setQuota (s : State) (i m : Nat) (q : Quota) : State :=
  { s with tm := { s.tm with quota := tset Quota.zero s.tm.quota (i * 32 + m) q } }

/-- The input station may send one more normal cell to the middle (R318). -/
def Quota.okN (q : Quota) : Bool := (q.sentN + 256 - q.credN) % 256 < 31

/-- The input station may send one more EXPRESS cell to the middle (R318). -/
def Quota.okE (q : Quota) : Bool := (q.sentE + 256 - q.credE) % 256 < 1

/-- The XOFF field of a group as a station last learned it. -/
def State.xoffSeen (s : State) (station grp : Nat) : Nat := tget 0 s.tm.xoffView (station * 32 + grp)

/-- R325: the home middle of a multicast kind of an input group: the named station, or the next in service. -/
def State.home (s : State) (g k : Nat) : Nat :=
  let b := (g + 3 * k + 1) % 32
  ((List.range 32).map (fun i => (b + i) % 32)).find? s.middleIn |>.getD b

/-- A VOQ has a cell on chip. -/
def State.hasCell (s : State) (id : Nat) : Bool := !(s.voq id).cells.isEmpty

/-- The item number of a VOQ's head cell. -/
def State.headItem (s : State) (id : Nat) : Nat := ((s.voq id).cells.head?.map (·.item)).getD 0

/-- R317 line 2: the unicast EXPRESS VOQ of a group whose head is the oldest. -/
def oldestExp (s : State) (g : Nat) : Option Nat :=
  ((List.range 32).map (fun o => voqId false g o 8)).foldl
    (fun best id =>
      if s.hasCell id then
        match best with
        | none => some id
        | some b => if s.headItem id < s.headItem b then some id else some b
      else best) none

/-- The highest class not XOFF with a cell from group `g` to output group `o`, as station `i` knows it. -/
def bestClass (s : State) (i g o : Nat) : Option Nat :=
  [7, 6, 5, 4, 3, 2, 1, 0].find? (fun c => s.hasCell (voqId false g o c) && !bit (s.xoffSeen i o) c)

/-- R317 line 4: the next output group after the one last served, and its class. -/
def nextOut (s : State) (i g : Nat) : Option (Nat × Nat) :=
  let last := tget 31 s.tm.lastGrp g
  (((List.range 32).map (fun k => (last + 1 + k) % 32)).find? (fun o => (bestClass s i g o).isSome)).bind
    (fun o => (bestClass s i g o).map (fun c => (o, c)))

/-- R317: the VOQ that input station `i` sends from in its slot to middle `m`, and the output group it serves under line 4. -/
def chooseVoq (s : State) (i m : Nat) : Option (Nat × Option Nat) :=
  let g := s.grpOf i
  let q := s.quota i m
  let expMc := voqId true g 0 8
  let mcHome := (List.range 8).find? (fun k => s.home g k == m && s.hasCell (voqId true g 0 k))
  if q.okE && s.home g 8 == m && s.hasCell expMc then some (expMc, none)
  else
    match (if q.okE then oldestExp s g else none) with
    | some id => some (id, none)
    | none =>
      if q.okN then
        match mcHome with
        | some k => some (voqId true g 0 k, none)
        | none => (nextOut s i g).map (fun oc => (voqId false g oc.1 oc.2, some oc.1))
      else none

/-- R329: a VOQ whose links are lost: its cells are discarded and its packets counted in pool_drop. -/
def voqDiscard (s : State) (id : Nat) : State :=
  let v := s.voq id
  let pipe := grpPipe (fld id 10 5)
  let items := ((v.cells.map (·.item)) ++ (v.spill.map (fun c => c.cell.item))).dedup
  let s1 := freeBlocks s id { v with cells := [], spill := [], skipping := false }
  let s2 := (s1.poolAdd pipe v.cells.length).bump Objs.pool_drop pipe items.length
  (items.foldl State.flightLost (s2.raise 140 0)).redEmpty id

/-- What an error does to a cell that is handled (R329). -/
def cellEcc (s : State) (ecc : BufEcc) (c : Cell) : Cell × State :=
  match ecc with
  | .corrected => (c, s.raise 138 0)
  | .data => ({ c with poison := true }, s.raise 139 0)
  | _ => (c, s)

/-- INPUT_SLOT (R317): station `i` sends one cell in its slot to the middle it is connected to. -/
def inputSlot (s : State) (i : Nat) (ecc : BufEcc) : State :=
  let n := s.slotNo
  let m := (i + n) % 32
  if tget 0 s.tm.sent1 i = n + 1 ∨ s.middleIn m = false then s
  else match chooseVoq s i m with
    | none => s
    | some (id, served) =>
      if ecc = .links then voqDiscard s id
      else
        let v := s.voq id
        match v.cells with
        | [] => s
        | c :: rest =>
          let g := s.grpOf i
          let (c1, s1) := cellEcc s ecc c
          let c2 := { c1 with src := i, seq := if c.mc then c.seq else v.seq }
          let s2 := s1.setVoq id { v with cells := rest, seq := if c.mc then v.seq else (v.seq + 1) % 2 ^ 15 }
          let q := s2.quota i m
          let q1 := if c.exp then { q with sentE := (q.sentE + 1) % 256 } else { q with sentN := (q.sentN + 1) % 256 }
          let s3 := (s2.setQuota i m q1).poolAdd (grpPipe g) 1
          let t := { s3.tm with
            wire1 := s3.tm.wire1 ++ [⟨n + 2, m, c2⟩]
            sent1 := tput i (n + 1) s3.tm.sent1
            lastGrp := match served with
              | some o => tput g o s3.tm.lastGrp
              | none => s3.tm.lastGrp }
          let s4 : State := { s3 with tm := t }
          idleVoq s4 id

/-- The meaning of INPUT_SLOT. -/
def execInputSlot (station : Fin 32) (ecc : BufEcc) (s : State) : Out := .next (inputSlot s station.val ecc)

/-! ## Middles (R319, R320, R326) -/

/-- The key of a middle's queue. -/
def midKey (m g k : Nat) : Nat := (m * 32 + g) * 16 + k

/-- A middle's queue. -/
def State.mid (s : State) (m g k : Nat) : List Cell := tget [] s.tm.mids (midKey m g k)

/-- Replace a middle's queue. -/
def State.setMid (s : State) (m g k : Nat) (l : List Cell) : State :=
  { s with tm := { s.tm with mids := tset [] s.tm.mids (midKey m g k) l } }

/-- A cell joins a queue of a middle; a fifth EXPRESS cell counts (R320). -/
def midQueue (s : State) (m g : Nat) (c : Cell) : State :=
  let l := s.mid m g c.kind
  let s1 := s.setMid m g c.kind (l ++ [c])
  if c.kind = 8 ∧ 4 ≤ l.length then (s1.bump Objs.express_deep m).raise 133 m else s1

/-- The middle releases the quota of a cell (R318). -/
def quotaRelease (s : State) (m : Nat) (c : Cell) : State :=
  let q := s.quota c.src m
  s.setQuota c.src m (if c.exp then { q with relE := (q.relE + 1) % 256 } else { q with relN := (q.relN + 1) % 256 })

/-- The output groups with a port in a multicast group's PORT_MAP (R326). -/
def mcGroups (s : State) (grp : Nat) : List Nat :=
  let e := tget 0 s.tbl.mcg grp
  (List.range 32).filter (fun g => s.grpOf g == g && (s.grpPorts g).any (fun p => bit e (64 + p)))

/-- A cell of a multicast packet at its home middle: it is linked into the queue of each output group (R326). -/
def mcLink (s : State) (m : Nat) (c : Cell) (groups : List Nat) : State :=
  if groups = [] then quotaRelease s m c else groups.foldl (fun s g => midQueue s m g c) s

/-- A multicast cell arrives at its home middle (R326); a packet whose group word waits for its rewrite goes to no group (R298). -/
def mcArrive (s : State) (m : Nat) (c : Cell) (word : WordEcc) : State :=
  let key := midKey m (s.grpOf c.src) c.kind
  if c.first then
    let (whole, s) := readWord s 0x15 c.dst word
    let s := if whole then s else s.bump Objs.table_mem_drop
    let groups := if whole then mcGroups s c.dst else []
    let mcast := if c.last then tdel key s.tm.mcast else tput key groups s.tm.mcast
    let flights := match tfind s.tm.flights c.item with
      | some f => tput c.item { f with outs := groups } s.tm.flights
      | none => s.tm.flights
    let s1 : State := { s with tm := { s.tm with
      mcast := mcast, flights := flights, mcCopies := tmod 0 s.tm.mcCopies c.dst (fun n => satAdd 64 n groups.length) } }
    let s2 := mcLink s1 m c groups
    if groups = [] then s2.flightLost c.item else s2
  else match tfind s.tm.mcast key with
    | none => (quotaRelease s m c).flightLost c.item
    | some groups =>
      let s1 : State := if c.last then { s with tm := { s.tm with mcast := tdel key s.tm.mcast } } else s
      mcLink s1 m c groups

/-- Take the oldest cell that has arrived at a destination of a connection. -/
def takeWire (l : List OnWire) (dest slot : Nat) : Option (OnWire × List OnWire) :=
  match l.find? (fun w => w.dest = dest ∧ w.slot ≤ slot) with
  | none => none
  | some w => some (w, l.erase w)

/-- CELL_AT_MIDDLE: the oldest cell on the way to a middle arrives; `word` is what the read of its group's word finds (R298). -/
def cellAtMiddle (s : State) (m : Nat) (ecc : BufEcc) (word : WordEcc) : State :=
  match takeWire s.tm.wire1 m s.slotNo with
  | none => s
  | some (w, rest) =>
    let s0 : State := { s with tm := { s.tm with wire1 := rest } }
    if s.middleIn m = false then s0.flightLost w.cell.item
    else
      let (c, s1) := cellEcc s0 ecc w.cell
      if c.mc then mcArrive s1 m c word else midQueue s1 m c.dst c

/-- The meaning of CELL_AT_MIDDLE. -/
def execCellAtMiddle (middle : Fin 32) (ecc : BufEcc) (word : WordEcc) (s : State) : Out := .next (cellAtMiddle s middle.val ecc word)

/-- R319: the queue a middle sends from toward a group: EXPRESS, else the highest class not XOFF. -/
def chooseMid (s : State) (m g : Nat) : Option Nat :=
  if (s.mid m g 8) ≠ [] then some 8
  else [7, 6, 5, 4, 3, 2, 1, 0].find? (fun c => !(s.mid m g c).isEmpty && !bit (s.xoffSeen m g) c)

/-- Another queue of the middle still holds a copy of a cell. -/
def midHolds (s : State) (m : Nat) (c : Cell) : Bool :=
  (List.range 32).any (fun g => (s.mid m g c.kind).any (fun x => x.item = c.item ∧ x.idx = c.idx))

/-- R318: a station takes quota and XOFF information from a control word of a middle; the word of any middle of a group tells the group's
XOFF. -/
def controlWord (s : State) (m i : Nat) : State :=
  let q := s.quota i m
  let s1 := s.setQuota i m { q with credN := q.relN, credE := q.relE }
  let x := s.rd Objs.xoff_map (s.grpOf m)
  { s1 with tm := { s1.tm with xoffView := tset 0 s1.tm.xoffView (i * 32 + s.grpOf m) x } }

/-- MIDDLE_SLOT (R319): middle `m` sends one cell and a control word to the output it is connected to. -/
def middleSlot (s : State) (m : Nat) (ecc : BufEcc) (parity : Bool) : State :=
  let n := s.slotNo
  let o := (m + n) % 32
  let g := s.grpOf o
  if tget 0 s.tm.sent2 m = n + 1 ∨ s.middleIn m = false then s
  else
    let s0 : State := { s with tm := { s.tm with sent2 := tput m (n + 1) s.tm.sent2 } }
    let s1 := match chooseMid s m g with
      | none => s0
      | some k =>
        match s.mid m g k with
        | [] => s0
        | c :: rest =>
          let (c1, s2) := cellEcc (s0.setMid m g k rest) ecc c
          let s3 : State := { s2 with tm := { s2.tm with wire2 := s2.tm.wire2 ++ [⟨n + 2, o, c1⟩] } }
          if midHolds s3 m c then s3 else quotaRelease s3 m c
    if parity then s1.raise 141 0 else controlWord s1 m o

/-- The meaning of MIDDLE_SLOT. -/
def execMiddleSlot (middle : Fin 32) (ecc : BufEcc) (parity : Bool) (s : State) : Out := .next (middleSlot s middle.val ecc parity)

/-! ## The egress store (R324) -/

/-- The key of a reorder context: output group, input group (32 more for multicast), kind. -/
def ctxKey (g ing : Nat) (mc : Bool) (k : Nat) : Nat := (g * 64 + ing + 32 * b2n mc) * 16 + k

/-- A reorder context. -/
def State.reordCtx (s : State) (key : Nat) : Reord := tget Reord.init s.tm.reord key

/-- Replace a reorder context. -/
def State.setReord (s : State) (key : Nat) (x : Reord) : State :=
  { s with tm := { s.tm with reord := tset Reord.init s.tm.reord key x } }

/-- The port of a cell's packet is in a link state: multicast cells count as for an UP port. -/
def cellPortIn (s : State) (st : Nat) (c : Cell) : Bool := if c.port < 256 then s.link c.port == st else st == 2

/-- The cells in reorder and reassembly of a group. -/
def ctxCells (s : State) (g : Nat) : List Cell :=
  ((s.tm.reord.filter (fun p => p.1 / 1024 = g)).map (fun p => p.2.held ++ p.2.run)).flatten

/-- Whether a packet that waits for step 11 counts as for a port in a link state. -/
def readyPortIn (s : State) (st : Nat) (r : Ready) : Bool :=
  if r.mc then st == 2 else s.link (8 * r.grp + fld r.head 4 3) == st

/-- The counted cells of class `c` of a group: those that belong to ports in UP (R324). -/
def classCount (s : State) (g c : Nat) : Nat :=
  ((ctxCells s g).filter (fun x => x.kind = c && cellPortIn s 2 x)).length +
    ((s.tm.ready.filter (fun r => r.grp = g && !r.exp && r.cls = c && readyPortIn s 2 r)).foldl (fun n r => n + r.cells) 0) +
    ((s.grpPorts g).foldl (fun n p => if s.isUp p then n + (s.ep p).classCells c else n) 0)

/-- Every cell in the egress store of a group (store_used). -/
def State.storeCells (s : State) (g : Nat) : Nat :=
  (ctxCells s g).length + ((s.tm.ready.filter (fun r => r.grp = g)).foldl (fun n r => n + r.cells) 0) +
    ((s.grpPorts g).foldl (fun n p => n + (s.ep p).allCells) 0)

/-- The cells held for the group's ports in HOLDING. -/
def State.heldCells (s : State) (g : Nat) : Nat :=
  (s.grpPorts g).foldl (fun n p => if s.link p = 3 then n + (s.ep p).allCells else n) 0

/-- R322: the timers of a class's contexts stop at XOFF and go on at XON. -/
def timersXoff (s : State) (g c : Nat) (off : Bool) : State :=
  let f := fun (p : Nat × Reord) =>
    if p.1 / 1024 = g ∧ p.1 % 16 = c then
      match off, p.2.since with
      | true, some t => (p.1, { p.2 with waited := p.2.waited + s.spanNs t, since := none })
      | false, none => if p.2.held = [] then p else (p.1, { p.2 with since := some s.fNs })
      | _, _ => p
    else p
  { s with tm := { s.tm with reord := s.tm.reord.map f } }

/-- R324: the classes that are XOFF on their own count. -/
def classXoff (s : State) (g : Nat) : Nat :=
  let old := tget 0 s.tm.xoffClass g
  let k := s.grpSize g
  (List.range 8).foldl (fun m c =>
    let n := classCount s g c
    let on := if bit old c then decide (s.rd Objs.fab_xon_class * k ≤ n) else decide (s.rd Objs.fab_xoff_class * k ≤ n)
    setFld m c 1 (b2n on)) 0

/-- R324: whether the total count makes every class XOFF. -/
def totalXoff (s : State) (g : Nat) : Bool :=
  let n := (List.range 8).foldl (fun n c => n + classCount s g c) 0
  let k := s.grpSize g
  if tget false s.tm.xoffTotal g then decide (s.rd Objs.fab_xon_total * k ≤ n) else decide (s.rd Objs.fab_xoff_total * k ≤ n)

/-- R324: a group declares XOFF and XON anew; the timers of R322 follow. -/
def State.xoffUpdate (s : State) (g : Nat) : State :=
  let cls := classXoff s g
  let tot := totalXoff s g
  let map := if tot then 255 else cls
  let old := s.rd Objs.xoff_map g
  let s1 : State := { s with tm := { s.tm with xoffTotal := tset false s.tm.xoffTotal g tot, xoffClass := tset 0 s.tm.xoffClass g cls } }
  let s2 := s1.wr Objs.xoff_map g map
  (List.range 8).foldl (fun s c => if bit old c = bit map c then s else timersXoff s g c (bit map c)) s2

/-- R324: every group declares anew. -/
def State.xoffUpdateAll (s : State) : State :=
  (List.range 32).foldl (fun (s : State) g => if s.grpOf g = g then s.xoffUpdate g else s) s

/-! ## Reorder and reassembly (R321 to R323) -/

/-- R323: an incomplete run is discarded; `cause` names the isolated middle whose gap a context skips (R328, R507). -/
def dropRun (s : State) (g key : Nat) (cause : Option (Nat × Nat) := none) : State :=
  let x := s.reordCtx key
  if x.run = [] then s
  else
    let items := (x.run.map (·.item)).dedup
    let s1 := s.setReord key { x with run := [] }
    items.foldl (fun s i => s.flightEnd i g) ((s1.bump Objs.reasm_drop g).raise 132 g 0 cause)

/-- R323, R306: the packet of a complete run. -/
def runPacket (g inGrp : Nat) (run : List Cell) (first : Cell) : Ready :=
  let bytes := (run.map (·.data)).flatten
  let tr := leNat (bytes.drop (bytes.length - 4))
  ⟨g, first.item, first.head, first.mc, first.exp, first.cls, first.dst, inGrp, bytes.take (fld tr 18 14 - 4), fld tr 2 16, run.length⟩

/-- R323: a released cell joins the run of its context. -/
def pushRun (s : State) (g ing key : Nat) (c : Cell) : State :=
  let s0 := if c.first then dropRun s g key else s
  let x := s0.reordCtx key
  let run := x.run ++ [c]
  if c.last then
    match run.head? with
    | none => s0
    | some h =>
      if h.first then
        let s1 := s0.setReord key { x with run := [] }
        if run.any (·.poison) then s1.flightEnd c.item g
        else { s1 with tm := { s1.tm with ready := s1.tm.ready ++ [runPacket g ing run h] } }
      else dropRun (s0.setReord key { x with run := run }) g key
  else s0.setReord key { x with run := run }

/-- The class of a context's timer runs: EXPRESS always, a class while it is not XOFF (R322). -/
def timerRuns (s : State) (g k : Nat) : Bool := k == 8 || !bit (s.rd Objs.xoff_map g) k

/-- R321: release the cells that follow E in sequence; then the timer restarts or stops. -/
def releaseRun : Nat → State → Nat → Nat → Nat → State
  | 0, s, _, _, _ => s
  | n + 1, s, g, ing, key =>
    let x := s.reordCtx key
    match x.held.find? (fun c => c.seq = x.e) with
    | none =>
      let since := if x.held = [] then none else if timerRuns s g (key % 16) then some s.fNs else none
      s.setReord key { x with waited := 0, since := since, skipAt := if x.held = [] then none else x.skipAt }
    | some c =>
      let s1 := s.setReord key { x with e := (x.e + 1) % 2 ^ 15, held := x.held.erase c, skipAt := none }
      releaseRun n (pushRun s1 g ing key c) g ing key

/-- R321: a unicast cell at its reorder context. -/
def reorderCell (s : State) (g ing : Nat) (c : Cell) : State :=
  let key := ctxKey g ing false c.kind
  let x := s.reordCtx key
  let d := wrapDiff 15 c.seq x.e
  if d < 0 then ((s.bump Objs.late_cells g).raise 131 g).flightLost c.item
  else
    let s1 := s.setReord key { x with held := x.held ++ [c] }
    if d = 0 then releaseRun (x.held.length + 2) s1 g ing key
    else if x.held = [] then
      s1.setReord key { s1.reordCtx key with waited := 0, since := if timerRuns s g c.kind then some s.fNs else none }
    else s1

/-- The places of a group's egress store (R303, R308). -/
def State.storeSize (s : State) (g : Nat) : Nat := 4096 * s.grpSize g

/-- R324: a cell that finds the store full is dropped with its packet: what the run of its packet holds is not sent. -/
def storeFull (s : State) (g ing : Nat) (c : Cell) : State :=
  let s1 := (s.raise 142 g).cellLost c g
  let key := ctxKey g ing true c.kind
  let x := s1.reordCtx key
  if c.mc then s1.setReord key { x with run := x.run.map (fun y => if y.item = c.item then { y with poison := true } else y) } else s1

/-- CELL_AT_OUTPUT (R321): the oldest cell on the way to a station's output arrives. -/
def cellAtOutput (s : State) (o : Nat) (ecc : BufEcc) : State :=
  match takeWire s.tm.wire2 o s.slotNo with
  | none => s
  | some (w, rest) =>
    let s0 : State := { s with tm := { s.tm with wire2 := rest } }
    let g := s.grpOf o
    let (c, s1) := cellEcc s0 ecc w.cell
    let ing := s.grpOf c.src
    let s2 :=
      if s.storeSize g ≤ s.storeCells g then storeFull s1 g ing c
      else if c.mc then pushRun s1 g ing (ctxKey g ing true c.kind) c
      else reorderCell s1 g ing c
    s2.xoffUpdate g

/-- The meaning of CELL_AT_OUTPUT. -/
def execCellAtOutput (station : Fin 32) (ecc : BufEcc) (s : State) : Out := .next (cellAtOutput s station.val ecc)

/-- The lowest held SEQ of a context, compared from E. -/
def lowestHeld (x : Reord) : Option Cell :=
  x.held.foldl (fun best c =>
    match best with
    | none => some c
    | some b => if wrapDiff 15 c.seq x.e < wrapDiff 15 b.seq x.e then some c else some b) none

/-- R322, R328: a context's gap may be skipped now. -/
def skipDue (s : State) (x : Reord) (k : Nat) : Bool :=
  let limit := if k = 8 then s.rd Objs.fab_reorder_timeout_exp else s.rd Objs.fab_reorder_timeout
  let ran := x.waited + (match x.since with
    | some t => s.spanNs t
    | none => 0)
  let byTimer := x.since.isSome && decide (limit ≤ ran)
  let byIso := match x.skipAt with
    | some t => s.elapsed t.1 0
    | none => false
  byTimer || byIso

/-- FAB_REORDER_TIMEOUT (R322): E moves to the lowest held SEQ. -/
def fabTimeout (s : State) (g ing k : Nat) : State :=
  let key := ctxKey g ing false k
  let x := s.reordCtx key
  match lowestHeld x with
  | none => s
  | some c =>
    if skipDue s x k then
      let cause := x.skipAt.map (fun t => (10, t.2))
      let s1 := dropRun s g key cause
      let s2 := s1.setReord key { s1.reordCtx key with e := c.seq, skipAt := none }
      let s3 := (s2.bump Objs.reorder_skips g).raise 130 g 0 cause
      (releaseRun (x.held.length + 2) s3 g ing key).xoffUpdate g
    else s

/-- The meaning of FAB_REORDER_TIMEOUT. -/
def execFabReorderTimeout (grp inGrp : Fin 32) (kind : Fin 9) (s : State) : Out :=
  .next (fabTimeout s grp.val inGrp.val kind.val)

/-! ## Isolation and regrowth of a middle (R328, R517, R518) -/

/-- R328: the middle's store is discarded, the inputs reset their quota, and every waiting context skips its gap 2 us
later. -/
def State.isolateMiddle (s : State) (m : Nat) : State :=
  if s.middleIn m then
    let mine := s.tm.mids.filter (fun p => p.1 / 512 = m)
    let lost := (mine.map (fun p => p.2.map (fun c => (c, p.1 / 16 % 32)))).flatten
    let quota := s.tm.quota.filter (fun p => p.1 % 32 ≠ m)
    let reord := s.tm.reord.map (fun p => if p.2.held = [] then p else (p.1, { p.2 with skipAt := some (s.fNs + 2000, m) }))
    let s1 : State := { s with tm := { s.tm with
      mids := s.tm.mids.filter (fun p => p.1 / 512 ≠ m), quota := quota, reord := reord,
      mcast := s.tm.mcast.filter (fun p => p.1 / 512 ≠ m) } }
    let s2 := s1.wr Objs.middles_in_service 0 (setFld (s.rd Objs.middles_in_service) m 1 0)
    lost.foldl (fun s p => s.cellLost p.1 p.2) (s2.raise 128 m)
  else s

/-- The meaning of MIDDLE_ISOLATE. -/
def execMiddleIsolate (c : Ctx) (v : List Byte) (s : State) : Out :=
  .next (writeObj c Objs.middle_isolate 0 v noCheck (fun x s => s.isolateMiddle x) s)

/-- A unit's regrowth runs, or has passed and waits for the commit point. -/
def State.regrowsNow (s : State) (t u : Nat) : Bool := s.fm.regrowing.contains (t, u) || s.fm.passed.contains (t, u)

/-- A regrowth starts (R518). -/
def State.startRegrow (s : State) (utype unit : Nat) : State :=
  if s.fm.regrowing.contains (utype, unit) || s.fm.passed.contains (utype, unit) then s
  else { s with fm := { s.fm with regrowing := s.fm.regrowing ++ [(utype, unit)] } }

/-- R518: a middle is regrown only when it is isolated and no regrowth of it runs. -/
def middleRegrowCheck : Nat → State → Code := fun x s => refuseIf (s.middleIn x || s.regrowsNow 10 x) .state

/-- The meaning of MIDDLE_REGROW. -/
def execMiddleRegrow (c : Ctx) (v : List Byte) (s : State) : Out :=
  .next (writeObj c Objs.middle_regrow 0 v middleRegrowCheck
    (fun x s => (s.startRunOn c (Objs.middle_regrow.key 0) x 8).startRegrow 10 x) s)

/-! ## Threshold objects (R330) -/

/-- R330: the refusals of the threshold objects. -/
def fabThreshCheck (o : Obj) : Nat → State → Code := fun x s =>
  if o = Objs.fab_xoff_class then refuseIf (x ≤ s.rd Objs.fab_xon_class) .range
  else if o = Objs.fab_xon_class then refuseIf (s.rd Objs.fab_xoff_class ≤ x) .range
  else if o = Objs.fab_xoff_total then refuseIf (x ≤ s.rd Objs.fab_xon_total) .range
  else if o = Objs.fab_xon_total then refuseIf (s.rd Objs.fab_xoff_total ≤ x) .range
  else if o = Objs.refill_level then refuseIf (s.rd Objs.spill_threshold ≤ x) .range
  else if o = Objs.spill_threshold then refuseIf (x ≤ s.rd Objs.refill_level) .range
  else .ok

end Sys2Proof.Machine
end

