-- ==== Sys2Proof/Machine/EftOps.lean ====
section
/-! DEFINITION. What other units use of the Eft: its clock, the watch ports it carries (R46, R542), what stops the MACs
(R515, R528), and the occurrences it raises (R538). -/

namespace Sys2Proof.Machine

/-- The Eft's time in ns. -/
def State.eftNs (s : State) : Nat := s.eft.ticks * 8 / 5

/-- Whether `ns` nanoseconds of the Eft's clock have passed since `start`. -/
def State.eftElapsed (s : State) (start ns : Nat) : Bool := decide (start + ns ≤ s.eftNs)

/-- The coarse time advances by 40 ns on each AONCLK edge (R541), every 25 steps of 1.6 ns. -/
def State.eftTick (s : State) : State :=
  let n := s.eft.ticks + 1
  let t : State := { s with eft := { s.eft with ticks := n } }
  if n % 25 = 0 then t.wr Objs.coarse_time 0 (linStamp (stampLin (s.rd Objs.coarse_time) + 40 * 65536)) else t

/-- A watch port of R46. -/
def State.watchOk (s : State) (p : Nat) : Bool :=
  (p == 240 || p == 244 || p == 248 || p == 252) && (s.portMode p == 1 || s.portMode p == 2)

/-- The pair that R46 accepts. -/
def State.watchPair (s : State) : Option (Nat × Nat) :=
  let a := s.rd Objs.watch_port_a
  let b := s.rd Objs.watch_port_b
  if s.watchOk a && s.watchOk b && a != b then some (a, b) else none

/-- R542: the hand-over of the watch ports; one to the pair that the Eft carries already changes nothing. -/
def State.carryOver (s : State) : State :=
  let pair := match s.watchPair with
    | some (a, b) =>
      if s.rd Objs.pass_through = 1 ∧ s.rd Objs.admin_up a = 1 ∧ s.rd Objs.admin_up b = 1 then some (a, b) else none
    | none => none
  if s.eft.carry.isSome ∧ s.eft.carry = pair then s
  else { s with eft := { s.eft with carry := pair, passA := [], passB := [], fifoA := [], fifoB := [] } }

/-- A frame has been sent on a watch port (R543). -/
def State.passSent (q : Nat) (s : State) (f : List Byte × Nat) : State := (s.put (.pass q f.1)).bump Objs.pass_frames

/-- R543: the frames whose transmission has ended leave the FIFOs; with `all`, at the hand-back, every one (R544). -/
def State.passOut (s : State) (all : Bool) : State :=
  match s.eft.carry with
  | none => s
  | some (a, b) =>
    let gone := fun (f : List Byte × Nat) => all || s.eftElapsed f.2 0
    let t : State := { s with eft := { s.eft with fifoA := s.eft.fifoA.dropWhile gone, fifoB := s.eft.fifoB.dropWhile gone } }
    (s.eft.fifoB.takeWhile gone).foldl (State.passSent a) ((s.eft.fifoA.takeWhile gone).foldl (State.passSent b) t)

/-- The Eft carries a port. -/
def State.carries (s : State) (p : Nat) : Bool :=
  match s.eft.carry with
  | some (a, b) => p == a || p == b
  | none => false

/-- The MACs receive nothing: in the safe state (R515) and outside ACTIVE (R528, R537). -/
def State.macClosed (s : State) : Bool := s.fm.safe || s.rd Objs.power_state != 0

/-- The core sends nothing on a port: in the safe state (R515), and while the Eft carries it (R544). -/
def State.txClosed (s : State) (p : Nat) : Bool := s.fm.safe || s.carries p

/-- The Eft raises an occurrence: to the fault manager, or into the queue of R538 while the core is off. -/
def State.eftRaise (s : State) (src unit : Nat) (detail : Nat := 0) : State :=
  if s.eft.clocks || s.fm.safe then s.raise src unit detail
  else if s.eft.queue.length < 64 then
    let o : EftOcc := ⟨src, evUnitType src, unit, detail, s.rd Objs.coarse_time⟩
    { s with eft := { s.eft with queue := s.eft.queue ++ [o] } }
  else s.bump Objs.eft_ev_lost

end Sys2Proof.Machine
end

