-- ==== Sys2Proof/Machine/Time.lean ====
section
/-! DEFINITION. The time unit (chapter 13): the counters, the domain trackers, the working clock, snapshots, PPS outputs
and event inputs. -/

namespace Sys2Proof.Machine

/-! ## Counters -/

/-- R354: the increment of F on the tick of this number since RPLL lock; five ticks make a superperiod. -/
def fInc (tick : Nat) : Nat := if tick % 5 = 4 then 0x019999999998 else 0x01999999999A

/-- A counter plus a signed number of units, modulo 2^48 seconds. -/
def ctrAdd (t : Nat) (d : Int) : Nat := (((t : Int) + d) % (ctrWrap : Int)).toNat

/-- The difference of two counters, taken modulo 2^48 seconds as R6 takes differences. -/
def ctrDiff (x y : Nat) : Int :=  modDiff ctrWrap x y

/-- R353, R354: one TCLK tick; each counter adds its INC. -/
def tickTime (u : TimeUnit) : TimeUnit :=
  { u with
    ticks := u.ticks + 1
    f := (u.f + fInc u.ticks) % ctrWrap
    a := (u.a + u.trkA.inc) % ctrWrap
    b := (u.b + u.trkB.inc) % ctrWrap
    w := (u.w + u.incW) % ctrWrap }

/-- One TCLK tick of the block: the Eft goes on, and the time unit while the core's clocks run (R384). -/
def State.tick (s : State) : State :=
  let t := s.eftTick
  if t.eft.clocks then { t with time := tickTime t.time } else t

/-- Division rounding to the nearest, a half upward (R356). -/
def divRound (n d : Int) : Int := (2 * n + d) / (2 * d)

/-- A value held between `-m` and `m`. -/
def clampInt (m x : Int) : Int := max (-m) (min m x)

/-! ## Domains -/

/-- The tracker of domain A (0) or B (1). -/
def State.trk (s : State) (d : Nat) : Tracker := if d = 0 then s.time.trkA else s.time.trkB

/-- Replace a tracker. -/
def State.setTrk (s : State) (d : Nat) (t : Tracker) : State :=
  if d = 0 then { s with time := { s.time with trkA := t } } else { s with time := { s.time with trkB := t } }

/-- The counter of a domain. -/
def State.ctr (s : State) (d : Nat) : Nat := if d = 0 then s.time.a else s.time.b

/-- Replace the counter of a domain. -/
def State.setCtr (s : State) (d t : Nat) : State :=
  if d = 0 then { s with time := { s.time with a := t } } else { s with time := { s.time with b := t } }

/-- A domain is LOCKED. -/
def State.domLocked (s : State) (d : Nat) : Bool := s.rd Objs.dom_state d == 3

/-- The INC of a domain changes at the next epoch boundary (R355); dom_inc reports it. -/
def State.setDomInc (s : State) (d v : Nat) : State :=
  let s := s.setTrk d { s.trk d with pendInc := some v }
  s.wr Objs.dom_inc d v

/-- R372, the rows in which the active domain leaves LOCKED. -/
def wActiveLost (s : State) (d : Nat) : State :=
  let st := s.rd Objs.w_state
  if (st = 1 ∨ st = 2) ∧ s.rd Objs.w_active = d then
    if s.domLocked (1 - d) then ((s.wr Objs.w_state 0 2).wr Objs.w_active 0 (1 - d)).raise 197 0
    else
      let s := s.wr Objs.w_state 0 3
      let s := { s with time := { s.time with pendIncW := some s.time.incWBase } }
      s.raise 199 0
  else s

/-- A domain takes a state (R369); entering LOCKED is remembered until the next epoch boundary, and leaving it moves W at
once (R372). -/
def State.setDomState (s : State) (d st : Nat) : State :=
  let was := s.domLocked d
  let s := s.wr Objs.dom_state d st
  if was = false ∧ st = 3 then { s with time := { s.time with newLocked := setFld s.time.newLocked d 1 1 } }
  else if was = true ∧ st ≠ 3 then wActiveLost s d
  else s

/-- The unit of the filter values: 2^80 x 10^9 to the ppb. -/
def ppbUnit : Int := 2 ^ 80 * 1000000000

/-- R370: the INC for a rate correction of `y` filter units. -/
def incFor (y : Int) : Nat := ((incNom : Int) - divRound (y * 16) (10000000000000000000 * 2 ^ 40)).toNat

/-- R370: the filter takes an offset `th` in units of 2^-40 ns of a sample at `t2` in units of 2^-16 ns. -/
def domFilter (s : State) (d : Nat) (th : Int) (t2 : Nat) : State :=
  let t := s.trk d
  let dt : Int := match t.filterT2 with
    | none => 0
    | some p => min (linDiff t2 p) (2000000000 * 65536)
  let i := clampInt (250000 * ppbUnit) (t.i + (s.rd Objs.dom_ki d : Int) * th * dt)
  let y := clampInt (250000 * ppbUnit) ((s.rd Objs.dom_kp d : Int) * th * (2 ^ 20 * 1000000000) + i)
  let s := s.setTrk d { t with i := i, y := y }
  let s := s.wrInt Objs.dom_freq d (divRound y (2 ^ 72 * 1000000000))
  s.setDomInc d (incFor y)

/-- HOLDOVER (R369, R370): INC from the integrator, and the sample runs start again. -/
def domHold (s : State) (d : Nat) : State :=
  let t := s.trk d
  let s := s.setTrk d { t with filterT2 := none, lockRun := 0, rejectRun := 0 }
  if s.rd Objs.dom_mode d = 0 then s.setDomInc d (incFor t.i) else s

/-- Entry to HOLDOVER. -/
def domHoldover (s : State) (d : Nat) : State := (domHold s d).setDomState d 4

/-- R384: every enabled domain enters HOLDOVER at once; W judges the domains when both have. -/
def State.holdAll (s : State) : State :=
  let active := s.rd Objs.w_active
  let was := s.domLocked active
  let t := (List.range 2).foldl (fun (s : State) d => if s.rd Objs.dom_state d = 0 then s else (domHold s d).wr Objs.dom_state d 4) s
  if was && !t.domLocked active then wActiveLost t active else t

/-- The entry of the difference history that holds from the present tick on. -/
def TimeUnit.entry (u : TimeUnit) : EpochEntry := ⟨u.w, u.a, u.b, u.incW, u.trkA.inc, u.trkB.inc, false⟩

/-- R385: an uncorrectable error damages an entry of the history. -/
def TimeUnit.spoil (u : TimeUnit) (i : Nat) : TimeUnit := { u with history := u.history.modify i (fun e => { e with bad := true }) }

/-- R367: X - W at `t2` (units of 2^-16 ns) in units of 2^-40 ns, from the history; none when t2 lies outside it, or the entry is damaged
(R385). -/
def diffAt (u : TimeUnit) (d t2 : Nat) : Option Int :=
  if linDiff (toLin u.w) t2 < 0 then none
  else match (u.history.filter (fun e => decide (0 ≤ ctrDiff (t2 * 2 ^ 24) e.w))).getLast? with
    | none => none
    | some e =>
      let x := if d = 0 then e.a else e.b
      let incX := if d = 0 then e.incA else e.incB
      let dt : Int := ctrDiff (t2 * 2 ^ 24) e.w
      if e.bad then none else some (ctrDiff x e.w + dt * ((incX : Int) - (e.incW : Int)) / (e.incW : Int))

/-- R366: D of PROG_DATA in units of 2^-40 ns. -/
def sampleD (pd : Nat) : Int :=
  if fld pd 62 2 = 0 then toSigned 62 (fld pd 0 62) * 2 ^ 24 else toSigned 62 (fld pd 0 62) * (256 * 2 ^ 40)

/-- R369: an accepted sample moves the domain. `coarse` is its FMT, `th` its offset in units of 2^-40 ns. -/
def domAccept (s : State) (d : Nat) (coarse : Bool) (th : Int) (t2 : Nat) : State :=
  let st := s.rd Objs.dom_state d
  let big := decide ((s.rd Objs.dom_step_thresh d : Int) * 2 ^ 40 < |th|)
  let t := s.trk d
  if s.rd Objs.dom_mode d = 1 then s
  else if st = 1 ∨ st = 4 then
    if big then (s.setTrk d { t with pendStep := [-th], lockRun := 0, filterT2 := some t2 }).setDomState d 2
    else if coarse then s
    else
      let s := domFilter s d th t2
      (s.setTrk d { s.trk d with filterT2 := some t2, lockRun := 0 }).setDomState d 2
  else if st = 2 then
    if big then s.setTrk d { t with pendStep := [-th], lockRun := 0, filterT2 := some t2 }
    else
      let s := domFilter s d th t2
      let run := if decide (|th| ≤ (s.rd Objs.dom_lock_thresh d : Int) * 2 ^ 40) then t.lockRun + 1 else 0
      let s := s.setTrk d { s.trk d with filterT2 := some t2, lockRun := run }
      if s.rd Objs.dom_lock_count d ≤ run then (s.setDomState d 3).raise 192 d else s
  else if st = 3 then
    let s := domFilter s d th t2
    s.setTrk d { s.trk d with filterT2 := some t2 }
  else s

/-- R366 to R369: an offset sample for domain `d`, with PROG_DATA `pd` and IN_TS `ts`; `bad` is the history entry that
an uncorrectable error spoils (R385). -/
def offsetSample (s : State) (d pd ts : Nat) (bad : TimeFault := .none) : State :=
  let st := s.rd Objs.dom_state d
  let fmt := fld pd 62 2
  let t2 := stampLin ts
  let s : State := match bad with
    | .history i => { s with time := s.time.spoil i }
    | _ => s
  if st = 0 then s.bump Objs.dom_rejected d
  else if fmt = 2 ∨ fmt = 3 then s.bump Objs.dom_rejected d
  else if fmt = 1 ∧ (st = 2 ∨ st = 3) then s.bump Objs.dom_rejected d
  else match diffAt s.time d t2 with
    | none => s.bump Objs.dom_stale d
    | some diff =>
      let t := s.trk d
      let near := match t.lastT2 with
        | none => false
        | some p => decide (linDiff t2 p < 7000000 * 65536)
      if near then s.bump Objs.dom_rate_drop d
      else
        let th := diff - sampleD pd
        if st = 3 ∧ (s.rd Objs.dom_plaus_limit d : Int) * 2 ^ 40 < |th| then
          ((s.bump Objs.dom_rejected d).raise 196 d).setTrk d { t with rejectRun := t.rejectRun + 1 }
        else
          let s := s.bump Objs.dom_samples d
          let s := s.wrInt Objs.dom_offset d (divRound th (2 ^ 24))
          let s := s.setTrk d { t with lastT2 := some t2, lastF := s.fNs, rejectRun := 0 }
          domAccept s d (fmt == 1) th t2

/-- DOM_LOSS_TIMEOUT (R369): a LOCKING or LOCKED domain in AUTO mode has accepted no sample for dom_loss_timeout. -/
def domLossTimeout (s : State) (d : Nat) : State :=
  let st := s.rd Objs.dom_state d
  if (st = 2 ∨ st = 3) ∧ s.rd Objs.dom_mode d = 0 ∧
      s.elapsed (s.trk d).lastF (s.rd Objs.dom_loss_timeout d * 1000000) = true then
    (domHoldover s d).raise 193 d
  else s

/-- The meaning of DOM_LOSS_TIMEOUT. -/
def execDomLossTimeout (d : Fin 2) (s : State) : Out := .next (domLossTimeout s d.val)

/-- The state a domain in SOFTWARE mode reads (R371). -/
def softState (s : State) (d : Nat) : Nat := if s.rd Objs.dom_sw_locked d = 1 then 3 else 4

/-- The effect of a write of dom_enable (R369). -/
def domEnableApply (d x : Nat) (s : State) : State :=
  if x = 0 then
    let s := s.setTrk d { s.trk d with i := 0, filterT2 := none, lockRun := 0, rejectRun := 0 }
    (s.setDomInc d incNom).setDomState d 0
  else if s.rd Objs.dom_state d = 0 then
    s.setDomState d (if s.rd Objs.dom_mode d = 1 then softState s d else 1)
  else s

/-- The meaning of DOM_ENABLE_WRITE. -/
def execDomEnableWrite (c : Ctx) (d : Fin 2) (v : List Byte) (s : State) : Out :=
  .next (writeObj c Objs.dom_enable d.val v noCheck (domEnableApply d.val) s)

/-- The effect of a write of dom_mode or dom_sw_locked (R371): in SOFTWARE mode the state follows dom_sw_locked. A domain in HOLDOVER takes
its INC from the integrator once it is in AUTO mode, and its filter starts again (R370). -/
def domSoftApply (d : Nat) (s : State) : State :=
  let st := s.rd Objs.dom_state d
  if st = 0 then s
  else if s.rd Objs.dom_mode d = 1 then
    if softState s d = 4 then domHoldover s d else s.setDomState d 3
  else if st = 4 then domHold s d
  else s

/-- R369: dom_plaus_limit stays above dom_lock_thresh. -/
def domPlausCheck (d : Nat) : Nat → State → Code :=
  fun x s => refuseIf (x ≤ s.rd Objs.dom_lock_thresh d) .range

/-- R369: dom_lock_thresh stays below dom_plaus_limit. -/
def domLockCheck (d : Nat) : Nat → State → Code :=
  fun x s => refuseIf (s.rd Objs.dom_plaus_limit d ≤ x) .range

/-- R371: dom_inc and dom_step are written only in SOFTWARE mode. -/
def softOnly (d : Nat) : Nat → State → Code := fun _ s => refuseIf (s.rd Objs.dom_mode d != 1) .state

/-- The effect of a write of dom_inc (R371). -/
def domIncApply (d x : Nat) (s : State) : State := s.setTrk d { s.trk d with pendInc := some x }

/-- The meaning of DOM_INC_WRITE. -/
def execDomIncWrite (c : Ctx) (d : Fin 2) (v : List Byte) (s : State) : Out :=
  .next (writeObj c Objs.dom_inc d.val v (softOnly d.val) (domIncApply d.val) s)

/-- The effect of a write of dom_step (R371): the counter moves by the signed value in units of 2^-16 ns, after the steps written before it in
the epoch. -/
def domStepApply (d x : Nat) (s : State) : State :=
  s.setTrk d { s.trk d with pendStep := (s.trk d).pendStep ++ [toSigned 64 x * 2 ^ 24] }

/-- The meaning of DOM_STEP. -/
def execDomStep (c : Ctx) (d : Fin 2) (v : List Byte) (s : State) : Out :=
  .next (writeObj c Objs.dom_step d.val v (softOnly d.val) (domStepApply d.val) s)

/-! ## The working clock -/

/-- R372: a write of w_select that names a domain that is not LOCKED is refused. -/
def wSelectCheck : Nat → State → Code := fun x s => refuseIf (!s.domLocked x) .state

/-- R372: a manual switch. -/
def wSelectApply (x : Nat) (s : State) : State :=
  let st := s.rd Objs.w_state
  if (st = 1 ∨ st = 2) ∧ s.rd Objs.w_active ≠ x then
    ((s.wr Objs.w_state 0 2).wr Objs.w_active 0 x).raise 197 0
  else s

/-- The meaning of W_SELECT_WRITE. -/
def execWSelectWrite (c : Ctx) (v : List Byte) (s : State) : Out :=
  .next (writeObj c Objs.w_select 0 v wSelectCheck wSelectApply s)

/-- R372: w_set is refused outside FREE. -/
def wSetCheck : Nat → State → Code := fun _ s => refuseIf (s.rd Objs.w_state != 0) .state

/-- R372: w_set takes effect at the next epoch boundary. -/
def wSetApply (x : Nat) (s : State) : State :=
  { s with time := { s.time with wPend := some (fld x 32 48 * 1000000000 + fld x 0 32) } }

/-- The meaning of W_SET. -/
def execWSet (c : Ctx) (v : List Byte) (s : State) : Out := .next (writeObj c Objs.w_set 0 v wSetCheck wSetApply s)

/-- R373: the correction in units of ppb / 2^63 for a difference `d` in units of 2^-40 ns. -/
def wCorrection (slewMax : Nat) (d : Int) : Int := clampInt ((slewMax : Int) * 2 ^ 63) (d * 1000000000)

/-- R367: an INC that changes after the boundary's entry was taken has an entry of its own, in place of one of the same tick. -/
def TimeUnit.mendHistory (u : TimeUnit) : TimeUnit :=
  match u.history.getLast? with
  | none => u
  | some e =>
    let h := (if e.w = u.w then u.history.dropLast else u.history) ++ [u.entry]
    { u with history := h.drop (h.length - 4096) }

/-- R373: the update of W toward the active domain. -/
def wUpdate (s : State) : State :=
  let st := s.rd Objs.w_state
  if s.time.wUpdates < s.time.epochs / 512 then
    let s := { s with time := { s.time with wUpdates := s.time.epochs / 512 } }
    if st = 1 ∨ st = 2 then
      let x := s.rd Objs.w_active
      let d := ctrDiff (s.ctr x) s.time.w
      let incX : Nat := (s.trk x).inc
      let inc := ((incX : Int) + divRound (wCorrection (s.rd Objs.slew_max) d * 16) (10000000000 * 2 ^ 23)).toNat
      let s := { s with time := ({ s.time with incW := inc, incWBase := incX, pendIncW := none } : TimeUnit).mendHistory }
      let s := (s.wr Objs.w_inc 0 inc).wrInt Objs.w_offset 0 (divRound d (2 ^ 24))
      if st = 2 ∧ 2 * |d| ≤ 2 ^ 40 then (s.wr Objs.w_state 0 1).raise 198 0 else s
    else s
  else s

/-- The meaning of W_UPDATE. -/
def execWUpdate (s : State) : Out := .next (wUpdate s)

/-! ## Snapshots, PPS outputs, event inputs -/

/-- R386: the four counters in one tick. -/
def snapshotApply (_ : Nat) (s : State) : State :=
  ((((s.wr Objs.snap_f 0 (stamp96 s.time.f)).wr Objs.snap_a 0 (stamp96 s.time.a)).wr
    Objs.snap_b 0 (stamp96 s.time.b)).wr Objs.snap_w 0 (stamp96 s.time.w))

/-- The meaning of TIME_SNAPSHOT. -/
def execTimeSnapshot (c : Ctx) (v : List Byte) (s : State) : Out :=
  .next (writeObj c Objs.time_snapshot 0 v noCheck snapshotApply s)

/-- The counter that a source setting names: 0 F, 1 A, 2 B, 3 W. -/
def sourceCtr (u : TimeUnit) (src : Nat) : Nat :=
  if src = 0 then u.f else if src = 1 then u.a else if src = 2 then u.b else u.w

/-- The increment of the counter's last tick. -/
def sourceInc (u : TimeUnit) (src : Nat) : Nat :=
  if src = 0 then fInc (u.ticks - 1) else if src = 1 then u.trkA.inc else if src = 2 then u.trkB.inc else u.incW

/-- The period in ns of a pps_rate. -/
def ppsPeriod (rate : Nat) : Nat :=
  if rate = 0 then 1000000000 else if rate = 1 then 100000000 else if rate = 2 then 10000000 else 1000000

/-- R381: the pin is held low for want of lock. -/
def ppsHeldLow (s : State) (k : Nat) : Bool :=
  let src := s.rd Objs.pps_source k
  s.rd Objs.pps_require_lock k == 1 &&
    ((src == 3 && (s.rd Objs.w_state == 0 || s.rd Objs.w_state == 3)) ||
     (src == 1 && !s.domLocked 0) || (src == 2 && !s.domLocked 1))

/-- The lane that RCLK mode names carries a signal (R382). -/
def State.rclkSignal (s : State) (k : Nat) : Bool := bit s.ports.sig (s.rd Objs.rclk_lane k)

/-- The level of pin PPS_OUT[k] (R381, R382): the pulse while it is not held low for want of lock, or the divided clock while its lane has
signal detect. DESIGN CHOICE: a pin in mode OFF, whose level the spec does not give, is low. -/
def State.ppsPin (s : State) (k : Nat) : Bool :=
  let high := s.time.ppsHigh.getD k false
  match s.rd Objs.pps_mode k with
  | 1 => high && !ppsHeldLow s k
  | 2 => high && s.rclkSignal k
  | _ => false

/-- Set the pulse or the divided clock of a PPS output. -/
def setPps (s : State) (k : Nat) (high : Bool) : State :=
  { s with time := { s.time with ppsHigh := s.time.ppsHigh.set k high } }

/-- R381: the counter plus the offset, in units of 2^-40 ns. -/
def ppsTime (s : State) (k : Nat) : Int :=
  (sourceCtr s.time (s.rd Objs.pps_source k) : Int) + s.rdInt Objs.pps_offset k * 2 ^ 40

/-- R382: an edge of a lane's recovered clock, divided to 156.25 MHz; the pin turns after rclk_div half periods, so that its period is rclk_div
periods with a duty cycle of one half. -/
def rclkEdge (s : State) (k : Nat) : State :=
  if s.rclkSignal k then
    let n := s.time.rclkCount.getD k 0 + 1
    let turn := decide (s.rd Objs.rclk_div k ≤ n)
    let s1 : State := { s with time := { s.time with rclkCount := s.time.rclkCount.set k (if turn then 0 else n) } }
    if turn then setPps s1 k (!(s.time.ppsHigh.getD k false)) else s1
  else setPps { s with time := { s.time with rclkCount := s.time.rclkCount.set k 0 } } k false

/-- R381, R382: an output whose mode changes starts low. -/
def ppsModeApply (k : Nat) (s : State) : State :=
  setPps { s with time := { s.time with rclkCount := s.time.rclkCount.set k 0 } } k false

/-- PPS_EDGE. In mode RCLK it is an edge of the clock of R382. In mode PPS a rise is due when the last tick passed a whole multiple of the period; a fall is due once the pulse has
lasted pps_width. -/
def ppsEdge (s : State) (k : Nat) (rise : Bool) : State :=
  let period : Int := (ppsPeriod (s.rd Objs.pps_rate k) : Int) * 2 ^ 40
  let t := ppsTime s k
  if s.rd Objs.pps_mode k = 2 then rclkEdge s k
  else if s.rd Objs.pps_mode k ≠ 1 then s
  else if ppsHeldLow s k then setPps s k false
  else if rise then
    if (t - (sourceInc s.time (s.rd Objs.pps_source k) : Int)) / period < t / period then setPps s k true else s
  else if (s.rd Objs.pps_width k : Int) * 2 ^ 40 ≤ t % period then setPps s k false
  else s

/-- The meaning of PPS_EDGE. -/
def execPpsEdge (k : Fin 2) (rise : Bool) (s : State) : Out := .next (ppsEdge s k.val rise)

/-- R381: pps_width stays below the period. -/
def ppsWidthCheck (k : Nat) : Nat → State → Code :=
  fun x s => refuseIf (ppsPeriod (s.rd Objs.pps_rate k) ≤ x) .range

/-- R381: the period of pps_rate stays above pps_width. -/
def ppsRateCheck (k : Nat) : Nat → State → Code :=
  fun x s => refuseIf (ppsPeriod x ≤ s.rd Objs.pps_width k) .range

/-- The timestamp report of R365 as a number; its bytes are the 32 little-endian bytes. -/
def tsReport (type source dom byte0 domainNum seqId tag time : Nat) : List Byte :=
  leBytes 32 (type * 2 ^ 248 + source * 2 ^ 240 + dom * 2 ^ 238 + byte0 * 2 ^ 224 + domainNum * 2 ^ 216 +
    (seqId % 65536) * 2 ^ 200 + tag * 2 ^ 152 + time * 2 ^ 56)

/-- A timestamp report goes to ts_report_ring (R365, R438). -/
def State.sendReport (s : State) (r : List Byte) : State := s.deliver (s.rd Objs.ts_report_ring) 3 r

/-- DOM of a report for a source setting: 0 W, 1 A, 2 B, 3 F. -/
def reportDom (src : Nat) : Nat := if src = 0 then 3 else if src = 3 then 0 else src

/-- R383, R558: an edge whose first sample lies within 100 ns of that of the last one taken at a pin. -/
def State.evtTooSoon (s : State) (k first : Nat) : Bool :=
  match s.time.evtLast.getD k none with
  | some l => decide (modDiff wrapNs first l < 100)
  | none => false

/-- R383: a level of event pin `k` has been stable for `samples` samples of 0.2 ns. DEDUCED (log 119): an edge that comes too soon (R558) is a capture
lost. -/
def evtEdge (s : State) (k : Nat) (falling : Bool) (samples : Nat) : State :=
  let wanted := match s.rd Objs.evt_edge k with
    | 0 => !falling
    | 1 => falling
    | _ => true
  if s.rd Objs.evt_enable k = 1 ∧ wanted = true ∧ s.rd Objs.evt_filter k * 5 ≤ samples then
    let first := (s.fNs + wrapNs - samples / 5) % wrapNs
    let src := s.rd Objs.evt_source k
    let back : Int := ((samples : Int) * 2 ^ 40) / 5 + ((Config.evtDelay k).toNat : Int) * 2 ^ 40 / 1000
    let t := stamp96 (ctrAdd (sourceCtr s.time src) (-back))
    let n := s.time.evtCount.getD k 0
    let q := s.time.evtFifo.getD k []
    if s.evtTooSoon k first then (s.bump Objs.evt_overflow k).raise 204 k
    else
    let s1 := { s with time := { s.time with evtCount := s.time.evtCount.set k (n + 1), evtLast := s.time.evtLast.set k (some first) } }
    let s2 := if 64 ≤ q.length then (s1.bump Objs.evt_overflow k).raise 204 k
      else { s1 with time := { s1.time with evtFifo := s1.time.evtFifo.set k (q ++ [⟨t, b2n falling⟩]) } }
    if s.rd Objs.evt_report k = 1 then s2.sendReport (tsReport 2 k (reportDom src) (b2n falling) 0 n 0 t) else s2
  else s

/-- The meaning of EVT_IN_EDGE. -/
def execEvtInEdge (k : Fin 4) (falling : Bool) (samples : Nat) (s : State) : Out :=
  .next (evtEdge s k.val falling samples)

/-- The value of evt_fifo: the oldest capture, or 0 when there is none. -/
def evtHead (k : Nat) (s : State) : Nat :=
  match s.time.evtFifo.getD k [] with
  | [] => 0
  | c :: _ => c.edge * 2 ^ 96 + c.time

/-- A read of evt_fifo removes the oldest capture. -/
def evtPop (k : Nat) (s : State) : State :=
  { s with time := { s.time with evtFifo := s.time.evtFifo.set k ((s.time.evtFifo.getD k []).drop 1) } }

/-- A read of evt_fifo (R383, R452). -/
def readEvtFifo (c : Ctx) (k : Nat) (s : State) : State :=
  readObj c Objs.evt_fifo k (evtHead k) (fun _ => .ok) (evtPop k) s

/-- The meaning of EVT_FIFO_READ. -/
def execEvtFifoRead (c : Ctx) (k : Fin 4) (s : State) : Out := .next (readEvtFifo c k.val s)

end Sys2Proof.Machine
end

