-- ==== Sys2Proof/Machine/Egress.lean ====
section
/-! DEFINITION. Egress admission, the scheduler with its shapers, the start of a frame, PTP edits and launches (chapter 12,
R357 to R365 and R376 to R380). -/

namespace Sys2Proof.Machine

/-! ## Copies and their edits -/

/-- What egress admission decides for a copy (R341): a place, or refused with the completion of a PKT_INJECT (R428). -/
inductive EgDest where
  | queue
  | express
  | cal (late : Bool)
  | refused (status result : Nat)
deriving DecidableEq, Repr

/-- R363, R364: the place of the PTP header in a copy whose edits inserted `ins` bytes ahead of it; none when the copy is
sent unedited. The first component says that the copy counts in ptp_edit_err. -/
def ptpPlace (prog ins : Nat) : Bool × Option Nat :=
  let op := fld prog 60 4
  let o := fld prog 52 8
  if op = 0 then (false, none)
  else if 6 ≤ op ∨ fld prog 50 2 = 3 ∨ o < 14 ∨ 212 < o + ins then (true, none)
  else (false, some (o + ins))

/-- A copy for a port: the frame with its own edits (R340, R45, R251), whether a MARK could not be made, and whether its
PTP edit is void. -/
def buildCopy (s : State) (p idx seq : Nat) (r : Ready) (f : Flight) (mark late : Bool) : EgFrame × Bool × Bool :=
  let b0 := if idx = 0 then r.body else Config.editBytes idx r.body
  let i0 := if idx = 0 then 0 else Config.editIns idx r.body
  let (b1, bad) := if mark then match markCe f.prv b0 i0 with
      | some b => (b, false)
      | none => (b0, true)
    else (b0, false)
  let role := if s.pairValid p then s.rd Objs.port_role p else 0
  let (b2, i2) := addRedundancy (s.rd Objs.vlan_tpid3) role seq b1
  let shift := i0 + i2
  let body := fixSums f.prv f.orig b2 shift
  let prog := fld r.head 64 64
  let (err, ofs) := ptpPlace prog shift
  (⟨body, r.cls, r.exp, r.admitT, bit r.head 2, bit r.head 23, fld r.head 24 40, prog, ofs, f.prv, shift, r.cells, late⟩, bad, err)

/-! ## Admission (R341, R377) -/

/-- R377: a copy with LAUNCH_VALID. -/
def launchAdmit (s : State) (p : Nat) (r : Ready) : EgDest × State :=
  let d := s.launchDiff (fld r.head 24 40)
  if 128 ≤ (s.ep p).cal.length then (.refused 1 1, (s.bump Objs.calendar_drop p).raise 149 p)
  else if ((s.rd Objs.lt_max_ahead * 256 : Nat) : Int) < d then (.refused 0x800C 0, (s.bump Objs.lt_far_drop p).raise 202 p)
  else if d < -((s.rd Objs.lt_late_tol * 256 : Nat) : Int) then
    if bit r.head 2 then (.cal true, (s.bump Objs.lt_late_sent p).raise 201 p)
    else (.refused 0x800B 0, (s.bump Objs.lt_late_drop p).raise 201 p)
  else (.cal false, s)

/-- R341: the line of the table that applies to a copy; the Bool is its MARK. -/
def egDecide (s : State) (p : Nat) (r : Ready) : EgDest × Bool × State :=
  let q := r.cls
  let mark := bit r.head 3
  let g := s.grpOfPort p
  let st := s.link p
  if st = 0 ∨ st = 1 ∨ st = 4 then (.refused 1 1, mark, s.bump Objs.tx_drop_down p)
  else if st = 3 ∧ s.rd Objs.hold_cells * s.grpSize g < s.heldCells g + r.cells then
    (.refused 1 1, mark, (s.bump Objs.tx_queue_drop (p * 8 + q)).raise 144 p)
  else if bit r.head 23 then
    let (d, s1) := launchAdmit s p r
    (d, mark, s1)
  else if r.exp then
    if 64 ≤ (s.ep p).expr.length then (.refused 1 1, mark, (s.bump Objs.express_drop p).raise 148 p)
    else (.express, mark, s)
  else
    let n := ((s.ep p).q q).length
    let full := fun (m : Bool) (s : State) =>
      if s.rd Objs.queue_max (p * 8 + q) ≤ n then
        (EgDest.refused 1 1, m, (s.bump Objs.tx_queue_drop (p * 8 + q)).raise 144 p)
      else (.queue, m, s)
    if r.mc then
      match s.red (65536 + p * 8 + q) (s.rd Objs.queue_red_profile (p * 8 + q)) (colourIn (fld r.head 0 2)) n with
      | (.drop, s1) => (.refused 1 1, mark, (s1.bump Objs.red_drop (p * 8 + q)).raise 145 p)
      | (.mark, s1) => full true (s1.bump Objs.red_mark (p * 8 + q))
      | (.pass, s1) => full mark s1
    else full mark s

/-- A copy is put at its place. -/
def egPut (s : State) (p : Nat) (d : EgDest) (f : EgFrame) : State :=
  let x := s.ep p
  match d with
  | .queue => s.setEp p (x.setQ f.cls (x.q f.cls ++ [f]))
  | .express => s.setEp p { x with expr := x.expr ++ [f] }
  | .cal _ => s.setEp p { x with cal := calInsert f x.cal }
  | .refused _ _ => s

/-- R341: one copy is admitted to a port, or refused; the completion of a PKT_INJECT. -/
def egCopy (s : State) (p idx seq : Nat) (r : Ready) (f : Flight) : (Nat × Nat) × State :=
  match egDecide s p r with
  | (.refused a b, _, s1) =>
    ((a, b), if r.mc then { s1 with tm := { s1.tm with mcRefused := tmod 0 s1.tm.mcRefused r.dst (fun n => satAdd 64 n 1) } } else s1)
  | (d, mark, s1) =>
    let (fr, noEct, err) := buildCopy s1 p idx seq r f mark (decide (d = .cal true))
    let s2 := if noEct then s1.bump Objs.mark_not_ect p else s1
    let s3 := if err then s2.bump Objs.ptp_edit_err p else s2
    ((1, 0), egPut s3 p d fr)

/-- The edit-list entry of a multicast copy to a port (R291). -/
def editItem (m p : Nat) : Nat := fld m 32 17 + popCount p (fld m 64 p)

/-- The edit index of a multicast copy to a port (R291); none where the entry's word cannot be used (R298). -/
def mcEdit (s : State) (m p : Nat) (ecc : WordEcc) : Option Nat × State :=
  if bit m 62 then
    match readWord s 0x16 (editItem m p) ecc with
    | (true, s1) => (some (tget 0 s.tbl.edit (editItem m p)), s1)
    | (false, s1) => (none, s1)
  else (some (fld m 16 16), s)

/-- R341: copies of one packet are admitted in ascending port order. `bad` is the port whose edit-list entry has an error. -/
def egCopies (m seq : Nat) (r : Ready) (f : Flight) (ecc : WordEcc) (bad : Option Nat) : List Nat → State → State
  | [], s => s
  | p :: ps, s =>
    match mcEdit s m p (if bad = some p then ecc else .good) with
    | (some idx, s1) => egCopies m seq r f ecc bad ps (egCopy s1 p idx seq r f).2
    | (none, s1) => egCopies m seq r f ecc bad ps (s1.bump Objs.table_mem_drop)

/-- R350, R385: what a read of the queues, the launch calendar, the express FIFO and the shapers finds. -/
def queueEcc (s : State) (p : Nat) : QueueEcc → State
  | .good => s
  | .corrected => s.raise 150 0
  | .queue q =>
    let x := s.ep p
    let n := (x.q q.val).length
    let s1 := ((s.setEp p (x.setQ q.val [])).bump Objs.tx_queue_drop (p * 8 + q.val) n).raise 151 p
    s1.redEmpty (65536 + p * 8 + q.val)
  | .calendar =>
    let x := s.ep p
    (x.cal.foldl (fun s f => s.bump Objs.tx_queue_drop (p * 8 + f.cls)) (s.setEp p { x with cal := [] })).raise 151 p
  | .express =>
    let x := s.ep p
    (x.expr.foldl (fun s f => s.bump Objs.tx_queue_drop (p * 8 + f.cls)) (s.setEp p { x with expr := [] })).raise 151 p
  | .shaper q =>
    let x := s.ep p
    let t : ShState := ⟨0, s.time.f⟩
    (s.setEp p (if q.val = 8 then { x with psh := t } else { x with qsh := x.qsh.set q.val t })).raise 152 0

/-- The ports of a group of stations that a multicast group's packet goes to (R291). -/
def mcPorts (s : State) (g m inPort : Nat) : List Nat :=
  (s.grpPorts g).filter (fun p => bit m (64 + p) && !(bit m 63 && p == inPort))

/-- EGRESS_ADMIT (R341): the oldest reassembled packet of a group. `desc` is what the read of the descriptors of a port of the group finds (R350),
`ecc` what the read of a multicast group's word finds, or with `bad` that of a port's edit-list entry (R298). The copies of a packet carry one
redundancy sequence number, whichever group makes them (R45). -/
def egressAdmit (s : State) (g : Nat) (port : Nat) (desc : QueueEcc) (ecc : WordEcc) (bad : Option Nat) : State :=
  match s.tm.ready.find? (fun r => r.grp = g) with
  | none => s
  | some r =>
    let s := if (s.grpPorts g).contains port then queueEcc s port desc else s
    let s0 : State := { s with tm := { s.tm with ready := s.tm.ready.erase r } }
    match tfind s.tm.flights r.item with
    | none => s0.xoffUpdate g
    | some f =>
      let seq := (Config.redundancySeq r.item).toNat
      if r.mc then
        match readWord s0 0x15 r.dst (if bad.isNone then ecc else .good) with
        | (true, s2) =>
          let m := tget 0 s.tbl.mcg r.dst
          ((egCopies m seq r f ecc bad (mcPorts s g m f.inPort) s2).flightEnd r.item g).xoffUpdate g
        | (false, s2) => ((s2.bump Objs.table_mem_drop).flightEnd r.item g).xoffUpdate g
      else
        let (done, s2) := egCopy s0 (8 * g + fld r.head 4 3) (fld r.head 7 16) seq r f
        ((s2.injectDone f.inject done.1 done.2).flightEnd r.item g).xoffUpdate g

/-- The meaning of EGRESS_ADMIT. -/
def execEgressAdmit (grp : Fin 32) (port : Fin 256) (desc : QueueEcc) (word : WordEcc) (edit : Option (Fin 256)) (s : State) : Out :=
  .next (egressAdmit s grp.val port.val desc word (edit.map (·.val)))

/-! ## Shapers (R346, R347) -/

/-- The tokens of a shaper now, in units of 2^-32 unit. -/
def shNow (s : State) (cfg : Nat) (x : ShState) : Int :=
  min (x.tok + ((s.sinceF x.fill * fld cfg 80 48 / 2 ^ 40 : Nat) : Int)) ((fld cfg 56 24 * 2 ^ 32 : Nat) : Int)

/-- A shaper lets a frame start. -/
def shOpen (s : State) (cfg : Nat) (x : ShState) : Bool := !bit cfg 2 || decide (0 < shNow s cfg x)

/-- R346: the cost of a frame of `len` bytes in units of 2^-32 unit. -/
def shCost (cfg len : Nat) : Int :=
  if bit cfg 1 then 2 ^ 32 else max 1 ((len : Int) + toSigned 8 (fld cfg 48 8)) * 2 ^ 32

/-- A shaper pays for a frame. -/
def shSpend (s : State) (cfg len : Nat) (x : ShState) : ShState :=
  if bit cfg 2 then ⟨shNow s cfg x - shCost cfg len, s.time.f⟩ else x

/-- The shaper of a queue. -/
def EgPort.sh (x : EgPort) (q : Nat) : ShState := x.qsh.getD q ⟨0, 0⟩

/-- R346: the refusals of a shaper's configuration. -/
def shCheck : Nat → State → Code := fun x _ =>
  let adj := toSigned 8 (fld x 48 8)
  if fld x 3 45 ≠ 0 then .type
  else refuseIf ((bit x 2 && fld x 56 24 == 0) || decide (adj < -64) || decide (63 < adj)) .range

/-- R347: an accepted configuration sets the tokens; 8 names the port's shaper. -/
def shApply (p q x : Nat) (s : State) : State :=
  let t : ShState := ⟨if bit x 0 then 0 else ((fld x 56 24 * 2 ^ 32 : Nat) : Int), s.time.f⟩
  let e := s.ep p
  if q = 8 then s.setEp p { e with psh := t } else s.setEp p { e with qsh := e.qsh.set q t }

/-- A shaper's configuration is written: its tokens, and its shadow (R350). -/
def shWritten (p q x : Nat) (s : State) : State := (shApply p q x s).shadowWrite 7 (p * 9 + q)

/-- The meaning of SHAPER_WRITE: queue 8 names port_shaper. -/
def execShaperWrite (c : Ctx) (port : Fin 256) (queue : Fin 9) (v : List Byte) (s : State) : Out :=
  if queue.val = 8 then .next (writeObj c Objs.port_shaper port.val v shCheck (shWritten port.val 8) s)
  else .next (writeObj c Objs.queue_shaper (port.val * 8 + queue.val) v shCheck (shWritten port.val queue.val) s)

/-- The meaning of QUEUE_WEIGHT_WRITE: the weight is read at the next round (R344). -/
def execQueueWeightWrite (c : Ctx) (port : Fin 256) (queue : Fin 8) (v : List Byte) (s : State) : Out :=
  .next (writeObj c Objs.queue_weight (port.val * 8 + queue.val) v noCheck noApply s)

/-- R344: a write of strict_count ends the round. -/
def strictApply (p : Nat) (s : State) : State := s.setEp p { s.ep p with credit := List.replicate 8 0 }

/-- The meaning of STRICT_COUNT_WRITE. -/
def execStrictCountWrite (c : Ctx) (port : Fin 256) (v : List Byte) (s : State) : Out :=
  .next (writeObj c Objs.strict_count port.val v noCheck (fun _ => strictApply port.val) s)

/-! ## PTP edits at the start (R363 to R365) -/

/-- A W time in counter units as the time of the counter DOM names: 0 W, 1 A, 2 B (R355). -/
def domTime (s : State) (dom e : Nat) : Nat :=
  if dom = 0 then e
  else
    let x := s.ctr (dom - 1)
    let incX : Int := ((s.trk (dom - 1)).inc : Nat)
    ctrAdd x (ctrDiff e s.time.w * incX / (s.time.incW : Int))

/-- correctionField of the PTP header at `o`, plus `d`, held at 2^63 - 1 (R364). -/
def addCorrection (body : List Byte) (o : Nat) (d : Int) : List Byte :=
  let c := min (toSigned 64 (beNat (slice body (o + 8) 8)) + d) (2 ^ 63 - 1)
  splice body (o + 8) (beBytes 8 (ofSigned 64 c))

/-- R364: the edit itself, for the egress timestamp `e` in counter units. -/
def ptpEdit (s : State) (prog o e : Nat) (body : List Byte) : List Byte :=
  let op := fld prog 60 4
  if op = 1 ∨ op = 4 then
    let r : Int := (fld (stamp96 e) 0 48 : Int) - (fld prog 0 48 : Int)
    addCorrection body o (if r < 0 then r + 1000000000 * 65536 else r)
  else if op = 2 ∨ op = 5 then
    let t := stamp96 (domTime s (fld prog 50 2) e)
    splice (addCorrection body o (fld t 0 16)) (o + 34) (beBytes 6 (fld t 48 48) ++ beBytes 4 (fld t 16 32))
  else body

/-- The frame that goes out: the PTP edit of the copy, followed by its checksum (R364). -/
def ptpFrame (s : State) (f : EgFrame) (e : Nat) : List Byte :=
  match f.ptp with
  | none => f.body
  | some o =>
    let b := ptpEdit s f.prog o e f.body
    if b = f.body then b else followSum f.prv f.body b f.shift

/-- R365: the report of a copy with CAPTURE, made when the MAC starts it. -/
def ptpReport (s : State) (p : Nat) (f : EgFrame) (body : List Byte) (e : Nat) : State :=
  match f.ptp with
  | none => s
  | some o =>
    let op := fld f.prog 60 4
    if 3 ≤ op then
      let dom := fld f.prog 50 2
      s.sendReport (tsReport 1 p dom (body.getD o 0).toNat (body.getD (o + 4) 0).toNat (beNat (slice body (o + 30) 2))
        (fld f.prog 0 48) (stamp96 (domTime s dom e)))
    else s

/-! ## The start of a frame -/

/-- R362: ts_tx_board of a port as it applies to a point that crosses at a time of W. -/
def txBoard (s : State) (p t : Nat) : Int := boardDelay s.time (fun b => b.tx) 1 (s.rdInt Objs.ts_tx_board p) p t

/-- R359: the egress timestamp of a frame whose timestamp point follows the present tick by `ofs` ps. -/
def egressTime (s : State) (p ofs : Nat) : Nat :=
  let lat := toSigned 32 (Config.txLat (s.portMode p) (s.fec p)).toNat
  let balls := ctrAdd s.time.w (((ofs : Int) + lat) * 2 ^ 40 / 1000)
  ctrAdd s.time.w (((ofs : Int) + lat + txBoard s p balls) * 2 ^ 40 / 1000)

/-- A preemptable frame in transmission can be cut now: both parts are fragments of at least 64 bytes (R30). The running part begins with 8
bytes of preamble, and the part cut off ends with a check of 4 bytes of its own. -/
def cutOk (s : State) (p : Nat) (t : TxFrame) : Bool :=
  let n := txSent (s.rate p) (s.spanNs t.since)
  decide (68 ≤ n) && decide (n + 64 ≤ t.left)

/-- R30: the preemptable frame in transmission is cut; its running part is a fragment, and the
next part begins with a preamble of its own. -/
def cutFrame (s : State) (p : Nat) : State :=
  let x := s.ep p
  match x.txP with
  | some t =>
    if t.paused then s
    else
      let n := txSent (s.rate p) (s.spanNs t.since)
      (s.setEp p { x with txP := some { t with left := t.left - n + 8, paused := true, cut := true } }).bump Objs.mm_frag_tx p
  | none => s

/-- The MAC starts a frame whose egress timestamp is `e`: the output, the report, and the frame in transmission (R343, R359, R364). The preamble takes 8
bytes more. -/
def startFrame (s : State) (p : Nat) (f : EgFrame) (preemptable : Bool) (e : Nat) : State :=
  let body := ptpFrame s f e
  let bytes := body ++ leBytes 4 (crc32 body)
  let t : TxFrame := ⟨bytes.length + 8, bytes.length, s.fNs, false, false⟩
  let s1 := ptpReport s p f body e
  let x := s1.ep p
  let s2 := s1.setEp p (if preemptable then { x with txP := some t } else { x with txE := some t })
  (s2.put (.frame p bytes e)).xoffUpdate (s.grpOfPort p)

/-! ## Launches (R376 to R380). Times are in units of 2^-8 ps. -/

/-- The spacing of a port's start grid (R379); none for the modes without a grid. -/
def gridStep (s : State) (p : Nat) : Option Nat :=
  match s.portMode p with
  | 1 => some (16000 * 256)
  | 2 => if s.rate p = 1000 then some (16000 * 256) else none
  | 4 => some (3200 * 256)
  | 5 => some (1280 * 256)
  | 6 => some (1280 * 256)
  | 7 => some (640 * 256)
  | 8 => some (320 * 256)
  | 9 => some (160 * 256)
  | _ => none

/-- W now. -/
def wFine (s : State) : Int := ((s.time.w * 1000 / 2 ^ 32 : Nat) : Int)

/-- The W time that LAUNCH names (R376). -/
def launchAt (s : State) (launch : Nat) : Int :=
  ((((s.time.w + 2 ^ 31) / 2 ^ 32 : Nat) : Int) + s.launchDiff launch) * 1000

/-- TX_LAT and ts_tx_board of a port (R359): how far after the MAC's start a bit crosses the reference plane. -/
def txDelay (s : State) (p : Nat) : Int := (toSigned 32 (Config.txLat (s.portMode p) (s.fec p)).toNat + txBoard s p s.time.w) * 256

/-- The first grid point of a port at or after a time; the time itself where the mode has no grid (R379). -/
def gridFrom (s : State) (p launch : Nat) (t : Int) : Int :=
  match gridStep s p with
  | none => t
  | some g =>
    let ph : Int := (Config.gridPhase p launch : Nat)
    ph + -((-(t - ph)) / (g : Int)) * (g : Int)

/-- R379: the start point of a launched frame, as the time at which the first bit of its preamble crosses the reference plane: the
nearest grid point, the earlier of two, or the first at or after LAUNCH. -/
def startPoint (s : State) (p launch : Nat) : Int :=
  let l := launchAt s launch
  match gridStep s p with
  | none => l
  | some g =>
    let q := gridFrom s p launch l
    if s.rd Objs.lt_round p = 1 then q else if 2 * (q - l) < (g : Int) then q else q - (g : Int)

/-- The time at which the MAC starts a frame whose preamble crosses the reference plane at its start point. -/
def macPoint (s : State) (p launch : Nat) : Int := startPoint s p launch - txDelay s p

/-- R380: the length of the guard band. -/
def guardLen (s : State) (p : Nat) : Int :=
  let n := if s.preempts p then 84 else s.rd Objs.max_frame p + 20
  ((n * 8000000 * 256 / s.rate p : Nat) : Int)

/-- R349: the guard band of the first launch is in force, or will be before `n` bytes have been sent. -/
def guarded (s : State) (p n : Nat) : Bool :=
  match (s.ep p).cal.head? with
  | none => false
  | some f =>
    if f.late then true
    else decide (macPoint s p f.launch - guardLen s p < wFine s + ((n * 8000000 * 256 / s.rate p : Nat) : Int)) ||
      decide (macPoint s p f.launch - guardLen s p ≤ wFine s)

/-- The head of the calendar is due: LATE, or the MAC's start falls before the next tick; without a grid, not before it. -/
def headDue (s : State) (p : Nat) (f : EgFrame) : Bool :=
  f.late || (match gridStep s p with
    | none => decide (macPoint s p f.launch ≤ wFine s)
    | some _ => decide (macPoint s p f.launch < wFine s + 1600 * 256))

/-- The start point passed while an earlier launched frame was being sent (R378). -/
def slipped (s : State) (p : Nat) (f : EgFrame) : Bool :=
  !f.late && decide (macPoint s p f.launch + ((s.spanNs (s.ep p).launchEnd * 256000 : Nat) : Int) < wFine s)

/-- The point at which the head of the calendar starts: its start point, or, where that has passed or the frame is LATE, the next grid
point (R378). -/
def launchPoint (s : State) (p : Nat) (f : EgFrame) : Int :=
  let now := wFine s + txDelay s p
  if f.late then gridFrom s p f.launch now
  else
    let l := startPoint s p f.launch
    if l < now then gridFrom s p f.launch now else l

/-- The time in ps of the RS-FEC parity that one point of a port's transmit stream holds: PRESUMED from IEEE 802.3 (log 114). -/
def parityPs (s : State) (p : Nat) : Nat :=
  match s.fec p, s.portMode p with
  | 2, _ => 5430
  | 3, 6 => 5647
  | 3, 7 => 2824
  | 3, 8 => 2824
  | 3, 9 => 1412
  | _, _ => 0

/-- R376, R379: when the first bit of a launched frame's preamble crosses the reference plane. `dev` is the deviation in ps: within 400 ps of a
grid point; in the modes without a grid within 1 us after LAUNCH, or now where that has passed. -/
def launchCross (s : State) (p : Nat) (f : EgFrame) (dev : Nat) : Int :=
  match gridStep s p with
  | some _ => launchPoint s p f + (((dev % 801 : Nat) : Int) - 400) * 256
  | none =>
    let now := wFine s + txDelay s p
    if f.late then now else max now (startPoint s p f.launch + ((dev % 1000001 * 256 : Nat) : Int))

/-- R359, R376, R379: the egress timestamp of a launched frame: the preamble and SFD of 64 bits after its first bit, and after the RS-FEC parity
where bit 31 of `dev` says that the stream inserts it between them. -/
def launchTime (s : State) (p : Nat) (f : EgFrame) (dev : Nat) : Nat :=
  let pre : Nat := 64 * 1000000 * 256 / s.rate p
  let parity : Nat := if bit dev 31 then parityPs s p * 256 else 0
  ctrAdd s.time.w ((launchCross s p f dev + (pre : Int) + (parity : Int) - wFine s) * 2 ^ 32 / 1000)

/-- The preemptable frame in transmission lets an express frame start: there is none, it is held back already, or it can be cut. -/
def cutFree (s : State) (p : Nat) : Bool :=
  match (s.ep p).txP with
  | none => true
  | some t => t.paused || (s.preempts p && cutOk s p t)

/-- R378: the head of the calendar starts when it is due and the MAC is free of express frames. -/
def launchStart (s : State) (p ofs : Nat) : Option State :=
  let x := s.ep p
  match x.cal with
  | [] => none
  | f :: rest =>
    if headDue s p f = false ∨ x.txE.isSome = true ∨ cutFree s p = false then none
    else
      let s1 := if slipped s p f then (s.bump Objs.lt_slip p).raise 203 p else s
      let s2 := cutFrame s1 p
      let s3 := s2.setEp p { s2.ep p with cal := rest, launchEnd := s.fNs + s.sendNs p (f.body.length + 12) }
      some (startFrame s3 p f false (launchTime s p f ofs))

/-- LAUNCH_DUE: the moment of the head of a port's calendar. -/
def launchDue (s : State) (p ofs : Nat) : State :=
  if s.isUp p && !s.txClosed p then
    let s0 := (s.txSettle p).txSettle p
    (launchStart s0 p ofs).getD s0
  else s

/-- The meaning of LAUNCH_DUE. -/
def execLaunchDue (port : Fin 256) (ofs : BitVec 32) (s : State) : Out := .next (launchDue s port.val ofs.toNat)

/-! ## The scheduler (R342 to R345, R348) -/

/-- A source of R343 below the launch calendar. -/
inductive Src where
  | express
  | queue (q : Nat)
deriving DecidableEq, Repr

/-- R342: a queue is eligible. -/
def eligible (s : State) (p q : Nat) : Bool :=
  let x := s.ep p
  !(x.q q).isEmpty && shOpen s (s.rd Objs.queue_shaper (p * 8 + q)) (x.sh q) &&
    shOpen s (s.rd Objs.port_shaper p) x.psh

/-- The WRR queues from the highest down. -/
def wrrQueues (strict : Nat) : List Nat := (List.range (8 - strict)).reverse

/-- R344: the credits of a new round. -/
def newRound (s : State) (p strict : Nat) : State :=
  let x := s.ep p
  let c := (List.range 8).map (fun q => if q < 8 - strict then s.rd Objs.queue_weight (p * 8 + q) else x.credit.getD q 0)
  s.setEp p { x with credit := c }

/-- R343 to R345: a queue is chosen among the eligible ones that `ok` admits. WRR credit runs over all eight queues together, so a new
round starts only when no eligible WRR queue of either MAC has credit. -/
def chooseQueue (s : State) (p : Nat) (ok : Nat → Bool) : Option Nat × State :=
  let n := s.rd Objs.strict_count p
  let can := fun q => ok q && eligible s p q
  let paid := fun q => decide (0 < (s.ep p).credit.getD q 0)
  match [7, 6, 5, 4].find? (fun q => 8 - n ≤ q && can q) with
  | some q => (some q, s)
  | none =>
    match (wrrQueues n).find? (fun q => can q && paid q) with
    | some q => (some q, s)
    | none =>
      if (wrrQueues n).any (fun q => eligible s p q && paid q) then (none, s)
      else match (wrrQueues n).find? can with
        | some q => (some q, newRound s p n)
        | none => (none, s)

/-- A queue's frames go through the preemptable MAC (R30, R345). -/
def preemptQueue (s : State) (p q : Nat) : Bool := s.preemptOn p && bit (s.rd Objs.preempt_queues p) q

/-- One choice over sources 2 to 4 of R343 for one MAC. -/
def chooseSrc (s : State) (p : Nat) (preemptable : Bool) : Option Src × State :=
  if preemptable = false ∧ (s.ep p).expr ≠ [] then (some .express, s)
  else match chooseQueue s p (fun q => preemptQueue s p q == preemptable) with
    | (some q, s1) => (some (.queue q), s1)
    | (none, s1) => (none, s1)

/-- The head frame of a source. -/
def srcHead (x : EgPort) : Src → Option EgFrame
  | .express => x.expr.head?
  | .queue q => (x.q q).head?

/-- A source loses its head. -/
def srcPop (s : State) (p : Nat) : Src → State
  | .express => s.setEp p { s.ep p with expr := (s.ep p).expr.drop 1 }
  | .queue q =>
    let s1 := s.setEp p ((s.ep p).setQ q (((s.ep p).q q).drop 1))
    if ((s.ep p).q q).length ≤ 1 then s1.redEmpty (65536 + p * 8 + q) else s1

/-- R348: a frame is stale. -/
def stale (s : State) (p : Nat) (f : EgFrame) : Bool :=
  let m := s.rd Objs.max_residence (p * 8 + f.cls)
  let age := wrapDiff 16 s.admitNow f.admitT
  m != 0 && (decide ((((m * 1000 + 4095) / 4096 : Nat) : Int) ≤ age) || decide (age < 0))

/-- R348: stale heads are dropped and the choice is made again. Answers the source and the frame to start. -/
def chooseFrame : Nat → State → Nat → Bool → Option (Src × EgFrame) × State
  | 0, s, _, _ => (none, s)
  | n + 1, s, p, pre =>
    match chooseSrc s p pre with
    | (none, s1) => (none, s1)
    | (some src, s1) =>
      match srcHead (s1.ep p) src with
      | none => (none, s1)
      | some f =>
        if stale s1 p f then chooseFrame n (((srcPop s1 p src).bump Objs.tx_drop_stale p).raise 147 p) p pre
        else (some (src, f), s1)

/-- R344, R347: what a frame from a queue costs: a credit of a WRR queue, and tokens of both shapers. -/
def queueCost (s : State) (p q len : Nat) : State :=
  let x := s.ep p
  let credit := if q < 8 - s.rd Objs.strict_count p then x.credit.set q (x.credit.getD q 0 - 1) else x.credit
  let qsh := x.qsh.set q (shSpend s (s.rd Objs.queue_shaper (p * 8 + q)) len (x.sh q))
  (s.setEp p { x with credit := credit, qsh := qsh, psh := shSpend s (s.rd Objs.port_shaper p) len x.psh }).bump
    Objs.tx_queue_frames (p * 8 + q)

/-- The frame that a choice has named starts. -/
def serve (s : State) (p : Nat) (src : Src) (f : EgFrame) (pre : Bool) (ofs : Nat) : State :=
  let s1 := srcPop s p src
  let s2 := match src with
    | .express => s1
    | .queue q => queueCost s1 p q (f.body.length + 4)
  startFrame (if pre then s2 else cutFrame s2 p) p f pre (egressTime s p ofs)

/-- How many frames a port's queues and express FIFO hold. -/
def EgPort.waiting (x : EgPort) : Nat := (x.queues.foldl (fun n l => n + l.length) 0) + x.expr.length

/-- The MAC can take a frame now: it is idle, or an express frame may cut the preemptable one. -/
def macFree (s : State) (p : Nat) (pre : Bool) : Bool :=
  let x := s.ep p
  match x.txE, x.txP with
  | none, none => true
  | none, some _ => !pre && cutFree s p
  | some _, _ => false

/-- The express MAC has a frame that it may start: one that ends by the start of a guard band (R345, R380). -/
def expressReady (s : State) (p : Nat) : Bool :=
  match chooseFrame ((s.ep p).waiting + 1) s p false with
  | (some (_, f), s1) => !(s1.preempts p && guarded s1 p (f.body.length + 24))
  | (none, _) => false

/-- FRAME_START below the launch calendar: the choice for one MAC, unless a guard band forbids the start. The preemptable
MAC starts a frame only where the express MAC has none to start. -/
def startChosen (s : State) (p : Nat) (pre : Bool) (ofs : Nat) : State :=
  if macFree s p pre = false ∨ guarded s p 0 = true then s
  else if pre = true ∧ expressReady s p = true then s
  else match chooseFrame ((s.ep p).waiting + 1) s p pre with
    | (none, s1) => s1
    | (some (src, f), s1) =>
      if pre = false ∧ s1.preempts p = true ∧ guarded s1 p (f.body.length + 24) = true then s1
      else serve s1 p src f pre ofs

/-- FRAME_START (R343): a port's MAC may start a frame. -/
def frameStart (s : State) (p : Nat) (pre : Bool) (ofs : Nat) (ecc : QueueEcc) : State :=
  if s.isUp p && !s.txClosed p then
    let s0 := queueEcc ((s.txSettle p).txSettle p) p ecc
    let s1 := match if pre then none else launchStart s0 p ofs with
      | some t => t
      | none => startChosen s0 p pre ofs
    s1.xoffUpdate (s.grpOfPort p)
  else s

/-- The meaning of FRAME_START. -/
def execFrameStart (port : Fin 256) (preemptable : Bool) (ofs : BitVec 32) (ecc : QueueEcc) (s : State) : Out :=
  .next (frameStart s port.val preemptable ofs.toNat ecc)

/-- A preempted frame resumes once no express frame runs, waits to start or will be launched within the guard band (R345, R349). -/
def State.txResume (s : State) (p : Nat) : State :=
  let x := s.ep p
  match x.txE, x.txP with
  | none, some t =>
    if t.paused && !guarded s p 0 && !expressReady s p then
      s.setEp p { x with txP := some { t with paused := false, since := s.fNs } }
    else s
  | _, _ => s

/-- R349: on a preempting port the preemptable frame in transmission is preempted at the start of the guard band, or as soon after it as
both parts are fragments. -/
def State.guardCut (s : State) (p : Nat) : State :=
  match (s.ep p).txP with
  | some t => if !t.paused && guarded s p 0 && s.preempts p && cutOk s p t then cutFrame s p else s
  | none => s

/-- Every port's frame in transmission goes on to the present: it ends, is preempted or resumes. -/
def State.txTick (s : State) : State :=
  (s.eg.ports.map (·.1)).foldl (fun s p => ((s.txSettle p).guardCut p).txResume p) s

end Sys2Proof.Machine
end

