-- ==== Sys2Proof/Machine/Ports.lean ====
section
/-! DEFINITION. Lanes, ports and the MACs (chapter 2, R358, R360). -/

namespace Sys2Proof.Machine

/-! ## Lanes and faults -/

/-- The link side of a port. -/
def State.pl (s : State) (p : Nat) : PortLink := tget PortLink.init s.ports.links p

/-- Replace the link side of a port. -/
def State.setPl (s : State) (p : Nat) (x : PortLink) : State :=
  { s with ports := { s.ports with links := tset PortLink.init s.ports.links p x } }

/-- The lanes of a port (R17, R25). -/
def State.lanesOf (s : State) (p : Nat) : List Nat := (List.range (modeLanes (s.portMode p))).map (fun i => p / 4 + i)

/-- The ports that a lane carries (R25, R27). -/
def State.portsOfLane (s : State) (l : Nat) : List Nat :=
  if s.portMode (4 * l) = 3 then (List.range 4).map (fun i => 4 * l + i)
  else [4 * l, 8 * (l / 2), 16 * (l / 4), 32 * (l / 8)].dedup.filter (fun p => (s.lanesOf p).contains l)

/-- A port's lanes are powered (R35). -/
def State.portPowered (s : State) (p : Nat) : Bool := s.portMode p != 0 && s.link p != 0 && s.link p != 4

/-- Signal detect of a lane. -/
def State.laneSignal (s : State) (l : Nat) : Bool := bit s.ports.sig l

/-- Lanes that no port powers carry no signal. -/
def State.unpower (s : State) (lanes : List Nat) : State :=
  lanes.foldl (fun (s : State) l =>
    if (s.portsOfLane l).any s.portPowered then s else { s with ports := { s.ports with sig := setFld s.ports.sig l 1 0 } }) s

/-- Every lane of a port has PCS lock. -/
def State.portLocked (s : State) (p : Nat) : Bool :=
  decide (s.rd Objs.lane_lock p % 2 ^ modeLanes (s.portMode p) = 2 ^ modeLanes (s.portMode p) - 1)

/-- R34: a port is in fault. -/
def State.portFault (s : State) (p : Nat) : Bool :=
  !s.portPowered p || (s.lanesOf p).any (fun l => !s.laneSignal l) || !s.portLocked p || (s.pl p).rxFault != 0

/-- R34: a port with a local fault sends remote fault. -/
def State.sendsRemote (s : State) (p : Nat) : Bool :=
  s.portPowered p && ((s.lanesOf p).any (fun l => !s.laneSignal l) || !s.portLocked p || (s.pl p).rxFault == 1)

/-- The fault of a port is judged again; a change starts the filters of R35 and R36. -/
def State.refresh (s : State) (p : Nat) : State :=
  let x := s.pl p
  let b := s.portFault p
  if b = x.bad then s else s.setPl p { x with bad := b, since := s.fNs }

/-- The mode supports link training (R29). -/
def trainMode (mode : Nat) : Bool := decide (4 ≤ mode)

/-- Lanes of a port still train (R29). -/
def State.training (s : State) (p : Nat) : Bool :=
  s.rd Objs.link_training p == 1 && trainMode (s.portMode p) && s.portPowered p && s.link p != 2 &&
    decide ((s.pl p).trained % 2 ^ modeLanes (s.portMode p) ≠ 2 ^ modeLanes (s.portMode p) - 1)

/-- The ports that report PAIR_INVALID (R44): those whose role is not in effect, and the partners they name. DESIGN CHOICE: a partner
that is itself in a valid pair with a third port goes on in that pair and does not report. -/
def State.pairBads (s : State) : List Nat :=
  let own := (List.range 256).filter (fun p => s.rd Objs.port_role p != 0 && !s.pairValid p)
  own ++ (own.map (s.rd Objs.pair_port ·)).filter (fun q => !s.pairValid q)

/-- A port reports PAIR_INVALID (R44). -/
def State.pairBad (s : State) (p : Nat) : Bool := s.pairBads.contains p

/-- link_state_detail (R49). DESIGN CHOICE: where several causes hold, the spec does not say which is shown; the model shows TRAINING
before NO_SIGNAL, NO_LOCK, LOCAL_FAULT, REMOTE_FAULT and PAIR_INVALID, in that order. -/
def State.linkDetail (s : State) (p : Nat) : Nat :=
  if s.training p then 5
  else if s.portPowered p && (s.lanesOf p).any (fun l => !s.laneSignal l) then 1
  else if s.portPowered p && !s.portLocked p then 2
  else if s.portPowered p && (s.pl p).rxFault == 1 then 3
  else if s.portPowered p && (s.pl p).rxFault == 2 then 4
  else if s.pairBad p then 6
  else 0

/-- hold_remaining (R49). -/
def State.holdRemaining (s : State) (p : Nat) : Nat :=
  let x := s.pl p
  if s.link p = 3 then x.holdLen - s.spanNs x.holdStart else 0

/-- R44: after a change of a port's role, partner, mode or speed, EV012 for every port that now reports PAIR_INVALID and did not before.
`s0` is the state before the change. -/
def tellPairs (s0 s1 : State) : State :=
  let before := s0.pairBads
  let now := s1.pairBads
  (List.range 256).foldl (fun (s : State) r => if now.contains r && !before.contains r then s.raise 12 r else s) s1

/-! ## Link state (R35) -/

/-- A link state of its own with the time of the change. -/
def State.setLink (s : State) (p x : Nat) : State :=
  if s.link p = x then s else (s.wr Objs.link_state p x).wr Objs.last_change p s.wStamp

/-- The verify procedure starts, or rests (R31). -/
def State.mmStart (s : State) (p : Nat) : State :=
  s.wr Objs.mm_status p (if s.isUp p ∧ s.preemptOn p ∧ s.rd Objs.preempt_verify p = 1 then 1 else 0)

/-- A port leaves UP for another state: the frame in transmission is cut (R37), the loss is counted (EV000), addresses
are flushed (R43), preemption and timestamp states fall back (R31, R360). -/
def State.leaveUp (s : State) (p x : Nat) : State :=
  let s1 := ((s.txAbort p).bump Objs.link_down_count p).raise 0 p
  let s2 := (s1.setLink p x).mmStart p
  let s3 := { s2.wr Objs.ts_state p 0 with time := { s2.time with quiet := tdel p s2.time.quiet } }
  if s.rd Objs.mac_flush_on_down p = 1 then s3.startMacFlush p none else s3

/-- The down declaration (R35, R38, R39, R42). -/
def State.declareDown (s : State) (p : Nat) : State :=
  let hold := s.rd Objs.down_policy p
  let s1 := s.setPl p { s.pl p with policy := hold, holdLen := s.rd Objs.down_hold_time p, holdStart := s.fNs }
  (if hold = 1 then s1.leaveUp p 3 else (s1.leaveUp p 1).egFlush p).xoffUpdate (s.grpOfPort p)

/-- R41: the held frames that the test of R377 finds LATE are sent at once or dropped. -/
def State.lateHeld (s : State) (p : Nat) : State :=
  let x := s.ep p
  let passed : EgFrame → Bool := fun f => !f.late && decide (s.launchDiff f.launch < -((s.rd Objs.lt_late_tol * 256 : Nat) : Int))
  let sent := (x.cal.filter (fun f => passed f && f.lateOk)).map (fun f => { f with late := true })
  let lost := (x.cal.filter (fun f => passed f && !f.lateOk)).length
  let keep := x.cal.filter (fun f => !passed f)
  let n := sent.length + lost
  let cal := keep.filter (·.late) ++ sent ++ keep.filter (fun f => !f.late)
  let s1 := ((s.setEp p { x with cal := cal }).bump Objs.lt_late_sent p sent.length).bump Objs.lt_late_drop p lost
  s1.raiseEach n 201 p

/-- A port enters UP (R35). -/
def State.enterUp (s : State) (p : Nat) : State :=
  let held := decide (s.link p = 3)
  let s1 := ((s.setLink p 2).raise 1 p).mmStart p
  let s2 := { s1.wr Objs.ts_state p 1 with time := { s1.time with quiet := tdel p s1.time.quiet } }
  (if held then s2.lateHeld p else s2).xoffUpdate (s.grpOfPort p)

/-- A port leaves DISABLED or ISOLATED: lanes powered, training starts where it is enabled. -/
def State.powerUp (s : State) (p : Nat) : State :=
  let s1 := (s.setLink p 1).wr Objs.lane_lock p 0
  let x := s1.pl p
  s1.setPl p { x with trained := 0, trainStart := List.replicate 8 s.fNs, rxFault := 0, bad := true, since := s.fNs }

/-- A port goes to DISABLED or ISOLATED: its frames are flushed (R42) and its lanes powered down. -/
def State.powerDown (s : State) (p x : Nat) : State :=
  let s1 := if s.isUp p then s.leaveUp p x else s.setLink p x
  let s2 := (s1.egFlush p).wr Objs.lane_lock p 0
  let s3 := s2.setPl p { s2.pl p with rxFault := 0, bad := true, since := s.fNs, trained := 0 }
  (s3.unpower (s3.lanesOf p)).xoffUpdate (s.grpOfPort p)

/-- R35: isolation of a port. -/
def State.isolatePort (s : State) (p : Nat) : State := if s.link p = 4 then s else s.powerDown p 4

/-- R35, R518: a port whose regrowth passed leaves ISOLATED at a commit point. -/
def State.readmitPort (s : State) (p : Nat) : State :=
  if s.link p ≠ 4 then s else if s.rd Objs.admin_up p = 1 then s.powerUp p else s.setLink p 0

/-- The expiry of LINK_DOWN_FILTER, where it has run (R35). -/
def downExpiry (s : State) (p : Nat) : State :=
  let x := s.pl p
  if s.isUp p && x.bad && s.elapsed x.since (s.rd Objs.link_down_filter p) then s.declareDown p else s

/-- The expiry of LINK_UP_FILTER, where it has run (R35). A HOLDING port returns before its hold expires. -/
def upExpiry (s : State) (p : Nat) : State :=
  let x := s.pl p
  if (s.link p == 1 || s.link p == 3 && !s.elapsed x.holdStart x.holdLen) && !x.bad && !s.training p &&
      s.elapsed x.since (s.rd Objs.link_up_filter p) then s.enterUp p
  else s

/-- The meaning of LINK_DOWN_FILTER_EXPIRY. -/
def execLinkDownFilterExpiry (port : Fin 256) (s : State) : Out := .next (downExpiry s port.val)

/-- The meaning of LINK_UP_FILTER_EXPIRY. -/
def execLinkUpFilterExpiry (port : Fin 256) (s : State) : Out := .next (upExpiry s port.val)

/-- DOWN_HOLD_EXPIRY: a HOLDING port flushes and goes DOWN (R35). -/
def holdExpiry (s : State) (p : Nat) : State :=
  let x := s.pl p
  if s.link p = 3 ∧ s.elapsed x.holdStart x.holdLen = true then (((s.setLink p 1).egFlushHeld p).raise 8 p).xoffUpdate (s.grpOfPort p) else s

/-- The meaning of DOWN_HOLD_EXPIRY. -/
def execDownHoldExpiry (port : Fin 256) (s : State) : Out := .next (holdExpiry s port.val)

/-! ## What the lanes report -/

/-- SIGNAL_DETECT_CHANGE (R33): lanes that no port powers carry none. -/
def signalChange (s : State) (l : Nat) (on : Bool) : State :=
  let ps := s.portsOfLane l
  if !ps.any s.portPowered || s.laneSignal l == on then s
  else
    let lost := !on && ps.any s.isUp
    let s1 : State := { s with ports := { s.ports with sig := setFld s.ports.sig l 1 (b2n on) } }
    ps.foldl State.refresh (if lost then s1.raise 2 l else s1)

/-- The meaning of SIGNAL_DETECT_CHANGE. -/
def execSignalDetectChange (lane : Fin 64) (on : Bool) (s : State) : Out := .next (signalChange s lane.val on)

/-- The speed in Mb/s of a mode (R26), or of USX_SPEED and the PHY's word for SGMII and USXGMII-M. DESIGN CHOICE: the spec refuses
usx_speed 4 only on a port whose mode is SGMII; where 4 was written before the mode became SGMII, or a PHY word names 2.5G there, the model
takes 2500 Mb/s. -/
def speedOf (mode usx phy : Nat) : Nat :=
  match mode with
  | 0 => 0
  | 1 => 1000
  | 2 => [phy, 10, 100, 1000, 2500].getD usx 0
  | 3 => [phy, 10, 100, 1000, 2500].getD usx 0
  | 4 => 10000
  | 5 => 25000
  | 6 => 50000
  | 7 => 100000
  | 8 => 200000
  | 9 => 400000
  | _ => 0

/-- R360: USXGMII-M ports, and SGMII ports below 1 Gb/s, are never FINE. -/
def State.neverFine (s : State) (p : Nat) : Bool := s.portMode p == 3 || (s.portMode p == 2 && decide (s.rate p < 1000))

/-- speed_active is resolved again; a changed speed may break or make a pair, and end FINE. -/
def State.resolveSpeed (s : State) (p : Nat) : State :=
  let v := speedOf (s.portMode p) (s.rd Objs.usx_speed p) (s.pl p).phy
  if s.rate p = v then s
  else
    let t := tellPairs s (s.wr Objs.speed_active p v)
    if t.neverFine p && t.rd Objs.ts_state p == 2 then t.wr Objs.ts_state p 1 else t

/-- The speeds a PHY names (R26): 10, 100, 1000 and 2500 Mb/s. -/
def phySpeed (k : Nat) : Nat := [10, 100, 1000, 2500].getD k 1000

/-- PCS_LOCK_CHANGE: the lock of a port's lanes, and the speed that the PHY's control word names. -/
def lockChange (s : State) (p lock speed : Nat) : State :=
  if s.portPowered p then
    let s1 := s.wr Objs.lane_lock p (lock % 2 ^ modeLanes (s.portMode p))
    ((s1.setPl p { s1.pl p with phy := phySpeed speed }).resolveSpeed p).refresh p
  else s

/-- The meaning of PCS_LOCK_CHANGE. -/
def execPcsLockChange (port : Fin 256) (lock : BitVec 8) (speed : Fin 4) (s : State) : Out :=
  .next (lockChange s port.val lock.toNat speed.val)

/-- LINK_FAULT_RECEIVE: 0 no fault, 1 local, 2 remote fault is received (R34). -/
def faultReceive (s : State) (p kind : Nat) : State :=
  let x := s.pl p
  if !s.portPowered p || x.rxFault == kind then s
  else
    let s1 := (s.setPl p { x with rxFault := kind }).refresh p
    if kind ≠ 0 ∧ s.isUp p = true then s1.raise 5 p else s1

/-- The meaning of LINK_FAULT_RECEIVE. -/
def execLinkFaultReceive (port : Fin 256) (kind : Fin 3) (s : State) : Out := .next (faultReceive s port.val kind.val)

/-- The port of a lane that trains. -/
def State.trainPort (s : State) (l : Nat) : Option (Nat × Nat) :=
  ((s.portsOfLane l).find? (fun p => s.training p && !bit (s.pl p).trained (l - p / 4))).map (fun p => (p, l - p / 4))

/-- LINK_TRAINING_DONE: a lane has trained (R29). -/
def trainDone (s : State) (l : Nat) : State :=
  match s.trainPort l with
  | some (p, i) => s.setPl p { s.pl p with trained := setFld (s.pl p).trained i 1 1 }
  | none => s

/-- The meaning of LINK_TRAINING_DONE. -/
def execLinkTrainingDone (lane : Fin 64) (s : State) : Out := .next (trainDone s lane.val)

/-- TRAINING_TIMEOUT: 500 ms have passed, and the lane restarts training (R29). -/
def trainTimeout (s : State) (l : Nat) : State :=
  match s.trainPort l with
  | some (p, i) =>
    let x := s.pl p
    if s.elapsed (x.trainStart.getD i 0) 500000000 then
      (s.setPl p { x with trainStart := x.trainStart.set i s.fNs }).raise 14 l
    else s
  | none => s

/-- The meaning of TRAINING_TIMEOUT. -/
def execTrainingTimeout (lane : Fin 64) (s : State) : Out := .next (trainTimeout s lane.val)

/-- MM_VERIFY_DONE (R31). -/
def verifyDone (s : State) (p : Nat) (ok : Bool) : State :=
  if s.isUp p ∧ s.rd Objs.mm_status p = 1 then
    if ok then s.wr Objs.mm_status p 2 else (s.wr Objs.mm_status p 3).raise 7 p
  else s

/-- The meaning of MM_VERIFY_DONE. -/
def execMmVerifyDone (port : Fin 256) (ok : Bool) (s : State) : Out := .next (verifyDone s port.val ok)

/-- LANE_PLL_UNLOCK: the lane's lock is gone, and its ports are taken out of UP (R51). -/
def pllUnlock (s : State) (l : Nat) : State :=
  let ps := (s.portsOfLane l).filter s.portPowered
  if ps = [] then s
  else
    ps.foldl (fun (s : State) p =>
      let s1 := (s.wr Objs.lane_lock p (setFld (s.rd Objs.lane_lock p) (l - p / 4) 1 0)).refresh p
      if s1.isUp p then s1.declareDown p else s1) (s.raise 10 l)

/-- The meaning of LANE_PLL_UNLOCK. -/
def execLanePllUnlock (lane : Fin 64) (s : State) : Out := .next (pllUnlock s lane.val)

/-- PHASE_INTERVAL (R360): the largest move of the phase of a port's lanes in an interval of 1.048576 ms, in ps. -/
def phaseInterval (s : State) (p move : Nat) : State :=
  let st := s.rd Objs.ts_state p
  let n := if move ≤ 10 then min 16 (tget 0 s.time.quiet p + 1) else 0
  if st = 0 then s
  else
    let s1 : State := { s with time := { s.time with quiet := tset 0 s.time.quiet p n } }
    if s.neverFine p then s1.wr Objs.ts_state p 1
    else if st = 2 then if 50 < move then (s1.wr Objs.ts_state p 1).raise 206 p else s1
    else if n = 16 then s1.wr Objs.ts_state p 2 else s1

/-- The meaning of PHASE_INTERVAL. -/
def execPhaseInterval (port : Fin 256) (move : Nat) (s : State) : Out := .next (phaseInterval s port.val move)

/-! ## Port objects (R27, R42, R46 to R48) -/

/-- A FEC setting is AUTO or listed for a mode (R26); DISABLED lists none. -/
def fecOk (mode f : Nat) : Bool :=
  f == 0 || (match mode with
    | 0 => false
    | 5 => f == 1 || f == 2
    | 6 => f == 3
    | 7 => f == 3
    | 8 => f == 3
    | 9 => f == 3
    | _ => f == 1)

/-- R27: the refusals of a write of port_mode. -/
def portModeCheck (p : Nat) : Nat → State → Code := fun x s =>
  let l := p / 4
  let more := (List.range (modeLanes x - 1)).map (fun i => l + 1 + i)
  let covered := [8 * (l / 2), 16 * (l / 4), 32 * (l / 8)].any (fun q => q != p && (s.lanesOf q).contains l)
  let taken := more.any (fun k => s.portMode (4 * k) != 0 || (s.portsOfLane k).any (fun q => q != p))
  refuseIf (p % 4 != 0 || s.rd Objs.admin_up p == 1 || l % max 1 (modeLanes x) != 0 || taken || covered ||
    !fecOk x (s.rd Objs.fec_mode p)) .state

/-- A port is flushed where its mode changes (R42); a further port of a USXGMII-M lane may leave UP by it (R40). -/
def State.modeFlush (s : State) (p : Nat) : State :=
  (if s.isUp p then (s.leaveUp p 1).egFlush p else s.egFlush p).xoffUpdate (s.grpOfPort p)

/-- port_mode takes effect: the lanes' mode, the further ports of a USXGMII-M lane (R27), the speed, the flush (R42).
`old` is the mode before. -/
def portModeApply (p old x : Nat) (s : State) : State :=
  let subs := [p + 1, p + 2, p + 3]
  let s1 := if x = 3 then subs.foldl (fun (s : State) q => s.wr Objs.port_mode q 3) s
    else if old = 3 then subs.foldl (fun (s : State) q => s.wr Objs.port_mode q 0) s else s
  if old = x then s1
  else
    let all := if x = 3 ∨ old = 3 then p :: subs else [p]
    all.foldl (fun (s : State) q => ((s.modeFlush q).resolveSpeed q).refresh q) s1

/-- The meaning of PORT_MODE_WRITE. -/
def execPortModeWrite (c : Ctx) (port : Fin 256) (v : List Byte) (s : State) : Out :=
  .next (writeObj c Objs.port_mode port.val v (portModeCheck port.val)
    (fun x t => tellPairs s (portModeApply port.val (s.portMode port.val) x t)) s)

/-- admin_up takes effect (R35, R602). -/
def adminUpApply (p x : Nat) (s : State) : State :=
  if s.link p = 4 then s
  else if x = 1 then if s.link p = 0 then s.powerUp p else s
  else if s.link p = 0 then s else s.powerDown p 0

/-- The meaning of ADMIN_UP_WRITE. -/
def execAdminUpWrite (c : Ctx) (port : Fin 256) (v : List Byte) (s : State) : Out :=
  .next (writeObj c Objs.admin_up port.val v noCheck (adminUpApply port.val) s)

/-- The meaning of LINK_FILTER_WRITE (R48): the running filter goes on with the new value, and ends at once where that time has
passed. -/
def execLinkFilterWrite (c : Ctx) (port : Fin 256) (up : Bool) (v : List Byte) (s : State) : Out :=
  .next (if up then writeObj c Objs.link_up_filter port.val v noCheck (fun _ s => upExpiry s port.val) s
    else writeObj c Objs.link_down_filter port.val v noCheck (fun _ s => downExpiry s port.val) s)

/-- The counters .01 to .13 of a port (R50). -/
def portCounters : List Obj :=
  [Objs.rx_frames, Objs.rx_octets, Objs.rx_fcs_err, Objs.rx_runt, Objs.rx_oversize, Objs.rx_overrun, Objs.rx_pause,
   Objs.rx_pcs_err, Objs.fec_corrected, Objs.fec_uncorrected, Objs.tx_frames, Objs.tx_octets, Objs.tx_drop_down,
   Objs.tx_drop_stale, Objs.tx_aborted, Objs.link_down_count, Objs.mm_frag_tx, Objs.mm_frag_rx, Objs.mm_reasm_err]

/-- R50: the counters of a port are cleared. -/
def clearCounters (p : Nat) (s : State) : State := portCounters.foldl (fun (s : State) o => s.wr o p 0) s

/-- The meaning of PORT_COUNTERS_CLEAR. -/
def execPortCountersClear (c : Ctx) (port : Fin 256) (v : List Byte) (s : State) : Out :=
  .next (writeObj c Objs.counters_clear port.val v noCheck (fun _ => clearCounters port.val) s)

/-- The refusals of a write of another port object (R33, R46 to R48). `k` is the object's subindex. -/
def portObjCheck (p k : Nat) : Nat → State → Code := fun x s =>
  let up := s.rd Objs.admin_up p == 1
  let mode := s.portMode p
  match k with
  | 0x03 => if !fecOk mode x then .range else refuseIf up .state
  | 0x0B => refuseIf (up || !preemptMode mode) .state
  | 0x0E => refuseIf up .state
  | 0x12 => refuseIf up .state
  | 0x0F => refuseIf (decide (x ≤ s.rd Objs.sd_deassert_mv p)) .range
  | 0x10 => refuseIf (decide (s.rd Objs.sd_assert_mv p ≤ x)) .range
  | 0x11 => refuseIf (x == 4 && mode == 2) .range
  | _ => .ok

/-- The effect of a write of another port object beside its value. DESIGN CHOICE: an accepted write of preempt_verify, even of the value it
holds, starts the verify procedure again on a port that is UP, so that mm_status follows it; R31 does not say what such a write does. -/
def portObjApply (p k : Nat) (s : State) : State :=
  match k with
  | 0x0D => s.mmStart p
  | 0x11 => s.resolveSpeed p
  | _ => s

/-! ## Reception -/

/-- R358: IN_TS of a frame in units of 2^-16 ns. `back` is how far the timestamp point lies before the present W, with
phase, position and deskew applied, in units of 2^-16 ns. -/
def inTime (s : State) (p back : Nat) : Nat :=
  let lat := toSigned 32 (Config.rxLat (s.portMode p) (s.fec p)).toNat
  let balls := ctrAdd s.time.w (-((back * 2 ^ 24 : Nat) : Int) - lat * 2 ^ 40 / 1000)
  let board := boardDelay s.time (fun e => e.rx) (-1) (s.rdInt Objs.ts_rx_board p) p balls
  toLin (ctrAdd s.time.w (-((back * 2 ^ 24 : Nat) : Int) - (lat + board) * 2 ^ 40 / 1000))

/-- The metadata block of a new packet (R18). -/
def newMd (p psq lin len : Nat) : Nat :=
  let m := setFld (setFld 0 0 30 psq) 30 2 (pipeOf p)
  let m := setFld (setFld m 32 8 p) 64 96 (linStamp lin)
  setFld (setFld m 305 14 len) 448 64 lin

/-- A packet enters the input queue of its port's pipe with its PSEQ (R9, R18). -/
def State.enqueuePacket (s : State) (p lin : Nat) (frame : List Byte) (inject : Option Nat) : State :=
  let q := pipeOf p
  let n := tget 0 s.ports.pseq q
  let (pid, s1) := s.newPid
  let k : Packet := ⟨pid, newMd p n lin frame.length, prvAbsent, 0, 0, frame, [], inject⟩
  { s1 with ports := { s1.ports with inq := tset [] s1.ports.inq q (tget [] s1.ports.inq q ++ [k]),
                                     pseq := tset 0 s1.ports.pseq q ((n + 1) % 2 ^ 30) } }

/-- A PAUSE or PFC frame. -/
def isPause (f : List Byte) : Bool :=
  netAt f 12 2 == 0x8808 && (netAt f 14 2 == 0x0001 || netAt f 14 2 == 0x0101)

/-- The RS-FEC codewords that came with a frame (R50, R51). -/
def State.fecCount (s : State) (p corrected bad : Nat) : State :=
  let x := s.pl p
  let fresh := s.elapsed x.fecSince 1000000000
  let n := if fresh then corrected else x.fecCount + corrected
  let high := decide (1000000 < n)
  let s1 := s.setPl p { x with fecCount := n, fecSince := if fresh then s.fNs else x.fecSince, fecHigh := high }
  let s2 := (s1.bump Objs.fec_corrected p corrected).bump Objs.fec_uncorrected p bad
  let s3 := if bad = 0 then s2 else s2.raise 3 p
  if high ∧ (fresh = true ∨ x.fecHigh = false) then s3.raise 4 p else s3

/-- The MAC's decision on a whole frame (R34, R47, R50): a discard in its own counter, or step 1. -/
def macReceive (s : State) (p : Nat) (frame : List Byte) (r : RxInfo) : State :=
  if !s.isUp p || s.portFault p || r.pcsError then s.bump Objs.rx_pcs_err p
  else if r.reassembly then (s.bump Objs.mm_reasm_err p).raise 9 p
  else if r.parity then s.raise 11 p
  else if frame.length < 64 then s.bump Objs.rx_runt p
  else if s.rd Objs.max_frame p < frame.length then s.bump Objs.rx_oversize p
  else if crc32 (frame.take (frame.length - 4)) ≠ leNat (frame.drop (frame.length - 4)) then s.bump Objs.rx_fcs_err p
  else if isPause frame then s.bump Objs.rx_pause p
  else if r.queueFull then (s.bump Objs.rx_overrun p).raise 6 p
  else ((s.bump Objs.rx_frames p).bump Objs.rx_octets p frame.length).enqueuePacket p (inTime s p r.back.toNat) frame none

/-- FRAME_RECEIVE, while the MACs receive (R515, R528). -/
def frameReceive (s : State) (p : Nat) (frame : List Byte) (r : RxInfo) : State :=
  if s.macClosed then s
  else macReceive ((s.fecCount p r.corrected.toNat r.uncorrected.toNat).bump Objs.mm_frag_rx p r.fragments) p frame r

/-- The meaning of FRAME_RECEIVE. -/
def execFrameReceive (port : Fin 256) (frame : List Byte) (rx : RxInfo) (s : State) : Out :=
  .next (frameReceive s port.val frame rx)

end Sys2Proof.Machine
end

