-- ==== Sys2Proof/Machine/PatDec.lean ====
section
/-! DEFINITION. What a pattern engine makes of a payload window: matches (R95), the protocol decoders (R97 to R99), the result
block (R101), as functions of the window. -/

namespace Sys2Proof.Machine

/-- What a decoder has found: values and bad fields by code of R97, STATUS, walk steps, and where it stopped. -/
structure Dec where
  vals : Tab Nat
  bad : List Nat
  status : Nat
  steps : Nat
  stop : Nat
deriving DecidableEq, Repr

/-- Nothing decoded. -/
def Dec.none : Dec := ⟨[], [], 0, 0, 0⟩

/-- Deliver a value; the first one of a field stays. -/
def Dec.put (d : Dec) (code v : Nat) : Dec := if (tfind d.vals code).isSome then d else { d with vals := tput code v d.vals }

/-- Deliver a value in place of an earlier one. -/
def Dec.putLast (d : Dec) (code v : Nat) : Dec := { d with vals := tput code v d.vals, bad := d.bad.filter (· ≠ code) }

/-- A bad field (R98): its value stays 0. -/
def Dec.markBad (d : Dec) (code : Nat) : Dec :=
  if (tfind d.vals code).isSome then d else { d with bad := d.bad ++ [code] }

/-- A field is without a value again. -/
def Dec.clear (d : Dec) (code : Nat) : Dec := { d with vals := tdel code d.vals, bad := d.bad.filter (· ≠ code) }

/-- A last field that is bad. -/
def Dec.markBadLast (d : Dec) (code : Nat) : Dec := { d with vals := tdel code d.vals, bad := d.bad.filter (· ≠ code) ++ [code] }

/-- The decoder stops with a status at an offset. -/
def Dec.halt (d : Dec) (status stop : Nat) : Dec := { d with status := status, stop := stop }

/-! ## BER (R98) -/

/-- A TLV header: tag, length of the header, length of the content. -/
structure Tlv where
  tag : Nat
  hlen : Nat
  len : Nat
deriving DecidableEq, Repr

/-- What reading a TLV header at an offset gives. -/
inductive TlvRead where
  | ok (t : Tlv)
  | malformed
  | cut
deriving DecidableEq, Repr

/-- The length of the TLV at `i` whose tag `t` takes `k` octets, inside enclosing bytes that end at `bound` (R98). -/
def readLen (w : List Byte) (bound i k t : Nat) : TlvRead :=
  let j := i + k
  let l := netAt w j 1
  if bound < j + 1 then .malformed
  else if w.length ≤ j then .cut
  else if l < 128 then if bound < j + 1 + l then .malformed else .ok ⟨t, k + 1, l⟩
  else if l = 0x81 then
    if bound < j + 2 then .malformed
    else if w.length ≤ j + 1 then .cut
    else
      let n := netAt w (j + 1) 1
      if bound < j + 2 + n then .malformed else .ok ⟨t, k + 2, n⟩
  else if l = 0x82 then
    if bound < j + 3 then .malformed
    else if w.length ≤ j + 2 then .cut
    else
      let n := netAt w (j + 1) 2
      if bound < j + 3 + n then .malformed else .ok ⟨t, k + 3, n⟩
  else .malformed

/-- The header of the TLV at `i` inside an enclosing TLV that ends at `stop`, in a window of `w` of the `pay` bytes of
payload. -/
def readTlv (w : List Byte) (pay stop i : Nat) : TlvRead :=
  let bound := min stop pay
  let t := netAt w i 1
  if bound < i + 2 then .malformed
  else if w.length ≤ i then .cut
  else if t % 32 = 31 then .malformed
  else readLen w bound i 1 t

/-- The TLV at `i` where only some tags may stand: a wrong tag breaks the structure, also where the window ends behind it (R99). -/
def readTag (w : List Byte) (pay stop i : Nat) (may : Nat → Bool) : TlvRead :=
  match readTlv w pay stop i with
  | .ok t => if may t.tag then .ok t else .malformed
  | .cut => if i < w.length ∧ may (netAt w i 1) = false then .malformed else .cut
  | .malformed => .malformed

/-- An INTEGER or Unsigned field of at most 32 bits (R98). DESIGN CHOICE: the value width of noASDU, smpSynch, smpRate and invokeID, which the
spec does not state, is 4 octets as for the fields of R97 that it calls 32-bit, and a field of no octet is bad. -/
def Dec.int (d : Dec) (w : List Byte) (code at0 len : Nat) : Dec :=
  let o := slice w at0 len
  let o := if o.length = 5 ∧ o.head? = some 0 then o.drop 1 else o
  if len = 0 ∨ 4 < o.length then d.markBad code else d.put code (beNat o)

/-- A field of an exact length. DESIGN CHOICE: a GOOSE t that is not 8 octets long is bad; R98 names smpCnt and booleans only. -/
def Dec.exact (d : Dec) (w : List Byte) (code at0 len want : Nat) : Dec :=
  if len = want then d.put code (netAt w at0 len) else d.markBad code

/-- A field of goosePdu (R97). -/
def gooseField (d : Dec) (w : List Byte) (tag a n : Nat) : Dec :=
  match tag with
  | 0x80 => d.put 0x18 (crc32c (slice w a n))
  | 0x81 => d.int w 0x12 a n
  | 0x84 => d.exact w 0x13 a n 8
  | 0x85 => d.int w 0x10 a n
  | 0x86 => d.int w 0x11 a n
  | 0x87 => d.exact w 0x15 a n 1
  | 0x88 => d.int w 0x14 a n
  | 0x89 => d.exact w 0x16 a n 1
  | 0x8A => d.int w 0x17 a n
  | _ => d

/-- A field of an ASDU (R97). `first` says that it is the first ASDU, `whole` that the ASDU lies in the window. -/
def svField (d : Dec) (w : List Byte) (first whole : Bool) (tag a n : Nat) : Dec :=
  if tag = 0x82 then
    let d1 := if first then d.exact w 0x21 a n 2 else d
    if whole then (if n = 2 then d1.putLast 0x22 (netAt w a 2) else d1.markBadLast 0x22) else d1
  else if first = false then d
  else match tag with
    | 0x80 => d.put 0x25 (crc32c (slice w a n))
    | 0x83 => d.int w 0x23 a n
    | 0x85 => d.int w 0x24 a n
    | 0x86 => d.int w 0x26 a n
    | _ => d

/-- The known constructed TLVs that the walk is inside. -/
inductive BerCtx where
  | top | goose | sv | seq | asdu (nth : Nat)
deriving DecidableEq, Repr

/-- The constructed TLV that a tag begins where the walk stands; `asdus` ASDUs have been met. -/
def berKnown (ctx : BerCtx) (asdus tag : Nat) : Option BerCtx :=
  match ctx with
  | .top => if tag = 0x61 then some .goose else if tag = 0x60 then some .sv else none
  | .sv => if tag = 0xA2 then some .seq else none
  | .seq => if tag = 0x30 then some (.asdu asdus) else none
  | _ => none

/-- A tag may stand where the walk stands: of a known constructed TLV, or a context tag inside one (R98). -/
def berMay (ctx : BerCtx) (tag : Nat) : Bool := (berKnown ctx 0 tag).isSome || (decide (ctx ≠ .top) && tag / 64 == 2)

/-- The walk of R98. `stack` lists the enclosing TLVs, innermost first, each with its end; `asdus` counts the ASDUs met;
`fuel` bounds the work: a TLV is visited or an enclosing TLV is left at each turn. -/
def berWalk (w : List Byte) (pay : Nat) : Nat → Nat → List (BerCtx × Nat) → Nat → Dec → Dec
  | 0, i, _, _, d => d.halt 4 i
  | fuel + 1, i, stack, asdus, d =>
    match stack with
    | [] => d.halt 0 i
    | (ctx, stop) :: outer =>
      if i = stop then
        berWalk w pay fuel i outer asdus d
      else
        match readTag w pay stop i (berMay ctx) with
        | .malformed => d.halt 3 i
        | .cut => d.halt 2 w.length
        | .ok t =>
          let a := i + t.hlen
          let e := a + t.len
          let known := berKnown ctx asdus t.tag
          if 64 ≤ d.steps then (if known = none ∧ w.length < e then d.halt 2 w.length else d.halt 4 i)
          else
            let d := { d with steps := d.steps + 1 }
            match known with
            | some (.asdu k) => berWalk w pay fuel a ((.asdu k, e) :: stack) (asdus + 1) (if e ≤ w.length then d.clear 0x22 else d)
            | some c => berWalk w pay fuel a ((c, e) :: if ctx = .top then [] else stack) asdus d
            | none =>
              if w.length < e then d.halt 2 w.length
              else
                let d := match ctx with
                  | .goose => gooseField d w t.tag a t.len
                  | .sv => if t.tag = 0x80 then d.int w 0x20 a t.len else d
                  | .asdu k => svField d w (k == 0) (decide (stop ≤ w.length)) t.tag a t.len
                  | _ => d
                berWalk w pay fuel e stack asdus d

/-- The GOOSE and SV decoders: the walk starts at window offset 0 with the PDU of the kind. -/
def berDecode (kind : Nat) (w : List Byte) (pay : Nat) : Dec :=
  if pay = 0 then Dec.none
  else if netAt w 0 1 ≠ (if kind = 1 then 0x61 else 0x60) then Dec.none.halt 3 0
  else berWalk w pay 256 0 [(.top, pay)] 0 Dec.none

/-! ## IEC 60870-5-104 -/

/-- The fields of the first APDU at offset 0, of `n` bytes. -/
def i104Fields (d : Dec) (w : List Byte) (n : Nat) : Dec :=
  let c1 := netAt w 2 1
  let c3 := leNat (slice w 4 2)
  if c1 % 2 = 0 then
    let d := ((d.put 0x30 0).put 0x31 (leNat (slice w 2 2) / 2)).put 0x32 (c3 / 2)
    let d := if 7 ≤ n then d.put 0x33 (netAt w 6 1) else d
    let d := if 8 ≤ n then d.put 0x34 (netAt w 7 1) else d
    let d := if 9 ≤ n then d.put 0x35 (netAt w 8 1) else d
    let d := if 10 ≤ n then d.put 0x36 (netAt w 9 1) else d
    let d := if 12 ≤ n then d.put 0x37 (leNat (slice w 10 2)) else d
    if 15 ≤ n then d.put 0x38 (leNat (slice w 12 3)) else d
  else if c1 % 4 = 1 then (d.put 0x30 1).put 0x32 (c3 / 2)
  else d.put 0x30 2

/-- The APDUs of a window. An S or U format APDU has no ASDU, so that its length is 4. DESIGN CHOICE: an APDU with a bad length, or one that
overruns the payload, delivers none of its fields, and the decoder stops at its start (log 63). -/
def i104Walk (w : List Byte) (pay : Nat) : Nat → Nat → Nat → Dec → Dec
  | 0, i, k, d => (d.put 0x39 k).halt 0 i
  | fuel + 1, i, k, d =>
    if pay ≤ i then (d.put 0x39 k).halt 0 i
    else if w.length ≤ i then (d.put 0x39 k).halt 2 w.length
    else if netAt w i 1 ≠ 0x68 then (d.put 0x39 k).halt 3 i
    else if pay ≤ i + 1 then (d.put 0x39 k).halt 3 i
    else if w.length ≤ i + 1 then (d.put 0x39 k).halt 2 w.length
    else
      let n := netAt w (i + 1) 1
      let short := decide (i + 2 < w.length) && bit (netAt w (i + 2) 1) 0 && decide (n ≠ 4)
      if n < 4 ∨ 253 < n ∨ pay < i + 2 + n ∨ short = true then (d.put 0x39 k).halt 3 i
      else if w.length < i + 2 + n then (d.put 0x39 k).halt 2 w.length
      else i104Walk w pay fuel (i + 2 + n) (k + 1) (if i = 0 then i104Fields d w (2 + n) else d)

/-- The IEC 104 decoder. -/
def i104Decode (w : List Byte) (pay : Nat) : Dec := if pay = 0 then Dec.none else i104Walk w pay 128 0 0 Dec.none

/-! ## DNP3 -/

/-- The CRC of DNP3: reflected polynomial 0xA6BC, seed 0, inverted. -/
def dnpCrc (bs : List Byte) : Nat := Nat.xor 0xFFFF (bs.foldl (fun c b => crcBits 0xA6BC 8 (Nat.xor c b.toNat)) 0)

/-- User data without the block CRCs. -/
def dnpData : Nat → List Byte → List Byte
  | 0, _ => []
  | n + 1, l => l.take 16 ++ dnpData n (l.drop 18)

/-- The DNP3 decoder: one link frame at offset 0. DESIGN CHOICE: a fault in the first link header delivers none of its fields and stops at
offset 0. -/
def dnpDecode (w : List Byte) (pay : Nat) : Dec :=
  if pay = 0 then Dec.none
  else
    let user := netAt w 2 1 - 5
    let total := 10 + user + 2 * ((user + 15) / 16)
    if netAt w 0 2 ≠ 0x0564 ∨ pay < 10 ∨ netAt w 2 1 < 5 ∨ pay < total then Dec.none.halt 3 0
    else
      let d := ((Dec.none.put 0x40 (leNat (slice w 4 2))).put 0x41 (leNat (slice w 6 2))).put 0x42 (netAt w 3 1)
      let d := d.put 0x47 (b2n (dnpCrc (w.take 8) == leNat (slice w 8 2)))
      let u := (dnpData 16 (slice w 10 (total - 10))).take user
      let d := if 1 ≤ user then d.put 0x43 (netAt u 0 1) else d
      if user < 2 ∨ bit (netAt u 0 1) 6 = false then d.halt 0 total
      else
        let fc := netAt u 2 1
        let d := d.put 0x44 (netAt u 1 1)
        let d := if 3 ≤ user then d.put 0x45 fc else d
        (if (fc = 129 ∨ fc = 130 ∨ fc = 131) ∧ 5 ≤ user then d.put 0x46 (leNat (slice u 3 2)) else d).halt 0 total

/-! ## Modbus/TCP -/

/-- The Modbus decoder: one ADU at offset 0. DESIGN CHOICE: a fault in the first MBAP header delivers none of its fields and stops at
offset 0; MB_ADDR and MB_QTY are the words at offsets 8 and 10 of a request and of a response alike, which the spec does not tell apart (log 63). -/
def modbusDecode (w : List Byte) (pay : Nat) : Dec :=
  if pay = 0 then Dec.none
  else
    let n := netAt w 4 2
    if pay < 8 ∨ netAt w 2 2 ≠ 0 ∨ n < 2 ∨ 254 < n ∨ pay < 6 + n then Dec.none.halt 3 0
    else
      let fc := netAt w 7 1
      let d := ((Dec.none.put 0x50 (netAt w 0 2)).put 0x51 (netAt w 6 1)).put 0x52 fc
      let d := if fc ∈ [1, 2, 3, 4, 5, 6, 15, 16] ∧ 6 ≤ n then (d.put 0x53 (netAt w 8 2)).put 0x54 (netAt w 10 2) else d
      d.halt 0 (6 + n)

/-! ## MMS -/

/-- Enter the TLV at `i` when its tag is `tag`; answers the offset of its content and its end. -/
def enterTlv (w : List Byte) (pay stop tag i : Nat) : Except Nat (Nat × Nat) :=
  match readTag w pay stop i (· == tag) with
  | .ok t => .ok (i + t.hlen, i + t.hlen + t.len)
  | .malformed => .error 3
  | .cut => .error 2

/-- The tag of the confirmed service at `b` of a PDU that ends at `e`: a context tag of one or two octets. -/
def mmsService (d : Dec) (w : List Byte) (e b : Nat) : Dec :=
  if e < b + 2 then d.halt 3 b
  else if w.length ≤ b then d.halt 2 w.length
  else if netAt w b 1 / 64 ≠ 2 then d.halt 3 b
  else
    let k := if netAt w b 1 % 32 = 31 then 2 else 1
    if w.length < b + k then d.halt 2 w.length
    else
      let tag := netAt w b k
      match readLen w e b k tag with
      | .malformed => d.halt 3 b
      | .cut => (d.put 0x63 tag).halt 2 w.length
      | .ok _ => (d.put 0x63 tag).halt 0 (min e w.length)

/-- The MMS PDU inside the presentation's user data: its fields. A confirmed PDU has an invokeID, a request may have a listOfModifier, and a
request and a response have a service. -/
def mmsPdu (d : Dec) (w : List Byte) (pay stop i : Nat) : Dec :=
  match readTlv w pay stop i with
  | .malformed => d.halt 3 i
  | .cut => (if i < w.length then d.put 0x61 (netAt w i 1) else d).halt 2 w.length
  | .ok t =>
    let d := d.put 0x61 t.tag
    let a := i + t.hlen
    let e := a + t.len
    if t.tag ∉ [0xA0, 0xA1, 0xA2] then d.halt 0 (min e w.length)
    else
      match readTag w pay e a (· == if t.tag = 0xA2 then 0x80 else 0x02) with
      | .malformed => d.halt 3 a
      | .cut => d.halt 2 w.length
      | .ok u =>
        let b := a + u.hlen + u.len
        if w.length < b then d.halt 2 w.length
        else
          let d := d.int w 0x62 (a + u.hlen) u.len
          if b = e then d.halt 3 b
          else if t.tag = 0xA2 then d.halt 0 (min e w.length)
          else if t.tag = 0xA0 ∧ b < w.length ∧ netAt w b 1 = 0x30 then
            match readTlv w pay e b with
            | .malformed => d.halt 3 b
            | .cut => d.halt 2 w.length
            | .ok m => mmsService d w e (b + m.hlen + m.len)
          else mmsService d w e b

/-- A TPKT of which no more is read: it ends, or goes on beyond the window (R99). -/
def mmsEnd (w : List Byte) (total : Nat) (d : Dec) : Dec := if w.length < total then d.halt 2 w.length else d.halt 0 total

/-- The MMS decoder: TPKT, COTP DT, session. -/
def mmsDecode (w : List Byte) (pay : Nat) : Dec :=
  if pay = 0 then Dec.none
  else
    let total := netAt w 2 2
    if pay < 4 ∨ netAt w 0 1 ≠ 3 ∨ total < 7 ∨ pay < total then Dec.none.halt 3 0
    else if netAt w 5 1 / 16 ≠ 0xF then mmsEnd w total Dec.none
    else if netAt w 4 1 ≠ 2 then Dec.none.halt 3 4
    else if total = 7 then Dec.none.halt 0 7
    else
      let d := Dec.none.put 0x60 (netAt w 7 1)
      if netAt w 7 4 ≠ 0x01000100 ∨ total < 11 then mmsEnd w total d
      else
        match enterTlv w pay total 0x61 11 with
        | .error k => d.halt k (if k = 2 then w.length else 11)
        | .ok (a, e) =>
          match enterTlv w pay e 0x30 a with
          | .error k => d.halt k (if k = 2 then w.length else a)
          | .ok (a2, e2) =>
            match readTag w pay e2 a2 (· == 0x02) with
            | .malformed => d.halt 3 a2
            | .cut => d.halt 2 w.length
            | .ok t =>
              let b := a2 + t.hlen + t.len
              if w.length < b then d.halt 2 w.length
              else match enterTlv w pay e2 0xA0 b with
                | .error k => d.halt k (if k = 2 then w.length else b)
                | .ok (a3, e3) =>
                  let r := mmsPdu d w pay e3 a3
                  if r.status = 0 ∧ w.length < total then r.halt 2 w.length else r

/-- The decoder of a kind (R97). DESIGN CHOICE: the kinds without a decoder, and an empty payload of a decoded kind, find nothing and read
STATUS OK with WALK_END 0. -/
def decodeOf (kind : Nat) (w : List Byte) (pay : Nat) : Dec :=
  match kind with
  | 1 => berDecode 1 w pay
  | 2 => berDecode 2 w pay
  | 4 => i104Decode w pay
  | 5 => dnpDecode w pay
  | 6 => modbusDecode w pay
  | 7 => mmsDecode w pay
  | _ => Dec.none

/-- What the decoder of a kind finds; it stops inside the window or at its end (R101). -/
def decodeKind (kind : Nat) (w : List Byte) (pay : Nat) : Dec :=
  let d := decodeOf kind w pay
  { d with stop := min d.stop w.length }

/-- The field codes of R97 that are not reserved. -/
def fieldCode (k : Nat) : Bool :=
  k == 0 || (0x10 ≤ k && k ≤ 0x18) || (0x20 ≤ k && k ≤ 0x26) || (0x30 ≤ k && k ≤ 0x39) || (0x40 ≤ k && k ≤ 0x47) ||
    (0x50 ≤ k && k ≤ 0x54) || (0x60 ≤ k && k ≤ 0x63)

/-! ## Matches (R95) and the result (R101) -/

/-- A pattern (R91): 1 to 64 bytes, whether the case of letters counts, its anchor offset, and its match bit. -/
structure Pattern where
  bytes : List Byte
  anyCase : Bool
  anchor : Option Nat
  mbit : Nat
deriving DecidableEq, Repr

/-- A pattern from the number that Config gives: [5:0] its length minus 1, [6] case-insensitive, [7] anchored, [16:8] its anchor offset,
[24:17] its match bit, and its bytes from bit 25 on. -/
def patternOf (r : Nat) : Pattern :=
  ⟨leBytes (fld r 0 6 + 1) (r / 2 ^ 25), bit r 6, if bit r 7 then some (fld r 8 9) else none, fld r 17 8⟩

/-- The patterns that the state words of a set hold (R91); the spec gives state words no format. -/
def patternsOf (words : List (Nat × Nat)) (n : Nat) : List Pattern := (List.range n).map (fun k => patternOf (Config.patternAt words k))

/-- A byte without the case of a letter. -/
def lowerByte (b : Byte) : Nat := if 65 ≤ b.toNat ∧ b.toNat ≤ 90 then b.toNat + 32 else b.toNat

/-- An occurrence of a pattern at an offset of a window; none extends past its end (R95). -/
def Pattern.occurs (p : Pattern) (w : List Byte) (o : Nat) : Bool :=
  let x := slice w o p.bytes.length
  decide (x.length = p.bytes.length) && (if p.anyCase then x.map lowerByte == p.bytes.map lowerByte else x == p.bytes)

/-- The offsets of every occurrence of a pattern, overlapping ones included; an anchored pattern occurs only at its anchor (R95). -/
def Pattern.offsets (p : Pattern) (w : List Byte) : List Nat :=
  (match p.anchor with
    | some a => [a]
    | none => List.range w.length).filter (p.occurs w)

/-- Every occurrence of every pattern: end, offset of the first byte, match bit. -/
def occurrences (pats : List Pattern) (w : List Byte) : List (Nat × Nat × Nat) :=
  pats.flatMap (fun p => (p.offsets w).map (fun o => (o + p.bytes.length, o, p.mbit)))

/-- R95: the first match ends at the lowest offset, and of those it is the longest. DESIGN CHOICE: of two occurrences with one end and one
length, which are of equal patterns, the model takes that of the lower pattern index (log 64). -/
def firstMatch (l : List (Nat × Nat × Nat)) : Option (Nat × Nat × Nat) :=
  l.foldl (fun (best : Option (Nat × Nat × Nat)) x =>
    match best with
    | none => some x
    | some y => if x.1 < y.1 ∨ (x.1 = y.1 ∧ x.2.1 < y.2.1) then some x else best) none

/-- What the engine finds (R95): the match bits, the first match's bit, offset and end. -/
def matchOf (pats : List Pattern) (w : List Byte) : Nat × Nat × Nat × Nat :=
  let l := occurrences pats w
  match firstMatch l with
  | none => (0, 0, 0, 0)
  | some (e, o, b) => (l.foldl (fun m x => setFld m x.2.2 1 1) 0, b, o, e)

/-- An extraction rule's result (R94): none, bad, or a value. DESIGN CHOICE: a RAW field that runs past the window, and one relative to a match
where there is none, leave the FV invalid; a write of an OFFSET of 512 to 1,023 is accepted, and such a field runs past every window. -/
def extractRule (rule : Nat) (w : List Byte) (d : Dec) (m : Nat × Nat × Nat × Nat) : Option (Option Nat) :=
  let code := fld rule 24 7
  if bit rule 31 = false then none
  else if code = 0 then
    let at0 := fld rule 14 10 + (if bit rule 13 then m.2.2.2 else 0)
    let n := fld rule 10 3 + 1
    if (bit rule 13 = true ∧ m.1 = 0) ∨ w.length < at0 + n then none
    else some (some (if bit rule 9 then netAt w at0 n else leNat (slice w at0 n)))
  else if d.bad.contains code then some none
  else (tfind d.vals code).map some

/-- The result block of a window scanned by an engine under a set. -/
def patResult (engine set kind : Nat) (rules : Nat) (pats : List Pattern) (w : List Byte) (pay : Nat) : Nat :=
  let d := decodeKind kind w pay
  let m := matchOf pats w
  let fv := (List.range 8).map (fun i => extractRule (fld rules (32 * i) 32) w d m)
  let bits (f : Option (Option Nat) → Bool) : Nat := fv.foldr (fun x n => 2 * n + b2n (f x)) 0
  let vals := fv.foldr (fun x n => n * 2 ^ 64 + ((x.bind id).getD 0) % 2 ^ 64) 0
  m.1 * 2 ^ 640 + bits (fun x => (x.bind id).isSome) * 2 ^ 632 + bits (fun x => x == some none) * 2 ^ 624 + m.2.1 * 2 ^ 616 +
    m.2.2.1 * 2 ^ 607 + d.steps * 2 ^ 591 + d.status * 2 ^ 588 + b2n (m.1 != 0) * 2 ^ 587 + set * 2 ^ 581 + engine * 2 ^ 576 +
    w.length * 2 ^ 566 + d.stop * 2 ^ 556 + vals

/-- The result of a packet that bypassed the engines (R101): STATUS NOT_RUN. -/
def patNotRun : Nat := 2 ^ 588

end Sys2Proof.Machine
end

