-- ==== Sys2Proof/Machine/Skink.lean ====
section
/-! DEFINITION. The rows of the Skinks (chapters 5 to 7): a thread's start, the issue of microwords, each operation of a word,
split-phase results, and the commit unit's rows. -/

namespace Sys2Proof.Machine

/-! ## Memory and leap operations (R143, R144) -/

/-- The eight scratch bytes of a thread from an address on, little-endian. -/
def scratchLoad (s : State) (t a : Nat) : Nat :=
  leNat ((List.range 8).map (fun i => BitVec.ofNat 8 (tget 0 s.sk.scratch (t * 3072 + a + i))))

/-- A store of bytes into scratch. -/
def scratchStore (s : State) (t a : Nat) (bytes : List Byte) : State :=
  let put := fun (m : Tab Nat) (p : Byte × Nat) => tset 0 m (t * 3072 + a + p.2) p.1.toNat
  { s with sk := { s.sk with scratch := bytes.zipIdx.foldl put s.sk.scratch } }

/-- LDS and STS (R143, R144). -/
def memScratch (s : State) (x : Thread) (t w : Nat) (store : Bool) : Issued :=
  let a := x.reg (mwMadr w) % 4096 + 8 * mwMimm w
  if 3064 < a then (true, s)
  else if store then (false, scratchStore s t a (leBytes 8 (x.reg (mwMsrc w))))
  else (false, s.addPend t ⟨mwMdst w, 1, .scratch (scratchLoad s t a)⟩)

/-- LDH (R143, R144): bytes at or beyond HDR_LEN read 0. -/
def memHeader (s : State) (x : Thread) (t w : Nat) : Issued :=
  let o := x.reg (mwMadr w) + mwMimm w
  if 255 < o then (true, s)
  else
    let frame := (x.job.map (fun j => j.pkt.frame)).getD []
    (false, s.addPend t ⟨mwMdst w, 1, .value [beNat (padTo 0 8 (slice (frame.take (fld x.md 344 9)) o 8))]⟩)

/-- HASH (R143). -/
def memHash (s : State) (x : Thread) (t w : Nat) : Issued :=
  let bytes := ((List.range (mwMimm w % 8 + 1)).map (fun i => leBytes 8 (x.reg (mwMadr w + i)))).flatten
  (false, s.addPend t ⟨mwMdst w, 1, .value [crc32c bytes]⟩)

/-- A table lookup is issued; its table is read when its result comes. -/
def memLookup (s : State) (x : Thread) (t w : Nat) : Issued :=
  let n := (memRegs (mwMop w) (mwMimm w)).2.2
  (false, s.addPend t ⟨mwMdst w, n, .lookup (mwMop w) (mwMimm w) (x.reg (mwMadr w)) (x.reg (mwMadr w + 1))⟩)

/-- LEARN (R281). -/
def memLearn (s : State) (x : Thread) (t w : Nat) : Issued :=
  if x.leap.learn.isSome then (true, s)
  else (false, s.modTh t (fun y => { y with leap := { y.leap with learn := some (x.reg (mwMadr w) / 16) } }))

/-- LBIND (R174, R209). -/
def memBind (s : State) (x : Thread) (t w : Nat) : Issued :=
  let own := bit (mwMimm w) 9
  let byKey := flowKeyBytes x w
  leapBind s t (mwMdst w) (mwHnd w) own (if own then (x.job.map (fun j => j.pkt.key)).getD 0 else byKey)
where
  /-- R209: the key of G[MADR] to G[MADR + 5], with the key template as byte 47. -/
  flowKeyBytes (x : Thread) (w : Nat) : Nat :=
    let bytes := ((List.range 6).map (fun i => leBytes 8 (x.reg (mwMadr w + i)))).flatten
    leNat (bytes.take 47) + (mwMimm w % 16) * 2 ^ 376

/-- A write-class operation of a word. -/
def memWrite (s : State) (x : Thread) (t w : Nat) (k : WKind) : Issued :=
  let tmpl := if bit (mwMimm w) 4 then mwMimm w % 16 else fld x.md 172 4
  match k with
  | .lins => leapWrite s t ⟨k, mwHnd w, 3, tmpl, mwMdst w⟩
  | .ldel => leapWrite s t ⟨k, mwHnd w, 3, 0, mwMdst w⟩
  | _ => leapWrite s t ⟨k, mwHnd w, mwSeg w, mwMimm w, x.reg (mwMsrc w)⟩

/-- The memory or leap operation of a word; `x` is the thread as it stood before the word. -/
def memOp (s : State) (x : Thread) (t w : Nat) : Issued :=
  match mwMop w with
  | 0x00 => (false, s)
  | 0x01 => memScratch s x t w false
  | 0x02 => memScratch s x t w true
  | 0x03 => memHeader s x t w
  | 0x04 => memHash s x t w
  | 0x0E => memLearn s x t w
  | 0x10 => memBind s x t w
  | 0x11 => leapRead s t (mwMdst w) (mwHnd w) (mwSeg w)
  | 0x12 => memWrite s x t w .lset
  | 0x13 => memWrite s x t w .ladd
  | 0x14 => memWrite s x t w .lmax
  | 0x15 => memWrite s x t w .lmin
  | 0x16 => memWrite s x t w .lor
  | 0x18 => memWrite s x t w .lseq
  | 0x19 => memWrite s x t w .ldup
  | 0x1A => memWrite s x t w .ltok
  | 0x1C => memWrite s x t w .lins
  | 0x1D => memWrite s x t w .ldel
  | 0x1F => leapAbort s t
  | _ => memLookup s x t w

/-! ## Issue (R114, R146) -/

/-- An operation of R143 on a bound record or handle. -/
def isLeapOp (op : Nat) : Bool := decide (0x11 ≤ op) && decide (op < 0x1F)

/-- R114, R116: a RUNNING thread is ready for a word. -/
def Thread.ready (x : Thread) (w : Nat) : Bool :=
  let regs := wordRegs w
  decide (x.st = .running) && x.lockWait.isNone &&
  !x.pend.any (fun p => regs.any (fun r => decide (p.reg ≤ r) && decide (r < p.reg + p.n))) &&
  ((memRegs (mwMop w) (mwMimm w)).2.2 == 0 || decide (x.pend.length < 8)) &&
  !(isLeapOp (mwMop w) && (match x.handle (mwHnd w) with
    | some h => decide (h.st = .pending)
    | none => false))

/-- R146 steps 1 to 5: the fields of a word take effect on a thread. -/
def runFields (s : State) (t w : Nat) : Issued :=
  let x := s.th t
  let x1 := aluStep x (mwAlu w) (mwDst w) (mwA w) (mwB w) (mwBImm w) (mwImm w)
  let x2 := editStep x x1 (mwEop w) (mwEsrc w) (mwEimm w)
  let x3 := { x2 with top := topAfter (mwTst w) x.top x2.flags (fld x.prv 100 16) (fld x.pat 588 3) (fld x.pat 587 1) (fld x.pat 632 4) }
  memOp (s.setTh t x3) x t w

/-- R571: the RECORD_KEY breakpoints of an LBIND that binds a record; `x` is the thread before the word at `pc`, `y` after it. -/
def bindBreaks (s : State) (x y : Thread) (t w : Nat) : State :=
  if mwMop w = 0x10 then
    match y.handle (mwHnd w) with
    | some h => if (x.handle (mwHnd w)).isNone then s.bpCheck t 3 x.pc w y.top y.flags (fun v => fld v 0 32 == (s.flowHash h.key).1) else s
    | none => s
  else s

/-- A word with one operation alone, at a RUNNING thread that is ready for it: a reserved encoding is a machine check
(R162), what ends a run ends it as for TRAP. -/
def opRow (t w : Nat) (s : State) : State :=
  let s := s.settleLock t
  let x := s.th t
  if x.ready w = false then s
  else if wordBad w then ((s.bump Objs.cs_mchk (clutchOf t)).raise 80 (clutchOf t)).machineCheck t
  else
    let pc := x.pc
    let (trap, s1) := runFields s t w
    if trap then s1.trapRun t pc false else bindBreaks s1 x (s1.th t) t w

/-- R163: a machine check's damage waits for its repair. -/
def State.csDamaged (s : State) (c item : Nat) : State :=
  let cs := s.cs c
  (s.setCs c { cs with repairing := item :: cs.repairing.filter (· ≠ item) }).bump Objs.cs_mchk c

/-- R162: a parity failure of a microword, item `address`, or of a dispatch entry, item `2^16 + entry`. -/
def parityCheck (s : State) (t item : Nat) : State :=
  let s1 := s.csDamaged (clutchOf t) item
  (s1.raise (if item < 65536 then 80 else 81) (clutchOf t)).machineCheck t

/-- A bit of a stored word or entry flips. -/
def flipBit (s : State) (c item b : Nat) : State :=
  let cs := s.cs c
  if item < 65536 then
    let w := tget 0 cs.words item
    s.setCs c { cs with words := tset 0 cs.words item (setFld w b 1 (1 - fld w b 1)) }
  else
    let w := tget 0 cs.disp (item - 65536)
    s.setCs c { cs with disp := tset 0 cs.disp (item - 65536) (setFld w b 1 (1 - fld w b 1)) }

/-- R147, R148, R150: a thread takes a dispatch entry under its packet's hue. -/
def takeEntry (s : State) (t entry : Nat) (err : IssueErr) : State :=
  let c := clutchOf t
  let s := match err with
    | .entry b => flipBit s c (65536 + entry) b.val
    | _ => s
  let e := tget 0 (s.cs c).disp entry
  if entryParOk e = false then parityCheck s t (65536 + entry)
  else
    let (valid, target) := entryHalf e (fld (s.th t).md 48 16)
    if valid then s.modTh t (fun x => { x with pc := target }) else s.trapRun t entry true

/-- R112: HALT. A program that issued no leap operation counts as committed (R10). -/
def haltRun (s : State) (t : Nat) : State :=
  let x := s.th t
  match x.job with
  | none => s
  | some j =>
    if x.leap.abandoned then s.endAbandoned t
    else if x.leap.used then
      s.setTh t { x with st := .committing, inCommit := true, halted := s.fNs, pend := [], stepLeft := 0,
                         job := some { j with bindOpen := false } }
    else
      let s1 := match x.leap.learn with
        | some k => s.learnEnqueue k (fld x.md 32 8) (inLin x.md)
        | none => s
      (((s1.releaseLsn j.lsn).bump Objs.leap_committed).traceEvt t 1 j.lsn).threadFree t 0

/-- After a word whose run goes on: the word limit (R115), also of a thread that a breakpoint on the word has halted; the breakpoints that hit after a word (R571), and the end of a
step (R566). -/
def afterWord (s : State) (t : Nat) (_w : Nat) : State :=
  let x := s.th t
  let limit := s.rd Objs.prog_word_limit
  if x.st ≠ .running ∧ x.st ≠ .debugHalt then s
  else if limit ≠ 0 ∧ limit ≤ x.words then s.wordLimit t
  else if x.st ≠ .running then s
  else if x.stepLeft = 0 then s
  else if x.stepLeft = 1 then s.enterHalt t
  else s.setTh t { x with stepLeft := x.stepLeft - 1 }

/-- R571: the MOP and RECORD_KEY breakpoints of an issued word. -/
def wordBreaks (s : State) (x y : Thread) (t w : Nat) : State :=
  bindBreaks (s.bpCheck t 1 x.pc w y.top y.flags (fun v => fld v 52 6 == mwMop w)) x y t w

/-- The index of R148. -/
def dispIndex (x y : Thread) (w : Nat) : Nat :=
  match mwOpcSrc w with
  | 0 => fld x.md 160 8
  | 1 => y.top
  | _ => x.reg (mwOpcReg w) % 256

/-- A thread is the one that issued last in its Skink (R114). -/
def State.lastIssued (s : State) (t : Nat) : State :=
  { s with sk := { s.sk with lastThread := tput (skinkOf t) (t % 8) s.sk.lastThread } }

/-- A thread is RUNNING and ready for the word at its address (R114). -/
def State.readyNow (s : State) (t : Nat) : Bool :=
  let x := s.th t
  decide (x.st = .running) && x.ready (tget 0 (s.cs (clutchOf t)).words x.pc)

/-- R114: the thread that a Skink chooses: a ready thread bound to a single-file entry, or the first ready one after the thread that issued
last. -/
def State.nextThread (s : State) (k : Nat) : Option Nat :=
  match (skinkThreads k).find? (fun t => (s.th t).bound.isSome && s.readyNow t) with
  | some t => some t
  | none => ((List.range 8).map (fun i => 8 * k + (tget 7 s.sk.lastThread k + 1 + i) % 8)).find? s.readyNow

/-- The word at a thread's address takes effect (R146). -/
def issueWord (s : State) (t w : Nat) (err : IssueErr) : State :=
  let x := s.th t
  let s0 := (s.lastIssued t).setTh t { x with words := x.words + 1, bpSkip := false }
  let (trap, s1) := runFields s0 t w
  let y := s1.th t
  let s2 := s1.traceAdd t 0 x.pc (mwNxt w) (mwMop w) y.top y.flags (if aluHasDst (mwAlu w) then y.sel (mwDst w) else 0)
  if trap then wordBreaks (s2.trapRun t x.pc false) x y t w
  else
    let s3 := match mwNxt w with
      | 0 => if x.pc = 0x3FFF then s2.trapRun t x.pc false else s2.setTh t { y with pc := x.pc + 1 }
      | 1 => takeEntry s2 t (256 * mwDb w + dispIndex x y w) err
      | 2 => haltRun s2 t
      | _ => s2.trapRun t x.pc false
    afterWord (wordBreaks s3 x y t w) t w

/-- A row that issues the word at the address of the thread that its Skink chooses (R114): parity and reserved encodings (R162), readiness, the ADDR breakpoint
(R571), the parity of the registers (R111), the word. -/
def issueRow (nxt t : Nat) (err : IssueErr) (s : State) : State :=
  let s := s.settleLock t
  let x := s.th t
  let c := clutchOf t
  if x.st ≠ .running ∨ s.nextThread (skinkOf t) ≠ some t then s
  else
    let s := match err with
      | .word b => flipBit s c x.pc b.val
      | _ => s
    let w := tget 0 (s.cs c).words x.pc
    if parOk w = false ∨ wordBad w = true then parityCheck s t x.pc
    else if x.ready w = false ∨ mwNxt w ≠ nxt then s
    else
      let s1 := if x.bpSkip then s else s.bpCheck t 0 x.pc w x.top x.flags (fun v => fld v 32 14 == x.pc)
      if (s1.th t).st ≠ .running then s1.modTh t (fun y => { y with bpSkip := true })
      else if err = .register then s1.skinkParity t
      else issueWord s1 t w err

/-- The meaning of SEQ. -/
def execSeq (thread : Fin 2048) (err : IssueErr) (s : State) : Out := .next (issueRow 0 thread.val err s)
/-- The meaning of DISP. -/
def execDisp (thread : Fin 2048) (err : IssueErr) (s : State) : Out := .next (issueRow 1 thread.val err s)
/-- The meaning of HALT. -/
def execHalt (thread : Fin 2048) (err : IssueErr) (s : State) : Out := .next (issueRow 2 thread.val err s)
/-- The meaning of TRAP. -/
def execTrap (thread : Fin 2048) (err : IssueErr) (s : State) : Out := .next (issueRow 3 thread.val err s)

/-! ## A thread's start (R112) -/

/-- CONTEXT_LOADED: 10 CCLK after its assignment a thread starts at dispatch[0][OPCODE], or waits in DEBUG_HALT. -/
def contextLoaded (s : State) (t : Nat) (err : IssueErr) : State :=
  let x := s.th t
  if x.st ≠ .loading ∨ s.elapsed x.since 8 = false then s
  else
    let s1 := takeEntry (s.setTh t { x with st := .running }) t (fld x.md 160 8) err
    if (s1.th t).st = .running ∧ s1.dbg.haltPend.contains t = true then s1.enterHalt t else s1

/-- The meaning of CONTEXT_LOADED. -/
def execContextLoaded (thread : Fin 2048) (err : IssueErr) (s : State) : Out := .next (contextLoaded s thread.val err)

/-! ## Split-phase results (R116) -/

/-- A result is written: the operation leaves the pending list. -/
def writeResult (s : State) (t i : Nat) (p : Pend) (v : List Nat) : State :=
  s.modTh t (fun x =>
    let x1 := { x with pend := x.pend.eraseIdx i }
    ((List.range p.n).map (fun k => (p.reg + k, v.getD k 0))).foldl (fun x r => x.setReg r.1 r.2) x1)

/-- R298: the thread whose lookup read a damaged word abandons its leap and sets DROP. -/
def lookupDrop (s : State) (t i : Nat) (p : Pend) : State :=
  let s1 := if (s.th t).leap.abandoned then s else s.abandon t
  let (v, s2) := s1.draw
  let s3 := (s2.modTh t (fun x => x.setMd 40 1 1)).bump Objs.table_mem_drop
  writeResult s3 t i p [v % 2 ^ 64, v / 2 ^ 64 % 2 ^ 64]

/-- A table lookup is served (R280 to R295). -/
def serveLookup (s : State) (x : Thread) (op mimm k0 k1 : Nat) (ecc : WordEcc) (pos : Nat) : Option (Nat × Nat) × State :=
  match op with
  | 0x08 => lkMac s k0 ecc pos
  | 0x09 => lkNat s k0 ecc pos
  | 0x0A => lkLpm4 s (mimm % 16) k0 ecc
  | 0x0B => lkLpm6 s (mimm % 16) k0 k1 ecc
  | 0x0C => lkMcg s (k0 % 65536) (fld x.md 32 8) ecc
  | _ => lkMbr s k0 (bit mimm 0) ecc pos

/-- An LRD is served: the segment, and the version it read. -/
def serveRead (s : State) (t i : Nat) (p : Pend) (hnd seg ops : Nat) : State :=
  let x := s.th t
  match x.handle hnd with
  | none => s
  | some h =>
    let (v, ver) := s.readSeg x.md h seg
    let full := s.ownOps x h seg ops v
    let s1 := match ver with
      | some n => s.modTh t (fun y => { y with leap := { y.leap with reads := y.leap.reads ++ [⟨h.key, seg, n⟩] } })
      | none => s
    writeResult s1 t i p [fld full 0 64, fld full 64 64]

/-- OPERATION_RESULT: the pending operation at a place of a thread writes its result registers. `word` is the error that its memory read met, in
the word at `pos` of those that a table lookup reads. -/
def operationResult (s : State) (t i : Nat) (word : WordEcc) (pos : Nat) (fsu : FsuEcc) : State :=
  let x := s.th t
  match x.pend[i]? with
  | none => s
  | some p =>
    match p.kind with
    | .bind _ => s
    | .value v => writeResult s t i p v
    | .scratch v => if word = .uncorrected then s.skinkParity t else writeResult s t i p [v]
    | .lookup op mimm k0 k1 =>
      match serveLookup s x op mimm k0 k1 word pos with
      | (some (a, b), s1) => writeResult s1 t i p [a, b]
      | (none, s1) => lookupDrop s1 t i p
    | .lrd hnd seg ops =>
      let keys := (List.range 4).map (fun h => ((x.handle h).map (·.key)).getD 0)
      serveRead (s.fsuEcc keys fsu) t i p hnd seg ops

/-- The meaning of OPERATION_RESULT. -/
def execOperationResult (thread : Fin 2048) (place : Fin 8) (word : WordEcc) (pos : Fin 9) (fsu : FsuEcc) (s : State) : Out :=
  .next (operationResult s thread.val place.val word pos.val fsu)

/-! ## Locks and the commit unit -/

/-- LOCK_WAIT_TIMEOUT (R192). -/
def lockWaitTimeout (s : State) (t : Nat) : State :=
  let s := s.settleLock t
  let x := s.th t
  match x.lockWait, x.job with
  | some (o, since), some j =>
    if s.elapsed since (s.rd Objs.lock_timeout) = false then s
    else match x.handle o.hnd with
      | none => s
      | some h =>
        if s.rd Objs.lock_break = 1 then
          let mine := s.fsu.locks.filter (fun l => (s.targetKeys l.target).contains h.key)
          (mine.foldl breakLock s).settleLock t
        else
          let s1 := s.abandon t
          let s2 := s1.modTh t (fun y => y.setMd 40 1 1)
          ((s2.bump Objs.leap_lock_timeout).raise 98 t j.lsn).threadFree t 4
  | _, _ => s

/-- The meaning of LOCK_WAIT_TIMEOUT. -/
def execLockWaitTimeout (thread : Fin 2048) (s : State) : Out := .next (lockWaitTimeout s thread.val)

/-- The meaning of LEAP_COMMIT. -/
def execLeapCommit (thread : Fin 2048) (err : LeapErr) (s : State) : Out := .next (leapTest s thread.val err)

/-- The meaning of LEAP_STATUS_DELIVERED. -/
def execLeapStatusDelivered (thread : Fin 2048) (s : State) : Out := .next (statusDelivered s thread.val)

/-- The meaning of LEAP_WAIT_LIMIT. -/
def execLeapWaitLimit (thread : Fin 2048) (s : State) : Out := .next (leapWaitLimit s thread.val)

/-! ## One operation of a word -/

/-- The meaning of NOP. -/
def execNop (thread : Fin 2048) (x : AluArgs) (s : State) : Out := .next (opRow thread.val (aluWord 0x00 x) s)
/-- The meaning of MOV. -/
def execMov (thread : Fin 2048) (x : AluArgs) (s : State) : Out := .next (opRow thread.val (aluWord 0x01 x) s)
/-- The meaning of ADD. -/
def execAdd (thread : Fin 2048) (x : AluArgs) (s : State) : Out := .next (opRow thread.val (aluWord 0x02 x) s)
/-- The meaning of SUB. -/
def execSub (thread : Fin 2048) (x : AluArgs) (s : State) : Out := .next (opRow thread.val (aluWord 0x03 x) s)
/-- The meaning of AND. -/
def execAnd (thread : Fin 2048) (x : AluArgs) (s : State) : Out := .next (opRow thread.val (aluWord 0x04 x) s)
/-- The meaning of OR. -/
def execOr (thread : Fin 2048) (x : AluArgs) (s : State) : Out := .next (opRow thread.val (aluWord 0x05 x) s)
/-- The meaning of XOR. -/
def execXor (thread : Fin 2048) (x : AluArgs) (s : State) : Out := .next (opRow thread.val (aluWord 0x06 x) s)
/-- The meaning of ANDN. -/
def execAndn (thread : Fin 2048) (x : AluArgs) (s : State) : Out := .next (opRow thread.val (aluWord 0x07 x) s)
/-- The meaning of SHL. -/
def execShl (thread : Fin 2048) (x : AluArgs) (s : State) : Out := .next (opRow thread.val (aluWord 0x08 x) s)
/-- The meaning of SHR. -/
def execShr (thread : Fin 2048) (x : AluArgs) (s : State) : Out := .next (opRow thread.val (aluWord 0x09 x) s)
/-- The meaning of SAR. -/
def execSar (thread : Fin 2048) (x : AluArgs) (s : State) : Out := .next (opRow thread.val (aluWord 0x0A x) s)
/-- The meaning of EXT. -/
def execExt (thread : Fin 2048) (x : AluArgs) (s : State) : Out := .next (opRow thread.val (aluWord 0x0B x) s)
/-- The meaning of INS. -/
def execIns (thread : Fin 2048) (x : AluArgs) (s : State) : Out := .next (opRow thread.val (aluWord 0x0C x) s)
/-- The meaning of MIN. -/
def execMin (thread : Fin 2048) (x : AluArgs) (s : State) : Out := .next (opRow thread.val (aluWord 0x0D x) s)
/-- The meaning of MAX. -/
def execMax (thread : Fin 2048) (x : AluArgs) (s : State) : Out := .next (opRow thread.val (aluWord 0x0E x) s)
/-- The meaning of SDIFF. -/
def execSdiff (thread : Fin 2048) (x : AluArgs) (s : State) : Out := .next (opRow thread.val (aluWord 0x0F x) s)
/-- The meaning of CMP. -/
def execCmp (thread : Fin 2048) (x : AluArgs) (s : State) : Out := .next (opRow thread.val (aluWord 0x10 x) s)
/-- The meaning of TSTB. -/
def execTstb (thread : Fin 2048) (x : AluArgs) (s : State) : Out := .next (opRow thread.val (aluWord 0x11 x) s)
/-- The meaning of ABSD. -/
def execAbsd (thread : Fin 2048) (x : AluArgs) (s : State) : Out := .next (opRow thread.val (aluWord 0x12 x) s)
/-- The meaning of POPC. -/
def execPopc (thread : Fin 2048) (x : AluArgs) (s : State) : Out := .next (opRow thread.val (aluWord 0x13 x) s)
/-- The meaning of FFS. -/
def execFfs (thread : Fin 2048) (x : AluArgs) (s : State) : Out := .next (opRow thread.val (aluWord 0x14 x) s)
/-- The meaning of BSWAP. -/
def execBswap (thread : Fin 2048) (x : AluArgs) (s : State) : Out := .next (opRow thread.val (aluWord 0x15 x) s)
/-- The meaning of MOVZ. -/
def execMovz (thread : Fin 2048) (x : AluArgs) (s : State) : Out := .next (opRow thread.val (aluWord 0x16 x) s)
/-- The meaning of MOVNZ. -/
def execMovnz (thread : Fin 2048) (x : AluArgs) (s : State) : Out := .next (opRow thread.val (aluWord 0x17 x) s)
/-- The meaning of LDS. -/
def execLds (thread : Fin 2048) (x : MemArgs) (s : State) : Out := .next (opRow thread.val (memWord 0x01 x) s)
/-- The meaning of STS. -/
def execSts (thread : Fin 2048) (x : MemArgs) (s : State) : Out := .next (opRow thread.val (memWord 0x02 x) s)
/-- The meaning of LDH. -/
def execLdh (thread : Fin 2048) (x : MemArgs) (s : State) : Out := .next (opRow thread.val (memWord 0x03 x) s)
/-- The meaning of HASH. -/
def execHash (thread : Fin 2048) (x : MemArgs) (s : State) : Out := .next (opRow thread.val (memWord 0x04 x) s)
/-- The meaning of LKMAC. -/
def execLkmac (thread : Fin 2048) (x : MemArgs) (s : State) : Out := .next (opRow thread.val (memWord 0x08 x) s)
/-- The meaning of LKNAT. -/
def execLknat (thread : Fin 2048) (x : MemArgs) (s : State) : Out := .next (opRow thread.val (memWord 0x09 x) s)
/-- The meaning of LKLPM4. -/
def execLklpm4 (thread : Fin 2048) (x : MemArgs) (s : State) : Out := .next (opRow thread.val (memWord 0x0A x) s)
/-- The meaning of LKLPM6. -/
def execLklpm6 (thread : Fin 2048) (x : MemArgs) (s : State) : Out := .next (opRow thread.val (memWord 0x0B x) s)
/-- The meaning of LKMCG. -/
def execLkmcg (thread : Fin 2048) (x : MemArgs) (s : State) : Out := .next (opRow thread.val (memWord 0x0C x) s)
/-- The meaning of LKMBR. -/
def execLkmbr (thread : Fin 2048) (x : MemArgs) (s : State) : Out := .next (opRow thread.val (memWord 0x0D x) s)
/-- The meaning of LEARN. -/
def execLearn (thread : Fin 2048) (x : MemArgs) (s : State) : Out := .next (opRow thread.val (memWord 0x0E x) s)
/-- The meaning of LBIND. -/
def execLbind (thread : Fin 2048) (x : MemArgs) (s : State) : Out := .next (opRow thread.val (memWord 0x10 x) s)
/-- The meaning of LRD. -/
def execLrd (thread : Fin 2048) (x : MemArgs) (s : State) : Out := .next (opRow thread.val (memWord 0x11 x) s)
/-- The meaning of LSET. -/
def execLset (thread : Fin 2048) (x : MemArgs) (s : State) : Out := .next (opRow thread.val (memWord 0x12 x) s)
/-- The meaning of LADD. -/
def execLadd (thread : Fin 2048) (x : MemArgs) (s : State) : Out := .next (opRow thread.val (memWord 0x13 x) s)
/-- The meaning of LMAX. -/
def execLmax (thread : Fin 2048) (x : MemArgs) (s : State) : Out := .next (opRow thread.val (memWord 0x14 x) s)
/-- The meaning of LMIN. -/
def execLmin (thread : Fin 2048) (x : MemArgs) (s : State) : Out := .next (opRow thread.val (memWord 0x15 x) s)
/-- The meaning of LOR. -/
def execLor (thread : Fin 2048) (x : MemArgs) (s : State) : Out := .next (opRow thread.val (memWord 0x16 x) s)
/-- The meaning of LSEQ. -/
def execLseq (thread : Fin 2048) (x : MemArgs) (s : State) : Out := .next (opRow thread.val (memWord 0x18 x) s)
/-- The meaning of LDUP. -/
def execLdup (thread : Fin 2048) (x : MemArgs) (s : State) : Out := .next (opRow thread.val (memWord 0x19 x) s)
/-- The meaning of LTOK. -/
def execLtok (thread : Fin 2048) (x : MemArgs) (s : State) : Out := .next (opRow thread.val (memWord 0x1A x) s)
/-- The meaning of LINS. -/
def execLins (thread : Fin 2048) (x : MemArgs) (s : State) : Out := .next (opRow thread.val (memWord 0x1C x) s)
/-- The meaning of LDEL. -/
def execLdel (thread : Fin 2048) (x : MemArgs) (s : State) : Out := .next (opRow thread.val (memWord 0x1D x) s)
/-- The meaning of LABORT. -/
def execLabort (thread : Fin 2048) (x : MemArgs) (s : State) : Out := .next (opRow thread.val (memWord 0x1F x) s)
/-- The meaning of HSET. -/
def execHset (thread : Fin 2048) (x : EditArgs) (s : State) : Out := .next (opRow thread.val (editWord 0x01 x) s)
/-- The meaning of SETDEST. -/
def execSetdest (thread : Fin 2048) (x : EditArgs) (s : State) : Out := .next (opRow thread.val (editWord 0x02 x) s)
/-- The meaning of SETQ. -/
def execSetq (thread : Fin 2048) (x : EditArgs) (s : State) : Out := .next (opRow thread.val (editWord 0x03 x) s)
/-- The meaning of FLAGS. -/
def execFlags (thread : Fin 2048) (x : EditArgs) (s : State) : Out := .next (opRow thread.val (editWord 0x04 x) s)
/-- The meaning of SETEDIT. -/
def execSetedit (thread : Fin 2048) (x : EditArgs) (s : State) : Out := .next (opRow thread.val (editWord 0x05 x) s)
/-- The meaning of SETLAUNCH. -/
def execSetlaunch (thread : Fin 2048) (x : EditArgs) (s : State) : Out := .next (opRow thread.val (editWord 0x06 x) s)
/-- The meaning of REASON. -/
def execReason (thread : Fin 2048) (x : EditArgs) (s : State) : Out := .next (opRow thread.val (editWord 0x07 x) s)
/-- The meaning of COLOUR. -/
def execColour (thread : Fin 2048) (x : EditArgs) (s : State) : Out := .next (opRow thread.val (editWord 0x08 x) s)
/-- The meaning of POSTCARD. -/
def execPostcard (thread : Fin 2048) (x : EditArgs) (s : State) : Out := .next (opRow thread.val (editWord 0x09 x) s)
/-- The meaning of PROGDATA. -/
def execProgdata (thread : Fin 2048) (x : EditArgs) (s : State) : Out := .next (opRow thread.val (editWord 0x0A x) s)

end Sys2Proof.Machine
end

