-- ==== Sys2Proof/Machine/Spray.lean ====
section
/-! DEFINITION. The spray unit, single-file steering, the reorder stages' timeouts, and the drain, isolation and regrowth of
clutches and Skinks (chapter 5). -/

namespace Sys2Proof.Machine

/-! ## Spraying (R117 to R120) -/

/-- Threads that hold packets of a pipe (R119). -/
def State.pipeThreads (s : State) (p : Nat) : Nat :=
  (s.sk.threads.filter (fun t => match t.2.job with
    | some j => j.pipe == p
    | none => false)).length

/-- R119: the claim table has five unreserved entries. -/
def State.claimRoom (s : State) : Bool := decide (5 * (s.cu.reserved.length + 1) ≤ 16384)

/-- A packet waits at the head of its join stage; `quota` where spray_pipe_quota is the cause. -/
def sprayWait (s : State) (p : Nat) (quota : Bool) : State :=
  let (since, a, b) := (tfind s.sk.stall p).getD (s.fNs, false, false)
  let s1 : State := { s with sk := { s.sk with stall := tput p (since, a, b || quota) s.sk.stall } }
  if quota && !b then s1.raise 78 p else s1

/-- A packet that waited is taken: each CCLK counts (R119). -/
def sprayGo (s : State) (p : Nat) : State :=
  match tfind s.sk.stall p with
  | none => s
  | some (since, _) =>
    let s1 : State := { s with sk := { s.sk with stall := tdel p s.sk.stall } }
    s1.bump Objs.spray_stall_cycles p (s.spanNs since * 5 / 4)

/-- R120, R171, R173, R175: a packet leaves its join stage with its reorder entry, LSN, claim and reservation. -/
def takePacket (s : State) (p : Nat) (pkt : Packet) (sf : Bool) : Job × State :=
  let lsn := s.cu.lsnNext
  let id := tget 0 s.sk.entryNext p
  let hue := fld pkt.md 48 16
  let j : Job := ⟨pkt, lsn, p, id, false, none, sf, bit (s.keyedOps hue) (fld pkt.md 160 8), true⟩
  let ring := s.ring p ++ [⟨id, pkt.pid, s.fNs, s.rd Objs.reorder_timeout, none, false, none, 0, 0⟩]
  let sk := { s.sk with join := tset [] s.sk.join p ((tget [] s.sk.join p).drop 1), entryNext := tput p (id + 1) s.sk.entryNext,
                        rings := tput p ring s.sk.rings }
  let cu := { s.cu with lsnNext := (lsn + 1) % 2 ^ 48, reserved := s.cu.reserved ++ [lsn] }
  let s1 : State := { s with sk := sk, cu := cu }
  (j, (s1.addClaim lsn j.pair).wr Objs.reorder_high_water p (max (s.rd Objs.reorder_high_water p) ring.length))

/-- A packet returned for replay is taken before any new one (R118). -/
def sprayReplay (s : State) (p : Nat) (j : Job) (rest : List Job) : State :=
  if !j.reserved && !s.claimRoom then s
  else
    let s0 : State := { s with sk := { s.sk with replay := tset [] s.sk.replay p rest } }
    match s.sfFind j.pair with
    | some (i, _) => (s0.reclaim j).sfEnqueue i { j with reserved := true, sf := true }
    | none => match s.pickThread (fld j.pkt.md 48 16) j.avoid with
      | none => s
      | some t => ((s0.reclaim j).picked t).assign t { j with reserved := true, sf := false }

/-- SPRAY: one packet of a pipe. DESIGN CHOICE: of the causes of R119 that hold at once the full ring and the claim table are tested before the
quota, so that a wait that one of them causes raises no EV078 (log 54). -/
def spray (s : State) (p : Nat) : State :=
  match tget [] s.sk.replay p with
  | j :: rest => sprayReplay s p j rest
  | [] => match tget [] s.sk.join p with
    | [] => s
    | h :: _ =>
      if h.released = false then s
      else if 2048 ≤ (s.ring p).length ∨ s.claimRoom = false then sprayWait s p false
      else if s.rd Objs.spray_pipe_quota ≤ s.pipeThreads p then sprayWait s p true
      else
        let pair := (fld h.pkt.md 176 32, fld h.pkt.md 208 32)
        match s.sfFind pair with
        | some (i, _) =>
          let (j, s1) := takePacket (sprayGo s p) p h.pkt true
          s1.sfEnqueue i j
        | none => match s.pickThread (fld h.pkt.md 48 16) none with
          | none => sprayWait s p false
          | some t =>
            let (j, s1) := takePacket (sprayGo s p) p h.pkt false
            (s1.picked t).assign t j

/-- The meaning of SPRAY. -/
def execSpray (pipe : Fin 4) (s : State) : Out := .next (spray s pipe.val)

/-- SPRAY_STALL_TIMEOUT (R119). -/
def sprayStall (s : State) (p : Nat) : State :=
  match tfind s.sk.stall p with
  | none => s
  | some (since, raised, b) =>
    if raised = false ∧ s.elapsed since 1001 = true then
      { s with sk := { s.sk with stall := tput p (since, true, b) s.sk.stall } }.raise 66 p
    else s

/-- The meaning of SPRAY_STALL_TIMEOUT. -/
def execSprayStallTimeout (pipe : Fin 4) (s : State) : Out := .next (sprayStall s pipe.val)

/-! ## Reorder timeout (R125, R133) -/

/-- LATE is set in the job of a reorder entry, wherever it is (R125). -/
def markLate (s : State) (p id : Nat) : State :=
  let f : Job → Job := fun j => if j.pipe = p ∧ j.entry = id then { j with late := true } else j
  let sk := { s.sk with threads := s.sk.threads.map (fun t => (t.1, { t.2 with job := t.2.job.map f })),
                        replay := s.sk.replay.map (fun r => (r.1, r.2.map f)),
                        sf := s.sk.sf.map (fun e => (e.1, { e.2 with queue := e.2.queue.map f })) }
  { s with sk := sk }

/-- REORDER_TIMEOUT: the head entry of a pipe is skipped. -/
def reorderTimeout (s : State) (p : Nat) : State :=
  match s.ring p with
  | [] => s
  | e :: rest =>
    if e.done.isSome ∨ s.elapsed e.alloc e.timeout = false then s
    else (((markLate s p e.id).setRing p rest).bump Objs.reorder_timeout_count p).raise 64 p

/-- The meaning of REORDER_TIMEOUT. -/
def execReorderTimeout (pipe : Fin 4) (s : State) : Out := .next (reorderTimeout s pipe.val)

/-- The meaning of REORDER_TIMEOUT_WRITE: entries keep the timeout of their allocation. -/
def execReorderTimeoutWrite (c : Ctx) (v : List Byte) (s : State) : Out :=
  .next (writeObj c Objs.reorder_timeout 0 v noCheck noApply s)

/-- The meaning of REORDER_HIGH_WATER_READ. -/
def execReorderHighWaterRead (c : Ctx) (pipe : Fin 4) (s : State) : Out :=
  .next (readObj c Objs.reorder_high_water pipe.val (fun s => s.rd Objs.reorder_high_water pipe.val) (fun _ => .ok)
    (fun s => s.wr Objs.reorder_high_water pipe.val 0) s)

/-! ## Single-file entries (R121, R122, R200) -/

/-- The PINNED, H2 and H1 fields of an entry. -/
def sfFields (e : SfEntry) : Nat := b2n e.pinned * 2 ^ 126 + e.h2 * 2 ^ 32 + e.h1

/-- An entry is cleared: the thread is unbound and packets that still wait go back to the spray unit. -/
def sfClear (s : State) (i : Nat) : State :=
  match tfind s.sk.sf i with
  | none => s
  | some e =>
    let s1 := s.modTh e.thread (fun x => { x with bound := none })
    let back := fun (r : Tab (List Job)) (j : Job) => tmod [] r j.pipe (· ++ [{ j with sf := false }])
    State.sfRetry { s1 with sk := { s1.sk with sf := tdel i s1.sk.sf, sfOff := tset 0 s1.sk.sfOff i (sfFields e),
                                               replay := e.queue.foldl back s1.sk.replay } }

/-- The image of an entry (R121); PINNED, H1 and H2 stand whatever VALID is. -/
def sfImage (s : State) (i : Nat) : Nat :=
  match tfind s.sk.sf i with
  | none => tget 0 s.sk.sfOff i
  | some e => 2 ^ 127 + e.thread * 2 ^ 115 + e.queue.length * 2 ^ 108 + sfFields e

/-- R122: a new entry with no Skink to bind is refused with STATE. -/
def sfCheck (c : Ctx) : Nat → State → Code := fun v s =>
  refuseIf (bit v 127 && (tfind s.sk.sf (s.rdCtx c Objs.sf_select)).isNone && (s.sfSkink s.hueActive).isNone) .state

/-- A software write of an entry. -/
def sfWrite (c : Ctx) (v : Nat) (s : State) : State :=
  let i := s.rdCtx c Objs.sf_select
  if bit v 127 then
    match tfind s.sk.sf i with
    | some e => s.setSf i { e with h1 := fld v 0 32, h2 := fld v 32 32, pinned := bit v 126 }
    | none => (s.sfMake i (fld v 0 32) (fld v 32 32) (bit v 126)).getD s
  else
    let s1 := sfClear s i
    { s1 with sk := { s1.sk with sfOff := tset 0 s1.sk.sfOff i (b2n (bit v 126) * 2 ^ 126 + fld v 0 64) } }

/-- EV070: R122 refuses the binding; a refusal of R474 or R516 comes before it. -/
def sfRefused (k : Code) (s : State) : State :=
  if k = .state ∧ s.itemNarrowed Objs.sf_entry true = false then s.raise 70 0 else s

/-- The meaning of SF_ENTRY_WRITE. -/
def execSfEntryWrite (c : Ctx) (v : List Byte) (s : State) : Out :=
  .next (writeObj c Objs.sf_entry 0 v (sfCheck c) (sfWrite c) s sfRefused)

/-- SF_IDLE_EXPIRY (R200). -/
def sfIdle (s : State) (i : Nat) : State :=
  match tfind s.sk.sf i with
  | none => s
  | some e =>
    if e.pinned = false ∧ e.queue = [] ∧ (s.th e.thread).st = .free ∧ s.elapsed e.idleSince (s.rd Objs.sf_idle) = true then sfClear s i
    else s

/-- The meaning of SF_IDLE_EXPIRY. -/
def execSfIdleExpiry (entry : Fin 256) (s : State) : Out := .next (sfIdle s entry.val)

/-! ## Drain, isolation and regrowth (R80, R129 to R131) -/

/-- The in-service clutches eligible for the active hue. -/
def State.eligibleClutches (s : State) : Nat := ((List.range 16).filter (fun c => s.clutchEligible c s.hueActive)).length

/-- R80: EV040 when the eligible clutches fall below min_clutches; `before` is their number before the change. -/
def State.clutchesLow (s : State) (before : Nat) : State :=
  let m := s.rd Objs.min_clutches
  if m ≤ before ∧ s.eligibleClutches < m then s.raise 40 0 else s

/-- R130. -/
def drainRefused : Nat → State → Code := fun c s =>
  let left := ((List.range 16).filter (fun d => d != c && s.clutchEligible d s.hueActive)).length
  refuseIf (s.rd Objs.clutch_state c != 0 || decide (left < s.rd Objs.min_clutches)) .state

/-- R129: a clutch drains. -/
def drainStart (c : Nat) (s : State) : State :=
  let s1 := (s.wr Objs.clutch_state c 1).sfRebind (fun t => clutchOf t == c)
  s1.drainCheck c

/-- The meaning of CLUTCH_DRAIN. -/
def execClutchDrain (c : Ctx) (v : List Byte) (s : State) : Out :=
  .next (writeObj c Objs.clutch_drain 0 v drainRefused drainStart s)

/-- R129: only a DRAINING or DRAINED clutch returns. -/
def returnRefused : Nat → State → Code := fun c s =>
  refuseIf (s.rd Objs.clutch_state c != 1 && s.rd Objs.clutch_state c != 2) .state

/-- The meaning of CLUTCH_RETURN. -/
def execClutchReturn (c : Ctx) (v : List Byte) (s : State) : Out :=
  .next (writeObj c Objs.clutch_return 0 v returnRefused (fun x s => ((s.wr Objs.clutch_state x 0).raise 72 x).sfRetry) s)

/-- R568: the isolation of a thread's Skink or clutch clears its halts, its pending halts and the clutch's breakpoints. -/
def clearHalts (s : State) (threads : List Nat) (c : Nat) : State :=
  let d := { s.dbg with haltPend := s.dbg.haltPend.filter (fun t => !threads.contains t),
                        skinkHalt := s.dbg.skinkHalt.filter (fun k => !threads.contains (8 * k)) }
  (List.range 4).foldl (fun s b => s.wr Objs.breakpoint (c * 4 + b) 0) { s with dbg := d }

/-- R131: the packets of some threads are returned to the spray unit. -/
def returnPackets (s : State) (threads : List Nat) : State := threads.foldl (fun s t => s.machineCheck t) s

/-- R131: a Skink is isolated. -/
def State.isolateSkink (s : State) (k : Nat) : State :=
  let map := s.rd Objs.skinks_in_service
  if bit map k = false then s
  else
    let n := s.eligibleClutches
    let s1 := clearHalts (s.wr Objs.skinks_in_service 0 (setFld map k 1 0)) (skinkThreads k) (k / 16)
    let s2 := s1.sfRebind (fun t => skinkOf t == k)
    ((returnPackets s2 (skinkThreads k)).raise 74 k).clutchesLow n

/-- R129, R131: a clutch is isolated. -/
def State.isolateClutch (s : State) (c : Nat) : State :=
  if 3 ≤ s.rd Objs.clutch_state c then s
  else
    let n := s.eligibleClutches
    let s1 := clearHalts (s.wr Objs.clutch_state c 3) (clutchThreads c) c
    let s2 := s1.sfRebind (fun t => clutchOf t == c)
    ((returnPackets s2 (clutchThreads c)).raise 75 c).clutchesLow n

/-- The meaning of SKINK_ISOLATE. -/
def execSkinkIsolate (c : Ctx) (v : List Byte) (s : State) : Out :=
  .next (writeObj c Objs.skink_isolate 0 v noCheck (fun x s => s.isolateSkink x) s)

/-- R518: a Skink is regrown only when it is isolated. -/
def skinkRegrowCheck : Nat → State → Code := fun x s => refuseIf (bit (s.rd Objs.skinks_in_service) x || s.regrowsNow 5 x) .state

/-- The meaning of SKINK_REGROW. -/
def execSkinkRegrow (c : Ctx) (v : List Byte) (s : State) : Out :=
  .next (writeObj c Objs.skink_regrow 0 v skinkRegrowCheck
    (fun x s => (s.startRunOn c (Objs.skink_regrow.key 0) x 8).startRegrow 5 x) s)

/-- R518: a Skink's registers and scratch are cleared, its threads FREE. -/
def State.clearSkink (s : State) (k : Nat) : State :=
  let s1 := (skinkThreads k).foldl (fun s t => s.setTh t { Thread.init with bound := (s.th t).bound }) s
  { s1 with sk := { s1.sk with scratch := tclear s1.sk.scratch (8 * k * 3072) (8 * 3072) } }

end Sys2Proof.Machine
end

