-- ==== Sys2Proof/Machine/Hue.lean ====
section
/-! DEFINITION. Hues: staging, commit, abort, the scrubber, and the tagged objects (R63, R66, R69 to R82, R93, R151, R152,
R207, R213). -/

namespace Sys2Proof.Machine

/-! ## Headers (R63) -/

/-- VF. -/
def hdrVf (h : Nat) : Nat := fld h 0 16
/-- VU. -/
def hdrVu (h : Nat) : Nat := fld h 16 16
/-- PRIO. -/
def hdrPrio (h : Nat) : Nat := fld h 32 16
/-- OPEN. -/
def hdrOpen (h : Nat) : Bool := bit h 61
/-- WIDE. -/
def hdrWide (h : Nat) : Bool := bit h 62
/-- VALID. -/
def hdrValid (h : Nat) : Bool := bit h 63

/-- The defined fields of a header; those of pattern sets and templates have neither WIDE nor PRIO (R92, R212). -/
def hdrClean (rule : Bool) (h : Nat) : Nat :=
  if rule then setFld (h % 2 ^ 64) 48 13 0 else setFld (setFld (h % 2 ^ 64) 32 29 0) 62 1 0

/-- R72: `x` retires the object with header `h` at hue `n`. -/
def retires (h n x : Nat) : Bool := hdrOpen h && x == setFld (setFld h 61 1 0) 16 16 n

/-- R72: the code of a header write `x` to a slot whose header is `h`; `free` says that the slot may take a new object,
`extra` gives what the kind of object refuses. -/
def stageCode (h n x : Nat) (free : Bool) (extra : Code) : Code :=
  if hdrValid h then refuseIf (!retires h n x) .state
  else if free = false then .state
  else if hdrValid x = false ∨ hdrVf x ≠ n then .range
  else extra

/-- A slot without a rule and without content is unlisted. -/
def Tagged.norm (t : Tagged) : Tagged := if t.header = 0 ∧ t.body.all (· == 0) = true then Tagged.free else t

/-! ## Rule slots -/

/-- A rule slot. -/
def State.rule (s : State) (i : Nat) : Tagged := tget Tagged.free s.hue.rules i

/-- Write a rule slot; a spoilt slot is whole again (R83). -/
def State.setRule (s : State) (i : Nat) (t : Tagged) : State :=
  ({ s with hue := { s.hue with rules := tset Tagged.free s.hue.rules i t.norm, badRules := tdel i s.hue.badRules } }).shadowWrite 0 i

/-- R66: an odd slot that belongs to the WIDE rule before it. -/
def State.oddTaken (s : State) (i : Nat) : Bool :=
  i % 2 == 1 && hdrValid (s.rule (i - 1)).header && hdrWide (s.rule (i - 1)).header

/-- R72: a slot that may take a new rule. -/
def State.ruleFree (s : State) (i : Nat) : Bool := !hdrValid (s.rule i).header && !s.oddTaken i

/-- The code of a rule header write (R66, R72). -/
def State.ruleCode (s : State) (i x : Nat) : Code :=
  stageCode (s.rule i).header s.hueN x (!s.oddTaken i)
    (refuseIf (hdrWide x && (i % 2 == 1 || hdrValid (s.rule (i + 1)).header)) .state)

/-- The header of a rule slot is written. -/
def State.putRuleHeader (s : State) (i x : Nat) : State := s.setRule i { s.rule i with header := x }

/-- Part `k` of a rule's content: 0 value, 1 mask, 2 action. -/
def State.putRulePart (s : State) (i k x : Nat) : State :=
  let t := s.rule i
  s.setRule i { t with body := (padTo 0 3 t.body).set k x }

/-- The meaning of RULE_HEADER_WRITE. -/
def execRuleHeaderWrite (c : Ctx) (v : List Byte) (s : State) : Out :=
  .next (writeObj c Objs.rule_header 0 v (fun x s => s.ruleCode (s.rdCtx c Objs.rule_select) (hdrClean true x))
    (fun x s => s.putRuleHeader (s.rdCtx c Objs.rule_select) (hdrClean true x)) s)

/-- The objects of a rule's content. -/
def rulePartObj (k : Nat) : Obj := if k = 0 then Objs.rule_value else if k = 1 then Objs.rule_mask else Objs.rule_action

/-- The defined bits of a part: R64 for the action. -/
def rulePartClean (k x : Nat) : Nat := if k = 2 then x / 2 ^ 67 * 2 ^ 67 else x

/-- A reserved field of a rule's value or mask is not 0 (R61, R62): by FMT in the slot's value, or as the second half of a WIDE rule. DEDUCED
(log 66): an odd slot whose partner is free may yet become that half, so that only what fits neither layout is refused there. -/
def State.ruleReserved (s : State) (i part x : Nat) : Bool :=
  let fmt := fld (if part = 0 then x else (s.rule i).body.getD 0 0) 316 4
  let narrow := fmt == 1 && fld x 96 4 != 0
  let half := fld x 128 80 != 0
  if part = 2 then false
  else if i % 2 = 0 then narrow
  else if s.oddTaken i then half
  else if hdrValid (s.rule (i - 1)).header then narrow
  else narrow && half

/-- The refusals of a write of a rule's content: TYPE for a reserved field, STATE for a slot that is not free. -/
def State.ruleContentCode (s : State) (i part x : Nat) : Code :=
  if s.ruleReserved i part x then .type else refuseIf (!s.ruleFree i) .state

/-- The meaning of RULE_CONTENT_WRITE: `part` 0 value, 1 mask, 2 action. -/
def execRuleContentWrite (c : Ctx) (part : Fin 3) (v : List Byte) (s : State) : Out :=
  .next (writeObj c (rulePartObj part.val) 0 v (fun x s => s.ruleContentCode (s.rdCtx c Objs.rule_select) part.val x)
    (fun x s => s.putRulePart (s.rdCtx c Objs.rule_select) part.val (rulePartClean part.val x)) s)

/-! ## Pattern-set slots (R92, R93) -/

/-- A pattern-set slot. -/
def State.patSet (s : State) (i : Nat) : Tagged := tget Tagged.free s.pat.sets i

/-- The number of a set slot among the automaton memory's words that an error can spoil. -/
def setPlace (i : Nat) : Nat := 229376 + i

/-- Write a pattern-set slot; a spoilt slot is whole again (R102). -/
def State.setPatSet (s : State) (i : Nat) (t : Tagged) : State :=
  ({ s with pat := { s.pat with sets := tset Tagged.free s.pat.sets i t.norm, badWords := tdel (setPlace i) s.pat.badWords } }).shadowWrite 1
    (setPlace i)

/-- The descriptor. -/
def setDesc (t : Tagged) : Nat := t.body.getD 0 0
/-- KIND_MASK. -/
def descKinds (d : Nat) : Nat := fld d 54 10
/-- BASE. -/
def descBase (d : Nat) : Nat := fld d 36 18
/-- SIZE. -/
def descSize (d : Nat) : Nat := fld d 18 18
/-- PATTERNS. -/
def descPatterns (d : Nat) : Nat := fld d 1 17

/-- The VALID sets. -/
def State.validSets (s : State) : List Tagged := (s.pat.sets.filter (fun p => hdrValid p.2.header)).map (·.2)

/-- pat_patterns_used (R106). -/
def State.patternsUsed (s : State) : Nat := s.validSets.foldl (fun n t => n + descPatterns (setDesc t)) 0

/-- A state word lies inside a VALID set. -/
def State.wordTaken (s : State) (w : Nat) : Bool :=
  s.validSets.any (fun t => decide (descBase (setDesc t) ≤ w) && decide (w < descBase (setDesc t) + descSize (setDesc t)))

/-- pat_words_free (R106): VALID sets do not overlap. -/
def State.wordsFree (s : State) : Nat := 229376 - s.validSets.foldl (fun n t => n + descSize (setDesc t)) 0

/-- R93: what a set's descriptor is refused for when its header makes it VALID. -/
def State.setRefused (s : State) (d : Nat) : Code :=
  let b := descBase d
  let e := b + descSize d
  let lap := s.validSets.any (fun t => decide (b < descBase (setDesc t) + descSize (setDesc t)) && decide (descBase (setDesc t) < e))
  let kinds := s.validSets.any (fun t => visible t.header s.hueN && Nat.land (descKinds (setDesc t)) (descKinds d) != 0)
  refuseIf (decide (229376 < e) || lap || bit d 54 || kinds || decide (65536 < s.patternsUsed + descPatterns d)) .state

/-- The meaning of PAT_SET_HEADER_WRITE. -/
def execPatSetHeaderWrite (c : Ctx) (v : List Byte) (s : State) : Out :=
  .next (writeObj c Objs.pat_set_header 0 v
    (fun x s => let t := s.patSet (s.rdCtx c Objs.pat_set_select)
      stageCode t.header s.hueN (hdrClean false x) true (s.setRefused (setDesc t)))
    (fun x s => let i := s.rdCtx c Objs.pat_set_select
      s.setPatSet i { s.patSet i with header := hdrClean false x }) s)

/-- A descriptor outside its ranges (R92). -/
def descBad (d : Nat) : Bool :=
  decide (descSize d = 0) || decide (229376 < descSize d) || decide (descPatterns d = 0) || decide (65536 < descPatterns d)

/-- An extraction rule that names a reserved field (R97). -/
def extractBad (x : Nat) : Bool :=
  (List.range 8).any (fun i => !fieldCode (fld x (32 * i + 24) 7))

/-- The refusals of a write of pat_set_desc (`k` 0) or pat_set_extract (`k` 1). -/
def setPartCheck (c : Ctx) (k : Nat) : Nat → State → Code := fun x s =>
  if (k = 0 ∧ descBad x = true) ∨ (k = 1 ∧ extractBad x = true) then .range
  else refuseIf (hdrValid (s.patSet (s.rdCtx c Objs.pat_set_select)).header) .state

/-- A part of a set slot's content is written. -/
def setPartApply (c : Ctx) (k x : Nat) (s : State) : State :=
  let i := s.rdCtx c Objs.pat_set_select
  let t := s.patSet i
  s.setPatSet i { t with body := (padTo 0 2 t.body).set k x }

/-- Write a state word; a spoilt word is whole again. -/
def State.putWord (s : State) (w x : Nat) : State :=
  ({ s with pat := { s.pat with words := tset 0 s.pat.words w x, badWords := tdel w s.pat.badWords } }).shadowWrite 1 w

/-- The meaning of PAT_WORD_WRITE. -/
def execPatWordWrite (c : Ctx) (v : List Byte) (s : State) : Out :=
  .next (writeObj c Objs.pat_mem_data 0 v (fun _ s => refuseIf (s.wordTaken (s.rdCtx c Objs.pat_mem_addr)) .state)
    (fun x s => s.putWord (s.rdCtx c Objs.pat_mem_addr) x) s)

/-! ## Templates (R206, R207, R212, R213) -/

/-- A template slot. -/
def State.tmplSlot (s : State) (i : Nat) : Tagged := tget Tagged.free s.fsu.tmpls i

/-- Write a template slot, and its shadow (R213). -/
def State.setTmplSlot (s : State) (i : Nat) (t : Tagged) : State :=
  ({ s with fsu := { s.fsu with tmpls := tset Tagged.free s.fsu.tmpls i t.norm } } : State).shadowWrite 4 i

/-- TNUM of a descriptor. -/
def tmplNum (d : Nat) : Nat := fld d 60 4

/-- R213: another VALID slot of the same TNUM is visible under N. -/
def State.tmplRefused (s : State) (i d : Nat) : Code :=
  refuseIf (s.fsu.tmpls.any (fun p => p.1 != i && visible p.2.header s.hueN && tmplNum (p.2.body.getD 0 0) == tmplNum d)) .state

/-- The meaning of TMPL_HEADER_WRITE. -/
def execTmplHeaderWrite (c : Ctx) (v : List Byte) (s : State) : Out :=
  .next (writeObj c Objs.tmpl_header 0 v
    (fun x s => let i := s.rdCtx c Objs.tmpl_select
      stageCode (s.tmplSlot i).header s.hueN (hdrClean false x) true (s.tmplRefused i ((s.tmplSlot i).body.getD 0 0)))
    (fun x s => let i := s.rdCtx c Objs.tmpl_select
      s.setTmplSlot i { s.tmplSlot i with header := hdrClean false x }) s)

/-- AGE_LIMIT of a descriptor is above its limit (R213). -/
def ageBad (d : Nat) : Bool := decide (2142333984 < fld d 0 32)

/-- The refusals of a write of tmpl_desc (R72, R213). -/
def tmplDescCheck (c : Ctx) : Nat → State → Code := fun x s =>
  if ageBad x then .range else refuseIf (hdrValid (s.tmplSlot (s.rdCtx c Objs.tmpl_select)).header) .state

/-- A template's descriptor is written. -/
def tmplDescApply (c : Ctx) (x : Nat) (s : State) : State :=
  let i := s.rdCtx c Objs.tmpl_select
  s.setTmplSlot i { s.tmplSlot i with body := [x] }

/-- The key templates that a rule or a miss action names (R207). -/
def State.tmplNamed (s : State) (k : Nat) : Bool :=
  let names : Nat → Bool := fun a => fld a 83 4 == k
  s.hue.rules.any (fun p => hdrValid p.2.header && names (p.2.body.getD 2 0)) || names s.hue.missNow ||
    (List.range (s.hueWindow - 1)).any (fun i => names (tget 0 s.hue.missOld ((s.hueOldest + i) % 65536))) ||
    (s.hue.missStaged.map names).getD false

/-- The meaning of KEY_TMPL_WRITE. -/
def execKeyTmplWrite (c : Ctx) (v : List Byte) (s : State) : Out :=
  .next (writeObj c Objs.key_tmpl_desc 0 v
    (fun x s => if tmplBad x then .range else refuseIf (s.tmplNamed (s.rdCtx c Objs.key_tmpl_select)) .state)
    (fun x s =>
      let k := s.rdCtx c Objs.key_tmpl_select
      let s1 := if tget 0 s.fsu.keyTmpl k = x then s else s.wr Objs.n_dirty 0 1
      ({ s1 with fsu := { s1.fsu with keyTmpl := tset 0 s1.fsu.keyTmpl k x } } : State).shadowWrite 5 k) s)

/-! ## Bank 0 (R149 to R152) -/

/-- R151: bank-0 entry `e` staged for hue `n`. -/
def entryStage (e n : Nat) (valid : Bool) (target : Nat) : Nat :=
  entryPar (b2n valid * 2 ^ 47 + b2n (bit e 47) * 2 ^ 46 + target % 2 ^ 14 * 2 ^ 32 + fld e 32 14 * 2 ^ 16 + n % 2 ^ 16)

/-- R152: an abort restores an entry with SW = n. -/
def entryAbort (e n o : Nat) : Nat :=
  if fld e 0 16 = n then
    entryPar (b2n (bit e 46) * 2 ^ 47 + b2n (bit e 46) * 2 ^ 46 + fld e 16 14 * 2 ^ 32 + fld e 16 14 * 2 ^ 16 + o % 2 ^ 16)
  else e

/-- R152: the scrubber's visit of an entry. -/
def entryScrub (e o : Nat) : Nat :=
  let d := wrapDiff 16 (fld e 0 16) o
  if d ≤ 0 then
    entryPar (b2n (bit e 47) * 2 ^ 47 + b2n (bit e 47) * 2 ^ 46 + fld e 32 14 * 2 ^ 32 + fld e 32 14 * 2 ^ 16 +
      (if d < 0 then o % 2 ^ 16 else fld e 0 16))
  else e

/-- Change bank-0 entry `i` in every clutch and in the shadow. -/
def State.modBank0 (s : State) (i : Nat) (f : Nat → Nat) : State :=
  let s1 := ({ s with hue := { s.hue with disp0 := tmod 0 s.hue.disp0 i f } } : State).shadowWrite 3 i
  (List.range 16).foldl (fun (s : State) c => s.setCs c { s.cs c with disp := tmod 0 (s.cs c).disp i f }) s1

/-- A bank-0 entry with SW = N (R151, R152). -/
def State.entryStaged (s : State) (i : Nat) : Bool := fld (tget 0 s.hue.disp0 i) 0 16 == s.hueN

/-- Some bank-0 entry has SW = N and is staged (R151). -/
def State.bank0Staged (s : State) : Bool := (List.range 256).any s.entryStaged

/-! ## Per-hue values (R447) -/

/-- hue_next_image. -/
def State.nextImage (s : State) : Nat := s.hue.imageStaged.getD (s.rd Objs.hue_active_image)
/-- hue_miss_action. -/
def State.nextMiss (s : State) : Nat := s.hue.missStaged.getD s.hue.missNow
/-- leap_keyed_ops. -/
def State.nextKeyed (s : State) : Nat := s.hue.keyedStaged.getD s.hue.keyedNow

/-- The objects that R447 stages: 0 hue_next_image, 1 hue_miss_action, 2 leap_keyed_ops. -/
def rwhObj (k : Nat) : Obj := if k = 0 then Objs.hue_next_image else if k = 1 then Objs.hue_miss_action else Objs.leap_keyed_ops

/-- A staged value is written. -/
def State.stageValue (s : State) (k x : Nat) : State :=
  let u := s.hue
  { s with hue := if k = 0 then { u with imageStaged := some x } else if k = 1 then { u with missStaged := some (rulePartClean 2 x) }
    else { u with keyedStaged := some x } }

/-- The meaning of RWH_VALUE_WRITE. -/
def execRwhValueWrite (c : Ctx) (obj : Fin 3) (v : List Byte) (s : State) : Out :=
  .next (writeObj c (rwhObj obj.val) 0 v (fun _ s => refuseIf (obj.val == 0 && s.bank0Staged) .state)
    (fun x s => s.stageValue obj.val x) s)

/-! ## Commit and abort (R73 to R75) -/

/-- R74: in-service clutches that R79 accepts for an image. -/
def State.clutchesFor (s : State) (image : Nat) : Nat :=
  ((List.range 16).filter (fun c => s.rd Objs.clutch_state c == 0 && imageServes (s.rd Objs.clutch_image c) image &&
    (List.range 16).any (fun i => bit (s.rd Objs.skinks_in_service) (16 * c + i)))).length

/-- R74, in the order of R451. -/
def hueCommitCheck : Nat → State → Code := fun _ s =>
  if s.clutchesFor s.nextImage < s.rd Objs.min_clutches then .state
  else refuseIf (decide (4 ≤ s.hueWindow) || s.hue.commit.isSome || s.rd Objs.hue_scrub_busy == 1 || !s.hue.staging.isEmpty) .busy

/-- A refused commit (R74): hue_commit reads the code. -/
def commitRefused (c : Ctx) (k : Code) (s : State) : State :=
  if k = .busy ∨ k = .state then (s.setResult c (Objs.hue_commit.key 0) k.num).raise 38 0 else s

/-- The meaning of HUE_COMMIT: an accepted write schedules the commit point, up to which hue_commit reads BUSY (R448). -/
def execHueCommit (c : Ctx) (v : List Byte) (s : State) : Out :=
  .next (writeObj c Objs.hue_commit 0 v hueCommitCheck
    (fun _ s => ({ s with hue := { s.hue with commit := some (some (ctxCode c)) } } : State).startRun c (Objs.hue_commit.key 0) 8) s
    (commitRefused c))

/-- R73: the header of an object after an abort. -/
def abortHeader (n h : Nat) : Nat :=
  if hdrValid h = false then h
  else if hdrVf h = n then setFld h 63 1 0
  else if hdrOpen h = false ∧ hdrVu h = n then setFld h 61 1 1
  else h

/-- R73 on a table of slots. -/
def abortSlots (n : Nat) (t : Tab Tagged) : Tab Tagged :=
  (t.map (fun p => (p.1, ({ p.2 with header := abortHeader n p.2.header } : Tagged).norm))).filter (fun p => decide (p.2 ≠ Tagged.free))

/-- R73, R152, R447: every staged object is removed. -/
def State.hueAbort (s : State) : State :=
  let n := s.hueN
  let o := s.hueOldest
  let u := { s.hue with rules := abortSlots n s.hue.rules, missStaged := none, imageStaged := none, keyedStaged := none }
  let s1 : State := { s with hue := u, pat := { s.pat with sets := abortSlots n s.pat.sets },
                             fsu := { s.fsu with tmpls := abortSlots n s.fsu.tmpls } }
  ((List.range 256).filter s.entryStaged).foldl (fun (s : State) i => s.modBank0 i (fun e => entryAbort e n o)) s1

/-- The meaning of HUE_ABORT. -/
def execHueAbort (c : Ctx) (v : List Byte) (s : State) : Out :=
  .next (writeObj c Objs.hue_abort 0 v noCheck (fun _ s => s.hueAbort) s)

/-- Slots with VALID = 1 and VF = N, or retired at N (R84). -/
def stagedSlots (n : Nat) (t : Tab Tagged) : Nat :=
  (t.filter (fun p => hdrValid p.2.header && (hdrVf p.2.header == n || (!hdrOpen p.2.header && hdrVu p.2.header == n)))).length

/-- hue_staged_count (R84). DESIGN CHOICE (log 67): a slot with VF = N that is also retired at N counts once, and the entries of bank 0 do
not count. -/
def State.stagedCount (s : State) : Nat :=
  stagedSlots s.hueN s.hue.rules + stagedSlots s.hueN s.pat.sets + stagedSlots s.hueN s.fsu.tmpls

/-- R69, R70, R81, R447: the active hue advances; staged values become those of the new hue, and the scrubber starts a pass. -/
def State.advanceHue (s : State) : State :=
  let a := s.hueActive
  let n := s.hueN
  let u := { s.hue with commit := none, retired := tput a s.fNs s.hue.retired, scrubPos := 0,
                        missOld := tset 0 s.hue.missOld a s.hue.missNow, missNow := s.nextMiss, missStaged := none,
                        imageOld := tset 0 s.hue.imageOld a (s.rd Objs.hue_active_image), imageStaged := none,
                        keyedOld := tset 0 s.hue.keyedOld a s.hue.keyedNow, keyedNow := s.nextKeyed, keyedStaged := none }
  let s1 := ((s.wr Objs.hue_active_image 0 s.nextImage).wr Objs.hue_active 0 n).wr Objs.hue_commit_time 0 s.wStamp
  Sys2Proof.Machine.reclaim 4 ({ s1 with hue := u }.wr Objs.hue_scrub_busy 0 1)

/-! ## Drain limit and scrubber -/

/-- HUE_DRAIN_LIMIT (R78). -/
def hueDrain (s : State) (h : Nat) : State :=
  match tfind s.hue.retired h with
  | none => s
  | some t =>
    if s.elapsed t (s.rd Objs.hue_drain_limit + 1) && !s.hue.slow.contains h && h != s.hueActive then
      ({ s with hue := { s.hue with slow := s.hue.slow ++ [h] } }).raise 39 0 h
    else s

/-- The meaning of HUE_DRAIN_LIMIT. -/
def execHueDrainLimit (hue : BitVec 16) (s : State) : Out := .next (hueDrain s hue.toNat)

/-- R81: the header of an object after the scrubber's visit. -/
def scrubHeader (o h : Nat) : Nat :=
  if hdrValid h = false then h
  else if hdrOpen h = false ∧ wrapDiff 16 (hdrVu h) o ≤ 0 then setFld h 63 1 0
  else if wrapDiff 16 (hdrVf h) o < 0 then setFld h 0 16 o
  else h

/-- The scrubber's visit of a slot. -/
def scrubSlot (o i : Nat) (t : Tab Tagged) : Tab Tagged :=
  match tfind t i with
  | none => t
  | some x => tset Tagged.free t i ({ x with header := scrubHeader o x.header } : Tagged).norm

/-- The objects of a pass (R81). -/
def scrubLen : Nat := 135296

/-- The scrubber visits the object at a place; a clutch's damaged bank-0 entry waits for its rewrite (R163). -/
def State.scrubAt (s : State) (k : Nat) : State :=
  let o := s.hueOldest
  if k < 131072 then { s with hue := { s.hue with rules := scrubSlot o k s.hue.rules } }
  else if k < 131136 then { s with pat := { s.pat with sets := scrubSlot o (k - 131072) s.pat.sets } }
  else if k < 131200 then { s with fsu := { s.fsu with tmpls := scrubSlot o (k - 131136) s.fsu.tmpls } }
  else
    let c := (k - 131200) / 256
    let i := (k - 131200) % 256
    let s1 := if (s.cs c).repairing.contains (65536 + i) then s
      else s.setCs c { s.cs c with disp := tmod 0 (s.cs c).disp i (fun e => entryScrub e o) }
    if c = 0 then { s1 with hue := { s1.hue with disp0 := tmod 0 s1.hue.disp0 i (fun e => entryScrub e o) } } else s1

/-- HUE_SCRUB_VISIT (R81): one object; when the pass ends, the next starts. -/
def hueScrub (s : State) : State :=
  let k := s.hue.scrubPos
  let s1 := s.scrubAt k
  if k + 1 < scrubLen then { s1 with hue := { s1.hue with scrubPos := k + 1 } }
  else ({ s1 with hue := { s1.hue with scrubPos := 0 } }).wr Objs.hue_scrub_busy 0 0

/-- The meaning of HUE_SCRUB_VISIT. -/
def execHueScrubVisit (s : State) : Out := .next (hueScrub s)

end Sys2Proof.Machine
end

