-- ==== Sys2Proof/Machine/Classify.lean ====
section
/-! DEFINITION. Parsing, classification and the key builder, the pattern engines, and the join stage (R52 to R68, R83, R86 to R105,
R206 to R208). -/

namespace Sys2Proof.Machine

/-! ## Windows and engines (R86, R87, R103, R104) -/

/-- A pattern engine. -/
def State.engine (s : State) (e : Nat) : PatEngine := tget PatEngine.idle s.pat.engines e

/-- Replace a pattern engine. -/
def State.setEngine (s : State) (e : Nat) (x : PatEngine) : State :=
  { s with pat := { s.pat with engines := tset PatEngine.idle s.pat.engines e x } }

/-- An engine is in service. -/
def State.engineIn (s : State) (e : Nat) : Bool := bit (s.rd Objs.pat_engines_in_service) e

/-- The bytes queued to an engine. -/
def State.engineBytes (s : State) (e : Nat) : Nat := (s.engine e).queue.foldl (fun n w => n + w.bytes.length) 0

/-- R87: the engine that takes a window of a pipe; `avoid` is one that just failed on it. DESIGN CHOICE: where no other engine of the pipe is
in service, the same engine takes the window again; R103 speaks of another engine alone. -/
def State.pickEngine (s : State) (pipe : Nat) (avoid : Option Nat) : Option Nat :=
  let es := ((List.range 6).map (· + 6 * pipe)).filter s.engineIn
  let others := es.filter (fun e => some e != avoid)
  let l := if others = [] then es else others
  l.foldl (fun (b : Option Nat) e =>
    match b with
    | none => some e
    | some d => if s.engineBytes e < s.engineBytes d then some e else b) none

/-- A packet leaves the join stage of a pipe by a drop. -/
def State.joinDrop (s : State) (pipe pid : Nat) : State :=
  let l := (tget [] s.sk.join pipe).filter (fun j => j.pkt.pid != pid)
  ({ s with sk := { s.sk with join := tset [] s.sk.join pipe l } }).holdDrop pid

/-- A window is handed to an engine; without one in the pipe its packet is dropped (R104). -/
def State.handOver (s : State) (w : Window) (avoid : Option Nat) : State :=
  match s.pickEngine w.pipe avoid with
  | some e => s.setEngine e { s.engine e with queue := (s.engine e).queue ++ [w] }
  | none => ((s.joinDrop w.pipe w.pid).bump Objs.pat_no_engine_drop w.pipe).raise 55 w.pipe

/-- A window is scanned again (R103). DESIGN CHOICE: pat_rerun counts the hand-over, also that of a window whose packet is then dropped because
the pipe has no engine left (R104). -/
def State.rerun (s : State) (w : Window) (avoid : Option Nat) : State := (s.bump Objs.pat_rerun w.pipe).handOver w avoid

/-- R104: an engine is isolated. -/
def State.isolateEngine (s : State) (e : Nat) : State :=
  if s.engineIn e then
    let q := (s.engine e).queue
    let s1 := s.setEngine e { s.engine e with queue := [] }
    let s2 := s1.wr Objs.pat_engines_in_service 0 (setFld (s1.rd Objs.pat_engines_in_service) e 1 0)
    (q.foldl (fun (s : State) w => s.rerun w (some e)) s2).raise 54 e
  else s

/-- R105: an engine is readmitted. -/
def State.readmitEngine (s : State) (e : Nat) : State :=
  s.wr Objs.pat_engines_in_service 0 (setFld (s.rd Objs.pat_engines_in_service) e 1 1)

/-- The meaning of PAT_ENGINE_ISOLATE. -/
def execPatEngineIsolate (c : Ctx) (v : List Byte) (s : State) : Out :=
  .next (writeObj c Objs.pat_engine_isolate 0 v noCheck (fun x s => s.isolateEngine x) s)

/-- R518: an engine is regrown only when it is isolated and no regrowth of it runs. -/
def patRegrowCheck : Nat → State → Code := fun x s => refuseIf (s.engineIn x || s.regrowsNow 7 x) .state

/-- The meaning of PAT_ENGINE_REGROW (R518). -/
def execPatEngineRegrow (c : Ctx) (v : List Byte) (s : State) : Out :=
  .next (writeObj c Objs.pat_engine_regrow 0 v patRegrowCheck
    (fun x s => (s.startRunOn c (Objs.pat_engine_regrow.key 0) x 8).startRegrow 7 x) s)

/-! ## Classification (R65 to R68) -/

/-- R65: a rule in slot `i` matches a key of `w` bits under a hue. -/
def State.ruleMatches (s : State) (i : Nat) (t : Tagged) (h w key : Nat) : Bool :=
  let value := t.body.getD 0 0
  let mask := t.body.getD 1 0
  visible t.header h && !s.oddTaken i &&
    (if hdrWide t.header then
      let odd := s.rule (i + 1)
      w == 640 && Nat.land (Nat.xor (key / 2 ^ 320) value) mask == 0 &&
        Nat.land (Nat.xor (key % 2 ^ 320) (odd.body.getD 0 0)) (odd.body.getD 1 0) == 0
    else Nat.land (Nat.xor (key / 2 ^ (w - 320)) value) mask == 0)

/-- R67: the matching rule of lowest PRIO, and of those the lowest slot. -/
def State.classify (s : State) (h w key : Nat) : Option (Nat × Tagged) :=
  s.hue.rules.foldl (fun (best : Option (Nat × Tagged)) p =>
    if s.ruleMatches p.1 p.2 h w key then
      match best with
      | none => some p
      | some b => if hdrPrio p.2.header < hdrPrio b.2.header then some p else best
    else best) none

/-- R68: what an action writes to the metadata. `vlan` says that the frame is tagged, with OUTER_PCP and OUTER_DEI. -/
def applyAction (md act hue : Nat) (vlan : Bool) (pcp : Nat) (dei : Bool) : Nat :=
  let colour := if fld act 77 2 = 3 then 2 else fld act 77 2
  let colour := if bit act 76 ∧ colour = 0 ∧ dei = true ∧ vlan = true then 1 else colour
  let q := if bit act 107 ∧ vlan = true then pcp else fld act 108 3
  let m := setFld (setFld md 240 16 (fld act 112 16)) 259 1 (fld act 111 1)
  let m := setFld (setFld m 256 3 q) 320 12 (fld act 95 12)
  let m := setFld (setFld m 160 8 (fld act 87 8)) 168 4 (fld act 83 4)
  let m := setFld (setFld m 172 4 (fld act 79 4)) 46 2 colour
  let m := setFld (setFld m 44 1 (fld act 75 1)) 45 1 (fld act 74 1)
  let m := setFld (setFld m 43 1 (fld act 73 1)) 42 1 (fld act 72 1)
  setFld (setFld m 332 4 (fld act 68 4)) 48 16 hue

/-- What the parser is told for a port (R52, R54, R57, R58). -/
def State.parseCfg (s : State) (p : Nat) : ParseCfg :=
  let r := s.rd Objs.port_role p
  ⟨s.rd Objs.vlan_tpid3, leBytes 6 (s.rd Objs.inband_mac),
   [s.rd Objs.tcp_port_iec104, s.rd Objs.tcp_port_dnp3, s.rd Objs.tcp_port_modbus, s.rd Objs.tcp_port_mms],
   s.pairValid p && (r == 1 || r == 2)⟩

/-- R87: the set that serves a kind under a hue. -/
def State.setFor (s : State) (kind h : Nat) : Option Nat :=
  (s.pat.sets.find? (fun p => visible p.2.header h && bit (descKinds (setDesc p.2)) kind)).map (·.1)

/-- A packet is dropped in step 2 or 3. -/
def State.parseDrop (s : State) (k : Packet) : State := s.holdDrop k.pid

/-- R83: the packet whose lookup read a damaged slot is dropped. -/
def State.ruleDrop (s : State) (k : Packet) (pipe slot : Nat) : State :=
  ((s.bump Objs.class_mem_drop pipe).raise 36 0 0 none slot).parseDrop k

/-- The damaged item that was read: item `i`, or where that one is whole the first of those known to be damaged. -/
def badItem (t : Tab Bool) (i : Nat) : Nat := if (tfind t i).isSome then i else (t.head?.map (·.1)).getD i

/-- A slot or word is known to be damaged: a rewrite is to come, unless neither copy could be read before (R83, R102). -/
def spoil (i : Nat) (t : Tab Bool) : Tab Bool := if (tfind t i).isSome then t else tput i true t

/-- The rule that a packet hits and its slot (R65 to R67). -/
def State.ruleHit (s : State) (k : Packet) (cfg : ParseCfg) (f : List Byte) (p : Parsed) : Option (Nat × Tagged) :=
  let port := fld k.md 32 8
  let (w, key) := classKey port (s.rd Objs.port_class port) f p (parseFlags cfg f p) (payWindow cfg f p)
  s.classify s.hueActive w key

/-- R83: the rule that a packet hits lies in a slot known to be damaged, or a WIDE rule in a pair of which one is. -/
def State.hitDamaged (s : State) (k : Packet) (cfg : ParseCfg) (f : List Byte) (p : Parsed) : Bool :=
  match s.ruleHit k cfg f p with
  | some (i, t) => (tfind s.hue.badRules i).isSome || (hdrWide t.header && (tfind s.hue.badRules (i + 1)).isSome)
  | none => false

/-- Steps 2 to 4 of a packet whose lookup read no damaged slot: classification, the key builder, the window, the join
stage. -/
def State.classifyPacket (s : State) (pipe : Nat) (k : Packet) (cfg : ParseCfg) (f : List Byte) (p : Parsed) : State :=
  let h := s.hueActive
  let port := fld k.md 32 8
  let win := payWindow cfg f p
  let prv := prvOf cfg f p
  let (w, key) := classKey port (s.rd Objs.port_class port) f p (parseFlags cfg f p) win
  let hit := s.ruleHit k cfg f p
  let s1 := match hit with
    | some (i, t) =>
      if bit (t.body.getD 2 0) 67 then { s with hue := { s.hue with hits := tmod 0 s.hue.hits i (fun n => satAdd 64 n 1) } } else s
    | none => s.bump Objs.class_miss pipe
  let act := match hit with
    | some (_, t) => t.body.getD 2 0
    | none => s.hue.missNow
  let tci := netAt f 14 2
  let md := applyAction (setFld k.md 344 9 p.pos) act h (p.vlan != 0) (tci / 8192) (bit tci 12)
  let kt := fld act 83 4
  let fk := flowKey kt (tget 0 s.fsu.keyTmpl kt) w key (k.frame.take 128)
  let hp := s1.flowHash fk
  let md := setFld (setFld md 176 32 hp.1) 208 32 hp.2
  let kind := payKind cfg f p
  let set := if kind = 0 then none else s.setFor kind h
  let pkt : Packet := { k with md := md, prv := prv, key := fk, pat := patNotRun }
  let s2 := s1.startLookup fk
  let s3 : State := { s2 with sk := { s2.sk with join := tput pipe (tget [] s2.sk.join pipe ++ [⟨pkt, set.isSome, false⟩]) s2.sk.join } }
  match set with
  | none => s3
  | some i => s3.handOver ⟨k.pid, pipe, i, kind, h, win, payLen cfg f p⟩ none

/-- PARSE: the packet at the head of a pipe's input queue takes the active hue (R70) and passes steps 2 to 4. -/
def parsePacket (s : State) (pipe : Nat) (err : ParseErr) : State :=
  match tget [] s.ports.inq pipe with
  | [] => s
  | k :: rest =>
    if 256 ≤ (tget [] s.sk.join pipe).length then s
    else
      let s0 : State := { s with ports := { s.ports with inq := tset [] s.ports.inq pipe rest } }
      let s1 := (s0.hueTake k.pid s.hueActive).injectDone k.inject 1 0
      let k : Packet := { k with inject := none }
      if err.parity then ((s1.bump Objs.parser_parity_drop pipe).raise 34 pipe).parseDrop k
      else
        let port := fld k.md 32 8
        let cfg := s.parseCfg port
        let f := k.frame.take (k.frame.length - 4)
        let p := parseFrame cfg f
        let s2 := if bit p.flags 14 || bit p.flags 6 || bit p.flags 5 then (s1.bump Objs.parse_err pipe).raise 32 pipe else s1
        let s3 := if bit p.flags 13 then (s2.bump Objs.parse_depth pipe).raise 33 pipe else s2
        if err.readsBad && !s3.hue.badRules.isEmpty || s3.hitDamaged k cfg f p then
          s3.ruleDrop k pipe (badItem s3.hue.badRules err.slot.val)
        else match err.rule with
          | .good => s3.classifyPacket pipe k cfg f p
          | .corrected => (s3.raise 35 0).classifyPacket pipe k cfg f p
          | .uncorrected =>
            ({ s3 with hue := { s3.hue with badRules := spoil err.slot.val s3.hue.badRules } }).ruleDrop k pipe
              err.slot.val

/-- The meaning of PARSE. -/
def execParse (pipe : Fin 4) (err : ParseErr) (s : State) : Out := .next (parsePacket s pipe.val err)

/-- RULE_REWRITE_DONE (R83): the slot is rewritten from a copy of the shadow, or neither copy can be read; one whose pseudo-channel answers
MEM_FROZEN cannot (R404). -/
def ruleRewrite (s : State) (i : Nat) (copy : CopyRead) : State :=
  if tfind s.hue.badRules i = some true then
    if s.shadowRead 0 i copy = .neither then ({ s with hue := { s.hue with badRules := tput i false s.hue.badRules } }).raise 41 0 0
      (s.shadowRefused 0 i)
    else { s with hue := { s.hue with badRules := tdel i s.hue.badRules } }
  else s

/-- The meaning of RULE_REWRITE_DONE. -/
def execRuleRewriteDone (slot : Fin 131072) (copy : CopyRead) (s : State) : Out := .next (ruleRewrite s slot.val copy)

/-! ## Scanning (R95 to R104) -/

/-- R102: the packet whose scan read a damaged word is dropped. -/
def State.wordDrop (s : State) (w : Window) (word : Nat) : State :=
  ((s.bump Objs.pat_mem_drop w.pipe).raise 52 0 0 none word).joinDrop w.pipe w.pid

/-- A fault-free scan: its result goes to the join stage. -/
def State.scanWindow (s : State) (e : Nat) (w : Window) : State :=
  let t := s.patSet w.set
  let d := setDesc t
  let words := (trange s.pat.words (descBase d) (descSize d)).map (fun p => (p.1 - descBase d, p.2))
  let r := patResult e w.set w.kind (t.body.getD 1 0) (patternsOf words (descPatterns d)) w.bytes w.payLen
  let s1 := s.setEngine e { s.engine e with done := (s.engine e).done ++ [(w, r)] }
  { s1 with pat := { s1.pat with hits := tmod 0 s1.pat.hits w.set (fun n => satAdd 64 n 1) } }

/-- PATTERN_SCAN: an engine in service takes the window at the head of its queue. Every scan reads its set slot. -/
def patternScan (s : State) (e : Nat) (err : PatErr) : State :=
  match (s.engine e).queue with
  | [] => s
  | w :: rest =>
    if s.engineIn e = false then s
    else
      let s1 := s.setEngine e { s.engine e with queue := rest }
      if (tfind s1.pat.badWords (setPlace w.set)).isSome then s1.wordDrop w (setPlace w.set)
      else match err with
      | .good => s1.scanWindow e w
      | .corrected => (s1.raise 51 0).scanWindow e w
      | .parity => (s1.raise 53 e 0 none w.pid).rerun w (some e)
      | .bad word => ({ s1 with pat := { s1.pat with badWords := spoil word.val s1.pat.badWords } }).wordDrop w word.val
      | .damaged => if s1.pat.badWords.isEmpty then s1.scanWindow e w else s1.wordDrop w (badItem s1.pat.badWords (setPlace w.set))

/-- The meaning of PATTERN_SCAN. -/
def execPatternScan (engine : Fin 24) (err : PatErr) (s : State) : Out := .next (patternScan s engine.val err)

/-- A pattern result reaches the join stage (R89, R90). -/
def patternResult (s : State) (e : Nat) : State :=
  match (s.engine e).done with
  | [] => s
  | (w, r) :: rest =>
    let s1 := s.setEngine e { s.engine e with done := rest }
    let l := (tget [] s1.sk.join w.pipe).map (fun j =>
      if j.pkt.pid = w.pid then ({ j with pkt := { j.pkt with pat := r }, waiting := false } : JoinItem) else j)
    let s2 : State := { s1 with sk := { s1.sk with join := tset [] s1.sk.join w.pipe l } }
    let st := fld r 588 3
    if st = 2 then (s2.bump Objs.pat_trunc w.pipe).raise 48 w.pipe
    else if st = 3 then (s2.bump Objs.pat_malformed w.pipe).raise 49 w.pipe
    else if st = 4 then (s2.bump Objs.pat_limit w.pipe).raise 50 w.pipe
    else s2

/-- The meaning of PATTERN_RESULT. -/
def execPatternResult (engine : Fin 24) (s : State) : Out := .next (patternResult s engine.val)

/-- PAT_MEM_REWRITE_DONE (R102): a state word, or from 229,376 on a set slot. -/
def patRewrite (s : State) (w : Nat) (copy : CopyRead) : State :=
  if tfind s.pat.badWords w = some true then
    if s.shadowRead 1 w copy = .neither then ({ s with pat := { s.pat with badWords := tput w false s.pat.badWords } }).raise 56 0 0
      (s.shadowRefused 1 w)
    else { s with pat := { s.pat with badWords := tdel w s.pat.badWords } }
  else s

/-- The meaning of PAT_MEM_REWRITE_DONE. -/
def execPatMemRewriteDone (word : Fin 229440) (copy : CopyRead) (s : State) : Out := .next (patRewrite s word.val copy)

/-- JOIN_RELEASE: the head of a pipe's join stage goes to the spray unit once its pattern result is in (R89). -/
def joinRelease (s : State) (pipe : Nat) : State :=
  match tget [] s.sk.join pipe with
  | [] => s
  | j :: rest =>
    if j.waiting then s else { s with sk := { s.sk with join := tset [] s.sk.join pipe ({ j with released := true } :: rest) } }

/-- The meaning of JOIN_RELEASE. -/
def execJoinRelease (pipe : Fin 4) (s : State) : Out := .next (joinRelease s pipe.val)

end Sys2Proof.Machine
end

