-- ==== Sys2Proof/Machine/ControlStore.lean ====
section
/-! DEFINITION. Images, the loading of clutches, hue images and the repair of control stores (R151, R154 to R164, R455). -/

namespace Sys2Proof.Machine

/-! ## Images (R154 to R156) -/

/-- A section: TYPE, ADDR, and its data. -/
structure Section where
  ty : Nat
  addr : Nat
  data : List Byte
deriving DecidableEq, Repr

/-- A 32-bit little-endian field of an image. -/
def le32 (b : List Byte) (i : Nat) : Nat := leNat (slice b i 4)

/-- A 16-bit little-endian field of an image. -/
def le16 (b : List Byte) (i : Nat) : Nat := leNat (slice b i 2)

/-- KIND. -/
def imgKind (b : List Byte) : Nat := le16 b 6
/-- IMAGE_ID. -/
def imgId (b : List Byte) : Nat := le32 b 8
/-- BASE_ID. -/
def imgBase (b : List Byte) : Nat := le32 b 12
/-- LENGTH. -/
def imgLength (b : List Byte) : Nat := le32 b 16
/-- IMAGE_CRC. -/
def imgCrc (b : List Byte) : Nat := le32 b 20
/-- STORE_CRC. -/
def imgStoreCrc (b : List Byte) : Nat := le32 b 24
/-- SECTIONS. -/
def imgSections (b : List Byte) : Nat := le16 b 28

/-- Section `k`. -/
def imgSection (b : List Byte) (k : Nat) : Section :=
  let h := 64 + 16 * k
  ⟨le16 b h, le16 b (h + 2), slice b (le32 b (h + 4)) (le32 b (h + 8))⟩

/-- The sections in the order of their headers. -/
def imgSectionList (b : List Byte) : List Section := (List.range (imgSections b)).map (imgSection b)

/-- The record size of a section type (R156). -/
def recordSize (ty : Nat) : Nat :=
  match ty with
  | 0x0001 => 16
  | 0x0002 => 2
  | 0x0003 => 2
  | 0x0010 => 16
  | 0x0011 => 112
  | 0x0012 => 48
  | 0x0013 => 64
  | 0x0014 => 4
  | 0x0015 => 144
  | _ => 0

/-- The records of a section's data. -/
def records (n : Nat) : Nat → List Byte → List (List Byte)
  | 0, _ => []
  | k + 1, l => if l = [] then [] else l.take n :: records n k (l.drop n)

/-- A section's records. -/
def Section.recs (x : Section) : List (List Byte) := records (recordSize x.ty) (x.data.length) x.data

/-- A section that its image's kind does not allow, outside the image, or not made of whole records; `hue` says that the image
is a hue image. -/
def sectionBad (hue : Bool) (b : List Byte) (k : Nat) : Bool :=
  let h := 64 + 16 * k
  let ty := le16 b h
  let off := le32 b (h + 4)
  let len := le32 b (h + 8)
  let size := recordSize ty
  size == 0 || (decide (0x10 ≤ ty) != hue) || off % 16 != 0 || decide (imgLength b < off + len) ||
    (ty != 0x15 && len % max 1 size != 0) || (ty == 0x01 && decide (16384 < le16 b (h + 2) + len / 16)) ||
    (ty == 0x10 && len != 16)

/-- Code 2 of R157. -/
def headerBad (hue : Bool) (b : List Byte) (limit : Nat) : Bool :=
  le32 b 0 != 0x494D4B53 || le16 b 4 != 1 || (if hue then imgKind b != 2 else imgKind b != 1 && imgKind b != 3) ||
    decide (imgLength b < 64) || decide (1048576 < imgLength b) || decide (limit < imgLength b) ||
    decide (imgSections b < 1) || decide (64 < imgSections b) || decide (imgLength b < 64 + 16 * imgSections b) ||
    (List.range (imgSections b)).any (sectionBad hue b)

/-- Code 3 of R157. -/
def crcBad (b : List Byte) : Bool :=
  let b := b.take (imgLength b)
  crc32 (splice b 20 [0, 0, 0, 0]) != imgCrc b ||
    (List.range (imgSections b)).any (fun k => crc32 (imgSection b k).data != le32 b (64 + 16 * k + 12))

/-- Code 9 of R157. -/
def bankBad (b : List Byte) : Bool :=
  (imgSectionList b).any (fun x => x.ty == 2 && (decide (x.addr < 256) || decide (1024 < x.addr + x.data.length / 2)))

/-- Code 4 of R157. -/
def encodingBad (b : List Byte) : Bool :=
  (imgSectionList b).any (fun x =>
    if x.ty = 1 then x.recs.any (fun r => wordBad (leNat r)) else if x.ty = 2 then x.recs.any (fun r => bit (leNat r) 14) else false)

/-- A section applied to a content (R155, R156). -/
def applySection (g : Golden) (x : Section) : Golden :=
  if x.ty = 1 then { g with words := (x.recs.zipIdx).foldl (fun t p => tset 0 t (x.addr + p.2) (leNat p.1)) g.words }
  else if x.ty = 2 then { g with disp := (x.recs.zipIdx).foldl (fun t p => tset 0 t (x.addr + p.2) (leNat p.1)) g.disp }
  else g

/-- The ENTRY list of an image; a patch without one keeps the base's. -/
def imgEntries (b : List Byte) (base : List Nat) : List Nat :=
  let xs := (imgSectionList b).filter (fun x => x.ty == 3)
  if xs = [] ∧ imgKind b = 3 then base else xs.flatMap (fun x => x.recs.map leNat)

/-- The content that an image produces over a base content. -/
def imgContent (b : List Byte) (base : Golden) : Golden :=
  let start : Golden := if imgKind b = 3 then base else ⟨0, [], [], []⟩
  let g := (imgSectionList b).foldl applySection start
  { g with image := imgId b, entries := imgEntries b base.entries }

/-- The store CRC of a content (R155). -/
def storeCrc (g : Golden) : Nat :=
  crc32 ((List.range 16384).flatMap (fun a => leBytes 16 (tget 0 g.words a)) ++
    (List.range 768).flatMap (fun i => leBytes 2 (tget 0 g.disp (256 + i))))

/-- The golden copy of an image (R158). -/
def State.golden (s : State) (image : Nat) : Golden := (s.sk.golden.find? (fun g => g.image = image)).getD ⟨image, [], [], []⟩

/-- A place of `repairing` that names a bank-0 entry, which is rewritten from the hue shadow and not by a reload (R163). -/
def isBank0 (i : Nat) : Bool := decide (65536 ≤ i) && decide (i < 65792)

/-- A load or reload of a clutch runs. -/
def State.loading (s : State) (c : Nat) : Bool := s.sk.loads.any (fun l => l.clutch = c) || (s.cs c).repairing.any (fun i => !isBank0 i)

/-- The checks of R157 in their order on an image of which at most `limit` bytes are there: the code, or the content. -/
def loadCheck (s : State) (c : Nat) (b : List Byte) (limit : Nat) : Except Nat Golden :=
  let held := s.rd Objs.clutch_image c
  let base := s.golden held
  if s.rd Objs.clutch_state c ≠ 2 then .error 1
  else if s.loading c then .error 8
  else if headerBad false b limit then .error 2
  else if crcBad b then .error 3
  else if bankBad b then .error 9
  else if encodingBad b then .error 4
  else if imgKind b = 3 ∧ imgBase b ≠ held then .error 5
  else
    let g := imgContent b base
    if g.image / 65536 = held / 65536 ∧ (base.entries.any (fun e => !g.entries.contains e)) = true then .error 6
    else if storeCrc g ≠ imgStoreCrc b then .error 7
    else .ok g

/-! ## Image sources (R159, R455) -/

/-- Bytes of the image buffer. DESIGN CHOICE: a byte whose pseudo-channel answers MEM_FROZEN reads 0 here, so that the image's CRC fails
(R157); the spec gives the load no other code. -/
def bufRead (s : State) (off n : Nat) : List Byte :=
  (List.range n).map (fun i => if s.pcRefuses (bufferPc (off + i)) then 0 else tget 0 s.sk.buffer (off + i))

/-- The image at cs_load_source of a context: its bytes and how many there can be. -/
def loadSource (s : State) (c : Ctx) : List Byte × Nat :=
  if s.rdCtx c Objs.cs_load_source = 0 then
    (bufRead s 0 (min 1048576 (imgLength (bufRead s 0 64))), 1048576)
  else
    let a := s.rdCtx c Objs.cs_load_addr
    (swRead s a (min (swSize - a) (min 1048576 (imgLength (swRead s a 64)))), swSize - a)

/-- Another context holds the image buffer. -/
def State.bufClaimed (s : State) (c : Ctx) : Bool :=
  match s.sk.bufClaim with
  | some (k, _) => k != ctxCode c
  | none => false

/-- A context's claim of the image buffer ends. -/
def State.endClaim (s : State) (c : Nat) : State :=
  match s.sk.bufClaim with
  | some (k, _) => if k = c then { s with sk := { s.sk with bufClaim := none } } else s
  | none => s

/-- The refusals of a cs_buf_data write. -/
def bufCheck (c : Ctx) : Nat → State → Code := fun _ s =>
  if 1048576 ≤ s.rdCtx c Objs.cs_buf_offset then .range else refuseIf (s.bufClaimed c) .busy

/-- A cs_buf_data write: 256 bytes at the offset, which goes on by 256 (R159, R455); a pseudo-channel that answers MEM_FROZEN takes none. -/
def bufApply (c : Ctx) (v : List Byte) (s : State) : State :=
  let o := s.rdCtx c Objs.cs_buf_offset
  let buffer := if s.pcRefuses (bufferPc o) then s.sk.buffer else swStore s.sk.buffer o v
  let s1 : State := { s with sk := { s.sk with buffer := buffer, bufClaim := some (ctxCode c, s.fNs) } }
  s1.wrCtx c Objs.cs_buf_offset 0 (o + 256)

/-- The meaning of CS_BUF_DATA. -/
def execCsBufData (c : Ctx) (v : List Byte) (s : State) : Out :=
  .next (writeObj c Objs.cs_buf_data 0 v (bufCheck c) (fun _ => bufApply c v) s)

/-- IMAGE_BUFFER_CLAIM_EXPIRY (R455). -/
def claimExpiry (s : State) : State :=
  match s.sk.bufClaim with
  | some (_, t) => if s.elapsed t 10000000000 then { s with sk := { s.sk with bufClaim := none } } else s
  | none => s

/-- The meaning of IMAGE_BUFFER_CLAIM_EXPIRY. -/
def execImageBufferClaimExpiry (s : State) : Out := .next (claimExpiry s)

/-! ## Loading a clutch (R157, R158) -/

/-- R455 on cs_load and hue_image_load. -/
def claimCheck (c : Ctx) : Nat → State → Code := fun _ s =>
  refuseIf (s.rdCtx c Objs.cs_load_source == 0 && s.bufClaimed c) .busy

/-- A load starts: the image's checks have passed. -/
def State.startLoad (s : State) (c : Nat) (g : Golden) (ring ctx : Option Nat) : State :=
  { s with sk := { s.sk with loads := s.sk.loads ++ [⟨c, g, ring, ctx⟩] } }

/-- A cs_load through a dictionary context. -/
def csLoadApply (c : Ctx) (x : Nat) (s : State) : State :=
  let (b, limit) := loadSource s c
  match loadCheck s x b limit with
  | .error k => (s.setResult c (Objs.cs_load.key 0) k).endClaim (ctxCode c)
  | .ok g => (s.startRun c (Objs.cs_load.key 0) 8).startLoad x g none (some (ctxCode c))

/-- R158: the stored form of a content; bank 0 stays, and so do the rewrites from the hue shadow that its entries wait for (R163). -/
def storeOf (old : ClutchStore) (g : Golden) : ClutchStore :=
  let bank0 := trange old.disp 0 256
  let bank := (g.disp.map (fun p => (p.1, entryOf (bit p.2 15) (p.2 % 2 ^ 14)))).filter (fun p => decide (256 ≤ p.1 ∧ p.2 ≠ 0))
  { old with words := (g.words.map (fun p => (p.1, withPar p.2))).filter (fun p => decide (p.2 ≠ 0)),
             disp := bank0 ++ bank, entries := g.entries, repairing := old.repairing.filter isBank0 }

/-- New golden copies of an image hold no zeros (R158). -/
def Hbm.freshGolden (h : Hbm) (image : Nat) : Hbm := { h with goldenBad := h.goldenBad.filter (fun b => b.2.1 ≠ image) }

/-- Golden copies of images that no clutch holds are freed. -/
def State.freeGolden (s : State) : State :=
  let held := (List.range 16).map (fun c => s.rd Objs.clutch_image c)
  { s with sk := { s.sk with golden := s.sk.golden.filter (fun g => held.contains g.image || s.sk.loads.any (fun l => l.golden.image = g.image)) } }

/-- A load ends with a code for the sender that waits. -/
def State.loadEnd (s : State) (l : CsLoad) (code : Nat) : State :=
  let s1 := match l.ctx with
    | some c => (s.endRun c (Objs.cs_load.key 0) code).endClaim c
    | none => s
  match l.ring with
  | some r => s1.cmdWaitDone r .csLoad (if code = 0 then 1 else 0x800A) code
  | none => s1

/-- The content of a load reaches its clutch with clutch_image and EV084 (R158). -/
def State.loadStore (s : State) (l : CsLoad) : State :=
  let s1 := (s.setCs l.clutch (storeOf (s.cs l.clutch) l.golden)).wr Objs.clutch_image l.clutch l.golden.image
  let gs := s1.sk.golden.filter (fun g => g.image ≠ l.golden.image) ++ [l.golden]
  let s2 := ({ s1 with sk := { s1.sk with golden := gs }, hbm := s1.hbm.freshGolden l.golden.image } : State).freeGolden
  (s2.goldenWrites l.golden.image).raise 84 l.clutch

/-- The image of a load comes from the data buffer of a command entry, which the device reads twice (R431). -/
def State.hostImage (s : State) (l : CsLoad) : Bool :=
  match l.ring with
  | some r => (s.cr r).busy.any (fun b => !bit b.flags 3)
  | none => false

/-- A load whose second read ends with a PCIe error fails with DMA_ERROR and EV210 (R427); as after any failed load, the store is what it was
(R157). -/
def State.loadDmaError (s : State) (l : CsLoad) : State :=
  match l.ring with
  | some r => (s.cmdWaitDone r .csLoad 0x8006 0).raise 210 r
  | none => s

/-- CS_LOAD_DONE: how many read-backs mismatched, and how a host's image read the second time (R158, R431). -/
def csLoadDone (s : State) (c mismatches : Nat) (second : SecondRead) : State :=
  match s.sk.loads.find? (fun l => l.clutch = c) with
  | none => s
  | some l =>
    let s1 : State := { s with sk := { s.sk with loads := s.sk.loads.filter (fun x => x.clutch ≠ c) } }
    if second = .changed ∧ s.hostImage l = true then s1.loadEnd l 7
    else if second = .failed ∧ s.hostImage l = true then s1.loadDmaError l
    else if 2 ≤ mismatches then
      ((s1.setCs c (storeOf (s1.cs c) l.golden)).raise 82 c).isolateClutch c |>.loadEnd l 7
    else (s1.loadStore l).loadEnd l 0

/-- The meaning of CS_LOAD_DONE. -/
def execCsLoadDone (clutch : Fin 16) (mismatches : Fin 3) (second : SecondRead) (s : State) : Out :=
  .next (csLoadDone s clutch.val mismatches.val second)

/-! ## Bank 0 (R151) -/

/-- The ENTRY list of hue_next_image where a clutch holds that image. -/
def State.nextEntries (s : State) : Option (List Nat) :=
  ((List.range 16).find? (fun c => s.rd Objs.clutch_image c == s.nextImage)).map (fun c => (s.cs c).entries)

/-- R151: the refusals of a staged entry with value `x`. -/
def State.disp0Code (s : State) (i x : Nat) : Code :=
  let missing := match s.nextEntries with
    | some es => bit x 15 && !es.contains (x % 2 ^ 14)
    | none => false
  if bit x 14 ∨ missing = true then .range
  else refuseIf (decide (0 < wrapDiff 16 (fld (tget 0 s.hue.disp0 i) 0 16) s.hueOldest) || s.nextEntries.isNone) .state

/-- R151: an entry is staged in all clutches. -/
def State.putDisp0 (s : State) (i x : Nat) : State := s.modBank0 i (fun e => entryStage e s.hueN (bit x 15) (x % 2 ^ 14))

/-- The meaning of DISP0_STAGE. -/
def execDisp0Stage (c : Ctx) (v : List Byte) (s : State) : Out :=
  .next (writeObj c Objs.disp0_stage 0 v (fun x s => s.disp0Code (s.rdCtx c Objs.disp_select) x)
    (fun x s => s.putDisp0 (s.rdCtx c Objs.disp_select) x) s)

/-! ## Hue images (R156, R161, R430) -/

/-- The refusal code of a record that finds no free slot (TABLE_FULL, R72). -/
def tableFull : Nat := 9

/-- Stage where the code is OK. -/
def stageIf (k : Code) (s : State) : Except Nat State := if k = .ok then .ok s else .error k.num

/-- A record of RULES: a new rule, or a retirement (R72). -/
def stageRule (s : State) (r : List Byte) : Except Nat State :=
  let i := le32 r 0
  let h := hdrClean true (leNat (slice r 8 8))
  if reservedBad (Objs.rule_header.key 0) (leNat (slice r 8 8)) || reservedBad (Objs.rule_action.key 0) (leNat (slice r 96 16)) then
    .error Code.type.num
  else if 131072 ≤ i then .error Code.range.num
  else if hdrValid (s.rule i).header then stageIf (s.ruleCode i h) (s.putRuleHeader i h)
  else if s.ruleCode i h = .ok then
    let s1 := (s.putRulePart i 0 (leNat (slice r 16 40))).putRulePart i 1 (leNat (slice r 56 40))
    .ok ((s1.putRulePart i 2 (rulePartClean 2 (leNat (slice r 96 16)))).putRuleHeader i h)
  else .error (s.ruleCode i h).num

/-- A record of PATSETS. -/
def stageSet (s : State) (r : List Byte) : Except Nat State :=
  let i := le32 r 0
  let h := hdrClean false (leNat (slice r 8 8))
  let d := leNat (slice r 16 8)
  let x := leNat (slice r 24 32)
  if reservedBad (Objs.pat_set_header.key 0) (leNat (slice r 8 8)) || reservedBad (Objs.pat_set_desc.key 0) d ||
      reservedBad (Objs.pat_set_extract.key 0) x then .error Code.type.num
  else if 64 ≤ i then .error Code.range.num
  else
    let t := s.patSet i
    if hdrValid t.header then stageIf (stageCode t.header s.hueN h true .ok) (s.setPatSet i { t with header := h })
    else if descBad d ∨ extractBad x = true then .error Code.range.num
    else stageIf (stageCode t.header s.hueN h true (s.setRefused d)) (s.setPatSet i ⟨h, [d, x]⟩)

/-- A record of RECTMPL (R213). DESIGN CHOICE (log 67): the section need not hold whole records; a short last one is staged with its missing
bytes as 0. -/
def stageTmpl (s : State) (r : List Byte) : Except Nat State :=
  let num := le32 r 0
  let d := leNat (slice r 8 136)
  if reservedBad (Objs.tmpl_desc.key 0) d then .error Code.type.num
  else if le32 r 4 ≠ 136 ∨ tmplNum d ≠ num ∨ ageBad d = true then .error Code.range.num
  else
    match (List.range 64).find? (fun i => !hdrValid (s.tmplSlot i).header) with
    | none => .error tableFull
    | some i =>
      let old := s.fsu.tmpls.find? (fun p => visible p.2.header s.hueN && tmplNum (p.2.body.getD 0 0) == num)
      let s1 := match old with
        | some (j, t) => s.setTmplSlot j { t with header := setFld (setFld t.header 61 1 0) 16 16 s.hueN }
        | none => s
      .ok (s1.setTmplSlot i ⟨2 ^ 63 + 2 ^ 61 + s.hueN, [d]⟩)

/-- One record of a hue image, as the RWH writes of its object would stage it. -/
def stageRecord (s : State) (ty : Nat) (r : List Byte) : Except Nat State :=
  match ty with
  | 0x0010 =>
    let x := leNat (r.take 16)
    if reservedBad (Objs.hue_miss_action.key 0) x then .error Code.type.num else .ok (s.stageValue 1 x)
  | 0x0011 => stageRule s r
  | 0x0012 =>
    let w := le32 r 0
    if 229376 ≤ w then .error Code.range.num else stageIf (refuseIf (s.wordTaken w) .state) (s.putWord w (leNat (slice r 16 32)))
  | 0x0013 => stageSet s r
  | 0x0014 =>
    let i := le16 r 0
    if 256 ≤ i then .error Code.range.num else stageIf (s.disp0Code i (le16 r 2)) (s.putDisp0 i (le16 r 2))
  | _ => stageTmpl s r

/-- Records staged in order: the state, and where and why it stopped. -/
def stageRecords (ty : Nat) : Nat → List (List Byte) → State → State × Option (Nat × Nat)
  | _, [], s => (s, none)
  | k, r :: rest, s =>
    match stageRecord s ty r with
    | .ok s1 => stageRecords ty (k + 1) rest s1
    | .error e => (s, some (k, e))

/-- Sections staged in order: the state, and the value of hue_load_fail where a record was refused. DESIGN CHOICE (log 67): sections and
records are numbered from 0. -/
def stageSections : Nat → List Section → State → State × Option Nat
  | _, [], s => (s, none)
  | n, x :: rest, s =>
    match stageRecords x.ty 0 x.recs s with
    | (s1, none) => stageSections (n + 1) rest s1
    | (s1, some (k, e)) => (s1, some (n * 2 ^ 24 + k % 2 ^ 16 * 2 ^ 8 + e))

/-- R161: a hue image is checked and staged: the state and the result. -/
def stageImage (s : State) (b : List Byte) (limit : Nat) : State × Nat :=
  if headerBad true b limit then (s, 2)
  else if crcBad b then (s, 3)
  else if s.bank0Staged then (s.wr Objs.hue_load_fail 0 Code.state.num, 10)
  else
    match stageSections 0 (imgSectionList b) (s.stageValue 0 (imgId b)) with
    | (s1, none) => (s1, 0)
    | (s1, some f) => (s1.wr Objs.hue_load_fail 0 f, 10)

/-- A run of staging goes on until a tick ends it. -/
def State.startStage (s : State) (ctx ring : Option Nat) (status result : Nat) : State :=
  { s with hue := { s.hue with staging := s.hue.staging ++ [⟨ctx, ring, status, result⟩] } }

/-- A run of staging ends: its context reads the result, or its entry completes (R161, R430). -/
def State.stageEnd (s : State) (x : StageRun) : State :=
  let s1 := match x.ctx with
    | some c => (s.endRun c (Objs.hue_image_load.key 0) x.result).endClaim c
    | none => s
  match x.ring with
  | some r =>
    let s2 := s1.cmdWaitDone r .stage x.status x.result
    if x.status = 0x8006 then s2.raise 210 r else s2
  | none => s1

/-- What a tick does for the runs of staging: they end. -/
def State.stageTick (s : State) : State :=
  s.hue.staging.foldl State.stageEnd { s with hue := { s.hue with staging := [] } }

/-- A hue_image_load through a dictionary context: an image that fails a check stages nothing; otherwise the load runs until a tick
ends it. -/
def hueLoadApply (c : Ctx) (_ : Nat) (s : State) : State :=
  let (b, limit) := loadSource s c
  let (s1, k) := stageImage s b limit
  if headerBad true b limit ∨ crcBad b = true ∨ s.bank0Staged = true then
    (s1.setResult c (Objs.hue_image_load.key 0) k).endClaim (ctxCode c)
  else (s1.startRun c (Objs.hue_image_load.key 0) Code.busy.num).startStage (some (ctxCode c)) none 0 k

/-- The meaning of HUE_IMAGE_LOAD. -/
def execHueImageLoad (c : Ctx) (v : List Byte) (s : State) : Out :=
  .next (writeObj c Objs.hue_image_load 0 v (claimCheck c) (hueLoadApply c) s)

/-! ## Repair (R163, R164) -/

/-- The damaged bank-0 entries of a clutch are rewritten from the hue shadow, of which a copy must answer (R404). -/
def repairBank0 (s : State) (c : Nat) : State :=
  let x := s.cs c
  let mine := x.repairing.filter (fun i => isBank0 i && s.shadowRead 3 (i - 65536) .first != .neither)
  let disp := mine.foldl (fun t i => tset 0 t (i - 65536) (tget 0 s.hue.disp0 (i - 65536))) x.disp
  s.setCs c { x with disp := disp, repairing := x.repairing.filter (fun i => !mine.contains i) }

/-- The reloads of a store that run (R163, R164): one, and one more from the other copy after a mismatch where `other` says that it can be
read. -/
def reloadsRun (copy : CopyRead) (other : Bool) (mismatches : Nat) : Nat :=
  match copy with
  | .first => if mismatches = 0 ∨ other = false then 1 else 2
  | .second => 1
  | .neither => 0

/-- R164: the reloads of a store fail: no copy can be read, the second reload mismatches, or the first does and there is no other copy. -/
def reloadFails (copy : CopyRead) (other : Bool) (mismatches : Nat) : Bool :=
  match copy with
  | .first => decide (2 ≤ mismatches) || (decide (mismatches = 1) && !other)
  | .second => decide (1 ≤ mismatches)
  | .neither => true

/-- R163, R164: a clutch's store is reloaded from the golden copy that can be read, and its CRC compared; each reload that runs counts. `found`
is the copy whose CRC is good; a copy of which a pseudo-channel answers MEM_FROZEN cannot be read. -/
def reloadClutch (s : State) (c : Nat) (found : CopyRead) (mismatches : Nat) : State :=
  let image := s.rd Objs.clutch_image c
  let copy := s.goldenRead image found
  let other := s.goldenServes 3 image
  let s1 := if copy = .second then s.raise 86 0 0 (s.goldenRefused 1) c else s
  let s2 := s1.bump Objs.cs_reloads c (reloadsRun copy other mismatches)
  if reloadFails copy other mismatches then
    let s3 := s2.setCs c { s2.cs c with repairing := (s2.cs c).repairing.filter isBank0 }
    (s3.raise 82 c).isolateClutch c
  else s2.setCs c (storeOf (s2.cs c) (s2.golden (s2.rd Objs.clutch_image c)))

/-- CS_REPAIR_DONE: the golden copy read, and how many compares of the store CRC mismatched. -/
def csRepair (s : State) (c : Nat) (copy : CopyRead) (mismatches : Nat) : State :=
  let s1 := repairBank0 s c
  if (s1.cs c).repairing.all isBank0 then s1 else reloadClutch s1 c copy mismatches

/-- The meaning of CS_REPAIR_DONE. -/
def execCsRepairDone (clutch : Fin 16) (copy : CopyRead) (mismatches : Fin 3) (s : State) : Out :=
  .next (csRepair s clutch.val copy mismatches.val)

end Sys2Proof.Machine
end

