-- ==== Sys2Proof/Machine/Rings.lean ====
section
/-! DEFINITION. The host interface (chapter 15): doorbells, ring control, delivery, ring-level errors, and its resets. -/

namespace Sys2Proof.Machine

/-! ## Contexts that end (R454) -/

/-- A context ends: its path-local instances return to their defaults, its locks are released, its claim of the image buffer
ends, and it has started no execution. -/
def State.ctxEnd (s : State) (n : Nat) : State :=
  let d := { s.dict with locals := tclear s.dict.locals (n * 2 ^ 24) (2 ^ 24), results := tclear s.dict.results (n * 2 ^ 24) (2 ^ 24),
                         running := s.dict.running.filter (fun p => p.ctx ≠ n) }
  let t : State := { s with dict := d }
  (t.dropLocks (.dict n)).endClaim n

/-! ## Delivery rings -/

/-- A delivery ring. -/
def State.dr (s : State) (r : Nat) : DelRing := tget DelRing.init s.host.del r

/-- Replace a delivery ring. -/
def State.setDr (s : State) (r : Nat) (x : DelRing) : State :=
  { s with host := { s.host with del := tset DelRing.init s.host.del r x } }

/-- BR_LOG2_SIZE gives the size of the buffer ring. -/
def bufSize (ctrl : Nat) : Nat := 2 ^ fld ctrl 3 5

/-- COAL_COUNT; 0 acts as 1. -/
def coalCount (ctrl : Nat) : Nat := max 1 (fld ctrl 24 8)

/-- R438: an item is dropped; a punted packet ends its hue's count. -/
def State.dropDelivery (s : State) (it : DItem) : State :=
  let x := s.dr it.ring
  let s1 := ((s.setDr it.ring { x with drops := min (x.drops + 1) 65535 }).bump Objs.dlv_drop it.ring).raise 211 it.ring
  match it.pid with
  | some p => s1.holdEnd p
  | none => s1

/-- Every item that waits for a delivery ring, or is held in one, is dropped. -/
def State.dropAllItems (s : State) : State :=
  let held := s.host.del.flatMap (fun p => p.2.hold)
  let waiting := s.host.items
  let del := (s.host.del.map (fun p => (p.1, { p.2 with hold := [] }))).filter (fun p => decide (p.2 ≠ DelRing.init))
  let t : State := { s with host := { s.host with del := del, items := [] } }
  (held ++ waiting).foldl (fun (s : State) it => s.dropDelivery it) t

/-- A free delivery entry and a buffer. -/
def delSpace (x : DelRing) : Bool :=
  decide ((x.p + 2 ^ 32 - x.h) % 2 ^ 32 < ringSize x.ctrl) && decide (x.pb ≠ x.p)

/-- A delivery entry (R437). -/
def delEntry (it : DItem) (cookie len kind flags drops : Nat) : Nat :=
  cookie * 2 ^ 192 + it.inTs * 2 ^ 96 + it.hue * 2 ^ 80 + it.opcode * 2 ^ 72 + it.inPort * 2 ^ 64 + it.reason * 2 ^ 56 +
    len * 2 ^ 32 + kind * 2 ^ 24 + flags * 2 ^ 16 + drops

/-- An item without data, for a BAD_BUFFER entry. -/
def DItem.none (ring : Nat) : DItem := ⟨ring, 0, [], 0, 0, 0, 0, 0, Option.none, 0⟩

/-- The entry at P is written, and P published (R437). -/
def State.publish (s : State) (r e : Nat) : State :=
  let x := s.dr r
  let p := (x.p + 1) % 2 ^ 32
  let s1 := (s.put (.hostWrite (entryAddr x.base x.ctrl x.p) (leBytes 32 e))).put (.hostWrite x.wb (leBytes 4 p))
  s1.setDr r { x with p := p, drops := 0 }

/-- An unsignalled item counts; at COAL_COUNT the vector is raised (R437). -/
def State.signal (s : State) (r : Nat) : State :=
  let x := s.dr r
  let since := if x.unsig = 0 then s.fNs else x.unsigSince
  if bit x.ctrl 23 ∧ coalCount x.ctrl ≤ x.unsig + 1 then (s.setDr r { x with unsig := 0, unsigSince := 0 }).msix (fld x.ctrl 16 7)
  else s.setDr r { x with unsig := x.unsig + 1, unsigSince := since }

/-- An item goes into the buffer of an entry; false when the buffer is bad (R436). -/
def State.writeItem (s : State) (it : DItem) (entry : Nat) : Bool × State :=
  let r := it.ring
  let x := s.dr r
  let room := fld entry 128 32
  let cookie := fld entry 192 64
  if room < 64 ∨ 65536 < room then
    (false, (s.publish r (delEntry (DItem.none r) cookie 0 0 0 x.drops)).bump Objs.dlv_bad_buffer r)
  else
    let data := it.data.take room
    let cut := decide (room < it.data.length)
    let s1 := s.put (.hostWrite (fld entry 0 64) data)
    let s2 := (s1.publish r (delEntry it cookie data.length it.kind (b2n cut) x.drops)).bump Objs.dlv_items r
    let s3 := if cut then s2.bump Objs.dlv_truncated r else s2
    let s4 := match it.pid with
      | some p => s3.holdEnd p
      | none => s3
    (true, s4.signal r)

/-- The first item for a ring among those that arrive, and the others. -/
def takeItem (r : Nat) : List DItem → Option (DItem × List DItem)
  | [] => none
  | it :: rest =>
    if it.ring = r then some (it, rest)
    else match takeItem r rest with
      | some (x, l) => some (x, it :: l)
      | none => none

/-- The head of the hold queue goes into the next buffer, whose entry is given. -/
def deliverHeld (s : State) (r entry : Nat) (bad : Bool) (it : DItem) (rest : List DItem) : State :=
  let out := fun (t : State) => t.setDr r { t.dr r with hold := rest }
  if bad then (out s).dropDelivery it
  else match s.writeItem it entry with
    | (true, t) => out t
    | (false, t) => t

/-- An item that arrives is delivered, held or dropped (R438). -/
def deliverNew (s : State) (r entry : Nat) (bad : Bool) (it : DItem) (rest : List DItem) : State :=
  let x := s.dr r
  let out := fun (t : State) => ({ t with host := { t.host with items := rest } } : State)
  if bad ∨ x.running = false ∨ s.hostHalted = true then (out s).dropDelivery it
  else if x.hold ≠ [] ∨ delSpace x = false then
    if bit x.ctrl 1 ∨ 64 ≤ x.hold.length then (out s).dropDelivery it
    else (out s).setDr r { x with hold := x.hold ++ [it] }
  else match s.writeItem it entry with
    | (true, t) => out t
    | (false, t) => t

/-- DELIVER_ITEM: `entry` is the buffer entry at the buffers consumed, `bad` an uncorrectable error in the item (R439). -/
def deliverItem (s : State) (r entry : Nat) (bad : Bool) : State :=
  let x := s.dr r
  let fresh := match takeItem r s.host.items with
    | some (it, rest) => deliverNew s r entry bad it rest
    | none => s
  match x.hold with
  | it :: rest => if x.running && !s.hostHalted && delSpace x then deliverHeld s r entry bad it rest else fresh
  | [] => fresh

/-- The meaning of DELIVER_ITEM. -/
def execDeliverItem (ring : Fin 64) (entry : BitVec 256) (bad : Bool) (s : State) : Out :=
  .next (deliverItem s ring.val entry.toNat bad)

/-- DELIVERY_HOLD_EXPIRY. -/
def dlvHoldExpiry (s : State) (r : Nat) : State :=
  let x := s.dr r
  match x.hold with
  | it :: rest =>
    if s.elapsed it.arrived (x.holdLimit * 1000) then (s.setDr r { x with hold := rest }).dropDelivery it else s
  | [] => s

/-- The meaning of DELIVERY_HOLD_EXPIRY. -/
def execDeliveryHoldExpiry (ring : Fin 64) (s : State) : Out := .next (dlvHoldExpiry s ring.val)

/-- DELIVERY_COAL_TIMER; while the function is HALTED, the message is held pending (R440). -/
def coalTimer (s : State) (r : Nat) : State :=
  let x := s.dr r
  if x.running ∧ bit x.ctrl 23 ∧ 0 < x.unsig ∧ s.elapsed x.unsigSince x.coalTime then
    (s.setDr r { x with unsig := 0, unsigSince := 0 }).msix (fld x.ctrl 16 7)
  else s

/-- The meaning of DELIVERY_COAL_TIMER. -/
def execDeliveryCoalTimer (ring : Fin 64) (s : State) : Out := .next (coalTimer s ring.val)

/-! ## Ring-level errors (R439) -/

/-- Injected frames that the parser or step 9 has not accepted are not sent. -/
def State.dropInjected (s : State) : State :=
  let gone := s.tm.items.filter (fun it => it.inject.isSome)
  let inq := (s.ports.inq.map (fun p => (p.1, p.2.filter (fun k => k.inject.isNone)))).filter (fun p => decide (p.2 ≠ []))
  let t : State := { s with ports := { s.ports with inq := inq }, tm := { s.tm with items := s.tm.items.filter (fun it => it.inject.isNone) } }
  gone.foldl (fun (s : State) it => s.holdEnd it.pid) t

/-- Effects still to come no longer belong to a ring: what was in execution completes them, and nothing is reported. -/
def State.forgetRings (s : State) : State :=
  let isRing : Owner → Bool := fun o => match o with
    | .ring _ => true
    | .dict _ => false
  let f := { s.fsu with flushes := s.fsu.flushes.map (fun x => if isRing x.owner then { x with owner := .dict 31 } else x),
                        locks := s.fsu.locks.map (fun l => if isRing l.owner && l.ins.isSome then { l with owner := .dict 31 } else l) }
  let own : MacFlush → MacFlush := fun x => match x.owner with
    | some (.ring _) => { x with owner := none }
    | _ => x
  let t := { s.tbl with flush := s.tbl.flush.map own, flushWait := s.tbl.flushWait.map own }
  let k := { s.sk with loads := s.sk.loads.map (fun l => { l with ring := none }) }
  let h := { s.hue with staging := s.hue.staging.map (fun x => { x with ring := none }) }
  let inq := s.ports.inq.map (fun p => (p.1, p.2.map (fun k => { k with inject := none })))
  let tm := { s.tm with items := s.tm.items.map (fun it => { it with inject := none }),
                        flights := s.tm.flights.map (fun p => (p.1, { p.2 with inject := none })) }
  { s with fsu := f, tbl := t, sk := k, hue := h, ports := { s.ports with inq := inq }, tm := tm }

/-- R432: every ring's locks are released. -/
def State.releaseAll (s : State) : State := (List.range 64).foldl (fun (s : State) r => s.releaseRing r) s

/-- R439: a ring-level error. -/
def State.hostHalt (s : State) (cause ring : Nat) : State :=
  if s.hostHalted then s
  else
    let s1 := ((s.wr Objs.hi_halt_cause 0 cause).wr Objs.hi_halt_ring 0 ring).wr Objs.hi_halt_time 0 s.wStamp
    let s2 := ((s1.bump Objs.hi_halts).raise 208 0).msix (s1.rd Objs.err_vector)
    let s3 := (s2.wr Objs.hi_state 0 1).releaseAll
    let s4 : State := { s3 with host := { s3.host with cmd := s3.host.cmd.map (fun p => (p.1, { p.2 with busy := none })) } }
    s4.dropInjected.forgetRings.dropAllItems

/-- hi_halt_ring of a delivery or buffer ring. -/
def dlvRing (r : Nat) : Nat := 128 + r

/-- PCIE_COMPLETION_TIMEOUT: a read of ring memory fails, or the ring state has an uncorrectable error (R439). -/
def ringFault (s : State) (r : Nat) (dlv : Bool) (f : RingFault) : State :=
  let ring := if dlv then dlvRing r else r
  let reads := if dlv then (s.dr r).running && decide ((s.dr r).pb ≠ (s.dr r).p)
    else decide ((s.cr r).st = .running) && decide ((s.cr r).h ≠ (s.cr r).p)
  match f with
  | .ur => if reads then s.aerUncorr.hostHalt 5 ring else s
  | .ca => if reads then s.aerUncorr.hostHalt 6 ring else s
  | .poisoned => if reads then s.aerUncorr.hostHalt 7 ring else s
  | .timeout => if reads then s.aerUncorr.hostHalt 8 ring else s
  | .state => (s.raise 219 0).hostHalt 9 ring
  | .corrected => s.raise 218 0
  | .aer => ({ s with host := { s.host with pcie := { s.host.pcie with aerCorr := true } } } : State).raise 220 0

/-- The meaning of PCIE_COMPLETION_TIMEOUT. -/
def execPcieCompletionTimeout (ring : Fin 64) (delivery : Bool) (fault : RingFault) (s : State) : Out :=
  .next (ringFault s ring.val delivery fault)

/-! ## Doorbells (R421) -/

/-- A doorbell that is ignored. -/
def State.dbIgnored (s : State) (r unit : Nat) : State := (s.bump Objs.db_ignored r).raise 216 unit

/-- CR_DOORBELL. -/
def crDoorbell (s : State) (r d : Nat) : State :=
  let x := s.cr r
  if x.st ≠ .running ∨ s.hostHalted = true then s
  else if wrapDiff 32 d x.p < 0 then s.dbIgnored r r
  else if ringSize x.ctrl < (d + 2 ^ 32 - x.h) % 2 ^ 32 then s.hostHalt 1 r
  else s.setCr r { x with p := d }

/-- The meaning of CR_DOORBELL. -/
def execCrDoorbell (ring : Fin 64) (value : BitVec 32) (s : State) : Out := .next (crDoorbell s ring.val value.toNat)

/-- DR_DOORBELL. -/
def drDoorbell (s : State) (r d : Nat) : State :=
  let x := s.dr r
  if x.running = false ∨ s.hostHalted = true then s
  else if wrapDiff 32 d x.h < 0 then s.dbIgnored r (dlvRing r)
  else if 0 < wrapDiff 32 d x.p then s.hostHalt 2 (dlvRing r)
  else s.setDr r { x with h := d }

/-- The meaning of DR_DOORBELL. -/
def execDrDoorbell (ring : Fin 64) (value : BitVec 32) (s : State) : Out := .next (drDoorbell s ring.val value.toNat)

/-- BR_DOORBELL. -/
def brDoorbell (s : State) (r d : Nat) : State :=
  let x := s.dr r
  if x.running = false ∨ s.hostHalted = true then s
  else if wrapDiff 32 d x.pb < 0 then s.dbIgnored r (dlvRing r)
  else if bufSize x.ctrl < (d + 2 ^ 32 - x.p) % 2 ^ 32 then s.hostHalt 3 (dlvRing r)
  else s.setDr r { x with pb := d }

/-- The meaning of BR_DOORBELL. -/
def execBrDoorbell (ring : Fin 64) (value : BitVec 32) (s : State) : Out := .next (brDoorbell s ring.val value.toNat)

/-! ## Ring control (R422, R423, R434, R435) -/

/-- A ring size that R423 allows. -/
def log2Ok (n : Nat) : Bool := decide (6 ≤ n) && decide (n ≤ 16)

/-- R434: a write of ENABLE = 0; `posted` are the FLAGS of the entries not started, from the oldest. -/
def crStop (s : State) (r : Nat) (posted : List Nat) : State :=
  let x := s.cr r
  if x.st ≠ .running ∨ s.hostHalted = true ∨ bit x.ctrl 1 = false then s
  else
    let s1 := s.setCr r { x with st := .stopping, posted := posted }
    match x.busy with
    | none => s1.finishStop r
    | some b =>
      if b.wait = .lock then
        let f := { s1.fsu with locks := s1.fsu.locks.filter (fun l => l.granted || decide (l.owner ≠ .ring r)) }
        let s2 : State := { s1 with fsu := f }
        (s2.bump Objs.cmd_aborted r).cmdComplete r 0x80FF 0 b.flags
      else s1

/-- The meaning of CR_STOP. -/
def execCrStop (ring : Fin 64) (posted : List (BitVec 8)) (s : State) : Out :=
  .next (crStop s ring.val (posted.map (·.toNat)))

/-- A write of a register of the PCIe function. An entry of the MSI-X table whose mask goes lets a pending message go (PRESUMED, the PCI rule);
at a HALTED function it stays pending (R440). -/
def State.hostReg (s : State) : HostReg → State
  | .msix v e =>
    let t : State := { s with host := { s.host with msixTab := tset msixReset s.host.msixTab v.val (e.toNat % 2 ^ 97) } }
    if bit s.host.msixPending v.val then (t.setPending v.val false).msix v.val else t
  | .power d => { s with host := { s.host with pcie := { s.host.pcie with d3hot := d } } }
  | .aer c u =>
    { s with host := { s.host with pcie := { s.host.pcie with aerCorr := s.host.pcie.aerCorr && !c, aerUncorr := s.host.pcie.aerUncorr && !u } } }
  | .control a b => { s with host := { s.host with pcie := { s.host.pcie with devCtl := a.toNat % 2 ^ 15, devCtl2 := b.toNat } } }
  | .mbRequest off l => s.mbWrite off.val l
  | .mbCtrl v => { s with dict := { s.dict with mbCtrl := v.toNat } }

/-- CR_CTRL as it is kept: reserved bits read 0. -/
def crCtrlClean (v : Nat) : Nat := fld v 16 8 * 2 ^ 16 + fld v 8 5 * 2 ^ 8 + fld v 0 2

/-- CR_CTRL_WRITE: CR_BASE and CR_WB_ADDR as software leaves them, then CR_CTRL. -/
def crCtrlWrite (s : State) (r base wb v : Nat) (posted : List Nat) : State :=
  let x := s.cr r
  if s.hostHalted then s
  else if x.st ≠ .disabled then (if bit v 0 then s else crStop s r posted)
  else
    let c := setFld (crCtrlClean v) 0 1 0
    let y := { x with base := base, wb := wb, ctrl := c }
    if bit v 0 = false then s.setCr r y
    else if log2Ok (fld v 8 5) = false then (s.setCr r y).raise 216 r
    else if base % 4096 ≠ 0 ∨ wb % 8 ≠ 0 then (s.setCr r y).hostHalt 4 r
    else s.setCr r { y with ctrl := c + 1, st := .running, h := 0, p := 0, posted := [] }

/-- The meaning of CR_CTRL_WRITE. -/
def execCrCtrlWrite (ring : Fin 64) (base wb : BitVec 64) (ctrl : BitVec 32) (posted : List (BitVec 8)) (regs : List HostReg)
    (s : State) : Out :=
  .next (crCtrlWrite (regs.foldl State.hostReg s) ring.val base.toNat wb.toNat ctrl.toNat (posted.map (·.toNat)))

/-- DR_CTRL as it is kept. -/
def drCtrlClean (v : Nat) : Nat := fld v 16 16 * 2 ^ 16 + fld v 3 10 * 2 ^ 3 + fld v 0 2

/-- R435: a delivery ring is disabled at once. -/
def State.drDisable (s : State) (r : Nat) : State :=
  let x := s.dr r
  let s1 := s.setDr r { x with running := false, ctrl := setFld x.ctrl 0 1 0, hold := [], unsig := 0, unsigSince := 0 }
  x.hold.foldl (fun (s : State) it => s.dropDelivery it) s1

/-- DR_CTRL_WRITE: the page's other registers as software leaves them, then DR_CTRL. The write rules of R422 hold back the
bases, the write-back address and DR_CTRL of a RUNNING ring, and not DR_HOLD_LIMIT and DR_COAL_TIME. -/
def drCtrlWrite (s : State) (r : Nat) (g : DelRegs) (v : Nat) : State :=
  let x := s.dr r
  let base := g.base.toNat
  let wb := g.wb.toNat
  let br := g.brBase.toNat
  if s.hostHalted then s
  else if x.running then
    let s1 := s.setDr r { x with holdLimit := g.holdLimit.val, coalTime := g.coalTime.val }
    if bit v 0 then s1 else s1.drDisable r
  else
    let c := setFld (drCtrlClean v) 0 1 0
    let y := { x with base := base, wb := wb, brBase := br, holdLimit := g.holdLimit.val, coalTime := g.coalTime.val, ctrl := c }
    if bit v 0 = false then s.setDr r y
    else if log2Ok (fld v 8 5) = false ∨ log2Ok (fld v 3 5) = false then (s.setDr r y).raise 216 (dlvRing r)
    else if base % 4096 ≠ 0 ∨ wb % 8 ≠ 0 ∨ br % 4096 ≠ 0 then (s.setDr r y).hostHalt 4 (dlvRing r)
    else s.setDr r { y with ctrl := c + 1, running := true, h := 0, p := 0, pb := 0, unsig := 0, unsigSince := 0 }

/-- The meaning of DR_CTRL_WRITE. -/
def execDrCtrlWrite (ring : Fin 64) (regs : DelRegs) (ctrl : BitVec 32) (s : State) : Out :=
  .next (drCtrlWrite s ring.val regs ctrl.toNat)

/-! ## Resets of the host interface (R441, R469) -/

/-- The host interface returns to its reset: rings DISABLED, locks released, the PCIe context ended, the mailbox IDLE. -/
def State.hostReset (s : State) : State :=
  let s1 := s.releaseAll.forgetRings.dropAllItems
  let s2 := (s1.wr Objs.hi_state 0 0).ctxEnd 0
  { s2 with host := s2.host.restart, dict := { s2.dict with mbStatus := 0, mbResponse := [], mbRequest := [], mbCtrl := 0, mbRun := [] } }

/-- A trigger of FLR and its event: absorbed by a reset in progress, ignored in the safe state (R526), and without a function while the core is off. -/
def State.hostTrigger (s : State) (src : Nat) : State :=
  if s.fm.safe || s.eft.kind != 0 || !s.eft.clocks then s else s.hostReset.raise src 0

/-- The meaning of FUNCTION_LEVEL_RESET. -/
def execFunctionLevelReset (s : State) : Out := .next (s.hostTrigger 213)

/-- The meaning of PCIE_LINK_DOWN. -/
def execPcieLinkDown (s : State) : Out := .next (s.hostTrigger 212)

end Sys2Proof.Machine
end

