-- ==== Sys2Proof/Machine/Commands.lean ====
section
/-! DEFINITION. The entries of command rings: their checks (R424 to R427) and what each opcode does (R428 to R431). -/

namespace Sys2Proof.Machine

/-! ## The fields of an entry (R424) -/

/-- DATA_ADDR. -/
def entAddr (e : Nat) : Nat := fld e 192 64
/-- DATA_LEN. -/
def entLen (e : Nat) : Nat := fld e 160 32
/-- PARAM. -/
def entParam (e : Nat) : Nat := fld e 96 64
/-- TARGET. -/
def entTarget (e : Nat) : Nat := fld e 88 8
/-- OPCODE. -/
def entOp (e : Nat) : Nat := fld e 72 8
/-- FLAGS. -/
def entFlags (e : Nat) : Nat := fld e 64 8
/-- PARAM[31:0]: index or cursor. -/
def entIndex (e : Nat) : Nat := fld e 96 32
/-- COUNT. -/
def entCount (e : Nat) : Nat := fld e 128 16

/-- The FLAGS that an opcode uses (R425); none for an opcode that is not in the table. -/
def opFlags (op : Nat) : Option Nat :=
  match op with
  | 0x00 => some 0x01
  | 0x01 => some 0x11
  | 0x10 => some 0x01
  | 0x11 => some 0x07
  | 0x12 => some 0x01
  | 0x13 => some 0x01
  | 0x14 => some 0x01
  | 0x15 => some 0x01
  | 0x16 => some 0x01
  | 0x17 => some 0x01
  | 0x20 => some 0x01
  | 0x21 => some 0x09
  | _ => none

/-- The PARAM bits that an opcode uses (R425, R428). -/
def opParam (op flags : Nat) : Nat :=
  match op with
  | 0x01 => if bit flags 4 then 2 ^ 54 - 1 else 0xFF
  | 0x10 => 2 ^ 48 - 1
  | 0x11 => 2 ^ 48 - 1
  | 0x12 => 2 ^ 32 - 1
  | 0x13 => 2 ^ 32 - 1
  | 0x15 => 2 ^ 32 - 1
  | 0x16 => 0xFFFF
  | 0x17 => 0xF
  | 0x20 => 0xFFFF0000FFFF
  | 0x21 => 0xF
  | _ => 0

/-- The targets that an opcode takes, with its flags (R426). -/
def targetOk (op flags target : Nat) : Bool :=
  match op with
  | 0x10 => target ∈ [1, 2, 3, 0x10, 0x11, 0x12, 0x13, 0x14, 0x15, 0x16, 0x17, 0x18, 0x19]
  | 0x11 =>
    if bit flags 1 then target == 1 && !bit flags 2
    else if bit flags 2 then target ∈ [0x10, 0x12, 0x13, 0x14]
    else target ∈ [1, 2, 3, 0x10, 0x12, 0x13, 0x14, 0x15, 0x16, 0x17, 0x18, 0x19]
  | 0x12 => target ∈ [1, 2, 3, 0x10]
  | 0x13 => target ∈ [1, 2, 3, 0x10]
  | 0x14 => target == 1
  | 0x15 => target == 2
  | 0x16 => target ∈ [1, 2, 3, 0x10]
  | 0x17 => target ∈ [1, 2, 3]
  | _ => target == 0

/-- The keyed targets of R426. -/
def keyed (target : Nat) : Bool := target == 1 || tblKeyed target

/-- The bytes of an item. -/
def itemBytes (target : Nat) : Nat := if target = 1 ∨ target = 2 then 128 else if target = 3 then 256 else tblItemBytes target

/-- How many items an indexed target has. -/
def itemLimit (target : Nat) : Nat := if target = 2 then 2 ^ 28 else if target = 3 then 2 ^ 27 else tblItems target

/-- Where the items begin in the buffer. -/
def itemBase (target : Nat) : Nat := if keyed target then 64 else 0

/-- The key of a buffer is out of range: key template, table number, or TYPE of a NAT key. -/
def keyBad (target : Nat) (key : List Byte) : Bool :=
  if target = 1 then decide (15 < (key.getD 48 0).toNat) else tblBadTarget target 0 key

/-- The bytes of the buffer that the device could read. -/
def dmaReadable (d : Dma) (n : Nat) : Nat :=
  match d with
  | .readError k => min k n
  | _ => n

/-- BAD_TARGET (R427). -/
def badTarget (s : State) (e : Nat) (buf : List Byte) (dma : Dma) : Bool :=
  let op := entOp e
  let t := entTarget e
  !targetOk op (entFlags e) t ||
    (match op with
    | 0x01 => s.portMode (fld (entParam e) 0 8) == 0 || s.link (fld (entParam e) 0 8) == 0
    | 0x10 => if keyed t then 64 ≤ dmaReadable dma 64 && keyBad t buf else decide (itemLimit t < max (entIndex e + 1) (entIndex e + entCount e))
    | 0x11 => if keyed t then 64 ≤ dmaReadable dma 64 && keyBad t buf else decide (itemLimit t < max (entIndex e + 1) (entIndex e + entCount e))
    | 0x12 => if keyed t then 64 ≤ dmaReadable dma 64 && keyBad t buf else decide (itemLimit t ≤ entIndex e)
    | 0x13 => if keyed t then 64 ≤ dmaReadable dma 64 && keyBad t buf else decide (itemLimit t ≤ entIndex e)
    | 0x14 => 64 ≤ dmaReadable dma 64 && keyBad t buf
    | 0x15 => decide (2 ^ 28 + 1024 < entIndex e)
    | 0x16 => decide (255 < entParam e) && !(entParam e == 0xFFFF && t == 0x10)
    | 0x20 => decide (entParam e % 65536 < 0x10) || decide (0x15 < entParam e % 65536)
    | _ => false)

/-- BAD_LENGTH (R427). -/
def badLength (s : State) (e : Nat) (buf : List Byte) (dma : Dma) : Bool :=
  let t := entTarget e
  let n := entCount e
  let len := entLen e
  let count := if keyed t then n != 1 else decide (n < 1) || decide (4096 < n)
  match entOp e with
  | 0x01 => decide (len < 60) || decide (s.rd Objs.max_frame (fld (entParam e) 0 8) - 4 < len)
  | 0x10 => count || decide (len < itemBase t + n * itemBytes t)
  | 0x11 => count || (if bit (entFlags e) 2 then len != 64 else len != itemBase t + n * itemBytes t)
  | 0x12 => keyed t && decide (len < 64)
  | 0x13 => keyed t && decide (len < 64)
  | 0x14 => decide (len < 192)
  | 0x15 => decide (len < 208)
  | 0x20 => len != n * recordSize (entParam e % 65536)
  | 0x21 => !bit (entFlags e) 3 && decide (64 ≤ dmaReadable dma 64) && len != imgLength buf
  | _ => false

/-- BAD_ALIGN (R427). -/
def badAlign (e : Nat) : Bool :=
  if entOp e = 0x01 then false
  else if entOp e = 0x21 ∧ bit (entFlags e) 3 then entAddr e % 64 != 0
  else entAddr e % 8 != 0

/-- R427: the checks in their order; none when the entry starts. -/
def cmdCheck (s : State) (e : Nat) (buf : List Byte) (dma : Dma) : Option Nat :=
  match opFlags (entOp e) with
  | none => some 0x8001
  | some f =>
    if fld e 80 8 ≠ 0 ∨ fld e 16 16 ≠ 0 ∨ entFlags e ≠ Nat.land (entFlags e) f ∨
        entParam e ≠ Nat.land (entParam e) (opParam (entOp e) (entFlags e)) then some 0x8002
    else if badTarget s e buf dma then some 0x8005
    else if badLength s e buf dma then some 0x8003
    else if badAlign e then some 0x8004
    else none

/-- A ring has work (R429): it runs, an entry is posted, and none of its entries is in execution. -/
def State.ringWork (s : State) (r : Nat) : Bool :=
  let x := s.cr r
  decide (x.st = .running) && decide (x.h ≠ x.p) && x.busy.isNone

/-- The ring that is served next: rings with work in round robin (R429). -/
def State.nextRing (s : State) : Option Nat := ((List.range 64).map (fun k => (s.host.lastRing + 1 + k) % 64)).find? s.ringWork

/-- The entry at H of a ring can start (R429): it is the ring's turn, and fewer than 16 entries are in execution on all rings. -/
def canStart (s : State) (r : Nat) : Bool :=
  decide (s.nextRing = some r) && !s.hostHalted && decide ((s.host.cmd.filter (fun p => p.2.busy.isSome)).length < 16)

/-- A ring takes the entry at H; `mine` says that the entry is the command's, `body` what it does once R427's checks have
passed. -/
def cmdStart (s : State) (r e : Nat) (buf : List Byte) (dma : Dma) (mine : Bool) (body : State → State) : State :=
  if canStart s r then
    if mine ∨ (opFlags (entOp e)).isNone = true then
      let t : State := { s with host := { s.host with lastRing := r } }
      match cmdCheck s e buf dma with
      | some code => (t.cmdComplete r code 0 (entFlags e)).raise 209 r
      | none => body t
    else s
  else s

/-- The entry in execution waits. -/
def State.cmdWait (s : State) (r e : Nat) (w : RingWait) : State :=
  s.setCr r { s.cr r with busy := some ⟨w, entFlags e, entAddr e, entLen e⟩ }

/-- DMA_ERROR (R427); AER logs the PCIe error (R415). -/
def State.cmdDmaError (s : State) (r e result : Nat) : State := (s.aerUncorr.cmdComplete r 0x8006 result (entFlags e)).raise 210 r

/-- The entry completes; an access to its buffer that failed makes it DMA_ERROR. -/
def State.cmdEnd (s : State) (r e status result : Nat) (dma : Dma) : State :=
  if dma = .good then s.cmdComplete r status result (entFlags e) else s.cmdDmaError r e result

/-- The meaning of CMD_NOP. -/
def execCmdNop (ring : Fin 64) (entry : BitVec 256) (s : State) : Out :=
  let e := entry.toNat
  .next (cmdStart s ring.val e [] .good (entOp e == 0x00) (fun s => s.cmdComplete ring.val 1 0 (entFlags e)))

/-! ## PKT_INJECT (R428) -/

/-- The metadata of a frame that enters step 9. -/
def injectMd (s : State) (param len : Nat) : Nat :=
  let p := fld param 0 8
  let m := newMd p 0 (toLin s.time.w) (len + 4)
  let m := setFld (setFld (setFld m 240 16 p) 256 3 (fld param 8 3)) 44 1 (fld param 11 1)
  setFld (setFld (setFld m 45 1 (fld param 12 1)) 304 1 (fld param 13 1)) 264 40 (fld param 14 40)

/-- What the egress pipe sees of a frame that no parser has read (R340): the network header behind the VLAN tags, and nothing above it. -/
def directPrv (tpid3 : Nat) (frame : List Byte) : Nat :=
  let o := 12 + 4 * tagCount tpid3 frame 3 12
  let et := netAt frame o 2
  let l3 := if et = 0x0800 then 1 else if et = 0x86DD then 2 else 0
  if l3 = 0 then prvAbsent else setFld (setFld prvAbsent 49 3 l3) 8 8 (o + 2)

/-- PKT_INJECT. -/
def pktInject (s : State) (r e : Nat) (buf : List Byte) (dma : Dma) : State :=
  let param := entParam e
  let frame := padTo 0 (entLen e) buf
  match dma with
  | .readError _ => s.cmdDmaError r e 0
  | _ =>
    let s1 := s.cmdWait r e .inject
    if bit (entFlags e) 4 then
      let (pid, s2) := s1.newPid
      let it : TmItem := ⟨pid, injectMd s param frame.length, directPrv (s.rd Objs.vlan_tpid3) frame, frame, frame, some r⟩
      { s2 with tm := { s2.tm with items := s2.tm.items ++ [it] } }
    else s1.enqueuePacket (fld param 0 8) (toLin s.time.w) (frame ++ leBytes 4 (crc32 frame)) (some r)

/-- The meaning of PKT_INJECT. -/
def execPktInject (ring : Fin 64) (entry : BitVec 256) (buf : List Byte) (dma : Dma) (s : State) : Out :=
  let e := entry.toNat
  .next (cmdStart s ring.val e buf dma (entOp e == 0x01) (fun s => pktInject s ring.val e buf dma))

/-! ## Tables (R237 to R243, R296, R297, R426) -/

/-- The flow target that an entry names at item `i`. -/
def flowTarget (target index : Nat) (buf : List Byte) : LockTarget :=
  match target with
  | 1 => .key (flowKeyOf (buf.take 47) (buf.getD 48 0).toNat)
  | 2 => .slot index
  | _ => .bucket index

/-- What the unit of a target has read when it serves an item. -/
def itemServed (target index : Nat) (buf : List Byte) (s : State) : State :=
  if target < 0x10 then s.served (flowTarget target index buf) else s

/-- READ of one item, as served. -/
def itemRead (s : State) (target index : Nat) (buf : List Byte) (ecc : WordEcc) : Nat × List Byte × State :=
  if target < 0x10 then
    let (k, d) := flowRead s (flowTarget target index buf)
    (k, d, s)
  else
    let (k, d, t) := softRead s target index buf ecc
    (k, leBytes (tblItemBytes target) d, t)

/-- READ of items from `i` on: the status, how many were read, their bytes, and the state. `words` tells what the read of each item's word
finds (R298). -/
def readItems (target index : Nat) (buf : List Byte) (words : List WordEcc) : Nat → Nat → State → Nat × Nat × List Byte × State
  | 0, i, s => (1, i, [], s)
  | n + 1, i, s =>
    let s := itemServed target (index + i) buf s
    match itemRead s target (index + i) buf (words.getD i .good) with
    | (1, d, s1) =>
      let (k, c, rest, t) := readItems target index buf words n (i + 1) s1
      (k, c, d ++ rest, t)
    | (k, _, s1) => (k, i, [], s1)

/-- TBL_DMA_READ. -/
def tblDmaRead (s : State) (r e : Nat) (buf : List Byte) (words : List WordEcc) (dma : Dma) : State :=
  let t := entTarget e
  if dmaReadable dma (itemBase t) < itemBase t then s.cmdDmaError r e 0
  else
    let (k, c, data, s) := readItems t (entIndex e) buf words (entCount e) 0 s
    (s.bufWrite (entAddr e + itemBase t) data dma).cmdEnd r e k c dma

/-- The meaning of TBL_DMA_READ. -/
def execTblDmaRead (ring : Fin 64) (entry : BitVec 256) (buf : List Byte) (words : List WordEcc) (dma : Dma) (s : State) : Out :=
  let e := entry.toNat
  .next (cmdStart s ring.val e buf dma (entOp e == 0x10) (fun s => tblDmaRead s ring.val e buf words dma))

/-- WRITE of one item. -/
def itemWrite (s : State) (target index : Nat) (buf data : List Byte) (o : Owner) : Nat × State :=
  if target < 0x10 then flowWrite s (flowTarget target index buf) o data
  else tblWrite s target index buf (leNat data) o

/-- WRITE of items from `i` on, of which `have'` bytes could be read: the status (DMA_ERROR where the bytes end), how many were
written, and the state. -/
def writeItems (target index : Nat) (buf : List Byte) (o : Owner) (have' : Nat) :
    Nat → Nat → State → Nat × Nat × State
  | 0, i, s => (1, i, s)
  | n + 1, i, s =>
    let off := itemBase target + i * itemBytes target
    if have' < off + itemBytes target then (0x8006, i, s)
    else match itemWrite s target (index + i) buf (padTo 0 (itemBytes target) (slice buf off (itemBytes target))) o with
      | (1, t) => writeItems target index buf o have' n (i + 1) t
      | (k, t) => (k, i, t)

/-- TBL_DMA_WRITE. -/
def tblDmaWrite (s : State) (r e : Nat) (buf : List Byte) (dma : Dma) : State :=
  match writeItems (entTarget e) (entIndex e) buf (.ring r) (dmaReadable dma (entLen e)) (entCount e) 0 s with
  | (k, c, t) => if k = 0x8006 then t.cmdDmaError r e c else t.cmdComplete r k c (entFlags e)

/-- The meaning of TBL_DMA_WRITE. -/
def execTblDmaWrite (ring : Fin 64) (entry : BitVec 256) (buf : List Byte) (dma : Dma) (s : State) : Out :=
  let e := entry.toNat
  .next (cmdStart s ring.val e buf dma (entOp e == 0x11 && !bit (entFlags e) 1 && !bit (entFlags e) 2)
    (fun s => tblDmaWrite s ring.val e buf dma))

/-- A WRITE with INSERT (R240): it may hold its ring for the lock it takes. -/
def tblDmaInsert (s : State) (r e : Nat) (buf : List Byte) (dma : Dma) : State :=
  if dmaReadable dma (entLen e) < 192 then s.cmdDmaError r e 0
  else match flowInsert s (flowKeyOf (buf.take 47) (buf.getD 48 0).toNat) (padTo 0 128 (slice buf 64 128)) (.ring r) with
    | (some k, t) => t.cmdComplete r k (b2n (k == 1)) (entFlags e)
    | (none, t) => t.cmdWait r e .insert

/-- The meaning of TBL_DMA_INSERT (R240). -/
def execTblDmaInsert (ring : Fin 64) (entry : BitVec 256) (buf : List Byte) (dma : Dma) (s : State) : Out :=
  let e := entry.toNat
  .next (cmdStart s ring.val e buf dma (entOp e == 0x11 && bit (entFlags e) 1) (fun s => tblDmaInsert s ring.val e buf dma))

/-- A WRITE with DELETE. -/
def tblDmaDelete (s : State) (r e : Nat) (buf : List Byte) (dma : Dma) : State :=
  if dmaReadable dma 64 < 64 then s.cmdDmaError r e 0
  else
    let (k, t) := tblDelete s (entTarget e) buf (.ring r)
    t.cmdComplete r k (b2n (decide (k = 1))) (entFlags e)

/-- The meaning of TBL_DMA_DELETE. -/
def execTblDmaDelete (ring : Fin 64) (entry : BitVec 256) (buf : List Byte) (dma : Dma) (s : State) : Out :=
  let e := entry.toNat
  .next (cmdStart s ring.val e buf dma (entOp e == 0x11 && !bit (entFlags e) 1 && bit (entFlags e) 2)
    (fun s => tblDmaDelete s ring.val e buf dma))

/-- TBL_LOCK: a flow lock holds its ring until its grant (R432). -/
def tblLock (s : State) (r e : Nat) (buf : List Byte) (dma : Dma) : State :=
  let t := entTarget e
  if dmaReadable dma (itemBase t) < itemBase t then s.cmdDmaError r e 0
  else if t = 0x10 then
    let (k, s1) := macLock s buf (.ring r)
    s1.cmdComplete r k 0 (entFlags e)
  else match flowLock s (flowTarget t (entIndex e) buf) (.ring r) with
    | (some k, s1) => s1.cmdComplete r k 0 (entFlags e)
    | (none, s1) => s1.cmdWait r e .lock

/-- The meaning of TBL_LOCK. -/
def execTblLock (ring : Fin 64) (entry : BitVec 256) (buf : List Byte) (dma : Dma) (s : State) : Out :=
  let e := entry.toNat
  .next (cmdStart s ring.val e buf dma (entOp e == 0x12) (fun s => tblLock s ring.val e buf dma))

/-- TBL_UNLOCK. -/
def tblUnlock (s : State) (r e : Nat) (buf : List Byte) (dma : Dma) : State :=
  let t := entTarget e
  if dmaReadable dma (itemBase t) < itemBase t then s.cmdDmaError r e 0
  else
    let (k, s1) := if t = 0x10 then macUnlock s buf (.ring r) else flowUnlock s (flowTarget t (entIndex e) buf) (.ring r)
    s1.cmdComplete r k 0 (entFlags e)

/-- The meaning of TBL_UNLOCK. -/
def execTblUnlock (ring : Fin 64) (entry : BitVec 256) (buf : List Byte) (dma : Dma) (s : State) : Out :=
  let e := entry.toNat
  .next (cmdStart s ring.val e buf dma (entOp e == 0x13) (fun s => tblUnlock s ring.val e buf dma))

/-- TBL_SEARCH. -/
def tblSearch (s : State) (r e : Nat) (buf : List Byte) (dma : Dma) : State :=
  if dmaReadable dma 64 < 64 then s.cmdDmaError r e 0
  else
    let key := flowKeyOf (buf.take 47) (buf.getD 48 0).toNat
    let s := s.served (.key key)
    let (k, img, place) := flowSearch s key
    if k = 1 then (s.bufWrite (entAddr e + 64) (leBytes 128 img) dma).cmdEnd r e 1 place dma
    else s.cmdComplete r k 0 (entFlags e)

/-- The meaning of TBL_SEARCH. -/
def execTblSearch (ring : Fin 64) (entry : BitVec 256) (buf : List Byte) (dma : Dma) (s : State) : Out :=
  let e := entry.toNat
  .next (cmdStart s ring.val e buf dma (entOp e == 0x14) (fun s => tblSearch s ring.val e buf dma))

/-- TBL_NEXT. -/
def tblNext (s : State) (r e : Nat) (dma : Dma) : State :=
  let (k, found, cursor, s) := flowNext s (entIndex e)
  let tail := leBytes 4 cursor ++ leBytes 8 (s.rd Objs.reloc_moves)
  match found with
  | some (img, p) => (s.bufWrite (entAddr e + 64) (leBytes 128 img ++ leBytes 4 p ++ tail) dma).cmdEnd r e 1 1 dma
  | none => if k = 1 then (s.bufWrite (entAddr e + 196) tail dma).cmdEnd r e 1 0 dma else s.cmdComplete r k 0 (entFlags e)

/-- The meaning of TBL_NEXT. -/
def execTblNext (ring : Fin 64) (entry : BitVec 256) (dma : Dma) (s : State) : Out :=
  let e := entry.toNat
  .next (cmdStart s ring.val e [] dma (entOp e == 0x15) (fun s => tblNext s ring.val e dma))

/-- A flow flush of a ring (R243). -/
def ringFlowFlush (s : State) (r e : Nat) (byPort : Bool) : State :=
  match s.startFlowFlush byPort (entParam e) (.ring r) with
  | some t => t.cmdWait r e .flush
  | none => s.cmdComplete r 0x800A 0 (entFlags e)

/-- TBL_FLUSH_PORT. -/
def tblFlushPort (s : State) (r e : Nat) : State :=
  if entTarget e = 0x10 then
    if s.macFlushFull then s.cmdComplete r 0x800A 0 (entFlags e)
    else (s.startMacFlush (entParam e) (some (.ring r))).cmdWait r e .flush
  else ringFlowFlush s r e true

/-- The meaning of TBL_FLUSH_PORT. -/
def execTblFlushPort (ring : Fin 64) (entry : BitVec 256) (s : State) : Out :=
  let e := entry.toNat
  .next (cmdStart s ring.val e [] .good (entOp e == 0x16) (fun s => tblFlushPort s ring.val e))

/-- The meaning of TBL_FLUSH_TEMPLATE. -/
def execTblFlushTemplate (ring : Fin 64) (entry : BitVec 256) (s : State) : Out :=
  let e := entry.toNat
  .next (cmdStart s ring.val e [] .good (entOp e == 0x17) (fun s => ringFlowFlush s ring.val e false))

/-! ## HUE_STAGE and CS_LOAD (R430, R431) -/

/-- HUE_STAGE: the entry executes until the tick that ends it. -/
def hueStage (s : State) (r e : Nat) (buf : List Byte) (dma : Dma) : State :=
  let ty := entParam e % 65536
  let size := recordSize ty
  let n := min (entCount e) (dmaReadable dma (entLen e) / size)
  match stageRecords ty 0 (records size n (padTo 0 (n * size) buf)) s with
  | (t, some (k, code)) => (t.startStage none (some r) (if code = tableFull then 0x8009 else 0x800A) (k * 256 + code)).cmdWait r e .stage
  | (t, none) => (t.startStage none (some r) (if n < entCount e then 0x8006 else 1) n).cmdWait r e .stage

/-- The meaning of HUE_STAGE. -/
def execHueStage (ring : Fin 64) (entry : BitVec 256) (buf : List Byte) (dma : Dma) (s : State) : Out :=
  let e := entry.toNat
  .next (cmdStart s ring.val e buf dma (entOp e == 0x20) (fun s => hueStage s ring.val e buf dma))

/-- CS_LOAD of a ring. -/
def ringCsLoad (s : State) (r e : Nat) (image : List Byte) (dma : Dma) : State :=
  let c := fld (entParam e) 0 4
  let region := bit (entFlags e) 3
  if region = false ∧ dmaReadable dma (entLen e) < entLen e then s.cmdDmaError r e 0
  else
    let a := entAddr e
    let limit := if region then swSize - a else entLen e
    let b := if region then swRead s a (min limit (min 1048576 (imgLength (swRead s a 64)))) else padTo 0 (min (entLen e) 1048576) image
    match loadCheck s c b limit with
    | .error k => s.cmdComplete r 0x800A k (entFlags e)
    | .ok g => (s.startLoad c g (some r) none).cmdWait r e .csLoad

/-- The meaning of CS_LOAD (R157). -/
def execCsLoad (source : LoadFrom) (s : State) : Out :=
  match source with
  | .dict c v => .next (writeObj c Objs.cs_load 0 v (claimCheck c) (csLoadApply c) s)
  | .ring r entry image dma =>
    let e := entry.toNat
    .next (cmdStart s r.val e image dma (entOp e == 0x21) (fun s => ringCsLoad s r.val e image dma))

end Sys2Proof.Machine
end

