-- ==== Sys2Proof/Machine/Debug.lean ====
section
/-! DEFINITION. Halting threads, breakpoints, the microword trace, the debug memory spaces and the lane patterns (R565 to R576). -/

namespace Sys2Proof.Machine

/-! ## Halts (R565 to R569) -/

/-- The refusals of dbg_halt and dbg_resume: bit 15 names a Skink, bits [10:0] its number or the thread's. -/
def haltCheck : Nat → State → Code := fun x _ => refuseIf (fld x 11 4 != 0 || (bit x 15 && decide (256 ≤ fld x 0 11))) .range

/-- dbg_halt. -/
def dbgHalt (x : Nat) (s : State) : State := if bit x 15 then s.haltSkink (fld x 0 11) else s.haltThread (fld x 0 11)

/-- The meaning of DBG_HALT. -/
def execDbgHalt (c : Ctx) (v : List Byte) (s : State) : Out := .next (writeObj c Objs.dbg_halt 0 v haltCheck dbgHalt s)

/-- R567: a thread's pending halt is cleared; a halted thread runs again, or passes to FREE after a forced abort. -/
def State.resumeThread (s : State) (t : Nat) : State :=
  let s1 : State := { s with dbg := { s.dbg with haltPend := s.dbg.haltPend.filter (· ≠ t) } }
  let x := s1.th t
  if x.st = .debugHalt then
    if x.forced then s1.endAbandoned t else s1.setTh t { x with st := .running, stepLeft := 0 }
  else s1

/-- dbg_resume. -/
def dbgResume (x : Nat) (s : State) : State :=
  let n := fld x 0 11
  if bit x 15 then
    let s1 : State := { s with dbg := { s.dbg with skinkHalt := s.dbg.skinkHalt.filter (· ≠ n) } }
    ((skinkThreads n).foldl State.resumeThread s1).sfRetry
  else s.resumeThread n

/-- The meaning of DBG_RESUME. -/
def execDbgResume (c : Ctx) (v : List Byte) (s : State) : Out := .next (writeObj c Objs.dbg_resume 0 v haltCheck dbgResume s)

/-- The refusals of dbg_step (R566). -/
def stepCheck : Nat → State → Code := fun x s =>
  if fld x 11 5 ≠ 0 ∨ fld x 16 16 = 0 then .range else refuseIf (decide ((s.th (fld x 0 11)).st ≠ .debugHalt)) .state

/-- dbg_step: the thread issues n words and halts again; one whose leap was force-aborted does not run again. -/
def dbgStep (x : Nat) (s : State) : State :=
  let t := fld x 0 11
  if (s.th t).forced then s else s.modTh t (fun y => { y with st := .running, stepLeft := fld x 16 16 })

/-- The meaning of DBG_STEP. -/
def execDbgStep (c : Ctx) (v : List Byte) (s : State) : Out := .next (writeObj c Objs.dbg_step 0 v stepCheck dbgStep s)

/-- HALT_LEAP_TIMEOUT: the leap of a halted thread that is still open, also one that issued no operation yet, is force-aborted (R569). -/
def haltLeapTimeout (s : State) (t : Nat) : State :=
  let x := s.th t
  if x.st = .debugHalt ∧ x.status = none ∧ x.leap.abandoned = false ∧ s.rd Objs.debug_hold_leaps = 0 ∧
      s.elapsed x.haltSince (s.rd Objs.halt_leap_timeout) = true then
    let s1 := (s.abandon t).bump Objs.leap_abandoned
    s1.modTh t (fun y => { y.setMd 40 1 1 with forced := true, status := some 3 })
  else s

/-- The meaning of HALT_LEAP_TIMEOUT. -/
def execHaltLeapTimeout (thread : Fin 2048) (s : State) : Out := .next (haltLeapTimeout s thread.val)

/-- R568: every halt, pending halt and breakpoint is cleared, and halted threads run on. -/
def State.clearDebug (s : State) : State :=
  let s1 := (s.dbg.skinkHalt.flatMap skinkThreads ++ s.sk.threads.map (·.1)).foldl State.resumeThread s
  let s2 : State := { s1 with dbg := { s1.dbg with haltPend := [], skinkHalt := [] } }
  (List.range 64).foldl (fun (s : State) b => s.wr Objs.breakpoint b 0) s2

/-! ## Breakpoints and trace (R570, R572, R574) -/

/-- The refusals of a breakpoint. -/
def bpWriteCheck : Nat → State → Code := fun x _ => refuseIf (decide (4 ≤ fld x 60 3) || fld x 58 2 == 3) .range

/-- The meaning of BREAKPOINT_WRITE: breakpoint `b` of a clutch. -/
def execBreakpointWrite (c : Ctx) (clutch : Fin 16) (b : Fin 4) (v : List Byte) (s : State) : Out :=
  .next (writeObj c Objs.breakpoint (clutch.val * 4 + b.val) v bpWriteCheck noApply s)

/-- The refusals of trace_ctrl. -/
def traceCheck (c : Nat) : Nat → State → Code := fun x _ => refuseIf (bit x 60 && clutchOf (fld x 32 11) != c) .range

/-- A write of trace_ctrl: recording goes on where a trigger or a full buffer had stopped it. -/
def traceApply (c : Nat) (s : State) : State := s.setTrace c { s.traceBuf c with left := none, stopped := false }

/-- The meaning of TRACE_CTRL_WRITE. -/
def execTraceCtrlWrite (c : Ctx) (clutch : Fin 16) (v : List Byte) (s : State) : Out :=
  .next (writeObj c Objs.trace_ctrl clutch.val v (traceCheck clutch.val) (fun _ => traceApply clutch.val) s)

/-- R574: where the oldest unexported entries start, as a trace index, and how many one record may take. Those of a discarded
record (R494) are older than every entry not offered yet. -/
def TraceBuf.oldest (b : TraceBuf) : Nat × Nat :=
  match b.again with
  | (lo, hi) :: _ => (lo, min 64 (hi - lo))
  | [] => (max b.exported b.first, 64)

/-- The buffer once its `n` oldest unexported entries are offered. -/
def TraceBuf.offered (b : TraceBuf) (n : Nat) : TraceBuf :=
  match b.again with
  | (lo, hi) :: rest => { b with again := if lo + n < hi then (lo + n, hi) :: rest else rest }
  | [] => { b with exported := max b.exported b.first + n }

/-- TRACE_EXPORT: up to 64 entries, where R483 would admit their record. -/
def traceExport (s : State) (c : Nat) : State :=
  let b := s.traceBuf c
  let chan := s.rd Objs.trace_channel
  let at0 := b.oldest.1
  let es := (b.entries.drop (at0 - b.first)).take b.oldest.2
  let n := es.length
  if bit (s.rd Objs.trace_ctrl c) 61 = false ∨ chan = 255 ∨ n = 0 then s
  else
    let body := leBytes 2 c ++ leBytes 2 n ++ leBytes 4 (at0 % 2 ^ 32) ++ leBytes 8 0 ++ es.flatMap (leBytes 16) ++
      (if n = 1 then leBytes 16 0 else [])
    if s.wouldAdmit chan (16 + body.length) then
      (s.offer chan 6 body (.trace c at0 n)).setTrace c (b.offered n)
    else s

/-- The meaning of TRACE_EXPORT. -/
def execTraceExport (clutch : Fin 16) (s : State) : Out := .next (traceExport s clutch.val)

/-! ## Memory access (R575) -/

/-- The address lies in its space. -/
def dbgAddrOk (space a : Nat) : Bool :=
  match space with
  | 0 => decide (a < 2 ^ 20) && fld a 14 2 == 0
  | 1 => decide (a < 2 ^ 20) && fld a 10 6 == 0
  | 2 => decide (a < 2048 * 4096) && a % 32 == 0 && decide (a % 4096 < 3072)
  | 3 => decide (a < 2048 * 64) && decide (a % 64 < 36)
  | 4 => decide (a < 22528 * 16 * 4)
  | _ => decide (a < 2 ^ 39) && fld a 30 2 == 0 && a % 32 == 0 && decide (fld a 0 30 < 0x30000000)

/-- The record image of the flow-cache line at a way of a set, counted in the order of the lines' keys, with LOCK as it stands (R210); 0 of an
ABSENT line. -/
def State.lineAt (s : State) (set way : Nat) : Option Nat :=
  ((s.fsu.lines.filter (fun p => !p.2.overflow && s.cacheSet p.1 == set))[way]?).map (fun p =>
    if p.2.st = .absent then 0 else setFld p.2.img 485 1 (b2n (s.flowLocked p.1)))

/-- A thread's state as item 32 gives it: the spec gives the states of R112 no numbers. -/
def thCode (x : ThState) : Nat :=
  (Config.threadCode (match x with
    | .free => 0
    | .loading => 1
    | .running => 2
    | .committing => 3
    | .debugHalt => 4)).toNat

/-- An item of a thread. -/
def thItem (x : Thread) (k : Nat) : Nat :=
  if k = 0 then 0
  else if k < 32 then x.g.getD k 0
  else if k = 32 then
    fld x.md 260 4 * 2 ^ 32 + thCode x.st * 2 ^ 28 + x.top * 2 ^ 20 + x.flags * 2 ^ 16 + x.pc
  else if k = 33 then leNat (x.hw.take 32)
  else if k = 34 then x.md % 2 ^ 256
  else (x.job.map (fun j => j.pkt.prv)).getD 0 % 2 ^ 256

/-- The 32 bytes of the flow store at an offset of a pseudo-channel, coherent with the cache (R237). -/
def State.flowBytes (s : State) (pc o : Nat) : Nat :=
  fld (s.slotImage (2 * (o / 256 * 128 + pc) + o % 256 / 128)) (o % 128 * 8) 256

/-- The 32 bytes of a staged record at an offset of telemetry staging. -/
def State.stagedAt (s : State) (r : Nat) : Option (List Byte) :=
  s.str.chans.findSome? (fun p => p.2.recs.findSome? (fun x =>
    if x.lost then none
    else (x.places.findIdx? (· == r / 32 * 32)).map (fun k => padTo 0 32 (slice x.bytes (32 * k) 32))))

/-- Bytes of HBM that no rule gives: a free value. -/
def State.unknownBytes (s : State) : Nat × State := (s.draw.1 % 2 ^ 256, s.draw.2)

/-- A read of 32 bytes of HBM: the flow store, the slots of spilled cells (R314), staged records, the image buffer, the software region; what
the rest holds, such as a slot whose cell has been fetched or an image whose place R391 leaves open, is a free value. -/
def State.hbmBytes (s : State) (pc o : Nat) : Nat × State :=
  if o < 0x10000000 then
    let t := s.fsuSees (.bucket (o / 256 * 128 + pc))
    (t.flowBytes pc o, t)
  else if o < 0x20000000 then
    match s.spillAt ((o - 0x10000000) / 2048) (pc * 16 + o % 2048 / 128) with
    | some (voq, x) => if x.lost then s.unknownBytes else (leNat (slice (x.image voq) (o % 128) 32), s)
    | none => s.unknownBytes
  else if o < 0x24000000 then
    match s.stagedAt (stageOfPc pc o) with
    | some b => (leNat b, s)
    | none => s.unknownBytes
  else if 0x25000000 ≤ o then (leNat (swRead s (swOfPc pc o) 32), s)
  else match imageAt pc o with
    | .buffer a => (leNat (bufRead s a 32), s)
    | _ => s.unknownBytes

/-- A pseudo-channel that answers MEM_FROZEN: the access goes through the FSU, so it meets every state that R404 and R406 keep from serving. -/
def State.pcFrozen (s : State) (pc : Nat) : Bool := s.pcRefuses pc

/-- The 32 bytes that a read of a space returns, or none with MEM_FROZEN. -/
def dbgRead (s : State) (space a : Nat) : Option Nat × State :=
  match space with
  | 0 => (some (tget 0 (s.cs (fld a 16 4)).words (fld a 0 14)), s)
  | 1 => (some (tget 0 (s.cs (fld a 16 4)).disp (fld a 0 10) % 2 ^ 48), s)
  | 2 => (some (leNat ((List.range 32).map (fun i => BitVec.ofNat 8 (tget 0 s.sk.scratch (a / 4096 * 3072 + a % 4096 + i))))), s)
  | 3 => (some (thItem (s.th (a / 64)) (a % 64)), s)
  | 4 => (some (match s.lineAt (a / 64) (a / 4 % 16) with
      | some r => fld r (a % 4 * 256) 256
      | none => 0), s)
  | _ =>
    let pc := fld a 32 7
    if s.pcFrozen pc then (none, s)
    else
      let (v, s1) := s.hbmBytes pc (fld a 0 30)
      (some v, s1)

/-- The result MEM_FROZEN, to which the spec gives no number: a free value. -/
def memFrozenResult (c : Ctx) (s : State) : State := s.setResult c (Objs.dbg_mem_cmd.key 0) Config.memFrozenCode.toNat

/-- The addressed space and address of a context. -/
def dbgPlace (c : Ctx) (s : State) : Nat × Nat := (s.rdCtx c Objs.dbg_mem_space, s.rdCtx c Objs.dbg_mem_addr)

/-- The refusals of dbg_mem_cmd: 1 READ, 2 WRITE. -/
def memCheck (c : Ctx) : Nat → State → Code := fun x s =>
  let (space, a) := dbgPlace c s
  if dbgAddrOk space a = false then .range
  else if x = 2 then
    match space with
    | 2 => refuseIf (decide ((s.th (a / 4096)).st ≠ .debugHalt)) .state
    | 3 => refuseIf (decide (32 ≤ a % 64) || decide ((s.th (a / 64)).st ≠ .debugHalt)) .state
    | 5 => refuseIf (decide (fld a 0 30 < 0x25000000)) .state
    | _ => .state
  else .ok

/-- R606: a register or scratch error that a debug read finds in a thread; the words read are then a free value. -/
def dbgParity (s : State) (t : Nat) : Option Nat × State :=
  let (v, s1) := s.draw
  (some (v % 2 ^ 256), s1.skinkParity t)

/-- READ; `parity` tells whether a register or scratch word of the address fails its check. -/
def dbgMemGet (c : Ctx) (parity : Bool) (s : State) : State :=
  let (space, a) := dbgPlace c s
  let got := if parity && space == 2 then dbgParity s (a / 4096) else if parity && space == 3 then dbgParity s (a / 64) else dbgRead s space a
  match got with
  | (some v, s1) => s1.wrCtx c Objs.dbg_mem_data 0 v
  | (none, s1) => memFrozenResult c s1

/-- WRITE. -/
def dbgMemPut (c : Ctx) (s : State) : State :=
  let (space, a) := dbgPlace c s
  let v := s.rdCtx c Objs.dbg_mem_data
  match space with
  | 2 =>
    let k := a / 4096 * 3072 + a % 4096
    { s with sk := { s.sk with scratch := (List.range 32).foldl (fun t i => tset 0 t (k + i) (fld v (8 * i) 8)) s.sk.scratch } }
  | 3 => if a % 64 = 0 then s else s.modTh (a / 64) (fun x => { x with g := x.g.set (a % 64) (v % 2 ^ 64) })
  | _ =>
    let pc := fld a 32 7
    if s.pcFrozen pc then memFrozenResult c s else s.hbmWrite pc ⟨2, fld a 0 30, leBytes 32 v, []⟩

/-- dbg_mem_cmd takes effect. -/
def memApply (c : Ctx) (parity : Bool) (x : Nat) (s : State) : State := if x = 1 then dbgMemGet c parity s else dbgMemPut c s

/-- The meaning of DBG_MEM_READ. -/
def execDbgMemRead (c : Ctx) (parity : Bool) (s : State) : Out :=
  .next (writeObj c Objs.dbg_mem_cmd 0 [1] (memCheck c) (memApply c parity) s)

/-- The meaning of DBG_MEM_WRITE. -/
def execDbgMemWrite (c : Ctx) (s : State) : Out := .next (writeObj c Objs.dbg_mem_cmd 0 [2] (memCheck c) (memApply c false) s)

/-! ## Lane patterns (R576) -/

/-- The refusals of lane_prbs. -/
def prbsCheck (l : Nat) : Nat → State → Code := fun x s =>
  if 5 ≤ fld x 0 4 then .range
  else refuseIf (fld x 0 4 != 0 && (s.portsOfLane l).any (fun p => s.portMode p != 0)) .state

/-- lane_prbs takes effect: the checker starts again. -/
def prbsApply (l : Nat) (s : State) : State := (s.wr Objs.lane_prbs_lock l 0).wr Objs.lane_prbs_errors l 0

/-- A pattern runs on a lane: the checker locks where a valid pattern arrives, and from lock on counts the bit errors. -/
def prbsSeen (l : Nat) (pattern : Option Nat) (s : State) : State :=
  if fld (s.rd Objs.lane_prbs l) 0 4 = 0 then s
  else match pattern with
    | none => s
    | some n => (s.wr Objs.lane_prbs_lock l 1).bump Objs.lane_prbs_errors l n

/-- The meaning of LANE_PRBS_WRITE: `pattern` tells whether a valid pattern of the setting arrives, and with how many bit errors. -/
def execLanePrbsWrite (c : Ctx) (lane : Fin 64) (v : List Byte) (pattern : Option Nat) (s : State) : Out :=
  .next (writeObj c Objs.lane_prbs lane.val v (prbsCheck lane.val) (fun _ s => prbsSeen lane.val pattern (prbsApply lane.val s)) s)

end Sys2Proof.Machine
end

