-- ==== Sys2Proof/Machine/HbmRec.lean ====
section
/-! DEFINITION. The end of a thaw, and the retirement and regrowth of pseudo-channels, with what they do to the flow store and the
spill region (R406, R408 to R410). -/

namespace Sys2Proof.Machine

/-- The keys of the records homed in the slots that `f` picks. -/
def State.keysHomed (s : State) (f : Nat → Bool) : List Nat := ((s.fsu.slots.filter (fun p => f p.1)).map (fun p => recKey p.2)).dedup

/-- The keys of the records whose line has its home in the slots that `f` picks. -/
def State.keysCached (s : State) (f : Nat → Bool) : List Nat :=
  (s.fsu.lines.filter (fun p => decide (p.2.st ≠ .absent) && decide (p.2.home < stashBase) && f p.2.home)).map (·.1)

/-- A slot whose content is void is empty; the record's B1 counts it no more where it lived in B2 (R220). -/
def State.voidSlot (s : State) (p : Nat) : State :=
  match tfind s.fsu.slots p with
  | none => s
  | some r =>
    let t : State := { s with fsu := { s.fsu with slots := tdel p s.fsu.slots } }
    if recAlt r then t.bktDec (s.flowBuckets (recKey r)).1 else t

/-- A repair or a retirement empties the slots that `f` picks and deletes the records homed there, in the flow cache included; each counts in
rec_lost (R408, R409). -/
def State.loseRecords (s : State) (f : Nat → Bool) : State :=
  let keys := (s.keysHomed f ++ s.keysCached f).dedup
  let t := ((s.fsu.slots.filter (fun p => f p.1)).map (·.1)).foldl State.voidSlot s
  keys.foldl (fun (s : State) k => (s.delRec k).bump Objs.rec_lost) t

/-- R408 step 4: the FSU repairs a bucket; BKT_ALT 255 keeps its locator bit at 1. -/
def State.repairBucket (s : State) (b : Nat) : State :=
  let mine := fun (i : Nat) => i / 2 == b
  let s1 := s.loseRecords mine
  { s1 with fsu := { s1.fsu with bktAlt := tput b 255 s1.fsu.bktAlt } }

/-- A burst of a staged record is written with zeros. -/
def stageZero (r : Nat) (x : StrChan) : StrChan :=
  { x with recs := x.recs.map (fun y => match y.places.findIdx? (· == r) with
    | some k => { y with bytes := splice y.bytes (32 * k) (List.replicate 32 0) }
    | none => y) }

/-- A burst of the software region is written with zeros. -/
def Hbm.zeroSw (h : Hbm) (p off : Nat) : Hbm := { h with sw := swStore h.sw (swOfPc p off) (List.replicate 32 0) }

/-- A burst is written with zeros where its content has no copy: of the spill region, of telemetry staging, of the image buffer, of the MAC
save, of the software region (R407, R408). -/
def State.zeroBurst (s : State) (p off : Nat) : State :=
  if off < 0x10000000 then s
  else if off < 0x20000000 then
    match s.spillAt ((off - 0x10000000) / 2048) (p * 16 + off % 2048 / 128) with
    | some (voq, x) => { s with tm := { s.tm with voqs := tmod Voq.empty s.tm.voqs voq (spillLost x.pos) } }
    | none => s
  else if off < 0x24000000 then
    { s with str := { s.str with chans := s.str.chans.map (fun c => (c.1, stageZero (stageOfPc p off) c.2)) } }
  else if off < 0x25000000 then
    match imageAt p off with
    | .buffer a => { s with sk := { s.sk with buffer := swStore s.sk.buffer a (List.replicate 32 0) } }
    | .mac k => { s with hbm := { s.hbm with macSave := tdel (2 * k) (tdel (2 * k + 1) s.hbm.macSave) } }
    | .shadow stack k => { s with hbm := { s.hbm with shadowBad := (stack, k) :: s.hbm.shadowBad.filter (· ≠ (stack, k)) } }
    | _ => s
  else { s with hbm := s.hbm.zeroSw p off }

/-- A burst of a golden copy holds its image again, or zeros. -/
def State.setGoldenBad (s : State) (stack image burst : Nat) (bad : Bool) : State :=
  let rest := s.hbm.goldenBad.filter (· ≠ (stack, image, burst))
  { s with hbm := { s.hbm with goldenBad := if bad then (stack, image, burst) :: rest else rest } }

/-- R408 step 5 for a burst of a golden copy: from the same burst of the other stack's copy, else from a clutch that holds the image, with
EV086, else zeros. -/
def State.goldenBurst (s : State) (stack index burst : Nat) : State :=
  match s.sk.golden[index]? with
  | none => s
  | some g =>
    if s.goldenBurstServes (4 - stack) index g.image burst then s.setGoldenBad stack g.image burst false
    else if (List.range 16).any (fun c => s.rd Objs.clutch_image c = g.image && decide (s.rd Objs.clutch_state c < 3)) then
      (s.setGoldenBad stack g.image burst false).raise 86 0
    else s.setGoldenBad stack g.image burst true

/-- R408 steps 4 and 5 for one burst. A burst of a shadow is rewritten from the on-chip object. -/
def thawBurst (s : State) (p off : Nat) : State :=
  if off < 0x10000000 then s.repairBucket (off / 256 * 128 + p)
  else if 0x24000000 ≤ off ∧ off < 0x25000000 then
    match imageAt p off with
    | .golden stack index k => s.goldenBurst stack index k
    | .shadow stack k => { s with hbm := { s.hbm with shadowBad := s.hbm.shadowBad.filter (· ≠ (stack, k)) } }
    | _ => s.zeroBurst p off
  else s.zeroBurst p off

/-- The bursts among `bad` that lie in a row. -/
def inRow (bank row : Nat) (bad : List (BitVec 30)) : List Nat :=
  ((bad.map (fun o => o.toNat / 32 * 32)).filter (fun o => bankOf o == bank && rowOf o == row)).dedup

/-- R408 step 3: the bursts that a thaw lists, for CAUSE DATA_UNCORR alone: those of `bad` in the row of hbm_diag, and those a repair
marked. -/
def thawList (s : State) (p : Nat) (bad : List (BitVec 30)) : List Nat :=
  let d := s.rd Objs.hbm_diag p
  if fld d 152 8 = 1 then (inRow (fld d 90 6) (fld d 76 14) bad ++ (s.ctl p).marks).dedup else []

/-- A thaw has failed: hbm_diag is written anew (R406). -/
def State.thawFailed (s : State) (p diag : Nat) : State :=
  (((s.wr Objs.hbm_state p 2).wr Objs.hbm_diag p diag).endRuns (Objs.hbm_thaw.key 0) p 0).raise 165 p (fld diag 0 128)

/-- HBM_THAW_DONE: the retraining of step 2, which may take a spare lane into use, then the listed bursts; `bad` are the bursts of the row that
read uncorrectable in step 3. -/
def hbmThawDone (s : State) (p : Nat) (res : ThawEnd) (spare : Bool) (bad : List (BitVec 30)) : State :=
  let x := s.ctl p
  if x.job = some .thaw then
    let s1 := s.setCtl p { x with job := none }
    if res = .retrainFailed ∨ s.sparesLeft (stackOf p) < b2n spare then s1.thawFailed p (diagRec s.wStamp 4 0 0 7 0 0 p 0 false)
    else
      let list := thawList s p bad
      let s2 := list.foldl (fun (s : State) o => thawBurst s p o) (s1.takeSpares p (b2n spare))
      match res with
      | .unreadable off e => s2.thawFailed p (diagRec s.wStamp 1 e.sev.val e.syndrome.toNat 7 0 0 p (off.toNat / 32 * 32) false)
      | _ =>
        let s3 := s2.setCtl p { s2.ctl p with marks := if list = [] then x.marks else [] }
        ((s3.endRuns (Objs.hbm_thaw.key 0) p 0).wr Objs.hbm_state p 1).raise 167 p (fld (s3.rd Objs.hbm_diag p) 0 128)
  else s

/-- The meaning of HBM_THAW_DONE. -/
def execHbmThawDone (pc : Fin 128) (res : ThawEnd) (spare : Bool) (bad : List (BitVec 30)) (s : State) : Out :=
  .next (hbmThawDone s pc.val res spare bad)

/-- R407 step 1: a burst that reads uncorrectable is replaced with zeros; of a slot of the flow store, that takes VALID or a part of the record
away. -/
def State.pprBurst (s : State) (p off : Nat) : State :=
  if off < 0x10000000 then
    let i := 2 * (off / 256 * 128 + p) + off % 256 / 128
    let k := off % 128 / 32
    let t : State := if k = 1 ∧ i % 2 = 0 then { s with fsu := { s.fsu with bktAlt := tdel (i / 2) s.fsu.bktAlt } } else s
    match tfind t.fsu.slots i with
    | none => t
    | some r => { t with fsu := { t.fsu with slots := if k = 1 then tdel i t.fsu.slots else tput i (setFld r (256 * k) 256 0) t.fsu.slots } }
  else if 0x24000000 ≤ off ∧ off < 0x25000000 then
    match imageAt p off with
    | .golden stack index k => match s.sk.golden[index]? with
      | some g => s.setGoldenBad stack g.image k true
      | none => s
    | _ => s.zeroBurst p off
  else s.zeroBurst p off

/-- A row repair has ended; `bad` are the bursts of the row that read uncorrectable. -/
def State.pprEnd (s : State) (p bank row : Nat) (pass : Bool) (bad : List (BitVec 30)) (count : HbmCtl → HbmCtl) : State :=
  let s1 := (s.setCtl p { s.ctl p with job := none }).endRuns (Objs.hbm_ppr.key 0) p 0
  let diag := fld (s.rd Objs.hbm_diag p) 0 128
  if pass then
    let l := inRow bank row bad
    let x := s1.ctl p
    let s2 := s1.setCtl p (count { x with marks := (x.marks ++ l).dedup })
    (l.foldl (fun (s : State) o => s.pprBurst p o) s2).raise 170 p diag
  else s1.raise 171 p diag

/-- HBM_PPR_DONE (R407). -/
def hbmPprDone (s : State) (p : Nat) (pass : Bool) (bad : List (BitVec 30)) : State :=
  match (s.ctl p).job with
  | some (.pprSoft bank row) =>
    let t := s.pprEnd p bank row pass bad (fun x => { x with sppr := bank :: x.sppr })
    if pass then t.bump Objs.hbm_sppr_count p else t
  | some (.pprHard bank row) => s.pprEnd p bank row pass bad (fun x => { x with hpprUsed := x.hpprUsed + 1 })
  | _ => s

/-- The meaning of HBM_PPR_DONE. -/
def execHbmPprDone (pc : Fin 128) (pass : Bool) (bad : List (BitVec 30)) (s : State) : Out :=
  .next (hbmPprDone s pc.val pass bad)

/-- R315: the slots of a retired pseudo-channel are skipped in every block. -/
def skipBlocks (p : Nat) (v : Voq) : Voq := { v with blocks := v.blocks.map (fun b => { b with skip := setFld b.skip p 1 1 }) }

/-- R409: a pseudo-channel is retired. -/
def State.retirePc (s : State) (p : Nat) : State :=
  if s.pcState p = 1 ∨ s.pcState p = 2 then
    let diag := fld (s.rd Objs.hbm_diag p) 0 128
    let t := hbmRetireCtl s p
    let mine := fun (i : Nat) => bucketPc (i / 2) == p
    let s1 := t.loseRecords mine
    let s2 : State := { s1 with tm := { s1.tm with voqs := s1.tm.voqs.map (fun q => (q.1, skipBlocks p q.2)) } }
    s2.raise 168 p diag
  else s

/-- R406: only an ACTIVE or FROZEN controller is retired. -/
def hbmRetireCheck : Nat → State → Code := fun p s =>
  if s.pcState p = 1 ∨ s.pcState p = 2 then refuseIf (s.ctl p).job.isSome .busy
  else refuseIf true (if (s.ctl p).job.isSome then .busy else .state)

/-- The meaning of HBM_RETIRE. -/
def execHbmRetire (c : Ctx) (v : List Byte) (s : State) : Out :=
  .next (writeObj c Objs.hbm_retire 0 v hbmRetireCheck (fun p s => s.retirePc p) s)

/-- R410: regrowth of a RETIRED pseudo-channel starts. -/
def State.regrowPc (s : State) (p : Nat) : State :=
  ((s.setCtl p { s.ctl p with job := some .regrow }).wr Objs.hbm_state p 5).startRegrow 8 p

/-- The meaning of HBM_REGROW. -/
def execHbmRegrow (c : Ctx) (v : List Byte) (s : State) : Out :=
  .next (writeObj c Objs.hbm_regrow 0 v (fun p s => hbmCmdCheck p 4 s)
    (fun p s => (s.startRunOn c (Objs.hbm_regrow.key 0) p 8).regrowPc p) s)

/-- The pseudo-channel of the other stack that holds the bursts which pseudo-channel `p` holds of a copy, by the granules at which the two
begin. -/
def twinPc (p start other : Nat) : Nat := 32 * ((stackOf p + 2) % 4) + (other + p % 32 + 32 - start % 32) % 32

/-- The bursts of golden copies that hold zeros after a regrowth of `p`: those whose twin in the other stack cannot be read (R410). -/
def State.regrownGolden (s : State) (p : Nat) : List (Nat × Nat × Nat) :=
  let x := stackOf p
  let here := fun (b : Nat × Nat × Nat) => s.sk.golden.zipIdx.any (fun g => g.1.image == b.2.1 &&
    (b.2.2 == wholePc p || (decide (b.2.2 < 2 ^ 21) && goldenPc x g.2 b.2.2 == p)))
  if x % 2 = 0 then s.hbm.goldenBad
  else
    let kept := s.hbm.goldenBad.filter (fun b => !(b.1 == x && here b))
    let lost := (s.sk.golden.zipIdx.filter (fun g =>
      let q := twinPc p (Config.goldenAt x g.2).toNat (Config.goldenAt (4 - x) g.2).toNat
      s.pcRefuses q || s.hbm.goldenBad.contains (4 - x, g.1.image, wholePc q))).map (fun g => (x, g.1.image, wholePc p))
    let copied := (s.hbm.goldenBad.filter (fun b => b.1 == 4 - x && decide (b.2.2 < 2 ^ 21))).filterMap (fun b =>
      if here (x, b.2) then some (x, b.2) else none)
    lost ++ copied ++ kept

/-- The bursts of the shadows that hold zeros after a regrowth of `p` (R410). -/
def State.regrownShadow (s : State) (p : Nat) : List (Nat × Nat) :=
  let x := stackOf p
  if x % 2 = 1 then s.hbm.shadowBad
  else
    let q := twinPc p (Config.shadowStart x).toNat (Config.shadowStart (2 - x)).toNat
    let here := fun (k : Nat) => k == wholePc p || (decide (k < 2 ^ 21) && shadowPc x k == p)
    let kept := s.hbm.shadowBad.filter (fun b => !(b.1 == x && here b.2))
    let copied := (s.hbm.shadowBad.filter (fun b => b.1 == 2 - x && decide (b.2 < 2 ^ 21) && here b.2)).map (fun b => (x, b.2))
    (if s.pcRefuses q || s.hbm.shadowBad.contains (2 - x, wholePc q) then [(x, wholePc p)] else []) ++ copied ++ kept

/-- R410 step 4: the image-region granules come from the other stack's copies; what has no other copy, or one that cannot be read, is
gone. -/
def State.regrownImages (s : State) (p : Nat) : State :=
  { s with hbm := { s.hbm with goldenBad := s.regrownGolden p
                               shadowBad := s.regrownShadow p
                               macSave := s.hbm.macSave.filter (fun e => macSavePc e.1 ≠ p) }
           sk := { s.sk with buffer := s.sk.buffer.filter (fun b => bufferPc b.1 ≠ p) } }

/-- R410: the steps of a regrowth have passed: every bucket is empty with BKT_ALT 255, the test patterns have overwritten the software
region, whose bytes read as unwritten ones do, and the map bit is cleared. -/
def State.regrownPc (s : State) (p : Nat) : State :=
  let alt := (List.range 1048576).foldl (fun t i => tput (i * 128 + p) 255 t) s.fsu.bktAlt
  let s1 : State := { s with fsu := { s.fsu with bktAlt := alt }
                             hbm := { s.hbm with sw := s.hbm.sw.filter (fun c => swPc c.1 ≠ p) } }
  let s2 := s1.regrownImages p
  ((s2.setCtl p { s2.ctl p with job := none, marks := [] }).setRetired p false).endRuns (Objs.hbm_regrow.key 0) p 0

/-- R406: a regrowth has failed. -/
def State.regrowPcFailed (s : State) (p : Nat) : State :=
  ((s.setCtl p { s.ctl p with job := none }).wr Objs.hbm_state p 4).endRuns (Objs.hbm_regrow.key 0) p 0

/-- R406: a regrown pseudo-channel is ACTIVE from the next commit point on. -/
def State.readmitPc (s : State) (p : Nat) : State :=
  (s.wr Objs.hbm_state p 1).raise 169 p (fld (s.rd Objs.hbm_diag p) 0 128)

end Sys2Proof.Machine
end

