-- ==== Sys2Proof/Machine/Regrow.lean ====
section
/-! DEFINITION. Isolation by unit, regrowth, and the readmission at a hue commit point (R69, R517, R518). -/

namespace Sys2Proof.Machine

/-- The units of R517 by UNIT_TYPE: 2 port, 5 Skink, 6 clutch, 7 pattern engine, 8 pseudo-channel, 10 middle. -/
def unitCount (utype : Nat) : Nat :=
  match utype with
  | 2 => 256
  | 5 => 256
  | 6 => 16
  | 7 => 24
  | 8 => 128
  | 10 => 32
  | _ => 0

/-- A unit is isolated (or retired). -/
def State.isolated (s : State) (utype unit : Nat) : Bool :=
  match utype with
  | 2 => s.link unit == 4
  | 5 => !bit (s.rd Objs.skinks_in_service) unit
  | 6 => decide (3 ≤ s.rd Objs.clutch_state unit)
  | 7 => !s.engineIn unit
  | 8 => s.pcState unit == 4
  | 10 => !s.middleIn unit
  | _ => false

/-- A unit is isolated under the rule that R517 names. -/
def State.isolateUnit (s : State) (utype unit : Nat) : State :=
  match utype with
  | 2 => s.isolatePort unit
  | 5 => s.isolateSkink unit
  | 6 => s.isolateClutch unit
  | 7 => s.isolateEngine unit
  | 8 => s.retirePc unit
  | 10 => s.isolateMiddle unit
  | _ => s

/-- The regrowth of an isolated unit starts (R129, R410, R518). -/
def State.regrowUnit (s : State) (utype unit : Nat) : State :=
  match utype with
  | 6 => (s.wr Objs.clutch_state unit 4).startRegrow 6 unit
  | 8 => s.regrowPc unit
  | _ => s.startRegrow utype unit

/-- R518: the store of a clutch is reloaded from the golden copy of its image and from the hue shadow. -/
def State.reloadStore (s : State) (c : Nat) : State :=
  let image := s.rd Objs.clutch_image c
  let x : ClutchStore := { s.cs c with disp := s.hue.disp0, repairing := [] }
  let t := s.setCs c (storeOf x (s.golden image))
  if s.goldenRead image .first = .second then t.raise 86 0 0 (t.goldenRefused 1) c else t

/-- Instance `i` of each object of a list returns to its default (R449). -/
def State.toDefault (s : State) (os : List Obj) (i : Nat) : State := os.foldl (fun s o => s.wr o i (o.default i s.devId)) s

/-- The class V objects of a port, its link state apart, which the regrowth itself moves. -/
def portVolatile : List Obj := [Objs.speed_active, Objs.mm_status, Objs.lane_lock, Objs.last_change, Objs.ts_state]

/-- The class V objects of a lane. -/
def laneVolatile : List Obj := [Objs.lane_prbs, Objs.lane_prbs_errors, Objs.lane_prbs_lock]

/-- The class V objects of a clutch, its state apart, which the regrowth itself moves. -/
def clutchVolatile : List Obj := [Objs.trace_ctrl, Objs.trace_lost, Objs.trace_select, Objs.bp_hits]

/-- R449, R532: the class V objects of a unit at its reset. -/
def State.unitDefaults (s : State) (utype unit : Nat) : State :=
  match utype with
  | 2 => (s.lanesOf unit).foldl (fun s l => s.toDefault laneVolatile l) (s.toDefault portVolatile unit)
  | 6 => (List.range 4).foldl (fun s b => s.toDefault [Objs.breakpoint] (4 * unit + b))
           ((s.toDefault clutchVolatile unit).setTrace unit TraceBuf.empty)
  | _ => s

/-- R518: what the passed steps leave. -/
def State.regrownUnit (s : State) (utype unit : Nat) : State :=
  match utype with
  | 5 => s.clearSkink unit
  | 6 => ((List.range 16).foldl (fun (s : State) i => s.clearSkink (16 * unit + i)) s).reloadStore unit
  | 8 => s.regrownPc unit
  | _ => s

/-- R518: the failure of a regrowth's steps and its event. -/
def State.regrowFailed (s : State) (utype unit : Nat) : State :=
  match utype with
  | 6 => (s.wr Objs.clutch_state unit 3).raiseOf 76 6 unit
  | 7 => s.raise 54 unit
  | 8 => (s.regrowPcFailed unit).raise 165 unit (fld (s.rd Objs.hbm_diag unit) 0 128)
  | t => s.raiseOf 76 t unit

/-- What a regrowth needs of HBM: a clutch a golden copy it can read (R164, R518), a pseudo-channel the spare lanes its training takes
(R392, R410). -/
def State.canRegrow (s : State) (utype unit spares : Nat) : Bool :=
  match utype with
  | 6 => s.goldenRead (s.rd Objs.clutch_image unit) .first != .neither
  | 8 => decide (spares ≤ s.sparesLeft (stackOf unit))
  | _ => true

/-- The executions that started a unit's regrowth end (R448): its own command, and fm_regrow. -/
def State.endRegrowRuns (s : State) (utype unit : Nat) : State :=
  let t := s.endRuns (Objs.fm_regrow.key 0) (256 * utype + unit) 0
  match utype with
  | 5 => t.endRuns (Objs.skink_regrow.key 0) unit 0
  | 7 => t.endRuns (Objs.pat_engine_regrow.key 0) unit 0
  | 10 => t.endRuns (Objs.middle_regrow.key 0) unit 0
  | _ => t

/-- UNIT_REGROWTH_DONE: `spares` are the spare lanes that the training of a pseudo-channel takes into use. -/
def regrowthDone (s : State) (utype unit : Nat) (pass : Bool) (spares : Nat) : State :=
  if s.fm.regrowing.contains (utype, unit) then
    let s1 := ({ s with fm := { s.fm with regrowing := s.fm.regrowing.filter (· ≠ (utype, unit)) } } : State).endRegrowRuns utype unit
    if pass && s.canRegrow utype unit spares then
      let s2 := ((if utype = 8 then s1.takeSpares unit spares else s1).regrownUnit utype unit).unitDefaults utype unit
      { s2 with fm := { s2.fm with passed := s2.fm.passed ++ [(utype, unit)] } }
    else s1.regrowFailed utype unit
  else s

/-- The meaning of UNIT_REGROWTH_DONE. -/
def execUnitRegrowthDone (utype : Fin 17) (unit : Fin 256) (pass : Bool) (spares : Nat) (s : State) : Out :=
  .next (regrowthDone s utype.val unit.val pass spares)

/-- R518: a unit is readmitted. -/
def State.readmit (s : State) (utype unit : Nat) : State :=
  match utype with
  | 2 => s.readmitPort unit
  | 5 => s.wr Objs.skinks_in_service 0 (setFld (s.rd Objs.skinks_in_service) unit 1 1)
  | 6 => s.wr Objs.clutch_state unit 0
  | 7 => s.readmitEngine unit
  | 8 => s.readmitPc unit
  | 10 => (s.wr Objs.middles_in_service 0 (setFld (s.rd Objs.middles_in_service) unit 1 1)).raise 129 unit
  | _ => s

/-- COMMIT_POINT: the accepted commit takes effect in all pipes at once (R69), and regrown units return (R518); the
execution of hue_commit ends (R448). -/
def commitPoint (s : State) : State :=
  if s.hue.commit.isNone then s
  else
    let n := s.eligibleClutches
    let units := s.fm.passed
    let s0 := match s.hue.commit with
      | some (some c) => s.endRun c (Objs.hue_commit.key 0) 0
      | _ => s
    let s1 : State := { s0 with fm := { s0.fm with passed := [] } }
    let s2 := units.foldl (fun (s : State) u => s.readmit u.1 u.2) s1
    (((s2.advanceHue).raise 37 0).clutchesLow n).sfRetry

/-- The meaning of COMMIT_POINT. -/
def execCommitPoint (s : State) : Out := .next (commitPoint s)

end Sys2Proof.Machine
end

