-- ==== Sys2Proof/Machine/Faults.lean ====
section
/-! DEFINITION. The fault manager (chapter 18): occurrences, records, reactions, escalation, the fault log, CROAK_N and the safe
state. -/

namespace Sys2Proof.Machine

/-! ## Records (R511) -/

/-- The 48 bytes of a record as a number. -/
def EvRec.word (r : EvRec) : Nat :=
  r.seq * 2 ^ 352 + r.time * 2 ^ 256 + r.src * 2 ^ 248 + r.cls * 2 ^ 246 + r.base * 2 ^ 244 + b2n r.escalated * 2 ^ 243 +
    b2n r.first * 2 ^ 242 + b2n r.multi * 2 ^ 241 + b2n r.isOpen * 2 ^ 240 + r.reacted * 2 ^ 236 + b2n r.safe * 2 ^ 235 +
    b2n r.suppressed * 2 ^ 234 + r.utype * 2 ^ 224 + r.unit % 65536 * 2 ^ 208 + r.count * 2 ^ 192 + r.merged * 2 ^ 176 +
    r.lastDt * 2 ^ 144 + r.detail

/-- A record changes; fm_first_fault follows the record it holds. -/
def State.setRec (s : State) (r : EvRec) : State :=
  let t : State := { s with fm := { s.fm with recs := s.fm.recs.map (fun x => if x.seq = r.seq then r else x) } }
  if r.first && s.fm.firstHeld && fld (s.rd Objs.fm_first_fault) 352 32 == r.seq then t.wr Objs.fm_first_fault 0 r.word else t

/-- A record by LOG_SEQ. -/
def State.recOf (s : State) (seq : Nat) : Option EvRec := s.fm.recs.find? (fun r => r.seq = seq)

/-! ## Units (R499) -/

/-- A unit lies within a record's unit. -/
def State.unitWithin (s : State) (src utype unit : Nat) (r : EvRec) : Bool :=
  (utype == r.utype && unit == r.unit && (utype != 16 || evNamed src == evNamed r.src)) ||
    (match utype, r.utype with
    | 4, 5 => unit / 8 == r.unit
    | 4, 6 => unit / 128 == r.unit
    | 5, 6 => unit / 16 == r.unit
    | 1, 2 => (s.portsOfLane unit).contains r.unit
    | 8, 9 => unit / 32 == r.unit
    | _, _ => false)

/-- The isolable unit that a unit is or lies in (R503). -/
def State.isolable (s : State) (utype unit : Nat) : Option (Nat × Nat) :=
  match utype with
  | 4 => some (5, unit / 8)
  | 1 => (s.portsOfLane unit).head?.map (fun p => (2, p))
  | t => if unitCount t = 0 then none else some (t, unit)

/-! ## Escalation (R500, R504, R505) -/

/-- A source is escalated. -/
def State.escalated (s : State) (src : Nat) : Bool := s.rd Objs.ev_escalated src == 1

/-- The effective class of a source before an occurrence. -/
def State.evClass (s : State) (src : Nat) : Nat :=
  let b := evBaseClass src
  if b ≤ 1 ∧ s.escalated src = true then 2 else b

/-- The sub-window counts of a source. -/
def EvWindow.empty : EvWindow := ⟨List.replicate 16 0, 0⟩

/-- The sub-windows that have left the window are cleared; sub-windows are numbered below `m`, where F wraps (R6). -/
def EvWindow.advance (w : EvWindow) (m k : Nat) : EvWindow :=
  let d := modDiff m k w.k
  if d ≤ 0 then w
  else if 16 ≤ d then ⟨List.replicate 16 0, k⟩
  else ⟨(List.range 16).map (fun i => if (List.range d.toNat).any (fun j => (w.k + 1 + j) % m % 16 == i) then 0 else w.c.getD i 0), k⟩

/-- R504: `n` occurrences are counted; whether the source escalates. -/
def State.countWindow (s : State) (src n : Nat) : Bool × State :=
  let limit := s.rd Objs.ev_esc_n src
  if 2 ≤ evBaseClass src ∨ s.escalated src = true ∨ limit = 0 then (false, s)
  else
    let span := s.rd Objs.ev_esc_window src * 62500
    let k := s.fNs / span
    let w := (tget EvWindow.empty s.fm.windows src).advance ((wrapNs + span - 1) / span) k
    let c := w.c.set (k % 16) (w.c.getD (k % 16) 0 + n)
    let put := fun (x : EvWindow) => ({ s with fm := { s.fm with windows := tset EvWindow.empty s.fm.windows src x } } : State)
    if limit ≤ c.sum then (true, (put EvWindow.empty).wr Objs.ev_escalated src 1) else (false, put ⟨c, w.k⟩)

/-- The sub-window counts of a source are cleared. -/
def State.clearWindow (s : State) (src : Nat) : State := { s with fm := { s.fm with windows := tdel src s.fm.windows } }

/-! ## Open records (R507, R604) -/

/-- The handling that lasts beyond the reactions has ended (R604): that of the record's unit, or of the item that its first occurrence named
(DEDUCED, log 76). -/
def State.handlingEnded (s : State) (r : EvRec) : Bool :=
  let pending := fun (t : Tab Bool) => tfind t r.item == some true
  let reloaded := fun (c : Nat) => (s.cs c).repairing == [] || decide (3 ≤ s.rd Objs.clutch_state c)
  let settled := s.pcState r.unit == 1 || s.pcState r.unit == 4
  let replayed := !s.sk.replay.any (fun p => p.2.any (fun j => j.lsn == r.item))
  match r.src with
  | 80 => reloaded r.unit
  | 81 => reloaded r.unit
  | 86 => reloaded r.item
  | 36 => !pending s.hue.badRules
  | 52 => !pending s.pat.badWords
  | 126 => !pending s.tbl.bad
  | 53 => (List.range 24).all (fun e => (s.engine e).queue.all (fun w => w.pid != r.item))
  | 73 => replayed
  | 104 => replayed
  | 103 => s.cu.strict.isEmpty
  | 162 => settled
  | 163 => settled
  | 164 => settled
  | 165 => settled
  | 128 => !s.tm.reord.any (fun p => (p.2.skipAt.map (·.2)) == some r.unit)
  | _ => true

/-- Open records whose handling has ended close; the C3 record of the safe state stays open (R516). -/
def State.closeRecs (s : State) : State :=
  s.fm.recs.foldl (fun (s : State) r =>
    if r.isOpen && decide (r.cls < 3) && s.handlingEnded r then s.setRec { r with isOpen := false } else s) s

/-- The record into which an occurrence merges: the open record created first of those that qualify (R507, R508, R516). -/
def State.mergeTarget (s : State) (o : Occ) (cls : Nat) : Option EvRec :=
  if s.fm.safe then s.fm.recs.find? (fun r => r.cls = 3)
  else if cls = 3 then none
  else s.fm.recs.find? (fun r => r.isOpen && decide (cls ≤ r.cls) &&
    (s.unitWithin o.src o.utype o.unit r || (match o.cause with
      | some (t, u) => if t = 16 then r.utype == 16 && evNamed r.src == u else s.unitWithin r.src t u r
      | none => false)))

/-- `n` occurrences merge into a record. -/
def State.mergeInto (s : State) (r : EvRec) (n : Nat) : State := s.setRec { r with merged := min (r.merged + n) 65535 }

/-! ## CROAK_N (R514) -/

/-- The pin's state and croak_level. -/
def State.setCroak (s : State) (c : Croak) : State :=
  { s with fm := { s.fm with croak := c } }.wr Objs.croak_level 0 (if c = Croak.released then 0 else 1)

/-- The minimum width starts. -/
def State.croakTimer (s : State) : State := { s with fm := { s.fm with croakStart := s.eftNs, croakRunning := true } }

/-- A CROAK reaction, or the CROAK action of R550. -/
def State.croakReact (s : State) : State :=
  if s.fm.croak = .boot then { s with fm := { s.fm with croakSeen := true } }.croakTimer
  else ({ s with fm := { s.fm with releasePending := false } }.setCroak .pulse).croakTimer

/-- boot_status reads DONE or FAILED. -/
def State.croakBooted (s : State) (failed : Bool) : State :=
  if s.fm.croak = .boot then
    if failed || s.fm.croakSeen then s.setCroak (if s.fm.croakRunning then .pulse else .held) else s.setCroak .released
  else s

/-- CROAK_TIMER_EXPIRY. -/
def croakExpiry (s : State) : State :=
  if s.fm.croakRunning && s.eftElapsed s.fm.croakStart (s.rd Objs.croak_min_width) then
    let t : State := { s with fm := { s.fm with croakRunning := false, releasePending := false } }
    if s.fm.croak = .pulse then t.setCroak (if s.fm.releasePending then .released else .held) else t
  else s

/-- The meaning of CROAK_TIMER_EXPIRY. -/
def execCroakTimerExpiry (s : State) : Out := .next (croakExpiry s)

/-- R514: the refusals of croak_level. -/
def croakCheck : Nat → State → Code := fun x s => refuseIf (decide (s.fm.croak = .boot) || (x == 0 && s.fm.safe)) .state

/-- A write of croak_level. -/
def croakWrite (x : Nat) (s : State) : State :=
  match s.fm.croak with
  | .boot => s
  | .pulse => if x = 0 then { s with fm := { s.fm with releasePending := true } }.setCroak .pulse else s
  | .held => if x = 0 then s.setCroak .released else s
  | .released => if x = 1 then s.setCroak .held else s

/-- The meaning of CROAK_LEVEL_WRITE. -/
def execCroakLevelWrite (c : Ctx) (v : List Byte) (s : State) : Out :=
  .next (writeObj c Objs.croak_level 0 v croakCheck croakWrite s)

/-! ## The fault log (R512, R605) -/

/-- How many log places records of class C0 and C1 take. -/
def State.lowPlaces (s : State) : Nat := (s.fm.recs.filter (fun r => r.logged && decide (r.cls ≤ 1))).length

/-- How many log places are taken. -/
def State.logPlaces (s : State) : Nat := (s.fm.recs.filter (·.logged)).length

/-- The record that gives up its place to one of class `c`. -/
def State.logVictim (s : State) (c : Nat) : Option EvRec :=
  let can := s.fm.recs.filter (fun r => r.logged && !r.isOpen && (decide (2 ≤ c) || decide (r.cls ≤ 1) || decide (s.lowPlaces < 7936)))
  match can.find? (·.acked) with
  | some r => some r
  | none =>
    match can.find? (fun r => r.cls = 0) with
    | some r => some r
    | none => can.find? (fun r => r.cls = 1)

/-- A record of a class gets a place in the log, or none. -/
def State.logRoom (s : State) (c : Nat) : Option State :=
  if s.logPlaces < 8192 ∧ (2 ≤ c ∨ s.lowPlaces < 7936) then some s
  else (s.logVictim c).map (fun r => s.setRec { r with logged := false })

/-- Records that serve nothing any more are forgotten: not logged, not open, and not the last of their source (R509, R605). -/
def State.forgetRecs (s : State) : State :=
  let last := fun (r : EvRec) => !s.fm.recs.any (fun x => x.src == r.src && later 32 x.seq r.seq)
  { s with fm := { s.fm with recs := s.fm.recs.filter (fun r => r.logged || r.isOpen || last r || r.seq == fld (s.rd Objs.fm_first_fault) 352 32) } }

/-! ## Reactions (R501 to R503, R513) -/

/-- NOTIFY: a copy of the record at its creation. -/
def State.notify (s : State) (r : EvRec) : State :=
  let b := leBytes 48 r.word
  let ring := s.rd Objs.fm_event_ring
  let chan := s.rd Objs.str_event_channel
  let s1 := if ring = 255 then s else s.deliver ring 4 b
  if chan = 255 then s1 else s1.offer chan 5 b

/-- The bit of fm_summary for a class. -/
def State.summarise (s : State) (cls : Nat) : State := { s with fm := { s.fm with summary := setFld s.fm.summary cls 1 1 } }

/-- AUTOTOMY: the unit is isolated, and what that raises merges into the record. -/
def State.autotomy (s : State) (r : EvRec) : EvRec × State :=
  match s.isolable r.utype r.unit with
  | none => (r, s)
  | some (t, u) =>
    if (s.rd Objs.fm_autotomy_enable = 0 ∧ r.src ≠ 82) ∨ s.isolated t u = true then ({ r with suppressed := true }, s)
    else
      let s1 := s.isolateUnit t u
      let new := s1.fm.raised.drop s.fm.raised.length
      let mine := new.filter (fun o => decide (s1.evClass o.src ≤ r.cls))
      let rest := new.filter (fun o => !decide (s1.evClass o.src ≤ r.cls))
      let s2 : State := { s1 with fm := { s1.fm with raised := s.fm.raised ++ rest.map (fun o => { o with cause := some (r.utype, r.unit) }) } }
      let s3 := mine.foldl (fun (s : State) o => (s.bump Objs.ev_count o.src).wr Objs.ev_last_time o.src o.wtime) s2
      let s3 := mine.foldl (fun (s : State) o => s.summarise (s.evClass o.src)) s3
      ({ r with reacted := setFld r.reacted 3 1 1, merged := min (r.merged + mine.length) 65535 }, s3)

/-- A record is created and its reactions taken (R509, R510, R605). -/
def State.createRec (s : State) (o : Occ) (cls count dt mask : Nat) (esc multi : Bool) : State :=
  let seq := s.rd Objs.fm_log_next_seq
  let first := decide (2 ≤ cls) && !s.fm.firstHeld
  let r : EvRec :=
    ⟨seq, o.wtime, o.src, cls, evBaseClass o.src, esc, first, multi, true, 0, decide (cls = 3), false, o.utype, o.unit, min count 65535, 0,
      dt, o.detail, false, false, s.fNs, o.ftime, o.item⟩
  let s1 := s.wr Objs.fm_log_next_seq 0 ((seq + 1) % 2 ^ 32)
  let (r1, s2) := if bit mask 3 then s1.autotomy r else (r, s1)
  let (r2, s3) := if bit mask 0 then
      match s2.logRoom cls with
      | some t => ({ r1 with logged := true, reacted := setFld r1.reacted 0 1 1 }, t)
      | none => (r1, { s2 with fm := { s2.fm with summary := setFld s2.fm.summary 7 1 1 } }.bump Objs.fm_lost cls)
    else (r1, s2)
  let r3 := { r2 with reacted := setFld r2.reacted 1 2 (mask / 2) }
  let s4 : State := { s3 with fm := { s3.fm with recs := s3.fm.recs ++ [r3] } }
  let s5 := if first then { s4 with fm := { s4.fm with firstHeld := true } }.wr Objs.fm_first_fault 0 r3.word else s4
  let s6 := if bit mask 1 then s5.notify { r3 with merged := 0 } else s5
  (if bit mask 2 then s6.croakReact else s6).forgetRecs

/-! ## Taking occurrences (R506 to R509) -/

/-- The source taken first among those that wait: the highest class, then the lowest number. -/
def State.nextSource (s : State) : Option Nat :=
  s.fm.raised.foldl (fun (b : Option Nat) o =>
    match b with
    | none => some o.src
    | some x =>
      if s.evClass x < s.evClass o.src ∨ (s.evClass x = s.evClass o.src ∧ o.src < x) then some o.src else some x) none

/-- R515: the device enters the safe state; with safe_tx = PASS_THROUGH the Eft takes the watch ports (R542). -/
def State.enterSafe (s : State) : State :=
  let t := ({ s with fm := { s.fm with safe := true, releasePending := false, firstFaultPending := true } }.setCroak .pulse).croakTimer
  let u := t.wr Objs.power_state 0 5
  if u.rd Objs.safe_tx = 1 then u.carryOver else { u with eft := { u.eft with carry := none } }

/-- fm_summary as it reads (R513). -/
def State.fmSummary (s : State) : Nat :=
  s.fm.summary + s.rd Objs.croak_level * 16 + b2n s.fm.safe * 32 + b2n ((List.range 250).any s.escalated) * 64

/-- fm_log_entry as it reads: the record that fm_log_select names, while the log holds it (R605). -/
def State.logEntry (s : State) : Nat :=
  ((s.fm.recs.find? (fun r => r.logged && r.seq == s.rd Objs.fm_log_select)).map EvRec.word).getD 0

/-- R557: the Eft copies the objects at 0x8000 to 0x8FFF, each as it reads. -/
def State.safeCopy (s : State) : State :=
  let held := trange s.dict.objs (0x8000 * 256) (0x1000 * 256)
  let counts := s.fm.windows.foldl (fun t p => tset 0 t (Objs.ev_window_count.key p.1) p.2.c.sum) held
  let copy := tset 0 (tset 0 counts (Objs.fm_summary.key 0) s.fmSummary) (Objs.fm_log_entry.key 0) s.logEntry
  { s with eft := { s.eft with safeCopy := copy } }

/-- The record into which an occurrence is coalesced (R509). -/
def State.coalesceTarget (s : State) (src : Nat) : Option EvRec :=
  match (s.fm.recs.filter (fun r => r.src = src)).getLast? with
  | some r => if s.elapsed r.born 0 && !s.elapsed r.born (s.rd Objs.fm_coalesce_window * 1000) then some r else none
  | none => none

/-- The occurrences of one source are taken together: `o` is the earliest, `l` the latest, `n` their number. -/
def State.takeGroup (s : State) (o l : Occ) (n : Nat) (multi : Bool) : State :=
  let s0 := (s.bump Objs.ev_count o.src n).wr Objs.ev_last_time o.src l.wtime
  let cls := s0.evClass o.src
  match s0.mergeTarget o cls with
  | some r => (s0.mergeInto r n).summarise cls
  | none =>
    let dt := fun (first : Nat) => min ((modDiff wrapNs l.ftime first).toNat / 1024) (2 ^ 32 - 1)
    if cls = 3 then
      ((s0.enterSafe.summarise 3).createRec o 3 n (dt o.ftime) 7 false multi).safeCopy
    else
      let was := s0.escalated o.src
      let (now, s1) := s0.countWindow o.src n
      let cls1 := if now then 2 else cls
      let s2 := s1.summarise cls1
      match (if cls1 ≤ 1 then s2.coalesceTarget o.src else none) with
      | some r =>
        let other := !(r.utype == o.utype && r.unit == o.unit) || multi
        s2.setRec { r with count := min (r.count + n) 65535, lastDt := dt r.firstF, multi := r.multi || other }
      | none =>
        let esc := was || now
        let mask := if esc then s2.rd Objs.ev_esc_reaction o.src else s2.rd Objs.ev_reaction o.src
        s2.createRec o cls1 n (dt o.ftime) mask esc multi

/-- The occurrences of the source that comes first are taken. -/
def State.takeNext (s : State) : State :=
  match s.nextSource with
  | none => s
  | some src =>
    let mine := s.fm.raised.filter (fun o => o.src = src)
    match mine.head?, mine.getLast? with
    | some o, some l =>
      let multi := mine.any (fun x => x.utype != o.utype || x.unit != o.unit)
      let t : State := { s with fm := { s.fm with raised := s.fm.raised.filter (fun o => o.src ≠ src) } }
      t.takeGroup o l mine.length multi
    | _, _ => s

/-- EVENT_OCCURRENCE: a check of the device or of the fault manager itself may have failed first (R524). -/
def eventOccurrence (s : State) (found : DeviceCheck) : State :=
  let s1 := match found with
    | .none => s
    | .configIntegrity => s.raise 237 0
    | .faultRecord => s.raise 238 0
    | .faultManager => s.raise 239 0
  s1.closeRecs.takeNext

/-- The meaning of EVENT_OCCURRENCE. -/
def execEventOccurrence (found : DeviceCheck) (s : State) : Out := .next (eventOccurrence s found)

/-- RECORD_OPEN_LIMIT. -/
def openLimit (s : State) (seq : Nat) : State :=
  match s.recOf seq with
  | some r =>
    if r.isOpen ∧ r.cls < 3 ∧ s.elapsed r.born (s.rd Objs.fm_open_limit * 1000000) = true then s.setRec { r with isOpen := false } else s
  | none => s

/-- The meaning of RECORD_OPEN_LIMIT. -/
def execRecordOpenLimit (seq : BitVec 32) (s : State) : Out := .next (openLimit s seq.toNat)

/-! ## The sources' objects (R501, R502, R505, R522) -/

/-- A source's unit can be isolated, or lies in one that can (R501). -/
def srcIsolable (src : Nat) : Bool := evUnitType src ∈ [1, 2, 4, 5, 6, 7, 8, 10] || src == 76

/-- A reaction mask that R501 refuses for a class. -/
def maskBad (src cls mask : Nat) : Bool :=
  let allowed := if cls = 0 then 3 else if cls = 1 then 7 else if cls = 2 then 15 else 0
  mask != Nat.land mask allowed || ((cls == 1 || cls == 2) && !bit mask 0) || (bit mask 3 && !srcIsolable src)

/-- The refusals of ev_reaction, ev_esc_n, ev_esc_window and ev_esc_reaction, numbered 0 to 3. -/
def evCheck (src obj : Nat) : Nat → State → Code := fun x _ =>
  let b := evBaseClass src
  match obj with
  | 0 => if maskBad src b x || (src == 82 && !bit x 3) then .range else refuseIf (b == 3) .state
  | 3 => if maskBad src 2 x then .range else refuseIf (decide (2 ≤ b)) .state
  | _ => refuseIf (decide (2 ≤ b)) .state

/-- The object of a number. -/
def evObj (obj : Nat) : Obj :=
  match obj with
  | 0 => Objs.ev_reaction
  | 1 => Objs.ev_esc_n
  | 2 => Objs.ev_esc_window
  | _ => Objs.ev_esc_reaction

/-- A write of a source's settings; new escalation settings clear the sub-window counts. -/
def evConfig (c : Ctx) (src obj : Nat) (v : List Byte) (s : State) : State :=
  writeObj c (evObj obj) src v (evCheck src obj) (fun _ s => if obj = 1 ∨ obj = 2 then s.clearWindow src else s) s

/-- The meaning of EV_CONFIG_WRITE. -/
def execEvConfigWrite (c : Ctx) (src : Fin 250) (obj : Fin 4) (v : List Byte) (s : State) : Out :=
  .next (evConfig c src.val obj.val v s)

/-- A write of ev_clear. -/
def evClear (c : Ctx) (src : Nat) (v : List Byte) (s : State) : State :=
  writeObj c Objs.ev_clear src v noCheck (fun _ s => (s.wr Objs.ev_escalated src 0).clearWindow src) s

/-- The meaning of EV_CLEAR. -/
def execEvClear (c : Ctx) (src : Fin 250) (v : List Byte) (s : State) : Out := .next (evClear c src.val v s)

/-! ## The fault manager's objects (R510, R512, R513, R523) -/

/-- Records up to a LOG_SEQ are acknowledged. -/
def logAck (x : Nat) (s : State) : State :=
  { s with fm := { s.fm with recs := s.fm.recs.map (fun r => if 0 ≤ wrapDiff 32 x r.seq then { r with acked := true } else r) } }

/-- The meaning of FM_LOG_ACK. -/
def execFmLogAck (c : Ctx) (v : List Byte) (s : State) : Out := .next (writeObj c Objs.fm_log_ack 0 v noCheck logAck s)

/-- The meaning of FM_SUMMARY_CLEAR. -/
def execFmSummaryClear (c : Ctx) (v : List Byte) (s : State) : Out :=
  .next (writeObj c Objs.fm_summary_clear 0 v noCheck (fun _ s => { s with fm := { s.fm with summary := 0 } }) s)

/-- The meaning of FM_FIRST_CLEAR. -/
def execFmFirstClear (c : Ctx) (v : List Byte) (s : State) : Out :=
  .next (writeObj c Objs.fm_first_clear 0 v noCheck
    (fun _ s => { s with fm := { s.fm with firstHeld := false } }.wr Objs.fm_first_fault 0 0) s)

/-- The unit that a value of fm_isolate or fm_regrow names; none outside its Range. -/
def fmUnit (x : Nat) : Option (Nat × Nat) :=
  let t := fld x 24 8
  let u := fld x 0 16
  if fld x 16 8 = 0 ∧ u < unitCount t then some (t, u) else none

/-- The refusals of fm_isolate. -/
def fmIsolateCheck : Nat → State → Code := fun x s =>
  match fmUnit x with
  | none => .range
  | some (t, u) => refuseIf (s.isolated t u) .state

/-- The meaning of FM_ISOLATE. -/
def execFmIsolate (c : Ctx) (v : List Byte) (s : State) : Out :=
  .next (writeObj c Objs.fm_isolate 0 v fmIsolateCheck (fun x s => match fmUnit x with
    | some (t, u) => s.isolateUnit t u
    | none => s) s)

/-- The refusals of fm_regrow (R518). -/
def fmRegrowCheck : Nat → State → Code := fun x s =>
  match fmUnit x with
  | none => .range
  | some (t, u) => refuseIf (!s.isolated t u || s.regrowsNow t u) .state

/-- The meaning of FM_REGROW. -/
def execFmRegrow (c : Ctx) (v : List Byte) (s : State) : Out :=
  .next (writeObj c Objs.fm_regrow 0 v fmRegrowCheck (fun x s => match fmUnit x with
    | some (t, u) => (s.startRunOn c (Objs.fm_regrow.key 0) (256 * t + u) 8).regrowUnit t u
    | none => s) s)

end Sys2Proof.Machine
end

