-- ==== Sys2Proof/Machine/Stream.lean ====
section
/-! DEFINITION. The stream port (chapter 17): alignment, the flow-control calendar, bursts. -/

namespace Sys2Proof.Machine

/-- The time that the channels were XOFF is counted up to now (str_xoff_time). -/
def xoffAccount (s : State) : State :=
  let t := (List.range 64).foldl (fun t c => t.bump Objs.str_xoff_time c (s.xoffNs c)) s
  { t with str := { t.str with xoffMark := s.fNs } }

/-- The calendar statuses that are due join the calendar in effect. -/
def fcSettle (s : State) : State :=
  let s := xoffAccount s
  { s with str := { s.str with xon := s.xonCalendar, fcPend := s.str.fcPend.filter (fun e => !s.elapsed e.1 0) } }

/-- R479: the link state, with EV225 on entry to UP and EV224 on each exit. -/
def setLink (s : State) (st : Nat) : State :=
  let old := s.rd Objs.str_link_state
  let s := s.wr Objs.str_link_state 0 st
  if old ≠ 2 ∧ st = 2 then s.raise 225 0 else if old = 2 ∧ st ≠ 2 then s.raise 224 0 else s

/-- R479: the receive lanes are aligned. -/
def State.strAligned (s : State) : Bool := s.rd Objs.str_lane_lock == 255 && s.str.deskewed

/-- R479: the link state that the enable, the alignment and the status seen give. -/
def relink (s : State) : State :=
  if s.rd Objs.str_enable = 0 then setLink s 0
  else if s.strAligned = false then
    setLink { s with str := { s.str with statusSeen := false } } 1
  else if s.str.statusSeen then setLink s 2
  else setLink s 1

/-- R487: SEQ is 0 for the first record after the stream port is enabled. -/
def clearSeqs (s : State) : State := (List.range 64).foldl (fun s c => s.wr Objs.str_chan_seq c 0) s

/-- A write of str_enable is accepted and enables the stream port. -/
def State.strStarts (s : State) (c : Ctx) (v : List Byte) : Bool :=
  s.pathServed c && decide (judgeWrite c Objs.str_enable 0 v noCheck s = .ok) && s.rd Objs.str_enable == 0 && leNat v == 1

/-- A write of str_enable (R479); the record of its own journal entry is the first that may be offered (R487). -/
def writeStrEnable (c : Ctx) (v : List Byte) (s : State) : State :=
  let t := if judgeWrite c Objs.str_enable 0 v noCheck s = .ok then fcSettle s else s
  let t := if t.strStarts c v then clearSeqs { t with str := { t.str with statusSeen := false } } else t
  writeObj c Objs.str_enable 0 v noCheck (fun _ s => relink s) t

/-- The meaning of STR_ENABLE_WRITE. -/
def execStrEnableWrite (c : Ctx) (v : List Byte) (s : State) : Out := .next (writeStrEnable c v s)

/-- R479: the receive lanes' lock and deskew change. -/
def strLaneLock (lock : Nat) (deskewed : Bool) (s : State) : State :=
  let s := (fcSettle s).wr Objs.str_lane_lock 0 lock
  relink { s with str := { s.str with deskewed := deskewed } }

/-- The meaning of STR_LANE_LOCK_CHANGE. -/
def execStrLaneLockChange (lock : BitVec 8) (deskewed : Bool) (s : State) : Out :=
  .next (strLaneLock lock.toNat deskewed s)

/-- R480: a control word; Reset Calendar marks the first of a round. One with a bad CRC-24 takes its place in the round and changes nothing
else. -/
def fcWord (crcOk reset : Bool) (status : Nat) (s : State) : State :=
  let s := fcSettle s
  if crcOk = false then
    ({ s with str := { s.str with calPos := (s.str.calPos + 1) % 4 } }.bump Objs.str_fc_crc_err).raise 228 0
  else
    let g := if reset then 0 else s.str.calPos
    let pend := s.str.fcPend ++ [(s.fNs + 100, g, status)]
    let s := { s with str := { s.str with fcPend := pend, calPos := (g + 1) % 4, lastGood := s.fNs, fcLost := false,
                                           statusSeen := s.str.statusSeen || s.strAligned } }
    relink s

/-- The meaning of FC_CONTROL_WORD. -/
def execFcControlWord (crcOk reset : Bool) (status : BitVec 16) (s : State) : Out :=
  .next (fcWord crcOk reset status.toNat s)

/-- R480: no good control word for str_fc_timeout. -/
def fcTimeout (s : State) : State :=
  if s.elapsed s.str.lastGood (s.rd Objs.str_fc_timeout) then
    let s := fcSettle s
    { s with str := { s.str with fcLost := true } }
  else s

/-- The meaning of FC_TIMEOUT. -/
def execFcTimeout (s : State) : Out := .next (fcTimeout s)

/-- R481: the next channel in round robin that is XON and holds a record whose next burst has been read from staging. -/
def nextChan (s : State) : Option Nat :=
  ((List.range 64).map (fun i => (s.str.rr + 1 + i) % 64)).find? (fun c => s.chanXon c && !(s.chan c).recs.isEmpty && (s.chan c).reads == 0)

/-- R494: the `n` entries from trace index `a` of a clutch were in a record that was discarded: those its trace buffer still holds
are offered again, the others were overwritten before they were exported (R574). -/
def State.traceAgain (s : State) (c a n : Nat) : State :=
  let b := s.traceBuf c
  let lo := max a b.first
  let s1 := s.bump Objs.trace_lost c (min n (lo - a))
  if lo < a + n then
    s1.setTrace c { b with again := b.again.filter (·.1 < lo) ++ [(lo, a + n)] ++ b.again.filter (lo < ·.1) }
  else s1

/-- R460, R494: the source learns that a record was transmitted or discarded. -/
def refEnd (s : State) (r : RecRef) (sent : Bool) : State :=
  match r with
  | .none => s
  | .journal seq => s.journalMark seq sent false
  | .trace c a n => if sent then s else s.traceAgain c a n

/-- R494: the head record of a channel is discarded. -/
def dropHead (s : State) (c : Nat) : State :=
  let x := s.chan c
  match x.recs with
  | [] => s
  | r :: rest => refEnd (((s.setChan c { x with recs := rest, sent := 0 }).stageFetch c).bump Objs.str_lost c) r.ref false

/-- R481: one burst of the head record of a channel: 256 B, or the remainder. -/
def sendBurst (s : State) (c : Nat) : State :=
  let x := s.chan c
  match x.recs with
  | [] => s
  | r :: rest =>
    let n := min 256 (r.bytes.length - x.sent)
    let last := decide (r.bytes.length ≤ x.sent + n)
    let s := s.put (.burst c (decide (x.sent = 0)) last (slice r.bytes x.sent n))
    let s := { s with str := { s.str with rr := c } }
    if last then refEnd (((s.setChan c { x with recs := rest, sent := 0 }).stageFetch c).bump Objs.str_records c) r.ref true
    else (s.setChan c { x with sent := x.sent + n }).stageFetch c

/-- R494: the head record of a channel was not written whole, or a granule of it lies in a pseudo-channel that answers MEM_FROZEN. -/
def State.headLost (s : State) (c : Nat) : Bool :=
  match (s.chan c).recs with
  | [] => false
  | r :: _ => r.lost || r.places.any (fun p => s.pcRefuses (swPc p))

/-- R507: the pseudo-channel whose MEM_FROZEN loses a channel's oldest record. -/
def State.headFrozen (s : State) (c : Nat) : Option (Nat × Nat) :=
  ((s.chan c).recs.head?.bind (fun r => r.places.find? (fun p => s.pcRefuses (swPc p)))).map (fun p => (8, swPc p))

/-- STR_BURST_SEND (R481, R494); the journal then offers its next entry (R460). -/
def strBurstSend (g : StageRead) (s : State) : State :=
  match nextChan s with
  | none => s
  | some c =>
    if s.headLost c then ((dropHead s c).raise 229 c 0 (s.headFrozen c)).journalOffer
    else match g with
    | .good => (sendBurst s c).journalOffer
    | .fifoCorrected => ((sendBurst s c).raise 230 0).journalOffer
    | .fifoUncorrected => ((dropHead s c).raise 231 0).journalOffer

/-- The meaning of STR_BURST_SEND. -/
def execStrBurstSend (staged : StageRead) (s : State) : Out := .next (strBurstSend staged s)

/-- The meaning of STR_RX_PACKET (R478). -/
def execStrRxPacket (s : State) : Out := .next (s.bump Objs.str_rx_discard)

/-- R484, R496: settings that are refused while str_enable is 1. -/
def strOffOnly : Nat → State → Code := fun _ s => refuseIf (s.rd Objs.str_enable == 1) .state

/-- R491: the reserved fields and the SNAP_LEN range of a mirror session. -/
def mirrorCheck : Nat → State → Code :=
  fun x _ =>
    if fld x 56 7 ≠ 0 ∨ fld x 38 2 ≠ 0 ∨ fld x 0 21 ≠ 0 then .type
    else refuseIf (fld x 40 16 < 64 || 9216 < fld x 40 16) .range

end Sys2Proof.Machine
end

