-- ==== Sys2Proof/Machine/Resets.lean ====
section
/-! DEFINITION. What a reset of the core keeps and restores (R532 to R534, R82, R165, R213, R230, R298, R336, R347, R384, R394), and the
boot (R577 to R580). -/

namespace Sys2Proof.Machine

/-- The core's resets that keep something. -/
inductive CoreReset where
  | warm | brumation | cold
deriving DecidableEq, Repr

/-! ## The dictionary (R532) -/

/-- The object that a key belongs to. -/
def objOf (k : Nat) : Option Obj :=
  (Objs.pageOf (k / 256)).find? (fun o =>
    decide (o.idx ≤ k / 256) && decide (k / 256 < o.idx + o.n) && decide (o.sub ≤ k % 256) && decide (k % 256 < o.sub + o.m))

/-- The instance of an object that a key names. -/
def instOf (o : Obj) (k : Nat) : Nat := (k / 256 - o.idx) * o.m + (k % 256 - o.sub)

/-- The persistence class of a key's object. -/
def clsOf (k : Nat) : Cls := ((objOf k).map (·.cls)).getD .v

/-- A class survives. -/
def survives (r : CoreReset) (k : Cls) : Bool :=
  match r, k with
  | _, .n => true
  | _, .c => true
  | .cold, _ => false
  | _, .w => true
  | _, _ => false

/-- The dictionary unit after a reset: what survives of the objects; the journal but after a cold reset. -/
def DictUnit.after (u : DictUnit) (r : CoreReset) : DictUnit :=
  { DictUnit.init with
    objs := u.objs.filter (fun p => survives r (clsOf p.1)),
    journal := if r = .cold then [] else u.journal.map (fun e => { e with offered := false }) }

/-- A copy of the class-N values (R475). -/
def State.nImage (s : State) : NImage :=
  ⟨s.dict.objs.filter (fun p => clsOf p.1 == .n), s.tm.polCfg, s.tm.redProf, s.fsu.keyTmpl⟩

/-! ## The units -/

/-- The time of a record's creation once the clock it was taken from has restarted: no later time comes within its window. -/
def EvRec.aged (r : EvRec) : EvRec := { r with born := r.born + 2 ^ 64 }

/-- The fault manager: records, log and pins are kept, no record stays open, and what it has not taken is gone (R533); after a cold reset it starts
anew in BOOT. -/
def FaultMgr.after (m : FaultMgr) (r : CoreReset) : FaultMgr :=
  match r with
  | .cold => { FaultMgr.init with croak := .boot }
  | _ =>
    let close := fun (x : EvRec) => if x.cls < 3 then { x with isOpen := false } else x
    { m with raised := [], recs := m.recs.map (fun x => if r = .brumation then (close x).aged else close x), windows := [], regrowing := [], passed := [] }

/-- The objects of a table of slots that are visible under a hue (R82). -/
def keptSlots (h : Nat) (t : Tab Tagged) : Tab Tagged := t.filter (fun p => visible p.2.header h)

/-- The rules visible under a hue, with the second slots of WIDE rules. -/
def keptRules (h : Nat) (t : Tab Tagged) : Tab Tagged :=
  t.filter (fun p =>
    let first := tget Tagged.free t (p.1 - 1)
    visible p.2.header h || (p.1 % 2 == 1 && visible first.header h && hdrWide first.header))

/-- The hue unit restored from the shadows. DESIGN CHOICE (log 65): every object is restored as if one of its shadow copies could be read, and
no slot is marked damaged after it; the spec says what an unreadable shadow does to a lookup (R83), not to a warm restore. -/
def HueUnit.restored (u : HueUnit) (h : Nat) : HueUnit :=
  { HueUnit.init with rules := keptRules h u.rules, missNow := u.missNow, keyedNow := u.keyedNow, disp0 := u.disp0, nextPid := u.nextPid }

/-- A controller goes into self-refresh (R394): it issues every write it has accepted (R529), and those that still wait where the reset is
orderly; what else waits ends. Repairs are kept, and a pseudo-channel that serves is asleep. -/
def State.sleepPc (s : State) (p : Nat) (orderly : Bool) (now : Nat) : State :=
  let x := s.ctl p
  let waiting := x.wait.filterMap HbmAsk.asWrite
  let lost := if orderly then [] else waiting.map (fun w => { w with undo := w.undo.filter (fun u => match u with
    | .bar2 _ _ => false
    | _ => true) })
  let out := if orderly then x.wq ++ waiting else x.wq
  let t := lost.reverse.foldl State.loseWrite s
  let h := out.foldl (fun (h : Hbm) w => h.stored p w) t.hbm
  ({ t with hbm := h } : State).setCtl p { HbmCtl.init with
    marks := x.marks, sppr := x.sppr, hpprUsed := x.hpprUsed, patrolStart := if x = HbmCtl.init then 0 else now, asleep := s.pcServes p }

/-- Every controller goes into self-refresh (R394). -/
def State.hbmSleep (s : State) (orderly : Bool) (now : Nat) : State :=
  let t := (List.range 128).foldl (fun (s : State) p => s.sleepPc p orderly now) s
  { t with hbm := { t.hbm with bar2 := [], bar2Held := [] } }

/-- HBM at a cold reset: every controller trains anew, soft repairs are lost, and the hard-repair resources used stay used (R407). -/
def Hbm.cold (h : Hbm) : Hbm :=
  let keep := fun (x : HbmCtl) => ({ HbmCtl.init with hpprUsed := x.hpprUsed } : HbmCtl)
  { Hbm.init with bar2Tag := h.bar2Tag, ctls := (h.ctls.map (fun p => (p.1, keep p.2))).filter (fun p => decide (p.2 ≠ HbmCtl.init)) }

/-- A thaw or regrowth that a reset interrupts ends without success (R394); a pseudo-channel not yet readmitted is retired again. -/
def State.endHbmJobs (s : State) : State :=
  (List.range 128).foldl (fun (s : State) p =>
    if s.pcState p = 3 then s.wr Objs.hbm_state p 2
    else if s.pcState p = 5 then (s.wr Objs.hbm_state p 4).setRetired p true
    else s) s

/-- Every clutch reloads its store from the golden copy, with bank 0 from its shadow, and checks it as R163 describes (R165); a reload of which
`reloads` says nothing finds HBM1's copy good and its CRC equal. -/
def State.reloadAll (s : State) (reloads : List StoreReload) : State :=
  (List.range 16).foldl (fun (s : State) c =>
    let t := s.setCs c { s.cs c with disp := s.hue.disp0, repairing := [] }
    match reloads.find? (fun r => r.clutch.val = c) with
    | some r => reloadClutch t c r.copy r.mismatches.val
    | none => reloadClutch t c .first 0) s

/-- Policer buckets and shaper tokens as FILL states them (R336, R347). -/
def State.freshTokens (s : State) : State :=
  let pols := s.tm.polCfg.map (fun p => (p.1, ({ PolState.init with tc := (polFill p.2).1, te := (polFill p.2).2 } : PolState)))
  let s1 : State := { s with tm := { s.tm with pols := pols } }
  let shapers := fun (o : Obj) => s.dict.objs.filter (fun p => match objOf p.1 with
    | some x => x.name == o.name
    | none => false)
  let s2 := (shapers Objs.queue_shaper).foldl (fun (s : State) p =>
    let i := instOf Objs.queue_shaper p.1
    shApply (i / 8) (i % 8) p.2 s) s1
  (shapers Objs.port_shaper).foldl (fun (s : State) p => shApply (instOf Objs.port_shaper p.1) 8 p.2 s) s2

/-- How many frames the device holds. -/
def State.framesHeld (s : State) : Nat :=
  (s.ports.inq.foldl (fun n p => n + p.2.length) 0) + s.hue.holders.length +
    s.eg.ports.foldl (fun n p => n + p.2.waiting + p.2.cal.length) 0

/-- What every reset of the core clears, whatever else it keeps; the locks of command rings are released (R432). -/
def State.clearCore (a : State) (r : CoreReset) : State :=
  let s := a.releaseAll
  { s with
    dict := s.dict.after r, fm := s.fm.after r, str := { StreamPort.init with xoffMark := s.fNs },
    host := if r = .cold then HostIf.init else s.host.restart,
    ports := PortUnit.init, tm := { TmUnit.init with polCfg := s.tm.polCfg, redProf := s.tm.redProf }, eg := EgressUnit.init,
    cu := CommitUnit.init, dbg := DebugUnit.init }

/-- R544: over a core reset the Eft keeps up the link of a watch port that it carries; `a` is the state before. -/
def State.keepLink (a s : State) (p : Nat) : State :=
  if a.carries p && a.isUp p then
    let s1 := s.setPl p (a.pl p)
    let sig := (a.lanesOf p).foldl (fun x l => setFld x l 1 (b2n (a.laneSignal l))) s1.ports.sig
    let s2 : State := { s1 with ports := { s1.ports with sig := sig } }
    (((s2.wr Objs.link_state p 2).wr Objs.lane_lock p (a.rd Objs.lane_lock p)).wr Objs.speed_active p (a.rate p)).wr Objs.ts_state p 1
  else s

/-- The time unit over a warm reset: the core reset does not touch it (R525), but the event FIFOs and the phase intervals of class V
start anew (R532). -/
def TimeUnit.warm (u : TimeUnit) : TimeUnit := { u with quiet := [], evtFifo := TimeUnit.init.evtFifo }

/-- The core reset of a warm reset or of brumation: what R532 keeps or restores. `mac` says that the MAC entries were saved. -/
def State.coreWarm (s : State) (r : CoreReset) (mac : Bool) : State :=
  let a := (s.hbmSleep (s.eft.orderly || r = .brumation) (if r = .warm then s.fNs else 0)).hueAbort
  let h := a.hueActive
  let t := a.clearCore r
  let pat := { PatternUnit.init with sets := keptSlots h a.pat.sets, words := a.pat.words }
  let nat := if a.rd Objs.nat_restore = 1 then a.tbl.nat else []
  let tbl := { TableUnit.init with nat := nat, lpm4 := a.tbl.lpm4, lpm6 := a.tbl.lpm6,
                                   mcg := a.tbl.mcg, edit := a.tbl.edit, mbrSet := a.tbl.mbrSet, mbr := a.tbl.mbr,
                                   mbrBkt := a.tbl.mbrBkt }
  let fsu := { Fsu.init with slots := a.fsu.slots, bktAlt := a.fsu.bktAlt, stash := a.fsu.stash, paths := a.fsu.paths,
                             keyTmpl := a.fsu.keyTmpl, tmpls := keptSlots h a.fsu.tmpls, sweepStart := a.fNs }
  let u : State :=
    { t with hue := a.hue.restored h, pat := pat, tbl := tbl, fsu := fsu, hbm := { a.hbm with macSave := if mac then a.hbm.macSave else [] },
             time := a.time.warm, sk := { SkinkUnit.init with golden := a.sk.golden } }
  let v := (((u.wr Objs.hue_oldest 0 h).wr Objs.w_inc 0 u.time.incW).endHbmJobs).freshTokens
  [240, 244, 248, 252].foldl a.keepLink v

/-- The core reset of a cold reset: everything but the Eft, class C and class N. -/
def State.coreCold (s : State) : State :=
  let t := s.clearCore .cold
  let u : State :=
    { t with hue := { HueUnit.init with nextPid := s.hue.nextPid }, pat := PatternUnit.init, tbl := TableUnit.init,
             fsu := { Fsu.init with keyTmpl := s.fsu.keyTmpl }, hbm := s.hbm.cold, sk := SkinkUnit.init, time := TimeUnit.init,
             str := StreamPort.init }
  u.wr Objs.croak_level 0 1

/-! ## Clocks -/

/-- The state a domain starts in (R384, R371). -/
def State.startDomain (s : State) (d : Nat) : State :=
  s.wr Objs.dom_state d (if s.rd Objs.dom_enable d = 0 then 0 else if s.rd Objs.dom_mode d = 1 then softState s d else 1)

/-- RPLL lock: F starts at 0, and A, B and W at a value in counter units; W is FREE (R384). -/
def State.lockClocks (s : State) (t : Nat) : State :=
  let u : State := { s with time := { TimeUnit.init with a := t, b := t, w := t, ppsHigh := [false, false] },
                            eft := { s.eft with clocks := true }, str := { s.str with xoffMark := 0 } }
  let v := ((((u.wr Objs.w_state 0 0).wr Objs.w_inc 0 incNom).wr Objs.dom_inc 0 incNom).wr Objs.dom_inc 1 incNom)
  ((v.startDomain 0).startDomain 1).freshTokens

/-- The coarse time in counter units. -/
def State.coarseUnits (s : State) : Nat := stampLin (s.rd Objs.coarse_time) * 2 ^ 24 % ctrWrap

/-- R541: the Eft loads coarse time from W, rounded down to 40 ns. -/
def State.coarseLoad (s : State) : State := s.wr Objs.coarse_time 0 (linStamp (stampLin s.wStamp / 2621440 * 2621440))

/-! ## The flow store at a restart (R230) -/

/-- R230: the moves in the log are completed from step 4 of R229. -/
def State.endMoves (s : State) : State :=
  let t := s.fsu.paths.foldl (fun (s : State) p => match p.moves with
    | m :: _ => s.endMove m
    | [] => s) s
  { t with fsu := { t.fsu with paths := [] } }

/-- R230: the scan deletes every record with CHECKED_OUT = 1 that it can read under R226 and raises EV116 with their number. -/
def State.flowScan (s : State) : State :=
  let t := s.endMoves
  let out := (((t.fsu.slots.filter (fun p => t.placeServes p.1)).map (·.2)) ++ t.fsu.stash.map (·.2)).filter recOut
  ((out.map recKey).foldl State.delStale t).raise 116 0 out.length

/-! ## Ports -/

/-- The ports start as their objects state: speeds, the pairs of R44 (EV012 for those that are invalid), and admin_up; a watch port whose link was kept up is UP at once (R530 step 5, R544). -/
def State.startPorts (s : State) : State :=
  let speeds := (List.range 256).foldl (fun (s : State) p =>
    let v := speedOf (s.portMode p) (s.rd Objs.usx_speed p) 0
    if v = 0 then s else s.wr Objs.speed_active p v) s
  let speeds := speeds.pairBads.dedup.foldl (fun (s : State) p => s.raise 12 p) speeds
  (List.range 256).foldl (fun (s : State) p =>
    if s.isUp p then s.setPl p { s.pl p with since := s.fNs }
    else if s.rd Objs.admin_up p = 1 ∧ s.link p = 0 then s.powerUp p else s) speeds

/-- Every VALID MAC entry is saved to HBM1, one after another (R298, R391); one whose pseudo-channel answers MEM_FROZEN is not. -/
def State.saveMac (s : State) : State :=
  let placed := (s.tbl.mac.take macPlaces).zipIdx
  ({ s with hbm := { s.hbm with macSave := placed.map (fun e => (e.2, e.1)) } } : State).macWrites (placed.map (·.2))

/-- The MAC entries that were saved return with LAST_SEEN := now and MOVE_COUNT := 0 (R298). -/
def State.restoreMac (s : State) : State :=
  let saved := s.hbm.macSave.filter (fun p => !s.pcRefuses (macSavePc p.1))
  ({ s with hbm := { s.hbm with macSave := [] } } : State).setMac (saved.map (fun p => (p.2.1, setFld (setFld p.2.2 44 16 s.macNow) 9 3 0)))

/-- The watch ports are handed back (R544); power_state becomes ACTIVE; last_reset is written and EV242 raised with it (R527, R530); what the Eft held in brumation is
delivered (R538). -/
def State.nowActive (s0 : State) : State :=
  let s := s0.passOut true
  let held := s.eft.queue.map (fun o => (⟨o.src, o.utype, o.unit, o.detail, o.time, s.fNs, none, 0⟩ : Occ))
  let e := { s.eft with phase := .running, kind := 0, orderly := false, macSaved := false, carry := none, fifoA := [], fifoB := [], queue := [], wakeHeld := false,
                        active := s.eftNs }
  let t : State := { s with eft := e, fm := { s.fm with raised := s.fm.raised ++ held } }
  ((t.wr Objs.power_state 0 0).wr Objs.last_reset 0 s.eft.trigger).raise 242 0 s.eft.trigger

/-! ## Boot (R577 to R580) -/

/-- The checks of R157 on the FULL image of a boot: a code, or its content. -/
def fullCheck (b : List Byte) (limit : Nat) : Except Nat Golden :=
  if headerBad false b limit ∨ imgKind b ≠ 1 then .error 2
  else if crcBad b then .error 3
  else if bankBad b then .error 9
  else if encodingBad b then .error 4
  else
    let g := imgContent b ⟨0, [], [], []⟩
    if storeCrc g ≠ imgStoreCrc b then .error 7 else .ok g

/-- The checks of R157 on the HUE image of a boot. -/
def hueCheck (b : List Byte) (limit : Nat) : Nat := if headerBad true b limit then 2 else if crcBad b then 3 else 0

/-- The content of the FULL image goes into all 16 clutches, with its golden copies (R158); a clutch of `bad`, whose store reads back wrong twice, is
isolated with EV082. -/
def State.bootClutches (s : State) (g : Golden) (bad : List Nat := []) : State :=
  let s1 := ({ s with sk := { s.sk with golden := [g] } } : State).goldenWrites g.image
  (List.range 16).foldl (fun (s : State) c =>
    if bad.contains c then ((s.setCs c (storeOf ClutchStore.init g)).raise 82 c).isolateClutch c
    else ((s.setCs c (storeOf ClutchStore.init g)).wr Objs.clutch_image c g.image).raise 84 c) s1

/-- The bank-0 entries of a device that has had no hue but 0xFFFF: none valid, SW the oldest hue. -/
def bootBank0 : Tab Nat := (List.range 256).map (fun i => (i, entryPar 65535))

/-- Bank 0 as a boot starts it, in every clutch and in the shadow. -/
def State.freshBank0 (s : State) : State :=
  let s1 : State := { s with hue := { s.hue with disp0 := bootBank0 } }
  (List.range 16).foldl (fun (s : State) c => s.setCs c { s.cs c with disp := bootBank0 ++ (s.cs c).disp.filter (fun p => 256 ≤ p.1) }) s1

/-- Bank 0 without the entries that a boot did not stage: those read 0, SW included (R149). -/
def bootedBank0 (t : Tab Nat) : Tab Nat := t.filter (fun p => decide (256 ≤ p.1 ∨ p.2 ≠ entryPar 65535))

/-- The entries of bank 0 that the HUE image did not stage are as their reset columns say, in every clutch and in the shadow. -/
def State.settleBank0 (s : State) : State :=
  let s1 : State := { s with hue := { s.hue with disp0 := bootedBank0 s.hue.disp0 } }
  (List.range 16).foldl (fun (s : State) c => s.setCs c { s.cs c with disp := bootedBank0 (s.cs c).disp }) s1

/-- The HUE image becomes hue 0: it is staged as the hue after 0xFFFF; none where a record is refused. No commit has started a pass of the
scrubber (R84). -/
def State.bootHue (s : State) (b : List Byte) (limit : Nat) : Option State :=
  let s1 := ((s.wr Objs.hue_active 0 65535).wr Objs.hue_oldest 0 65535).freshBank0
  match stageImage s1 b limit with
  | (s2, 0) => some ((s2.settleBank0.advanceHue.wr Objs.hue_commit_time 0 0).wr Objs.hue_scrub_busy 0 0)
  | (_, _) => none

/-- Both images are loaded; none where a check fails or R79 does not accept the pair. -/
def State.bootLoad (s : State) (full hue : List Byte) (bad : List Nat := []) : Option State :=
  match fullCheck full full.length with
  | .error _ => none
  | .ok g =>
    if hueCheck hue hue.length = 0 ∧ imageServes g.image (imgId hue) = true then (s.bootClutches g bad).bootHue hue hue.length else none

/-- The end of a boot: ports, boot_status DONE, ACTIVE, CROAK_N leaves BOOT. -/
def State.bootDone (s : State) (slot : Nat) : State :=
  (((relink s.startPorts).wr Objs.boot_status 0 3).wr Objs.boot_slot 0 slot).nowActive.croakBooted false

/-- A boot slot has a valid directory (R578). -/
def slotValid (b : List Byte) : Bool := le32 b 0 == 0x544F4F42 && le32 b 60 == crc32 (b.take 60)

/-- GENERATION. -/
def slotGen (b : List Byte) : Nat := le32 b 4

/-- The FULL image of a slot. -/
def slotFull (b : List Byte) : List Byte := slice b (le32 b 8) (le32 b 12)

/-- The HUE image of a slot. -/
def slotHue (b : List Byte) : List Byte := slice b (le32 b 16) (le32 b 20)

/-- The slots in the order the Eft tries them: those with a valid directory, the higher GENERATION first. -/
def State.bootOrder (s : State) : List (Nat × List Byte) :=
  let a := (1, s.eft.boot0)
  let b := (2, s.eft.boot1)
  (if slotGen s.eft.boot0 < slotGen s.eft.boot1 then [b, a] else [a, b]).filter (fun p => slotValid p.2)

/-- The first slot that loads. -/
def bootFrom (bad : List Nat) : List (Nat × List Byte) → State → Option (Nat × State)
  | [], _ => none
  | (k, b) :: rest, s =>
    match s.bootLoad (slotFull b) (slotHue b) bad with
    | some t => some (k, t)
    | none => bootFrom bad rest s

/-- The steps of R579 after training and the clearing of the flow store, or the stop of R580; `bad` are the clutches whose loads fail. -/
def State.bootCore (s : State) (bad : List Nat) : State :=
  let m := s.eft.strapBoot
  let stop := fun (t : State) (st : Nat) => ({ t with eft := { t.eft with phase := .stopped } } : State).wr Objs.boot_status 0 st
  if m = 1 ∨ m = 2 ∨ m = 7 then stop s 1
  else match bootFrom bad s.bootOrder s with
    | some (k, t) => t.bootDone k
    | none => (stop s 2).croakBooted true

/-- No controller trains any more. -/
def State.trained (s : State) : Bool := (List.range 128).all (fun p => s.pcState p != 0)

/-- The boot goes on once training has ended. -/
def State.bootStep (s : State) (bad : List Nat := []) : State :=
  if s.eft.phase = .training ∧ s.fm.safe = false ∧ s.trained = true then s.bootCore bad else s

/-- The RPLL locks in a boot, and training starts; a retired pseudo-channel is not trained (R392). -/
def State.startTraining (s : State) : State :=
  let t := (s.lockClocks 0)
  let u := (List.range 128).foldl (fun (s : State) p => if s.pcRetired p then s.wr Objs.hbm_state p 4 else s) t
  ({ u with eft := { u.eft with phase := .training } } : State).bootStep

/-- The meaning of HBM_TRAINING_DONE: the boot waits for it; `bad` are the clutches whose store then reads back wrong twice (R158). -/
def execHbmTrainingDone (pc : Fin 128) (pass : Bool) (spares : Nat) (bad : List (Fin 16)) (s : State) : Out :=
  .next ((hbmTrainingDone s pc.val pass spares).bootStep (bad.map (·.val)))

/-- The rails are raised from the first on (R586), or, where they are up, the boot goes on. -/
def State.railsUp (s : State) : State :=
  if s.eft.pwrEn % 8 = 7 then
    if s.eft.resetLow then { s with eft := { s.eft with phase := .held } } else s.startTraining
  else
    let p := if s.eft.pwrEn % 8 = 0 then s.eft.pwrEn + 1 else s.eft.pwrEn
    { s with eft := { s.eft with phase := .raising, pwrEn := p, railSince := s.eftNs, railIn := none } }

/-- A cold reset starts (R525, R532, R595); `low` says that RESET_N holds it, `straps` is the BOOT_MODE sampled. -/
def State.coldReset (s : State) (trigger straps : Nat) (low : Bool) : State :=
  let t := s.coreCold
  let e := { t.eft with kind := 2, trigger := trigger, strapBoot := straps, resetLow := low, clocks := false, carry := none, fifoA := [], fifoB := [], queue := [], wakeHeld := false,
                        orderly := false, macSaved := false, since := s.eftNs, bootFull := none, bootHue := none }
  let u : State := { t with eft := e }
  ((((u.wr Objs.power_state 0 4).wr Objs.boot_status 0 0).wr Objs.boot_slot 0 0).wr Objs.boot_mode 0 straps).railsUp

end Sys2Proof.Machine
end

