-- ==== Sys2Proof/Machine/Eft.lean ====
section
/-! DEFINITION. The Eft (chapters 19 and 21): resets and their triggers, power enables, brumation, the watch ports, samplers, rules, the
watchdog, the first-fault record, and the inputs it checks. -/

namespace Sys2Proof.Machine

/-! ## Warm resets and brumation entry (R526, R528, R529, R536, R537) -/

/-- Step 1 of R528: the MACs stop and the watch ports are handed to the Eft. -/
def State.startDrain (s : State) (phase : Phase) (power : Nat) : State :=
  let t : State := { s with eft := { s.eft with phase := phase, orderly := true, since := s.eftNs } }
  (t.wr Objs.power_state 0 power).carryOver

/-- The core can be reset warm: it runs, drains, or is in its restart sequence. -/
def Phase.coreUp (p : Phase) : Bool := p == .running || p == .draining || p == .entering || p == .restart

/-- R528: an orderly warm reset; one in progress, or a higher kind, absorbs it. -/
def State.warmCommand (s : State) : State :=
  if s.fm.safe || s.eft.kind != 0 || !s.eft.phase.coreUp then s
  else
    let t : State := { s with eft := { s.eft with kind := 1, trigger := 5 } }
    t.clearDebug.startDrain .draining 4

/-- The refusals of reset_cmd: none (R526, R603). -/
def resetCheck : Nat → State → Code := noCheck

/-- The meaning of RESET_CMD_WARM. -/
def execResetCmdWarm (c : Ctx) (s : State) : Out :=
  .next (writeObj c Objs.reset_cmd 0 [1] resetCheck (fun _ s => s.warmCommand) s)

/-- The core is reset and the restart sequence is to run; only an orderly reset with the entries saved keeps the MAC table. -/
def State.resetWarm (s : State) : State :=
  let n := s.framesHeld
  let mac := s.eft.orderly && s.eft.macSaved
  let t := s.coreWarm .warm mac
  let u := (if s.eft.orderly then t.bump Objs.brum_discarded 0 n else t).bump Objs.warm_resets
  { u with eft := { u.eft with phase := .restart, since := s.eftNs } }

/-- R529: an unorderly warm reset with a trigger; R526 where it is absorbed or overrides an orderly one. -/
def State.warmUnorderly (s : State) (trigger : Nat) : State :=
  if s.fm.safe || decide (2 ≤ s.eft.kind) || !s.eft.phase.coreUp || (s.eft.kind == 1 && s.eft.phase == .restart) then s
  else
    let carried := if s.eft.phase = .running then s.carryOver else s
    let t : State := { carried with eft := { carried.eft with kind := 1, trigger := trigger, orderly := false, macSaved := false } }
    (t.wr Objs.power_state 0 4).resetWarm

/-- The meaning of WARM_N. -/
def execWarmN (s : State) : Out := .next (s.warmUnorderly 4)

/-- R536, R540: the refusals of brumation. DEDUCED (log 117): while power_state is ENTERING or WAKING both STATE (R536) and BUSY (R540) apply,
and R603 gives STATE. -/
def brumateCheck : Nat → State → Code := fun _ s =>
  let working := (List.range 128).any (fun pc => s.pcState pc == 3 || s.pcState pc == 5) || !s.sk.loads.isEmpty
  if s.rd Objs.power_state ≠ 0 then .state else refuseIf working .busy

/-- Brumation entry starts. -/
def State.enterBrumation (s : State) : State :=
  let t : State := { s with eft := { s.eft with wakeHeld := false } }
  (t.startDrain .entering 1).raise 241 0

/-- The meaning of BRUMATE. -/
def execBrumate (c : Ctx) (v : List Byte) (s : State) : Out :=
  .next (writeObj c Objs.brumate 0 v brumateCheck (fun _ s => s.enterBrumation) s)

/-- R528 step 2: what still runs or waits in the Skinks at the limit is abandoned as by LABORT, so that every line of the flow cache is evictable
(R231). -/
def State.emptySkinks (s : State) : State :=
  let t := (s.sk.threads.filter (fun p => p.2.job.isSome && !p.2.leap.abandoned)).foldl (fun s p => s.abandon p.1) s
  { t with cu := { t.cu with claims := [], reserved := [], strict := [] }, fsu := { t.fsu with fills := [] } }

/-- Steps 2 to 4 of R528 have ended: the flow cache is flushed and the MAC entries are saved. -/
def State.drained (s : State) : State :=
  let t := s.emptySkinks.flushCache
  if t.rd Objs.mac_save = 1 then { t.saveMac with eft := { t.eft with macSaved := true } } else { t with eft := { t.eft with macSaved := false } }

/-- Steps 5 to 7 of R537: the core goes off, and the release of the rails starts. -/
def State.goToSleep (s : State) : State :=
  let n := s.framesHeld
  let t := (s.coarseLoad.coreWarm .brumation s.eft.macSaved).bump Objs.brum_discarded 0 n
  { t with eft := { t.eft with phase := .releasing, clocks := false, pwrEn := setFld t.eft.pwrEn 2 1 0, railSince := s.eftNs, since := s.eftNs } }

/-- WARM_DRAIN_DONE: every thread is FREE, or 10 ms have passed. -/
def warmDrainDone (s : State) : State :=
  let ended := s.sk.threads.all (fun p => decide (p.2.st = .free)) || s.eftElapsed s.eft.since 10000000
  if s.fm.safe || !ended then s
  else match s.eft.phase with
    | .draining => s.drained.resetWarm
    | .entering => s.drained.goToSleep
    | _ => s

/-- The meaning of WARM_DRAIN_DONE. -/
def execWarmDrainDone (s : State) : Out := .next (warmDrainDone s)

/-- RESTART_SEQUENCE (R530), once every controller has retrained (step 1). -/
def restartSequence (s : State) (reloads : List StoreReload) : State :=
  if s.eft.phase = .restart ∧ s.fm.safe = false ∧ s.hbm.ctls.all (fun c => !c.2.asleep) = true then
    (relink (((s.reloadAll reloads).restoreMac.flowScan).startPorts)).nowActive
  else s

/-- The meaning of RESTART_SEQUENCE. -/
def execRestartSequence (reloads : List StoreReload) (s : State) : Out := .next (restartSequence s reloads)

/-! ## Wake (R539, R540) -/

/-- The wake starts. -/
def State.startWake (s : State) : State :=
  let t : State := { s with eft := { s.eft with
    phase := .waking, pwrEn := setFld s.eft.pwrEn 0 3 1, railSince := s.eftNs, railIn := none, wakeHeld := false, trigger := 7 } }
  t.wr Objs.power_state 0 3

/-- The refusals of wake. -/
def wakeCheck : Nat → State → Code := fun _ s =>
  let p := s.rd Objs.power_state
  if p = 1 ∨ p = 3 then .busy else refuseIf (p != 2) .state

/-- The meaning of WAKE. -/
def execWake (c : Ctx) (v : List Byte) (s : State) : Out :=
  .next (writeObj c Objs.wake 0 v wakeCheck (fun _ s => s.startWake) s)

/-- BRUMATION_REACHED: the rails are off. -/
def brumationReached (s : State) : State :=
  if s.eft.phase = .releasing ∧ s.fm.safe = false ∧ s.eft.pwrEn % 8 = 0 then
    let t := ({ s with eft := { s.eft with phase := .asleep } } : State).wr Objs.power_state 0 2
    if s.eft.wakeHeld then t.startWake else t
  else s

/-- The meaning of BRUMATION_REACHED. -/
def execBrumationReached (s : State) : Out := .next (brumationReached s)

/-- Steps 2 and 3 of R539: the RPLL locks and the counters are loaded. -/
def State.wakeCore (s : State) : State :=
  let t := s.lockClocks s.coarseUnits
  { t with eft := { t.eft with phase := .restart, since := s.eftNs } }

/-! ## Cold resets and power (R525, R526, R535, R586, R587) -/

/-- A cold trigger, unless R516 or R526 lets it have no effect; a stopped boot boots again (R580). -/
def State.coldTrigger (s : State) (trigger straps : Nat) (low : Bool) : State :=
  if s.fm.safe || (decide (2 ≤ s.eft.kind) && s.eft.phase != .stopped) then s else s.coldReset trigger straps low

/-- The meaning of RESET_N: `straps` is BOOT_MODE as sampled. -/
def execResetN (straps : BitVec 3) (s : State) : Out := .next (s.coldTrigger 1 straps.toNat true)

/-- RESET_N_RELEASE: the boot proceeds. -/
def resetRelease (s : State) : State :=
  let t : State := { s with eft := { s.eft with resetLow := false } }
  if s.eft.phase = .held ∧ s.fm.safe = false then t.startTraining else t

/-- The meaning of RESET_N_RELEASE. -/
def execResetNRelease (s : State) : Out := .next (resetRelease s)

/-- The meaning of RESET_CMD_COLD: `straps` is BOOT_MODE as sampled. -/
def execResetCmdCold (c : Ctx) (straps : BitVec 3) (s : State) : Out :=
  .next (writeObj c Objs.reset_cmd 0 [2] resetCheck (fun _ s => s.coldTrigger 2 straps.toNat false) s)

/-- The rails are being raised (R586). -/
def State.railsRising (s : State) : Bool := !s.fm.safe && (s.eft.phase == .raising || s.eft.phase == .waking)

/-- The rail of the last enable comes into its operating range: VDD_CORE and VDD_SRAM are monitored from now on (R584). -/
def State.railReached (s : State) : State :=
  let e := s.eft
  let mon := if e.pwrEn % 8 = 1 then setFld e.monitored 0 1 1 else if e.pwrEn % 8 = 3 then setFld e.monitored 1 1 1 else e.monitored
  { s with eft := { e with railIn := some s.eftNs, monitored := mon } }

/-- The next enable rises. -/
def State.raiseEnable (s : State) (k : Nat) : State :=
  { s with eft := { s.eft with pwrEn := setFld s.eft.pwrEn k 1 1, railSince := s.eftNs, railIn := none } }

/-- RAIL_ENABLE_STEP: the rail of the last enable comes into its range, or with `held` has held in it for 1 ms, and the next enable rises. -/
def railEnable (s : State) (held : Bool) : State :=
  if s.railsRising = false then s
  else match held, s.eft.railIn with
    | false, none => s.railReached
    | true, some t =>
      if s.eftElapsed t 1000000 then
        match s.eft.pwrEn % 8 with
        | 1 => s.raiseEnable 1
        | 3 => s.raiseEnable 2
        | 7 => if s.eft.phase = .waking then s.wakeCore else s.railsUp
        | _ => s
      else s
    | _, _ => s

/-- The meaning of RAIL_ENABLE_STEP. -/
def execRailEnableStep (held : Bool) (s : State) : Out := .next (railEnable s held)

/-- The rails are being released: the first enable has fallen, and another is high. -/
def State.railsFalling (s : State) : Bool := !bit s.eft.pwrEn 2 && (s.eft.phase == .releasing || s.eft.phase == .off)

/-- An enable falls. -/
def State.dropEnable (s : State) (k : Nat) : State :=
  { s with eft := { s.eft with pwrEn := setFld s.eft.pwrEn k 1 0, monitored := setFld s.eft.monitored k 1 0, railSince := s.eftNs } }

/-- RAIL_RELEASE_STEP: the next enable falls, [1] before [0]. -/
def railRelease (s : State) : State :=
  if s.railsFalling then
    if bit s.eft.pwrEn 1 then s.dropEnable 1 else if bit s.eft.pwrEn 0 then s.dropEnable 0 else s
  else s

/-- The meaning of RAIL_RELEASE_STEP. -/
def execRailReleaseStep (s : State) : Out := .next (railRelease s)

/-- The enable raised last falls. -/
def State.dropHighest (s : State) : State :=
  if bit s.eft.pwrEn 2 then s.dropEnable 2 else if bit s.eft.pwrEn 1 then s.dropEnable 1 else if bit s.eft.pwrEn 0 then s.dropEnable 0 else s

/-- The release of the rails starts with the enable raised last (R586): the core's clocks end, the TAP is unpowered. -/
def State.releaseRails (s : State) : State :=
  let t : State := { s with eft := { s.eft with clocks := false, phase := .releasing }, dbg := { s.dbg with ir := 2 } }
  t.dropHighest

/-- RAIL_TIMEOUT: 15 ms after its enable a rail is not in range (R586): the enables fall one after another from the last on, and the device enters
the safe state. -/
def railTimeout (s : State) : State :=
  if s.railsRising && s.eft.railIn.isNone && s.eftElapsed s.eft.railSince 15000000 then (s.releaseRails.raise 236 0).takeNext else s

/-- The meaning of RAIL_TIMEOUT. -/
def execRailTimeout (s : State) : Out := .next (railTimeout s)

/-- CORE_RAIL_FAULT: VDD_CORE (0) or VDD_SRAM (1) outside its window while it is monitored (R584). -/
def coreRailFault (s : State) (rail : Nat) : State := if bit s.eft.monitored rail then (s.raise 236 0).takeNext else s

/-- The meaning of CORE_RAIL_FAULT. -/
def execCoreRailFault (rail : Fin 2) (s : State) : Out := .next (coreRailFault s rail.val)

/-- PWRGOOD_FALL (R587): the enables are released from the last on; until PWRGOOD rises again the device is in POR. -/
def pwrgoodFall (s : State) : State :=
  let t := (s.releaseRails).wr Objs.power_state 0 4
  { t with eft := { t.eft with phase := .off, kind := 3, carry := none } }

/-- The meaning of PWRGOOD_FALL. -/
def execPwrgoodFall (s : State) : Out := .next (pwrgoodFall s)

/-! ## Coarse time, clocks and temperature (R541, R558, R524, R598) -/

/-- COARSE_TIME_LOAD, while the core is powered. -/
def coarseTimeLoad (s : State) : State := if s.eft.clocks then s.coarseLoad else s

/-- The meaning of COARSE_TIME_LOAD. -/
def execCoarseTimeLoad (s : State) : Out := .next (coarseTimeLoad s)

/-- REFCLK_WINDOW_CHECK: REFCLK is found outside its window, and both domains enter HOLDOVER (R384, R558). -/
def refclkCheck (s : State) : State :=
  if s.eft.clocks then
    (s.raise 232 0).holdAll
  else s

/-- The meaning of REFCLK_WINDOW_CHECK. -/
def execRefclkWindowCheck (s : State) : Out := .next (refclkCheck s)

/-- AONCLK_FAULT: the Eft runs from its internal oscillator. -/
def aonclkFault (s : State) : State := if s.rd Objs.aon_source = 1 then s else (s.wr Objs.aon_source 0 1).eftRaise 240 0

/-- The meaning of AONCLK_FAULT. -/
def execAonclkFault (s : State) : Out := .next (aonclkFault s)

/-- The meaning of RPLL_UNLOCK. -/
def execRpllUnlock (s : State) : Out := .next (if s.eft.clocks then (s.raise 233 0).takeNext else s)

/-- The grade's Tj maximum in °C (R1). -/
def tjMax : Int := if Config.fusedGrade then 105 else 110

/-- TJ_SAMPLE: sensor 0 to 6 reads a temperature in m°C. -/
def tjSample (s : State) (sensor : Nat) (mc : Int) : State :=
  let hot := bit s.eft.hot sensor
  let mark := fun (b : Nat) => ({ s with eft := { s.eft with hot := setFld s.eft.hot sensor 1 b } } : State)
  if !s.eft.clocks then s
  else if tjMax * 1000 < mc ∧ hot = false then (mark 1).raise 234 0
  else if mc ≤ (tjMax - 5) * 1000 then mark 0
  else s

/-- The meaning of TJ_SAMPLE. -/
def execTjSample (sensor : Fin 7) (mc : BitVec 32) (s : State) : Out := .next (tjSample s sensor.val mc.toInt)

/-- The meaning of THERMAL_TRIP. -/
def execThermalTrip (s : State) : Out := .next (s.raise 235 0).takeNext

/-! ## Watch ports (R543) -/

/-- SA and the HSR sequence number of a frame plus 1, or 0 where it has no HSR tag. -/
def hsrMark (f : List Byte) : Nat :=
  let o := if netAt f 12 2 = 0x8100 then 16 else 12
  if netAt f o 2 = 0x892F then netAt f 6 6 * 65536 + netAt f (o + 4) 2 + 1 else 0

/-- A port carries an HSR role in effect. -/
def State.hsrRole (s : State) (p : Nat) : Bool := s.pairValid p && (s.rd Objs.port_role p == 3 || s.rd Objs.port_role p == 4)

/-- R543: the frame is dropped. -/
def State.passDrop (s : State) (p : Nat) : State := (s.bump Objs.pass_drop).eftRaise 247 p

/-- The bytes that a FIFO of a watch port holds. -/
def fifoBytes (l : List (List Byte × Nat)) : Nat := l.foldl (fun n f => n + f.1.length) 0

/-- The time in ns that a frame takes on a port, at up to 1 Gb/s, with its preamble and gap. -/
def State.passTime (s : State) (q n : Nat) : Nat := (n + 20) * 8000 / (if s.rate q = 0 ∨ 1000 < s.rate q then 1000 else s.rate q)

/-- A frame joins a FIFO behind those it holds. -/
def State.passQueue (s : State) (q : Nat) (l : List (List Byte × Nat)) (f : List Byte) : List (List Byte × Nat) :=
  let start := max s.eftNs ((l.getLast?.map (·.2)).getD 0)
  l ++ [(f, start + s.passTime q f.length)]

/-- PASS_FRAME: a frame with its FCS on the first or the second watch port; `lost` says that it arrives in the gap of R544. -/
def passFrame (s0 : State) (fromB : Bool) (f : List Byte) (lost : Bool) : State :=
  let s := s0.passOut false
  match s.eft.carry with
  | none => s
  | some (a, b) =>
    let p := if fromB then b else a
    let q := if fromB then a else b
    let seen := if fromB then s.eft.passB else s.eft.passA
    let m := hsrMark f
    let bad := decide (f.length < 64) || decide (1536 < f.length) ||
      crc32 (f.take (f.length - 4)) != leNat (f.drop (f.length - 4))
    let again := s.hsrRole a && s.hsrRole b && m != 0 && seen.contains m
    let fifo := if fromB then s.eft.fifoB else s.eft.fifoA
    if lost || bad || again || decide (16384 < fifoBytes fifo + f.length) then s.passDrop p
    else
      let l := (seen ++ [m]).drop (seen.length + 1 - 512)
      let e := if fromB then { s.eft with passB := l, fifoB := s.passQueue q fifo f } else { s.eft with passA := l, fifoA := s.passQueue q fifo f }
      { s with eft := e }

/-- The meaning of PASS_FRAME. -/
def execPassFrame (fromB : Bool) (frame : List Byte) (lost : Bool) (s : State) : Out := .next (passFrame s fromB frame lost)

/-! ## Samplers (R545 to R547) -/

/-- A sampler channel. -/
def State.sampler (s : State) (c : Nat) : Sampler := tget Sampler.init s.eft.samplers c

/-- Replace a sampler channel. -/
def State.setSampler (s : State) (c : Nat) (x : Sampler) : State :=
  { s with eft := { s.eft with samplers := tset Sampler.init s.eft.samplers c x } }

/-- The filter's value (R547), newest sample first; none where the value stays, or where the spec gives none. -/
inductive FilterOut where
  | value (v : Int)
  | stays
  | unstated
deriving DecidableEq, Repr

/-- Division rounding toward zero. -/
def divZero (a : Int) (b : Nat) : Int := Int.tdiv a (b : Int)

/-- The filter of a configuration over the accepted samples. -/
def samplerFilter (cfg : Nat) (w : List Int) : FilterOut :=
  let k := 2 ^ fld cfg 78 3
  let l := w.take k
  match fld cfg 82 2 with
  | 0 =>
    let n := fld cfg 78 4 + 1
    match w with
    | [] => .stays
    | x :: _ => if (w.take n).all (· == x) then .value x else .stays
  | 1 => if l = [] then .stays else .value (divZero l.sum l.length)
  | 2 =>
    match l with
    | [] => .stays
    | x :: rest => .value (rest.foldl (fun a b => if bit cfg 81 then min a b else max a b) x)
  | _ =>
    match w with
    | [] => .stays
    | x :: _ =>
      let d := min k (w.length - 1)
      if d = 0 then .unstated
      else
        let r := divZero ((x - w.getD d 0) * 1000) (d * fld cfg 84 8)
        if -(2 ^ 31) ≤ r ∧ r < 2 ^ 31 then .value r else .unstated

/-- An accepted sample. -/
def State.sampleAccept (s : State) (c : Nat) (x : Int) : State :=
  let y := s.sampler c
  let w := (x :: y.window).take 129
  let t := (s.setSampler c ⟨w, s.eftNs, false⟩).wr Objs.sampler_status c (setFld (setFld (setFld (s.rd Objs.sampler_status c) 0 1 1) 1 1 0) 2 1 0)
  match samplerFilter (s.rd Objs.sampler_cfg c) w with
  | .value v => t.wrInt Objs.sampler_value c v
  | .stays => t
  | .unstated =>
    let (v, u) := t.draw
    u.wr Objs.sampler_value c (v % 2 ^ 32)

/-- A rejected sample (R546): EV244 tells of the first one after an accepted one. -/
def State.sampleReject (s : State) (c : Nat) : State :=
  let y := s.sampler c
  let t := ((s.setSampler c { y with rejecting := true }).bump Objs.sampler_rejects c).wr Objs.sampler_status c
    (setFld (s.rd Objs.sampler_status c) 2 1 1)
  if y.rejecting || y.window.isEmpty then t else t.eftRaise 244 c

/-- SAMPLER_SAMPLE: a channel takes a sample. -/
def samplerSample (s : State) (c : Nat) (x : Int) : State :=
  let cfg := s.rd Objs.sampler_cfg c
  let y := s.sampler c
  let step := fld cfg 64 14
  let far := match y.window with
    | [] => false
    | p :: _ => step != 0 && decide ((step : Int) < |x - p|)
  if fld cfg 124 4 = 0 then s
  else if x < toSigned 32 (fld cfg 0 32) ∨ toSigned 32 (fld cfg 32 32) < x ∨ far = true then s.sampleReject c
  else s.sampleAccept c x

/-- PMBus LINEAR11 in milli-units: an 11-bit mantissa times two to the power of a 5-bit exponent. DESIGN CHOICE (log 84): a value between two whole
milli-units is one of the two, and one beyond 32 bits a free value, since no rule says how it is held. -/
def linear11 (w : Nat) (s : State) : Int × State :=
  let y := toSigned 11 (w % 2048) * 1000
  let n := toSigned 5 (w / 2048 % 32)
  let d : Int := 2 ^ (-n).toNat
  let (v, t) := s.draw
  if 0 ≤ n then
    let r := y * 2 ^ n.toNat
    if -(2 ^ 31) ≤ r ∧ r < 2 ^ 31 then (r, s) else (toSigned 32 (v % 2 ^ 32), t)
  else if y % d = 0 then (y / d, s)
  else (y / d + (v % 2 : Nat), t)

/-- R545: the value of a sample as the source of the channel gives it: a temperature in m°C, a voltage in mV, a level of 0 or 1, or the register
read, big-endian, in REG_FMT. -/
def sampleValue (cfg : Nat) (x : BitVec 32) (s : State) : Int × State :=
  match fld cfg 124 4 with
  | 1 => (x.toInt, s)
  | 2 => (x.toInt, s)
  | 5 => ((x.toNat % 2 : Nat), s)
  | 6 => ((x.toNat % 2 : Nat), s)
  | _ => match fld cfg 99 2 with
    | 0 => ((x.toNat % 65536 : Nat), s)
    | 1 => (toSigned 16 (x.toNat % 65536), s)
    | 2 => linear11 (x.toNat % 65536) s
    | _ => ((x.toNat % 256 : Nat), s)

/-- A channel that is not OFF takes what its source gives (R545). -/
def samplerTake (s : State) (c : Nat) (x : BitVec 32) : State :=
  if fld (s.rd Objs.sampler_cfg c) 124 4 = 0 then s
  else
    let (v, t) := sampleValue (s.rd Objs.sampler_cfg c) x s
    samplerSample t c v

/-- The meaning of SAMPLER_SAMPLE: `x` is what the source gives, of a register its bytes as a big-endian number. -/
def execSamplerSample (chan : Fin 16) (x : BitVec 32) (s : State) : Out := .next (samplerTake s chan.val x)

/-- R546: before the next attempt of an I2C or PMBus channel, a bus that is held is freed with nine clock pulses. -/
def State.freeBus (s : State) (c : Nat) (held : Bool) : State :=
  let src := fld (s.rd Objs.sampler_cfg c) 124 4
  if held && (src == 3 || src == 4) then s.put (.i2cClocks 9) else s

/-- SAMPLER_TIMEOUT: no accepted sample for four periods; `held` says that the target holds the bus. -/
def samplerTimeout (s0 : State) (c : Nat) (held : Bool) : State :=
  let s := s0.freeBus c held
  let cfg := s.rd Objs.sampler_cfg c
  let st := s.rd Objs.sampler_status c
  if fld cfg 124 4 ≠ 0 ∧ bit st 1 = false ∧ s.eftElapsed (s.sampler c).last (4 * fld cfg 84 8 * 1000000) = true then
    (s.wr Objs.sampler_status c (setFld (setFld st 1 1 1) 0 1 0)).eftRaise 243 c
  else s

/-- The meaning of SAMPLER_TIMEOUT. -/
def execSamplerTimeout (chan : Fin 16) (held : Bool) (s : State) : Out := .next (samplerTimeout s chan.val held)

/-- SEL of a source (R545, R582). -/
def selOk (src sel : Nat) : Bool :=
  match src with
  | 1 => decide (sel < 8)
  | 2 => decide (sel < 11)
  | 5 => decide (60 ≤ sel) && decide (sel < 64)
  | 6 => decide (sel < 4)
  | _ => true

/-- The refusals of sampler_cfg. -/
def samplerCheck : Nat → State → Code := fun x _ =>
  let src := fld x 124 4
  refuseIf (decide (7 ≤ src) || (src != 0 && fld x 84 8 == 0) || !selOk src (fld x 116 8) ||
    decide (toSigned 32 (fld x 32 32) < toSigned 32 (fld x 0 32))) .range

/-- A write of sampler_cfg empties the window and clears VALID (R547). -/
def samplerApply (c : Nat) (s : State) : State :=
  (s.setSampler c ⟨[], s.eftNs, false⟩).wr Objs.sampler_status c (setFld (s.rd Objs.sampler_status c) 0 1 0)

/-- The meaning of SAMPLER_CFG_WRITE. -/
def execSamplerCfgWrite (c : Ctx) (chan : Fin 16) (v : List Byte) (s : State) : Out :=
  .next (writeObj c Objs.sampler_cfg chan.val v samplerCheck (fun _ => samplerApply chan.val) s)

/-! ## Rules (R548 to R552) -/

/-- A rule's state. -/
def State.ruleState (s : State) (r : Nat) : RuleState := tget RuleState.init s.eft.rules r

/-- Replace a rule's state. -/
def State.setRuleState (s : State) (r : Nat) (x : RuleState) : State :=
  { s with eft := { s.eft with rules := tset RuleState.init s.eft.rules r x } }

/-- The refusals of eft_rule. -/
def ruleCheck : Nat → State → Code := fun x _ =>
  let cmp := fld x 113 3
  refuseIf (fld x 125 2 == 3 || decide (5 ≤ cmp) || decide (7 ≤ fld x 93 4) ||
    ((cmp == 2 || cmp == 3) && decide (toSigned 32 (fld x 0 32) < toSigned 32 (fld x 32 32)))) .range

/-- A rule's condition. -/
def State.ruleHolds (s : State) (x : Nat) : Bool :=
  let c := fld x 116 4
  let valid := bit (s.rd Objs.sampler_status c) 0
  let v := s.rdInt Objs.sampler_value c
  let a := toSigned 32 (fld x 32 32)
  let b := toSigned 32 (fld x 0 32)
  match fld x 113 3 with
  | 0 => valid && decide (a < v)
  | 1 => valid && decide (v < a)
  | 2 => valid && (decide (v < a) || decide (b < v))
  | 3 => valid && decide (a ≤ v) && decide (v ≤ b)
  | _ => !valid

/-- WHEN matches power_state. -/
def State.ruleWhen (s : State) (x : Nat) : Bool :=
  let p := s.rd Objs.power_state
  match fld x 125 2 with
  | 1 => p == 0
  | 2 => p == 2
  | _ => true

/-- One evaluation of a rule: whether it fires. A rule that is not evaluated holds nothing. -/
def evalRule (s : State) (r : Nat) : Bool × State :=
  let x := s.rd Objs.eft_rule r
  let y := s.ruleState r
  if !bit x 127 || !s.ruleWhen x then (false, s.setRuleState r { y with since := none })
  else if !s.ruleHolds x then (false, s.setRuleState r RuleState.init)
  else
    let t := y.since.getD s.eftNs
    if y.fired = false ∧ s.eftElapsed t (fld x 97 16 * 1000000) = true then
      (true, (s.setRuleState r ⟨some t, true⟩).bump Objs.eft_rule_fires r)
    else (false, s.setRuleState r { y with since := some t })

/-- Every rule in ascending order: those that fire. -/
def evalRules : Nat → Nat → State → List Nat × State
  | 0, _, s => ([], s)
  | n + 1, r, s =>
    let (f, s1) := evalRule s r
    let (l, s2) := evalRules n (r + 1) s1
    (if f then r :: l else l, s2)

/-- The EMCY frame of R551. -/
def emcyData (s : State) (r x : Nat) : List Byte :=
  let c := fld x 116 4
  leBytes 2 (fld x 77 16) ++ [0x01, BitVec.ofNat 8 r, BitVec.ofNat 8 c] ++ leBytes 3 (s.rd Objs.sampler_value c)

/-- The CANopen node ID (R471). -/
def State.nodeId (s : State) : Nat := s.devId % 127 + 1

/-- TIME64 (R249) of the coarse time. -/
def State.coarse64 (s : State) : Nat :=
  let t := s.rd Objs.coarse_time
  fld t 48 32 * 2 ^ 32 + fld t 16 32

/-- R552: an entry of the Eft log. -/
def State.eftLog (s : State) (r x : Nat) : State :=
  let c := fld x 116 4
  let e := s.coarse64 * 2 ^ 64 + r * 2 ^ 56 + c * 2 ^ 52 + fld x 93 4 * 2 ^ 48 + s.rd Objs.sampler_value c
  let i := s.rd Objs.eft_log_next % 256
  ({ s with eft := { s.eft with log := tset 0 s.eft.log i e } } : State).wr Objs.eft_log_next 0 ((i + 1) % 256)

/-- SEND_FRAME: by the Eft while it carries the ports, between the frames that it forwards (R543), else through the port's express FIFO (R550). The
ports are those of the hand-over (R542). -/
def State.sendCanned (s : State) (param : Nat) : State :=
  let v := leBytes 130 (s.rd Objs.canned_frame (fld param 0 3))
  let n := leNat (v.take 2)
  let body := slice v 2 n
  let pair := s.eft.carry.getD (s.rd Objs.watch_port_a, s.rd Objs.watch_port_b)
  let p := if bit param 3 then pair.2 else pair.1
  if n < 60 ∨ 128 < n then s
  else if s.carries p then s.put (.pass p (body ++ leBytes 4 (crc32 body)))
  else if s.macClosed then s
  else if 64 ≤ (s.ep p).expr.length then (s.bump Objs.express_drop p).raise 148 p
  else
    let f : EgFrame := ⟨body, 0, true, s.admitNow, false, false, 0, 0, none, prvAbsent, 0, 0, false⟩
    s.setEp p { s.ep p with expr := (s.ep p).expr ++ [f] }

/-- The action of a rule that fired; `wake` says that a WAKE fired in the same evaluation (R549, R550). -/
def ruleAction (wake : Bool) (s : State) (r : Nat) : State :=
  let x := s.rd Objs.eft_rule r
  let param := fld x 77 16
  match fld x 93 4 with
  | 0 =>
    let p := s.rd Objs.power_state
    if p = 2 then s.startWake
    else if p = 1 then { s with eft := { s.eft with wakeHeld := true } }
    else s
  | 1 => if wake || s.fm.safe || brumateCheck 1 s != .ok then s else s.enterBrumation
  | 2 => s.croakReact
  | 3 => s.put (.can (0x80 + s.nodeId) (emcyData s r x))
  | 4 => (s.eftLog r x).eftRaise 245 r
  | 5 => { s with eft := { s.eft with pwrEn := setFld s.eft.pwrEn 3 1 (fld param 0 1) } }
  | _ => s.sendCanned param

/-- An uncorrectable error in the Eft's retention memory: the rule or channel it strikes is disabled (EV249), which changes a class-N object; a
channel's window and VALID go as at a write of its settings. -/
def eftMemory (s : State) : EftMemory → State
  | .good => s
  | .rule r => ((s.wr Objs.eft_rule r.val (setFld (s.rd Objs.eft_rule r.val) 127 1 0)).wr Objs.n_dirty 0 1).eftRaise 249 0
  | .channel c =>
    (samplerApply c.val ((s.wr Objs.sampler_cfg c.val (setFld (s.rd Objs.sampler_cfg c.val) 124 4 0)).wr Objs.n_dirty 0 1)).eftRaise 249 0

/-- EFT_RULE_EVAL. -/
def ruleEval (s : State) (m : EftMemory) : State :=
  let (fired, t) := evalRules 64 0 (eftMemory s m)
  let wake := fired.any (fun r => fld (t.rd Objs.eft_rule r) 93 4 == 0)
  fired.foldl (ruleAction wake) t

/-- The meaning of EFT_RULE_EVAL. -/
def execEftRuleEval (memory : EftMemory) (s : State) : Out := .next (ruleEval s memory)

/-! ## The watchdog (R553, R554) -/

/-- A heartbeat gap of eft_wdog_timeout: the last heartbeat, of a device that is ACTIVE, came at the Eft's time `last` in ns. -/
def State.wdogGap (s : State) (last : Nat) : Bool :=
  decide (s.eft.active ≤ last) && s.eftElapsed last (s.rd Objs.eft_wdog_timeout * 1000000)

/-- WDOG_TIMEOUT: a heartbeat gap has reached eft_wdog_timeout; `last` is the time of the last heartbeat, `straps` BOOT_MODE where a cold reset
samples it. -/
def wdogTimeout (s : State) (last straps : Nat) : State :=
  if s.fm.safe || s.rd Objs.eft_wdog_enable != 1 || s.rd Objs.power_state != 0 || !s.eftElapsed s.eft.active 10000000 || !s.wdogGap last then s
  else
    let now := s.eftNs
    let recent := s.eft.wdog.filter (fun t => decide (now < t + s.rd Objs.eft_wdog_window * 1000000000))
    let limit := s.rd Objs.eft_wdog_limit
    let t : State := { s with eft := { s.eft with wdog := recent ++ [now] } }
    if limit ≠ 0 ∧ limit ≤ recent.length + 1 then (t.coldTrigger 3 straps false).raise 246 0
    else (t.warmUnorderly 6).raise 246 0

/-- The meaning of WDOG_TIMEOUT. -/
def execWdogTimeout (last : BitVec 64) (straps : BitVec 3) (s : State) : Out := .next (wdogTimeout s last.toNat straps.toNat)

/-! ## The first-fault record (R555 to R557) -/

/-- A slot of the first-fault area holds a record. -/
def ffValid (v : Nat) : Bool := fld v 0 32 == 0x46464C54 && fld v 2016 32 == crc32 (leBytes 252 v)

/-- SLOT_SEQ. -/
def ffSeq (v : Nat) : Nat := fld v 32 32

/-- The valid slot with the highest SLOT_SEQ, with its number. -/
def ffNewest (ff : Tab Nat) : Option (Nat × Nat) :=
  (ff.filter (fun p => ffValid p.2)).foldl (fun b p =>
    match b with
    | none => some p
    | some q => if later 32 (ffSeq p.2) (ffSeq q.2) then some p else some q) none

/-- The record of R556. -/
def ffRecord (s : State) (seq : Nat) : Nat :=
  let c3 := ((s.fm.recs.find? (fun r => r.cls = 3)).map EvRec.word).getD 0
  let first := s.rd Objs.fm_first_fault
  let earlier := if s.fm.firstHeld ∧ first ≠ c3 then first else 0
  let b := leBytes 4 0x46464C54 ++ leBytes 4 seq ++ leBytes 48 c3 ++ leBytes 48 earlier ++ leBytes 12 (s.rd Objs.coarse_time) ++ leBytes 136 0
  leNat (b ++ leBytes 4 (crc32 b))

/-- The slot is written; a sector whose needed slot is not erased is erased first. -/
def ffWrite (ff : Tab Nat) (i v : Nat) : Tab Nat :=
  let t := if (tfind ff i).isSome then tclear ff (i / 16 * 16) 16 else ff
  tput i v t

/-- FIRST_FAULT_WRITTEN: the write ends, with or without a failure; for EV235 and EV236 the rails are then released. -/
def firstFaultWritten (s : State) (ok : Bool) : State :=
  if s.fm.firstFaultPending = false then s
  else
    let newest := ffNewest s.eft.ff
    let seq := (newest.map (fun p => (ffSeq p.2 + 1) % 2 ^ 32)).getD 0
    let i := (newest.map (fun p => (p.1 + 1) % 256)).getD 0
    let t : State := { s with fm := { s.fm with firstFaultPending := false } }
    let u := if ok then { t with eft := { t.eft with ff := ffWrite t.eft.ff i (ffRecord s seq) } } else t.eftRaise 248 0
    match s.fm.recs.find? (fun r => r.cls = 3) with
    | some r =>
      if (r.src = 235 ∨ r.src = 236) ∧ u.eft.pwrEn % 8 ≠ 0 ∧ u.eft.phase ≠ .releasing ∧ u.eft.phase ≠ .off then u.releaseRails else u
    | none => u

/-- The meaning of FIRST_FAULT_WRITTEN. -/
def execFirstFaultWritten (ok : Bool) (s : State) : Out := .next (firstFaultWritten s ok)

end Sys2Proof.Machine
end

