-- ==== Sys2Proof/Machine/Bringup.lean ====
section
/-! DEFINITION. The stopped boot (R580) and the instructions of the TAP (R561 to R563). -/

namespace Sys2Proof.Machine

/-! ## The stopped boot -/

/-- boot_load and boot_go are served in the stopped boot only. -/
def bootCheck : Nat → State → Code := fun _ s => refuseIf (decide (s.eft.phase ≠ .stopped)) .state

/-- The code of R157 for the FULL image of a boot. -/
def fullCode (b : List Byte) (limit : Nat) : Nat :=
  match fullCheck b limit with
  | .error k => k
  | .ok _ => 0

/-- boot_load: the image at the context's source is checked, and kept where it is accepted; the result is the code. -/
def bootLoadApply (c : Ctx) (x : Nat) (s : State) : State :=
  let (b, limit) := loadSource s c
  let k := if x = 1 then fullCode b limit else hueCheck b limit
  let kept := if k = 0 then some b else none
  let s1 : State := if x = 1 then { s with eft := { s.eft with bootFull := kept } } else { s with eft := { s.eft with bootHue := kept } }
  s1.setResult c (Objs.boot_load.key 0) k

/-- The meaning of BOOT_LOAD_FULL. -/
def execBootLoadFull (c : Ctx) (s : State) : Out := .next (writeObj c Objs.boot_load 0 [1] bootCheck (bootLoadApply c) s)

/-- The meaning of BOOT_LOAD_HUE. -/
def execBootLoadHue (c : Ctx) (s : State) : Out := .next (writeObj c Objs.boot_load 0 [2] bootCheck (bootLoadApply c) s)

/-- The boot from the two images that boot_load accepted; none where one is missing or they do not fit each other (R578). -/
def State.loadedBoot (s : State) (bad : List Nat := []) : Option State :=
  match s.eft.bootFull, s.eft.bootHue with
  | some f, some h => s.bootLoad f h bad
  | _, _ => none

/-- The refusals of boot_go. -/
def bootGoCheck : Nat → State → Code := fun _ s => refuseIf (decide (s.eft.phase ≠ .stopped) || s.loadedBoot.isNone) .state

/-- boot_go: the last three rows of R579; `bad` are the clutches whose store reads back wrong twice (R158). -/
def bootGoApply (bad : List Nat) (s : State) : State :=
  match s.loadedBoot bad with
  | some t => t.bootDone 3
  | none => s

/-- The meaning of BOOT_GO. -/
def execBootGo (c : Ctx) (bad : List (Fin 16)) (s : State) : Out :=
  .next (writeObj c Objs.boot_go 0 [1] bootGoCheck (fun _ => bootGoApply (bad.map (·.val))) s)

/-! ## The TAP -/

/-- The ID code of R563. -/
def idCode : Nat := 0x132007A5

/-- The SDP is served while the core rails are up. -/
def State.tapServed (s : State) : Bool := s.eft.pwrEn % 8 == 7

/-- The instruction register takes an instruction; what it captured, 0b0000_0001, comes out (R561). -/
def State.tapSelect (s : State) (code : Nat) : State :=
  if s.tapServed then ({ s with dbg := { s.dbg with ir := code } } : State).put (.tapIr 1) else s

/-- The meaning of TAP_RESET: IDCODE is selected (R562). -/
def execTapReset (s : State) : Out := .next (if s.tapServed then { s with dbg := { s.dbg with ir := 0x02 } } else s)

/-- Bits that a register of the TAP captured, as they come out. -/
def bitsOf (n v : Nat) : List Bool := (List.range n).map (bit v)

/-- The boundary-scan register is selected and scanned: what it captured of the balls comes out, a free value, and it takes the bits shifted in
(log 91). -/
def State.tapScan (s : State) (code : Nat) (bits : List Bool) : State :=
  if s.tapServed then
    let t := s.tapSelect code
    let (v, u) := t.draw
    ({ u with dbg := { u.dbg with boundary := bits } } : State).put (.tapBits (bitsOf bits.length v))
  else s

/-- The meaning of EXTEST: the boundary scan is selected. -/
def execExtest (bits : List Bool) (s : State) : Out := .next (s.tapScan 0x00 bits)

/-- The meaning of SAMPLE_PRELOAD: the boundary scan is selected. -/
def execSamplePreload (bits : List Bool) (s : State) : Out := .next (s.tapScan 0x01 bits)

/-- The meaning of IDCODE: the ID code comes out. -/
def execIdcode (s : State) : Out :=
  .next (if s.tapServed then (s.tapSelect 0x02).put (.tap idCode) else s)

/-- An instruction that the TAP takes as BYPASS: every code but those of the other instructions (R562). -/
def bypassCode (code : Nat) : Bool := code != 0x00 && code != 0x01 && code != 0x02 && code != 0x10

/-- The bypass register is selected, captures 0, and passes the bits on one later (IEEE 1149.1). -/
def State.tapBypass (s : State) (code : Nat) (bits : List Bool) : State :=
  if s.tapServed && bypassCode code then
    let t := s.tapSelect code
    ({ t with dbg := { t.dbg with bypass := bits.getLastD false } } : State).put (.tapBits ((false :: bits).take bits.length))
  else s

/-- The meaning of BYPASS: the bypass register is selected, by 0xFF or by any code that is not another instruction's. -/
def execBypass (code : BitVec 8) (bits : List Bool) (s : State) : Out := .next (s.tapBypass code.toNat bits)

end Sys2Proof.Machine
end

