-- ==== Sys2Proof/Machine/DictCmds.lean ====
section
/-! DEFINITION. The table commands that run through the dictionary: the flow commands of R246 and tbl_cmd of R299. They complete with the
status codes of R427, and read PENDING while they run (R448). -/

namespace Sys2Proof.Machine

/-! ## Flow commands (R237 to R243, R246) -/

/-- The key that a context's flow_key and flow_key_tmpl name. -/
def State.dictKey (s : State) (c : Ctx) : Nat :=
  flowKeyOf (leBytes 48 (s.rdCtx c Objs.flow_key)) (s.rdCtx c Objs.flow_key_tmpl)

/-- The owner that a context is. -/
def ctxOwner (c : Ctx) : Owner := .dict (ctxCode c)

/-- A command that has ended with a status. -/
def ended (c : Ctx) (o : Obj) (r : Nat × State) : State := r.2.setResult c (o.key 0) r.1

/-- flow_search: image and place go into flow_record. -/
def flowSearchApply (c : Ctx) (s : State) : State :=
  let s := s.served (.key (s.dictKey c))
  match flowSearch s (s.dictKey c) with
  | (1, img, place) =>
    let old := s.rdCtx c Objs.flow_record
    (s.wrCtx c Objs.flow_record 0 (setFld (setFld old 0 1024 img) 1024 32 place)).setResult c (Objs.flow_search.key 0) 1
  | (k, _, _) => s.setResult c (Objs.flow_search.key 0) k

/-- flow_lock: pending until its grant, or ended at once. -/
def flowLockApply (c : Ctx) (s : State) : State :=
  match flowLock (s.startRun c (Objs.flow_lock.key 0) 0) (.key (s.dictKey c)) (ctxOwner c) with
  | (some k, t) => t.endRun (ctxCode c) (Objs.flow_lock.key 0) k
  | (none, t) => t

/-- flow_unlock. -/
def flowUnlockApply (c : Ctx) (s : State) : State :=
  ended c Objs.flow_unlock (flowUnlock s (.key (s.dictKey c)) (ctxOwner c))

/-- flow_write: 1 under a lock, 2 with INSERT, which may wait for the lock it takes. -/
def flowWriteApply (c : Ctx) (x : Nat) (s : State) : State :=
  let img := (leBytes 136 (s.rdCtx c Objs.flow_record)).take 128
  let k := Objs.flow_write.key 0
  if x = 2 then
    match flowInsert (s.startRun c k 0) (s.dictKey c) img (ctxOwner c) with
    | (some code, t) => t.endRun (ctxCode c) k code
    | (none, t) => t
  else ended c Objs.flow_write (flowWrite s (.key (s.dictKey c)) (ctxOwner c) img)

/-- flow_next: image, place and next cursor go into flow_record. -/
def flowNextApply (c : Ctx) (s : State) : State :=
  let old := s.rdCtx c Objs.flow_record
  let (k, found, next, s) := flowNext s (s.rdCtx c Objs.flow_cursor)
  if k ≠ 1 then s.setResult c (Objs.flow_next.key 0) k
  else
  let x := match found with
    | some (img, place) => setFld (setFld old 0 1024 img) 1024 32 place
    | none => old
  (s.wrCtx c Objs.flow_record 0 (setFld x 1056 32 next)).setResult c (Objs.flow_next.key 0) 1

/-- flow_flush_port and flow_flush_tmpl: a ninth waiting flush ends with STATE. -/
def flowFlushApply (c : Ctx) (byPort : Bool) (x : Nat) (s : State) : State :=
  let k := (if byPort then Objs.flow_flush_port else Objs.flow_flush_tmpl).key 0
  let t := s.startRun c k 0
  match t.startFlowFlush byPort x (ctxOwner c) with
  | some u => u
  | none => t.endRun (ctxCode c) k 0x800A

/-! ## tbl_cmd (R296, R297, R299) -/

/-- READ of `n` stored buckets from an index on: the status, the data, and the state. -/
def tblCmdGets (index : Nat) : Nat → State → Nat × Nat × State
  | 0, s => (1, 0, s)
  | n + 1, s =>
    let (_, d, s1) := softRead s 0x19 index [] .good
    let (_, rest, s2) := tblCmdGets (index + 1) n s1
    (1, d % 256 + 256 * rest, s2)

/-- READ: the status, and the data in tbl_data; MBR_BUCKETS reads up to 40 stored buckets. -/
def tblCmdRead (c : Ctx) (s : State) (target index : Nat) (key : List Byte) : Nat × State :=
  let r := if target = 0x19 ∧ index < tblItems 0x19 then
      tblCmdGets index (min 40 (tblItems 0x19 - index)) s
    else softRead s target index key .good
  (r.1, if r.1 = 1 then r.2.2.wrCtx c Objs.tbl_data 0 r.2.1 else r.2.2)

/-- WRITE of the items of tbl_data from an index on. -/
def tblCmdPuts (target index : Nat) (o : Owner) : List Byte → State → State
  | [], s => s
  | d :: rest, s => tblCmdPuts target (index + 1) o rest (tblWrite s target index [] d.toNat o).2

/-- WRITE of tbl_data. -/
def tblCmdWrite (c : Ctx) (s : State) (target index : Nat) (key : List Byte) : Nat × State :=
  let data := leBytes 40 (s.rdCtx c Objs.tbl_data)
  if target = 0x19 ∧ index < tblItems 0x19 then
    (1, tblCmdPuts target index (ctxOwner c) (data.take (min 40 (tblItems 0x19 - index))) s)
  else tblWrite s target index key (leNat (data.take (tblItemBytes target))) (ctxOwner c)

/-- One execution of tbl_cmd: its status. A target that does not take the command is BAD_TARGET. -/
def tblCmdRun (c : Ctx) (x : Nat) (s : State) : Nat × State :=
  let target := s.rdCtx c Objs.tbl_target
  let index := s.rdCtx c Objs.tbl_index
  let key := leBytes 20 (s.rdCtx c Objs.tbl_key)
  match x with
  | 1 => tblCmdRead c s target index key
  | 2 => if target = 0x11 then (0x8005, s) else tblCmdWrite c s target index key
  | 3 => if tblKeyed target then tblDelete s target key (ctxOwner c) else (0x8005, s)
  | 4 => if target = 0x10 then macLock s key (ctxOwner c) else (0x8005, s)
  | _ => if target = 0x10 then macUnlock s key (ctxOwner c) else (0x8005, s)

/-- The effect of a write of tbl_cmd. -/
def tblCmdApply (c : Ctx) (x : Nat) (s : State) : State := ended c Objs.tbl_cmd (tblCmdRun c x s)

end Sys2Proof.Machine
end

