-- ==== Sys2Proof/Machine/Epoch.lean ====
section
/-! DEFINITION. The epoch boundary (R355, R362, R367, R369, R371, R372, R375, R385). -/

namespace Sys2Proof.Machine

/-- A domain's pending steps and its increment take effect. -/
def epochDomain (s : State) (d : Nat) : State :=
  let t := s.trk d
  let s1 := t.pendStep.foldl (fun (s : State) x => ((s.setCtr d (ctrAdd (s.ctr d) x)).bump Objs.dom_steps d).raise 195 d) s
  s1.setTrk d { t with pendStep := [], pendInc := none, inc := t.pendInc.getD t.inc }

/-- R375: what a step of W by `step` counter units brings with it. -/
def State.wStepped (s : State) (step : Int) : State :=
  let s1 := (s.wrInt Objs.w_step_size 0 (divRound step (2 ^ 40))).raise 200 0
  let s2 := (s1.eg.ports.map (·.1)).foldl (fun (s : State) p =>
    let x := s.ep p
    ((s.setEp p { x with cal := [] }).bump Objs.lt_late_drop p x.cal.length).xoffUpdate (s.grpOfPort p)) s1
  let recs := ((s2.fsu.slots.map (fun p => recKey p.2)) ++ (s2.fsu.stash.map (fun p => recKey p.2)) ++ s2.fsu.lines.map (·.1)).dedup
  let macs := s2.tbl.mac.map (fun p => macKey p.2)
  { s2 with fsu := { s2.fsu with old := recs, stepPass := 2 }, tbl := { s2.tbl with old := macs, stepPass := 2 } }

/-- The domains that became LOCKED in the epoch just ended and are still LOCKED, the one named by w_select first. -/
def State.newDomain (s : State) : Option Nat :=
  let w := s.rd Objs.w_select
  [w, 1 - w].find? (fun d => bit s.time.newLocked d && s.domLocked d)

/-- R372 at an epoch boundary. -/
def epochWork (s : State) : State :=
  let st := s.rd Objs.w_state
  match s.newDomain with
  | some d =>
    if st = 0 then
      let s1 := (s.wr Objs.w_state 0 1).wr Objs.w_active 0 d
      let s2 : State := { s1 with time := { s1.time with w := s.ctr d, incW := (s.trk d).inc, incWBase := (s.trk d).inc, pendIncW := none, wPend := none } }
      s2.wStepped (ctrDiff (s.ctr d) s.time.w)
    else if st = 3 then ((s.wr Objs.w_state 0 2).wr Objs.w_active 0 d).raise 197 0
    else if s.rd Objs.w_revert = 1 ∧ d = s.rd Objs.w_select ∧ s.rd Objs.w_active ≠ d then
      ((s.wr Objs.w_state 0 2).wr Objs.w_active 0 d).raise 197 0
    else s
  | none =>
    match s.time.wPend with
    | some ns =>
      let s1 : State := { s with time := { s.time with wPend := none } }
      if st = 0 then
        ({ s1 with time := { s1.time with w := ns * 2 ^ 40 % ctrWrap } }).wStepped
          (ctrDiff (ns * 2 ^ 40 % ctrWrap) s.time.w)
      else s1
    | none => s

/-- The board delays that the dictionary holds take effect (R362). -/
def boardDelays (s : State) (o : Obj) : Tab Int :=
  ((List.range 256).filterMap (fun p => if s.rdInt o p = 0 then none else some (p, s.rdInt o p)))

/-- R362: a set of board delays that differs from the newest one takes effect at the present boundary; the model keeps 4,096 of them (log 113). -/
def TimeUnit.newBoards (u : TimeUnit) (rx tx : Tab Int) : TimeUnit :=
  match u.boards with
  | b :: _ => if b.rx = rx ∧ b.tx = tx then u else { u with boards := (⟨u.w, rx, tx⟩ :: u.boards).take 4096 }
  | [] => if rx = [] ∧ tx = [] then u else { u with boards := [⟨u.w, rx, tx⟩, ⟨u.w, [], []⟩] }

/-- The difference history takes the entry of this boundary; it keeps 4,096 (R367). -/
def pushHistory (u : TimeUnit) : TimeUnit :=
  let h := u.history ++ [u.entry]
  { u with history := h.drop (h.length - 4096) }

/-- R385: what an error of the time unit's memories does. -/
def timeFault (s : State) : TimeFault → State
  | .none => s
  | .corrected => s.raise 205 0
  | .tracker d =>
    let s1 := s.setTrk d.val { s.trk d.val with i := 0 }
    if s.rd Objs.dom_state d.val = 0 then s1.raise 207 d.val else (domHoldover s1 d.val).raise 207 d.val
  | .history i => { s with time := s.time.spoil i }

/-- R369: the rows that an epoch boundary tests, the first that holds: enough samples within the lock threshold, enough discarded ones, or
none accepted for too long. -/
def epochRows (s : State) (d : Nat) : State :=
  let st := s.rd Objs.dom_state d
  if s.rd Objs.dom_mode d ≠ 0 then s
  else if st = 2 ∧ s.rd Objs.dom_lock_count d ≤ (s.trk d).lockRun then (s.setDomState d 3).raise 192 d
  else if st = 3 ∧ s.rd Objs.dom_plaus_count d ≤ (s.trk d).rejectRun then (domHoldover s d).raise 194 d
  else domLossTimeout s d

/-- EPOCH_BOUNDARY, once 1,280 ticks have passed since the last. -/
def epochBoundary (s : State) (fault : TimeFault) : State :=
  if s.time.ticks < (s.time.epochs + 1) * epochTicks then s
  else
    let s1 := timeFault { s with time := { s.time with epochs := s.time.epochs + 1 } } fault
    let s2 := epochWork (epochDomain (epochDomain s1 0) 1)
    let s3 : State := { s2 with time := { s2.time with incW := s2.time.pendIncW.getD s2.time.incW, pendIncW := none, newLocked := 0 } }
    let s4 := s3.wr Objs.w_inc 0 s3.time.incW
    let u := pushHistory (s4.time.newBoards (boardDelays s4 Objs.ts_rx_board) (boardDelays s4 Objs.ts_tx_board))
    epochRows (epochRows { s4 with time := u } 0) 1

/-- The meaning of EPOCH_BOUNDARY. -/
def execEpochBoundary (fault : TimeFault) (s : State) : Out := .next (epochBoundary s fault)

end Sys2Proof.Machine
end

