-- ==== Sys2Proof/Machine/DictViews.lean ====
section
/-! DEFINITION. What the dictionary reads where a unit, and not the object, holds the value: chapter by chapter, each object with its value, and
the reads that a chapter refuses or that have an effect (R452). -/

namespace Sys2Proof.Machine

/-- The value of instance `i` of an object, read through a context. -/
abbrev View := Ctx → Nat → State → Nat

/-- A value that depends on the state alone. -/
def plain (f : State → Nat) : View := fun _ _ s => f s

/-- A value that depends on the instance. -/
def each (f : State → Nat → Nat) : View := fun _ i s => f s i

/-- ASCII bytes, zero-filled. -/
def asciiBytes (l : List Nat) (n : Nat) : Nat := leNat (padTo 0 n (l.map (BitVec.ofNat 8)))

/-- Identity (R477). -/
def viewsDevice : List (Obj × View) :=
  [(Objs.part_name, plain fun _ => asciiBytes [0x56, 0x4C, 0x4D, 0x33, 0x32, 0x30, 0x30] 16),
   (Objs.stepping, plain fun _ => asciiBytes [0x42, 0x31] 2),
   (Objs.grade, plain fun _ => b2n Config.fusedGrade),
   (Objs.serial_number, plain fun _ => Config.fusedSerial.toNat),
   (Objs.can_node_id, plain State.nodeId)]

/-- Ports (R49). -/
def viewsPort : List (Obj × View) :=
  [(Objs.link_state_detail, each State.linkDetail),
   (Objs.fec_active, each State.fec),
   (Objs.lane_signal, each fun s p => (s.lanesOf p).foldr (fun l n => 2 * n + b2n (s.laneSignal l)) 0),
   (Objs.hold_remaining, each State.holdRemaining)]

/-- Slots of a table whose header has VALID set. -/
def validSlots (t : Tab Tagged) : Nat := (t.filter (fun p => hdrValid p.2.header)).length

/-- rule_free_count (R84): slots with VALID = 0 that are not the odd partner of a VALID WIDE rule. -/
def State.rulesFree (s : State) : Nat :=
  131072 - validSlots s.hue.rules - (s.hue.rules.filter (fun p => hdrValid p.2.header && hdrWide p.2.header)).length

/-- The rule slot a context selects. -/
def State.ruleSel (s : State) (c : Ctx) : Tagged := s.rule (s.rdCtx c Objs.rule_select)

/-- Classifier and hues (R84). -/
def viewsHue : List (Obj × View) :=
  [(Objs.hue_window, plain State.hueWindow),
   (Objs.hue_next_image, plain State.nextImage),
   (Objs.hue_count, each fun s i => if i < s.hueWindow then s.hueCount ((s.hueOldest + i) % 65536) else 0),
   (Objs.hue_staged_count, plain State.stagedCount),
   (Objs.hue_miss_action, plain State.nextMiss),
   (Objs.rule_header, fun c _ s => (s.ruleSel c).header),
   (Objs.rule_value, fun c _ s => (s.ruleSel c).body.getD 0 0),
   (Objs.rule_mask, fun c _ s => (s.ruleSel c).body.getD 1 0),
   (Objs.rule_action, fun c _ s => (s.ruleSel c).body.getD 2 0),
   (Objs.rule_hits, fun c _ s => tget 0 s.hue.hits (s.rdCtx c Objs.rule_select)),
   (Objs.rule_free_count, plain State.rulesFree)]

/-- The pattern-set slot a context selects. -/
def State.setSel (s : State) (c : Ctx) : Tagged := s.patSet (s.rdCtx c Objs.pat_set_select)

/-- Pattern engines (R106). -/
def viewsPattern : List (Obj × View) :=
  [(Objs.pat_words_free, plain State.wordsFree),
   (Objs.pat_patterns_used, plain State.patternsUsed),
   (Objs.pat_set_header, fun c _ s => (s.setSel c).header),
   (Objs.pat_set_desc, fun c _ s => (s.setSel c).body.getD 0 0),
   (Objs.pat_set_extract, fun c _ s => (s.setSel c).body.getD 1 0),
   (Objs.pat_set_hits, fun c _ s => tget 0 s.pat.hits (s.rdCtx c Objs.pat_set_select)),
   (Objs.pat_mem_data, fun c _ s => tget 0 s.pat.words (s.rdCtx c Objs.pat_mem_addr))]

/-- The word that cs_peek_select names: clutch in bits [19:16], address in [13:0]. -/
def State.peek (s : State) (c : Ctx) : Nat :=
  let x := s.rdCtx c Objs.cs_peek_select
  tget 0 (s.cs (fld x 16 4)).words (fld x 0 14)

/-- disp0_stage as it reads: the NEW half of the shadow's entry. -/
def State.stagedEntry (s : State) (c : Ctx) : Nat :=
  let e := tget 0 s.hue.disp0 (s.rdCtx c Objs.disp_select)
  b2n (bit e 47) * 2 ^ 15 + fld e 32 14

/-- spray_stall_cycles with the CCLK cycles of a wait that goes on (R119). -/
def State.stallCycles (s : State) (p : Nat) : Nat :=
  let now := match tfind s.sk.stall p with
    | some (since, _) => s.spanNs since * 5 / 4
    | none => 0
  satAdd 64 (s.rd Objs.spray_stall_cycles p) now

/-- Skinks and control stores (R132, R166). -/
def viewsSkink : List (Obj × View) :=
  [(Objs.threads_busy, plain fun s => (s.sk.threads.filter (fun p => decide (p.2.st ≠ .free))).length),
   (Objs.spray_stall_cycles, each State.stallCycles),
   (Objs.sf_used, plain fun s => s.sk.sf.length),
   (Objs.sf_entry, fun c _ s => sfImage s (s.rdCtx c Objs.sf_select)),
   (Objs.disp0_stage, fun c _ s => s.stagedEntry c),
   (Objs.disp0_entry, fun c _ s => tget 0 (s.cs 0).disp (s.rdCtx c Objs.disp_select) % 2 ^ 48),
   (Objs.cs_peek_data, fun c _ s => s.peek c)]

/-- The template slot a context selects. -/
def State.tmplSel (s : State) (c : Ctx) : Tagged := s.tmplSlot (s.rdCtx c Objs.tmpl_select)

/-- Commit unit and FSU (R204, R246). -/
def viewsFlow : List (Obj × View) :=
  [(Objs.leap_keyed_ops, plain State.nextKeyed),
   (Objs.leaps_open, plain fun s => s.cu.reserved.length),
   (Objs.lsn_next, plain fun s => s.cu.lsnNext),
   (Objs.horizon_lsn, plain fun s => s.horizon.getD s.cu.lsnNext),
   (Objs.claims_used, plain fun s => s.cu.claims.length),
   (Objs.records_used, plain State.recordsUsed),
   (Objs.stash_used, plain fun s => s.fsu.stash.length),
   (Objs.locks_held, plain fun s => s.fsu.locks.length),
   (Objs.tmpl_header, fun c _ s => (s.tmplSel c).header),
   (Objs.tmpl_desc, fun c _ s => (s.tmplSel c).body.getD 0 0),
   (Objs.tmpl_free_count, plain fun s => 64 - validSlots s.fsu.tmpls),
   (Objs.key_tmpl_desc, fun c _ s => tget 0 s.fsu.keyTmpl (s.rdCtx c Objs.key_tmpl_select))]

/-- Forwarding tables (R299). -/
def viewsTable : List (Obj × View) :=
  [(Objs.mac_entries, plain fun s => s.tbl.mac.length),
   (Objs.nat_used, plain fun s => s.tbl.nat.length),
   (Objs.lpm_used, plain State.lpmUsed)]

/-- The VOQ that a context selects. -/
def State.voqSel (s : State) (c : Ctx) : Voq := s.voq (s.rdCtx c Objs.voq_select)

/-- Fabric and buffers (R330): group values at the group's first station. -/
def viewsFabric : List (Obj × View) :=
  [(Objs.voq_state, fun c _ s => b2n (s.voqSel c).spilling),
   (Objs.voq_onchip, fun c _ s => (s.voqSel c).cells.length),
   (Objs.voq_spilled, fun c _ s => (s.voqSel c).spill.length),
   (Objs.mcg_copies, fun c _ s => tget 0 s.tm.mcCopies (s.rdCtx c Objs.mcg_select)),
   (Objs.mcg_refused, fun c _ s => tget 0 s.tm.mcRefused (s.rdCtx c Objs.mcg_select)),
   (Objs.store_used, each fun s g => if s.grpOf g = g then s.storeCells g else 0)]

/-- The policer that a context selects. -/
def State.polSel (s : State) (c : Ctx) : PolState := s.pol (s.rdCtx c Objs.pol_select)

/-- Traffic manager (R351). -/
def viewsEgress : List (Obj × View) :=
  [(Objs.red_profile, fun c _ s => tget 0 s.tm.redProf (s.rdCtx c Objs.red_select)),
   (Objs.pol_config, fun c _ s => tget 0 s.tm.polCfg (s.rdCtx c Objs.pol_select)),
   (Objs.pol_tokens, fun c _ s => (s.polSel c).te * 2 ^ 64 + (s.polSel c).tc),
   (Objs.pol_green, fun c _ s => (s.polSel c).green),
   (Objs.pol_yellow, fun c _ s => (s.polSel c).yellow),
   (Objs.pol_red, fun c _ s => (s.polSel c).red),
   (Objs.pol_red_drop, fun c _ s => (s.polSel c).redDrop),
   (Objs.queue_len, each fun s i => ((s.ep (i / 8)).q (i % 8)).length)]

/-- Time (R386). -/
def viewsTime : List (Obj × View) :=
  [(Objs.evt_fifo, each fun s k => evtHead k s),
   (Objs.evt_count, each fun s k => (s.time.evtFifo.getD k []).length),
   (Objs.ts_cal_entry, fun c _ s =>
     let x := s.rdCtx c Objs.ts_cal_select
     (Config.txLat (fld x 4 4) (fld x 0 2)).toNat * 2 ^ 32 + (Config.rxLat (fld x 4 4) (fld x 0 2)).toNat)]

/-- HBM (R413). -/
def viewsHbm : List (Obj × View) := [(Objs.hbm_hppr_avail, each hpprAvail)]

/-- Stream port (R496): str_xoff_time with what has passed since it was last brought up to date. -/
def viewsStream : List (Obj × View) :=
  [(Objs.str_buf_used, each fun s c => chanUsed (s.chan c)),
   (Objs.str_xoff_time, each fun s c => satAdd 64 (s.rd Objs.str_xoff_time c) (s.xoffNs c))]

/-- The record that fm_log_select names, while the log holds it (R605). -/
def State.logSel (s : State) (c : Ctx) : Option EvRec :=
  s.fm.recs.find? (fun r => r.logged && r.seq == s.rdCtx c Objs.fm_log_select)

/-- Fault manager (R523). -/
def viewsFault : List (Obj × View) :=
  [(Objs.ev_window_count, each fun s src => (tget EvWindow.empty s.fm.windows src).c.sum),
   (Objs.fm_summary, plain State.fmSummary),
   (Objs.fm_log_entry, fun c _ s => ((s.logSel c).map EvRec.word).getD 0)]

/-- Eft (R559). -/
def viewsEft : List (Obj × View) := [(Objs.eft_log_entry, fun c _ s => tget 0 s.eft.log (s.rdCtx c Objs.eft_log_select))]

/-- The entry of a clutch's trace that a context selects, by its trace index modulo 2^32 (R574). -/
def State.traceSel (s : State) (c : Ctx) (k : Nat) : Option Nat :=
  let b := s.traceBuf k
  let i := s.rdCtx c Objs.trace_select k
  b.entries[(i + 2 ^ 32 - b.first % 2 ^ 32) % 2 ^ 32]?

/-- Debug (R581). -/
def viewsDebug : List (Obj × View) :=
  [(Objs.halted_threads, plain fun s => (s.sk.threads.filter (fun p => decide (p.2.st = .debugHalt))).length),
   (Objs.trace_used, each fun s k => (s.traceBuf k).entries.length),
   (Objs.trace_entry, fun c k s => (s.traceSel c k).getD 0)]

/-- The journal entry that a context selects (R460). -/
def State.journalSel (s : State) (c : Ctx) : Option JEntry := s.dict.journal.find? (fun e => e.seq == s.rdCtx c Objs.journal_select)

/-- Journal (R477). -/
def viewsJournal : List (Obj × View) :=
  [(Objs.journal_entry, fun c _ s => ((s.journalSel c).map (fun e => leNat e.bytes)).getD 0)]

/-- The views of an index's chapter. -/
def viewsOf (idx : Nat) : List (Obj × View) :=
  if idx < 0x2000 then viewsDevice
  else if idx < 0x3000 then viewsPort
  else if idx < 0x3400 then viewsTime
  else if idx < 0x4000 then viewsEgress
  else if idx < 0x4400 then viewsHue
  else if idx < 0x4800 then viewsPattern
  else if idx < 0x5000 then viewsSkink
  else if idx < 0x5800 then viewsFlow
  else if idx < 0x6000 then viewsTable
  else if idx < 0x6800 then viewsFabric
  else if idx < 0x7000 then viewsHbm
  else if idx < 0x7800 then []
  else if idx < 0x8000 then viewsStream
  else if idx < 0x9000 then viewsFault
  else if idx < 0xA000 then viewsEft
  else if idx < 0xF000 then viewsDebug
  else viewsJournal

/-- The value that the fault manager's copy of R557 holds of an object, where the copy is what answers. -/
def State.copied (s : State) (o : Obj) (i : Nat) : Option Nat :=
  if s.fm.safe && !s.eft.clocks && decide (0x8000 ≤ o.idx) && decide (o.idx < 0x9000) then
    some ((tfind s.eft.safeCopy (o.key i)).getD (o.default i s.devId))
  else none

/-- The value of instance `i` of an object as a context reads it (R446 to R448). -/
def State.readValue (s : State) (c : Ctx) (o : Obj) (i : Nat) : Nat :=
  if o.acc = .cmd then s.result c (o.key i)
  else match s.copied o i with
    | some x => x
    | none => match (viewsOf o.idx).find? (fun p => p.1.idx == o.idx && p.1.sub == o.sub) with
      | some p => p.2 c i s
      | none => s.rdCtx c o i

/-- The reads that a chapter refuses with RANGE: an index that is not held (R460, R523, R581). -/
def State.readRefused (s : State) (c : Ctx) (o : Obj) (i : Nat) : Code :=
  if o.key 0 = Objs.journal_entry.key 0 then refuseIf (s.journalSel c).isNone .range
  else if o.key 0 = Objs.fm_log_entry.key 0 then refuseIf (s.logSel c).isNone .range
  else if o.key 0 = Objs.trace_entry.key 0 then refuseIf (s.traceSel c i).isNone .range
  else .ok

/-- The effect a chapter gives a read: reorder_high_water is cleared, evt_fifo loses its oldest capture. -/
def readEffect (o : Obj) (i : Nat) (s : State) : State :=
  if o.key 0 = Objs.reorder_high_water.key 0 then s.wr Objs.reorder_high_water i 0
  else if o.key 0 = Objs.evt_fifo.key 0 then evtPop i s
  else s

end Sys2Proof.Machine
end

