-- ==== Sys2Proof/Machine/Save.lean ====
section
/-! DEFINITION. The save of the class-N objects to the flash (R475). -/

namespace Sys2Proof.Machine

/-- The valid bank of the highest generation: 0 or 1 with the bank. -/
def State.newestBank (s : State) : Option (Nat × NBank) :=
  match s.eft.bank0, s.eft.bank1 with
  | none, none => none
  | some a, none => some (0, a)
  | none, some b => some (1, b)
  | some a, some b => if a.gen < b.gen then some (1, b) else some (0, a)

/-- save written 1: the snapshot is taken and the save runs. -/
def saveStart (c : Ctx) (s : State) : State :=
  let t : State := { s with eft := { s.eft with saving := s.eft.saving ++ [⟨s.nImage, ctxCode c⟩] } }
  t.startRun c (Objs.save.key 0) Code.busy.num

/-- save written 2 (ERASE): neither bank is valid. -/
def saveErase (s : State) : State := { s with eft := { s.eft with bank0 := none, bank1 := none } }

/-- The effect of a write of save. -/
def saveApply (c : Ctx) (x : Nat) (s : State) : State := if x = 1 then saveStart c s else saveErase s

/-- The meaning of SAVE. -/
def execSave (c : Ctx) (s : State) : Out := .next (writeObj c Objs.save 0 [1] noCheck (saveApply c) s)

/-- The meaning of ERASE. -/
def execErase (c : Ctx) (s : State) : Out := .next (writeObj c Objs.save 0 [2] noCheck (saveApply c) s)

/-- The image goes into the bank that does not hold the newest valid one. -/
def State.writeBank (s : State) (x : NImage) : State :=
  match s.newestBank with
  | some (0, b) => { s with eft := { s.eft with bank1 := some ⟨b.gen + 1, x⟩ } }
  | some (_, b) => { s with eft := { s.eft with bank0 := some ⟨b.gen + 1, x⟩ } }
  | none => { s with eft := { s.eft with bank0 := some ⟨1, x⟩ } }

/-- A write that failed leaves no valid image in the bank it wrote, and the other bank as it is. -/
def State.spoilBank (s : State) : State :=
  match s.newestBank with
  | some (0, _) => { s with eft := { s.eft with bank1 := none } }
  | _ => { s with eft := { s.eft with bank0 := none } }

/-- The oldest save in progress ends. -/
def saveDone (s : State) (ok : Bool) : State :=
  match s.eft.saving with
  | [] => s
  | x :: rest =>
    let t : State := { s with eft := { s.eft with saving := rest } }
    if ok then (((t.writeBank x.image).bump Objs.save_count).wr Objs.n_dirty 0 0).endRun x.ctx (Objs.save.key 0) 0
    else (t.spoilBank.eftRaise 248 0).endRun x.ctx (Objs.save.key 0) 1

/-- The meaning of SAVE_DONE. -/
def execSaveDone (ok : Bool) (s : State) : Out := .next (saveDone s ok)

end Sys2Proof.Machine
end

