-- ==== Sys2Proof/Machine/DictWriters.lean ====
section
/-! DEFINITION. What a write of each object does: chapter by chapter, the objects whose writes their chapter judges or gives an effect.
Every other object is only judged by R451, stored and journaled. -/

namespace Sys2Proof.Machine

/-- A write of an object's instance. -/
abbrev Writer := Ctx → Nat → List Byte → State → State

/-- The next state of a meaning. -/
def Out.state (s : State) : Out → State
  | .next t => t
  | _ => s

/-- A write that is a command of its own, of the one instance. -/
def byExec (f : Ctx → List Byte → State → Out) : Writer := fun c _ v s => Out.state s (f c v s)

/-- A write that is a command of its own, of instances below `n`. -/
def byExecAt (n : Nat) [NeZero n] (f : Ctx → Fin n → List Byte → State → Out) : Writer :=
  fun c i v s => Out.state s (f c (Fin.ofNat n i) v s)

/-- A write that is only refused. -/
def refusing (o : Obj) (check : Ctx → Nat → Nat → State → Code) : Writer := fun c i v s => writeObj c o i v (check c i) noApply s

/-- A value outside what the object's row names. -/
def badValue (p : Nat → Bool) : Ctx → Nat → Nat → State → Code := fun _ _ x _ => refuseIf (p x) .range

/-! ## This chapter's objects (R457, R475, R477) -/

/-- The path enables in the order of R456. -/
def pathObj (k : Nat) : Obj :=
  match k with
  | 0 => Objs.path_pcie
  | 1 => Objs.path_oap_mgmt
  | 2 => Objs.path_oap_inband
  | 3 => Objs.path_can
  | _ => Objs.path_sdp

/-- R457: a write that would leave all five paths DISABLED. -/
def pathCheck (k : Nat) : Nat → State → Code := fun x s =>
  refuseIf (x == 0 && (List.range 5).all (fun i => i == k || s.rd (pathObj i) == 0)) .state

/-- A write of a path enable. -/
def pathWrite (k : Nat) : Writer := fun c _ v s => writeObj c (pathObj k) 0 v (pathCheck k) noApply s

/-- The meaning of PATH_ENABLE_WRITE. -/
def execPathEnableWrite (c : Ctx) (path : Fin 5) (v : List Byte) (s : State) : Out := .next (pathWrite path.val c 0 v s)

/-- A group address. -/
def groupMac (x : Nat) : Bool := bit x 0

/-- Save, paths and addresses. -/
def writersDevice : List (Obj × Writer) :=
  [(Objs.save, fun c _ v => writeObj c Objs.save 0 v noCheck (saveApply c)),
   (Objs.path_pcie, pathWrite 0), (Objs.path_oap_mgmt, pathWrite 1), (Objs.path_oap_inband, pathWrite 2),
   (Objs.path_can, pathWrite 3), (Objs.path_sdp, pathWrite 4),
   (Objs.mgmt_mac, refusing Objs.mgmt_mac (badValue groupMac)),
   (Objs.inband_mac, refusing Objs.inband_mac (badValue groupMac))]

/-! ## Ports (R47, R48, R50) -/

/-- A write of an object of R47 that has no command of its own. -/
def portWrite (o : Obj) : Writer := fun c p v s =>
  writeObj c o p v (portObjCheck p o.sub) (fun _ => portObjApply p o.sub) s

/-- A write of port_role or pair_port (R44). -/
def pairWrite (o : Obj) : Writer := fun c p v s => writeObj c o p v noCheck (fun _ t => tellPairs s t) s

/-- Ports. -/
def writersPort : List (Obj × Writer) :=
  [(Objs.port_mode, byExecAt 256 execPortModeWrite), (Objs.admin_up, byExecAt 256 execAdminUpWrite),
   (Objs.port_role, pairWrite Objs.port_role), (Objs.pair_port, pairWrite Objs.pair_port),
   (Objs.link_down_filter, byExecAt 256 (fun c p => execLinkFilterWrite c p false)),
   (Objs.link_up_filter, byExecAt 256 (fun c p => execLinkFilterWrite c p true)),
   (Objs.counters_clear, byExecAt 256 execPortCountersClear)] ++
  [Objs.fec_mode, Objs.preempt_enable, Objs.preempt_verify, Objs.max_frame, Objs.sd_assert_mv, Objs.sd_deassert_mv, Objs.usx_speed,
   Objs.link_training].map (fun o => (o, portWrite o))

/-! ## Time (R369, R371, R372, R381, R386) -/

/-- The values of ts_cal_select. -/
def calSelectBad (x : Nat) : Bool := fld x 4 4 == 0 || decide (9 < fld x 4 4) || fld x 2 2 != 0 || fld x 0 2 == 0

/-- Time. -/
def writersTime : List (Obj × Writer) :=
  [(Objs.time_snapshot, byExec execTimeSnapshot), (Objs.w_select, byExec execWSelectWrite), (Objs.w_set, byExec execWSet),
   (Objs.dom_enable, byExecAt 2 execDomEnableWrite), (Objs.dom_inc, byExecAt 2 execDomIncWrite),
   (Objs.dom_step, byExecAt 2 execDomStep),
   (Objs.dom_mode, fun c d v => writeObj c Objs.dom_mode d v noCheck (fun _ => domSoftApply d)),
   (Objs.dom_sw_locked, fun c d v => writeObj c Objs.dom_sw_locked d v noCheck (fun _ => domSoftApply d)),
   (Objs.dom_plaus_limit, refusing Objs.dom_plaus_limit (fun _ d => domPlausCheck d)),
   (Objs.dom_lock_thresh, refusing Objs.dom_lock_thresh (fun _ d => domLockCheck d)),
   (Objs.pps_mode, fun c k v s => writeObj c Objs.pps_mode k v noCheck
     (fun x t => if s.rd Objs.pps_mode k = x then t else ppsModeApply k t) s),
   (Objs.pps_width, refusing Objs.pps_width (fun _ => ppsWidthCheck)), (Objs.pps_rate, refusing Objs.pps_rate (fun _ => ppsRateCheck)),
   (Objs.ts_cal_select, refusing Objs.ts_cal_select (badValue calSelectBad))]

/-! ## Traffic manager (R351) -/

/-- Traffic manager. -/
def writersEgress : List (Obj × Writer) :=
  [(Objs.red_profile, byExec execRedProfileWrite), (Objs.pol_config, byExec execPolConfigWrite),
   (Objs.strict_count, byExecAt 256 execStrictCountWrite),
   (Objs.port_shaper, fun c i v => writeObj c Objs.port_shaper i v shCheck (shWritten i 8)),
   (Objs.queue_shaper, fun c i v => writeObj c Objs.queue_shaper i v shCheck (shWritten (i / 8) (i % 8)))]

/-! ## Classifier and hues (R84) -/

/-- Classifier and hues. -/
def writersHue : List (Obj × Writer) :=
  [(Objs.hue_next_image, byExec (fun c => execRwhValueWrite c 0)), (Objs.hue_miss_action, byExec (fun c => execRwhValueWrite c 1)),
   (Objs.hue_commit, byExec execHueCommit), (Objs.hue_abort, byExec execHueAbort), (Objs.rule_header, byExec execRuleHeaderWrite),
   (Objs.rule_value, byExec (fun c => execRuleContentWrite c 0)), (Objs.rule_mask, byExec (fun c => execRuleContentWrite c 1)),
   (Objs.rule_action, byExec (fun c => execRuleContentWrite c 2))]

/-! ## Pattern engines (R106) -/

/-- Pattern engines. -/
def writersPattern : List (Obj × Writer) :=
  [(Objs.pat_engine_isolate, byExec execPatEngineIsolate), (Objs.pat_engine_regrow, byExec execPatEngineRegrow),
   (Objs.pat_set_header, byExec execPatSetHeaderWrite), (Objs.pat_mem_data, byExec execPatWordWrite),
   (Objs.pat_set_desc, fun c _ v => writeObj c Objs.pat_set_desc 0 v (setPartCheck c 0) (setPartApply c 0)),
   (Objs.pat_set_extract, fun c _ v => writeObj c Objs.pat_set_extract 0 v (setPartCheck c 1) (setPartApply c 1))]

/-! ## Skinks and control stores (R132, R166) -/

/-- Skinks and control stores. -/
def writersSkink : List (Obj × Writer) :=
  [(Objs.clutch_drain, byExec execClutchDrain), (Objs.clutch_return, byExec execClutchReturn), (Objs.skink_isolate, byExec execSkinkIsolate),
   (Objs.skink_regrow, byExec execSkinkRegrow), (Objs.sf_entry, byExec execSfEntryWrite),
   (Objs.cs_buf_offset, refusing Objs.cs_buf_offset (badValue (fun x => x % 256 != 0))), (Objs.cs_buf_data, byExec execCsBufData),
   (Objs.cs_load_addr, refusing Objs.cs_load_addr (badValue (fun x => x % 64 != 0))),
   (Objs.cs_load, fun c _ v => writeObj c Objs.cs_load 0 v (claimCheck c) (csLoadApply c)),
   (Objs.hue_image_load, byExec execHueImageLoad), (Objs.disp0_stage, byExec execDisp0Stage),
   (Objs.cs_peek_select, refusing Objs.cs_peek_select (badValue (fun x => fld x 14 2 != 0)))]

/-! ## Commit unit and FSU (R204, R246) -/

/-- Commit unit and FSU. -/
def writersFlow : List (Obj × Writer) :=
  [(Objs.leap_keyed_ops, byExec (fun c => execRwhValueWrite c 2)), (Objs.hash_salt, byExec execHashSaltWrite),
   (Objs.flow_cache_flush, byExec execFlowCacheFlush),
   (Objs.flow_search, fun c _ v => writeObj c Objs.flow_search 0 v noCheck (fun _ => flowSearchApply c)),
   (Objs.flow_lock, fun c _ v => writeObj c Objs.flow_lock 0 v noCheck (fun _ => flowLockApply c)),
   (Objs.flow_unlock, fun c _ v => writeObj c Objs.flow_unlock 0 v noCheck (fun _ => flowUnlockApply c)),
   (Objs.flow_write, fun c _ v => writeObj c Objs.flow_write 0 v noCheck (flowWriteApply c)),
   (Objs.flow_next, fun c _ v => writeObj c Objs.flow_next 0 v noCheck (fun _ => flowNextApply c)),
   (Objs.flow_flush_port, fun c _ v => writeObj c Objs.flow_flush_port 0 v noCheck (flowFlushApply c true)),
   (Objs.flow_flush_tmpl, fun c _ v => writeObj c Objs.flow_flush_tmpl 0 v noCheck (flowFlushApply c false)),
   (Objs.tmpl_header, byExec execTmplHeaderWrite),
   (Objs.tmpl_desc, fun c _ v => writeObj c Objs.tmpl_desc 0 v (tmplDescCheck c) (tmplDescApply c)),
   (Objs.key_tmpl_desc, byExec execKeyTmplWrite)]

/-! ## Forwarding tables (R299) -/

/-- Forwarding tables. -/
def writersTable : List (Obj × Writer) :=
  [(Objs.mac_hash_salt, refusing Objs.mac_hash_salt (fun _ _ => macSaltCheck)), (Objs.mac_flush_port, byExec execMacFlushPort),
   (Objs.tbl_cmd, fun c _ v => writeObj c Objs.tbl_cmd 0 v noCheck (tblCmdApply c))]

/-! ## Fabric and buffers (R330) -/

/-- The values of voq_select that name no VOQ (R303). -/
def voqBad (x : Nat) : Bool := bit x 4 || decide (8 < fld x 0 4) || (bit x 15 && fld x 5 5 != 0)

/-- Fabric and buffers. -/
def writersFabric : List (Obj × Writer) :=
  [Objs.fab_xoff_class, Objs.fab_xon_class, Objs.fab_xoff_total, Objs.fab_xon_total].map
    (fun o => (o, fun c i v s => writeObj c o i v (fabThreshCheck o) (fun _ s => s.xoffUpdateAll) s)) ++
  [Objs.refill_level, Objs.spill_threshold].map (fun o => (o, refusing o (fun _ _ => fabThreshCheck o))) ++
  [(Objs.middle_isolate, byExec execMiddleIsolate), (Objs.middle_regrow, byExec execMiddleRegrow),
   (Objs.voq_select, refusing Objs.voq_select (badValue voqBad))]

/-! ## HBM (R413) -/

/-- HBM. -/
def writersHbm : List (Obj × Writer) :=
  [(Objs.hbm_thaw, byExec execHbmThaw), (Objs.hbm_retire, byExec execHbmRetire), (Objs.hbm_regrow, byExec execHbmRegrow),
   (Objs.hbm_ppr_target, refusing Objs.hbm_ppr_target (fun _ _ => pprTargetCheck)), (Objs.hbm_ppr, fun c _ v => writePpr c v)]

/-! ## Stream port (R496) -/

/-- Stream port. -/
def writersStream : List (Obj × Writer) :=
  [(Objs.str_enable, byExec execStrEnableWrite), (Objs.str_metaframe, refusing Objs.str_metaframe (fun _ _ => strOffOnly)),
   (Objs.str_chan_buf, refusing Objs.str_chan_buf (fun _ _ => strOffOnly)),
   (Objs.mirror_session, refusing Objs.mirror_session (fun _ _ => mirrorCheck))]

/-! ## Faults (R522, R523) -/

/-- Faults. -/
def writersFault : List (Obj × Writer) :=
  [(Objs.ev_reaction, byExecAt 250 (fun c n => execEvConfigWrite c n 0)), (Objs.ev_esc_n, byExecAt 250 (fun c n => execEvConfigWrite c n 1)),
   (Objs.ev_esc_window, byExecAt 250 (fun c n => execEvConfigWrite c n 2)),
   (Objs.ev_esc_reaction, byExecAt 250 (fun c n => execEvConfigWrite c n 3)), (Objs.ev_clear, byExecAt 250 execEvClear),
   (Objs.fm_summary_clear, byExec execFmSummaryClear), (Objs.croak_level, byExec execCroakLevelWrite),
   (Objs.fm_first_clear, byExec execFmFirstClear), (Objs.fm_log_ack, byExec execFmLogAck), (Objs.fm_isolate, byExec execFmIsolate),
   (Objs.fm_regrow, byExec execFmRegrow)]

/-! ## Power and Eft (R559) -/

/-- R46: the watch port that a write names, against the other one. -/
def watchCheck (other : Obj) : Nat → State → Code := fun x s => refuseIf (!s.watchOk x || s.rd other == x) .range

/-- A write of reset_cmd by a path whose command has no operand for the pins: the BOOT_MODE that a cold reset samples is a free value (log 93). -/
def resetCmdApply (x : Nat) (s : State) : State :=
  if x = 1 then s.warmCommand
  else
    let (v, t) := s.draw
    t.coldTrigger 2 (v % 8) false

/-- The lengths that a canned frame cannot have. -/
def cannedBad (x : Nat) : Bool := decide (fld x 0 16 < 60) || decide (128 < fld x 0 16)

/-- Power and Eft. -/
def writersEft : List (Obj × Writer) :=
  [(Objs.watch_port_a, refusing Objs.watch_port_a (fun _ _ => watchCheck Objs.watch_port_b)),
   (Objs.watch_port_b, refusing Objs.watch_port_b (fun _ _ => watchCheck Objs.watch_port_a)),
   (Objs.reset_cmd, fun c _ v => writeObj c Objs.reset_cmd 0 v resetCheck resetCmdApply), (Objs.brumate, byExec execBrumate),
   (Objs.wake, byExec execWake), (Objs.sampler_cfg, byExecAt 16 execSamplerCfgWrite),
   (Objs.eft_rule, fun c r v => writeObj c Objs.eft_rule r v ruleCheck (fun _ s => s.setRuleState r RuleState.init)),
   (Objs.canned_frame, refusing Objs.canned_frame (badValue cannedBad))]

/-! ## Debug (R581) -/

/-- Debug. -/
def writersDebug : List (Obj × Writer) :=
  [(Objs.dbg_halt, byExec execDbgHalt), (Objs.dbg_resume, byExec execDbgResume), (Objs.dbg_step, byExec execDbgStep),
   (Objs.dbg_mem_cmd, fun c _ v => writeObj c Objs.dbg_mem_cmd 0 v (memCheck c) (memApply c false)),
   (Objs.boot_load, fun c _ v => writeObj c Objs.boot_load 0 v bootCheck (bootLoadApply c)),
   (Objs.boot_go, fun c _ v => writeObj c Objs.boot_go 0 v bootGoCheck (fun _ => bootGoApply [])),
   (Objs.breakpoint, fun c i v => writeObj c Objs.breakpoint i v bpWriteCheck noApply),
   (Objs.trace_ctrl, fun c i v => writeObj c Objs.trace_ctrl i v (traceCheck i) (fun _ => traceApply i)),
   (Objs.lane_prbs, byExecAt 64 (fun c l v => execLanePrbsWrite c l v none))]

/-! ## One object -/

/-- The writers of an index's chapter. -/
def writersOf (idx : Nat) : List (Obj × Writer) :=
  if idx < 0x2000 then writersDevice
  else if idx < 0x3000 then writersPort
  else if idx < 0x3400 then writersTime
  else if idx < 0x4000 then writersEgress
  else if idx < 0x4400 then writersHue
  else if idx < 0x4800 then writersPattern
  else if idx < 0x5000 then writersSkink
  else if idx < 0x5800 then writersFlow
  else if idx < 0x6000 then writersTable
  else if idx < 0x6800 then writersFabric
  else if idx < 0x7000 then writersHbm
  else if idx < 0x7800 then []
  else if idx < 0x8000 then writersStream
  else if idx < 0x9000 then writersFault
  else if idx < 0xA000 then writersEft
  else if idx < 0xF000 then writersDebug
  else []

/-- A write of instance `i` of an object. -/
def writeAny (c : Ctx) (o : Obj) (i : Nat) (v : List Byte) (s : State) : State :=
  match (writersOf o.idx).find? (fun p => p.1.idx == o.idx && p.1.sub == o.sub) with
  | some p => p.2 c i v s
  | none => writeObj c o i v noCheck noApply s

/-- The objects that have an instance at an index. -/
def objsAt (idx : Nat) : List Obj := (Objs.pageOf idx).filter (fun o => decide (o.idx ≤ idx) && decide (idx < o.idx + o.n))

/-- The highest subindex at an index (R444). -/
def highestSub (idx : Nat) : Nat := (objsAt idx).foldl (fun n o => max n (o.sub + o.m - 1)) 0

/-- Subindex 0 of an index that holds objects (R444). -/
def subZero (idx : Nat) : Obj := ⟨"highest_subindex", idx, 0, 1, 1, .u 1, .ro, .v, .val (highestSub idx), []⟩

/-- The object with an instance at a subindex. -/
def objAt (idx sub : Nat) : Option Obj :=
  if sub = 0 then (if (objsAt idx).isEmpty then none else some (subZero idx))
  else (objsAt idx).find? (fun o => decide (o.sub ≤ sub) && decide (sub < o.sub + o.m))

/-- NO_OBJECT or NO_SUB (R451). -/
def absent (idx : Nat) : Code := if (objsAt idx).isEmpty then .noObject else .noSub

/-- An item's answer without a value. -/
def answerItem (c : Ctx) (idx sub : Nat) (k : Code) (s : State) : State := s.put (.answer c idx sub k.num [])

/-- A write item (R451). -/
def dictWrite (c : Ctx) (idx sub : Nat) (v : List Byte) (s : State) : State :=
  match objAt idx sub with
  | some o => writeAny c o (instOf o (idx * 256 + sub)) v s
  | none =>
    if s.pathServed c = false then s
    else answerItem c idx sub (if s.pathEnable c < 2 then .pathDisabled else absent idx) s

/-- A read item (R451, R452); `v` is the value it carries. -/
def dictRead (c : Ctx) (idx sub : Nat) (v : List Byte) (s : State) : State :=
  match objAt idx sub with
  | some o =>
    let i := instOf o (idx * 256 + sub)
    if v ≠ [] ∧ o.acc ≠ .wo ∧ s.pathServed c = true ∧ 1 ≤ s.pathEnable c then answerItem c idx sub .length s
    else readObj c o i (fun s => s.readValue c o i) (fun s => s.readRefused c o i) (readEffect o i) s
  | none =>
    if s.pathServed c = false then s
    else answerItem c idx sub (if s.pathEnable c < 1 then .pathDisabled else absent idx) s

/-- The meaning of DICT_WRITE. -/
def execDictWrite (c : Ctx) (idx : BitVec 16) (sub : BitVec 8) (v : List Byte) (s : State) : Out :=
  .next (dictWrite c idx.toNat sub.toNat v s)

end Sys2Proof.Machine
end

