-- ==== Sys2Proof/Machine/Pdu.lean ====
section
/-! DEFINITION. Requests of several items (R453, R463 to R465): how a PDU is checked, executed and answered, on OAP, in the PCIe
mailbox (R469) and in the DICT data register of the SDP (R564). -/

namespace Sys2Proof.Machine

/-- One item of a request (R464). -/
structure Item where
  op : Nat
  sub : Nat
  idx : Nat
  value : List Byte
deriving DecidableEq, Repr

/-- One item of a response. -/
structure Reply where
  op : Nat
  sub : Nat
  idx : Nat
  code : Nat
  value : List Byte
deriving DecidableEq, Repr

/-- The bytes of a value with its padding. -/
def pad4 (n : Nat) : Nat := (n + 3) / 4 * 4

/-- The items of a request: `n` of them, ending exactly at the end; none where they do not, or where byte 5 of an item is not 0. -/
def parseItems : Nat → List Byte → Option (List Item)
  | 0, b => if b = [] then some [] else none
  | n + 1, b =>
    let len := beNat (slice b 6 2)
    if b.length < 8 + pad4 len ∨ b.getD 5 0 ≠ 0 then none
    else match parseItems n (b.drop (8 + pad4 len)) with
      | some rest => some (⟨(b.getD 0 0).toNat, (b.getD 1 0).toNat, beNat (slice b 2 2), slice b 8 len⟩ :: rest)
      | none => none

/-- Fields of a PDU's header (R463). -/
def pduSeq (b : List Byte) : Nat := beNat (slice b 4 4)

/-- DEVICE_ID of a PDU. -/
def pduDevice (b : List Byte) : Nat := beNat (slice b 12 2)

/-- The items of a request that has the form of R463 and R464. -/
def pduItems (b : List Byte) : Option (List Item) :=
  if beNat (slice b 2 2) ≠ 0 ∨ beNat (slice b 14 2) ≠ 0 ∨ beNat (slice b 10 2) ≠ b.length ∨ 1400 < b.length ∨ b.length < 16 then none
  else match parseItems (beNat (slice b 8 2)) (b.drop 16) with
    | some l => if l.all (fun i => i.op == 1 || i.op == 2) then some l else none
    | none => none

/-- The bytes an item's answer takes at most, from the type of the object read. -/
def replyRoom (i : Item) : Nat :=
  if i.op = 1 then 8 + pad4 (((objAt i.idx i.sub).map (fun o => o.ty.size)).getD 0) else 8

/-- What R465 makes of a request: nothing is sent, an ERROR PDU with a reason, or its items. -/
inductive Verdict where
  | discard
  | error (reason : Nat)
  | items (l : List Item)
deriving DecidableEq, Repr

/-- R465 without its last row; `device` is the number the request must name, where it must. -/
def judgePdu (device : Option Nat) (b : List Byte) : Verdict :=
  let other := match device with
    | some d => pduDevice b != d && pduDevice b != 0xFFFF
    | none => false
  if other || b.getD 1 0 != 1 then .discard
  else if b.getD 0 0 ≠ 1 then .error 1
  else match pduItems b with
    | none => .error 2
    | some l => if 1400 < 16 + (l.map replyRoom).sum then .error 3 else .items l

/-- A header (R463). -/
def pduHeader (s : State) (op seq count len : Nat) : List Byte :=
  [1, BitVec.ofNat 8 op, 0, 0] ++ beBytes 4 seq ++ beBytes 2 count ++ beBytes 2 len ++ beBytes 2 s.devId ++ [0, 0]

/-- An ERROR PDU (R465). -/
def errorPdu (s : State) (seq reason : Nat) : List Byte := pduHeader s 3 seq 0 20 ++ beBytes 4 reason

/-- An item of a response (R464). -/
def Reply.bytes (r : Reply) : List Byte :=
  [BitVec.ofNat 8 r.op, BitVec.ofNat 8 r.sub] ++ beBytes 2 r.idx ++ [BitVec.ofNat 8 r.code, 0] ++ beBytes 2 r.value.length ++
    padTo 0 (pad4 r.value.length) r.value

/-- A response. -/
def responsePdu (s : State) (seq : Nat) (l : List Reply) : List Byte :=
  let body := (l.map Reply.bytes).flatten
  pduHeader s 2 seq l.length (16 + body.length) ++ body

/-- Take the answer that an item has just put out; none where the path answered nothing. -/
def takeAnswer (before : Nat) (s : State) : Option (Nat × List Byte) × State :=
  if before < s.outbox.length then
    match s.outbox.getLast? with
    | some (.answer _ _ _ code v) => (some (code, v), { s with outbox := s.outbox.dropLast })
    | _ => (none, s)
  else (none, s)

/-- One item is executed. -/
def runItem (c : Ctx) (i : Item) (s : State) : Option Reply × State :=
  let t := if i.op = 1 then dictRead c i.idx i.sub i.value s else dictWrite c i.idx i.sub i.value s
  match takeAnswer s.outbox.length t with
  | (some (code, v), u) => (some ⟨i.op, i.sub, i.idx, code, v⟩, u)
  | (none, u) => (none, u)

/-- The enable of a context's path: its object. -/
def ownEnable (c : Ctx) : Obj := pathObj (ctxPath c)

/-- All five paths are DISABLED (R457). -/
def State.allDisabled (s : State) : Bool := (List.range 5).all (fun i => s.rd (pathObj i) == 0)

/-- The items of one request in order (R453). `old` is the enable of the path that carries it, which a write changes only after the
response; `new` the value such a write left, with which no write may leave all paths DISABLED (R457). The replies are none where some item
was not answered. -/
def runItems (c : Ctx) (old : Nat) : List Item → Nat → List Reply → State → Option (List Reply) × State
  | [], new, done, s => (some done.reverse, s.wr (ownEnable c) 0 new)
  | i :: rest, new, done, s =>
    match runItem c i s with
    | (some r, t) =>
      let own := i.op = 2 ∧ r.code = 0 ∧ i.idx = (ownEnable c).idx ∧ i.sub = (ownEnable c).sub
      let next := if own then t.rd (ownEnable c) else new
      if i.op = 2 ∧ r.code = 0 ∧ (t.wr (ownEnable c) 0 next).allDisabled then runItems c old rest new ({ r with code := Code.state.num } :: done) s
      else runItems c old rest next (r :: done) (t.wr (ownEnable c) 0 old)
    | (none, t) => (none, t.wr (ownEnable c) 0 new)

/-- A request's items are executed: its response. -/
def runRequest (c : Ctx) (seq : Nat) (l : List Item) (s : State) : Option (List Byte) × State :=
  let old := s.rd (ownEnable c)
  match runItems c old l old [] s with
  | (some replies, t) => (some (responsePdu s seq replies), t)
  | (none, t) => (none, t)

/-- A request without session and device number (R469, R564): its response. -/
def localRequest (c : Ctx) (b : List Byte) (s : State) : Option (List Byte) × State :=
  match judgePdu none b with
  | .discard => (none, s.bump Objs.oap_drop)
  | .error k => (some (errorPdu s (pduSeq b) k), s)
  | .items l => runRequest c (pduSeq b) l s

/-! ## The PCIe mailbox (R468, R469) -/

/-- The request that MB_REQUEST holds. -/
def mbPdu (held : List Byte) : List Byte :=
  let b := padTo 0 1400 held
  b.take (max 16 (beNat (slice b 10 2)))

/-- The mailbox executes MB_REQUEST: it is BUSY, its items take effect, and its response is held until it is complete. -/
def State.mbExecute (s : State) : State :=
  match localRequest .pcie (mbPdu s.dict.mbRequest) { s with dict := { s.dict with mbStatus := 1 } } with
  | (r, u) => { u with dict := { u.dict with mbRun := r.getD [] } }

/-- A doorbell after the writes of MB_REQUEST (no bytes: none) and MB_CTRL that software made for it. One while BUSY is discarded and
counted. -/
def mailbox (s : State) (request : List Byte) (ctrl : Nat) : State :=
  if s.pathServed .pcie = false then s
  else
    let s1 := if request.isEmpty then s else s.mbWrite 0 request
    let t : State := { s1 with dict := { s1.dict with mbCtrl := ctrl } }
    if t.dict.mbStatus = 1 then t.bump Objs.mb_ignored else t.mbExecute

/-- The meaning of MB_DOORBELL. -/
def execMbDoorbell (request : List Byte) (ctrl : BitVec 8) (s : State) : Out := .next (mailbox s request ctrl.toNat)

/-! ## The DICT data register (R564) -/

/-- The data register as it is captured: STATE and DATA. -/
def dictCapture (s : State) (data : Nat) : State := s.put (.tap (s.dbg.state * 2 ^ 12 + data))

/-- A DICT operation acts on a served TAP, whose instruction register it needs at DICT. -/
def dictOp (f : State → State) (s : State) : State :=
  if s.tapServed then f (if s.dbg.ir = 0x10 then s else s.tapSelect 0x10) else s

/-- The meaning of DICT_STATUS. -/
def execDictStatus (s : State) : Out := .next (dictOp (fun s => dictCapture s 0) s)

/-- PUT. -/
def dictPut (byte : Byte) (s : State) : State :=
  if s.dbg.state = 2 then { s with dbg := { s.dbg with request := [byte], state := 0 } }
  else if s.dbg.state = 1 ∨ 1400 ≤ s.dbg.request.length then s
  else { s with dbg := { s.dbg with request := s.dbg.request ++ [byte] } }

/-- The meaning of DICT_PUT. -/
def execDictPut (byte : Byte) (s : State) : Out := .next (dictOp (dictPut byte) s)

/-- GO: the items of the request take effect, and STATE is BUSY until the response is complete. -/
def dictGo (s : State) : State :=
  if s.dbg.state = 1 ∨ s.pathServed .sdp = false then s
  else
    let t : State := { s with dbg := { s.dbg with respAt := 0, response := [] } }
    match localRequest .sdp t.dbg.request t with
    | (r, u) => { u with dbg := { u.dbg with response := r.getD [], state := 1 } }

/-- The meaning of DICT_GO. -/
def execDictGo (s : State) : Out := .next (dictOp dictGo s)

/-- GET: the next byte of the response; past its end, or while STATE is BUSY, the byte is a free value. -/
def dictGet (s : State) : State :=
  let t : State := { s with dbg := { s.dbg with respAt := s.dbg.respAt + 1 } }
  match (if s.dbg.state = 1 then none else s.dbg.response[s.dbg.respAt]?) with
  | some b => dictCapture t b.toNat
  | none =>
    let (x, u) := t.draw
    dictCapture u (x % 256)

/-- The meaning of DICT_GET. -/
def execDictGet (s : State) : Out := .next (dictOp dictGet s)

end Sys2Proof.Machine
end

