-- ==== Sys2Proof/Machine/Oap.lean ====
section
/-! DEFINITION. OAP over UDP on the management ports and in-band (R461, R462, R466, R467). -/

namespace Sys2Proof.Machine

/-- One of the two OAP paths. -/
inductive OapPath where
  | mgmt | inband
deriving DecidableEq, Repr

/-- The context of a path's session. -/
def OapPath.ctx (p : OapPath) (n : Fin 8) : Ctx :=
  match p with
  | .mgmt => .oapMgmt n
  | .inband => .oapInband n

/-- The sessions of a path. -/
def State.sessions (s : State) (p : OapPath) : Tab Session :=
  match p with
  | .mgmt => s.dict.sessMgmt
  | .inband => s.dict.sessInband

/-- Set the sessions of a path. -/
def State.setSessions (s : State) (p : OapPath) (t : Tab Session) : State :=
  match p with
  | .mgmt => { s with dict := { s.dict with sessMgmt := t } }
  | .inband => { s with dict := { s.dict with sessInband := t } }

/-- The second in which a path last accepted a request, and how many it accepted in it. -/
def State.oapCount (s : State) (p : OapPath) : Nat × Nat :=
  match p with
  | .mgmt => s.dict.rateMgmt
  | .inband => s.dict.rateInband

/-- Set the count. -/
def State.setOapCount (s : State) (p : OapPath) (x : Nat × Nat) : State :=
  match p with
  | .mgmt => { s with dict := { s.dict with rateMgmt := x } }
  | .inband => { s with dict := { s.dict with rateInband := x } }

/-! ## Sessions (R466) -/

/-- A context holds a lock. -/
def State.holdsLock (s : State) (n : Nat) : Bool :=
  s.fsu.locks.any (fun l => decide (l.owner = .dict n)) || s.tbl.macLocks.any (fun p => decide (p.2 = .dict n))

/-- A session ends, and its context with it. -/
def endSession (p : OapPath) (n : Nat) (s : State) : State :=
  (s.setSessions p (tdel n (s.sessions p))).ctxEnd (ctxCode (p.ctx (Fin.ofNat 8 n)))

/-- The session that the ninth source ends: the least recently used one idle for 1 s or more that holds no lock. -/
def State.spareSession (s : State) (p : OapPath) : Option Nat :=
  let idle := (s.sessions p).filter (fun q =>
    s.elapsed q.2.lastF 1000000000 && !s.holdsLock (ctxCode (p.ctx (Fin.ofNat 8 q.1))))
  (idle.foldl (fun (b : Option (Nat × Session)) q =>
    match b with
    | none => some q
    | some r => if s.sinceNs r.2.lastF < s.sinceNs q.2.lastF then some q else b) none).map (·.1)

/-- The number for a new session, with the state in which it is free; none where R465 answers SESSIONS_FULL. -/
def State.freeSession (s : State) (p : OapPath) : Option (Nat × State) :=
  match (List.range 8).find? (fun n => (tfind (s.sessions p) n).isNone) with
  | some n => some (n, s)
  | none => (s.spareSession p).map (fun n => (n, endSession p n s))

/-- The session of a source. -/
def State.sessionOf (s : State) (p : OapPath) (ip port : Nat) : Option (Nat × Session) :=
  (s.sessions p).find? (fun q => q.2.ip == ip && q.2.port == port)

/-- A request is executed in a session; its response is kept. -/
def sessionRun (p : OapPath) (n ip port seq : Nat) (l : List Item) (s : State) : Option (List Byte) × State :=
  let keep := fun (r : List Byte) (t : State) => t.setSessions p (tput n ⟨ip, port, seq, r, s.fNs⟩ (t.sessions p))
  match runRequest (p.ctx (Fin.ofNat 8 n)) seq l (keep [] s) with
  | (some r, t) => (some r, if (t.sessionOf p ip port).isSome then keep r t else t)
  | (none, t) => (none, t)

/-- R466: what becomes of a request that passes R465. -/
def sessionRequest (p : OapPath) (ip port seq : Nat) (l : List Item) (s : State) : Option (List Byte) × State :=
  match s.sessionOf p ip port with
  | some (n, x) =>
    if x.lastSeq = seq then
      (some x.lastResp, (s.setSessions p (tput n { x with lastF := s.fNs } (s.sessions p))).bump Objs.oap_resent)
    else if later 32 seq x.lastSeq then sessionRun p n ip port seq l s
    else (none, s.bump Objs.oap_stale_seq)
  | none => match s.freeSession p with
    | some (n, t) => sessionRun p n ip port seq l t
    | none => (some (errorPdu s seq 4), s)

/-- R467: the rate limit. -/
def oapLimit (p : OapPath) (s : State) : Option State :=
  let now := s.fNs / 1000000000
  let (sec, n) := s.oapCount p
  let n := if sec = now then n else 0
  if s.rd Objs.oap_rate ≤ n then none else some (s.setOapCount p (now, n + 1))

/-- The enable of a path (R456). -/
def State.oapEnable (s : State) (p : OapPath) : Nat := s.pathEnable (p.ctx 0)

/-- A request datagram: its response, where there is one. -/
def oapDatagram (p : OapPath) (ip port : Nat) (pdu : List Byte) (s : State) : Option (List Byte) × State :=
  if s.oapEnable p = 0 then (none, s.bump Objs.oap_drop)
  else match oapLimit p s with
    | none => (none, s.bump Objs.oap_drop)
    | some t =>
      match judgePdu (some t.devId) pdu with
      | .discard => (none, t.bump Objs.oap_drop)
      | .error k => (some (errorPdu t (pduSeq pdu) k), t)
      | .items l => sessionRequest p ip port (pduSeq pdu) l t

/-! ## Frames (R461, R462) -/

/-- A UDP datagram in an IPv4 packet: source address, destination address, source port, destination port, payload; none for
fragments, headers with options and what is cut short. -/
def udpOf (b : List Byte) : Option (Nat × Nat × Nat × Nat × List Byte) :=
  let total := beNat (slice b 2 2)
  let len := beNat (slice b 24 2)
  if b.getD 0 0 ≠ 0x45 ∨ beNat (slice b 6 2) % 16384 ≠ 0 ∨ b.getD 9 0 ≠ 17 ∨ total < 28 ∨ b.length < total ∨ len < 8 ∨ total < 20 + len then none
  else some (beNat (slice b 12 4), beNat (slice b 16 4), beNat (slice b 20 2), beNat (slice b 22 2), slice b 28 (len - 8))

/-- An ARP request on Ethernet for IPv4: sender's MAC and address, and the address asked for. -/
def arpOf (b : List Byte) : Option (Nat × Nat × Nat) :=
  if b.length < 28 ∨ beNat (slice b 0 2) ≠ 1 ∨ beNat (slice b 2 2) ≠ 0x0800 ∨ beNat (slice b 4 2) ≠ 0x0604 ∨ beNat (slice b 6 2) ≠ 1 then none
  else some (beNat (slice b 8 6), beNat (slice b 14 4), beNat (slice b 24 4))

/-- The ARP reply: `mac` and `ip` are the device's. -/
def arpReply (mac : List Byte) (ip sha spa : Nat) : List Byte :=
  beBytes 2 1 ++ beBytes 2 0x0800 ++ beBytes 2 0x0604 ++ beBytes 2 2 ++ mac ++ beBytes 4 ip ++ beBytes 6 sha ++ beBytes 4 spa

/-- The MAC address that an object holds, in the order of the wire. -/
def State.macBytes (s : State) (o : Obj) : List Byte := leBytes 6 (s.rd o)

/-- The port of OAP (R461). -/
def oapPort : Nat := 47560

/-- The EtherType and the bytes behind it, of an untagged or priority-tagged frame. -/
def mgmtPayload (f : List Byte) : Option (Nat × List Byte) :=
  let t := beNat (slice f 12 2)
  if t = 0x8100 then if beNat (slice f 14 2) % 4096 = 0 then some (beNat (slice f 16 2), f.drop 18) else none
  else some (t, f.drop 14)

/-- A frame on a management port (R461). -/
def mgmtFrame (port : Nat) (f : List Byte) (s : State) : State :=
  if s.pathServed (.oapMgmt 0) = false then s
  else
    let mine := f.take 6 == s.macBytes Objs.mgmt_mac || beNat (f.take 6) == 2 ^ 48 - 1
    let sa := beNat (slice f 6 6)
    let ip := s.rd Objs.mgmt_ipv4
    let drop := s.bump Objs.oap_drop
    if mine = false then drop
    else match mgmtPayload f with
      | some (0x0806, b) => match arpOf b with
        | some (sha, spa, tpa) => if tpa = ip then s.put (.mgmt port sa spa 0 (arpReply (s.macBytes Objs.mgmt_mac) ip sha spa)) else drop
        | none => drop
      | some (0x0800, b) => match udpOf b with
        | some (src, dst, sp, dp, pdu) =>
          if dst = ip ∧ dp = oapPort then
            match oapDatagram .mgmt src sp pdu s with
            | (some r, t) => t.put (.mgmt port sa src sp r)
            | (none, t) => t
          else drop
        | none => drop
      | _ => drop

/-- The meaning of OAP_REQUEST. -/
def execOapRequest (mgmtPort : Fin 2) (frame : List Byte) (s : State) : Out := .next (mgmtFrame mgmtPort.val frame s)

/-- The meaning of OAP_ARP_REQUEST. -/
def execOapArpRequest (mgmtPort : Fin 2) (frame : List Byte) (s : State) : Out := .next (mgmtFrame mgmtPort.val frame s)

/-- OAP_SESSION_EXPIRY. -/
def sessionExpiry (p : OapPath) (n : Nat) (s : State) : State :=
  match tfind (s.sessions p) n with
  | some x => if s.elapsed x.lastF (s.rd Objs.oap_session_timeout * 1000000000) then endSession p n s else s
  | none => s

/-- The meaning of OAP_SESSION_EXPIRY. -/
def execOapSessionExpiry (inband : Bool) (session : Fin 8) (s : State) : Out :=
  .next (sessionExpiry (if inband then .inband else .mgmt) session.val s)

/-! ## The in-band agent (R462) -/

/-- The agent sends a frame to a port: as PKT_INJECT with DIRECT = 1 would, in queue inband_queue. -/
def agentSend (port : Nat) (frame : List Byte) (s : State) : State :=
  let f := padTo 0 (max 60 frame.length) frame
  let (pid, t) := s.newPid
  let it : TmItem := ⟨pid, injectMd t (port + 256 * t.rd Objs.inband_queue) f.length, directPrv (t.rd Objs.vlan_tpid3) f, f, f, none⟩
  { t with tm := { t.tm with items := t.tm.items ++ [it] } }

/-- The bytes ahead of the payload of an agent's frame: to the request's SA, with its tag. -/
def agentHead (s : State) (f : List Byte) (etype : Nat) : List Byte :=
  slice f 6 6 ++ s.macBytes Objs.inband_mac ++ slice f 12 4 ++ beBytes 2 etype

/-- The ones' complement checksum of bytes. -/
def inetSum (b : List Byte) : Nat := 65535 - fold16 (sum16 b)

/-- A UDP datagram in an IPv4 packet from the agent; the identification is a free value. -/
def agentUdp (s : State) (dst port : Nat) (payload : List Byte) : List Byte × State :=
  let (x, t) := s.draw
  let src := beBytes 4 (s.rd Objs.inband_ipv4)
  let len := 8 + payload.length
  let start := [0x45, Config.oapTos] ++ beBytes 2 (20 + len) ++ beBytes 2 (x % 65536) ++
    beBytes 2 (if Config.oapDontFragment then 0x4000 else 0) ++ [Config.oapTtl, 17]
  let addrs := src ++ beBytes 4 dst
  let udp := beBytes 2 oapPort ++ beBytes 2 port ++ beBytes 2 len
  let sum := inetSum (addrs ++ [0, 17] ++ beBytes 2 len ++ udp ++ [0, 0] ++ payload)
  let check := if Config.oapUdpChecksum then (if sum = 0 then 65535 else sum) else 0
  (start ++ beBytes 2 (inetSum (start ++ [0, 0] ++ addrs)) ++ addrs ++ udp ++ beBytes 2 check ++ payload, t)

/-- A frame that the reorder stage passes to the agent: `f` without FCS, its IN_PORT and its PUNT_REASON. -/
def agentTake (port reason : Nat) (f : List Byte) (s : State) : State :=
  let ip := s.rd Objs.inband_ipv4
  let drop := s.bump Objs.oap_drop
  let etype := beNat (slice f 16 2)
  let body := f.drop 18
  if s.oapEnable .inband = 0 ∨ ip = 0 ∨ beNat (slice f 14 2) % 4096 ≠ s.rd Objs.mgmt_vlan ∨
      ([0x8100, 0x88A8, s.rd Objs.vlan_tpid3].contains (beNat (slice f 12 2))) = false then drop
  else if reason = 0xE1 then
    match etype, arpOf body with
    | 0x0806, some (sha, spa, tpa) =>
      if tpa = ip then agentSend port (agentHead s f 0x0806 ++ arpReply (s.macBytes Objs.inband_mac) ip sha spa) s else drop
    | _, _ => drop
  else if f.take 6 ≠ s.macBytes Objs.inband_mac then drop
  else match etype, udpOf body with
    | 0x0800, some (src, dst, sp, dp, pdu) =>
      if dst = ip ∧ dp = oapPort then
        match oapDatagram .inband src sp pdu s with
        | (some r, t) =>
          let (packet, u) := agentUdp t src sp r
          agentSend port (agentHead u f 0x0800 ++ packet) u
        | (none, t) => t
      else drop
    | _, _ => drop

end Sys2Proof.Machine
end

