-- ==== Sys2Proof/Machine/PowerOn.lean ====
section
/-! DEFINITION. The power-on reset (R449, R476, R525, R586) and the loading of the class-N objects (R476). -/

namespace Sys2Proof.Machine

/-! ## The image judged as one (R476) -/

/-- A check as a verdict of R476: TYPE and RANGE refuse, the device's running state does not. -/
def refusesValue (k : Code) : Bool := k == .type || k == .range

/-- R27 and R26 for a saved port_mode, against the other modes of the image: a further port of a USXGMII-M lane has the mode
of the lane's first port. -/
def savedModeBad (p x : Nat) (s : State) : Bool :=
  if p % 4 ≠ 0 then !(x == 3 && s.portMode (p / 4 * 4) == 3)
  else portModeCheck p x (s.wr Objs.admin_up p 0) != .ok

/-- R47 for a saved preempt_enable. -/
def savedPreemptBad (p x : Nat) (s : State) : Bool := x == 1 && !preemptMode (s.portMode p)

/-- A verdict from a chapter's check. -/
def verdict (f : Nat → Nat → State → Code) : Nat → Nat → State → Bool := fun i x s => refusesValue (f i x s)

/-- The class-N objects whose chapters judge a value beside R451, with the verdict on instance and value. -/
def savedChecks : List (Obj × (Nat → Nat → State → Bool)) :=
  [(Objs.port_mode, savedModeBad), (Objs.preempt_enable, savedPreemptBad),
   (Objs.path_pcie, fun _ x s => pathCheck 0 x s != .ok), (Objs.path_oap_mgmt, fun _ x s => pathCheck 1 x s != .ok),
   (Objs.path_oap_inband, fun _ x s => pathCheck 2 x s != .ok), (Objs.path_can, fun _ x s => pathCheck 3 x s != .ok),
   (Objs.path_sdp, fun _ x s => pathCheck 4 x s != .ok),
   (Objs.mgmt_mac, fun _ x _ => groupMac x), (Objs.inband_mac, fun _ x _ => groupMac x),
   (Objs.dom_plaus_limit, verdict domPlausCheck), (Objs.dom_lock_thresh, verdict domLockCheck),
   (Objs.pps_width, verdict ppsWidthCheck), (Objs.pps_rate, verdict ppsRateCheck),
   (Objs.port_shaper, verdict (fun _ => shCheck)), (Objs.queue_shaper, verdict (fun _ => shCheck)),
   (Objs.mirror_session, verdict (fun _ => mirrorCheck)),
   (Objs.ev_reaction, verdict (fun n => evCheck n 0)), (Objs.ev_esc_n, verdict (fun n => evCheck n 1)),
   (Objs.ev_esc_window, verdict (fun n => evCheck n 2)), (Objs.ev_esc_reaction, verdict (fun n => evCheck n 3)),
   (Objs.watch_port_a, verdict (fun _ => watchCheck Objs.watch_port_b)),
   (Objs.watch_port_b, verdict (fun _ => watchCheck Objs.watch_port_a)),
   (Objs.sampler_cfg, verdict (fun _ => samplerCheck)), (Objs.eft_rule, verdict (fun _ => ruleCheck)),
   (Objs.canned_frame, fun _ x _ => cannedBad x)] ++
  [Objs.fec_mode, Objs.sd_assert_mv, Objs.sd_deassert_mv, Objs.usx_speed].map (fun o => (o, verdict (fun p => portObjCheck p o.sub))) ++
  [Objs.fab_xoff_class, Objs.fab_xon_class, Objs.fab_xoff_total, Objs.fab_xon_total, Objs.refill_level, Objs.spill_threshold].map
    (fun o => (o, verdict (fun _ => fabThreshCheck o)))

/-- A saved value fails a check, judged against the values that stand in the state. -/
def savedBad (s : State) (k x : Nat) : Bool :=
  match objOf k with
  | none => true
  | some o =>
    o.cls != .n || decide (2 ^ (8 * o.ty.size) ≤ x) || typeBad o.ty x || reservedBad k x || rangeBad o x ||
      (match savedChecks.find? (fun p => p.1.idx == o.idx && p.1.sub == o.sub) with
       | some p => p.2 (instOf o k) x s
       | none => false)

/-- The values that pass, judged against the values that stand. -/
def savedPass (s : State) : State :=
  { s with dict := { s.dict with objs := s.dict.objs.filter (fun p => clsOf p.1 != .n || !savedBad s p.1 p.2) } }

/-- Values that fail take their defaults, and those that depend on them are judged again, until none fails. -/
def savedSettle : Nat → State → State
  | 0, s => s
  | n + 1, s =>
    let t := savedPass s
    if t.dict.objs.length = s.dict.objs.length then s else savedSettle n t

/-- The further ports of USXGMII-M lanes have their lane's mode (R27). -/
def subModes (s : State) : State :=
  (List.range 64).foldl (fun (s : State) l =>
    if s.portMode (4 * l) = 3 then [4 * l + 1, 4 * l + 2, 4 * l + 3].foldl (fun (s : State) p => s.wr Objs.port_mode p 3) s else s) s

/-- A saved value of a class-N object is put in place. -/
def putSaved (s : State) (p : Nat × Nat) : State :=
  match objOf p.1 with
  | some o => if o.cls = .n then s.wr o (instOf o p.1) p.2 else s
  | none => s

/-- An image is loaded. -/
def loadImage (x : NImage) (s : State) : State :=
  let tm := { s.tm with polCfg := x.pol.filter (fun p => decide (0 < p.1) && decide (p.1 < 4096) && !refusesValue (polCheck p.2 s)),
                        redProf := x.red.filter (fun p => decide (p.1 < 16) && !refusesValue (redCheck p.2 s)) }
  let keys := x.keys.filter (fun p => decide (p.1 < 16) && !reservedBad (Objs.key_tmpl_desc.key 0) p.2 && !tmplBad p.2)
  let t : State := { s with tm := tm, fsu := { s.fsu with keyTmpl := keys } }
  subModes (savedSettle (x.objs.length + 1) (x.objs.foldl putSaved t))

/-- The newest valid bank is loaded, and reported in save_loaded. -/
def loadSaved (s : State) : State :=
  match s.newestBank with
  | some (b, x) => (loadImage x.image s).wr Objs.save_loaded 0 (b + 1)
  | none => s

/-! ## POR -/

/-- What survives a power-on reset: the flash, the hard repairs of the stacks (R407), the commands that wait, and what has left the device. -/
def State.bare (s : State) (slot0 slot1 : List Byte) : State :=
  let e := { Eft.init with bank0 := s.eft.bank0, bank1 := s.eft.bank1, ff := s.eft.ff, boot0 := slot0, boot1 := slot1, clocks := false,
                           pwrEn := 0, kind := 3, monitored := 0 }
  { State.reset with outbox := s.outbox, free := s.free, pending := s.pending, eft := e, hbm := s.hbm.cold, fm := { FaultMgr.init with croak := .boot } }

/-- POWER_ON_RESET: `straps` are BOOT_MODE, `device` DEVICE_ID; the slots are the boot slots of the flash. -/
def powerOn (s : State) (device straps : Nat) (slot0 slot1 : List Byte) : State :=
  let t := loadSaved ((s.bare slot0 slot1).wr Objs.device_id 0 device)
  let first := ((ffNewest t.eft.ff).map (·.2)).getD 0
  let u := ((((t.wr Objs.croak_level 0 1).wr Objs.power_state 0 4).wr Objs.boot_mode 0 straps).wr Objs.eft_ff_last 0 first)
  let v : State := { u with eft := { u.eft with strapBoot := straps } }
  (v.put (.can (0x700 + v.nodeId) [0])).railsUp

/-- The meaning of POWER_ON_RESET. -/
def execPowerOnReset (device : BitVec 14) (straps : BitVec 3) (slot0 slot1 : List Byte) (s : State) : Out :=
  .next (powerOn s device.toNat straps.toNat slot0 slot1)

end Sys2Proof.Machine
end

