-- ==== Sys2Proof/Machine/Release.lean ====
section
/-! DEFINITION. The reorder stage's release (R125, R462, R489, R491, R366). -/

namespace Sys2Proof.Machine

/-- A frame without its FCS. -/
def noFcs (f : List Byte) : List Byte := f.take (f.length - 4)

/-- The punt copy on its way to punt_ring of its reason (R437). -/
def puntItem (s : State) (k : Packet) : DItem :=
  let md := k.md
  let reason := fld md 336 8
  ⟨s.rd Objs.punt_ring reason, 1, noFcs k.frame, fld md 64 96, fld md 48 16, fld md 160 8, fld md 32 8, reason, some k.pid, s.fNs⟩

/-- R366: an offset sample that a punted packet carries. -/
def puntSample (s : State) (md : Nat) (fault : TimeFault) : State :=
  let reason := fld md 336 8
  if reason = 0xF0 ∨ reason = 0xF1 then offsetSample s (reason - 0xF0) (fld md 384 64) (fld md 64 96) fault else s

/-- A punt: to the OAP agent (R462), or to a delivery ring, where it stays in its hue's count (R76). -/
def puntCopy (s : State) (k : Packet) (fault : TimeFault) : State :=
  let reason := fld k.md 336 8
  if reason = 0xE0 ∨ reason = 0xE1 then agentTake (fld k.md 32 8) reason (noFcs k.frame) s
  else
    let t := (puntSample s k.md fault).holdMore k.pid 1
    { t with host := { t.host with items := t.host.items ++ [puntItem t k] } }

/-- The mirror session of a packet. -/
def State.session (s : State) (md : Nat) : Nat := s.rd Objs.mirror_session (fld md 332 4)

/-- A field that a mirror copy keeps or loses. -/
def keepField (k lo w md : Nat) : Nat := if bit Config.mirrorKeeps.toNat k then md else setFld md lo w 0

/-- The metadata of a mirror copy: a unicast packet to PORT in queue QUEUE. -/
def mirrorMd (md x : Nat) : Nat :=
  let a := setFld (setFld (setFld md 240 16 (fld x 24 8)) 256 3 (fld x 21 3)) 259 1 0
  let b := keepField 0 320 12 (keepField 1 368 16 (keepField 2 304 1 a))
  keepField 3 41 1 (keepField 4 44 1 (keepField 5 384 64 b))

/-- The capture record of R491 from byte 16 on. -/
def captureBody (md x : Nat) (f : List Byte) : List Byte :=
  leBytes 16 (fld md 64 96 * 2 ^ 32 + fld md 305 14 * 2 ^ 18 + fld md 332 4 * 2 ^ 14 + fld md 32 8 * 2 ^ 6) ++ f.take (fld x 40 16)

/-- A released packet as step 9 takes it. -/
def itemOf (k : Packet) (md : Nat) : TmItem := ⟨k.pid, md, k.prv, noFcs k.frame, k.orig, none⟩

/-- An item enters step 9. -/
def State.enterTm (s : State) (it : TmItem) : State := { s with tm := { s.tm with items := s.tm.items ++ [it] } }

/-- A mirror copy (R491). -/
def mirrorCopy (s : State) (k : Packet) : State :=
  let x := s.session k.md
  if bit x 63 then s.offer (fld x 32 6) 3 (captureBody k.md x (noFcs k.frame))
  else (s.holdMore k.pid 1).enterTm (itemOf k (mirrorMd k.md x))

/-- The packet of a DONE entry without DROP is released. -/
def releasePacket (s : State) (p : Nat) (e : REntry) (k : Packet) (fault : TimeFault) : State :=
  let a := (s.bump Objs.reorder_released p).postcard e.postcard k.md 0 e.thread e.status
  let b := if bit k.md 42 then puntCopy a k fault else a
  let c := b.enterTm (itemOf k k.md)
  if bit k.md 43 then mirrorCopy c k else c

/-- The packet of a DONE entry with DROP is discarded. -/
def discardPacket (s : State) (p : Nat) (e : REntry) (k : Packet) : State :=
  ((s.bump Objs.prog_drop p).postcard e.postcard k.md 1 e.thread e.status).holdDrop k.pid

/-- REORDER_RELEASE: the head entry of a pipe, when it is DONE. -/
def reorderRelease (s : State) (p : Nat) (ecc : Ecc) (fault : TimeFault) : State :=
  match s.ring p with
  | [] => s
  | e :: rest =>
    match e.done with
    | none => s
    | some k =>
      let t := s.setRing p rest
      if ecc = .uncorrectable then discardPacket (t.raise 77 p) p e k
      else if e.drop then discardPacket t p e k
      else releasePacket t p e k fault

/-- The meaning of REORDER_RELEASE. -/
def execReorderRelease (pipe : Fin 4) (ecc : Ecc) (fault : TimeFault) (s : State) : Out :=
  .next (reorderRelease s pipe.val ecc fault)

end Sys2Proof.Machine
end

