-- ==== Sys2Proof/Machine/Sdo.lean ====
section
/-! DEFINITION. The SDO server on the Eft's CAN FD port (R470 to R473). PRESUMED (CiA 301): the bits of the command specifiers. -/

namespace Sys2Proof.Machine

/-- COB-ID of requests (R471). -/
def State.sdoRx (s : State) : Nat := 0x600 + s.nodeId

/-- COB-ID of responses. -/
def State.sdoTx (s : State) : Nat := 0x580 + s.nodeId

/-- A response of 8 bytes. -/
def sdoSend (cmd : Nat) (rest : List Byte) (s : State) : State := s.put (.can s.sdoTx (padTo 0 8 (BitVec.ofNat 8 cmd :: rest)))

/-- Index and subindex in a frame. -/
def muxBytes (idx sub : Nat) : List Byte := leBytes 2 idx ++ [BitVec.ofNat 8 sub]

/-- Index of a frame. -/
def muxIdx (d : List Byte) : Nat := leNat (slice d 1 2)

/-- Subindex of a frame. -/
def muxSub (d : List Byte) : Nat := (d.getD 3 0).toNat

/-- No transfer runs. -/
def sdoIdle (s : State) : State := { s with dict := { s.dict with sdo := none } }

/-- A transfer runs, and its gap starts. -/
def sdoGoing (x : SdoXfer) (s : State) : State := { s with dict := { s.dict with sdo := some { x with lastF := s.eftNs } } }

/-- An abort, which ends the transfer. -/
def sdoAbort (idx sub code : Nat) (s : State) : State :=
  sdoSend 0x80 (muxBytes idx sub ++ leBytes 4 code) ((sdoIdle s).bump Objs.sdo_aborts)

/-- R472; `long` says that a value was too long. -/
def abortCode (code : Nat) (long : Bool) : Nat :=
  match code with
  | 1 => 0x06020000
  | 2 => 0x06090011
  | 3 => 0x06010002
  | 4 => 0x06010001
  | 5 => 0x06070010
  | 6 => 0x06090030
  | 7 => 0x08000022
  | 8 => 0x08000020
  | 9 => 0x08000021
  | _ => if long then 0x06070012 else 0x06070013

/-- The bytes of an object's type. -/
def sizeAt (idx sub : Nat) : Nat := ((objAt idx sub).map (fun o => o.ty.size)).getD 0

/-- A download is executed as one write (R473). `done` is the command specifier of the response. -/
def sdoWrite (idx sub : Nat) (v : List Byte) (done : Nat) (mux : List Byte) (s : State) : State :=
  match runItem .can ⟨2, sub, idx, v⟩ (sdoIdle s) with
  | (some r, t) => if r.code = 0 then sdoSend done mux t else sdoAbort idx sub (abortCode r.code (decide (sizeAt idx sub < v.length))) t
  | (none, t) => t

/-- Initiate download: expedited, or the start of a segmented one of up to 256 bytes. -/
def sdoDownload (d : List Byte) (s : State) : State :=
  let cmd := (d.getD 0 0).toNat
  let idx := muxIdx d
  let sub := muxSub d
  if bit cmd 1 then
    let n := if bit cmd 0 then 4 - fld cmd 2 2 else min 4 (sizeAt idx sub)
    sdoWrite idx sub (slice d 4 n) 0x60 (muxBytes idx sub) s
  else if bit cmd 0 ∧ 256 < leNat (slice d 4 4) then sdoAbort idx sub 0x06070012 s
  else if s.pathEnable .can = 0 then sdoAbort idx sub 0x08000021 s
  else sdoSend 0x60 (muxBytes idx sub) (sdoGoing ⟨false, idx, sub, false, [], 0⟩ s)

/-- Initiate upload: the value is read at once, and sent expedited or in segments. -/
def sdoUpload (d : List Byte) (s : State) : State :=
  let idx := muxIdx d
  let sub := muxSub d
  match runItem .can ⟨1, sub, idx, []⟩ (sdoIdle s) with
  | (none, t) => t
  | (some r, t) =>
    if r.code ≠ 0 then sdoAbort idx sub (abortCode r.code false) t
    else if r.value.length ≤ 4 then sdoSend (0x43 + 4 * (4 - r.value.length)) (muxBytes idx sub ++ r.value) t
    else sdoSend 0x41 (muxBytes idx sub ++ leBytes 4 r.value.length) (sdoGoing ⟨true, idx, sub, false, r.value, 0⟩ t)

/-- A segment of a download. -/
def downloadSegment (d : List Byte) (x : SdoXfer) (s : State) : State :=
  let cmd := (d.getD 0 0).toNat
  let v := x.data ++ slice d 1 (7 - fld cmd 1 3)
  let ack := 0x20 + 16 * fld cmd 4 1
  if bit cmd 4 ≠ x.toggle then sdoAbort x.idx x.sub 0x05040000 s
  else if 256 < v.length then sdoAbort x.idx x.sub 0x06070012 s
  else if bit cmd 0 then sdoWrite x.idx x.sub v ack [] s
  else sdoSend ack [] (sdoGoing { x with data := v, toggle := !x.toggle } s)

/-- A segment of an upload. -/
def uploadSegment (d : List Byte) (x : SdoXfer) (s : State) : State :=
  let cmd := (d.getD 0 0).toNat
  let seg := x.data.take 7
  let last := decide (x.data.length ≤ 7)
  let answer := 16 * fld cmd 4 1 + 2 * (7 - seg.length) + b2n last
  if bit cmd 4 ≠ x.toggle then sdoAbort x.idx x.sub 0x05040000 s
  else if last then sdoSend answer seg (sdoIdle s)
  else sdoSend answer seg (sdoGoing { x with data := x.data.drop 7, toggle := !x.toggle } s)

/-- A request of the server. -/
def sdoServe (d : List Byte) (s : State) : State :=
  let unknown := sdoAbort (muxIdx d) (muxSub d) 0x05040001 s
  match fld (d.getD 0 0).toNat 5 3, s.dict.sdo with
  | 0, some x => if x.upload then unknown else downloadSegment d x s
  | 1, _ => sdoDownload d s
  | 2, _ => sdoUpload d s
  | 3, some x => if x.upload then uploadSegment d x s else unknown
  | 4, _ => sdoIdle s
  | _, _ => unknown

/-- SDO_REQUEST: a frame on the CAN port. -/
def sdoRequest (cobId : Nat) (fd : Bool) (d : List Byte) (s : State) : State :=
  if s.eft.phase = .off ∨ (cobId ≠ s.sdoRx ∧ cobId ≠ s.sdoTx) then s
  else if fd then s.bump Objs.can_drop
  else if cobId ≠ s.sdoRx then s
  else if d.length ≠ 8 then s.bump Objs.can_drop
  else if s.pathEnable .can = 0 then sdoAbort (muxIdx d) (muxSub d) 0x08000021 s
  else sdoServe d s

/-- The meaning of SDO_REQUEST. -/
def execSdoRequest (cobId : BitVec 11) (fd : Bool) (data : List Byte) (s : State) : Out := .next (sdoRequest cobId.toNat fd data s)

/-- SDO_SEGMENT_TIMEOUT (R473). -/
def sdoTimeout (s : State) : State :=
  match s.dict.sdo with
  | some x => if s.eftElapsed x.lastF (s.rd Objs.sdo_timeout * 1000000) then sdoAbort x.idx x.sub 0x05040000 s else s
  | none => s

/-- The meaning of SDO_SEGMENT_TIMEOUT. -/
def execSdoSegmentTimeout (s : State) : Out := .next (sdoTimeout s)

end Sys2Proof.Machine
end

