-- ==== Sys2Proof/Machine/Dispatch.lean ====
section
/-! DEFINITION. The dispatch of a command to its meaning: one arm for each constructor of Instr. -/

namespace Sys2Proof.Machine

def exec (i : Instr) (s : State) : Host.Outcome State Fault Refusal :=
  match i with
  | .frameReceive port frame rx => Sys2Proof.Machine.execFrameReceive port frame rx s
  | .parse pipe err => Sys2Proof.Machine.execParse pipe err s
  | .ruleRewriteDone slot copy => Sys2Proof.Machine.execRuleRewriteDone slot copy s
  | .patternScan engine err => Sys2Proof.Machine.execPatternScan engine err s
  | .patMemRewriteDone word copy => Sys2Proof.Machine.execPatMemRewriteDone word copy s
  | .patternResult engine => Sys2Proof.Machine.execPatternResult engine s
  | .joinRelease pipe => Sys2Proof.Machine.execJoinRelease pipe s
  | .spray pipe => Sys2Proof.Machine.execSpray pipe s
  | .sprayStallTimeout pipe => Sys2Proof.Machine.execSprayStallTimeout pipe s
  | .contextLoaded thread err => Sys2Proof.Machine.execContextLoaded thread err s
  | .seq thread err => Sys2Proof.Machine.execSeq thread err s
  | .disp thread err => Sys2Proof.Machine.execDisp thread err s
  | .halt thread err => Sys2Proof.Machine.execHalt thread err s
  | .trap thread err => Sys2Proof.Machine.execTrap thread err s
  | .nop thread x => Sys2Proof.Machine.execNop thread x s
  | .mov thread x => Sys2Proof.Machine.execMov thread x s
  | .add thread x => Sys2Proof.Machine.execAdd thread x s
  | .sub thread x => Sys2Proof.Machine.execSub thread x s
  | .and thread x => Sys2Proof.Machine.execAnd thread x s
  | .or thread x => Sys2Proof.Machine.execOr thread x s
  | .xor thread x => Sys2Proof.Machine.execXor thread x s
  | .andn thread x => Sys2Proof.Machine.execAndn thread x s
  | .shl thread x => Sys2Proof.Machine.execShl thread x s
  | .shr thread x => Sys2Proof.Machine.execShr thread x s
  | .sar thread x => Sys2Proof.Machine.execSar thread x s
  | .ext thread x => Sys2Proof.Machine.execExt thread x s
  | .ins thread x => Sys2Proof.Machine.execIns thread x s
  | .min thread x => Sys2Proof.Machine.execMin thread x s
  | .max thread x => Sys2Proof.Machine.execMax thread x s
  | .sdiff thread x => Sys2Proof.Machine.execSdiff thread x s
  | .cmp thread x => Sys2Proof.Machine.execCmp thread x s
  | .tstb thread x => Sys2Proof.Machine.execTstb thread x s
  | .absd thread x => Sys2Proof.Machine.execAbsd thread x s
  | .popc thread x => Sys2Proof.Machine.execPopc thread x s
  | .ffs thread x => Sys2Proof.Machine.execFfs thread x s
  | .bswap thread x => Sys2Proof.Machine.execBswap thread x s
  | .movz thread x => Sys2Proof.Machine.execMovz thread x s
  | .movnz thread x => Sys2Proof.Machine.execMovnz thread x s
  | .lds thread x => Sys2Proof.Machine.execLds thread x s
  | .sts thread x => Sys2Proof.Machine.execSts thread x s
  | .ldh thread x => Sys2Proof.Machine.execLdh thread x s
  | .hash thread x => Sys2Proof.Machine.execHash thread x s
  | .lkmac thread x => Sys2Proof.Machine.execLkmac thread x s
  | .lknat thread x => Sys2Proof.Machine.execLknat thread x s
  | .lklpm4 thread x => Sys2Proof.Machine.execLklpm4 thread x s
  | .lklpm6 thread x => Sys2Proof.Machine.execLklpm6 thread x s
  | .lkmcg thread x => Sys2Proof.Machine.execLkmcg thread x s
  | .lkmbr thread x => Sys2Proof.Machine.execLkmbr thread x s
  | .learn thread x => Sys2Proof.Machine.execLearn thread x s
  | .lbind thread x => Sys2Proof.Machine.execLbind thread x s
  | .lrd thread x => Sys2Proof.Machine.execLrd thread x s
  | .lset thread x => Sys2Proof.Machine.execLset thread x s
  | .ladd thread x => Sys2Proof.Machine.execLadd thread x s
  | .lmax thread x => Sys2Proof.Machine.execLmax thread x s
  | .lmin thread x => Sys2Proof.Machine.execLmin thread x s
  | .lor thread x => Sys2Proof.Machine.execLor thread x s
  | .lseq thread x => Sys2Proof.Machine.execLseq thread x s
  | .ldup thread x => Sys2Proof.Machine.execLdup thread x s
  | .ltok thread x => Sys2Proof.Machine.execLtok thread x s
  | .lins thread x => Sys2Proof.Machine.execLins thread x s
  | .ldel thread x => Sys2Proof.Machine.execLdel thread x s
  | .labort thread x => Sys2Proof.Machine.execLabort thread x s
  | .hset thread x => Sys2Proof.Machine.execHset thread x s
  | .setdest thread x => Sys2Proof.Machine.execSetdest thread x s
  | .setq thread x => Sys2Proof.Machine.execSetq thread x s
  | .flags thread x => Sys2Proof.Machine.execFlags thread x s
  | .setedit thread x => Sys2Proof.Machine.execSetedit thread x s
  | .setlaunch thread x => Sys2Proof.Machine.execSetlaunch thread x s
  | .reason thread x => Sys2Proof.Machine.execReason thread x s
  | .colour thread x => Sys2Proof.Machine.execColour thread x s
  | .postcard thread x => Sys2Proof.Machine.execPostcard thread x s
  | .progdata thread x => Sys2Proof.Machine.execProgdata thread x s
  | .operationResult thread place word pos fsu => Sys2Proof.Machine.execOperationResult thread place word pos fsu s
  | .leapCommit thread err => Sys2Proof.Machine.execLeapCommit thread err s
  | .leapStatusDelivered thread => Sys2Proof.Machine.execLeapStatusDelivered thread s
  | .leapWaitLimit thread => Sys2Proof.Machine.execLeapWaitLimit thread s
  | .lockWaitTimeout thread => Sys2Proof.Machine.execLockWaitTimeout thread s
  | .reorderRelease pipe ecc fault => Sys2Proof.Machine.execReorderRelease pipe ecc fault s
  | .reorderTimeout pipe => Sys2Proof.Machine.execReorderTimeout pipe s
  | .tmAdmit overload ecc => Sys2Proof.Machine.execTmAdmit overload ecc s
  | .spillRefill voq => Sys2Proof.Machine.execSpillRefill voq s
  | .spillFetchReturn voq mismatch => Sys2Proof.Machine.execSpillFetchReturn voq mismatch s
  | .inputSlot station ecc => Sys2Proof.Machine.execInputSlot station ecc s
  | .cellAtMiddle middle ecc word => Sys2Proof.Machine.execCellAtMiddle middle ecc word s
  | .middleSlot middle ecc parity => Sys2Proof.Machine.execMiddleSlot middle ecc parity s
  | .cellAtOutput station ecc => Sys2Proof.Machine.execCellAtOutput station ecc s
  | .fabReorderTimeout grp inGrp kind => Sys2Proof.Machine.execFabReorderTimeout grp inGrp kind s
  | .egressAdmit grp port desc word edit => Sys2Proof.Machine.execEgressAdmit grp port desc word edit s
  | .frameStart port preemptable ofs ecc => Sys2Proof.Machine.execFrameStart port preemptable ofs ecc s
  | .launchDue port ofs => Sys2Proof.Machine.execLaunchDue port ofs s
  | .portModeWrite c port v => Sys2Proof.Machine.execPortModeWrite c port v s
  | .adminUpWrite c port v => Sys2Proof.Machine.execAdminUpWrite c port v s
  | .linkFilterWrite c port up v => Sys2Proof.Machine.execLinkFilterWrite c port up v s
  | .signalDetectChange lane on => Sys2Proof.Machine.execSignalDetectChange lane on s
  | .pcsLockChange port lock speed => Sys2Proof.Machine.execPcsLockChange port lock speed s
  | .linkFaultReceive port kind => Sys2Proof.Machine.execLinkFaultReceive port kind s
  | .linkDownFilterExpiry port => Sys2Proof.Machine.execLinkDownFilterExpiry port s
  | .linkUpFilterExpiry port => Sys2Proof.Machine.execLinkUpFilterExpiry port s
  | .downHoldExpiry port => Sys2Proof.Machine.execDownHoldExpiry port s
  | .trainingTimeout lane => Sys2Proof.Machine.execTrainingTimeout lane s
  | .mmVerifyDone port ok => Sys2Proof.Machine.execMmVerifyDone port ok s
  | .lanePllUnlock lane => Sys2Proof.Machine.execLanePllUnlock lane s
  | .portCountersClear c port v => Sys2Proof.Machine.execPortCountersClear c port v s
  | .hueCommit c v => Sys2Proof.Machine.execHueCommit c v s
  | .commitPoint => Sys2Proof.Machine.execCommitPoint s
  | .hueAbort c v => Sys2Proof.Machine.execHueAbort c v s
  | .ruleHeaderWrite c v => Sys2Proof.Machine.execRuleHeaderWrite c v s
  | .ruleContentWrite c part v => Sys2Proof.Machine.execRuleContentWrite c part v s
  | .rwhValueWrite c obj v => Sys2Proof.Machine.execRwhValueWrite c obj v s
  | .hueDrainLimit hue => Sys2Proof.Machine.execHueDrainLimit hue s
  | .hueScrubVisit => Sys2Proof.Machine.execHueScrubVisit s
  | .patSetHeaderWrite c v => Sys2Proof.Machine.execPatSetHeaderWrite c v s
  | .patWordWrite c v => Sys2Proof.Machine.execPatWordWrite c v s
  | .patEngineIsolate c v => Sys2Proof.Machine.execPatEngineIsolate c v s
  | .patEngineRegrow c v => Sys2Proof.Machine.execPatEngineRegrow c v s
  | .clutchDrain c v => Sys2Proof.Machine.execClutchDrain c v s
  | .clutchReturn c v => Sys2Proof.Machine.execClutchReturn c v s
  | .skinkIsolate c v => Sys2Proof.Machine.execSkinkIsolate c v s
  | .skinkRegrow c v => Sys2Proof.Machine.execSkinkRegrow c v s
  | .sfEntryWrite c v => Sys2Proof.Machine.execSfEntryWrite c v s
  | .sfIdleExpiry entry => Sys2Proof.Machine.execSfIdleExpiry entry s
  | .reorderTimeoutWrite c v => Sys2Proof.Machine.execReorderTimeoutWrite c v s
  | .reorderHighWaterRead c pipe => Sys2Proof.Machine.execReorderHighWaterRead c pipe s
  | .csBufData c v => Sys2Proof.Machine.execCsBufData c v s
  | .imageBufferClaimExpiry => Sys2Proof.Machine.execImageBufferClaimExpiry s
  | .csLoad source => Sys2Proof.Machine.execCsLoad source s
  | .csLoadDone clutch mismatches second => Sys2Proof.Machine.execCsLoadDone clutch mismatches second s
  | .hueImageLoad c v => Sys2Proof.Machine.execHueImageLoad c v s
  | .disp0Stage c v => Sys2Proof.Machine.execDisp0Stage c v s
  | .csRepairDone clutch copy mismatches => Sys2Proof.Machine.execCsRepairDone clutch copy mismatches s
  | .tblDmaRead ring entry buf words dma => Sys2Proof.Machine.execTblDmaRead ring entry buf words dma s
  | .tblDmaWrite ring entry buf dma => Sys2Proof.Machine.execTblDmaWrite ring entry buf dma s
  | .tblDmaInsert ring entry buf dma => Sys2Proof.Machine.execTblDmaInsert ring entry buf dma s
  | .tblDmaDelete ring entry buf dma => Sys2Proof.Machine.execTblDmaDelete ring entry buf dma s
  | .tblLock ring entry buf dma => Sys2Proof.Machine.execTblLock ring entry buf dma s
  | .tblLockGrant lock => Sys2Proof.Machine.execTblLockGrant lock s
  | .tblUnlock ring entry buf dma => Sys2Proof.Machine.execTblUnlock ring entry buf dma s
  | .tblSearch ring entry buf dma => Sys2Proof.Machine.execTblSearch ring entry buf dma s
  | .tblNext ring entry dma => Sys2Proof.Machine.execTblNext ring entry dma s
  | .tblFlushPort ring entry => Sys2Proof.Machine.execTblFlushPort ring entry s
  | .tblFlushTemplate ring entry => Sys2Proof.Machine.execTblFlushTemplate ring entry s
  | .flowFlushDone dma => Sys2Proof.Machine.execFlowFlushDone dma s
  | .flowCacheFlush c v => Sys2Proof.Machine.execFlowCacheFlush c v s
  | .bucketReadReturn tag ecc => Sys2Proof.Machine.execBucketReadReturn tag ecc s
  | .relocWalk place => Sys2Proof.Machine.execRelocWalk place s
  | .relocMoveDone path => Sys2Proof.Machine.execRelocMoveDone path s
  | .sweeperVisit ecc => Sys2Proof.Machine.execSweeperVisit ecc s
  | .keyTmplWrite c v => Sys2Proof.Machine.execKeyTmplWrite c v s
  | .hashSaltWrite c v => Sys2Proof.Machine.execHashSaltWrite c v s
  | .tmplHeaderWrite c v => Sys2Proof.Machine.execTmplHeaderWrite c v s
  | .learnApply ecc pos => Sys2Proof.Machine.execLearnApply ecc pos s
  | .macSweepVisit ecc => Sys2Proof.Machine.execMacSweepVisit ecc s
  | .macFlushPort c v => Sys2Proof.Machine.execMacFlushPort c v s
  | .macFlushDone words dma => Sys2Proof.Machine.execMacFlushDone words dma s
  | .middleIsolate c v => Sys2Proof.Machine.execMiddleIsolate c v s
  | .middleRegrow c v => Sys2Proof.Machine.execMiddleRegrow c v s
  | .polConfigWrite c v => Sys2Proof.Machine.execPolConfigWrite c v s
  | .shaperWrite c port queue v => Sys2Proof.Machine.execShaperWrite c port queue v s
  | .redProfileWrite c v => Sys2Proof.Machine.execRedProfileWrite c v s
  | .queueWeightWrite c port queue v => Sys2Proof.Machine.execQueueWeightWrite c port queue v s
  | .strictCountWrite c port v => Sys2Proof.Machine.execStrictCountWrite c port v s
  | .epochBoundary fault => Sys2Proof.Machine.execEpochBoundary fault s
  | .wUpdate => Sys2Proof.Machine.execWUpdate s
  | .domLossTimeout d => Sys2Proof.Machine.execDomLossTimeout d s
  | .domEnableWrite c d v => Sys2Proof.Machine.execDomEnableWrite c d v s
  | .wSelectWrite c v => Sys2Proof.Machine.execWSelectWrite c v s
  | .wSet c v => Sys2Proof.Machine.execWSet c v s
  | .domStep c d v => Sys2Proof.Machine.execDomStep c d v s
  | .domIncWrite c d v => Sys2Proof.Machine.execDomIncWrite c d v s
  | .timeSnapshot c v => Sys2Proof.Machine.execTimeSnapshot c v s
  | .evtInEdge k falling samples => Sys2Proof.Machine.execEvtInEdge k falling samples s
  | .evtFifoRead c k => Sys2Proof.Machine.execEvtFifoRead c k s
  | .ppsEdge k rise => Sys2Proof.Machine.execPpsEdge k rise s
  | .phaseInterval port move => Sys2Proof.Machine.execPhaseInterval port move s
  | .hbmTrainingDone pc pass spares bad => Sys2Proof.Machine.execHbmTrainingDone pc pass spares bad s
  | .hbmRetrain pc pass spare => Sys2Proof.Machine.execHbmRetrain pc pass spare s
  | .hbmRefresh pc => Sys2Proof.Machine.execHbmRefresh pc s
  | .hbmTempSample stack temp => Sys2Proof.Machine.execHbmTempSample stack temp s
  | .hbmReadComplete pc ecc => Sys2Proof.Machine.execHbmReadComplete pc ecc s
  | .hbmCaParity pc offset write client => Sys2Proof.Machine.execHbmCaParity pc offset write client s
  | .rowHoldExpiry pc bank => Sys2Proof.Machine.execRowHoldExpiry pc bank s
  | .hbmPatrolScrub pc => Sys2Proof.Machine.execHbmPatrolScrub pc s
  | .hbmThaw c v => Sys2Proof.Machine.execHbmThaw c v s
  | .hbmThawDone pc res spare bad => Sys2Proof.Machine.execHbmThawDone pc res spare bad s
  | .hbmRetire c v => Sys2Proof.Machine.execHbmRetire c v s
  | .hbmRegrow c v => Sys2Proof.Machine.execHbmRegrow c v s
  | .hbmPprSoft c => Sys2Proof.Machine.execHbmPprSoft c s
  | .hbmPprHard c => Sys2Proof.Machine.execHbmPprHard c s
  | .hbmPprDone pc pass bad => Sys2Proof.Machine.execHbmPprDone pc pass bad s
  | .crDoorbell ring value => Sys2Proof.Machine.execCrDoorbell ring value s
  | .drDoorbell ring value => Sys2Proof.Machine.execDrDoorbell ring value s
  | .brDoorbell ring value => Sys2Proof.Machine.execBrDoorbell ring value s
  | .crCtrlWrite ring base wb ctrl posted regs => Sys2Proof.Machine.execCrCtrlWrite ring base wb ctrl posted regs s
  | .crStop ring posted => Sys2Proof.Machine.execCrStop ring posted s
  | .drCtrlWrite ring regs ctrl => Sys2Proof.Machine.execDrCtrlWrite ring regs ctrl s
  | .cmdNop ring entry => Sys2Proof.Machine.execCmdNop ring entry s
  | .pktInject ring entry buf dma => Sys2Proof.Machine.execPktInject ring entry buf dma s
  | .hueStage ring entry buf dma => Sys2Proof.Machine.execHueStage ring entry buf dma s
  | .deliverItem ring entry bad => Sys2Proof.Machine.execDeliverItem ring entry bad s
  | .deliveryHoldExpiry ring => Sys2Proof.Machine.execDeliveryHoldExpiry ring s
  | .deliveryCoalTimer ring => Sys2Proof.Machine.execDeliveryCoalTimer ring s
  | .functionLevelReset => Sys2Proof.Machine.execFunctionLevelReset s
  | .pcieLinkDown => Sys2Proof.Machine.execPcieLinkDown s
  | .bar2Read offset len => Sys2Proof.Machine.execBar2Read offset len s
  | .bar2Write offset data => Sys2Proof.Machine.execBar2Write offset data s
  | .mbDoorbell request ctrl => Sys2Proof.Machine.execMbDoorbell request ctrl s
  | .dictWrite c idx sub v => Sys2Proof.Machine.execDictWrite c idx sub v s
  | .pathEnableWrite c path v => Sys2Proof.Machine.execPathEnableWrite c path v s
  | .oapRequest mgmtPort frame => Sys2Proof.Machine.execOapRequest mgmtPort frame s
  | .oapArpRequest mgmtPort frame => Sys2Proof.Machine.execOapArpRequest mgmtPort frame s
  | .oapSessionExpiry inband session => Sys2Proof.Machine.execOapSessionExpiry inband session s
  | .sdoRequest cobId fd data => Sys2Proof.Machine.execSdoRequest cobId fd data s
  | .sdoSegmentTimeout => Sys2Proof.Machine.execSdoSegmentTimeout s
  | .save c => Sys2Proof.Machine.execSave c s
  | .erase c => Sys2Proof.Machine.execErase c s
  | .saveDone ok => Sys2Proof.Machine.execSaveDone ok s
  | .strEnableWrite c v => Sys2Proof.Machine.execStrEnableWrite c v s
  | .strLaneLockChange lock deskewed => Sys2Proof.Machine.execStrLaneLockChange lock deskewed s
  | .fcControlWord crcOk reset status => Sys2Proof.Machine.execFcControlWord crcOk reset status s
  | .fcTimeout => Sys2Proof.Machine.execFcTimeout s
  | .strBurstSend staged => Sys2Proof.Machine.execStrBurstSend staged s
  | .eventOccurrence found => Sys2Proof.Machine.execEventOccurrence found s
  | .firstFaultWritten ok => Sys2Proof.Machine.execFirstFaultWritten ok s
  | .recordOpenLimit seq => Sys2Proof.Machine.execRecordOpenLimit seq s
  | .croakTimerExpiry => Sys2Proof.Machine.execCroakTimerExpiry s
  | .croakLevelWrite c v => Sys2Proof.Machine.execCroakLevelWrite c v s
  | .evClear c src v => Sys2Proof.Machine.execEvClear c src v s
  | .evConfigWrite c src obj v => Sys2Proof.Machine.execEvConfigWrite c src obj v s
  | .fmLogAck c v => Sys2Proof.Machine.execFmLogAck c v s
  | .fmSummaryClear c v => Sys2Proof.Machine.execFmSummaryClear c v s
  | .fmFirstClear c v => Sys2Proof.Machine.execFmFirstClear c v s
  | .fmIsolate c v => Sys2Proof.Machine.execFmIsolate c v s
  | .fmRegrow c v => Sys2Proof.Machine.execFmRegrow c v s
  | .unitRegrowthDone utype unit pass spares => Sys2Proof.Machine.execUnitRegrowthDone utype unit pass spares s
  | .powerOnReset device straps slot0 slot1 => Sys2Proof.Machine.execPowerOnReset device straps slot0 slot1 s
  | .pwrgoodFall => Sys2Proof.Machine.execPwrgoodFall s
  | .resetN straps => Sys2Proof.Machine.execResetN straps s
  | .warmN => Sys2Proof.Machine.execWarmN s
  | .resetCmdWarm c => Sys2Proof.Machine.execResetCmdWarm c s
  | .resetCmdCold c straps => Sys2Proof.Machine.execResetCmdCold c straps s
  | .warmDrainDone => Sys2Proof.Machine.execWarmDrainDone s
  | .restartSequence reloads => Sys2Proof.Machine.execRestartSequence reloads s
  | .brumate c v => Sys2Proof.Machine.execBrumate c v s
  | .brumationReached => Sys2Proof.Machine.execBrumationReached s
  | .wake c v => Sys2Proof.Machine.execWake c v s
  | .coarseTimeLoad => Sys2Proof.Machine.execCoarseTimeLoad s
  | .passFrame fromB frame lost => Sys2Proof.Machine.execPassFrame fromB frame lost s
  | .samplerSample chan x => Sys2Proof.Machine.execSamplerSample chan x s
  | .samplerTimeout chan held => Sys2Proof.Machine.execSamplerTimeout chan held s
  | .samplerCfgWrite c chan v => Sys2Proof.Machine.execSamplerCfgWrite c chan v s
  | .eftRuleEval memory => Sys2Proof.Machine.execEftRuleEval memory s
  | .wdogTimeout last straps => Sys2Proof.Machine.execWdogTimeout last straps s
  | .refclkWindowCheck => Sys2Proof.Machine.execRefclkWindowCheck s
  | .aonclkFault => Sys2Proof.Machine.execAonclkFault s
  | .railEnableStep held => Sys2Proof.Machine.execRailEnableStep held s
  | .railTimeout => Sys2Proof.Machine.execRailTimeout s
  | .coreRailFault rail => Sys2Proof.Machine.execCoreRailFault rail s
  | .tjSample sensor mc => Sys2Proof.Machine.execTjSample sensor mc s
  | .thermalTrip => Sys2Proof.Machine.execThermalTrip s
  | .rpllUnlock => Sys2Proof.Machine.execRpllUnlock s
  | .dbgHalt c v => Sys2Proof.Machine.execDbgHalt c v s
  | .dbgStep c v => Sys2Proof.Machine.execDbgStep c v s
  | .dbgResume c v => Sys2Proof.Machine.execDbgResume c v s
  | .haltLeapTimeout thread => Sys2Proof.Machine.execHaltLeapTimeout thread s
  | .breakpointWrite c clutch b v => Sys2Proof.Machine.execBreakpointWrite c clutch b v s
  | .traceCtrlWrite c clutch v => Sys2Proof.Machine.execTraceCtrlWrite c clutch v s
  | .traceExport clutch => Sys2Proof.Machine.execTraceExport clutch s
  | .dbgMemRead c parity => Sys2Proof.Machine.execDbgMemRead c parity s
  | .dbgMemWrite c => Sys2Proof.Machine.execDbgMemWrite c s
  | .lanePrbsWrite c lane v pattern => Sys2Proof.Machine.execLanePrbsWrite c lane v pattern s
  | .bootLoadFull c => Sys2Proof.Machine.execBootLoadFull c s
  | .bootLoadHue c => Sys2Proof.Machine.execBootLoadHue c s
  | .bootGo c bad => Sys2Proof.Machine.execBootGo c bad s
  | .tapReset => Sys2Proof.Machine.execTapReset s
  | .extest bits => Sys2Proof.Machine.execExtest bits s
  | .samplePreload bits => Sys2Proof.Machine.execSamplePreload bits s
  | .idcode => Sys2Proof.Machine.execIdcode s
  | .bypass code bits => Sys2Proof.Machine.execBypass code bits s
  | .dictStatus => Sys2Proof.Machine.execDictStatus s
  | .dictPut byte => Sys2Proof.Machine.execDictPut byte s
  | .dictGo => Sys2Proof.Machine.execDictGo s
  | .dictGet => Sys2Proof.Machine.execDictGet s
  | .tableRewriteDone target item readable => Sys2Proof.Machine.execTableRewriteDone target item readable s
  | .hbmQueueParity pc client => Sys2Proof.Machine.execHbmQueueParity pc client s
  | .pcieCompletionTimeout ring delivery fault => Sys2Proof.Machine.execPcieCompletionTimeout ring delivery fault s
  | .resetNRelease => Sys2Proof.Machine.execResetNRelease s
  | .railReleaseStep => Sys2Proof.Machine.execRailReleaseStep s
  | .linkTrainingDone lane => Sys2Proof.Machine.execLinkTrainingDone lane s
  | .strRxPacket => Sys2Proof.Machine.execStrRxPacket s

end Sys2Proof.Machine
end

