-- ==== Sys2Proof/Machine/Tick.lean ====
section
/-! DEFINITION. What time alone does: one TCLK tick of the clocks, and what the units do by themselves. -/

namespace Sys2Proof.Machine

/-- One tick: the clocks advance (R353, R541), each HBM controller accepts and issues requests (R396, R399), a transmission that has
ended leaves its MAC (R343), lookups that wait for a line of the flow cache try again (R222), the runs of HUE_STAGE and
hue_image_load end (R161), the response of a BUSY mailbox or DICT register is complete (R469, R564),
the records whose handling has ended close (R507), and the Eft's FIFOs send (R543). -/
def State.advance (s : State) : State :=
  let t := s.tick
  let u := if t.eft.clocks then t.hbmTick else t
  (u.txTick.fsuTick.stageTick.mbTick.sdpTick.closeRecs).passOut false

end Sys2Proof.Machine
end

