-- ==== Sys2Proof/Safety.lean ====
section
/-! DEFINITION. The terms in which claims are stated: the invariant of a safe run, and what an accepted dictionary write and
its answer are. -/

namespace Sys2Proof.Machine

/-- The key of device_id, from which some defaults derive (R477). -/
def idKey : Nat := 1048583

/-- The keys of the objects that any accepted write may change beside its own. -/
abbrev writeSide (k : Nat) : Prop :=
  k = Objs.journal_next_seq.key 0 ∨ k = Objs.journal_lost.key 0 ∨ k = Objs.n_dirty.key 0 ∨ ∃ c, k = Objs.str_chan_seq.key c

/-- A dictionary write that its path serves and R451 accepts; `check` gives the refusals of the object's chapter. -/
abbrev Accepted (c : Ctx) (o : Obj) (i : Nat) (v : List Byte) (check : Nat → State → Code) (s : State) : Prop :=
  s.pathServed c = true ∧ judgeWrite c o i v check s = .ok

/-- The last output of `t` is the answer of an item with the code `k`. -/
abbrev Answered (c : Ctx) (o : Obj) (i : Nat) (k : Code) (t : State) : Prop :=
  t.outbox.getLast? = some (.answer c (o.key i / 256) (o.key i % 256) k.num [])

/-- A read item that names an instance of `o` and that R451 executes in `s`. -/
abbrev ReadsAt (c : Ctx) (o : Obj) (idx sub : Nat) (s : State) : Prop :=
  objAt idx sub = some o ∧ s.pathServed c = true ∧ judgeRead c o (fun s => s.readRefused c o (instOf o (idx * 256 + sub))) s = .ok

/-- The value that such a read returns (R452). -/
abbrev readBytes (c : Ctx) (o : Obj) (idx sub : Nat) (s : State) : List Byte :=
  leBytes o.ty.size (s.readValue c o (instOf o (idx * 256 + sub)))

/-- What a journal entry says, beside the marks of its export (R459). -/
abbrev entryFields (e : JEntry) : List Nat := [e.seq, e.time, e.idx, e.sub, e.path, e.session, e.len, e.crc, e.head]

/-- An accepted write of `v` to instance `i` of an object through a context has added its entry to the journal, which holds the newest
4,096 (R458, R459). -/
abbrev Journaled (c : Ctx) (o : Obj) (i : Nat) (v : List Byte) (s t : State) : Prop :=
  t.rd Objs.journal_next_seq = (s.rd Objs.journal_next_seq + 1) % 2 ^ 32 ∧
    t.dict.journal.map entryFields = (if s.dict.journal.length < 4096 then s.dict.journal else s.dict.journal.drop 1).map entryFields ++
      [[s.rd Objs.journal_next_seq, s.wStamp, o.key i / 256, o.key i % 256, ctxPath c, ctxSession c, v.length, crc32 v, leNat (v.take 20)]]

/-- A write item that R451 accepts in `s` and that names an instance of an RW object whose only effect is its value. -/
abbrev PlainWrite (c : Ctx) (o : Obj) (idx sub : Nat) (v : List Byte) (s : State) : Prop :=
  let i := instOf o (idx * 256 + sub)
  objAt idx sub = some o ∧ (writersOf o.idx).find? (fun p => p.1.idx == o.idx && p.1.sub == o.sub) = none ∧ Accepted c o i v noCheck s ∧
    o.acc = .rw ∧ banked (o.key i) = false ∧ pathLocal (o.key i) = false ∧ ¬ writeSide (o.key i) ∧ o.key i ≠ idKey ∧
    o.key i ≠ (ownEnable c).key 0

/-- The response to a request of one item, answered with OK (R464). -/
abbrev oneReply (s : State) (seq op idx sub : Nat) (v : List Byte) : List Byte := responsePdu s seq [⟨op, sub, idx, 0, v⟩]

/-- `t` has raised, after what `s` had raised, one occurrence of `src` for `unit` with nothing else after it. -/
def Raised (src unit : Nat) (s t : State) : Prop :=
  ∃ e : Occ, t.fm.raised = s.fm.raised ++ [e] ∧ e.src = src ∧ e.unit = unit

/-- Every bind of `key` that waits in `s` has its answer in `t`: `code` as its result, and its handle in the state `st` (R174). -/
abbrev BindsEnd (key code : Nat) (st : BindSt) (s t : State) : Prop :=
  ∀ (k i n : Nat) (h : Handle) (p : Pend), (s.th k).pend[i]? = some p → p.kind = .bind n → (s.th k).handle n = some h → h.key = key →
    h.st = .pending → (t.th k).pend[i]? = some { p with kind := .value [code] } ∧ ((t.th k).handle n).map (·.st) = some st

/-- A thread that waits for no lock and is ready for a word `w` that is no reserved encoding (R114, R116, R162). -/
abbrev ReadyFor (s : State) (k w : Nat) : Prop :=
  (s.th k).lockWait = none ∧ (s.th k).ready w = true ∧ wordBad w = false

/-- Operand B of an ALU row: the selected operand, or IMM (R140). -/
def aluB (t : Thread) (x : AluArgs) : Nat := if x.bImm then x.imm.toNat else t.sel x.b

/-- An ALU row of code `op` writes `f A B IMM` to DST and leaves the flags `g A B value` where it sets them (R140, R141); the
rest of the state is as before. -/
def AluWrites (row : Fin 2048 → AluArgs → Instr) (op : Nat) (f : Nat → Nat → Nat → Nat)
    (g : Nat → Nat → Nat → Nat → Nat) : Prop :=
  ∀ (k : Fin 2048) (x : AluArgs) (s : State), ReadyFor s k (aluWord op x) →
    let a := (s.th k).sel x.a
    let b := aluB (s.th k) x
    let v := f a b x.imm.toNat
    exec (row k x) s = .next (s.setTh k { (s.th k).setSel x.dst v with flags := g a b v (s.th k).flags })

/-- A memory or leap row of code `op` takes a next state that `post` relates to the state before. -/
def MemRow (row : Fin 2048 → MemArgs → Instr) (op : Nat) (pre : Fin 2048 → MemArgs → State → Prop)
    (post : Fin 2048 → MemArgs → State → State → Prop) : Prop :=
  ∀ (k : Fin 2048) (x : MemArgs) (s : State), ReadyFor s k (memWord op x) → pre k x s → ∃ t, exec (row k x) s = .next t ∧ post k x s t

/-- An edit row of code `op` changes its thread by `f`, and nothing else. -/
def EditRow (row : Fin 2048 → EditArgs → Instr) (op : Nat) (f : EditArgs → Thread → Thread) : Prop :=
  ∀ (k : Fin 2048) (x : EditArgs) (s : State), ReadyFor s k (editWord op x) → exec (row k x) s = .next (s.setTh k (f x (s.th k)))

/-- A thread issues the word at its PC: RUNNING and chosen by its Skink, the word whole, its registers written, no breakpoint set in its
clutch, and the word limit not reached by it (R114 to R116, R162, R571). -/
abbrev Issues (s : State) (k nxt : Nat) : Prop :=
  let x := s.th k
  let w := tget 0 (s.cs (clutchOf k)).words x.pc
  ReadyFor s k w ∧ s.nextThread (skinkOf k) = some k ∧ parOk w = true ∧ mwNxt w = nxt ∧
    (∀ b < 4, bit (s.rd Objs.breakpoint (clutchOf k * 4 + b)) 63 = false) ∧
    (s.rd Objs.prog_word_limit = 0 ∨ x.words + 1 < s.rd Objs.prog_word_limit)

/-- What the fields of the word at the thread's PC do before its next-address field (R146): whether the run ends, and the
state. -/
def issued (s : State) (k : Nat) : Bool × State :=
  let x := s.th k
  runFields ((s.lastIssued k).setTh k { x with words := x.words + 1, bpSkip := false }) k (tget 0 (s.cs (clutchOf k)).words x.pc)

/-- The conditions of R369 under which an epoch boundary takes a domain into LOCKED, and under which into HOLDOVER. -/
abbrev LockDue (s : State) (d : Nat) : Prop :=
  s.rd Objs.dom_mode d = 0 ∧ s.rd Objs.dom_state d = 2 ∧ s.rd Objs.dom_lock_count d ≤ (s.trk d).lockRun

/-- As `LockDue`, for HOLDOVER after discarded samples. -/
abbrev PlausDue (s : State) (d : Nat) : Prop :=
  s.rd Objs.dom_mode d = 0 ∧ s.rd Objs.dom_state d = 3 ∧ s.rd Objs.dom_plaus_count d ≤ (s.trk d).rejectRun

/-- As `LockDue`, for HOLDOVER after the loss of samples. -/
abbrev LossDue (s : State) (d : Nat) : Prop :=
  s.rd Objs.dom_mode d = 0 ∧ (s.rd Objs.dom_state d = 2 ∨ s.rd Objs.dom_state d = 3) ∧
    s.elapsed (s.trk d).lastF (s.rd Objs.dom_loss_timeout d * 1000000) = true

/-- The entry `e` at the head of ring `r` starts: the ring can start it, it is of the opcode, and R427's checks pass. -/
abbrev Starts (s : State) (r e op : Nat) (buf : List Byte) (dma : Dma) : Prop :=
  canStart s r = true ∧ entOp e = op ∧ cmdCheck s e buf dma = none

/-- The entry in execution of ring `r`, as it stands in `s`, completes in `t` (R433): STATUS and RESULT are written to it, HEAD
goes on by one, and none is in execution. -/
abbrev Completes (r status result : Nat) (s t : State) : Prop :=
  statusWrite (s.cr r) status result ∈ t.outbox ∧ (t.cr r).h = ((s.cr r).h + 1) % 2 ^ 32 ∧ (t.cr r).busy = none

/-- The state in which an entry of ring `r` is carried out: the ring is the one served last (R429). -/
abbrev State.serving (s : State) (r : Nat) : State := { s with host := { s.host with lastRing := r } }

/-- The VOQ of an item that step 9 admits (R309). -/
abbrev State.itemVoq (s : State) (it : TmItem) : Nat :=
  voqId (bit it.md 259) (s.grpOfPort (fld it.md 32 8)) (if bit it.md 259 then 0 else s.grpOfPort (fld it.md 240 8))
    (if bit it.md 44 then 8 else fld it.md 256 3)

/-- The cells of an item that is admitted with its received colour and the given MARK (R304 to R307). -/
abbrev State.itemCells (s : State) (it : TmItem) (mark : Bool) : List Cell :=
  let mc := bit it.md 259
  let out := if mc then 0 else s.grpOfPort (fld it.md 240 8)
  makeCells s.tm.nextItem it.md it.body s.admitNow
    (cellHead it.md (if mc then (fld it.md 32 8 - 8 * s.grpOfPort (fld it.md 32 8)) % 8 else (fld it.md 240 8 - 8 * out) % 8) mark
      (fld it.md 46 2)) out

/-- The RED profile of a unicast item's queue, and its colour's minimum, maximum and max_p (R337, R338). -/
abbrev State.itemRed (s : State) (it : TmItem) : Nat := tget 0 s.tm.redProf (s.rd Objs.queue_red_profile (fld it.md 240 8 * 8 + fld it.md 256 3))

/-- The average of R338 after the update for an item that finds its VOQ as in `s`. -/
abbrev State.itemAvg (s : State) (it : TmItem) : Nat :=
  let k := fld (s.itemRed it) 120 4
  let n := min (s.voq (s.itemVoq it)).packets 65535
  let a := s.redAvg (s.itemVoq it)
  redStep (if n = 0 then redIdle k (min (s.spanNs a.empty / 1000) 64) a.avg else a.avg) n k

/-- The packet of an item is placed in spill under R310 and R312. -/
abbrev State.itemSpills (s : State) (it : TmItem) : Prop :=
  let kind := if bit it.md 44 then 8 else fld it.md 256 3
  (s.voq (s.itemVoq it)).spilling = true ∨ (kind < 8 ∧ bit (s.rd Objs.spill_classes) kind = true ∧
    (s.rd Objs.spill_threshold ≤ (s.voq (s.itemVoq it)).cells.length ∨
      s.rd Objs.pool_free (grpPipe (s.grpOfPort (fld it.md 32 8))) < s.rd Objs.spill_pool_reserve))

/-- An item is dropped in step 9, counted in `o` for `i` and reported by `src` for `unit`: no VOQ takes a cell of it. -/
abbrev ItemDropped (s : State) (rest : List TmItem) (o : Obj) (i src unit : Nat) (t : State) : Prop :=
  t.tm.items = rest ∧ t.tm.voqs = s.tm.voqs ∧ t.tm.nextItem = s.tm.nextItem ∧ t.rd o i = satAdd 64 (s.rd o i) 1 ∧
    ∃ e ∈ t.fm.raised, e.src = src ∧ e.unit = unit

/-- The entry of ring `r` waits for `w` in `t`. -/
abbrev WaitsFor (r e : Nat) (w : RingWait) (t : State) : Prop :=
  (t.cr r).busy = some ⟨w, entFlags e, entAddr e, entLen e⟩

/-- The invariant of a safe run: the four counters stay below their wrap (R353), the software region and the image buffer
keep the canonical form of a table, and every waiting command is one that a sender can form. -/
structure State.Inv (s : State) : Prop where
  f : s.time.f < ctrWrap
  a : s.time.a < ctrWrap
  b : s.time.b < ctrWrap
  w : s.time.w < ctrWrap
  sw : twf 0 s.hbm.sw = true
  buffer : twf 0 s.sk.buffer = true
  pending : ∀ i ∈ s.pending, i.wellFormed = true

/-- The commands after which F may start again: a power-on reset, the triggers of a cold reset, those that let a boot or a wake go on to the lock
of the RPLL, and those that carry a write of reset_cmd. -/
def restartsF (i : Instr) : Bool :=
  match i with
  | .powerOnReset .. | .resetN .. | .resetNRelease .. | .wdogTimeout .. | .railEnableStep .. | .resetCmdCold .. | .dictWrite .. | .mbDoorbell ..
  | .oapRequest .. | .oapArpRequest .. | .reorderRelease .. | .sdoRequest .. | .dictGo .. => true
  | _ => false

/-- The parts of a state beside the queue of waiting commands: the units, the outputs, and the counter of free values. -/
inductive Part where
  | dict
  | fm
  | time
  | str
  | host
  | hbm
  | ports
  | pat
  | hue
  | tm
  | eg
  | tbl
  | sk
  | cu
  | fsu
  | dbg
  | eft
  | outbox
  | free
deriving DecidableEq, Repr

/-- A part of `t` is as in `s`. -/
def Part.same (p : Part) (s t : State) : Prop :=
  match p with
  | .dict => t.dict = s.dict
  | .fm => t.fm = s.fm
  | .time => t.time = s.time
  | .str => t.str = s.str
  | .host => t.host = s.host
  | .hbm => t.hbm = s.hbm
  | .ports => t.ports = s.ports
  | .pat => t.pat = s.pat
  | .hue => t.hue = s.hue
  | .tm => t.tm = s.tm
  | .eg => t.eg = s.eg
  | .tbl => t.tbl = s.tbl
  | .sk => t.sk = s.sk
  | .cu => t.cu = s.cu
  | .fsu => t.fsu = s.fsu
  | .dbg => t.dbg = s.dbg
  | .eft => t.eft = s.eft
  | .outbox => t.outbox = s.outbox
  | .free => t.free = s.free

/-- The parts that a command may change; every other part is left as it is (the frame of the command). -/
def touches (i : Instr) : List Part :=
  match i with
  | .coarseTimeLoad .. | .strRxPacket .. => [.dict]
  | .ppsEdge .. => [.time]
  | .hbmRefresh .. | .rowHoldExpiry .. | .hbmPatrolScrub .. => [.hbm]
  | .linkTrainingDone .. => [.ports]
  | .joinRelease .. | .imageBufferClaimExpiry .. => [.sk]
  | .tapReset .. => [.dbg]
  | .railReleaseStep .. => [.eft]
  | .mmVerifyDone .. | .hbmTempSample .. | .recordOpenLimit .. | .croakTimerExpiry .. => [.dict, .fm]
  | .fcTimeout .. => [.dict, .str]
  | .brumationReached .. => [.dict, .eft]
  | .reorderHighWaterRead .. | .sdoSegmentTimeout .. => [.dict, .outbox]
  | .signalDetectChange .. | .linkFaultReceive .. | .trainingTimeout .. => [.fm, .ports]
  | .patMemRewriteDone .. => [.fm, .pat]
  | .ruleRewriteDone .. | .hueDrainLimit .. => [.fm, .hue]
  | .middleSlot .. => [.fm, .tm]
  | .tableRewriteDone .. => [.fm, .tbl]
  | .sprayStallTimeout .. | .leapWaitLimit .. => [.fm, .sk]
  | .tjSample .. => [.fm, .eft]
  | .evtFifoRead .. => [.time, .outbox]
  | .deliveryCoalTimer .. => [.host, .outbox]
  | .spillRefill .. => [.hbm, .tm]
  | .idcode .. | .bypass .. | .dictStatus .. | .dictPut .. => [.dbg, .outbox]
  | .wUpdate .. | .domLossTimeout .. | .phaseInterval .. | .refclkWindowCheck .. => [.dict, .fm, .time]
  | .strLaneLockChange .. | .fcControlWord .. => [.dict, .fm, .str]
  | .pcsLockChange .. => [.dict, .fm, .ports]
  | .learnApply .. | .macSweepVisit .. => [.dict, .fm, .tbl]
  | .reorderTimeout .. => [.dict, .fm, .sk]
  | .saveDone .. | .aonclkFault .. => [.dict, .fm, .eft]
  | .sfIdleExpiry .. => [.dict, .sk, .dbg]
  | .pwrgoodFall .. => [.dict, .dbg, .eft]
  | .extest .. | .samplePreload .. | .dictGet .. => [.dbg, .outbox, .free]
  | .evtInEdge .. => [.dict, .fm, .time, .host]
  | .deliveryHoldExpiry .. => [.dict, .fm, .host, .hue]
  | .relocMoveDone .. => [.dict, .fm, .hbm, .fsu]
  | .bar2Read .. | .bar2Write .. => [.dict, .fm, .hbm, .outbox]
  | .frameReceive .. => [.dict, .fm, .ports, .hue]
  | .patternResult .. => [.dict, .fm, .pat, .sk]
  | .downHoldExpiry .. => [.dict, .fm, .tm, .eg]
  | .firstFaultWritten .. => [.dict, .fm, .dbg, .eft]
  | .passFrame .. | .samplerTimeout .. => [.dict, .fm, .eft, .outbox]
  | .samplerSample .. => [.dict, .fm, .eft, .free]
  | .linkUpFilterExpiry .. => [.dict, .fm, .time, .tm, .eg]
  | .sweeperVisit .. => [.dict, .fm, .str, .hbm, .fsu]
  | .traceExport .. => [.dict, .fm, .str, .hbm, .dbg]
  | .portCountersClear .. | .patEngineRegrow .. | .skinkRegrow .. | .reorderTimeoutWrite .. | .hashSaltWrite ..
  | .middleRegrow .. | .queueWeightWrite .. | .wSelectWrite .. | .timeSnapshot .. | .hbmThaw .. | .hbmRegrow ..
  | .hbmPprSoft .. | .hbmPprHard .. | .pathEnableWrite .. | .strEnableWrite .. | .croakLevelWrite .. | .evClear ..
  | .evConfigWrite .. | .fmLogAck .. | .fmSummaryClear .. | .fmFirstClear .. | .fmRegrow .. | .breakpointWrite ..
  | .lanePrbsWrite .. => [.dict, .fm, .str, .hbm, .outbox]
  | .deliverItem .. => [.dict, .fm, .host, .hue, .outbox]
  | .bucketReadReturn .. => [.dict, .fm, .hbm, .sk, .fsu]
  | .relocWalk .. => [.dict, .fm, .hbm, .fsu, .free]
  | .patternScan .. => [.dict, .fm, .pat, .hue, .sk]
  | .eftRuleEval .. => [.dict, .fm, .eg, .eft, .outbox]
  | .oapSessionExpiry .. => [.dict, .fm, .tbl, .sk, .fsu]
  | .hueScrubVisit .. => [.dict, .pat, .hue, .sk, .fsu]
  | .haltLeapTimeout .. => [.dict, .sk, .cu, .fsu, .free]
  | .domEnableWrite .. | .wSet .. | .domStep .. | .domIncWrite .. => [.dict, .fm, .time, .str, .hbm, .outbox]
  | .patSetHeaderWrite .. | .patWordWrite .. => [.dict, .fm, .str, .hbm, .pat, .outbox]
  | .hueCommit .. | .ruleHeaderWrite .. | .ruleContentWrite .. | .rwhValueWrite .. => [.dict, .fm, .str, .hbm, .hue, .outbox]
  | .polConfigWrite .. | .redProfileWrite .. => [.dict, .fm, .str, .hbm, .tm, .outbox]
  | .shaperWrite .. | .strictCountWrite .. => [.dict, .fm, .str, .hbm, .eg, .outbox]
  | .macFlushPort .. => [.dict, .fm, .str, .hbm, .tbl, .outbox]
  | .csBufData .. | .dbgStep .. => [.dict, .fm, .str, .hbm, .sk, .outbox]
  | .flowCacheFlush .. | .keyTmplWrite .. | .tmplHeaderWrite .. => [.dict, .fm, .str, .hbm, .fsu, .outbox]
  | .strBurstSend .. | .traceCtrlWrite .. => [.dict, .fm, .str, .hbm, .dbg, .outbox]
  | .save .. | .erase .. | .brumate .. | .wake .. | .samplerCfgWrite .. | .bootLoadFull .. | .bootLoadHue .. =>
    [.dict, .fm, .str, .hbm, .eft, .outbox]
  | .frameStart .. | .launchDue .. => [.dict, .fm, .host, .tm, .eg, .outbox]
  | .unitRegrowthDone .. => [.dict, .fm, .hbm, .sk, .fsu, .dbg]
  | .commitPoint .. => [.dict, .fm, .ports, .hue, .sk, .dbg]
  | .spray .. => [.dict, .fm, .hue, .sk, .cu, .dbg]
  | .epochBoundary .. => [.dict, .fm, .time, .tm, .eg, .tbl, .fsu]
  | .leapStatusDelivered .. => [.dict, .fm, .str, .hbm, .hue, .sk, .dbg]
  | .disp0Stage .. => [.dict, .fm, .str, .hbm, .hue, .sk, .outbox]
  | .hbmThawDone .. | .hbmPprDone .. => [.dict, .fm, .str, .hbm, .tm, .sk, .fsu]
  | .hbmRetrain .. | .hbmReadComplete .. | .hbmCaParity .. | .hbmRetire .. | .hbmQueueParity .. =>
    [.dict, .fm, .str, .hbm, .tm, .fsu, .outbox]
  | .clutchDrain .. | .clutchReturn .. | .sfEntryWrite .. | .dbgHalt .. => [.dict, .fm, .str, .hbm, .sk, .dbg, .outbox]
  | .tblUnlock .. | .tblFlushPort .. | .tblFlushTemplate .. | .flowFlushDone .. | .macFlushDone .. | .crStop ..
  | .cmdNop .. => [.dict, .fm, .host, .tbl, .sk, .fsu, .outbox]
  | .linkDownFilterExpiry .. | .lanePllUnlock .. => [.dict, .fm, .time, .ports, .tm, .eg, .tbl, .outbox]
  | .patEngineIsolate .. => [.dict, .fm, .str, .hbm, .pat, .hue, .sk, .outbox]
  | .csRepairDone .. => [.dict, .fm, .str, .hbm, .hue, .sk, .fsu, .dbg]
  | .dbgResume .. => [.dict, .fm, .str, .hbm, .hue, .sk, .dbg, .outbox]
  | .tblDmaWrite .. | .tblDmaInsert .. | .tblDmaDelete .. | .tblLock .. | .tblLockGrant .. | .tblSearch ..
  | .tblNext .. => [.dict, .fm, .host, .hbm, .tbl, .sk, .fsu, .outbox]
  | .csLoad .. => [.dict, .fm, .str, .host, .hbm, .tbl, .sk, .fsu, .outbox]
  | .hueAbort .. | .hueImageLoad .. => [.dict, .fm, .str, .hbm, .pat, .hue, .sk, .fsu, .outbox]
  | .skinkIsolate .. => [.dict, .fm, .str, .hbm, .hue, .sk, .fsu, .dbg, .outbox]
  | .resetCmdWarm .. => [.dict, .fm, .str, .hbm, .hue, .sk, .dbg, .eft, .outbox]
  | .tblDmaRead .. => [.dict, .fm, .host, .hbm, .tbl, .sk, .fsu, .outbox, .free]
  | .functionLevelReset .. | .pcieLinkDown .. => [.dict, .fm, .host, .ports, .hue, .tm, .tbl, .sk, .fsu]
  | .inputSlot .. | .cellAtMiddle .. | .cellAtOutput .. | .fabReorderTimeout .. =>
    [.dict, .fm, .host, .hue, .tm, .tbl, .sk, .fsu, .outbox]
  | .portModeWrite .. | .adminUpWrite .. | .linkFilterWrite .. =>
    [.dict, .fm, .time, .str, .hbm, .ports, .tm, .eg, .tbl, .outbox]
  | .contextLoaded .. | .nop .. | .mov .. | .add .. | .sub .. | .and .. | .or .. | .xor .. | .andn .. | .shl ..
  | .shr .. | .sar .. | .ext .. | .ins .. | .min .. | .max .. | .sdiff .. | .cmp .. | .tstb .. | .absd .. | .popc ..
  | .ffs .. | .bswap .. | .movz .. | .movnz .. | .lds .. | .sts .. | .ldh .. | .hash .. | .lkmac .. | .lknat ..
  | .lklpm4 .. | .lklpm6 .. | .lkmcg .. | .lkmbr .. | .learn .. | .lbind .. | .lrd .. | .lset .. | .ladd .. | .lmax ..
  | .lmin .. | .lor .. | .lseq .. | .ldup .. | .ltok .. | .lins .. | .ldel .. | .labort .. | .hset .. | .setdest ..
  | .setq .. | .flags .. | .setedit .. | .setlaunch .. | .reason .. | .colour .. | .postcard .. | .progdata .. =>
    [.dict, .fm, .str, .hbm, .hue, .sk, .cu, .fsu, .dbg, .free]
  | .dbgMemRead .. | .dbgMemWrite .. => [.dict, .fm, .str, .hbm, .hue, .sk, .fsu, .dbg, .outbox, .free]
  | .hueStage .. => [.dict, .fm, .host, .hbm, .pat, .hue, .tbl, .sk, .fsu, .outbox]
  | .spillFetchReturn .. => [.dict, .fm, .host, .hbm, .hue, .tm, .tbl, .sk, .fsu, .outbox]
  | .crDoorbell .. | .drDoorbell .. | .brDoorbell .. | .crCtrlWrite .. | .drCtrlWrite .. | .pktInject ..
  | .pcieCompletionTimeout .. => [.dict, .fm, .host, .ports, .hue, .tm, .tbl, .sk, .fsu, .outbox]
  | .middleIsolate .. => [.dict, .fm, .str, .host, .hbm, .hue, .tm, .tbl, .sk, .fsu, .outbox]
  | .leapCommit .. => [.dict, .fm, .str, .host, .hbm, .hue, .tbl, .sk, .cu, .fsu, .dbg]
  | .csLoadDone .. => [.dict, .fm, .str, .host, .hbm, .hue, .tbl, .sk, .fsu, .dbg, .outbox]
  | .seq .. | .disp .. | .halt .. | .trap .. | .operationResult .. =>
    [.dict, .fm, .str, .hbm, .hue, .tbl, .sk, .cu, .fsu, .dbg, .free]
  | .parse .. => [.dict, .fm, .host, .hbm, .ports, .pat, .hue, .tbl, .sk, .fsu, .outbox]
  | .tmAdmit .. => [.dict, .fm, .host, .hbm, .hue, .tm, .tbl, .sk, .fsu, .outbox, .free]
  | .egressAdmit .. => [.dict, .fm, .host, .hue, .tm, .eg, .tbl, .sk, .fsu, .outbox, .free]
  | .bootGo .. => [.dict, .fm, .str, .hbm, .ports, .pat, .hue, .sk, .fsu, .dbg, .eft, .outbox]
  | .restartSequence .. => [.dict, .fm, .str, .hbm, .ports, .hue, .tbl, .sk, .fsu, .dbg, .eft, .outbox]
  | .lockWaitTimeout .. => [.dict, .fm, .str, .host, .hbm, .hue, .tbl, .sk, .cu, .fsu, .dbg, .outbox, .free]
  | .hbmTrainingDone .. => [.dict, .fm, .str, .hbm, .ports, .pat, .hue, .tm, .sk, .fsu, .dbg, .eft, .outbox]
  | .railEnableStep .. | .resetNRelease .. =>
    [.dict, .fm, .time, .str, .hbm, .ports, .pat, .hue, .tm, .eg, .sk, .fsu, .dbg, .eft, .outbox]
  | .fmIsolate .. => [.dict, .fm, .time, .str, .host, .hbm, .ports, .pat, .hue, .tm, .eg, .tbl, .sk, .fsu, .dbg, .outbox]
  | .warmN .. => [.dict, .fm, .time, .str, .host, .hbm, .ports, .pat, .hue, .tm, .eg, .tbl, .sk, .cu, .fsu, .dbg, .eft]
  | .eventOccurrence .. | .railTimeout .. | .coreRailFault .. | .thermalTrip .. | .rpllUnlock .. =>
    [.dict, .fm, .time, .str, .host, .hbm, .ports, .pat, .hue, .tm, .eg, .tbl, .sk, .fsu, .dbg, .eft, .outbox]
  | .resetN .. | .resetCmdCold .. | .wdogTimeout .. =>
    [.dict, .fm, .time, .str, .host, .hbm, .ports, .pat, .hue, .tm, .eg, .tbl, .sk, .cu, .fsu, .dbg, .eft, .outbox]
  | .warmDrainDone .. =>
    [.dict, .fm, .time, .str, .host, .hbm, .ports, .pat, .hue, .tm, .eg, .tbl, .sk, .cu, .fsu, .dbg, .eft, .free]
  | .reorderRelease .. | .mbDoorbell .. | .dictWrite .. | .oapRequest .. | .oapArpRequest .. | .sdoRequest ..
  | .powerOnReset .. | .dictGo .. =>
    [.dict, .fm, .time, .str, .host, .hbm, .ports, .pat, .hue, .tm, .eg, .tbl, .sk, .cu, .fsu, .dbg, .eft, .outbox, .free]

end Sys2Proof.Machine
end

