-- ==== Sys2Proof/Certificates/Slice0/Obligations.lean ====
section
/-! DEFINITION. The statements about the model, for the provers. -/

section
open Sys2Proof Sys2Proof.Machine

/-- R9, R18, R34: a frame that the MAC accepts leaves step 0 with its metadata in the input queue of its pipe, under the next PSEQ. What the wire
brings with it is an operand (the model's choice, log 56); its ingress time is that of `inTime` (the model's readings, log 110, 113). -/
def Obligations.FrameEntersStepOne : Prop :=
  ∀ (p : Fin 256) (frame : List Byte) (r : RxInfo) (s : State),
    s.macClosed = false → s.isUp p = true → s.portFault p = false → r.pcsError = false → r.reassembly = false →
    r.parity = false → 64 ≤ frame.length → frame.length ≤ s.rd Objs.max_frame p →
    crc32 (frame.take (frame.length - 4)) = leNat (frame.drop (frame.length - 4)) → isPause frame = false →
    r.queueFull = false →
    ∃ t k, exec (.frameReceive p frame r) s = .next t ∧
      tget [] t.ports.inq (pipeOf p) = tget [] s.ports.inq (pipeOf p) ++ [k] ∧ k.frame = frame ∧
      k.md = newMd p (tget 0 s.ports.pseq (pipeOf p)) (inTime s p r.back.toNat) frame.length ∧
      tget 0 t.ports.pseq (pipeOf p) = (tget 0 s.ports.pseq (pipeOf p) + 1) % 2 ^ 30 ∧
      t.rd Objs.rx_frames p = satAdd 64 (s.rd Objs.rx_frames p) 1 ∧
      t = { s with dict := t.dict, fm := t.fm, ports := t.ports, hue := t.hue }

/-- R34, R47, R50, R51: each discard of the MAC counts in its own counter, or raises its own event, and passes nothing on. The checks are made
in the order of the rules, and the first that fails counts (the model's choice, log 57); the errors of the wire and of the queue are operands
(log 56). -/
def Obligations.FrameDiscardsCount : Prop :=
  ∀ (p : Fin 256) (frame : List Byte) (r : RxInfo) (s : State), s.macClosed = false →
    ∃ t, exec (.frameReceive p frame r) s = .next t ∧
      ((s.isUp p = false ∨ s.portFault p = true ∨ r.pcsError = true) →
        t.rd Objs.rx_pcs_err p = satAdd 64 (s.rd Objs.rx_pcs_err p) 1 ∧ t.ports.inq = s.ports.inq) ∧
      (s.isUp p = true → s.portFault p = false → r.pcsError = false → r.reassembly = true →
        t.rd Objs.mm_reasm_err p = satAdd 64 (s.rd Objs.mm_reasm_err p) 1 ∧ (∃ e ∈ t.fm.raised, e.src = 9 ∧ e.unit = p) ∧
        t.ports.inq = s.ports.inq) ∧
      (s.isUp p = true → s.portFault p = false → r.pcsError = false → r.reassembly = false → r.parity = true →
        (∃ e ∈ t.fm.raised, e.src = 11 ∧ e.unit = p) ∧ t.ports.inq = s.ports.inq) ∧
      (s.isUp p = true → s.portFault p = false → r.pcsError = false → r.reassembly = false → r.parity = false →
        (frame.length < 64 → t.rd Objs.rx_runt p = satAdd 64 (s.rd Objs.rx_runt p) 1 ∧ t.ports.inq = s.ports.inq) ∧
        (64 ≤ frame.length → s.rd Objs.max_frame p < frame.length →
          t.rd Objs.rx_oversize p = satAdd 64 (s.rd Objs.rx_oversize p) 1 ∧ t.ports.inq = s.ports.inq) ∧
        (64 ≤ frame.length → frame.length ≤ s.rd Objs.max_frame p →
          crc32 (frame.take (frame.length - 4)) ≠ leNat (frame.drop (frame.length - 4)) →
          t.rd Objs.rx_fcs_err p = satAdd 64 (s.rd Objs.rx_fcs_err p) 1 ∧ t.ports.inq = s.ports.inq) ∧
        (64 ≤ frame.length → frame.length ≤ s.rd Objs.max_frame p →
          crc32 (frame.take (frame.length - 4)) = leNat (frame.drop (frame.length - 4)) →
          (isPause frame = true →
            t.rd Objs.rx_pause p = satAdd 64 (s.rd Objs.rx_pause p) 1 ∧ t.ports.inq = s.ports.inq) ∧
          (isPause frame = false → r.queueFull = true →
            t.rd Objs.rx_overrun p = satAdd 64 (s.rd Objs.rx_overrun p) 1 ∧ (∃ e ∈ t.fm.raised, e.src = 6 ∧ e.unit = p) ∧
            t.ports.inq = s.ports.inq)))

/-- R29, R35, R36, R38: what the filters, the hold time and the training timer of a port do when they expire. That training must be complete
before LINK_UP is the model's reading (log 59), as is what a flush empties (log 27). -/
def Obligations.PortTimersMoveLinkState : Prop :=
  ∀ (p : Fin 256) (s : State),
    (s.link p = 1 → (s.pl p).bad = false → s.training p = false →
      s.elapsed (s.pl p).since (s.rd Objs.link_up_filter p) = true →
      ∃ t, exec (.linkUpFilterExpiry p) s = .next t ∧ t.rd Objs.link_state p = 2 ∧
        t.rd Objs.last_change p = s.wStamp ∧ t.rd Objs.ts_state p = 1 ∧ Raised 1 p s t) ∧
    (s.isUp p = true → (s.pl p).bad = true → s.elapsed (s.pl p).since (s.rd Objs.link_down_filter p) = true →
      ∃ t, exec (.linkDownFilterExpiry p) s = .next t ∧
        t.rd Objs.link_state p = (if s.rd Objs.down_policy p = 1 then 3 else 1) ∧ t.rd Objs.ts_state p = 0 ∧
        (s.rd Objs.down_policy p ≠ 1 → (t.ep p).queues = List.replicate 8 [] ∧ (t.ep p).cal = [])) ∧
    (s.link p = 3 → s.elapsed (s.pl p).holdStart (s.pl p).holdLen = true →
      ∃ t, exec (.downHoldExpiry p) s = .next t ∧ t.rd Objs.link_state p = 1 ∧ Raised 8 p s t ∧
        (t.ep p).queues = List.replicate 8 [] ∧ (t.ep p).cal = []) ∧
    (∀ (l : Fin 64) (q i : Nat), s.trainPort l = some (q, i) → s.elapsed ((s.pl q).trainStart.getD i 0) 500000000 = true →
      ∃ t, exec (.trainingTimeout l) s = .next t ∧ Raised 14 l s t ∧
        (t.pl q).trainStart = (s.pl q).trainStart.set i s.fNs ∧ (t.pl q).trained = (s.pl q).trained)

/-- R33, R34, R29, R31, R51, R360: what the lanes, the PCS, the verify procedure and the phase measurement report. That a lost PLL lock takes
the lane's lock and puts its ports down at once is the model's choice (log 60), as are the speed that a PHY's word gives and the signal's
place in the lane (log 58). -/
def Obligations.LaneReportsTakeEffect : Prop :=
  ∀ (p : Fin 256) (l : Fin 64) (s : State),
    (∀ on, (s.portsOfLane l).any s.portPowered = true → s.laneSignal l ≠ on →
      ∃ t, exec (.signalDetectChange l on) s = .next t ∧ t.laneSignal l = on ∧
        (on = false → (s.portsOfLane l).any s.isUp = true → Raised 2 l s t)) ∧
    (∀ (lock : BitVec 8) (speed : Fin 4), s.portPowered p = true →
      ∃ t, exec (.pcsLockChange p lock speed) s = .next t ∧
        t.rd Objs.lane_lock p = lock.toNat % 2 ^ modeLanes (s.portMode p) ∧ (t.pl p).phy = phySpeed speed) ∧
    (∀ kind : Fin 3, s.portPowered p = true → (s.pl p).rxFault ≠ kind →
      ∃ t, exec (.linkFaultReceive p kind) s = .next t ∧ (t.pl p).rxFault = kind ∧
        (kind ≠ 0 → s.isUp p = true → Raised 5 p s t)) ∧
    (∀ q i : Nat, s.trainPort l = some (q, i) →
      ∃ t, exec (.linkTrainingDone l) s = .next t ∧ (t.pl q).trained = setFld (s.pl q).trained i 1 1) ∧
    (s.isUp p = true → s.rd Objs.mm_status p = 1 →
      ∃ t, exec (.mmVerifyDone p true) s = .next t ∧ t.rd Objs.mm_status p = 2) ∧
    (s.isUp p = true → s.rd Objs.mm_status p = 1 →
      ∃ t, exec (.mmVerifyDone p false) s = .next t ∧ t.rd Objs.mm_status p = 3 ∧ Raised 7 p s t) ∧
    ((s.portsOfLane l).filter s.portPowered = [(p : Nat)] → s.isUp p = false →
      ∃ t, exec (.lanePllUnlock l) s = .next t ∧ Raised 10 l s t ∧
        t.rd Objs.lane_lock p = setFld (s.rd Objs.lane_lock p) (l - p / 4) 1 0) ∧
    ((s.portsOfLane l).filter s.portPowered = [(p : Nat)] → s.isUp p = true →
      ∃ t, exec (.lanePllUnlock l) s = .next t ∧ t.rd Objs.link_state p = (if s.rd Objs.down_policy p = 1 then 3 else 1) ∧
        (∃ e ∈ t.fm.raised, e.src = 10 ∧ e.unit = l) ∧ ∃ e ∈ t.fm.raised, e.src = 0 ∧ e.unit = p) ∧
    (∀ move : Nat, s.rd Objs.ts_state p = 2 → s.portMode p ≠ 3 → s.portMode p ≠ 2 →
      ∃ t, exec (.phaseInterval p move) s = .next t ∧
        (50 < move → t.rd Objs.ts_state p = 1 ∧ Raised 206 p s t) ∧ (move ≤ 50 → t.rd Objs.ts_state p = 2))

/-- R27, R35, R48, R50: what accepted writes of a port's objects do. That a filter's write counts at once is the model's reading (log 59). -/
def Obligations.PortWritesTakeEffect : Prop :=
  ∀ (c : Ctx) (p : Fin 256) (v : List Byte) (s : State),
    (Accepted c Objs.port_mode p v (portModeCheck p) s → s.portMode p ≠ 3 → leNat v ≠ 3 →
      ∃ t, exec (.portModeWrite c p v) s = .next t ∧ Answered c Objs.port_mode p .ok t ∧ t.portMode p = leNat v) ∧
    (Accepted c Objs.admin_up p v noCheck s → leNat v = 1 → s.link p = 0 →
      ∃ t, exec (.adminUpWrite c p v) s = .next t ∧ Answered c Objs.admin_up p .ok t ∧ t.rd Objs.admin_up p = 1 ∧
        t.rd Objs.link_state p = 1 ∧ (t.pl p).trained = 0 ∧ (t.pl p).bad = true) ∧
    (Accepted c Objs.link_up_filter p v noCheck s →
      ∃ t, exec (.linkFilterWrite c p true v) s = .next t ∧ Answered c Objs.link_up_filter p .ok t ∧
        t.rd Objs.link_up_filter p = leNat v ∧
        (s.link p = 1 → (s.pl p).bad = false → s.training p = false → s.elapsed (s.pl p).since (leNat v) = true →
          t.rd Objs.link_state p = 2)) ∧
    (Accepted c Objs.link_down_filter p v noCheck s →
      ∃ t, exec (.linkFilterWrite c p false v) s = .next t ∧ Answered c Objs.link_down_filter p .ok t ∧
        t.rd Objs.link_down_filter p = leNat v ∧
        (s.isUp p = true → (s.pl p).bad = true → s.elapsed (s.pl p).since (leNat v) = true →
          t.rd Objs.link_state p = (if s.rd Objs.down_policy p = 1 then 3 else 1))) ∧
    (Accepted c Objs.counters_clear p v noCheck s →
      ∃ t, exec (.portCountersClear c p v) s = .next t ∧ Answered c Objs.counters_clear p .ok t ∧
        ∀ o ∈ portCounters, t.rd o p = 0)

/-- R52 to R68, R70, R83, R87, R89, R104: PARSE takes the head of the pipe's input queue and puts it into the join stage with its parse
result and every field that its rule, or the miss action, writes under the active hue (R64, R68); a packet whose payload a set scans waits
there; one for whose window the pipe has no engine is dropped, counted and raises EV055, and one that hits a damaged rule is dropped. An empty
input queue, or a full join stage, leaves the state as it is (the model's choice, log 2). -/
def Obligations.ParsePassesToJoin : Prop :=
  ∀ (pipe : Fin 4) (err : ParseErr) (s : State),
    (∀ (k : Packet) (rest : List Packet), tget [] s.ports.inq pipe = k :: rest → (tget [] s.sk.join pipe).length < 256 →
      err.parity = false → err.rule = .good → err.readsBad = false →
      let cfg := s.parseCfg (fld k.md 32 8)
      let f := k.frame.take (k.frame.length - 4)
      let p := parseFrame cfg f
      let act := ((s.ruleHit k cfg f p).map (fun r => r.2.body.getD 2 0)).getD s.hue.missNow
      let kind := payKind cfg f p
      let scans := kind ≠ 0 ∧ (s.setFor kind s.hueActive).isSome = true
      let tci := netAt f 14 2
      ∃ t, exec (.parse pipe err) s = .next t ∧ tget [] t.ports.inq pipe = rest ∧
        (s.hitDamaged k cfg f p = false → (scans → (s.pickEngine pipe none).isSome = true) →
          ∃ j, tget [] t.sk.join pipe = tget [] s.sk.join pipe ++ [j] ∧ j.pkt.pid = k.pid ∧ j.pkt.frame = k.frame ∧
            j.waiting = decide scans ∧ j.released = false ∧ j.pkt.prv = prvOf cfg f p ∧
            (∀ x ∈ [(240, 112, 16), (259, 111, 1), (320, 95, 12), (160, 87, 8), (168, 83, 4), (172, 79, 4), (44, 75, 1), (45, 74, 1),
                (43, 73, 1), (42, 72, 1), (332, 68, 4)], fld j.pkt.md x.1 x.2.2 = fld act x.2.1 x.2.2) ∧
            fld j.pkt.md 46 2 = (if bit act 76 ∧ fld act 77 2 = 0 ∧ p.vlan ≠ 0 ∧ bit tci 12 then 1 else min 2 (fld act 77 2)) ∧
            fld j.pkt.md 256 3 = (if bit act 107 ∧ p.vlan ≠ 0 then tci / 8192 else fld act 108 3) ∧
            fld j.pkt.md 48 16 = s.hueActive % 65536) ∧
        (s.hitDamaged k cfg f p = false → scans → s.pickEngine pipe none = none →
          t.rd Objs.pat_no_engine_drop pipe = satAdd 64 (s.rd Objs.pat_no_engine_drop pipe) 1 ∧
          (∀ j ∈ tget [] t.sk.join pipe, j.pkt.pid ≠ k.pid) ∧ ∃ e ∈ t.fm.raised, e.src = 55 ∧ e.unit = pipe) ∧
        (s.hitDamaged k cfg f p = true → tget [] t.sk.join pipe = tget [] s.sk.join pipe ∧
          t.rd Objs.class_mem_drop pipe = satAdd 64 (s.rd Objs.class_mem_drop pipe) 1 ∧ ∃ e ∈ t.fm.raised, e.src = 36)) ∧
    ((tget [] s.ports.inq pipe = [] ∨ 256 ≤ (tget [] s.sk.join pipe).length) → exec (.parse pipe err) s = .next s)

/-- R83, R87, R89, R90, R102: the scan of a window, its result, the release from the join stage, and the rewrite of a damaged
rule slot, state word or set slot, from a shadow copy whose pseudo-channel answers (that a damaged item drops every packet until its rewrite is
the model's reading, log 65; the place of a shadow is a constant, log 111). -/
def Obligations.PatternStageTakesEffect : Prop :=
  ∀ (s : State),
    (∀ (e : Fin 24) (w : Window) (rest : List Window), (s.engine e).queue = w :: rest → s.engineIn e = true →
        tfind s.pat.badWords (setPlace w.set) = none →
      ∃ t, exec (.patternScan e .good) s = .next t ∧ (t.engine e).queue = rest ∧
        (∃ r, (t.engine e).done = (s.engine e).done ++ [(w, r)]) ∧
        tget 0 t.pat.hits w.set = satAdd 64 (tget 0 s.pat.hits w.set) 1) ∧
    (∀ (e : Fin 24) (w : Window) (r : Nat) (rest : List (Window × Nat)), (s.engine e).done = (w, r) :: rest →
      ∃ t, exec (.patternResult e) s = .next t ∧ (t.engine e).done = rest ∧
        (∀ j ∈ tget [] t.sk.join w.pipe, j.pkt.pid = w.pid → j.pkt.pat = r ∧ j.waiting = false) ∧
        (fld r 588 3 = 2 → Raised 48 w.pipe s t) ∧ (fld r 588 3 = 3 → Raised 49 w.pipe s t) ∧
        (fld r 588 3 = 4 → Raised 50 w.pipe s t)) ∧
    (∀ (p : Fin 4) (j : JoinItem) (rest : List JoinItem), tget [] s.sk.join p = j :: rest → j.waiting = false →
      ∃ t, exec (.joinRelease p) s = .next t ∧ tget [] t.sk.join p = { j with released := true } :: rest) ∧
    (∀ i : Fin 131072, tfind s.hue.badRules i = some true →
      (∀ copy, s.shadowRead 0 i copy ≠ .neither → ∃ t, exec (.ruleRewriteDone i copy) s = .next t ∧ tfind t.hue.badRules i = none) ∧
      ∃ t, exec (.ruleRewriteDone i .neither) s = .next t ∧ tfind t.hue.badRules i = some false ∧ Raised 41 0 s t) ∧
    (∀ w : Fin 229440, tfind s.pat.badWords w = some true →
      (∀ copy, s.shadowRead 1 w copy ≠ .neither → ∃ t, exec (.patMemRewriteDone w copy) s = .next t ∧ tfind t.pat.badWords w = none) ∧
      ∃ t, exec (.patMemRewriteDone w .neither) s = .next t ∧ tfind t.pat.badWords w = some false ∧ Raised 56 0 s t)

/-- R63, R64, R72, R92, R93, R207, R213, R447: an accepted write of a slot's header, of its content, of a state word, of a key
template or of a staged value stores it, and leaves every other slot alone; the refusals that the checks add are the model's reading (log 66,
67), as is the form in which a value is kept. -/
def Obligations.StagedWritesStore : Prop :=
  ∀ (c : Ctx) (v : List Byte) (s : State),
    (Accepted c Objs.rule_header 0 v (fun x s => s.ruleCode (s.rdCtx c Objs.rule_select) (hdrClean true x)) s →
      ∃ t, exec (.ruleHeaderWrite c v) s = .next t ∧ Answered c Objs.rule_header 0 .ok t ∧
        (t.rule (s.rdCtx c Objs.rule_select)).header = hdrClean true (leNat v) ∧
        ∀ j, j ≠ s.rdCtx c Objs.rule_select → t.rule j = s.rule j) ∧
    (∀ k : Fin 3, Accepted c (rulePartObj k) 0 v (fun x s => s.ruleContentCode (s.rdCtx c Objs.rule_select) k x) s →
      ∃ t, exec (.ruleContentWrite c k v) s = .next t ∧ Answered c (rulePartObj k) 0 .ok t ∧
        (t.rule (s.rdCtx c Objs.rule_select)).body.getD k 0 = rulePartClean k (leNat v) ∧
        ∀ j, j ≠ s.rdCtx c Objs.rule_select → t.rule j = s.rule j) ∧
    (∀ k : Fin 3, Accepted c (rwhObj k) 0 v (fun _ s => refuseIf (k.val == 0 && s.bank0Staged) .state) s →
      ∃ t, exec (.rwhValueWrite c k v) s = .next t ∧ Answered c (rwhObj k) 0 .ok t ∧
        (k = 0 → t.hue.imageStaged = some (leNat v)) ∧ (k = 1 → t.hue.missStaged = some (rulePartClean 2 (leNat v))) ∧
        (k = 2 → t.hue.keyedStaged = some (leNat v))) ∧
    (Accepted c Objs.pat_set_header 0 v
        (fun x s => let t := s.patSet (s.rdCtx c Objs.pat_set_select)
          stageCode t.header s.hueN (hdrClean false x) true (s.setRefused (setDesc t))) s →
      ∃ t, exec (.patSetHeaderWrite c v) s = .next t ∧ Answered c Objs.pat_set_header 0 .ok t ∧
        (t.patSet (s.rdCtx c Objs.pat_set_select)).header = hdrClean false (leNat v) ∧
        ∀ j, j ≠ s.rdCtx c Objs.pat_set_select → t.patSet j = s.patSet j) ∧
    (Accepted c Objs.pat_mem_data 0 v (fun _ s => refuseIf (s.wordTaken (s.rdCtx c Objs.pat_mem_addr)) .state) s →
      ∃ t, exec (.patWordWrite c v) s = .next t ∧ Answered c Objs.pat_mem_data 0 .ok t ∧
        tget 0 t.pat.words (s.rdCtx c Objs.pat_mem_addr) = leNat v ∧
        ∀ j, j ≠ s.rdCtx c Objs.pat_mem_addr → tget 0 t.pat.words j = tget 0 s.pat.words j) ∧
    (Accepted c Objs.tmpl_header 0 v
        (fun x s => let i := s.rdCtx c Objs.tmpl_select
          stageCode (s.tmplSlot i).header s.hueN (hdrClean false x) true (s.tmplRefused i ((s.tmplSlot i).body.getD 0 0))) s →
      ∃ t, exec (.tmplHeaderWrite c v) s = .next t ∧ Answered c Objs.tmpl_header 0 .ok t ∧
        (t.tmplSlot (s.rdCtx c Objs.tmpl_select)).header = hdrClean false (leNat v) ∧
        ∀ j, j ≠ s.rdCtx c Objs.tmpl_select → t.tmplSlot j = s.tmplSlot j) ∧
    (Accepted c Objs.key_tmpl_desc 0 v
        (fun x s => if tmplBad x then .range else refuseIf (s.tmplNamed (s.rdCtx c Objs.key_tmpl_select)) .state) s →
      ∃ t, exec (.keyTmplWrite c v) s = .next t ∧ Answered c Objs.key_tmpl_desc 0 .ok t ∧
        tget 0 t.fsu.keyTmpl (s.rdCtx c Objs.key_tmpl_select) = leNat v ∧
        ∀ j, j ≠ s.rdCtx c Objs.key_tmpl_select → tget 0 t.fsu.keyTmpl j = tget 0 s.fsu.keyTmpl j)

/-- R69, R70, R71, R73, R74, R78, R81, R447: the commit, its refusals with BUSY and STATE, its commit point, the abort with the undo of staged
retirements, the scrubber's visit and the drain limit of a hue; which hues see an object. -/
def Obligations.HueCommitAndAbort : Prop :=
  ∀ (c : Ctx) (v : List Byte) (s : State),
    (Accepted c Objs.hue_commit 0 v hueCommitCheck s →
      ∃ t, exec (.hueCommit c v) s = .next t ∧ Answered c Objs.hue_commit 0 .ok t ∧
        t.hue.commit = some (some (ctxCode c)) ∧ t.rd Objs.hue_active = s.rd Objs.hue_active) ∧
    (s.pathServed c = true → judgeWrite c Objs.hue_commit 0 v hueCommitCheck s = .busy →
      ∃ t, exec (.hueCommit c v) s = .next t ∧ Answered c Objs.hue_commit 0 .busy t ∧ Raised 38 0 s t ∧
        t.hue = s.hue) ∧
    (s.pathServed c = true → judgeWrite c Objs.hue_commit 0 v hueCommitCheck s = .state →
      ∃ t, exec (.hueCommit c v) s = .next t ∧ Answered c Objs.hue_commit 0 .state t ∧ Raised 38 0 s t ∧
        t.hue = s.hue) ∧
    (s.hue.commit ≠ none →
      ∃ t, exec .commitPoint s = .next t ∧ t.hue.commit = none ∧ t.rd Objs.hue_active = s.hueN ∧
        t.rd Objs.hue_active_image = s.nextImage ∧ t.hue.missNow = s.nextMiss ∧ t.hue.keyedNow = s.nextKeyed ∧
        t.hue.missStaged = none ∧ t.hue.imageStaged = none ∧ t.hue.keyedStaged = none ∧ t.fm.passed = []) ∧
    (Accepted c Objs.hue_abort 0 v noCheck s →
      ∃ t, exec (.hueAbort c v) s = .next t ∧ Answered c Objs.hue_abort 0 .ok t ∧
        t.hue.missStaged = none ∧ t.hue.imageStaged = none ∧ t.hue.keyedStaged = none ∧
        ∀ i, (hdrValid (t.rule i).header = true → hdrVf (t.rule i).header ≠ s.hueN) ∧
          (hdrValid (t.patSet i).header = true → hdrVf (t.patSet i).header ≠ s.hueN) ∧
          (hdrValid (t.tmplSlot i).header = true → hdrVf (t.tmplSlot i).header ≠ s.hueN) ∧
          (hdrValid (s.rule i).header = true → hdrVf (s.rule i).header ≠ s.hueN → hdrOpen (s.rule i).header = false →
            hdrVu (s.rule i).header = s.hueN → (t.rule i).header = setFld (s.rule i).header 61 1 1)) ∧
    (s.hue.scrubPos < 131072 →
      ∃ t, exec .hueScrubVisit s = .next t ∧ t.hue.scrubPos = s.hue.scrubPos + 1 ∧
        (t.rule s.hue.scrubPos).header = scrubHeader s.hueOldest (s.rule s.hue.scrubPos).header) ∧
    (s.hue.scrubPos = 135295 →
      ∃ t, exec .hueScrubVisit s = .next t ∧ t.hue.scrubPos = 0 ∧ t.rd Objs.hue_scrub_busy = 0) ∧
    (∀ (h : BitVec 16) (x : Nat), tfind s.hue.retired h.toNat = some x →
      s.elapsed x (s.rd Objs.hue_drain_limit + 1) = true → s.hue.slow.contains h.toNat = false → h.toNat ≠ s.hueActive →
      ∃ t, exec (.hueDrainLimit h) s = .next t ∧ t.hue.slow = s.hue.slow ++ [h.toNat] ∧ Raised 39 0 s t) ∧
    ∀ (hd h n : Nat), h < 65536 → n < 65536 → hdrOpen hd = true →
      (visible hd h = true ↔ hdrValid hd = true ∧ 0 ≤ wrapDiff 16 h (hdrVf hd)) ∧
      (visible (setFld (setFld hd 61 1 0) 16 16 n) h = true ↔ visible hd h = true ∧ 0 < wrapDiff 16 n h)

/-- R139, R140, R141, R162: the value that each ALU operation writes and the flags that it sets, on every operand, and the reserved
encodings, of which that of B_IMM is the model's reading (log 49). That a row of one operation leaves the rest of the thread and of the state
as it is, the PC and the word count too, is the model's choice (log 48). -/
def Obligations.AluRowsCompute : Prop :=
  AluWrites .mov 0x01 (fun _ b _ => b) (fun _ _ _ o => o) ∧
  AluWrites .add 0x02 (fun a b _ => (a + b) % 2 ^ 64) (fun a b v _ => valFlags v (addCarry a b) (addOver a b)) ∧
  AluWrites .sub 0x03 (fun a b _ => sub64 a b) (fun a b v _ => valFlags v (subBorrow a b) (subOver a b)) ∧
  AluWrites .and 0x04 (fun a b _ => Nat.land a b) (fun _ _ v _ => valFlags v false false) ∧
  AluWrites .or 0x05 (fun a b _ => Nat.lor a b) (fun _ _ v _ => valFlags v false false) ∧
  AluWrites .xor 0x06 (fun a b _ => Nat.xor a b) (fun _ _ v _ => valFlags v false false) ∧
  AluWrites .andn 0x07 (fun a b _ => Nat.land a (Nat.xor b (2 ^ 64 - 1))) (fun _ _ v _ => valFlags v false false) ∧
  AluWrites .shl 0x08 (fun a b _ => a * 2 ^ (b % 64) % 2 ^ 64) (fun _ _ v _ => valFlags v false false) ∧
  AluWrites .shr 0x09 (fun a b _ => a / 2 ^ (b % 64)) (fun _ _ v _ => valFlags v false false) ∧
  AluWrites .sar 0x0A (fun a b _ => ofSigned 64 (toSigned 64 a / (2 : Int) ^ (b % 64))) (fun _ _ v _ => valFlags v false false) ∧
  AluWrites .ext 0x0B (fun a _ i => fld a (i % 64) (fld i 6 6 + 1)) (fun _ _ v _ => valFlags v false false) ∧
  AluWrites .ins 0x0C (fun a b i => setFld a (i % 64) (fld i 6 6 + 1) b) (fun _ _ v _ => valFlags v false false) ∧
  AluWrites .min 0x0D (fun a b _ => min a b) (fun _ _ v _ => valFlags v false false) ∧
  AluWrites .max 0x0E (fun a b _ => max a b) (fun _ _ v _ => valFlags v false false) ∧
  AluWrites .sdiff 0x0F (fun a b i => sext64 (i % 64 + 1) (sub64 a b)) (fun a b v _ => valFlags v (subBorrow a b) (subOver a b)) ∧
  AluWrites .absd 0x12 (fun a b _ => (toSigned 64 (sub64 a b)).natAbs % 2 ^ 64) (fun _ _ v _ => valFlags v false false) ∧
  AluWrites .popc 0x13 (fun a _ _ => popCount 64 a) (fun _ _ v _ => valFlags v false false) ∧
  AluWrites .ffs 0x14 (fun a _ _ => ffs 64 a) (fun _ _ v _ => valFlags v false false) ∧
  AluWrites .bswap 0x15 (fun a _ i => beNat (leBytes (2 * 2 ^ (i % 4)) a)) (fun _ _ v _ => valFlags v false false) ∧
  ∀ (k : Fin 2048) (x : AluArgs) (s : State),
    (ReadyFor s k (aluWord 0x00 x) → exec (.nop k x) s = .next (s.setTh k (s.th k))) ∧
    (ReadyFor s k (aluWord 0x10 x) →
      exec (.cmp k x) s = .next (s.setTh k { s.th k with
        flags := valFlags (sub64 ((s.th k).sel x.a) (aluB (s.th k) x)) (subBorrow ((s.th k).sel x.a) (aluB (s.th k) x))
          (subOver ((s.th k).sel x.a) (aluB (s.th k) x)) })) ∧
    (ReadyFor s k (aluWord 0x11 x) →
      exec (.tstb k x) s = .next (s.setTh k { s.th k with
        flags := valFlags (Nat.land ((s.th k).sel x.a) (aluB (s.th k) x)) false false })) ∧
    (ReadyFor s k (aluWord 0x16 x) →
      exec (.movz k x) s = .next (s.setTh k (if flagZ (s.th k).flags then (s.th k).setSel x.dst (aluB (s.th k) x) else s.th k))) ∧
    (ReadyFor s k (aluWord 0x17 x) →
      exec (.movnz k x) s = .next (s.setTh k (if flagZ (s.th k).flags then s.th k else (s.th k).setSel x.dst (aluB (s.th k) x)))) ∧
    (∀ op, 0x18 ≤ op → op < 0x40 → wordBad (aluWord op x) = true) ∧
    (∀ op, op ∈ [0x0B, 0x0C, 0x0F, 0x15] → x.bImm = true → wordBad (aluWord op x) = true) ∧
    (64 < x.imm.toNat % 64 + (fld x.imm.toNat 6 6 + 1) → wordBad (aluWord 0x0C x) = true) ∧
    (x.imm.toNat % 4 = 3 → wordBad (aluWord 0x15 x) = true) ∧
    ((s.th k).lockWait = none → (s.th k).ready (aluWord 0x0C x) = true → wordBad (aluWord 0x0C x) = true →
      ∃ t, exec (.ins k x) s = .next t ∧ ∃ e ∈ t.fm.raised, e.src = 80 ∧ e.unit = clutchOf k)

/-- R145: what each edit does to its thread, and to nothing else; that the PC and the word count stay is the model's choice of what a row of
one operation is (log 48). -/
def Obligations.EditRowsEdit : Prop :=
  EditRow .hset 0x01 (fun x t => { t with hw := splice t.hw (fld x.imm.toNat 0 7) (beBytes (fld x.imm.toNat 7 3 + 1) (t.sel x.src)) }) ∧
  EditRow .setdest 0x02 (fun x t =>
    let d := if bit x.imm.toNat 19 then t.sel x.src else fld x.imm.toNat 0 16
    { t with md := setFld (setFld t.md 240 16 d) 259 1 (fld x.imm.toNat 16 1) }) ∧
  EditRow .setq 0x03 (fun x t => { t with md := setFld t.md 256 3 (fld x.imm.toNat 0 3) }) ∧
  EditRow .flags 0x04 (fun x t =>
    let m := if bit x.imm.toNat 19 then t.sel x.src else x.imm.toNat
    { t with md := setFld t.md 40 6 (Nat.land (Nat.lor (verdictBits t.md) (fld m 0 6)) (Nat.xor (fld m 6 6) 63)) }) ∧
  EditRow .setedit 0x05 (fun x t =>
    let d := if bit x.imm.toNat 19 then t.sel x.src else fld x.imm.toNat 0 16
    { t with md := setFld t.md 368 16 d }) ∧
  EditRow .setlaunch 0x06 (fun x t => { t with md := setFld (setFld t.md 264 40 (t.sel x.src)) 304 1 1 }) ∧
  EditRow .reason 0x07 (fun x t => { t with md := setFld t.md 336 8 (fld x.imm.toNat 0 8) }) ∧
  EditRow .colour 0x08 (fun x t => { t with md := setFld t.md 46 2 (fld x.imm.toNat 0 2) }) ∧
  EditRow .postcard 0x09 (fun x t => { t with postcard := some (fld x.imm.toNat 0 6) }) ∧
  EditRow .progdata 0x0A (fun x t => { t with md := setFld t.md 384 64 (t.sel x.src) })

/-- R116, R143, R144, R281: the scratch, header, hash and learn operations; a store changes the eight bytes it names and no other. That an LDS
takes its value when its word issues, and that an LDH reads the frame as received, is the model's reading (log 50); scratch that nothing has
written reads 0 (log 47); a row is one operation (log 48). -/
def Obligations.MemoryRowsAccess : Prop :=
  MemRow .lds 0x01 (fun k x s => (s.th k).reg x.madr % 4096 + 8 * x.mimm.toNat ≤ 3064)
    (fun k x s t => (t.th k).pend = (s.th k).pend ++
      [⟨x.mdst, 1, .scratch (scratchLoad s k ((s.th k).reg x.madr % 4096 + 8 * x.mimm.toNat))⟩] ∧
      (t.th k).g = (s.th k).g ∧ t.sk.scratch = s.sk.scratch) ∧
  MemRow .sts 0x02 (fun k x s => (s.th k).reg x.madr % 4096 + 8 * x.mimm.toNat ≤ 3064)
    (fun k x s t =>
      let a := (s.th k).reg x.madr % 4096 + 8 * x.mimm.toNat
      scratchLoad t k a = (s.th k).reg x.msrc % 2 ^ 64 ∧
      (∀ b, (b < k * 3072 + a ∨ k * 3072 + a + 8 ≤ b) → tget 0 t.sk.scratch b = tget 0 s.sk.scratch b) ∧
      (t.th k).g = (s.th k).g) ∧
  MemRow .ldh 0x03 (fun k x s => (s.th k).reg x.madr + x.mimm.toNat ≤ 255)
    (fun k x s t => (t.th k).pend = (s.th k).pend ++ [⟨x.mdst, 1, .value [beNat (padTo 0 8
      (slice ((((s.th k).job.map (fun j => j.pkt.frame)).getD []).take (fld (s.th k).md 344 9))
        ((s.th k).reg x.madr + x.mimm.toNat) 8))]⟩] ∧ (t.th k).g = (s.th k).g) ∧
  MemRow .hash 0x04 (fun _ _ _ => True)
    (fun k x s t => (t.th k).pend = (s.th k).pend ++ [⟨x.mdst, 1, .value [crc32c
      (((List.range (x.mimm.toNat % 8 + 1)).map (fun i => leBytes 8 ((s.th k).reg (x.madr + i)))).flatten)]⟩] ∧
      (t.th k).g = (s.th k).g) ∧
  MemRow .learn 0x0E (fun k _ s => (s.th k).leap.learn = none)
    (fun k x s t => (t.th k).leap.learn = some ((s.th k).reg x.madr / 16) ∧ (t.th k).g = (s.th k).g) ∧
  ∀ (k : Fin 2048) (x : MemArgs) (s : State),
    (3064 < (s.th k).reg x.madr % 4096 + 8 * x.mimm.toNat →
      (ReadyFor s k (memWord 0x01 x) → exec (.lds k x) s = .next ((s.setTh k (s.th k)).trapRun k (s.th k).pc false)) ∧
      (ReadyFor s k (memWord 0x02 x) → exec (.sts k x) s = .next ((s.setTh k (s.th k)).trapRun k (s.th k).pc false))) ∧
    (255 < (s.th k).reg x.madr + x.mimm.toNat → ReadyFor s k (memWord 0x03 x) →
      exec (.ldh k x) s = .next ((s.setTh k (s.th k)).trapRun k (s.th k).pc false))

/-- R116, R143, R280 to R295: a table lookup goes on its way with its key registers, and with one result register, or two for LKNAT and
LKLPM6; OPERATION_RESULT delivers what the table holds then for the key (the moment is the model's reading, log 50, the layout of the keys of
NAT and LPM entries log 106; a row is one operation, log 48). -/
def Obligations.LookupRowsIssue : Prop :=
  (∀ r ∈ ([(.lkmac, 0x08, 1), (.lknat, 0x09, 2), (.lklpm4, 0x0A, 1), (.lklpm6, 0x0B, 2), (.lkmcg, 0x0C, 1), (.lkmbr, 0x0D, 1)] :
      List ((Fin 2048 → MemArgs → Instr) × Nat × Nat)),
    MemRow r.1 r.2.1 (fun _ _ _ => True)
      (fun k x s t => (t.th k).pend = (s.th k).pend ++
        [⟨x.mdst, r.2.2, .lookup r.2.1 x.mimm.toNat ((s.th k).reg x.madr) ((s.th k).reg (x.madr + 1))⟩] ∧
        (t.th k).g = (s.th k).g ∧ t.tbl = s.tbl)) ∧
  ∀ (k : Fin 2048) (i : Fin 8) (pos : Fin 9) (fsu : FsuEcc) (s : State) (p : Pend) (op mimm k0 k1 : Nat),
    (s.th k).pend[i.val]? = some p → p.kind = .lookup op mimm k0 k1 → s.tbl.bad = [] →
    ∃ t v w, exec (.operationResult k i .good pos fsu) s = .next t ∧ (t.th k).pend = (s.th k).pend.eraseIdx i ∧ t.tbl = s.tbl ∧
      (p.n = 1 → (t.th k).g = (s.th k).g.set p.reg v) ∧ (p.n = 2 → (t.th k).g = ((s.th k).g.set p.reg v).set (p.reg + 1) w) ∧
      (op = 0x08 → v = match s.macFind (k0 / 16) with
        | none => 0
        | some x =>
          let e := (tfind s.tbl.mac x).getD 0
          2 ^ 63 + b2n (macStatic e) * 2 ^ 62 + b2n (macPair e) * 2 ^ 61 + b2n (s.macHeld e s.macNow) * 2 ^ 60 +
            (s.macNow + 65536 - macSeen e) % 65536 * 2 ^ 32 + macPort e) ∧
      (op = 0x09 →
        let key := if fld k0 0 8 = 6 ∨ fld k0 0 8 = 7 then natMask k0 (s.rd Objs.npt6_len (fld k0 8 8)) else k0
        (v, w) = match s.natFind key with
          | none => (0, 0)
          | some x => (fld ((tfind s.tbl.nat x).getD 0) 0 64, 2 ^ 63)) ∧
      (op = 0x0A → v = match lpmFind s.tbl.lpm4 (fun n => lpm4Key (mimm % 16) n (cutPrefix 32 n (k0 % 2 ^ 32))) 32 with
        | none => 0
        | some (len, _, d) => 2 ^ 63 + len * 2 ^ 48 + fld d 0 48) ∧
      (op = 0x0B → (v, w) = match lpmFind s.tbl.lpm6 (fun n => lpm6Key (mimm % 16) n (cutPrefix 128 n (k0 * 2 ^ 64 + k1))) 128 with
        | none => (0, 0)
        | some (len, _, d) => (2 ^ 63 + len * 2 ^ 48 + fld d 0 48, 0)) ∧
      (op = 0x0C →
        let map := fld (tget 0 s.tbl.mcg (k0 % 65536)) 64 256
        v = b2n (map != 0) * 2 ^ 63 + b2n (bit map (fld (s.th k).md 32 8)) * 2 ^ 16 + popCount 256 map) ∧
      (op = 0x0D →
        let d := tget 0 s.tbl.mbrSet (fld k0 16 12)
        v = match mbrIndex s d k0 (bit mimm 0) with
          | none => 0
          | some x =>
            let m := tget 0 s.tbl.mbr (fld d 0 16 + x)
            2 ^ 63 + fld m 30 2 * 2 ^ 48 + x * 2 ^ 40 + fld m 8 16 * 2 ^ 24 + fld m 0 8)

/-- R174, R178 to R190: what the leap operations leave in the leap's buffer: a bound handle, a pending read, a buffered
operation, a waiting one on a locked record, and an abandoned leap. A row is one operation (the model's choice, log 48); what an operation on
an absent record reports is its reading (log 52), as is the moment at which one that waited is accepted (log 46). -/
def Obligations.LeapRowsBuffer : Prop :=
  MemRow .lbind 0x10 (fun k x s => (s.th k).job ≠ none ∧ (s.th k).leap.abandoned = false ∧ (s.th k).handle x.hnd = none)
    (fun k x s t => (t.th k).leap.used = true ∧ ∃ h, (t.th k).handle x.hnd = some h ∧
      h.key = (if bit x.mimm.toNat 9 then ((s.th k).job.map (fun j => j.pkt.key)).getD 0
        else leNat ((((List.range 6).map (fun i => leBytes 8 ((s.th k).reg (x.madr + i)))).flatten).take 47) +
          (x.mimm.toNat % 16) * 2 ^ 376)) ∧
  MemRow .lrd 0x11 (fun k x s => (s.th k).leap.abandoned = false ∧ handleRefuses (s.th k) x.hnd (x.seg.val == 3) = false)
    (fun k x s t => (t.th k).leap.used = true ∧
      (t.th k).pend = (s.th k).pend ++ [⟨x.mdst, 2, .lrd x.hnd x.seg (s.th k).leap.ops.length⟩]) ∧
  (∀ r ∈ ([(.lset, 0x12, .lset), (.ladd, 0x13, .ladd), (.lmax, 0x14, .lmax), (.lmin, 0x15, .lmin), (.lor, 0x16, .lor),
      (.lseq, 0x18, .lseq), (.ldup, 0x19, .ldup), (.ltok, 0x1A, .ltok)] : List ((Fin 2048 → MemArgs → Instr) × Nat × WKind)),
    MemRow r.1 r.2.1 (fun k x s => writeRefuses s (s.th k) ⟨r.2.2, x.hnd, x.seg, x.mimm.toNat, (s.th k).reg x.msrc⟩ = false)
      (fun k x s t => ∀ h, (s.th k).handle x.hnd = some h →
        (s.flowLocked h.key = false →
          (t.th k).leap.ops = (s.th k).leap.ops ++ [⟨r.2.2, x.hnd, x.seg, x.mimm.toNat, (s.th k).reg x.msrc⟩] ∧
          (t.th k).lockWait = none) ∧
        (s.flowLocked h.key = true → (t.th k).leap.ops = (s.th k).leap.ops ∧
          (t.th k).lockWait = some (⟨r.2.2, x.hnd, x.seg, x.mimm.toNat, (s.th k).reg x.msrc⟩, s.fNs)))) ∧
  MemRow .lins 0x1C (fun k x s => ∃ h, (s.th k).handle x.hnd = some h ∧ s.flowLocked h.key = false ∧ h.st = .found ∧
      writeRefuses s (s.th k) ⟨.lins, x.hnd, 3,
        (if bit x.mimm.toNat 4 then x.mimm.toNat % 16 else fld (s.th k).md 172 4), x.mdst⟩ = false)
    (fun k x s t => (t.th k).pend = (s.th k).pend ++ [⟨x.mdst, 1, .value [0x11]⟩]) ∧
  MemRow .lins 0x1C (fun k x s => ∃ h p, (s.th k).handle x.hnd = some h ∧ s.flowLocked h.key = false ∧ h.st = .absent ∧
      h.ins = none ∧ s.rd Objs.learn_mode (fld (s.th k).md 32 8) ≠ 1 ∧ s.bothVoid h.key = false ∧
      s.freePlace h.key = some p ∧ writeRefuses s (s.th k) ⟨.lins, x.hnd, 3,
        (if bit x.mimm.toNat 4 then x.mimm.toNat % 16 else fld (s.th k).md 172 4), x.mdst⟩ = false)
    (fun k x s t => (t.th k).pend = (s.th k).pend ++ [⟨x.mdst, 1, .value [0x10]⟩] ∧
      ∃ p, t.fsu.reserved = s.fsu.reserved ++ [p]) ∧
  MemRow .ldel 0x1D (fun k x s => ∃ h, (s.th k).handle x.hnd = some h ∧ s.flowLocked h.key = false ∧ h.st = .found ∧
      writeRefuses s (s.th k) ⟨.ldel, x.hnd, 3, 0, x.mdst⟩ = false)
    (fun k x s t => (t.th k).pend = (s.th k).pend ++ [⟨x.mdst, 1, .value [0x10]⟩] ∧
      ∃ h, (t.th k).handle x.hnd = some h ∧ h.dead = true ∧ h.del = true) ∧
  MemRow .labort 0x1F (fun k _ s => (s.th k).job ≠ none ∧ (s.th k).leap.abandoned = false)
    (fun k _ _ t => (t.th k).leap.abandoned = true ∧ (t.th k).leap.ops = [] ∧ (t.th k).leap.handles = [])

/-- R112, R146 to R150, R153: a thread starts at its dispatch entry, and the next-address field of a word moves it to the next
word, to a dispatch entry, to the commit, or ends its run. That a HALT drops results still pending is the model's choice (log 51), and that
these rows issue the stored word (log 48). -/
def Obligations.NextAddressMovesThread : Prop :=
  ∀ (k : Fin 2048) (s : State),
    ((s.th k).st = .loading → s.elapsed (s.th k).since 8 = true → s.dbg.haltPend.contains k.val = false →
      ∀ target, entryParOk (tget 0 (s.cs (clutchOf k)).disp (fld (s.th k).md 160 8)) = true →
        entryHalf (tget 0 (s.cs (clutchOf k)).disp (fld (s.th k).md 160 8)) (fld (s.th k).md 48 16) = (true, target) →
        ∃ t, exec (.contextLoaded k .good) s = .next t ∧ (t.th k).st = .running ∧ (t.th k).pc = target) ∧
    (Issues s k 0 → (issued s k).1 = false → (s.th k).pc ≠ 0x3FFF →
      ∃ t, exec (.seq k .good) s = .next t ∧ (t.th k).pc = (s.th k).pc + 1) ∧
    (Issues s k 1 → (issued s k).1 = false →
      ∀ e target, e = 256 * mwDb (tget 0 (s.cs (clutchOf k)).words (s.th k).pc) +
          dispIndex (s.th k) ((issued s k).2.th k) (tget 0 (s.cs (clutchOf k)).words (s.th k).pc) →
        entryParOk (tget 0 (s.cs (clutchOf k)).disp e) = true →
        entryHalf (tget 0 (s.cs (clutchOf k)).disp e) (fld ((issued s k).2.th k).md 48 16) = (true, target) →
        ∃ t, exec (.disp k .good) s = .next t ∧ (t.th k).pc = target) ∧
    (Issues s k 2 → (issued s k).1 = false → ((issued s k).2.th k).job ≠ none → ((issued s k).2.th k).leap.used = true →
      ((issued s k).2.th k).leap.abandoned = false →
      ∃ t, exec (.halt k .good) s = .next t ∧ (t.th k).st = .committing ∧ (t.th k).inCommit = true ∧ (t.th k).pend = []) ∧
    (Issues s k 3 → (issued s k).1 = false → ((issued s k).2.th k).job ≠ none →
      ∃ t, exec (.trap k .good) s = .next t ∧
        t.rd Objs.ucode_trap_addr = clutchOf k * 2 ^ 16 + (s.th k).pc ∧ ∃ e ∈ t.fm.raised, e.src = 83 ∧ e.unit = k)

/-- R112, R116, R169, R170, R178 to R180, R184, R186, R188 to R190, R192, R194, R204: results return; a leap commits with its operations on its
record, an insert or a deletion, or aborts, its status frees or replays the thread, and the limits of the commit unit and of a lock run out. A
leap whose reserved place a lock has closed and that finds no other waits (the model's choice, log 46); binds without an answer are not
validated (log 51), and results take their values when they are delivered (log 50). -/
def Obligations.CommitUnitDecides : Prop :=
  ∀ (k : Fin 2048) (s : State),
    (∀ (i : Fin 8) (p : Pend) (v : Nat) (w : WordEcc) (pos : Fin 9) (f : FsuEcc), (s.th k).pend[i.val]? = some p → p.kind = .value [v] → p.n = 1 →
      ∃ t, exec (.operationResult k i w pos f) s = .next t ∧ (t.th k).pend = (s.th k).pend.eraseIdx i ∧
        (t.th k).g = (s.th k).g.set p.reg (v % 2 ^ 64)) ∧
    (∀ (i : Fin 8) (p : Pend) (v : Nat) (w : WordEcc) (pos : Fin 9) (f : FsuEcc), (s.th k).pend[i.val]? = some p → p.kind = .scratch v → p.n = 1 →
      w ≠ .uncorrected →
      ∃ t, exec (.operationResult k i w pos f) s = .next t ∧ (t.th k).pend = (s.th k).pend.eraseIdx i ∧
        (t.th k).g = (s.th k).g.set p.reg (v % 2 ^ 64)) ∧
    (∀ (i : Fin 8) (p : Pend) (w : WordEcc) (pos : Fin 9) (hnd seg ops : Nat) (h : Handle), (s.th k).pend[i.val]? = some p →
      p.kind = .lrd hnd seg ops → p.n = 2 → (s.th k).handle hnd = some h →
      let full := s.ownOps (s.th k) h seg ops (s.readSeg (s.th k).md h seg).1
      ∃ t, exec (.operationResult k i w pos .good) s = .next t ∧ (t.th k).pend = (s.th k).pend.eraseIdx i ∧
        (t.th k).g = ((s.th k).g.set p.reg (fld full 0 64)).set (p.reg + 1) (fld full 64 64) ∧
        (t.th k).leap.reads = (s.th k).leap.reads ++ ((s.readSeg (s.th k).md h seg).2.map (fun n => ⟨h.key, seg, n⟩)).toList) ∧
    (∀ j, (s.th k).job = some j → (s.th k).inCommit = true → (s.th k).status = none → leapWaits s j.lsn = (false, false) →
      (staleRead s (s.th k).leap = none → (reseatAll (s.th k) s).isSome = true →
        ∃ t, exec (.leapCommit k .good) s = .next t ∧ (t.th k).status = some 0 ∧
          t.rd Objs.leap_committed = satAdd 64 (s.rd Objs.leap_committed) 1 ∧ ∀ c ∈ t.cu.claims, c.1 ≠ j.lsn) ∧
      (staleRead s (s.th k).leap = none → reseatAll (s.th k) s = none → exec (.leapCommit k .good) s = .next s) ∧
      (∀ n h l, staleRead s (s.th k).leap = none → (s.th k).leap.handles = [(n, h)] → s.line h.key = some l →
        (∀ p, h.ins = some p → s.slotLocked p.2 = false) →
        (l.st ≠ .absent → h.ins = none →
          (∀ o ∈ (s.th k).leap.ops, o.hnd = n ∧ 4 ≤ o.seg ∧ o.seg < 8 ∧ o.kind ≠ .lins ∧ o.kind ≠ .ldel) →
          ∃ t m, exec (.leapCommit k .good) s = .next t ∧ t.line h.key = some m ∧ m.commits = l.commits + 1 ∧
            m.lastLsn = some j.lsn ∧ ((s.th k).leap.ops ≠ [] → m.st = .dirty) ∧
            (∀ g, 4 ≤ g → g < 8 → segOf m.img g = ((s.th k).leap.ops.filter (fun o => o.seg == g)).foldl
                (fun v o => (applySeg ((s.tmplOf (s.th k).md (recTmpl l.img)).getD 0) (s.th k).md (recSeen l.img) o v).1 % 2 ^ 128)
                (segOf l.img g) ∧
              m.vers.getD g 0 = if (s.th k).leap.ops.any (fun o => o.seg == g) then (l.vers.getD g 0 + 1) % 256 else l.vers.getD g 0) ∧
            (h.st = .found → later 32 (seenUnits (inLin (s.th k).md)) (recSeen l.img) = true →
              recSeen m.img = seenUnits (inLin (s.th k).md))) ∧
        (l.st = .absent → ∀ tmpl place o, h.ins = some (tmpl, place) → (s.th k).leap.ops = [o] → o.hnd = n → o.kind = .lins →
          ∃ t m, exec (.leapCommit k .good) s = .next t ∧ t.line h.key = some m ∧ m.st = .dirty ∧ m.home = place ∧
            m.img = s.newRecord h.key tmpl place (s.th k).md ∧ m.gen = (l.gen + 1) % 256 ∧
            t.rd Objs.inserts = satAdd 64 (s.rd Objs.inserts) 1 ∧ ∀ x ∈ t.fsu.reserved, x ≠ place) ∧
        (l.st ≠ .absent → ∀ o, h.ins = none → h.del = true → (s.th k).leap.ops = [o] → o.hnd = n → o.kind = .ldel →
          ∃ t, exec (.leapCommit k .good) s = .next t ∧ (∀ m, t.line h.key = some m → m.st = .absent) ∧
            t.rd Objs.deletes = satAdd 64 (s.rd Objs.deletes) 1)) ∧
      (∀ key, staleRead s (s.th k).leap = some key →
        ∃ t, exec (.leapCommit k .good) s = .next t ∧ (t.th k).status = some 1 ∧
          t.rd Objs.leap_abort_conflict = satAdd 64 (s.rd Objs.leap_abort_conflict) 1 ∧ ∃ e ∈ t.fm.raised, e.src = 96)) ∧
    (∀ j, (s.th k).job = some j → (s.th k).status = some 1 →
      ∃ t, exec (.leapStatusDelivered k) s = .next t ∧ (t.th k).st = .loading ∧ (t.th k).md = replayed j.pkt.md) ∧
    (∀ j, (s.th k).job = some j → (s.th k).status = some 0 → (s.th k).bound = none →
      ∃ t, exec (.leapStatusDelivered k) s = .next t ∧ (t.th k).st = .free ∧ (t.th k).job = none) ∧
    ((s.th k).inCommit = true → (s.th k).status = none → (s.th k).waitRaised = false →
      s.elapsed (s.th k).halted (s.rd Objs.leap_wait_limit) = true →
      ∃ t, exec (.leapWaitLimit k) s = .next t ∧ (t.th k).waitRaised = true ∧ Raised 101 0 s t) ∧
    (∀ o since j h, (s.th k).lockWait = some (o, since) → (s.th k).job = some j → (s.th k).handle o.hnd = some h →
      s.flowLocked h.key = true → s.elapsed since (s.rd Objs.lock_timeout) = true →
      ∃ t, exec (.lockWaitTimeout k) s = .next t ∧
        (s.rd Objs.lock_break = 0 → t.rd Objs.leap_lock_timeout = satAdd 64 (s.rd Objs.leap_lock_timeout) 1 ∧
          ∃ e ∈ t.fm.raised, e.src = 98 ∧ e.unit = k) ∧
        (s.rd Objs.lock_break = 1 → (t.th k).lockWait = none ∧ t.flowLocked h.key = false ∧ ∃ e ∈ t.fm.raised, e.src = 97))

/-- R118 to R120, R125, R171, R173: spray gives a packet its LSN, its reorder entry and its thread; the reorder stage
releases, discards or skips its head entry; and what a stall and a timeout raise. The order of the causes of a stall is the model's reading
(log 54), as is where a released packet goes with its copies (log 99). -/
def Obligations.SprayAndReorder : Prop :=
  ∀ (p : Fin 4) (s : State),
    (∀ (h : JoinItem) (rest : List JoinItem) (k : Nat), tget [] s.sk.replay p = [] → tget [] s.sk.join p = h :: rest →
      h.released = true → (s.ring p).length < 2048 → s.claimRoom = true → s.pipeThreads p < s.rd Objs.spray_pipe_quota →
      s.sfFind (fld h.pkt.md 176 32, fld h.pkt.md 208 32) = none → s.pickThread (fld h.pkt.md 48 16) none = some k →
      ∃ t j e, exec (.spray p) s = .next t ∧ tget [] t.sk.join p = rest ∧ t.ring p = s.ring p ++ [e] ∧
        e.pid = h.pkt.pid ∧ e.done = none ∧ (t.th k).st = .loading ∧ (t.th k).job = some j ∧ j.pkt = h.pkt ∧
        j.lsn = s.cu.lsnNext ∧ t.cu.lsnNext = (s.cu.lsnNext + 1) % 2 ^ 48 ∧ s.cu.lsnNext ∈ t.cu.reserved) ∧
    (∀ since b, tfind s.sk.stall p = some (since, false, b) → s.elapsed since 1001 = true →
      ∃ t, exec (.sprayStallTimeout p) s = .next t ∧ Raised 66 p s t ∧ tfind t.sk.stall p = some (since, true, b)) ∧
    (∀ (e : REntry) (rest : List REntry) (k : Packet), s.ring p = e :: rest → e.done = some k → e.drop = true →
      ∃ t, exec (.reorderRelease p .good .none) s = .next t ∧ t.ring p = rest ∧ t.tm.items = s.tm.items ∧
        t.rd Objs.prog_drop p = satAdd 64 (s.rd Objs.prog_drop p) 1) ∧
    (∀ (e : REntry) (rest : List REntry) (k : Packet), s.ring p = e :: rest → e.done = some k → e.drop = false →
      bit k.md 42 = false → bit k.md 43 = false →
      ∃ t, exec (.reorderRelease p .good .none) s = .next t ∧ t.ring p = rest ∧ t.tm.items = s.tm.items ++ [itemOf k k.md] ∧
        t.rd Objs.reorder_released p = satAdd 64 (s.rd Objs.reorder_released p) 1) ∧
    (∀ (e : REntry) (rest : List REntry), s.ring p = e :: rest → e.done = none → s.elapsed e.alloc e.timeout = true →
      ∃ t, exec (.reorderTimeout p) s = .next t ∧ t.ring p = rest ∧ Raised 64 p s t ∧
        t.rd Objs.reorder_timeout_count p = satAdd 64 (s.rd Objs.reorder_timeout_count p) 1)

/-- R121, R122, R126, R132, R133, R200: the objects of spray and reorder: single-file entries, with the binding of a new one and its refusal, the
timeout and the high-water mark; a late packet is discarded when its thread becomes FREE. An entry that ends returns its queue to spray, and
others that must move try again (the model's reading, log 54). -/
def Obligations.SteeringObjects : Prop :=
  ∀ (c : Ctx) (v : List Byte) (s : State),
    (∀ e, Accepted c Objs.sf_entry 0 v (sfCheck c) s → bit (leNat v) 127 = true →
      tfind s.sk.sf (s.rdCtx c Objs.sf_select) = some e →
      ∃ t, exec (.sfEntryWrite c v) s = .next t ∧ Answered c Objs.sf_entry 0 .ok t ∧
        tfind t.sk.sf (s.rdCtx c Objs.sf_select) =
          some { e with h1 := fld (leNat v) 0 32, h2 := fld (leNat v) 32 32, pinned := bit (leNat v) 126 }) ∧
    (∀ n, Accepted c Objs.sf_entry 0 v (sfCheck c) s → bit (leNat v) 127 = true →
      tfind s.sk.sf (s.rdCtx c Objs.sf_select) = none → s.sfSkink s.hueActive = some n →
      ∃ t e, exec (.sfEntryWrite c v) s = .next t ∧ Answered c Objs.sf_entry 0 .ok t ∧
        tfind t.sk.sf (s.rdCtx c Objs.sf_select) = some e ∧ e.thread = 8 * n + 7 ∧ e.queue = [] ∧ e.h1 = fld (leNat v) 0 32 ∧
        e.h2 = fld (leNat v) 32 32 ∧ e.pinned = bit (leNat v) 126 ∧
        (t.th (8 * n + 7)).bound = some (s.rdCtx c Objs.sf_select)) ∧
    (s.pathServed c = true → judgeWrite c Objs.sf_entry 0 v (sfCheck c) s = .state → s.itemNarrowed Objs.sf_entry true = false →
      ∃ t, exec (.sfEntryWrite c v) s = .next t ∧ Answered c Objs.sf_entry 0 .state t ∧ Raised 70 0 s t ∧ t.sk = s.sk) ∧
    (Accepted c Objs.sf_entry 0 v (sfCheck c) s → bit (leNat v) 127 = false →
      ∃ t, exec (.sfEntryWrite c v) s = .next t ∧ Answered c Objs.sf_entry 0 .ok t ∧
        tfind t.sk.sf (s.rdCtx c Objs.sf_select) = none ∧
        sfImage t (s.rdCtx c Objs.sf_select) = b2n (bit (leNat v) 126) * 2 ^ 126 + fld (leNat v) 0 64) ∧
    (∀ (i : Fin 256) (e : SfEntry), tfind s.sk.sf i = some e → e.pinned = false → e.queue = [] → (s.th e.thread).st = .free →
      s.elapsed e.idleSince (s.rd Objs.sf_idle) = true →
      ∃ t, exec (.sfIdleExpiry i) s = .next t ∧ tfind t.sk.sf i = none ∧
        ((∀ x ∈ s.sk.sf, s.sfMustMove x.2 = false) → (t.th e.thread).bound = none ∧
          ∀ j, j ≠ i.val → tfind t.sk.sf j = tfind s.sk.sf j)) ∧
    (∀ (k : Fin 2048) (j : Job), (s.th k).job = some j → (s.th k).status = some 0 → (s.th k).bound = none → j.late = true →
      ∃ t, exec (.leapStatusDelivered k) s = .next t ∧ (t.th k).st = .free ∧
        t.rd Objs.reorder_late_drop j.pipe = satAdd 64 (s.rd Objs.reorder_late_drop j.pipe) 1 ∧
        ∃ e ∈ t.fm.raised, e.src = 65 ∧ e.unit = j.pipe) ∧
    (Accepted c Objs.reorder_timeout 0 v noCheck s →
      ∃ t, exec (.reorderTimeoutWrite c v) s = .next t ∧ Answered c Objs.reorder_timeout 0 .ok t ∧
        t.rd Objs.reorder_timeout = leNat v ∧ t.sk = s.sk) ∧
    (∀ p : Fin 4, s.pathServed c = true → judgeRead c Objs.reorder_high_water (fun _ => .ok) s = .ok →
      ∃ t, exec (.reorderHighWaterRead c p) s = .next t ∧ t.rd Objs.reorder_high_water p = 0 ∧
        t.outbox = s.outbox ++ [.answer c (Objs.reorder_high_water.key p / 256) (Objs.reorder_high_water.key p % 256) 0
          (leBytes Objs.reorder_high_water.ty.size (s.rd Objs.reorder_high_water p))])

/-- R104, R105, R129, R130, R131, R328, R409, R410, R517, R518: a unit is drained, returned, isolated and regrown by the object
of its chapter; a regrowth that needs a spare lane the stack has not got fails (the model's reading, log 70), and its run ends with it
(log 74). The states of clutches and Skinks at the edges are those of log 55, the refusals those of log 77. -/
def Obligations.UnitsAreIsolatedAndRegrown : Prop :=
  ∀ (c : Ctx) (v : List Byte) (s : State),
    (Accepted c Objs.clutch_drain 0 v drainRefused s →
      ∃ t, exec (.clutchDrain c v) s = .next t ∧ Answered c Objs.clutch_drain 0 .ok t ∧
        (t.rd Objs.clutch_state (leNat v) = 1 ∨ t.rd Objs.clutch_state (leNat v) = 2)) ∧
    (Accepted c Objs.clutch_return 0 v returnRefused s →
      ∃ t, exec (.clutchReturn c v) s = .next t ∧ Answered c Objs.clutch_return 0 .ok t ∧
        t.rd Objs.clutch_state (leNat v) = 0 ∧ Raised 72 (leNat v) s t) ∧
    (Accepted c Objs.skink_isolate 0 v noCheck s → bit (s.rd Objs.skinks_in_service) (leNat v) = true →
      ∃ t, exec (.skinkIsolate c v) s = .next t ∧ Answered c Objs.skink_isolate 0 .ok t ∧
        bit (t.rd Objs.skinks_in_service) (leNat v) = false ∧ ∃ e ∈ t.fm.raised, e.src = 74 ∧ e.unit = leNat v) ∧
    (Accepted c Objs.skink_regrow 0 v skinkRegrowCheck s →
      ∃ t, exec (.skinkRegrow c v) s = .next t ∧ Answered c Objs.skink_regrow 0 .ok t ∧ t.regrowsNow 5 (leNat v) = true) ∧
    (Accepted c Objs.pat_engine_isolate 0 v noCheck s → s.engineIn (leNat v) = true →
      ∃ t, exec (.patEngineIsolate c v) s = .next t ∧ Answered c Objs.pat_engine_isolate 0 .ok t ∧
        t.engineIn (leNat v) = false ∧ ∃ e ∈ t.fm.raised, e.src = 54 ∧ e.unit = leNat v) ∧
    (Accepted c Objs.pat_engine_regrow 0 v patRegrowCheck s →
      ∃ t, exec (.patEngineRegrow c v) s = .next t ∧ Answered c Objs.pat_engine_regrow 0 .ok t ∧ t.regrowsNow 7 (leNat v) = true) ∧
    (Accepted c Objs.middle_isolate 0 v noCheck s → s.middleIn (leNat v) = true →
      ∃ t, exec (.middleIsolate c v) s = .next t ∧ Answered c Objs.middle_isolate 0 .ok t ∧
        t.middleIn (leNat v) = false ∧ ∃ e ∈ t.fm.raised, e.src = 128 ∧ e.unit = leNat v) ∧
    (Accepted c Objs.middle_regrow 0 v middleRegrowCheck s →
      ∃ t, exec (.middleRegrow c v) s = .next t ∧ Answered c Objs.middle_regrow 0 .ok t ∧ t.regrowsNow 10 (leNat v) = true) ∧
    (Accepted c Objs.hbm_retire 0 v hbmRetireCheck s →
      ∃ t, exec (.hbmRetire c v) s = .next t ∧ Answered c Objs.hbm_retire 0 .ok t ∧ t.pcState (leNat v) = 4 ∧
        ∃ e ∈ t.fm.raised, e.src = 168 ∧ e.unit = leNat v) ∧
    (Accepted c Objs.hbm_regrow 0 v (fun p s => hbmCmdCheck p 4 s) s →
      ∃ t, exec (.hbmRegrow c v) s = .next t ∧ Answered c Objs.hbm_regrow 0 .ok t ∧ t.pcState (leNat v) = 5 ∧
        t.regrowsNow 8 (leNat v) = true) ∧
    (∀ k u, Accepted c Objs.fm_isolate 0 v fmIsolateCheck s → fmUnit (leNat v) = some (k, u) →
      (k = 8 → s.pcState u = 1 ∨ s.pcState u = 2) →
      ∃ t, exec (.fmIsolate c v) s = .next t ∧ Answered c Objs.fm_isolate 0 .ok t ∧ t.isolated k u = true) ∧
    (∀ k u, Accepted c Objs.fm_regrow 0 v fmRegrowCheck s → fmUnit (leNat v) = some (k, u) →
      ∃ t, exec (.fmRegrow c v) s = .next t ∧ Answered c Objs.fm_regrow 0 .ok t ∧ t.regrowsNow k u = true) ∧
    (∀ (k : Fin 17) (u : Fin 256), s.fm.regrowing.contains (k.val, u.val) = true →
      ∀ n, (s.canRegrow k u n = true → ∃ t, exec (.unitRegrowthDone k u true n) s = .next t ∧ (k.val, u.val) ∈ t.fm.passed ∧
          (k.val, u.val) ∉ t.fm.regrowing) ∧
        (s.canRegrow k u n = false → exec (.unitRegrowthDone k u true n) s = exec (.unitRegrowthDone k u false n) s) ∧
        ∃ t, exec (.unitRegrowthDone k u false n) s = .next t ∧ (k.val, u.val) ∉ t.fm.regrowing ∧
          ∃ e ∈ t.fm.raised, (e.src = 76 ∨ e.src = 54 ∨ e.src = 165) ∧ e.unit = u.val)

/-- R506, R507, R510, R514, R515, R604: an occurrence is taken: it counts and stamps its source; a C3 source puts the device into the safe
state with CROAK_N asserted; a source of a lower class creates a logged record, which is open until its handling has ended. That one command
takes one source (log 75), and closes records before that (log 76), is the model's choice. -/
def Obligations.OccurrenceIsTaken : Prop :=
  ∀ (o : Occ) (s : State), s.fm.raised = [o] → s.rd Objs.fm_autotomy_enable = 0 → o.src ≠ 82 →
    ∃ t, exec (.eventOccurrence .none) s = .next t ∧
      t.rd Objs.ev_count o.src = satAdd (8 * Objs.ev_count.ty.size) (s.rd Objs.ev_count o.src) 1 ∧
      t.rd Objs.ev_last_time o.src = o.wtime ∧
      (s.fm.safe = false → evBaseClass o.src = 3 → t.fm.safe = true ∧ t.rd Objs.power_state = 5 ∧ t.fm.croak = .pulse ∧
        t.fm.croakRunning = true ∧ bit t.fm.summary 3 = true) ∧
      (s.fm.safe = false → s.fm.recs = [] → evBaseClass o.src ≤ 2 → s.rd Objs.ev_escalated o.src = 0 →
        s.rd Objs.ev_esc_n o.src = 0 → bit (s.rd Objs.ev_reaction o.src) 0 = true →
        ∃ r ∈ t.fm.recs, r.src = o.src ∧ r.unit = o.unit ∧ r.utype = o.utype ∧ r.logged = true ∧ r.isOpen = true ∧
          r.seq = s.rd Objs.fm_log_next_seq ∧ r.cls = evBaseClass o.src)

/-- R505, R507, R510, R512, R513, R514: the fault manager's objects, the limit of an open record, and CROAK_N's timer, whose clock is the Eft's
(log 79). -/
def Obligations.FaultManagerObjects : Prop :=
  ∀ (c : Ctx) (v : List Byte) (s : State),
    (∀ src : Fin 250, Accepted c Objs.ev_clear src v noCheck s →
      ∃ t, exec (.evClear c src v) s = .next t ∧ Answered c Objs.ev_clear src .ok t ∧ t.rd Objs.ev_escalated src = 0 ∧
        tfind t.fm.windows src = none ∧ ∀ j, j ≠ src.val → tfind t.fm.windows j = tfind s.fm.windows j) ∧
    (∀ (src : Fin 250) (k : Fin 4), Accepted c (evObj k) src v (evCheck src k) s →
      ∃ t, exec (.evConfigWrite c src k v) s = .next t ∧ Answered c (evObj k) src .ok t ∧ t.rd (evObj k) src = leNat v) ∧
    (Accepted c Objs.fm_log_ack 0 v noCheck s →
      ∃ t, exec (.fmLogAck c v) s = .next t ∧ Answered c Objs.fm_log_ack 0 .ok t ∧
        ∀ r ∈ t.fm.recs, 0 ≤ wrapDiff 32 (leNat v) r.seq → r.acked = true) ∧
    (Accepted c Objs.fm_summary_clear 0 v noCheck s →
      ∃ t, exec (.fmSummaryClear c v) s = .next t ∧ Answered c Objs.fm_summary_clear 0 .ok t ∧ t.fm.summary = 0 ∧
        t.fm.recs = s.fm.recs) ∧
    (Accepted c Objs.fm_first_clear 0 v noCheck s →
      ∃ t, exec (.fmFirstClear c v) s = .next t ∧ Answered c Objs.fm_first_clear 0 .ok t ∧ t.fm.firstHeld = false ∧
        t.rd Objs.fm_first_fault = 0) ∧
    (∀ (q : BitVec 32) (r : EvRec), s.recOf q.toNat = some r → r.isOpen = true → r.cls < 3 →
      s.elapsed r.born (s.rd Objs.fm_open_limit * 1000000) = true →
      ∃ t, exec (.recordOpenLimit q) s = .next t ∧ ∀ x ∈ t.fm.recs, x.seq = q.toNat → x.isOpen = false) ∧
    (s.fm.croakRunning = true → s.eftElapsed s.fm.croakStart (s.rd Objs.croak_min_width) = true → s.fm.croak = .pulse →
      ∃ t, exec .croakTimerExpiry s = .next t ∧ t.fm.croakRunning = false ∧
        (s.fm.releasePending = false → t.fm.croak = .held ∧ t.rd Objs.croak_level = 1) ∧
        (s.fm.releasePending = true → t.fm.croak = .released ∧ t.rd Objs.croak_level = 0)) ∧
    (Accepted c Objs.croak_level 0 v croakCheck s →
      ∃ t, exec (.croakLevelWrite c v) s = .next t ∧ Answered c Objs.croak_level 0 .ok t ∧
        (s.fm.croak = .held → leNat v = 0 → t.fm.croak = .released ∧ t.rd Objs.croak_level = 0) ∧
        (s.fm.croak = .released → leNat v = 1 → t.fm.croak = .held ∧ t.rd Objs.croak_level = 1) ∧
        (s.fm.croak = .pulse → leNat v = 0 → t.fm.releasePending = true ∧ t.fm.croak = .pulse))

/-- R421 to R423, R434, R435, R439: the doorbells and control registers of the rings: an index that is in range is taken, one that
goes back is ignored and counted, one that is out of range halts the function. The model's choices: the bases and write-back addresses
are taken with the write of CTRL, and registers written beside it come with it (PRESUMED, log 71); the FLAGS of the entries that a stop
leaves come with the stop (log 112); the units of EV216 are those of log 72. -/
def Obligations.RingRegisters : Prop :=
  ∀ (r : Fin 64) (d : BitVec 32) (s : State), s.hostHalted = false →
    ((s.cr r).st = .running → 0 ≤ wrapDiff 32 d.toNat (s.cr r).p →
      (d.toNat + 2 ^ 32 - (s.cr r).h) % 2 ^ 32 ≤ ringSize (s.cr r).ctrl →
      ∃ t, exec (.crDoorbell r d) s = .next t ∧ (t.cr r).p = d.toNat ∧ t = s.setCr r { s.cr r with p := d.toNat }) ∧
    ((s.cr r).st = .running → 0 ≤ wrapDiff 32 d.toNat (s.cr r).p →
      ringSize (s.cr r).ctrl < (d.toNat + 2 ^ 32 - (s.cr r).h) % 2 ^ 32 →
      ∃ t, exec (.crDoorbell r d) s = .next t ∧ t.rd Objs.hi_state = 1 ∧ t.rd Objs.hi_halt_cause = 1 ∧
        t.rd Objs.hi_halt_ring = r ∧ t.host.items = []) ∧
    ((s.cr r).st = .running → wrapDiff 32 d.toNat (s.cr r).p < 0 →
      ∃ t, exec (.crDoorbell r d) s = .next t ∧ t.host = s.host ∧ Raised 216 r s t) ∧
    ((s.dr r).running = true → 0 ≤ wrapDiff 32 d.toNat (s.dr r).h → wrapDiff 32 d.toNat (s.dr r).p ≤ 0 →
      ∃ t, exec (.drDoorbell r d) s = .next t ∧ t = s.setDr r { s.dr r with h := d.toNat }) ∧
    ((s.dr r).running = true → 0 ≤ wrapDiff 32 d.toNat (s.dr r).pb →
      (d.toNat + 2 ^ 32 - (s.dr r).p) % 2 ^ 32 ≤ bufSize (s.dr r).ctrl →
      ∃ t, exec (.brDoorbell r d) s = .next t ∧ t = s.setDr r { s.dr r with pb := d.toNat }) ∧
    (∀ (base wb : BitVec 64) (v : BitVec 32) (posted : List (BitVec 8)) (regs : List HostReg), (s.cr r).st = .disabled → bit v.toNat 0 = true → log2Ok (fld v.toNat 8 5) = true →
      base.toNat % 4096 = 0 → wb.toNat % 8 = 0 →
      ∃ t, exec (.crCtrlWrite r base wb v posted regs) s = .next t ∧ (t.cr r).st = .running ∧ (t.cr r).h = 0 ∧ (t.cr r).p = 0 ∧
        (t.cr r).base = base.toNat ∧ (t.cr r).wb = wb.toNat) ∧
    (∀ posted : List (BitVec 8), (s.cr r).st = .running → bit (s.cr r).ctrl 1 = true → (s.cr r).busy = none →
      (s.cr r).h = (s.cr r).p →
      ∃ t, exec (.crStop r posted) s = .next t ∧ (t.cr r).st = .disabled ∧
        Output.hostWrite (s.cr r).wb (leBytes 4 (s.cr r).p) ∈ t.outbox ∧ t.heldLocks (.ring r) = 0) ∧
    (∀ (g : DelRegs) (v : BitVec 32), (s.dr r).running = false → bit v.toNat 0 = true → log2Ok (fld v.toNat 8 5) = true →
      log2Ok (fld v.toNat 3 5) = true → g.base.toNat % 4096 = 0 → g.wb.toNat % 8 = 0 → g.brBase.toNat % 4096 = 0 →
      ∃ t, exec (.drCtrlWrite r g v) s = .next t ∧ (t.dr r).running = true ∧ (t.dr r).h = 0 ∧ (t.dr r).p = 0 ∧
        (t.dr r).pb = 0 ∧ (t.dr r).base = g.base.toNat)

/-- R427, R429, R433: an entry that a check refuses completes with the code of the first check that fails, RESULT 0 and
EV209, whatever its opcode would do, and changes nothing beside the rings, the dictionary's counters, the events and the outputs; an opcode
that is not in the table completes with 0x8001 (BAD_OPCODE). An entry whose ring cannot start it leaves the state as it is (log 2).
Which code some of the checks give is log 73; that a port whose link is DISABLED makes a BAD_TARGET is log 73's reading of R427. -/
def Obligations.RefusedEntriesComplete : Prop :=
  ∀ (r : Fin 64) (e : BitVec 256) (buf : List Byte) (words : List WordEcc) (dma : Dma) (s : State),
    let o := entOp e.toNat
    let f := entFlags e.toNat
    let rows : List (Instr × List Byte × Dma × Bool) :=
      [(.cmdNop r e, [], .good, o == 0x00), (.pktInject r e buf dma, buf, dma, o == 0x01),
        (.tblDmaRead r e buf words dma, buf, dma, o == 0x10),
        (.tblDmaWrite r e buf dma, buf, dma, o == 0x11 && !bit f 1 && !bit f 2), (.tblDmaInsert r e buf dma, buf, dma, o == 0x11 && bit f 1),
        (.tblDmaDelete r e buf dma, buf, dma, o == 0x11 && !bit f 1 && bit f 2), (.tblLock r e buf dma, buf, dma, o == 0x12),
        (.tblUnlock r e buf dma, buf, dma, o == 0x13), (.tblSearch r e buf dma, buf, dma, o == 0x14),
        (.tblNext r e dma, [], dma, o == 0x15), (.tblFlushPort r e, [], .good, o == 0x16), (.tblFlushTemplate r e, [], .good, o == 0x17),
        (.hueStage r e buf dma, buf, dma, o == 0x20), (.csLoad (.ring r e buf dma), buf, dma, o == 0x21)]
    ∀ row ∈ rows,
      (canStart s r = false → exec row.1 s = .next s) ∧
      (∀ code, canStart s r = true → cmdCheck s e.toNat row.2.1 row.2.2.1 = some code → row.2.2.2 = true ∨ opFlags o = none →
        ∃ t, exec row.1 s = .next t ∧ Completes r code 0 s t ∧ (∃ x ∈ t.fm.raised, x.src = 209 ∧ x.unit = r) ∧
          (opFlags o = none → code = 0x8001) ∧
          t = { s with host := t.host, dict := t.dict, fm := t.fm, outbox := t.outbox })

/-- R424 to R433, R237 to R243, R297: what each opcode of a command ring does when its checks pass and its buffer can be
accessed. The model's choices: what a lookup of software counts and that a command is served at one moment (log 42), the statuses
of entries at the edges (log 41), a waiting insert (log 103), the bytes from 196 on of an iteration that finds no record and the bytes
of a keyed buffer (log 73), the frame that is injected (log 74), the staging until the next tick of the clock (log 67), and how a ring
ends (log 112). -/
def Obligations.RingEntriesExecute : Prop :=
  ∀ (r : Fin 64) (en : BitVec 256) (buf : List Byte) (words : List WordEcc) (s : State),
    (Starts s r en.toNat 0x00 [] .good → ∃ t, exec (.cmdNop r en) s = .next t ∧ Completes r 1 0 s t) ∧
    (Starts s r en.toNat 0x01 buf .good → bit (entFlags en.toNat) 4 = true →
      ∃ t it, exec (.pktInject r en buf .good) s = .next t ∧ WaitsFor r en.toNat .inject t ∧
        t.tm.items = s.tm.items ++ [it] ∧ it.body = padTo 0 (entLen en.toNat) buf ∧ it.inject = some r.val) ∧
    (Starts s r en.toNat 0x01 buf .good → bit (entFlags en.toNat) 4 = false →
      ∃ t k, exec (.pktInject r en buf .good) s = .next t ∧ WaitsFor r en.toNat .inject t ∧
        tget [] t.ports.inq (pipeOf (fld (entParam en.toNat) 0 8)) =
          tget [] s.ports.inq (pipeOf (fld (entParam en.toNat) 0 8)) ++ [k] ∧ k.inject = some r.val) ∧
    (∀ k n data u, Starts s r en.toNat 0x10 buf .good →
      readItems (entTarget en.toNat) (entIndex en.toNat) buf words (entCount en.toNat) 0 (s.serving r) = (k, n, data, u) →
      ∃ t, exec (.tblDmaRead r en buf words .good) s = .next t ∧ Completes r k n s t ∧ t.tbl = u.tbl ∧ t.fsu = u.fsu ∧
        (data ≠ [] → Output.hostWrite (entAddr en.toNat + itemBase (entTarget en.toNat)) data ∈ t.outbox)) ∧
    (∀ k n u, Starts s r en.toNat 0x11 buf .good → bit (entFlags en.toNat) 1 = false → bit (entFlags en.toNat) 2 = false →
      writeItems (entTarget en.toNat) (entIndex en.toNat) buf (.ring r) (entLen en.toNat) (entCount en.toNat) 0 (s.serving r) = (k, n, u) →
      k ≠ 0x8006 →
      ∃ t, exec (.tblDmaWrite r en buf .good) s = .next t ∧ Completes r k n s t ∧ t.tbl = u.tbl ∧ t.fsu = u.fsu) ∧
    (∀ k u, Starts s r en.toNat 0x11 buf .good → bit (entFlags en.toNat) 1 = true →
      flowInsert (s.serving r) (flowKeyOf (buf.take 47) (buf.getD 48 0).toNat) (padTo 0 128 (slice buf 64 128)) (.ring r) = (some k, u) →
      ∃ t, exec (.tblDmaInsert r en buf .good) s = .next t ∧ Completes r k (b2n (k == 1)) s t ∧ t.fsu = u.fsu) ∧
    (∀ u, Starts s r en.toNat 0x11 buf .good → bit (entFlags en.toNat) 1 = true →
      flowInsert (s.serving r) (flowKeyOf (buf.take 47) (buf.getD 48 0).toNat) (padTo 0 128 (slice buf 64 128)) (.ring r) = (none, u) →
      ∃ t, exec (.tblDmaInsert r en buf .good) s = .next t ∧ WaitsFor r en.toNat .insert t ∧ t.fsu = u.fsu) ∧
    (∀ k u, Starts s r en.toNat 0x11 buf .good → bit (entFlags en.toNat) 1 = false → bit (entFlags en.toNat) 2 = true →
      tblDelete (s.serving r) (entTarget en.toNat) buf (.ring r) = (k, u) →
      ∃ t, exec (.tblDmaDelete r en buf .good) s = .next t ∧ Completes r k (b2n (decide (k = 1))) s t ∧ t.tbl = u.tbl) ∧
    (∀ u, Starts s r en.toNat 0x12 buf .good → entTarget en.toNat ≠ 0x10 →
      flowLock (s.serving r) (flowTarget (entTarget en.toNat) (entIndex en.toNat) buf) (.ring r) = (none, u) →
      ∃ t, exec (.tblLock r en buf .good) s = .next t ∧ WaitsFor r en.toNat .lock t ∧ t.fsu = u.fsu) ∧
    (∀ k u, Starts s r en.toNat 0x13 buf .good → entTarget en.toNat ≠ 0x10 →
      flowUnlock (s.serving r) (flowTarget (entTarget en.toNat) (entIndex en.toNat) buf) (.ring r) = (k, u) →
      ∃ t, exec (.tblUnlock r en buf .good) s = .next t ∧ Completes r k 0 s t ∧ t.fsu = u.fsu) ∧
    (∀ img place, Starts s r en.toNat 0x14 buf .good →
      flowSearch ((s.serving r).served (.key (flowKeyOf (buf.take 47) (buf.getD 48 0).toNat)))
        (flowKeyOf (buf.take 47) (buf.getD 48 0).toNat) = (1, img, place) →
      ∃ t, exec (.tblSearch r en buf .good) s = .next t ∧ Completes r 1 place s t ∧
        Output.hostWrite (entAddr en.toNat + 64) (leBytes 128 img) ∈ t.outbox) ∧
    (∀ k c u, Starts s r en.toNat 0x15 [] .good →
      (∀ img p, flowNext (s.serving r) (entIndex en.toNat) = (k, some (img, p), c, u) →
        ∃ t, exec (.tblNext r en .good) s = .next t ∧ Completes r 1 1 s t ∧ t.fsu = u.fsu ∧
          Output.hostWrite (entAddr en.toNat + 64)
            (leBytes 128 img ++ leBytes 4 p ++ (leBytes 4 c ++ leBytes 8 (u.rd Objs.reloc_moves))) ∈ t.outbox) ∧
      (flowNext (s.serving r) (entIndex en.toNat) = (k, none, c, u) →
        ∃ t, exec (.tblNext r en .good) s = .next t ∧ Completes r k 0 s t ∧ t.fsu = u.fsu ∧
          (k = 1 → Output.hostWrite (entAddr en.toNat + 196) (leBytes 4 c ++ leBytes 8 (u.rd Objs.reloc_moves)) ∈ t.outbox))) ∧
    (Starts s r en.toNat 0x16 [] .good → entTarget en.toNat = 0x10 → s.macFlushFull = false →
      ∃ t, exec (.tblFlushPort r en) s = .next t ∧ WaitsFor r en.toNat .flush t ∧
        t.tbl = ((s.serving r).startMacFlush (entParam en.toNat) (some (.ring r))).tbl) ∧
    (Starts s r en.toNat 0x16 [] .good → entTarget en.toNat = 0x10 → s.macFlushFull = true →
      ∃ t, exec (.tblFlushPort r en) s = .next t ∧ Completes r 0x800A 0 s t ∧ t.tbl = s.tbl) ∧
    (Starts s r en.toNat 0x16 [] .good → entTarget en.toNat ≠ 0x10 →
      (∀ u, (s.serving r).startFlowFlush true (entParam en.toNat) (.ring r) = some u →
        ∃ t, exec (.tblFlushPort r en) s = .next t ∧ WaitsFor r en.toNat .flush t ∧ t.fsu = u.fsu) ∧
      ((s.serving r).startFlowFlush true (entParam en.toNat) (.ring r) = none →
        ∃ t, exec (.tblFlushPort r en) s = .next t ∧ Completes r 0x800A 0 s t ∧ t.fsu = s.fsu)) ∧
    (∀ u, Starts s r en.toNat 0x17 [] .good → (s.serving r).startFlowFlush false (entParam en.toNat) (.ring r) = some u →
      ∃ t, exec (.tblFlushTemplate r en) s = .next t ∧ WaitsFor r en.toNat .flush t ∧ t.fsu = u.fsu) ∧
    (∀ u, Starts s r en.toNat 0x20 buf .good →
      stageRecords (entParam en.toNat % 65536) 0 (records (recordSize (entParam en.toNat % 65536)) (entCount en.toNat)
        (padTo 0 (entCount en.toNat * recordSize (entParam en.toNat % 65536)) buf)) (s.serving r) = (u, none) →
      entLen en.toNat = entCount en.toNat * recordSize (entParam en.toNat % 65536) → 0 < recordSize (entParam en.toNat % 65536) →
      ∃ t, exec (.hueStage r en buf .good) s = .next t ∧ WaitsFor r en.toNat .stage t ∧ t.pat = u.pat ∧
        t.hue = { u.hue with staging := u.hue.staging ++ [⟨none, some r.val, 1, entCount en.toNat⟩] }) ∧
    (∀ (b : RingBusy) (x : StageRun), (s.cr r).busy = some b → b.wait = .stage → s.hostHalted = false → (s.cr r).st = .running →
      x.ctx = none → x.ring = some r.val → Completes r x.status x.result s (s.stageEnd x))

/-- R436 to R441, R526: delivery of an item, the hold and coalescing timers, and the errors and resets of the function. An item or
timer whose conditions fail, and a reset of the function that R526 absorbs or ignores, leaves the state as it is (log 2). The model's
choices: the layout of an MSI-X entry and what its mask does (PRESUMED, log 71), what a reset of the function drops and counts (log 74), and what counts for coalescing (log 72). -/
def Obligations.DeliveryAndHostReset : Prop :=
  ∀ (r : Fin 64) (s : State),
    (∀ (it : DItem) (rest : List DItem) (en : BitVec 256), takeItem r s.host.items = some (it, rest) → it.ring = r.val → it.pid = none →
      (s.dr r).running = true → s.hostHalted = false → (s.dr r).hold = [] → delSpace (s.dr r) = true →
      64 ≤ fld en.toNat 128 32 → fld en.toNat 128 32 ≤ 65536 →
      ∃ t, exec (.deliverItem r en false) s = .next t ∧ t.host.items = rest ∧ (t.dr r).p = ((s.dr r).p + 1) % 2 ^ 32 ∧
        (t.dr r).drops = 0 ∧ Output.hostWrite (fld en.toNat 0 64) (it.data.take (fld en.toNat 128 32)) ∈ t.outbox ∧
        t.rd Objs.dlv_items r = satAdd 64 (s.rd Objs.dlv_items r) 1) ∧
    (∀ (it : DItem) (rest : List DItem), (s.dr r).hold = it :: rest → it.ring = r.val → it.pid = none →
      s.elapsed it.arrived ((s.dr r).holdLimit * 1000) = true →
      ∃ t, exec (.deliveryHoldExpiry r) s = .next t ∧ (t.dr r).hold = rest ∧ Raised 211 r s t ∧
        t.rd Objs.dlv_drop r = satAdd 64 (s.rd Objs.dlv_drop r) 1) ∧
    ((s.dr r).running = true → bit (s.dr r).ctrl 23 = true → 0 < (s.dr r).unsig →
      s.elapsed (s.dr r).unsigSince (s.dr r).coalTime = true → s.hostHalted = false →
      ∃ t, exec (.deliveryCoalTimer r) s = .next t ∧ (t.dr r).unsig = 0 ∧
        (bit (s.msixEntry (fld (s.dr r).ctrl 16 7)) 96 = false →
          t.outbox = s.outbox ++ [.msix (fld (s.dr r).ctrl 16 7) (fld (s.msixEntry (fld (s.dr r).ctrl 16 7)) 0 64)
            (fld (s.msixEntry (fld (s.dr r).ctrl 16 7)) 64 32)]) ∧
        (bit (s.msixEntry (fld (s.dr r).ctrl 16 7)) 96 = true →
          t.outbox = s.outbox ∧ bit t.host.msixPending (fld (s.dr r).ctrl 16 7) = true)) ∧
    (s.hostHalted = false → (s.cr r).st = .running → (s.cr r).h ≠ (s.cr r).p →
      ∃ t, exec (.pcieCompletionTimeout r false .ur) s = .next t ∧ t.rd Objs.hi_state = 1 ∧ t.rd Objs.hi_halt_cause = 5 ∧
        t.rd Objs.hi_halt_ring = r ∧ (t.cr r).busy = none) ∧
    (s.fm.safe = false → s.eft.kind = 0 → s.eft.clocks = true →
      (∃ t, exec .functionLevelReset s = .next t ∧ t.host = s.host.restart ∧ t.rd Objs.hi_state = 0 ∧
        t.dict.mbStatus = 0 ∧ ∃ e ∈ t.fm.raised, e.src = 213) ∧
      (∃ t, exec .pcieLinkDown s = .next t ∧ t.host = s.host.restart ∧ t.rd Objs.hi_state = 0 ∧
        t.dict.mbStatus = 0 ∧ ∃ e ∈ t.fm.raised, e.src = 212)) ∧
    (s.fm.safe = true ∨ s.eft.kind ≠ 0 → exec .functionLevelReset s = .next s ∧ exec .pcieLinkDown s = .next s)

/-- R151, R159, R455, R577 to R580: the image buffer, its claim, and a staged bank-0 entry; in the stopped boot, boot_load checks and
keeps an image, and boot_go boots from the two; a clutch whose store fails the second comparison is isolated. The model's choices: what
boot_load and boot_go refuse and keep (log 90), an image byte in a pseudo-channel that answers MEM_FROZEN and a cs_buf_offset past
the buffer (log 68), the places of the buffer (log 111), the details of the boot and its clutches (log 82), and a claim whose time has
not come (log 2). -/
def Obligations.ImageBufferBankZeroAndBoot : Prop :=
  ∀ (c : Ctx) (v : List Byte) (s : State),
    (Accepted c Objs.cs_buf_data 0 v (bufCheck c) s → s.pcRefuses (bufferPc (s.rdCtx c Objs.cs_buf_offset)) = false →
      ∃ t, exec (.csBufData c v) s = .next t ∧ Answered c Objs.cs_buf_data 0 .ok t ∧
        (∀ k < 256, tget 0 t.sk.buffer (s.rdCtx c Objs.cs_buf_offset + k) = v.getD k 0) ∧
        (∀ a, a < s.rdCtx c Objs.cs_buf_offset ∨ s.rdCtx c Objs.cs_buf_offset + 256 ≤ a →
          tget 0 t.sk.buffer a = tget 0 s.sk.buffer a) ∧
        t.rdCtx c Objs.cs_buf_offset = s.rdCtx c Objs.cs_buf_offset + 256 ∧ t.sk.bufClaim = some (ctxCode c, s.fNs)) ∧
    (∀ k x, s.sk.bufClaim = some (k, x) →
      ∃ t, exec .imageBufferClaimExpiry s = .next t ∧ t.sk.buffer = s.sk.buffer ∧
        t.sk.bufClaim = (if s.elapsed x 10000000000 then none else some (k, x))) ∧
    (Accepted c Objs.disp0_stage 0 v (fun x s => s.disp0Code (s.rdCtx c Objs.disp_select) x) s →
      ∃ t, exec (.disp0Stage c v) s = .next t ∧ Answered c Objs.disp0_stage 0 .ok t ∧
        tget 0 t.hue.disp0 (s.rdCtx c Objs.disp_select) =
          entryStage (tget 0 s.hue.disp0 (s.rdCtx c Objs.disp_select)) s.hueN (bit (leNat v) 15) (leNat v % 2 ^ 14) ∧
        (∀ i, i ≠ s.rdCtx c Objs.disp_select → tget 0 t.hue.disp0 i = tget 0 s.hue.disp0 i) ∧
        ∀ k < 16, tget 0 (t.cs k).disp (s.rdCtx c Objs.disp_select) =
          entryStage (tget 0 (s.cs k).disp (s.rdCtx c Objs.disp_select)) s.hueN (bit (leNat v) 15) (leNat v % 2 ^ 14)) ∧
    (Accepted c Objs.boot_load 0 [1] bootCheck s →
      ∃ t, exec (.bootLoadFull c) s = .next t ∧ Answered c Objs.boot_load 0 .ok t ∧
        (∀ b n, loadSource (acceptBase c Objs.boot_load 0 [1] s) c = (b, n) → t.result c (Objs.boot_load.key 0) = fullCode b n ∧
          t.eft.bootFull = (if fullCode b n = 0 then some b else none)) ∧
        t.eft.bootHue = s.eft.bootHue) ∧
    (Accepted c Objs.boot_load 0 [2] bootCheck s →
      ∃ t, exec (.bootLoadHue c) s = .next t ∧ Answered c Objs.boot_load 0 .ok t ∧
        (∀ b n, loadSource (acceptBase c Objs.boot_load 0 [2] s) c = (b, n) → t.result c (Objs.boot_load.key 0) = hueCheck b n ∧
          t.eft.bootHue = (if hueCheck b n = 0 then some b else none)) ∧
        t.eft.bootFull = s.eft.bootFull) ∧
    (∀ bad : List (Fin 16), Accepted c Objs.boot_go 0 [1] bootGoCheck s →
      ((acceptBase c Objs.boot_go 0 [1] s).loadedBoot (bad.map (·.val))).isSome = true →
      ∃ t, exec (.bootGo c bad) s = .next t ∧ (∀ k ∈ bad, 3 ≤ t.rd Objs.clutch_state k) ∧ Answered c Objs.boot_go 0 .ok t ∧ t.rd Objs.boot_status = 3 ∧
        t.rd Objs.boot_slot = 3 ∧ t.rd Objs.power_state = 0 ∧ t.rd Objs.hue_active = 0 ∧ t.eft.phase = .running)

/-- R157, R158, R161: a load answers with the code of its first failed check; a load that passes runs, and its end puts the
content into the clutch, or takes the clutch out of service. The model's choices: the staging until the next tick of the clock and the
codes of a malformed image (log 67), a load whose second read fails (log 112), and an image byte that cannot be read (log 68). -/
def Obligations.ImagesAreLoaded : Prop :=
  ∀ (c : Ctx) (v : List Byte) (s : State),
    (∀ u b n, Accepted c Objs.cs_load 0 v (claimCheck c) s → u = acceptBase c Objs.cs_load 0 v s → loadSource u c = (b, n) →
      (∀ k, loadCheck u (leNat v) b n = .error k →
        ∃ t, exec (.csLoad (.dict c v)) s = .next t ∧ Answered c Objs.cs_load 0 .ok t ∧
          t.result c (Objs.cs_load.key 0) = k ∧ t.sk.loads = s.sk.loads ∧ t.sk.stores = s.sk.stores) ∧
      (∀ g, loadCheck u (leNat v) b n = .ok g →
        ∃ t, exec (.csLoad (.dict c v)) s = .next t ∧ Answered c Objs.cs_load 0 .ok t ∧
          t.result c (Objs.cs_load.key 0) = 8 ∧ t.sk.loads = s.sk.loads ++ [⟨leNat v, g, none, some (ctxCode c)⟩])) ∧
    (∀ (r : Fin 64) (e : BitVec 256) (image : List Byte), Starts s r e.toNat 0x21 image .good → bit (entFlags e.toNat) 3 = false →
      (∀ k, loadCheck (s.serving r) (fld (entParam e.toNat) 0 4) (padTo 0 (min (entLen e.toNat) 1048576) image) (entLen e.toNat) = .error k →
        ∃ t, exec (.csLoad (.ring r e image .good)) s = .next t ∧ Completes r 0x800A k s t ∧ t.sk = s.sk) ∧
      (∀ g, loadCheck (s.serving r) (fld (entParam e.toNat) 0 4) (padTo 0 (min (entLen e.toNat) 1048576) image) (entLen e.toNat) = .ok g →
        ∃ t, exec (.csLoad (.ring r e image .good)) s = .next t ∧ WaitsFor r e.toNat .csLoad t ∧
          t.sk.loads = s.sk.loads ++ [⟨fld (entParam e.toNat) 0 4, g, some r.val, none⟩])) ∧
    (∀ (x : Fin 16) (l : CsLoad), s.sk.loads.find? (fun l => l.clutch = x.val) = some l →
      (∀ m : Fin 3, m < 2 → ∃ t, exec (.csLoadDone x m .same) s = .next t ∧ t.rd Objs.clutch_image x = l.golden.image ∧
        (t.cs x).words = (storeOf (s.cs x) l.golden).words ∧ (t.cs x).disp = (storeOf (s.cs x) l.golden).disp ∧
        (t.cs x).entries = l.golden.entries ∧ t.sk.loads = s.sk.loads.filter (fun y => y.clutch ≠ x.val)) ∧
      (s.rd Objs.clutch_state x < 3 →
        ∃ t, exec (.csLoadDone x 2 .same) s = .next t ∧ t.rd Objs.clutch_state x = 3 ∧
          t.sk.loads = s.sk.loads.filter (fun y => y.clutch ≠ x.val) ∧ ∃ o ∈ t.fm.raised, o.src = 82 ∧ o.unit = x) ∧
      (s.hostImage l = true → ∀ (m : Fin 3) (second : SecondRead), second ≠ .same →
        ∃ t, exec (.csLoadDone x m second) s = .next t ∧ t.sk.stores = s.sk.stores ∧
          t.sk.loads = s.sk.loads.filter (fun y => y.clutch ≠ x.val) ∧ (second = .failed → ∃ o ∈ t.fm.raised, o.src = 210))) ∧
    (∀ b n, Accepted c Objs.hue_image_load 0 v (claimCheck c) s → loadSource (acceptBase c Objs.hue_image_load 0 v s) c = (b, n) →
      ∃ t, exec (.hueImageLoad c v) s = .next t ∧ Answered c Objs.hue_image_load 0 .ok t ∧
        (headerBad true b n = true → t.result c (Objs.hue_image_load.key 0) = 2 ∧ t.hue = s.hue) ∧
        (headerBad true b n = false → crcBad b = true → t.result c (Objs.hue_image_load.key 0) = 3 ∧ t.hue = s.hue) ∧
        (headerBad true b n = false → crcBad b = false → s.bank0Staged = true →
          t.result c (Objs.hue_image_load.key 0) = 10 ∧ t.hue = s.hue ∧ t.rd Objs.hue_load_fail = Code.state.num) ∧
        (headerBad true b n = false → crcBad b = false → s.bank0Staged = false →
          t.hue.imageStaged = some (imgId b) ∧ t.result c (Objs.hue_image_load.key 0) = Code.busy.num ∧ t.hue.staging ≠ [])) ∧
    (∀ x : StageRun, x.ctx = some (ctxCode c) → x.ring = none → s.dict.running.any (fun y => y.ctx == ctxCode c && y.key == Objs.hue_image_load.key 0) = true →
      (s.stageEnd x).result c (Objs.hue_image_load.key 0) = x.result)

/-- R163, R164: a repair restores the damaged bank-0 entries from the hue shadow, reloads the store from a golden copy, or
takes the clutch out of service: the first copy that can be read is used, after a mismatch the other one once, and a second mismatch, or
no copy that can be read, isolates the clutch. The rewrite of the word and the reload are one command (log 68), and an entry whose shadow
cannot be read waits (log 68). -/
def Obligations.ControlStoreIsRepaired : Prop :=
  ∀ (c : Fin 16) (s : State),
    ((∀ i ∈ (s.cs c).repairing, isBank0 i = true ∧ s.shadowRead 3 (i - 65536) .first ≠ .neither) → ∀ (copy : CopyRead) (m : Fin 3),
      ∃ t, exec (.csRepairDone c copy m) s = .next t ∧ (t.cs c).repairing = [] ∧ t.dict = s.dict ∧ t.fm = s.fm ∧
        ∀ i, 65536 + i ∈ (s.cs c).repairing → tget 0 (t.cs c).disp i = tget 0 s.hue.disp0 i) ∧
    (∀ (found : CopyRead) (m : Fin 3), (∃ i ∈ (s.cs c).repairing, isBank0 i = false) →
      let image := s.rd Objs.clutch_image c
      let copy := s.goldenRead image found
      let other := s.goldenServes 3 image
      let waits := (s.cs c).repairing.filter (fun i => isBank0 i && s.shadowRead 3 (i - 65536) .first == .neither)
      (copy = .first → m = 0 ∨ (m = 1 ∧ other = true) →
        ∃ t, exec (.csRepairDone c found m) s = .next t ∧ (t.cs c).repairing = waits ∧ t.fm = s.fm ∧
          (t.cs c).words = (storeOf (s.cs c) (s.golden image)).words ∧
          t.rd Objs.cs_reloads c = satAdd 64 (s.rd Objs.cs_reloads c) (1 + m)) ∧
      (copy = .first → m = 2 ∨ (m = 1 ∧ other = false) → s.rd Objs.clutch_state c < 3 →
        ∃ t, exec (.csRepairDone c found m) s = .next t ∧ t.rd Objs.clutch_state c = 3 ∧ (∃ o ∈ t.fm.raised, o.src = 82 ∧ o.unit = c) ∧
          (∀ i ∈ (t.cs c).repairing, isBank0 i = true) ∧
          t.rd Objs.cs_reloads c = satAdd 64 (s.rd Objs.cs_reloads c) (if other then 2 else 1)) ∧
      (copy = .second → m = 0 →
        ∃ t, exec (.csRepairDone c found m) s = .next t ∧ (t.cs c).repairing = waits ∧
          (t.cs c).words = (storeOf (s.cs c) (s.golden image)).words ∧ Raised 86 0 s t ∧
          t.rd Objs.cs_reloads c = satAdd 64 (s.rd Objs.cs_reloads c) 1) ∧
      (copy = .second → 1 ≤ m.val → s.rd Objs.clutch_state c < 3 →
        ∃ t, exec (.csRepairDone c found m) s = .next t ∧ t.rd Objs.clutch_state c = 3 ∧ (∃ o ∈ t.fm.raised, o.src = 82 ∧ o.unit = c) ∧
          (∃ o ∈ t.fm.raised, o.src = 86) ∧ (∀ i ∈ (t.cs c).repairing, isBank0 i = true) ∧
          t.rd Objs.cs_reloads c = satAdd 64 (s.rd Objs.cs_reloads c) 1) ∧
      (copy = .neither → s.rd Objs.clutch_state c < 3 →
        ∃ t, exec (.csRepairDone c found m) s = .next t ∧ t.rd Objs.clutch_state c = 3 ∧ (∃ o ∈ t.fm.raised, o.src = 82 ∧ o.unit = c) ∧
          (∀ i ∈ (t.cs c).repairing, isBank0 i = true) ∧ t.rd Objs.cs_reloads c = satAdd 64 (s.rd Objs.cs_reloads c) 0))

/-- R193, R208, R231, R243: the grant of a flow lock, the end of a flush pass, the flush of the flow cache, and the salt. A grant whose
conditions fail leaves the state as it is (the model's choice, log 2); an insert of software waits for its own lock (log 103). -/
def Obligations.FlowLocksAndFlushes : Prop :=
  ∀ (c : Ctx) (v : List Byte) (s : State),
    (∀ (i : Fin 64) (l : FlowLock), s.fsu.locks[i.val]? = some l → l.granted = false → l.ins = none →
      (∀ r, l.owner = .ring r → (s.cr r).st ≠ .stopping) →
      (∀ k ∈ s.targetKeys l.target, leapWrites s k = false) →
      ∃ t, exec (.tblLockGrant i) s = .next t ∧ t.fsu = { s.fsu with locks := s.fsu.locks.set i { l with granted := true } }) ∧
    (∀ (i : Fin 64) (l : FlowLock) (k : Nat), s.fsu.locks[i.val]? = some l → k ∈ s.targetKeys l.target → leapWrites s k = true →
      exec (.tblLockGrant i) s = .next s) ∧
    (∀ (i : Fin 64) (k img : Nat) (o : Owner), s.fsu.locks[i.val]? = some ⟨.key k, o, false, some img⟩ → leapWrites s k = false →
      (∀ r, o = .ring r → (s.cr r).st ≠ .stopping) → (∀ x ∈ s.sk.threads, x.2.lockWait = none) →
      ∃ t, exec (.tblLockGrant i) s = .next t ∧
        t.fsu = (insertRec { s with fsu := { s.fsu with locks := s.fsu.locks.eraseIdx i } } k img).2.fsu) ∧
    (∀ dma : List (Fin 64 × Dma), s.fsu.flushes.any (·.running) = true → nextRec s s.fsu.sweepPos = none → s.elapsed s.fsu.sweepStart 1000000000 = true →
      ∃ t, exec (.flowFlushDone dma) s = .next t ∧ t.fsu.sweepPos = 0 ∧ t.fsu.sweepStart = s.fNs ∧
        t.fsu.flushes = startRunning 4 (s.fsu.flushes.filter (fun f => !f.running)) ∧ ∃ e ∈ t.fm.raised, e.src = 114) ∧
    (Accepted c Objs.flow_cache_flush 0 v noCheck s →
      ∃ t, exec (.flowCacheFlush c v) s = .next t ∧ Answered c Objs.flow_cache_flush 0 .ok t ∧
        (∀ k l, s.line k = some l → s.evictable k l = true → t.line k = none) ∧ ∀ k l, t.line k = some l → l.st ≠ .dirty) ∧
    (Accepted c Objs.hash_salt 0 v saltCheck s →
      ∃ t, exec (.hashSaltWrite c v) s = .next t ∧ Answered c Objs.hash_salt 0 .ok t ∧ t.rd Objs.hash_salt = leNat v ∧
        t.fsu = s.fsu)

/-- R174, R221, R228, R229, R232, R233: a bucket read that returns, and with the last one the answers of the binds that wait (the moment is the
model's choice, log 45); the move of a stash record into a free slot of one of its buckets (a walk is one step, log 44) and the end of a
move, which a lock on its old place undoes (log 44); and the sweeper's visit of an aged record, under the template of the active hue (log 43),
and its end of a pass. -/
def Obligations.FlowRecordsMoveAndAge : Prop :=
  ∀ (s : State),
    (∀ (tag b : Nat) (frozen : Bool) (rest : List HbmDone), s.fsu.bucketReads.find? (fun r => r.1 = tag) = some (tag, b) →
      takeDone (s.ctl (bucketPc b)).done 0 tag 8 = some (frozen, rest) → s.fsu.fills.any (fun f => f.wait.contains tag) = false →
      ∃ t, exec (.bucketReadReturn tag .good) s = .next t ∧ t.fsu.fills = s.fsu.fills ∧
        t.fsu.bucketReads = s.fsu.bucketReads.filter (fun r => r.1 ≠ tag)) ∧
    (∀ (tag b : Nat) (frozen : Bool) (rest : List HbmDone) (f : Fill), s.fsu.bucketReads.find? (fun r => r.1 = tag) = some (tag, b) →
      takeDone (s.ctl (bucketPc b)).done 0 tag 8 = some (frozen, rest) → s.fsu.fills.find? (fun f => f.wait.contains tag) = some f →
      f.wait.erase tag ≠ [] →
      ∃ t, exec (.bucketReadReturn tag .good) s = .next t ∧ t.fsu.bucketReads = s.fsu.bucketReads.filter (fun r => r.1 ≠ tag) ∧
        t.fsu.fills = s.fsu.fills.map (fun y => if y.key = f.key then
          { f with wait := f.wait.erase tag, frozen := if frozen then b :: f.frozen else f.frozen } else y)) ∧
    (∀ (tag b : Nat) (frozen : Bool) (rest : List HbmDone) (f : Fill), s.fsu.bucketReads.find? (fun r => r.1 = tag) = some (tag, b) →
      takeDone (s.ctl (bucketPc b)).done 0 tag 8 = some (frozen, rest) → s.fsu.fills.find? (fun f => f.wait.contains tag) = some f →
      f.wait = [tag] → f.readB2 = true →
      let lost := if frozen then b :: f.frozen else f.frozen
      ∃ t, exec (.bucketReadReturn tag .good) s = .next t ∧ ((∃ g ∈ t.fsu.fills, g.key = f.key ∧ g.ready = true) ∨
        (∀ p, s.homeRead f.key lost = some p → recOut ((s.homeImg p).getD 0) = false → BindsEnd f.key 0 .found s t) ∧
        (s.homeRead f.key lost = none → lost = [] → s.bothVoid f.key = false → BindsEnd f.key 1 .absent s t) ∧
        (s.homeRead f.key lost = none → lost ≠ [] ∨ s.bothVoid f.key = true → BindsEnd f.key 2 .unavailable s t))) ∧
    (∀ (place : Fin 1024) (r : Nat), tfind s.fsu.stash place = some r → s.fsu.paths.length < 16 →
      s.fsu.paths.any (fun p => p.moves.any (fun m => m.key == recKey r)) = false →
      (∀ b, b = (s.flowBuckets (recKey r)).1 ∨ b = (s.flowBuckets (recKey r)).2 →
        bucketOpen s b = true ∧ (s.slotFree (2 * b) = true ∨ s.slotFree (2 * b + 1) = true) ∧
          ∀ k ∈ s.targetKeys (.bucket b), s.stale k = false) → s.slotLocked (stashBase + place) = false →
      ∃ t q w, exec (.relocWalk place) s = .next t ∧
        (q / 2 = (s.flowBuckets (recKey r)).1 ∨ q / 2 = (s.flowBuckets (recKey r)).2) ∧
        t.fsu.paths = s.fsu.paths ++ [⟨[⟨recKey r, stashBase + place, q⟩], w⟩] ∧ tfind t.fsu.stash place = some r ∧
        tfind t.fsu.slots q = some (setFld r 486 1 (b2n (decide (q / 2 ≠ (s.flowBuckets (recKey r)).1))))) ∧
    (∀ (i : Fin 16) (p : Path) (m : Move), s.fsu.paths[i.val]? = some p → p.moves = [m] →
      p.waits.any (fun x => s.fsu.bucketReads.any (fun r => r.1 == x)) = false → s.twice m = true →
      (s.slotLocked m.src = false → s.placeServes m.src = true →
        ∃ t, exec (.relocMoveDone i) s = .next t ∧ t.fsu.paths = s.fsu.paths.eraseIdx i ∧ t.homeImg m.src = none ∧
          t.rd Objs.reloc_moves = satAdd 64 (s.rd Objs.reloc_moves) 1) ∧
      (s.slotLocked m.src = true → s.placeServes m.dst = true →
        ∃ t, exec (.relocMoveDone i) s = .next t ∧ t.fsu.paths = s.fsu.paths.eraseIdx i ∧ t.homeImg m.dst = none ∧
          t.rd Objs.reloc_moves = s.rd Objs.reloc_moves)) ∧
    (∀ (home r d : Nat), nextRec s s.fsu.sweepPos = some (home, r) → s.homeImg home = some r → recOut r = false → s.homeOf (recKey r) = some home →
      s.placeServes home = true →
      s.line (recKey r) = none → s.flowLocked (recKey r) = false → s.claimed (s.flowHash (recKey r)) = false →
      s.fsu.stepPass = 0 → s.fsu.flushes.any (·.running) = false → s.tmplBody (recTmpl r) s.hueActive = some d →
      fld d 0 32 ≠ 0 → (fld d 0 32 : Int) ≤ wrapDiff 32 s.seenNow (recSeen r) →
      ∃ t, exec (.sweeperVisit .good) s = .next t ∧ t.fsu.sweepPos = home + 1 ∧ t.homeImg home = none ∧
        t.rd Objs.aged = satAdd 64 (s.rd Objs.aged) 1) ∧
    (nextRec s s.fsu.sweepPos = none → s.fsu.flushes.any (·.running) = false →
      s.elapsed s.fsu.sweepStart (s.fsu.sweepLen * 1000000000) = true →
      ∃ t, exec (.sweeperVisit .good) s = .next t ∧ t.fsu.sweepPos = 0 ∧ t.fsu.sweepStart = s.fNs)

/-- R282 to R287, R298: a learn request that is applied, as a new entry, a refresh or a move, the MAC sweeper's visit, the flush of a port, and
the rewrite of a damaged table word. That learn_mode is that of the ingress port, and that a flush deletes at its end, is the model's
reading (log 39), as is what a rewrite without a readable shadow raises (log 40). -/
def Obligations.MacTableLearnsAndAges : Prop :=
  ∀ (c : Ctx) (v : List Byte) (s : State),
    (∀ (r : LearnReq) (rest : List LearnReq) (pos : Fin 9), s.tbl.sort = r :: rest → r.key < 2 ^ 60 → r.port < 256 →
      ((s.rd Objs.learn_sort_window * 65536 : Nat) : Int) ≤ linDiff (toLin s.time.w) r.ts → s.tbl.flush = none → s.macLocked r.key = false →
      (s.macFind r.key = none → s.rd Objs.learn_mode r.inPort ≠ 1 →
        ∃ t, exec (.learnApply .good pos) s = .next t ∧ t.tbl.sort = rest ∧ t.tbl.applied = some r.ts ∧
          ((∃ i e, t.macFind r.key = some i ∧ tfind t.tbl.mac i = some e ∧ macPort e = r.port ∧ macSeen e = macTime r.ts ∧
            macStatic e = false) ∨ (t.tbl.mac = s.tbl.mac ∧ Raised 123 0 s t))) ∧
      (∀ i e, s.macFind r.key = some i → tfind s.tbl.mac i = some e →
        (macPort e = r.port → ∃ t, exec (.learnApply .good pos) s = .next t ∧ t.tbl.sort = rest ∧
          tfind t.tbl.mac i = some (setFld e 44 16 (macTime r.ts)) ∧ ∀ j, j ≠ i → tfind t.tbl.mac j = tfind s.tbl.mac j) ∧
        (macPort e ≠ r.port → macStatic e = true → ∃ t, exec (.learnApply .good pos) s = .next t ∧ t.tbl.sort = rest ∧
          t.tbl.mac = s.tbl.mac ∧ Raised 124 0 s t ∧ t.rd Objs.static_violation = satAdd 64 (s.rd Objs.static_violation) 1) ∧
        (macPort e ≠ r.port → macStatic e = false → s.rd Objs.learn_mode r.inPort ≠ 1 →
          let now := macTime r.ts
          let fresh := decide (macMoves e = 0) ||
            decide ((macUnits (s.rd Objs.move_window * 1000000000) : Int) ≤ wrapDiff 16 now (macMoveFirst e))
          (s.macHeld e now = true → ∃ t, exec (.learnApply .good pos) s = .next t ∧ t.tbl.sort = rest ∧ t.tbl.mac = s.tbl.mac ∧
            t.rd Objs.move_refused = satAdd 64 (s.rd Objs.move_refused) 1) ∧
          (s.macHeld e now = false → ∃ t x, exec (.learnApply .good pos) s = .next t ∧ t.tbl.sort = rest ∧ tfind t.tbl.mac i = some x ∧
            macPort x = r.port ∧ macSeen x = now ∧ macMoveLast x = now ∧ macMoveFirst x = (if fresh then now else macMoveFirst e) ∧
            macMoves x = (if fresh then 1 else min (macMoves e + 1) 7) ∧ macKey x = macKey e ∧ macStatic x = false ∧
            (∀ n, n ≠ i → tfind t.tbl.mac n = tfind s.tbl.mac n) ∧ t.rd Objs.moves = satAdd 64 (s.rd Objs.moves) 1 ∧
            (∃ o ∈ t.fm.raised, o.src = 120) ∧ (s.rd Objs.move_limit < macMoves x → ∃ o ∈ t.fm.raised, o.src = 121))))) ∧
    ((s.tbl.mac.find? (fun p => s.tbl.sweepPos ≤ p.1)) = none →
      ∃ t, exec (.macSweepVisit .good) s = .next t ∧ t.tbl.sweepPos = 0 ∧ t.tbl.mac = s.tbl.mac) ∧
    (∀ i e, s.tbl.mac.find? (fun p => s.tbl.sweepPos ≤ p.1) = some (i, e) → macStatic e = false → s.macLocked (macKey e) = false →
      s.rd Objs.mac_age_limit ≠ 0 → s.tbl.stepPass = 0 →
      (macUnits (s.rd Objs.mac_age_limit * 1000000000) : Int) ≤ wrapDiff 16 s.macNow (macSeen e) →
      ∃ t, exec (.macSweepVisit .good) s = .next t ∧ t.tbl.sweepPos = i + 1 ∧ tfind t.tbl.mac i = none ∧
        (∀ j, j ≠ i → tfind t.tbl.mac j = tfind s.tbl.mac j) ∧ t.rd Objs.mac_aged = satAdd 64 (s.rd Objs.mac_aged) 1) ∧
    (Accepted c Objs.mac_flush_port 0 v (fun _ s => refuseIf s.macFlushFull .busy) s →
      ∃ t, exec (.macFlushPort c v) s = .next t ∧ Answered c Objs.mac_flush_port 0 .ok t ∧
        t.result c (Objs.mac_flush_port.key 0) = 8 ∧ t.tbl.mac = s.tbl.mac ∧
        (s.tbl.flush = none → t.tbl.flush = some ⟨leNat v, some (.dict (ctxCode c)), 0⟩) ∧
        (s.tbl.flush ≠ none → t.tbl.flush = s.tbl.flush ∧
          t.tbl.flushWait = s.tbl.flushWait ++ [⟨leNat v, some (.dict (ctxCode c)), 0⟩])) ∧
    (∀ f words dma, s.tbl.flush = some f → (∀ w ∈ words, w.2 ≠ .uncorrected) →
      ∃ t, exec (.macFlushDone words dma) s = .next t ∧ t.tbl.flush = s.tbl.flushWait.head? ∧ t.tbl.flushWait = s.tbl.flushWait.drop 1 ∧
        (∀ i e, tfind t.tbl.mac i = some e → tfind s.tbl.mac i = some e ∧ macFlushes s f.port e = false) ∧
        (∃ e ∈ t.fm.raised, e.src = 127) ∧
        t.rd Objs.mac_flushed = satAdd 64 (s.rd Objs.mac_flushed) (s.tbl.mac.filter (fun p => macFlushes s f.port p.2)).length) ∧
    (∀ (x : Fin 32) (item : Nat), tfind s.tbl.bad (badKey x item) = some true →
      (s.shadowRead 2 (badKey x item) .first ≠ .neither →
        ∃ t, exec (.tableRewriteDone x item true) s = .next t ∧ tfind t.tbl.bad (badKey x item) = none) ∧
      (s.shadowRead 2 (badKey x item) .first = .neither →
        exec (.tableRewriteDone x item true) s = exec (.tableRewriteDone x item false) s) ∧
      ∃ t, exec (.tableRewriteDone x item false) s = .next t ∧ tfind t.tbl.bad (badKey x item) = some false ∧ Raised 126 0 s t)

/-- R304 to R314, R332, R334 to R338: admission puts the cells of a packet on chip when there is room, or into spill slots after every
earlier spilled cell, or drops it whole; a policer and RED can drop it first, and RED can mark it; and the configuration of a policer and
of a RED profile. The model's choices: a policer never improves a colour (log 21), its fill time (log 20), the rounding and the idle
time of RED and that the value of its LFSR is free (log 22), that the command tells of HBM overload (log 30), a unicast DEST of 256 or more
(log 23), an injected frame that is lost (log 24), and that the command without an item leaves the state as it is (log 2). -/
def Obligations.PacketsAreAdmitted : Prop :=
  ∀ (c : Ctx) (v : List Byte) (s : State),
    (∀ o, s.tm.items = [] → exec (.tmAdmit o .good) s = .next s) ∧
    (∀ (it : TmItem) (rest : List TmItem) (o : Bool), s.tm.items = it :: rest → fld it.md 320 12 = 0 →
      let mc := bit it.md 259
      let pipe := grpPipe (s.grpOfPort (fld it.md 32 8))
      let id := s.itemVoq it
      let n := (s.itemCells it (bit it.md 41)).length
      mc = true ∨ (fld it.md 240 16 < 256 ∧ (redColour (s.itemRed it) (colourIn (fld it.md 46 2))).2.1 = 0) →
      (¬ s.itemSpills it → n ≤ s.rd Objs.pool_free pipe → (s.voq id).cells.length + n ≤ s.rd Objs.voq_onchip_max →
        ∃ t, exec (.tmAdmit o .good) s = .next t ∧ t.tm.items = rest ∧ t.tm.nextItem = s.tm.nextItem + 1 ∧
          (t.voq id).cells = (s.voq id).cells ++ s.itemCells it (bit it.md 41) ∧ (t.voq id).spill = (s.voq id).spill ∧
          (∀ j, j ≠ id → t.voq j = s.voq j) ∧ t.rd Objs.pool_free pipe = s.rd Objs.pool_free pipe - n ∧
          (tfind t.tm.flights s.tm.nextItem).map (·.outs) = some [if mc then 32 else s.grpOfPort (fld it.md 240 8)]) ∧
      (¬ s.itemSpills it → s.rd Objs.pool_free pipe < n ∨ s.rd Objs.voq_onchip_max < (s.voq id).cells.length + n →
        ∃ t, exec (.tmAdmit o .good) s = .next t ∧ ItemDropped s rest Objs.pool_drop pipe 134 pipe t) ∧
      (s.itemSpills it →
        (∀ v1 used, spillCells s.retiredMask (s.rd Objs.spill_max_blocks) (s.itemCells it (bit it.md 41)) (s.voq id) s.tm.used =
            some (v1, used) →
          ∃ t, exec (.tmAdmit false .good) s = .next t ∧ t.tm.items = rest ∧ t.tm.nextItem = s.tm.nextItem + 1 ∧
            (t.voq id).cells = (s.voq id).cells ∧ (t.voq id).spilling = true ∧
            (t.voq id).spill.map (·.cell) = (s.voq id).spill.map (·.cell) ++ s.itemCells it (bit it.md 41) ∧
            (∀ j, j ≠ id → t.voq j = s.voq j) ∧ t.tm.used = used ∧ t.rd Objs.spill_blocks_used = used.length ∧
            t.rd Objs.pool_free pipe = s.rd Objs.pool_free pipe ∧
            t.rd Objs.cells_spilled pipe = satAdd 64 (s.rd Objs.cells_spilled pipe) n) ∧
        (spillCells s.retiredMask (s.rd Objs.spill_max_blocks) (s.itemCells it (bit it.md 41)) (s.voq id) s.tm.used = none →
          ∃ t, exec (.tmAdmit false .good) s = .next t ∧ ItemDropped s rest Objs.spill_full_drop pipe 136 pipe t) ∧
        (∃ t, exec (.tmAdmit true .good) s = .next t ∧ ItemDropped s rest Objs.spill_refused pipe 135 pipe t))) ∧
    (∀ (it : TmItem) (rest : List TmItem) (o : Bool), s.tm.items = it :: rest → fld it.md 320 12 = 0 → bit it.md 259 = false →
      fld it.md 240 16 < 256 → ∀ mn mx mp, redColour (s.itemRed it) (colourIn (fld it.md 46 2)) = (mn, mx, mp) →
      let pipe := grpPipe (s.grpOfPort (fld it.md 32 8))
      let q := fld it.md 240 8 * 8 + fld it.md 256 3
      let id := s.itemVoq it
      let avg := s.itemAvg it
      let chance : Prop := s.draw.1 % 65536 * (mx - mn) * 256 < mp * (avg - mn * 65536)
      let room : Prop := ¬ s.itemSpills it ∧ (s.itemCells it false).length ≤ s.rd Objs.pool_free pipe ∧
        (s.voq id).cells.length + (s.itemCells it false).length ≤ s.rd Objs.voq_onchip_max
      ((mx = 0 ∨ avg < mn * 65536 ∨ (avg < mx * 65536 ∧ ¬ chance)) → room →
        ∃ t, exec (.tmAdmit o .good) s = .next t ∧ (t.redAvg id).avg = avg ∧
          (t.voq id).cells = (s.voq id).cells ++ s.itemCells it (bit it.md 41)) ∧
      (mx ≠ 0 → mn * 65536 ≤ avg → (mx * 65536 ≤ avg ∨ (chance ∧ bit (s.itemRed it) 124 = false)) →
        ∃ t, exec (.tmAdmit o .good) s = .next t ∧ (t.redAvg id).avg = avg ∧
          ItemDropped s rest Objs.red_drop q 145 (fld it.md 240 8) t) ∧
      (mx ≠ 0 → mn * 65536 ≤ avg → avg < mx * 65536 → chance → bit (s.itemRed it) 124 = true → room →
        ∃ t, exec (.tmAdmit o .good) s = .next t ∧ (t.redAvg id).avg = avg ∧ t.rd Objs.red_mark q = satAdd 64 (s.rd Objs.red_mark q) 1 ∧
          (t.voq id).cells = (s.voq id).cells ++ s.itemCells it true)) ∧
    (∀ (it : TmItem) (rest : List TmItem) (o : Bool), s.tm.items = it :: rest →
      (s.police (fld it.md 320 12) (it.body.length + 4) (fld it.md 46 2)).2.1 = true →
      ∃ t, exec (.tmAdmit o .good) s = .next t ∧ t.tm.items = rest ∧ t.tm.voqs = s.tm.voqs ∧ t.tm.nextItem = s.tm.nextItem ∧
        t.pol (fld it.md 320 12) = (s.police (fld it.md 320 12) (it.body.length + 4) (fld it.md 46 2)).2.2.pol (fld it.md 320 12)) ∧
    (Accepted c Objs.pol_config 0 v polCheck s →
      let n := s.rdCtx c Objs.pol_select
      ∃ t, exec (.polConfigWrite c v) s = .next t ∧ Answered c Objs.pol_config 0 .ok t ∧
        tget 0 t.tm.polCfg n = leNat v ∧ (t.pol n).tc = (polFill (leNat v)).1 ∧ (t.pol n).te = (polFill (leNat v)).2 ∧
        (t.pol n).fill = some s.time.f ∧ (t.pol n).green = (s.pol n).green ∧
        ∀ j, j ≠ n → tget 0 t.tm.polCfg j = tget 0 s.tm.polCfg j ∧ t.pol j = s.pol j) ∧
    (Accepted c Objs.red_profile 0 v redCheck s →
      let n := s.rdCtx c Objs.red_select
      ∃ t, exec (.redProfileWrite c v) s = .next t ∧ Answered c Objs.red_profile 0 .ok t ∧
        tget 0 t.tm.redProf n = leNat v ∧ ∀ j, j ≠ n → tget 0 t.tm.redProf j = tget 0 s.tm.redProf j)

/-- R312, R315: refilling issues fetches in order up to 64 in flight; a fetch that returns puts its cell on chip, or loses the packet. A
cell waits while its pool has no place (log 105), and a refill or return whose conditions fail leaves the state as it is (log 2). -/
def Obligations.SpilledCellsReturn : Prop :=
  ∀ (id : BitVec 16) (s : State),
    ((s.voq id.toNat).spilling = true → (s.voq id.toNat).cells.length ≤ s.rd Objs.refill_level →
      ((s.voq id.toNat).spill.filter (·.fetching)).length ≤ 64 →
      ∃ t, exec (.spillRefill id) s = .next t ∧ (t.voq id.toNat).spill.map (·.cell) = (s.voq id.toNat).spill.map (·.cell) ∧
        ((t.voq id.toNat).spill.filter (·.fetching)).length = min 64 (s.voq id.toNat).spill.length ∧
        (t.voq id.toNat).cells = (s.voq id.toNat).cells) ∧
    (∀ (x : SpillCell) (rest : List SpillCell) (frozen : Bool) (done : List HbmDone), (s.voq id.toNat).spill = x :: rest →
      takeDone (s.ctl (slotPc x.slot)).done 1 (spillTag id.toNat x.pos) 4 = some (frozen, done) →
      (frozen = false → x.lost = false → (s.voq id.toNat).skipping = false → 0 < s.rd Objs.pool_free (grpPipe (fld id.toNat 10 5)) →
        ∃ t, exec (.spillFetchReturn id false) s = .next t ∧ (t.voq id.toNat).cells = (s.voq id.toNat).cells ++ [x.cell] ∧
          (t.voq id.toNat).spill = rest ∧ (t.voq id.toNat).spilling = !rest.isEmpty ∧
          t.rd Objs.pool_free (grpPipe (fld id.toNat 10 5)) = s.rd Objs.pool_free (grpPipe (fld id.toNat 10 5)) - 1) ∧
      (∃ t, exec (.spillFetchReturn id true) s = .next t ∧ (t.voq id.toNat).spill = rest ∧ (t.voq id.toNat).skipping = true ∧
        (t.voq id.toNat).cells = (s.voq id.toNat).cells.filter (fun y => y.item ≠ x.cell.item) ∧
        ∃ e ∈ t.fm.raised, e.src = 137 ∧ e.unit = grpPipe (fld id.toNat 10 5)))

/-- R316 to R323, R329: a cell crosses the fabric: from its VOQ to a middle, into the middle's queue, to an output, and through
reorder. The model's choices: control words take effect in the slot that sends them (log 25), the moments of XOFF and what a skip does to a
packet that lost a cell (log 105); a slot that has sent its cell and a timeout that is not due leave the state as it is (log 2). -/
def Obligations.CellsCrossTheFabric : Prop :=
  ∀ (s : State),
    (∀ (i : Fin 32) (id : Nat) (o : Option Nat) (x : Cell) (rest : List Cell),
      let m := (i + s.slotNo) % 32
      tget 0 s.tm.sent1 i ≠ s.slotNo + 1 → s.middleIn m = true → chooseVoq s i m = some (id, o) → (s.voq id).cells = x :: rest →
      ∃ t, exec (.inputSlot i .good) s = .next t ∧ (t.voq id).cells = rest ∧ tget 0 t.tm.sent1 i = s.slotNo + 1 ∧
        t.tm.wire1 = s.tm.wire1 ++ [⟨s.slotNo + 2, m, { x with src := i, seq := if x.mc then x.seq else (s.voq id).seq }⟩]) ∧
    (∀ (i : Fin 32), tget 0 s.tm.sent1 i = s.slotNo + 1 → exec (.inputSlot i .good) s = .next s) ∧
    (∀ (m : Fin 32) (w : OnWire) (rest : List OnWire) (word : WordEcc), takeWire s.tm.wire1 m s.slotNo = some (w, rest) → w.cell.mc = false →
      s.middleIn m = true →
      ∃ t, exec (.cellAtMiddle m .good word) s = .next t ∧ t.tm.wire1 = rest ∧
        t.mid m w.cell.dst w.cell.kind = s.mid m w.cell.dst w.cell.kind ++ [w.cell]) ∧
    (∀ (m : Fin 32) (k : Nat) (x : Cell) (rest : List Cell),
      let o := (m + s.slotNo) % 32
      tget 0 s.tm.sent2 m ≠ s.slotNo + 1 → s.middleIn m = true → chooseMid s m (s.grpOf o) = some k →
      s.mid m (s.grpOf o) k = x :: rest →
      ∃ t, exec (.middleSlot m .good false) s = .next t ∧ t.mid m (s.grpOf o) k = rest ∧ tget 0 t.tm.sent2 m = s.slotNo + 1 ∧
        t.tm.wire2 = s.tm.wire2 ++ [⟨s.slotNo + 2, o, x⟩] ∧
        tget 0 t.tm.xoffView (o * 32 + s.grpOf m) = s.rd Objs.xoff_map (s.grpOf m)) ∧
    (∀ (o : Fin 32) (w : OnWire) (rest : List OnWire), takeWire s.tm.wire2 o s.slotNo = some (w, rest) → w.cell.mc = false →
      s.storeCells (s.grpOf o) < s.storeSize (s.grpOf o) →
      let key := ctxKey (s.grpOf o) (s.grpOf w.cell.src) false w.cell.kind
      (0 < wrapDiff 15 w.cell.seq (s.reordCtx key).e →
        ∃ t, exec (.cellAtOutput o .good) s = .next t ∧ t.tm.wire2 = rest ∧
          (t.reordCtx key).held = (s.reordCtx key).held ++ [w.cell] ∧ (t.reordCtx key).e = (s.reordCtx key).e) ∧
      (w.cell.seq = (s.reordCtx key).e → (s.reordCtx key).held = [] →
        ∃ t, exec (.cellAtOutput o .good) s = .next t ∧ t.tm.wire2 = rest ∧ (t.reordCtx key).held = [] ∧
          (t.reordCtx key).e = ((s.reordCtx key).e + 1) % 2 ^ 15) ∧
      (wrapDiff 15 w.cell.seq (s.reordCtx key).e < 0 →
        ∃ t, exec (.cellAtOutput o .good) s = .next t ∧ t.tm.wire2 = rest ∧
          t.rd Objs.late_cells (s.grpOf o) = satAdd 64 (s.rd Objs.late_cells (s.grpOf o)) 1 ∧
          (t.reordCtx key).held = (s.reordCtx key).held)) ∧
    (∀ (g i : Fin 32) (k : Fin 9) (x : Cell), lowestHeld (s.reordCtx (ctxKey g i false k)) = some x →
      (skipDue s (s.reordCtx (ctxKey g i false k)) k = true →
        ∃ t, exec (.fabReorderTimeout g i k) s = .next t ∧
          t.rd Objs.reorder_skips g = satAdd 64 (s.rd Objs.reorder_skips g) 1 ∧ (∃ e ∈ t.fm.raised, e.src = 130 ∧ e.unit = g) ∧
          (t.reordCtx (ctxKey g i false k)).held.length < (s.reordCtx (ctxKey g i false k)).held.length) ∧
      (skipDue s (s.reordCtx (ctxKey g i false k)) k = false → exec (.fabReorderTimeout g i k) s = .next s))

/-- R341, R342, R343, R345, R378: a copy is admitted to its queue or refused; the MAC of an idle port starts the express frame before a queue's, and
the strict queue 7 before the others; a launched frame starts when it is due. The model's choices: the layout of PRP trailers and HSR
tags (PRESUMED, log 29), the place of a start grid against W (log 34), the board delay of a timestamp point (log 110), RS-FEC parity
before it (PRESUMED, log 114), when the MAC is free again (log 32), what a word that cannot be read does (log 40); a port that is not UP
leaves the state as it is (log 2). -/
def Obligations.EgressQueuesAndStarts : Prop :=
  ∀ (p : Fin 256) (ofs : BitVec 32) (s : State),
    (∀ (g : Fin 32) (r : Ready) (f : Flight) (port : Fin 256) (word : WordEcc) (edit : Option (Fin 256)), s.tm.ready.find? (fun x => x.grp = g.val) = some r → tfind s.tm.flights r.item = some f →
      r.mc = false → 8 * g.val + fld r.head 4 3 = p →
      (s.link p = 2 → bit r.head 23 = false → r.exp = false → r.cls < (s.ep p).queues.length →
        ((s.ep p).q r.cls).length < s.rd Objs.queue_max (p * 8 + r.cls) →
        ∃ t fr, exec (.egressAdmit g port .good word edit) s = .next t ∧ t.tm.ready = s.tm.ready.erase r ∧
          (t.ep p).q r.cls = (s.ep p).q r.cls ++ [fr] ∧ fr.cls = r.cls ∧ fr.admitT = r.admitT ∧ fr.cells = r.cells) ∧
      (s.link p = 1 →
        ∃ t, exec (.egressAdmit g port .good word edit) s = .next t ∧ t.tm.ready = s.tm.ready.erase r ∧ t.eg = s.eg ∧
          t.rd Objs.tx_drop_down p = satAdd 64 (s.rd Objs.tx_drop_down p) 1)) ∧
    (s.isUp p = true → s.txClosed p = false → (s.ep p).txE = none → (s.ep p).txP = none →
      (∀ f rest, (s.ep p).cal = [] → (s.ep p).expr = f :: rest → stale s p f = false → f.ptp = none →
        ∃ t, exec (.frameStart p false ofs .good) s = .next t ∧ (t.ep p).expr = rest ∧ (t.ep p).queues = (s.ep p).queues ∧
          (t.ep p).txE = some ⟨f.body.length + 12, f.body.length + 4, s.fNs, false, false⟩ ∧
          t.outbox = s.outbox ++ [.frame p (f.body ++ leBytes 4 (crc32 f.body)) (egressTime s p ofs.toNat)]) ∧
      (∀ f rest, (s.ep p).cal = [] → (s.ep p).expr = [] → (s.ep p).q 7 = f :: rest → 1 ≤ s.rd Objs.strict_count p →
        preemptQueue s p 7 = false → eligible s p 7 = true → stale s p f = false → f.ptp = none →
        ∃ t, exec (.frameStart p false ofs .good) s = .next t ∧ (t.ep p).q 7 = rest ∧
          t.outbox = s.outbox ++ [.frame p (f.body ++ leBytes 4 (crc32 f.body)) (egressTime s p ofs.toNat)] ∧
          t.rd Objs.tx_queue_frames (p * 8 + 7) = satAdd 64 (s.rd Objs.tx_queue_frames (p * 8 + 7)) 1) ∧
      (∀ f rest, (s.ep p).cal = f :: rest → headDue s p f = true → f.ptp = none →
        ∃ t, exec (.launchDue p ofs) s = .next t ∧ (t.ep p).cal = rest ∧ (t.ep p).queues = (s.ep p).queues ∧
          t.outbox = s.outbox ++ [.frame p (f.body ++ leBytes 4 (crc32 f.body)) (launchTime s p f ofs.toNat)])) ∧
    (s.isUp p = false → ∀ pre ecc, exec (.frameStart p pre ofs ecc) s = .next s ∧ exec (.launchDue p ofs) s = .next s) ∧
    ∀ (c : Ctx) (p : Fin 256) (v : List Byte),
    (Accepted c Objs.port_shaper p v shCheck s →
      ∃ t, exec (.shaperWrite c p 8 v) s = .next t ∧ Answered c Objs.port_shaper p .ok t ∧ t.rd Objs.port_shaper p = leNat v ∧
        (t.ep p).psh = ⟨if bit (leNat v) 0 then 0 else ((fld (leNat v) 56 24 * 2 ^ 32 : Nat) : Int), s.time.f⟩ ∧
        (t.ep p).queues = (s.ep p).queues) ∧
    (∀ q : Fin 8, Accepted c Objs.queue_shaper (p * 8 + q) v shCheck s → q < (s.ep p).qsh.length →
      ∃ t, exec (.shaperWrite c p q.castSucc v) s = .next t ∧ Answered c Objs.queue_shaper (p * 8 + q) .ok t ∧
        t.rd Objs.queue_shaper (p * 8 + q) = leNat v ∧
        (t.ep p).sh q = ⟨if bit (leNat v) 0 then 0 else ((fld (leNat v) 56 24 * 2 ^ 32 : Nat) : Int), s.time.f⟩ ∧
        (t.ep p).psh = (s.ep p).psh) ∧
    (∀ q : Fin 8, Accepted c Objs.queue_weight (p * 8 + q) v noCheck s →
      ∃ t, exec (.queueWeightWrite c p q v) s = .next t ∧ Answered c Objs.queue_weight (p * 8 + q) .ok t ∧
        t.rd Objs.queue_weight (p * 8 + q) = leNat v ∧ t.eg = s.eg) ∧
    (Accepted c Objs.strict_count p v noCheck s →
      ∃ t, exec (.strictCountWrite c p v) s = .next t ∧ Answered c Objs.strict_count p .ok t ∧
        t.rd Objs.strict_count p = leNat v ∧ (t.ep p).credit = List.replicate 8 0 ∧ (t.ep p).queues = (s.ep p).queues)

/-- R355, R367, R371, R372, R373, R375: what becomes effective at an epoch boundary, and the update of W. The steps of a domain that
wait take effect one after the other. The model's choices: a command whose boundary or update is not due leaves the state as it is (log 2),
rounding (log 6), the moments of R372's rows (log 9), what a return to AUTO keeps (log 7), and the older port delays that are kept
(log 113). -/
def Obligations.EpochBoundaryTakesEffect : Prop :=
  ∀ (s : State),
    (s.time.ticks < (s.time.epochs + 1) * epochTicks → ∀ x, exec (.epochBoundary x) s = .next s) ∧
    ((s.time.epochs + 1) * epochTicks ≤ s.time.ticks →
      ∃ t, exec (.epochBoundary .none) s = .next t ∧ t.time.epochs = s.time.epochs + 1 ∧
        t.time.history.length = min 4096 (s.time.history.length + 1) ∧ t.rd Objs.w_inc = t.time.incW ∧
        (∀ d : Fin 2, (t.trk d).inc = (s.trk d).pendInc.getD (s.trk d).inc ∧ (t.trk d).pendStep = [] ∧
          ((s.trk d).pendStep = [] → t.ctr d = s.ctr d) ∧
          (∀ x, (s.trk d).pendStep = [x] → t.ctr d = ctrAdd (s.ctr d) x) ∧ t.ctr d = (s.trk d).pendStep.foldl ctrAdd (s.ctr d) ∧
          (LockDue s d → t.rd Objs.dom_state d = 3 ∧ ∃ e ∈ t.fm.raised, e.src = 192 ∧ e.unit = d) ∧
          (PlausDue s d → t.rd Objs.dom_state d = 4 ∧ ∃ e ∈ t.fm.raised, e.src = 194 ∧ e.unit = d) ∧
          (¬ LockDue s d → ¬ PlausDue s d → LossDue s d → t.rd Objs.dom_state d = 4 ∧ ∃ e ∈ t.fm.raised, e.src = 193 ∧ e.unit = d)) ∧
        (∀ ns, s.newDomain = none → s.time.wPend = some ns → s.rd Objs.w_state = 0 → t.time.w = ns * 2 ^ 40 % ctrWrap) ∧
        (∀ d, s.newDomain = some d → s.rd Objs.w_state = 0 → t.time.w = t.ctr d) ∧
        ((∀ d : Fin 2, ¬ LockDue s d ∧ ¬ PlausDue s d ∧ ¬ LossDue s d) →
          t.time.newLocked = 0 ∧ t.time.pendIncW = none ∧ (∀ d : Fin 2, (t.trk d).pendInc = none) ∧
          ∀ d, s.newDomain = some d → s.rd Objs.w_state = 0 → t.rd Objs.w_state = 1 ∧ t.rd Objs.w_active = d)) ∧
    (s.time.wUpdates < s.time.epochs / 512 →
      (s.rd Objs.w_state = 0 ∨ s.rd Objs.w_state = 3 →
        exec .wUpdate s = .next { s with time := { s.time with wUpdates := s.time.epochs / 512 } }) ∧
      (s.rd Objs.w_state = 1 ∨ s.rd Objs.w_state = 2 →
        ∃ t, exec .wUpdate s = .next t ∧ t.time.w = s.time.w ∧ t.time.wUpdates = s.time.epochs / 512 ∧
          t.rd Objs.w_inc = t.time.incW ∧ t.time.incWBase = (s.trk (s.rd Objs.w_active)).inc ∧
          (s.rd Objs.w_state = 2 → 2 * |ctrDiff (s.ctr (s.rd Objs.w_active)) s.time.w| ≤ 2 ^ 40 →
            t.rd Objs.w_state = 1 ∧ Raised 198 0 s t)))

/-- R369, R371, R372, R386: the loss of a domain's samples, and the writes of the time unit's objects. A second dom_step in one epoch
waits behind the first. The model's choices: dom_step adds its signed value (log 11), the increment is rounded to the nearest (log 6),
and a loss that is not due leaves the state as it is (log 2). -/
def Obligations.TimeObjectsTakeEffect : Prop :=
  ∀ (c : Ctx) (d : Fin 2) (v : List Byte) (s : State),
    ((s.rd Objs.dom_state d = 2 ∨ s.rd Objs.dom_state d = 3) → s.rd Objs.dom_mode d = 0 →
      s.elapsed (s.trk d).lastF (s.rd Objs.dom_loss_timeout d * 1000000) = true →
      ∃ t, exec (.domLossTimeout d) s = .next t ∧ t.rd Objs.dom_state d = 4 ∧ (t.trk d).pendInc = some (incFor (s.trk d).i) ∧
        ∃ e ∈ t.fm.raised, e.src = 193 ∧ e.unit = d) ∧
    (¬ ((s.rd Objs.dom_state d = 2 ∨ s.rd Objs.dom_state d = 3) ∧ s.rd Objs.dom_mode d = 0 ∧
        s.elapsed (s.trk d).lastF (s.rd Objs.dom_loss_timeout d * 1000000) = true) → exec (.domLossTimeout d) s = .next s) ∧
    (Accepted c Objs.dom_enable d v noCheck s →
      ∃ t, exec (.domEnableWrite c d v) s = .next t ∧ Answered c Objs.dom_enable d .ok t ∧ t.rd Objs.dom_enable d = leNat v ∧
        (leNat v = 0 → t.rd Objs.dom_state d = 0 ∧ (t.trk d).pendInc = some incNom ∧ (t.trk d).i = 0) ∧
        (leNat v ≠ 0 → s.rd Objs.dom_state d = 0 → s.rd Objs.dom_mode d ≠ 1 → t.rd Objs.dom_state d = 1)) ∧
    (Accepted c Objs.w_select 0 v wSelectCheck s →
      ∃ t, exec (.wSelectWrite c v) s = .next t ∧ Answered c Objs.w_select 0 .ok t ∧ t.rd Objs.w_select = leNat v ∧
        ((s.rd Objs.w_state = 1 ∨ s.rd Objs.w_state = 2) → s.rd Objs.w_active ≠ leNat v →
          t.rd Objs.w_state = 2 ∧ t.rd Objs.w_active = leNat v ∧ Raised 197 0 s t)) ∧
    (Accepted c Objs.w_set 0 v wSetCheck s →
      ∃ t, exec (.wSet c v) s = .next t ∧ Answered c Objs.w_set 0 .ok t ∧ t.time.w = s.time.w ∧
        t.time.wPend = some (fld (leNat v) 32 48 * 1000000000 + fld (leNat v) 0 32)) ∧
    (Accepted c Objs.dom_step d v (softOnly d) s →
      ∃ t, exec (.domStep c d v) s = .next t ∧ Answered c Objs.dom_step d .ok t ∧ t.ctr d = s.ctr d ∧
        (t.trk d).pendStep = (s.trk d).pendStep ++ [toSigned 64 (leNat v) * 2 ^ 24]) ∧
    (Accepted c Objs.dom_inc d v (softOnly d) s →
      ∃ t, exec (.domIncWrite c d v) s = .next t ∧ Answered c Objs.dom_inc d .ok t ∧ t.rd Objs.dom_inc d = leNat v ∧
        (t.trk d).inc = (s.trk d).inc ∧ (t.trk d).pendInc = some (leNat v)) ∧
    (Accepted c Objs.time_snapshot 0 v noCheck s →
      ∃ t, exec (.timeSnapshot c v) s = .next t ∧ Answered c Objs.time_snapshot 0 .ok t ∧ t.time = s.time ∧
        t.rd Objs.snap_f = stamp96 s.time.f ∧ t.rd Objs.snap_a = stamp96 s.time.a ∧ t.rd Objs.snap_b = stamp96 s.time.b ∧
        t.rd Objs.snap_w = stamp96 s.time.w)

/-- R381, R382, R383: the PPS outputs, with the divided recovered clock, and the capture of event inputs. The model's choices: PPS_EDGE
in mode RCLK is an edge of the recovered clock (log 109), an edge within 100 ns of the last one is a capture lost (log 119), and an edge
of a pin in mode OFF leaves the state as it is (log 2). -/
def Obligations.PpsAndEventPins : Prop :=
  ∀ (s : State),
    (∀ (k : Fin 2) (rise : Bool),
      (s.rd Objs.pps_mode k ≠ 1 → s.rd Objs.pps_mode k ≠ 2 → exec (.ppsEdge k rise) s = .next s) ∧
      (s.rd Objs.pps_mode k = 2 → ∃ t, exec (.ppsEdge k rise) s = .next t ∧ t = { s with time := t.time } ∧
        (s.rclkSignal k = false → t.time.ppsHigh = s.time.ppsHigh.set k false ∧ t.time.rclkCount = s.time.rclkCount.set k 0) ∧
        (s.rclkSignal k = true → s.time.rclkCount.getD k 0 + 1 < s.rd Objs.rclk_div k →
          t.time.ppsHigh = s.time.ppsHigh ∧ t.time.rclkCount = s.time.rclkCount.set k (s.time.rclkCount.getD k 0 + 1)) ∧
        (s.rclkSignal k = true → s.rd Objs.rclk_div k ≤ s.time.rclkCount.getD k 0 + 1 →
          t.time.ppsHigh = s.time.ppsHigh.set k (!(s.time.ppsHigh.getD k false)) ∧ t.time.rclkCount = s.time.rclkCount.set k 0)) ∧
      (s.rd Objs.pps_mode k = 1 → ppsHeldLow s k = true → exec (.ppsEdge k rise) s = .next (setPps s k false)) ∧
      (s.rd Objs.pps_mode k = 1 → ppsHeldLow s k = false → rise = true →
        (ppsTime s k - (sourceInc s.time (s.rd Objs.pps_source k) : Int)) / ((ppsPeriod (s.rd Objs.pps_rate k) : Int) * 2 ^ 40) <
          ppsTime s k / ((ppsPeriod (s.rd Objs.pps_rate k) : Int) * 2 ^ 40) →
        exec (.ppsEdge k rise) s = .next (setPps s k true))) ∧
    (∀ (k : Fin 4) (falling : Bool) (n : Nat), s.rd Objs.evt_enable k = 1 → s.rd Objs.evt_edge k = b2n falling →
      s.rd Objs.evt_filter k * 5 ≤ n → k < s.time.evtFifo.length →
      (s.evtTooSoon k ((s.fNs + wrapNs - n / 5) % wrapNs) = true →
        ∃ t, exec (.evtInEdge k falling n) s = .next t ∧ t.time = s.time ∧ Raised 204 k s t ∧
          t.rd Objs.evt_overflow k = satAdd 64 (s.rd Objs.evt_overflow k) 1) ∧
      (s.evtTooSoon k ((s.fNs + wrapNs - n / 5) % wrapNs) = false → (s.time.evtFifo.getD k []).length < 64 →
        ∃ t x, exec (.evtInEdge k falling n) s = .next t ∧
          t.time.evtFifo.getD k [] = s.time.evtFifo.getD k [] ++ [x] ∧ x.edge = b2n falling) ∧
      (s.evtTooSoon k ((s.fNs + wrapNs - n / 5) % wrapNs) = false → 64 ≤ (s.time.evtFifo.getD k []).length →
        ∃ t, exec (.evtInEdge k falling n) s = .next t ∧ t.time.evtFifo = s.time.evtFifo ∧
          t.rd Objs.evt_overflow k = satAdd 64 (s.rd Objs.evt_overflow k) 1)) ∧
    (∀ (c : Ctx) (k : Fin 4), s.pathServed c = true → judgeRead c Objs.evt_fifo (fun _ => .ok) s = .ok →
      ∃ t, exec (.evtFifoRead c k) s = .next t ∧
        t.time.evtFifo = s.time.evtFifo.set k ((s.time.evtFifo.getD k []).drop 1) ∧
        t.outbox = s.outbox ++ [.answer c (Objs.evt_fifo.key k / 256) (Objs.evt_fifo.key k % 256) 0
          (leBytes Objs.evt_fifo.ty.size (evtHead k s))])

/-- R392, R393, R395, R398, R401 to R404: the events of an HBM controller: training, retraining, refresh, temperature, a completed read,
errors that freeze it, the hold of a row, and the patrol scrub. The model's choices: the order of acceptance and issue (log 18), which
clients wait for their reads (log 19), spare lanes (log 70), the boot that waits for training (log 82), and the hbm_diag of EV172
(log 76); a refresh, an error or a completed read whose controller does not serve leaves the state as it is (log 2). -/
def Obligations.HbmControllerEvents : Prop :=
  ∀ (p : Fin 128) (s : State),
    (∀ (n : Nat) (bad : List (Fin 16)), s.pcState p = 0 → (s.eft.phase ≠ .training ∨ ∃ q : Fin 128, q ≠ p ∧ s.pcState q = 0) →
      (s.pcRetired p = false → n ≤ s.sparesLeft (stackOf p) →
        ∃ t, exec (.hbmTrainingDone p true n bad) s = .next t ∧ t.pcState p = 1 ∧ t.hbm = (s.takeSpares p n).hbm ∧
          (t.fm.raised.filter (fun e => e.src == 166)).length = (s.fm.raised.filter (fun e => e.src == 166)).length + n) ∧
      (s.pcRetired p = false → ∀ pass, (pass = true → s.sparesLeft (stackOf p) < n) →
        ∃ t, exec (.hbmTrainingDone p pass n bad) s = .next t ∧ t.pcState p = 4 ∧ t.pcRetired p = true ∧
          ∃ e ∈ t.fm.raised, e.src = 165 ∧ e.unit = p) ∧
      (s.pcRetired p = true → ∀ pass, ∃ t, exec (.hbmTrainingDone p pass n bad) s = .next t ∧ t.pcState p = 4)) ∧
    (s.pcState p = 1 → (s.ctl p).asleep = false ∧ s.elapsed (s.ctl p).lastRetrain (s.rd Objs.hbm_retrain_interval * 1000) = true ∨
        (s.ctl p).asleep = true ∧ s.eft.phase = .restart →
      (∃ t, exec (.hbmRetrain p true false) s = .next t ∧ t.pcState p = 1 ∧ (t.ctl p).lastRetrain = s.fNs ∧
        (t.ctl p).openRow = [] ∧ (t.ctl p).asleep = false ∧ t.fm = s.fm) ∧
      (1 ≤ s.sparesLeft (stackOf p) → ∃ t, exec (.hbmRetrain p true true) s = .next t ∧ t.pcState p = 1 ∧ (t.ctl p).asleep = false ∧
        t.sparesLeft (stackOf p) = s.sparesLeft (stackOf p) - 1 ∧ Raised 166 p s t) ∧
      ∃ t, exec (.hbmRetrain p false false) s = .next t ∧ t.pcState p = 2 ∧ ∃ e ∈ t.fm.raised, e.src = 165 ∧ e.unit = p) ∧
    (s.pcState p ≠ 4 →
      ∃ t, exec (.hbmRefresh p) s = .next t ∧ (t.ctl p).nextBank = ((s.ctl p).nextBank + 1) % 48 ∧
        tfind (t.ctl p).openRow (s.ctl p).nextBank = none ∧ t = { s with hbm := t.hbm }) ∧
    (s.pcState p = 4 → exec (.hbmRefresh p) s = .next s) ∧
    (∀ (k : Fin 4) (x : BitVec 32), ∃ t, exec (.hbmTempSample k x) s = .next t ∧ t.rd Objs.hbm_stack_temp k = x.toNat ∧
      (95 < toSigned 32 x.toNat → Raised 172 k s t)) ∧
    (∀ (i : Nat) (r : HbmReq) (y : BitVec 16), (s.ctl p).turned.nextRead = some (i, r) → (s.ctl p).turned.writing = false →
      (s.ctl p).asleep = false → s.pcState p = 1 →
      (∃ t, exec (.hbmReadComplete p ⟨.good, 0, y⟩) s = .next t ∧ (t.ctl p).rq = (s.ctl p).rq.eraseIdx i ∧
        (t.ctl p).rowOpen r.off = true ∧
        (r.client = 2 ∨ r.client = 6 → t.dict = s.dict ∧ t.str = s.str ∧ (t.ctl p).done = (s.ctl p).done) ∧
        (r.client = 3 → t.dict = s.dict ∧ (t.ctl p).done = (s.ctl p).done ∧ t.str.chans = tmod StrChan.empty s.str.chans r.tag (·.got false)) ∧
        (r.client ∉ [2, 3, 4, 6] → t.dict = s.dict ∧ t.str = s.str ∧ (t.ctl p).done = (s.ctl p).done ++ [⟨r, false⟩])) ∧
      (∃ t, exec (.hbmReadComplete p ⟨.corrected, 0, y⟩) s = .next t ∧ (t.ctl p).rq = (s.ctl p).rq.eraseIdx i ∧
        ((s.ctl p).wq.any (fun w => w.off = r.off) = false → r.off ∈ (t.ctl p).fix) ∧
        t.rd Objs.hbm_ecc_corr p = satAdd 64 (s.rd Objs.hbm_ecc_corr p) 1 ∧ ∃ e ∈ t.fm.raised, e.src = 160 ∧ e.unit = p) ∧
      ∃ t, exec (.hbmReadComplete p ⟨.uncorrectable, 0, y⟩) s = .next t ∧ t.pcState p = 2 ∧ (t.ctl p).rq = [] ∧ (t.ctl p).wq = [] ∧
        (t.ctl p).wait = [] ∧
        (t.ctl p).done = (s.ctl p).done ++ (((s.ctl p).rq ++ (s.ctl p).wait.filterMap HbmAsk.asRead).filter
          (fun q => !([2, 3, 4, 6] : List Nat).contains q.client)).map (fun q => ⟨q, true⟩) ∧ ∃ e ∈ t.fm.raised, e.src = 162 ∧ e.unit = p) ∧
    (∀ (o : BitVec 30) (w : Bool) (k : Fin 8),
      (s.pcState p = 1 →
        (∃ t, exec (.hbmCaParity p o w k) s = .next t ∧ t.pcState p = 2 ∧ (∃ e ∈ t.fm.raised, e.src = 163 ∧ e.unit = p) ∧
          t.rd Objs.hbm_freezes p = satAdd 64 (s.rd Objs.hbm_freezes p) 1) ∧
        ∃ t, exec (.hbmQueueParity p k) s = .next t ∧ t.pcState p = 2 ∧ (∃ e ∈ t.fm.raised, e.src = 164 ∧ e.unit = p) ∧
          t.rd Objs.hbm_freezes p = satAdd 64 (s.rd Objs.hbm_freezes p) 1) ∧
      (s.pcState p ≠ 1 → exec (.hbmCaParity p o w k) s = .next s ∧ exec (.hbmQueueParity p k) s = .next s)) ∧
    (∀ b : Fin 48, (s.ctl p).held.any (fun h => h.1 == b.val && s.elapsed h.2.2 128) = true →
      ∃ t, exec (.rowHoldExpiry p b) s = .next t ∧ (t.ctl p).held = (s.ctl p).held.filter (fun h => h.1 ≠ b.val)) ∧
    (s.rd Objs.hbm_scrub_period ≠ 0 → s.pcState p = 1 →
      s.elapsed (s.ctl p).patrolStart ((s.ctl p).patrol * (s.rd Objs.hbm_scrub_period * 1000000000) / pcBursts) = true →
      ∃ t, exec (.hbmPatrolScrub p) s = .next t ∧ (t.ctl p).wait = (s.ctl p).wait ++ [.read ⟨6, (s.ctl p).patrol * 32, 0, false⟩] ∧
        (t.ctl p).patrol = ((s.ctl p).patrol + 1) % pcBursts)

/-- R406, R407, R408: a thaw and a row repair run from their command to their end. Which bursts a thaw lists, the spare lanes, the
diagnostic of a failed thaw and what a zeroed burst takes away are log 70. -/
def Obligations.HbmRepairs : Prop :=
  ∀ (c : Ctx) (v : List Byte) (s : State),
    (Accepted c Objs.hbm_thaw 0 v thawCheck s →
      ∃ t, exec (.hbmThaw c v) s = .next t ∧ Answered c Objs.hbm_thaw 0 .ok t ∧ t.pcState (leNat v) = 3 ∧
        (t.ctl (leNat v)).job = some .thaw ∧ (t.ctl (leNat v)).rq = [] ∧ (t.ctl (leNat v)).wq = [] ∧
        t.result c (Objs.hbm_thaw.key 0) = 8) ∧
    (∀ (p : Fin 128) (spare : Bool) (bad : List (BitVec 30)), (s.ctl p).job = some .thaw →
      (b2n spare ≤ s.sparesLeft (stackOf p) → ∃ t, exec (.hbmThawDone p .passed spare bad) s = .next t ∧ t.pcState p = 1 ∧
        (t.ctl p).job = none ∧ ∃ e ∈ t.fm.raised, e.src = 167 ∧ e.unit = p) ∧
      ∀ res, res ≠ .passed → ∃ t, exec (.hbmThawDone p res spare bad) s = .next t ∧ t.pcState p = 2 ∧ (t.ctl p).job = none ∧
        ∃ e ∈ t.fm.raised, e.src = 165 ∧ e.unit = p) ∧
    (∀ n : Nat, (n = 1 ∨ n = 2) → Accepted c Objs.hbm_ppr 0 [BitVec.ofNat 8 n] pprCheck s →
      ∃ t, exec (if n = 1 then .hbmPprSoft c else .hbmPprHard c) s = .next t ∧ Answered c Objs.hbm_ppr 0 .ok t ∧
        t.result c (Objs.hbm_ppr.key 0) = 8 ∧
        (t.ctl (pprPc (s.rd Objs.hbm_ppr_target))).job =
          some (if n = 1 then .pprSoft (pprBank (s.rd Objs.hbm_ppr_target)) (fld (s.rd Objs.hbm_ppr_target) 0 14)
            else .pprHard (pprBank (s.rd Objs.hbm_ppr_target)) (fld (s.rd Objs.hbm_ppr_target) 0 14))) ∧
    (∀ (p : Fin 128) (bank row : Nat) (bad : List (BitVec 30)),
      ((s.ctl p).job = some (.pprSoft bank row) → ∃ t, exec (.hbmPprDone p true bad) s = .next t ∧ (t.ctl p).job = none ∧
        (t.ctl p).sppr = bank :: (s.ctl p).sppr ∧ (∀ o ∈ inRow bank row bad, o ∈ (t.ctl p).marks) ∧ Raised 170 p s t) ∧
      ((s.ctl p).job = some (.pprHard bank row) → ∃ t, exec (.hbmPprDone p true bad) s = .next t ∧ (t.ctl p).job = none ∧
        (t.ctl p).hpprUsed = (s.ctl p).hpprUsed + 1 ∧ (∀ o ∈ inRow bank row bad, o ∈ (t.ctl p).marks) ∧ Raised 170 p s t) ∧
      ((s.ctl p).job = some (.pprSoft bank row) ∨ (s.ctl p).job = some (.pprHard bank row) →
        ∃ t, exec (.hbmPprDone p false bad) s = .next t ∧ (t.ctl p).job = none ∧ (t.ctl p).sppr = (s.ctl p).sppr ∧
          (t.ctl p).hpprUsed = (s.ctl p).hpprUsed ∧ Raised 171 p s t))

/-- R396, R397, R417, R418: an access through BAR2 reads and writes the bytes of the software region as the controllers hold them: a read
presents its bursts and completes when the last has returned; every byte outside a write reads as before; an access waits while a write
of the host that came before it is not accepted. The model's choices: a byte that nothing has written reads 0 (log 17), and the order of
acceptance and issue (log 18). -/
def Obligations.SoftwareRegionAccess : Prop :=
  ∀ (r : BitVec 35) (s : State),
    let free := s.barWaits = false ∧ s.hbm.bar2Held = []
    (¬ free → (∀ n : Fin 4097, exec (.bar2Read r n) s = .next { s with hbm := { s.hbm with bar2Held := s.hbm.bar2Held ++ [.read r.toNat n] } }) ∧
      ∀ data : List Byte, exec (.bar2Write r data) s = .next { s with hbm := { s.hbm with bar2Held := s.hbm.bar2Held ++ [.write r.toNat data] } }) ∧
    (∀ n : Fin 4097, free → r.toNat < swSize →
      (n = 0 → exec (.bar2Read r n) s = .next (s.put (.completion (some [])))) ∧
      (0 < n.val → (swBursts r.toNat n).any (fun a => s.pcRefuses (swPc a)) = false →
        ∃ t, exec (.bar2Read r n) s = .next t ∧ t.outbox = s.outbox ∧ t.dict = s.dict ∧
          t.hbm.bar2 = s.hbm.bar2 ++ [⟨s.hbm.bar2Tag, r.toNat, n, [], (swBursts r.toNat n).length, none⟩] ∧
          ∀ p, (t.ctl p).wait = (s.ctl p).wait ++ ((swBursts r.toNat n).filter (fun a => swPc a = p)).map
            (fun a => .read ⟨4, swOff a, s.hbm.bar2Tag, false⟩)) ∧
      (0 < n.val → (swBursts r.toNat n).all (fun a => s.pcRefuses (swPc a)) = true → (∀ b ∈ s.hbm.bar2, b.tag ≠ s.hbm.bar2Tag) →
        ∃ t, exec (.bar2Read r n) s = .next t ∧ t.outbox = s.outbox ++ [.completion none] ∧ Raised 214 0 s t ∧
          t.rd Objs.bar2_frozen = satAdd 64 (s.rd Objs.bar2_frozen) 1)) ∧
    (∀ (p : Fin 128) (i : Nat) (q : HbmReq) (b : Bar2Read) (y : BitVec 16), (s.ctl p).turned.nextRead = some (i, q) →
      (s.ctl p).turned.writing = false → (s.ctl p).asleep = false → s.pcState p = 1 → q.client = 4 → 0x25000000 ≤ q.off →
      s.hbm.bar2.find? (fun x => x.tag = q.tag) = some b → b.left = 1 → b.frozen = none →
      ∃ t, exec (.hbmReadComplete p ⟨.good, 0, y⟩) s = .next t ∧ t.hbm.bar2 = s.hbm.bar2.filter (fun x => x.tag ≠ q.tag) ∧
        t.outbox = s.outbox ++ [.completion (some ((List.range b.len).map (fun k => if (b.off + k) / 32 * 32 = swOfPc p q.off
          then (stackBytes s.hbm (swOfPc p q.off) 32).getD ((b.off + k) % 32) 0 else b.byte k)))]) ∧
    (∀ n : Fin 4097, free → swSize ≤ r.toNat →
      ∃ t, exec (.bar2Read r n) s = .next t ∧ t.outbox = s.outbox ++ [.completion (some (List.replicate n 0))] ∧
        Raised 215 0 s t ∧ t.rd Objs.bar2_range_err = satAdd 64 (s.rd Objs.bar2_range_err) 1) ∧
    (∀ data : List Byte, free → swSize ≤ r.toNat →
      ∃ t, exec (.bar2Write r data) s = .next t ∧ t.hbm = s.hbm ∧ t.outbox = s.outbox ∧ Raised 215 0 s t ∧
        t.rd Objs.bar2_range_err = satAdd 64 (s.rd Objs.bar2_range_err) 1) ∧
    (∀ data : List Byte, free → r.toNat < swSize →
      ((swBursts r.toNat data.length).any (fun a => s.pcRefuses (swPc a)) = false →
        ∃ t, exec (.bar2Write r data) s = .next t ∧ t = { s with hbm := t.hbm } ∧ t.hbm.sw = s.hbm.sw ∧
          (∀ k < data.length, swByte t (r.toNat + k) = data.getD k 0) ∧
          ∀ a, a < r.toNat ∨ r.toNat + data.length ≤ a → swByte t a = swByte s a) ∧
      ((swBursts r.toNat data.length).any (fun a => s.pcRefuses (swPc a)) = true → s.hbm.bar2Lost.contains s.hbm.bar2Tag = false →
        ∃ t, exec (.bar2Write r data) s = .next t ∧ Raised 214 0 s t ∧
          t.rd Objs.bar2_frozen = satAdd 64 (s.rd Objs.bar2_frozen) 1 ∧
          ∀ a, a < r.toNat ∨ r.toNat + data.length ≤ a → swByte t a = swByte s a))

/-- R446, R451, R457, R458: a write item of an object without an effect of its own stores its value; one that names no object is answered NO_OBJECT or
NO_SUB; a path enable; a save and its end, and an erase; each accepted write adds its entry to the journal (R459). The model's choices:
the order of the refusals of R474 and R516 (log 10), a request that switches its own path off (log 94), and the details of saves (log 88). -/
def Obligations.DictionaryWritesStore : Prop :=
  ∀ (c : Ctx) (v : List Byte) (s : State),
    (∀ (idx : BitVec 16) (sub : BitVec 8),
      (objAt idx.toNat sub.toNat = none → s.pathServed c = true → 2 ≤ s.pathEnable c →
        exec (.dictWrite c idx sub v) s = .next (s.put (.answer c idx.toNat sub.toNat (absent idx.toNat).num []))) ∧
      (∀ o : Obj, objAt idx.toNat sub.toNat = some o →
        let i := instOf o (idx.toNat * 256 + sub.toNat)
        (writersOf o.idx).find? (fun p => p.1.idx == o.idx && p.1.sub == o.sub) = none →
        (Accepted c o i v noCheck s → o.acc = .rw → banked (o.key i) = false → pathLocal (o.key i) = false →
          ¬ writeSide (o.key i) → o.key i ≠ idKey →
          ∃ t, exec (.dictWrite c idx sub v) s = .next t ∧ Answered c o i .ok t ∧ t.rd o i = leNat v ∧ Journaled c o i v s t ∧
            (∀ p j, p.key j ≠ o.key i → ¬ writeSide (p.key j) → t.rd p j = s.rd p j) ∧
            t = { s with dict := t.dict, str := t.str, hbm := t.hbm, outbox := t.outbox }) ∧
        (s.pathServed c = true → judgeWrite c o i v noCheck s ≠ .ok →
          exec (.dictWrite c idx sub v) s =
            .next (s.put (.answer c (o.key i / 256) (o.key i % 256) (judgeWrite c o i v noCheck s).num []))))) ∧
    (∀ k : Fin 5, Accepted c (pathObj k) 0 v (pathCheck k) s →
      ∃ t, exec (.pathEnableWrite c k v) s = .next t ∧ Answered c (pathObj k) 0 .ok t ∧ t.rd (pathObj k) = leNat v ∧
        Journaled c (pathObj k) 0 v s t ∧
        ∀ j : Fin 5, j ≠ k → t.rd (pathObj j) = s.rd (pathObj j)) ∧
    (Accepted c Objs.save 0 [1] noCheck s →
      ∃ t x, exec (.save c) s = .next t ∧ Answered c Objs.save 0 .ok t ∧ t.eft.saving = s.eft.saving ++ [⟨x, ctxCode c⟩] ∧
        t.result c (Objs.save.key 0) = 8 ∧ Journaled c Objs.save 0 [1] s t) ∧
    (Accepted c Objs.save 0 [2] noCheck s →
      ∃ t, exec (.erase c) s = .next t ∧ Answered c Objs.save 0 .ok t ∧ t.newestBank = none ∧
        t.result c (Objs.save.key 0) = 0 ∧ Journaled c Objs.save 0 [2] s t) ∧
    (∀ x rest, s.eft.saving = x :: rest →
      (∃ t, exec (.saveDone true) s = .next t ∧ t.eft.saving = rest ∧ t.newestBank.map (·.2.image) = some x.image ∧
        t.rd Objs.n_dirty = 0) ∧
      ∃ t, exec (.saveDone false) s = .next t ∧ t.eft.saving = rest ∧ t.newestBank = s.newestBank)

/-- R452: a write that R451 refuses changes nothing but its answer, on every command that is a write of one object (sf_entry and
hue_commit apart, which raise an event where they are refused). That an earlier row of R451 stands before the STATE of R474 and R516 is the
model's choice (log 10); the refusals of R451's chapters' own that rest on a choice are those of logs 68, 70, 77, 80, 90 and 117. -/
def Obligations.RefusedWritesChangeNothing : Prop :=
  ∀ (c : Ctx) (v : List Byte) (p : Fin 256) (d : Fin 2) (k : Fin 16) (b : Fin 4) (part : Fin 3) (lane : Fin 64) (q : Fin 8) (src : Fin 250)
    (path : Fin 5) (bad : List (Fin 16)) (found : Option Nat) (straps : BitVec 3) (parity : Bool) (s : State), s.pathServed c = true →
    ∀ row ∈ ([(.adminUpWrite c p v, Objs.admin_up, p.val, v, noCheck), (.portModeWrite c p v, Objs.port_mode, p.val, v, portModeCheck p),
        (.linkFilterWrite c p true v, Objs.link_up_filter, p.val, v, noCheck),
        (.linkFilterWrite c p false v, Objs.link_down_filter, p.val, v, noCheck),
        (.portCountersClear c p v, Objs.counters_clear, p.val, v, noCheck), (.hueAbort c v, Objs.hue_abort, 0, v, noCheck),
        (.patEngineIsolate c v, Objs.pat_engine_isolate, 0, v, noCheck), (.clutchDrain c v, Objs.clutch_drain, 0, v, drainRefused),
        (.clutchReturn c v, Objs.clutch_return, 0, v, returnRefused), (.skinkIsolate c v, Objs.skink_isolate, 0, v, noCheck),
        (.skinkRegrow c v, Objs.skink_regrow, 0, v, skinkRegrowCheck), (.csBufData c v, Objs.cs_buf_data, 0, v, bufCheck c),
        (.csLoad (.dict c v), Objs.cs_load, 0, v, claimCheck c), (.hueImageLoad c v, Objs.hue_image_load, 0, v, claimCheck c),
        (.bootLoadFull c, Objs.boot_load, 0, [1], bootCheck), (.bootGo c bad, Objs.boot_go, 0, [1], bootGoCheck),
        (.flowCacheFlush c v, Objs.flow_cache_flush, 0, v, noCheck), (.hashSaltWrite c v, Objs.hash_salt, 0, v, saltCheck),
        (.macFlushPort c v, Objs.mac_flush_port, 0, v, fun _ s => refuseIf s.macFlushFull .busy),
        (.middleIsolate c v, Objs.middle_isolate, 0, v, noCheck), (.middleRegrow c v, Objs.middle_regrow, 0, v, middleRegrowCheck),
        (.polConfigWrite c v, Objs.pol_config, 0, v, polCheck), (.redProfileWrite c v, Objs.red_profile, 0, v, redCheck),
        (.strictCountWrite c p v, Objs.strict_count, p.val, v, noCheck), (.domEnableWrite c d v, Objs.dom_enable, d.val, v, noCheck),
        (.domIncWrite c d v, Objs.dom_inc, d.val, v, softOnly d), (.domStep c d v, Objs.dom_step, d.val, v, softOnly d),
        (.wSelectWrite c v, Objs.w_select, 0, v, wSelectCheck), (.wSet c v, Objs.w_set, 0, v, wSetCheck),
        (.timeSnapshot c v, Objs.time_snapshot, 0, v, noCheck), (.hbmThaw c v, Objs.hbm_thaw, 0, v, thawCheck),
        (.hbmRetire c v, Objs.hbm_retire, 0, v, hbmRetireCheck), (.hbmPprSoft c, Objs.hbm_ppr, 0, [1], pprCheck),
        (.save c, Objs.save, 0, [1], noCheck), (.croakLevelWrite c v, Objs.croak_level, 0, v, croakCheck),
        (.fmLogAck c v, Objs.fm_log_ack, 0, v, noCheck), (.fmIsolate c v, Objs.fm_isolate, 0, v, fmIsolateCheck),
        (.resetCmdWarm c, Objs.reset_cmd, 0, [1], resetCheck), (.brumate c v, Objs.brumate, 0, v, brumateCheck),
        (.wake c v, Objs.wake, 0, v, wakeCheck), (.samplerCfgWrite c k v, Objs.sampler_cfg, k.val, v, samplerCheck),
        (.dbgHalt c v, Objs.dbg_halt, 0, v, haltCheck), (.dbgStep c v, Objs.dbg_step, 0, v, stepCheck),
        (.breakpointWrite c k b v, Objs.breakpoint, k.val * 4 + b.val, v, bpWriteCheck),
        (.traceCtrlWrite c k v, Objs.trace_ctrl, k.val, v, traceCheck k), (.dbgMemRead c parity, Objs.dbg_mem_cmd, 0, [1], memCheck c),
        (.ruleHeaderWrite c v, Objs.rule_header, 0, v, fun x s => s.ruleCode (s.rdCtx c Objs.rule_select) (hdrClean true x)),
        (.ruleContentWrite c part v, rulePartObj part, 0, v, fun x s => s.ruleContentCode (s.rdCtx c Objs.rule_select) part x),
        (.rwhValueWrite c part v, rwhObj part, 0, v, fun _ s => refuseIf (part.val == 0 && s.bank0Staged) .state),
        (.patSetHeaderWrite c v, Objs.pat_set_header, 0, v, fun x s => stageCode (s.patSet (s.rdCtx c Objs.pat_set_select)).header s.hueN
          (hdrClean false x) true (s.setRefused (setDesc (s.patSet (s.rdCtx c Objs.pat_set_select))))),
        (.patWordWrite c v, Objs.pat_mem_data, 0, v, fun _ s => refuseIf (s.wordTaken (s.rdCtx c Objs.pat_mem_addr)) .state),
        (.tmplHeaderWrite c v, Objs.tmpl_header, 0, v, fun x s => stageCode (s.tmplSlot (s.rdCtx c Objs.tmpl_select)).header s.hueN
          (hdrClean false x) true (s.tmplRefused (s.rdCtx c Objs.tmpl_select) ((s.tmplSlot (s.rdCtx c Objs.tmpl_select)).body.getD 0 0))),
        (.keyTmplWrite c v, Objs.key_tmpl_desc, 0, v,
          fun x s => if tmplBad x then .range else refuseIf (s.tmplNamed (s.rdCtx c Objs.key_tmpl_select)) .state),
        (.disp0Stage c v, Objs.disp0_stage, 0, v, fun x s => s.disp0Code (s.rdCtx c Objs.disp_select) x),
        (.patEngineRegrow c v, Objs.pat_engine_regrow, 0, v, patRegrowCheck),
        (.hbmRegrow c v, Objs.hbm_regrow, 0, v, fun p s => hbmCmdCheck p 4 s), (.hbmPprHard c, Objs.hbm_ppr, 0, [2], pprCheck),
        (.bootLoadHue c, Objs.boot_load, 0, [2], bootCheck), (.erase c, Objs.save, 0, [2], noCheck),
        (.strEnableWrite c v, Objs.str_enable, 0, v, noCheck), (.evClear c src v, Objs.ev_clear, src.val, v, noCheck),
        (.evConfigWrite c src b v, evObj b, src.val, v, evCheck src b), (.fmSummaryClear c v, Objs.fm_summary_clear, 0, v, noCheck),
        (.fmFirstClear c v, Objs.fm_first_clear, 0, v, noCheck), (.fmRegrow c v, Objs.fm_regrow, 0, v, fmRegrowCheck),
        (.dbgResume c v, Objs.dbg_resume, 0, v, haltCheck), (.dbgMemWrite c, Objs.dbg_mem_cmd, 0, [2], memCheck c),
        (.lanePrbsWrite c lane v found, Objs.lane_prbs, lane.val, v, prbsCheck lane), (.shaperWrite c p 8 v, Objs.port_shaper, p.val, v, shCheck),
        (.shaperWrite c p q.castSucc v, Objs.queue_shaper, p.val * 8 + q.val, v, shCheck),
        (.queueWeightWrite c p q v, Objs.queue_weight, p.val * 8 + q.val, v, noCheck),
        (.pathEnableWrite c path v, pathObj path, 0, v, pathCheck path), (.reorderTimeoutWrite c v, Objs.reorder_timeout, 0, v, noCheck),
        (.resetCmdCold c straps, Objs.reset_cmd, 0, [2], resetCheck)] :
        List (Instr × Obj × Nat × List Byte × (Nat → State → Code))),
      let code := judgeWrite c row.2.1 row.2.2.1 row.2.2.2.1 row.2.2.2.2 s
      code ≠ .ok → exec row.1 s = .next (s.put (.answer c (row.2.1.key row.2.2.1 / 256) (row.2.1.key row.2.2.1 % 256) code.num []))

/-- R453, R461, R464 to R467, R469: the PCIe mailbox and a datagram on a management port, whose items are executed and answered; errors,
what is discarded, and a response sent again; an ARP request, and the end of a session. A doorbell makes the mailbox BUSY, and the tick
completes its response with the vector. The model's choices: when items take effect and how requests are judged (log 95), the rates and idle
times of sessions (log 96), that MB_REQUEST and MB_CTRL come with the doorbell too (log 71), and that a session that is not idle leaves the
state as it is (log 2). -/
def Obligations.RequestsAreAnswered : Prop :=
  ∀ (s : State),
    (∀ (request : List Byte) (ctrl : BitVec 8), s.pathServed .pcie = true → s.dict.mbStatus = 1 →
      ∃ t, exec (.mbDoorbell request ctrl) s = .next t ∧ t = { s with dict := t.dict } ∧ t.dict.mbStatus = 1 ∧
        t.dict.mbRequest = s.dict.mbRequest ∧ t.dict.mbRun = s.dict.mbRun ∧ t.dict.mbResponse = s.dict.mbResponse ∧
        t.rd Objs.mb_ignored = satAdd 64 (s.rd Objs.mb_ignored) (if request = [] then 1 else 2)) ∧
    (∀ (request : List Byte) (ctrl : BitVec 8), s.pathServed .pcie = true → s.dict.mbStatus ≠ 1 →
      let held := if request = [] then s.dict.mbRequest else mbOverlay s.dict.mbRequest 0 request
      let b := mbPdu held
      let s0 : State := { s with dict := { s.dict with mbRequest := held, mbCtrl := ctrl.toNat, mbStatus := 1 } }
      (∀ l r u, judgePdu none b = .items l → runRequest .pcie (pduSeq b) l s0 = (some r, u) →
        exec (.mbDoorbell request ctrl) s = .next { u with dict := { u.dict with mbRun := r } }) ∧
      (∀ o idx sub, judgePdu none b = .items [⟨1, sub, idx, []⟩] → ReadsAt .pcie o idx sub s0 →
        ∃ t, exec (.mbDoorbell request ctrl) s = .next t ∧ t.dict.mbStatus = 1 ∧ t.outbox = s.outbox ∧
          t.dict.mbRun = oneReply s (pduSeq b) 1 idx sub (readBytes .pcie o idx sub s0)) ∧
      (∀ o idx sub v, judgePdu none b = .items [⟨2, sub, idx, v⟩] → PlainWrite .pcie o idx sub v s0 →
        ∃ t, exec (.mbDoorbell request ctrl) s = .next t ∧ t.dict.mbStatus = 1 ∧ t.outbox = s.outbox ∧
          t.dict.mbRun = oneReply s (pduSeq b) 2 idx sub [] ∧ t.rd o (instOf o (idx * 256 + sub)) = leNat v) ∧
      (∀ k, judgePdu none b = .error k →
        exec (.mbDoorbell request ctrl) s = .next { s0 with dict := { s0.dict with mbRun := errorPdu s (pduSeq b) k } }) ∧
      (judgePdu none b = .discard →
        ∃ t, exec (.mbDoorbell request ctrl) s = .next t ∧ t.dict.mbStatus = 1 ∧ t.dict.mbRun = [] ∧ t.outbox = s.outbox ∧
          t.rd Objs.oap_drop = satAdd 64 (s.rd Objs.oap_drop) 1)) ∧
    (s.dict.mbStatus = 1 →
      let e := s.msixEntry (fld s.dict.mbCtrl 0 7)
      (s.dict.mbRun = [] → s.mbTick.dict.mbStatus = 0 ∧ s.mbTick.outbox = s.outbox) ∧
      (s.dict.mbRun ≠ [] → s.mbTick.dict.mbStatus = 2 ∧ s.mbTick.dict.mbResponse = s.dict.mbRun ∧
        (bit s.dict.mbCtrl 7 = true → s.rd Objs.hi_state ≠ 1 → bit e 96 = false →
          s.mbTick.outbox = s.outbox ++ [.msix (fld s.dict.mbCtrl 0 7) (fld e 0 64) (fld e 64 32)]) ∧
        (bit s.dict.mbCtrl 7 = true → s.rd Objs.hi_state = 1 ∨ bit e 96 = true →
          s.mbTick.outbox = s.outbox ∧ bit s.mbTick.host.msixPending (fld s.dict.mbCtrl 0 7) = true) ∧
        (bit s.dict.mbCtrl 7 = false → s.mbTick.outbox = s.outbox))) ∧
    (∀ (p : Fin 2) (f b : List Byte) (sha spa : Nat), s.pathServed (.oapMgmt 0) = true → f.take 6 = s.macBytes Objs.mgmt_mac →
      mgmtPayload f = some (0x0806, b) → arpOf b = some (sha, spa, s.rd Objs.mgmt_ipv4) →
      exec (.oapArpRequest p f) s = .next (s.put (.mgmt p (beNat (slice f 6 6)) spa 0
        (arpReply (s.macBytes Objs.mgmt_mac) (s.rd Objs.mgmt_ipv4) sha spa)))) ∧
    (∀ (p : Fin 2) (f b pdu : List Byte) (src port : Nat) (u : State), s.pathServed (.oapMgmt 0) = true →
      f.take 6 = s.macBytes Objs.mgmt_mac → mgmtPayload f = some (0x0800, b) →
      udpOf b = some (src, s.rd Objs.mgmt_ipv4, port, oapPort, pdu) → s.oapEnable .mgmt ≠ 0 → oapLimit .mgmt s = some u →
      (∀ k, judgePdu (some s.devId) pdu = .error k →
        ∃ t, exec (.oapRequest p f) s = .next t ∧
          t.outbox = s.outbox ++ [.mgmt p (beNat (slice f 6 6)) src port (errorPdu s (pduSeq pdu) k)]) ∧
      (∀ n x, (s.sessionOf .mgmt src port = some (n, x) ∧ later 32 (pduSeq pdu) x.lastSeq = true) ∨
          (s.sessionOf .mgmt src port = none ∧ (List.range 8).find? (fun n => (tfind (s.sessions .mgmt) n).isNone) = some n) →
        let c : Ctx := .oapMgmt (Fin.ofNat 8 n)
        let w := u.setSessions .mgmt (tput n ⟨src, port, pduSeq pdu, [], s.fNs⟩ (u.sessions .mgmt))
        (∀ l r y, judgePdu (some s.devId) pdu = .items l → runRequest c (pduSeq pdu) l w = (some r, y) →
          ∃ t, exec (.oapRequest p f) s = .next t ∧ t.outbox = y.outbox ++ [.mgmt p (beNat (slice f 6 6)) src port r]) ∧
        (∀ o idx sub, judgePdu (some s.devId) pdu = .items [⟨1, sub, idx, []⟩] → ReadsAt c o idx sub w →
          let r := oneReply s (pduSeq pdu) 1 idx sub (readBytes c o idx sub w)
          ∃ t, exec (.oapRequest p f) s = .next t ∧ t.outbox = s.outbox ++ [.mgmt p (beNat (slice f 6 6)) src port r] ∧
            tfind (t.sessions .mgmt) n = some ⟨src, port, pduSeq pdu, r, s.fNs⟩) ∧
        (∀ o idx sub v, judgePdu (some s.devId) pdu = .items [⟨2, sub, idx, v⟩] → PlainWrite c o idx sub v w →
          let r := oneReply s (pduSeq pdu) 2 idx sub []
          ∃ t, exec (.oapRequest p f) s = .next t ∧ t.outbox = s.outbox ++ [.mgmt p (beNat (slice f 6 6)) src port r] ∧
            tfind (t.sessions .mgmt) n = some ⟨src, port, pduSeq pdu, r, s.fNs⟩ ∧
            t.rd o (instOf o (idx * 256 + sub)) = leNat v)) ∧
      (∀ l n x, judgePdu (some s.devId) pdu = .items l → s.sessionOf .mgmt src port = some (n, x) → x.lastSeq = pduSeq pdu →
        ∃ t, exec (.oapRequest p f) s = .next t ∧
          t.outbox = s.outbox ++ [.mgmt p (beNat (slice f 6 6)) src port x.lastResp] ∧
          t.rd Objs.oap_resent = satAdd 64 (s.rd Objs.oap_resent) 1 ∧ t.fsu = s.fsu ∧ t.tbl = s.tbl)) ∧
    (∀ (n : Fin 8) (x : Session), tfind (s.sessions .mgmt) n = some x →
      s.elapsed x.lastF (s.rd Objs.oap_session_timeout * 1000000000) = true →
      ∃ t, exec (.oapSessionExpiry false n) s = .next t ∧ tfind (t.sessions .mgmt) n = none ∧
        ∀ j, j ≠ n.val → tfind (t.sessions .mgmt) j = tfind (s.sessions .mgmt) j) ∧
    (∀ (n : Fin 8) (x : Session), tfind (s.sessions .inband) n = some x →
      s.elapsed x.lastF (s.rd Objs.oap_session_timeout * 1000000000) = false →
      exec (.oapSessionExpiry true n) s = .next s)

/-- R470 to R473: the SDO server: frames it drops, uploads and downloads, expedited and in segments, the abort of a client, an unknown
command, a disabled path, and the time-out of a segmented transfer. The bits of the command bytes are CiA 301's (PRESUMED, log 98), which
also says what counts in can_drop; a frame stands for what CAN delivers (log 118), times are the Eft's (log 79), and a frame for another
identifier leaves the state as it is (log 2). -/
def Obligations.SdoServerAnswers : Prop :=
  ∀ (d : List Byte) (s : State),
    (∀ id : BitVec 11, id.toNat ≠ s.sdoRx → id.toNat ≠ s.sdoTx → ∀ fd, exec (.sdoRequest id fd d) s = .next s) ∧
    (∀ id : BitVec 11, s.eft.phase ≠ .off → id.toNat = s.sdoRx →
      (∃ t, exec (.sdoRequest id true d) s = .next t ∧ t.rd Objs.can_drop = satAdd 64 (s.rd Objs.can_drop) 1 ∧
        t = { s with dict := t.dict }) ∧
      (d.length = 8 → s.pathEnable .can = 0 →
        ∃ t, exec (.sdoRequest id false d) s = .next t ∧ t.dict.sdo = none ∧
          t.outbox = s.outbox ++ [.can s.sdoTx (padTo 0 8 (0x80 :: (muxBytes (muxIdx d) (muxSub d) ++ leBytes 4 0x08000021)))]) ∧
      (d.length = 8 → s.pathEnable .can ≠ 0 → fld (d.getD 0 0).toNat 5 3 = 4 →
        exec (.sdoRequest id false d) s = .next { s with dict := { s.dict with sdo := none } }) ∧
      (d.length = 8 → s.pathEnable .can ≠ 0 → 5 ≤ fld (d.getD 0 0).toNat 5 3 →
        ∃ t, exec (.sdoRequest id false d) s = .next t ∧ t.dict.sdo = none ∧
          t.rd Objs.sdo_aborts = satAdd 64 (s.rd Objs.sdo_aborts) 1 ∧
          t.outbox = s.outbox ++ [.can s.sdoTx (padTo 0 8 (0x80 :: (muxBytes (muxIdx d) (muxSub d) ++ leBytes 4 0x05040001)))])) ∧
    (∀ id : BitVec 11, s.eft.phase ≠ .off → id.toNat = s.sdoRx → d.length = 8 → s.pathEnable .can ≠ 0 →
      let cmd := (d.getD 0 0).toNat
      let idx := muxIdx d
      let sub := muxSub d
      let u := sdoIdle s
      (∀ o : Obj, fld cmd 5 3 = 2 → ReadsAt .can o idx sub u →
        let v := readBytes .can o idx sub u
        ∃ t, exec (.sdoRequest id false d) s = .next t ∧
          (v.length ≤ 4 → t.dict.sdo = none ∧ t.outbox = s.outbox ++
            [.can s.sdoTx (padTo 0 8 (BitVec.ofNat 8 (0x43 + 4 * (4 - v.length)) :: (muxBytes idx sub ++ v)))]) ∧
          (4 < v.length → t.dict.sdo = some ⟨true, idx, sub, false, v, s.eftNs⟩ ∧ t.outbox = s.outbox ++
            [.can s.sdoTx (padTo 0 8 (0x41 :: (muxBytes idx sub ++ leBytes 4 v.length)))])) ∧
      (∀ o : Obj, fld cmd 5 3 = 1 → bit cmd 1 = true →
        let v := slice d 4 (if bit cmd 0 then 4 - fld cmd 2 2 else min 4 (sizeAt idx sub))
        PlainWrite .can o idx sub v u →
        ∃ t, exec (.sdoRequest id false d) s = .next t ∧ t.dict.sdo = none ∧ t.rd o (instOf o (idx * 256 + sub)) = leNat v ∧
          t.outbox = s.outbox ++ [.can t.sdoTx (padTo 0 8 (0x60 :: muxBytes idx sub))]) ∧
      (fld cmd 5 3 = 1 → bit cmd 1 = false → (bit cmd 0 = false ∨ leNat (slice d 4 4) ≤ 256) →
        ∃ t, exec (.sdoRequest id false d) s = .next t ∧ t.dict.sdo = some ⟨false, idx, sub, false, [], s.eftNs⟩ ∧
          t.outbox = s.outbox ++ [.can s.sdoTx (padTo 0 8 (0x60 :: muxBytes idx sub))]) ∧
      ∀ x, s.dict.sdo = some x → bit cmd 4 = x.toggle →
        let w := x.data ++ slice d 1 (7 - fld cmd 1 3)
        (fld cmd 5 3 = 0 → x.upload = false → bit cmd 0 = false → w.length ≤ 256 →
          ∃ t, exec (.sdoRequest id false d) s = .next t ∧ t.dict.sdo = some { x with data := w, toggle := !x.toggle, lastF := s.eftNs } ∧
            t.outbox = s.outbox ++ [.can s.sdoTx (padTo 0 8 [BitVec.ofNat 8 (0x20 + 16 * fld cmd 4 1)])]) ∧
        (∀ o : Obj, fld cmd 5 3 = 0 → x.upload = false → bit cmd 0 = true → w.length ≤ 256 → PlainWrite .can o x.idx x.sub w u →
          ∃ t, exec (.sdoRequest id false d) s = .next t ∧ t.dict.sdo = none ∧ t.rd o (instOf o (x.idx * 256 + x.sub)) = leNat w ∧
            t.outbox = s.outbox ++ [.can t.sdoTx (padTo 0 8 [BitVec.ofNat 8 (0x20 + 16 * fld cmd 4 1)])]) ∧
        (fld cmd 5 3 = 3 → x.upload = true →
          ∃ t, exec (.sdoRequest id false d) s = .next t ∧
            t.dict.sdo = (if x.data.length ≤ 7 then none else some { x with data := x.data.drop 7, toggle := !x.toggle, lastF := s.eftNs }) ∧
            t.outbox = s.outbox ++ [.can s.sdoTx (padTo 0 8 (BitVec.ofNat 8 (16 * fld cmd 4 1 + 2 * (7 - (x.data.take 7).length) +
              (if x.data.length ≤ 7 then 1 else 0)) :: x.data.take 7))])) ∧
    (∀ x, s.dict.sdo = some x → s.eftElapsed x.lastF (s.rd Objs.sdo_timeout * 1000000) = true →
      ∃ t, exec .sdoSegmentTimeout s = .next t ∧ t.dict.sdo = none ∧
        t.outbox = s.outbox ++ [.can s.sdoTx (padTo 0 8 (0x80 :: (muxBytes x.idx x.sub ++ leBytes 4 0x05040000)))])

/-- R563, and with it R561, R562, R564: IDCODE reads its four fields; the other instructions of the TAP and the operations of the DICT data
register; GO executes a request, whose response the tick completes. The clauses on the other instructions rest on the model's choices: the
boundary scan, the bypass register (PRESUMED, IEEE 1149.1) and a TAP that is not served (log 91), and when a response is complete, with a GET
past its end (log 95). -/
def Obligations.TapInstructions : Prop :=
  ∀ (s : State),
    (s.tapServed = true →
      let d := if s.dbg.ir = 0x10 then s else s.tapSelect 0x10
      exec .tapReset s = .next { s with dbg := { s.dbg with ir := 0x02 } } ∧
      exec .idcode s = .next { s with dbg := { s.dbg with ir := 0x02 }, outbox := s.outbox ++ [.tapIr 1, .tap 0x132007A5] } ∧
      fld 0x132007A5 28 4 = 1 ∧ fld 0x132007A5 12 16 = 0x3200 ∧ fld 0x132007A5 1 11 = 0x3D2 ∧ bit 0x132007A5 0 = true ∧
      (∀ bits : List Bool, ∀ row ∈ ([(.extest bits, 0x00), (.samplePreload bits, 0x01)] : List (Instr × Nat)),
        ∃ v : List Bool, v.length = bits.length ∧ exec row.1 s = .next { s with dbg := { s.dbg with ir := row.2, boundary := bits }, outbox := s.outbox ++ [.tapIr 1, .tapBits v], free := s.free + 1 }) ∧
      (∀ (code : BitVec 8) (bits : List Bool),
        (code.toNat ∉ [0x00, 0x01, 0x02, 0x10] → exec (.bypass code bits) s = .next { s with dbg := { s.dbg with ir := code.toNat, bypass := bits.getLastD false }, outbox := s.outbox ++ [.tapIr 1, .tapBits ((false :: bits).take bits.length)] }) ∧
        (code.toNat ∈ [0x00, 0x01, 0x02, 0x10] → exec (.bypass code bits) s = .next s)) ∧
      exec .dictStatus s = .next (d.put (.tap (s.dbg.state * 2 ^ 12))) ∧
      (∀ b : Byte, s.dbg.state = 2 → exec (.dictPut b) s = .next { d with dbg := { d.dbg with request := [b], state := 0 } }) ∧
      (∀ b : Byte, s.dbg.state = 0 → s.dbg.request.length < 1400 →
        exec (.dictPut b) s = .next { d with dbg := { d.dbg with request := s.dbg.request ++ [b] } }) ∧
      (∀ b : Byte, s.dbg.state = 0 → 1400 ≤ s.dbg.request.length → exec (.dictPut b) s = .next d) ∧
      (∀ b : Byte, s.dbg.state = 1 → exec (.dictPut b) s = .next d ∧ exec .dictGo s = .next d) ∧
      (∀ b : Byte, s.dbg.state ≠ 1 → s.dbg.response[s.dbg.respAt]? = some b → ∃ t, exec .dictGet s = .next t ∧
        t.dbg = { s.dbg with ir := 0x10, respAt := s.dbg.respAt + 1 } ∧
        t.outbox = d.outbox ++ [.tap (s.dbg.state * 2 ^ 12 + b.toNat)]) ∧
      (s.dbg.state = 1 ∨ s.dbg.response[s.dbg.respAt]? = none → ∃ (t : State) (b : Byte), exec .dictGet s = .next t ∧
        t.dbg = { s.dbg with ir := 0x10, respAt := s.dbg.respAt + 1 } ∧ t.outbox = d.outbox ++ [.tap (s.dbg.state * 2 ^ 12 + b.toNat)]) ∧
      (s.dbg.state ≠ 1 → s.pathServed .sdp = true →
        let b := s.dbg.request
        let s0 : State := { d with dbg := { d.dbg with respAt := 0, response := [] } }
        (∀ k, judgePdu none b = .error k →
          exec .dictGo s = .next { s0 with dbg := { s0.dbg with state := 1, response := errorPdu s (pduSeq b) k } }) ∧
        (judgePdu none b = .discard → ∃ t, exec .dictGo s = .next t ∧ t.dbg.state = 1 ∧ t.dbg.response = [] ∧ t.outbox = d.outbox ∧
          t.rd Objs.oap_drop = satAdd 64 (s.rd Objs.oap_drop) 1) ∧
        (∀ l r u, judgePdu none b = .items l → runRequest .sdp (pduSeq b) l s0 = (some r, u) →
          exec .dictGo s = .next { u with dbg := { u.dbg with state := 1, response := r } }) ∧
        (∀ o idx sub, judgePdu none b = .items [⟨1, sub, idx, []⟩] → ReadsAt .sdp o idx sub s0 →
          ∃ t, exec .dictGo s = .next t ∧ t.dbg.state = 1 ∧ t.dbg.respAt = 0 ∧
            t.dbg.response = oneReply s (pduSeq b) 1 idx sub (readBytes .sdp o idx sub s0) ∧ t.outbox = d.outbox) ∧
        (∀ o idx sub v, judgePdu none b = .items [⟨2, sub, idx, v⟩] → PlainWrite .sdp o idx sub v s0 →
          ∃ t, exec .dictGo s = .next t ∧ t.dbg.state = 1 ∧ t.dbg.respAt = 0 ∧
            t.dbg.response = oneReply s (pduSeq b) 2 idx sub [] ∧ t.rd o (instOf o (idx * 256 + sub)) = leNat v))) ∧
    (s.dbg.state = 1 → s.sdpTick = { s with dbg := { s.dbg with state := if s.dbg.response = [] then 0 else 2 } }) ∧
    (s.tapServed = false →
      ∀ (bits : List Bool) (code b : Byte), ∀ i ∈ ([.tapReset, .extest bits, .samplePreload bits, .bypass code bits, .idcode, .dictStatus, .dictGo,
          .dictGet, .dictPut b] : List Instr), exec i s = .next s)

/-- R478 to R481, R487, R494: the enable of the stream port, its alignment, control words and their loss, a burst, and a packet on the
receive lanes. The model's choices: when UP is reached again after a loss of alignment (log 16), what counts as XOFF (log 15), which
reads of staging a burst waits for and that a record whose staging was lost is dropped (log 19); a send that has no channel to serve and a
timeout that is not due leave the state as it is (log 2). -/
def Obligations.StreamPortCommands : Prop :=
  ∀ (s : State),
    (∀ (c : Ctx) (v : List Byte), Accepted c Objs.str_enable 0 v noCheck s →
      ∃ t, exec (.strEnableWrite c v) s = .next t ∧ Answered c Objs.str_enable 0 .ok t ∧ t.rd Objs.str_enable = leNat v ∧
        (leNat v = 0 → t.rd Objs.str_link_state = 0) ∧
        (leNat v = 1 → s.rd Objs.str_enable = 0 → t.rd Objs.str_link_state = 1 ∧
          ∀ k < 64, k ≠ s.rd Objs.journal_channel → t.rd Objs.str_chan_seq k = 0)) ∧
    (∀ (lock : BitVec 8) (deskewed : Bool), ∃ t, exec (.strLaneLockChange lock deskewed) s = .next t ∧
      t.rd Objs.str_lane_lock = lock.toNat ∧ t.str.deskewed = deskewed ∧
      (s.rd Objs.str_enable ≠ 0 → (lock ≠ 255 ∨ deskewed = false) → t.rd Objs.str_link_state = 1 ∧
        (s.rd Objs.str_link_state = 2 → Raised 224 0 s t))) ∧
    (∀ (reset : Bool) (status : BitVec 16),
      (∃ t, exec (.fcControlWord false reset status) s = .next t ∧ Raised 228 0 s t ∧ t.str.lastGood = s.str.lastGood ∧
        t.str.calPos = (s.str.calPos + 1) % 4 ∧ t.str.fcPend = s.str.fcPend.filter (fun e => !s.elapsed e.1 0) ∧
        t.rd Objs.str_fc_crc_err = satAdd 64 (s.rd Objs.str_fc_crc_err) 1 ∧
        t.rd Objs.str_link_state = s.rd Objs.str_link_state) ∧
      ∃ t, exec (.fcControlWord true reset status) s = .next t ∧
        t.str.lastGood = s.fNs ∧ t.str.fcLost = false ∧ t.str.calPos = ((if reset then 0 else s.str.calPos) + 1) % 4 ∧
        t.str.fcPend = s.str.fcPend.filter (fun e => !s.elapsed e.1 0) ++
          [(s.fNs + 100, if reset then 0 else s.str.calPos, status.toNat)] ∧
        (s.strAligned = true → s.rd Objs.str_enable ≠ 0 → t.rd Objs.str_link_state = 2 ∧
          (s.rd Objs.str_link_state ≠ 2 → Raised 225 0 s t))) ∧
    (s.elapsed s.str.lastGood (s.rd Objs.str_fc_timeout) = true →
      ∃ t, exec .fcTimeout s = .next t ∧ t.str.fcLost = true ∧ ∀ k, t.chanXon k = false) ∧
    (s.elapsed s.str.lastGood (s.rd Objs.str_fc_timeout) = false → exec .fcTimeout s = .next s) ∧
    (nextChan s = none → ∀ g, exec (.strBurstSend g) s = .next s) ∧
    (∀ (c : Nat) (r : StrRec) (rest : List StrRec), nextChan s = some c → (s.chan c).recs = r :: rest →
      let n := min 256 (r.bytes.length - (s.chan c).sent)
      let last := decide (r.bytes.length ≤ (s.chan c).sent + n)
      let sends := fun (t : State) => ∃ l, t.str.rr = c ∧
        t.outbox = s.outbox ++ [.burst c (decide ((s.chan c).sent = 0)) last (slice r.bytes (s.chan c).sent n)] ∧
        (last = true → (t.chan c).recs.map StrRec.bytes = rest.map StrRec.bytes ++ l ∧ (t.chan c).sent = 0 ∧
          t.rd Objs.str_records c = satAdd 64 (s.rd Objs.str_records c) 1) ∧
        (last = false → (t.chan c).recs.map StrRec.bytes = (r :: rest).map StrRec.bytes ++ l ∧ (t.chan c).sent = (s.chan c).sent + n)
      let drops := fun (t : State) => ∃ l, t.outbox = s.outbox ∧
        (t.chan c).recs.map StrRec.bytes = rest.map StrRec.bytes ++ l ∧ (t.chan c).sent = 0 ∧
        t.rd Objs.str_lost c = satAdd 64 (s.rd Objs.str_lost c) 1
      (s.headLost c = false →
        (∃ t, exec (.strBurstSend .good) s = .next t ∧ sends t ∧ t.fm = s.fm) ∧
        (∃ t, exec (.strBurstSend .fifoCorrected) s = .next t ∧ sends t ∧ Raised 230 0 s t) ∧
        ∃ t, exec (.strBurstSend .fifoUncorrected) s = .next t ∧ drops t ∧ Raised 231 0 s t) ∧
      (s.headLost c = true → ∀ g, ∃ t, exec (.strBurstSend g) s = .next t ∧ drops t ∧ Raised 229 c s t)) ∧
    ∃ t, exec .strRxPacket s = .next t ∧ t = { s with dict := t.dict } ∧
      t.rd Objs.str_rx_discard = satAdd 64 (s.rd Objs.str_rx_discard) 1

/-- R476, R525, R526, R532, R577, R587, R595: the power-on reset, a cold reset and its ends, and the fall of PWRGOOD. That a retained
object survives and a volatile one does not is stated of the units named. The model's choices: what absorbs a cold trigger and that a
stopped boot boots again, with the BOOT_MODE of the trigger (log 80, log 82), and the order in which the fall of PWRGOOD releases the
enables (log 82). -/
def Obligations.ColdResets : Prop :=
  ∀ (straps : BitVec 3) (s : State),
    (∀ (device : BitVec 14) (slot0 slot1 : List Byte), ∃ t, exec (.powerOnReset device straps slot0 slot1) s = .next t ∧
      t.rd Objs.device_id = device.toNat ∧ t.rd Objs.boot_mode = straps.toNat ∧ t.rd Objs.power_state = 4 ∧
      t.rd Objs.croak_level = 1 ∧ t.fm.croak = .boot ∧ t.eft.phase = .raising ∧ t.eft.pwrEn = 1 ∧ t.eft.bank0 = s.eft.bank0 ∧
      t.eft.bank1 = s.eft.bank1 ∧ t.eft.ff = s.eft.ff ∧ t.host = HostIf.init ∧ t.tbl = TableUnit.init ∧
      t.outbox = s.outbox ++ [.can (0x700 + (device.toNat % 127 + 1)) [0]]) ∧
    (s.fm.safe = true ∨ (2 ≤ s.eft.kind ∧ s.eft.phase ≠ .stopped) → exec (.resetN straps) s = .next s) ∧
    (s.fm.safe = false → s.eft.kind < 2 ∨ s.eft.phase = .stopped → s.eft.pwrEn % 8 = 7 →
      (∃ t, exec (.resetN straps) s = .next t ∧ t.eft.phase = .held ∧ t.eft.kind = 2 ∧ t.eft.trigger = 1 ∧ t.eft.resetLow = true ∧
        t.rd Objs.boot_mode = straps.toNat ∧ t.rd Objs.power_state = 4 ∧ t.rd Objs.boot_status = 0 ∧ t.fsu.slots = [] ∧
        t.tbl = TableUnit.init ∧ t.host = HostIf.init ∧ t.time = TimeUnit.init ∧ t.outbox = s.outbox) ∧
      ∀ c : Ctx, (∃ p : Fin 128, s.pcRetired p = false) → Accepted c Objs.reset_cmd 0 [2] resetCheck s →
        ∃ t, exec (.resetCmdCold c straps) s = .next t ∧ Answered c Objs.reset_cmd 0 .ok t ∧ t.eft.phase = .training ∧
          t.eft.kind = 2 ∧ t.eft.trigger = 2 ∧ t.rd Objs.boot_mode = straps.toNat ∧ t.rd Objs.power_state = 4 ∧
          t.eft.clocks = true) ∧
    (s.eft.phase = .held → s.fm.safe = false → (∃ p : Fin 128, s.pcState p = 0 ∧ s.pcRetired p = false) →
      ∃ t, exec .resetNRelease s = .next t ∧ t.eft.phase = .training ∧ t.eft.clocks = true ∧ t.eft.resetLow = false ∧
        t.time.f = 0 ∧ t.rd Objs.w_state = 0) ∧
    (s.eft.phase ≠ .held → exec .resetNRelease s = .next { s with eft := { s.eft with resetLow := false } }) ∧
    ∃ t, exec .pwrgoodFall s = .next t ∧ t.eft.phase = .off ∧ t.eft.kind = 3 ∧ t.rd Objs.power_state = 4 ∧ t.eft.clocks = false ∧
      t.eft.pwrEn = (if bit s.eft.pwrEn 2 then setFld s.eft.pwrEn 2 1 0 else if bit s.eft.pwrEn 1 then setFld s.eft.pwrEn 1 1 0
        else if bit s.eft.pwrEn 0 then setFld s.eft.pwrEn 0 1 0 else s.eft.pwrEn) ∧ t.dbg.ir = 2 ∧ t.eft.carry = none

/-- R525 to R530, R534, R536 to R541: warm resets, the restart sequence, brumation, wake, and the load of coarse time. The model's choices:
what absorbs a reset command (log 80), what a core reset keeps (log 81), the end of the Skinks (log 107), the Eft's clock (log 79), the
refusals of brumate and wake in ENTERING and WAKING (log 117), the AER logs over a reset (PRESUMED, log 71); a step of a sequence whose
conditions fail leaves the state as it is (log 2). -/
def Obligations.WarmResetsAndBrumation : Prop :=
  ∀ (c : Ctx) (v : List Byte) (s : State),
    (s.fm.safe = false → s.eft.kind < 2 → s.eft.phase.coreUp = true → ¬ (s.eft.kind = 1 ∧ s.eft.phase = .restart) →
      (∀ p : Fin 128, (s.ctl p).wait = []) →
      ∃ t, exec .warmN s = .next t ∧ t.eft.phase = .restart ∧ t.eft.kind = 1 ∧ t.eft.trigger = 4 ∧ t.eft.orderly = false ∧
        t.rd Objs.warm_resets = satAdd 32 (s.rd Objs.warm_resets) 1 ∧ t.rd Objs.power_state = 4 ∧
        t.fsu.slots = s.fsu.slots ∧ t.tbl.lpm4 = s.tbl.lpm4 ∧ t.tbl.mac = [] ∧ t.host = s.host.restart ∧
        ∀ p : Fin 128, (t.ctl p).asleep = s.pcServes p) ∧
    (s.eft.kind = 0 → s.fm.safe = false → s.eft.phase.coreUp = true → Accepted c Objs.reset_cmd 0 [1] resetCheck s →
      ∃ t, exec (.resetCmdWarm c) s = .next t ∧ Answered c Objs.reset_cmd 0 .ok t ∧ t.eft.phase = .draining ∧ t.eft.kind = 1 ∧
        t.eft.trigger = 5 ∧ t.eft.orderly = true ∧ t.rd Objs.power_state = 4) ∧
    (let ended := s.sk.threads.all (fun p => decide (p.2.st = .free)) = true ∨ s.eftElapsed s.eft.since 10000000 = true;
      (ended → s.fm.safe = false → s.eft.phase = .draining →
        ∃ t, exec .warmDrainDone s = .next t ∧ t.eft.phase = .restart ∧ t.host = s.host.restart ∧
          t.rd Objs.warm_resets = satAdd 32 (s.rd Objs.warm_resets) 1) ∧
      (ended → s.fm.safe = false → s.eft.phase = .entering →
        ∃ t, exec .warmDrainDone s = .next t ∧ t.eft.phase = .releasing ∧ t.eft.clocks = false ∧ bit t.eft.pwrEn 2 = false) ∧
      (¬ ended → exec .warmDrainDone s = .next s)) ∧
    (s.eft.phase = .restart → s.fm.safe = false → s.hbm.ctls.all (fun c => !c.2.asleep) = true → ∀ reloads,
      ∃ t, exec (.restartSequence reloads) s = .next t ∧ t.eft.phase = .running ∧ t.rd Objs.power_state = 0 ∧
        t.rd Objs.last_reset = s.eft.trigger ∧ t.fsu.paths = [] ∧ t.eft.carry = none ∧ (∃ e ∈ t.fm.raised, e.src = 116) ∧
        ∃ e ∈ t.fm.raised, e.src = 242 ∧ e.detail = s.eft.trigger) ∧
    (s.eft.phase ≠ .restart ∨ s.hbm.ctls.all (fun c => !c.2.asleep) = false →
      ∀ reloads, exec (.restartSequence reloads) s = .next s) ∧
    (Accepted c Objs.brumate 0 v brumateCheck s →
      ∃ t, exec (.brumate c v) s = .next t ∧ Answered c Objs.brumate 0 .ok t ∧ t.eft.phase = .entering ∧
        t.rd Objs.power_state = 1 ∧ ∃ e ∈ t.fm.raised, e.src = 241) ∧
    (s.eft.phase = .releasing → s.fm.safe = false → s.eft.pwrEn % 8 = 0 →
      (s.eft.wakeHeld = false → ∃ t, exec .brumationReached s = .next t ∧ t.eft.phase = .asleep ∧ t.rd Objs.power_state = 2) ∧
      (s.eft.wakeHeld = true → ∃ t, exec .brumationReached s = .next t ∧ t.eft.phase = .waking ∧ t.rd Objs.power_state = 3 ∧
        bit t.eft.pwrEn 0 = true)) ∧
    (Accepted c Objs.wake 0 v wakeCheck s →
      ∃ t, exec (.wake c v) s = .next t ∧ Answered c Objs.wake 0 .ok t ∧ t.eft.phase = .waking ∧ t.rd Objs.power_state = 3 ∧
        t.eft.trigger = 7) ∧
    (s.eft.clocks = true → ∃ t, exec .coarseTimeLoad s = .next t ∧ t = { s with dict := t.dict } ∧
      t.rd Objs.coarse_time = linStamp (stampLin s.wStamp / 2621440 * 2621440)) ∧
    (s.eft.clocks = false → exec .coarseTimeLoad s = .next s)

/-- R515, R524, R535, R541, R558, R584, R586, R598: the power enables step by step, a rail that fails, the clocks the Eft watches, and the
temperature sensors. A C3 occurrence of the lines is taken at once. The model's choices: the steps of a release and EV236 of a rail that does
not come up (log 82), the Eft's clock (log 79), the order in which occurrences are taken (log 75); a step whose conditions fail leaves the
state as it is (log 2). -/
def Obligations.RailsClocksAndTemperature : Prop :=
  ∀ (s : State),
    (s.fm.safe = false → (s.eft.phase = .raising ∨ s.eft.phase = .waking) →
      (s.eft.railIn = none → ∃ t, exec (.railEnableStep false) s = .next t ∧ t = { s with eft := t.eft } ∧ t.eft.pwrEn = s.eft.pwrEn ∧
        t.eft.railIn = some s.eftNs ∧ (s.eft.pwrEn % 8 = 1 → bit t.eft.monitored 0 = true) ∧
        (s.eft.pwrEn % 8 = 3 → bit t.eft.monitored 1 = true)) ∧
      (∀ x, s.eft.railIn = some x → s.eftElapsed x 1000000 = true →
        (s.eft.pwrEn % 8 = 1 → ∃ t, exec (.railEnableStep true) s = .next t ∧ t.eft.pwrEn = setFld s.eft.pwrEn 1 1 1 ∧ t.eft.railIn = none) ∧
        (s.eft.pwrEn % 8 = 3 → ∃ t, exec (.railEnableStep true) s = .next t ∧ t.eft.pwrEn = setFld s.eft.pwrEn 2 1 1 ∧ t.eft.railIn = none) ∧
        (s.eft.pwrEn % 8 = 7 → s.eft.phase = .waking → ∃ t, exec (.railEnableStep true) s = .next t ∧ t.eft.phase = .restart ∧
          t.eft.clocks = true ∧ t.time.f = 0 ∧ t.time.w = s.coarseUnits)) ∧
      (s.eft.railIn = none ∨ (∃ x, s.eft.railIn = some x ∧ s.eftElapsed x 1000000 = false) → exec (.railEnableStep true) s = .next s) ∧
      (s.eft.railIn ≠ none → exec (.railEnableStep false) s = .next s) ∧
      (s.eft.railIn = none → s.eftElapsed s.eft.railSince 15000000 = true → (∀ o ∈ s.fm.raised, s.evClass o.src < 3) →
        ∃ t, exec .railTimeout s = .next t ∧ t.fm.safe = true ∧ t.rd Objs.power_state = 5 ∧ t.eft.phase = .releasing ∧ t.eft.clocks = false ∧
          t.rd Objs.ev_count 236 = satAdd 64 (s.rd Objs.ev_count 236) 1 ∧
          t.eft.pwrEn = (if bit s.eft.pwrEn 2 then setFld s.eft.pwrEn 2 1 0 else if bit s.eft.pwrEn 1 then setFld s.eft.pwrEn 1 1 0
            else if bit s.eft.pwrEn 0 then setFld s.eft.pwrEn 0 1 0 else s.eft.pwrEn)) ∧
      (s.eft.railIn ≠ none ∨ s.eftElapsed s.eft.railSince 15000000 = false → exec .railTimeout s = .next s)) ∧
    (¬ (s.fm.safe = false ∧ (s.eft.phase = .raising ∨ s.eft.phase = .waking)) →
      (∀ held, exec (.railEnableStep held) s = .next s) ∧ exec .railTimeout s = .next s) ∧
    (s.railsFalling = true →
      (bit s.eft.pwrEn 1 = true → ∃ t, exec .railReleaseStep s = .next t ∧ t.eft.pwrEn = setFld s.eft.pwrEn 1 1 0) ∧
      (bit s.eft.pwrEn 1 = false → bit s.eft.pwrEn 0 = true →
        ∃ t, exec .railReleaseStep s = .next t ∧ t.eft.pwrEn = setFld s.eft.pwrEn 0 1 0)) ∧
    (s.railsFalling = false → exec .railReleaseStep s = .next s) ∧
    (s.fm.safe = false → (∀ o ∈ s.fm.raised, s.evClass o.src < 3) →
      let safe := fun (src : Nat) (t : State) => t.fm.safe = true ∧ t.rd Objs.power_state = 5 ∧ t.fm.croak = .pulse ∧
        t.fm.firstFaultPending = true ∧ t.rd Objs.ev_count src = satAdd 64 (s.rd Objs.ev_count src) 1 ∧ t.fm.raised = s.fm.raised
      (∀ r : Fin 2, bit s.eft.monitored r = true → ∃ t, exec (.coreRailFault r) s = .next t ∧ safe 236 t) ∧
      (s.eft.clocks = true → ∃ t, exec .rpllUnlock s = .next t ∧ safe 233 t) ∧
      ∃ t, exec .thermalTrip s = .next t ∧ safe 235 t) ∧
    (∀ r : Fin 2, (bit s.eft.monitored r = false → exec (.coreRailFault r) s = .next s)) ∧
    (s.eft.clocks = true →
      (∃ t, exec .refclkWindowCheck s = .next t ∧ (∃ e ∈ t.fm.raised, e.src = 232) ∧
        ∀ d : Fin 2, t.rd Objs.dom_state d = if s.rd Objs.dom_state d = 0 then 0 else 4) ∧
      ∀ (k : Fin 7) (x : BitVec 32),
        (bit s.eft.hot k = false → tjMax * 1000 < x.toInt →
          ∃ t, exec (.tjSample k x) s = .next t ∧ Raised 234 0 s t ∧ bit t.eft.hot k = true) ∧
        (x.toInt ≤ (tjMax - 5) * 1000 → ∃ t, exec (.tjSample k x) s = .next t ∧ t.fm = s.fm ∧ bit t.eft.hot k = false)) ∧
    (s.eft.clocks = false → exec .refclkWindowCheck s = .next s ∧ exec .rpllUnlock s = .next s ∧
      ∀ (k : Fin 7) (x : BitVec 32), exec (.tjSample k x) s = .next s) ∧
    (s.rd Objs.aon_source ≠ 1 → ∃ t, exec .aonclkFault s = .next t ∧ t.rd Objs.aon_source = 1 ∧
      (s.eft.clocks = true → Raised 240 0 s t)) ∧
    (s.rd Objs.aon_source = 1 → exec .aonclkFault s = .next s)

/-- R543, R545 to R551, R553, R555, R556: the watch ports' frames, the samplers, the rules, the watchdog and the first-fault record. The
model's choices: the tag of an HSR frame (PRESUMED, log 83), the moment at which a frame leaves its FIFO and the heartbeats (log 120), the
corners of samplers and rules (log 84), the slot of a first-fault record (log 85), the Eft's clock (log 79); an event whose conditions fail
leaves the state as it is (log 2). -/
def Obligations.EftWatches : Prop :=
  ∀ (s : State),
    (s.eft.carry = none → ∀ b f l, exec (.passFrame b f l) s = .next s) ∧
    (∀ (a b : Nat), s.eft.carry = some (a, b) →
      (∀ f x, s.eft.fifoA = [(f, x)] → s.eft.fifoB = [] → s.eftElapsed x 0 = true → (s.passOut false).eft.fifoA = [] ∧
        (s.passOut false).outbox = s.outbox ++ [.pass b f] ∧ (s.passOut false).rd Objs.pass_frames = satAdd 64 (s.rd Objs.pass_frames) 1) ∧
      (∀ (fromB : Bool) (f : List Byte),
        let u := s.passOut false
        let fifo := if fromB then u.eft.fifoB else u.eft.fifoA
        let seen := if fromB then u.eft.passB else u.eft.passA
        let good := 64 ≤ f.length ∧ f.length ≤ 1536 ∧ crc32 (f.take (f.length - 4)) = leNat (f.drop (f.length - 4))
        let twice := u.hsrRole a = true ∧ u.hsrRole b = true ∧ hsrMark f ≠ 0 ∧ hsrMark f ∈ seen
        (good → ¬ twice → fifoBytes fifo + f.length ≤ 16384 →
          ∃ t x, exec (.passFrame fromB f false) s = .next t ∧ t.outbox = u.outbox ∧ t.dict = u.dict ∧ t.fm = u.fm ∧
            (if fromB then t.eft.fifoB else t.eft.fifoA) = fifo ++ [(f, x)] ∧
            (if fromB then t.eft.fifoA else t.eft.fifoB) = (if fromB then u.eft.fifoA else u.eft.fifoB)) ∧
        (∀ lost, lost = true ∨ ¬ good ∨ twice ∨ 16384 < fifoBytes fifo + f.length →
          ∃ t, exec (.passFrame fromB f lost) s = .next t ∧ t.outbox = u.outbox ∧ t.eft.fifoA = u.eft.fifoA ∧ t.eft.fifoB = u.eft.fifoB ∧
            t.rd Objs.pass_drop = satAdd 64 (u.rd Objs.pass_drop) 1))) ∧
    (∀ (k : Fin 16) (x : BitVec 32),
      let cfg := s.rd Objs.sampler_cfg k
      let y := (sampleValue cfg x s).1
      let far := fld cfg 64 14 ≠ 0 ∧ ∃ p rest, (s.sampler k).window = p :: rest ∧ (fld cfg 64 14 : Int) < |y - p|
      let inRange := toSigned 32 (fld cfg 0 32) ≤ y ∧ y ≤ toSigned 32 (fld cfg 32 32)
      (fld cfg 124 4 = 1 ∨ fld cfg 124 4 = 2 → y = x.toInt) ∧ (fld cfg 124 4 = 5 ∨ fld cfg 124 4 = 6 → y = (x.toNat % 2 : Nat)) ∧
      (fld cfg 124 4 = 3 ∨ fld cfg 124 4 = 4 → (fld cfg 99 2 = 0 → y = (x.toNat % 65536 : Nat)) ∧
        (fld cfg 99 2 = 1 → y = toSigned 16 (x.toNat % 65536)) ∧ (fld cfg 99 2 = 3 → y = (x.toNat % 256 : Nat)) ∧
        (fld cfg 99 2 = 2 → x.toNat / 2048 % 32 = 0 → y = toSigned 11 (x.toNat % 2048) * 1000)) ∧
      (fld cfg 124 4 = 0 → exec (.samplerSample k x) s = .next s) ∧
      (fld cfg 124 4 ≠ 0 → ¬ inRange ∨ far →
        ∃ t, exec (.samplerSample k x) s = .next t ∧ (t.sampler k).window = (s.sampler k).window ∧
          bit (t.rd Objs.sampler_status k) 2 = true ∧
          t.rd Objs.sampler_rejects k = satAdd 32 (s.rd Objs.sampler_rejects k) 1) ∧
      (fld cfg 124 4 ≠ 0 → inRange → ¬ far →
        ∃ t, exec (.samplerSample k x) s = .next t ∧ (t.sampler k).window = (y :: (s.sampler k).window).take 129 ∧
          bit (t.rd Objs.sampler_status k) 0 = true ∧ bit (t.rd Objs.sampler_status k) 1 = false ∧
          (fld cfg 82 2 = 1 → fld cfg 78 3 = 0 → t.rd Objs.sampler_value k = ofSigned 32 y)) ∧
      (fld cfg 124 4 ≠ 0 → bit (s.rd Objs.sampler_status k) 1 = false →
        s.eftElapsed (s.sampler k).last (4 * fld cfg 84 8 * 1000000) = true →
        ∀ held, ∃ t, exec (.samplerTimeout k held) s = .next t ∧ bit (t.rd Objs.sampler_status k) 0 = false ∧
          bit (t.rd Objs.sampler_status k) 1 = true ∧
          t.outbox = s.outbox ++ (if held = true ∧ (fld cfg 124 4 = 3 ∨ fld cfg 124 4 = 4) then [.i2cClocks 9] else [])) ∧
      (fld cfg 124 4 = 0 ∨ bit (s.rd Objs.sampler_status k) 1 = true ∨
          s.eftElapsed (s.sampler k).last (4 * fld cfg 84 8 * 1000000) = false →
        exec (.samplerTimeout k false) s = .next s) ∧
      ∀ (c : Ctx) (v : List Byte), Accepted c Objs.sampler_cfg k v samplerCheck s →
        ∃ t, exec (.samplerCfgWrite c k v) s = .next t ∧ Answered c Objs.sampler_cfg k .ok t ∧ t.rd Objs.sampler_cfg k = leNat v ∧
          (t.sampler k).window = [] ∧ bit (t.rd Objs.sampler_status k) 0 = false) ∧
    (∀ r : Fin 64, (∀ j : Fin 64, j ≠ r → bit (s.rd Objs.eft_rule j) 127 = false) →
      let x := s.rd Objs.eft_rule r
      let y := s.ruleState r
      (bit x 127 = false → ∃ t, exec (.eftRuleEval .good) s = .next t ∧ t.outbox = s.outbox ∧ t.dict = s.dict) ∧
      (bit x 127 = true → fld x 93 4 = 3 → s.ruleWhen x = true → s.ruleHolds x = true → y.fired = false →
        s.eftElapsed (y.since.getD s.eftNs) (fld x 97 16 * 1000000) = true →
        ∃ t, exec (.eftRuleEval .good) s = .next t ∧ t.outbox = s.outbox ++ [.can (0x80 + s.nodeId) (emcyData s r x)] ∧
          t.rd Objs.eft_rule_fires r = satAdd 32 (s.rd Objs.eft_rule_fires r) 1) ∧
      ∃ t, exec (.eftRuleEval (.rule r)) s = .next t ∧ bit (t.rd Objs.eft_rule r) 127 = false ∧ t.outbox = s.outbox) ∧
    (∀ (last : BitVec 64) (straps : BitVec 3),
      (s.rd Objs.eft_wdog_enable ≠ 1 ∨ s.wdogGap last.toNat = false → exec (.wdogTimeout last straps) s = .next s) ∧
      (s.rd Objs.eft_wdog_enable = 1 → s.fm.safe = false → s.rd Objs.power_state = 0 → s.eftElapsed s.eft.active 10000000 = true →
        s.wdogGap last.toNat = true → s.eft.phase = .running → s.eft.kind = 0 →
        let n := (s.eft.wdog.filter (fun t => decide (s.eftNs < t + s.rd Objs.eft_wdog_window * 1000000000))).length + 1
        (s.rd Objs.eft_wdog_limit = 0 ∨ n < s.rd Objs.eft_wdog_limit →
          ∃ t, exec (.wdogTimeout last straps) s = .next t ∧ t.eft.phase = .restart ∧ t.eft.trigger = 6 ∧ t.eft.wdog.length = n ∧
            ∃ e ∈ t.fm.raised, e.src = 246) ∧
        (s.rd Objs.eft_wdog_limit ≠ 0 → s.rd Objs.eft_wdog_limit ≤ n → s.eft.pwrEn % 8 = 7 → s.eft.resetLow = false →
          (∃ p : Fin 128, s.pcRetired p = false) →
          ∃ t, exec (.wdogTimeout last straps) s = .next t ∧ t.eft.phase = .training ∧ t.eft.kind = 2 ∧ t.eft.trigger = 3 ∧
            t.rd Objs.boot_mode = straps.toNat ∧ ∃ e ∈ t.fm.raised, e.src = 246))) ∧
    (s.fm.firstFaultPending = true →
      (∃ t i w, exec (.firstFaultWritten true) s = .next t ∧ t.fm.firstFaultPending = false ∧ tfind t.eft.ff i = some w ∧
        ffValid w = true ∧ ffSeq w = ((ffNewest s.eft.ff).map (fun p => (ffSeq p.2 + 1) % 2 ^ 32)).getD 0) ∧
      ∃ t, exec (.firstFaultWritten false) s = .next t ∧ t.fm.firstFaultPending = false ∧ t.eft.ff = s.eft.ff) ∧
    (s.fm.firstFaultPending = false → ∀ ok, exec (.firstFaultWritten ok) s = .next s)

/-- R565 to R570: halts, steps and resumption of a thread, the forced abort of its leap, and the write of a breakpoint. That a step of a
thread aborted by force does nothing is the model's choice (log entry 87), that an event which is not due leaves the state as it is the
model's (log 2). -/
def Obligations.DebugHaltsThreads : Prop :=
  ∀ (c : Ctx) (v : List Byte) (s : State),
    let k := fld (leNat v) 0 11
    (Accepted c Objs.dbg_halt 0 v haltCheck s → bit (leNat v) 15 = false →
      ((s.th k).st = .running → ∃ t, exec (.dbgHalt c v) s = .next t ∧ Answered c Objs.dbg_halt 0 .ok t ∧
        (t.th k).st = .debugHalt ∧ (t.th k).pc = (s.th k).pc ∧ (t.th k).g = (s.th k).g ∧ ∀ j, j ≠ k → t.th j = s.th j) ∧
      ((s.th k).st ≠ .running → (s.th k).st ≠ .debugHalt → ∃ t, exec (.dbgHalt c v) s = .next t ∧ t.sk.threads = s.sk.threads ∧
        k ∈ t.dbg.haltPend)) ∧
    (Accepted c Objs.dbg_step 0 v stepCheck s → (s.th k).forced = false →
      ∃ t, exec (.dbgStep c v) s = .next t ∧ Answered c Objs.dbg_step 0 .ok t ∧ (t.th k).st = .running ∧
        (t.th k).stepLeft = fld (leNat v) 16 16 ∧ ∀ j, j ≠ k → t.th j = s.th j) ∧
    (Accepted c Objs.dbg_step 0 v stepCheck s → (s.th k).forced = true →
      ∃ t, exec (.dbgStep c v) s = .next t ∧ Answered c Objs.dbg_step 0 .ok t ∧ t.sk = s.sk) ∧
    (Accepted c Objs.dbg_resume 0 v haltCheck s → bit (leNat v) 15 = false → (s.th k).st = .debugHalt → (s.th k).forced = false →
      ∃ t, exec (.dbgResume c v) s = .next t ∧ Answered c Objs.dbg_resume 0 .ok t ∧ (t.th k).st = .running ∧
        (t.th k).stepLeft = 0 ∧ k ∉ t.dbg.haltPend) ∧
    (∀ j : Fin 2048, (s.th j).st = .debugHalt → (s.th j).status = none → (s.th j).leap.abandoned = false →
      s.rd Objs.debug_hold_leaps = 0 → s.elapsed (s.th j).haltSince (s.rd Objs.halt_leap_timeout) = true →
      ∃ t, exec (.haltLeapTimeout j) s = .next t ∧ (t.th j).forced = true ∧ (t.th j).status = some 3 ∧ bit (t.th j).md 40 = true ∧
        t.rd Objs.leap_abandoned = satAdd 64 (s.rd Objs.leap_abandoned) 1) ∧
    (∀ j : Fin 2048, (s.rd Objs.debug_hold_leaps ≠ 0 ∨ (s.th j).st ≠ .debugHalt ∨ (s.th j).leap.abandoned = true ∨
        s.elapsed (s.th j).haltSince (s.rd Objs.halt_leap_timeout) = false) → exec (.haltLeapTimeout j) s = .next s) ∧
    ∀ (q : Fin 16) (b : Fin 4), Accepted c Objs.breakpoint (q.val * 4 + b.val) v bpWriteCheck s →
      ∃ t, exec (.breakpointWrite c q b v) s = .next t ∧ Answered c Objs.breakpoint (q.val * 4 + b.val) .ok t ∧
        t.rd Objs.breakpoint (q.val * 4 + b.val) = leNat v ∧ t.sk = s.sk

/-- R572, R574, R575, R576: the trace and its export, the debug memory spaces, and a lane's pattern. That a write of trace_ctrl restarts the
recording, that entries count as exported when they are offered, and that the pattern a checker sees is the command's operand are the
model's choices (log entry 87), as are the bytes of a thread's items that the spec does not give (log 86); an export that is not due leaves
the state as it is (log 2). -/
def Obligations.TraceMemoryAndPatterns : Prop :=
  ∀ (c : Ctx) (v : List Byte) (s : State),
    (∀ q : Fin 16,
      (Accepted c Objs.trace_ctrl q v (traceCheck q) s →
        ∃ t, exec (.traceCtrlWrite c q v) s = .next t ∧ Answered c Objs.trace_ctrl q .ok t ∧ t.rd Objs.trace_ctrl q = leNat v ∧
          (t.traceBuf q).stopped = false ∧ (t.traceBuf q).left = none ∧ (t.traceBuf q).entries = (s.traceBuf q).entries) ∧
      (let b := s.traceBuf q
       let chan := s.rd Objs.trace_channel
       ∀ (at0 most : Nat) (b1 : Nat → TraceBuf),
         (b.again = [] ∧ at0 = max b.exported b.first ∧ most = 64 ∧ b1 = fun n => { b with exported := at0 + n }) ∨
         (∃ hi rest, b.again = (at0, hi) :: rest ∧ most = min 64 (hi - at0) ∧
           b1 = fun n => { b with again := if at0 + n < hi then (at0 + n, hi) :: rest else rest }) →
         let es := (b.entries.drop (at0 - b.first)).take most
         (bit (s.rd Objs.trace_ctrl q) 61 = true → chan ≠ 255 → 2 ≤ es.length →
           s.wouldAdmit chan (32 + 16 * es.length) = true →
           ∃ t l r, exec (.traceExport q) s = .next t ∧ (t.chan chan).recs = l ++ [r] ∧
             l.map StrRec.bytes = (s.chan chan).recs.map StrRec.bytes ∧
             r.ref = .trace q at0 es.length ∧ t.traceBuf q = b1 es.length) ∧
         ((bit (s.rd Objs.trace_ctrl q) 61 = false ∨ chan = 255 ∨ es = []) → exec (.traceExport q) s = .next s))) ∧
    (Accepted c Objs.dbg_mem_cmd 0 [1] (memCheck c) s →
      let a := s.rdCtx c Objs.dbg_mem_addr
      (s.rdCtx c Objs.dbg_mem_space = 0 → ∃ t, exec (.dbgMemRead c false) s = .next t ∧ Answered c Objs.dbg_mem_cmd 0 .ok t ∧
        t.rdCtx c Objs.dbg_mem_data = tget 0 (s.cs (fld a 16 4)).words (fld a 0 14)) ∧
      (s.rdCtx c Objs.dbg_mem_space = 3 → ∃ t, exec (.dbgMemRead c false) s = .next t ∧ Answered c Objs.dbg_mem_cmd 0 .ok t ∧
        t.rdCtx c Objs.dbg_mem_data = thItem (s.th (a / 64)) (a % 64) ∧ t.sk = s.sk)) ∧
    (Accepted c Objs.dbg_mem_cmd 0 [2] (memCheck c) s →
      let a := s.rdCtx c Objs.dbg_mem_addr
      (s.rdCtx c Objs.dbg_mem_space = 3 → a % 64 ≠ 0 →
        ∃ t, exec (.dbgMemWrite c) s = .next t ∧ Answered c Objs.dbg_mem_cmd 0 .ok t ∧
          (t.th (a / 64)).g = (s.th (a / 64)).g.set (a % 64) (s.rdCtx c Objs.dbg_mem_data % 2 ^ 64) ∧
          ∀ j, j ≠ a / 64 → t.th j = s.th j) ∧
      (s.rdCtx c Objs.dbg_mem_space = 3 → a % 64 = 0 →
        ∃ t, exec (.dbgMemWrite c) s = .next t ∧ Answered c Objs.dbg_mem_cmd 0 .ok t ∧ t.sk = s.sk)) ∧
    ∀ (l : Fin 64) (x : Option Nat), Accepted c Objs.lane_prbs l v (prbsCheck l) s →
      ∃ t, exec (.lanePrbsWrite c l v x) s = .next t ∧ Answered c Objs.lane_prbs l .ok t ∧ t.rd Objs.lane_prbs l = leNat v ∧
        ((x = none ∨ leNat v % 16 = 0) → t.rd Objs.lane_prbs_lock l = 0 ∧ t.rd Objs.lane_prbs_errors l = 0) ∧
        (∀ n, x = some n → leNat v % 16 ≠ 0 → t.rd Objs.lane_prbs_lock l = 1 ∧ t.rd Objs.lane_prbs_errors l = satAdd 64 0 n)

/-- A step carries out the command at the front of the queue, with the queue's rest; on an empty queue time advances (the model's
choice, log entry 3; how commands come to wait and how they interleave is log entries 101 and 102). -/
def Obligations.StepRunsFrontCommand : Prop :=
  ∀ (c : Instr) (s : State), step { s with pending := c :: s.pending } = exec c s ∧ (s.pending = [] → step s = .next s.advance)

/-- R7, R444: after reset every object reads its default, nothing is stored, no thread runs and no command waits. -/
def Obligations.ResetHoldsDefaults : Prop :=
  (∀ (o : Obj) (i : Nat), State.reset.rd o i = o.default i 0) ∧ State.reset.time.f = 0 ∧ State.reset.fm.safe = false ∧
    State.reset.fm.recs = [] ∧ State.reset.hbm.sw = [] ∧ State.reset.sk.buffer = [] ∧ State.reset.fsu.slots = [] ∧
    State.reset.tbl.mac = [] ∧ (∀ k, (State.reset.th k).st = .free) ∧ State.reset.outbox = [] ∧ State.reset.pending = []

/-- The invariant of a safe run holds at reset. -/
def Obligations.ResetMeetsInvariant : Prop := State.reset.Inv

/-- R353, R397: every step keeps the invariant of a safe run: the four counters stay below their wrap, the software region and the image
buffer stay canonical tables, and what waits stays well-formed. -/
def Obligations.StepKeepsInvariant : Prop := ∀ s t : State, s.Inv → step s = .next t → t.Inv

/-- The frame of every command: the queue, and each part of the state that `touches` does not list, is as before. -/
def Obligations.CommandsKeepOtherParts : Prop :=
  ∀ (i : Instr) (s t : State), exec i s = .next t → t.pending = s.pending ∧ ∀ p : Part, p ∉ touches i → p.same s t

/-- R354: F adds its increment on each tick, 8 ns on any five ticks in a row; it starts at 0 when the RPLL locks; and no command writes it: a
command leaves F and the tick count as they are, but for those that `restartsF` names, where they may start again from 0 with the time unit. -/
def Obligations.CounterFIsNeverWritten : Prop :=
  (∀ s : State, s.eft.clocks = true → s.tick.time.ticks = s.time.ticks + 1 ∧
    s.tick.time.f = (s.time.f + if s.time.ticks % 5 = 4 then 0x019999999998 else 0x01999999999A) % ctrWrap) ∧
  (∀ s : State, s.eft.clocks = true → s.tick.tick.tick.tick.tick.time.f = (s.time.f + 8 * 2 ^ 40) % ctrWrap) ∧
  (∀ (i : Instr) (s t : State), exec i s = .next t → restartsF i = false → t.time.f = s.time.f ∧ t.time.ticks = s.time.ticks) ∧
  (∀ (i : Instr) (s t : State), exec i s = .next t →
    (t.time.f = s.time.f ∧ t.time.ticks = s.time.ticks) ∨ (t.time.f = 0 ∧ t.time.ticks = 0)) ∧
  ∀ (i : Instr) (s t : State), exec i s = .next t → s.eft.clocks = false → t.eft.clocks = true →
    t.time.f = 0 ∧ t.time.ticks = 0

/-- R516, R526, R557: in the safe state every trigger but a power-on reset is ignored, no path but CAN and, while its rails are up, the SDP is
served, and no command other than a power-on reset leaves the state. That a write of reset_cmd is accepted and starts nothing is the model's reading (log entry 80). -/
def Obligations.SafeStateIsLeftOnlyByPowerOn : Prop :=
  ∀ s : State, s.fm.safe = true →
    (∀ (i : Instr) (t : State), (∀ d m a b, i ≠ .powerOnReset d m a b) → exec i s = .next t → t.fm.safe = true) ∧
    exec .warmN s = .next s ∧ (∀ m, exec (.resetN m) s = .next s ∧ ∀ last, exec (.wdogTimeout last m) s = .next s) ∧
    exec .functionLevelReset s = .next s ∧ exec .pcieLinkDown s = .next s ∧
    (∀ c : Ctx, s.pathServed c = true ↔ c = .can ∨ (c = .sdp ∧ s.eft.pwrEn % 8 = 7)) ∧
    ∀ c : Ctx, (Accepted c Objs.reset_cmd 0 [1] resetCheck s → ∃ t, exec (.resetCmdWarm c) s = .next t ∧ t.eft = s.eft ∧ t.fm = s.fm) ∧
      ∀ m, Accepted c Objs.reset_cmd 0 [2] resetCheck s → ∃ t, exec (.resetCmdCold c m) s = .next t ∧ t.eft = s.eft ∧ t.fm = s.fm

end
end

