-- ==== Sys2Proof/Laws/Bits.lean ====
section
/-! SUPPORT. The laws of bit fields, byte orders, saturating counts and the CRC. -/

namespace Sys2Proof.Machine

/-! ## Fields -/

theorem fld_eq (v lo w : Nat) : fld v lo w = v / 2 ^ lo % 2 ^ w := by rw [fld, Nat.shiftRight_eq_div_pow]

theorem fld_lt (v lo w : Nat) : fld v lo w < 2 ^ w := Nat.mod_lt _ (Nat.two_pow_pos w)

theorem bit_eq_testBit (v i : Nat) : bit v i = v.testBit i := by
  have h : v.testBit i = (1 &&& (v >>> i) != 0) := rfl
  rw [h, Nat.one_and_eq_mod_two, bit, fld]
  rcases Nat.mod_two_eq_zero_or_one (v >>> i) with e | e <;> simp [e]

/-- A bit of a value with a field replaced: inside the field the new value's, outside it as before. -/
theorem setFld_testBit (v lo w x i : Nat) :
    (setFld v lo w x).testBit i = if lo ≤ i ∧ i < lo + w then x.testBit (i - lo) else v.testBit i := by
  have hlow : v % 2 ^ lo < 2 ^ lo := Nat.mod_lt _ (Nat.two_pow_pos lo)
  have hmid : x % 2 ^ w < 2 ^ w := Nat.mod_lt _ (Nat.two_pow_pos w)
  have e : setFld v lo w x = ((v >>> (lo + w)) <<< w + x % 2 ^ w) <<< lo + v % 2 ^ lo := by
    simp only [setFld, Nat.shiftLeft_eq, Nat.pow_add]
    ring
  rw [e, Nat.shiftLeft_add_eq_or_of_lt hlow, Nat.shiftLeft_add_eq_or_of_lt hmid]
  simp only [Nat.testBit_or, Nat.testBit_shiftLeft, Nat.testBit_shiftRight, Nat.testBit_mod_two_pow]
  by_cases h1 : i < lo
  · simp [h1, Nat.not_le.mpr h1]
  · by_cases h2 : i < lo + w
    · simp only [Nat.not_lt] at h1
      have h3 : i - lo < w := by omega
      simp [h1, h2, h3, Nat.not_le.mpr h3, Nat.not_lt.mpr h1]
    · simp only [Nat.not_lt] at h1 h2
      have h3 : w ≤ i - lo := by omega
      have h4 : lo + w + (i - lo - w) = i := by omega
      simp [h1, Nat.not_lt.mpr h1, Nat.not_lt.mpr h2, h3, Nat.not_lt.mpr h3, h4]

theorem bit_setFld (v lo w x i : Nat) : bit (setFld v lo w x) i = if lo ≤ i ∧ i < lo + w then bit x (i - lo) else bit v i := by
  simp only [bit_eq_testBit, setFld_testBit]

theorem fld_testBit (v lo w i : Nat) : (fld v lo w).testBit i = (decide (i < w) && v.testBit (lo + i)) := by
  rw [fld, Nat.testBit_mod_two_pow, Nat.testBit_shiftRight]

/-- A field reads back. -/
theorem fld_setFld_same (v lo w x : Nat) : fld (setFld v lo w x) lo w = x % 2 ^ w := by
  apply Nat.eq_of_testBit_eq
  intro i
  rw [fld_testBit, setFld_testBit, Nat.testBit_mod_two_pow]
  by_cases h : i < w
  · simp [h]
  · simp [h]

/-- A field apart from the one replaced is as before. -/
theorem fld_setFld_other {v lo w x l n : Nat} (h : l + n ≤ lo ∨ lo + w ≤ l) : fld (setFld v lo w x) l n = fld v l n := by
  apply Nat.eq_of_testBit_eq
  intro i
  rw [fld_testBit, fld_testBit, setFld_testBit]
  by_cases hi : i < n
  · rw [if_neg (by omega)]
  · simp [hi]

/-! ## Bytes -/

theorem leBytes_length (n v : Nat) : (leBytes n v).length = n := by
  induction n generalizing v with
  | zero => rfl
  | succ n ih => simp [leBytes, ih]

/-- The low bytes of a number, read back. -/
theorem leNat_leBytes (n v : Nat) : leNat (leBytes n v) = v % 256 ^ n := by
  induction n generalizing v with
  | zero => simp [leBytes, leNat, Nat.mod_one]
  | succ n ih =>
    have h : v % 256 ^ (n + 1) = v % 256 + 256 * (v / 256 % 256 ^ n) := by rw [Nat.pow_succ', Nat.mod_mul]
    simp [leBytes, leNat, ih, h]

theorem leNat_lt (l : List Byte) : leNat l < 256 ^ l.length := by
  induction l with
  | nil => simp [leNat]
  | cons b l ih =>
    have := b.isLt
    simp only [leNat, List.length_cons, Nat.pow_succ']
    omega

/-- A number's bytes are those that make it up. -/
theorem leBytes_leNat (l : List Byte) : leBytes l.length (leNat l) = l := by
  induction l with
  | nil => rfl
  | cons b l ih =>
    have h1 : (b.toNat + 256 * leNat l) / 256 = leNat l := by have := b.isLt; omega
    have h2 : BitVec.ofNat 8 (b.toNat + 256 * leNat l) = b := by
      apply BitVec.eq_of_toNat_eq
      have := b.isLt
      simp only [BitVec.toNat_ofNat]
      omega
    simp [leNat, leBytes, h1, h2, ih]

/-! ## Counts and CRC -/

theorem satAdd_lt (w a n : Nat) : satAdd w a n < 2 ^ w := by
  have := Nat.two_pow_pos w
  unfold satAdd
  omega

theorem le_satAdd {w a : Nat} (n : Nat) (h : a < 2 ^ w) : a ≤ satAdd w a n := by
  unfold satAdd
  omega

theorem crcBits_lt {poly : Nat} (hp : poly < 2 ^ 32) (n : Nat) {c : Nat} (hc : c < 2 ^ 32) : crcBits poly n c < 2 ^ 32 := by
  induction n generalizing c with
  | zero => exact hc
  | succ n ih =>
    apply ih
    split
    · exact Nat.xor_lt_two_pow (by omega) hp
    · omega

theorem crcRefl_lt {poly : Nat} (hp : poly < 2 ^ 32) (l : List Byte) : crcRefl poly l < 2 ^ 32 := by
  have h : ∀ (l : List Byte) (c : Nat), c < 2 ^ 32 → l.foldl (fun c b => crcBits poly 8 (Nat.xor c b.toNat)) c < 2 ^ 32 := by
    intro l
    induction l with
    | nil => exact fun _ h => h
    | cons b l ih =>
      intro c hc
      exact ih _ (crcBits_lt hp 8 (Nat.xor_lt_two_pow hc (by have := b.isLt; omega)))
  exact Nat.xor_lt_two_pow (by norm_num) (h l _ (by norm_num))

theorem crc32_lt (l : List Byte) : crc32 l < 2 ^ 32 := crcRefl_lt (by norm_num) l

end Sys2Proof.Machine
end

