-- ==== Sys2Proof/Laws/Tab.lean ====
section
/-! SUPPORT. The laws of the sparse tables: a read after a write, other keys, and the canonical form that every write keeps. -/

namespace Sys2Proof.Machine

variable {α : Type}

theorem tfind_tput_same (k : Nat) (v : α) (t : Tab α) : tfind (tput k v t) k = some v := by
  induction t with
  | nil => simp [tput, tfind]
  | cons p t ih =>
    obtain ⟨j, w⟩ := p
    unfold tput
    split
    · simp [tfind]
    · split
      · simp [tfind]
      · rename_i h1 h2
        simp [tfind, h2, ih]

theorem tfind_tput_other {k j : Nat} (h : k ≠ j) (v : α) (t : Tab α) : tfind (tput k v t) j = tfind t j := by
  induction t with
  | nil => simp [tput, tfind, h.symm]
  | cons p t ih =>
    obtain ⟨i, w⟩ := p
    unfold tput
    split
    · simp [tfind, h.symm]
    · split
      · rename_i h1 h2
        subst h2
        simp [tfind, h.symm]
      · simp [tfind, ih]

theorem tfind_tdel_same (k : Nat) (t : Tab α) : tfind (tdel k t) k = none := by
  induction t with
  | nil => rfl
  | cons p t ih =>
    obtain ⟨i, w⟩ := p
    rw [tdel] at ih ⊢
    by_cases e : i = k
    · rw [List.filter_cons_of_neg (by simpa using e), ih]
    · rw [List.filter_cons_of_pos (by simpa using e)]
      have e2 : ¬ k = i := fun x => e x.symm
      simp only [tfind, ih, e2, if_false]

theorem tfind_tdel_other {k j : Nat} (h : k ≠ j) (t : Tab α) : tfind (tdel k t) j = tfind t j := by
  induction t with
  | nil => rfl
  | cons p t ih =>
    obtain ⟨i, w⟩ := p
    rw [tdel] at ih ⊢
    by_cases e : i = k
    · subst e
      rw [List.filter_cons_of_neg (by simp), ih]
      simp [tfind, h.symm]
    · rw [List.filter_cons_of_pos (by simpa using e)]
      simp only [tfind, ih]

/-- A read after a write to the same key gives the value written. -/
@[simp] theorem tget_tset_same [DecidableEq α] (d : α) (t : Tab α) (k : Nat) (v : α) : tget d (tset d t k v) k = v := by
  unfold tset tget
  split
  · rename_i h; simp [tfind_tdel_same, h]
  · simp [tfind_tput_same]

/-- A write leaves every other key alone. -/
theorem tget_tset_other [DecidableEq α] {k j : Nat} (h : k ≠ j) (d : α) (t : Tab α) (v : α) :
    tget d (tset d t k v) j = tget d t j := by
  unfold tset tget
  split <;> simp [tfind_tdel_other h, tfind_tput_other h]

theorem tfind_tset_other [DecidableEq α] {k j : Nat} (h : k ≠ j) (d : α) (t : Tab α) (v : α) :
    tfind (tset d t k v) j = tfind t j := by
  unfold tset
  split <;> simp [tfind_tdel_other h, tfind_tput_other h]

/-- The keys of a table rise strictly, as a property of its list of keys. -/
theorem trising_iff (t : Tab α) : trising t = true ↔ (t.map (·.1)).Pairwise (· < ·) := by
  induction t with
  | nil => simp [trising]
  | cons p t ih =>
    obtain ⟨a, v⟩ := p
    cases t with
    | nil => simp [trising]
    | cons q t =>
      obtain ⟨b, w⟩ := q
      simp only [trising, Bool.and_eq_true, decide_eq_true_eq, ih, List.map_cons, List.pairwise_cons, List.mem_cons]
      constructor
      · rintro ⟨h1, h2, h3⟩
        refine ⟨?_, h2, h3⟩
        rintro x (rfl | hx)
        · exact h1
        · exact lt_trans h1 (h2 x hx)
      · rintro ⟨h1, h2, h3⟩
        exact ⟨h1 b (.inl rfl), h2, h3⟩

theorem mem_tput {k : Nat} {v : α} {t : Tab α} {p : Nat × α} (h : p ∈ tput k v t) : p = (k, v) ∨ p ∈ t := by
  induction t with
  | nil => simpa [tput] using h
  | cons q t ih =>
    obtain ⟨j, w⟩ := q
    unfold tput at h
    split at h
    · simp only [List.mem_cons] at h ⊢; tauto
    · split at h
      · simp only [List.mem_cons] at h ⊢; tauto
      · simp only [List.mem_cons] at h ⊢
        rcases h with h | h
        · tauto
        · have := ih h; tauto

theorem tput_rising {k : Nat} {v : α} {t : Tab α} (h : trising t = true) : trising (tput k v t) = true := by
  rw [trising_iff] at h ⊢
  induction t with
  | nil => simp [tput]
  | cons q t ih =>
    obtain ⟨j, w⟩ := q
    simp only [List.map_cons, List.pairwise_cons] at h
    unfold tput
    split
    · rename_i hk
      simp only [List.map_cons, List.pairwise_cons, List.mem_cons]
      refine ⟨?_, h.1, h.2⟩
      rintro x (rfl | hx)
      · exact hk
      · exact lt_trans hk (h.1 x hx)
    · split
      · rename_i hk; subst hk
        simp only [List.map_cons, List.pairwise_cons]; exact h
      · rename_i h1 h2
        simp only [List.map_cons, List.pairwise_cons]
        refine ⟨?_, ih h.2⟩
        intro x hx
        obtain ⟨p, hp, rfl⟩ := List.mem_map.1 hx
        rcases mem_tput hp with rfl | hp
        · show j < k; omega
        · exact h.1 _ (List.mem_map.2 ⟨p, hp, rfl⟩)

theorem filter_rising {t : Tab α} (q : Nat × α → Bool) (h : trising t = true) : trising (t.filter q) = true := by
  rw [trising_iff] at h ⊢
  exact h.sublist (List.filter_sublist.map _)

theorem tdel_rising {k : Nat} {t : Tab α} (h : trising t = true) : trising (tdel k t) = true := filter_rising _ h

/-- Every write keeps the canonical form. -/
theorem tset_twf [DecidableEq α] {d : α} {t : Tab α} {k : Nat} {v : α} (h : twf d t = true) : twf d (tset d t k v) = true := by
  simp only [twf, Bool.and_eq_true, List.all_eq_true, decide_eq_true_eq] at h ⊢
  unfold tset
  split
  · exact ⟨tdel_rising h.1, fun p hp => h.2 p (List.mem_of_mem_filter hp)⟩
  · rename_i hv
    refine ⟨tput_rising h.1, fun p hp => ?_⟩
    rcases mem_tput hp with rfl | hp
    · exact hv
    · exact h.2 p hp

/-- Dropping entries keeps the canonical form. -/
theorem filter_twf [DecidableEq α] {d : α} {t : Tab α} (q : Nat × α → Bool) (h : twf d t = true) : twf d (t.filter q) = true := by
  simp only [twf, Bool.and_eq_true, List.all_eq_true, decide_eq_true_eq] at h ⊢
  exact ⟨filter_rising q h.1, fun p hp => h.2 p (List.mem_of_mem_filter hp)⟩

end Sys2Proof.Machine
end

