-- ==== Sys2Proof/Laws/State.lean ====
section
/-! SUPPORT. The laws of the shared updates of State: what each leaves alone, field by field, and what an object reads after a
write. -/

namespace Sys2Proof.Machine

/-! ## Objects -/

@[simp] theorem State.rd_dict (s : State) (o : Obj) (i : Nat) : s.rd o i = s.dict.rd o i := rfl

@[simp] theorem State.devId_dict (s : State) : s.devId = s.dict.devId := rfl

@[simp] theorem State.wr_dict (s : State) (o : Obj) (i v : Nat) : (s.wr o i v).dict = s.dict.wr o i v := rfl

@[simp] theorem State.wrInt_dict (s : State) (o : Obj) (i : Nat) (v : Int) :
    (s.wrInt o i v).dict = s.dict.wr o i (ofSigned (8 * o.ty.size) v) := rfl

@[simp] theorem State.bump_dict (s : State) (o : Obj) (i n : Nat) :
    (s.bump o i n).dict = s.dict.wr o i (satAdd (8 * o.ty.size) (s.dict.rd o i) n) := rfl

theorem DictUnit.devId_wr {u : DictUnit} {o : Obj} {i v : Nat} (h : o.key i ≠ idKey) : (u.wr o i v).devId = u.devId := by
  unfold DictUnit.devId DictUnit.wr
  rw [tfind_tset_other]
  simpa [idKey] using h

/-- A read after a write of the same object gives the value written. -/
theorem DictUnit.rd_wr_same {u : DictUnit} {o : Obj} {i v : Nat} (h : o.key i ≠ idKey) : (u.wr o i v).rd o i = v := by
  unfold DictUnit.rd
  rw [DictUnit.devId_wr h]
  exact tget_tset_same _ _ _ _

/-- A write of an object leaves every other object alone. -/
theorem DictUnit.rd_wr_other {u : DictUnit} {o p : Obj} {i j v : Nat} (h : o.key i ≠ p.key j) (hi : o.key i ≠ idKey) :
    (u.wr o i v).rd p j = u.rd p j := by
  unfold DictUnit.rd
  rw [DictUnit.devId_wr hi]
  unfold DictUnit.wr
  rw [tfind_tset_other h]

/-! ## One lemma per field per update -/

@[simp] theorem State.wr_fm (s : State) (o : Obj) (i v : Nat) : (s.wr o i v).fm = s.fm := rfl

@[simp] theorem State.wr_time (s : State) (o : Obj) (i v : Nat) : (s.wr o i v).time = s.time := rfl

@[simp] theorem State.wr_str (s : State) (o : Obj) (i v : Nat) : (s.wr o i v).str = s.str := rfl

@[simp] theorem State.wr_host (s : State) (o : Obj) (i v : Nat) : (s.wr o i v).host = s.host := rfl

@[simp] theorem State.wr_hbm (s : State) (o : Obj) (i v : Nat) : (s.wr o i v).hbm = s.hbm := rfl

@[simp] theorem State.wr_ports (s : State) (o : Obj) (i v : Nat) : (s.wr o i v).ports = s.ports := rfl

@[simp] theorem State.wr_pat (s : State) (o : Obj) (i v : Nat) : (s.wr o i v).pat = s.pat := rfl

@[simp] theorem State.wr_hue (s : State) (o : Obj) (i v : Nat) : (s.wr o i v).hue = s.hue := rfl

@[simp] theorem State.wr_tm (s : State) (o : Obj) (i v : Nat) : (s.wr o i v).tm = s.tm := rfl

@[simp] theorem State.wr_eg (s : State) (o : Obj) (i v : Nat) : (s.wr o i v).eg = s.eg := rfl

@[simp] theorem State.wr_tbl (s : State) (o : Obj) (i v : Nat) : (s.wr o i v).tbl = s.tbl := rfl

@[simp] theorem State.wr_sk (s : State) (o : Obj) (i v : Nat) : (s.wr o i v).sk = s.sk := rfl

@[simp] theorem State.wr_cu (s : State) (o : Obj) (i v : Nat) : (s.wr o i v).cu = s.cu := rfl

@[simp] theorem State.wr_fsu (s : State) (o : Obj) (i v : Nat) : (s.wr o i v).fsu = s.fsu := rfl

@[simp] theorem State.wr_dbg (s : State) (o : Obj) (i v : Nat) : (s.wr o i v).dbg = s.dbg := rfl

@[simp] theorem State.wr_eft (s : State) (o : Obj) (i v : Nat) : (s.wr o i v).eft = s.eft := rfl

@[simp] theorem State.wr_outbox (s : State) (o : Obj) (i v : Nat) : (s.wr o i v).outbox = s.outbox := rfl

@[simp] theorem State.wr_free (s : State) (o : Obj) (i v : Nat) : (s.wr o i v).free = s.free := rfl

@[simp] theorem State.wr_pending (s : State) (o : Obj) (i v : Nat) : (s.wr o i v).pending = s.pending := rfl

@[simp] theorem State.wrInt_fm (s : State) (o : Obj) (i : Nat) (v : Int) : (s.wrInt o i v).fm = s.fm := rfl

@[simp] theorem State.wrInt_time (s : State) (o : Obj) (i : Nat) (v : Int) : (s.wrInt o i v).time = s.time := rfl

@[simp] theorem State.wrInt_str (s : State) (o : Obj) (i : Nat) (v : Int) : (s.wrInt o i v).str = s.str := rfl

@[simp] theorem State.wrInt_host (s : State) (o : Obj) (i : Nat) (v : Int) : (s.wrInt o i v).host = s.host := rfl

@[simp] theorem State.wrInt_hbm (s : State) (o : Obj) (i : Nat) (v : Int) : (s.wrInt o i v).hbm = s.hbm := rfl

@[simp] theorem State.wrInt_ports (s : State) (o : Obj) (i : Nat) (v : Int) : (s.wrInt o i v).ports = s.ports := rfl

@[simp] theorem State.wrInt_pat (s : State) (o : Obj) (i : Nat) (v : Int) : (s.wrInt o i v).pat = s.pat := rfl

@[simp] theorem State.wrInt_hue (s : State) (o : Obj) (i : Nat) (v : Int) : (s.wrInt o i v).hue = s.hue := rfl

@[simp] theorem State.wrInt_tm (s : State) (o : Obj) (i : Nat) (v : Int) : (s.wrInt o i v).tm = s.tm := rfl

@[simp] theorem State.wrInt_eg (s : State) (o : Obj) (i : Nat) (v : Int) : (s.wrInt o i v).eg = s.eg := rfl

@[simp] theorem State.wrInt_tbl (s : State) (o : Obj) (i : Nat) (v : Int) : (s.wrInt o i v).tbl = s.tbl := rfl

@[simp] theorem State.wrInt_sk (s : State) (o : Obj) (i : Nat) (v : Int) : (s.wrInt o i v).sk = s.sk := rfl

@[simp] theorem State.wrInt_cu (s : State) (o : Obj) (i : Nat) (v : Int) : (s.wrInt o i v).cu = s.cu := rfl

@[simp] theorem State.wrInt_fsu (s : State) (o : Obj) (i : Nat) (v : Int) : (s.wrInt o i v).fsu = s.fsu := rfl

@[simp] theorem State.wrInt_dbg (s : State) (o : Obj) (i : Nat) (v : Int) : (s.wrInt o i v).dbg = s.dbg := rfl

@[simp] theorem State.wrInt_eft (s : State) (o : Obj) (i : Nat) (v : Int) : (s.wrInt o i v).eft = s.eft := rfl

@[simp] theorem State.wrInt_outbox (s : State) (o : Obj) (i : Nat) (v : Int) : (s.wrInt o i v).outbox = s.outbox := rfl

@[simp] theorem State.wrInt_free (s : State) (o : Obj) (i : Nat) (v : Int) : (s.wrInt o i v).free = s.free := rfl

@[simp] theorem State.wrInt_pending (s : State) (o : Obj) (i : Nat) (v : Int) : (s.wrInt o i v).pending = s.pending := rfl

@[simp] theorem State.bump_fm (s : State) (o : Obj) (i n : Nat) : (s.bump o i n).fm = s.fm := rfl

@[simp] theorem State.bump_time (s : State) (o : Obj) (i n : Nat) : (s.bump o i n).time = s.time := rfl

@[simp] theorem State.bump_str (s : State) (o : Obj) (i n : Nat) : (s.bump o i n).str = s.str := rfl

@[simp] theorem State.bump_host (s : State) (o : Obj) (i n : Nat) : (s.bump o i n).host = s.host := rfl

@[simp] theorem State.bump_hbm (s : State) (o : Obj) (i n : Nat) : (s.bump o i n).hbm = s.hbm := rfl

@[simp] theorem State.bump_ports (s : State) (o : Obj) (i n : Nat) : (s.bump o i n).ports = s.ports := rfl

@[simp] theorem State.bump_pat (s : State) (o : Obj) (i n : Nat) : (s.bump o i n).pat = s.pat := rfl

@[simp] theorem State.bump_hue (s : State) (o : Obj) (i n : Nat) : (s.bump o i n).hue = s.hue := rfl

@[simp] theorem State.bump_tm (s : State) (o : Obj) (i n : Nat) : (s.bump o i n).tm = s.tm := rfl

@[simp] theorem State.bump_eg (s : State) (o : Obj) (i n : Nat) : (s.bump o i n).eg = s.eg := rfl

@[simp] theorem State.bump_tbl (s : State) (o : Obj) (i n : Nat) : (s.bump o i n).tbl = s.tbl := rfl

@[simp] theorem State.bump_sk (s : State) (o : Obj) (i n : Nat) : (s.bump o i n).sk = s.sk := rfl

@[simp] theorem State.bump_cu (s : State) (o : Obj) (i n : Nat) : (s.bump o i n).cu = s.cu := rfl

@[simp] theorem State.bump_fsu (s : State) (o : Obj) (i n : Nat) : (s.bump o i n).fsu = s.fsu := rfl

@[simp] theorem State.bump_dbg (s : State) (o : Obj) (i n : Nat) : (s.bump o i n).dbg = s.dbg := rfl

@[simp] theorem State.bump_eft (s : State) (o : Obj) (i n : Nat) : (s.bump o i n).eft = s.eft := rfl

@[simp] theorem State.bump_outbox (s : State) (o : Obj) (i n : Nat) : (s.bump o i n).outbox = s.outbox := rfl

@[simp] theorem State.bump_free (s : State) (o : Obj) (i n : Nat) : (s.bump o i n).free = s.free := rfl

@[simp] theorem State.bump_pending (s : State) (o : Obj) (i n : Nat) : (s.bump o i n).pending = s.pending := rfl

@[simp] theorem State.put_dict (s : State) (x : Output) : (s.put x).dict = s.dict := rfl

@[simp] theorem State.put_fm (s : State) (x : Output) : (s.put x).fm = s.fm := rfl

@[simp] theorem State.put_time (s : State) (x : Output) : (s.put x).time = s.time := rfl

@[simp] theorem State.put_str (s : State) (x : Output) : (s.put x).str = s.str := rfl

@[simp] theorem State.put_host (s : State) (x : Output) : (s.put x).host = s.host := rfl

@[simp] theorem State.put_hbm (s : State) (x : Output) : (s.put x).hbm = s.hbm := rfl

@[simp] theorem State.put_ports (s : State) (x : Output) : (s.put x).ports = s.ports := rfl

@[simp] theorem State.put_pat (s : State) (x : Output) : (s.put x).pat = s.pat := rfl

@[simp] theorem State.put_hue (s : State) (x : Output) : (s.put x).hue = s.hue := rfl

@[simp] theorem State.put_tm (s : State) (x : Output) : (s.put x).tm = s.tm := rfl

@[simp] theorem State.put_eg (s : State) (x : Output) : (s.put x).eg = s.eg := rfl

@[simp] theorem State.put_tbl (s : State) (x : Output) : (s.put x).tbl = s.tbl := rfl

@[simp] theorem State.put_sk (s : State) (x : Output) : (s.put x).sk = s.sk := rfl

@[simp] theorem State.put_cu (s : State) (x : Output) : (s.put x).cu = s.cu := rfl

@[simp] theorem State.put_fsu (s : State) (x : Output) : (s.put x).fsu = s.fsu := rfl

@[simp] theorem State.put_dbg (s : State) (x : Output) : (s.put x).dbg = s.dbg := rfl

@[simp] theorem State.put_eft (s : State) (x : Output) : (s.put x).eft = s.eft := rfl

@[simp] theorem State.put_free (s : State) (x : Output) : (s.put x).free = s.free := rfl

@[simp] theorem State.put_pending (s : State) (x : Output) : (s.put x).pending = s.pending := rfl

@[simp] theorem State.raiseOf_dict (s : State) (a b c d : Nat) (e : Option (Nat × Nat)) (f : Nat) : (s.raiseOf a b c d e f).dict = s.dict := rfl

@[simp] theorem State.raiseOf_time (s : State) (a b c d : Nat) (e : Option (Nat × Nat)) (f : Nat) : (s.raiseOf a b c d e f).time = s.time := rfl

@[simp] theorem State.raiseOf_str (s : State) (a b c d : Nat) (e : Option (Nat × Nat)) (f : Nat) : (s.raiseOf a b c d e f).str = s.str := rfl

@[simp] theorem State.raiseOf_host (s : State) (a b c d : Nat) (e : Option (Nat × Nat)) (f : Nat) : (s.raiseOf a b c d e f).host = s.host := rfl

@[simp] theorem State.raiseOf_hbm (s : State) (a b c d : Nat) (e : Option (Nat × Nat)) (f : Nat) : (s.raiseOf a b c d e f).hbm = s.hbm := rfl

@[simp] theorem State.raiseOf_ports (s : State) (a b c d : Nat) (e : Option (Nat × Nat)) (f : Nat) : (s.raiseOf a b c d e f).ports = s.ports := rfl

@[simp] theorem State.raiseOf_pat (s : State) (a b c d : Nat) (e : Option (Nat × Nat)) (f : Nat) : (s.raiseOf a b c d e f).pat = s.pat := rfl

@[simp] theorem State.raiseOf_hue (s : State) (a b c d : Nat) (e : Option (Nat × Nat)) (f : Nat) : (s.raiseOf a b c d e f).hue = s.hue := rfl

@[simp] theorem State.raiseOf_tm (s : State) (a b c d : Nat) (e : Option (Nat × Nat)) (f : Nat) : (s.raiseOf a b c d e f).tm = s.tm := rfl

@[simp] theorem State.raiseOf_eg (s : State) (a b c d : Nat) (e : Option (Nat × Nat)) (f : Nat) : (s.raiseOf a b c d e f).eg = s.eg := rfl

@[simp] theorem State.raiseOf_tbl (s : State) (a b c d : Nat) (e : Option (Nat × Nat)) (f : Nat) : (s.raiseOf a b c d e f).tbl = s.tbl := rfl

@[simp] theorem State.raiseOf_sk (s : State) (a b c d : Nat) (e : Option (Nat × Nat)) (f : Nat) : (s.raiseOf a b c d e f).sk = s.sk := rfl

@[simp] theorem State.raiseOf_cu (s : State) (a b c d : Nat) (e : Option (Nat × Nat)) (f : Nat) : (s.raiseOf a b c d e f).cu = s.cu := rfl

@[simp] theorem State.raiseOf_fsu (s : State) (a b c d : Nat) (e : Option (Nat × Nat)) (f : Nat) : (s.raiseOf a b c d e f).fsu = s.fsu := rfl

@[simp] theorem State.raiseOf_dbg (s : State) (a b c d : Nat) (e : Option (Nat × Nat)) (f : Nat) : (s.raiseOf a b c d e f).dbg = s.dbg := rfl

@[simp] theorem State.raiseOf_eft (s : State) (a b c d : Nat) (e : Option (Nat × Nat)) (f : Nat) : (s.raiseOf a b c d e f).eft = s.eft := rfl

@[simp] theorem State.raiseOf_outbox (s : State) (a b c d : Nat) (e : Option (Nat × Nat)) (f : Nat) : (s.raiseOf a b c d e f).outbox = s.outbox := rfl

@[simp] theorem State.raiseOf_free (s : State) (a b c d : Nat) (e : Option (Nat × Nat)) (f : Nat) : (s.raiseOf a b c d e f).free = s.free := rfl

@[simp] theorem State.raiseOf_pending (s : State) (a b c d : Nat) (e : Option (Nat × Nat)) (f : Nat) : (s.raiseOf a b c d e f).pending = s.pending := rfl

@[simp] theorem State.raise_dict (s : State) (a b c : Nat) (e : Option (Nat × Nat)) (f : Nat) : (s.raise a b c e f).dict = s.dict := rfl

@[simp] theorem State.raise_time (s : State) (a b c : Nat) (e : Option (Nat × Nat)) (f : Nat) : (s.raise a b c e f).time = s.time := rfl

@[simp] theorem State.raise_str (s : State) (a b c : Nat) (e : Option (Nat × Nat)) (f : Nat) : (s.raise a b c e f).str = s.str := rfl

@[simp] theorem State.raise_host (s : State) (a b c : Nat) (e : Option (Nat × Nat)) (f : Nat) : (s.raise a b c e f).host = s.host := rfl

@[simp] theorem State.raise_hbm (s : State) (a b c : Nat) (e : Option (Nat × Nat)) (f : Nat) : (s.raise a b c e f).hbm = s.hbm := rfl

@[simp] theorem State.raise_ports (s : State) (a b c : Nat) (e : Option (Nat × Nat)) (f : Nat) : (s.raise a b c e f).ports = s.ports := rfl

@[simp] theorem State.raise_pat (s : State) (a b c : Nat) (e : Option (Nat × Nat)) (f : Nat) : (s.raise a b c e f).pat = s.pat := rfl

@[simp] theorem State.raise_hue (s : State) (a b c : Nat) (e : Option (Nat × Nat)) (f : Nat) : (s.raise a b c e f).hue = s.hue := rfl

@[simp] theorem State.raise_tm (s : State) (a b c : Nat) (e : Option (Nat × Nat)) (f : Nat) : (s.raise a b c e f).tm = s.tm := rfl

@[simp] theorem State.raise_eg (s : State) (a b c : Nat) (e : Option (Nat × Nat)) (f : Nat) : (s.raise a b c e f).eg = s.eg := rfl

@[simp] theorem State.raise_tbl (s : State) (a b c : Nat) (e : Option (Nat × Nat)) (f : Nat) : (s.raise a b c e f).tbl = s.tbl := rfl

@[simp] theorem State.raise_sk (s : State) (a b c : Nat) (e : Option (Nat × Nat)) (f : Nat) : (s.raise a b c e f).sk = s.sk := rfl

@[simp] theorem State.raise_cu (s : State) (a b c : Nat) (e : Option (Nat × Nat)) (f : Nat) : (s.raise a b c e f).cu = s.cu := rfl

@[simp] theorem State.raise_fsu (s : State) (a b c : Nat) (e : Option (Nat × Nat)) (f : Nat) : (s.raise a b c e f).fsu = s.fsu := rfl

@[simp] theorem State.raise_dbg (s : State) (a b c : Nat) (e : Option (Nat × Nat)) (f : Nat) : (s.raise a b c e f).dbg = s.dbg := rfl

@[simp] theorem State.raise_eft (s : State) (a b c : Nat) (e : Option (Nat × Nat)) (f : Nat) : (s.raise a b c e f).eft = s.eft := rfl

@[simp] theorem State.raise_outbox (s : State) (a b c : Nat) (e : Option (Nat × Nat)) (f : Nat) : (s.raise a b c e f).outbox = s.outbox := rfl

@[simp] theorem State.raise_free (s : State) (a b c : Nat) (e : Option (Nat × Nat)) (f : Nat) : (s.raise a b c e f).free = s.free := rfl

@[simp] theorem State.raise_pending (s : State) (a b c : Nat) (e : Option (Nat × Nat)) (f : Nat) : (s.raise a b c e f).pending = s.pending := rfl

@[simp] theorem State.setTrk_dict (s : State) (d : Nat) (t : Tracker) : (s.setTrk d t).dict = s.dict := by
  unfold State.setTrk; dsimp only; repeat (first | rfl | split)

@[simp] theorem State.setTrk_fm (s : State) (d : Nat) (t : Tracker) : (s.setTrk d t).fm = s.fm := by
  unfold State.setTrk; dsimp only; repeat (first | rfl | split)

@[simp] theorem State.setTrk_str (s : State) (d : Nat) (t : Tracker) : (s.setTrk d t).str = s.str := by
  unfold State.setTrk; dsimp only; repeat (first | rfl | split)

@[simp] theorem State.setTrk_host (s : State) (d : Nat) (t : Tracker) : (s.setTrk d t).host = s.host := by
  unfold State.setTrk; dsimp only; repeat (first | rfl | split)

@[simp] theorem State.setTrk_hbm (s : State) (d : Nat) (t : Tracker) : (s.setTrk d t).hbm = s.hbm := by
  unfold State.setTrk; dsimp only; repeat (first | rfl | split)

@[simp] theorem State.setTrk_ports (s : State) (d : Nat) (t : Tracker) : (s.setTrk d t).ports = s.ports := by
  unfold State.setTrk; dsimp only; repeat (first | rfl | split)

@[simp] theorem State.setTrk_pat (s : State) (d : Nat) (t : Tracker) : (s.setTrk d t).pat = s.pat := by
  unfold State.setTrk; dsimp only; repeat (first | rfl | split)

@[simp] theorem State.setTrk_hue (s : State) (d : Nat) (t : Tracker) : (s.setTrk d t).hue = s.hue := by
  unfold State.setTrk; dsimp only; repeat (first | rfl | split)

@[simp] theorem State.setTrk_tm (s : State) (d : Nat) (t : Tracker) : (s.setTrk d t).tm = s.tm := by
  unfold State.setTrk; dsimp only; repeat (first | rfl | split)

@[simp] theorem State.setTrk_eg (s : State) (d : Nat) (t : Tracker) : (s.setTrk d t).eg = s.eg := by
  unfold State.setTrk; dsimp only; repeat (first | rfl | split)

@[simp] theorem State.setTrk_tbl (s : State) (d : Nat) (t : Tracker) : (s.setTrk d t).tbl = s.tbl := by
  unfold State.setTrk; dsimp only; repeat (first | rfl | split)

@[simp] theorem State.setTrk_sk (s : State) (d : Nat) (t : Tracker) : (s.setTrk d t).sk = s.sk := by
  unfold State.setTrk; dsimp only; repeat (first | rfl | split)

@[simp] theorem State.setTrk_cu (s : State) (d : Nat) (t : Tracker) : (s.setTrk d t).cu = s.cu := by
  unfold State.setTrk; dsimp only; repeat (first | rfl | split)

@[simp] theorem State.setTrk_fsu (s : State) (d : Nat) (t : Tracker) : (s.setTrk d t).fsu = s.fsu := by
  unfold State.setTrk; dsimp only; repeat (first | rfl | split)

@[simp] theorem State.setTrk_dbg (s : State) (d : Nat) (t : Tracker) : (s.setTrk d t).dbg = s.dbg := by
  unfold State.setTrk; dsimp only; repeat (first | rfl | split)

@[simp] theorem State.setTrk_eft (s : State) (d : Nat) (t : Tracker) : (s.setTrk d t).eft = s.eft := by
  unfold State.setTrk; dsimp only; repeat (first | rfl | split)

@[simp] theorem State.setTrk_outbox (s : State) (d : Nat) (t : Tracker) : (s.setTrk d t).outbox = s.outbox := by
  unfold State.setTrk; dsimp only; repeat (first | rfl | split)

@[simp] theorem State.setTrk_free (s : State) (d : Nat) (t : Tracker) : (s.setTrk d t).free = s.free := by
  unfold State.setTrk; dsimp only; repeat (first | rfl | split)

@[simp] theorem State.setTrk_pending (s : State) (d : Nat) (t : Tracker) : (s.setTrk d t).pending = s.pending := by
  unfold State.setTrk; dsimp only; repeat (first | rfl | split)

@[simp] theorem State.setCtr_dict (s : State) (d t : Nat) : (s.setCtr d t).dict = s.dict := by
  unfold State.setCtr; dsimp only; repeat (first | rfl | split)

@[simp] theorem State.setCtr_fm (s : State) (d t : Nat) : (s.setCtr d t).fm = s.fm := by
  unfold State.setCtr; dsimp only; repeat (first | rfl | split)

@[simp] theorem State.setCtr_str (s : State) (d t : Nat) : (s.setCtr d t).str = s.str := by
  unfold State.setCtr; dsimp only; repeat (first | rfl | split)

@[simp] theorem State.setCtr_host (s : State) (d t : Nat) : (s.setCtr d t).host = s.host := by
  unfold State.setCtr; dsimp only; repeat (first | rfl | split)

@[simp] theorem State.setCtr_hbm (s : State) (d t : Nat) : (s.setCtr d t).hbm = s.hbm := by
  unfold State.setCtr; dsimp only; repeat (first | rfl | split)

@[simp] theorem State.setCtr_ports (s : State) (d t : Nat) : (s.setCtr d t).ports = s.ports := by
  unfold State.setCtr; dsimp only; repeat (first | rfl | split)

@[simp] theorem State.setCtr_pat (s : State) (d t : Nat) : (s.setCtr d t).pat = s.pat := by
  unfold State.setCtr; dsimp only; repeat (first | rfl | split)

@[simp] theorem State.setCtr_hue (s : State) (d t : Nat) : (s.setCtr d t).hue = s.hue := by
  unfold State.setCtr; dsimp only; repeat (first | rfl | split)

@[simp] theorem State.setCtr_tm (s : State) (d t : Nat) : (s.setCtr d t).tm = s.tm := by
  unfold State.setCtr; dsimp only; repeat (first | rfl | split)

@[simp] theorem State.setCtr_eg (s : State) (d t : Nat) : (s.setCtr d t).eg = s.eg := by
  unfold State.setCtr; dsimp only; repeat (first | rfl | split)

@[simp] theorem State.setCtr_tbl (s : State) (d t : Nat) : (s.setCtr d t).tbl = s.tbl := by
  unfold State.setCtr; dsimp only; repeat (first | rfl | split)

@[simp] theorem State.setCtr_sk (s : State) (d t : Nat) : (s.setCtr d t).sk = s.sk := by
  unfold State.setCtr; dsimp only; repeat (first | rfl | split)

@[simp] theorem State.setCtr_cu (s : State) (d t : Nat) : (s.setCtr d t).cu = s.cu := by
  unfold State.setCtr; dsimp only; repeat (first | rfl | split)

@[simp] theorem State.setCtr_fsu (s : State) (d t : Nat) : (s.setCtr d t).fsu = s.fsu := by
  unfold State.setCtr; dsimp only; repeat (first | rfl | split)

@[simp] theorem State.setCtr_dbg (s : State) (d t : Nat) : (s.setCtr d t).dbg = s.dbg := by
  unfold State.setCtr; dsimp only; repeat (first | rfl | split)

@[simp] theorem State.setCtr_eft (s : State) (d t : Nat) : (s.setCtr d t).eft = s.eft := by
  unfold State.setCtr; dsimp only; repeat (first | rfl | split)

@[simp] theorem State.setCtr_outbox (s : State) (d t : Nat) : (s.setCtr d t).outbox = s.outbox := by
  unfold State.setCtr; dsimp only; repeat (first | rfl | split)

@[simp] theorem State.setCtr_free (s : State) (d t : Nat) : (s.setCtr d t).free = s.free := by
  unfold State.setCtr; dsimp only; repeat (first | rfl | split)

@[simp] theorem State.setCtr_pending (s : State) (d t : Nat) : (s.setCtr d t).pending = s.pending := by
  unfold State.setCtr; dsimp only; repeat (first | rfl | split)

@[simp] theorem State.setChan_dict (s : State) (c : Nat) (x : StrChan) : (s.setChan c x).dict = s.dict := rfl

@[simp] theorem State.setChan_fm (s : State) (c : Nat) (x : StrChan) : (s.setChan c x).fm = s.fm := rfl

@[simp] theorem State.setChan_time (s : State) (c : Nat) (x : StrChan) : (s.setChan c x).time = s.time := rfl

@[simp] theorem State.setChan_host (s : State) (c : Nat) (x : StrChan) : (s.setChan c x).host = s.host := rfl

@[simp] theorem State.setChan_hbm (s : State) (c : Nat) (x : StrChan) : (s.setChan c x).hbm = s.hbm := rfl

@[simp] theorem State.setChan_ports (s : State) (c : Nat) (x : StrChan) : (s.setChan c x).ports = s.ports := rfl

@[simp] theorem State.setChan_pat (s : State) (c : Nat) (x : StrChan) : (s.setChan c x).pat = s.pat := rfl

@[simp] theorem State.setChan_hue (s : State) (c : Nat) (x : StrChan) : (s.setChan c x).hue = s.hue := rfl

@[simp] theorem State.setChan_tm (s : State) (c : Nat) (x : StrChan) : (s.setChan c x).tm = s.tm := rfl

@[simp] theorem State.setChan_eg (s : State) (c : Nat) (x : StrChan) : (s.setChan c x).eg = s.eg := rfl

@[simp] theorem State.setChan_tbl (s : State) (c : Nat) (x : StrChan) : (s.setChan c x).tbl = s.tbl := rfl

@[simp] theorem State.setChan_sk (s : State) (c : Nat) (x : StrChan) : (s.setChan c x).sk = s.sk := rfl

@[simp] theorem State.setChan_cu (s : State) (c : Nat) (x : StrChan) : (s.setChan c x).cu = s.cu := rfl

@[simp] theorem State.setChan_fsu (s : State) (c : Nat) (x : StrChan) : (s.setChan c x).fsu = s.fsu := rfl

@[simp] theorem State.setChan_dbg (s : State) (c : Nat) (x : StrChan) : (s.setChan c x).dbg = s.dbg := rfl

@[simp] theorem State.setChan_eft (s : State) (c : Nat) (x : StrChan) : (s.setChan c x).eft = s.eft := rfl

@[simp] theorem State.setChan_outbox (s : State) (c : Nat) (x : StrChan) : (s.setChan c x).outbox = s.outbox := rfl

@[simp] theorem State.setChan_free (s : State) (c : Nat) (x : StrChan) : (s.setChan c x).free = s.free := rfl

@[simp] theorem State.setChan_pending (s : State) (c : Nat) (x : StrChan) : (s.setChan c x).pending = s.pending := rfl

@[simp] theorem State.journalMark_fm (s : State) (n : Nat) (a b : Bool) : (s.journalMark n a b).fm = s.fm := rfl

@[simp] theorem State.journalMark_time (s : State) (n : Nat) (a b : Bool) : (s.journalMark n a b).time = s.time := rfl

@[simp] theorem State.journalMark_str (s : State) (n : Nat) (a b : Bool) : (s.journalMark n a b).str = s.str := rfl

@[simp] theorem State.journalMark_host (s : State) (n : Nat) (a b : Bool) : (s.journalMark n a b).host = s.host := rfl

@[simp] theorem State.journalMark_hbm (s : State) (n : Nat) (a b : Bool) : (s.journalMark n a b).hbm = s.hbm := rfl

@[simp] theorem State.journalMark_ports (s : State) (n : Nat) (a b : Bool) : (s.journalMark n a b).ports = s.ports := rfl

@[simp] theorem State.journalMark_pat (s : State) (n : Nat) (a b : Bool) : (s.journalMark n a b).pat = s.pat := rfl

@[simp] theorem State.journalMark_hue (s : State) (n : Nat) (a b : Bool) : (s.journalMark n a b).hue = s.hue := rfl

@[simp] theorem State.journalMark_tm (s : State) (n : Nat) (a b : Bool) : (s.journalMark n a b).tm = s.tm := rfl

@[simp] theorem State.journalMark_eg (s : State) (n : Nat) (a b : Bool) : (s.journalMark n a b).eg = s.eg := rfl

@[simp] theorem State.journalMark_tbl (s : State) (n : Nat) (a b : Bool) : (s.journalMark n a b).tbl = s.tbl := rfl

@[simp] theorem State.journalMark_sk (s : State) (n : Nat) (a b : Bool) : (s.journalMark n a b).sk = s.sk := rfl

@[simp] theorem State.journalMark_cu (s : State) (n : Nat) (a b : Bool) : (s.journalMark n a b).cu = s.cu := rfl

@[simp] theorem State.journalMark_fsu (s : State) (n : Nat) (a b : Bool) : (s.journalMark n a b).fsu = s.fsu := rfl

@[simp] theorem State.journalMark_dbg (s : State) (n : Nat) (a b : Bool) : (s.journalMark n a b).dbg = s.dbg := rfl

@[simp] theorem State.journalMark_eft (s : State) (n : Nat) (a b : Bool) : (s.journalMark n a b).eft = s.eft := rfl

@[simp] theorem State.journalMark_outbox (s : State) (n : Nat) (a b : Bool) : (s.journalMark n a b).outbox = s.outbox := rfl

@[simp] theorem State.journalMark_free (s : State) (n : Nat) (a b : Bool) : (s.journalMark n a b).free = s.free := rfl

@[simp] theorem State.journalMark_pending (s : State) (n : Nat) (a b : Bool) : (s.journalMark n a b).pending = s.pending := rfl

@[simp] theorem State.deliver_dict (s : State) (a b : Nat) (l : List Byte) : (s.deliver a b l).dict = s.dict := rfl

@[simp] theorem State.deliver_fm (s : State) (a b : Nat) (l : List Byte) : (s.deliver a b l).fm = s.fm := rfl

@[simp] theorem State.deliver_time (s : State) (a b : Nat) (l : List Byte) : (s.deliver a b l).time = s.time := rfl

@[simp] theorem State.deliver_str (s : State) (a b : Nat) (l : List Byte) : (s.deliver a b l).str = s.str := rfl

@[simp] theorem State.deliver_hbm (s : State) (a b : Nat) (l : List Byte) : (s.deliver a b l).hbm = s.hbm := rfl

@[simp] theorem State.deliver_ports (s : State) (a b : Nat) (l : List Byte) : (s.deliver a b l).ports = s.ports := rfl

@[simp] theorem State.deliver_pat (s : State) (a b : Nat) (l : List Byte) : (s.deliver a b l).pat = s.pat := rfl

@[simp] theorem State.deliver_hue (s : State) (a b : Nat) (l : List Byte) : (s.deliver a b l).hue = s.hue := rfl

@[simp] theorem State.deliver_tm (s : State) (a b : Nat) (l : List Byte) : (s.deliver a b l).tm = s.tm := rfl

@[simp] theorem State.deliver_eg (s : State) (a b : Nat) (l : List Byte) : (s.deliver a b l).eg = s.eg := rfl

@[simp] theorem State.deliver_tbl (s : State) (a b : Nat) (l : List Byte) : (s.deliver a b l).tbl = s.tbl := rfl

@[simp] theorem State.deliver_sk (s : State) (a b : Nat) (l : List Byte) : (s.deliver a b l).sk = s.sk := rfl

@[simp] theorem State.deliver_cu (s : State) (a b : Nat) (l : List Byte) : (s.deliver a b l).cu = s.cu := rfl

@[simp] theorem State.deliver_fsu (s : State) (a b : Nat) (l : List Byte) : (s.deliver a b l).fsu = s.fsu := rfl

@[simp] theorem State.deliver_dbg (s : State) (a b : Nat) (l : List Byte) : (s.deliver a b l).dbg = s.dbg := rfl

@[simp] theorem State.deliver_eft (s : State) (a b : Nat) (l : List Byte) : (s.deliver a b l).eft = s.eft := rfl

@[simp] theorem State.deliver_outbox (s : State) (a b : Nat) (l : List Byte) : (s.deliver a b l).outbox = s.outbox := rfl

@[simp] theorem State.deliver_free (s : State) (a b : Nat) (l : List Byte) : (s.deliver a b l).free = s.free := rfl

@[simp] theorem State.deliver_pending (s : State) (a b : Nat) (l : List Byte) : (s.deliver a b l).pending = s.pending := rfl

@[simp] theorem State.setResultN_fm (s : State) (c k r : Nat) : (s.setResultN c k r).fm = s.fm := rfl

@[simp] theorem State.setResultN_time (s : State) (c k r : Nat) : (s.setResultN c k r).time = s.time := rfl

@[simp] theorem State.setResultN_str (s : State) (c k r : Nat) : (s.setResultN c k r).str = s.str := rfl

@[simp] theorem State.setResultN_host (s : State) (c k r : Nat) : (s.setResultN c k r).host = s.host := rfl

@[simp] theorem State.setResultN_hbm (s : State) (c k r : Nat) : (s.setResultN c k r).hbm = s.hbm := rfl

@[simp] theorem State.setResultN_ports (s : State) (c k r : Nat) : (s.setResultN c k r).ports = s.ports := rfl

@[simp] theorem State.setResultN_pat (s : State) (c k r : Nat) : (s.setResultN c k r).pat = s.pat := rfl

@[simp] theorem State.setResultN_hue (s : State) (c k r : Nat) : (s.setResultN c k r).hue = s.hue := rfl

@[simp] theorem State.setResultN_tm (s : State) (c k r : Nat) : (s.setResultN c k r).tm = s.tm := rfl

@[simp] theorem State.setResultN_eg (s : State) (c k r : Nat) : (s.setResultN c k r).eg = s.eg := rfl

@[simp] theorem State.setResultN_tbl (s : State) (c k r : Nat) : (s.setResultN c k r).tbl = s.tbl := rfl

@[simp] theorem State.setResultN_sk (s : State) (c k r : Nat) : (s.setResultN c k r).sk = s.sk := rfl

@[simp] theorem State.setResultN_cu (s : State) (c k r : Nat) : (s.setResultN c k r).cu = s.cu := rfl

@[simp] theorem State.setResultN_fsu (s : State) (c k r : Nat) : (s.setResultN c k r).fsu = s.fsu := rfl

@[simp] theorem State.setResultN_dbg (s : State) (c k r : Nat) : (s.setResultN c k r).dbg = s.dbg := rfl

@[simp] theorem State.setResultN_eft (s : State) (c k r : Nat) : (s.setResultN c k r).eft = s.eft := rfl

@[simp] theorem State.setResultN_outbox (s : State) (c k r : Nat) : (s.setResultN c k r).outbox = s.outbox := rfl

@[simp] theorem State.setResultN_free (s : State) (c k r : Nat) : (s.setResultN c k r).free = s.free := rfl

@[simp] theorem State.setResultN_pending (s : State) (c k r : Nat) : (s.setResultN c k r).pending = s.pending := rfl

@[simp] theorem State.setResult_fm (s : State) (c : Ctx) (k r : Nat) : (s.setResult c k r).fm = s.fm := rfl

@[simp] theorem State.setResult_time (s : State) (c : Ctx) (k r : Nat) : (s.setResult c k r).time = s.time := rfl

@[simp] theorem State.setResult_str (s : State) (c : Ctx) (k r : Nat) : (s.setResult c k r).str = s.str := rfl

@[simp] theorem State.setResult_host (s : State) (c : Ctx) (k r : Nat) : (s.setResult c k r).host = s.host := rfl

@[simp] theorem State.setResult_hbm (s : State) (c : Ctx) (k r : Nat) : (s.setResult c k r).hbm = s.hbm := rfl

@[simp] theorem State.setResult_ports (s : State) (c : Ctx) (k r : Nat) : (s.setResult c k r).ports = s.ports := rfl

@[simp] theorem State.setResult_pat (s : State) (c : Ctx) (k r : Nat) : (s.setResult c k r).pat = s.pat := rfl

@[simp] theorem State.setResult_hue (s : State) (c : Ctx) (k r : Nat) : (s.setResult c k r).hue = s.hue := rfl

@[simp] theorem State.setResult_tm (s : State) (c : Ctx) (k r : Nat) : (s.setResult c k r).tm = s.tm := rfl

@[simp] theorem State.setResult_eg (s : State) (c : Ctx) (k r : Nat) : (s.setResult c k r).eg = s.eg := rfl

@[simp] theorem State.setResult_tbl (s : State) (c : Ctx) (k r : Nat) : (s.setResult c k r).tbl = s.tbl := rfl

@[simp] theorem State.setResult_sk (s : State) (c : Ctx) (k r : Nat) : (s.setResult c k r).sk = s.sk := rfl

@[simp] theorem State.setResult_cu (s : State) (c : Ctx) (k r : Nat) : (s.setResult c k r).cu = s.cu := rfl

@[simp] theorem State.setResult_fsu (s : State) (c : Ctx) (k r : Nat) : (s.setResult c k r).fsu = s.fsu := rfl

@[simp] theorem State.setResult_dbg (s : State) (c : Ctx) (k r : Nat) : (s.setResult c k r).dbg = s.dbg := rfl

@[simp] theorem State.setResult_eft (s : State) (c : Ctx) (k r : Nat) : (s.setResult c k r).eft = s.eft := rfl

@[simp] theorem State.setResult_outbox (s : State) (c : Ctx) (k r : Nat) : (s.setResult c k r).outbox = s.outbox := rfl

@[simp] theorem State.setResult_free (s : State) (c : Ctx) (k r : Nat) : (s.setResult c k r).free = s.free := rfl

@[simp] theorem State.setResult_pending (s : State) (c : Ctx) (k r : Nat) : (s.setResult c k r).pending = s.pending := rfl

@[simp] theorem State.startRunOn_fm (s : State) (c : Ctx) (k u r : Nat) : (s.startRunOn c k u r).fm = s.fm := rfl

@[simp] theorem State.startRunOn_time (s : State) (c : Ctx) (k u r : Nat) : (s.startRunOn c k u r).time = s.time := rfl

@[simp] theorem State.startRunOn_str (s : State) (c : Ctx) (k u r : Nat) : (s.startRunOn c k u r).str = s.str := rfl

@[simp] theorem State.startRunOn_host (s : State) (c : Ctx) (k u r : Nat) : (s.startRunOn c k u r).host = s.host := rfl

@[simp] theorem State.startRunOn_hbm (s : State) (c : Ctx) (k u r : Nat) : (s.startRunOn c k u r).hbm = s.hbm := rfl

@[simp] theorem State.startRunOn_ports (s : State) (c : Ctx) (k u r : Nat) : (s.startRunOn c k u r).ports = s.ports := rfl

@[simp] theorem State.startRunOn_pat (s : State) (c : Ctx) (k u r : Nat) : (s.startRunOn c k u r).pat = s.pat := rfl

@[simp] theorem State.startRunOn_hue (s : State) (c : Ctx) (k u r : Nat) : (s.startRunOn c k u r).hue = s.hue := rfl

@[simp] theorem State.startRunOn_tm (s : State) (c : Ctx) (k u r : Nat) : (s.startRunOn c k u r).tm = s.tm := rfl

@[simp] theorem State.startRunOn_eg (s : State) (c : Ctx) (k u r : Nat) : (s.startRunOn c k u r).eg = s.eg := rfl

@[simp] theorem State.startRunOn_tbl (s : State) (c : Ctx) (k u r : Nat) : (s.startRunOn c k u r).tbl = s.tbl := rfl

@[simp] theorem State.startRunOn_sk (s : State) (c : Ctx) (k u r : Nat) : (s.startRunOn c k u r).sk = s.sk := rfl

@[simp] theorem State.startRunOn_cu (s : State) (c : Ctx) (k u r : Nat) : (s.startRunOn c k u r).cu = s.cu := rfl

@[simp] theorem State.startRunOn_fsu (s : State) (c : Ctx) (k u r : Nat) : (s.startRunOn c k u r).fsu = s.fsu := rfl

@[simp] theorem State.startRunOn_dbg (s : State) (c : Ctx) (k u r : Nat) : (s.startRunOn c k u r).dbg = s.dbg := rfl

@[simp] theorem State.startRunOn_eft (s : State) (c : Ctx) (k u r : Nat) : (s.startRunOn c k u r).eft = s.eft := rfl

@[simp] theorem State.startRunOn_outbox (s : State) (c : Ctx) (k u r : Nat) : (s.startRunOn c k u r).outbox = s.outbox := rfl

@[simp] theorem State.startRunOn_free (s : State) (c : Ctx) (k u r : Nat) : (s.startRunOn c k u r).free = s.free := rfl

@[simp] theorem State.startRunOn_pending (s : State) (c : Ctx) (k u r : Nat) : (s.startRunOn c k u r).pending = s.pending := rfl

@[simp] theorem State.startRun_fm (s : State) (c : Ctx) (k r : Nat) : (s.startRun c k r).fm = s.fm := rfl

@[simp] theorem State.startRun_time (s : State) (c : Ctx) (k r : Nat) : (s.startRun c k r).time = s.time := rfl

@[simp] theorem State.startRun_str (s : State) (c : Ctx) (k r : Nat) : (s.startRun c k r).str = s.str := rfl

@[simp] theorem State.startRun_host (s : State) (c : Ctx) (k r : Nat) : (s.startRun c k r).host = s.host := rfl

@[simp] theorem State.startRun_hbm (s : State) (c : Ctx) (k r : Nat) : (s.startRun c k r).hbm = s.hbm := rfl

@[simp] theorem State.startRun_ports (s : State) (c : Ctx) (k r : Nat) : (s.startRun c k r).ports = s.ports := rfl

@[simp] theorem State.startRun_pat (s : State) (c : Ctx) (k r : Nat) : (s.startRun c k r).pat = s.pat := rfl

@[simp] theorem State.startRun_hue (s : State) (c : Ctx) (k r : Nat) : (s.startRun c k r).hue = s.hue := rfl

@[simp] theorem State.startRun_tm (s : State) (c : Ctx) (k r : Nat) : (s.startRun c k r).tm = s.tm := rfl

@[simp] theorem State.startRun_eg (s : State) (c : Ctx) (k r : Nat) : (s.startRun c k r).eg = s.eg := rfl

@[simp] theorem State.startRun_tbl (s : State) (c : Ctx) (k r : Nat) : (s.startRun c k r).tbl = s.tbl := rfl

@[simp] theorem State.startRun_sk (s : State) (c : Ctx) (k r : Nat) : (s.startRun c k r).sk = s.sk := rfl

@[simp] theorem State.startRun_cu (s : State) (c : Ctx) (k r : Nat) : (s.startRun c k r).cu = s.cu := rfl

@[simp] theorem State.startRun_fsu (s : State) (c : Ctx) (k r : Nat) : (s.startRun c k r).fsu = s.fsu := rfl

@[simp] theorem State.startRun_dbg (s : State) (c : Ctx) (k r : Nat) : (s.startRun c k r).dbg = s.dbg := rfl

@[simp] theorem State.startRun_eft (s : State) (c : Ctx) (k r : Nat) : (s.startRun c k r).eft = s.eft := rfl

@[simp] theorem State.startRun_outbox (s : State) (c : Ctx) (k r : Nat) : (s.startRun c k r).outbox = s.outbox := rfl

@[simp] theorem State.startRun_free (s : State) (c : Ctx) (k r : Nat) : (s.startRun c k r).free = s.free := rfl

@[simp] theorem State.startRun_pending (s : State) (c : Ctx) (k r : Nat) : (s.startRun c k r).pending = s.pending := rfl

@[simp] theorem State.endRun_fm (s : State) (c k r : Nat) : (s.endRun c k r).fm = s.fm := by
  unfold State.endRun; dsimp only; repeat (first | rfl | split)

@[simp] theorem State.endRun_time (s : State) (c k r : Nat) : (s.endRun c k r).time = s.time := by
  unfold State.endRun; dsimp only; repeat (first | rfl | split)

@[simp] theorem State.endRun_str (s : State) (c k r : Nat) : (s.endRun c k r).str = s.str := by
  unfold State.endRun; dsimp only; repeat (first | rfl | split)

@[simp] theorem State.endRun_host (s : State) (c k r : Nat) : (s.endRun c k r).host = s.host := by
  unfold State.endRun; dsimp only; repeat (first | rfl | split)

@[simp] theorem State.endRun_hbm (s : State) (c k r : Nat) : (s.endRun c k r).hbm = s.hbm := by
  unfold State.endRun; dsimp only; repeat (first | rfl | split)

@[simp] theorem State.endRun_ports (s : State) (c k r : Nat) : (s.endRun c k r).ports = s.ports := by
  unfold State.endRun; dsimp only; repeat (first | rfl | split)

@[simp] theorem State.endRun_pat (s : State) (c k r : Nat) : (s.endRun c k r).pat = s.pat := by
  unfold State.endRun; dsimp only; repeat (first | rfl | split)

@[simp] theorem State.endRun_hue (s : State) (c k r : Nat) : (s.endRun c k r).hue = s.hue := by
  unfold State.endRun; dsimp only; repeat (first | rfl | split)

@[simp] theorem State.endRun_tm (s : State) (c k r : Nat) : (s.endRun c k r).tm = s.tm := by
  unfold State.endRun; dsimp only; repeat (first | rfl | split)

@[simp] theorem State.endRun_eg (s : State) (c k r : Nat) : (s.endRun c k r).eg = s.eg := by
  unfold State.endRun; dsimp only; repeat (first | rfl | split)

@[simp] theorem State.endRun_tbl (s : State) (c k r : Nat) : (s.endRun c k r).tbl = s.tbl := by
  unfold State.endRun; dsimp only; repeat (first | rfl | split)

@[simp] theorem State.endRun_sk (s : State) (c k r : Nat) : (s.endRun c k r).sk = s.sk := by
  unfold State.endRun; dsimp only; repeat (first | rfl | split)

@[simp] theorem State.endRun_cu (s : State) (c k r : Nat) : (s.endRun c k r).cu = s.cu := by
  unfold State.endRun; dsimp only; repeat (first | rfl | split)

@[simp] theorem State.endRun_fsu (s : State) (c k r : Nat) : (s.endRun c k r).fsu = s.fsu := by
  unfold State.endRun; dsimp only; repeat (first | rfl | split)

@[simp] theorem State.endRun_dbg (s : State) (c k r : Nat) : (s.endRun c k r).dbg = s.dbg := by
  unfold State.endRun; dsimp only; repeat (first | rfl | split)

@[simp] theorem State.endRun_eft (s : State) (c k r : Nat) : (s.endRun c k r).eft = s.eft := by
  unfold State.endRun; dsimp only; repeat (first | rfl | split)

@[simp] theorem State.endRun_outbox (s : State) (c k r : Nat) : (s.endRun c k r).outbox = s.outbox := by
  unfold State.endRun; dsimp only; repeat (first | rfl | split)

@[simp] theorem State.endRun_free (s : State) (c k r : Nat) : (s.endRun c k r).free = s.free := by
  unfold State.endRun; dsimp only; repeat (first | rfl | split)

@[simp] theorem State.endRun_pending (s : State) (c k r : Nat) : (s.endRun c k r).pending = s.pending := by
  unfold State.endRun; dsimp only; repeat (first | rfl | split)

@[simp] theorem State.wrCtx_fm (s : State) (c : Ctx) (o : Obj) (i v : Nat) : (s.wrCtx c o i v).fm = s.fm := by
  unfold State.wrCtx; dsimp only; repeat (first | rfl | split)

@[simp] theorem State.wrCtx_time (s : State) (c : Ctx) (o : Obj) (i v : Nat) : (s.wrCtx c o i v).time = s.time := by
  unfold State.wrCtx; dsimp only; repeat (first | rfl | split)

@[simp] theorem State.wrCtx_str (s : State) (c : Ctx) (o : Obj) (i v : Nat) : (s.wrCtx c o i v).str = s.str := by
  unfold State.wrCtx; dsimp only; repeat (first | rfl | split)

@[simp] theorem State.wrCtx_host (s : State) (c : Ctx) (o : Obj) (i v : Nat) : (s.wrCtx c o i v).host = s.host := by
  unfold State.wrCtx; dsimp only; repeat (first | rfl | split)

@[simp] theorem State.wrCtx_hbm (s : State) (c : Ctx) (o : Obj) (i v : Nat) : (s.wrCtx c o i v).hbm = s.hbm := by
  unfold State.wrCtx; dsimp only; repeat (first | rfl | split)

@[simp] theorem State.wrCtx_ports (s : State) (c : Ctx) (o : Obj) (i v : Nat) : (s.wrCtx c o i v).ports = s.ports := by
  unfold State.wrCtx; dsimp only; repeat (first | rfl | split)

@[simp] theorem State.wrCtx_pat (s : State) (c : Ctx) (o : Obj) (i v : Nat) : (s.wrCtx c o i v).pat = s.pat := by
  unfold State.wrCtx; dsimp only; repeat (first | rfl | split)

@[simp] theorem State.wrCtx_hue (s : State) (c : Ctx) (o : Obj) (i v : Nat) : (s.wrCtx c o i v).hue = s.hue := by
  unfold State.wrCtx; dsimp only; repeat (first | rfl | split)

@[simp] theorem State.wrCtx_tm (s : State) (c : Ctx) (o : Obj) (i v : Nat) : (s.wrCtx c o i v).tm = s.tm := by
  unfold State.wrCtx; dsimp only; repeat (first | rfl | split)

@[simp] theorem State.wrCtx_eg (s : State) (c : Ctx) (o : Obj) (i v : Nat) : (s.wrCtx c o i v).eg = s.eg := by
  unfold State.wrCtx; dsimp only; repeat (first | rfl | split)

@[simp] theorem State.wrCtx_tbl (s : State) (c : Ctx) (o : Obj) (i v : Nat) : (s.wrCtx c o i v).tbl = s.tbl := by
  unfold State.wrCtx; dsimp only; repeat (first | rfl | split)

@[simp] theorem State.wrCtx_sk (s : State) (c : Ctx) (o : Obj) (i v : Nat) : (s.wrCtx c o i v).sk = s.sk := by
  unfold State.wrCtx; dsimp only; repeat (first | rfl | split)

@[simp] theorem State.wrCtx_cu (s : State) (c : Ctx) (o : Obj) (i v : Nat) : (s.wrCtx c o i v).cu = s.cu := by
  unfold State.wrCtx; dsimp only; repeat (first | rfl | split)

@[simp] theorem State.wrCtx_fsu (s : State) (c : Ctx) (o : Obj) (i v : Nat) : (s.wrCtx c o i v).fsu = s.fsu := by
  unfold State.wrCtx; dsimp only; repeat (first | rfl | split)

@[simp] theorem State.wrCtx_dbg (s : State) (c : Ctx) (o : Obj) (i v : Nat) : (s.wrCtx c o i v).dbg = s.dbg := by
  unfold State.wrCtx; dsimp only; repeat (first | rfl | split)

@[simp] theorem State.wrCtx_eft (s : State) (c : Ctx) (o : Obj) (i v : Nat) : (s.wrCtx c o i v).eft = s.eft := by
  unfold State.wrCtx; dsimp only; repeat (first | rfl | split)

@[simp] theorem State.wrCtx_outbox (s : State) (c : Ctx) (o : Obj) (i v : Nat) : (s.wrCtx c o i v).outbox = s.outbox := by
  unfold State.wrCtx; dsimp only; repeat (first | rfl | split)

@[simp] theorem State.wrCtx_free (s : State) (c : Ctx) (o : Obj) (i v : Nat) : (s.wrCtx c o i v).free = s.free := by
  unfold State.wrCtx; dsimp only; repeat (first | rfl | split)

@[simp] theorem State.wrCtx_pending (s : State) (c : Ctx) (o : Obj) (i v : Nat) : (s.wrCtx c o i v).pending = s.pending := by
  unfold State.wrCtx; dsimp only; repeat (first | rfl | split)

@[simp] theorem State.storeWritten_fm (s : State) (c : Ctx) (o : Obj) (i x : Nat) : (s.storeWritten c o i x).fm = s.fm := by
  unfold State.storeWritten; dsimp only; (repeat (any_goals split)) <;> simp

@[simp] theorem State.storeWritten_time (s : State) (c : Ctx) (o : Obj) (i x : Nat) : (s.storeWritten c o i x).time = s.time := by
  unfold State.storeWritten; dsimp only; (repeat (any_goals split)) <;> simp

@[simp] theorem State.storeWritten_str (s : State) (c : Ctx) (o : Obj) (i x : Nat) : (s.storeWritten c o i x).str = s.str := by
  unfold State.storeWritten; dsimp only; (repeat (any_goals split)) <;> simp

@[simp] theorem State.storeWritten_host (s : State) (c : Ctx) (o : Obj) (i x : Nat) : (s.storeWritten c o i x).host = s.host := by
  unfold State.storeWritten; dsimp only; (repeat (any_goals split)) <;> simp

@[simp] theorem State.storeWritten_hbm (s : State) (c : Ctx) (o : Obj) (i x : Nat) : (s.storeWritten c o i x).hbm = s.hbm := by
  unfold State.storeWritten; dsimp only; (repeat (any_goals split)) <;> simp

@[simp] theorem State.storeWritten_ports (s : State) (c : Ctx) (o : Obj) (i x : Nat) : (s.storeWritten c o i x).ports = s.ports := by
  unfold State.storeWritten; dsimp only; (repeat (any_goals split)) <;> simp

@[simp] theorem State.storeWritten_pat (s : State) (c : Ctx) (o : Obj) (i x : Nat) : (s.storeWritten c o i x).pat = s.pat := by
  unfold State.storeWritten; dsimp only; (repeat (any_goals split)) <;> simp

@[simp] theorem State.storeWritten_hue (s : State) (c : Ctx) (o : Obj) (i x : Nat) : (s.storeWritten c o i x).hue = s.hue := by
  unfold State.storeWritten; dsimp only; (repeat (any_goals split)) <;> simp

@[simp] theorem State.storeWritten_tm (s : State) (c : Ctx) (o : Obj) (i x : Nat) : (s.storeWritten c o i x).tm = s.tm := by
  unfold State.storeWritten; dsimp only; (repeat (any_goals split)) <;> simp

@[simp] theorem State.storeWritten_eg (s : State) (c : Ctx) (o : Obj) (i x : Nat) : (s.storeWritten c o i x).eg = s.eg := by
  unfold State.storeWritten; dsimp only; (repeat (any_goals split)) <;> simp

@[simp] theorem State.storeWritten_tbl (s : State) (c : Ctx) (o : Obj) (i x : Nat) : (s.storeWritten c o i x).tbl = s.tbl := by
  unfold State.storeWritten; dsimp only; (repeat (any_goals split)) <;> simp

@[simp] theorem State.storeWritten_sk (s : State) (c : Ctx) (o : Obj) (i x : Nat) : (s.storeWritten c o i x).sk = s.sk := by
  unfold State.storeWritten; dsimp only; (repeat (any_goals split)) <;> simp

@[simp] theorem State.storeWritten_cu (s : State) (c : Ctx) (o : Obj) (i x : Nat) : (s.storeWritten c o i x).cu = s.cu := by
  unfold State.storeWritten; dsimp only; (repeat (any_goals split)) <;> simp

@[simp] theorem State.storeWritten_fsu (s : State) (c : Ctx) (o : Obj) (i x : Nat) : (s.storeWritten c o i x).fsu = s.fsu := by
  unfold State.storeWritten; dsimp only; (repeat (any_goals split)) <;> simp

@[simp] theorem State.storeWritten_dbg (s : State) (c : Ctx) (o : Obj) (i x : Nat) : (s.storeWritten c o i x).dbg = s.dbg := by
  unfold State.storeWritten; dsimp only; (repeat (any_goals split)) <;> simp

@[simp] theorem State.storeWritten_eft (s : State) (c : Ctx) (o : Obj) (i x : Nat) : (s.storeWritten c o i x).eft = s.eft := by
  unfold State.storeWritten; dsimp only; (repeat (any_goals split)) <;> simp

@[simp] theorem State.storeWritten_outbox (s : State) (c : Ctx) (o : Obj) (i x : Nat) : (s.storeWritten c o i x).outbox = s.outbox := by
  unfold State.storeWritten; dsimp only; (repeat (any_goals split)) <;> simp

@[simp] theorem State.storeWritten_free (s : State) (c : Ctx) (o : Obj) (i x : Nat) : (s.storeWritten c o i x).free = s.free := by
  unfold State.storeWritten; dsimp only; (repeat (any_goals split)) <;> simp

@[simp] theorem State.storeWritten_pending (s : State) (c : Ctx) (o : Obj) (i x : Nat) : (s.storeWritten c o i x).pending = s.pending := by
  unfold State.storeWritten; dsimp only; (repeat (any_goals split)) <;> simp

@[simp] theorem State.journalAdd_fm (s : State) (c : Ctx) (o : Obj) (i : Nat) (v : List Byte) : (s.journalAdd c o i v).fm = s.fm := by
  unfold State.journalAdd; dsimp only; repeat (first | rfl | split)

@[simp] theorem State.journalAdd_time (s : State) (c : Ctx) (o : Obj) (i : Nat) (v : List Byte) : (s.journalAdd c o i v).time = s.time := by
  unfold State.journalAdd; dsimp only; repeat (first | rfl | split)

@[simp] theorem State.journalAdd_str (s : State) (c : Ctx) (o : Obj) (i : Nat) (v : List Byte) : (s.journalAdd c o i v).str = s.str := by
  unfold State.journalAdd; dsimp only; repeat (first | rfl | split)

@[simp] theorem State.journalAdd_host (s : State) (c : Ctx) (o : Obj) (i : Nat) (v : List Byte) : (s.journalAdd c o i v).host = s.host := by
  unfold State.journalAdd; dsimp only; repeat (first | rfl | split)

@[simp] theorem State.journalAdd_hbm (s : State) (c : Ctx) (o : Obj) (i : Nat) (v : List Byte) : (s.journalAdd c o i v).hbm = s.hbm := by
  unfold State.journalAdd; dsimp only; repeat (first | rfl | split)

@[simp] theorem State.journalAdd_ports (s : State) (c : Ctx) (o : Obj) (i : Nat) (v : List Byte) : (s.journalAdd c o i v).ports = s.ports := by
  unfold State.journalAdd; dsimp only; repeat (first | rfl | split)

@[simp] theorem State.journalAdd_pat (s : State) (c : Ctx) (o : Obj) (i : Nat) (v : List Byte) : (s.journalAdd c o i v).pat = s.pat := by
  unfold State.journalAdd; dsimp only; repeat (first | rfl | split)

@[simp] theorem State.journalAdd_hue (s : State) (c : Ctx) (o : Obj) (i : Nat) (v : List Byte) : (s.journalAdd c o i v).hue = s.hue := by
  unfold State.journalAdd; dsimp only; repeat (first | rfl | split)

@[simp] theorem State.journalAdd_tm (s : State) (c : Ctx) (o : Obj) (i : Nat) (v : List Byte) : (s.journalAdd c o i v).tm = s.tm := by
  unfold State.journalAdd; dsimp only; repeat (first | rfl | split)

@[simp] theorem State.journalAdd_eg (s : State) (c : Ctx) (o : Obj) (i : Nat) (v : List Byte) : (s.journalAdd c o i v).eg = s.eg := by
  unfold State.journalAdd; dsimp only; repeat (first | rfl | split)

@[simp] theorem State.journalAdd_tbl (s : State) (c : Ctx) (o : Obj) (i : Nat) (v : List Byte) : (s.journalAdd c o i v).tbl = s.tbl := by
  unfold State.journalAdd; dsimp only; repeat (first | rfl | split)

@[simp] theorem State.journalAdd_sk (s : State) (c : Ctx) (o : Obj) (i : Nat) (v : List Byte) : (s.journalAdd c o i v).sk = s.sk := by
  unfold State.journalAdd; dsimp only; repeat (first | rfl | split)

@[simp] theorem State.journalAdd_cu (s : State) (c : Ctx) (o : Obj) (i : Nat) (v : List Byte) : (s.journalAdd c o i v).cu = s.cu := by
  unfold State.journalAdd; dsimp only; repeat (first | rfl | split)

@[simp] theorem State.journalAdd_fsu (s : State) (c : Ctx) (o : Obj) (i : Nat) (v : List Byte) : (s.journalAdd c o i v).fsu = s.fsu := by
  unfold State.journalAdd; dsimp only; repeat (first | rfl | split)

@[simp] theorem State.journalAdd_dbg (s : State) (c : Ctx) (o : Obj) (i : Nat) (v : List Byte) : (s.journalAdd c o i v).dbg = s.dbg := by
  unfold State.journalAdd; dsimp only; repeat (first | rfl | split)

@[simp] theorem State.journalAdd_eft (s : State) (c : Ctx) (o : Obj) (i : Nat) (v : List Byte) : (s.journalAdd c o i v).eft = s.eft := by
  unfold State.journalAdd; dsimp only; repeat (first | rfl | split)

@[simp] theorem State.journalAdd_outbox (s : State) (c : Ctx) (o : Obj) (i : Nat) (v : List Byte) : (s.journalAdd c o i v).outbox = s.outbox := by
  unfold State.journalAdd; dsimp only; repeat (first | rfl | split)

@[simp] theorem State.journalAdd_free (s : State) (c : Ctx) (o : Obj) (i : Nat) (v : List Byte) : (s.journalAdd c o i v).free = s.free := by
  unfold State.journalAdd; dsimp only; repeat (first | rfl | split)

@[simp] theorem State.journalAdd_pending (s : State) (c : Ctx) (o : Obj) (i : Nat) (v : List Byte) : (s.journalAdd c o i v).pending = s.pending := by
  unfold State.journalAdd; dsimp only; repeat (first | rfl | split)

@[simp] theorem State.put_outbox (s : State) (x : Output) : (s.put x).outbox = s.outbox ++ [x] := rfl

end Sys2Proof.Machine
end

