-- ==== Sys2Proof/Laws/Write.lean ====
section
/-! SUPPORT. The laws of a dictionary write: what an accepted write leaves alone before its object's own effect, and the
shape of an accepted and of a refused write. -/

namespace Sys2Proof.Machine

theorem journalOffer_cases (s : State) :
    s.journalOffer = s ∨ ∃ (c : Nat) (e : JEntry), s.wouldAdmit c 64 = true ∧
      s.journalOffer = (s.offer c 4 e.bytes (.journal e.seq)).journalMark e.seq false true := by
  unfold State.journalOffer
  dsimp only
  split
  · exact .inl rfl
  · split
    · rename_i e _
      split
      · rename_i h; exact .inr ⟨_, e, h, rfl⟩
      · exact .inl rfl
    · exact .inl rfl

/-- The staging writes of a record change the controllers alone, and the channel where one of them is lost. -/
theorem stageWrites_frame (c seq : Nat) (l : List Nat) : ∀ s : State, ∃ u h, s.stageWrites c seq l = { s with str := u, hbm := h } := by
  induction l with
  | nil => exact fun s => ⟨s.str, s.hbm, rfl⟩
  | cons r t ih =>
    intro s
    have step : ∃ u h, s.hbmWrite (swPc r) ⟨3, stageOff r, [], [.stage c seq]⟩ = { s with str := u, hbm := h } := by
      unfold State.hbmWrite
      split
      · exact ⟨_, _, rfl⟩
      · exact ⟨_, _, rfl⟩
    obtain ⟨u, h, e⟩ := step
    obtain ⟨u', h', e'⟩ := ih { s with str := u, hbm := h }
    refine ⟨u', h', ?_⟩
    show ((s.hbmWrite (swPc r) ⟨3, stageOff r, [], [.stage c seq]⟩).stageWrites c seq t) = _
    rw [e, e']

/-- The staging reads of a channel's head record change the controllers and the channel alone. -/
theorem stageFetch_frame (c : Nat) (s : State) : ∃ u h, s.stageFetch c = { s with str := u, hbm := h } := by
  have reads : ∀ (l : List Nat) (s : State), ∃ u h,
      l.foldl (fun (s : State) a => s.hbmRead (swPc a) ⟨3, stageOff a, c, false⟩) s = { s with str := u, hbm := h } := by
    intro l
    induction l with
    | nil => exact fun s => ⟨s.str, s.hbm, rfl⟩
    | cons a t ih =>
      intro s
      have step : ∃ u h, s.hbmRead (swPc a) ⟨3, stageOff a, c, false⟩ = { s with str := u, hbm := h } := by
        unfold State.hbmRead
        split
        · exact ⟨_, _, rfl⟩
        · exact ⟨_, _, rfl⟩
      obtain ⟨u, h, e⟩ := step
      obtain ⟨u', h', e'⟩ := ih { s with str := u, hbm := h }
      refine ⟨u', h', ?_⟩
      rw [List.foldl_cons, e, e']
  unfold State.stageFetch
  dsimp only
  split
  · exact ⟨_, _, rfl⟩
  · obtain ⟨u, h, e⟩ := reads _ (s.setChan c _)
    exact ⟨u, h, e⟩

theorem stageWrites_of {s t : State} {x : DictUnit} {c seq : Nat} {l : List Nat} (h : t = { s with str := t.str, dict := t.dict })
    (hd : t.dict = x) : ∃ u d m, t.stageWrites c seq l = { s with str := u, dict := d, hbm := m } ∧ d = x := by
  obtain ⟨u, m, e⟩ := stageWrites_frame c seq l t
  exact ⟨u, _, m, e.trans (congrArg (fun x : State => { x with str := u, hbm := m }) h), hd⟩

theorem stageFetch_of {s t : State} {x : DictUnit} {c : Nat} (h : ∃ u d m, t = { s with str := u, dict := d, hbm := m } ∧ d = x) :
    ∃ u d m, t.stageFetch c = { s with str := u, dict := d, hbm := m } ∧ d = x := by
  obtain ⟨u, d, m, e, hd⟩ := h
  obtain ⟨u', m', e'⟩ := stageFetch_frame c { s with str := u, dict := d, hbm := m }
  exact ⟨u', d, m', by rw [e, e'], hd⟩

theorem offer_admitted {s : State} {c ty : Nat} {b : List Byte} {r : RecRef} (h : s.wouldAdmit c (16 + b.length) = true) :
    ∃ u d m, s.offer c ty b r = { s with str := u, dict := d, hbm := m } ∧
      d = s.dict.wr Objs.str_chan_seq c ((s.rd Objs.str_chan_seq c + 1) % 2 ^ 32) := by
  simp only [State.wouldAdmit, Bool.and_eq_true, decide_eq_true_eq] at h
  unfold State.offer
  dsimp only
  rw [if_neg (by simp [h.1.1]), if_neg (by omega), if_neg (by omega)]
  split
  · exact stageFetch_of (stageWrites_of rfl rfl)
  · exact stageWrites_of rfl rfl

theorem JEntry.bytes_length (e : JEntry) : e.bytes.length = 48 := by
  unfold JEntry.bytes; exact leBytes_length _ _

/-- An offer of the journal changes the stream port, its staging writes and the dictionary alone, and of the objects only a channel's SEQ. -/
theorem journalOffer_frame (s : State) :
    ∃ u d m, s.journalOffer = { s with str := u, dict := d, hbm := m } ∧
      ∀ p j, (∀ c, p.key j ≠ Objs.str_chan_seq.key c) → d.rd p j = s.dict.rd p j := by
  rcases journalOffer_cases s with h | ⟨c, e, ha, h⟩
  · exact ⟨s.str, s.dict, s.hbm, h, fun _ _ _ => rfl⟩
  · obtain ⟨u, d, m, ho, hd⟩ := offer_admitted (s := s) (c := c) (ty := 4) (b := e.bytes) (r := .journal e.seq) (by rw [JEntry.bytes_length]; exact ha)
    rw [ho] at h
    refine ⟨u, _, m, h, ?_⟩
    intro p j hp
    show DictUnit.rd { d with journal := _ } p j = _
    have : ∀ l, DictUnit.rd { d with journal := l } p j = d.rd p j := fun _ => rfl
    rw [this, hd]
    apply DictUnit.rd_wr_other (fun x => hp c x.symm)
    simp [Obj.key, idKey]; omega

theorem storeWritten_rd (s : State) (c : Ctx) (o : Obj) (i x : Nat) (p : Obj) (j : Nat) (hid : o.key i ≠ idKey)
    (h1 : p.key j ≠ o.key i) (h2 : ¬ writeSide (p.key j)) : (s.storeWritten c o i x).dict.rd p j = s.dict.rd p j := by
  have hn : Objs.n_dirty.key 0 ≠ p.key j := fun e => h2 (.inr (.inr (.inl e.symm)))
  have hl : ∀ (t : State), (t.wrCtx c o i x).dict.rd p j = t.dict.rd p j := by
    intro t
    unfold State.wrCtx
    split
    · rfl
    · simp only [State.wr_dict]; exact DictUnit.rd_wr_other (Ne.symm h1) hid
  unfold State.storeWritten
  dsimp only
  split
  · rfl
  · split
    · split
      · rw [State.wr_dict, DictUnit.rd_wr_other hn (by decide), hl]
      · exact hl s
    · split
      · rfl
      · rfl

theorem storeWritten_value (s : State) (c : Ctx) (o : Obj) (i x : Nat) (hid : o.key i ≠ idKey) (hb : banked (o.key i) = false)
    (ha : o.acc = .rw) (hp : pathLocal (o.key i) = false) (hn : Objs.n_dirty.key 0 ≠ o.key i) :
    (s.storeWritten c o i x).dict.rd o i = x := by
  have hl : (s.wrCtx c o i x).dict.rd o i = x := by
    unfold State.wrCtx
    rw [if_neg (by simp [hp])]
    simp only [State.wr_dict]; exact DictUnit.rd_wr_same hid
  unfold State.storeWritten
  dsimp only
  rw [if_neg (by simp [hb]), if_pos ha]
  split
  · rw [State.wr_dict, DictUnit.rd_wr_other hn (by decide), hl]
  · exact hl

theorem journalAdd_rd (s : State) (c : Ctx) (o : Obj) (i : Nat) (v : List Byte) (p : Obj) (j : Nat)
    (h1 : Objs.journal_next_seq.key 0 ≠ p.key j) (h2 : Objs.journal_lost.key 0 ≠ p.key j) :
    (s.journalAdd c o i v).dict.rd p j = s.dict.rd p j := by
  have e : ∀ (u : DictUnit) l, DictUnit.rd { u with journal := l } p j = u.rd p j := fun _ _ => rfl
  have w : ∀ (u : DictUnit) n, (u.wr Objs.journal_next_seq 0 n).rd p j = u.rd p j :=
    fun u n => DictUnit.rd_wr_other h1 (by decide)
  have l : ∀ (u : DictUnit) n, (u.wr Objs.journal_lost 0 n).rd p j = u.rd p j :=
    fun u n => DictUnit.rd_wr_other h2 (by decide)
  unfold State.journalAdd
  dsimp only
  split
  · split
    · simp only [e, State.wr_dict, w]
    · split <;> simp only [e, State.wr_dict, State.bump_dict, w, l]
  · simp only [e, State.wr_dict, w]

/-- What an accepted write does before its object's own effect: only the dictionary and the stream port with its staging writes change, and
of the objects only its own and those of `writeSide`. -/
theorem acceptBase_frame (c : Ctx) (o : Obj) (i : Nat) (v : List Byte) (s : State) (hid : o.key i ≠ idKey) :
    ∃ u d m, acceptBase c o i v s = { s with str := u, dict := d, hbm := m } ∧
      (∀ p j, p.key j ≠ o.key i → ¬ writeSide (p.key j) → d.rd p j = s.dict.rd p j) ∧
      (banked (o.key i) = false → o.acc = .rw → pathLocal (o.key i) = false → ¬ writeSide (o.key i) → d.rd o i = leNat v) := by
  have hs : ∀ t : State, t = { s with dict := t.dict } → ∀ u d m, { t with str := u, dict := d, hbm := m } = { s with str := u, dict := d, hbm := m } := by
    intro t ht u d m; rw [ht]
  have h1 : s.storeWritten c o i (leNat v) = { s with dict := (s.storeWritten c o i (leNat v)).dict } := by
    unfold State.storeWritten State.wrCtx
    dsimp only
    repeat (first | rfl | split)
  have h2 : ∀ t : State, t.journalAdd c o i v = { t with dict := (t.journalAdd c o i v).dict } := by
    intro t
    unfold State.journalAdd
    dsimp only
    repeat (first | rfl | split)
  unfold acceptBase
  dsimp only
  split
  · rename_i hl
    refine ⟨s.str, _, s.hbm, h1, ?_, ?_⟩
    · intro p j hp hw; exact storeWritten_rd s c o i _ p j hid hp hw
    · intro _ _ h; rw [h] at hl; cases hl
  · obtain ⟨u, d, m, he, hd⟩ := journalOffer_frame ((s.storeWritten c o i (leNat v)).journalAdd c o i v)
    refine ⟨u, d, m, ?_, ?_, ?_⟩
    · rw [he]
      apply hs
      rw [h2, h1]
    · intro p j hp hw
      rw [hd p j (fun k e => hw (.inr (.inr (.inr ⟨k, e⟩)))), journalAdd_rd _ _ _ _ _ _ _ (fun e => hw (.inl e.symm)) (fun e => hw (.inr (.inl e.symm)))]
      exact storeWritten_rd s c o i _ p j hid hp hw
    · intro hb ha hp hw
      rw [hd o i (fun k e => hw (.inr (.inr (.inr ⟨k, e⟩)))), journalAdd_rd _ _ _ _ _ _ _ (fun e => hw (.inl e.symm)) (fun e => hw (.inr (.inl e.symm)))]
      exact storeWritten_value s c o i _ hid hb ha hp (fun e => hw (.inr (.inr (.inl e.symm))))

/-- An accepted write: its effect and the answer OK. -/
theorem writeObj_accepted {c : Ctx} {o : Obj} {i : Nat} {v : List Byte} {check : Nat → State → Code}
    {apply : Nat → State → State} {s : State} {r : Code → State → State} (h1 : s.pathServed c = true)
    (h2 : judgeWrite c o i v check s = .ok) :
    writeObj c o i v check apply s r =
      (apply (leNat v) (acceptBase c o i v s)).put (.answer c (o.key i / 256) (o.key i % 256) 0 []) := by
  simp [writeObj, h1, h2, acceptWrite, Code.num]

/-- A refused write of an object without effects on refusal: the answer alone (R452). -/
theorem writeObj_refused {c : Ctx} {o : Obj} {i : Nat} {v : List Byte} {check : Nat → State → Code}
    {apply : Nat → State → State} {s : State} (h1 : s.pathServed c = true) (h2 : judgeWrite c o i v check s ≠ .ok) :
    writeObj c o i v check apply s =
      s.put (.answer c (o.key i / 256) (o.key i % 256) (judgeWrite c o i v check s).num []) := by
  simp [writeObj, h1, h2]

/-- A path that is not served answers nothing (R474, R516). -/
theorem writeObj_silent {c : Ctx} {o : Obj} {i : Nat} {v : List Byte} {check : Nat → State → Code}
    {apply : Nat → State → State} {s : State} {r : Code → State → State} (h1 : s.pathServed c = false) :
    writeObj c o i v check apply s r = s := by
  simp [writeObj, h1]

end Sys2Proof.Machine
end

