-- ==== Sys2Proof/Machine/Bar0.lean ====
section
/-! DEFINITION. What a host read of BAR0 returns (R416, R422, R435, R468), and the identity of the PCIe function
(R415). A read changes nothing, and a write of a reserved offset is discarded. -/

namespace Sys2Proof.Machine

/-- STATE of CR_STATUS (R422). -/
def RingState.num : RingState → Nat
  | .disabled => 0
  | .running => 1
  | .stopping => 2

/-- A 32-bit half of a 64-bit register. -/
def half (x k : Nat) : Nat := fld x (32 * k) 32

/-- A word of the register page of a command ring (R422). A read of CR_DOORBELL, which is write-only, returns 0 (DESIGN CHOICE). -/
def CmdRing.word (x : CmdRing) (o : Nat) : Nat :=
  match o with
  | 0x000 => half x.base 0
  | 0x004 => half x.base 1
  | 0x008 => half x.wb 0
  | 0x00C => half x.wb 1
  | 0x010 => x.ctrl
  | 0x014 => x.st.num
  | 0x018 => x.h
  | 0x01C => x.p
  | _ => 0

/-- A word of the register page of a delivery ring (R435). -/
def DelRing.word (x : DelRing) (o : Nat) : Nat :=
  match o with
  | 0x000 => half x.base 0
  | 0x004 => half x.base 1
  | 0x008 => half x.wb 0
  | 0x00C => half x.wb 1
  | 0x010 => half x.brBase 0
  | 0x014 => half x.brBase 1
  | 0x018 => x.ctrl
  | 0x01C => b2n x.running
  | 0x020 => x.holdLimit
  | 0x024 => x.coalTime
  | 0x028 => x.p
  | 0x02C => x.h
  | 0x030 => x.pb
  | _ => 0

/-- The four bytes of a buffer of the mailbox at an offset. -/
def mbWord (l : List Byte) (o : Nat) : Nat := leNat (slice (padTo 0 1400 l) o 4)

/-- A word of the dictionary window (R468). -/
def State.mailboxWord (s : State) (o : Nat) : Nat :=
  if o < 1400 then mbWord s.dict.mbRequest o
  else if 0x800 ≤ o ∧ o < 0x800 + 1400 then mbWord s.dict.mbResponse (o - 0x800)
  else if o = 0x1004 then s.dict.mbStatus
  else if o = 0x1008 then s.dict.mbCtrl
  else 0

/-- The word at an offset of BAR0, a multiple of 4 (R416, R468). -/
def State.bar0Word (s : State) (o : Nat) : Nat :=
  if o < 0x1000000 then s.mailboxWord o
  else if o < 0x1040000 then (s.cr ((o - 0x1000000) / 0x1000)).word (o % 0x1000)
  else if 0x1100000 ≤ o ∧ o < 0x1140000 then (s.dr ((o - 0x1100000) / 0x1000)).word (o % 0x1000)
  else if 0x1300000 ≤ o ∧ o < 0x1300800 then fld (s.msixEntry ((o - 0x1300000) / 16)) (o % 16 * 8) 32
  else if 0x1301000 ≤ o ∧ o < 0x1301010 then fld s.host.msixPending (o % 16 * 8) 32
  else 0

/-- The range in microseconds in which a read of host memory that stays unanswered times out: 50 ms by default, and ranges A and B (R415; PRESUMED,
the codes of the PCI rules). -/
def State.completionTimeout (s : State) : Nat × Nat :=
  match s.host.pcie.devCtl2 % 16 with
  | 1 => (50, 100)
  | 2 => (1000, 10000)
  | 5 => (16000, 55000)
  | 6 => (65000, 210000)
  | _ => (50000, 50000)

/-- The class code of the function: an Ethernet controller (R415). -/
def classCode : Nat := 0x020000

/-- The vendor ID, the device ID and the class code that the function's configuration space reports (R415). -/
def State.pciIdentity (s : State) : Nat × Nat × Nat := (s.rd Objs.vendor_id, s.rd Objs.pcie_device_id, classCode)

end Sys2Proof.Machine
end

