-- ==== Sys2Proof/Tests/Slice0.lean ====
section
/-! SUPPORT. Tests of single commands on small states. A theorem states the hypotheses of a clause of a statement, which its state and
operands meet, and what the command then leaves by the rule that its comment names; the ill-formed commands come first. -/

namespace Sys2Proof.Tests
open Sys2Proof.Machine

set_option Elab.async false

/-- The state after a command. -/
def after (i : Instr) (s : State) : State :=
  match exec i s with
  | .next t => t
  | _ => s

/-- What has been raised: sources and units. -/
def raised (s : State) : List (Nat × Nat) := s.fm.raised.map (fun e => (e.src, e.unit))

/-- Values of objects put into a state. -/
def obj (l : List (Obj × Nat × Nat)) (s : State) : State := l.foldl (fun (s : State) x => s.wr x.1 x.2.1 x.2.2) s

/-- A state at a time of F in ns. -/
def clock (ns : Nat) (s : State) : State := { s with time := { s.time with f := ns * 2 ^ 40 } }

/-- The code of an answer with no value, and its object. -/
def answered (o : Obj) (i code : Nat) (s : State) : Bool :=
  match s.outbox.getLast? with
  | some (.answer _ x y k []) => x == o.key i / 256 && y == o.key i % 256 && k == code
  | _ => false

/-- The state after reset. -/
abbrev z : State := State.reset


/-! ## Ill-formed commands: one for each check of WellFormed -/

theorem frame_refused (b : List Byte) (h : b.length = 16384) : (Instr.passFrame false b false).wellFormed = false := by
  show frameOk b = false
  simp [frameOk, h]
theorem test_frame_too_long : (Instr.passFrame false (List.replicate 16384 0) false).wellFormed = false := frame_refused _ List.length_replicate
theorem value_refused (b : List Byte) (h : b.length = 1401) : (Instr.adminUpWrite .sdp 3 b).wellFormed = false := by
  show valueOk b = false
  simp [valueOk, h]
theorem test_value_too_long : (Instr.adminUpWrite .sdp 3 (List.replicate 1401 0)).wellFormed = false := value_refused _ List.length_replicate
theorem request_refused (b : List Byte) (h : b.length = 1401) : (Instr.mbDoorbell b 0).wellFormed = false := by
  show requestOk b = false
  simp [requestOk, h]
theorem test_request_too_long : (Instr.mbDoorbell (List.replicate 1401 0) 0).wellFormed = false := request_refused _ List.length_replicate
theorem buffer_refused (b : List Byte) (h : b.length = 4294967296) : (Instr.tblDmaWrite 0 0 b .good).wellFormed = false := by
  show bufferOk b = false
  simp [bufferOk, h]
theorem test_buffer_too_long : (Instr.tblDmaWrite 0 0 (List.replicate 4294967296 0) .good).wellFormed = false := buffer_refused _ List.length_replicate
theorem window_refused (b : List Byte) (h : b.length = 4097) : (Instr.bar2Write 0 b).wellFormed = false := by
  show windowOk b = false
  simp [windowOk, h]
theorem test_window_too_long : (Instr.bar2Write 0 (List.replicate 4097 0)).wellFormed = false := window_refused _ List.length_replicate
theorem can_refused (b : List Byte) (h : b.length = 65) : (Instr.sdoRequest 0x601 true b).wellFormed = false := by
  show canOk b = false
  simp [canOk, h]
theorem test_can_too_long : (Instr.sdoRequest 0x601 true (List.replicate 65 0)).wellFormed = false := can_refused _ List.length_replicate
theorem slot_refused (b : List Byte) (h : b.length = 4194305) : (Instr.powerOnReset 1 0 b []).wellFormed = false := by
  show (slotOk b && slotOk []) = false
  simp [slotOk, h]
theorem test_slot_too_long : (Instr.powerOnReset 1 0 (List.replicate 4194305 0) []).wellFormed = false := slot_refused _ List.length_replicate
theorem load_value_refused (b : List Byte) (h : b.length = 1401) : (Instr.csLoad (.dict .sdp b)).wellFormed = false := by
  show valueOk b = false
  simp [valueOk, h]
theorem test_load_value_too_long : (Instr.csLoad (.dict .sdp (List.replicate 1401 0))).wellFormed = false := load_value_refused _ List.length_replicate
theorem load_buffer_refused (b : List Byte) (h : b.length = 4294967296) : (Instr.csLoad (.ring 0 0 b .good)).wellFormed = false := by
  show bufferOk b = false
  simp [bufferOk, h]
theorem test_load_buffer_too_long : (Instr.csLoad (.ring 0 0 (List.replicate 4294967296 0) .good)).wellFormed = false := load_buffer_refused _ List.length_replicate
theorem test_longest : (Instr.mbDoorbell [1] 0).wellFormed = true ∧ (Instr.sdoRequest 0x601 true (List.replicate 64 0)).wellFormed = true ∧
    (Instr.csLoad (.dict .sdp [4])).wellFormed = true := by decide

/-! ## Ports (chapter 2) -/

/-- A frame of 60 bytes with its FCS. -/
def frame60 : List Byte := let b := List.replicate 60 (0x11 : Byte); b ++ leBytes 4 (crc32 b)

/-- What comes with a good frame. -/
def rxGood : RxInfo := ⟨0, 0, false, false, 0, false, false, 5⟩

/-- Port 0 in 10GBASE_R, UP, with signal and lock on its lane. -/
def up0 : State :=
  let s := obj [(Objs.port_mode, 0, 4), (Objs.admin_up, 0, 1), (Objs.link_state, 0, 2), (Objs.lane_lock, 0, 1)] z
  { s with ports := { s.ports with sig := 1, links := [(0, { PortLink.init with bad := false })] } }

-- R34
theorem test_frameReceive : up0.macClosed = false ∧ up0.isUp 0 = true ∧ up0.portFault 0 = false ∧ 64 ≤ frame60.length ∧
    frame60.length ≤ up0.rd Objs.max_frame 0 ∧ crc32 (frame60.take (frame60.length - 4)) = leNat (frame60.drop (frame60.length - 4)) ∧
    isPause frame60 = false ∧ ((after (.frameReceive 0 frame60 rxGood) up0).ports.inq.map (fun x => (x.1, x.2.map (·.frame)))) =
      [(0, [frame60])] ∧ (after (.frameReceive 0 frame60 rxGood) up0).rd Objs.rx_frames 0 = 1 := by decide +kernel
theorem test_frameReceive_discards :
    (after (.frameReceive 1 frame60 rxGood) up0).rd Objs.rx_pcs_err 1 = 1 ∧
    (after (.frameReceive 0 (frame60.take 63) rxGood) up0).rd Objs.rx_runt 0 = 1 ∧
    (after (.frameReceive 0 (List.replicate 65 0) rxGood) (obj [(Objs.max_frame, 0, 64)] up0)).rd Objs.rx_oversize 0 = 1 ∧
    (after (.frameReceive 0 (List.replicate 64 0) rxGood) up0).rd Objs.rx_fcs_err 0 = 1 := by decide +kernel

/-- A PAUSE frame with its FCS. -/
def pauseFrame : List Byte :=
  let b := List.replicate 12 (0x11 : Byte) ++ [0x88, 0x08, 0x00, 0x01] ++ List.replicate 44 0
  b ++ leBytes 4 (crc32 b)

theorem test_frameReceive_events :
    let re := after (.frameReceive 0 frame60 { rxGood with reassembly := true }) up0
    let par := after (.frameReceive 0 frame60 { rxGood with parity := true }) up0
    let full := after (.frameReceive 0 frame60 { rxGood with queueFull := true }) up0
    up0.macClosed = false ∧ re.rd Objs.mm_reasm_err 0 = 1 ∧ (raised re).contains (9, 0) = true ∧ re.ports.inq = [] ∧
    (raised par).contains (11, 0) = true ∧ par.ports.inq = [] ∧
    full.rd Objs.rx_overrun 0 = 1 ∧ (raised full).contains (6, 0) = true ∧ full.ports.inq = [] := by decide +kernel
theorem test_frameReceive_pause :
    isPause pauseFrame = true ∧ crc32 (pauseFrame.take (pauseFrame.length - 4)) = leNat (pauseFrame.drop (pauseFrame.length - 4)) ∧
    (after (.frameReceive 0 pauseFrame rxGood) up0).rd Objs.rx_pause 0 = 1 ∧
    (after (.frameReceive 0 pauseFrame rxGood) up0).ports.inq = [] := by decide +kernel

/-- Port 0 in 10GBASE_R, DOWN without fault since F = 0, at F = 100 us. -/
def filtering : State := clock 100000 (obj [(Objs.link_state, 0, 1), (Objs.link_training, 0, 0)] up0)

/-- Port 0, UP and in fault since F = 0, with the policy 1 (HOLD) for port 0. -/
def failing : State :=
  let s := clock 10000 (obj [(Objs.down_policy, 0, 1)] up0)
  { s with ports := { s.ports with sig := 0, links := [(0, PortLink.init)] } }

/-- Port 0 held for 1000 ns since F = 0. -/
def holding : State :=
  let s := clock 1000 (obj [(Objs.link_state, 0, 3)] up0)
  { s with ports := { s.ports with links := [(0, { PortLink.init with policy := 1, holdLen := 1000 })] } }

/-- Port 0 in 50GBASE_R, DOWN, whose lane trains since F = 0. -/
def training : State := clock 500000000 (obj [(Objs.port_mode, 0, 6), (Objs.link_state, 0, 1)] up0)

-- R35, R29
theorem test_linkUpFilterExpiry : filtering.link 0 = 1 ∧ (filtering.pl 0).bad = false ∧ filtering.training 0 = false ∧
    filtering.elapsed (filtering.pl 0).since (filtering.rd Objs.link_up_filter 0) = true ∧
    (after (.linkUpFilterExpiry 0) filtering).rd Objs.link_state 0 = 2 ∧
    (after (.linkUpFilterExpiry 0) filtering).rd Objs.ts_state 0 = 1 ∧
    (after (.linkUpFilterExpiry 0) filtering).rd Objs.last_change 0 = filtering.wStamp ∧
    raised (after (.linkUpFilterExpiry 0) filtering) = [(1, 0)] := by decide +kernel
theorem test_linkDownFilterExpiry : failing.isUp 0 = true ∧ (failing.pl 0).bad = true ∧
    failing.elapsed (failing.pl 0).since (failing.rd Objs.link_down_filter 0) = true ∧
    (after (.linkDownFilterExpiry 0) failing).rd Objs.link_state 0 = 3 ∧
    (after (.linkDownFilterExpiry 0) (obj [(Objs.down_policy, 0, 0)] failing)).rd Objs.link_state 0 = 1 ∧
    ((after (.linkDownFilterExpiry 0) (obj [(Objs.down_policy, 0, 0)] failing)).ep 0).queues = List.replicate 8 [] := by
  decide +kernel
theorem test_downHoldExpiry : holding.link 0 = 3 ∧ holding.elapsed (holding.pl 0).holdStart (holding.pl 0).holdLen = true ∧
    (after (.downHoldExpiry 0) holding).rd Objs.link_state 0 = 1 ∧ raised (after (.downHoldExpiry 0) holding) = [(8, 0)] := by
  decide +kernel
theorem test_trainingTimeout : training.trainPort 0 = some (0, 0) ∧
    training.elapsed ((training.pl 0).trainStart.getD 0 0) 500000000 = true ∧
    raised (after (.trainingTimeout 0) training) = [(14, 0)] ∧
    ((after (.trainingTimeout 0) training).pl 0).trainStart.getD 0 0 = 500000000 := by decide +kernel
theorem test_linkTrainingDone : training.trainPort 0 = some (0, 0) ∧
    ((after (.linkTrainingDone 0) training).pl 0).trained = 1 := by decide +kernel

-- R33, R34, R31, R51, R360
theorem test_signalDetectChange : (up0.portsOfLane 0).any up0.portPowered = true ∧ up0.laneSignal 0 = true ∧
    (up0.portsOfLane 0).any up0.isUp = true ∧ (after (.signalDetectChange 0 false) up0).laneSignal 0 = false ∧
    raised (after (.signalDetectChange 0 false) up0) = [(2, 0)] := by decide +kernel
theorem test_pcsLockChange : up0.portPowered 0 = true ∧ (after (.pcsLockChange 0 254 3) up0).rd Objs.lane_lock 0 = 0 ∧
    ((after (.pcsLockChange 0 255 2) up0).pl 0).phy = phySpeed 2 ∧
    (after (.pcsLockChange 0 255 2) up0).rd Objs.lane_lock 0 = 1 := by decide +kernel
theorem test_linkFaultReceive : (up0.pl 0).rxFault ≠ 2 ∧ ((after (.linkFaultReceive 0 2) up0).pl 0).rxFault = 2 ∧
    raised (after (.linkFaultReceive 0 2) up0) = [(5, 0)] := by decide +kernel
theorem test_mmVerifyDone : (obj [(Objs.mm_status, 0, 1)] up0).rd Objs.mm_status 0 = 1 ∧
    (after (.mmVerifyDone 0 true) (obj [(Objs.mm_status, 0, 1)] up0)).rd Objs.mm_status 0 = 2 ∧
    (after (.mmVerifyDone 0 false) (obj [(Objs.mm_status, 0, 1)] up0)).rd Objs.mm_status 0 = 3 ∧
    raised (after (.mmVerifyDone 0 false) (obj [(Objs.mm_status, 0, 1)] up0)) = [(7, 0)] := by decide +kernel
theorem test_lanePllUnlock : (filtering.portsOfLane 0).filter filtering.portPowered = [0] ∧ filtering.isUp 0 = false ∧
    raised (after (.lanePllUnlock 0) filtering) = [(10, 0)] ∧ (after (.lanePllUnlock 0) filtering).rd Objs.lane_lock 0 = 0 := by
  decide +kernel
-- The port is UP: it goes DOWN, with EV010 of the lane and EV000 of the port.
theorem test_lanePllUnlock_up : (up0.portsOfLane 0).filter up0.portPowered = [0] ∧ up0.isUp 0 = true ∧
    (after (.lanePllUnlock 0) up0).rd Objs.link_state 0 = 1 ∧
    (raised (after (.lanePllUnlock 0) up0)).contains (10, 0) = true ∧ (raised (after (.lanePllUnlock 0) up0)).contains (0, 0) = true := by
  decide +kernel
theorem test_phaseInterval : (obj [(Objs.ts_state, 0, 2)] up0).portMode 0 = 4 ∧
    (after (.phaseInterval 0 51) (obj [(Objs.ts_state, 0, 2)] up0)).rd Objs.ts_state 0 = 1 ∧
    raised (after (.phaseInterval 0 51) (obj [(Objs.ts_state, 0, 2)] up0)) = [(206, 0)] ∧
    (after (.phaseInterval 0 50) (obj [(Objs.ts_state, 0, 2)] up0)).rd Objs.ts_state 0 = 2 := by decide +kernel

-- R27, R35, R48, R50
theorem test_portModeWrite : Accepted .sdp Objs.port_mode 4 [4] (portModeCheck 4) z ∧ z.portMode 4 ≠ 3 ∧
    answered Objs.port_mode 4 0 (after (.portModeWrite .sdp 4 [4]) z) = true ∧
    (after (.portModeWrite .sdp 4 [4]) z).portMode 4 = 4 ∧
    answered Objs.port_mode 5 7 (after (.portModeWrite .sdp 5 [4]) z) = true := by decide +kernel
theorem test_adminUpWrite : Accepted .sdp Objs.admin_up 8 [1] noCheck (obj [(Objs.port_mode, 8, 4)] z) ∧ z.link 8 = 0 ∧
    (after (.adminUpWrite .sdp 8 [1]) (obj [(Objs.port_mode, 8, 4)] z)).rd Objs.link_state 8 = 1 ∧
    ((after (.adminUpWrite .sdp 8 [1]) (obj [(Objs.port_mode, 8, 4)] z)).pl 8).bad = true ∧
    ((after (.adminUpWrite .sdp 8 [1]) z).rd Objs.link_state 8 = 1) := by decide +kernel
theorem test_linkFilterWrite : Accepted .sdp Objs.link_up_filter 0 [0, 0, 0, 0] noCheck filtering ∧
    (after (.linkFilterWrite .sdp 0 true [0, 0, 0, 0]) filtering).rd Objs.link_state 0 = 2 ∧
    Accepted .sdp Objs.link_down_filter 0 [0x10, 0x27, 0, 0] noCheck failing ∧
    (after (.linkFilterWrite .sdp 0 false [0x10, 0x27, 0, 0]) failing).rd Objs.link_state 0 = 3 := by decide +kernel
theorem test_portCountersClear : Accepted .sdp Objs.counters_clear 0 [1] noCheck (obj [(Objs.rx_frames, 0, 7)] up0) ∧
    (after (.portCountersClear .sdp 0 [1]) (obj [(Objs.rx_frames, 0, 7)] up0)).rd Objs.rx_frames 0 = 0 := by decide +kernel

/-! ## Parser, pattern engines and hues (chapters 3 and 4) -/

/-- A frame with more VLAN tags than the parser follows. -/
def frameTags : List Byte :=
  let b := List.replicate 12 (0x11 : Byte) ++ (List.replicate 12 ([0x81, 0, 0, 0] : List Byte)).flatten
  b ++ leBytes 4 (crc32 b)

/-- A packet waits for the parser of pipe 0. -/
def parsing : State := after (.frameReceive 0 frameTags rxGood) up0

/-- A window of 4 bytes with set 3 waits at engine 0, and another's result is on its way from it. -/
def scanning : State :=
  let w : Window := ⟨7, 0, 3, 0, 0, [1, 2, 3, 4], 4⟩
  let k : Packet := ⟨7, 0, 0, 0, 0, [], [], none⟩
  { z with pat := { z.pat with engines := [(0, ⟨[w], [(w, 2 * 2 ^ 588)]⟩)], badWords := [(5, true)] },
           sk := { z.sk with join := [(0, [⟨k, true, false⟩])] }, hue := { z.hue with badRules := [(9, true)] } }

/-- The packet of pipe 0 has its result. -/
def joined : State := after (.patternResult 0) scanning

-- R52 to R68
theorem test_parse : (tget [] parsing.ports.inq 0).length = 1 ∧ (tget [] parsing.sk.join 0).length < 256 ∧
    tget [] (after (.parse 0 ⟨false, .good, 0, false⟩) parsing).ports.inq 0 = [] ∧
    payKind (parsing.parseCfg 0) (frameTags.take 60) (parseFrame (parsing.parseCfg 0) (frameTags.take 60)) = 0 ∧
    (tget [] (after (.parse 0 ⟨false, .good, 0, false⟩) parsing).sk.join 0).map (fun j => (j.pkt.frame, j.waiting, j.released)) =
      [(frameTags, false, false)] ∧
    parsing.hitDamaged ⟨0, 0, 0, 0, 0, frameTags, [], none⟩ (parsing.parseCfg 0) (frameTags.take 60)
      (parseFrame (parsing.parseCfg 0) (frameTags.take 60)) = false := by decide +kernel
/-- A packet waits in pipe 0; the only rule, which every frame hits, lies in a damaged slot (R83). -/
def damagedHit : State :=
  { up0 with ports := { up0.ports with inq := [(0, [⟨0, 0, 0, 0, 0, frame60, [], none⟩])] },
             hue := { up0.hue with rules := [(8, ⟨2 ^ 63 + 2 ^ 61, [0, 0, 0]⟩)], badRules := [(8, true)] } }
theorem test_parse_damaged :
    let f := frame60.take 60
    damagedHit.hitDamaged ⟨0, 0, 0, 0, 0, frame60, [], none⟩ (damagedHit.parseCfg 0) f (parseFrame (damagedHit.parseCfg 0) f) = true ∧
    (after (.parse 0 ⟨false, .good, 0, false⟩) damagedHit).rd Objs.class_mem_drop = 1 ∧
    raised (after (.parse 0 ⟨false, .good, 0, false⟩) damagedHit) = [(36, 0)] := by decide +kernel

/-- A GOOSE frame, and a set that scans GOOSE under hue 0. -/
def goosed : State :=
  let b := List.replicate 12 (0x11 : Byte) ++ [0x88, 0xB8, 0, 3, 0, 46, 0, 0, 0, 0] ++ List.replicate 38 0
  let s := after (.frameReceive 0 (b ++ leBytes 4 (crc32 b)) rxGood) up0
  { s with pat := { s.pat with sets := [(3, ⟨2 ^ 63 + 2 ^ 61, [2 ^ 55]⟩)] } }

-- R87, R89
theorem test_parse_scans : (tget [] goosed.ports.inq 0).length = 1 ∧ goosed.setFor 1 goosed.hueActive = some 3 ∧
    (goosed.pickEngine 0 none).isSome = true ∧
    (tget [] (after (.parse 0 ⟨false, .good, 0, false⟩) goosed).sk.join 0).map (fun j => (j.waiting, j.released)) = [(true, false)] := by
  decide +kernel

-- No engine of the pipe is in service: the packet is dropped (R104).
theorem test_parse_noEngine :
    let s := obj [(Objs.pat_engines_in_service, 0, 0)] goosed
    (tget [] s.ports.inq 0).length = 1 ∧ s.setFor 1 s.hueActive = some 3 ∧ s.pickEngine 0 none = none ∧
    (after (.parse 0 ⟨false, .good, 0, false⟩) s).rd Objs.pat_no_engine_drop 0 = 1 ∧
    tget [] (after (.parse 0 ⟨false, .good, 0, false⟩) s).sk.join 0 = [] ∧
    (raised (after (.parse 0 ⟨false, .good, 0, false⟩) s)).contains (55, 0) = true := by decide +kernel

-- R83, R87, R89, R90, R102
theorem test_patternScan : scanning.engineIn 0 = true ∧ tfind scanning.pat.badWords (setPlace 3) = none ∧ (scanning.engine 0).queue.length = 1 ∧
    ((after (.patternScan 0 .good) scanning).engine 0).queue = [] ∧
    ((after (.patternScan 0 .good) scanning).engine 0).done.length = 2 ∧
    tget 0 (after (.patternScan 0 .good) scanning).pat.hits 3 = 1 := by decide +kernel
theorem test_patternResult : (scanning.engine 0).done.length = 1 ∧ ((joined.engine 0).done = []) ∧
    (tget [] joined.sk.join 0).map (fun j => (j.pkt.pat, j.waiting)) = [(2 * 2 ^ 588, false)] ∧ raised joined = [(48, 0)] := by
  decide +kernel
theorem test_joinRelease : (tget [] joined.sk.join 0).map (·.waiting) = [false] ∧
    (tget [] (after (.joinRelease 0) joined).sk.join 0).map (·.released) = [true] := by decide +kernel
theorem test_ruleRewriteDone : tfind scanning.hue.badRules 9 = some true ∧ scanning.shadowRead 0 9 .first ≠ .neither ∧
    tfind (after (.ruleRewriteDone 9 .first) scanning).hue.badRules 9 = none ∧
    tfind (after (.ruleRewriteDone 9 .neither) scanning).hue.badRules 9 = some false ∧
    raised (after (.ruleRewriteDone 9 .neither) scanning) = [(41, 0)] := by decide +kernel
theorem test_patMemRewriteDone : tfind scanning.pat.badWords 5 = some true ∧ scanning.shadowRead 1 5 .first ≠ .neither ∧
    tfind (after (.patMemRewriteDone 5 .first) scanning).pat.badWords 5 = none ∧
    tfind (after (.patMemRewriteDone 5 .neither) scanning).pat.badWords 5 = some false ∧
    raised (after (.patMemRewriteDone 5 .neither) scanning) = [(56, 0)] := by decide +kernel

/-- VALID, OPEN and VF 1 of a header, for hue 0 active. -/
def newHeader : List Byte := leBytes 8 (2 ^ 63 + 2 ^ 61 + 1)

/-- Rule slot 5, set slot 3, state word 2, template slot 4 and key template 6 are selected, with the content that a set, a rule and a
template need. -/
def selecting : State :=
  let t := after (.dictWrite .sdp 0x4001 1 [5, 0, 0, 0]) z
  let t := after (.dictWrite .sdp 0x4401 1 [3]) t
  let t := after (.dictWrite .sdp 0x4402 1 [2, 0, 0, 0]) t
  let t := after (.dictWrite .sdp 0x5012 1 [4]) t
  after (.dictWrite .sdp 0x5013 1 [6]) t

-- R63, R64, R72, R92, R93, R207, R213, R447
theorem test_ruleHeaderWrite : selecting.rdCtx .sdp Objs.rule_select = 5 ∧
    Accepted .sdp Objs.rule_header 0 newHeader (fun x s => s.ruleCode (s.rdCtx .sdp Objs.rule_select) (hdrClean true x)) selecting ∧
    ((after (.ruleHeaderWrite .sdp newHeader) selecting).rule 5).header = 2 ^ 63 + 2 ^ 61 + 1 ∧
    ((after (.ruleHeaderWrite .sdp newHeader) selecting).rule 4).header = 0 := by decide +kernel
theorem test_ruleContentWrite : Accepted .sdp (rulePartObj 0) 0 (List.replicate (rulePartObj 0).ty.size 1)
      (fun x s => s.ruleContentCode (s.rdCtx .sdp Objs.rule_select) 0 x) selecting ∧
    ((after (.ruleContentWrite .sdp 0 (List.replicate (rulePartObj 0).ty.size 1)) selecting).rule 5).body.getD 0 0 =
      rulePartClean 0 (leNat (List.replicate (rulePartObj 0).ty.size 1)) := by decide +kernel
theorem test_rwhValueWrite : Accepted .sdp (rwhObj 2) 0 (leBytes (rwhObj 2).ty.size 6)
      (fun _ s => refuseIf ((2 : Fin 3).val == 0 && s.bank0Staged) .state) selecting ∧
    (after (.rwhValueWrite .sdp 2 (leBytes (rwhObj 2).ty.size 6)) selecting).hue.keyedStaged = some 6 ∧
    (after (.rwhValueWrite .sdp 0 (leBytes (rwhObj 0).ty.size 6)) selecting).hue.imageStaged = some 6 := by decide +kernel
theorem test_patSetHeaderWrite : Accepted .sdp Objs.pat_set_header 0 newHeader
      (fun x s => let t := s.patSet (s.rdCtx .sdp Objs.pat_set_select)
        stageCode t.header s.hueN (hdrClean false x) true (s.setRefused (setDesc t))) selecting ∧
    ((after (.patSetHeaderWrite .sdp newHeader) selecting).patSet 3).header = 2 ^ 63 + 2 ^ 61 + 1 := by decide +kernel
theorem test_patWordWrite : Accepted .sdp Objs.pat_mem_data 0 (leBytes 32 77)
      (fun _ s => refuseIf (s.wordTaken (s.rdCtx .sdp Objs.pat_mem_addr)) .state) selecting ∧
    tget 0 (after (.patWordWrite .sdp (leBytes 32 77)) selecting).pat.words 2 = 77 := by decide +kernel
theorem test_tmplHeaderWrite : Accepted .sdp Objs.tmpl_header 0 newHeader
      (fun x s => let i := s.rdCtx .sdp Objs.tmpl_select
        stageCode (s.tmplSlot i).header s.hueN (hdrClean false x) true (s.tmplRefused i ((s.tmplSlot i).body.getD 0 0))) selecting ∧
    ((after (.tmplHeaderWrite .sdp newHeader) selecting).tmplSlot 4).header = 2 ^ 63 + 2 ^ 61 + 1 := by decide +kernel
theorem test_keyTmplWrite : Accepted .sdp Objs.key_tmpl_desc 0 (leBytes 48 0)
      (fun x s => if tmplBad x then .range else refuseIf (s.tmplNamed (s.rdCtx .sdp Objs.key_tmpl_select)) .state) selecting ∧
    answered Objs.key_tmpl_desc 0 0 (after (.keyTmplWrite .sdp (leBytes 48 0)) selecting) = true := by decide +kernel

/-- A commit is on its way; hue 0xFFFF is still in the window. -/
def committing : State :=
  let s := after (.hueCommit .sdp [1]) z
  { s with hue := { s.hue with missStaged := some 5 } }

/-- Hue 7 has been retired since F = 0, beside the active hue 9. -/
def draining : State :=
  let s := clock 2000000000000 (obj [(Objs.hue_active, 0, 9), (Objs.hue_oldest, 0, 7)] z)
  { s with hue := { s.hue with retired := [(7, 0)], scrubPos := 135295 } }

-- R69, R70, R71, R73, R74, R81
theorem test_hueCommit : Accepted .sdp Objs.hue_commit 0 [1] hueCommitCheck z ∧ committing.hue.commit = some (some (ctxCode .sdp)) ∧
    committing.rd Objs.hue_active = 0 ∧ judgeWrite .sdp Objs.hue_commit 0 [1] hueCommitCheck committing = .busy ∧
    raised (after (.hueCommit .sdp [1]) committing) = [(38, 0)] := by decide +kernel
-- Too few clutches serve the next image (R74).
theorem test_hueCommit_state :
    let s := obj [(Objs.clutch_state, 3, 2), (Objs.min_clutches, 0, 16)] z
    judgeWrite .sdp Objs.hue_commit 0 [1] hueCommitCheck s = .state ∧
    answered Objs.hue_commit 0 7 (after (.hueCommit .sdp [1]) s) = true ∧ raised (after (.hueCommit .sdp [1]) s) = [(38, 0)] := by
  decide +kernel
theorem test_commitPoint : committing.hue.commit ≠ none ∧ (after .commitPoint committing).hue.commit = none ∧
    (after .commitPoint committing).rd Objs.hue_active = 1 ∧ (after .commitPoint committing).hue.missNow = 5 ∧
    (after .commitPoint committing).hue.missStaged = none := by decide +kernel
theorem test_hueAbort : Accepted .sdp Objs.hue_abort 0 [1] noCheck (after (.ruleHeaderWrite .sdp newHeader) selecting) ∧
    hdrValid ((after (.hueAbort .sdp [1]) (after (.ruleHeaderWrite .sdp newHeader) selecting)).rule 5).header = false := by
  decide +kernel
-- A staged retirement is undone: OPEN is 1 again.
theorem test_hueAbort_retired :
    let s : State := { z with hue := { z.hue with rules := [(5, ⟨2 ^ 63 + 1 * 2 ^ 16, [0, 0, 0]⟩)] } }
    hdrValid (s.rule 5).header = true ∧ hdrVf (s.rule 5).header ≠ s.hueN ∧ hdrOpen (s.rule 5).header = false ∧
    hdrVu (s.rule 5).header = s.hueN ∧ Accepted .sdp Objs.hue_abort 0 [1] noCheck s ∧
    hdrOpen ((after (.hueAbort .sdp [1]) s).rule 5).header = true := by decide +kernel
theorem test_hueScrubVisit : (after .hueScrubVisit z).hue.scrubPos = 1 ∧ draining.hue.scrubPos = 135295 ∧
    (after .hueScrubVisit draining).hue.scrubPos = 0 := by decide +kernel
theorem test_hueDrainLimit : tfind draining.hue.retired 7 = some 0 ∧
    draining.elapsed 0 (draining.rd Objs.hue_drain_limit + 1) = true ∧ draining.hue.slow.contains 7 = false ∧ 7 ≠ draining.hueActive ∧
    (after (.hueDrainLimit 7) draining).hue.slow = [7] ∧ raised (after (.hueDrainLimit 7) draining) = [(39, 0)] := by decide +kernel
theorem test_visible : visible (2 ^ 63 + 2 ^ 61 + 3) 3 = true ∧ visible (2 ^ 63 + 2 ^ 61 + 3) 2 = false ∧
    visible (2 ^ 63 + 5 * 2 ^ 16 + 3) 4 = true ∧ visible (2 ^ 63 + 5 * 2 ^ 16 + 3) 5 = false := by decide +kernel

/-! ## Microcode (chapter 6) -/

/-- Thread 3 runs, with two operands in G1 and G2, the flags clear, and a packet. -/
def running : State :=
  let k : Packet := ⟨1, 0, 0, 0, 0, (List.range 300).map (BitVec.ofNat 8), [], none⟩
  let t : Thread := { Thread.init with st := .running, g := [0, 0xF0000000000000F5, 0x7000000000000003] ++ List.replicate 29 0, pc := 7, md := 200 * 2 ^ 344,
                                       job := some ⟨k, 5, 0, 0, false, none, false, true, true⟩ }
  z.setTh 3 t

/-- A row is ready for thread 3 with DST 4, SRC_A 1, SRC_B 2; G4 and the flags after it. -/
def alu (row : Fin 2048 → AluArgs → Instr) (op : Nat) (imm : BitVec 16) : Bool × Nat × Nat :=
  let t := (after (row 3 ⟨4, 1, 2, false, imm⟩) running).th 3
  (decide (ReadyFor running 3 (aluWord op ⟨4, 1, 2, false, imm⟩)), t.reg 4, t.flags)

-- R140, R141: the results are computed by hand from the tables of the rules
theorem test_mov : alu .mov 0x01 0 = (true, 0x7000000000000003, 0) := by decide +kernel
theorem test_add : alu .add 0x02 0 = (true, 0x60000000000000F8, 2) := by decide +kernel
theorem test_sub : alu .sub 0x03 0 = (true, 0x80000000000000F2, 4) := by decide +kernel
theorem test_and : alu .and 0x04 0 = (true, 0x7000000000000001, 0) := by decide +kernel
theorem test_or : alu .or 0x05 0 = (true, 0xF0000000000000F7, 4) := by decide +kernel
theorem test_xor : alu .xor 0x06 0 = (true, 0x80000000000000F6, 4) := by decide +kernel
theorem test_andn : alu .andn 0x07 0 = (true, 0x80000000000000F4, 4) := by decide +kernel
theorem test_shl : alu .shl 0x08 0 = (true, 0x80000000000007A8, 4) := by decide +kernel
theorem test_shr : alu .shr 0x09 0 = (true, 0x1E0000000000001E, 0) := by decide +kernel
theorem test_sar : alu .sar 0x0A 0 = (true, 0xFE0000000000001E, 4) := by decide +kernel
theorem test_ext : alu .ext 0x0B 452 = (true, 0xF, 0) := by decide +kernel
theorem test_ins : alu .ins 0x0C 452 = (true, 0xF000000000000035, 4) := by decide +kernel
theorem test_min : alu .min 0x0D 0 = (true, 0x7000000000000003, 0) := by decide +kernel
theorem test_max : alu .max 0x0E 0 = (true, 0xF0000000000000F5, 4) := by decide +kernel
theorem test_sdiff : alu .sdiff 0x0F 15 = (true, 0xF2, 0) := by decide +kernel
theorem test_absd : alu .absd 0x12 0 = (true, 0x7FFFFFFFFFFFFF0E, 0) := by decide +kernel
theorem test_popc : alu .popc 0x13 0 = (true, 0xA, 0) := by decide +kernel
theorem test_ffs : alu .ffs 0x14 0 = (true, 0x0, 8) := by decide +kernel
theorem test_bswap : alu .bswap 0x15 1 = (true, 0xF5000000, 0) := by decide +kernel
theorem test_nop : alu .nop 0x00 0 = (true, 0, 0) := by decide +kernel
theorem test_cmp : alu .cmp 0x10 0 = (true, 0, 4) := by decide +kernel
theorem test_tstb : alu .tstb 0x11 0 = (true, 0, 0) := by decide +kernel
theorem test_movz : alu .movz 0x16 0 = (true, 0, 0) := by decide +kernel
theorem test_movnz : alu .movnz 0x17 0 = (true, 0x7000000000000003, 0) := by decide +kernel
theorem test_ins_reserved : wordBad (aluWord 0x0C ⟨4, 1, 2, false, 0x0FFF⟩) = true ∧ (running.th 3).lockWait = none ∧
    (running.th 3).ready (aluWord 0x0C ⟨4, 1, 2, false, 0x0FFF⟩) = true ∧
    (raised (after (.ins 3 ⟨4, 1, 2, false, 0x0FFF⟩) running)).contains (80, 0) = true := by decide +kernel
theorem test_reserved : wordBad (aluWord 0x18 ⟨4, 1, 2, false, 0⟩) = true ∧ wordBad (aluWord 0x0B ⟨4, 1, 2, true, 0⟩) = true ∧
    wordBad (aluWord 0x15 ⟨4, 1, 2, false, 3⟩) = true ∧ wordBad (aluWord 0x0C ⟨4, 1, 2, false, 0x0FC0⟩) = false := by decide +kernel


/-- An edit row is ready for thread 3; the thread after it. -/
def edited (row : Fin 2048 → EditArgs → Instr) (op : Nat) (src : Fin 128) (imm : BitVec 20) : Bool × Thread :=
  (decide (ReadyFor running 3 (editWord op ⟨src, imm⟩)), (after (row 3 ⟨src, imm⟩) running).th 3)

-- R145
theorem test_hset : (edited .hset 0x01 2 (125 + 2 * 128)).1 = true ∧ (edited .hset 0x01 2 (125 + 2 * 128)).2.hw.drop 124 = [0, 0, 0, 3] := by
  decide +kernel
theorem test_setdest : (edited .setdest 0x02 1 0x1ABCD).1 = true ∧ fld (edited .setdest 0x02 1 0x1ABCD).2.md 240 20 = 0x8ABCD ∧
    fld (edited .setdest 0x02 1 0x80000).2.md 240 20 = 0xF5 := by decide +kernel
theorem test_setq : (edited .setq 0x03 0 5).1 = true ∧ fld (edited .setq 0x03 0 5).2.md 256 3 = 5 := by decide +kernel
theorem test_flags : (edited .flags 0x04 0 (0x35 + 0x11 * 64)).1 = true ∧
    fld (edited .flags 0x04 0 (0x35 + 0x11 * 64)).2.md 40 6 = 0x24 ∧ fld (edited .flags 0x04 1 0x80000).2.md 40 6 = 0x34 := by
  decide +kernel
theorem test_setedit : (edited .setedit 0x05 0 0x7FF).1 = true ∧ fld (edited .setedit 0x05 0 0x7FF).2.md 368 16 = 0x7FF := by
  decide +kernel
theorem test_setlaunch : (edited .setlaunch 0x06 1 0).1 = true ∧ fld (edited .setlaunch 0x06 1 0).2.md 264 41 = 2 ^ 40 + 0xF5 := by
  decide +kernel
theorem test_reason : (edited .reason 0x07 0 0x3F0).1 = true ∧ fld (edited .reason 0x07 0 0x3F0).2.md 336 8 = 0xF0 := by decide +kernel
theorem test_colour : (edited .colour 0x08 0 6).1 = true ∧ fld (edited .colour 0x08 0 6).2.md 46 2 = 2 := by decide +kernel
theorem test_postcard : (edited .postcard 0x09 0 0x4B).1 = true ∧ (edited .postcard 0x09 0 0x4B).2.postcard = some 0x0B := by decide +kernel
theorem test_progdata : (edited .progdata 0x0A 1 0).1 = true ∧
    fld (edited .progdata 0x0A 1 0).2.md 384 64 = 0xF0000000000000F5 := by decide +kernel

/-- A memory row with MDST 6, MADR 1, MSRC 2 is ready for thread 3; the state after it. -/
def mem (row : Fin 2048 → MemArgs → Instr) (op : Nat) (mimm : BitVec 10) : Bool × State :=
  (decide (ReadyFor running 3 (memWord op ⟨6, 1, 0, 0, 2, mimm⟩)), after (row 3 ⟨6, 1, 0, 0, 2, mimm⟩) running)

-- R143, R144; G1 [11:0] is 0x0F5
theorem test_sts : (mem .sts 0x02 1).1 = true ∧ scratchLoad (mem .sts 0x02 1).2 3 0xFD = 0x7000000000000003 ∧
    tget 0 (mem .sts 0x02 1).2.sk.scratch (3 * 3072 + 0xFD) = 3 ∧ tget 0 (mem .sts 0x02 1).2.sk.scratch (3 * 3072 + 0xFC) = 0 := by
  decide +kernel
theorem test_lds : (mem .lds 0x01 1).1 = true ∧ ((mem .lds 0x01 1).2.th 3).pend = [⟨6, 1, .scratch 0⟩] ∧
    ((mem .lds 0x01 352).2.th 3).pend = [⟨6, 1, .scratch 0⟩] := by decide +kernel
theorem test_lds_beyond : 3064 < (running.th 3).reg 1 % 4096 + 8 * 353 ∧
    ((mem .lds 0x01 353).2.th 3).st = .free ∧ (mem .lds 0x01 353).2.rd Objs.ucode_trap_addr = 7 ∧
    raised (mem .lds 0x01 353).2 = [(83, 3)] := by decide +kernel

/-- Thread 3 with G1 = 0x6C. -/
def header : State := running.setTh 3 ((running.th 3).setReg 1 0x6C)

theorem test_ldh : ReadyFor header 3 (memWord 0x03 ⟨6, 1, 0, 0, 2, 0x0C⟩) ∧
    ((after (.ldh 3 ⟨6, 1, 0, 0, 2, 0x0C⟩) header).th 3).pend = [⟨6, 1, .value [0x78797A7B7C7D7E7F]⟩] ∧
    ((after (.ldh 3 ⟨6, 1, 0, 0, 2, 147⟩) header).th 3).pend = [⟨6, 1, .value [0]⟩] := by decide +kernel
theorem test_ldh_beyond : 255 < (header.th 3).reg 1 + 148 ∧ ((after (.ldh 3 ⟨6, 1, 0, 0, 2, 148⟩) header).th 3).st = .free := by
  decide +kernel
-- CRC-32C of 8 zero bytes
theorem test_hash : ReadyFor running 3 (memWord 0x04 ⟨6, 0, 0, 0, 0, 0⟩) ∧
    ((after (.hash 3 ⟨6, 0, 0, 0, 0, 0⟩) running).th 3).pend = [⟨6, 1, .value [0x8C28B28A]⟩] := by decide +kernel
theorem test_learn : (mem .learn 0x0E 0).1 = true ∧ (running.th 3).leap.learn = none ∧
    ((mem .learn 0x0E 0).2.th 3).leap.learn = some 0xF0000000000000F := by decide +kernel

-- R143, R280 to R295
theorem test_lkmac : (mem .lkmac 0x08 0).1 = true ∧
    ((mem .lkmac 0x08 0).2.th 3).pend = [⟨6, 1, .lookup 0x08 0 0xF0000000000000F5 0x7000000000000003⟩] := by decide +kernel
theorem test_lknat : (mem .lknat 0x09 0).1 = true ∧ ((mem .lknat 0x09 0).2.th 3).pend.map (·.n) = [2] := by decide +kernel
theorem test_lklpm4 : (mem .lklpm4 0x0A 3).1 = true ∧ ((mem .lklpm4 0x0A 3).2.th 3).pend.map (·.n) = [1] := by decide +kernel
theorem test_lklpm6 : (mem .lklpm6 0x0B 3).1 = true ∧ ((mem .lklpm6 0x0B 3).2.th 3).pend.map (·.n) = [2] := by decide +kernel
theorem test_lkmcg : (mem .lkmcg 0x0C 0).1 = true ∧ ((mem .lkmcg 0x0C 0).2.th 3).pend.map (·.n) = [1] := by decide +kernel
theorem test_lkmbr : (mem .lkmbr 0x0D 0).1 = true ∧ ((mem .lkmbr 0x0D 0).2.th 3).pend.map (·.n) = [1] := by decide +kernel
/-- A table lookup of thread 3 is pending at place 0, with entries of the MAC, LPM4, LPM6 and multicast tables; its result registers. -/
def lookedUp (op mimm k0 k1 : Nat) : Nat × Nat :=
  let s := running.setTh 3 { running.th 3 with pend := [⟨9, 2, .lookup op mimm k0 k1⟩] }
  let s : State := { s with tbl := { s.tbl with mac := [(4, 5 * 2 ^ 68 + 7 * 2 ^ 60)], mcg := [(3, 6 * 2 ^ 64)],
                                                lpm4 := [(lpm4Key 2 8 (cutPrefix 32 8 0x0A000000), 0x1234)],
                                                lpm6 := [(lpm6Key 1 0 0, 0x77)] } }
  let t := after (.operationResult 3 0 .good 0 .good) s
  ((t.th 3).reg 9, (t.th 3).reg 10)

theorem test_lookups : (lookedUp 0x08 0 80 0).1 = 2 ^ 63 + 7 ∧ (lookedUp 0x08 0 96 0).1 = 0 ∧ lookedUp 0x09 0 5 0 = (0, 0) ∧
    (lookedUp 0x0A 2 0x0A010203 0).1 = 2 ^ 63 + 8 * 2 ^ 48 + 0x1234 ∧ lookedUp 0x0B 1 9 9 = (2 ^ 63 + 0x77, 0) ∧
    (lookedUp 0x0C 0 3 0).1 = 2 ^ 63 + 2 ∧ (lookedUp 0x0D 0 0 0).1 = 0 := by decide +kernel

/-! ## Leaps (chapter 7), next addresses and the commit unit -/

/-- Thread 3 of `running` with handle 0 FOUND and handle 1 ABSENT; the record of handle 0 is cached with template 6, whose parameter sets
0 to 2 are those of LSEQ, LDUP and LTOK; `locks` are taken. -/
def leaping (locks : List FlowLock) : State :=
  let t := running.th 3
  let s := running.setTh 3 { t with leap := { Leap.empty with used := true, handles := [(0, ⟨77, false, .found, 5, 0, none, none, false, false⟩),
    (1, ⟨78, false, .absent, 0, 0, none, none, false, false⟩)] } }
  { s with fsu := { s.fsu with locks := locks, lines := [(77, ⟨.clean, 6 * 2 ^ 492, [1, 2, 3, 4, 5, 6, 7, 8], 5, none, 0, 0, 0, false⟩),
      (78, ⟨.absent, 0, [], 0, none, 0, 0, 0, false⟩)],
                               tmpls := [(3, ⟨2 ^ 63 + 2 ^ 61, [6 * 2 ^ 60 + 1 * 2 ^ 702 + 2 * 2 ^ 830 + 3 * 2 ^ 958]⟩)] } }

/-- A leap row with MDST 6, MADR 1, MSRC 2. -/
def leapArgs (hnd : Fin 4) (seg : Fin 8) (mimm : BitVec 10) : MemArgs := ⟨6, 1, hnd, seg, 2, mimm⟩

-- R174: the key of the packet, and a key from G1 to G6 with its template number
theorem test_lbind : ReadyFor (leaping []) 3 (memWord 0x10 (leapArgs 2 0 0x200)) ∧ ((leaping []).th 3).job ≠ none ∧
    ((leaping []).th 3).leap.abandoned = false ∧ ((leaping []).th 3).handle 2 = none ∧
    (((after (.lbind 3 (leapArgs 2 0 0x200)) (leaping [])).th 3).handle 2).map (·.key) = some 0 ∧
    (((after (.lbind 3 (leapArgs 2 0 0x005)) (leaping [])).th 3).handle 2).map (·.key) =
      some (0xF0000000000000F5 + 0x7000000000000003 * 2 ^ 64 + 5 * 2 ^ 376) := by decide +kernel
-- R179
theorem test_lrd : ReadyFor (leaping []) 3 (memWord 0x11 (leapArgs 0 4 0)) ∧ handleRefuses ((leaping []).th 3) 0 false = false ∧
    ((after (.lrd 3 (leapArgs 0 4 0)) (leaping [])).th 3).pend = [⟨6, 2, .lrd 0 4 0⟩] := by decide +kernel

/-- A write-class row is ready and not refused; the operations buffered after it, free and with its record locked. -/
def leapWritten (row : Fin 2048 → MemArgs → Instr) (op : Nat) (kind : WKind) (mimm : BitVec 10) : Bool × List LeapOp × Bool × Bool :=
  let x := leapArgs 0 4 mimm
  let held := leaping [⟨.key 77, .ring 0, true, none⟩]
  (decide (ReadyFor (leaping []) 3 (memWord op x)) &&
    !writeRefuses (leaping []) ((leaping []).th 3) ⟨kind, 0, 4, mimm.toNat, 0x7000000000000003⟩ && !(leaping []).flowLocked 77,
   ((after (row 3 x) (leaping [])).th 3).leap.ops,
   decide (ReadyFor held 3 (memWord op x)) && held.flowLocked 77,
   ((after (row 3 x) held).th 3).lockWait == some (⟨kind, 0, 4, mimm.toNat, 0x7000000000000003⟩, 0) &&
     decide (((after (row 3 x) held).th 3).leap.ops = []))

/-- What `leapWritten` is by R178 and R192. -/
def buffered (kind : WKind) (mimm : Nat) : Bool × List LeapOp × Bool × Bool := (true, [⟨kind, 0, 4, mimm, 0x7000000000000003⟩], true, true)

theorem test_lset : leapWritten .lset 0x12 .lset 0 = buffered .lset 0 := by decide +kernel
theorem test_ladd : leapWritten .ladd 0x13 .ladd 0x108 = buffered .ladd 0x108 := by decide +kernel
theorem test_lmax : leapWritten .lmax 0x14 .lmax 0x208 = buffered .lmax 0x208 := by decide +kernel
theorem test_lmin : leapWritten .lmin 0x15 .lmin 0x308 = buffered .lmin 0x308 := by decide +kernel
theorem test_lor : leapWritten .lor 0x16 .lor 0x00F = buffered .lor 0x00F := by decide +kernel
theorem test_lseq : leapWritten .lseq 0x18 .lseq 0 = buffered .lseq 0 := by decide +kernel
theorem test_ldup : leapWritten .ldup 0x19 .ldup 1 = buffered .ldup 1 := by decide +kernel
theorem test_ltok : leapWritten .ltok 0x1A .ltok 2 = buffered .ltok 2 := by decide +kernel

-- R189: EXISTS on a FOUND handle; OK with a reserved place on an ABSENT one
theorem test_lins_found : ReadyFor (leaping []) 3 (memWord 0x1C (leapArgs 0 4 0x16)) ∧ (((leaping []).th 3).handle 0).map (·.st) = some .found ∧
    writeRefuses (leaping []) ((leaping []).th 3) ⟨.lins, 0, 3, 6, 6⟩ = false ∧
    ((after (.lins 3 (leapArgs 0 4 0x16)) (leaping [])).th 3).pend = [⟨6, 1, .value [0x11]⟩] := by decide +kernel
theorem test_lins_absent : ReadyFor (leaping []) 3 (memWord 0x1C (leapArgs 1 4 0x16)) ∧ (leaping []).flowLocked 78 = false ∧
    (leaping []).rd Objs.learn_mode 0 ≠ 1 ∧ (leaping []).bothVoid 78 = false ∧ ((leaping []).freePlace 78).isSome = true ∧
    writeRefuses (leaping []) ((leaping []).th 3) ⟨.lins, 1, 3, 6, 6⟩ = false ∧
    ((after (.lins 3 (leapArgs 1 4 0x16)) (leaping [])).th 3).pend = [⟨6, 1, .value [0x10]⟩] ∧
    (after (.lins 3 (leapArgs 1 4 0x16)) (leaping [])).fsu.reserved.length = 1 := by decide +kernel
-- R190
theorem test_ldel : ReadyFor (leaping []) 3 (memWord 0x1D (leapArgs 0 4 0)) ∧
    writeRefuses (leaping []) ((leaping []).th 3) ⟨.ldel, 0, 3, 0, 6⟩ = false ∧
    ((after (.ldel 3 (leapArgs 0 4 0)) (leaping [])).th 3).pend = [⟨6, 1, .value [0x10]⟩] ∧
    (((after (.ldel 3 (leapArgs 0 4 0)) (leaping [])).th 3).handle 0).map (fun h => (h.dead, h.del)) = some (true, true) := by decide +kernel
-- R181
theorem test_labort : ReadyFor (leaping []) 3 (memWord 0x1F (leapArgs 0 4 0)) ∧
    ((after (.labort 3 (leapArgs 0 4 0)) (leaping [])).th 3).leap.abandoned = true ∧
    ((after (.labort 3 (leapArgs 0 4 0)) (leaping [])).th 3).leap.handles = [] := by decide +kernel

/-- Thread 3 at address 7 with a word whose next-address field is `nxt` (DB 1, OPC_SRC PKT); dispatch entry 0 of bank 0 leads to 0x123 and
entry 0 of bank 1 to 0x456. -/
def atWord (nxt : Nat) : State :=
  let w := nxt * 2 ^ 126 + 2 ^ 124
  let s := leaping []
  s.setCs 0 { ClutchStore.init with words := [(7, w + parityBits 8 w * 2 ^ 128)], disp := [(0, entryOf true 0x123), (256, entryOf true 0x456)] }

-- R112: 10 CCLK are 8 ns
theorem test_contextLoaded :
    let s := clock 8 ((atWord 0).setTh 3 { (atWord 0).th 3 with st := .loading })
    (s.th 3).st = .loading ∧ s.elapsed (s.th 3).since 8 = true ∧ s.dbg.haltPend.contains 3 = false ∧
    entryParOk (tget 0 (s.cs 0).disp 0) = true ∧ entryHalf (tget 0 (s.cs 0).disp 0) 0 = (true, 0x123) ∧
    ((after (.contextLoaded 3 .good) s).th 3).st = .running ∧ ((after (.contextLoaded 3 .good) s).th 3).pc = 0x123 := by decide +kernel
-- R147
theorem test_seq : Issues (atWord 0) 3 0 ∧ (issued (atWord 0) 3).1 = false ∧ ((atWord 0).th 3).pc ≠ 0x3FFF ∧
    ((after (.seq 3 .good) (atWord 0)).th 3).pc = 8 := by decide +kernel
theorem test_disp : Issues (atWord 1) 3 1 ∧ (issued (atWord 1) 3).1 = false ∧ entryParOk (tget 0 ((atWord 1).cs 0).disp 256) = true ∧
    ((after (.disp 3 .good) (atWord 1)).th 3).pc = 0x456 := by decide +kernel
theorem test_halt : Issues (atWord 2) 3 2 ∧ (issued (atWord 2) 3).1 = false ∧ ((issued (atWord 2) 3).2.th 3).job ≠ none ∧
    ((issued (atWord 2) 3).2.th 3).leap.used = true ∧ ((issued (atWord 2) 3).2.th 3).leap.abandoned = false ∧
    ((after (.halt 3 .good) (atWord 2)).th 3).st = .committing ∧ ((after (.halt 3 .good) (atWord 2)).th 3).inCommit = true := by decide +kernel
-- R153
theorem test_trap : Issues (atWord 3) 3 3 ∧ (issued (atWord 3) 3).1 = false ∧ ((issued (atWord 3) 3).2.th 3).job ≠ none ∧
    (after (.trap 3 .good) (atWord 3)).rd Objs.ucode_trap_addr = 7 ∧ raised (after (.trap 3 .good) (atWord 3)) = [(83, 3)] := by decide +kernel

-- R116
theorem test_operationResult :
    let s := (leaping []).setTh 3 { (leaping []).th 3 with pend := [⟨9, 1, .value [42]⟩] }
    (s.th 3).pend[0]? = some ⟨9, 1, .value [42]⟩ ∧ ((after (.operationResult 3 0 .good 0 .good) s).th 3).pend = [] ∧
    ((after (.operationResult 3 0 .good 0 .good) s).th 3).reg 9 = 42 := by decide +kernel

-- The load of a scratch word, and an LRD of segment 4 of the record of handle 0, whose version 5 is noted.
theorem test_operationResult_read :
    let s := (leaping []).setTh 3 { (leaping []).th 3 with pend := [⟨9, 1, .scratch 42⟩, ⟨6, 2, .lrd 0 4 0⟩] }
    let t := after (.operationResult 3 1 .good 0 .good) s
    ((after (.operationResult 3 0 .good 0 .good) s).th 3).reg 9 = 42 ∧ ((s.th 3).handle 0).isSome = true ∧
    (t.th 3).pend = [⟨9, 1, .scratch 42⟩] ∧ (t.th 3).leap.reads = [⟨77, 4, 5⟩] ∧ (t.th 3).reg 6 = 0 := by decide +kernel

/-- Thread 3 with its leap in the commit unit and a read of segment 4 that returned version `ver`. -/
def leapCommitting (ver : Nat) : State :=
  let s := leaping []
  let t := s.th 3
  let u := s.setTh 3 { t with st := .committing, inCommit := true, job := t.job.map (fun j => { j with bindOpen := false }), leap := { t.leap with reads := [⟨77, 4, ver⟩] } }
  { u with cu := { u.cu with claims := [(5, 1, 2)] } }

-- R194, R204: the record is at version 5
theorem test_leapCommit : ((leapCommitting 5).th 3).inCommit = true ∧ ((leapCommitting 5).th 3).status = none ∧ leapWaits (leapCommitting 5) 5 = (false, false) ∧
    staleRead (leapCommitting 5) ((leapCommitting 5).th 3).leap = none ∧
    (after (.leapCommit 3 .good) (leapCommitting 5)).rd Objs.leap_committed = 1 ∧ (after (.leapCommit 3 .good) (leapCommitting 5)).cu.claims = [] ∧
    ((after (.leapCommit 3 .good) (leapCommitting 5)).th 3).status = some 0 := by decide +kernel
theorem test_leapCommit_conflict : ((leapCommitting 4).th 3).inCommit = true ∧ leapWaits (leapCommitting 4) 5 = (false, false) ∧
    staleRead (leapCommitting 4) ((leapCommitting 4).th 3).leap = some 77 ∧
    (after (.leapCommit 3 .good) (leapCommitting 4)).rd Objs.leap_abort_conflict = 1 ∧
    ((after (.leapCommit 3 .good) (leapCommitting 4)).th 3).status = some 1 := by decide +kernel

/-- That leap with one handle and its operations. -/
def committingOps (h : Handle) (ops : List LeapOp) : State :=
  let s := leapCommitting 5
  let t := s.th 3
  let u := s.setTh 3 { t with leap := { t.leap with reads := [], handles := [(0, h)], ops := ops } }
  { u with fsu := { u.fsu with reserved := [20] } }

/-- What the commit of that leap needs. -/
def commits (s : State) : Bool :=
  decide ((s.th 3).inCommit = true ∧ (s.th 3).status = none) && decide (leapWaits s 5 = (false, false)) &&
    (staleRead s (s.th 3).leap).isNone && (reseatAll (s.th 3) s).isSome

-- R178, R194: an LADD of 3 to bits 15:8 and an LSET; both segments, their versions and no others change
theorem test_leapCommit_ops :
    let s := committingOps ⟨77, false, .found, 5, 0, none, none, false, false⟩ [⟨.lset, 0, 4, 0, 0x1F0⟩, ⟨.ladd, 0, 4, 0x108, 3⟩, ⟨.lmax, 0, 5, 0, 9⟩]
    commits s = true ∧ ((after (.leapCommit 3 .good) s).line 77).map
      (fun m => (segOf m.img 4, segOf m.img 5, segOf m.img 6, m.vers, m.commits)) =
      some ((applySeg 0 0 0 ⟨.ladd, 0, 4, 0x108, 3⟩ 0x1F0).1, (applySeg 0 0 0 ⟨.lmax, 0, 5, 0, 9⟩ 0).1, 0, [1, 2, 3, 4, 6, 7, 7, 8], 1) ∧
    ((after (.leapCommit 3 .good) s).line 77).map (fun m => (m.lastLsn, m.st)) = some (some 5, .dirty) := by
  decide +kernel
-- R189, R227: the insert takes its reserved place
theorem test_leapCommit_insert :
    let s := committingOps ⟨78, false, .absent, 0, 0, some (6, 20), none, false, false⟩ [⟨.lins, 0, 3, 6, 6⟩]
    commits s = true ∧ s.slotLocked 20 = false ∧ ((after (.leapCommit 3 .good) s).line 78).map (fun m => (m.st, m.home, m.gen)) = some (.dirty, 20, 1) ∧
    (after (.leapCommit 3 .good) s).rd Objs.inserts = 1 ∧ (after (.leapCommit 3 .good) s).fsu.reserved = [] := by decide +kernel
-- R190
theorem test_leapCommit_delete :
    let s := committingOps ⟨77, false, .found, 5, 0, none, none, true, true⟩ [⟨.ldel, 0, 3, 0, 6⟩]
    commits s = true ∧ (((after (.leapCommit 3 .good) s).line 77).map (·.st)).getD .absent = .absent ∧
    (after (.leapCommit 3 .good) s).rd Objs.deletes = 1 := by decide +kernel

/-- The leap of thread 3 has ended with a status. -/
def ended (status : Nat) : State := (leapCommitting 5).setTh 3 { (leapCommitting 5).th 3 with status := some status, inCommit := false }

-- R112, R191
theorem test_leapStatusDelivered : ((ended 0).th 3).status = some 0 ∧ ((ended 0).th 3).bound = none ∧
    ((after (.leapStatusDelivered 3) (ended 0)).th 3).st = .free ∧ ((after (.leapStatusDelivered 3) (ended 0)).th 3).job = none ∧
    ((after (.leapStatusDelivered 3) (ended 1)).th 3).st = .loading ∧ fld ((after (.leapStatusDelivered 3) (ended 1)).th 3).md 260 4 = 1 := by
  decide +kernel
-- R192, R194
theorem test_leapWaitLimit :
    let s := clock 2000000000 (leapCommitting 5)
    (s.th 3).inCommit = true ∧ (s.th 3).status = none ∧ (s.th 3).waitRaised = false ∧ s.elapsed (s.th 3).halted (s.rd Objs.leap_wait_limit) = true ∧
    raised (after (.leapWaitLimit 3) s) = [(101, 0)] ∧ ((after (.leapWaitLimit 3) s).th 3).waitRaised = true := by decide +kernel
/-- Thread 3 waits 2 s for a locked record; lock_break is `b`. -/
def lockWaiting (b : Nat) : State :=
  let s := leaping [⟨.key 77, .ring 0, true, none⟩]
  obj [(Objs.lock_break, 0, b)] (clock 2000000000 (s.setTh 3 { s.th 3 with lockWait := some (⟨.lset, 0, 4, 0, 1⟩, 0) }))

theorem test_lockWaitTimeout : (lockWaiting 0).flowLocked 77 = true ∧ (lockWaiting 0).elapsed 0 ((lockWaiting 0).rd Objs.lock_timeout) = true ∧
    (lockWaiting 0).rd Objs.lock_break = 0 ∧ (after (.lockWaitTimeout 3) (lockWaiting 0)).rd Objs.leap_lock_timeout = 1 ∧
    (raised (after (.lockWaitTimeout 3) (lockWaiting 0))).contains (98, 3) = true := by decide +kernel
theorem test_lockWaitTimeout_break : (lockWaiting 1).flowLocked 77 = true ∧ (lockWaiting 1).rd Objs.lock_break = 1 ∧
    ((after (.lockWaitTimeout 3) (lockWaiting 1)).th 3).leap.ops.length = 1 ∧ (after (.lockWaitTimeout 3) (lockWaiting 1)).fsu.locks = [] ∧
    raised (after (.lockWaitTimeout 3) (lockWaiting 1)) = [(97, 0)] := by decide +kernel

/-! ## Spray, reorder, isolation and regrowth (chapters 5 and 18) -/

/-- A packet with metadata `md`. -/
def pkt (md : Nat) : Packet := ⟨1, md, 0, 0, 0, (List.range 64).map (BitVec.ofNat 8), [], none⟩

/-- One released packet waits in the join stage of pipe 2. -/
def joinedThread : State := { z with sk := { z.sk with join := [(2, [⟨pkt 0, false, true⟩])] } }

-- R118, R120, R125, R171, R173
theorem test_spray : tget [] joinedThread.sk.replay 2 = [] ∧ (joinedThread.ring 2).length < 2048 ∧ joinedThread.claimRoom = true ∧
    joinedThread.pipeThreads 2 < joinedThread.rd Objs.spray_pipe_quota ∧ joinedThread.sfFind (0, 0) = none ∧ joinedThread.pickThread 0 none = some 0 ∧
    ((after (.spray 2) joinedThread).th 0).st = .loading ∧ (((after (.spray 2) joinedThread).th 0).job.map (·.lsn)) = some 0 ∧
    ((after (.spray 2) joinedThread).ring 2).map (·.pid) = [1] ∧ (after (.spray 2) joinedThread).cu.lsnNext = 1 ∧
    (after (.spray 2) joinedThread).cu.reserved = [0] := by decide +kernel
-- R119: 1,001 ns after the stall began
theorem test_sprayStallTimeout :
    let s := clock 1001 { joinedThread with sk := { joinedThread.sk with stall := [(2, (0, false, false))] } }
    tfind s.sk.stall 2 = some (0, false, false) ∧ s.elapsed 0 1001 = true ∧ raised (after (.sprayStallTimeout 2) s) = [(66, 2)] := by
  decide +kernel

/-- The ring of pipe 1 with one entry. -/
def ringed (done : Option Packet) (drop : Bool) : State :=
  { z with sk := { z.sk with rings := [(1, [⟨9, 1, 0, 5000, done, drop, none, 0, 0⟩])] } }

-- R125
theorem test_reorderRelease : (after (.reorderRelease 1 .good .none) (ringed (some (pkt 0)) false)).ring 1 = [] ∧ bit (pkt 0).md 42 = false ∧
    (after (.reorderRelease 1 .good .none) (ringed (some (pkt 0)) false)).tm.items.map (·.pid) = [1] ∧
    (after (.reorderRelease 1 .good .none) (ringed (some (pkt 0)) false)).rd Objs.reorder_released 1 = 1 := by decide +kernel
theorem test_reorderRelease_drop : (after (.reorderRelease 1 .good .none) (ringed (some (pkt 0)) true)).ring 1 = [] ∧
    (after (.reorderRelease 1 .good .none) (ringed (some (pkt 0)) true)).tm.items = [] ∧
    (after (.reorderRelease 1 .good .none) (ringed (some (pkt 0)) true)).rd Objs.prog_drop 1 = 1 := by decide +kernel
theorem test_reorderTimeout :
    let s := clock 5000 (ringed none false)
    s.elapsed 0 5000 = true ∧ (after (.reorderTimeout 1) s).ring 1 = [] ∧ raised (after (.reorderTimeout 1) s) = [(64, 1)] ∧
    (after (.reorderTimeout 1) s).rd Objs.reorder_timeout_count 1 = 1 := by decide +kernel

/-- Single-file entry 0 names the hash pair (2, 1) and thread 7. -/
def steered : State :=
  { z.setTh 7 { Thread.init with bound := some 0 } with sk := { (z.setTh 7 { Thread.init with bound := some 0 }).sk with sf := [(0, ⟨2, 1, false, 7, [], 0, false⟩)] } }

-- R121: VALID, PINNED, H2 = 6 and H1 = 5
theorem test_sfEntryWrite :
    let v := leBytes 16 (3 * 2 ^ 126 + 6 * 2 ^ 32 + 5)
    Accepted .sdp Objs.sf_entry 0 v (sfCheck .sdp) steered ∧ bit (leNat v) 127 = true ∧
    (tfind (after (.sfEntryWrite .sdp v) steered).sk.sf 0).map (fun e => (e.h1, e.h2, e.pinned, e.thread)) = some (5, 6, true, 7) := by
  decide +kernel
theorem test_sfEntryWrite_clear : Accepted .sdp Objs.sf_entry 0 (leBytes 16 0) (sfCheck .sdp) steered ∧
    tfind (after (.sfEntryWrite .sdp (leBytes 16 0)) steered).sk.sf 0 = none ∧
    sfImage (after (.sfEntryWrite .sdp (leBytes 16 (2 ^ 126 + 5))) steered) 0 = 2 ^ 126 + 5 := by decide +kernel
-- A new entry binds thread 7 of the lowest Skink; with no Skink to bind it is refused (R122).
theorem test_sfEntryWrite_new :
    let v := leBytes 16 (2 ^ 127 + 6 * 2 ^ 32 + 5)
    Accepted .sdp Objs.sf_entry 0 v (sfCheck .sdp) z ∧ z.sfSkink z.hueActive = some 0 ∧ tfind z.sk.sf 0 = none ∧
    (tfind (after (.sfEntryWrite .sdp v) z).sk.sf 0).map (fun e => (e.h1, e.h2, e.pinned, e.thread, e.queue)) = some (5, 6, false, 7, []) ∧
    ((after (.sfEntryWrite .sdp v) z).th 7).bound = some 0 := by decide +kernel
theorem test_sfEntryWrite_refused :
    let v := leBytes 16 (2 ^ 127 + 5)
    let s := obj [(Objs.skinks_in_service, 0, 0)] z
    judgeWrite .sdp Objs.sf_entry 0 v (sfCheck .sdp) s = .state ∧ s.itemNarrowed Objs.sf_entry true = false ∧
    answered Objs.sf_entry 0 7 (after (.sfEntryWrite .sdp v) s) = true ∧ raised (after (.sfEntryWrite .sdp v) s) = [(70, 0)] := by decide +kernel
-- R126: the packet of thread 3 came too late
theorem test_late :
    let t := running.th 3
    let s := running.setTh 3 { t with st := .committing, status := some 0, job := t.job.map (fun j => { j with late := true, bindOpen := false }) }
    (s.th 3).bound = none ∧ ((s.th 3).job.map (·.late)) = some true ∧ ((after (.leapStatusDelivered 3) s).th 3).st = .free ∧
    (after (.leapStatusDelivered 3) s).rd Objs.reorder_late_drop 0 = 1 ∧ (raised (after (.leapStatusDelivered 3) s)).contains (65, 0) = true := by
  decide +kernel
-- R200
theorem test_sfIdleExpiry :
    let s := clock 1000000000000 steered
    (s.th 7).st = .free ∧ s.elapsed 0 (s.rd Objs.sf_idle) = true ∧ s.sk.sf.all (fun x => !s.sfMustMove x.2) = true ∧ (after (.sfIdleExpiry 0) s).sk.sf = [] ∧
    ((after (.sfIdleExpiry 0) s).th 7).bound = none := by decide +kernel
-- R133, R132
theorem test_reorderTimeoutWrite : Accepted .sdp Objs.reorder_timeout 0 (leBytes 4 20000) noCheck z ∧
    (after (.reorderTimeoutWrite .sdp (leBytes 4 20000)) z).rd Objs.reorder_timeout = 20000 := by decide +kernel
theorem test_reorderHighWaterRead :
    let s := obj [(Objs.reorder_high_water, 3, 77)] z
    s.pathServed .sdp = true ∧ judgeRead .sdp Objs.reorder_high_water (fun _ => .ok) s = .ok ∧
    (after (.reorderHighWaterRead .sdp 3) s).rd Objs.reorder_high_water 3 = 0 ∧
    (after (.reorderHighWaterRead .sdp 3) s).outbox = [.answer .sdp (Objs.reorder_high_water.key 3 / 256)
      (Objs.reorder_high_water.key 3 % 256) 0 (leBytes Objs.reorder_high_water.ty.size 77)] := by decide +kernel

-- R129, R130
theorem test_clutchDrain : Accepted .sdp Objs.clutch_drain 0 [9] drainRefused z ∧
    (after (.clutchDrain .sdp [9]) z).rd Objs.clutch_state 9 = 2 ∧ answered Objs.clutch_drain 0 0 (after (.clutchDrain .sdp [9]) z) = true := by
  decide +kernel
theorem test_clutchReturn :
    let s := obj [(Objs.clutch_state, 9, 2)] z
    Accepted .sdp Objs.clutch_return 0 [9] returnRefused s ∧ (after (.clutchReturn .sdp [9]) s).rd Objs.clutch_state 9 = 0 ∧
    raised (after (.clutchReturn .sdp [9]) s) = [(72, 9)] := by decide +kernel
-- R131, R518
theorem test_skinkIsolate : Accepted .sdp Objs.skink_isolate 0 [17] noCheck z ∧ bit (z.rd Objs.skinks_in_service) 17 = true ∧
    bit ((after (.skinkIsolate .sdp [17]) z).rd Objs.skinks_in_service) 17 = false ∧
    (raised (after (.skinkIsolate .sdp [17]) z)).contains (74, 17) = true := by decide +kernel
theorem test_skinkRegrow :
    let s := after (.skinkIsolate .sdp [17]) z
    Accepted .sdp Objs.skink_regrow 0 [17] skinkRegrowCheck s ∧ (after (.skinkRegrow .sdp [17]) s).regrowsNow 5 17 = true := by decide +kernel
-- R104, R105
theorem test_patEngineIsolate : Accepted .sdp Objs.pat_engine_isolate 0 [23] noCheck z ∧ z.engineIn 23 = true ∧
    (after (.patEngineIsolate .sdp [23]) z).engineIn 23 = false ∧ (raised (after (.patEngineIsolate .sdp [23]) z)).contains (54, 23) = true := by
  decide +kernel
theorem test_patEngineRegrow :
    let s := after (.patEngineIsolate .sdp [23]) z
    Accepted .sdp Objs.pat_engine_regrow 0 [23] patRegrowCheck s ∧
    (after (.patEngineRegrow .sdp [23]) s).regrowsNow 7 23 = true := by decide +kernel
-- R328
theorem test_middleIsolate : Accepted .sdp Objs.middle_isolate 0 [31] noCheck z ∧ z.middleIn 31 = true ∧
    (after (.middleIsolate .sdp [31]) z).middleIn 31 = false ∧ (raised (after (.middleIsolate .sdp [31]) z)).contains (128, 31) = true := by
  decide +kernel
theorem test_middleRegrow :
    let s := after (.middleIsolate .sdp [31]) z
    Accepted .sdp Objs.middle_regrow 0 [31] middleRegrowCheck s ∧ (after (.middleRegrow .sdp [31]) s).regrowsNow 10 31 = true := by decide +kernel
-- R409, R410
theorem test_hbmRetire :
    let s := obj [(Objs.hbm_state, 127, 1)] z
    Accepted .sdp Objs.hbm_retire 0 [127] hbmRetireCheck s ∧ (after (.hbmRetire .sdp [127]) s).pcState 127 = 4 ∧
    (raised (after (.hbmRetire .sdp [127]) s)).contains (168, 127) = true := by decide +kernel
theorem test_hbmRegrow :
    let s := obj [(Objs.hbm_state, 127, 4)] z
    Accepted .sdp Objs.hbm_regrow 0 [127] (fun p s => hbmCmdCheck p 4 s) s ∧ (after (.hbmRegrow .sdp [127]) s).pcState 127 = 5 ∧
    (after (.hbmRegrow .sdp [127]) s).regrowsNow 8 127 = true := by decide +kernel
-- R517, R518: the unit type in the top byte
theorem test_fmIsolate : Accepted .sdp Objs.fm_isolate 0 [17, 0, 0, 5] fmIsolateCheck z ∧ fmUnit (leNat [17, 0, 0, 5]) = some (5, 17) ∧
    (after (.fmIsolate .sdp [17, 0, 0, 5]) z).isolated 5 17 = true ∧ 
    Accepted .sdp Objs.fm_isolate 0 [3, 0, 0, 8] fmIsolateCheck (obj [(Objs.hbm_state, 3, 2)] z) ∧ (obj [(Objs.hbm_state, 3, 2)] z).pcState 3 = 2 ∧ (after (.fmIsolate .sdp [3, 0, 0, 8]) (obj [(Objs.hbm_state, 3, 2)] z)).isolated 8 3 = true := by
  decide +kernel
theorem test_fmRegrow :
    let s := after (.fmIsolate .sdp [17, 0, 0, 5]) z
    Accepted .sdp Objs.fm_regrow 0 [17, 0, 0, 5] fmRegrowCheck s ∧ (after (.fmRegrow .sdp [17, 0, 0, 5]) s).regrowsNow 5 17 = true := by
  decide +kernel
theorem test_unitRegrowthDone :
    let s : State := { z with fm := { z.fm with regrowing := [(5, 17)] } }
    s.canRegrow 5 17 0 = true ∧ (after (.unitRegrowthDone 5 17 true 0) s).fm.passed = [(5, 17)] ∧
    (after (.unitRegrowthDone 5 17 true 0) s).fm.regrowing = [] ∧ raised (after (.unitRegrowthDone 5 17 false 0) s) = [(76, 17)] ∧
    (after (.unitRegrowthDone 5 17 false 0) s).fm.regrowing = [] := by decide +kernel
-- R164, R518: no golden copy can be read
theorem test_unitRegrowthDone_copies :
    let s : State := obj ((List.range 128).map (fun p => (Objs.hbm_state, p, 2))) { z with fm := { z.fm with regrowing := [(6, 3)] } }
    s.canRegrow 6 3 0 = false ∧ (raised (after (.unitRegrowthDone 6 3 true 0) s)).contains (76, 3) = true := by decide +kernel

/-! ## The fault manager (chapter 18) -/

/-- One occurrence waits, detected at W = 7; autotomy is off. -/
def occurring (src utype unit : Nat) : State :=
  let s := obj [(Objs.fm_autotomy_enable, 0, 0)] z
  { s with fm := { s.fm with raised := [⟨src, utype, unit, 0, 7, 0, none, 0⟩] } }

-- R506, R514, R515: EV235 is of class C3, EV074 of class C2
theorem test_eventOccurrence_safe : (occurring 235 0 0).rd Objs.fm_autotomy_enable = 0 ∧ (occurring 235 0 0).fm.safe = false ∧ evBaseClass 235 = 3 ∧
    (after (.eventOccurrence .none) (occurring 235 0 0)).fm.safe = true ∧
    (after (.eventOccurrence .none) (occurring 235 0 0)).rd Objs.power_state = 5 ∧
    (after (.eventOccurrence .none) (occurring 235 0 0)).fm.croak = .pulse := by decide +kernel
theorem test_eventOccurrence : evBaseClass 74 ≤ 2 ∧ (occurring 74 5 17).rd Objs.ev_escalated 74 = 0 ∧ (occurring 74 5 17).rd Objs.ev_esc_n 74 = 0 ∧
    bit ((occurring 74 5 17).rd Objs.ev_reaction 74) 0 = true ∧ (after (.eventOccurrence .none) (occurring 74 5 17)).rd Objs.ev_count 74 = 1 ∧
    (after (.eventOccurrence .none) (occurring 74 5 17)).rd Objs.ev_last_time 74 = 7 ∧
    (after (.eventOccurrence .none) (occurring 74 5 17)).fm.recs.map (fun r => (r.src, r.utype, r.unit, r.logged)) = [(74, 5, 17, true)] := by
  decide +kernel

/-- A logged open record with LOG_SEQ 4. -/
def rec4 : EvRec := ⟨4, 0, 74, 2, 2, false, false, false, true, 1, false, false, 5, 17, 1, 0, 0, 0, false, true, 0, 0, 0⟩

/-- The fault manager holds that record. -/
def recorded : State := { z with fm := { z.fm with recs := [rec4], summary := 5, firstHeld := true, windows := [(9, ⟨[1], 3⟩), (10, ⟨[2], 3⟩)] } }

-- R505, R502, R512, R513, R510
theorem test_evClear : Accepted .sdp Objs.ev_clear 9 [1] noCheck (obj [(Objs.ev_escalated, 9, 1)] recorded) ∧
    (after (.evClear .sdp 9 [1]) (obj [(Objs.ev_escalated, 9, 1)] recorded)).rd Objs.ev_escalated 9 = 0 ∧
    (after (.evClear .sdp 9 [1]) (obj [(Objs.ev_escalated, 9, 1)] recorded)).fm.windows = [(10, ⟨[2], 3⟩)] := by decide +kernel
theorem test_evConfigWrite : evBaseClass 9 = 1 ∧ Accepted .sdp (evObj 1) 9 [5, 0] (evCheck 9 1) z ∧
    (after (.evConfigWrite .sdp 9 1 [5, 0]) z).rd Objs.ev_esc_n 9 = 5 ∧ Accepted .sdp (evObj 0) 9 [3] (evCheck 9 0) z ∧
    (after (.evConfigWrite .sdp 9 0 [3]) z).rd Objs.ev_reaction 9 = 3 ∧ Accepted .sdp (evObj 2) 9 [0, 1, 0, 0] (evCheck 9 2) z ∧
    Accepted .sdp (evObj 3) 9 [1] (evCheck 9 3) z := by decide +kernel
theorem test_fmLogAck : Accepted .sdp Objs.fm_log_ack 0 [4, 0, 0, 0] noCheck recorded ∧ 0 ≤ wrapDiff 32 (leNat [4, 0, 0, 0]) rec4.seq ∧
    (after (.fmLogAck .sdp [4, 0, 0, 0]) recorded).fm.recs.map (·.acked) = [true] ∧
    (after (.fmLogAck .sdp [3, 0, 0, 0]) recorded).fm.recs.map (·.acked) = [false] := by decide +kernel
theorem test_fmSummaryClear : Accepted .sdp Objs.fm_summary_clear 0 [1] noCheck recorded ∧
    (after (.fmSummaryClear .sdp [1]) recorded).fm.summary = 0 := by decide +kernel
theorem test_fmFirstClear : Accepted .sdp Objs.fm_first_clear 0 [1] noCheck recorded ∧
    (after (.fmFirstClear .sdp [1]) recorded).fm.firstHeld = false := by decide +kernel
-- R507: 1,000 ms
theorem test_recordOpenLimit :
    let s := clock 1000000000 recorded
    s.recOf 4 = some rec4 ∧ rec4.isOpen = true ∧ rec4.cls < 3 ∧ s.elapsed rec4.born (s.rd Objs.fm_open_limit * 1000000) = true ∧
    (after (.recordOpenLimit 4) s).fm.recs.map (·.isOpen) = [false] := by decide +kernel

/-- CROAK_N is in PULSE for 1,000,000 ns of the Eft's time. -/
def pulsing (pendingRelease : Bool) : State :=
  { z with fm := { z.fm with croak := .pulse, croakRunning := true, releasePending := pendingRelease }, eft := { z.eft with ticks := 625000 } }

-- R514
theorem test_croakTimerExpiry : (pulsing false).eftElapsed 0 ((pulsing false).rd Objs.croak_min_width) = true ∧
    (after .croakTimerExpiry (pulsing false)).fm.croak = .held ∧ (after .croakTimerExpiry (pulsing false)).rd Objs.croak_level = 1 ∧
    (after .croakTimerExpiry (pulsing true)).fm.croak = .released ∧ (after .croakTimerExpiry (pulsing true)).rd Objs.croak_level = 0 := by
  decide +kernel
theorem test_croakLevelWrite :
    let held : State := { z with fm := { z.fm with croak := .held } }
    Accepted .sdp Objs.croak_level 0 [0] croakCheck held ∧ (after (.croakLevelWrite .sdp [0]) held).fm.croak = .released ∧
    Accepted .sdp Objs.croak_level 0 [1] croakCheck z ∧ (after (.croakLevelWrite .sdp [1]) z).fm.croak = .held ∧
    Accepted .sdp Objs.croak_level 0 [0] croakCheck (pulsing false) ∧
    (after (.croakLevelWrite .sdp [0]) (pulsing false)).fm.releasePending = true := by decide +kernel

/-! ## The host rings (chapter 15) -/

/-- CR_CTRL of a ring of 64 entries, ENABLE and STOP_MODE 1. -/
def ctrl64 : Nat := 6 * 2 ^ 8 + 3

/-- Command ring 2 runs from 0x1000 with H and P. -/
def ringAt (h p : Nat) : State := z.setCr 2 ⟨0x1000, 0x2000, ctrl64, .running, h, p, none, []⟩

/-- Delivery ring 2 runs with P 4 and H 3, 64 entries and 64 buffers, and buffers up to 10. -/
def delAt : State := z.setDr 2 ⟨0x1000, 0x2000, 0x3000, 6 * 2 ^ 8 + 6 * 2 ^ 3 + 1, 100, 0, true, 4, 3, 10, [], 0, 0, 0⟩

-- R421
theorem test_crDoorbell : (ringAt 0 5).hostHalted = false ∧ ((ringAt 0 5).cr 2).st = .running ∧ 0 ≤ wrapDiff 32 64 5 ∧
    ((after (.crDoorbell 2 64) (ringAt 0 5)).cr 2).p = 64 ∧ ((after (.crDoorbell 2 4) (ringAt 0 5)).cr 2).p = 5 ∧
    raised (after (.crDoorbell 2 4) (ringAt 0 5)) = [(216, 2)] := by decide +kernel
theorem test_crDoorbell_range : ringSize ((ringAt 0 5).cr 2).ctrl = 64 ∧ (after (.crDoorbell 2 65) (ringAt 0 5)).rd Objs.hi_state = 1 ∧
    (after (.crDoorbell 2 65) (ringAt 0 5)).rd Objs.hi_halt_cause = 1 ∧ (after (.crDoorbell 2 65) (ringAt 0 5)).rd Objs.hi_halt_ring = 2 := by
  decide +kernel
theorem test_drDoorbell : (delAt.dr 2).running = true ∧ 0 ≤ wrapDiff 32 4 (delAt.dr 2).h ∧ wrapDiff 32 4 (delAt.dr 2).p ≤ 0 ∧
    ((after (.drDoorbell 2 4) delAt).dr 2).h = 4 := by decide +kernel
theorem test_brDoorbell : 0 ≤ wrapDiff 32 68 (delAt.dr 2).pb ∧ (68 + 2 ^ 32 - (delAt.dr 2).p) % 2 ^ 32 ≤ bufSize (delAt.dr 2).ctrl ∧
    ((after (.brDoorbell 2 68) delAt).dr 2).pb = 68 ∧ (after (.brDoorbell 2 69) delAt).rd Objs.hi_halt_cause = 3 := by decide +kernel
-- R422, R423, R434, R435
theorem test_crCtrlWrite : (z.cr 2).st = .disabled ∧ log2Ok (fld ctrl64 8 5) = true ∧
    ((after (.crCtrlWrite 2 0x1000 0x2008 0x603 [] []) z).cr 2) = ⟨0x1000, 0x2008, ctrl64, .running, 0, 0, none, []⟩ := by decide +kernel
theorem test_crStop : bit ((ringAt 5 5).cr 2).ctrl 1 = true ∧ ((ringAt 5 5).cr 2).busy = none ∧
    ((after (.crStop 2 []) (ringAt 5 5)).cr 2).st = .disabled ∧ (after (.crStop 2 []) (ringAt 5 5)).outbox = [.hostWrite 0x2000 [5, 0, 0, 0]] := by
  decide +kernel
theorem test_drCtrlWrite : (z.dr 2).running = false ∧
    ((after (.drCtrlWrite 2 ⟨0x1000, 0x2008, 0x3000, 100, 0⟩ 0x631) z).dr 2).running = true ∧
    ((after (.drCtrlWrite 2 ⟨0x1000, 0x2008, 0x3000, 100, 0⟩ 0x631) z).dr 2).base = 0x1000 := by decide +kernel

/-- An entry: OPCODE, TARGET, FLAGS, PARAM, DATA_LEN, and DATA_ADDR 0x8000. -/
def entry (op target flags param len : Nat) : BitVec 256 :=
  BitVec.ofNat 256 (0x8000 * 2 ^ 192 + len * 2 ^ 160 + param * 2 ^ 96 + target * 2 ^ 88 + op * 2 ^ 72 + flags * 2 ^ 64)

/-- Ring 2 of a state has one entry to start. -/
def posted (s : State) : State := s.setCr 2 ⟨0x1000, 0x2000, ctrl64, .running, 0, 1, none, []⟩

/-- The entry's STATUS and RESULT are written, and HEAD goes on. -/
def completed (status result : Nat) (t : State) : Bool :=
  decide (Output.hostWrite 0x1000 (leBytes 8 (result * 2 ^ 32 + status)) ∈ t.outbox) && (t.cr 2).h == 1 && (t.cr 2).busy.isNone

/-- The entry waits. -/
def waiting (w : RingWait) (t : State) : Bool := (t.cr 2).busy.map (·.wait) == some w

-- R427: a reserved FLAGS bit
theorem test_refused : canStart (posted z) 2 = true ∧ cmdCheck (posted z) (entry 0 0 2 0 0).toNat [] .good = some 0x8002 ∧
    entOp (entry 0 0 2 0 0).toNat = 0 ∧ completed 0x8002 0 (after (.cmdNop 2 (entry 0 0 2 0 0)) (posted z)) = true ∧
    raised (after (.cmdNop 2 (entry 0 0 2 0 0)) (posted z)) = [(209, 2)] ∧
    cmdCheck (posted z) (entry 0x14 2 0 0 192).toNat [] .good = some 0x8005 ∧
    completed 0x8005 0 (after (.tblSearch 2 (entry 0x14 2 0 0 192) [] .good) (posted z)) = true := by decide +kernel
-- R427: TBL_NEXT with a reserved FLAGS bit; an OPCODE that is not in the table; a ring with nothing to start
theorem test_refused_forms :
    let w := entry 0x15 2 2 (2 ^ 28) 208
    let t := after (.tblNext 2 w .good) (posted z)
    cmdCheck (posted z) w.toNat [] .good = some 0x8002 ∧ completed 0x8002 0 t = true ∧ t.fsu = z.fsu ∧ t.tbl = z.tbl ∧
    opFlags (entOp (entry 0x7F 0 0 0 0).toNat) = none ∧ completed 0x8001 0 (after (.csLoad (.ring 2 (entry 0x7F 0 0 0 0) [] .good)) (posted z)) = true ∧
    canStart z 2 = false ∧ after (.tblNext 2 w .good) z = z := by decide +kernel
theorem test_cmdNop : Starts (posted z) 2 (entry 0 0 0 0 0).toNat 0x00 [] .good ∧
    completed 1 0 (after (.cmdNop 2 (entry 0 0 0 0 0)) (posted z)) = true := by decide +kernel
-- R428: DIRECT to step 9, otherwise to the parser of the port's pipe
theorem test_pktInject :
    let s := posted (obj [(Objs.port_mode, 8, 4), (Objs.link_state, 8, 1)] z)
    let f := List.replicate 60 (7 : Byte)
    Starts s 2 (entry 1 0 16 8 60).toNat 0x01 f .good ∧ bit (entFlags (entry 1 0 16 8 60).toNat) 4 = true ∧
    waiting .inject (after (.pktInject 2 (entry 1 0 16 8 60) f .good) s) = true ∧
    (after (.pktInject 2 (entry 1 0 16 8 60) f .good) s).tm.items.map (fun i => (i.body, i.inject)) = [(f, some 2)] ∧
    Starts s 2 (entry 1 0 0 8 60).toNat 0x01 f .good ∧
    (tget [] (after (.pktInject 2 (entry 1 0 0 8 60) f .good) s).ports.inq 0).map (·.inject) = [some 2] := by decide +kernel
-- R426: edit-list entry 3
theorem test_tblDmaWrite :
    let w := entry 0x11 0x16 0 (2 ^ 32 + 3) 2
    Starts (posted z) 2 w.toNat 0x11 [0x34, 0x12] .good ∧ (writeItems 0x16 3 [0x34, 0x12] (.ring 2) 2 1 0 ((posted z).serving 2)).1 = 1 ∧
    completed 1 1 (after (.tblDmaWrite 2 w [0x34, 0x12] .good) (posted z)) = true ∧
    tget 0 (after (.tblDmaWrite 2 w [0x34, 0x12] .good) (posted z)).tbl.edit 3 = 0x1234 := by decide +kernel
theorem test_tblDmaRead :
    let w := entry 0x10 0x16 0 (2 * 2 ^ 32 + 3) 4
    let s : State := posted { z with tbl := { z.tbl with edit := [(3, 0x1234)] } }
    Starts s 2 w.toNat 0x10 [] .good ∧ (readItems 0x16 3 [] [] 2 0 (s.serving 2)).1 = 1 ∧
    (readItems 0x16 3 [] [] 2 0 (s.serving 2)).2.1 = 2 ∧ (readItems 0x16 3 [] [] 2 0 (s.serving 2)).2.2.1 = [0x34, 0x12, 0, 0] ∧
    completed 1 2 (after (.tblDmaRead 2 w [] [] .good) s) = true ∧
    Output.hostWrite 0x8000 [0x34, 0x12, 0, 0] ∈ (after (.tblDmaRead 2 w [] [] .good) s).outbox := by decide +kernel
/-- A data buffer: a key of 47 bytes 1, key template 5, and an item of 128 bytes. -/
def keyed5 : List Byte := List.replicate 47 1 ++ [0, 5] ++ List.replicate 15 0 ++ List.replicate 128 9
-- R240, R297
theorem test_tblDmaInsert :
    let w := entry 0x11 1 2 (2 ^ 32) 192
    let s := posted (obj ((List.range 128).map (fun p => (Objs.hbm_state, p, 1))) z)
    Starts s 2 w.toNat 0x11 keyed5 .good ∧ (flowInsert (s.serving 2) (flowKeyOf (keyed5.take 47) 5) (List.replicate 128 9) (.ring 2)).1 = some 1 ∧
    completed 1 1 (after (.tblDmaInsert 2 w keyed5 .good) s) = true ∧
    (after (.tblDmaInsert 2 w keyed5 .good) s).fsu = (flowInsert (s.serving 2) (flowKeyOf (keyed5.take 47) 5) (List.replicate 128 9) (.ring 2)).2.fsu ∧
    (after (.tblDmaInsert 2 w keyed5 .good) s).recordsUsed = 1 := by decide +kernel
/-- `leapWriting` on the key of `keyed5`: an open leap holds an accepted write-class operation on it. -/
def insertWaits : State :=
  let k := flowKeyOf (keyed5.take 47) 5
  let s := posted (obj ((List.range 128).map (fun p => (Objs.hbm_state, p, 1))) z)
  let hd : Handle := ⟨k, false, .absent, 0, 0, none, none, false, false⟩
  s.modTh 3 (fun t => { t with leap := { Leap.empty with used := true, handles := [(0, hd)], ops := [⟨.lins, 0, 3, 6, 1⟩] } })
-- R193, R240: an insert waits for the lock that it takes, and places its record at the grant
theorem test_tblDmaInsert_waits :
    let w := entry 0x11 1 2 (2 ^ 32) 192
    let k := flowKeyOf (keyed5.take 47) 5
    let t := after (.tblDmaInsert 2 w keyed5 .good) insertWaits
    let u : State := { t with sk := { t.sk with threads := [] } }
    Starts insertWaits 2 w.toNat 0x11 keyed5 .good ∧
    (flowInsert (insertWaits.serving 2) k (List.replicate 128 9) (.ring 2)).1 = none ∧ waiting .insert t = true ∧
    t.fsu.locks.map (·.owner) = [.ring 2] ∧ (t.fsu.locks[0]?.bind (·.ins)).isSome = true ∧ after (.tblLockGrant 0) t = t ∧
    leapWrites u k = false ∧ completed 1 1 (after (.tblLockGrant 0) u) = true ∧ (after (.tblLockGrant 0) u).fsu.locks = [] ∧
    ((after (.tblLockGrant 0) u).homeOf k).isSome = true := by decide +kernel
theorem test_tblDmaDelete :
    let w := entry 0x11 0x12 4 (2 ^ 32) 64
    let key : List Byte := [1, 0, 0, 0, 0, 0, 0, 9] ++ List.replicate 56 0
    Starts (posted z) 2 w.toNat 0x11 key .good ∧ (tblDelete ((posted z).serving 2) 0x12 key (.ring 2)).1 = 0x8008 ∧
    completed 0x8008 0 (after (.tblDmaDelete 2 w key .good) (posted z)) = true := by decide +kernel
-- R238
theorem test_tblLock :
    let w := entry 0x12 1 0 0 64
    Starts (posted z) 2 w.toNat 0x12 keyed5 .good ∧ (flowLock ((posted z).serving 2) (flowTarget 1 0 keyed5) (.ring 2)).1 = none ∧
    waiting .lock (after (.tblLock 2 w keyed5 .good) (posted z)) = true ∧
    (after (.tblLock 2 w keyed5 .good) (posted z)).fsu.locks.map (·.owner) = [.ring 2] := by decide +kernel
theorem test_tblUnlock :
    let w := entry 0x13 1 0 0 64
    let s : State := posted { z with fsu := { z.fsu with locks := [⟨flowTarget 1 0 keyed5, .ring 2, true, none⟩] } }
    Starts s 2 w.toNat 0x13 keyed5 .good ∧ (flowUnlock (s.serving 2) (flowTarget 1 0 keyed5) (.ring 2)).1 = 1 ∧
    completed 1 0 (after (.tblUnlock 2 w keyed5 .good) s) = true ∧ (after (.tblUnlock 2 w keyed5 .good) s).fsu.locks = [] := by decide +kernel
-- R241, R242: a record in stash place 4
theorem test_tblSearch :
    let w := entry 0x14 1 0 0 192
    let k := flowKeyOf (keyed5.take 47) 5
    let s : State := posted { z with fsu := { z.fsu with stash := [(4, k)] } }
    Starts s 2 w.toNat 0x14 keyed5 .good ∧ (flowSearch ((s.serving 2).served (.key k)) k).1 = 1 ∧ (flowSearch ((s.serving 2).served (.key k)) k).2.2 = 2 ^ 28 + 4 ∧
    completed 1 (2 ^ 28 + 4) (after (.tblSearch 2 w keyed5 .good) s) = true := by decide +kernel
theorem test_tblNext :
    let w := entry 0x15 2 0 (2 ^ 28) 208
    let s : State := posted { z with fsu := { z.fsu with stash := [(4, 77)] } }
    Starts s 2 w.toNat 0x15 [] .good ∧ (flowNext (s.serving 2) (2 ^ 28)).2.1.map (·.2) = some (2 ^ 28 + 4) ∧
    completed 1 1 (after (.tblNext 2 w .good) s) = true := by decide +kernel
-- R243, R287
theorem test_tblFlushPort : Starts (posted z) 2 (entry 0x16 0x10 0 7 0).toNat 0x16 [] .good ∧ (posted z).macFlushFull = false ∧
    waiting .flush (after (.tblFlushPort 2 (entry 0x16 0x10 0 7 0)) (posted z)) = true ∧
    (after (.tblFlushPort 2 (entry 0x16 0x10 0 7 0)) (posted z)).tbl.flush.map (·.port) = some 7 := by decide +kernel
theorem test_tblFlushPort_flow : Starts (posted z) 2 (entry 0x16 1 0 7 0).toNat 0x16 [] .good ∧
    (((posted z).serving 2).startFlowFlush true 7 (.ring 2)).isSome = true ∧
    (after (.tblFlushPort 2 (entry 0x16 1 0 7 0)) (posted z)).fsu.flushes.map (fun f => (f.byPort, f.value)) = [(true, 7)] := by decide +kernel
-- R243, R287: four MAC flushes, and eight flow flushes, wait already
theorem test_tblFlushPort_full :
    let s : State := { posted z with tbl := { z.tbl with flush := some ⟨1, none, 0⟩, flushWait := List.replicate 4 ⟨2, none, 0⟩ },
                                     fsu := { z.fsu with flushes := List.replicate 8 ⟨false, 1, .dict 4, 0, 0, false⟩ } }
    s.macFlushFull = true ∧ completed 0x800A 0 (after (.tblFlushPort 2 (entry 0x16 0x10 0 7 0)) s) = true ∧
    (((s.serving 2).startFlowFlush true 7 (.ring 2)).isNone) = true ∧ completed 0x800A 0 (after (.tblFlushPort 2 (entry 0x16 1 0 7 0)) s) = true := by
  decide +kernel
theorem test_tblFlushTemplate : Starts (posted z) 2 (entry 0x17 1 0 6 0).toNat 0x17 [] .good ∧
    (((posted z).serving 2).startFlowFlush false 6 (.ring 2)).isSome = true ∧
    (after (.tblFlushTemplate 2 (entry 0x17 1 0 6 0)) (posted z)).fsu.flushes.map (fun f => (f.byPort, f.value)) = [(false, 6)] := by
  decide +kernel
-- R430: section type 0x10, one record of 16 bytes
theorem test_hueStage :
    let w := entry 0x20 0 0 (2 ^ 32 + 0x10) 16
    let b := List.replicate 16 (0 : Byte)
    Starts (posted z) 2 w.toNat 0x20 b .good ∧ recordSize 0x10 = 16 ∧
    (stageRecords 0x10 0 (records 16 1 (padTo 0 16 b)) ((posted z).serving 2)).2 = none ∧
    waiting .stage (after (.hueStage 2 w b .good) (posted z)) = true ∧
    (after (.hueStage 2 w b .good) (posted z)).hue.staging = [⟨none, some 2, 1, 1⟩] ∧
    completed 1 1 ((after (.hueStage 2 w b .good) (posted z)).stageEnd ⟨none, some 2, 1, 1⟩) = true := by decide +kernel

/-- An item of 20 bytes for delivery ring 2. -/
def item2 : DItem := ⟨2, 0, List.replicate 20 (6 : Byte), 0, 0, 0, 0, 0, none, 0⟩

-- R436, R437, R438: a buffer of 64 bytes at 0x9000
theorem test_deliverItem :
    let s : State := { delAt with host := { delAt.host with items := [item2] } }
    let e : BitVec 256 := BitVec.ofNat 256 (64 * 2 ^ 128 + 0x9000)
    takeItem 2 s.host.items = some (item2, []) ∧ s.hostHalted = false ∧ (s.dr 2).hold = [] ∧ delSpace (s.dr 2) = true ∧
    ((after (.deliverItem 2 e false) s).dr 2).p = 5 ∧ (after (.deliverItem 2 e false) s).rd Objs.dlv_items 2 = 1 ∧
    Output.hostWrite 0x9000 (List.replicate 20 6) ∈ (after (.deliverItem 2 e false) s).outbox := by decide +kernel
theorem test_deliveryHoldExpiry :
    let s := clock 100000 (delAt.setDr 2 { delAt.dr 2 with hold := [item2] })
    s.elapsed item2.arrived ((s.dr 2).holdLimit * 1000) = true ∧ ((after (.deliveryHoldExpiry 2) s).dr 2).hold = [] ∧
    raised (after (.deliveryHoldExpiry 2) s) = [(211, 2)] ∧ (after (.deliveryHoldExpiry 2) s).rd Objs.dlv_drop 2 = 1 := by decide +kernel
theorem test_deliveryCoalTimer :
    let m := delAt.setDr 2 { delAt.dr 2 with ctrl := 2 ^ 23 + 9 * 2 ^ 16 + 1, unsig := 3 }
    let s : State := { m with host := { m.host with msixTab := [(9, 0x77 * 2 ^ 64 + 0xFEE00000)] } }
    (s.dr 2).running = true ∧ s.elapsed (s.dr 2).unsigSince (s.dr 2).coalTime = true ∧
    (after (.deliveryCoalTimer 2) s).outbox = [.msix 9 0xFEE00000 0x77] ∧ ((after (.deliveryCoalTimer 2) s).dr 2).unsig = 0 ∧
    (after (.deliveryCoalTimer 2) m).outbox = [] ∧ (after (.deliveryCoalTimer 2) m).host.msixPending = 2 ^ 9 := by decide +kernel
-- R439, R441, R469
theorem test_pcieCompletionTimeout : (posted z).hostHalted = false ∧ ((posted z).cr 2).h ≠ ((posted z).cr 2).p ∧
    (after (.pcieCompletionTimeout 2 false .ur) (posted z)).rd Objs.hi_state = 1 ∧
    (after (.pcieCompletionTimeout 2 false .ur) (posted z)).rd Objs.hi_halt_cause = 5 := by decide +kernel
theorem test_functionLevelReset : (after .functionLevelReset (posted z)).host = HostIf.init ∧
    (raised (after .functionLevelReset (posted z))).map (·.1) = [213] := by decide +kernel
-- R526: a warm reset in progress absorbs the trigger
theorem test_functionLevelReset_absorbed :
    let s : State := { posted z with eft := { z.eft with kind := 1 } }
    s.eft.kind ≠ 0 ∧ after .functionLevelReset s = s ∧ after .pcieLinkDown s = s := by decide +kernel
theorem test_pcieLinkDown : (after .pcieLinkDown (posted z)).host = HostIf.init ∧ (after .pcieLinkDown (posted z)).dict.mbStatus = 0 ∧
    (raised (after .pcieLinkDown (posted z))).map (·.1) = [212] := by decide +kernel

/-! ## Image buffer, loads and repairs (chapter 6) -/

-- R159, R455
theorem test_csBufData :
    let s := z.wrCtx .sdp Objs.cs_buf_offset 0 512
    let v := (List.range 256).map (BitVec.ofNat 8)
    Accepted .sdp Objs.cs_buf_data 0 v (bufCheck .sdp) s ∧ trange (swStore s.sk.buffer 512 v) 513 2 = [(513, 1), (514, 2)] ∧
    (after (.csBufData .sdp v) s).rdCtx .sdp Objs.cs_buf_offset = 768 ∧
    (after (.csBufData .sdp v) s).sk.bufClaim = some (ctxCode .sdp, 0) := by decide +kernel
-- R391: whichever granule the image buffer begins at, no pseudo-channel refuses at reset
theorem test_csBufData_serves (p : Nat) : (z.wrCtx .sdp Objs.cs_buf_offset 0 512).pcRefuses p = false := rfl
theorem test_imageBufferClaimExpiry :
    let s : State := { z with sk := { z.sk with bufClaim := some (3, 0) } }
    (after .imageBufferClaimExpiry (clock 10000000000 s)).sk.bufClaim = none ∧
    (after .imageBufferClaimExpiry (clock 9999999999 s)).sk.bufClaim = some (3, 0) := by decide +kernel

/-- Every clutch's image exports word 0x100. -/
def exporting : State := { z with sk := { z.sk with stores := (List.range 16).map (fun c => (c, { ClutchStore.init with entries := [0x100] })) } }

-- R151: entry 5 leads to word 0x100 under the next hue
theorem test_disp0Stage :
    let s := exporting.wrCtx .sdp Objs.disp_select 0 5
    Accepted .sdp Objs.disp0_stage 0 [0, 0x81] (fun x s => s.disp0Code (s.rdCtx .sdp Objs.disp_select) x) s ∧
    entryHalf (tget 0 ((after (.disp0Stage .sdp [0, 0x81]) s).cs 15).disp 5) s.hueN = (true, 0x100) ∧
    (entryHalf (tget 0 (after (.disp0Stage .sdp [0, 0x81]) s).hue.disp0 5) 0).1 = false := by decide +kernel

/-- A state in which the SDP loads images from the software region, which holds bytes. -/
def imaged (b : List Byte) (s : State) : State := { s with hbm := { s.hbm with sw := swStore [] 0 b } }.wrCtx .sdp Objs.cs_load_source 0 1

/-- The boot has stopped; nothing is stored. -/
def stopped : State := imaged [] { z with eft := { z.eft with phase := .stopped } }

-- R580, R157: an empty region is BAD_HEADER
theorem test_bootLoadFull : Accepted .sdp Objs.boot_load 0 [1] bootCheck stopped ∧
    (after (.bootLoadFull .sdp) stopped).result .sdp (Objs.boot_load.key 0) = 2 ∧ (after (.bootLoadFull .sdp) stopped).eft.bootFull = none := by
  decide +kernel
theorem test_bootLoadHue : Accepted .sdp Objs.boot_load 0 [2] bootCheck stopped ∧
    (after (.bootLoadHue .sdp) stopped).result .sdp (Objs.boot_load.key 0) = 2 ∧ (after (.bootLoadHue .sdp) stopped).eft.bootHue = none := by
  decide +kernel

-- R157: NOT_DRAINED, and BAD_HEADER once clutch 4 is OUT
theorem test_csLoad :
    let s := obj [(Objs.clutch_state, 4, 2)] (imaged [] z)
    Accepted .sdp Objs.cs_load 0 [4] (claimCheck .sdp) z ∧ (after (.csLoad (.dict .sdp [4])) z).result .sdp (Objs.cs_load.key 0) = 1 ∧
    Accepted .sdp Objs.cs_load 0 [4] (claimCheck .sdp) s ∧ (after (.csLoad (.dict .sdp [4])) s).result .sdp (Objs.cs_load.key 0) = 2 ∧
    (after (.csLoad (.dict .sdp [4])) s).sk.loads = [] := by decide +kernel
theorem test_csLoad_ring :
    let e := entry 0x21 0 0 4 64
    let img : List Byte := List.replicate 16 0 ++ [64] ++ List.replicate 47 0
    Starts (posted z) 2 e.toNat 0x21 img .good ∧ bit (entFlags e.toNat) 3 = false ∧
    completed 0x800A 1 (after (.csLoad (.ring 2 e img .good)) (posted z)) = true := by decide +kernel

/-- A content: image 0x20001 with word 0x100 and entry 300. -/
def content : Golden := ⟨0x20001, [(0x100, 7)], [(300, 0x8100)], [0x100]⟩

/-- A load of clutch 4 with that content runs. -/
def csLoading : State := obj [(Objs.clutch_state, 4, 2)] { z with sk := { z.sk with loads := [⟨4, content, none, some (ctxCode .sdp)⟩] } }

-- R158: at most one mismatch is corrected by the second write; after two the clutch is isolated
theorem test_csLoadDone : csLoading.sk.loads.find? (fun l => l.clutch = 4) = some ⟨4, content, none, some (ctxCode .sdp)⟩ ∧
    (after (.csLoadDone 4 1 .same) csLoading).rd Objs.clutch_image 4 = 0x20001 ∧ (after (.csLoadDone 4 1 .same) csLoading).sk.loads = [] ∧
    entryHalf (tget 0 ((after (.csLoadDone 4 1 .same) csLoading).cs 4).disp 300) 0 = (true, 0x100) := by decide +kernel
theorem test_csLoadDone_failed : csLoading.rd Objs.clutch_state 4 < 3 ∧ (after (.csLoadDone 4 2 .same) csLoading).rd Objs.clutch_state 4 = 3 ∧
    (raised (after (.csLoadDone 4 2 .same) csLoading)).contains (82, 4) = true := by decide +kernel
-- R431, R427: the second read of a host's image finds it changed, or fails
theorem test_csLoadDone_second :
    let l : CsLoad := ⟨4, content, some 2, none⟩
    let s := (posted { csLoading with sk := { csLoading.sk with loads := [l] } }).setCr 2 { (posted z).cr 2 with busy := some ⟨.csLoad, 0, 0, 64⟩ }
    s.hostImage l = true ∧ (after (.csLoadDone 4 0 .changed) s).sk.loads = [] ∧ (after (.csLoadDone 4 0 .changed) s).rd Objs.clutch_image 4 = 0 ∧
    completed 0x8006 0 (after (.csLoadDone 4 0 .failed) s) = true ∧ raised (after (.csLoadDone 4 0 .failed) s) = [(210, 2)] := by decide +kernel

/-- A hue image of 96 bytes with one MISS section of zeros, `image` required; its CRCs are computed. -/
def hueImage (image : Nat) : List Byte :=
  let h := leBytes 4 0x494D4B53 ++ [1, 0, 2, 0] ++ leBytes 4 image ++ leBytes 4 0 ++ leBytes 4 96 ++ [0, 0, 0, 0] ++ leBytes 4 0 ++ [1, 0] ++ List.replicate 34 0
  let b := h ++ (leBytes 4 0x10 ++ leBytes 4 80 ++ leBytes 4 16 ++ leBytes 4 (crc32 (List.replicate 16 0))) ++ List.replicate 16 0
  splice b 20 (leBytes 4 (crc32 b))

/-- The software region holds an image. -/
def buffered96 (b : List Byte) : State := imaged b z

-- R161: BAD_HEADER, CRC_FAIL, staged content, and a staged image
theorem test_hueImageLoad :
    let s := buffered96 (hueImage 0x30000)
    Accepted .sdp Objs.hue_image_load 0 [1] (claimCheck .sdp) s ∧ headerBad true (loadSource s .sdp).1 (loadSource s .sdp).2 = false ∧
    crcBad (loadSource s .sdp).1 = false ∧ s.bank0Staged = false ∧ (after (.hueImageLoad .sdp [1]) s).hue.imageStaged = some 0x30000 ∧
    (after (.hueImageLoad .sdp [1]) s).result .sdp (Objs.hue_image_load.key 0) = Code.busy.num ∧
    (after (.hueImageLoad .sdp [1]) s).hue.staging = [⟨some (ctxCode .sdp), none, 0, 0⟩] ∧
    (after (.hueImageLoad .sdp [1]) s).dict.running.any (fun y => y.ctx == ctxCode .sdp && y.key == Objs.hue_image_load.key 0) = true ∧
    ((after (.hueImageLoad .sdp [1]) s).stageEnd ⟨some (ctxCode .sdp), none, 0, 0⟩).result .sdp (Objs.hue_image_load.key 0) = 0 := by decide +kernel
theorem test_hueImageLoad_refused :
    let s := buffered96 (splice (hueImage 0x30000) 20 [9])
    let t : State := { buffered96 (hueImage 0x30000) with hue := { s.hue with disp0 := [(5, entryStage 0 s.hueN true 0x100)] } }
    headerBad true (loadSource (buffered96 []) .sdp).1 (loadSource (buffered96 []) .sdp).2 = true ∧ (after (.hueImageLoad .sdp [1]) (buffered96 [])).result .sdp (Objs.hue_image_load.key 0) = 2 ∧
    headerBad true (loadSource s .sdp).1 (loadSource s .sdp).2 = false ∧ crcBad (loadSource s .sdp).1 = true ∧
    (after (.hueImageLoad .sdp [1]) s).result .sdp (Objs.hue_image_load.key 0) = 3 ∧ t.bank0Staged = true ∧
    (after (.hueImageLoad .sdp [1]) t).result .sdp (Objs.hue_image_load.key 0) = 10 := by decide +kernel

/-- Clutch 4 repairs an item; the shadow holds entry 5 of bank 0. -/
def repairing (item : Nat) : State :=
  let s := z.setCs 4 { ClutchStore.init with repairing := [item] }
  { s with sk := { s.sk with golden := [⟨0, [(0x100, 7)], [], []⟩] }, hue := { s.hue with disp0 := [(5, 77)] } }

-- R163, R164
theorem test_csRepairDone_bank0 : ((repairing 65541).cs 4).repairing = [65541] ∧
    ((after (.csRepairDone 4 .first 0) (repairing 65541)).cs 4).repairing = [] ∧
    tget 0 ((after (.csRepairDone 4 .first 0) (repairing 65541)).cs 4).disp 5 = 77 := by decide +kernel
theorem test_csRepairDone_copies :
    let s := repairing 0x100
    let t := after (.csRepairDone 4 .second 0) s
    (repairing 65541).shadowRead 3 5 .first ≠ .neither ∧ isBank0 65541 = true ∧ isBank0 0x100 = false ∧
    s.goldenRead (s.rd Objs.clutch_image 4) .first = .first ∧ s.goldenRead (s.rd Objs.clutch_image 4) .second = .second ∧
    s.goldenRead (s.rd Objs.clutch_image 4) .neither = .neither ∧ (t.cs 4).words.length = 1 ∧ raised t = [(86, 0)] ∧
    t.rd Objs.cs_reloads 4 = 1 := by decide +kernel
theorem test_csRepairDone : ((after (.csRepairDone 4 .first 1) (repairing 0x100)).cs 4).words.length = 1 ∧
    (after (.csRepairDone 4 .first 1) (repairing 0x100)).rd Objs.cs_reloads 4 = 2 ∧ (repairing 0x100).rd Objs.clutch_state 4 < 3 ∧
    (after (.csRepairDone 4 .neither 0) (repairing 0x100)).rd Objs.clutch_state 4 = 3 := by decide +kernel

-- R164: two mismatches; a mismatch of HBM3's copy; a mismatch of HBM1's where HBM3's cannot be read; no copy
theorem test_csRepairDone_isolates :
    let s := repairing 0x100
    let t := obj [(Objs.hbm_state, 97, 2)] s
    t.goldenServes 3 (t.rd Objs.clutch_image 4) = false ∧ s.goldenServes 3 (s.rd Objs.clutch_image 4) = true ∧
    [after (.csRepairDone 4 .first 2) s, after (.csRepairDone 4 .second 1) s, after (.csRepairDone 4 .first 1) t, after (.csRepairDone 4 .neither 0) s].map
      (fun u => (u.rd Objs.clutch_state 4, u.rd Objs.cs_reloads 4, (raised u).contains (82, 4), (raised u).contains (86, 0))) =
      [(3, 2, true, false), (3, 1, true, true), (3, 1, true, false), (3, 0, true, false)] := by decide +kernel

/-! ## Flow store (chapter 8) -/

/-- A lock of key 77 that waits. -/
def lockPending : State := { z with fsu := { z.fsu with locks := [⟨.key 77, .ring 2, false, none⟩] } }

-- R193
theorem test_tblLockGrant : lockPending.fsu.locks[0]? = some ⟨.key 77, .ring 2, false, none⟩ ∧ lockPending.targetKeys (.key 77) = [77] ∧
    leapWrites lockPending 77 = false ∧ (after (.tblLockGrant 0) lockPending).fsu.locks = [⟨.key 77, .ring 2, true, none⟩] := by decide +kernel
theorem test_tblLockGrant_waits :
    let w := (leaping []).setTh 3 { (leaping []).th 3 with leap := { ((leaping []).th 3).leap with ops := [⟨.lset, 0, 4, 0, 1⟩] } }
    let s : State := { w with fsu := { w.fsu with locks := [⟨.key 77, .ring 2, false, none⟩] } }
    leapWrites s 77 = true ∧ (after (.tblLockGrant 0) s).fsu.locks = [⟨.key 77, .ring 2, false, none⟩] := by decide +kernel

/-- A flush by port 9 of a ring runs, and one waits; the pass has lasted 1 s. -/
def flushing : State :=
  clock 1000000000 { z with fsu := { z.fsu with flushes := [⟨true, 9, .dict 4, 0, 0, true⟩, ⟨true, 8, .dict 4, 0, 0, false⟩], sweepPos := 5 } }

-- R243
theorem test_flowFlushDone : flushing.fsu.flushes.any (·.running) = true ∧ nextRec flushing 5 = none ∧ flushing.elapsed 0 1000000000 = true ∧
    (after (.flowFlushDone []) flushing).fsu.flushes = [⟨true, 8, .dict 4, 0, 0, true⟩] ∧ (after (.flowFlushDone []) flushing).fsu.sweepPos = 0 := by
  decide +kernel
-- R231: a line with a home and no leap on it leaves the cache
theorem test_flowCacheFlush :
    let s : State := { z with fsu := { z.fsu with lines := [(77, ⟨.dirty, 77, [0, 0, 0, 0, 0, 0, 0, 0], 0, none, 2 ^ 28 + 4, 0, 0, false⟩)], stash := [(4, 77)] } }
    Accepted .sdp Objs.flow_cache_flush 0 [1] noCheck s ∧ s.evictable 77 ⟨.dirty, 77, [0, 0, 0, 0, 0, 0, 0, 0], 0, none, 2 ^ 28 + 4, 0, 0, false⟩ = true ∧
    (after (.flowCacheFlush .sdp [1]) s).fsu.lines = [] := by decide +kernel
theorem test_hashSaltWrite : Accepted .sdp Objs.hash_salt 0 (leBytes Objs.hash_salt.ty.size 5) saltCheck z ∧
    (after (.hashSaltWrite .sdp (leBytes Objs.hash_salt.ty.size 5)) z).rd Objs.hash_salt = 5 := by decide +kernel

/-- A bucket read with tag 6 of bucket 3 has completed. -/
def readBack (fills : List Fill) : State :=
  { z with hbm := { z.hbm with ctls := [(3, { HbmCtl.init with done := (List.range 8).map (fun k => ⟨⟨0, 32 * k, 6, true⟩, k == 7⟩) })] },
           fsu := { z.fsu with bucketReads := [(6, 3)], fills := fills } }

-- R221
theorem test_bucketReadReturn : bucketPc 3 = 3 ∧ takeDone ((readBack []).ctl 3).done 0 6 8 = some (true, []) ∧
    (after (.bucketReadReturn 6 .good) (readBack [])).fsu.bucketReads = [] ∧
    (after (.bucketReadReturn 6 .good) (readBack [⟨77, [6, 7], [], false, false⟩])).fsu.fills = [⟨77, [7], [3], false, false⟩] := by
  decide +kernel

/-- A lookup of key 77 waits for its last read, that of bucket 3 at both its bursts; the bind of thread 3 waits for it. -/
def filling (frozen : Bool) (stash : Tab Nat) : State :=
  let t := { Thread.init with st := .running, job := (running.th 3).job, pend := [⟨6, 1, .bind 0⟩],
                              leap := { Leap.empty with used := true, handles := [(0, ⟨77, false, .pending, 0, 0, none, none, false, false⟩)] } }
  let done := (List.range 8).map (fun k => (⟨⟨0, 32 * k, 6, true⟩, frozen⟩ : HbmDone))
  let s := z.setTh 3 t
  { s with hbm := { s.hbm with ctls := [(3, { HbmCtl.init with done := done })] },
           fsu := { s.fsu with bucketReads := [(6, 3)], fills := [⟨77, [6], [], true, false⟩], stash := stash } }

/-- What thread 3 has after the last read. -/
def bound (s : State) : List PendKind × Option BindSt :=
  let t := (after (.bucketReadReturn 6 .good) s).th 3
  (t.pend.map (·.kind), (t.handle 0).map (·.st))

-- R221, R174: FOUND in the stash, ABSENT, UNAVAILABLE after MEM_FROZEN
theorem test_bucketReadReturn_last : (filling true []).homeRead 77 [3] = none ∧ (filling false [(4, 77)]).homeRead 77 [] = some (stashBase + 4) ∧
    (filling false []).bothVoid 77 = false ∧ bound (filling false [(4, 77)]) = ([.value [0]], some .found) ∧
    bound (filling false []) = ([.value [1]], some .absent) ∧ bound (filling true []) = ([.value [2]], some .unavailable) := by decide +kernel

/-- All pseudo-channels serve. -/
def served (s : State) : State := obj ((List.range 128).map (fun p => (Objs.hbm_state, p, 1))) s

-- R228: both buckets of a stash record are open with free slots; which the walk takes is a free value
theorem test_relocWalk :
    let s := served { z with fsu := { z.fsu with stash := [(4, 77)] } }
    let b := s.flowBuckets 77
    tfind s.fsu.stash 4 = some 77 ∧ s.fsu.paths = [] ∧ bucketOpen s b.1 = true ∧ bucketOpen s b.2 = true ∧
    s.slotFree (2 * b.1) = true ∧ s.slotFree (2 * b.2) = true ∧ s.slotLocked (stashBase + 4) = false ∧
    s.targetKeys (.bucket b.1) = [] ∧ s.targetKeys (.bucket b.2) = [] ∧ after (.relocWalk 5) s = s := by decide +kernel
-- R229
theorem test_relocMoveDone :
    let s : State := served { z with fsu := { z.fsu with stash := [(4, 77)], slots := [(6, 77)], paths := [⟨[⟨77, 2 ^ 28 + 4, 6⟩], []⟩] } }
    s.twice ⟨77, 2 ^ 28 + 4, 6⟩ = true ∧ s.slotLocked (2 ^ 28 + 4) = false ∧ (after (.relocMoveDone 0) s).fsu.paths = [] ∧ (after (.relocMoveDone 0) s).fsu.stash = [] ∧
    (after (.relocMoveDone 0) s).rd Objs.reloc_moves = 1 := by decide +kernel
-- R229, R238: a lock keeps the record in its slot
theorem test_relocMoveDone_locked :
    let s : State := served { z with fsu := { z.fsu with slots := [(4, 77), (6, 77)], paths := [⟨[⟨77, 4, 6⟩], []⟩],
                                                         locks := [⟨.slot 4, .ring 2, true, none⟩] } }
    s.twice ⟨77, 4, 6⟩ = true ∧ s.slotLocked 4 = true ∧ (after (.relocMoveDone 0) s).fsu.slots = [(4, 77)] ∧
    (after (.relocMoveDone 0) s).fsu.paths = [] := by decide +kernel

/-- A record of template 6 in stash place 4, last seen at 0; the template ages records after 100 units; 2,000 s have passed in W. -/
def aged : State :=
  let s : State := { z with fsu := { z.fsu with stash := [(4, 77 + 6 * 2 ^ 492)], tmpls := [(3, ⟨2 ^ 63 + 2 ^ 61, [6 * 2 ^ 60 + 100]⟩)] } }
  { s with time := { s.time with w := 2000 * secUnits, f := 2000 * secUnits } }

-- R232, R233
theorem test_sweeperVisit : nextRec aged 0 = some (2 ^ 28 + 4, 77 + 6 * 2 ^ 492) ∧ aged.homeImg (2 ^ 28 + 4) = some (77 + 6 * 2 ^ 492) ∧
    recOut (77 + 6 * 2 ^ 492) = false ∧ aged.homeOf (recKey (77 + 6 * 2 ^ 492)) = some (2 ^ 28 + 4) ∧
    aged.claimed (aged.flowHash 77) = false ∧ aged.tmplBody 6 aged.hueActive = some (6 * 2 ^ 60 + 100) ∧ recTmpl (77 + 6 * 2 ^ 492) = 6 ∧
    (100 : Int) ≤ wrapDiff 32 aged.seenNow (recSeen (77 + 6 * 2 ^ 492)) ∧
    (after (.sweeperVisit .good) aged).fsu.stash = [] ∧ (after (.sweeperVisit .good) aged).rd Objs.aged = 1 := by decide +kernel
theorem test_sweeperVisit_end :
    let s : State := { aged with fsu := { aged.fsu with sweepPos := 2 ^ 28 + 5 } }
    nextRec s s.fsu.sweepPos = none ∧ s.elapsed s.fsu.sweepStart (s.fsu.sweepLen * 1000000000) = true ∧
    (after (.sweeperVisit .good) s).fsu.sweepPos = 0 ∧ (after (.sweeperVisit .good) s).fsu.sweepStart = s.fNs := by decide +kernel

/-! ## Forwarding tables (chapter 10) -/

/-- A learn request for key 5 at port 7; W is at 10 s. -/
def learning (mac : Tab Nat) : State :=
  { z with tbl := { z.tbl with sort := [⟨5, 7, false, 7, 65536⟩], mac := mac }, time := { z.time with w := 10 * secUnits } }

/-- The slot of key 5. -/
def slot5 : Nat := ((after (.learnApply .good 0) (learning [])).macFind 5).getD 0

-- R284: a new key, the same port again, and a static entry elsewhere
theorem test_learnApply : ((learning []).rd Objs.learn_sort_window * 65536 : Nat) ≤ linDiff (toLin (learning []).time.w) 65536 ∧
    (learning []).macLocked 5 = false ∧
    (learning []).macFind 5 = none ∧ (learning []).rd Objs.learn_mode 7 ≠ 1 ∧ (after (.learnApply .good 0) (learning [])).tbl.sort = [] ∧
    ((after (.learnApply .good 0) (learning [])).tbl.mac.map (fun p => macPort p.2)) = [7] := by decide +kernel
theorem test_learnApply_found :
    let e := (tfind (after (.learnApply .good 0) (learning [])).tbl.mac slot5).getD 0
    let x := setFld (setFld e 7 1 1) 60 8 9
    let s := learning [(slot5, x)]
    (learning [(slot5, e)]).macFind 5 = some slot5 ∧ macPort e = 7 ∧ (after (.learnApply .good 0) (learning [(slot5, e)])).tbl.sort = [] ∧
    s.macFind 5 = some slot5 ∧ macStatic x = true ∧ macPort x ≠ 7 ∧ (after (.learnApply .good 0) s).rd Objs.static_violation = 1 ∧
    raised (after (.learnApply .good 0) s) = [(124, 0)] := by decide +kernel

-- R285: the entry of key 5 at port 8 moves to port 7, is held after its moves, and is not yet free to move
theorem test_learnApply_move :
    let e := (tfind (after (.learnApply .good 0) (learning [])).tbl.mac slot5).getD 0
    let x := setFld e 60 8 8
    let s := learning [(slot5, x)]
    let t := after (.learnApply .good 0) s
    let y := (tfind t.tbl.mac slot5).getD 0
    let h := obj [(Objs.move_hold, 0, 10000)] (learning [(slot5, setFld y 60 8 8)])
    s.macFind 5 = some slot5 ∧ macPort x = 8 ∧ macStatic x = false ∧ s.macHeld x (macTime 65536) = false ∧
    (macPort y, macMoves y, macMoveLast y, macMoveFirst y, macSeen y) = (7, 1, macTime 65536, macTime 65536, macTime 65536) ∧
    t.rd Objs.moves = 1 ∧ raised t = [(120, 0)] ∧ h.macHeld (setFld y 60 8 8) (macTime 65536) = true ∧
    (after (.learnApply .good 0) h).rd Objs.move_refused = 1 := by decide +kernel

/-- An aged entry in slot 4; W is at 1,000 s. -/
def macAged (sweep : Nat) : State :=
  { obj [(Objs.mac_age_limit, 0, 10)] z with tbl := { z.tbl with mac := [(4, 5 * 2 ^ 68)], sweepPos := sweep }, time := { z.time with w := 1000 * secUnits } }

-- R286
theorem test_macSweepVisit : (macAged 0).tbl.mac.find? (fun p => 0 ≤ p.1) = some (4, 5 * 2 ^ 68) ∧ macStatic (5 * 2 ^ 68) = false ∧
    (macUnits ((macAged 0).rd Objs.mac_age_limit * 1000000000) : Int) ≤ wrapDiff 16 (macAged 0).macNow (macSeen (5 * 2 ^ 68)) ∧
    (after (.macSweepVisit .good) (macAged 0)).tbl.mac = [] ∧ (after (.macSweepVisit .good) (macAged 0)).rd Objs.mac_aged = 1 := by decide +kernel
theorem test_macSweepVisit_end : (macAged 5).tbl.mac.find? (fun p => (macAged 5).tbl.sweepPos ≤ p.1) = none ∧
    (after (.macSweepVisit .good) (macAged 5)).tbl.sweepPos = 0 := by decide +kernel
-- R287
theorem test_macFlushPort : Accepted .sdp Objs.mac_flush_port 0 [7, 0] (fun _ s => refuseIf s.macFlushFull .busy) z ∧
    (after (.macFlushPort .sdp [7, 0]) z).tbl.flush = some ⟨7, some (.dict (ctxCode .sdp)), 0⟩ ∧
    (after (.macFlushPort .pcie [8, 0]) (after (.macFlushPort .sdp [7, 0]) z)).tbl.flushWait.map (·.port) = [8] := by decide +kernel
theorem test_macFlushDone :
    let s := after (.learnApply .good 0) (learning [])
    let t : State := { s with tbl := { s.tbl with flush := some ⟨7, none, 0⟩, flushWait := [⟨8, none, 0⟩] } }
    (after (.macFlushDone [] .good) t).tbl.mac = [] ∧ (after (.macFlushDone [] .good) t).tbl.flush = some ⟨8, none, 0⟩ ∧
    (after (.macFlushDone [] .good) t).rd Objs.mac_flushed = 1 := by decide +kernel
-- R298
theorem test_tableRewriteDone :
    let s : State := { z with tbl := { z.tbl with bad := [(badKey 0x15 3, true)] } }
    s.shadowRead 2 (badKey 0x15 3) .first ≠ .neither ∧ (after (.tableRewriteDone 0x15 3 true) s).tbl.bad = [] ∧ (after (.tableRewriteDone 0x15 3 false) s).tbl.bad = [(badKey 0x15 3, false)] ∧
    raised (after (.tableRewriteDone 0x15 3 false) s) = [(126, 0)] := by decide +kernel

/-! ## Traffic manager and fabric (chapter 11) -/

/-- A frame of 60 bytes from port 3 waits for TM_ADMIT; the operand gives the rest of its metadata. -/
def admitting (md : Nat) : State := { z with tm := { z.tm with items := [⟨9, 3 * 2 ^ 32 + md, 0, List.replicate 60 0x11, [], none⟩] } }

/-- To multicast group 6 in class 2. -/
def toGroup : Nat := 2 ^ 259 + 2 * 2 ^ 256 + 6 * 2 ^ 240

/-- To port 12 in class 2. -/
def toPort : Nat := 2 * 2 ^ 256 + 12 * 2 ^ 240

/-- The policer of number 4: two rates with 4,096-byte and 8,192-byte buckets, DROP_RED, and FILL at zero. -/
def polWord : Nat := 2 * 2 ^ 6 + 2 ^ 2 + 4096 * 2 ^ 112 + 8192 * 2 ^ 136 + 5 * 2 ^ 160 + 9 * 2 ^ 208

-- R304 to R311, R332
theorem test_tmAdmit_multicast :
    let s := admitting toGroup
    let id := voqId true 0 0 2
    fld (3 * 2 ^ 32 + toGroup) 320 12 = 0 ∧ bit (3 * 2 ^ 32 + toGroup) 259 = true ∧ (s.voq id).spilling = false ∧ (s.voq id).cells.length < s.rd Objs.spill_threshold ∧
    s.rd Objs.spill_pool_reserve ≤ s.rd Objs.pool_free 0 ∧ s.tm.items.length = 1 ∧
    1 ≤ s.rd Objs.pool_free 0 ∧ (s.voq id).cells.length + 1 ≤ s.rd Objs.voq_onchip_max ∧
    ((after (.tmAdmit false .good) s).voq id).cells.map (fun x => (x.item, x.cls, x.dst, x.data.length)) = [(0, 2, 6, 80)] ∧
    (after (.tmAdmit false .good) s).rd Objs.pool_free 0 = s.rd Objs.pool_free 0 - 1 := by decide +kernel
/-- An item to port 12 in class 2, with `free` cells in its pool; class 2 spills where `spills`. -/
def placing (spills : Bool) (free : Nat) : State :=
  obj [(Objs.pool_free, 0, free), (Objs.spill_pool_reserve, 0, 10), (Objs.spill_classes, 0, if spills then 4 else 0)] (admitting toPort)

-- R309, R310, R312: no room on chip; spilled; spilling under overload; no block left
theorem test_tmAdmit_placed :
    let it : TmItem := ⟨9, 3 * 2 ^ 32 + toPort, 0, List.replicate 60 0x11, [], none⟩
    let s := placing true 9
    let none := obj [(Objs.spill_max_blocks, 0, 0)] s
    let t := after (.tmAdmit false .good) s
    ¬ (placing false 0).itemSpills it ∧ (redColour ((placing false 0).itemRed it) 0).2.1 = 0 ∧
    (after (.tmAdmit false .good) (placing false 0)).rd Objs.pool_drop = 1 ∧ raised (after (.tmAdmit false .good) (placing false 0)) = [(134, 0)] ∧
    s.itemSpills it ∧ (t.voq (s.itemVoq it)).spilling = true ∧ (t.voq (s.itemVoq it)).spill.length = 1 ∧ (t.voq (s.itemVoq it)).cells = [] ∧
    t.rd Objs.cells_spilled = 1 ∧ t.rd Objs.spill_blocks_used = 1 ∧ t.rd Objs.pool_free = 9 ∧
    raised (after (.tmAdmit true .good) s) = [(135, 0)] ∧ none.itemSpills it ∧ raised (after (.tmAdmit false .good) none) = [(136, 0)] ∧
    (after (.tmAdmit false .good) none).rd Objs.spill_full_drop = 1 := by decide +kernel
-- R338: an average of MAX or more drops, one below MIN passes
theorem test_tmAdmit_red :
    let it : TmItem := ⟨9, 3 * 2 ^ 32 + toPort, 0, List.replicate 60 0x11, [], none⟩
    let s := fun avg => ({ admitting toPort with tm := { (admitting toPort).tm with redProf := [(0, 15 * 2 ^ 120 + 5 * 2 ^ 104 + 9 * 2 ^ 88)],
                                                                                     reds := [((admitting toPort).itemVoq it, ⟨avg, 0⟩)] } } : State)
    redColour ((s 0).itemRed it) 0 = (5, 9, 0) ∧ 9 * 65536 ≤ (s (9 * 65536 + 19)).itemAvg it ∧ (s (5 * 65536)).itemAvg it < 5 * 65536 ∧
    (after (.tmAdmit false .good) (s (9 * 65536 + 19))).rd Objs.red_drop 98 = 1 ∧ raised (after (.tmAdmit false .good) (s (9 * 65536 + 19))) = [(145, 12)] ∧
    (after (.tmAdmit false .good) (s (5 * 65536))).tm.nextItem = 1 ∧
    ((after (.tmAdmit false .good) (s (5 * 65536))).redAvg ((s 0).itemVoq it)).avg = (s (5 * 65536)).itemAvg it := by decide +kernel
-- R335: an empty bucket makes the packet red
theorem test_tmAdmit_policed :
    let s0 := admitting (toPort + 4 * 2 ^ 320)
    let s : State := { s0 with tm := { s0.tm with polCfg := [(4, polWord + 2 ^ 3)] } }
    (s.police 4 64 0).2.1 = true ∧ (after (.tmAdmit false .good) s).tm.items = [] ∧ (after (.tmAdmit false .good) s).tm.voqs = [] ∧
    ((after (.tmAdmit false .good) s).pol 4).redDrop = 1 ∧ ((after (.tmAdmit false .good) s).pol 4).red = 1 := by decide +kernel

-- R334, R336
theorem test_polConfigWrite :
    let s := z.wrCtx .sdp Objs.pol_select 0 4
    let v := leBytes Objs.pol_config.ty.size polWord
    Accepted .sdp Objs.pol_config 0 v polCheck s ∧ tget 0 (after (.polConfigWrite .sdp v) s).tm.polCfg 4 = polWord ∧
    ((after (.polConfigWrite .sdp v) s).pol 4).tc = 4096 * 2 ^ 32 ∧ ((after (.polConfigWrite .sdp v) s).pol 4).te = 8192 * 2 ^ 32 ∧
    answered Objs.pol_config 0 0 (after (.polConfigWrite .sdp v) s) = true ∧
    (after (.polConfigWrite .sdp (leBytes Objs.pol_config.ty.size (polWord + 1))) s).tm.polCfg = [] := by decide +kernel
-- R337: MAX below MIN is refused
theorem test_redProfileWrite :
    let s := z.wrCtx .sdp Objs.red_select 0 3
    let x := 2 * 2 ^ 104 + 3 * 2 ^ 88
    let bad := 3 * 2 ^ 104 + 3 * 2 ^ 88
    Accepted .sdp Objs.red_profile 0 (leBytes Objs.red_profile.ty.size x) redCheck s ∧
    tget 0 (after (.redProfileWrite .sdp (leBytes Objs.red_profile.ty.size x)) s).tm.redProf 3 = x ∧
    (after (.redProfileWrite .sdp (leBytes Objs.red_profile.ty.size bad)) s).tm.redProf = [] := by decide +kernel

/-- A cell of item 0 from station 0 to group 1 in class 2. -/
def cellTo1 (seq : Nat) : Cell := ⟨0, 0, true, true, false, false, 2, 0, 1, 12, seq, 0, List.replicate 76 0 ++ leBytes 4 (64 * 2 ^ 18), false⟩

/-- The VOQ of that cell. -/
def voq12 : Nat := voqId false 0 1 2

/-- The VOQ spills one cell, at slot 32 of block 0. -/
def spilled (fetching : Bool) (s : State) : State :=
  { s with tm := { s.tm with voqs := [(voq12, ⟨[], [⟨cellTo1 0, 0, 0, 32, fetching, false⟩], [⟨0, 0, 33⟩], true, 0, 1, false⟩)], used := [0] } }

-- R312
theorem test_spillRefill :
    let s := spilled false z
    (s.voq voq12).spilling = true ∧ (s.voq voq12).cells.length ≤ s.rd Objs.refill_level ∧ ((s.voq voq12).spill.filter (·.fetching)).length ≤ 64 ∧
    ((after (.spillRefill (BitVec.ofNat 16 voq12)) s).voq voq12).spill.map (·.fetching) = [true] := by decide +kernel

/-- The fetch has completed. -/
def fetched : State :=
  spilled true { z with hbm := { z.hbm with ctls := [(2, { HbmCtl.init with done := (List.range 4).map fun k => ⟨⟨1, 0x10000000 + 32 * k, spillTag voq12 0, false⟩, false⟩ })] } }

theorem test_spillFetchReturn :
    (takeDone (fetched.ctl (slotPc 32)).done 1 (spillTag voq12 0) 4).map (·.1) = some false ∧ (fetched.voq voq12).skipping = false ∧
    (fetched.voq voq12).spill.map (·.lost) = [false] ∧ 0 < fetched.rd Objs.pool_free (grpPipe (fld voq12 10 5)) ∧
    ((after (.spillFetchReturn (BitVec.ofNat 16 voq12) false) fetched).voq voq12).cells = [cellTo1 0] ∧
    ((after (.spillFetchReturn (BitVec.ofNat 16 voq12) false) fetched).voq voq12).spilling = false ∧
    (after (.spillFetchReturn (BitVec.ofNat 16 voq12) false) fetched).tm.used = [] ∧
    ((after (.spillFetchReturn (BitVec.ofNat 16 voq12) true) fetched).voq voq12).skipping = true ∧
    raised (after (.spillFetchReturn (BitVec.ofNat 16 voq12) true) fetched) = [(137, 0)] := by decide +kernel

/-- One cell in a VOQ of station 0. -/
def inVoq : State := { z with tm := { z.tm with voqs := [(voq12, ⟨[cellTo1 0], [], [], false, 5, 0, false⟩)] } }

-- R316, R317
theorem test_inputSlot : tget 0 inVoq.tm.sent1 0 ≠ inVoq.slotNo + 1 ∧ inVoq.middleIn 0 = true ∧ chooseVoq inVoq 0 0 = some (voq12, some 1) ∧
    (after (.inputSlot 0 .good) inVoq).tm.wire1.map (fun w => (w.slot, w.dest, w.cell.seq)) = [(2, 0, 5)] ∧
    ((after (.inputSlot 0 .good) inVoq).voq voq12).seq = 6 ∧ tget 0 (after (.inputSlot 0 .good) inVoq).tm.sent1 0 = 1 := by decide +kernel

/-- A cell has arrived at middle 0; slot 2 runs. -/
def atMiddle : State := { z with tm := { z.tm with wire1 := [⟨2, 0, cellTo1 5⟩] }, time := { z.time with ticks := 5 } }

-- R319, R320
theorem test_cellAtMiddle : (takeWire atMiddle.tm.wire1 0 atMiddle.slotNo).isSome = true ∧ atMiddle.middleIn 0 = true ∧
    (after (.cellAtMiddle 0 .good .good) atMiddle).mid 0 1 2 = [cellTo1 5] ∧ (after (.cellAtMiddle 0 .good .good) atMiddle).tm.wire1 = [] := by decide +kernel

/-- A cell waits in middle 0; in slot 1 that middle is connected to station 1. -/
def inMiddle : State := { z with tm := { z.tm with mids := [(midKey 0 1 2, [cellTo1 5])] }, time := { z.time with ticks := 3 } }

theorem test_middleSlot : inMiddle.slotNo = 1 ∧ inMiddle.middleIn 0 = true ∧ tget 0 inMiddle.tm.sent2 0 ≠ inMiddle.slotNo + 1 ∧ chooseMid inMiddle 0 (inMiddle.grpOf 1) = some 2 ∧
    inMiddle.mid 0 (inMiddle.grpOf 1) 2 = [cellTo1 5] ∧ (after (.middleSlot 0 .good false) inMiddle).tm.wire2 = [⟨3, 1, cellTo1 5⟩] ∧
    (after (.middleSlot 0 .good false) inMiddle).mid 0 1 2 = [] ∧ raised (after (.middleSlot 0 .good true) inMiddle) = [(141, 0)] := by decide +kernel

/-- A cell with a SEQ has arrived at station 1. -/
def atOutput (seq : Nat) : State :=
  { z with tm := { z.tm with wire2 := [⟨3, 1, cellTo1 seq⟩], reord := [(ctxKey 1 0 false 2, { Reord.init with e := 5 })] }, time := { z.time with ticks := 8 } }

-- R321
theorem test_cellAtOutput : (takeWire (atOutput 5).tm.wire2 1 (atOutput 5).slotNo).isSome = true ∧
    (atOutput 5).storeCells 1 < (atOutput 5).storeSize 1 ∧ (after (.cellAtOutput 1 .good) (atOutput 5)).tm.ready.map (fun r => (r.grp, r.item)) = [(1, 0)] ∧
    ((after (.cellAtOutput 1 .good) (atOutput 5)).reordCtx (ctxKey 1 0 false 2)).e = 6 ∧
    ((after (.cellAtOutput 1 .good) (atOutput 7)).reordCtx (ctxKey 1 0 false 2)).held = [cellTo1 7] ∧
    (after (.cellAtOutput 1 .good) (atOutput 4)).rd Objs.late_cells 1 = 1 := by decide +kernel

/-- One cell with SEQ 7 is held behind a gap since F = 0. -/
def gapped (ns : Nat) : State :=
  clock ns { z with tm := { z.tm with reord := [(ctxKey 1 0 false 2, ⟨5, [cellTo1 7], 0, some 0, none, []⟩)] } }

-- R322: the timer runs for fab_reorder_timeout
theorem test_fabReorderTimeout : lowestHeld ((gapped 250000).reordCtx (ctxKey 1 0 false 2)) = some (cellTo1 7) ∧
    skipDue (gapped 250000) ((gapped 250000).reordCtx (ctxKey 1 0 false 2)) 2 = true ∧
    skipDue (gapped 249999) ((gapped 249999).reordCtx (ctxKey 1 0 false 2)) 2 = false ∧
    (after (.fabReorderTimeout 1 0 2) (gapped 250000)).rd Objs.reorder_skips 1 = 1 ∧
    raised (after (.fabReorderTimeout 1 0 2) (gapped 250000)) = [(130, 1)] ∧
    ((after (.fabReorderTimeout 1 0 2) (gapped 250000)).reordCtx (ctxKey 1 0 false 2)).e = 8 := by decide +kernel

/-! ## Egress (chapter 12) -/

/-- A packet of group 0 in class 2 waits for step 11; port 0 is in a link state. -/
def readyFor (link : Nat) : State :=
  let s := obj [(Objs.link_state, 0, link)] up0
  { s with tm := { s.tm with ready := [⟨0, 4, 0, false, false, 2, 0, 0, List.replicate 60 0x11, 0, 1⟩], flights := [(4, ⟨9, 0, [], 3, 0, [0], none⟩)] } }

-- R341, R342
theorem test_egressAdmit : (tfind (readyFor 2).tm.flights 4).isSome = true ∧ (readyFor 2).link 0 = 2 ∧ ((readyFor 2).ep 0).queues.length = 8 ∧
    (((readyFor 2).ep 0).q 2).length < (readyFor 2).rd Objs.queue_max 2 ∧ (after (.egressAdmit 0 0 .good .good none) (readyFor 2)).tm.ready = [] ∧
    (((after (.egressAdmit 0 0 .good .good none) (readyFor 2)).ep 0).q 2).map (fun f => (f.body.length, f.cls, f.cells)) = [(60, 2, 1)] := by decide +kernel
theorem test_egressAdmit_down : (readyFor 1).link 0 = 1 ∧ (after (.egressAdmit 0 0 .good .good none) (readyFor 1)).rd Objs.tx_drop_down 0 = 1 ∧
    (after (.egressAdmit 0 0 .good .good none) (readyFor 1)).eg = (readyFor 1).eg ∧ (after (.egressAdmit 0 0 .good .good none) (readyFor 1)).tm.flights = [] := by decide +kernel

/-- A frame in step 12 with a launch field. -/
def egFrame (cls launch : Nat) : EgFrame := ⟨List.replicate 60 0x11, cls, cls == 8, 0, false, false, launch, 0, none, 0, 0, 1, false⟩

/-- Port 0 with its queues: express, queue 7, queue 6, and the calendar; queue 7 is strict. -/
def sending (expr q7 q6 cal : List EgFrame) : State :=
  (obj [(Objs.strict_count, 0, 1)] up0).setEp 0 { up0.ep 0 with queues := [[], [], [], [], [], [], q6, q7], expr := expr, cal := cal }

/-- A frame of the outbox: its port and length. -/
def sent (s : State) : List (Nat × Nat) :=
  s.outbox.filterMap (fun o =>
    match o with
    | .frame p b _ => some (p, b.length)
    | _ => none)

-- R343: the express frame, else the strict queue
theorem test_frameStart_express :
    let s := sending [egFrame 8 0] [egFrame 7 0] [egFrame 6 0] []
    s.isUp 0 = true ∧ s.txClosed 0 = false ∧ (s.ep 0).txE = none ∧ (s.ep 0).txP = none ∧ (s.ep 0).cal = [] ∧ stale s 0 (egFrame 8 0) = false ∧
    ((after (.frameStart 0 false 0 .good) s).ep 0).expr = [] ∧ ((after (.frameStart 0 false 0 .good) s).ep 0).q 7 = [egFrame 7 0] ∧
    sent (after (.frameStart 0 false 0 .good) s) = [(0, 64)] := by decide +kernel
theorem test_frameStart_strict :
    let s := sending [] [egFrame 7 0] [egFrame 6 0] []
    1 ≤ s.rd Objs.strict_count 0 ∧ preemptQueue s 0 7 = false ∧ eligible s 0 7 = true ∧ stale s 0 (egFrame 7 0) = false ∧
    ((after (.frameStart 0 false 0 .good) s).ep 0).q 7 = [] ∧ ((after (.frameStart 0 false 0 .good) s).ep 0).q 6 = [egFrame 6 0] ∧
    (after (.frameStart 0 false 0 .good) s).rd Objs.tx_queue_frames 7 = 1 ∧ (obj [(Objs.link_state, 0, 1)] s).isUp 0 = false := by decide +kernel
-- R378
theorem test_launchDue :
    let s := sending [] [] [] [{ egFrame 7 0 with late := true, launchValid := true }]
    headDue s 0 { egFrame 7 0 with late := true, launchValid := true } = true ∧ ((after (.launchDue 0 0) s).ep 0).cal = [] ∧
    sent (after (.launchDue 0 0) s) = [(0, 64)] := by decide +kernel

/-- A shaper of 10,000 bytes that starts full. -/
def shWord : Nat := 2 ^ 2 + 10000 * 2 ^ 56

-- R347
theorem test_shaperWrite_port :
    let v := leBytes Objs.port_shaper.ty.size shWord
    Accepted .sdp Objs.port_shaper 3 v shCheck z ∧ ((after (.shaperWrite .sdp 3 8 v) z).ep 3).psh.tok = 10000 * 2 ^ 32 ∧
    (after (.shaperWrite .sdp 3 8 v) z).rd Objs.port_shaper 3 = shWord := by decide +kernel
theorem test_shaperWrite_queue :
    let v := leBytes Objs.queue_shaper.ty.size shWord
    Accepted .sdp Objs.queue_shaper 29 v shCheck z ∧ 5 < (z.ep 3).qsh.length ∧ ((after (.shaperWrite .sdp 3 5 v) z).ep 3).sh 5 = ⟨10000 * 2 ^ 32, 0⟩ ∧
    (after (.shaperWrite .sdp 3 5 v) z).rd Objs.queue_shaper 29 = shWord := by decide +kernel
theorem test_queueWeightWrite :
    let v := leBytes Objs.queue_weight.ty.size 30
    Accepted .sdp Objs.queue_weight 29 v noCheck z ∧ (after (.queueWeightWrite .sdp 3 5 v) z).rd Objs.queue_weight 29 = 30 := by decide +kernel
theorem test_strictCountWrite :
    Accepted .sdp Objs.strict_count 3 [2] noCheck z ∧ (after (.strictCountWrite .sdp 3 [2]) z).rd Objs.strict_count 3 = 2 := by decide +kernel

/-! ## Time (chapter 13) -/

/-- The last tick of the first epoch has passed; domain 0 has an increment and a step pending. -/
def atEpoch : State :=
  { z with time := { z.time with ticks := 1280, a := 1000, trkA := { Tracker.init with pendInc := some 7, pendStep := [-400] } } }

-- R355, R371, R372
theorem test_epochBoundary : (atEpoch.time.epochs + 1) * epochTicks ≤ atEpoch.time.ticks ∧
    (after (.epochBoundary .none) atEpoch).time.epochs = 1 ∧ (after (.epochBoundary .none) atEpoch).time.a = 600 ∧
    (after (.epochBoundary .none) atEpoch).time.trkA.inc = 7 ∧ (after (.epochBoundary .none) atEpoch).time.history.length = 1 ∧
    z.time.ticks < (z.time.epochs + 1) * epochTicks ∧
    (after (.epochBoundary .none) { atEpoch with time := { atEpoch.time with wPend := some 44 } }).time.w = 44 * 2 ^ 40 := by decide +kernel
theorem test_epochBoundary_steps :
    let s : State := { atEpoch with time := { atEpoch.time with trkA := { Tracker.init with pendStep := [-400, 30] } } }
    (after (.epochBoundary .none) s).time.a = 630 ∧ ((after (.epochBoundary .none) s).trk 0).pendStep = [] := by decide +kernel
theorem test_epochBoundary_locked :
    let s := obj [(Objs.dom_state, 0, 3)] { atEpoch with time := { atEpoch.time with newLocked := 1 } }
    s.newDomain = some 0 ∧ s.rd Objs.w_state = 0 ∧ (after (.epochBoundary .none) s).rd Objs.w_state = 1 ∧
    (after (.epochBoundary .none) s).rd Objs.w_active = 0 ∧ (after (.epochBoundary .none) s).time.w = 600 := by decide +kernel

-- R369: the rows of the tracker's table at an epoch boundary
theorem test_epochBoundary_lock :
    let s := obj [(Objs.dom_state, 0, 2)] { atEpoch with time := { atEpoch.time with trkA := { Tracker.init with lockRun := 5000 } } }
    LockDue s 0 ∧ (after (.epochBoundary .none) s).rd Objs.dom_state 0 = 3 ∧ raised (after (.epochBoundary .none) s) = [(192, 0)] := by decide +kernel
theorem test_epochBoundary_plaus :
    let s := obj [(Objs.dom_state, 0, 3)] { atEpoch with time := { atEpoch.time with trkA := { Tracker.init with rejectRun := 5000 } } }
    PlausDue s 0 ∧ ¬ LockDue s 0 ∧ (after (.epochBoundary .none) s).rd Objs.dom_state 0 = 4 ∧
    raised (after (.epochBoundary .none) s) = [(194, 0)] := by decide +kernel
theorem test_epochBoundary_loss :
    let s := clock 60000000000 (obj [(Objs.dom_state, 0, 3)] atEpoch)
    (s.time.epochs + 1) * epochTicks ≤ s.time.ticks ∧ LossDue s 0 ∧ ¬ LockDue s 0 ∧ ¬ PlausDue s 0 ∧
    (after (.epochBoundary .none) s).rd Objs.dom_state 0 = 4 ∧ (raised (after (.epochBoundary .none) s)).contains (193, 0) = true := by decide +kernel

/-- 512 epochs have passed; W is SWITCHING to domain 0, which is 2^38 ahead of it. -/
def switching : State := obj [(Objs.w_state, 0, 2)] { z with time := { z.time with epochs := 512, a := 2 ^ 38 } }

-- R373, R375
theorem test_wUpdate : switching.time.wUpdates < switching.time.epochs / 512 ∧
    2 * |ctrDiff (switching.ctr (switching.rd Objs.w_active)) switching.time.w| ≤ 2 ^ 40 ∧
    (after .wUpdate switching).rd Objs.w_state = 1 ∧ raised (after .wUpdate switching) = [(198, 0)] ∧
    incNom < (after .wUpdate switching).time.incW ∧ (after .wUpdate (obj [(Objs.w_state, 0, 3)] switching)).time.incW = incNom := by decide +kernel

/-- Domain 1 is TRACKING without a sample for dom_loss_timeout. -/
def lossy : State := clock 60000000000 (obj [(Objs.dom_state, 1, 3)] z)

-- R369
theorem test_domLossTimeout : lossy.rd Objs.dom_mode 1 = 0 ∧ lossy.elapsed (lossy.trk 1).lastF (lossy.rd Objs.dom_loss_timeout 1 * 1000000) = true ∧
    (after (.domLossTimeout 1) lossy).rd Objs.dom_state 1 = 4 ∧ raised (after (.domLossTimeout 1) lossy) = [(193, 1)] := by decide +kernel
theorem test_domLossTimeout_early : z.elapsed (z.trk 1).lastF (z.rd Objs.dom_loss_timeout 1 * 1000000) = false ∧
    after (.domLossTimeout 1) z = z := by decide +kernel
-- R371
theorem test_domEnableWrite :
    Accepted .sdp Objs.dom_enable 1 [1] noCheck z ∧ z.rd Objs.dom_state 1 = 0 ∧ z.rd Objs.dom_mode 1 ≠ 1 ∧
    (after (.domEnableWrite .sdp 1 [1]) z).rd Objs.dom_state 1 = 1 ∧
    (after (.domEnableWrite .sdp 1 [0]) (after (.domEnableWrite .sdp 1 [1]) z)).rd Objs.dom_state 1 = 0 := by decide +kernel
-- R372
theorem test_wSelectWrite :
    let s := obj [(Objs.dom_state, 1, 3), (Objs.w_state, 0, 1)] z
    Accepted .sdp Objs.w_select 0 [1] wSelectCheck s ∧ s.rd Objs.w_active ≠ 1 ∧ (after (.wSelectWrite .sdp [1]) s).rd Objs.w_active = 1 ∧
    (after (.wSelectWrite .sdp [1]) s).rd Objs.w_state = 2 ∧ raised (after (.wSelectWrite .sdp [1]) s) = [(197, 0)] := by decide +kernel
theorem test_wSet :
    let v := leBytes Objs.w_set.ty.size (5 * 2 ^ 32 + 7)
    Accepted .sdp Objs.w_set 0 v wSetCheck z ∧ (after (.wSet .sdp v) z).time.wPend = some 5000000007 := by decide +kernel

/-- Domain 1 is in SOFTWARE mode. -/
def soft : State := obj [(Objs.dom_mode, 1, 1)] z

theorem test_domStep :
    let v := leBytes 8 (2 ^ 64 - 3)
    Accepted .sdp Objs.dom_step 1 v (softOnly 1) soft ∧ ((after (.domStep .sdp 1 v) soft).trk 1).pendStep = [-3 * 2 ^ 24] ∧
    ((after (.domStep .sdp 1 v) (after (.domStep .sdp 1 v) soft)).trk 1).pendStep = [-3 * 2 ^ 24, -3 * 2 ^ 24] := by decide +kernel
theorem test_domIncWrite :
    let v := leBytes Objs.dom_inc.ty.size incNom
    Accepted .sdp Objs.dom_inc 1 v (softOnly 1) soft ∧ ((after (.domIncWrite .sdp 1 v) soft).trk 1).pendInc = some incNom := by decide +kernel
theorem test_timeSnapshot :
    let s : State := { z with time := { z.time with f := 3 * secUnits + 5 * 2 ^ 40 } }
    Accepted .sdp Objs.time_snapshot 0 [1] noCheck s ∧ (after (.timeSnapshot .sdp [1]) s).rd Objs.snap_f = stamp96 (3 * secUnits + 5 * 2 ^ 40) ∧
    stamp96 (3 * secUnits + 5 * 2 ^ 40) = 3 * 2 ^ 48 + 5 * 2 ^ 16 := by decide +kernel

/-- Output 0 follows F at 1 Hz; F has just passed a second. -/
def ppsOn : State := { obj [(Objs.pps_mode, 0, 1), (Objs.pps_require_lock, 0, 0), (Objs.pps_source, 0, 0)] z with time := { z.time with f := secUnits } }

-- R381
theorem test_ppsEdge : ppsOn.rd Objs.pps_mode 0 = 1 ∧ ppsHeldLow ppsOn 0 = false ∧
    (ppsTime ppsOn 0 - (sourceInc ppsOn.time (ppsOn.rd Objs.pps_source 0) : Int)) / ((ppsPeriod (ppsOn.rd Objs.pps_rate 0) : Int) * 2 ^ 40) <
      ppsTime ppsOn 0 / ((ppsPeriod (ppsOn.rd Objs.pps_rate 0) : Int) * 2 ^ 40) ∧
    (after (.ppsEdge 0 true) ppsOn).time.ppsHigh = [true, false] ∧
    ppsHeldLow (obj [(Objs.pps_require_lock, 0, 1), (Objs.pps_source, 0, 3)] ppsOn) 0 = true := by decide +kernel

-- R382: PPS_OUT[0] is the clock of lane 9 divided by 2
theorem test_ppsEdge_rclk :
    let s := fun (n : Nat) => ({ obj [(Objs.pps_mode, 0, 2), (Objs.rclk_lane, 0, 9), (Objs.rclk_div, 0, 2)] z with
      ports := { z.ports with sig := 2 ^ 9 }, time := { z.time with rclkCount := [n, 0] } } : State)
    (s 0).rclkSignal 0 = true ∧ (after (.ppsEdge 0 true) (s 0)).time.rclkCount = [1, 0] ∧ (after (.ppsEdge 0 true) (s 0)).time.ppsHigh = [false, false] ∧
    (after (.ppsEdge 0 true) (s 1)).time.rclkCount = [0, 0] ∧ (after (.ppsEdge 0 true) (s 1)).time.ppsHigh = [true, false] := by decide +kernel
theorem test_ppsEdge_rclk_signal :
    let s : State := { obj [(Objs.pps_mode, 0, 2)] z with time := { z.time with ppsHigh := [true, true] } }
    s.rclkSignal 0 = false ∧ (after (.ppsEdge 0 true) s).time.ppsHigh = [false, true] := by decide +kernel

/-- Event pin 2 captures rising edges. -/
def evtOn (n : Nat) : State :=
  let s := obj [(Objs.evt_enable, 2, 1)] z
  { s with time := { s.time with evtFifo := [[], [], List.replicate n ⟨5, 0⟩, []] } }

-- R383
theorem test_evtInEdge : (evtOn 0).rd Objs.evt_edge 2 = 0 ∧ (evtOn 0).rd Objs.evt_filter 2 * 5 ≤ 100000 ∧
    ((after (.evtInEdge 2 false 100000) (evtOn 0)).time.evtFifo.map List.length) = [0, 0, 1, 0] ∧
    (after (.evtInEdge 2 false 100000) (evtOn 64)).rd Objs.evt_overflow 2 = 1 ∧
    (after (.evtInEdge 2 false 100000) (evtOn 64)).time.evtFifo = (evtOn 64).time.evtFifo := by decide +kernel
-- R558: two edges less than 100 ns apart; the filter has let both pass
theorem test_evtInEdge_soon :
    let s := clock 1000000 (evtOn 0)
    let t := after (.evtInEdge 2 false 100000) s
    s.evtTooSoon 2 ((s.fNs + wrapNs - 100000 / 5) % wrapNs) = false ∧ t.evtTooSoon 2 ((t.fNs + wrapNs - 100000 / 5) % wrapNs) = true ∧
    (after (.evtInEdge 2 false 100000) t).time.evtCount = [0, 0, 1, 0] ∧ (after (.evtInEdge 2 false 100000) t).rd Objs.evt_overflow 2 = 1 := by decide +kernel
theorem test_evtFifoRead : (evtOn 2).pathServed .sdp = true ∧ judgeRead .sdp Objs.evt_fifo (fun _ => .ok) (evtOn 2) = .ok ∧
    (after (.evtFifoRead .sdp 2) (evtOn 2)).time.evtFifo = (evtOn 1).time.evtFifo := by decide +kernel

/-! ## HBM (chapter 14) -/

/-- Pseudo-channel 5 in a state, with its controller. -/
def pc5 (st : Nat) (x : HbmCtl) : State := (obj [(Objs.hbm_state, 5, st)] z).setCtl 5 x

-- R392
theorem test_hbmTrainingDone : (pc5 0 HbmCtl.init).pcState 5 = 0 ∧ (pc5 0 HbmCtl.init).pcRetired 5 = false ∧ (pc5 0 HbmCtl.init).pcState 6 = 0 ∧
    0 ≤ (pc5 0 HbmCtl.init).sparesLeft (stackOf 5) ∧ (after (.hbmTrainingDone 5 true 0 []) (pc5 0 HbmCtl.init)).pcState 5 = 1 := by
  decide +kernel
theorem test_hbmTrainingDone_fails : (after (.hbmTrainingDone 5 false 0 []) (pc5 0 HbmCtl.init)).pcState 5 = 4 ∧
    (after (.hbmTrainingDone 5 false 0 []) (pc5 0 HbmCtl.init)).pcRetired 5 = true ∧
    raised (after (.hbmTrainingDone 5 false 0 []) (pc5 0 HbmCtl.init)) = [(165, 5)] ∧
    (obj [(Objs.hbm_retired_map, 0, 32)] (pc5 0 HbmCtl.init)).pcRetired 5 = true := by decide +kernel
-- R393, R394
theorem test_hbmRetrain :
    let s := clock 1024000 (pc5 1 { HbmCtl.init with openRow := [(3, 9)] })
    s.pcState 5 = 1 ∧ s.elapsed (s.ctl 5).lastRetrain (s.rd Objs.hbm_retrain_interval * 1000) = true ∧ (s.ctl 5).asleep = false ∧
    ((after (.hbmRetrain 5 true false) s).ctl 5).openRow = [] ∧ ((after (.hbmRetrain 5 true false) s).ctl 5).lastRetrain = 1024000 ∧
    (after (.hbmRetrain 5 false false) s).pcState 5 = 2 := by decide +kernel
theorem test_hbmRetrain_wakes :
    let s0 := pc5 1 { HbmCtl.init with asleep := true }
    let s := { s0 with eft := { s0.eft with phase := .restart } }
    (s.ctl 5).asleep = true ∧ s.pcState 5 = 1 ∧ ((after (.hbmRetrain 5 true false) s).ctl 5).asleep = false := by decide +kernel
-- A spare lane is there where the stack's fuses say so.
theorem test_spare_lane (h : 0 < (Config.spareLanes 0).toNat) : 1 ≤ (pc5 1 HbmCtl.init).sparesLeft (stackOf 5) ∧ stackOf 5 = 0 := by
  have e : tget 0 (pc5 1 HbmCtl.init).hbm.spares 0 = 0 := by decide +kernel
  have k : stackOf 5 = 0 := by decide
  refine ⟨?_, k⟩
  rw [State.sparesLeft, k, e]
  omega
-- R395
theorem test_hbmRefresh : ((after (.hbmRefresh 5) (pc5 1 { HbmCtl.init with nextBank := 47, openRow := [(47, 9)] })).ctl 5).nextBank = 0 ∧
    ((after (.hbmRefresh 5) (pc5 1 { HbmCtl.init with nextBank := 47, openRow := [(47, 9)] })).ctl 5).openRow = [] ∧
    (pc5 4 HbmCtl.init).pcState 5 = 4 := by decide +kernel
theorem test_hbmTempSample : 95 < toSigned 32 (96 : BitVec 32).toNat ∧ raised (after (.hbmTempSample 2 96) z) = [(172, 2)] ∧
    raised (after (.hbmTempSample 2 95) z) = [] := by decide +kernel

/-- A read of the flow store has been accepted. -/
def reading : State := pc5 1 { HbmCtl.init with rq := [⟨0, 64, 7, false⟩] }

-- R401, R404
theorem test_hbmReadComplete : (reading.ctl 5).turned.nextRead = some (0, ⟨0, 64, 7, false⟩) ∧ (reading.ctl 5).turned.writing = false ∧
    (reading.ctl 5).asleep = false ∧ reading.pcState 5 = 1 ∧
    ((after (.hbmReadComplete 5 ⟨.good, 0, 0⟩) reading).ctl 5).done = [⟨⟨0, 64, 7, false⟩, false⟩] ∧
    (after (.hbmReadComplete 5 ⟨.uncorrectable, 0, 0⟩) reading).pcState 5 = 2 ∧
    ((after (.hbmReadComplete 5 ⟨.uncorrectable, 0, 0⟩) reading).ctl 5).done = [⟨⟨0, 64, 7, false⟩, true⟩] := by decide +kernel
-- R402: a corrected burst waits to be written back, and the write goes out
theorem test_hbmReadComplete_corrected :
    let t := after (.hbmReadComplete 5 ⟨.corrected, 0, 0⟩) reading
    (t.ctl 5).fix = [64] ∧ t.rd Objs.hbm_ecc_corr 5 = 1 ∧ raised t = [(160, 5)] := by decide +kernel
-- R398: an open row goes first
theorem test_nextRead : ({ HbmCtl.init with rq := [⟨0, 64, 7, false⟩, ⟨0, 0x100000, 8, false⟩] }.opened 0x100000).nextRead =
    some (1, ⟨0, 0x100000, 8, false⟩) := by decide +kernel
-- R402, R403
theorem test_hbmCaParity : reading.pcState 5 = 1 ∧ (pc5 2 HbmCtl.init).pcState 5 ≠ 1 ∧ (after (.hbmCaParity 5 0 false 0) reading).pcState 5 = 2 ∧
    raised (after (.hbmCaParity 5 0 false 0) reading) = [(163, 5)] := by decide +kernel
theorem test_hbmQueueParity : (after (.hbmQueueParity 5 0) reading).pcState 5 = 2 ∧ raised (after (.hbmQueueParity 5 0) reading) = [(164, 5)] ∧
    (after (.hbmQueueParity 5 0) reading).rd Objs.hbm_freezes 5 = 1 := by decide +kernel
-- R398
theorem test_rowHoldExpiry :
    let s := clock 128 (pc5 1 { HbmCtl.init with held := [(7, 3, 0)] })
    (s.ctl 5).held.any (fun h => h.1 = 7 ∧ h.2.2 + 128 ≤ s.fNs) = true ∧ ((after (.rowHoldExpiry 5 7) s).ctl 5).held = [] ∧
    ((after (.rowHoldExpiry 5 7) (clock 127 s)).ctl 5).held = [(7, 3, 0)] := by decide +kernel
theorem test_hbmPatrolScrub :
    let s := clock 2000000000 (pc5 1 { HbmCtl.init with patrol := 4 })
    z.rd Objs.hbm_scrub_period ≠ 0 ∧ s.pcState 5 = 1 ∧
    s.elapsed (s.ctl 5).patrolStart ((s.ctl 5).patrol * (s.rd Objs.hbm_scrub_period * 1000000000) / pcBursts) = true ∧
    ((after (.hbmPatrolScrub 5) s).ctl 5).wait = [.read ⟨6, 128, 0, false⟩] ∧ ((after (.hbmPatrolScrub 5) s).ctl 5).patrol = 5 := by decide +kernel

-- R406
theorem test_hbmThaw : Accepted .sdp Objs.hbm_thaw 0 [5] thawCheck (pc5 2 HbmCtl.init) ∧
    (after (.hbmThaw .sdp [5]) (pc5 2 HbmCtl.init)).pcState 5 = 3 ∧ ((after (.hbmThaw .sdp [5]) (pc5 2 HbmCtl.init)).ctl 5).job = some .thaw ∧
    (after (.hbmThaw .sdp [5]) (pc5 1 HbmCtl.init)).pcState 5 = 1 := by decide +kernel
theorem test_hbmThawDone :
    let s := pc5 3 { HbmCtl.init with job := some .thaw }
    (s.ctl 5).job = some .thaw ∧ b2n false ≤ s.sparesLeft (stackOf 5) ∧ (after (.hbmThawDone 5 .passed false []) s).pcState 5 = 1 ∧
    raised (after (.hbmThawDone 5 .passed false []) s) = [(167, 5)] ∧ (after (.hbmThawDone 5 .retrainFailed false []) s).pcState 5 = 2 := by
  decide +kernel

/-- A target of a row repair: pseudo-channel 5, bank 9. -/
def pprAt (st : Nat) (job : Option HbmJob) : State :=
  obj [(Objs.hbm_ppr_target, 0, 5 * 2 ^ 24 + 9 * 2 ^ 16)] (pc5 st { HbmCtl.init with job := job })

-- R407
theorem test_hbmPprSoft : Accepted .sdp Objs.hbm_ppr 0 [1] pprCheck (pprAt 2 none) ∧
    ((after (.hbmPprSoft .sdp) (pprAt 2 none)).ctl 5).job = some (.pprSoft 9 0) ∧
    ((after (.hbmPprSoft .sdp) (pprAt 1 none)).ctl 5).job = none := by decide +kernel
theorem test_hbmPprDone : ((after (.hbmPprDone 5 true []) (pprAt 2 (some (.pprSoft 9 0)))).ctl 5).sppr = [9] ∧
    ((after (.hbmPprDone 5 true []) (pprAt 2 (some (.pprHard 9 0)))).ctl 5).hpprUsed = 1 ∧
    raised (after (.hbmPprDone 5 false []) (pprAt 2 (some (.pprHard 9 0)))) = [(171, 5)] := by decide +kernel
theorem test_hbmPprDone_marks : inRow 9 0 [9220] = [9216] ∧
    ((after (.hbmPprDone 5 true [9220]) (pprAt 2 (some (.pprSoft 9 0)))).ctl 5).marks = [9216] := by decide +kernel

/-- All pseudo-channels serve. -/
def swServed : State := obj ((List.range 128).map (fun p => (Objs.hbm_state, p, 1))) z

-- R417, R418: a write of four bytes across a burst boundary, and the bytes read back
theorem test_bar2Write : (swBursts 94 4).any (fun a => swServed.pcRefuses (swPc a)) = false ∧
    (List.range 6).map (fun k => swByte (after (.bar2Write 94 [1, 2, 3, 4]) swServed) (93 + k)) = [0, 1, 2, 3, 4, 0] := by decide +kernel
theorem test_bar2Write_frozen :
    let s := obj [(Objs.hbm_state, swPc 94, 2)] swServed
    (swBursts 94 4).any (fun a => s.pcRefuses (swPc a)) = true ∧ raised (after (.bar2Write 94 [1, 2, 3, 4]) s) = [(214, 0)] ∧
    (after (.bar2Write 94 [1, 2, 3, 4]) s).rd Objs.bar2_frozen = 1 := by decide +kernel
theorem test_bar2Read : 94 < swSize ∧ swSize < 2 ^ 35 ∧ swBursts 94 2 = [64] ∧
    ((after (.bar2Read 94 2) swServed).ctl (swPc 64)).wait = [.read ⟨4, swOff 64, 0, false⟩] ∧
    (after (.bar2Read 94 2) swServed).hbm.bar2 = [⟨0, 94, 2, [], 1, none⟩] ∧
    (after (.bar2Read 94 2) (obj [(Objs.hbm_state, swPc 94, 2)] swServed)).outbox = [.completion none] ∧
    (after (.bar2Read (BitVec.ofNat 35 swSize) 2) swServed).rd Objs.bar2_range_err = 1 := by decide +kernel

-- R417: a read behind a write that no controller has accepted yet waits, also one of a FROZEN pseudo-channel
theorem test_bar2Read_held :
    let s := after (.bar2Write 94 [1, 2, 3, 4]) swServed
    s.barWaits = true ∧ swServed.barWaits = false ∧ (after (.bar2Read 94 2) s).hbm.bar2Held = [.read 94 2] ∧ (after (.bar2Read 94 2) s).outbox = [] ∧
    (after (.bar2Write 0 [9]) (after (.bar2Read 94 2) s)).hbm.bar2Held = [.read 94 2, .write 0 [9]] := by decide +kernel

/-- A host read of two bytes at region offset 94 waits for its burst, which lies in the stack. -/
def bar2Waiting : State :=
  let s := swServed.setCtl (swPc 64) { HbmCtl.init with rq := [⟨4, swOff 64, 0, false⟩] }
  { s with hbm := { s.hbm with bar2 := [⟨0, 94, 2, [], 1, none⟩], bar2Tag := 1, sw := [(94, 7), (95, 9)] } }

theorem test_bar2Read_completes : (bar2Waiting.ctl (swPc 64)).turned.nextRead = some (0, ⟨4, swOff 64, 0, false⟩) ∧ swPc 64 = 0 ∧
    bar2Waiting.hbm.bar2.find? (fun x => x.tag = 0) = some ⟨0, 94, 2, [], 1, none⟩ ∧ 0x25000000 ≤ swOff 64 ∧
    (after (.hbmReadComplete 0 ⟨.good, 0, 0⟩) bar2Waiting).outbox = [.completion (some [7, 9])] := by decide +kernel
-- A hard repair is accepted where the stack has a resource left, which the device's fuses say.
theorem test_hbmPprHard (h : 0 < (Config.hpprStack 5).toNat) : Accepted .sdp Objs.hbm_ppr 0 [2] pprCheck (pprAt 2 none) := by
  refine ⟨by decide +kernel, ?_⟩
  have a : hpprAvail (pprAt 2 none) 5 ≠ 0 := by
    have hu : ((pprAt 2 none).ctl 5).hpprUsed = 0 := by decide +kernel
    simp only [hpprAvail, hu]
    omega
  have p : pprPc ((pprAt 2 none).rd Objs.hbm_ppr_target) = 5 := by decide +kernel
  have c : hbmCmdCheck 5 2 (pprAt 2 none) = .ok := by decide +kernel
  have hb : pprCheck 2 (pprAt 2 none) = .ok := by
    have one : ¬((2 : Nat) = 1) := by decide
    simp only [pprCheck, p, c, a, one, false_and, and_false, if_false]
  have hn : leNat [(2 : Byte)] = 2 := by decide
  simp only [judgeWrite, hn, hb]
  decide +kernel

/-! ## Object dictionary and management paths (chapter 16) -/

-- R446, R451: a stored value, a value out of range, an absent subindex
theorem test_dictWrite :
    let o := Objs.fab_reorder_timeout
    let v := leBytes 4 20000
    objAt 0x6000 0xc = some o ∧ instOf o 0x60000c = 0 ∧ ((writersOf o.idx).find? (fun p => p.1.idx == o.idx && p.1.sub == o.sub)).isNone = true ∧
    Accepted .sdp o 0 v noCheck z ∧ o.acc = .rw ∧ banked (o.key 0) = false ∧ pathLocal (o.key 0) = false ∧ 
    o.key 0 ≠ idKey ∧ (after (.dictWrite .sdp 0x6000 0xc v) z).rd o = 20000 ∧
    answered o 0 6 (after (.dictWrite .sdp 0x6000 0xc (leBytes 4 5)) z) = true ∧
    (after (.dictWrite .sdp 0x6000 0xc (leBytes 4 5)) z).rd o = 250000 := by decide +kernel
theorem test_dictWrite_absent : objAt 0x6000 0xEE = none ∧ z.pathServed .sdp = true ∧ 2 ≤ z.pathEnable .sdp ∧
    (after (.dictWrite .sdp 0x6000 0xEE [0]) z).outbox = [.answer .sdp 0x6000 0xEE 2 []] ∧
    (after (.dictWrite .sdp 0x0001 0x01 [0]) z).outbox = [.answer .sdp 0x0001 0x01 1 []] := by decide +kernel
-- R457: the last enabled path cannot be disabled
theorem test_pathEnableWrite : Accepted .sdp (pathObj 3) 0 [2] (pathCheck 3) z ∧ (after (.pathEnableWrite .sdp 3 [2]) z).rd Objs.path_can = 2 ∧
    pathCheck 4 0 (obj [(Objs.path_pcie, 0, 0), (Objs.path_oap_mgmt, 0, 0), (Objs.path_can, 0, 0)] z) = .state := by decide +kernel

theorem test_writeSide : ¬ writeSide (Objs.fab_reorder_timeout.key 0) := by
  rintro (h | h | h | ⟨c, h⟩)
  · exact absurd h (by decide +kernel)
  · exact absurd h (by decide +kernel)
  · exact absurd h (by decide +kernel)
  · have := h.symm
    simp only [Obj.key] at this
    omega

/-- The last value of fab_reorder_timeout has changed since the last save. -/
def dirty : State := after (.dictWrite .sdp 0x6000 0xc (leBytes 4 20000)) z

-- R458, R475
theorem test_save : Accepted .sdp Objs.save 0 [1] noCheck dirty ∧ dirty.rd Objs.n_dirty = 1 ∧ (after (.save .sdp) dirty).eft.saving.length = 1 ∧
    ((after (.save .sdp) dirty).eft.saving.map (·.ctx)) = [ctxCode .sdp] := by decide +kernel
theorem test_saveDone :
    let s := after (.save .sdp) dirty
    s.eft.saving.length = 1 ∧ (after (.saveDone true) s).eft.saving = [] ∧ (after (.saveDone true) s).newestBank.map (·.1) = some 0 ∧
    (after (.saveDone true) s).newestBank.map (fun b => tfind b.2.image.objs (Objs.fab_reorder_timeout.key 0)) = some (some 20000) ∧
    (after (.saveDone true) s).rd Objs.n_dirty = 0 ∧ (after (.saveDone false) s).newestBank = none := by decide +kernel
theorem test_erase : Accepted .sdp Objs.save 0 [2] noCheck dirty ∧
    (after (.erase .sdp) (after (.saveDone true) (after (.save .sdp) dirty))).newestBank = none := by decide +kernel

-- R451: a value of a wrong length
theorem test_refused_length : z.pathServed .sdp = true ∧ judgeWrite .sdp Objs.admin_up 3 [0, 0] noCheck z ≠ .ok ∧
    answered Objs.admin_up 3 10 (after (.adminUpWrite .sdp 3 [0, 0]) z) = true := by decide +kernel

/-- A request of 16 bytes without items. -/
def pdu (version opcode seq dev : Nat) : List Byte :=
  [BitVec.ofNat 8 version, BitVec.ofNat 8 opcode, 0, 0] ++ beBytes 4 seq ++ [0, 0, 0, 16] ++ beBytes 2 dev ++ [0, 0]

/-- What a doorbell at reset executes. -/
def held (r : List Byte) : List Byte := mbPdu (mbOverlay z.dict.mbRequest 0 r)

/-- The mailbox once a tick has completed the response. -/
def replied (r : List Byte) (ctrl : BitVec 8) : State := (after (.mbDoorbell r ctrl) z).mbTick

-- R465, R469: a wrong version, a response in a request's place, and a doorbell while BUSY
theorem test_mbDoorbell : z.pathServed .pcie = true ∧ z.dict.mbStatus ≠ 1 ∧
    (after (.mbDoorbell (pdu 1 1 9 0) 0x85) { z with dict := { z.dict with mbStatus := 1 } }).rd Objs.mb_ignored = 2 ∧
    (after (.mbDoorbell [] 0x85) { z with dict := { z.dict with mbStatus := 1 } }).rd Objs.mb_ignored = 1 ∧
    judgePdu none (held (pdu 2 1 9 0)) = .error 1 ∧ judgePdu none (held (pdu 1 2 9 0)) = .discard ∧
    (after (.mbDoorbell (pdu 2 1 9 0) 0x85) z).dict.mbStatus = 1 ∧ (replied (pdu 2 1 9 0) 0x85).dict.mbStatus = 2 ∧
    (replied (pdu 2 1 9 0) 0x85).host.msixPending = 2 ^ 5 ∧ (replied (pdu 2 1 9 0) 0x05).outbox = [] ∧ (replied (pdu 1 2 9 0) 0x85).dict.mbStatus = 0 ∧
    (replied (pdu 1 2 9 0) 0x85).rd Objs.oap_drop = 1 := by decide +kernel
-- R440, R469: HALTED holds the interrupt pending; an entry that is not masked sends it
theorem test_mbTick_halted :
    let t : State := { z with dict := { (obj [(Objs.hi_state, 0, 1)] z).dict with mbStatus := 1, mbRun := [1], mbCtrl := 0x85 } }
    t.rd Objs.hi_state = 1 ∧ t.mbTick.outbox = [] ∧ t.mbTick.host.msixPending = 2 ^ 5 ∧ t.mbTick.dict.mbStatus = 2 ∧
    ({ t with dict := { z.dict with mbStatus := 1, mbRun := [1], mbCtrl := 0x85 }, host := { z.host with msixTab := [(5, 7)] } } : State).mbTick.outbox =
      [.msix 5 7 0] := by decide +kernel

/-- A request of one item. -/
def pdu1 (seq op sub idx : Nat) (v : List Byte) : List Byte :=
  [1, 1, 0, 0] ++ beBytes 4 seq ++ [0, 1] ++ beBytes 2 (24 + pad4 v.length) ++ [0xFF, 0xFF, 0, 0] ++
    [BitVec.ofNat 8 op, BitVec.ofNat 8 sub] ++ beBytes 2 idx ++ [0, 0] ++ beBytes 2 v.length ++ padTo 0 (pad4 v.length) v

/-- The state in which the items of a mailbox request run. -/
def boxed (r : List Byte) : State := { z with dict := { z.dict with mbRequest := mbOverlay z.dict.mbRequest 0 r, mbCtrl := 5, mbStatus := 1 } }

-- R453, R464, R469
theorem test_mbDoorbell_read :
    let o := Objs.fab_reorder_timeout
    let r := pdu1 9 1 0xc 0x6000 []
    judgePdu none (held r) = .items [⟨1, 0xc, 0x6000, []⟩] ∧ ReadsAt .pcie o 0x6000 0xc (boxed r) ∧
    readBytes .pcie o 0x6000 0xc (boxed r) = leBytes 4 250000 ∧ (after (.mbDoorbell r 5) z).dict.mbStatus = 1 ∧
    (replied r 5).dict.mbResponse =
      [1, 2, 0, 0, 0, 0, 0, 9, 0, 1, 0, 28] ++ beBytes 2 z.devId ++ [0, 0, 1, 0xc, 0x60, 0, 0, 0, 0, 4, 0x90, 0xD0, 3, 0] := by decide +kernel
theorem test_mbDoorbell_write :
    let r := pdu1 9 2 0xc 0x6000 (leBytes 4 20000)
    judgePdu none (held r) = .items [⟨2, 0xc, 0x6000, leBytes 4 20000⟩] ∧
    (replied r 5).dict.mbResponse =
      [1, 2, 0, 0, 0, 0, 0, 9, 0, 1, 0, 24] ++ beBytes 2 z.devId ++ [0, 0, 2, 0xc, 0x60, 0, 0, 0, 0, 0] ∧
    (after (.mbDoorbell r 5) z).rd Objs.fab_reorder_timeout = 20000 := by decide +kernel

theorem plainWrite_timeout (c : Ctx) (hc : (ownEnable c).key 0 ≠ Objs.fab_reorder_timeout.key 0) (s : State)
    (h : Accepted c Objs.fab_reorder_timeout 0 (leBytes 4 20000) noCheck s) :
    PlainWrite c Objs.fab_reorder_timeout 0x6000 0xc (leBytes 4 20000) s := by
  have i : instOf Objs.fab_reorder_timeout (0x6000 * 256 + 0xc) = 0 := by decide +kernel
  simp only [PlainWrite, i]
  exact ⟨by decide +kernel, by decide +kernel, h, by decide +kernel, by decide +kernel, by decide +kernel, test_writeSide, by decide +kernel, hc.symm⟩
theorem test_mbDoorbell_plain :
    PlainWrite .pcie Objs.fab_reorder_timeout 0x6000 0xc (leBytes 4 20000) (boxed (pdu1 9 2 0xc 0x6000 (leBytes 4 20000))) :=
  plainWrite_timeout _ (by decide +kernel) _ (by decide +kernel)

-- R457: a request that would leave every path DISABLED
theorem test_runItems_disable :
    let s := obj [(Objs.path_oap_mgmt, 0, 0), (Objs.path_can, 0, 0)] z
    let off := fun (k : Nat) => (⟨2, k, 0x1F00, [0]⟩ : Item)
    ((runItems .pcie 2 [off 1, off 5] 2 [] s).1.map (fun l => l.map (·.code))) = some [0, 7] ∧
    (runItems .pcie 2 [off 1, off 5] 2 [] s).2.rd Objs.path_pcie = 0 ∧ (runItems .pcie 2 [off 1, off 5] 2 [] s).2.rd Objs.path_sdp = 2 := by
  decide +kernel

/-- The address 10.0.0.9 of a device. -/
def addressed : State := obj [(Objs.mgmt_mac, 0, 0x665544332202), (Objs.mgmt_ipv4, 0, 0x0A000009)] z

/-- The start of a frame to it. -/
def mgmtHead (et : Nat) : List Byte := leBytes 6 0x665544332202 ++ [2, 0, 0, 0, 0, 7] ++ beBytes 2 et

/-- An ARP request for it from 10.0.0.7. -/
def arpAsk : List Byte := [0, 1, 8, 0, 6, 4, 0, 1] ++ [2, 0, 0, 0, 0, 7] ++ [10, 0, 0, 7] ++ [0, 0, 0, 0, 0, 0] ++ [10, 0, 0, 9]

-- R461
theorem test_oapArpRequest : addressed.pathServed (.oapMgmt 0) = true ∧ (mgmtHead 0x0806).take 6 = addressed.macBytes Objs.mgmt_mac ∧
    mgmtPayload (mgmtHead 0x0806 ++ arpAsk) = some (0x0806, arpAsk) ∧ arpOf arpAsk = some (0x020000000007, 0x0A000007, 0x0A000009) ∧
    (after (.oapArpRequest 1 (mgmtHead 0x0806 ++ arpAsk)) addressed).outbox =
      [.mgmt 1 0x020000000007 0x0A000007 0 ([0, 1, 8, 0, 6, 4, 0, 2, 0x02, 0x22, 0x33, 0x44, 0x55, 0x66, 10, 0, 0, 9, 2, 0, 0, 0, 0, 7, 10, 0, 0, 7])] := by
  decide +kernel

/-- A datagram from port 5000 of 10.0.0.7 to port 47560. -/
def datagram (p : List Byte) : List Byte :=
  [0x45, 0] ++ beBytes 2 (28 + p.length) ++ [0, 0, 0, 0, 64, 17, 0, 0, 10, 0, 0, 7, 10, 0, 0, 9] ++ beBytes 2 5000 ++ beBytes 2 47560 ++
    beBytes 2 (8 + p.length) ++ [0, 0] ++ p

/-- A session of that sender whose last request had SEQ 9. -/
def inSession : State := { addressed with dict := { addressed.dict with sessMgmt := [(3, ⟨0x0A000007, 5000, 9, [1, 2, 3], 0⟩)] } }

-- R466: the error, and the answer sent again
theorem test_oapRequest : udpOf (datagram (pdu 2 1 9 0xFFFF)) = some (0x0A000007, 0x0A000009, 5000, oapPort, pdu 2 1 9 0xFFFF) ∧
    inSession.oapEnable .mgmt ≠ 0 ∧ (oapLimit .mgmt inSession).isSome = true ∧ judgePdu (some inSession.devId) (pdu 2 1 9 0xFFFF) = .error 1 ∧
    (after (.oapRequest 1 (mgmtHead 0x0800 ++ datagram (pdu 2 1 9 0xFFFF))) inSession).outbox.length = 1 ∧
    (judgePdu (some inSession.devId) (pdu 1 1 9 0xFFFF)) = .items [] ∧ (inSession.sessionOf .mgmt 0x0A000007 5000).isSome = true ∧
    (after (.oapRequest 1 (mgmtHead 0x0800 ++ datagram (pdu 1 1 9 0xFFFF))) inSession).outbox = [.mgmt 1 0x020000000007 0x0A000007 5000 [1, 2, 3]] ∧
    (after (.oapRequest 1 (mgmtHead 0x0800 ++ datagram (pdu 1 1 9 0xFFFF))) inSession).rd Objs.oap_resent = 1 := by decide +kernel
-- R464, R466: a new request of the session
theorem test_oapRequest_read :
    let q := pdu1 10 1 0xc 0x6000 []
    let w := inSession.setSessions .mgmt (tput 3 ⟨0x0A000007, 5000, 10, [], 0⟩ (inSession.sessions .mgmt))
    let t := after (.oapRequest 1 (mgmtHead 0x0800 ++ datagram q)) inSession
    (inSession.sessionOf .mgmt 0x0A000007 5000).map (·.1) = some 3 ∧ later 32 10 9 = true ∧
    judgePdu (some inSession.devId) q = .items [⟨1, 0xc, 0x6000, []⟩] ∧ ReadsAt (.oapMgmt 3) Objs.fab_reorder_timeout 0x6000 0xc w ∧
    t.outbox.length = 1 ∧ (tfind t.dict.sessMgmt 3).map (fun x => (x.lastSeq, x.lastResp.length)) = some (10, 28) := by decide +kernel
theorem test_oapRequest_write :
    let q := pdu1 10 2 0xc 0x6000 (leBytes 4 20000)
    let t := after (.oapRequest 1 (mgmtHead 0x0800 ++ datagram q)) addressed
    addressed.sessionOf .mgmt 0x0A000007 5000 = none ∧ (List.range 8).find? (fun n => (tfind (addressed.sessions .mgmt) n).isNone) = some 0 ∧
    judgePdu (some addressed.devId) q = .items [⟨2, 0xc, 0x6000, leBytes 4 20000⟩] ∧
    Accepted (.oapMgmt 0) Objs.fab_reorder_timeout 0 (leBytes 4 20000) noCheck
      (addressed.setSessions .mgmt (tput 0 ⟨0x0A000007, 5000, 10, [], 0⟩ (addressed.sessions .mgmt))) ∧
    t.outbox.length = 1 ∧ t.rd Objs.fab_reorder_timeout = 20000 := by decide +kernel
theorem test_oapRequest_plain : PlainWrite (.oapMgmt 0) Objs.fab_reorder_timeout 0x6000 0xc (leBytes 4 20000)
    (addressed.setSessions .mgmt (tput 0 ⟨0x0A000007, 5000, 10, [], 0⟩ (addressed.sessions .mgmt))) :=
  plainWrite_timeout _ (by decide +kernel) _ (by decide +kernel)
-- R467
theorem test_oapSessionExpiry :
    let s := clock (inSession.rd Objs.oap_session_timeout * 1000000000) inSession
    s.elapsed 0 (s.rd Objs.oap_session_timeout * 1000000000) = true ∧ (after (.oapSessionExpiry false 3) s).dict.sessMgmt = [] ∧
    inSession.elapsed 0 (inSession.rd Objs.oap_session_timeout * 1000000000) = false ∧
    (after (.oapSessionExpiry false 3) inSession).dict.sessMgmt.length = 1 := by decide +kernel

/-- The COB-ID of the server's requests. -/
def sdoId : BitVec 11 := BitVec.ofNat 11 z.sdoRx

-- R470 to R472
theorem test_sdoRequest : z.eft.phase ≠ .off ∧ sdoId.toNat = z.sdoRx ∧ (0 : BitVec 11).toNat ≠ z.sdoRx ∧ (0 : BitVec 11).toNat ≠ z.sdoTx ∧
    (after (.sdoRequest sdoId true [1]) z).rd Objs.can_drop = 1 ∧ z.pathEnable .can ≠ 0 ∧
    (after (.sdoRequest sdoId false [0xE0, 1, 0x10, 4, 0, 0, 0, 0]) z).outbox = [.can z.sdoTx [0x80, 1, 0x10, 4, 1, 0, 4, 5]] ∧
    (after (.sdoRequest sdoId false [0xE0, 1, 0x10, 4, 0, 0, 0, 0]) z).rd Objs.sdo_aborts = 1 ∧
    (after (.sdoRequest sdoId false [0xE0, 1, 0x10, 4, 0, 0, 0, 0]) (obj [(Objs.path_can, 0, 0)] z)).outbox =
      [.can z.sdoTx [0x80, 1, 0x10, 4, 0x21, 0, 0, 8]] := by decide +kernel
theorem test_sdoRequest_abort :
    let s : State := { z with dict := { z.dict with sdo := some ⟨true, 0x1010, 4, false, [1, 2], 0⟩ } }
    (after (.sdoRequest sdoId false [0x80, 1, 0x10, 4, 0, 0, 0, 0]) s).dict.sdo = none ∧
    (after (.sdoRequest sdoId false [0x80, 1, 0x10, 4, 0, 0, 0, 0]) s).outbox = [] := by decide +kernel
-- R471: an upload and a download in one frame
/-- The SDO path may write. -/
def canRw : State := obj [(Objs.path_can, 0, 2)] z

theorem test_sdo_expedited :
    fld (0x40 : Byte).toNat 5 3 = 2 ∧ ReadsAt .can Objs.fab_reorder_timeout 0x6000 0xc (sdoIdle canRw) ∧
    (after (.sdoRequest sdoId false [0x40, 0, 0x60, 0xc, 0, 0, 0, 0]) canRw).outbox = [.can canRw.sdoTx [0x43, 0, 0x60, 0xc, 0x90, 0xD0, 3, 0]] ∧
    fld (0x23 : Byte).toNat 5 3 = 1 ∧ bit (0x23 : Byte).toNat 1 = true ∧
    slice [0x23, 0, 0x60, 0xc, 0x20, 0x4E, 0, 0] 4 4 = leBytes 4 20000 ∧
    (after (.sdoRequest sdoId false [0x23, 0, 0x60, 0xc, 0x20, 0x4E, 0, 0]) canRw).outbox = [.can canRw.sdoTx [0x60, 0, 0x60, 0xc, 0, 0, 0, 0]] ∧
    (after (.sdoRequest sdoId false [0x23, 0, 0x60, 0xc, 0x20, 0x4E, 0, 0]) canRw).rd Objs.fab_reorder_timeout = 20000 := by decide +kernel
theorem test_sdo_plain : PlainWrite .can Objs.fab_reorder_timeout 0x6000 0xc (leBytes 4 20000) (sdoIdle canRw) :=
  plainWrite_timeout _ (by decide +kernel) _ (by decide +kernel)

/-- A transfer of fab_reorder_timeout in segments runs. -/
def segmented (up : Bool) (data : List Byte) : State := { canRw with dict := { canRw.dict with sdo := some ⟨up, 0x6000, 0xc, false, data, 0⟩ } }

-- R472: a download and an upload in segments
theorem test_sdo_segments :
    (after (.sdoRequest sdoId false [0x21, 0, 0x60, 0xc, 4, 0, 0, 0]) canRw).dict.sdo = some ⟨false, 0x6000, 0xc, false, [], 0⟩ ∧
    (after (.sdoRequest sdoId false [0x0A, 0x20, 0x4E, 0, 0, 0, 0, 0]) (segmented false [])).dict.sdo =
      some ⟨false, 0x6000, 0xc, true, [0x20, 0x4E], 0⟩ ∧
    (after (.sdoRequest sdoId false [0x0B, 0, 0, 0, 0, 0, 0, 0]) (segmented false [0x20, 0x4E])).rd Objs.fab_reorder_timeout = 20000 ∧
    (after (.sdoRequest sdoId false [0x0B, 0, 0, 0, 0, 0, 0, 0]) (segmented false [0x20, 0x4E])).outbox =
      [.can canRw.sdoTx [0x20, 0, 0, 0, 0, 0, 0, 0]] ∧
    (after (.sdoRequest sdoId false [0x60, 0, 0, 0, 0, 0, 0, 0]) (segmented true (List.replicate 9 7))).outbox =
      [.can canRw.sdoTx [0, 7, 7, 7, 7, 7, 7, 7]] ∧
    (after (.sdoRequest sdoId false [0x60, 0, 0, 0, 0, 0, 0, 0]) (segmented true [1, 2])).outbox =
      [.can canRw.sdoTx [0x0B, 1, 2, 0, 0, 0, 0, 0]] := by decide +kernel
theorem test_sdo_segment_plain : [0x20, 0x4E] ++ slice [0x0B, 0, 0, 0, 0, 0, 0, 0] 1 (7 - fld (0x0B : Byte).toNat 1 3) = leBytes 4 20000 ∧
    PlainWrite .can Objs.fab_reorder_timeout 0x6000 0xc (leBytes 4 20000) (sdoIdle (segmented false [0x20, 0x4E])) :=
  ⟨by decide +kernel, plainWrite_timeout _ (by decide +kernel) _ (by decide +kernel)⟩
-- R473
theorem test_sdoSegmentTimeout :
    let s : State := { z with dict := { z.dict with sdo := some ⟨true, 0x1010, 4, false, [1, 2], 0⟩ }, eft := { z.eft with ticks := 10 ^ 12 } }
    s.eftElapsed 0 (s.rd Objs.sdo_timeout * 1000000) = true ∧ (after .sdoSegmentTimeout s).dict.sdo = none ∧
    (after .sdoSegmentTimeout s).outbox = [.can s.sdoTx [0x80, 0x10, 0x10, 4, 0, 0, 4, 5]] := by decide +kernel

/-! ## TAP (chapter 20) -/

-- R561 to R563: what the instruction register captures comes out first; a bit passes the bypass register
theorem test_tap : z.tapServed = true ∧ (after .idcode z).outbox = [.tapIr 1, .tap 0x132007A5] ∧
    (after .tapReset (after (.bypass 0xFF [true, false, true]) z)).dbg.ir = 2 ∧
    (after (.bypass 0xFF [true, false, true]) z).outbox = [.tapIr 1, .tapBits [false, true, false]] ∧
    (after (.bypass 0xFF [true, false, true]) z).dbg.bypass = true ∧ (after (.bypass 0x7A []) z).dbg.ir = 0x7A ∧ (after (.bypass 0x10 [true]) z) = z ∧
    (after (.extest [true, false]) z).dbg.ir = 0 ∧ (after (.samplePreload [true, false]) z).dbg.ir = 1 ∧
    (after (.samplePreload [true, false]) z).dbg.boundary = [true, false] ∧
    ({ z with eft := { z.eft with pwrEn := 3 } } : State).tapServed = false := by decide +kernel
-- R564
theorem test_dict_register :
    let s : State := { z with dbg := { z.dbg with state := 2, request := [7], response := [0x41, 0x42], respAt := 1 } }
    (after .dictStatus s).outbox = [.tapIr 1, .tap 0x2000] ∧ (after (.dictPut 9) s).dbg.request = [9] ∧ (after (.dictPut 9) s).dbg.state = 0 ∧
    (after (.dictPut 8) (after (.dictPut 9) s)).dbg.request = [9, 8] ∧ s.dbg.response[s.dbg.respAt]? = some 0x42 ∧
    (after .dictGet s).outbox = [.tapIr 1, .tap 0x2042] ∧ (after .dictGet s).dbg.respAt = 2 := by decide +kernel
theorem test_dictGo :
    let s : State := { z with dbg := { z.dbg with request := pdu 2 1 9 0 } }
    s.dbg.state ≠ 1 ∧ s.pathServed .sdp = true ∧ judgePdu none s.dbg.request = .error 1 ∧ (after .dictGo s).dbg.state = 1 ∧
    (after .dictGo s).sdpTick.dbg.state = 2 ∧ (after .dictGo s).dbg.response.length = 20 := by decide +kernel
-- R464, R564: GO executes a request of one item
theorem test_dictGo_items :
    let s := fun (r : List Byte) => ({ z with dbg := { z.dbg with request := r } } : State)
    let ran := fun (r : List Byte) => ({ s r with dbg := { (s r).dbg with ir := 0x10, respAt := 0, response := [] } } : State)
    let q := pdu1 9 1 0xc 0x6000 []
    let w := pdu1 9 2 0xc 0x6000 (leBytes 4 20000)
    judgePdu none q = .items [⟨1, 0xc, 0x6000, []⟩] ∧ ReadsAt .sdp Objs.fab_reorder_timeout 0x6000 0xc (ran q) ∧
    (after .dictGo (s q)).dbg.response.length = 28 ∧ judgePdu none w = .items [⟨2, 0xc, 0x6000, leBytes 4 20000⟩] ∧
    Accepted .sdp Objs.fab_reorder_timeout 0 (leBytes 4 20000) noCheck (ran w) ∧ (after .dictGo (s w)).dbg.state = 1 ∧
    (after .dictGo (s w)).rd Objs.fab_reorder_timeout = 20000 := by decide +kernel
theorem test_dictGo_plain (s : State) (h : Accepted .sdp Objs.fab_reorder_timeout 0 (leBytes 4 20000) noCheck s) :
    PlainWrite .sdp Objs.fab_reorder_timeout 0x6000 0xc (leBytes 4 20000) s :=
  plainWrite_timeout _ (by decide +kernel) _ h

/-! ## Stream port (chapter 17) -/

/-- The stream port is on, aligned, and channel 4 is XON with one record of `n` bytes. -/
def streaming (n : Nat) : State :=
  let s := obj [(Objs.str_enable, 0, 1), (Objs.str_link_state, 0, 2), (Objs.str_lane_lock, 0, 255)] z
  { s with str := { s.str with fcLost := false, deskewed := true, xon := 2 ^ 4, chans := [(4, ⟨[⟨List.replicate n 0x33, .none, 0, [], false⟩], 0, 0, 0⟩)] } }

-- R478, R487
theorem test_strEnableWrite : Accepted .sdp Objs.str_enable 0 [1] noCheck z ∧ (after (.strEnableWrite .sdp [1]) z).rd Objs.str_link_state = 1 ∧
    z.rd Objs.str_enable = 0 ∧ z.rd Objs.journal_channel ≠ 4 ∧
    (after (.strEnableWrite .sdp [1]) (obj [(Objs.str_chan_seq, 4, 9)] z)).rd Objs.str_chan_seq 4 = 0 ∧
    (after (.strEnableWrite .sdp [0]) (streaming 9)).rd Objs.str_link_state = 0 := by decide +kernel
theorem test_strLaneLockChange : (streaming 9).rd Objs.str_enable ≠ 0 ∧ (streaming 9).rd Objs.str_link_state = 2 ∧
    (after (.strLaneLockChange 127 true) (streaming 9)).rd Objs.str_link_state = 1 ∧
    raised (after (.strLaneLockChange 127 true) (streaming 9)) = [(224, 0)] := by decide +kernel
-- R480, R481
theorem test_fcControlWord :
    let s := obj [(Objs.str_link_state, 0, 1)] (streaming 9)
    s.strAligned = true ∧ (after (.fcControlWord true true 0x1234) s).rd Objs.str_link_state = 2 ∧
    raised (after (.fcControlWord true true 0x1234) s) = [(225, 0)] ∧ (after (.fcControlWord true true 0x1234) s).str.fcPend = [(100, 0, 0x1234)] ∧
    (after (.fcControlWord true true 0x1234) s).str.calPos = 1 ∧ raised (after (.fcControlWord false true 0x1234) s) = [(228, 0)] ∧
    (after (.fcControlWord false true 0x1234) s).rd Objs.str_fc_crc_err = 1 ∧ (after (.fcControlWord false false 0x1234) s).str.calPos = 1 := by decide +kernel
theorem test_fcTimeout :
    let s := clock ((streaming 9).rd Objs.str_fc_timeout) (streaming 9)
    s.elapsed s.str.lastGood (s.rd Objs.str_fc_timeout) = true ∧ (after .fcTimeout s).str.fcLost = true ∧ s.chanXon 4 = true ∧
    (after .fcTimeout s).chanXon 4 = false ∧ (streaming 9).elapsed 0 ((streaming 9).rd Objs.str_fc_timeout) = false := by decide +kernel
-- R485, R487, R494
theorem test_strBurstSend : nextChan (streaming 300) = some 4 ∧ nextChan z = none ∧ (streaming 300).headLost 4 = false ∧
    ((after (.strBurstSend .good) (streaming 300)).chan 4).sent = 256 ∧
    ((after (.strBurstSend .good) (streaming 200)).chan 4).recs = [] ∧ (after (.strBurstSend .good) (streaming 200)).rd Objs.str_records 4 = 1 ∧
    (after (.strBurstSend .good) (streaming 200)).outbox = [.burst 4 true true (List.replicate 200 0x33)] := by decide +kernel
-- R494: an error of the transmit FIFO, corrected and not
theorem test_strBurstSend_fifo : raised (after (.strBurstSend .fifoCorrected) (streaming 300)) = [(230, 0)] ∧
    ((after (.strBurstSend .fifoCorrected) (streaming 300)).chan 4).sent = 256 ∧ raised (after (.strBurstSend .fifoUncorrected) (streaming 300)) = [(231, 0)] ∧
    ((after (.strBurstSend .fifoUncorrected) (streaming 300)).chan 4).recs = [] ∧ (after (.strBurstSend .fifoUncorrected) (streaming 300)).rd Objs.str_lost 4 = 1 ∧
    (after (.strBurstSend .fifoUncorrected) (streaming 300)).outbox = [] := by decide +kernel
-- R494: a record whose staged part is in a frozen pseudo-channel is lost
theorem test_headLost :
    let s0 := streaming 300
    let s := { s0 with str := { s0.str with chans := [(4, ⟨[⟨List.replicate 300 0x33, .none, 0, [], true⟩], 0, 0, 0⟩)] } }
    s.headLost 4 = true ∧ (after (.strBurstSend .good) s).rd Objs.str_lost 4 = 1 ∧ raised (after (.strBurstSend .good) s) = [(229, 4)] := by decide +kernel
theorem test_strRxPacket : (after .strRxPacket z).rd Objs.str_rx_discard = 1 := by decide +kernel

/-! ## Resets, brumation and the Eft (chapter 19) -/

/-- The Eft's phase, kind and always-on time. -/
def phased (p : Phase) (kind ticks : Nat) : State := { z with eft := { z.eft with phase := p, kind := kind, ticks := ticks } }

/-- One second of the always-on clock. -/
def second : Nat := 625000000

-- R476, R577, R587
theorem test_powerOnReset :
    let t := after (.powerOnReset 0x123 5 [] []) (obj [(Objs.fab_reorder_timeout, 0, 20000)] z)
    t.rd Objs.device_id = 0x123 ∧ t.rd Objs.boot_mode = 5 ∧ t.rd Objs.power_state = 4 ∧ t.eft.phase = .raising ∧ t.eft.pwrEn = 1 ∧
    t.rd Objs.fab_reorder_timeout = 250000 ∧ t.outbox = [.can (0x700 + (0x123 % 127 + 1)) [0]] := by decide +kernel
-- R525, R526
theorem test_resetN : z.fm.safe = false ∧ z.eft.kind < 2 ∧ z.eft.pwrEn % 8 = 7 ∧ (after (.resetN 3) z).eft.phase = .held ∧
    (after (.resetN 3) z).eft.kind = 2 ∧ (after (.resetN 3) z).rd Objs.boot_mode = 3 ∧ after (.resetN 3) (phased .running 2 0) = phased .running 2 0 := by
  decide +kernel
theorem test_resetCmdCold : z.pcRetired 9 = false ∧ Accepted .sdp Objs.reset_cmd 0 [2] resetCheck z ∧
    (after (.resetCmdCold .sdp 1) z).eft.phase = .training ∧ (after (.resetCmdCold .sdp 1) z).eft.trigger = 2 ∧
    (after (.resetCmdCold .sdp 1) z).eft.kind = 2 := by decide +kernel
theorem test_resetNRelease :
    let s := after (.resetN 3) z
    s.eft.phase = .held ∧ s.fm.safe = false ∧ s.pcState 9 = 0 ∧ s.pcRetired 9 = false ∧ (after .resetNRelease s).eft.phase = .training ∧
    (after .resetNRelease s).eft.resetLow = false ∧ z.eft.phase ≠ .held := by decide +kernel
theorem test_pwrgoodFall : (after .pwrgoodFall z).eft.phase = .off ∧ (after .pwrgoodFall z).eft.clocks = false ∧
    bit (after .pwrgoodFall z).eft.pwrEn 2 = false ∧ (after .pwrgoodFall z).rd Objs.power_state = 4 := by decide +kernel
-- R527, R529
theorem test_warmN : z.eft.phase.coreUp = true ∧ (after .warmN z).eft.phase = .restart ∧ (after .warmN z).eft.trigger = 4 ∧
    (after .warmN z).rd Objs.warm_resets = 1 ∧ (after .warmN z).rd Objs.power_state = 4 := by decide +kernel
-- R528
theorem test_resetCmdWarm : z.eft.kind = 0 ∧ Accepted .sdp Objs.reset_cmd 0 [1] resetCheck z ∧ (after (.resetCmdWarm .sdp) z).eft.phase = .draining ∧
    (after (.resetCmdWarm .sdp) z).eft.orderly = true ∧ (after (.resetCmdWarm .sdp) z).eft.trigger = 5 := by decide +kernel
theorem test_warmDrainDone : (phased .draining 1 0).sk.threads.all (fun p => decide (p.2.st = .free)) = true ∧
    (after .warmDrainDone (phased .draining 1 0)).eft.phase = .restart ∧ (after .warmDrainDone (phased .entering 0 0)).eft.phase = .releasing ∧
    (let s : State := { running with eft := { z.eft with phase := .draining } }
     s.sk.threads.all (fun p => decide (p.2.st = .free)) = false ∧ s.eftElapsed s.eft.since 10000000 = false) := by decide +kernel
-- R530, R534
theorem test_restartSequence : (phased .restart 1 0).eft.phase = .restart ∧ (phased .restart 1 0).fm.safe = false ∧
    (phased .restart 1 0).hbm.ctls.all (fun c => !c.2.asleep) = true ∧
    (after (.restartSequence []) (phased .restart 1 0)).eft.phase = .running ∧ z.eft.phase ≠ .restart := by decide +kernel
-- R394: a warm reset puts the pseudo-channels in service to sleep, and the restart waits for them to be retrained
theorem test_warmN_sleep :
    let s := obj [(Objs.hbm_state, 5, 1)] z
    let t := after .warmN s
    (s.ctl 5).wait = [] ∧ (t.ctl 5).asleep = true ∧ (t.ctl 6).asleep = false ∧ t.eft.phase = .restart ∧
    t.hbm.ctls.all (fun c => !c.2.asleep) = false ∧ (after (.hbmRetrain 5 true false) t).hbm.ctls.all (fun c => !c.2.asleep) = true := by decide +kernel
-- R544
theorem test_warmN_watch :
    let s := obj [(Objs.port_mode, 240, 1), (Objs.port_mode, 244, 1), (Objs.admin_up, 240, 1), (Objs.admin_up, 244, 1),
      (Objs.link_state, 240, 2), (Objs.link_state, 244, 1)] z
    let t := after .warmN s
    t.eft.carry = some (240, 244) ∧ t.link 240 = 2 ∧ t.link 244 = 0 := by decide +kernel
-- R536, R537
theorem test_brumate : Accepted .sdp Objs.brumate 0 [1] brumateCheck z ∧ (after (.brumate .sdp [1]) z).eft.phase = .entering ∧
    (after (.brumate .sdp [1]) z).rd Objs.power_state = 1 ∧ raised (after (.brumate .sdp [1]) z) = [(241, 0)] := by decide +kernel
theorem test_brumationReached :
    let s : State := { phased .releasing 0 0 with eft := { (phased .releasing 0 0).eft with pwrEn := 0 } }
    let w : State := { s with eft := { s.eft with wakeHeld := true } }
    s.eft.pwrEn % 8 = 0 ∧ s.eft.wakeHeld = false ∧ (after .brumationReached s).eft.phase = .asleep ∧ (after .brumationReached s).rd Objs.power_state = 2 ∧
    (after .brumationReached w).eft.phase = .waking ∧ bit (after .brumationReached w).eft.pwrEn 0 = true := by decide +kernel
theorem test_wake :
    let s := obj [(Objs.power_state, 0, 2), (Objs.path_can, 0, 2)] { phased .asleep 0 0 with eft := { (phased .asleep 0 0).eft with pwrEn := 0 } }
    Accepted .can Objs.wake 0 [1] wakeCheck s ∧ (after (.wake .can [1]) s).eft.phase = .waking ∧ (after (.wake .can [1]) s).rd Objs.power_state = 3 ∧
    (after (.wake .sdp [1]) z).eft.phase = .running := by decide +kernel
-- R541
theorem test_coarseTimeLoad :
    let s : State := { z with time := { z.time with w := 75 * 2 ^ 40 } }
    z.eft.clocks = true ∧ (after .coarseTimeLoad s).rd Objs.coarse_time = 40 * 2 ^ 16 := by decide +kernel

/-- The rails are being raised; the rail raised last came into range at `inRange`. -/
def raising (en ticks : Nat) (inRange : Option Nat := none) : State :=
  { phased .raising 3 ticks with eft := { (phased .raising 3 ticks).eft with pwrEn := en, monitored := 0, railIn := inRange } }

-- R524, R584, R586: a rail is monitored from the moment it lies in range, and the next one is raised 1 ms later
theorem test_railEnableStep : (raising 1 second (some 0)).eftElapsed 0 1000000 = true ∧ (raising 1 0 (some 0)).eftElapsed 0 1000000 = false ∧
    (after (.railEnableStep false) (raising 1 second)).eft.railIn = some 1000000000 ∧ (after (.railEnableStep false) (raising 1 second)).eft.pwrEn = 1 ∧
    bit (after (.railEnableStep false) (raising 1 second)).eft.monitored 0 = true ∧ bit (after (.railEnableStep false) (raising 3 second)).eft.monitored 1 = true ∧
    (after (.railEnableStep true) (raising 1 second (some 0))).eft.pwrEn = 3 ∧ (after (.railEnableStep true) (raising 3 second (some 0))).eft.pwrEn = 7 ∧
    (after (.railEnableStep true) (raising 1 0 (some 0))).eft.pwrEn = 1 := by decide +kernel
theorem test_railEnableStep_wake :
    let s : State := { raising 7 second (some 0) with eft := { (raising 7 second (some 0)).eft with phase := .waking } }
    s.eft.pwrEn % 8 = 7 ∧ (after (.railEnableStep true) s).eft.phase = .restart ∧ (after (.railEnableStep true) s).time.f = 0 := by decide +kernel
theorem test_railTimeout : (raising 1 second).eftElapsed 0 15000000 = true ∧ (raising 1 second).fm.raised = [] ∧
    (after .railTimeout (raising 1 second)).fm.safe = true ∧ (after .railTimeout (raising 1 second)).rd Objs.power_state = 5 ∧
    (after .railTimeout (raising 1 second)).eft.pwrEn % 8 = 0 ∧ bit (after .railTimeout (raising 3 second)).eft.pwrEn 0 = true ∧ (raising 1 0).eftElapsed 0 15000000 = false := by decide +kernel
theorem test_railReleaseStep :
    let s := fun (en : Nat) => ({ phased .off 3 0 with eft := { (phased .off 3 0).eft with pwrEn := en } } : State)
    (s 3).railsFalling = true ∧ z.railsFalling = false ∧ (after .railReleaseStep (s 3)).eft.pwrEn = 1 ∧ (after .railReleaseStep (s 1)).eft.pwrEn = 0 := by
  decide +kernel
-- R558, R584, R535
theorem test_coreRailFault : bit z.eft.monitored 1 = true ∧ (after (.coreRailFault 1) z).fm.safe = true ∧ (after (.coreRailFault 1) z).rd Objs.ev_count 236 = 1 ∧ bit (raising 1 0).eft.monitored 1 = false := by
  decide +kernel
theorem test_refclkWindowCheck : z.eft.clocks = true ∧ (raised (after .refclkWindowCheck (obj [(Objs.dom_state, 1, 3)] z))).contains (232, 0) = true ∧
    (after .refclkWindowCheck (obj [(Objs.dom_state, 1, 3)] z)).rd Objs.dom_state 1 = 4 ∧
    (after .refclkWindowCheck (obj [(Objs.dom_state, 1, 3)] z)).rd Objs.dom_state 0 = 0 := by decide +kernel
-- R515: a line of class C3 acts at once, also where nothing else runs
theorem test_rpllUnlock : (after .rpllUnlock z).fm.safe = true ∧ (after .rpllUnlock z).rd Objs.ev_count 233 = 1 ∧ (after .rpllUnlock z).rd Objs.power_state = 5 ∧
    (after .rpllUnlock z).fm.croak = .pulse := by decide +kernel
theorem test_thermalTrip : (after .thermalTrip z).fm.safe = true ∧ (after .thermalTrip z).rd Objs.ev_count 235 = 1 ∧
    (after .thermalTrip (phased .releasing 0 0)).fm.safe = true := by decide +kernel
-- R598: the limit is 105 or 110 degrees by the fused grade
theorem test_tjSample : tjMax * 1000 < (111000 : BitVec 32).toInt ∧ (100000 : BitVec 32).toInt ≤ (tjMax - 5) * 1000 ∧ bit z.eft.hot 3 = false := by
  unfold tjMax
  split <;> decide
theorem test_aonclkFault : z.rd Objs.aon_source ≠ 1 ∧ (after .aonclkFault z).rd Objs.aon_source = 1 ∧ raised (after .aonclkFault z) = [(240, 0)] := by
  decide +kernel

/-- The Eft carries frames between ports 0 and 8; a FIFO towards port 8 holds frames that came at 0. -/
def carrying (fifo : List (List Byte)) : State := { z with eft := { z.eft with carry := some (0, 8), fifoA := fifo.map (fun f => (f, 0)) } }

-- R543: a frame enters the FIFO of its direction, and leaves it; a full FIFO drops it
theorem test_passFrame : z.eft.carry = none ∧ frame60.length = 64 ∧ crc32 (frame60.take (frame60.length - 4)) = leNat (frame60.drop (frame60.length - 4)) ∧
    (carrying []).hsrRole 0 = false ∧ (after (.passFrame false frame60 false) (carrying [])).eft.fifoA.map (·.1) = [frame60] ∧
    (after (.passFrame true frame60 false) (carrying [])).eft.fifoB.map (·.1) = [frame60] ∧ (carrying [frame60]).eftElapsed 0 0 = true ∧
    ((carrying [frame60]).passOut false).outbox = [.pass 8 frame60] ∧ ((carrying [frame60]).passOut false).rd Objs.pass_frames = 1 ∧
    (after (.passFrame false frame60 true) (carrying [])).rd Objs.pass_drop = 1 := by decide +kernel

/-- Sampler 2 takes samples of source 1 in 5 to 90, with no averaging. -/
def samplerWord : Nat := 1 * 2 ^ 124 + 1 * 2 ^ 84 + 1 * 2 ^ 82 + 90 * 2 ^ 32 + 5

/-- That sampler runs. -/
def sampling (ticks : Nat) : State := { obj [(Objs.sampler_cfg, 2, samplerWord)] z with eft := { z.eft with ticks := ticks } }

-- R545 to R548
theorem test_samplerSample : toSigned 32 (fld samplerWord 0 32) = 5 ∧ toSigned 32 (fld samplerWord 32 32) = 90 ∧ fld samplerWord 124 4 ≠ 0 ∧ fld samplerWord 64 14 = 0 ∧
    (after (.samplerSample 2 90) (sampling 0)).rd Objs.sampler_value 2 = 90 ∧ ((after (.samplerSample 2 90) (sampling 0)).sampler 2).window = [90] ∧
    bit ((after (.samplerSample 2 90) (sampling 0)).rd Objs.sampler_status 2) 0 = true ∧
    (after (.samplerSample 2 91) (sampling 0)).rd Objs.sampler_rejects 2 = 1 ∧ (after (.samplerSample 2 4) (sampling 0)).rd Objs.sampler_rejects 2 = 1 := by
  decide +kernel
theorem test_samplerTimeout : bit ((sampling second).rd Objs.sampler_status 2) 1 = false ∧
    (sampling second).eftElapsed ((sampling second).sampler 2).last (4 * fld samplerWord 84 8 * 1000000) = true ∧
    bit ((after (.samplerTimeout 2 false) (sampling second)).rd Objs.sampler_status 2) 1 = true ∧
    (after (.samplerTimeout 2 true) (sampling second)).outbox = [] ∧ z.rd Objs.sampler_cfg 2 = 0 := by decide +kernel
-- R545, R546: an I2C register as LINEAR11, a 1-bit source, and the nine pulses that free the bus
theorem test_samplerSample_raw :
    let i2c := samplerWord + 2 * 2 ^ 124 + 2 * 2 ^ 99
    let pin := samplerWord + 4 * 2 ^ 124
    (sampleValue i2c 25 z).1 = 25000 ∧ (sampleValue i2c 0x07FF z).1 = -1000 ∧ (sampleValue (i2c - 2 ^ 99) 0xFFFE z).1 = -2 ∧
    (sampleValue pin 3 z).1 = 1 ∧ (sampleValue (pin + 2 ^ 124) 2 z).1 = 0 ∧
    (after (.samplerTimeout 2 true) ((sampling second).wr Objs.sampler_cfg 2 i2c)).outbox = [.i2cClocks 9] := by decide +kernel
theorem test_samplerCfgWrite :
    let v := leBytes Objs.sampler_cfg.ty.size samplerWord
    Accepted .sdp Objs.sampler_cfg 2 v samplerCheck (after (.samplerSample 2 90) (sampling 0)) ∧
    ((after (.samplerCfgWrite .sdp 2 v) (after (.samplerSample 2 90) (sampling 0))).sampler 2).window = [] := by decide +kernel

/-- Rule 5 sends EMCY when sampler 2 reads below 10. -/
def ruleWord : Nat := 2 ^ 127 + 2 * 2 ^ 116 + 1 * 2 ^ 113 + 3 * 2 ^ 93 + 10 * 2 ^ 32

/-- That rule, and sampler 2 at a value. -/
def ruled (value : Nat) : State := obj [(Objs.eft_rule, 5, ruleWord), (Objs.sampler_status, 2, 1), (Objs.sampler_value, 2, value)] z

-- R549, R550, R551
theorem test_eftRuleEval : (∀ j : Fin 64, j ≠ 5 → bit ((ruled 9).rd Objs.eft_rule j) 127 = false) ∧ fld ruleWord 93 4 = 3 ∧ (ruled 9).ruleWhen ruleWord = true ∧
    (ruled 9).ruleHolds ruleWord = true ∧ ((ruled 9).ruleState 5).fired = false ∧
    (ruled 9).eftElapsed (((ruled 9).ruleState 5).since.getD (ruled 9).eftNs) (fld ruleWord 97 16 * 1000000) = true ∧
    (after (.eftRuleEval .good) (ruled 9)).outbox.length = 1 ∧ (after (.eftRuleEval .good) (ruled 9)).rd Objs.eft_rule_fires 5 = 1 ∧
    (after (.eftRuleEval .good) (ruled 10)).outbox = [] := by decide +kernel
theorem test_eftRuleEval_damaged : bit ((after (.eftRuleEval (.rule 5)) (ruled 9)).rd Objs.eft_rule 5) 127 = false ∧
    (after (.eftRuleEval (.rule 5)) (ruled 9)).outbox = [] ∧ bit (z.rd Objs.eft_rule 5) 127 = false := by decide +kernel
/-- The watchdog is enabled, and 100 s have passed in ACTIVE. -/
def watched (limit : Nat) : State := obj [(Objs.eft_wdog_enable, 0, 1), (Objs.eft_wdog_limit, 0, limit)] (phased .running 0 (100 * second))

-- R553: the last heartbeat came 1 ms ago, and at 0
theorem test_wdogTimeout :
    (watched 0).rd Objs.eft_wdog_enable = 1 ∧ (watched 0).rd Objs.power_state = 0 ∧ (watched 0).eftElapsed (watched 0).eft.active 10000000 = true ∧
    (watched 0).wdogGap 99999000000 = false ∧ after (.wdogTimeout 99999000000 3) (watched 0) = watched 0 ∧ (watched 0).wdogGap 0 = true ∧
    (after (.wdogTimeout 0 3) (watched 0)).eft.phase = .restart ∧ (after (.wdogTimeout 0 3) (watched 0)).eft.trigger = 6 ∧
    (raised (after (.wdogTimeout 0 3) (watched 0))).contains (246, 0) = true := by decide +kernel
theorem test_wdogTimeout_cold : (watched 1).pcRetired 9 = false ∧ (watched 1).eft.pwrEn % 8 = 7 ∧ (watched 1).eft.resetLow = false ∧
    (after (.wdogTimeout 0 3) (watched 1)).eft.phase = .training ∧ (after (.wdogTimeout 0 3) (watched 1)).eft.trigger = 3 ∧
    (after (.wdogTimeout 0 3) (watched 1)).rd Objs.boot_mode = 3 := by decide +kernel
-- R555, R556
theorem test_firstFaultWritten :
    let s : State := { z with fm := { z.fm with firstFaultPending := true } }
    (after (.firstFaultWritten true) s).fm.firstFaultPending = false ∧ (after (.firstFaultWritten true) s).eft.ff.map (fun p => (ffValid p.2, ffSeq p.2)) = [(true, 0)] ∧
    (after (.firstFaultWritten false) s).eft.ff = [] ∧ (after (.firstFaultWritten false) s).fm.firstFaultPending = false := by decide +kernel

/-! ## Debug (chapter 20) -/

/-- Thread 3 in DEBUG_HALT. -/
def haltedThread : State := running.setTh 3 { running.th 3 with st := .debugHalt }

-- R565 to R567
theorem test_dbgHalt : Accepted .sdp Objs.dbg_halt 0 [3, 0] haltCheck running ∧ (running.th 3).st = .running ∧
    ((after (.dbgHalt .sdp [3, 0]) running).th 3).st = .debugHalt ∧ (z.th 3).st ≠ .running ∧
    (after (.dbgHalt .sdp [3, 0]) z).dbg.haltPend = [3] := by decide +kernel
theorem test_dbgStep : Accepted .sdp Objs.dbg_step 0 [3, 0, 5, 0] stepCheck haltedThread ∧ (haltedThread.th 3).forced = false ∧
    ((after (.dbgStep .sdp [3, 0, 5, 0]) haltedThread).th 3).stepLeft = 5 ∧ ((after (.dbgStep .sdp [3, 0, 5, 0]) haltedThread).th 3).st = .running ∧
    ((after (.dbgStep .sdp [3, 0, 5, 0]) running).th 3).stepLeft = 0 := by decide +kernel
-- A step of a thread aborted by force is accepted and does nothing.
theorem test_dbgStep_forced :
    let s := haltedThread.setTh 3 { haltedThread.th 3 with forced := true }
    Accepted .sdp Objs.dbg_step 0 [3, 0, 5, 0] stepCheck s ∧ (s.th 3).forced = true ∧
    ((after (.dbgStep .sdp [3, 0, 5, 0]) s).th 3).st = .debugHalt := by decide +kernel
theorem test_dbgResume : Accepted .sdp Objs.dbg_resume 0 [3, 0] haltCheck haltedThread ∧ bit 3 15 = false ∧
    ((after (.dbgResume .sdp [3, 0]) haltedThread).th 3).st = .running := by decide +kernel
-- R568
theorem test_haltLeapTimeout :
    let x := haltedThread.th 3
    let s := clock (haltedThread.rd Objs.halt_leap_timeout) (haltedThread.setTh 3 { x with leap := { x.leap with ops := [⟨.lset, 0, 4, 0, 1⟩] } })
    (s.th 3).status = none ∧ (s.th 3).leap.abandoned = false ∧ s.rd Objs.debug_hold_leaps = 0 ∧
    s.elapsed (s.th 3).haltSince (s.rd Objs.halt_leap_timeout) = true ∧ ((after (.haltLeapTimeout 3) s).th 3).forced = true ∧
    ((after (.haltLeapTimeout 3) s).th 3).status = some 3 ∧ (after (.haltLeapTimeout 3) s).rd Objs.leap_abandoned = 1 := by decide +kernel
-- R570
theorem test_breakpointWrite :
    let v := leBytes Objs.breakpoint.ty.size (2 ^ 63 + 7)
    Accepted .sdp Objs.breakpoint 21 v bpWriteCheck z ∧ (after (.breakpointWrite .sdp 5 1 v) z).rd Objs.breakpoint 21 = 2 ^ 63 + 7 := by decide +kernel
-- R572
theorem test_traceCtrlWrite :
    let s := z.setTrace 5 { TraceBuf.empty with stopped := true, entries := [9, 8] }
    let v := leBytes Objs.trace_ctrl.ty.size (2 ^ 63)
    Accepted .sdp Objs.trace_ctrl 5 v (traceCheck 5) s ∧ (after (.traceCtrlWrite .sdp 5 v) s).traceBuf 5 = { TraceBuf.empty with entries := [9, 8] } := by
  decide +kernel
-- R574
/-- A discarded record's entries are offered again before the later ones. -/
theorem test_traceExport_again :
    let s0 := obj [(Objs.trace_ctrl, 5, 2 ^ 61), (Objs.trace_channel, 0, 4), (Objs.str_enable, 0, 1), (Objs.str_link_state, 0, 2)] z
    let s1 := s0.setTrace 5 { TraceBuf.empty with entries := [9, 8] }
    let s := dropHead (after (.traceExport 5) s1) 4
    (s.traceBuf 5).again = [(0, 2)] ∧ (after (.traceExport 5) s).traceBuf 5 = (after (.traceExport 5) s1).traceBuf 5 ∧
    ((after (.traceExport 5) s).chan 4).recs.map (·.ref) = [.trace 5 0 2] := by decide +kernel

theorem test_traceExport :
    let s0 := obj [(Objs.trace_ctrl, 5, 2 ^ 61), (Objs.trace_channel, 0, 4), (Objs.str_enable, 0, 1), (Objs.str_link_state, 0, 2)] z
    let s := s0.setTrace 5 { TraceBuf.empty with entries := [9, 8] }
    bit (s.rd Objs.trace_ctrl 5) 61 = true ∧ s.rd Objs.trace_channel ≠ 255 ∧ s.wouldAdmit 4 64 = true ∧
    ((after (.traceExport 5) s).chan 4).recs.map (·.ref) = [.trace 5 0 2] ∧ ((after (.traceExport 5) s).traceBuf 5).exported = 2 ∧
    bit (z.rd Objs.trace_ctrl 5) 61 = false := by decide +kernel

/-- The address of a debug access. -/
def memAt (space a data : Nat) (s : State) : State :=
  ((s.wrCtx .sdp Objs.dbg_mem_space 0 space).wrCtx .sdp Objs.dbg_mem_addr 0 a).wrCtx .sdp Objs.dbg_mem_data 0 data

-- R575
theorem test_dbgMemRead :
    let s := memAt 3 (3 * 64 + 1) 0 running
    Accepted .sdp Objs.dbg_mem_cmd 0 [1] (memCheck .sdp) s ∧ (after (.dbgMemRead .sdp false) s).rdCtx .sdp Objs.dbg_mem_data = 0xF0000000000000F5 := by decide +kernel
theorem test_dbgMemRead_word :
    let s := memAt 0 0x40100 0 (z.setCs 4 { ClutchStore.init with words := [(0x100, 77)] })
    Accepted .sdp Objs.dbg_mem_cmd 0 [1] (memCheck .sdp) s ∧ (after (.dbgMemRead .sdp false) s).rdCtx .sdp Objs.dbg_mem_data = 77 := by decide +kernel
theorem test_dbgMemWrite :
    let s := memAt 3 (3 * 64 + 4) 99 haltedThread
    Accepted .sdp Objs.dbg_mem_cmd 0 [2] (memCheck .sdp) s ∧ ((after (.dbgMemWrite .sdp) s).th 3).reg 4 = 99 ∧
    Accepted .sdp Objs.dbg_mem_cmd 0 [2] (memCheck .sdp) (memAt 3 (3 * 64) 99 haltedThread) ∧
    ((after (.dbgMemWrite .sdp) (memAt 3 (3 * 64 + 4) 99 running)).th 3).reg 4 = 0 := by decide +kernel
-- R576
theorem test_lanePrbsWrite :
    Accepted .sdp Objs.lane_prbs 5 (leBytes Objs.lane_prbs.ty.size 2) (prbsCheck 5) z ∧
    (after (.lanePrbsWrite .sdp 5 (leBytes Objs.lane_prbs.ty.size 2) (some 6)) z).rd Objs.lane_prbs_lock 5 = 1 ∧
    (after (.lanePrbsWrite .sdp 5 (leBytes Objs.lane_prbs.ty.size 2) (some 6)) z).rd Objs.lane_prbs_errors 5 = 6 ∧
    (after (.lanePrbsWrite .sdp 5 (leBytes Objs.lane_prbs.ty.size 2) none) z).rd Objs.lane_prbs_lock 5 = 0 := by decide +kernel

/-! ## The machine -/

-- A step takes the oldest command; with none waiting, time advances.
theorem test_step : (∃ t, Machine.step { z with pending := [.extest [], .bypass 0xFF []] } = .next t ∧ t.dbg.ir = 0 ∧ t.pending = [.bypass 0xFF []]) ∧
    (∃ t, Machine.step z = .next t ∧ 0 < t.time.ticks) := by
  constructor
  · exact ⟨after (.extest []) { z with pending := [.bypass 0xFF []] }, rfl, by decide +kernel, by decide +kernel⟩
  · exact ⟨z.advance, rfl, by decide +kernel⟩

/-- A state with a command that waits, bytes in HBM and in the image buffer, and a counter at its last value. -/
def mixed : State :=
  { z with pending := [.warmN], hbm := { z.hbm with sw := swStore [] 7 [1, 0, 2] }, sk := { z.sk with buffer := swStore [] 3 [4] },
           time := { z.time with a := ctrWrap - 1 } }

theorem test_mixed_invariant : mixed.Inv :=
  ⟨by decide +kernel, by decide +kernel, by decide +kernel, by decide +kernel, by decide +kernel, by decide +kernel, by decide +kernel⟩
theorem test_mixed_step : ∃ t, Machine.step mixed = .next t ∧ t.hbm.sw = [(7, 1), (9, 2)] := ⟨after .warmN { mixed with pending := [] }, rfl, by decide +kernel⟩

-- R354: F gains 8 ns on five ticks
theorem test_tick : z.eft.clocks = true ∧ z.tick.tick.tick.tick.tick.time.f = 8 * 2 ^ 40 ∧ z.tick.time.f = 0x01999999999A := by decide +kernel
-- A lock of the RPLL restarts F.
theorem test_lock_restarts_f :
    let s := after (.resetN 3) { z with time := { z.time with f := 5 } }
    s.eft.clocks = false ∧ (after .resetNRelease s).eft.clocks = true ∧ (after .resetNRelease s).time.f = 0 ∧ restartsF .resetNRelease = true := by decide +kernel
-- A warm reset leaves F as it is.
theorem test_warm_keeps_f :
    let s : State := { z with time := { z.time with f := 5, ticks := 1 } }
    restartsF .warmN = false ∧ (after .warmN s).time.f = 5 ∧ (after .warmN s).time.ticks = 1 := by decide +kernel
-- R516
theorem test_safe_state :
    let s : State := { z with fm := { z.fm with safe := true } }
    s.fm.safe = true ∧ Accepted .sdp Objs.reset_cmd 0 [1] resetCheck s ∧ (after (.resetCmdWarm .sdp) s).eft = s.eft ∧
    s.pathServed .pcie = false ∧ s.pathServed .can = true ∧ s.pathServed .sdp = decide (s.eft.pwrEn % 8 = 7) ∧
    Accepted .sdp Objs.reset_cmd 0 [2] resetCheck s ∧ (after (.resetCmdCold .sdp 3) s).eft = s.eft ∧
    after .functionLevelReset s = s ∧ after (.wdogTimeout 0 3) s = s := by decide +kernel

/-! ## Images with a store CRC (R155, R157, R577 to R580). The CRC over a whole store is kept as a term: no test computes it. -/

/-- A FULL image of 80 bytes with one empty ENTRY section, the bytes of its STORE_CRC and of its IMAGE_CRC. -/
def fullImg (x0 x1 x2 x3 y0 y1 y2 y3 : Byte) : List Byte :=
  [0x53, 0x4B, 0x4D, 0x49, 1, 0, 1, 0, 7, 0, 3, 0, 0, 0, 0, 0, 80, 0, 0, 0, y0, y1, y2, y3, x0, x1, x2, x3, 1, 0, 0, 0,
   0, 0, 0, 0, 0, 0, 0, 0, 0, 0, 0, 0, 0, 0, 0, 0, 0, 0, 0, 0, 0, 0, 0, 0, 0, 0, 0, 0, 0, 0, 0, 0,
   3, 0, 0, 0, 80, 0, 0, 0, 0, 0, 0, 0, 0, 0, 0, 0]

/-- Its content. -/
def fullGolden : Golden := ⟨0x30007, [], [], []⟩

section
variable (x0 x1 x2 x3 y0 y1 y2 y3 : Byte)

theorem fullImg_magic : le32 (fullImg x0 x1 x2 x3 y0 y1 y2 y3) 0 = 0x494D4B53 := by
  show leNat [0x53, 0x4B, 0x4D, 0x49] = _
  decide
theorem fullImg_id : imgId (fullImg x0 x1 x2 x3 y0 y1 y2 y3) = 0x30007 := by
  show leNat [7, 0, 3, 0] = _
  decide
theorem fullImg_format : le16 (fullImg x0 x1 x2 x3 y0 y1 y2 y3) 4 = 1 := rfl
theorem fullImg_kind : imgKind (fullImg x0 x1 x2 x3 y0 y1 y2 y3) = 1 := rfl
theorem fullImg_length : imgLength (fullImg x0 x1 x2 x3 y0 y1 y2 y3) = 80 := rfl
theorem fullImg_sections : imgSections (fullImg x0 x1 x2 x3 y0 y1 y2 y3) = 1 := rfl
theorem fullImg_type : le16 (fullImg x0 x1 x2 x3 y0 y1 y2 y3) 64 = 3 := rfl
theorem fullImg_addr : le16 (fullImg x0 x1 x2 x3 y0 y1 y2 y3) 66 = 0 := rfl
theorem fullImg_offset : le32 (fullImg x0 x1 x2 x3 y0 y1 y2 y3) 68 = 80 := rfl
theorem fullImg_data : le32 (fullImg x0 x1 x2 x3 y0 y1 y2 y3) 72 = 0 := rfl
theorem fullImg_dataCrc : le32 (fullImg x0 x1 x2 x3 y0 y1 y2 y3) 76 = 0 := rfl
theorem fullImg_whole : (fullImg x0 x1 x2 x3 y0 y1 y2 y3).take 80 = fullImg x0 x1 x2 x3 y0 y1 y2 y3 := rfl
theorem fullImg_crc : imgCrc (fullImg x0 x1 x2 x3 y0 y1 y2 y3) = leNat [y0, y1, y2, y3] := rfl
theorem fullImg_store : imgStoreCrc (fullImg x0 x1 x2 x3 y0 y1 y2 y3) = leNat [x0, x1, x2, x3] := rfl
theorem fullImg_cleared : splice (fullImg x0 x1 x2 x3 y0 y1 y2 y3) 20 [0, 0, 0, 0] = fullImg x0 x1 x2 x3 0 0 0 0 := rfl
theorem fullImg_header : headerBad false (fullImg x0 x1 x2 x3 y0 y1 y2 y3) swSize = false := by
  simp [headerBad, fullImg_magic, fullImg_format, fullImg_kind, fullImg_length, fullImg_sections, sectionBad, fullImg_type, fullImg_offset,
    fullImg_data, recordSize, swSize]
theorem fullImg_header80 : headerBad false (fullImg x0 x1 x2 x3 y0 y1 y2 y3) 80 = false := by
  simp [headerBad, fullImg_magic, fullImg_format, fullImg_kind, fullImg_length, fullImg_sections, sectionBad, fullImg_type, fullImg_offset,
    fullImg_data, recordSize]
theorem fullImg_list : imgSectionList (fullImg x0 x1 x2 x3 y0 y1 y2 y3) = [⟨3, 0, []⟩] := by
  simp [imgSectionList, fullImg_sections, imgSection, fullImg_type, fullImg_addr, fullImg_offset, fullImg_data, slice]
theorem fullImg_bank : bankBad (fullImg x0 x1 x2 x3 y0 y1 y2 y3) = false := by simp [bankBad, fullImg_list]
theorem fullImg_encoding : encodingBad (fullImg x0 x1 x2 x3 y0 y1 y2 y3) = false := by simp [encodingBad, fullImg_list]
theorem fullImg_content (g : Golden) : imgContent (fullImg x0 x1 x2 x3 y0 y1 y2 y3) g = fullGolden := by
  simp [imgContent, fullImg_list, fullImg_kind, fullImg_id, applySection, imgEntries, Section.recs, records, fullGolden]
theorem fullImg_sums (h : crc32 (fullImg x0 x1 x2 x3 0 0 0 0) = leNat [y0, y1, y2, y3]) :
    crcBad (fullImg x0 x1 x2 x3 y0 y1 y2 y3) = false := by
  have e : crc32 [] = 0 := by decide +kernel
  simp only [crcBad, fullImg_length, fullImg_whole, fullImg_crc, fullImg_cleared, h, fullImg_sections]
  simp [imgSection, fullImg_offset, fullImg_data, fullImg_dataCrc, slice, e]

end

/-- The bytes of a CRC. -/
def crcByte (k x : Nat) : Byte := BitVec.ofNat 8 (x / 256 ^ k)

theorem crcBytes_read {x : Nat} (h : x < 2 ^ 32) : leNat [crcByte 0 x, crcByte 1 x, crcByte 2 x, crcByte 3 x] = x := by
  simp only [leNat, crcByte, BitVec.toNat_ofNat]
  omega

/-- That image without its IMAGE_CRC. -/
def bareImg : List Byte :=
  let x := storeCrc fullGolden
  fullImg (crcByte 0 x) (crcByte 1 x) (crcByte 2 x) (crcByte 3 x) 0 0 0 0

/-- The image with both. -/
def goodImg : List Byte :=
  let x := storeCrc fullGolden
  let y := crc32 bareImg
  fullImg (crcByte 0 x) (crcByte 1 x) (crcByte 2 x) (crcByte 3 x) (crcByte 0 y) (crcByte 1 y) (crcByte 2 y) (crcByte 3 y)

theorem goodImg_length : goodImg.length = 80 := rfl
theorem goodImg_sums : crcBad goodImg = false := fullImg_sums _ _ _ _ _ _ _ _ (crcBytes_read (crc32_lt _)).symm
theorem goodImg_store : storeCrc fullGolden = imgStoreCrc goodImg := by
  have h : storeCrc fullGolden < 2 ^ 32 := crc32_lt _
  rw [goodImg, fullImg_store, crcBytes_read h]

-- The content passes every check of R157 for a clutch that is OUT, and of R578 for a boot.
theorem test_fullCheck : fullCheck goodImg goodImg.length = .ok fullGolden := by
  have hk : imgKind goodImg = 1 := rfl
  rw [goodImg_length]
  simp only [fullCheck, hk, goodImg_sums, ← goodImg_store]
  simp only [goodImg, fullImg_header80, fullImg_bank, fullImg_encoding, fullImg_content]
  simp
theorem loadCheck_good {s : State} (h2 : s.rd Objs.clutch_state 4 = 2) (hl : s.loading 4 = false) (hh : s.rd Objs.clutch_image 4 / 65536 ≠ 3) :
    loadCheck s 4 goodImg swSize = .ok fullGolden := by
  have hk : imgKind goodImg = 1 := rfl
  have hc : imgContent goodImg (s.golden (s.rd Objs.clutch_image 4)) = fullGolden := fullImg_content _ _ _ _ _ _ _ _ _
  have hi : fullGolden.image / 65536 = 3 := rfl
  simp only [loadCheck, h2, hl, hk, hc, hi, goodImg_sums, ← goodImg_store]
  simp only [goodImg, fullImg_header, fullImg_bank, fullImg_encoding, hh.symm, false_and, if_false, ne_eq, not_true_eq_false, Bool.false_eq_true,
    Nat.reduceEqDiff]

/-- The image lies in the software region; clutch 4 is DRAINED. -/
def loadable : State :=
  let s := obj [(Objs.clutch_state, 4, 2)] { z with hbm := { z.hbm with sw := (goodImg.zipIdx).map (fun p => (p.2, p.1)) } }
  s.wrCtx .sdp Objs.cs_load_source 0 1

theorem loadable_serves (p : Nat) : loadable.pcRefuses p = false := by
  have h : loadable.dict.objs = [(Objs.clutch_state.key 4, 2)] := rfl
  have k : Objs.hbm_state.key p ≠ Objs.clutch_state.key 4 := by
    have e : Objs.clutch_state.key 4 < Objs.hbm_state.key 0 := by decide
    have m : Objs.hbm_state.key 0 ≤ Objs.hbm_state.key p := by
      simp only [Obj.key]
      omega
    omega
  have d : Objs.hbm_state.default p loadable.dict.devId = 0 := rfl
  simp [State.pcRefuses, State.pcState, State.rd, DictUnit.rd, h, k, d, tfind]
theorem loadable_read (r n : Nat) : swRead loadable r n = (List.range n).map (fun i => tget 0 loadable.hbm.sw (r + i)) := by
  have h : ∀ k, loadable.ctl k = HbmCtl.init := fun _ => rfl
  simp [swRead, swByte, loadable_serves, h, HbmCtl.newest, HbmCtl.init]
theorem loadable_source : loadSource loadable .sdp = (goodImg, swSize) := by
  have h : loadable.rdCtx .sdp Objs.cs_load_source = 1 := by decide +kernel
  have h' : loadable.rdCtx .sdp Objs.cs_load_addr = 0 := by decide +kernel
  simp only [loadSource, h, h', loadable_read]
  rfl
theorem test_csLoad_accepted : Accepted .sdp Objs.cs_load 0 [4] (claimCheck .sdp) loadable ∧
    loadCheck loadable 4 (loadSource loadable .sdp).1 (loadSource loadable .sdp).2 = .ok fullGolden := by
  refine ⟨by decide +kernel, ?_⟩
  rw [loadable_source]
  exact loadCheck_good (by decide +kernel) (by decide +kernel) (by decide +kernel)

/-- The images of a boot have been accepted. -/
def bootable : State := { z with eft := { z.eft with phase := .stopped, bootFull := some goodImg, bootHue := some (hueImage 0x30007) } }

theorem bootHue_good : hueCheck (hueImage 0x30007) (hueImage 0x30007).length = 0 ∧ imageServes fullGolden.image (imgId (hueImage 0x30007)) = true := by decide +kernel
theorem bootLoad_ok {s : State} {f h : List Byte} {g : Golden} {bad : List Nat} (hf : fullCheck f f.length = .ok g)
    (hh : hueCheck h h.length = 0 ∧ imageServes g.image (imgId h) = true) : s.bootLoad f h bad = (s.bootClutches g bad).bootHue h h.length := by
  simp only [State.bootLoad, hf, hh, and_self, if_true]
theorem loadedBoot_some {s : State} {f h : List Byte} {bad : List Nat} (hf : s.eft.bootFull = some f) (hh : s.eft.bootHue = some h) :
    s.loadedBoot bad = s.bootLoad f h bad := by
  simp only [State.loadedBoot, hf, hh]
theorem bootable_loads (s : State) (bad : List Nat) (h : s.eft.bootFull = some goodImg) (h' : s.eft.bootHue = some (hueImage 0x30007)) :
    s.loadedBoot bad = (s.bootClutches fullGolden bad).bootHue (hueImage 0x30007) (hueImage 0x30007).length :=
  (loadedBoot_some h h').trans (bootLoad_ok test_fullCheck bootHue_good)

theorem test_bootGo : Accepted .sdp Objs.boot_go 0 [1] bootGoCheck bootable ∧
    ((acceptBase .sdp Objs.boot_go 0 [1] bootable).loadedBoot [4]).isSome = true := by
  have h : ((bootable).loadedBoot).isSome = true := by
    rw [bootable_loads bootable [] rfl rfl]
    decide +kernel
  refine ⟨⟨by decide +kernel, ?_⟩, ?_⟩
  · have hb : ∀ x, bootGoCheck x bootable = .ok := by
      intro x
      have hn : bootable.loadedBoot.isNone = false := by
        cases hx : bootable.loadedBoot with
        | none => rw [hx] at h; cases h
        | some t => rfl
      simp only [bootGoCheck, hn, Bool.or_false]
      decide +kernel
    simp only [judgeWrite, hb]
    decide +kernel
  · rw [bootable_loads _ [4] rfl rfl]
    decide +kernel

end Sys2Proof.Tests
end

section
/-! The state after reset: what a dictionary that holds no written value reads, and that no thread runs before one is started. -/

namespace Sys2Proof.Machine

@[simp] theorem tfind_nil {α : Type} (k : Nat) : tfind ([] : Tab α) k = none := rfl

@[simp] theorem tget_nil {α : Type} (d : α) (k : Nat) : tget d [] k = d := rfl

/-- Where no value has been written, DEVICE_ID is its own default, 0 (R477). -/
theorem DictUnit.devId_of_objs_nil {u : DictUnit} (h : u.objs = []) : u.devId = 0 := by
  simp [DictUnit.devId, h]

/-- Where no value has been written, each object reads its default on a device with DEVICE_ID 0. -/
theorem DictUnit.rd_of_objs_nil {u : DictUnit} (h : u.objs = []) (o : Obj) (i : Nat) : u.rd o i = o.default i 0 := by
  simp [DictUnit.rd, DictUnit.devId_of_objs_nil h, h]

theorem State.th_of_threads_nil {s : State} (h : s.sk.threads = []) (k : Nat) : s.th k = Thread.init := by
  simp [State.th, h]

theorem State.reset_rd (o : Obj) (i : Nat) : State.reset.rd o i = o.default i 0 :=
  DictUnit.rd_of_objs_nil rfl o i

theorem State.reset_th (k : Nat) : State.reset.th k = Thread.init :=
  State.th_of_threads_nil rfl k

theorem Thread.init_st : Thread.init.st = .free := rfl

/-- Settles O55: the objects and the threads by the lemmas for a dictionary and a thread table that hold nothing; every other part by
the unit's value at reset. -/
theorem resetHoldsDefaults : Obligations.ResetHoldsDefaults := by
  have objects : ∀ (o : Obj) (i : Nat), State.reset.rd o i = o.default i 0 := State.reset_rd
  have threads : ∀ k, (State.reset.th k).st = .free := fun k => by rw [State.reset_th, Thread.init_st]
  exact ⟨objects, rfl, rfl, rfl, rfl, rfl, rfl, rfl, threads, rfl, rfl⟩

end Sys2Proof.Machine
end

section
/-! Reception: what counting the codewords and fragments of a frame leaves of the state, and what a frame that the MAC accepts does. -/

namespace Sys2Proof.Machine

/-! ## The counters of what comes with a frame -/

/-- The counters of a port that FRAME_RECEIVE moves before the MAC judges the frame (R50). -/
def rxCounters : List Obj := [Objs.fec_corrected, Objs.fec_uncorrected, Objs.mm_frag_rx]

theorem mem_rxCounters {c : Obj} : c ∈ rxCounters ↔ c = Objs.fec_corrected ∨ c = Objs.fec_uncorrected ∨ c = Objs.mm_frag_rx := by
  simp only [rxCounters, List.mem_cons, List.not_mem_nil, or_false]

/-- The counters of a port lie at the indices 0x2200 to 0x22FF. -/
theorem rxCounter_key_bounds {c : Obj} (hc : c ∈ rxCounters) {p : Nat} (hp : p < 256) :
    0x2200 * 256 ≤ c.key p ∧ c.key p < 0x2300 * 256 := by
  obtain rfl | rfl | rfl := mem_rxCounters.1 hc <;> simp only [Obj.key] <;> omega

theorem rxCounter_key_ne_idKey {c : Obj} (hc : c ∈ rxCounters) {p : Nat} (hp : p < 256) : c.key p ≠ idKey := by
  have hb := rxCounter_key_bounds hc hp
  simp only [idKey]
  omega

/-- An object outside the indices of the port counters is none of them. -/
theorem ne_rxCounter_key {k p : Nat} (hp : p < 256) (hk : k < 0x2200 * 256 ∨ 0x2300 * 256 ≤ k) : ∀ c ∈ rxCounters, c.key p ≠ k := by
  intro c hc
  have hb := rxCounter_key_bounds hc hp
  omega

/-- Of the dictionary, FEC counting writes its two counters: neither the events nor the mark of a high rate lie there. -/
theorem State.fecCount_dict (s : State) (p corrected bad : Nat) :
    (s.fecCount p corrected bad).dict = ((s.bump Objs.fec_corrected p corrected).bump Objs.fec_uncorrected p bad).dict := by
  simp only [State.fecCount]
  split_ifs <;> rfl

/-- FEC counting changes the dictionary, the events raised and the link side of ports. -/
theorem State.fecCount_frame (s : State) (p corrected bad : Nat) :
    s.fecCount p corrected bad =
      { s with dict := (s.fecCount p corrected bad).dict, fm := (s.fecCount p corrected bad).fm,
               ports := { s.ports with links := (s.fecCount p corrected bad).ports.links } } := by
  simp only [State.fecCount]
  split_ifs <;> rfl

/-- FEC counting writes only the FEC fields of the port's link side: the fault that the port receives stays. -/
theorem State.fecCount_rxFault (s : State) (p corrected bad : Nat) :
    ((s.fecCount p corrected bad).pl p).rxFault = (s.pl p).rxFault := by
  have links : ∃ x, (s.fecCount p corrected bad).ports = (s.setPl p x).ports ∧ x.rxFault = (s.pl p).rxFault := by
    simp only [State.fecCount]
    split_ifs <;> exact ⟨_, rfl, rfl⟩
  obtain ⟨x, hports, hx⟩ := links
  simpa only [State.pl, State.setPl, hports, tget_tset_same] using hx

/-- The state in which the MAC judges a frame: the codewords and fragments that came with it are counted. -/
def State.rxCounted (s : State) (p : Nat) (r : RxInfo) : State :=
  (s.fecCount p r.corrected.toNat r.uncorrected.toNat).bump Objs.mm_frag_rx p r.fragments

/-- While the MACs receive, the MAC judges the frame once what came with it is counted. -/
theorem frameReceive_eq_macReceive {s : State} (h : s.macClosed = false) (p : Nat) (frame : List Byte) (r : RxInfo) :
    frameReceive s p frame r = macReceive (s.rxCounted p r) p frame r := by
  simp [frameReceive, State.rxCounted, h]

theorem State.rxCounted_frame (s : State) (p : Nat) (r : RxInfo) :
    s.rxCounted p r =
      { s with dict := (s.rxCounted p r).dict, fm := (s.rxCounted p r).fm,
               ports := { s.ports with links := (s.rxCounted p r).ports.links } } := by
  have h := s.fecCount_frame p r.corrected.toNat r.uncorrected.toNat
  simp only [State.rxCounted]
  rw [h]
  rfl

theorem State.rxCounted_time (s : State) (p : Nat) (r : RxInfo) : (s.rxCounted p r).time = s.time := by
  rw [State.rxCounted_frame]

theorem State.rxCounted_inq (s : State) (p : Nat) (r : RxInfo) : (s.rxCounted p r).ports.inq = s.ports.inq := by
  rw [State.rxCounted_frame]

theorem State.rxCounted_pseq (s : State) (p : Nat) (r : RxInfo) : (s.rxCounted p r).ports.pseq = s.ports.pseq := by
  rw [State.rxCounted_frame]

theorem State.rxCounted_sig (s : State) (p : Nat) (r : RxInfo) : (s.rxCounted p r).ports.sig = s.ports.sig := by
  rw [State.rxCounted_frame]

theorem State.rxCounted_rxFault (s : State) (p : Nat) (r : RxInfo) : ((s.rxCounted p r).pl p).rxFault = (s.pl p).rxFault :=
  s.fecCount_rxFault p r.corrected.toNat r.uncorrected.toNat

/-- Every object but the three counters reads as before. -/
theorem State.rxCounted_rd (s : State) {p : Nat} (hp : p < 256) (r : RxInfo) {o : Obj} {i : Nat}
    (h : ∀ c ∈ rxCounters, c.key p ≠ o.key i) : (s.rxCounted p r).rd o i = s.rd o i := by
  have unmoved : ∀ c ∈ rxCounters, ∀ (u : DictUnit) (v : Nat), (u.wr c p v).rd o i = u.rd o i := fun c hc _ _ =>
    DictUnit.rd_wr_other (h c hc) (rxCounter_key_ne_idKey hc hp)
  simp only [State.rxCounted, State.rd_dict, State.bump_dict, State.fecCount_dict]
  rw [unmoved _ (by simp [mem_rxCounters]), unmoved _ (by simp [mem_rxCounters]), unmoved _ (by simp [mem_rxCounters])]

/-! ## What the MAC reads of the state -/

/-- R34: the fault of a port is judged from its mode, state and locks, the signals, and the fault that it receives. -/
theorem State.portFault_congr {s t : State} {p : Nat} (hmode : t.portMode p = s.portMode p)
    (hlink : t.link p = s.link p) (hlock : t.rd Objs.lane_lock p = s.rd Objs.lane_lock p) (hsig : t.ports.sig = s.ports.sig)
    (hfault : (t.pl p).rxFault = (s.pl p).rxFault) : t.portFault p = s.portFault p := by
  simp only [State.portFault, State.portPowered, State.lanesOf, State.laneSignal, State.portLocked, hmode, hlink,
    hlock, hsig, hfault]

/-- R358: the ingress time comes from W, the port's mode and FEC, and its board delays. -/
theorem inTime_congr {s t : State} {p : Nat} (htime : t.time = s.time) (hmode : t.portMode p = s.portMode p)
    (hfec : t.rd Objs.fec_mode p = s.rd Objs.fec_mode p) (hboard : t.rd Objs.ts_rx_board p = s.rd Objs.ts_rx_board p)
    (back : Nat) : inTime t p back = inTime s p back := by
  simp only [inTime, State.fec, State.rdInt, htime, hmode, hfec, hboard]

section
variable (s : State) {p : Nat} (hp : p < 256) (r : RxInfo)
include hp

/-- The settings and states of a port lie below its counters. -/
theorem State.rxCounted_rd_of_lt {o : Obj} {i : Nat} (h : o.key i < 0x2200 * 256) : (s.rxCounted p r).rd o i = s.rd o i :=
  s.rxCounted_rd hp r (ne_rxCounter_key hp (.inl h))

theorem State.rxCounted_portMode : (s.rxCounted p r).portMode p = s.portMode p :=
  s.rxCounted_rd_of_lt hp r (by simp only [Obj.key]; omega)

theorem State.rxCounted_link : (s.rxCounted p r).link p = s.link p :=
  s.rxCounted_rd_of_lt hp r (by simp only [Obj.key]; omega)

theorem State.rxCounted_maxFrame : (s.rxCounted p r).rd Objs.max_frame p = s.rd Objs.max_frame p :=
  s.rxCounted_rd_of_lt hp r (by simp only [Obj.key]; omega)

theorem State.rxCounted_isUp : (s.rxCounted p r).isUp p = s.isUp p := by
  simp only [State.isUp, s.rxCounted_link hp r]

theorem State.rxCounted_portFault : (s.rxCounted p r).portFault p = s.portFault p :=
  State.portFault_congr (s.rxCounted_portMode hp r) (s.rxCounted_link hp r)
    (s.rxCounted_rd_of_lt hp r (by simp only [Obj.key]; omega)) (s.rxCounted_sig p r) (s.rxCounted_rxFault p r)

theorem State.rxCounted_inTime (back : Nat) : inTime (s.rxCounted p r) p back = inTime s p back :=
  inTime_congr (s.rxCounted_time p r) (s.rxCounted_portMode hp r) (s.rxCounted_rd_of_lt hp r (by simp only [Obj.key]; omega))
    (s.rxCounted_rd hp r (ne_rxCounter_key hp (.inr (by simp only [Obj.key]; omega)))) back

theorem State.rxCounted_rxFrames : (s.rxCounted p r).rd Objs.rx_frames p = s.rd Objs.rx_frames p := by
  refine s.rxCounted_rd hp r fun c hc => ?_
  obtain rfl | rfl | rfl := mem_rxCounters.1 hc <;> simp only [Obj.key] <;> omega

end

/-! ## The accepted frame -/

/-- A frame is good on a port (R34, R47): whole in the length that the port takes, with its FCS, and no PAUSE frame. -/
structure FrameGood (s : State) (p : Nat) (frame : List Byte) : Prop where
  long : 64 ≤ frame.length
  short : frame.length ≤ s.rd Objs.max_frame p
  fcs : crc32 (frame.take (frame.length - 4)) = leNat (frame.drop (frame.length - 4))
  data : isPause frame = false

/-- The wire, the reassembly, the MAC's buffers and the input queue bring no error (R50, R51, R20). -/
structure RxClean (r : RxInfo) : Prop where
  pcs : r.pcsError = false
  reassembly : r.reassembly = false
  parity : r.parity = false
  queue : r.queueFull = false

/-- The frame and its octets are counted, and the packet enters step 1. -/
def State.acceptFrame (s : State) (p : Nat) (frame : List Byte) (r : RxInfo) : State :=
  ((s.bump Objs.rx_frames p).bump Objs.rx_octets p frame.length).enqueuePacket p (inTime s p r.back.toNat) frame none

/-- None of the MAC's discards takes a good frame on a port that is UP and not in fault. -/
theorem macReceive_eq_acceptFrame {s : State} {p : Nat} {frame : List Byte} {r : RxInfo} (hup : s.isUp p = true)
    (hfault : s.portFault p = false) (hr : RxClean r) (hf : FrameGood s p frame) :
    macReceive s p frame r = s.acceptFrame p frame r := by
  obtain ⟨hpcs, hreasm, hpar, hqueue⟩ := hr
  obtain ⟨hlong, hshort, hfcs, hpause⟩ := hf
  simp only [macReceive, State.acceptFrame, hup, hfault, hpcs, hreasm, hpar, hqueue, hpause, hfcs, Nat.not_lt.2 hlong,
    Nat.not_lt.2 hshort, Bool.not_true, Bool.or_self, Bool.false_eq_true, ne_eq, not_true_eq_false, if_false]

/-- What is counted with a frame does not make it good or bad. -/
theorem FrameGood.rxCounted {s : State} {p : Nat} {frame : List Byte} (hf : FrameGood s p frame) (hp : p < 256) (r : RxInfo) :
    FrameGood (s.rxCounted p r) p frame where
  long := hf.long
  short := (s.rxCounted_maxFrame hp r).symm ▸ hf.short
  fcs := hf.fcs
  data := hf.data

/-- The packet that an accepted frame becomes. -/
def State.rxPacket (s : State) (p lin : Nat) (frame : List Byte) : Packet :=
  ⟨s.hue.nextPid, newMd p (tget 0 s.ports.pseq (pipeOf p)) lin frame.length, prvAbsent, 0, 0, frame, [], none⟩

theorem State.acceptFrame_inq (s : State) (p : Nat) (frame : List Byte) (r : RxInfo) :
    tget [] (s.acceptFrame p frame r).ports.inq (pipeOf p) =
      tget [] s.ports.inq (pipeOf p) ++ [s.rxPacket p (inTime s p r.back.toNat) frame] :=
  tget_tset_same ..

/-- The PSEQ of a pipe counts its packets in 30 bits (R18). -/
theorem State.acceptFrame_pseq (s : State) (p : Nat) (frame : List Byte) (r : RxInfo) :
    tget 0 (s.acceptFrame p frame r).ports.pseq (pipeOf p) = (tget 0 s.ports.pseq (pipeOf p) + 1) % 2 ^ 30 :=
  tget_tset_same ..

theorem State.acceptFrame_rxFrames (s : State) {p : Nat} (hp : p < 256) (frame : List Byte) (r : RxInfo) :
    (s.acceptFrame p frame r).rd Objs.rx_frames p = satAdd 64 (s.rd Objs.rx_frames p) 1 := by
  have other : Objs.rx_octets.key p ≠ Objs.rx_frames.key p := by simp only [Obj.key]; omega
  have octets_id : Objs.rx_octets.key p ≠ idKey := by simp only [Obj.key, idKey]; omega
  have frames_id : Objs.rx_frames.key p ≠ idKey := by simp only [Obj.key, idKey]; omega
  have hdict : (s.acceptFrame p frame r).dict = ((s.bump Objs.rx_frames p).bump Objs.rx_octets p frame.length).dict := rfl
  rw [State.rd_dict, hdict, State.bump_dict, DictUnit.rd_wr_other other octets_id, State.bump_dict, DictUnit.rd_wr_same frames_id]
  rfl

theorem State.acceptFrame_frame (s : State) (p : Nat) (frame : List Byte) (r : RxInfo) :
    s.acceptFrame p frame r =
      { s with dict := (s.acceptFrame p frame r).dict, ports := (s.acceptFrame p frame r).ports,
               hue := (s.acceptFrame p frame r).hue } := rfl

/-- FRAME_RECEIVE of a good frame on a port that is UP: what came with it is counted, and it is accepted. -/
theorem exec_frameReceive_good {s : State} {p : Fin 256} {frame : List Byte} {r : RxInfo} (hopen : s.macClosed = false)
    (hup : s.isUp p = true) (hfault : s.portFault p = false) (hr : RxClean r) (hf : FrameGood s p frame) :
    exec (.frameReceive p frame r) s = .next ((s.rxCounted p r).acceptFrame p frame r) := by
  have hp := p.isLt
  have hmac := macReceive_eq_acceptFrame ((s.rxCounted_isUp hp r).trans hup) ((s.rxCounted_portFault hp r).trans hfault) hr
    (hf.rxCounted hp r)
  calc exec (.frameReceive p frame r) s = .next (frameReceive s p frame r) := rfl
    _ = _ := by rw [frameReceive_eq_macReceive hopen, hmac]

/-- Settles O1: the counting before the MAC's judgement moves nothing that the judgement, the ingress time or rx_frames reads, and the
acceptance then appends the packet and takes the next PSEQ. -/
theorem frameEntersStepOne : Obligations.FrameEntersStepOne := by
  intro p frame r s hopen hup hfault hpcs hreasm hpar hlong hshort hfcs hpause hqueue
  have hp := p.isLt
  refine ⟨(s.rxCounted p r).acceptFrame p frame r, (s.rxCounted p r).rxPacket p (inTime s p r.back.toNat) frame,
    ?_, ?_, rfl, ?_, ?_, ?_, ?_⟩
  · exact exec_frameReceive_good hopen hup hfault ⟨hpcs, hreasm, hpar, hqueue⟩ ⟨hlong, hshort, hfcs, hpause⟩
  · rw [State.acceptFrame_inq, s.rxCounted_inq, s.rxCounted_inTime hp]
  · rw [State.rxPacket, s.rxCounted_pseq]
  · rw [State.acceptFrame_pseq, s.rxCounted_pseq]
  · rw [State.acceptFrame_rxFrames _ hp, s.rxCounted_rxFrames hp]
  · rw [State.acceptFrame_frame, s.rxCounted_frame]

end Sys2Proof.Machine
end

section
/-! The MAC's discards (R34, R47, R50, R51): what each leaves, after what came with the frame is counted. -/

namespace Sys2Proof.Machine

/-- The wire brings a frame that the port takes: it is UP, in no fault, and the PCS sees no error. -/
structure WireGood (s : State) (p : Nat) (r : RxInfo) : Prop where
  up : s.isUp p = true
  fault : s.portFault p = false
  pcs : r.pcsError = false

/-- A frame reaches the MAC's own checks: the wire, its reassembly and the MAC's buffer are good. -/
structure FrameWhole (s : State) (p : Nat) (r : RxInfo) : Prop extends WireGood s p r where
  reassembly : r.reassembly = false
  parity : r.parity = false

/-- A whole frame has a length that the port takes, and its FCS. -/
structure FrameChecked (s : State) (p : Nat) (frame : List Byte) : Prop where
  long : 64 ≤ frame.length
  short : frame.length ≤ s.rd Objs.max_frame p
  fcs : crc32 (frame.take (frame.length - 4)) = leNat (frame.drop (frame.length - 4))

/-! ## One equation per discard -/

section
variable {s : State} {p : Nat} {frame : List Byte} {r : RxInfo}

theorem macReceive_of_wire_bad (h : s.isUp p = false ∨ s.portFault p = true ∨ r.pcsError = true) :
    macReceive s p frame r = s.bump Objs.rx_pcs_err p := by
  have bad : (!s.isUp p || s.portFault p || r.pcsError) = true := by
    obtain h | h | h := h <;> simp [h]
  rw [macReceive, if_pos bad]

/-- The MAC looks at a frame only where the wire is good. -/
theorem WireGood.cond (h : WireGood s p r) : ¬ (!s.isUp p || s.portFault p || r.pcsError) = true := by
  simp [h.up, h.fault, h.pcs]

theorem macReceive_of_reassembly_bad (h : WireGood s p r) (hr : r.reassembly = true) :
    macReceive s p frame r = (s.bump Objs.mm_reasm_err p).raise 9 p := by
  rw [macReceive, if_neg h.cond, if_pos hr]

theorem macReceive_of_parity_bad (h : WireGood s p r) (hr : r.reassembly = false) (hp : r.parity = true) :
    macReceive s p frame r = s.raise 11 p := by
  rw [macReceive, if_neg h.cond, if_neg (ne_true_of_eq_false hr), if_pos hp]

/-- The MAC's own checks of a whole frame. -/
theorem FrameWhole.macReceive_eq (h : FrameWhole s p r) :
    macReceive s p frame r =
      if frame.length < 64 then s.bump Objs.rx_runt p
      else if s.rd Objs.max_frame p < frame.length then s.bump Objs.rx_oversize p
      else if crc32 (frame.take (frame.length - 4)) ≠ leNat (frame.drop (frame.length - 4)) then s.bump Objs.rx_fcs_err p
      else if isPause frame then s.bump Objs.rx_pause p
      else if r.queueFull then (s.bump Objs.rx_overrun p).raise 6 p
      else s.acceptFrame p frame r := by
  rw [macReceive, if_neg h.cond, if_neg (ne_true_of_eq_false h.reassembly), if_neg (ne_true_of_eq_false h.parity)]
  rfl

theorem macReceive_of_runt (h : FrameWhole s p r) (hl : frame.length < 64) :
    macReceive s p frame r = s.bump Objs.rx_runt p := by
  rw [h.macReceive_eq, if_pos hl]

theorem macReceive_of_oversize (h : FrameWhole s p r) (hl : 64 ≤ frame.length) (hm : s.rd Objs.max_frame p < frame.length) :
    macReceive s p frame r = s.bump Objs.rx_oversize p := by
  rw [h.macReceive_eq, if_neg (by omega), if_pos hm]

theorem macReceive_of_fcs_bad (h : FrameWhole s p r) (hl : 64 ≤ frame.length) (hm : frame.length ≤ s.rd Objs.max_frame p)
    (hf : crc32 (frame.take (frame.length - 4)) ≠ leNat (frame.drop (frame.length - 4))) :
    macReceive s p frame r = s.bump Objs.rx_fcs_err p := by
  rw [h.macReceive_eq, if_neg (by omega), if_neg (by omega), if_pos hf]

/-- A whole frame of good length with its FCS is taken by a PAUSE frame's discard, by a full queue, or by step 1. -/
theorem FrameChecked.macReceive_eq (hf : FrameChecked s p frame) (h : FrameWhole s p r) :
    macReceive s p frame r =
      if isPause frame then s.bump Objs.rx_pause p
      else if r.queueFull then (s.bump Objs.rx_overrun p).raise 6 p
      else s.acceptFrame p frame r := by
  rw [h.macReceive_eq, if_neg (by have := hf.long; omega), if_neg (by have := hf.short; omega), if_neg (not_not.2 hf.fcs)]

theorem macReceive_of_pause (h : FrameWhole s p r) (hf : FrameChecked s p frame) (hp : isPause frame = true) :
    macReceive s p frame r = s.bump Objs.rx_pause p := by
  rw [hf.macReceive_eq h, if_pos hp]

theorem macReceive_of_overrun (h : FrameWhole s p r) (hf : FrameChecked s p frame) (hp : isPause frame = false)
    (hq : r.queueFull = true) : macReceive s p frame r = (s.bump Objs.rx_overrun p).raise 6 p := by
  rw [hf.macReceive_eq h, if_neg (ne_true_of_eq_false hp), if_pos hq]

end

/-! ## After the counting of what came with the frame -/

section
variable {s : State} {p : Nat} (hp : p < 256) {frame : List Byte} {r : RxInfo}
include hp

theorem WireGood.rxCounted (h : WireGood s p r) : WireGood (s.rxCounted p r) p r where
  up := (s.rxCounted_isUp hp r).trans h.up
  fault := (s.rxCounted_portFault hp r).trans h.fault
  pcs := h.pcs

theorem FrameWhole.rxCounted (h : FrameWhole s p r) : FrameWhole (s.rxCounted p r) p r where
  toWireGood := h.toWireGood.rxCounted hp
  reassembly := h.reassembly
  parity := h.parity

theorem FrameChecked.rxCounted (h : FrameChecked s p frame) : FrameChecked (s.rxCounted p r) p frame where
  long := h.long
  short := (s.rxCounted_maxFrame hp r).symm ▸ h.short
  fcs := h.fcs

end

/-- The counters of the MAC's discards (R50). -/
def discardCounters : List Obj :=
  [Objs.rx_pcs_err, Objs.mm_reasm_err, Objs.rx_runt, Objs.rx_oversize, Objs.rx_fcs_err, Objs.rx_pause, Objs.rx_overrun]

theorem mem_discardCounters {o : Obj} : o ∈ discardCounters ↔
    o = Objs.rx_pcs_err ∨ o = Objs.mm_reasm_err ∨ o = Objs.rx_runt ∨ o = Objs.rx_oversize ∨ o = Objs.rx_fcs_err ∨
      o = Objs.rx_pause ∨ o = Objs.rx_overrun := by
  simp only [discardCounters, List.mem_cons, List.not_mem_nil, or_false]

/-- A discard counts in its own counter, which the counting before it does not touch, and passes nothing on. -/
theorem State.rxCounted_discard (s : State) {p : Nat} (hp : p < 256) (r : RxInfo) {o : Obj} (ho : o ∈ discardCounters) :
    ((s.rxCounted p r).bump o p).rd o p = satAdd 64 (s.rd o p) 1 ∧ ((s.rxCounted p r).bump o p).ports.inq = s.ports.inq := by
  have own : o.key p ≠ idKey ∧ ∀ c ∈ rxCounters, c.key p ≠ o.key p := by
    simp only [mem_rxCounters]
    obtain rfl | rfl | rfl | rfl | rfl | rfl | rfl := mem_discardCounters.1 ho
    all_goals
      refine ⟨by simp only [Obj.key, idKey]; omega, ?_⟩
      rintro c (rfl | rfl | rfl) <;> simp only [Obj.key] <;> omega
  have size : 8 * o.ty.size = 64 := by
    obtain rfl | rfl | rfl | rfl | rfl | rfl | rfl := mem_discardCounters.1 ho <;> rfl
  obtain ⟨hid, hne⟩ := own
  have counted := s.rxCounted_rd hp r hne
  refine ⟨?_, s.rxCounted_inq p r⟩
  rw [State.rd_dict, State.bump_dict, DictUnit.rd_wr_same hid, size]
  exact congrArg (satAdd 64 · 1) counted

theorem State.mem_raise_raised (s : State) (src unit : Nat) :
    ∃ e ∈ (s.raise src unit).fm.raised, e.src = src ∧ e.unit = unit :=
  ⟨_, List.mem_append_right _ (List.mem_singleton_self _), rfl, rfl⟩

/-- Settles O2: the counting before the MAC's judgement moves nothing that the judgement reads, so the first check that fails counts in its
counter, or raises its event. -/
theorem frameDiscardsCount : Obligations.FrameDiscardsCount := by
  intro p frame r s hopen
  have hp := p.isLt
  have count {o : Obj} (ho : o ∈ discardCounters) := s.rxCounted_discard hp r ho
  refine ⟨macReceive (s.rxCounted p r) p frame r, congrArg Host.Outcome.next (frameReceive_eq_macReceive hopen p frame r),
    ?wire, ?reassembly, ?parity, ?own⟩
  case wire =>
    intro h
    rw [← s.rxCounted_isUp hp r, ← s.rxCounted_portFault hp r] at h
    rw [macReceive_of_wire_bad h]
    exact count (by simp [mem_discardCounters])
  case reassembly =>
    intro hup hfault hpcs hr
    rw [macReceive_of_reassembly_bad ((WireGood.mk hup hfault hpcs).rxCounted hp) hr]
    obtain ⟨hcount, hinq⟩ := count (o := Objs.mm_reasm_err) (by simp [mem_discardCounters])
    exact ⟨hcount, State.mem_raise_raised .., hinq⟩
  case parity =>
    intro hup hfault hpcs hr hpar
    rw [macReceive_of_parity_bad ((WireGood.mk hup hfault hpcs).rxCounted hp) hr hpar]
    exact ⟨State.mem_raise_raised .., s.rxCounted_inq p r⟩
  case own =>
    intro hup hfault hpcs hr hpar
    have whole : FrameWhole (s.rxCounted p r) p r := FrameWhole.rxCounted hp ⟨⟨hup, hfault, hpcs⟩, hr, hpar⟩
    have hmax := s.rxCounted_maxFrame hp r
    refine ⟨fun hl => ?runt, fun hl hm => ?oversize, fun hl hm hf => ?fcs, fun hl hm hf => ?checked⟩
    case runt =>
      rw [macReceive_of_runt whole hl]
      exact count (by simp [mem_discardCounters])
    case oversize =>
      rw [macReceive_of_oversize whole hl (hmax ▸ hm)]
      exact count (by simp [mem_discardCounters])
    case fcs =>
      rw [macReceive_of_fcs_bad whole hl (hmax ▸ hm) hf]
      exact count (by simp [mem_discardCounters])
    case checked =>
      have checked := FrameChecked.rxCounted hp (r := r) ⟨hl, hm, hf⟩
      refine ⟨fun hpause => ?_, fun hpause hq => ?_⟩
      · rw [macReceive_of_pause whole checked hpause]
        exact count (by simp [mem_discardCounters])
      · rw [macReceive_of_overrun whole checked hpause hq]
        obtain ⟨hcount, hinq⟩ := count (o := Objs.rx_overrun) (by simp [mem_discardCounters])
        exact ⟨hcount, State.mem_raise_raised .., hinq⟩

end Sys2Proof.Machine
end

section
/-! The objects of a port (R47, R49, R50, R386): what an operation leaves of them, stated as the list of those that it writes. -/

namespace Sys2Proof.Machine

/-! ## Port objects -/

/-- An object of the four tables with one row's value for each port. -/
abbrev PortObj (o : Obj) : Prop := o.m = 1 ∧ o.sub < 256 ∧ o.idx ∈ [0x2000, 0x2100, 0x2200, 0x3100]

theorem PortObj.key_eq {o : Obj} (h : PortObj o) (p : Nat) : o.key p = o.key 0 + 256 * p := by
  obtain ⟨hm, -⟩ := h
  simp only [Obj.key, hm]
  omega

/-- The keys of the port objects: three tables that follow each other, and the ports' time objects. -/
theorem PortObj.key_bounds {o : Obj} (h : PortObj o) {p : Nat} (hp : p < 256) :
    0x2000 * 256 ≤ o.key p ∧ o.key p < 0x2300 * 256 ∨ 0x3100 * 256 ≤ o.key p ∧ o.key p < 0x3200 * 256 := by
  obtain ⟨hm, hs, hi⟩ := h
  simp only [List.mem_cons, List.not_mem_nil, or_false] at hi
  simp only [Obj.key, hm]
  omega

theorem PortObj.key_ne_idKey {o : Obj} (h : PortObj o) (p : Nat) : o.key p ≠ idKey := by
  obtain ⟨hm, -, hi⟩ := h
  simp only [List.mem_cons, List.not_mem_nil, or_false] at hi
  simp only [Obj.key, hm, idKey]
  omega

theorem PortObj.key_ne {o x : Obj} (ho : PortObj o) (hx : PortObj x) (h : x.key 0 ≠ o.key 0) (p : Nat) : x.key p ≠ o.key p := by
  rw [ho.key_eq, hx.key_eq]
  omega

theorem State.wr_rd_same (s : State) {o : Obj} (ho : PortObj o) (p v : Nat) : (s.wr o p v).rd o p = v :=
  DictUnit.rd_wr_same (ho.key_ne_idKey p)

theorem State.wr_rd_port (s : State) {o x : Obj} (ho : PortObj o) (hx : PortObj x) (h : x.key 0 ≠ o.key 0) (p v : Nat) :
    (s.wr x p v).rd o p = s.rd o p :=
  DictUnit.rd_wr_other (ho.key_ne hx h p) (hx.key_ne_idKey p)

/-! ## What an operation leaves -/

/-- Every object of the port but those of `l` reads in `t` as in `s`. -/
def KeepsPort (l : List Obj) (p : Nat) (s t : State) : Prop :=
  ∀ o, PortObj o → (∀ x ∈ l, x.key 0 ≠ o.key 0) → t.rd o p = s.rd o p

theorem KeepsPort.trans {l m : List Obj} {p : Nat} {s t u : State} (h : KeepsPort l p s t) (h' : KeepsPort m p t u) :
    KeepsPort (l ++ m) p s u := fun o ho hl =>
  (h' o ho fun x hx => hl x (List.mem_append_right l hx)).trans (h o ho fun x hx => hl x (List.mem_append_left m hx))

theorem KeepsPort.mono {l m : List Obj} {p : Nat} {s t : State} (h : KeepsPort l p s t) (hlm : ∀ x ∈ l, x ∈ m) : KeepsPort m p s t :=
  fun o ho hm => h o ho fun x hx => hm x (hlm x hx)

/-- Where the dictionary stays, so does every object. -/
theorem KeepsPort.of_dict {s t : State} (h : t.dict = s.dict) (p : Nat) : KeepsPort [] p s t := fun o _ _ => by
  rw [State.rd_dict, h, State.rd_dict]

theorem State.wr_keepsPort (s : State) {x : Obj} (hx : PortObj x) (p v : Nat) : KeepsPort [x] p s (s.wr x p v) := fun _ ho h =>
  s.wr_rd_port ho hx (h x (List.mem_singleton_self x)) p v

theorem State.bump_keepsPort (s : State) {x : Obj} (hx : PortObj x) (p n : Nat) : KeepsPort [x] p s (s.bump x p n) :=
  s.wr_keepsPort hx p _

/-- Steps that change the fabric's part of the state alone, one after another, change it alone. -/
theorem foldl_tm {α : Type} {step : State → α → State} (h : ∀ s a, ∃ u, step s a = { s with tm := u }) (l : List α) (s : State) :
    ∃ u, l.foldl step s = { s with tm := u } :=
  List.foldlRecOn (motive := fun t : State => ∃ u, t = { s with tm := u }) l step ⟨s.tm, rfl⟩ fun t ht a _ => by
    obtain ⟨u, hu⟩ := ht
    obtain ⟨v, hv⟩ := h t a
    exact ⟨v, by rw [hv, hu]⟩

end Sys2Proof.Machine
end

section
/-! What the parts of a port's link and egress side leave of the state: the flush, the cut of a frame in transmission, the
declarations of XOFF, and the port's fault and speed. -/

namespace Sys2Proof.Machine

/-! ## XOFF declarations (R324) -/

/-- A group that declares anew writes its xoff_map and the fabric's part of the state. -/
theorem State.xoffUpdate_frame (s : State) (g : Nat) : ∃ v u, s.xoffUpdate g = { s.wr Objs.xoff_map g v with tm := u } := by
  have timers (m n : Nat) (t : State) (c : Nat) :
      ∃ u, (if bit m c = bit n c then t else timersXoff t g c (bit n c)) = { t with tm := u } := by
    split_ifs
    · exact ⟨t.tm, rfl⟩
    · exact ⟨_, rfl⟩
  obtain ⟨u, h⟩ := foldl_tm (timers _ _) (List.range 8) _
  exact ⟨_, u, h⟩

/-- xoff_map is no object of a port. -/
theorem State.xoffUpdate_keepsPort (s : State) (g : Nat) {p : Nat} (hp : p < 256) : KeepsPort [] p s (s.xoffUpdate g) := fun o ho _ => by
  obtain ⟨v, u, h⟩ := s.xoffUpdate_frame g
  have hb := ho.key_bounds hp
  rw [h]
  exact DictUnit.rd_wr_other (by simp only [Obj.key] at hb ⊢; omega) (by simp only [Obj.key, idKey]; omega)

theorem State.xoffUpdate_fm (s : State) (g : Nat) : (s.xoffUpdate g).fm = s.fm := by
  obtain ⟨v, u, h⟩ := s.xoffUpdate_frame g
  rw [h]
  rfl

theorem State.xoffUpdate_eg (s : State) (g : Nat) : (s.xoffUpdate g).eg = s.eg := by
  obtain ⟨v, u, h⟩ := s.xoffUpdate_frame g
  rw [h]
  rfl

/-! ## Flush of the egress side (R38, R39) -/

/-- A port's eight queues and its launch calendar hold nothing. -/
def State.Flushed (s : State) (p : Nat) : Prop := (s.ep p).queues = List.replicate 8 [] ∧ (s.ep p).cal = []

theorem State.Flushed.of_eg {s t : State} {p : Nat} (h : s.Flushed p) (he : t.eg = s.eg) : t.Flushed p := by
  rw [State.Flushed, State.ep, he]
  exact h

theorem State.setEp_ep (s : State) (p : Nat) (x : EgPort) : (s.setEp p x).ep p = x := tget_tset_same ..

/-- A flush empties the port, counts what it discards, and marks the queues' averages. -/
theorem State.egFlush_frame (s : State) (p : Nat) :
    ∃ n u, s.egFlush p =
      { (s.setEp p { s.ep p with queues := List.replicate 8 [], cal := [] }).bump Objs.tx_drop_down p n with tm := u } := by
  have marks (t : State) (q : Nat) : ∃ u, (if (s.ep p).q q = [] then t else t.redEmpty (65536 + p * 8 + q)) = { t with tm := u } := by
    split_ifs
    · exact ⟨t.tm, rfl⟩
    · exact ⟨_, rfl⟩
  obtain ⟨u, h⟩ := foldl_tm marks (List.range 8) _
  exact ⟨_, u, h⟩

theorem State.egFlush_keepsPort (s : State) (p : Nat) : KeepsPort [Objs.tx_drop_down] p s (s.egFlush p) := fun o ho h => by
  obtain ⟨n, u, hf⟩ := s.egFlush_frame p
  rw [hf]
  exact (s.setEp p _).bump_keepsPort (by decide) p n o ho h

theorem State.egFlush_fm (s : State) (p : Nat) : (s.egFlush p).fm = s.fm := by
  obtain ⟨n, u, h⟩ := s.egFlush_frame p
  rw [h]
  rfl

theorem State.egFlush_flushed (s : State) (p : Nat) : (s.egFlush p).Flushed p := by
  obtain ⟨n, u, h⟩ := s.egFlush_frame p
  have he : (s.egFlush p).eg = (s.setEp p { s.ep p with queues := List.replicate 8 [], cal := [] }).eg := by rw [h]; rfl
  exact State.Flushed.of_eg (by rw [State.Flushed, State.setEp_ep]; exact ⟨rfl, rfl⟩) he

theorem State.egFlushHeld_keepsPort (s : State) (p : Nat) : KeepsPort [Objs.tx_drop_down] p s (s.egFlushHeld p) :=
  ((s.egFlush_keepsPort p).trans (((s.egFlush p).setEp p _).bump_keepsPort (x := Objs.tx_drop_down) (by decide) p _)).mono
    (by simp)

theorem State.egFlushHeld_fm (s : State) (p : Nat) : (s.egFlushHeld p).fm = s.fm := s.egFlush_fm p

theorem State.egFlushHeld_flushed (s : State) (p : Nat) : (s.egFlushHeld p).Flushed p := by
  have h : (s.egFlushHeld p).ep p = { (s.egFlush p).ep p with expr := [] } := State.setEp_ep ..
  rw [State.Flushed, h]
  exact s.egFlush_flushed p

/-! ## The cut of a frame in transmission (R37) -/

/-- The counters of frames sent and cut. -/
def txCounters : List Obj := [Objs.tx_frames, Objs.tx_octets, Objs.mm_frag_tx, Objs.tx_aborted]

theorem State.txCount_keepsPort (s : State) (p : Nat) (t : TxFrame) : KeepsPort txCounters p s (s.txCount p t) := by
  have sent : KeepsPort [Objs.tx_frames, Objs.tx_octets] p s ((s.bump Objs.tx_frames p).bump Objs.tx_octets p t.total) :=
    (s.bump_keepsPort (by decide) p _).trans (State.bump_keepsPort _ (by decide) p _)
  simp only [State.txCount]
  split_ifs
  · exact (sent.trans (State.bump_keepsPort _ (x := Objs.mm_frag_tx) (by decide) p _)).mono (by simp [txCounters])
  · exact sent.mono (by simp [txCounters])

/-- The MAC's going on either changes nothing, or takes a frame out of the MAC and counts it. -/
theorem State.txSettle_cases (s : State) (p : Nat) : s.txSettle p = s ∨ ∃ x t, s.txSettle p = (s.setEp p x).txCount p t := by
  simp only [State.txSettle]
  split
  · split_ifs
    · exact .inr ⟨_, _, rfl⟩
    · exact .inl rfl
  · split
    · split_ifs
      · exact .inr ⟨_, _, rfl⟩
      · exact .inl rfl
    · exact .inl rfl

theorem State.txSettle_keepsPort (s : State) (p : Nat) : KeepsPort txCounters p s (s.txSettle p) := by
  obtain h | ⟨x, t, h⟩ := s.txSettle_cases p
  · rw [h]
    exact fun _ _ _ => rfl
  · rw [h]
    exact (s.setEp p x).txCount_keepsPort p t

theorem State.txSettle_fm (s : State) (p : Nat) : (s.txSettle p).fm = s.fm := by
  obtain h | ⟨x, t, h⟩ := s.txSettle_cases p
  · rw [h]
  · rw [h, State.txCount]
    split_ifs <;> rfl

theorem State.raiseEach_dict (s : State) (n src unit : Nat) : (s.raiseEach n src unit).dict = s.dict :=
  List.foldlRecOn (motive := fun t : State => t.dict = s.dict) _ _ rfl fun _ ht _ _ => ht

/-- What a state has raised is the start of what a later one has. -/
theorem State.raise_keepsRaised (s : State) (src unit : Nat) : s.fm.raised <+: (s.raise src unit).fm.raised := ⟨_, rfl⟩

theorem State.raiseEach_keepsRaised (s : State) (n src unit : Nat) : s.fm.raised <+: (s.raiseEach n src unit).fm.raised :=
  List.foldlRecOn (motive := fun t : State => s.fm.raised <+: t.fm.raised) _ _ ⟨[], List.append_nil _⟩
    fun t ht _ _ => ht.trans (t.raise_keepsRaised src unit)

/-- The frames in transmission leave the MACs of a port, each told to the outside. -/
def State.txTaken (s : State) (p : Nat) : State :=
  let x := s.ep p
  let s := s.setEp p { x with txE := none, txP := none }
  let s := if x.txE.isSome then s.put (.frameCut p false) else s
  if x.txP.isSome then s.put (.frameCut p true) else s

theorem State.txTaken_dict (s : State) (p : Nat) : (s.txTaken p).dict = s.dict := by
  simp only [State.txTaken]
  split_ifs <;> rfl

theorem State.txTaken_fm (s : State) (p : Nat) : (s.txTaken p).fm = s.fm := by
  simp only [State.txTaken]
  split_ifs <;> rfl

/-- A cut takes the frames out of the MACs, then counts and raises each of them. -/
theorem State.txAbort_cases (s : State) (p : Nat) :
    s.txAbort p = ((s.txSettle p).txSettle p).txTaken p ∨
      ∃ n, s.txAbort p = ((((s.txSettle p).txSettle p).txTaken p).bump Objs.tx_aborted p n).raiseEach n 13 p := by
  by_cases h : b2n (((s.txSettle p).txSettle p).ep p).txE.isSome + b2n (((s.txSettle p).txSettle p).ep p).txP.isSome = 0
  · exact .inl (if_pos h)
  · exact .inr ⟨_, if_neg h⟩

theorem State.txAbort_keepsPort (s : State) (p : Nat) : KeepsPort txCounters p s (s.txAbort p) := by
  have taken : KeepsPort txCounters p s (((s.txSettle p).txSettle p).txTaken p) :=
    (((s.txSettle_keepsPort p).trans (State.txSettle_keepsPort _ p)).trans (.of_dict (State.txTaken_dict _ p) p)).mono (by simp)
  obtain h | ⟨n, h⟩ := s.txAbort_cases p
  · rw [h]
    exact taken
  · rw [h]
    exact ((taken.trans (State.bump_keepsPort _ (x := Objs.tx_aborted) (by decide) p n)).trans
      (.of_dict (State.raiseEach_dict ..) p)).mono (by simp [txCounters])

theorem State.txAbort_keepsRaised (s : State) (p : Nat) : s.fm.raised <+: (s.txAbort p).fm.raised := by
  have taken : (((s.txSettle p).txSettle p).txTaken p).fm = s.fm := by
    rw [State.txTaken_fm, State.txSettle_fm, State.txSettle_fm]
  obtain h | ⟨n, h⟩ := s.txAbort_cases p
  · rw [h, taken]
  · rw [h, ← taken]
    exact (State.bump _ Objs.tx_aborted p n).raiseEach_keepsRaised n 13 p

end Sys2Proof.Machine
end

section
/-! The link state of a port (R35): what the declarations, the filters, the hold time and the training timer do. -/

namespace Sys2Proof.Machine

/-! ## Events -/

/-- A state that has raised no more than `s` raises one more event. -/
theorem State.raise_raised {s t : State} (h : t.fm.raised = s.fm.raised) (src unit : Nat) : Raised src unit s (t.raise src unit) :=
  ⟨_, congrArg (· ++ _) h, rfl, rfl⟩

theorem Raised.of_fm {s t u : State} {src unit : Nat} (h : Raised src unit s t) (hu : u.fm = t.fm) : Raised src unit s u := by
  rwa [Raised, hu]

/-! ## The objects that follow the link state -/

/-- The objects that a port's way between the link states writes: its link state, what follows it, and its counters. -/
def linkObjs : List Obj :=
  [Objs.link_state, Objs.last_change, Objs.mm_status, Objs.ts_state, Objs.link_down_count, Objs.tx_drop_down, Objs.lt_late_sent,
   Objs.lt_late_drop] ++ txCounters

theorem State.setLink_keepsPort (s : State) (p x : Nat) : KeepsPort [Objs.link_state, Objs.last_change] p s (s.setLink p x) := by
  rw [State.setLink]
  split_ifs
  · exact fun _ _ _ => rfl
  · exact (s.wr_keepsPort (by decide) p x).trans (State.wr_keepsPort _ (by decide) p _)

theorem State.setLink_link (s : State) (p x : Nat) : (s.setLink p x).link p = x := by
  rw [State.setLink]
  split_ifs with h
  · exact h
  · rw [State.link, State.wr_rd_port _ (by decide) (by decide) (by decide), State.wr_rd_same _ (by decide)]

theorem State.setLink_lastChange {s : State} {p x : Nat} (h : s.link p ≠ x) : (s.setLink p x).rd Objs.last_change p = s.wStamp := by
  rw [State.setLink, if_neg h, State.wr_rd_same _ (by decide)]

theorem State.setLink_fm (s : State) (p x : Nat) : (s.setLink p x).fm = s.fm := by
  rw [State.setLink]
  split_ifs
  · rfl
  · rw [State.wr_fm, State.wr_fm]

theorem State.mmStart_keepsPort (s : State) (p : Nat) : KeepsPort [Objs.mm_status] p s (s.mmStart p) :=
  s.wr_keepsPort (by decide) p _

theorem State.startMacFlush_dict (s : State) (p : Nat) (o : Option Owner) : (s.startMacFlush p o).dict = s.dict := by
  simp only [State.startMacFlush]
  split_ifs <;> rfl

theorem State.startMacFlush_fm (s : State) (p : Nat) (o : Option Owner) : (s.startMacFlush p o).fm = s.fm := by
  simp only [State.startMacFlush]
  split_ifs <;> rfl

/-! ## Out of UP -/

theorem State.mmStart_fm (s : State) (p : Nat) : (s.mmStart p).fm = s.fm := by rw [State.mmStart, State.wr_fm]

/-- The loss of a link is counted, and raises EV000. -/
def State.linkLost (s : State) (p : Nat) : State := (s.bump Objs.link_down_count p).raise 0 p

theorem State.linkLost_keepsPort (s : State) (p : Nat) : KeepsPort [Objs.link_down_count] p s (s.linkLost p) :=
  s.bump_keepsPort (by decide) p 1

theorem State.linkLost_raised (s : State) (p : Nat) :
    s.fm.raised <+: (s.linkLost p).fm.raised ∧ ∃ e ∈ (s.linkLost p).fm.raised, e.src = 0 ∧ e.unit = p :=
  ⟨State.raise_keepsRaised (s.bump Objs.link_down_count p) 0 p, State.mem_raise_raised (s.bump Objs.link_down_count p) 0 p⟩

/-- The timestamp state of a port, and its quiet intervals (R360), start again from `x`. -/
def State.tsRestart (s : State) (p x : Nat) : State :=
  { s.wr Objs.ts_state p x with time := { s.time with quiet := tdel p s.time.quiet } }

theorem State.tsRestart_keepsPort (s : State) (p x : Nat) : KeepsPort [Objs.ts_state] p s (s.tsRestart p x) :=
  s.wr_keepsPort (by decide) p x

theorem State.tsRestart_tsState (s : State) (p x : Nat) : (s.tsRestart p x).rd Objs.ts_state p = x := s.wr_rd_same (by decide) p x

theorem State.tsRestart_fm (s : State) (p x : Nat) : (s.tsRestart p x).fm = s.fm := rfl

/-- A port leaves UP, before its addresses are flushed. -/
def State.leftUp (s : State) (p x : Nat) : State := ((((s.txAbort p).linkLost p).setLink p x).mmStart p).tsRestart p 0

/-- The address flush (R43) is the tables'. -/
theorem State.leaveUp_eq (s : State) (p x : Nat) :
    s.leaveUp p x = if s.rd Objs.mac_flush_on_down p = 1 then (s.leftUp p x).startMacFlush p none else s.leftUp p x := by
  simp only [State.leaveUp, State.leftUp, State.linkLost, State.tsRestart]

theorem State.leaveUp_dict (s : State) (p x : Nat) : (s.leaveUp p x).dict = (s.leftUp p x).dict := by
  rw [State.leaveUp_eq]
  split_ifs
  · rw [State.startMacFlush_dict]
  · rfl

theorem State.leaveUp_fm (s : State) (p x : Nat) : (s.leaveUp p x).fm = ((s.txAbort p).linkLost p).fm := by
  have left : (s.leftUp p x).fm = ((s.txAbort p).linkLost p).fm := by
    rw [State.leftUp, State.tsRestart_fm, State.mmStart_fm, State.setLink_fm]
  rw [← left, State.leaveUp_eq]
  split_ifs
  · rw [State.startMacFlush_fm]
  · rfl

/-- What a port does on leaving UP after its link state has changed. -/
theorem State.leaveUp_keepsLink (s : State) (p x : Nat) :
    KeepsPort [Objs.mm_status, Objs.ts_state] p (((s.txAbort p).linkLost p).setLink p x) (s.leaveUp p x) :=
  (((State.mmStart_keepsPort _ p).trans (State.tsRestart_keepsPort _ p 0)).trans (.of_dict (s.leaveUp_dict p x) p)).mono (by simp)

theorem State.leaveUp_tsState (s : State) (p x : Nat) : (s.leaveUp p x).rd Objs.ts_state p = 0 :=
  (KeepsPort.of_dict (s.leaveUp_dict p x) p _ (by decide) (by decide)).trans (State.tsRestart_tsState _ p 0)

theorem State.leaveUp_link (s : State) (p x : Nat) : (s.leaveUp p x).link p = x :=
  (s.leaveUp_keepsLink p x _ (by decide) (by decide)).trans (State.setLink_link _ p x)

theorem State.leaveUp_keepsPort (s : State) (p x : Nat) : KeepsPort linkObjs p s (s.leaveUp p x) :=
  ((((s.txAbort_keepsPort p).trans (State.linkLost_keepsPort _ p)).trans (State.setLink_keepsPort _ p x)).trans
    (s.leaveUp_keepsLink p x)).mono (by simp [linkObjs, txCounters])

theorem State.leaveUp_egFlush_keepsPort (s : State) (p x : Nat) : KeepsPort linkObjs p s ((s.leaveUp p x).egFlush p) :=
  ((s.leaveUp_keepsPort p x).trans (State.egFlush_keepsPort _ p)).mono
    (by simp only [linkObjs, List.mem_append, List.mem_cons]; tauto)

/-- A port that leaves UP raises EV000, after what it has raised for the frames it cut. -/
theorem State.leaveUp_raised (s : State) (p x : Nat) :
    s.fm.raised <+: (s.leaveUp p x).fm.raised ∧ ∃ e ∈ (s.leaveUp p x).fm.raised, e.src = 0 ∧ e.unit = p := by
  obtain ⟨hkeeps, hevent⟩ := State.linkLost_raised (s.txAbort p) p
  rw [State.leaveUp_fm]
  exact ⟨(s.txAbort_keepsRaised p).trans hkeeps, hevent⟩

/-! ## The down declaration (R35, R38, R42) -/

/-- The state in which a port goes DOWN has DOWN_POLICY 1 for HOLDING, any other for DOWN. -/
theorem State.declareDown_eq (s : State) (p : Nat) :
    ∃ x, s.declareDown p = (if s.rd Objs.down_policy p = 1 then (s.setPl p x).leaveUp p 3
      else ((s.setPl p x).leaveUp p 1).egFlush p).xoffUpdate (s.grpOfPort p) := ⟨_, rfl⟩

section
variable (s : State) {p : Nat} (hp : p < 256)
include hp

theorem State.declareDown_keepsPort : KeepsPort linkObjs p s (s.declareDown p) := by
  obtain ⟨x, h⟩ := s.declareDown_eq p
  rw [h]
  refine KeepsPort.mono (KeepsPort.trans ?_ (State.xoffUpdate_keepsPort _ _ hp)) (l := linkObjs ++ []) (by simp)
  split_ifs
  · exact State.leaveUp_keepsPort (s.setPl p x) p 3
  · exact State.leaveUp_egFlush_keepsPort (s.setPl p x) p 1

theorem State.declareDown_link : (s.declareDown p).link p = if s.rd Objs.down_policy p = 1 then 3 else 1 := by
  obtain ⟨x, h⟩ := s.declareDown_eq p
  rw [h, State.link, State.xoffUpdate_keepsPort _ _ hp _ (by decide) (by decide)]
  split_ifs
  · exact State.leaveUp_link ..
  · exact (State.egFlush_keepsPort _ p _ (by decide) (by decide)).trans (State.leaveUp_link ..)

theorem State.declareDown_tsState : (s.declareDown p).rd Objs.ts_state p = 0 := by
  obtain ⟨x, h⟩ := s.declareDown_eq p
  rw [h, State.xoffUpdate_keepsPort _ _ hp _ (by decide) (by decide)]
  split_ifs
  · exact State.leaveUp_tsState ..
  · exact (State.egFlush_keepsPort _ p _ (by decide) (by decide)).trans (State.leaveUp_tsState ..)

omit hp in
theorem State.declareDown_flushed (h : s.rd Objs.down_policy p ≠ 1) : (s.declareDown p).Flushed p := by
  obtain ⟨x, hx⟩ := s.declareDown_eq p
  rw [hx, if_neg h]
  exact (State.egFlush_flushed ..).of_eg (State.xoffUpdate_eg ..)

omit hp in
theorem State.declareDown_raised :
    s.fm.raised <+: (s.declareDown p).fm.raised ∧ ∃ e ∈ (s.declareDown p).fm.raised, e.src = 0 ∧ e.unit = p := by
  obtain ⟨x, h⟩ := s.declareDown_eq p
  rw [h, State.xoffUpdate_fm]
  split_ifs
  · exact State.leaveUp_raised (s.setPl p x) p 3
  · rw [State.egFlush_fm]
    exact State.leaveUp_raised (s.setPl p x) p 1

end

/-! ## Into UP (R35, R41) -/

/-- EV001 and the verify procedure of a port whose link state has become UP. -/
def State.linkUp (s : State) (p : Nat) : State := (s.raise 1 p).mmStart p

theorem State.linkUp_keepsPort (s : State) (p : Nat) : KeepsPort [Objs.mm_status] p s (s.linkUp p) := (s.raise 1 p).mmStart_keepsPort p

theorem State.linkUp_raised {s t : State} (h : t.fm = s.fm) (p : Nat) : Raised 1 p s (t.linkUp p) :=
  (State.raise_raised (congrArg (·.raised) h) 1 p).of_fm (State.mmStart_fm _ p)

/-- A port that enters UP, before the frames that it held are judged. -/
def State.enteredUp (s : State) (p : Nat) : State := ((s.setLink p 2).linkUp p).tsRestart p 1

theorem State.enterUp_eq (s : State) (p : Nat) :
    s.enterUp p = (if s.link p = 3 then (s.enteredUp p).lateHeld p else s.enteredUp p).xoffUpdate (s.grpOfPort p) := by
  rw [State.enterUp]
  simp only [decide_eq_true_eq]
  rfl

theorem State.lateHeld_keepsPort (s : State) (p : Nat) : KeepsPort [Objs.lt_late_sent, Objs.lt_late_drop] p s (s.lateHeld p) :=
  ((State.bump_keepsPort (s.setEp p _) (x := Objs.lt_late_sent) (by decide) p _).trans
    (State.bump_keepsPort _ (x := Objs.lt_late_drop) (by decide) p _)).trans (.of_dict (State.raiseEach_dict ..) p)

theorem State.enteredUp_keepsLink (s : State) (p : Nat) :
    KeepsPort [Objs.mm_status, Objs.ts_state] p (s.setLink p 2) (s.enteredUp p) :=
  (State.linkUp_keepsPort _ p).trans (State.tsRestart_keepsPort _ p 1)

theorem State.enteredUp_keepsPort (s : State) (p : Nat) :
    KeepsPort [Objs.link_state, Objs.last_change, Objs.mm_status, Objs.ts_state] p s (s.enteredUp p) :=
  (s.setLink_keepsPort p 2).trans (s.enteredUp_keepsLink p)

theorem State.enteredUp_link (s : State) (p : Nat) : (s.enteredUp p).link p = 2 :=
  (s.enteredUp_keepsLink p _ (by decide) (by decide)).trans (s.setLink_link p 2)

theorem State.enteredUp_tsState (s : State) (p : Nat) : (s.enteredUp p).rd Objs.ts_state p = 1 := State.tsRestart_tsState _ p 1

theorem State.enteredUp_lastChange {s : State} {p : Nat} (h : s.link p ≠ 2) : (s.enteredUp p).rd Objs.last_change p = s.wStamp :=
  (s.enteredUp_keepsLink p _ (by decide) (by decide)).trans (State.setLink_lastChange h)

theorem State.enteredUp_raised (s : State) (p : Nat) : Raised 1 p s (s.enteredUp p) :=
  (State.linkUp_raised (s.setLink_fm p 2) p).of_fm (State.tsRestart_fm _ p 1)

section
variable (s : State) {p : Nat} (hp : p < 256)
include hp

/-- After it entered UP, only the counters of late frames move. -/
theorem State.enterUp_keepsEntered : KeepsPort [Objs.lt_late_sent, Objs.lt_late_drop] p (s.enteredUp p) (s.enterUp p) := by
  rw [State.enterUp_eq]
  refine KeepsPort.mono (KeepsPort.trans ?_ (State.xoffUpdate_keepsPort _ _ hp))
    (l := [Objs.lt_late_sent, Objs.lt_late_drop] ++ []) (by simp)
  split_ifs
  · exact (s.enteredUp p).lateHeld_keepsPort p
  · exact fun _ _ _ => rfl

theorem State.enterUp_keepsPort : KeepsPort linkObjs p s (s.enterUp p) :=
  ((s.enteredUp_keepsPort p).trans (s.enterUp_keepsEntered hp)).mono (by simp [linkObjs])

theorem State.enterUp_link : (s.enterUp p).link p = 2 :=
  (s.enterUp_keepsEntered hp _ (by decide) (by decide)).trans (s.enteredUp_link p)

theorem State.enterUp_tsState : (s.enterUp p).rd Objs.ts_state p = 1 :=
  (s.enterUp_keepsEntered hp _ (by decide) (by decide)).trans (s.enteredUp_tsState p)

theorem State.enterUp_lastChange (h : s.link p ≠ 2) : (s.enterUp p).rd Objs.last_change p = s.wStamp :=
  (s.enterUp_keepsEntered hp _ (by decide) (by decide)).trans (State.enteredUp_lastChange h)

end

/-- A port that comes from DOWN holds no frames, so EV001 is all that it raises. -/
theorem State.enterUp_raised {s : State} {p : Nat} (h : s.link p ≠ 3) : Raised 1 p s (s.enterUp p) := by
  rw [State.enterUp_eq, if_neg h]
  exact (s.enteredUp_raised p).of_fm (State.xoffUpdate_fm ..)

/-! ## The timers -/

theorem upExpiry_of_down {s : State} {p : Nat} (hlink : s.link p = 1) (hbad : (s.pl p).bad = false) (htrain : s.training p = false)
    (hrun : s.elapsed (s.pl p).since (s.rd Objs.link_up_filter p) = true) : upExpiry s p = s.enterUp p :=
  if_pos (by simp only [hlink, hbad, htrain, hrun]; rfl)

theorem downExpiry_of_up {s : State} {p : Nat} (hup : s.isUp p = true) (hbad : (s.pl p).bad = true)
    (hrun : s.elapsed (s.pl p).since (s.rd Objs.link_down_filter p) = true) : downExpiry s p = s.declareDown p :=
  if_pos (by simp only [hup, hbad, hrun]; rfl)

theorem holdExpiry_of_holding {s : State} {p : Nat} (hlink : s.link p = 3)
    (hrun : s.elapsed (s.pl p).holdStart (s.pl p).holdLen = true) :
    holdExpiry s p = (((s.setLink p 1).egFlushHeld p).raise 8 p).xoffUpdate (s.grpOfPort p) :=
  if_pos ⟨hlink, hrun⟩

theorem trainTimeout_of_training {s : State} {l q i : Nat} (hport : s.trainPort l = some (q, i))
    (hrun : s.elapsed ((s.pl q).trainStart.getD i 0) 500000000 = true) :
    trainTimeout s l = (s.setPl q { s.pl q with trainStart := (s.pl q).trainStart.set i s.fNs }).raise 14 l := by
  rw [trainTimeout, hport]
  exact if_pos hrun

theorem State.setPl_pl (s : State) (p : Nat) (x : PortLink) : (s.setPl p x).pl p = x := tget_tset_same ..

/-- Settles O3: each timer, where it has run, is one of the declarations above; the training timer starts its lane again. -/
theorem portTimersMoveLinkState : Obligations.PortTimersMoveLinkState := by
  intro p s
  have hp := p.isLt
  refine ⟨fun hlink hbad htrain hrun => ?up, fun hup hbad hrun => ?down, fun hlink hrun => ?hold, fun l q i hport hrun => ?train⟩
  case up =>
    refine ⟨s.enterUp p, congrArg Host.Outcome.next (upExpiry_of_down hlink hbad htrain hrun), s.enterUp_link hp,
      s.enterUp_lastChange hp ?_, s.enterUp_tsState hp, State.enterUp_raised ?_⟩ <;> omega
  case down =>
    exact ⟨s.declareDown p, congrArg Host.Outcome.next (downExpiry_of_up hup hbad hrun), s.declareDown_link hp,
      s.declareDown_tsState hp, s.declareDown_flushed⟩
  case hold =>
    have down : ((s.setLink p 1).egFlushHeld p).link p = 1 :=
      (State.egFlushHeld_keepsPort _ p _ (by decide) (by decide)).trans (s.setLink_link p 1)
    have quiet : ((s.setLink p 1).egFlushHeld p).fm = s.fm := by rw [State.egFlushHeld_fm, State.setLink_fm]
    exact ⟨_, congrArg Host.Outcome.next (holdExpiry_of_holding hlink hrun),
      (State.xoffUpdate_keepsPort _ _ hp _ (by decide) (by decide)).trans down,
      (State.raise_raised (congrArg (·.raised) quiet) 8 p).of_fm (State.xoffUpdate_fm ..),
      ((s.setLink p 1).egFlushHeld_flushed p).of_eg (State.xoffUpdate_eg ..)⟩
  case train =>
    have restarted : (((s.setPl q { s.pl q with trainStart := (s.pl q).trainStart.set i s.fNs }).raise 14 l).pl q) =
        { s.pl q with trainStart := (s.pl q).trainStart.set i s.fNs } := s.setPl_pl q _
    refine ⟨_, congrArg Host.Outcome.next (trainTimeout_of_training hport hrun), State.raise_raised rfl 14 l, ?_, ?_⟩ <;> rw [restarted]

end Sys2Proof.Machine
end

section
/-! What the lanes, the PCS, the verify procedure and the phase measurement report of a port (R29, R31, R33, R34, R51, R360). -/

namespace Sys2Proof.Machine

/-! ## Single bits of a field -/

theorem bit_b2n (b : Bool) : bit (b2n b) 0 = b := by cases b <;> rfl

/-- The bit that a write puts into a word is what the word reads there. -/
theorem bit_setFld_b2n (v i : Nat) (b : Bool) : bit (setFld v i 1 (b2n b)) i = b := by
  rw [bit_setFld, if_pos (by omega), Nat.sub_self, bit_b2n]

/-! ## The fault of a port is judged again -/

theorem State.refresh_frame (s : State) (p : Nat) : s.refresh p = { s with ports := { s.ports with links := (s.refresh p).ports.links } } := by
  simp only [State.refresh]
  split_ifs <;> rfl

theorem State.refresh_dict (s : State) (p : Nat) : (s.refresh p).dict = s.dict := by rw [State.refresh_frame]

theorem State.refresh_fm (s : State) (p : Nat) : (s.refresh p).fm = s.fm := by rw [State.refresh_frame]

theorem State.refresh_sig (s : State) (p : Nat) : (s.refresh p).ports.sig = s.ports.sig := by rw [State.refresh_frame]

/-- Of the link side of the port, a new judgement writes the fault and its time alone. -/
theorem State.refresh_pl (s : State) (p : Nat) :
    (s.refresh p).pl p = { s.pl p with bad := ((s.refresh p).pl p).bad, since := ((s.refresh p).pl p).since } := by
  simp only [State.refresh]
  split_ifs
  · rfl
  · rw [State.setPl_pl]

/-! ## Signal, lock and received fault -/

/-- The ports of a lane judge their faults again: neither the signals nor the events change. -/
theorem foldl_refresh_frame (l : List Nat) (s : State) :
    (l.foldl State.refresh s).ports.sig = s.ports.sig ∧ (l.foldl State.refresh s).fm = s.fm :=
  List.foldlRecOn (motive := fun t : State => t.ports.sig = s.ports.sig ∧ t.fm = s.fm) l State.refresh ⟨rfl, rfl⟩
    fun t ht p _ => ⟨(t.refresh_sig p).trans ht.1, (t.refresh_fm p).trans ht.2⟩

/-- A lane's signal, before its ports judge their faults. -/
def State.setSignal (s : State) (l : Nat) (on : Bool) : State :=
  { s with ports := { s.ports with sig := setFld s.ports.sig l 1 (b2n on) } }

theorem signalChange_of_powered {s : State} {l : Nat} {on : Bool} (hpower : (s.portsOfLane l).any s.portPowered = true)
    (hnew : s.laneSignal l ≠ on) :
    signalChange s l on = (s.portsOfLane l).foldl State.refresh
      (if (!on && (s.portsOfLane l).any s.isUp) = true then (s.setSignal l on).raise 2 l else s.setSignal l on) := by
  have change : ¬ (!(s.portsOfLane l).any s.portPowered || s.laneSignal l == on) = true := by simp [hpower, hnew]
  exact if_neg change

/-- speed_active, and the events and the timestamp state that follow it, leave the lanes and ports alone. -/
theorem tellPairs_frame (s0 s1 : State) : tellPairs s0 s1 = { s1 with fm := (tellPairs s0 s1).fm } :=
  List.foldlRecOn (motive := fun t : State => t = { s1 with fm := t.fm }) _ _ rfl fun t ht r _ => by
    split_ifs
    · rw [ht]
      rfl
    · exact ht

theorem tellPairs_keepsPort (s0 s1 : State) (p : Nat) : KeepsPort [] p s1 (tellPairs s0 s1) :=
  .of_dict (by rw [tellPairs_frame]) p

theorem State.resolveSpeed_cases (s : State) (p : Nat) :
    s.resolveSpeed p = s ∨ ∃ v, s.resolveSpeed p = tellPairs s (s.wr Objs.speed_active p v) ∨
      s.resolveSpeed p = (tellPairs s (s.wr Objs.speed_active p v)).wr Objs.ts_state p 1 := by
  simp only [State.resolveSpeed]
  split_ifs
  · exact .inl rfl
  · exact .inr ⟨_, .inr rfl⟩
  · exact .inr ⟨_, .inl rfl⟩

theorem State.resolveSpeed_keepsPort (s : State) (p : Nat) : KeepsPort [Objs.speed_active, Objs.ts_state] p s (s.resolveSpeed p) := by
  have told (v : Nat) : KeepsPort [Objs.speed_active] p s (tellPairs s (s.wr Objs.speed_active p v)) :=
    (s.wr_keepsPort (by decide) p v).trans (tellPairs_keepsPort s _ p)
  obtain h | ⟨v, h | h⟩ := s.resolveSpeed_cases p <;> rw [h]
  · exact fun _ _ _ => rfl
  · exact (told v).mono (by simp)
  · exact (told v).trans (State.wr_keepsPort _ (by decide) p 1)

theorem State.resolveSpeed_ports (s : State) (p : Nat) : (s.resolveSpeed p).ports = s.ports := by
  have told (v : Nat) : (tellPairs s (s.wr Objs.speed_active p v)).ports = s.ports := by rw [tellPairs_frame, State.wr_ports]
  obtain h | ⟨v, h | h⟩ := s.resolveSpeed_cases p <;> rw [h]
  · exact told v
  · rw [State.wr_ports, told]

/-- The lock of a port's lanes and the PHY's speed, before speed and fault follow them. -/
def State.setLock (s : State) (p lock speed : Nat) : State :=
  let s1 := s.wr Objs.lane_lock p (lock % 2 ^ modeLanes (s.portMode p))
  s1.setPl p { s1.pl p with phy := phySpeed speed }

theorem lockChange_of_powered {s : State} {p : Nat} (h : s.portPowered p = true) (lock speed : Nat) :
    lockChange s p lock speed = ((s.setLock p lock speed).resolveSpeed p).refresh p := if_pos h

theorem State.setLock_lock (s : State) (p lock speed : Nat) :
    (s.setLock p lock speed).rd Objs.lane_lock p = lock % 2 ^ modeLanes (s.portMode p) := s.wr_rd_same (by decide) p _

theorem State.setLock_phy (s : State) (p lock speed : Nat) : ((s.setLock p lock speed).pl p).phy = phySpeed speed := by
  rw [State.setLock, State.setPl_pl]

/-- What follows a change of lock or speed leaves the lock and the PHY's speed as they are. -/
theorem State.resolved_lock_phy (s : State) (p : Nat) :
    ((s.resolveSpeed p).refresh p).rd Objs.lane_lock p = s.rd Objs.lane_lock p ∧
      (((s.resolveSpeed p).refresh p).pl p).phy = (s.pl p).phy := by
  constructor
  · rw [State.rd_dict, State.refresh_dict]
    exact s.resolveSpeed_keepsPort p _ (by decide) (by decide)
  · rw [State.refresh_pl, State.pl, State.resolveSpeed_ports]
    rfl

/-- The fault that a port receives, before its own fault follows. -/
def State.setFault (s : State) (p kind : Nat) : State := s.setPl p { s.pl p with rxFault := kind }

theorem faultReceive_of_powered {s : State} {p kind : Nat} (hpower : s.portPowered p = true) (hnew : (s.pl p).rxFault ≠ kind) :
    faultReceive s p kind = if kind ≠ 0 ∧ s.isUp p = true then ((s.setFault p kind).refresh p).raise 5 p else (s.setFault p kind).refresh p := by
  have change : ¬ (!s.portPowered p || (s.pl p).rxFault == kind) = true := by simp [hpower, hnew]
  exact if_neg change

theorem State.setFault_refresh_rxFault (s : State) (p kind : Nat) : (((s.setFault p kind).refresh p).pl p).rxFault = kind := by
  rw [State.refresh_pl, State.setFault, State.setPl_pl]

/-! ## A lost PLL lock (R51) -/

/-- The lock of one of a port's lanes is gone, and the port's fault follows. -/
def State.unlocked (s : State) (l p : Nat) : State :=
  (s.wr Objs.lane_lock p (setFld (s.rd Objs.lane_lock p) (l - p / 4) 1 0)).refresh p

/-- A port loses the lock of a lane, and goes out of UP. -/
def State.loseLock (s : State) (l p : Nat) : State :=
  if (s.unlocked l p).isUp p then (s.unlocked l p).declareDown p else s.unlocked l p

theorem pllUnlock_of_port {s : State} {l p : Nat} (h : (s.portsOfLane l).filter s.portPowered = [p]) :
    pllUnlock s l = (s.raise 10 l).loseLock l p := by
  rw [pllUnlock, h]
  rfl

theorem State.unlocked_keepsPort (s : State) (l p : Nat) : KeepsPort [Objs.lane_lock] p s (s.unlocked l p) :=
  (s.wr_keepsPort (by decide) p _).trans (.of_dict (State.refresh_dict _ p) p)

theorem State.unlocked_isUp (s : State) (l p : Nat) : (s.unlocked l p).isUp p = s.isUp p := by
  rw [State.isUp, State.link, s.unlocked_keepsPort l p _ (by decide) (by decide)]
  rfl

theorem State.unlocked_lock (s : State) (l p : Nat) :
    (s.unlocked l p).rd Objs.lane_lock p = setFld (s.rd Objs.lane_lock p) (l - p / 4) 1 0 :=
  (KeepsPort.of_dict (State.refresh_dict _ p) p _ (by decide) (by decide)).trans (s.wr_rd_same (by decide) p _)

theorem State.unlocked_fm (s : State) (l p : Nat) : (s.unlocked l p).fm = s.fm := by
  rw [State.unlocked, State.refresh_fm, State.wr_fm]

theorem State.loseLock_of_up {s : State} {l p : Nat} (h : s.isUp p = true) : s.loseLock l p = (s.unlocked l p).declareDown p :=
  if_pos ((s.unlocked_isUp l p).trans h)

theorem State.loseLock_of_not_up {s : State} {l p : Nat} (h : s.isUp p = false) : s.loseLock l p = s.unlocked l p :=
  if_neg (ne_true_of_eq_false ((s.unlocked_isUp l p).trans h))

/-! ## Training, verify procedure and phase -/

theorem trainDone_of_training {s : State} {l q i : Nat} (h : s.trainPort l = some (q, i)) :
    trainDone s l = s.setPl q { s.pl q with trained := setFld (s.pl q).trained i 1 1 } := by
  rw [trainDone, h]

theorem verifyDone_of_running {s : State} {p : Nat} (hup : s.isUp p = true) (hrun : s.rd Objs.mm_status p = 1) (ok : Bool) :
    verifyDone s p ok = if ok then s.wr Objs.mm_status p 2 else (s.wr Objs.mm_status p 3).raise 7 p := if_pos ⟨hup, hrun⟩

/-- The quiet intervals of a port (R360) after one more. -/
def State.countQuiet (s : State) (p move : Nat) : State :=
  { s with time := { s.time with quiet := tset 0 s.time.quiet p (if move ≤ 10 then min 16 (tget 0 s.time.quiet p + 1) else 0) } }

/-- A port that may be FINE, and is, stays so unless its phase moved by more than 50 ps. -/
theorem phaseInterval_of_fine {s : State} {p : Nat} (hfine : s.rd Objs.ts_state p = 2) (hnever : s.neverFine p = false) (move : Nat) :
    phaseInterval s p move =
      if 50 < move then ((s.countQuiet p move).wr Objs.ts_state p 1).raise 206 p else s.countQuiet p move := by
  simp only [phaseInterval, hfine, hnever, State.countQuiet, OfNat.ofNat_ne_zero, Bool.false_eq_true, if_false, if_true]

theorem State.neverFine_of_mode {s : State} {p : Nat} (h3 : s.portMode p ≠ 3) (h2 : s.portMode p ≠ 2) : s.neverFine p = false := by
  simp [State.neverFine, h3, h2]

/-- Settles O4: each report is one of the updates above. -/
theorem laneReportsTakeEffect : Obligations.LaneReportsTakeEffect := by
  intro p l s
  have hp := p.isLt
  refine ⟨fun on hpower hnew => ?signal, fun lock speed hpower => ?lock, fun kind hpower hnew => ?fault, fun q i hport => ?trained,
    fun hup hrun => ?verified, fun hup hrun => ?failed, fun hports hup => ?pllDown, fun hports hup => ?pllUp,
    fun move hfine h3 h2 => ?phase⟩
  case signal =>
    refine ⟨_, congrArg Host.Outcome.next (signalChange_of_powered hpower hnew), ?_, fun hoff hup => ?_⟩
    · rw [State.laneSignal, (foldl_refresh_frame _ _).1]
      split_ifs <;> exact bit_setFld_b2n ..
    · have lost : (!on && (s.portsOfLane l).any s.isUp) = true := by rw [hoff, hup]; rfl
      rw [if_pos lost]
      exact (State.raise_raised (t := s.setSignal l on) rfl 2 l).of_fm (foldl_refresh_frame _ _).2
  case lock =>
    obtain ⟨hlock, hphy⟩ := (s.setLock p lock.toNat speed).resolved_lock_phy p
    exact ⟨_, congrArg Host.Outcome.next (lockChange_of_powered hpower lock.toNat speed), hlock.trans (s.setLock_lock ..),
      hphy.trans (s.setLock_phy ..)⟩
  case fault =>
    have received := s.setFault_refresh_rxFault p kind
    refine ⟨_, congrArg Host.Outcome.next (faultReceive_of_powered hpower hnew), ?_, fun hkind hup => ?_⟩
    · split_ifs <;> exact received
    · have named : (kind : Nat) ≠ 0 := fun h => hkind (Fin.ext h)
      rw [if_pos ⟨named, hup⟩]
      exact State.raise_raised (congrArg (·.raised) (State.refresh_fm (s.setFault p kind) p)) 5 p
  case trained =>
    exact ⟨_, congrArg Host.Outcome.next (trainDone_of_training hport), congrArg PortLink.trained (s.setPl_pl q _)⟩
  case verified =>
    exact ⟨_, congrArg Host.Outcome.next (verifyDone_of_running hup hrun true), s.wr_rd_same (by decide) p 2⟩
  case failed =>
    exact ⟨_, congrArg Host.Outcome.next (verifyDone_of_running hup hrun false), s.wr_rd_same (by decide) p 3,
      State.raise_raised rfl 7 p⟩
  case pllDown =>
    refine ⟨_, congrArg Host.Outcome.next ((pllUnlock_of_port hports).trans (State.loseLock_of_not_up hup)), ?_, ?_⟩
    · exact (State.raise_raised rfl 10 l).of_fm (State.unlocked_fm ..)
    · exact State.unlocked_lock ..
  case pllUp =>
    have policy := (s.raise 10 l).unlocked_keepsPort l p Objs.down_policy (by decide) (by decide)
    obtain ⟨hkeeps, hevent⟩ := ((s.raise 10 l).unlocked l p).declareDown_raised (p := p)
    obtain ⟨e, he, hsrc⟩ := s.mem_raise_raised 10 l
    refine ⟨_, congrArg Host.Outcome.next ((pllUnlock_of_port hports).trans (State.loseLock_of_up hup)), ?_, ⟨e, ?_, hsrc⟩, hevent⟩
    · exact (State.declareDown_link _ hp).trans (by rw [policy]; rfl)
    · rw [State.unlocked_fm] at hkeeps
      exact hkeeps.subset he
  case phase =>
    refine ⟨_, congrArg Host.Outcome.next (phaseInterval_of_fine hfine (State.neverFine_of_mode h3 h2) move), fun hmove => ?_, fun hmove => ?_⟩
    · rw [if_pos hmove]
      exact ⟨State.wr_rd_same _ (by decide) p 1, State.raise_raised rfl 206 p⟩
    · rw [if_neg (by omega)]
      exact hfine

end Sys2Proof.Machine
end

section
/-! Writes of a port's objects (R27, R35, R48, R50): what an accepted write leaves before its object's own effect, and that effect. -/

namespace Sys2Proof.Machine

/-! ## What an accepted write of a port object does first -/

theorem PortObj.not_writeSide {o : Obj} (h : PortObj o) {p : Nat} (hp : p < 256) : ¬ writeSide (o.key p) := by
  have hb := h.key_bounds hp
  rintro (h | h | h | ⟨c, h⟩) <;> rw [h] at hb <;> simp only [Obj.key] at hb <;> omega

theorem PortObj.not_banked {o : Obj} (h : PortObj o) {p : Nat} (hp : p < 256) : banked (o.key p) = false := by
  have hb := h.key_bounds hp
  simp only [banked, decide_eq_false_iff_not, List.mem_cons, List.not_mem_nil, or_false]
  omega

theorem PortObj.not_pathLocal {o : Obj} (h : PortObj o) {p : Nat} (hp : p < 256) : pathLocal (o.key p) = false := by
  have hb := h.key_bounds hp
  simp only [pathLocal, Bool.or_eq_false_iff, Bool.and_eq_false_iff, decide_eq_false_iff_not, beq_eq_false_iff_ne, List.mem_cons,
    List.not_mem_nil, or_false]
  omega

/-- Before its object's own effect, an accepted write leaves time, the lanes and the ports alone. -/
theorem acceptBase_units {c : Ctx} {o : Obj} {i : Nat} {v : List Byte} {s : State} (hid : o.key i ≠ idKey) :
    (acceptBase c o i v s).time = s.time ∧ (acceptBase c o i v s).ports = s.ports := by
  obtain ⟨u, d, m, h, -⟩ := acceptBase_frame c o i v s hid
  rw [h]
  exact ⟨rfl, rfl⟩

section
variable {c : Ctx} {o : Obj} (ho : PortObj o) {p : Nat} (hp : p < 256) {v : List Byte} {s : State}
include ho hp

theorem acceptBase_keepsPort : KeepsPort [o] p s (acceptBase c o p v s) := fun x hx hne => by
  obtain ⟨u, d, m, h, hd, -⟩ := acceptBase_frame c o p v s (ho.key_ne_idKey p)
  rw [h]
  exact hd x p ((hx.key_ne ho (hne o (List.mem_singleton_self o)) p).symm) (hx.not_writeSide hp)

theorem acceptBase_value (hrw : o.acc = .rw) : (acceptBase c o p v s).rd o p = leNat v := by
  obtain ⟨u, d, m, h, -, hd⟩ := acceptBase_frame c o p v s (ho.key_ne_idKey p)
  rw [h]
  exact hd (ho.not_banked hp) hrw (ho.not_pathLocal hp) (ho.not_writeSide hp)

omit hp in
theorem acceptBase_pl (q : Nat) : (acceptBase c o p v s).pl q = s.pl q := by
  rw [State.pl, (acceptBase_units (ho.key_ne_idKey p)).2]
  rfl

omit hp in
theorem acceptBase_elapsed (start ns : Nat) : (acceptBase c o p v s).elapsed start ns = s.elapsed start ns := by
  rw [State.elapsed, State.sinceNs, State.fNs, (acceptBase_units (ho.key_ne_idKey p)).1]
  rfl

end

/-- R29: whether lanes of a port train is judged from its setting, its mode, its link state and the lanes that have trained. -/
theorem State.training_congr {s t : State} {p : Nat} (hset : t.rd Objs.link_training p = s.rd Objs.link_training p)
    (hmode : t.portMode p = s.portMode p) (hlink : t.link p = s.link p) (hpl : t.pl p = s.pl p) : t.training p = s.training p := by
  simp only [State.training, State.portPowered, hset, hmode, hlink, hpl]

theorem State.put_rd (s : State) (x : Output) (o : Obj) (i : Nat) : (s.put x).rd o i = s.rd o i := rfl

theorem State.put_pl (s : State) (x : Output) (p : Nat) : (s.put x).pl p = s.pl p := rfl

/-- An accepted write answers OK last. -/
theorem answered_ok (c : Ctx) (o : Obj) (i : Nat) (t : State) :
    Answered c o i .ok (t.put (.answer c (o.key i / 256) (o.key i % 256) 0 [])) :=
  List.getLast?_concat

/-! ## The effects -/

theorem State.modeFlush_keepsPort (s : State) {p : Nat} (hp : p < 256) : KeepsPort linkObjs p s (s.modeFlush p) := by
  refine KeepsPort.mono (KeepsPort.trans ?_ (State.xoffUpdate_keepsPort _ _ hp)) (l := linkObjs ++ []) (by simp)
  split_ifs
  · exact s.leaveUp_egFlush_keepsPort p 1
  · exact (s.egFlush_keepsPort p).mono (by simp [linkObjs])

/-- A mode that is not and was not USXGMII-M concerns the port alone (R27). -/
theorem portModeApply_single {p old x : Nat} (hold : old ≠ 3) (hx : x ≠ 3) (s : State) :
    portModeApply p old x s = if old = x then s else ((s.modeFlush p).resolveSpeed p).refresh p := by
  simp only [portModeApply, hold, hx, or_self, if_false, List.foldl_cons, List.foldl_nil]

theorem portModeApply_mode {p old x : Nat} (hp : p < 256) (hold : old ≠ 3) (hx : x ≠ 3) (s : State) :
    (portModeApply p old x s).portMode p = s.portMode p := by
  rw [portModeApply_single hold hx]
  split_ifs
  · rfl
  · have keeps := ((s.modeFlush_keepsPort hp).trans (State.resolveSpeed_keepsPort _ p)).trans (.of_dict (State.refresh_dict _ p) p)
    exact keeps _ (by decide) (by decide)

theorem State.powerUp_link (s : State) (p : Nat) : (s.powerUp p).link p = 1 :=
  (State.wr_rd_port _ (by decide) (by decide) (by decide) p 0).trans (s.setLink_link p 1)

theorem State.powerUp_keepsPort (s : State) (p : Nat) :
    KeepsPort [Objs.link_state, Objs.last_change, Objs.lane_lock] p s (s.powerUp p) :=
  (s.setLink_keepsPort p 1).trans (State.wr_keepsPort _ (by decide) p 0)

/-- A port that is powered up trains its lanes anew, and is in fault until it is judged. -/
theorem State.powerUp_pl (s : State) (p : Nat) : ((s.powerUp p).pl p).trained = 0 ∧ ((s.powerUp p).pl p).bad = true := by
  rw [State.powerUp, State.setPl_pl]
  exact ⟨rfl, rfl⟩

theorem adminUpApply_of_disabled {s : State} {p : Nat} (h : s.link p = 0) : adminUpApply p 1 s = s.powerUp p := by
  simp [adminUpApply, h]

/-- Whatever the filter's expiry does, the setting of the filter stays. -/
theorem upExpiry_keepsPort (s : State) {p : Nat} (hp : p < 256) : KeepsPort linkObjs p s (upExpiry s p) := by
  simp only [upExpiry]
  split_ifs
  · exact s.enterUp_keepsPort hp
  · exact fun _ _ _ => rfl

theorem downExpiry_keepsPort (s : State) {p : Nat} (hp : p < 256) : KeepsPort linkObjs p s (downExpiry s p) := by
  simp only [downExpiry]
  split_ifs
  · exact s.declareDown_keepsPort hp
  · exact fun _ _ _ => rfl

/-- A port's objects of a list, each set to `v`. -/
def State.wrAll (s : State) (l : List Obj) (p v : Nat) : State := l.foldl (fun (s : State) o => s.wr o p v) s

theorem State.wrAll_keepsPort {l : List Obj} (hl : ∀ o ∈ l, PortObj o) (s : State) (p v : Nat) : KeepsPort l p s (s.wrAll l p v) := by
  induction l generalizing s with
  | nil => exact fun _ _ _ => rfl
  | cons x l ih =>
    have own := s.wr_keepsPort (hl x List.mem_cons_self) p v
    exact own.trans (ih (fun o ho => hl o (List.mem_cons_of_mem x ho)) (s.wr x p v))

/-- Objects at different places keep what is written to each. -/
theorem State.wrAll_rd {l : List Obj} (hl : ∀ o ∈ l, PortObj o) (hd : l.Pairwise fun x y => y.key 0 ≠ x.key 0) (s : State) (p v : Nat) :
    ∀ o ∈ l, (s.wrAll l p v).rd o p = v := by
  induction l generalizing s with
  | nil => exact fun _ h => absurd h List.not_mem_nil
  | cons x l ih =>
    obtain ⟨hx, hl⟩ := List.forall_mem_cons.1 hl
    obtain ⟨hne, hd⟩ := List.pairwise_cons.1 hd
    refine List.forall_mem_cons.2 ⟨?_, ih hl hd (s.wr x p v)⟩
    exact (State.wrAll_keepsPort hl (s.wr x p v) p v x hx hne).trans (s.wr_rd_same hx p v)

theorem clearCounters_rd (p : Nat) (s : State) : ∀ o ∈ portCounters, (clearCounters p s).rd o p = 0 :=
  State.wrAll_rd (by decide) (by decide) s p 0

/-- Settles O5: an accepted write leaves its value and every other object of the port, so the port's own effect meets the conditions that
held before. -/
theorem portWritesTakeEffect : Obligations.PortWritesTakeEffect := by
  intro c p v s
  have hp := p.isLt
  have write {o : Obj} {check : Nat → State → Code} {apply : Nat → State → State} (h : Accepted c o p v check s) :
      Host.Outcome.next (writeObj c o p v check apply s) =
        (.next ((apply (leNat v) (acceptBase c o p v s)).put (.answer c (o.key p / 256) (o.key p % 256) 0 [])) : Out) :=
    congrArg Host.Outcome.next (writeObj_accepted h.1 h.2)
  have base {o : Obj} (ho : PortObj o) := acceptBase_keepsPort (c := c) ho hp (v := v) (s := s)
  have value {o : Obj} (ho : PortObj o) (hrw : o.acc = .rw) := acceptBase_value (c := c) ho hp (v := v) (s := s) hrw
  have link {o : Obj} (ho : PortObj o) := acceptBase_pl (c := c) ho (p := p) (v := v) (s := s) p
  refine ⟨fun hacc hold hnew => ?mode, fun hacc hone hlink => ?admin, fun hacc => ?upFilter, fun hacc => ?downFilter, fun hacc => ?counters⟩
  case mode =>
    refine ⟨_, write hacc, answered_ok .., ?_⟩
    have told := tellPairs_keepsPort s (portModeApply p (s.portMode p) (leNat v) (acceptBase c Objs.port_mode p v s)) p
    have applied := (told Objs.port_mode (by decide) (by decide)).trans (portModeApply_mode hp hold hnew _)
    rw [State.portMode, State.put_rd]
    exact applied.trans (value (by decide) rfl)
  case admin =>
    have kept := base (o := Objs.admin_up) (by decide)
    have up := adminUpApply_of_disabled ((kept Objs.link_state (by decide) (by decide)).trans hlink)
    refine ⟨_, write hacc, answered_ok .., ?_⟩
    rw [hone, up]
    simp only [State.put_rd, State.put_pl]
    refine ⟨?_, State.powerUp_link _ p, State.powerUp_pl _ p⟩
    exact (State.powerUp_keepsPort _ p _ (by decide) (by decide)).trans ((value (by decide) rfl).trans hone)
  case upFilter =>
    have kept := base (o := Objs.link_up_filter) (by decide)
    have set := value (o := Objs.link_up_filter) (by decide) rfl
    have side := link (o := Objs.link_up_filter) (by decide)
    refine ⟨_, write hacc, answered_ok .., ?_, fun hlink hbad htrain hrun => ?_⟩
    · rw [State.put_rd]
      exact (upExpiry_keepsPort _ hp Objs.link_up_filter (by decide) (by decide)).trans set
    · have hlink' := (kept Objs.link_state (by decide) (by decide)).trans hlink
      have htrain' := (State.training_congr (kept _ (by decide) (by decide)) (kept _ (by decide) (by decide))
        (kept _ (by decide) (by decide)) side).trans htrain
      have expired := upExpiry_of_down hlink' (by rw [side]; exact hbad) htrain'
        (by rw [set, side, acceptBase_elapsed (by decide)]; exact hrun)
      rw [State.put_rd, expired]
      exact State.enterUp_link _ hp
  case downFilter =>
    have kept := base (o := Objs.link_down_filter) (by decide)
    have set := value (o := Objs.link_down_filter) (by decide) rfl
    have side := link (o := Objs.link_down_filter) (by decide)
    refine ⟨_, write hacc, answered_ok .., ?_, fun hup hbad hrun => ?_⟩
    · rw [State.put_rd]
      exact (downExpiry_keepsPort _ hp Objs.link_down_filter (by decide) (by decide)).trans set
    · have hup' := (congrArg (· == 2) (kept Objs.link_state (by decide) (by decide))).trans hup
      have expired := downExpiry_of_up hup' (by rw [side]; exact hbad)
        (by rw [set, side, acceptBase_elapsed (by decide)]; exact hrun)
      have policy := kept Objs.down_policy (by decide) (by decide)
      rw [State.put_rd, expired, ← policy]
      exact State.declareDown_link _ hp
  case counters =>
    refine ⟨_, write hacc, answered_ok .., fun o ho => ?_⟩
    rw [State.put_rd]
    exact clearCounters_rd p _ o ho

end Sys2Proof.Machine
end

section
/-! What the flow store, the controllers of HBM and the command rings leave of the state as they work: the join stages, the ports, the
pattern engines, the hues, and every object of the chapters before theirs. -/

namespace Sys2Proof.Machine

/-! ## The relation -/

/-- The parser's and the classifier's counters of a pipe (R84). -/
abbrev ParseCounter (k : Nat) : Prop := 0x4030 * 256 ≤ k ∧ k < 0x4033 * 256

/-- What steps 2 to 4 of a packet read is in `t` as in `s`: the join stages, the pattern engines, the rules and the miss action, and the
objects of their chapters but for the parser's and the classifier's counters; and what `s` has raised stays raised. -/
structure KeepsClass (s t : State) : Prop where
  join : t.sk.join = s.sk.join
  pat : t.pat = s.pat
  rules : t.hue.rules = s.hue.rules
  badRules : t.hue.badRules = s.hue.badRules
  missNow : t.hue.missNow = s.hue.missNow
  raised : s.fm.raised <+: t.fm.raised
  rd : ∀ o i, o.key i < 0x5000 * 256 → ¬ ParseCounter (o.key i) → t.rd o i = s.rd o i

/-- The input queues too are as before. -/
structure KeepsParse (s t : State) : Prop extends KeepsClass s t where
  ports : t.ports = s.ports

theorem KeepsClass.trans {s t u : State} (h : KeepsClass s t) (h' : KeepsClass t u) : KeepsClass s u where
  join := h'.join.trans h.join
  pat := h'.pat.trans h.pat
  rules := h'.rules.trans h.rules
  badRules := h'.badRules.trans h.badRules
  missNow := h'.missNow.trans h.missNow
  raised := h.raised.trans h'.raised
  rd o i hk hc := (h'.rd o i hk hc).trans (h.rd o i hk hc)

theorem KeepsParse.refl (s : State) : KeepsParse s s := ⟨⟨rfl, rfl, rfl, rfl, rfl, ⟨[], List.append_nil _⟩, fun _ _ _ _ => rfl⟩, rfl⟩

theorem KeepsParse.trans {s t u : State} (h : KeepsParse s t) (h' : KeepsParse t u) : KeepsParse s u :=
  ⟨h.toKeepsClass.trans h'.toKeepsClass, h'.ports.trans h.ports⟩

/-- An update of other units keeps all of it. -/
theorem KeepsParse.of_units {s t : State}
    (h : (t.dict, t.fm, t.sk.join, t.ports, t.pat, t.hue) = (s.dict, s.fm, s.sk.join, s.ports, s.pat, s.hue)) : KeepsParse s t := by
  obtain ⟨hdict, hfm, hjoin, hports, hpat, hhue⟩ := by simpa only [Prod.mk.injEq] using h
  exact ⟨⟨hjoin, hpat, by rw [hhue], by rw [hhue], by rw [hhue], by rw [hfm], fun o i _ _ => congrArg (DictUnit.rd · o i) hdict⟩, hports⟩

/-- What is kept after an update of other units is kept from before it. -/
theorem KeepsParse.of_updated {s t u : State} (h' : KeepsParse t u)
    (h : (t.dict, t.fm, t.sk.join, t.ports, t.pat, t.hue) = (s.dict, s.fm, s.sk.join, s.ports, s.pat, s.hue)) : KeepsParse s u :=
  (KeepsParse.of_units h).trans h'

theorem KeepsParse.ite {s t u : State} {c : Prop} [Decidable c] (ht : KeepsParse s t) (hu : KeepsParse s u) :
    KeepsParse s (if c then t else u) := by
  split
  · exact ht
  · exact hu

/-- A step that is taken in one case only. -/
theorem KeepsParse.ite_then {s t u : State} {c : Prop} [Decidable c] (ht : KeepsParse s t) (hu : KeepsParse t u) :
    KeepsParse s (if c then u else t) := .ite (ht.trans hu) ht

theorem KeepsParse.foldl {α : Type} {f : State → α → State} (h : ∀ s a, KeepsParse s (f s a)) (l : List α) (s : State) :
    KeepsParse s (l.foldl f s) :=
  List.foldlRecOn (motive := KeepsParse s) l f (.refl s) fun t ht a _ => ht.trans (h t a)

/-- A write of an object of a later chapter, or of one of the parser's and the classifier's counters. -/
theorem State.wr_keepsParse (s : State) {o : Obj} {i : Nat} (v : Nat) (h : 0x5000 * 256 ≤ o.key i ∨ ParseCounter (o.key i)) :
    KeepsParse s (s.wr o i v) where
  join := rfl
  ports := rfl
  pat := rfl
  rules := rfl
  badRules := rfl
  missNow := rfl
  raised := ⟨[], List.append_nil _⟩
  rd p j hk hc := DictUnit.rd_wr_other (by rintro he; rw [he] at h; omega) (by rintro he; rw [he] at h; simp only [idKey] at h; omega)

theorem State.bump_keepsParse (s : State) {o : Obj} {i : Nat} (n : Nat) (h : 0x5000 * 256 ≤ o.key i ∨ ParseCounter (o.key i)) :
    KeepsParse s (s.bump o i n) := s.wr_keepsParse _ h

theorem State.raise_keepsParse (s : State) (src unit detail : Nat) (cause : Option (Nat × Nat)) (item : Nat) :
    KeepsParse s (s.raise src unit detail cause item) where
  join := rfl
  ports := rfl
  pat := rfl
  rules := rfl
  badRules := rfl
  missNow := rfl
  raised := ⟨_, rfl⟩
  rd _ _ _ _ := rfl

/-- An event of a counted loss or error. -/
theorem State.bump_raise_keepsParse (s : State) {o : Obj} {i : Nat} (n src unit detail : Nat) (cause : Option (Nat × Nat)) (item : Nat)
    (h : 0x5000 * 256 ≤ o.key i ∨ ParseCounter (o.key i)) : KeepsParse s ((s.bump o i n).raise src unit detail cause item) :=
  (s.bump_keepsParse n h).trans (State.raise_keepsParse ..)

/-! ## The controllers of HBM (R396, R404) -/

theorem bar2Frozen_keepsParse (s : State) (a : Nat) : KeepsParse s (bar2Frozen s a) :=
  s.bump_raise_keepsParse _ _ _ _ _ _ (.inl (by decide))

theorem State.undoSlot_keepsParse (s : State) (i k old : Nat) : KeepsParse s (s.undoSlot i k old) :=
  .ite (.of_updated (State.bump_keepsParse _ _ (.inl (by decide))) rfl) (.of_units rfl)

theorem State.bar2Discard_keepsParse (s : State) (tag a : Nat) : KeepsParse s (s.bar2Discard tag a) :=
  .ite (.refl s) (.of_updated (bar2Frozen_keepsParse _ a) rfl)

theorem State.undo_keepsParse (s : State) (u : HbmUndo) : KeepsParse s (s.undo u) := by
  cases u with
  | slot i k old => exact s.undoSlot_keepsParse i k old
  | bar2 tag a => exact s.bar2Discard_keepsParse tag a
  | _ => exact .of_units rfl

theorem State.hbmWrite_keepsParse (s : State) (p : Nat) (w : HbmWrite) : KeepsParse s (s.hbmWrite p w) :=
  .ite (.foldl State.undo_keepsParse _ s) (.of_units rfl)

theorem State.bar2End_keepsParse (s : State) (b : Bar2Read) : KeepsParse s (s.bar2End b) := by
  unfold State.bar2End
  split
  · exact (bar2Frozen_keepsParse s _).trans (.of_units rfl)
  · exact .of_units rfl

theorem State.bar2Got_keepsParse (s : State) (tag addr : Nat) (frozen : Bool) (data : List Byte) :
    KeepsParse s (s.bar2Got tag addr frozen data) := by
  unfold State.bar2Got
  split
  · exact .refl s
  · exact .ite (.of_updated (State.bar2End_keepsParse ..) rfl) (.of_units rfl)

theorem State.hbmRead_keepsParse (s : State) (p : Nat) (r : HbmReq) : KeepsParse s (s.hbmRead p r) :=
  .ite (.ite (.refl s) (.ite (.of_units rfl) (.ite (s.bar2Got_keepsParse ..) (.of_units rfl)))) (.of_units rfl)

/-! ## Places of records (R217, R220, R225) -/

theorem State.fsuWrite_keepsParse (s : State) (b off : Nat) (u : HbmUndo) : KeepsParse s (s.fsuWrite b off u) :=
  .ite (s.hbmWrite_keepsParse ..) (.refl s)

theorem State.setHome_keepsParse (s : State) (p img : Nat) : KeepsParse s (s.setHome p img) :=
  .ite (.ite (.refl s) (.of_updated (.foldl (fun t _ => t.fsuWrite_keepsParse ..) _ _) rfl))
    (.ite (.of_updated (State.raise_keepsParse ..) rfl) (.of_units rfl))

theorem State.clearHome_keepsParse (s : State) (p : Nat) : KeepsParse s (s.clearHome p) := by
  refine .ite ?_ (.of_units rfl)
  split
  · exact .refl s
  · exact .ite (.refl s) (.of_updated (State.fsuWrite_keepsParse ..) rfl)

theorem State.setAlt_keepsParse (s : State) (b n : Nat) : KeepsParse s (s.setAlt b n) :=
  .ite (.of_units rfl) (.ite (.of_updated (State.fsuWrite_keepsParse ..) rfl) (.refl s))

/-! ## Records and lines of the flow cache (R221 to R226) -/

theorem State.touchLine_keepsParse (s : State) (key : Nat) : KeepsParse s (s.touchLine key) := by
  unfold State.touchLine
  split
  · exact .refl s
  · exact .of_units rfl

theorem State.dropCopy_keepsParse (s : State) (key p : Nat) : KeepsParse s (s.dropCopy key p) := by
  unfold State.dropCopy
  split
  · exact .refl s
  · have cleared := s.clearHome_keepsParse p
    exact .ite (.ite (cleared.trans (State.setAlt_keepsParse ..)) cleared) (.refl s)

/-- The copies of a record leave its buckets and the stash. -/
def State.delCopies (s : State) (key : Nat) : State :=
  let t := (bucketSlots (s.flowBuckets key)).foldl (fun s p => s.dropCopy key p) s
  match s.stashFind key with
  | some p => t.clearHome p
  | none => t

theorem State.delCopies_keepsParse (s : State) (key : Nat) : KeepsParse s (s.delCopies key) := by
  have copies := KeepsParse.foldl (fun t p => State.dropCopy_keepsParse t key p) (bucketSlots (s.flowBuckets key)) s
  unfold State.delCopies
  dsimp only
  split
  · exact copies.trans (State.clearHome_keepsParse ..)
  · exact copies

/-- A deleted record has no place, and R375 no longer covers it. -/
def State.delPlaces (s : State) (key : Nat) : State :=
  let t := s.delCopies key
  { t with fsu := { t.fsu with old := t.fsu.old.filter (· ≠ key) } }

theorem State.delPlaces_keepsParse (s : State) (key : Nat) : KeepsParse s (s.delPlaces key) :=
  (s.delCopies_keepsParse key).trans (.of_units rfl)

/-- A line of a deleted record stays as ABSENT where a leap binds it. -/
theorem State.delRec_eq (s : State) (key : Nat) :
    s.delRec key = match (s.delPlaces key).line key with
      | none => s.delPlaces key
      | some l =>
        if (s.delPlaces key).keyBound key then (s.delPlaces key).setLine key { l with st := .absent, img := 0, home := 0, gen := (l.gen + 1) % 256 }
        else (s.delPlaces key).dropLine key := rfl

theorem State.delRec_keepsParse (s : State) (key : Nat) : KeepsParse s (s.delRec key) := by
  refine (s.delPlaces_keepsParse key).trans ?_
  rw [State.delRec_eq]
  split
  · exact .refl _
  · exact .ite (.of_units rfl) (.of_units rfl)

theorem State.delStale_keepsParse (s : State) (key : Nat) : KeepsParse s (s.delStale key) :=
  ((s.delRec_keepsParse key).trans (State.bump_keepsParse _ _ (.inl (by decide)))).trans
    (State.bump_raise_keepsParse _ _ _ _ _ _ _ (.inl (by decide)))

theorem State.putRec_keepsParse (s : State) (key home img : Nat) : KeepsParse s (s.putRec key home img) :=
  .foldl (fun t _ => t.setHome_keepsParse ..) _ s

theorem State.evict_keepsParse (s : State) (key : Nat) (l : Line) : KeepsParse s (s.evict key l) := by
  unfold State.evict
  have dropped : KeepsParse s (s.dropLine key) := .of_units rfl
  have written : KeepsParse s (if s.placeServes l.home then (s.dropLine key).putRec key l.home (setOut l.img false)
      else (s.dropLine key).bump Objs.rec_lost) :=
    .ite (dropped.trans (State.putRec_keepsParse ..)) (dropped.trans (State.bump_keepsParse _ _ (.inl (by decide))))
  dsimp only
  split
  · exact dropped
  · exact written

theorem State.allocLine_keepsParse {s t : State} {key : Nat} {l : Line} (h : s.allocLine key l = some t) : KeepsParse s t := by
  have put (t : State) (l : Line) : KeepsParse t ((t.setLine key l).touchLine key) := .of_updated (State.touchLine_keepsParse ..) rfl
  unfold State.allocLine at h
  dsimp only at h
  split at h
  · exact Option.some.inj h ▸ put s _
  · split at h
    · exact Option.some.inj h ▸ (s.evict_keepsParse ..).trans (put _ _)
    · split_ifs at h
      exact Option.some.inj h ▸ put s _

/-! ## Lookups (R221, R222) -/

theorem State.answerFromLine_keepsParse (s : State) (key : Nat) : KeepsParse s (s.answerFromLine key) := by
  unfold State.answerFromLine
  split
  · exact .refl s
  · have touched := s.touchLine_keepsParse key
    exact .ite (touched.trans (.of_units rfl)) (touched.trans (.of_units rfl))

theorem State.answerUnavail_keepsParse (s : State) (key : Nat) (frozen : List Nat) : KeepsParse s (s.answerUnavail key frozen) :=
  .of_updated (.foldl (fun t _ => t.bump_raise_keepsParse _ _ _ _ _ _ (.inl (by decide))) _ _) rfl

theorem State.checkOut_keepsParse {s t : State} {key found : Nat} (h : s.checkOut key found = some t) : KeepsParse s t := by
  obtain ⟨u, hu, rfl⟩ := Option.map_eq_some_iff.1 h
  exact ((State.allocLine_keepsParse hu).trans (State.putRec_keepsParse ..)).trans (State.answerFromLine_keepsParse ..)

theorem State.absentLine_keepsParse {s t : State} {key : Nat} (h : s.absentLine key = some t) : KeepsParse s t := by
  unfold State.absentLine at h
  split_ifs at h
  · exact Option.some.inj h ▸ .refl s
  · obtain ⟨u, hu, rfl⟩ := Option.map_eq_some_iff.1 h
    exact (State.allocLine_keepsParse hu).trans (State.answerFromLine_keepsParse ..)

theorem State.fillAnswer_keepsParse {s t : State} {f : Fill} (h : s.fillAnswer f = some t) : KeepsParse s t := by
  unfold State.fillAnswer at h
  split at h
  · split_ifs at h
    · exact (s.delStale_keepsParse _).trans (State.absentLine_keepsParse h)
    · exact State.checkOut_keepsParse h
  · split_ifs at h
    · exact Option.some.inj h ▸ s.answerUnavail_keepsParse ..
    · exact State.absentLine_keepsParse h

theorem State.fillEnd_keepsParse (s : State) (f : Fill) : KeepsParse s (s.fillEnd f) := by
  unfold State.fillEnd
  dsimp only
  split
  next t h => exact .of_updated (State.fillAnswer_keepsParse h) rfl
  · exact .of_units rfl

theorem State.hbmReads_keepsParse (s : State) (p client off tag n : Nat) (fill : Bool) :
    KeepsParse s (s.hbmReads p client off tag n fill) := .foldl (fun t _ => t.hbmRead_keepsParse ..) _ s

theorem State.readBucket_keepsParse (s : State) (b : Nat) : KeepsParse s (s.readBucket b).2 := by
  unfold State.readBucket
  dsimp only
  exact .of_updated (State.hbmReads_keepsParse ..) rfl

/-- A missing lookup reads bucket B1 unless its pseudo-channel is retired: the tags of the reads, and the state. -/
def State.readB1 (s : State) (void : Bool) (b : Nat) : List Nat × State :=
  if void then ([], s) else ([(s.readBucket b).1], (s.readBucket b).2)

/-- A missing lookup reads bucket B2 where it needs to. -/
def State.readB2 (s : State) (both : Bool) (b : Nat) : List Nat × State :=
  if both then ([(s.readBucket b).1], (s.readBucket b).2.bump Objs.second_reads) else ([], s)

theorem State.readB1_keepsParse (s : State) (void : Bool) (b : Nat) : KeepsParse s (s.readB1 void b).2 := by
  unfold State.readB1
  split
  · exact .refl s
  · dsimp only
    exact s.readBucket_keepsParse b

theorem State.readB2_keepsParse (s : State) (both : Bool) (b : Nat) : KeepsParse s (s.readB2 both b).2 := by
  unfold State.readB2
  split
  · dsimp only
    exact (s.readBucket_keepsParse b).trans (State.bump_keepsParse _ _ (.inl (by decide)))
  · exact .refl s

/-- A missing lookup reads buckets, and its fill begins. -/
def State.startFill (s : State) (key : Nat) (void1 both : Bool) : State :=
  let r1 := (s.bump Objs.cache_misses).readB1 void1 (s.flowBuckets key).1
  let r2 := r1.2.readB2 both (s.flowBuckets key).2
  { r2.2 with fsu := { r2.2.fsu with fills := r2.2.fsu.fills ++ [⟨key, r1.1 ++ r2.1, [], both, false⟩] } }

theorem State.startFill_keepsParse (s : State) (key : Nat) (void1 both : Bool) : KeepsParse s (s.startFill key void1 both) :=
  (((s.bump_keepsParse 1 (.inl (by decide))).trans (State.readB1_keepsParse ..)).trans (State.readB2_keepsParse ..)).trans (.of_units rfl)

/-- A lookup that misses the cache joins a fill of its key, finds its key in the stash, or reads the key's buckets (R221, R222). -/
theorem State.startLookup_of_miss {s : State} {key : Nat} (h : s.line key = none) :
    let void1 := s.pcRetired (bucketPc (s.flowBuckets key).1)
    let void2 := s.pcRetired (bucketPc (s.flowBuckets key).2)
    s.startLookup key =
      if s.fsu.fills.any (fun f => f.key = key) then s
      else if (s.stashFind key).isSome then s.fillEnd ⟨key, [], [], true, false⟩
      else if void1 && void2 then s.answerUnavail key []
      else s.startFill key void1 (!void2 && (void1 || s.locator (s.flowBuckets key).1)) := by
  rw [State.startLookup, h]
  dsimp only [State.startFill, State.readB1, State.readB2]

/-- A lookup that starts changes the flow store, the threads whose binds it answers, HBM's queues, and its own counters. -/
theorem State.startLookup_keepsParse (s : State) (key : Nat) : KeepsParse s (s.startLookup key) := by
  cases hline : s.line key with
  | some l =>
    rw [State.startLookup, hline]
    exact .ite (State.answerFromLine_keepsParse ..) ((s.bump_keepsParse 1 (.inl (by decide))).trans (State.answerFromLine_keepsParse ..))
  | none =>
    rw [State.startLookup_of_miss hline]
    exact .ite (.refl s) (.ite (State.fillEnd_keepsParse ..) (.ite (State.answerUnavail_keepsParse ..) (State.startFill_keepsParse ..)))

/-! ## Locks and command rings (R192, R433, R434) -/

/-- The state after the judgement of an LINS (R189): a refusal for want of a place is counted, and a place is reserved. -/
theorem insertStatus_keepsParse (s : State) (x : Thread) (h : Handle) : KeepsParse s (insertStatus s x h).2.2 := by
  unfold insertStatus
  split_ifs
  · exact .refl s
  · exact .refl s
  · exact s.bump_raise_keepsParse _ _ _ _ _ _ (.inl (by decide))
  · exact s.bump_raise_keepsParse _ _ _ _ _ _ (.inl (by decide))
  · split
    · exact s.bump_raise_keepsParse _ _ _ _ _ _ (.inl (by decide))
    · exact .of_units rfl

theorem acceptOp_keepsParse (s : State) (t : Nat) (o : LeapOp) : KeepsParse s (acceptOp s t o) := by
  unfold acceptOp
  dsimp only
  split
  · exact .refl s
  · split
    · exact (insertStatus_keepsParse s _ _).trans (.of_units rfl)
    · exact .of_units rfl
    · exact .of_units rfl

theorem State.settleLock_keepsParse (s : State) (t : Nat) : KeepsParse s (s.settleLock t) := by
  unfold State.settleLock
  dsimp only
  split
  · exact .refl s
  · split
    · exact .refl s
    · exact .ite (.refl s) (acceptOp_keepsParse ..)

theorem State.dropLocks_keepsParse (s : State) (o : Owner) : KeepsParse s (s.dropLocks o) :=
  .of_updated (.foldl (fun t _ => t.settleLock_keepsParse _) _ _) rfl

/-- The counters of the command rings lie above 0x7100. -/
theorem State.bump_ring_keepsParse (s : State) {o : Obj} (ho : o.m = 1 ∧ 0x7100 ≤ o.idx) (r n : Nat) : KeepsParse s (s.bump o r n) := by
  obtain ⟨hm, hi⟩ := ho
  exact s.bump_keepsParse n (.inl (by simp only [Obj.key, hm]; omega))

theorem State.releaseRing_keepsParse (s : State) (r : Nat) : KeepsParse s (s.releaseRing r) := by
  have dropped := s.dropLocks_keepsParse (.ring r)
  exact .ite dropped ((dropped.trans (State.bump_ring_keepsParse _ ⟨rfl, by decide⟩ r _)).trans (State.raise_keepsParse ..))

theorem State.put_keepsParse (s : State) (x : Output) : KeepsParse s (s.put x) := .of_units rfl

theorem State.setCr_keepsParse (s : State) (r : Nat) (x : CmdRing) : KeepsParse s (s.setCr r x) := .of_units rfl

theorem abortRest_keepsParse (n r : Nat) (s : State) : KeepsParse s (abortRest n r s) := by
  induction n generalizing s with
  | zero => exact .refl s
  | succ n ih =>
    refine .ite (.refl s) (.trans ?_ (ih _))
    exact .trans (.trans (.trans (s.put_keepsParse _) (State.setCr_keepsParse ..))
      (State.bump_ring_keepsParse (o := Objs.cmd_aborted) _ (by decide) r 1)) (State.bump_ring_keepsParse (o := Objs.cmd_entries) _ (by decide) r 1)

theorem State.msix_keepsParse (s : State) (v : Nat) : KeepsParse s (s.msix v) := .ite (.of_units rfl) (.of_units rfl)

theorem State.abortIrqs_keepsParse (s : State) (x : CmdRing) : KeepsParse s (s.abortIrqs x) :=
  .ite (.foldl (fun t _ => t.msix_keepsParse _) _ s) (.refl s)

theorem State.finishStop_keepsParse (s : State) (r : Nat) : KeepsParse s (s.finishStop r) := by
  have aborted := abortRest_keepsParse 65536 r s
  unfold State.finishStop
  dsimp only
  generalize abortRest 65536 r s = u at aborted ⊢
  exact .trans (.trans (.trans (.trans aborted (State.put_keepsParse ..)) (State.abortIrqs_keepsParse ..)) (State.setCr_keepsParse ..))
    (State.releaseRing_keepsParse ..)

theorem State.cmdComplete_keepsParse (s : State) (r status result flags : Nat) : KeepsParse s (s.cmdComplete r status result flags) := by
  have counted {o : Obj} (u : State) (ho : o.m = 1 ∧ 0x7100 ≤ o.idx) : KeepsParse u (u.bump o r) := u.bump_ring_keepsParse ho r 1
  unfold State.cmdComplete
  dsimp only
  refine .ite (s.setCr_keepsParse ..) (.ite_then (.ite_then (.trans (.ite_then ?_ (counted _ ⟨rfl, by decide⟩)) (State.put_keepsParse ..))
    (State.msix_keepsParse ..)) (State.finishStop_keepsParse ..))
  exact .trans (.trans (s.put_keepsParse _) (State.setCr_keepsParse ..)) (counted _ ⟨rfl, by decide⟩)

/-- An injected frame's entry completes in its ring. -/
theorem State.injectDone_keepsParse (s : State) (r : Option Nat) (status result : Nat) : KeepsParse s (s.injectDone r status result) := by
  unfold State.injectDone State.cmdWaitDone
  split
  · split
    · exact .ite (State.cmdComplete_keepsParse ..) (.refl s)
    · exact .refl s
  · exact .refl s

end Sys2Proof.Machine
end

section
/-! What steps 2 to 4 of a packet read of the state, and the packet at the head of a pipe's input queue (R52 to R60, R65 to R67, R70). -/

namespace Sys2Proof.Machine

/-! ## What the classification reads -/

section
variable {s t : State} (h : KeepsClass s t)
include h

theorem KeepsClass.hueActive : t.hueActive = s.hueActive := h.rd _ _ (by decide) (by decide)

theorem KeepsClass.classify (hue w key : Nat) : t.classify hue w key = s.classify hue w key := by
  have slot : t.rule = s.rule := funext fun i => by rw [State.rule, h.rules, State.rule]
  have hit : t.ruleMatches = s.ruleMatches := by
    funext i x hue w key
    simp only [State.ruleMatches, State.oddTaken, slot]
  simp only [State.classify, hit, h.rules]

theorem KeepsClass.ruleHit (k : Packet) (cfg : ParseCfg) (f : List Byte) (p : Parsed) : t.ruleHit k cfg f p = s.ruleHit k cfg f p := by
  have port : fld k.md 32 8 < 256 := fld_lt ..
  have cls : t.rd Objs.port_class (fld k.md 32 8) = s.rd Objs.port_class (fld k.md 32 8) :=
    h.rd _ _ (by simp only [Obj.key]; omega) (by simp only [Obj.key]; omega)
  simp only [State.ruleHit, cls, h.hueActive, h.classify]

theorem KeepsClass.hitDamaged (k : Packet) (cfg : ParseCfg) (f : List Byte) (p : Parsed) :
    t.hitDamaged k cfg f p = s.hitDamaged k cfg f p := by
  simp only [State.hitDamaged, h.ruleHit, h.badRules]

theorem KeepsClass.setFor (kind hue : Nat) : t.setFor kind hue = s.setFor kind hue := by
  rw [State.setFor, h.pat, State.setFor]

theorem KeepsClass.pickEngine (pipe : Nat) (avoid : Option Nat) : t.pickEngine pipe avoid = s.pickEngine pipe avoid := by
  have inService : t.engineIn = s.engineIn := funext fun e => congrArg (bit · e) (h.rd _ _ (by decide) (by decide))
  have bytes : t.engineBytes = s.engineBytes := funext fun e => by simp only [State.engineBytes, State.engine, h.pat]
  simp only [State.pickEngine, inService, bytes]

theorem KeepsClass.classMemDrop {pipe : Nat} (hp : pipe < 4) : t.rd Objs.class_mem_drop pipe = s.rd Objs.class_mem_drop pipe :=
  h.rd _ _ (by simp only [Obj.key]; omega) (by simp only [Obj.key]; omega)

theorem KeepsClass.noEngineDrop {pipe : Nat} (hp : pipe < 4) : t.rd Objs.pat_no_engine_drop pipe = s.rd Objs.pat_no_engine_drop pipe :=
  h.rd _ _ (by simp only [Obj.key]; omega) (by simp only [Obj.key]; omega)

end

/-! ## The head of the input queue -/

/-- The packet at the head of a pipe's input queue leaves it and takes the active hue. -/
def State.takeHead (s : State) (pipe : Nat) (k : Packet) (rest : List Packet) : State :=
  ({ s with ports := { s.ports with inq := tset [] s.ports.inq pipe rest } } : State).hueTake k.pid s.hueActive

theorem State.takeHead_keepsClass (s : State) (pipe : Nat) (k : Packet) (rest : List Packet) : KeepsClass s (s.takeHead pipe k rest) :=
  ⟨rfl, rfl, rfl, rfl, rfl, ⟨[], List.append_nil _⟩, fun _ _ _ _ => rfl⟩

theorem State.takeHead_inq (s : State) (pipe : Nat) (k : Packet) (rest : List Packet) :
    tget [] (s.takeHead pipe k rest).ports.inq pipe = rest := tget_tset_same ..

/-- Errors and depth of a parse are counted and raised (R55, R56). -/
def State.countParse (s : State) (pipe : Nat) (p : Parsed) : State :=
  let s := if bit p.flags 14 || bit p.flags 6 || bit p.flags 5 then (s.bump Objs.parse_err pipe).raise 32 pipe else s
  if bit p.flags 13 then (s.bump Objs.parse_depth pipe).raise 33 pipe else s

/-- The counters of a pipe lie side by side at one index. -/
theorem parseCounter_key {o : Obj} (ho : o.m = 4 ∧ 0x4030 ≤ o.idx ∧ o.idx < 0x4033 ∧ o.sub = 1) {pipe : Nat} (hp : pipe < 4) :
    ParseCounter (o.key pipe) := by
  obtain ⟨hm, hlo, hhi, hsub⟩ := ho
  simp only [Obj.key, hm, hsub]
  omega

theorem State.countParse_keepsParse (s : State) {pipe : Nat} (hp : pipe < 4) (p : Parsed) : KeepsParse s (s.countParse pipe p) := by
  unfold State.countParse
  dsimp only
  refine .ite_then (.ite_then (.refl s) ?_) ?_
  · exact s.bump_raise_keepsParse _ _ _ _ _ _ (.inr (parseCounter_key (by decide) hp))
  · exact State.bump_raise_keepsParse _ _ _ _ _ _ _ (.inr (parseCounter_key (by decide) hp))

/-- A packet at its classification: it has left the input queue, its entry is complete, and its parse is counted. -/
def State.parsed (s : State) (pipe : Nat) (k : Packet) (rest : List Packet) (p : Parsed) : State :=
  ((s.takeHead pipe k rest).injectDone k.inject 1 0).countParse pipe p

theorem State.parsed_keepsParse (s : State) {pipe : Nat} (hp : pipe < 4) (k : Packet) (rest : List Packet) (p : Parsed) :
    KeepsParse (s.takeHead pipe k rest) (s.parsed pipe k rest p) :=
  (State.injectDone_keepsParse ..).trans (State.countParse_keepsParse _ hp p)

theorem State.parsed_keepsClass (s : State) {pipe : Nat} (hp : pipe < 4) (k : Packet) (rest : List Packet) (p : Parsed) :
    KeepsClass s (s.parsed pipe k rest p) :=
  (s.takeHead_keepsClass pipe k rest).trans (s.parsed_keepsParse hp k rest p).toKeepsClass

theorem parsePacket_of_stalled {s : State} {pipe : Nat} {err : ParseErr}
    (h : tget [] s.ports.inq pipe = [] ∨ 256 ≤ (tget [] s.sk.join pipe).length) : parsePacket s pipe err = s := by
  unfold parsePacket
  split
  · rfl
  · next hq => exact if_pos (h.resolve_left (by rw [hq]; exact List.cons_ne_nil _ _))

/-- Where no new error meets the lookup, a packet is dropped by a rule known to be damaged, or classified. -/
theorem parsePacket_eq {s : State} {pipe : Nat} {err : ParseErr} {k : Packet} {rest : List Packet}
    (hq : tget [] s.ports.inq pipe = k :: rest) (hroom : (tget [] s.sk.join pipe).length < 256) (hpar : err.parity = false)
    (hrule : err.rule = .good) (hreads : err.readsBad = false) {cfg : ParseCfg} (hcfg : cfg = s.parseCfg (fld k.md 32 8))
    {f : List Byte} (hf : f = k.frame.take (k.frame.length - 4)) {p : Parsed} (hp : p = parseFrame cfg f) :
    parsePacket s pipe err =
      let t := s.parsed pipe k rest p
      if t.hitDamaged k cfg f p then t.ruleDrop { k with inject := none } pipe (badItem t.hue.badRules err.slot.val)
      else t.classifyPacket pipe { k with inject := none } cfg f p := by
  subst hcfg hf hp
  simp only [parsePacket, hq, Nat.not_le.2 hroom, hpar, hrule, hreads, if_false, Bool.false_eq_true, Bool.false_and, Bool.false_or]
  rfl

end Sys2Proof.Machine
end

section
/-! The classification of a packet (R64, R68, R70, R83, R87, R104): what its action writes, how it enters the join stage, and what drops it. -/

namespace Sys2Proof.Machine

/-! ## The metadata that an action writes (R68) -/

theorem fld_setFld_fld (v lo w u l : Nat) : fld (setFld v lo w (fld u l w)) lo w = fld u l w := by
  rw [fld_setFld_same, Nat.mod_eq_of_lt (fld_lt u l w)]

/-- The fields that every action writes as they stand: in the metadata, in the action, and their width. -/
def actionFields : List (Nat × Nat × Nat) :=
  [(240, 112, 16), (259, 111, 1), (320, 95, 12), (160, 87, 8), (168, 83, 4), (172, 79, 4), (44, 75, 1), (45, 74, 1), (43, 73, 1),
   (42, 72, 1), (332, 68, 4)]

section
variable (md act hue : Nat) (vlan : Bool) (pcp : Nat) (dei : Bool)

theorem fld_applyAction : ∀ x ∈ actionFields, fld (applyAction md act hue vlan pcp dei) x.1 x.2.2 = fld act x.2.1 x.2.2 := by
  simp [actionFields, applyAction, fld_setFld_fld, fld_setFld_other]

/-- The colour: the action's, 3 taken as 2, or 1 for a frame that its tag marks as drop eligible. -/
theorem fld_applyAction_colour : fld (applyAction md act hue vlan pcp dei) 46 2 =
    if bit act 76 = true ∧ fld act 77 2 = 0 ∧ vlan = true ∧ dei = true then 1 else min 2 (fld act 77 2) := by
  have written : fld (applyAction md act hue vlan pcp dei) 46 2 =
      (let colour := if fld act 77 2 = 3 then 2 else fld act 77 2
       if bit act 76 ∧ colour = 0 ∧ dei = true ∧ vlan = true then 1 else colour) % 2 ^ 2 := by
    simp only [applyAction, Nat.reduceAdd, Nat.reduceLeDiff, or_true, true_or, fld_setFld_other, fld_setFld_same]
  have small : fld act 77 2 < 4 := fld_lt act 77 2
  have capped : (if fld act 77 2 = 3 then 2 else fld act 77 2) = min 2 (fld act 77 2) := by split <;> omega
  have zero : min 2 (fld act 77 2) = 0 ↔ fld act 77 2 = 0 := by omega
  rw [written]
  simp only [capped, zero, and_comm (a := vlan = true)]
  split
  · rfl
  · exact Nat.mod_eq_of_lt (by omega)

/-- The queue: the action's, or that of a frame's tag. -/
theorem fld_applyAction_queue (hpcp : pcp < 8) : fld (applyAction md act hue vlan pcp dei) 256 3 =
    if bit act 107 = true ∧ vlan = true then pcp else fld act 108 3 := by
  have written : fld (applyAction md act hue vlan pcp dei) 256 3 = (if bit act 107 ∧ vlan = true then pcp else fld act 108 3) % 2 ^ 3 := by
    simp only [applyAction, Nat.reduceAdd, Nat.reduceLeDiff, or_true, true_or, fld_setFld_other, fld_setFld_same]
  rw [written]
  split
  · exact Nat.mod_eq_of_lt hpcp
  · exact Nat.mod_eq_of_lt (fld_lt act 108 3)

theorem fld_applyAction_hue : fld (applyAction md act hue vlan pcp dei) 48 16 = hue % 65536 := fld_setFld_same ..

end

theorem beNat_lt (l : List Byte) : beNat l < 256 ^ l.length := by
  induction l using List.reverseRecOn with
  | nil => decide
  | append_singleton l b ih =>
    have step : beNat (l ++ [b]) = beNat l * 256 + b.toNat := by simp [beNat]
    have digit : b.toNat < 256 := b.isLt
    rw [step, List.length_append, List.length_singleton, pow_succ]
    omega

theorem netAt_lt (f : List Byte) (i n : Nat) : netAt f i n < 256 ^ n :=
  (beNat_lt _).trans_le (Nat.pow_le_pow_right (by decide) (List.length_take_le n _))

/-! ## The classified packet -/

/-- The action of a packet: its rule's, or the miss action of the active hue. -/
def State.actionOf (s : State) (k : Packet) (cfg : ParseCfg) (f : List Byte) (p : Parsed) : Nat :=
  ((s.ruleHit k cfg f p).map (fun r => r.2.body.getD 2 0)).getD s.hue.missNow

/-- The set that scans a packet's payload under the active hue (R87). -/
def State.scanSet (s : State) (cfg : ParseCfg) (f : List Byte) (p : Parsed) : Option Nat :=
  if payKind cfg f p = 0 then none else s.setFor (payKind cfg f p) s.hueActive

/-- A packet's rule counts its hit where it asks for it, and a packet without one counts as a miss. -/
def State.countClass (s : State) (pipe : Nat) : Option (Nat × Tagged) → State
  | some (i, t) => if bit (t.body.getD 2 0) 67 then { s with hue := { s.hue with hits := tmod 0 s.hue.hits i (fun n => satAdd 64 n 1) } } else s
  | none => s.bump Objs.class_miss pipe

theorem State.countClass_keepsParse (s : State) {pipe : Nat} (hp : pipe < 4) (hit : Option (Nat × Tagged)) :
    KeepsParse s (s.countClass pipe hit) := by
  cases hit with
  | some r => exact .ite ⟨⟨rfl, rfl, rfl, rfl, rfl, ⟨[], List.append_nil _⟩, fun _ _ _ _ => rfl⟩, rfl⟩ (.refl s)
  | none => exact s.bump_keepsParse 1 (.inr (parseCounter_key (by decide) hp))

/-- A packet enters a pipe's join stage. -/
def State.joinAdd (s : State) (pipe : Nat) (j : JoinItem) : State :=
  { s with sk := { s.sk with join := tput pipe (tget [] s.sk.join pipe ++ [j]) s.sk.join } }

theorem State.joinAdd_join (s : State) (pipe : Nat) (j : JoinItem) :
    tget [] (s.joinAdd pipe j).sk.join pipe = tget [] s.sk.join pipe ++ [j] := by
  rw [State.joinAdd, tget, tfind_tput_same, Option.getD_some]

/-- The flow key of a packet (R206). -/
def State.flowKeyOf (s : State) (k : Packet) (cfg : ParseCfg) (f : List Byte) (p : Parsed) : Nat :=
  let port := fld k.md 32 8
  let (w, key) := classKey port (s.rd Objs.port_class port) f p (parseFlags cfg f p) (payWindow cfg f p)
  let kt := fld (s.actionOf k cfg f p) 83 4
  flowKey kt (tget 0 s.fsu.keyTmpl kt) w key (k.frame.take 128)

/-- The state in which a packet's lookup has started. -/
def State.lookedUp (s : State) (pipe : Nat) (k : Packet) (cfg : ParseCfg) (f : List Byte) (p : Parsed) : State :=
  (s.countClass pipe (s.ruleHit k cfg f p)).startLookup (s.flowKeyOf k cfg f p)

/-- The packet with what classification and key builder give it. -/
def State.classified (s : State) (pipe : Nat) (k : Packet) (cfg : ParseCfg) (f : List Byte) (p : Parsed) : Packet :=
  let tci := netAt f 14 2
  let md := applyAction (setFld k.md 344 9 p.pos) (s.actionOf k cfg f p) s.hueActive (p.vlan != 0) (tci / 8192) (bit tci 12)
  let fk := s.flowKeyOf k cfg f p
  let hp := (s.countClass pipe (s.ruleHit k cfg f p)).flowHash fk
  { k with md := setFld (setFld md 176 32 hp.1) 208 32 hp.2, prv := prvOf cfg f p, key := fk, pat := patNotRun }

/-- The window of a packet that a set scans. -/
def State.scanWindowOf (s : State) (pipe : Nat) (k : Packet) (cfg : ParseCfg) (f : List Byte) (p : Parsed) (set : Nat) : Window :=
  ⟨k.pid, pipe, set, payKind cfg f p, s.hueActive, payWindow cfg f p, payLen cfg f p⟩

/-- A packet whose payload a set scans waits in the join stage, and its window goes to an engine; any other does not wait (R87, R89). -/
theorem State.classifyPacket_eq (s : State) (pipe : Nat) (k : Packet) (cfg : ParseCfg) (f : List Byte) (p : Parsed) :
    s.classifyPacket pipe k cfg f p =
      match s.scanSet cfg f p with
      | none => (s.lookedUp pipe k cfg f p).joinAdd pipe ⟨s.classified pipe k cfg f p, false, false⟩
      | some set => ((s.lookedUp pipe k cfg f p).joinAdd pipe ⟨s.classified pipe k cfg f p, true, false⟩).handOver
          (s.scanWindowOf pipe k cfg f p set) none := by
  cases hset : s.scanSet cfg f p
  all_goals
    simp only [State.scanSet] at hset
    simp only [State.classifyPacket, State.lookedUp, State.classified, State.flowKeyOf, State.actionOf, hset]
    cases s.ruleHit k cfg f p <;> rfl

theorem State.classified_pid (s : State) (pipe : Nat) (k : Packet) (cfg : ParseCfg) (f : List Byte) (p : Parsed) :
    (s.classified pipe k cfg f p).pid = k.pid := by
  simp only [State.classified]

theorem State.classified_frame (s : State) (pipe : Nat) (k : Packet) (cfg : ParseCfg) (f : List Byte) (p : Parsed) :
    (s.classified pipe k cfg f p).frame = k.frame := by
  simp only [State.classified]

theorem State.classified_prv (s : State) (pipe : Nat) (k : Packet) (cfg : ParseCfg) (f : List Byte) (p : Parsed) :
    (s.classified pipe k cfg f p).prv = prvOf cfg f p := by
  simp only [State.classified]

/-- The two hashes beside, the metadata are those that the action writes. -/
theorem State.fld_classified (s : State) (pipe : Nat) (k : Packet) (cfg : ParseCfg) (f : List Byte) (p : Parsed) {l n : Nat}
    (h : l + n ≤ 176 ∨ 240 ≤ l) :
    fld (s.classified pipe k cfg f p).md l n = fld (applyAction (setFld k.md 344 9 p.pos) (s.actionOf k cfg f p) s.hueActive (p.vlan != 0)
      (netAt f 14 2 / 8192) (bit (netAt f 14 2) 12)) l n := by
  rw [State.classified]
  dsimp only
  rw [fld_setFld_other (by omega), fld_setFld_other (by omega)]

section
variable {s t : State} (h : KeepsClass s t)
include h

theorem KeepsClass.actionOf (k : Packet) (cfg : ParseCfg) (f : List Byte) (p : Parsed) : t.actionOf k cfg f p = s.actionOf k cfg f p := by
  rw [State.actionOf, h.ruleHit, h.missNow, State.actionOf]

theorem KeepsClass.scanSet (cfg : ParseCfg) (f : List Byte) (p : Parsed) : t.scanSet cfg f p = s.scanSet cfg f p := by
  rw [State.scanSet, h.setFor, h.hueActive, State.scanSet]

end

theorem State.scanSet_isSome (s : State) (cfg : ParseCfg) (f : List Byte) (p : Parsed) :
    (s.scanSet cfg f p).isSome = true ↔ payKind cfg f p ≠ 0 ∧ (s.setFor (payKind cfg f p) s.hueActive).isSome = true := by
  unfold State.scanSet
  split_ifs with h <;> simp [h]

theorem State.lookedUp_keepsParse (s : State) {pipe : Nat} (hp : pipe < 4) (k : Packet) (cfg : ParseCfg) (f : List Byte) (p : Parsed) :
    KeepsParse s (s.lookedUp pipe k cfg f p) :=
  (s.countClass_keepsParse hp _).trans (State.startLookup_keepsParse ..)

/-! ## Drops -/

/-- Hues that are reclaimed change the hue unit, and hue_oldest alone of the objects. -/
theorem reclaim_frame (n : Nat) (s : State) :
    ∃ u d, reclaim n s = { s with hue := u, dict := d } ∧ ∀ o i, Objs.hue_oldest.key 0 ≠ o.key i → d.rd o i = s.rd o i := by
  induction n generalizing s with
  | zero => exact ⟨s.hue, s.dict, rfl, fun _ _ _ => rfl⟩
  | succ n ih =>
    unfold reclaim
    dsimp only
    split
    · exact ⟨s.hue, s.dict, rfl, fun _ _ _ => rfl⟩
    · obtain ⟨u, d, h, hd⟩ := ih { s.wr Objs.hue_oldest 0 ((s.hueOldest + 1) % 65536) with
        hue := forgetHue (s.wr Objs.hue_oldest 0 ((s.hueOldest + 1) % 65536)).hue s.hueOldest }
      refine ⟨u, d, h.trans rfl, fun o i hne => (hd o i hne).trans ?_⟩
      exact DictUnit.rd_wr_other hne (by decide)

/-- A packet that gives up its hue. -/
theorem State.holdDrop_frame (s : State) (pid : Nat) :
    ∃ u d, s.holdDrop pid = { s with hue := u, dict := d } ∧ ∀ o i, Objs.hue_oldest.key 0 ≠ o.key i → d.rd o i = s.rd o i := by
  unfold State.holdDrop
  split
  · exact ⟨s.hue, s.dict, rfl, fun _ _ _ => rfl⟩
  · obtain ⟨u, d, h, hd⟩ := reclaim_frame 4 { s with hue := _ }
    exact ⟨u, d, h, hd⟩

theorem State.bump_rd_same (s : State) {o : Obj} {i : Nat} (h : o.key i ≠ idKey) (n : Nat) :
    (s.bump o i n).rd o i = satAdd (8 * o.ty.size) (s.rd o i) n := DictUnit.rd_wr_same h

/-- A packet that a damaged rule drops is counted and raises EV036 (R83). -/
theorem State.ruleDrop_effects (s : State) (k : Packet) {pipe : Nat} (hp : pipe < 4) (slot : Nat) :
    (s.ruleDrop k pipe slot).sk = s.sk ∧ (s.ruleDrop k pipe slot).ports = s.ports ∧
      (s.ruleDrop k pipe slot).rd Objs.class_mem_drop pipe = satAdd 64 (s.rd Objs.class_mem_drop pipe) 1 ∧
      ∃ e ∈ (s.ruleDrop k pipe slot).fm.raised, e.src = 36 := by
  obtain ⟨u, d, h, hd⟩ := ((s.bump Objs.class_mem_drop pipe).raise 36 0 0 none slot).holdDrop_frame k.pid
  have drop : s.ruleDrop k pipe slot = _ := h
  rw [drop]
  refine ⟨rfl, rfl, ?_, _, List.mem_append_right _ (List.mem_singleton_self _), rfl⟩
  exact (hd _ _ (by simp only [Obj.key]; omega)).trans (s.bump_rd_same (by simp only [Obj.key, idKey]; omega) 1)

/-- A window for which the pipe has an engine waits at it. -/
theorem State.handOver_engine {s : State} {w : Window} (h : (s.pickEngine w.pipe none).isSome = true) :
    ∃ e x, s.handOver w none = s.setEngine e x := by
  obtain ⟨e, he⟩ := Option.isSome_iff_exists.1 h
  exact ⟨e, _, by rw [State.handOver, he]⟩

/-- A pipe's join stage without a packet. -/
def State.joinWithout (s : State) (pipe pid : Nat) : State :=
  { s with sk := { s.sk with join := tset [] s.sk.join pipe ((tget [] s.sk.join pipe).filter (fun j => j.pkt.pid != pid)) } }

theorem State.mem_joinWithout {s : State} {pipe pid : Nat} {j : JoinItem} (h : j ∈ tget [] (s.joinWithout pipe pid).sk.join pipe) :
    j.pkt.pid ≠ pid := by
  rw [State.joinWithout, tget_tset_same] at h
  simpa using (List.mem_filter.1 h).2

/-- A packet for whose window the pipe has no engine leaves the join stage, is counted, and raises EV055 (R104). -/
theorem State.handOver_noEngine {s : State} {w : Window} (h : s.pickEngine w.pipe none = none) (hp : w.pipe < 4) :
    (s.handOver w none).ports = s.ports ∧
      (s.handOver w none).rd Objs.pat_no_engine_drop w.pipe = satAdd 64 (s.rd Objs.pat_no_engine_drop w.pipe) 1 ∧
      (∀ j ∈ tget [] (s.handOver w none).sk.join w.pipe, j.pkt.pid ≠ w.pid) ∧
      ∃ e ∈ (s.handOver w none).fm.raised, e.src = 55 ∧ e.unit = w.pipe := by
  obtain ⟨u, d, hdrop, hd⟩ := (s.joinWithout w.pipe w.pid).holdDrop_frame w.pid
  have dropped : s.joinDrop w.pipe w.pid = { s.joinWithout w.pipe w.pid with hue := u, dict := d } := hdrop
  have handed : s.handOver w none =
      ((({ s.joinWithout w.pipe w.pid with hue := u, dict := d } : State).bump Objs.pat_no_engine_drop w.pipe).raise 55 w.pipe) := by
    rw [State.handOver, h, ← dropped]
  rw [handed]
  refine ⟨rfl, ?_, fun j hj => State.mem_joinWithout hj, State.mem_raise_raised ..⟩
  have same : d.rd Objs.pat_no_engine_drop w.pipe = s.rd Objs.pat_no_engine_drop w.pipe := hd _ _ (by simp only [Obj.key]; omega)
  exact (State.bump_rd_same _ (by simp only [Obj.key, idKey]; omega) 1).trans (congrArg (satAdd 64 · 1) same)

end Sys2Proof.Machine
end

section
/-! PARSE (R52 to R68, R70, R83, R87, R89, R104): a packet from the head of the input queue to the join stage. -/

namespace Sys2Proof.Machine

/-- Classification takes nothing from the input queues. -/
theorem State.classifyPacket_ports (s : State) {pipe : Nat} (hp : pipe < 4) (k : Packet) (cfg : ParseCfg) (f : List Byte) (p : Parsed) :
    (s.classifyPacket pipe k cfg f p).ports = s.ports := by
  have looked := (s.lookedUp_keepsParse hp k cfg f p).ports
  rw [State.classifyPacket_eq]
  split
  · exact looked
  · next set _ =>
    cases he : ((s.lookedUp pipe k cfg f p).joinAdd pipe ⟨s.classified pipe k cfg f p, true, false⟩).pickEngine pipe none with
    | none => exact (State.handOver_noEngine (w := s.scanWindowOf pipe k cfg f p set) he hp).1.trans looked
    | some e =>
      obtain ⟨e', x, h⟩ := State.handOver_engine (w := s.scanWindowOf pipe k cfg f p set) (Option.isSome_iff_exists.2 ⟨e, he⟩)
      rw [h]
      exact looked

/-- A packet that no set scans, or for whose window an engine of the pipe is in service, enters the join stage (R87, R89). -/
theorem State.classifyPacket_join (s : State) {pipe : Nat} (hp : pipe < 4) (k : Packet) (cfg : ParseCfg) (f : List Byte) (p : Parsed)
    (h : (s.scanSet cfg f p).isSome = true → (s.pickEngine pipe none).isSome = true) :
    tget [] (s.classifyPacket pipe k cfg f p).sk.join pipe =
      tget [] s.sk.join pipe ++ [⟨s.classified pipe k cfg f p, (s.scanSet cfg f p).isSome, false⟩] := by
  have looked := s.lookedUp_keepsParse hp k cfg f p
  rw [State.classifyPacket_eq, ← looked.join]
  split
  · next hset => rw [hset, State.joinAdd_join, Option.isSome_none]
  · next set hset =>
    rw [hset] at h
    have engine := (looked.pickEngine pipe none).symm ▸ h rfl
    obtain ⟨e, x, hand⟩ := State.handOver_engine (s := (s.lookedUp pipe k cfg f p).joinAdd pipe ⟨s.classified pipe k cfg f p, true, false⟩)
      (w := s.scanWindowOf pipe k cfg f p set) engine
    rw [hand, hset, Option.isSome_some]
    exact State.joinAdd_join ..

/-- A packet that a set scans, in a pipe without an engine in service, is dropped (R104). -/
theorem State.classifyPacket_noEngine (s : State) {pipe : Nat} (hp : pipe < 4) (k : Packet) (cfg : ParseCfg) (f : List Byte) (p : Parsed)
    (hset : (s.scanSet cfg f p).isSome = true) (hnone : s.pickEngine pipe none = none) :
    (s.classifyPacket pipe k cfg f p).rd Objs.pat_no_engine_drop pipe = satAdd 64 (s.rd Objs.pat_no_engine_drop pipe) 1 ∧
      (∀ j ∈ tget [] (s.classifyPacket pipe k cfg f p).sk.join pipe, j.pkt.pid ≠ k.pid) ∧
      ∃ e ∈ (s.classifyPacket pipe k cfg f p).fm.raised, e.src = 55 ∧ e.unit = pipe := by
  have looked := s.lookedUp_keepsParse hp k cfg f p
  obtain ⟨set, hset⟩ := Option.isSome_iff_exists.1 hset
  have drop := State.handOver_noEngine (s := (s.lookedUp pipe k cfg f p).joinAdd pipe ⟨s.classified pipe k cfg f p, true, false⟩)
    (w := s.scanWindowOf pipe k cfg f p set) ((looked.pickEngine pipe none).trans hnone) hp
  obtain ⟨-, hcount, hgone, hevent⟩ := drop
  rw [State.classifyPacket_eq, hset]
  exact ⟨hcount.trans (congrArg (satAdd 64 · 1) (looked.noEngineDrop hp)), hgone, hevent⟩

/-- What the action writes to the metadata is read off the packet (R68), in whatever state keeps what the classification reads. -/
theorem KeepsClass.fld_classified {s t : State} (h : KeepsClass s t) (pipe : Nat) (k : Packet) (cfg : ParseCfg) (f : List Byte) (p : Parsed) :
    let md := (t.classified pipe k cfg f p).md
    let act := s.actionOf k cfg f p
    let tci := netAt f 14 2
    (∀ x ∈ actionFields, fld md x.1 x.2.2 = fld act x.2.1 x.2.2) ∧
    fld md 46 2 = (if bit act 76 = true ∧ fld act 77 2 = 0 ∧ p.vlan ≠ 0 ∧ bit tci 12 = true then 1 else min 2 (fld act 77 2)) ∧
    fld md 256 3 = (if bit act 107 = true ∧ p.vlan ≠ 0 then tci / 8192 else fld act 108 3) ∧
    fld md 48 16 = s.hueActive % 65536 := by
  intro md act tci
  have written {l n : Nat} (hl : l + n ≤ 176 ∨ 240 ≤ l) :
      fld md l n = fld (applyAction (setFld k.md 344 9 p.pos) act s.hueActive (p.vlan != 0) (tci / 8192) (bit tci 12)) l n := by
    rw [State.fld_classified _ _ _ _ _ _ hl, h.actionOf, h.hueActive]
  have pcp : tci / 8192 < 8 := Nat.div_lt_of_lt_mul (netAt_lt f 14 2)
  refine ⟨fun x hx => ?fields, ?colour, ?queue, (written (by decide)).trans (fld_applyAction_hue ..)⟩
  case fields =>
    have beside : ∀ x ∈ actionFields, x.1 + x.2.2 ≤ 176 ∨ 240 ≤ x.1 := by decide
    exact (written (beside x hx)).trans (fld_applyAction _ _ _ _ _ _ x hx)
  case colour =>
    rw [written (by decide), fld_applyAction_colour]
    simp only [bne_iff_ne]
  case queue =>
    rw [written (by decide), fld_applyAction_queue _ _ _ _ _ _ pcp]
    simp only [bne_iff_ne]

/-- Settles O6: a packet passes to its classification with everything as it was that the classification reads; there a damaged rule or
the want of an engine drops it, or it enters the join stage with what its action writes. -/
theorem parsePassesToJoin : Obligations.ParsePassesToJoin := by
  intro pipe err s
  refine ⟨?_, fun h => congrArg Host.Outcome.next (parsePacket_of_stalled h)⟩
  intro k rest hq hroom hpar hrule hreads cfg f p act kind scans tci
  have hpipe := pipe.isLt
  have kept := s.parsed_keepsClass hpipe k rest p
  have queue : tget [] (s.parsed pipe k rest p).ports.inq pipe = rest := by
    rw [(s.parsed_keepsParse hpipe k rest p).ports, State.takeHead_inq]
  refine ⟨parsePacket s pipe err, rfl, ?_⟩
  rw [parsePacket_eq hq hroom hpar hrule hreads rfl rfl rfl]
  dsimp only
  rw [kept.hitDamaged]
  cases hdamaged : s.hitDamaged k cfg f p with
  | true =>
    rw [if_pos rfl]
    obtain ⟨hsk, hports, hcount, hevent⟩ := (s.parsed pipe k rest p).ruleDrop_effects { k with inject := none } hpipe
      (badItem (s.parsed pipe k rest p).hue.badRules err.slot.val)
    exact ⟨by rw [hports, queue], fun h => absurd h (by decide), fun h => absurd h (by decide), fun _ =>
      ⟨by rw [hsk, kept.join], hcount.trans (congrArg (satAdd 64 · 1) (kept.classMemDrop hpipe)), hevent⟩⟩
  | false =>
    rw [if_neg Bool.false_ne_true]
    have scan : ((s.parsed pipe k rest p).scanSet cfg f p).isSome = true ↔ scans := kept.scanSet cfg f p ▸ s.scanSet_isSome cfg f p
    refine ⟨by rw [State.classifyPacket_ports _ hpipe, queue], fun _ h => ?joins, fun _ hscans hnone => ?dropped,
      fun h => absurd h (by decide)⟩
    case joins =>
      have join := State.classifyPacket_join (s.parsed pipe k rest p) hpipe { k with inject := none } cfg f p
        (fun hs => (kept.pickEngine pipe none).symm ▸ h (scan.1 hs))
      rw [kept.join] at join
      exact ⟨_, join, State.classified_pid .., State.classified_frame .., Bool.eq_iff_iff.2 (scan.trans decide_eq_true_iff.symm), rfl,
        State.classified_prv .., kept.fld_classified pipe { k with inject := none } cfg f p⟩
    case dropped =>
      obtain ⟨hcount, hgone, hevent⟩ := State.classifyPacket_noEngine (s.parsed pipe k rest p) hpipe { k with inject := none } cfg f p
        (scan.2 hscans) ((kept.pickEngine pipe none).trans hnone)
      exact ⟨hcount.trans (congrArg (satAdd 64 · 1) (kept.noEngineDrop hpipe)), hgone, hevent⟩

end Sys2Proof.Machine
end

section
/-! The pattern stage (R83, R87, R89, R90, R102): what an engine holds after a scan and after its result has left, what the join stage
then holds, and the marks of damaged rule slots, state words and set slots. -/

namespace Sys2Proof.Machine

@[simp] theorem State.setEngine_engine (s : State) (e : Nat) (x : PatEngine) : (s.setEngine e x).engine e = x := tget_tset_same ..

@[simp] theorem State.setEngine_badWords (s : State) (e : Nat) (x : PatEngine) : (s.setEngine e x).pat.badWords = s.pat.badWords := rfl

/-! ## The scan -/

/-- A scan without an error takes the window at the head of an engine's queue. -/
theorem patternScan_good {s : State} {e : Nat} {w : Window} {rest : List Window} (hq : (s.engine e).queue = w :: rest)
    (hin : s.engineIn e = true) (hset : tfind s.pat.badWords (setPlace w.set) = none) :
    patternScan s e .good = (s.setEngine e { s.engine e with queue := rest }).scanWindow e w := by
  simp [patternScan, hq, hin, hset]

/-- The result of a window's scan (R95, R97, R101): that of the window's bytes under the patterns and extraction rules of its set. -/
def State.scanResult (s : State) (e : Nat) (w : Window) : Nat :=
  let t := s.patSet w.set
  let d := setDesc t
  let words := (trange s.pat.words (descBase d) (descSize d)).map (fun p => (p.1 - descBase d, p.2))
  patResult e w.set w.kind (t.body.getD 1 0) (patternsOf words (descPatterns d)) w.bytes w.payLen

/-- A scanned window leaves its result at the engine, in the order of the scans. -/
theorem State.scanWindow_engine (s : State) (e : Nat) (w : Window) :
    (s.scanWindow e w).engine e = { s.engine e with done := (s.engine e).done ++ [(w, s.scanResult e w)] } :=
  tget_tset_same ..

theorem State.scanWindow_hits (s : State) (e : Nat) (w : Window) :
    tget 0 (s.scanWindow e w).pat.hits w.set = satAdd 64 (tget 0 s.pat.hits w.set) 1 := tget_tset_same ..

/-! ## The result -/

/-- The items of a join stage, the packet `pid` with its pattern result. -/
def resultIn (pid r : Nat) (l : List JoinItem) : List JoinItem :=
  l.map fun j => if j.pkt.pid = pid then { j with pkt := { j.pkt with pat := r }, waiting := false } else j

theorem mem_resultIn {pid r : Nat} {l : List JoinItem} {j : JoinItem} (hj : j ∈ resultIn pid r l) (hpid : j.pkt.pid = pid) :
    j.pkt.pat = r ∧ j.waiting = false := by
  obtain ⟨i, -, rfl⟩ := List.mem_map.1 hj
  split_ifs at hpid ⊢ with h
  · exact ⟨rfl, rfl⟩
  · exact absurd hpid h

/-- A result leaves its engine for the join stage, before its status is counted. -/
def State.resultJoined (s : State) (e : Nat) (w : Window) (r : Nat) (rest : List (Window × Nat)) : State :=
  let s1 := s.setEngine e { s.engine e with done := rest }
  { s1 with sk := { s1.sk with join := tset [] s1.sk.join w.pipe (resultIn w.pid r (tget [] s1.sk.join w.pipe)) } }

/-- The status of a result (R90): a payload cut short, malformed, or over a limit, is counted and raises its event. -/
theorem patternResult_eq {s : State} {e : Nat} {w : Window} {r : Nat} {rest : List (Window × Nat)}
    (h : (s.engine e).done = (w, r) :: rest) :
    patternResult s e =
      if fld r 588 3 = 2 then ((s.resultJoined e w r rest).bump Objs.pat_trunc w.pipe).raise 48 w.pipe
      else if fld r 588 3 = 3 then ((s.resultJoined e w r rest).bump Objs.pat_malformed w.pipe).raise 49 w.pipe
      else if fld r 588 3 = 4 then ((s.resultJoined e w r rest).bump Objs.pat_limit w.pipe).raise 50 w.pipe
      else s.resultJoined e w r rest := by
  simp only [patternResult, h]
  rfl

/-- What is counted and raised for a status leaves the engines and the join stage as they are. -/
theorem patternResult_units {s : State} {e : Nat} {w : Window} {r : Nat} {rest : List (Window × Nat)}
    (h : (s.engine e).done = (w, r) :: rest) :
    (patternResult s e).pat = (s.resultJoined e w r rest).pat ∧ (patternResult s e).sk = (s.resultJoined e w r rest).sk := by
  rw [patternResult_eq h]
  split_ifs <;> exact ⟨rfl, rfl⟩

theorem State.resultJoined_join (s : State) (e : Nat) (w : Window) (r : Nat) (rest : List (Window × Nat)) :
    tget [] (s.resultJoined e w r rest).sk.join w.pipe = resultIn w.pid r (tget [] s.sk.join w.pipe) := tget_tset_same ..

theorem State.resultJoined_engine (s : State) (e : Nat) (w : Window) (r : Nat) (rest : List (Window × Nat)) :
    (s.resultJoined e w r rest).engine e = { s.engine e with done := rest } := tget_tset_same ..

/-! ## The release, and the rewrites -/

theorem joinRelease_of_result {s : State} {p : Nat} {j : JoinItem} {rest : List JoinItem} (h : tget [] s.sk.join p = j :: rest)
    (hj : j.waiting = false) : tget [] (joinRelease s p).sk.join p = { j with released := true } :: rest := by
  simp [joinRelease, h, hj]

/-- Where no copy is found, no copy of a shadow can be read. -/
theorem State.shadowRead_neither (s : State) (kind item : Nat) : s.shadowRead kind item .neither = .neither := rfl

section
variable {s : State} {i : Nat} {copy : CopyRead}

/-- A slot that is rewritten from a copy is whole. -/
theorem ruleRewrite_of_copy (hbad : tfind s.hue.badRules i = some true) (hcopy : s.shadowRead 0 i copy ≠ .neither) :
    ruleRewrite s i copy = { s with hue := { s.hue with badRules := tdel i s.hue.badRules } } := by
  rw [ruleRewrite, if_pos hbad, if_neg hcopy]

/-- A slot of which neither copy can be read stays damaged, and no rewrite of it is to come (EV041). -/
theorem ruleRewrite_of_neither (hbad : tfind s.hue.badRules i = some true) :
    ruleRewrite s i .neither =
      ({ s with hue := { s.hue with badRules := tput i false s.hue.badRules } }).raise 41 0 0 (s.shadowRefused 0 i) := by
  rw [ruleRewrite, if_pos hbad, if_pos (s.shadowRead_neither 0 i)]

theorem patRewrite_of_copy (hbad : tfind s.pat.badWords i = some true) (hcopy : s.shadowRead 1 i copy ≠ .neither) :
    patRewrite s i copy = { s with pat := { s.pat with badWords := tdel i s.pat.badWords } } := by
  rw [patRewrite, if_pos hbad, if_neg hcopy]

/-- As for a slot, with EV056. -/
theorem patRewrite_of_neither (hbad : tfind s.pat.badWords i = some true) :
    patRewrite s i .neither =
      ({ s with pat := { s.pat with badWords := tput i false s.pat.badWords } }).raise 56 0 0 (s.shadowRefused 1 i) := by
  rw [patRewrite, if_pos hbad, if_pos (s.shadowRead_neither 1 i)]

end

/-- Settles O7: each clause is one of the updates above; a rewrite deletes the mark of what it restores, or, where neither copy can be
read, marks that no rewrite is to come. -/
theorem patternStageTakesEffect : Obligations.PatternStageTakesEffect := by
  intro s
  refine ⟨fun e w rest hq hin hset => ?scan, fun e w r rest hd => ?result, fun p j rest hjoin hj => ?release, fun i hbad => ?rule,
    fun w hbad => ?word⟩
  case scan =>
    have scanned := patternScan_good hq hin hset
    have engine := State.scanWindow_engine (s.setEngine e { s.engine e with queue := rest }) e w
    rw [State.setEngine_engine] at engine
    exact ⟨_, congrArg Host.Outcome.next scanned, congrArg PatEngine.queue engine, ⟨_, congrArg PatEngine.done engine⟩,
      State.scanWindow_hits ..⟩
  case result =>
    obtain ⟨hpat, hsk⟩ := patternResult_units hd
    refine ⟨patternResult s e, rfl, ?_, fun j hj hpid => ?_, fun h => ?_, fun h => ?_, fun h => ?_⟩
    · rw [State.engine, hpat]
      exact congrArg PatEngine.done (s.resultJoined_engine e w r rest)
    · rw [hsk, State.resultJoined_join] at hj
      exact mem_resultIn hj hpid
    all_goals
      rw [patternResult_eq hd, h]
      exact State.raise_raised rfl _ _
  case release => exact ⟨_, rfl, joinRelease_of_result hjoin hj⟩
  case rule =>
    exact ⟨fun copy hcopy => ⟨_, congrArg Host.Outcome.next (ruleRewrite_of_copy hbad hcopy), tfind_tdel_same ..⟩,
      _, congrArg Host.Outcome.next (ruleRewrite_of_neither hbad), tfind_tput_same .., _, rfl, rfl, rfl⟩
  case word =>
    exact ⟨fun copy hcopy => ⟨_, congrArg Host.Outcome.next (patRewrite_of_copy hbad hcopy), tfind_tdel_same ..⟩,
      _, congrArg Host.Outcome.next (patRewrite_of_neither hbad), tfind_tput_same .., _, rfl, rfl, rfl⟩

end Sys2Proof.Machine
end

section
/-! Accepted writes of the staged objects (R63, R64, R72, R92, R93, R207, R213, R447): what an accepted write leaves before its object's
own effect, and what each slot then holds. -/

namespace Sys2Proof.Machine

/-! ## What an accepted write of a classifier's or flow store's object does first -/

/-- An object of the classifier and its hues, the pattern engines, or the flow store. -/
abbrev HueObj (o : Obj) : Prop := 0x4000 * 256 ≤ o.key 0 ∧ o.key 0 < 0x6000 * 256

theorem HueObj.key_ne_idKey {o : Obj} (h : HueObj o) : o.key 0 ≠ idKey := by
  have := h.1
  simp only [idKey]
  omega

/-- The journal, the mark of unsaved objects and the channels' SEQ lie outside. -/
theorem HueObj.not_writeSide {o : Obj} (h : HueObj o) : ¬ writeSide (o.key 0) := by
  obtain ⟨hlo, hhi⟩ := h
  rintro (h | h | h | ⟨c, h⟩) <;> rw [h] at hlo hhi <;> simp only [Obj.key] at hlo hhi <;> omega

theorem State.storeWritten_locals {c : Ctx} {o : Obj} {i : Nat} (h : pathLocal (o.key i) = false) (s : State) (x : Nat) :
    (s.storeWritten c o i x).dict.locals = s.dict.locals := by
  simp only [State.storeWritten, State.wrCtx, h, Bool.false_eq_true, if_false]
  split_ifs <;> rfl

theorem State.journalAdd_locals (s : State) (c : Ctx) (o : Obj) (i : Nat) (v : List Byte) :
    (s.journalAdd c o i v).dict.locals = s.dict.locals := by
  simp only [State.journalAdd]
  split
  · split_ifs <;> rfl
  · rfl

/-- Of the dictionary, an offer of the journal writes a channel's SEQ and the journal's own marks. -/
theorem State.journalOffer_locals (s : State) : s.journalOffer.dict.locals = s.dict.locals := by
  obtain h | ⟨c, e, hadmit, h⟩ := journalOffer_cases s
  · rw [h]
  · obtain ⟨u, d, m, hoffer, hd⟩ := offer_admitted (s := s) (c := c) (ty := 4) (b := e.bytes) (r := .journal e.seq)
      (by rw [JEntry.bytes_length]; exact hadmit)
    rw [h, hoffer]
    show d.locals = _
    rw [hd]
    rfl

theorem acceptBase_locals {c : Ctx} {o : Obj} {i : Nat} (h : pathLocal (o.key i) = false) (v : List Byte) (s : State) :
    (acceptBase c o i v s).dict.locals = s.dict.locals := by
  simp only [acceptBase, h, Bool.false_eq_true, if_false]
  rw [State.journalOffer_locals, State.journalAdd_locals, State.storeWritten_locals h]

section
variable {c : Ctx} {o : Obj} (ho : HueObj o) {v : List Byte} {s : State}
include ho

/-- The units of the staged objects take a write only by their own effect. -/
theorem acceptBase_hue : (acceptBase c o 0 v s).hue = s.hue := by
  obtain ⟨u, d, m, h, -⟩ := acceptBase_frame c o 0 v s ho.key_ne_idKey
  rw [h]

theorem acceptBase_pat : (acceptBase c o 0 v s).pat = s.pat := by
  obtain ⟨u, d, m, h, -⟩ := acceptBase_frame c o 0 v s ho.key_ne_idKey
  rw [h]

theorem acceptBase_fsu : (acceptBase c o 0 v s).fsu = s.fsu := by
  obtain ⟨u, d, m, h, -⟩ := acceptBase_frame c o 0 v s ho.key_ne_idKey
  rw [h]

theorem acceptBase_rd {p : Obj} {j : Nat} (hne : p.key j ≠ o.key 0) (hside : ¬ writeSide (p.key j)) :
    (acceptBase c o 0 v s).rd p j = s.rd p j := by
  obtain ⟨u, d, m, h, hd, -⟩ := acceptBase_frame c o 0 v s ho.key_ne_idKey
  rw [h]
  exact hd p j hne hside

theorem acceptBase_devId : (acceptBase c o 0 v s).devId = s.devId := by
  have outside : ¬ writeSide (Objs.device_id.key 0) := by
    rintro (h | h | h | ⟨c, h⟩) <;> simp only [Obj.key] at h <;> omega
  exact acceptBase_rd ho (p := Objs.device_id) (j := 0) ho.key_ne_idKey.symm outside

/-- A selection stands while an object of no path's own is written. -/
theorem acceptBase_rdCtx {p : Obj} (hp : HueObj p) (hlocal : pathLocal (o.key 0) = false) (hne : p.key 0 ≠ o.key 0) :
    (acceptBase c o 0 v s).rdCtx c p 0 = s.rdCtx c p 0 := by
  simp only [State.rdCtx]
  rw [acceptBase_locals hlocal, acceptBase_devId ho, acceptBase_rd ho hne hp.not_writeSide]

end

/-- What an accepted write of a staged object finds as it takes effect: the staged objects' units as they were, and every other selection. -/
structure StagedBase (c : Ctx) (o : Obj) (s b : State) : Prop where
  hue : b.hue = s.hue
  pat : b.pat = s.pat
  fsu : b.fsu = s.fsu
  select : ∀ p, HueObj p → p.key 0 ≠ o.key 0 → b.rdCtx c p = s.rdCtx c p

/-- A staged object: of all paths, beside which every path keeps its own selection. -/
abbrev Staged (o : Obj) : Prop := HueObj o ∧ pathLocal (o.key 0) = false

/-- An accepted write of a staged object has its object's own effect, then answers OK. -/
theorem stagedWrite_ok {c : Ctx} {o : Obj} (ho : Staged o) {v : List Byte} {check : Nat → State → Code} {apply : Nat → State → State}
    {s : State} (h : Accepted c o 0 v check s) {P : State → Prop}
    (hP : ∀ b a, StagedBase c o s b → P ((apply (leNat v) b).put a)) :
    ∃ t, (.next (writeObj c o 0 v check apply s) : Out) = .next t ∧ Answered c o 0 .ok t ∧ P t :=
  ⟨_, congrArg Host.Outcome.next (writeObj_accepted h.1 h.2), answered_ok ..,
    hP _ _ ⟨acceptBase_hue ho.1, acceptBase_pat ho.1, acceptBase_fsu ho.1, fun _ hp hne => acceptBase_rdCtx ho.1 hp ho.2 hne⟩⟩

/-! ## Slots -/

@[simp] theorem Tagged.norm_header (t : Tagged) : t.norm.header = t.header := by
  unfold Tagged.norm
  split_ifs with h
  · exact h.1.symm
  · rfl

/-- Where a slot holds nothing, each part of its content reads 0. -/
theorem Tagged.norm_body_getD (t : Tagged) (k : Nat) : t.norm.body.getD k 0 = t.body.getD k 0 := by
  unfold Tagged.norm
  split_ifs with h
  · have zero : ∀ x ∈ t.body, x = 0 := by simpa using h.2
    show 0 = _
    rw [List.getD_eq_getElem?_getD]
    cases hx : t.body[k]? with
    | none => rfl
    | some x => exact (zero x (List.mem_of_getElem? hx)).symm
  · rfl

/-- A slot is written: it reads what is written, and every other slot of its table as before. -/
theorem State.setRule_slots (s : State) (i : Nat) (t : Tagged) :
    (s.setRule i t).rule i = t.norm ∧ ∀ j, j ≠ i → (s.setRule i t).rule j = s.rule j :=
  ⟨tget_tset_same .., fun _ h => tget_tset_other h.symm ..⟩

theorem State.setPatSet_slots (s : State) (i : Nat) (t : Tagged) :
    (s.setPatSet i t).patSet i = t.norm ∧ ∀ j, j ≠ i → (s.setPatSet i t).patSet j = s.patSet j :=
  ⟨tget_tset_same .., fun _ h => tget_tset_other h.symm ..⟩

theorem State.setTmplSlot_slots (s : State) (i : Nat) (t : Tagged) :
    (s.setTmplSlot i t).tmplSlot i = t.norm ∧ ∀ j, j ≠ i → (s.setTmplSlot i t).tmplSlot j = s.tmplSlot j :=
  ⟨tget_tset_same .., fun _ h => tget_tset_other h.symm ..⟩

theorem State.putWord_words (s : State) (w x : Nat) :
    tget 0 (s.putWord w x).pat.words w = x ∧ ∀ j, j ≠ w → tget 0 (s.putWord w x).pat.words j = tget 0 s.pat.words j :=
  ⟨tget_tset_same .., fun _ h => tget_tset_other h.symm ..⟩

theorem State.putRuleHeader_header (s : State) (i x : Nat) : ((s.putRuleHeader i x).rule i).header = x := by
  rw [State.putRuleHeader, (s.setRule_slots i _).1, Tagged.norm_header]

/-- A part of a rule's content reads what is written to it. -/
theorem State.putRulePart_body (s : State) (i : Nat) {k : Nat} (hk : k < 3) (x : Nat) :
    ((s.putRulePart i k x).rule i).body.getD k 0 = x := by
  have len : k < (padTo 0 3 (s.rule i).body).length := by
    simp only [padTo, List.length_take, List.length_append, List.length_replicate]
    omega
  rw [State.putRulePart, (s.setRule_slots i _).1, Tagged.norm_body_getD, List.getD_eq_getElem?_getD, List.getElem?_set_self len,
    Option.getD_some]

theorem rulePartObj_staged (k : Fin 3) : Staged (rulePartObj k) ∧ Objs.rule_select.key 0 ≠ (rulePartObj k).key 0 := by
  revert k
  decide

theorem rwhObj_staged (k : Fin 3) : Staged (rwhObj k) := by
  revert k
  decide

section
variable {c : Ctx} {o : Obj} {s b : State} (h : StagedBase c o s b) (i : Nat)
include h

theorem StagedBase.rule : b.rule i = s.rule i := by rw [State.rule, h.hue, State.rule]

theorem StagedBase.patSet : b.patSet i = s.patSet i := by rw [State.patSet, h.pat, State.patSet]

theorem StagedBase.tmplSlot : b.tmplSlot i = s.tmplSlot i := by rw [State.tmplSlot, h.fsu, State.tmplSlot]

end

/-- Settles O8: an accepted write leaves the selection and every slot as they were, so its effect is the update of the slot selected. -/
theorem stagedWritesStore : Obligations.StagedWritesStore := by
  intro c v s
  refine ⟨fun h => stagedWrite_ok (by decide) h fun b a hb => ?ruleHeader,
    fun k h => stagedWrite_ok (rulePartObj_staged k).1 h fun b a hb => ?rulePart,
    fun k h => stagedWrite_ok (rwhObj_staged k) h fun b a hb => ?staged,
    fun h => stagedWrite_ok (by decide) h fun b a hb => ?setHeader,
    fun h => stagedWrite_ok (by decide) h fun b a hb => ?word,
    fun h => stagedWrite_ok (by decide) h fun b a hb => ?tmplHeader,
    fun h => stagedWrite_ok (by decide) h fun b a hb => ?keyTmpl⟩
  case ruleHeader =>
    rw [← hb.select Objs.rule_select (by decide) (by decide)]
    exact ⟨b.putRuleHeader_header _ _, fun j hj => ((b.setRule_slots _ _).2 j hj).trans (hb.rule j)⟩
  case rulePart =>
    rw [← hb.select Objs.rule_select (by decide) (rulePartObj_staged k).2]
    exact ⟨b.putRulePart_body _ k.isLt _, fun j hj => ((b.setRule_slots _ _).2 j hj).trans (hb.rule j)⟩
  case staged => refine ⟨?_, ?_, ?_⟩ <;> rintro rfl <;> rfl
  case setHeader =>
    rw [← hb.select Objs.pat_set_select (by decide) (by decide)]
    exact ⟨(congrArg Tagged.header (b.setPatSet_slots _ _).1).trans (Tagged.norm_header _), fun j hj =>
      ((b.setPatSet_slots _ _).2 j hj).trans (hb.patSet j)⟩
  case word =>
    rw [← hb.select Objs.pat_mem_addr (by decide) (by decide)]
    exact ⟨(b.putWord_words _ _).1, fun j hj => ((b.putWord_words _ _).2 j hj).trans (congrArg (tget 0 ·.words j) hb.pat)⟩
  case tmplHeader =>
    rw [← hb.select Objs.tmpl_select (by decide) (by decide)]
    exact ⟨(congrArg Tagged.header (b.setTmplSlot_slots _ _).1).trans (Tagged.norm_header _), fun j hj =>
      ((b.setTmplSlot_slots _ _).2 j hj).trans (hb.tmplSlot j)⟩
  case keyTmpl =>
    rw [← hb.select Objs.key_tmpl_select (by decide) (by decide)]
    have dirty : (if tget 0 b.fsu.keyTmpl (b.rdCtx c Objs.key_tmpl_select) = leNat v then b else b.wr Objs.n_dirty 0 1).fsu = b.fsu := by
      split_ifs <;> rfl
    exact ⟨tget_tset_same .., fun j hj => (tget_tset_other hj.symm ..).trans (congrArg (tget 0 ·.keyTmpl j) (dirty.trans hb.fsu))⟩

end Sys2Proof.Machine
end

section
/-! The commit point (R69, R518) and the units that wait for it. -/

namespace Sys2Proof.Machine

/-- Hue 4 is active and a commit is on its way; the regrown unit that waits for the commit point bears a port number beyond the 256 ports. -/
def strayUnit : State :=
  let s := State.reset.wr Objs.hue_active 0 4
  { s with hue := { s.hue with commit := some none }, fm := { s.fm with passed := [(2, 0x1F00)] } }

/-- The link state of port 0x1F00 has the key of hue_active. The readmission finds there 4, the mark of an isolated port, where hue 4 is
active, and clears it, so that the commit point activates hue 1. -/
theorem strayUnit_commitPoint : (commitPoint strayUnit).rd Objs.hue_active 0 = 1 ∧ strayUnit.hueN = 5 := by decide +kernel

/-- Refutes O9, in its clause on the commit point: the type of a state admits a unit number that names no unit among those that await
readmission (UNIT_REGROWTH_DONE puts none there), and `readmit` then writes an object of another chapter, here hue_active itself. -/
theorem not_hueCommitAndAbort : ¬ Obligations.HueCommitAndAbort := by
  intro h
  obtain ⟨-, -, -, commits, -⟩ := h .pcie [] strayUnit
  obtain ⟨t, hexec, -, hactive, -⟩ := commits (by decide)
  obtain rfl : commitPoint strayUnit = t := Host.Outcome.next.inj hexec
  obtain ⟨hone, hnext⟩ := strayUnit_commitPoint
  rw [hone, hnext] at hactive
  exact absurd hactive (by decide)

end Sys2Proof.Machine
end

section
/-! What the operations on units leave of the objects that tell which units are in service, and of the fault manager. -/

namespace Sys2Proof.Machine

/-! ## The relation -/

/-- The objects whose keys have `P` read in `t` as in `s`, and of the fault manager `t` has only raised more. -/
structure KeepsObjs (P : Nat → Prop) (s t : State) : Prop where
  fm : ∃ l, t.fm = { s.fm with raised := s.fm.raised ++ l }
  rd : ∀ o i, P (o.key i) → t.rd o i = s.rd o i

section
variable {P : Nat → Prop} {s t u : State}

theorem KeepsObjs.of_fm (hfm : t.fm = s.fm) (hrd : ∀ o i, P (o.key i) → t.rd o i = s.rd o i) : KeepsObjs P s t :=
  ⟨⟨[], by rw [hfm, List.append_nil]⟩, hrd⟩

theorem KeepsObjs.of_units (hdict : t.dict = s.dict) (hfm : t.fm = s.fm) : KeepsObjs P s t :=
  .of_fm hfm fun o i _ => congrArg (DictUnit.rd · o i) hdict

theorem KeepsObjs.refl (s : State) : KeepsObjs P s s := .of_units rfl rfl

theorem KeepsObjs.trans (h : KeepsObjs P s t) (h' : KeepsObjs P t u) : KeepsObjs P s u where
  fm := by
    obtain ⟨l, hl⟩ := h.fm
    obtain ⟨m, hm⟩ := h'.fm
    exact ⟨l ++ m, by rw [hm, hl, List.append_assoc]⟩
  rd o i hk := (h'.rd o i hk).trans (h.rd o i hk)

/-- What is kept after an update of other units is kept from before it. -/
theorem KeepsObjs.of_updated (h' : KeepsObjs P t u) (hdict : t.dict = s.dict) (hfm : t.fm = s.fm) : KeepsObjs P s u :=
  (KeepsObjs.of_units hdict hfm).trans h'

theorem KeepsObjs.ite {c : Prop} [Decidable c] (ht : KeepsObjs P s t) (hu : KeepsObjs P s u) : KeepsObjs P s (if c then t else u) := by
  split
  · exact ht
  · exact hu

/-- A step that is taken in one case only. -/
theorem KeepsObjs.ite_then {c : Prop} [Decidable c] (ht : KeepsObjs P s t) (hu : KeepsObjs P t u) :
    KeepsObjs P s (if c then u else t) := .ite (ht.trans hu) ht

theorem KeepsObjs.foldl {α : Type} {f : State → α → State} (h : ∀ s a, KeepsObjs P s (f s a)) (l : List α) (s : State) :
    KeepsObjs P s (l.foldl f s) :=
  List.foldlRecOn (motive := KeepsObjs P s) l f (.refl s) fun t ht a _ => ht.trans (h t a)

theorem KeepsObjs.mem_raised (h : KeepsObjs P s t) {e : Occ} (he : e ∈ s.fm.raised) : e ∈ t.fm.raised := by
  obtain ⟨l, hl⟩ := h.fm
  rw [hl]
  exact List.mem_append_left l he

theorem State.wr_keepsObjs (s : State) {o : Obj} {i : Nat} (v : Nat) (h : ¬ P (o.key i)) (hid : o.key i ≠ idKey) :
    KeepsObjs P s (s.wr o i v) :=
  .of_fm rfl fun p j hk => DictUnit.rd_wr_other (fun he : o.key i = p.key j => h (by rw [he]; exact hk)) hid

theorem State.bump_keepsObjs (s : State) {o : Obj} {i : Nat} (n : Nat) (h : ¬ P (o.key i)) (hid : o.key i ≠ idKey) :
    KeepsObjs P s (s.bump o i n) := s.wr_keepsObjs _ h hid

theorem State.raiseOf_keepsObjs (s : State) (src utype unit detail : Nat) (cause : Option (Nat × Nat)) (item : Nat) :
    KeepsObjs P s (s.raiseOf src utype unit detail cause item) := ⟨⟨_, rfl⟩, fun _ _ _ => rfl⟩

theorem State.raise_keepsObjs (s : State) (src unit detail : Nat) (cause : Option (Nat × Nat)) (item : Nat) :
    KeepsObjs P s (s.raise src unit detail cause item) := s.raiseOf_keepsObjs ..

theorem State.put_keepsObjs (s : State) (x : Output) : KeepsObjs P s (s.put x) := .of_units rfl rfl

theorem State.mem_raiseOf_raised (s : State) (src utype unit detail : Nat) (cause : Option (Nat × Nat)) (item : Nat) :
    ∃ e ∈ (s.raiseOf src utype unit detail cause item).fm.raised, e.src = src ∧ e.unit = unit :=
  ⟨_, List.mem_append_right _ (List.mem_singleton_self _), rfl, rfl⟩

/-- A raised event stays raised. -/
theorem KeepsObjs.event {src unit : Nat} (h : KeepsObjs P s t) (he : ∃ e ∈ s.fm.raised, e.src = src ∧ e.unit = unit) :
    ∃ e ∈ t.fm.raised, e.src = src ∧ e.unit = unit := by
  obtain ⟨e, hmem, he⟩ := he
  exact ⟨e, h.mem_raised hmem, he⟩

end

end Sys2Proof.Machine
end

section
/-! What the threads' side leaves of a unit's objects: steering, the ends of runs, and the return of packets to the spray unit (R112, R124,
R129, R131). -/

namespace Sys2Proof.Machine

/-- The keys of the objects of Skinks and clutches: skinks_in_service and clutch_state. -/
abbrev ThreadKey (k : Nat) : Prop := 0x4800 * 256 ≤ k ∧ k < 0x4802 * 256

/-! ## Steering (R124) -/

theorem State.traceAdd_fm (s : State) (t evt addr nxt mop top flags data : Nat) : (s.traceAdd t evt addr nxt mop top flags data).fm = s.fm := by
  unfold State.traceAdd
  dsimp only
  split_ifs <;> rfl

theorem State.traceAdd_keepsObjs (s : State) (t evt addr nxt mop top flags data : Nat) :
    KeepsObjs ThreadKey s (s.traceAdd t evt addr nxt mop top flags data) := by
  unfold State.traceAdd
  dsimp only
  refine .ite (.ite ?_ (.of_units rfl rfl)) (.refl s)
  refine KeepsObjs.of_updated (State.bump_keepsObjs _ 1 ?_ ?_) rfl rfl <;> simp only [Obj.key, ThreadKey, idKey] <;> omega

theorem State.assign_fm (s : State) (t : Nat) (j : Job) : (s.assign t j).fm = s.fm := by
  rw [State.assign, State.traceEvt, State.traceAdd_fm]
  rfl

theorem State.assign_keepsObjs (s : State) (t : Nat) (j : Job) : KeepsObjs ThreadKey s (s.assign t j) := by
  unfold State.assign
  dsimp only
  refine .trans ?_ (State.traceAdd_keepsObjs ..)
  refine KeepsObjs.of_updated (State.bump_keepsObjs _ 1 ?_ ?_) rfl rfl <;> simp only [Obj.key, ThreadKey, idKey] <;> omega

theorem State.sfMoved_units {s t : State} {i : Nat} {e f : SfEntry} (h : s.sfMoved i e = some (t, f)) : t.dict = s.dict ∧ t.fm = s.fm := by
  unfold State.sfMoved at h
  split_ifs at h
  · obtain ⟨k, -, hk⟩ := Option.map_eq_some_iff.1 h
    obtain ⟨rfl, -⟩ := Prod.mk.inj hk
    exact ⟨rfl, rfl⟩
  · obtain ⟨rfl, -⟩ := Prod.mk.inj (Option.some.inj h)
    exact ⟨rfl, rfl⟩

/-- An entry's service moves it, starts its next packet, or marks it idle. -/
theorem State.sfService_cases (s : State) (i : Nat) :
    s.sfService i = s ∨ ∃ t : State, t.dict = s.dict ∧ t.fm = s.fm ∧ (s.sfService i = t ∨ ∃ k j, s.sfService i = t.assign k j) := by
  unfold State.sfService
  split
  · exact .inl rfl
  · split_ifs
    · exact .inl rfl
    · split
      · exact .inl rfl
      next moved =>
        obtain ⟨hdict, hfm⟩ := State.sfMoved_units moved
        right
        split_ifs
        · exact ⟨_, hdict, hfm, .inl rfl⟩
        · split
          · refine ⟨_, ?_, ?_, .inl rfl⟩
            · exact hdict
            · exact hfm
          · split_ifs
            · refine ⟨_, ?_, ?_, .inr ⟨_, _, rfl⟩⟩
              · exact hdict
              · exact hfm
            · exact ⟨_, hdict, hfm, .inl rfl⟩

theorem State.sfService_fm (s : State) (i : Nat) : (s.sfService i).fm = s.fm := by
  obtain h | ⟨t, -, hfm, h | ⟨k, j, h⟩⟩ := s.sfService_cases i
  · rw [h]
  · rw [h, hfm]
  · rw [h, State.assign_fm, hfm]

theorem State.sfService_keepsObjs (s : State) (i : Nat) : KeepsObjs ThreadKey s (s.sfService i) := by
  obtain h | ⟨t, hdict, hfm, h | ⟨k, j, h⟩⟩ := s.sfService_cases i
  · rw [h]
    exact .refl s
  · rw [h]
    exact .of_units hdict hfm
  · rw [h]
    exact .of_updated (t.assign_keepsObjs k j) hdict hfm

theorem State.sfRetry_fm (s : State) : s.sfRetry.fm = s.fm :=
  List.foldlRecOn (motive := fun t : State => t.fm = s.fm) _ _ rfl fun t ht e _ => (t.sfService_fm e.1).trans ht

theorem State.sfRetry_keepsObjs (s : State) : KeepsObjs ThreadKey s s.sfRetry :=
  .foldl (fun t (e : Nat × SfEntry) => t.sfService_keepsObjs e.1) _ s

theorem State.sfRebind_keepsObjs (s : State) (hit : Nat → Bool) : KeepsObjs ThreadKey s (s.sfRebind hit) :=
  .of_updated (.foldl (fun t (e : Nat × SfEntry) => t.sfService_keepsObjs e.1) _ _) rfl rfl

/-! ## Drained clutches (R129) -/

/-- The Skinks in service are as before, and of the clutches' states none has changed but from DRAINING to DRAINED. -/
structure KeepsClutches (s t : State) : Prop extends KeepsObjs (· = Objs.skinks_in_service.key 0) s t where
  drains : ∀ c < 16, t.rd Objs.clutch_state c = s.rd Objs.clutch_state c ∨
    s.rd Objs.clutch_state c = 1 ∧ t.rd Objs.clutch_state c = 2

theorem KeepsObjs.clutches {s t : State} (h : KeepsObjs ThreadKey s t) : KeepsClutches s t where
  fm := h.fm
  rd o i hk := h.rd o i (by rw [hk]; decide)
  drains c hc := .inl (h.rd _ c (by simp only [Obj.key, ThreadKey]; omega))

theorem KeepsClutches.refl (s : State) : KeepsClutches s s := (KeepsObjs.refl s).clutches

theorem KeepsClutches.trans {s t u : State} (h : KeepsClutches s t) (h' : KeepsClutches t u) : KeepsClutches s u where
  toKeepsObjs := h.toKeepsObjs.trans h'.toKeepsObjs
  drains c hc := by
    obtain h | ⟨h, h₁⟩ := h.drains c hc <;> obtain h' | ⟨h', h₂⟩ := h'.drains c hc <;> omega

theorem KeepsClutches.skinks {s t : State} (h : KeepsClutches s t) : t.rd Objs.skinks_in_service = s.rd Objs.skinks_in_service :=
  h.rd _ 0 rfl

theorem KeepsClutches.isolated {s t : State} (h : KeepsClutches s t) {c : Nat} (hc : c < 16) (h3 : 3 ≤ s.rd Objs.clutch_state c) :
    t.rd Objs.clutch_state c = s.rd Objs.clutch_state c := by
  obtain h | ⟨h, -⟩ := h.drains c hc <;> omega

theorem clutchState_key_ne_idKey (c : Nat) : Objs.clutch_state.key c ≠ idKey := by
  simp only [Obj.key, idKey]
  omega

theorem State.drainCheck_keepsClutches (s : State) {c : Nat} (hc : c < 16) : KeepsClutches s (s.drainCheck c) := by
  unfold State.drainCheck
  split_ifs with h
  · have drained : KeepsClutches s (s.wr Objs.clutch_state c 2) := {
      toKeepsObjs := s.wr_keepsObjs 2 (by simp only [Obj.key]; omega) (clutchState_key_ne_idKey c)
      drains := fun d hd => by
        by_cases hcd : d = c
        · subst hcd
          exact .inr ⟨h.1, DictUnit.rd_wr_same (clutchState_key_ne_idKey d)⟩
        · exact .inl (DictUnit.rd_wr_other (by simp only [Obj.key]; omega) (clutchState_key_ne_idKey c)) }
    exact drained.trans (KeepsObjs.clutches (State.raise_keepsObjs ..))
  · exact .refl s

/-! ## The ends of runs (R112, R126, R131) -/

theorem State.offer_keepsObjs (s : State) (c ty : Nat) (body : List Byte) (ref : RecRef) : KeepsObjs ThreadKey s (s.offer c ty body ref) := by
  have counted {o : Obj} (ho : o.m = 64 ∧ 0x7803 ≤ o.idx) (t : State) (v : Nat) : KeepsObjs ThreadKey t (t.wr o c v) := by
    obtain ⟨hm, hi⟩ := ho
    refine t.wr_keepsObjs v ?_ ?_ <;> simp only [Obj.key, hm, ThreadKey, idKey] <;> omega
  have seq := counted (o := Objs.str_chan_seq) (by decide) s ((s.rd Objs.str_chan_seq c + 1) % 2 ^ 32)
  have staged (t : State) (n : Nat) (l : List Nat) : KeepsObjs ThreadKey t (t.stageWrites c n l) := by
    obtain ⟨u, h, e⟩ := stageWrites_frame c n l t
    rw [e]
    exact .of_units rfl rfl
  have fetched (t : State) : KeepsObjs ThreadKey t (t.stageFetch c) := by
    obtain ⟨u, h, e⟩ := stageFetch_frame c t
    rw [e]
    exact .of_units rfl rfl
  unfold State.offer
  dsimp only
  refine .ite (seq.trans (counted (o := Objs.str_drop_off) (by decide) ..)) (.ite ?_ (.ite ?_ ?_))
  · exact (seq.trans (counted (o := Objs.str_drop_rate) (by decide) ..)).trans (State.raise_keepsObjs ..)
  · exact (seq.trans (counted (o := Objs.str_drop_full) (by decide) ..)).trans (State.raise_keepsObjs ..)
  · refine .ite (.trans (.trans ?_ (staged _ _ _)) (fetched _)) (.trans ?_ (staged _ _ _))
    all_goals exact seq.trans (.of_units rfl rfl)

theorem State.postcard_keepsObjs (s : State) (chan : Option Nat) (md outcome thread status : Nat) :
    KeepsObjs ThreadKey s (s.postcard chan md outcome thread status) := by
  unfold State.postcard
  split
  · exact .refl s
  · exact s.offer_keepsObjs ..

theorem reclaim_keepsObjs {P : Nat → Prop} (hP : ¬ P (Objs.hue_oldest.key 0)) (n : Nat) (s : State) : KeepsObjs P s (reclaim n s) := by
  obtain ⟨u, d, h, hd⟩ := reclaim_frame n s
  rw [h]
  exact .of_fm rfl fun o i hk => hd o i fun he => hP (by rw [he]; exact hk)

theorem State.holdDrop_keepsObjs {P : Nat → Prop} (hP : ¬ P (Objs.hue_oldest.key 0)) (s : State) (pid : Nat) :
    KeepsObjs P s (s.holdDrop pid) := by
  unfold State.holdDrop
  split
  · exact .refl s
  · exact .of_updated (reclaim_keepsObjs hP 4 _) rfl rfl

theorem clutchOf_lt {t : Nat} (ht : t < 2048) : clutchOf t < 16 := by
  unfold clutchOf
  omega

/-- A packet leaves its thread: a late one is counted and dropped, any other goes to its reorder entry. -/
def State.packetLeft (s : State) (t : Nat) (j : Job) (status : Nat) : State :=
  let x := s.th t
  let pkt := x.packet j
  let s1 := s.setTh t x.freed
  if j.late then (((s1.bump Objs.reorder_late_drop j.pipe).raise 65 j.pipe).postcard x.postcard x.md 2 t status).holdDrop pkt.pid
  else s1.modEntry j.pipe j.entry (fun r =>
    { r with done := some pkt, drop := bit x.md 40, postcard := x.postcard, status := status, thread := t })

theorem State.packetLeft_keepsObjs (s : State) (t : Nat) (j : Job) (status : Nat) : KeepsObjs ThreadKey s (s.packetLeft t j status) := by
  have late : KeepsObjs ThreadKey s ((s.setTh t (s.th t).freed).bump Objs.reorder_late_drop j.pipe) := by
    refine KeepsObjs.of_updated (State.bump_keepsObjs _ 1 ?_ ?_) rfl rfl <;> simp only [Obj.key, ThreadKey, idKey] <;> omega
  exact .ite (((late.trans (State.raise_keepsObjs ..)).trans (State.postcard_keepsObjs ..)).trans
    (State.holdDrop_keepsObjs (by decide) ..)) (.of_units rfl rfl)

theorem State.threadFree_keepsClutches (s : State) {t : Nat} (ht : t < 2048) (status : Nat) : KeepsClutches s (s.threadFree t status) := by
  unfold State.threadFree
  dsimp only
  split
  · exact .refl s
  next j _ =>
    have left := s.packetLeft_keepsObjs t j status
    refine .trans (KeepsObjs.clutches ?_) (State.drainCheck_keepsClutches _ (clutchOf_lt ht))
    split
    · exact left.trans (State.sfService_keepsObjs ..)
    · exact left

theorem State.machineCheck_keepsClutches (s : State) {t : Nat} (ht : t < 2048) : KeepsClutches s (s.machineCheck t) := by
  unfold State.machineCheck
  dsimp only
  split
  · exact .refl s
  next j _ =>
    split_ifs
    · exact s.threadFree_keepsClutches ht 0
    · refine .trans (KeepsObjs.clutches ?_) (State.drainCheck_keepsClutches _ (clutchOf_lt ht))
      have traced : KeepsObjs ThreadKey s ((s.dropInserts (s.th t).leap).traceEvt t 3 j.lsn) :=
        .of_updated (State.traceAdd_keepsObjs ..) rfl rfl
      have counted := traced.trans (State.bump_keepsObjs _ (o := Objs.leap_abort_mchk) (i := 0) 1 (by decide) (by decide))
      have told (u : State) (md : Nat) : KeepsObjs ThreadKey u (u.replaySat t md) := .ite (State.raise_keepsObjs ..) (.refl u)
      have queued {u : State} (h : KeepsObjs ThreadKey s u) (x : Thread) (k : SkinkUnit) :
          KeepsObjs ThreadKey s { u.setTh t x with sk := k } := h.trans (.of_units rfl rfl)
      have back := queued (counted.trans (told _ j.pkt.md))
      split
      · exact (back _ _).trans (State.sfService_keepsObjs ..)
      · exact back _ _

theorem returnPackets_keepsClutches {l : List Nat} (hl : ∀ t ∈ l, t < 2048) (s : State) : KeepsClutches s (returnPackets s l) :=
  List.foldlRecOn (motive := KeepsClutches s) l _ (.refl s) fun t ht a ha => ht.trans (t.machineCheck_keepsClutches (hl a ha))

theorem clearHalts_keepsObjs (s : State) (l : List Nat) (c : Nat) : KeepsObjs ThreadKey s (clearHalts s l c) := by
  refine .of_updated (.foldl (fun t b => t.wr_keepsObjs 0 ?_ ?_) _ _) rfl rfl <;> simp only [Obj.key, ThreadKey, idKey] <;> omega

theorem State.clutchesLow_keepsObjs {P : Nat → Prop} (s : State) (n : Nat) : KeepsObjs P s (s.clutchesLow n) :=
  .ite (State.raise_keepsObjs ..) (.refl s)

end Sys2Proof.Machine
end

section
/-! What the controllers of HBM, the flow store and the command rings leave of the objects of middles and pseudo-channels (R328, R404, R409,
R433). -/

namespace Sys2Proof.Machine

/-- The keys of the objects of middles and pseudo-channels: middles_in_service and hbm_state. -/
abbrev MemKey (k : Nat) : Prop := k = Objs.middles_in_service.key 0 ∨ 0x6801 * 256 ≤ k ∧ k < 0x6802 * 256

/-- A counter, and the event of what it counts. -/
theorem State.bump_raise_keepsObjs {P : Nat → Prop} (s : State) {o : Obj} {i : Nat} (n src unit detail : Nat) (cause : Option (Nat × Nat))
    (item : Nat) (h : ¬ P (o.key i)) (hid : o.key i ≠ idKey) : KeepsObjs P s ((s.bump o i n).raise src unit detail cause item) :=
  (s.bump_keepsObjs n h hid).trans (State.raise_keepsObjs ..)

/-! ## The controllers of HBM (R404, R409) -/

theorem bar2Frozen_keepsObjs (s : State) (a : Nat) : KeepsObjs MemKey s (bar2Frozen s a) :=
  s.bump_raise_keepsObjs _ _ _ _ _ _ (by decide) (by decide)

/-- What a lost write takes away counts at most a record, or an access of the host. -/
theorem State.undo_keepsObjs (s : State) (u : HbmUndo) : KeepsObjs MemKey s (s.undo u) := by
  cases u with
  | slot i k old => exact .ite (.of_updated (State.bump_keepsObjs _ _ (by decide) (by decide)) rfl rfl) (.of_units rfl rfl)
  | bar2 tag a => exact .ite (.refl s) (.of_updated (bar2Frozen_keepsObjs _ a) rfl rfl)
  | _ => exact .of_units rfl rfl

theorem State.loseWrite_keepsObjs (s : State) (w : HbmWrite) : KeepsObjs MemKey s (s.loseWrite w) :=
  .foldl State.undo_keepsObjs _ s

theorem State.bar2End_keepsObjs (s : State) (b : Bar2Read) : KeepsObjs MemKey s (s.bar2End b) := by
  unfold State.bar2End
  split
  · exact (bar2Frozen_keepsObjs s _).trans (State.put_keepsObjs ..)
  · exact s.put_keepsObjs _

theorem State.endRead_keepsObjs (s : State) (p : Nat) (r : HbmReq) (frozen : Bool) (data : List Byte) :
    KeepsObjs MemKey s (s.endRead p r frozen data) := by
  refine .ite (.refl s) (.ite (.of_units rfl rfl) (.ite ?_ (.of_units rfl rfl)))
  unfold State.bar2Got
  split
  · exact .refl s
  · exact .ite (.of_updated (State.bar2End_keepsObjs ..) rfl rfl) (.of_units rfl rfl)

theorem State.flushCtl_keepsObjs (s : State) (p : Nat) : KeepsObjs MemKey s (s.flushCtl p) := by
  have ended (l : List HbmReq) (t : State) : KeepsObjs MemKey t (l.foldl (fun t r => t.endRead p r true []) t) :=
    .foldl (fun t r => t.endRead_keepsObjs p r true []) l t
  refine .trans ?_ (.foldl State.loseWrite_keepsObjs _ _)
  exact .of_updated (ended ..) rfl rfl

theorem State.setRetired_keepsObjs (s : State) (p : Nat) (b : Bool) : KeepsObjs MemKey s (s.setRetired p b) :=
  (s.wr_keepsObjs _ (by decide) (by decide)).trans (State.wr_keepsObjs _ _ (by decide) (by decide))

/-! ## Records that are lost (R220, R409) -/

theorem State.fsuWrite_keepsObjs (s : State) (b off : Nat) (u : HbmUndo) : KeepsObjs MemKey s (s.fsuWrite b off u) :=
  .ite (.ite (s.loseWrite_keepsObjs _) (.of_units rfl rfl)) (.refl s)

theorem State.clearHome_keepsObjs (s : State) (p : Nat) : KeepsObjs MemKey s (s.clearHome p) := by
  refine .ite ?_ (.of_units rfl rfl)
  split
  · exact .refl s
  · exact .ite (.refl s) (.of_updated (State.fsuWrite_keepsObjs ..) rfl rfl)

theorem State.bktDec_keepsObjs (s : State) (b : Nat) : KeepsObjs MemKey s (s.bktDec b) :=
  .ite (.of_units rfl rfl) (.ite (.of_updated (State.fsuWrite_keepsObjs ..) rfl rfl) (.refl s))

theorem State.dropCopy_keepsObjs (s : State) (key p : Nat) : KeepsObjs MemKey s (s.dropCopy key p) := by
  unfold State.dropCopy
  split
  · exact .refl s
  · exact .ite (.ite_then (s.clearHome_keepsObjs p) (State.bktDec_keepsObjs ..)) (.refl s)

theorem State.delRec_keepsObjs (s : State) (key : Nat) : KeepsObjs MemKey s (s.delRec key) := by
  have copies : KeepsObjs MemKey s (s.delCopies key) := by
    unfold State.delCopies
    dsimp only
    have dropped := KeepsObjs.foldl (fun t p => State.dropCopy_keepsObjs t key p) (bucketSlots (s.flowBuckets key)) s
    split
    · exact dropped.trans (State.clearHome_keepsObjs ..)
    · exact dropped
  have places : KeepsObjs MemKey s (s.delPlaces key) := copies.trans (.of_units rfl rfl)
  rw [State.delRec_eq]
  split
  · exact places
  · exact .ite (places.trans (.of_units rfl rfl)) (places.trans (.of_units rfl rfl))

theorem State.voidSlot_keepsObjs (s : State) (p : Nat) : KeepsObjs MemKey s (s.voidSlot p) := by
  unfold State.voidSlot
  split
  · exact .refl s
  · exact .ite (.of_updated (State.bktDec_keepsObjs ..) rfl rfl) (.of_units rfl rfl)

theorem State.loseRecords_keepsObjs (s : State) (f : Nat → Bool) : KeepsObjs MemKey s (s.loseRecords f) :=
  (KeepsObjs.foldl State.voidSlot_keepsObjs _ s).trans (.foldl (fun t key =>
    (t.delRec_keepsObjs key).trans (State.bump_keepsObjs _ _ (by decide) (by decide))) _ _)

/-! ## Locks and command rings (R192, R433, R434) -/

theorem insertStatus_keepsObjs (s : State) (x : Thread) (h : Handle) : KeepsObjs MemKey s (insertStatus s x h).2.2 := by
  unfold insertStatus
  split_ifs
  · exact .refl s
  · exact .refl s
  · exact s.bump_raise_keepsObjs _ _ _ _ _ _ (by decide) (by decide)
  · exact s.bump_raise_keepsObjs _ _ _ _ _ _ (by decide) (by decide)
  · split
    · exact s.bump_raise_keepsObjs _ _ _ _ _ _ (by decide) (by decide)
    · exact .of_units rfl rfl

theorem State.settleLock_keepsObjs (s : State) (t : Nat) : KeepsObjs MemKey s (s.settleLock t) := by
  have accepted (o : LeapOp) : KeepsObjs MemKey s (acceptOp s t o) := by
    unfold acceptOp
    dsimp only
    split
    · exact .refl s
    · split
      · exact (insertStatus_keepsObjs s _ _).trans (.of_units rfl rfl)
      · exact .of_units rfl rfl
      · exact .of_units rfl rfl
  unfold State.settleLock
  dsimp only
  split
  · exact .refl s
  · split
    · exact .refl s
    · exact .ite (.refl s) (accepted _)

theorem State.bump_ring_keepsObjs (s : State) {o : Obj} (ho : o.m = 1 ∧ 0x7100 ≤ o.idx) (r n : Nat) : KeepsObjs MemKey s (s.bump o r n) := by
  obtain ⟨hm, hi⟩ := ho
  refine s.bump_keepsObjs n ?_ ?_ <;> simp only [Obj.key, hm, MemKey, idKey] <;> omega

theorem State.releaseRing_keepsObjs (s : State) (r : Nat) : KeepsObjs MemKey s (s.releaseRing r) := by
  have dropped : KeepsObjs MemKey s (s.dropLocks (.ring r)) := .of_updated (.foldl (fun t _ => t.settleLock_keepsObjs _) _ _) rfl rfl
  exact .ite dropped ((dropped.trans (State.bump_ring_keepsObjs _ ⟨rfl, by decide⟩ r _)).trans (State.raise_keepsObjs ..))

theorem abortRest_keepsObjs (n r : Nat) (s : State) : KeepsObjs MemKey s (abortRest n r s) := by
  induction n generalizing s with
  | zero => exact .refl s
  | succ n ih =>
    refine .ite (.refl s) (.trans ?_ (ih _))
    refine .trans (.of_updated (State.bump_ring_keepsObjs _ (o := Objs.cmd_aborted) (by decide) r 1) ?_ ?_)
      (State.bump_ring_keepsObjs (o := Objs.cmd_entries) _ (by decide) r 1) <;> rfl

theorem State.msix_keepsObjs {P : Nat → Prop} (s : State) (v : Nat) : KeepsObjs P s (s.msix v) := .ite (.of_units rfl rfl) (.of_units rfl rfl)

theorem State.finishStop_keepsObjs (s : State) (r : Nat) : KeepsObjs MemKey s (s.finishStop r) := by
  have aborted := abortRest_keepsObjs 65536 r s
  unfold State.finishStop
  dsimp only
  generalize abortRest 65536 r s = u at aborted ⊢
  have told (t : State) (x : CmdRing) : KeepsObjs MemKey t (t.abortIrqs x) := .ite (.foldl (fun t _ => t.msix_keepsObjs _) _ t) (.refl t)
  have stopped (t : State) (x : CmdRing) : KeepsObjs MemKey t (t.setCr r x) := .of_units rfl rfl
  exact .trans (.trans (.trans (.trans aborted (State.put_keepsObjs ..)) (told ..)) (stopped ..)) (State.releaseRing_keepsObjs ..)

theorem State.cmdComplete_keepsObjs (s : State) (r status result flags : Nat) : KeepsObjs MemKey s (s.cmdComplete r status result flags) := by
  have counted {o : Obj} (u : State) (ho : o.m = 1 ∧ 0x7100 ≤ o.idx) : KeepsObjs MemKey u (u.bump o r) := u.bump_ring_keepsObjs ho r 1
  unfold State.cmdComplete
  dsimp only
  refine .ite (.of_units rfl rfl) (.ite_then (.ite_then (.trans (.ite_then ?_ (counted _ ⟨rfl, by decide⟩)) (State.put_keepsObjs ..))
    (State.msix_keepsObjs ..)) (State.finishStop_keepsObjs ..))
  exact .of_updated (counted _ ⟨rfl, by decide⟩) rfl rfl

/-! ## Cells that are lost (R76, R328) -/

theorem State.injectDone_keepsObjs (s : State) (r : Option Nat) (status result : Nat) : KeepsObjs MemKey s (s.injectDone r status result) := by
  unfold State.injectDone State.cmdWaitDone
  split
  · split
    · exact .ite (State.cmdComplete_keepsObjs ..) (.refl s)
    · exact .refl s
  · exact .refl s

theorem State.holdEnd_keepsObjs (s : State) (pid : Nat) : KeepsObjs MemKey s (s.holdEnd pid) := by
  unfold State.holdEnd
  split
  · exact .refl s
  · exact .ite (.of_units rfl rfl) (.of_updated (reclaim_keepsObjs (by decide) 4 _) rfl rfl)

theorem State.cellLost_keepsObjs (s : State) (c : Cell) (g : Nat) : KeepsObjs MemKey s (s.cellLost c g) := by
  have ended (t : State) (r : Option Nat) (pid : Nat) : KeepsObjs MemKey t ((t.injectDone r 1 1).holdEnd pid) :=
    (t.injectDone_keepsObjs r 1 1).trans (State.holdEnd_keepsObjs ..)
  unfold State.cellLost
  refine .ite ?_ ?_
  · unfold State.flightEnd
    split
    · exact .refl s
    · exact .ite (.of_updated (ended ..) rfl rfl) (.of_units rfl rfl)
  · unfold State.flightLost
    split
    · exact .refl s
    · exact .of_updated (ended ..) rfl rfl

end Sys2Proof.Machine
end

section
/-! The isolation of units (R35, R104, R129, R131, R328, R409, R517). -/

namespace Sys2Proof.Machine

/-! ## Bits of a map of units in service -/

theorem bit_setFld_zero (v k : Nat) : bit (setFld v k 1 0) k = false := by
  rw [bit_setFld, if_pos (by omega), Nat.sub_self]
  decide

/-! ## Skinks and clutches (R129, R131) -/

theorem mem_skinkThreads {k t : Nat} (hk : k < 256) (h : t ∈ skinkThreads k) : t < 2048 := by
  obtain ⟨i, hi, rfl⟩ := List.mem_map.1 h
  rw [List.mem_range] at hi
  omega

theorem mem_clutchThreads {c t : Nat} (hc : c < 16) (h : t ∈ clutchThreads c) : t < 2048 := by
  obtain ⟨i, hi, rfl⟩ := List.mem_map.1 h
  rw [List.mem_range] at hi
  omega

/-- The halts of some threads end, what is bound to them moves, and their packets return; the unit's event is raised, and R80's where it is due. -/
def State.clearUnit (s : State) (hit : Nat → Bool) (l : List Nat) (c src unit n : Nat) : State :=
  ((returnPackets ((clearHalts s l c).sfRebind hit) l).raise src unit).clutchesLow n

theorem State.clearUnit_effects {l : List Nat} (hl : ∀ t ∈ l, t < 2048) (s : State) (hit : Nat → Bool) (c src unit n : Nat) :
    KeepsClutches s (s.clearUnit hit l c src unit n) ∧
      ∃ e ∈ (s.clearUnit hit l c src unit n).fm.raised, e.src = src ∧ e.unit = unit := by
  have returned := ((clearHalts_keepsObjs s l c).trans (State.sfRebind_keepsObjs _ hit)).clutches.trans (returnPackets_keepsClutches hl _)
  have low (t : State) : KeepsObjs ThreadKey t (t.clutchesLow n) := t.clutchesLow_keepsObjs n
  exact ⟨returned.trans (KeepsObjs.clutches ((State.raise_keepsObjs ..).trans (low _))), (low _).event (State.mem_raise_raised ..)⟩

theorem State.isolateSkink_eq {s : State} {k : Nat} (h : bit (s.rd Objs.skinks_in_service) k = true) :
    s.isolateSkink k = (s.wr Objs.skinks_in_service 0 (setFld (s.rd Objs.skinks_in_service) k 1 0)).clearUnit (fun t => skinkOf t == k)
      (skinkThreads k) (k / 16) 74 k s.eligibleClutches :=
  if_neg (by rw [h]; decide)

theorem State.isolateClutch_eq {s : State} {c : Nat} (h : ¬ 3 ≤ s.rd Objs.clutch_state c) :
    s.isolateClutch c = (s.wr Objs.clutch_state c 3).clearUnit (fun t => clutchOf t == c) (clutchThreads c) c 75 c s.eligibleClutches :=
  if_neg h

/-- An isolated Skink has no bit in the map, and raises EV074. -/
theorem State.isolateSkink_effects {s : State} {k : Nat} (hk : k < 256) (h : bit (s.rd Objs.skinks_in_service) k = true) :
    bit ((s.isolateSkink k).rd Objs.skinks_in_service) k = false ∧
      ∃ e ∈ (s.isolateSkink k).fm.raised, e.src = 74 ∧ e.unit = k := by
  rw [State.isolateSkink_eq h]
  obtain ⟨keeps, event⟩ := State.clearUnit_effects (fun t => mem_skinkThreads hk)
    (s.wr Objs.skinks_in_service 0 (setFld (s.rd Objs.skinks_in_service) k 1 0)) (fun t => skinkOf t == k) (k / 16) 74 k s.eligibleClutches
  refine ⟨?_, event⟩
  rw [keeps.skinks]
  exact (congrArg (bit · k) (DictUnit.rd_wr_same (by decide))).trans (bit_setFld_zero _ k)

theorem State.isolateSkink_isolated {s : State} {k : Nat} (hk : k < 256) : bit ((s.isolateSkink k).rd Objs.skinks_in_service) k = false := by
  cases h : bit (s.rd Objs.skinks_in_service) k with
  | true => exact (State.isolateSkink_effects hk h).1
  | false => rwa [State.isolateSkink, if_pos h]

theorem State.isolateClutch_isolated {s : State} {c : Nat} (hc : c < 16) : 3 ≤ (s.isolateClutch c).rd Objs.clutch_state c := by
  by_cases h : 3 ≤ s.rd Objs.clutch_state c
  · rwa [State.isolateClutch, if_pos h]
  · have isolated : (s.wr Objs.clutch_state c 3).rd Objs.clutch_state c = 3 := DictUnit.rd_wr_same (clutchState_key_ne_idKey c)
    obtain ⟨keeps, -⟩ := State.clearUnit_effects (fun t => mem_clutchThreads hc) (s.wr Objs.clutch_state c 3) (fun t => clutchOf t == c) c 75 c
      s.eligibleClutches
    rw [State.isolateClutch_eq h, keeps.isolated hc isolated.ge]
    exact isolated.ge

/-! ## Pattern engines (R103, R104) -/

/-- A window handed over leaves the map of the engines. -/
theorem State.rerun_keepsObjs (s : State) (w : Window) (avoid : Option Nat) :
    KeepsObjs (· = Objs.pat_engines_in_service.key 0) s (s.rerun w avoid) := by
  have counted {o : Obj} (ho : o.m = 4 ∧ 0x4414 ≤ o.idx) (t : State) :
      KeepsObjs (· = Objs.pat_engines_in_service.key 0) t (t.bump o w.pipe) := by
    obtain ⟨hm, hi⟩ := ho
    refine t.bump_keepsObjs 1 ?_ ?_ <;> simp only [Obj.key, hm, idKey] <;> omega
  unfold State.rerun State.handOver
  refine (counted (o := Objs.pat_rerun) (by decide) s).trans ?_
  split
  · exact .of_units rfl rfl
  · have dropped (t : State) : KeepsObjs (· = Objs.pat_engines_in_service.key 0) t (t.joinDrop w.pipe w.pid) :=
      .of_updated (State.holdDrop_keepsObjs (by decide) _ _) rfl rfl
    exact ((dropped _).trans (counted (o := Objs.pat_no_engine_drop) (by decide) _)).trans (State.raise_keepsObjs ..)

theorem State.isolateEngine_effects {s : State} {e : Nat} (h : s.engineIn e = true) :
    (s.isolateEngine e).engineIn e = false ∧ ∃ x ∈ (s.isolateEngine e).fm.raised, x.src = 54 ∧ x.unit = e := by
  unfold State.isolateEngine
  dsimp only
  rw [if_pos h]
  refine ⟨?_, State.mem_raise_raised ..⟩
  have kept := (KeepsObjs.foldl (fun (t : State) w => t.rerun_keepsObjs w (some e)) (s.engine e).queue
    ((s.setEngine e { s.engine e with queue := [] }).wr Objs.pat_engines_in_service 0
      (setFld (s.rd Objs.pat_engines_in_service) e 1 0))).rd Objs.pat_engines_in_service 0 rfl
  exact (congrArg (bit · e) (kept.trans (DictUnit.rd_wr_same (by decide)))).trans (bit_setFld_zero _ e)

theorem State.isolateEngine_isolated (s : State) (e : Nat) : (s.isolateEngine e).engineIn e = false := by
  cases h : s.engineIn e with
  | true => exact (State.isolateEngine_effects h).1
  | false => rwa [State.isolateEngine, h, if_neg (by decide)]

/-! ## Middles (R328) -/

theorem State.isolateMiddle_effects {s : State} {m : Nat} (h : s.middleIn m = true) :
    (s.isolateMiddle m).middleIn m = false ∧ ∃ e ∈ (s.isolateMiddle m).fm.raised, e.src = 128 ∧ e.unit = m := by
  unfold State.isolateMiddle
  dsimp only
  rw [if_pos h]
  have lost (l : List (Cell × Nat)) (t : State) : KeepsObjs MemKey t (l.foldl (fun s p => s.cellLost p.1 p.2) t) :=
    .foldl (fun t (p : Cell × Nat) => t.cellLost_keepsObjs p.1 p.2) l t
  refine ⟨?_, (lost _ _).event (State.mem_raise_raised ..)⟩
  rw [State.middleIn, (lost _ _).rd Objs.middles_in_service 0 (.inl rfl)]
  exact (congrArg (bit · m) (DictUnit.rd_wr_same (by decide))).trans (bit_setFld_zero _ m)

theorem State.isolateMiddle_isolated (s : State) (m : Nat) : (s.isolateMiddle m).middleIn m = false := by
  cases h : s.middleIn m with
  | true => exact (State.isolateMiddle_effects h).1
  | false => rwa [State.isolateMiddle, h, if_neg (by decide)]

/-! ## Pseudo-channels (R409) -/

theorem hbmState_key_ne_idKey (p : Nat) : Objs.hbm_state.key p ≠ idKey := by
  simp only [Obj.key, idKey]
  omega

theorem State.retirePc_effects {s : State} {p : Nat} (hp : p < 128) (h : s.pcState p = 1 ∨ s.pcState p = 2) :
    (s.retirePc p).pcState p = 4 ∧ ∃ e ∈ (s.retirePc p).fm.raised, e.src = 168 ∧ e.unit = p := by
  unfold State.retirePc
  dsimp only
  rw [if_pos h]
  refine ⟨?_, State.mem_raiseOf_raised ..⟩
  have retired : KeepsObjs MemKey (s.wr Objs.hbm_state p 4) (hbmRetireCtl s p) :=
    (State.flushCtl_keepsObjs _ p).trans (.of_updated (State.setRetired_keepsObjs ..) rfl rfl)
  have kept := (retired.trans (State.loseRecords_keepsObjs _ fun i => bucketPc (i / 2) == p)).rd Objs.hbm_state p
    (.inr (by simp only [Obj.key]; omega))
  exact kept.trans (DictUnit.rd_wr_same (hbmState_key_ne_idKey p))

/-! ## Ports (R35) -/

theorem State.unpower_dict (s : State) (lanes : List Nat) : (s.unpower lanes).dict = s.dict :=
  List.foldlRecOn (motive := fun t : State => t.dict = s.dict) lanes _ rfl fun t ht l _ => by
    split_ifs
    · exact ht
    · exact ht

theorem State.powerDown_link (s : State) {p : Nat} (hp : p < 256) (x : Nat) : (s.powerDown p x).link p = x := by
  have left : ((if s.isUp p then s.leaveUp p x else s.setLink p x).link p) = x := by
    split_ifs
    · exact s.leaveUp_link p x
    · exact s.setLink_link p x
  unfold State.powerDown
  dsimp only
  generalize (if s.isUp p then s.leaveUp p x else s.setLink p x) = t at left ⊢
  have kept : KeepsPort ([Objs.tx_drop_down] ++ [Objs.lane_lock]) p t ((t.egFlush p).wr Objs.lane_lock p 0) :=
    (t.egFlush_keepsPort p).trans (State.wr_keepsPort _ (by decide) p 0)
  have judged (u : State) (x : PortLink) : KeepsPort [] p u (u.setPl p x) := .of_dict rfl p
  have lanes (u : State) (l : List Nat) : KeepsPort [] p u (u.unpower l) := .of_dict (u.unpower_dict l) p
  exact (((kept.trans (judged _ _)).trans (lanes _ _)).trans (State.xoffUpdate_keepsPort _ _ hp) Objs.link_state (by decide) (by decide)).trans left

theorem State.isolatePort_link (s : State) {p : Nat} (hp : p < 256) : (s.isolatePort p).link p = 4 := by
  unfold State.isolatePort
  split_ifs with h
  · exact h
  · exact s.powerDown_link hp 4

/-! ## By the unit's type (R517) -/

/-- The types of the units of R517. -/
theorem unitCount_pos {k u : Nat} (h : u < unitCount k) : k = 2 ∨ k = 5 ∨ k = 6 ∨ k = 7 ∨ k = 8 ∨ k = 10 := by
  unfold unitCount at h
  split at h <;> omega

theorem State.isolateUnit_isolated {s : State} {k u : Nat} (h : u < unitCount k) (h8 : k = 8 → s.pcState u = 1 ∨ s.pcState u = 2) :
    (s.isolateUnit k u).isolated k u = true := by
  obtain rfl | rfl | rfl | rfl | rfl | rfl := unitCount_pos h
  · exact beq_iff_eq.2 (s.isolatePort_link h)
  · exact congrArg (!·) (State.isolateSkink_isolated h)
  · exact decide_eq_true (State.isolateClutch_isolated h)
  · exact congrArg (!·) (s.isolateEngine_isolated u)
  · exact beq_iff_eq.2 (State.retirePc_effects h (h8 rfl)).1
  · exact congrArg (!·) (s.isolateMiddle_isolated u)

end Sys2Proof.Machine
end

section
/-! Regrowth: its start, and the end of its steps (R518, R448). -/

namespace Sys2Proof.Machine

/-! ## The start -/

theorem State.startRegrow_regrowsNow (s : State) (k u : Nat) : (s.startRegrow k u).regrowsNow k u = true := by
  unfold State.startRegrow
  split_ifs with h
  · exact h
  · simp [State.regrowsNow]

theorem State.regrowPc_pcState (s : State) (p : Nat) : (s.regrowPc p).pcState p = 5 := by
  have regrowing (t : State) : (t.startRegrow 8 p).pcState p = t.pcState p := by
    unfold State.startRegrow
    split_ifs <;> rfl
  rw [State.regrowPc, regrowing]
  exact DictUnit.rd_wr_same (hbmState_key_ne_idKey p)

theorem State.regrowUnit_regrowsNow (s : State) (k u : Nat) : (s.regrowUnit k u).regrowsNow k u = true := by
  unfold State.regrowUnit
  split
  · exact State.startRegrow_regrowsNow ..
  · exact State.startRegrow_regrowsNow ..
  · exact State.startRegrow_regrowsNow ..

/-! ## The steps -/

/-- Of the fault manager `t` has only raised more. -/
abbrev RaisesOnly (s t : State) : Prop := KeepsObjs (fun _ => False) s t

theorem RaisesOnly.of_fm {s t : State} (h : t.fm = s.fm) : RaisesOnly s t := KeepsObjs.of_fm h fun _ _ => False.elim

theorem RaisesOnly.regrowing {s t : State} (h : RaisesOnly s t) : t.fm.regrowing = s.fm.regrowing := by
  obtain ⟨l, hl⟩ := h.fm
  rw [hl]

theorem State.endRuns_fm (s : State) (k unit r : Nat) : (s.endRuns k unit r).fm = s.fm :=
  List.foldlRecOn (motive := fun t : State => t.fm = s.fm) _ _ rfl fun t ht x _ => by
    unfold State.endRun
    split_ifs
    · exact ht
    · exact ht

theorem State.endRegrowRuns_fm (s : State) (k u : Nat) : (s.endRegrowRuns k u).fm = s.fm := by
  unfold State.endRegrowRuns
  dsimp only
  split <;> simp only [State.endRuns_fm]

theorem State.takeSpares_raisesOnly (s : State) (p n : Nat) : RaisesOnly s (s.takeSpares p n) :=
  .of_updated (.foldl (fun _ _ => State.raise_keepsObjs ..) _ _) rfl rfl

theorem State.clearSkink_raisesOnly (s : State) (k : Nat) : RaisesOnly s (s.clearSkink k) := by
  have cleared (t : State) (i : Nat) (x : Thread) : RaisesOnly t (t.setTh i x) := .of_units rfl rfl
  have scratched (t : State) (x : SkinkUnit) : RaisesOnly t { t with sk := x } := .of_units rfl rfl
  unfold State.clearSkink
  exact (KeepsObjs.foldl (fun t i => cleared t i _) _ s).trans (scratched _ _)

theorem State.reloadStore_raisesOnly (s : State) (c : Nat) : RaisesOnly s (s.reloadStore c) := by
  unfold State.reloadStore
  exact .ite (.of_updated (State.raise_keepsObjs ..) rfl rfl) (.of_units rfl rfl)

theorem State.regrownPc_raisesOnly (s : State) (p : Nat) : RaisesOnly s (s.regrownPc p) := by
  refine .of_fm ?_
  rw [State.regrownPc, State.endRuns_fm]
  rfl

theorem State.regrownUnit_raisesOnly (s : State) (k u : Nat) : RaisesOnly s (s.regrownUnit k u) := by
  unfold State.regrownUnit
  split
  · exact s.clearSkink_raisesOnly u
  · exact (KeepsObjs.foldl (fun t i => t.clearSkink_raisesOnly (16 * u + i)) _ s).trans (State.reloadStore_raisesOnly ..)
  · exact s.regrownPc_raisesOnly u
  · exact .refl s

theorem State.toDefault_raisesOnly (s : State) (l : List Obj) (i : Nat) : RaisesOnly s (s.toDefault l i) :=
  .foldl (fun t o => RaisesOnly.of_fm (t.wr_fm o i _)) l s

theorem State.unitDefaults_raisesOnly (s : State) (k u : Nat) : RaisesOnly s (s.unitDefaults k u) := by
  unfold State.unitDefaults
  split
  · exact (s.toDefault_raisesOnly _ u).trans (.foldl (fun t l => t.toDefault_raisesOnly laneVolatile l) _ _)
  · have cleared (t : State) (b : TraceBuf) : RaisesOnly t (t.setTrace u b) := .of_units rfl rfl
    exact ((s.toDefault_raisesOnly clutchVolatile u).trans (cleared _ _)).trans
      (.foldl (fun t b => t.toDefault_raisesOnly [Objs.breakpoint] (4 * u + b)) _ _)
  · exact .refl s

/-! ## Their end -/

/-- A unit's regrowth runs no more, and the executions that started it have ended. -/
def State.regrowEnded (s : State) (k u : Nat) : State :=
  State.endRegrowRuns { s with fm := { s.fm with regrowing := s.fm.regrowing.filter (· ≠ (k, u)) } } k u

theorem State.regrowEnded_regrowing (s : State) (k u : Nat) : (k, u) ∉ (s.regrowEnded k u).fm.regrowing := by
  rw [State.regrowEnded, State.endRegrowRuns_fm]
  simp

/-- The steps of a regrowth have passed. -/
def State.regrowPassed (s : State) (k u spares : Nat) : State :=
  ((if k = 8 then s.takeSpares u spares else s).regrownUnit k u).unitDefaults k u

theorem State.regrowPassed_raisesOnly (s : State) (k u spares : Nat) : RaisesOnly s (s.regrowPassed k u spares) :=
  ((KeepsObjs.ite (s.takeSpares_raisesOnly u spares) (.refl s)).trans (State.regrownUnit_raisesOnly ..)).trans
    (State.unitDefaults_raisesOnly ..)

section
variable {s : State} {k u : Nat} (h : s.fm.regrowing.contains (k, u) = true) {n : Nat}
include h

theorem regrowthDone_passed (hcan : s.canRegrow k u n = true) :
    (k, u) ∈ (regrowthDone s k u true n).fm.passed ∧ (k, u) ∉ (regrowthDone s k u true n).fm.regrowing := by
  have eq : regrowthDone s k u true n =
      { (s.regrowEnded k u).regrowPassed k u n with
        fm := { ((s.regrowEnded k u).regrowPassed k u n).fm with
          passed := ((s.regrowEnded k u).regrowPassed k u n).fm.passed ++ [(k, u)] } } := by
    rw [regrowthDone, if_pos h, hcan]
    rfl
  rw [eq]
  refine ⟨List.mem_append_right _ (List.mem_singleton_self _), ?_⟩
  exact ((s.regrowEnded k u).regrowPassed_raisesOnly k u n).regrowing ▸ s.regrowEnded_regrowing k u

theorem regrowthDone_failed {pass : Bool} (hfail : (pass && s.canRegrow k u n) = false) :
    regrowthDone s k u pass n = (s.regrowEnded k u).regrowFailed k u := by
  rw [regrowthDone, if_pos h, hfail]
  rfl

end

theorem State.regrowPcFailed_raisesOnly (s : State) (p : Nat) : RaisesOnly s (s.regrowPcFailed p) :=
  .of_fm (State.endRuns_fm ..)

/-- A failed regrowth raises the event of its unit's type: EV076, EV054 of an engine, EV165 of a pseudo-channel. -/
theorem State.regrowFailed_effects (s : State) (k u : Nat) : RaisesOnly s (s.regrowFailed k u) ∧
    ∃ e ∈ (s.regrowFailed k u).fm.raised, (e.src = 76 ∨ e.src = 54 ∨ e.src = 165) ∧ e.unit = u := by
  have raised (t : State) {src utype detail : Nat} (hsrc : src = 76 ∨ src = 54 ∨ src = 165) :
      ∃ e ∈ (t.raiseOf src utype u detail).fm.raised, (e.src = 76 ∨ e.src = 54 ∨ e.src = 165) ∧ e.unit = u := by
    obtain ⟨e, he, rfl, hunit⟩ := t.mem_raiseOf_raised src utype u detail none 0
    exact ⟨e, he, hsrc, hunit⟩
  unfold State.regrowFailed
  split
  · exact ⟨(RaisesOnly.of_fm (s.wr_fm Objs.clutch_state u 3)).trans (State.raiseOf_keepsObjs ..), raised _ (.inl rfl)⟩
  · exact ⟨State.raise_keepsObjs .., raised _ (.inr (.inl rfl))⟩
  · exact ⟨(s.regrowPcFailed_raisesOnly u).trans (State.raise_keepsObjs ..), raised _ (.inr (.inr rfl))⟩
  · exact ⟨State.raiseOf_keepsObjs .., raised _ (.inl rfl)⟩

end Sys2Proof.Machine
end

section
/-! Drain, return, isolation and regrowth by the objects of the chapters and of the fault manager (R129 to R131, R406, R517, R518). -/

namespace Sys2Proof.Machine

/-! ## Accepted writes of a unit's command -/

/-- R451: an accepted value lies in the object's range, and its chapter does not refuse it. -/
theorem judgeWrite_ok {c : Ctx} {o : Obj} {i : Nat} {v : List Byte} {check : Nat → State → Code} {s : State}
    (h : judgeWrite c o i v check s = .ok) : rangeBad o (leNat v) = false ∧ check (leNat v) s = .ok := by
  unfold judgeWrite at h
  dsimp only at h
  split_ifs at h with _ _ _ _ _ hrange
  exact ⟨Bool.eq_false_iff.2 hrange, h⟩

/-- The greatest value of a command that names its unit by one byte. -/
theorem le_of_range {o : Obj} {n x : Nat} (hty : o.ty = .u 1) (hrng : o.rng = [(0, (n : Int))]) (h : rangeBad o x = false) : x ≤ n := by
  simpa [rangeBad, hty, hrng] using h

/-- The keys of the objects that tell the units' states lie in the chapters of ports to HBM. -/
abbrev UnitRange (k : Nat) : Prop := 0x2000 * 256 ≤ k ∧ k < 0x7000 * 256

theorem UnitRange.not_writeSide {k : Nat} (h : UnitRange k) : ¬ writeSide k := by
  obtain ⟨hlo, hhi⟩ := h
  rintro (rfl | rfl | rfl | ⟨c, rfl⟩) <;> simp only [Obj.key] at hlo hhi <;> omega

/-- What an accepted write of a unit's command finds as it takes effect. -/
structure UnitBase (o : Obj) (s b : State) : Prop where
  fm : b.fm = s.fm
  rd : ∀ p i, UnitRange (p.key i) → p.key i ≠ o.key 0 → b.rd p i = s.rd p i

/-- An accepted write of a unit's command has its effect on the unit, then answers OK. -/
theorem unitWrite_ok {c : Ctx} {o : Obj} (ho : o.key 0 ≠ idKey) {v : List Byte} {check : Nat → State → Code}
    {apply : Nat → State → State} {s : State} (h : Accepted c o 0 v check s) {P : State → Prop}
    (hP : ∀ b a, UnitBase o s b → P ((apply (leNat v) b).put a)) :
    ∃ t, (.next (writeObj c o 0 v check apply s) : Out) = .next t ∧ Answered c o 0 .ok t ∧ P t := by
  obtain ⟨u, d, m, hb, hd, -⟩ := acceptBase_frame c o 0 v s ho
  refine ⟨_, congrArg Host.Outcome.next (writeObj_accepted h.1 h.2), answered_ok .., hP _ _ ?_⟩
  rw [hb]
  exact ⟨rfl, fun p i hk hne => hd p i hne hk.not_writeSide⟩

theorem fmUnit_lt {x k u : Nat} (h : fmUnit x = some (k, u)) : u < unitCount k := by
  unfold fmUnit at h
  dsimp only at h
  split_ifs at h with hlt
  obtain ⟨rfl, rfl⟩ := Prod.mk.inj (Option.some.inj h)
  exact hlt.2

/-! ## Clutches (R129, R130) -/

theorem drainStart_state (s : State) {x : Nat} (hx : x < 16) :
    (drainStart x s).rd Objs.clutch_state x = 1 ∨ (drainStart x s).rd Objs.clutch_state x = 2 := by
  have draining : (s.wr Objs.clutch_state x 1).rd Objs.clutch_state x = 1 := DictUnit.rd_wr_same (clutchState_key_ne_idKey x)
  have keeps : KeepsClutches (s.wr Objs.clutch_state x 1) (drainStart x s) :=
    (State.sfRebind_keepsObjs ..).clutches.trans (State.drainCheck_keepsClutches _ hx)
  obtain h | ⟨-, h⟩ := keeps.drains x hx
  · exact .inl (h.trans draining)
  · exact .inr h

/-- A clutch that returns is IN_SERVICE again, whatever entries it takes. -/
theorem returned_state (s : State) {x : Nat} (hx : x < 16) :
    ((s.wr Objs.clutch_state x 0).raise 72 x).sfRetry.rd Objs.clutch_state x = 0 :=
  ((State.sfRetry_keepsObjs _).rd Objs.clutch_state x (by simp only [Obj.key, ThreadKey]; omega)).trans
    (DictUnit.rd_wr_same (clutchState_key_ne_idKey x))

/-! ## The statement -/

/-- Settles O19: every unit's state is written once by its command, and what the command then moves (threads, windows, cells, records and
requests) leaves that object alone; the steps of a regrowth leave the list of those that run, from which the unit was taken before. -/
theorem unitsAreIsolatedAndRegrown : Obligations.UnitsAreIsolatedAndRegrown := by
  intro c v s
  refine ⟨fun h => unitWrite_ok (by decide) h fun b a _ => ?drain, fun h => unitWrite_ok (by decide) h fun b a hb => ?back,
    fun h hin => unitWrite_ok (by decide) h fun b a hb => ?skink,
    fun h => unitWrite_ok (by decide) h fun b a _ => State.startRegrow_regrowsNow ..,
    fun h hin => unitWrite_ok (by decide) h fun b a hb => ?engine,
    fun h => unitWrite_ok (by decide) h fun b a _ => State.startRegrow_regrowsNow ..,
    fun h hin => unitWrite_ok (by decide) h fun b a hb => ?middle,
    fun h => unitWrite_ok (by decide) h fun b a _ => State.startRegrow_regrowsNow ..,
    fun h => unitWrite_ok (by decide) h fun b a hb => ?retire,
    fun h => unitWrite_ok (by decide) h fun b a _ => ⟨State.regrowPc_pcState .., State.startRegrow_regrowsNow ..⟩,
    fun k u h hunit h8 => unitWrite_ok (by decide) h fun b a hb => ?isolate,
    fun k u h hunit => unitWrite_ok (by decide) h fun b a _ => ?regrow,
    fun k u hruns n => ⟨fun hcan => ⟨_, rfl, regrowthDone_passed hruns hcan⟩, fun hcan => ?lacking, ⟨_, rfl, ?failed⟩⟩⟩
  case drain => exact drainStart_state b (Nat.lt_succ_of_le (le_of_range rfl rfl (judgeWrite_ok h.2).1))
  case back =>
    refine ⟨returned_state b (Nat.lt_succ_of_le (le_of_range rfl rfl (judgeWrite_ok h.2).1)), ?_⟩
    have raised : Raised 72 (leNat v) s ((b.wr Objs.clutch_state (leNat v) 0).raise 72 (leNat v)) :=
      State.raise_raised (congrArg (·.raised) hb.fm) 72 (leNat v)
    exact raised.of_fm (State.sfRetry_fm _)
  case skink =>
    refine State.isolateSkink_effects (Nat.lt_succ_of_le (le_of_range rfl rfl (judgeWrite_ok h.2).1)) ?_
    rw [hb.rd _ 0 (by decide) (by decide)]
    exact hin
  case engine => exact State.isolateEngine_effects ((congrArg (bit · (leNat v)) (hb.rd _ 0 (by decide) (by decide))).trans hin)
  case middle => exact State.isolateMiddle_effects ((congrArg (bit · (leNat v)) (hb.rd _ 0 (by decide) (by decide))).trans hin)
  case retire =>
    obtain ⟨hrange, hcheck⟩ := judgeWrite_ok h.2
    have hp : leNat v < 128 := Nat.lt_succ_of_le (le_of_range rfl rfl hrange)
    have served : s.pcState (leNat v) = 1 ∨ s.pcState (leNat v) = 2 := by
      by_contra hnot
      rw [hbmRetireCheck, if_neg hnot, refuseIf, if_pos rfl] at hcheck
      split_ifs at hcheck
    refine State.retirePc_effects hp ?_
    rw [State.pcState, hb.rd Objs.hbm_state (leNat v) (by simp only [Obj.key, UnitRange]; omega) (by simp only [Obj.key]; omega)]
    exact served
  case isolate =>
    have hlt := fmUnit_lt hunit
    rw [hunit]
    refine State.isolateUnit_isolated hlt fun hk => ?_
    have hu : u < 128 := by rwa [hk] at hlt
    rw [State.pcState, hb.rd Objs.hbm_state u (by simp only [Obj.key, UnitRange]; omega) (by simp only [Obj.key]; omega)]
    exact h8 hk
  case regrow =>
    rw [hunit]
    exact State.regrowUnit_regrowsNow ..
  case lacking =>
    have failed : regrowthDone s k u true n = regrowthDone s k u false n :=
      (regrowthDone_failed hruns (pass := true) hcan).trans (regrowthDone_failed hruns rfl).symm
    exact congrArg Host.Outcome.next failed
  case failed =>
    rw [regrowthDone_failed hruns rfl]
    obtain ⟨kept, event⟩ := (s.regrowEnded k u).regrowFailed_effects k u
    exact ⟨kept.regrowing ▸ s.regrowEnded_regrowing k u, event⟩

end Sys2Proof.Machine
end

section
/-! Rows of one operation (R116, R143, R146): the fields of their word, what of a word that holds a memory operation alone takes effect, and
what a memory row leaves. -/

namespace Sys2Proof.Machine

@[simp] theorem State.th_setTh_same (s : State) (k : Nat) (x : Thread) : (s.setTh k x).th k = x := tget_tset_same ..

@[simp] theorem State.th_addPend (s : State) (k : Nat) (p : Pend) : (s.addPend k p).th k = { s.th k with pend := (s.th k).pend ++ [p] } :=
  s.th_setTh_same k _

/-! ## The fields of a word that holds a memory operation alone -/

section
variable (op : Nat) (x : MemArgs)

theorem mwMdst_memWord : mwMdst (memWord op x) = x.mdst := by
  simp only [mwMdst, memWord, fld_eq]
  omega

theorem mwMadr_memWord : mwMadr (memWord op x) = x.madr := by
  simp only [mwMadr, memWord, fld_eq]
  omega

theorem mwMsrc_memWord : mwMsrc (memWord op x) = x.msrc := by
  simp only [mwMsrc, memWord, fld_eq]
  omega

theorem mwMimm_memWord : mwMimm (memWord op x) = x.mimm.toNat := by
  simp only [mwMimm, memWord, fld_eq]
  omega

theorem mwEop_memWord : mwEop (memWord op x) = 0 := by
  simp only [mwEop, memWord, fld_eq]
  omega

variable {op} (hop : op < 64)
include hop

theorem mwMop_memWord : mwMop (memWord op x) = op := by
  simp only [mwMop, memWord, fld_eq]
  omega

/-- The fields above MOP are 0. -/
theorem memWord_lt : memWord op x < 2 ^ 68 := by
  simp only [memWord]
  omega

theorem mwAlu_memWord : mwAlu (memWord op x) = 0 := by
  have := memWord_lt x hop
  simp only [mwAlu, fld_eq]
  omega

theorem mwTst_memWord : mwTst (memWord op x) = 0 := by
  have := memWord_lt x hop
  simp only [mwTst, fld_eq]
  omega

end

/-! ## The row -/

theorem aluStep_nop (x : Thread) (dst a b : Nat) (bImm : Bool) (imm : Nat) : aluStep x 0 dst a b bImm imm = x := rfl

theorem editStep_none (old x : Thread) (src imm : Nat) : editStep old x 0 src imm = x := rfl

/-- Of such a word its memory operation alone takes effect. -/
theorem runFields_memWord {op : Nat} (hop : op < 64) (s : State) (k : Nat) (x : MemArgs) :
    runFields s k (memWord op x) = memOp (s.setTh k (s.th k)) (s.th k) k (memWord op x) := by
  unfold runFields
  dsimp only
  rw [mwAlu_memWord x hop, mwTst_memWord x hop, mwEop_memWord, aluStep_nop, editStep_none]
  rfl

theorem State.settleLock_of_none {s : State} {k : Nat} (h : (s.th k).lockWait = none) : s.settleLock k = s := by
  unfold State.settleLock
  simp only [h]

/-- A row at a thread that is ready for it: its word takes effect, and the run ends as for TRAP where the word says so. -/
theorem opRow_of_ready {s : State} {k w : Nat} (h : ReadyFor s k w) :
    opRow k w s = if (runFields s k w).1 then (runFields s k w).2.trapRun k (s.th k).pc false
      else bindBreaks (runFields s k w).2 (s.th k) ((runFields s k w).2.th k) k w := by
  obtain ⟨hlock, hready, hgood⟩ := h
  simp only [opRow, State.settleLock_of_none hlock, hready, hgood, Bool.true_eq_false, Bool.false_eq_true, if_false]

theorem bindBreaks_of_mop_ne {w : Nat} (h : mwMop w ≠ 0x10) (s : State) (x y : Thread) (k : Nat) : bindBreaks s x y k w = s := if_neg h

section
variable {op : Nat} (hop : op < 64) {k : Fin 2048} {x : MemArgs} {s : State} (h : ReadyFor s k (memWord op x))
include hop h

/-- A memory operation that goes on leaves the state that it makes, but for an LBIND, whose breakpoints follow. -/
theorem opRow_memWord {t : State} (hbind : op ≠ 0x10) (hrun : memOp (s.setTh k (s.th k)) (s.th k) k (memWord op x) = (false, t)) :
    opRow k (memWord op x) s = t := by
  rw [opRow_of_ready h, runFields_memWord hop, hrun, if_neg Bool.false_ne_true]
  exact bindBreaks_of_mop_ne (by rwa [mwMop_memWord x hop]) ..

/-- A memory operation that ends the run traps at the thread's address (R153). -/
theorem opRow_memWord_trap {t : State} (hrun : memOp (s.setTh k (s.th k)) (s.th k) k (memWord op x) = (true, t)) :
    opRow k (memWord op x) s = t.trapRun k (s.th k).pc false := by
  rw [opRow_of_ready h, runFields_memWord hop, hrun, if_pos rfl]

end

/-- A memory row but LBIND is described by what its operation does. -/
theorem memRow_of_memOp {row : Fin 2048 → MemArgs → Instr} {op : Nat} (hop : op < 64) (hbind : op ≠ 0x10)
    {pre : Fin 2048 → MemArgs → State → Prop} {post : Fin 2048 → MemArgs → State → State → Prop}
    (hexec : ∀ k x s, exec (row k x) s = .next (opRow k (memWord op x) s))
    (heffect : ∀ k x s, pre k x s → ∃ t, memOp (s.setTh k (s.th k)) (s.th k) k (memWord op x) = (false, t) ∧ post k x s t) :
    MemRow row op pre post := by
  intro k x s hready hpre
  obtain ⟨t, hrun, hpost⟩ := heffect k x s hpre
  exact ⟨t, by rw [hexec, opRow_memWord hop hready hbind hrun], hpost⟩

/-! ## The operations -/

/-- LDS and STS at an address inside the thread's scratch, and beyond it (R144). -/
theorem memScratch_load {s : State} {y : Thread} {k : Nat} {x : MemArgs} {op : Nat} (h : y.reg x.madr % 4096 + 8 * x.mimm.toNat ≤ 3064) :
    memScratch s y k (memWord op x) false =
      (false, s.addPend k ⟨x.mdst, 1, .scratch (scratchLoad s k (y.reg x.madr % 4096 + 8 * x.mimm.toNat))⟩) := by
  simp only [memScratch, mwMadr_memWord, mwMimm_memWord, mwMdst_memWord, Nat.not_lt.2 h, if_false, Bool.false_eq_true]

theorem memScratch_store {s : State} {y : Thread} {k : Nat} {x : MemArgs} {op : Nat} (h : y.reg x.madr % 4096 + 8 * x.mimm.toNat ≤ 3064) :
    memScratch s y k (memWord op x) true =
      (false, scratchStore s k (y.reg x.madr % 4096 + 8 * x.mimm.toNat) (leBytes 8 (y.reg x.msrc))) := by
  simp only [memScratch, mwMadr_memWord, mwMimm_memWord, mwMsrc_memWord, Nat.not_lt.2 h, if_false, if_true]

theorem memScratch_beyond {s : State} {y : Thread} {k : Nat} {x : MemArgs} {op : Nat} (store : Bool)
    (h : 3064 < y.reg x.madr % 4096 + 8 * x.mimm.toNat) : memScratch s y k (memWord op x) store = (true, s) := by
  simp only [memScratch, mwMadr_memWord, mwMimm_memWord, h, if_true]

theorem memHeader_within {s : State} {y : Thread} {k : Nat} {x : MemArgs} {op : Nat} (h : y.reg x.madr + x.mimm.toNat ≤ 255) :
    memHeader s y k (memWord op x) = (false, s.addPend k ⟨x.mdst, 1, .value [beNat (padTo 0 8
      (slice (((y.job.map (fun j => j.pkt.frame)).getD []).take (fld y.md 344 9)) (y.reg x.madr + x.mimm.toNat) 8))]⟩) := by
  simp only [memHeader, mwMadr_memWord, mwMimm_memWord, mwMdst_memWord, Nat.not_lt.2 h, if_false]

theorem memHeader_beyond {s : State} {y : Thread} {k : Nat} {x : MemArgs} {op : Nat} (h : 255 < y.reg x.madr + x.mimm.toNat) :
    memHeader s y k (memWord op x) = (true, s) := by
  simp only [memHeader, mwMadr_memWord, mwMimm_memWord, h, if_true]

theorem memHash_memWord (s : State) (y : Thread) (k : Nat) (x : MemArgs) (op : Nat) :
    memHash s y k (memWord op x) = (false, s.addPend k ⟨x.mdst, 1, .value [crc32c
      (((List.range (x.mimm.toNat % 8 + 1)).map (fun i => leBytes 8 (y.reg (x.madr + i)))).flatten)]⟩) := by
  simp only [memHash, mwMadr_memWord, mwMimm_memWord, mwMdst_memWord]

theorem memLearn_first {s : State} {y : Thread} {k : Nat} {x : MemArgs} {op : Nat} (h : y.leap.learn = none) :
    memLearn s y k (memWord op x) =
      (false, s.modTh k (fun z => { z with leap := { z.leap with learn := some (y.reg x.madr / 16) } })) := by
  simp only [memLearn, mwMadr_memWord, h, Option.isSome_none, Bool.false_eq_true, if_false]

/-! ## Scratch -/

/-- Bytes written one after another from a place on: a key among their places reads its byte, any other key reads as before. -/
theorem tget_foldl_bytes (base : Nat) (l : List Byte) (n : Nat) (m : Tab Nat) (b : Nat) :
    tget 0 ((l.zipIdx n).foldl (fun (m : Tab Nat) (p : Byte × Nat) => tset 0 m (base + p.2) p.1.toNat) m) b =
      if base + n ≤ b ∧ b < base + n + l.length then (l.getD (b - (base + n)) 0).toNat else tget 0 m b := by
  induction l generalizing n m with
  | nil => simp
  | cons c l ih =>
    rw [List.zipIdx_cons, List.foldl_cons, ih]
    obtain hb | rfl | hb := Nat.lt_trichotomy b (base + n)
    · rw [if_neg (by omega), if_neg (by omega), tget_tset_other (by omega)]
    · rw [if_neg (by omega), if_pos (by simp), tget_tset_same, Nat.sub_self, List.getD_cons_zero]
    · rw [tget_tset_other (by omega)]
      have : b - (base + n) = b - (base + (n + 1)) + 1 := by omega
      simp only [this, List.getD_cons_succ, List.length_cons]
      congr 1
      apply propext
      omega

/-- What a byte of scratch reads after a store. -/
theorem tget_scratchStore (s : State) (k a : Nat) (l : List Byte) (b : Nat) :
    tget 0 (scratchStore s k a l).sk.scratch b =
      if k * 3072 + a ≤ b ∧ b < k * 3072 + a + l.length then (l.getD (b - (k * 3072 + a)) 0).toNat else tget 0 s.sk.scratch b := by
  have h := tget_foldl_bytes (k * 3072 + a) l 0 s.sk.scratch b
  rw [Nat.add_zero] at h
  exact h

/-- Eight bytes that have been stored are those that a load gets. -/
theorem scratchLoad_scratchStore (s : State) (k a v : Nat) : scratchLoad (scratchStore s k a (leBytes 8 v)) k a = v % 2 ^ 64 := by
  have bytes : (List.range 8).map (fun i => BitVec.ofNat 8 (tget 0 (scratchStore s k a (leBytes 8 v)).sk.scratch (k * 3072 + a + i))) =
      leBytes 8 v := by
    refine List.ext_getElem (by simp [leBytes_length]) fun i hi hi' => ?_
    rw [leBytes_length] at hi'
    rw [List.getElem_map, List.getElem_range, tget_scratchStore, leBytes_length, if_pos (by omega), Nat.add_sub_cancel_left,
      BitVec.ofNat_toNat, BitVec.setWidth_eq, List.getD_eq_getElem]
  rw [scratchLoad, bytes, leNat_leBytes]
  norm_num

theorem scratchStore_th (s : State) (k a : Nat) (l : List Byte) (t : Nat) : (scratchStore s k a l).th t = s.th t := rfl

/-! ## MOP -/

section
variable (s : State) (y : Thread) (k : Nat) (x : MemArgs)

theorem memOp_lds : memOp s y k (memWord 0x01 x) = memScratch s y k (memWord 0x01 x) false := by
  simp only [memOp, mwMop_memWord x (show 0x01 < 64 by decide)]

theorem memOp_sts : memOp s y k (memWord 0x02 x) = memScratch s y k (memWord 0x02 x) true := by
  simp only [memOp, mwMop_memWord x (show 0x02 < 64 by decide)]

theorem memOp_ldh : memOp s y k (memWord 0x03 x) = memHeader s y k (memWord 0x03 x) := by
  simp only [memOp, mwMop_memWord x (show 0x03 < 64 by decide)]

theorem memOp_hash : memOp s y k (memWord 0x04 x) = memHash s y k (memWord 0x04 x) := by
  simp only [memOp, mwMop_memWord x (show 0x04 < 64 by decide)]

theorem memOp_learn : memOp s y k (memWord 0x0E x) = memLearn s y k (memWord 0x0E x) := by
  simp only [memOp, mwMop_memWord x (show 0x0E < 64 by decide)]

end

/-- Settles O12: each row is its memory operation, a store of eight bytes is what a load of them reads, and an access beyond its memory ends
the run as for TRAP. -/
theorem memoryRowsAccess : Obligations.MemoryRowsAccess := by
  refine ⟨memRow_of_memOp (by decide) (by decide) (fun _ _ _ => rfl) fun k x s h => ?lds,
    memRow_of_memOp (by decide) (by decide) (fun _ _ _ => rfl) fun k x s h => ?sts,
    memRow_of_memOp (by decide) (by decide) (fun _ _ _ => rfl) fun k x s h => ?ldh,
    memRow_of_memOp (by decide) (by decide) (fun _ _ _ => rfl) fun k x s _ => ?hash,
    memRow_of_memOp (by decide) (by decide) (fun _ _ _ => rfl) fun k x s h => ?learn,
    fun k x s => ⟨fun h => ⟨fun hready => ?ldsBeyond, fun hready => ?stsBeyond⟩, fun h hready => ?ldhBeyond⟩⟩
  case lds =>
    refine ⟨_, (memOp_lds ..).trans (memScratch_load h), ?_⟩
    rw [State.th_addPend, State.th_setTh_same]
    exact ⟨rfl, rfl, rfl⟩
  case sts =>
    refine ⟨_, (memOp_sts ..).trans (memScratch_store h), scratchLoad_scratchStore .., fun b hb => ?_, ?_⟩
    · rw [tget_scratchStore, leBytes_length, if_neg (by omega)]
      rfl
    · rw [scratchStore_th, State.th_setTh_same]
  case ldh =>
    refine ⟨_, (memOp_ldh ..).trans (memHeader_within h), ?_⟩
    rw [State.th_addPend, State.th_setTh_same]
    exact ⟨rfl, rfl⟩
  case hash =>
    refine ⟨_, (memOp_hash ..).trans (memHash_memWord ..), ?_⟩
    rw [State.th_addPend, State.th_setTh_same]
    exact ⟨rfl, rfl⟩
  case learn =>
    refine ⟨_, (memOp_learn ..).trans (memLearn_first h), ?_⟩
    rw [State.modTh, State.th_setTh_same, State.th_setTh_same]
    exact ⟨rfl, rfl⟩
  case ldsBeyond =>
    exact congrArg Host.Outcome.next (opRow_memWord_trap (by decide) hready ((memOp_lds ..).trans (memScratch_beyond false h)))
  case stsBeyond =>
    exact congrArg Host.Outcome.next (opRow_memWord_trap (by decide) hready ((memOp_sts ..).trans (memScratch_beyond true h)))
  case ldhBeyond =>
    exact congrArg Host.Outcome.next (opRow_memWord_trap (by decide) hready ((memOp_ldh ..).trans (memHeader_beyond h)))

end Sys2Proof.Machine
end

section
/-! Table lookups (R280, R289, R290, R292, R295): how one is issued, what each table holds for a key, and the result that comes of it. -/

namespace Sys2Proof.Machine

/-! ## Issue -/

/-- The codes of the table lookups (R143), with the number of result registers of each (R116). -/
def lookupCodes : List (Nat × Nat) := [(0x08, 1), (0x09, 2), (0x0A, 1), (0x0B, 2), (0x0C, 1), (0x0D, 1)]

section
variable {op n : Nat} (h : (op, n) ∈ lookupCodes)
include h

theorem lookupCode_bounds : op < 64 ∧ op ≠ 0x10 := by
  simp only [lookupCodes, List.mem_cons, Prod.mk.injEq, List.not_mem_nil, or_false] at h
  omega

theorem memRegs_lookup (mimm : Nat) : (memRegs op mimm).2.2 = n := by
  simp only [lookupCodes, List.mem_cons, Prod.mk.injEq, List.not_mem_nil, or_false] at h
  obtain ⟨rfl, rfl⟩ | ⟨rfl, rfl⟩ | ⟨rfl, rfl⟩ | ⟨rfl, rfl⟩ | ⟨rfl, rfl⟩ | ⟨rfl, rfl⟩ := h <;> rfl

theorem memOp_lookup (s : State) (y : Thread) (k : Nat) (x : MemArgs) :
    memOp s y k (memWord op x) = memLookup s y k (memWord op x) := by
  have hmop := mwMop_memWord x (lookupCode_bounds h).1
  simp only [lookupCodes, List.mem_cons, Prod.mk.injEq, List.not_mem_nil, or_false] at h
  obtain ⟨rfl, -⟩ | ⟨rfl, -⟩ | ⟨rfl, -⟩ | ⟨rfl, -⟩ | ⟨rfl, -⟩ | ⟨rfl, -⟩ := h <;> simp only [memOp, hmop]

theorem memLookup_memWord (s : State) (y : Thread) (k : Nat) (x : MemArgs) :
    memLookup s y k (memWord op x) =
      (false, s.addPend k ⟨x.mdst, n, .lookup op x.mimm.toNat (y.reg x.madr) (y.reg (x.madr + 1))⟩) := by
  simp only [memLookup, mwMop_memWord x (lookupCode_bounds h).1, mwMimm_memWord, mwMadr_memWord, mwMdst_memWord, memRegs_lookup h]

/-- A lookup takes its key registers along, and leaves the registers and the tables. -/
theorem lookupRow_issues {row : Fin 2048 → MemArgs → Instr} (hexec : ∀ k x s, exec (row k x) s = .next (opRow k (memWord op x) s)) :
    MemRow row op (fun _ _ _ => True) (fun k x s t => (t.th k).pend = (s.th k).pend ++
      [⟨x.mdst, n, .lookup op x.mimm.toNat ((s.th k).reg x.madr) ((s.th k).reg (x.madr + 1))⟩] ∧ (t.th k).g = (s.th k).g ∧ t.tbl = s.tbl) :=
  memRow_of_memOp (lookupCode_bounds h).1 (lookupCode_bounds h).2 hexec fun k x s _ => by
    refine ⟨_, (memOp_lookup h ..).trans (memLookup_memWord h ..), ?_⟩
    rw [State.th_addPend, State.th_setTh_same]
    exact ⟨rfl, rfl, rfl⟩

end

/-! ## What the tables hold -/

/-- LKMAC's result for the MAC and FID of a register (R280). -/
def macResult (s : State) (k : Nat) : Nat :=
  match s.macFind k with
  | none => 0
  | some x =>
    let e := (tfind s.tbl.mac x).getD 0
    2 ^ 63 + b2n (macStatic e) * 2 ^ 62 + b2n (macPair e) * 2 ^ 61 + b2n (s.macHeld e s.macNow) * 2 ^ 60 +
      (s.macNow + 65536 - macSeen e) % 65536 * 2 ^ 32 + macPort e

/-- The key that LKNAT looks for: in an NPTv6 key, bytes 2 to 7 are masked to npt6_len bits (R289). -/
def natLookupKey (s : State) (k : Nat) : Nat :=
  if fld k 0 8 = 6 ∨ fld k 0 8 = 7 then natMask k (s.rd Objs.npt6_len (fld k 8 8)) else k

/-- LKNAT's results for a key register (R289). -/
def natResult (s : State) (k : Nat) : Nat × Nat :=
  match s.natFind (natLookupKey s k) with
  | none => (0, 0)
  | some x => (fld ((tfind s.tbl.nat x).getD 0) 0 64, 2 ^ 63)

/-- The result of an LPM lookup whose longest match is `r` (R290). -/
def routeResult (r : Option (Nat × Nat × Nat)) : Nat :=
  match r with
  | none => 0
  | some (len, _, d) => 2 ^ 63 + len * 2 ^ 48 + fld d 0 48

/-- LKMCG's result for a group and an ingress port (R292). -/
def mcgResult (s : State) (g inPort : Nat) : Nat :=
  let map := fld (tget 0 s.tbl.mcg g) 64 256
  b2n (map != 0) * 2 ^ 63 + b2n (bit map inPort) * 2 ^ 16 + popCount 256 map

/-- LKMBR's result (R295). -/
def mbrResult (s : State) (a : Nat) (named : Bool) : Nat :=
  let d := tget 0 s.tbl.mbrSet (fld a 16 12)
  match mbrIndex s d a named with
  | none => 0
  | some x =>
    let m := tget 0 s.tbl.mbr (fld d 0 16 + x)
    2 ^ 63 + fld m 30 2 * 2 ^ 48 + x * 2 ^ 40 + fld m 8 16 * 2 ^ 24 + fld m 0 8

/-- The longest match of an IPv4 address in a route table. -/
def lpm4Match (s : State) (t a : Nat) : Option (Nat × Nat × Nat) :=
  lpmFind s.tbl.lpm4 (fun n => lpm4Key t n (cutPrefix 32 n (a % 2 ^ 32))) 32

/-- The longest match of an IPv6 address in a route table. -/
def lpm6Match (s : State) (t hi lo : Nat) : Option (Nat × Nat × Nat) :=
  lpmFind s.tbl.lpm6 (fun n => lpm6Key t n (cutPrefix 128 n (hi * 2 ^ 64 + lo))) 128

/-- The two result registers of a lookup, of which one that writes a single register uses the first. -/
def lookupResults (s : State) (y : Thread) (op mimm k0 k1 : Nat) : Nat × Nat :=
  match op with
  | 0x08 => (macResult s (k0 / 16), 0)
  | 0x09 => natResult s k0
  | 0x0A => (routeResult (lpm4Match s (mimm % 16) k0), 0)
  | 0x0B => (routeResult (lpm6Match s (mimm % 16) k0 k1), 0)
  | 0x0C => (mcgResult s (k0 % 65536) (fld y.md 32 8), 0)
  | _ => (mbrResult s k0 (bit mimm 0), 0)

/-! ## Lookups of whole words -/

theorem lkMac_good (s : State) (a pos : Nat) : lkMac s a .good pos = (some (macResult s (a / 16), 0), s) := by
  cases h : s.macFind (a / 16) <;> simp only [lkMac, macResult, h, reduceCtorEq, if_false]

section
variable {s : State} (h : s.tbl.bad = [])
include h

/-- Where no word is damaged, a lookup that meets no error can use what it reads, and leaves the state. -/
theorem readWord_good (target item : Nat) : readWord s target item .good = (true, s) := by
  simp [readWord, h]

theorem lkNat_good (a pos : Nat) : lkNat s a .good pos = (some (natResult s a), s) := by
  cases hf : s.natFind (natLookupKey s a) <;> rw [natLookupKey] at hf <;>
    simp only [lkNat, natResult, natLookupKey, readWord_good h, hf]

theorem lpmResult_good (target root : Nat) (r : Option (Nat × Nat × Nat)) :
    lpmResult s target root r .good = (some (routeResult r, 0), s) := by
  simp only [lpmResult, readWord_good h, routeResult]
  rcases r with _ | ⟨_, _, _⟩ <;> rfl

theorem lkMcg_good (g inPort : Nat) : lkMcg s g inPort .good = (some (mcgResult s g inPort, 0), s) := by
  simp only [lkMcg, readWord_good h, mcgResult]

theorem lkMbr_good (a : Nat) (named : Bool) (pos : Nat) : lkMbr s a named .good pos = (some (mbrResult s a named, 0), s) := by
  have off : bit (tget 0 s.tbl.mbrSet (fld a 16 12)) 63 = false ∨ named = false ∧ bit (tget 0 s.tbl.mbrSet (fld a 16 12)) 62 = true →
      mbrIndex s (tget 0 s.tbl.mbrSet (fld a 16 12)) a named = none := fun hoff => if_pos hoff
  simp only [lkMbr, mbrResult, ite_self, readWord_good h]
  split_ifs with hoff
  · rw [off hoff]
  · cases mbrIndex s (tget 0 s.tbl.mbrSet (fld a 16 12)) a named <;> rfl

theorem serveLookup_good (y : Thread) (op mimm k0 k1 pos : Nat) :
    serveLookup s y op mimm k0 k1 .good pos = (some (lookupResults s y op mimm k0 k1), s) := by
  unfold serveLookup lookupResults
  split
  · exact lkMac_good s k0 pos
  · exact lkNat_good h k0 pos
  · exact lpmResult_good h ..
  · exact lpmResult_good h ..
  · exact lkMcg_good h ..
  · simp_all only [lkMbr_good h]

end

/-! ## Results fit a register -/

theorem b2n_le (b : Bool) : b2n b ≤ 1 := by cases b <;> decide

theorem popCount_le (n v : Nat) : popCount n v ≤ n := by
  induction n generalizing v with
  | zero => exact Nat.le_refl 0
  | succ n ih =>
    have := ih (v / 2)
    simp only [popCount]
    omega

theorem lpmFind_length_le {routes : Tab Nat} {key : Nat → Nat} {n : Nat} {r : Nat × Nat × Nat} (h : lpmFind routes key n = some r) :
    r.1 ≤ n := by
  induction n with
  | zero =>
    obtain ⟨d, -, rfl⟩ := Option.map_eq_some_iff.1 h
    exact Nat.le_refl 0
  | succ n ih =>
    unfold lpmFind at h
    split at h
    · obtain rfl := Option.some.inj h
      exact Nat.le_refl _
    · exact (ih h).trans (Nat.le_succ n)

theorem macResult_lt (s : State) (k : Nat) : macResult s k < 2 ^ 64 := by
  unfold macResult
  split
  · decide
  next x _ =>
    have hstatic := b2n_le (macStatic ((tfind s.tbl.mac x).getD 0))
    have hpair := b2n_le (macPair ((tfind s.tbl.mac x).getD 0))
    have hheld := b2n_le (s.macHeld ((tfind s.tbl.mac x).getD 0) s.macNow)
    have hport := fld_lt ((tfind s.tbl.mac x).getD 0) 60 8
    simp only [macPort]
    omega

theorem natResult_lt (s : State) (k : Nat) : (natResult s k).1 < 2 ^ 64 ∧ (natResult s k).2 < 2 ^ 64 := by
  unfold natResult
  split
  · norm_num
  · exact ⟨fld_lt _ 0 64, by norm_num⟩

theorem routeResult_lt {r : Option (Nat × Nat × Nat)} (h : ∀ x ∈ r, x.1 ≤ 128) : routeResult r < 2 ^ 64 := by
  rcases r with _ | ⟨len, key, d⟩
  · decide
  · have hlen : len ≤ 128 := h _ rfl
    have hdata := fld_lt d 0 48
    simp only [routeResult]
    omega

theorem mcgResult_lt (s : State) (g inPort : Nat) : mcgResult s g inPort < 2 ^ 64 := by
  have hsome := b2n_le (fld (tget 0 s.tbl.mcg g) 64 256 != 0)
  have hin := b2n_le (bit (fld (tget 0 s.tbl.mcg g) 64 256) inPort)
  have hcount := popCount_le 256 (fld (tget 0 s.tbl.mcg g) 64 256)
  simp only [mcgResult]
  omega

theorem mbrIndex_lt {s : State} {d a i : Nat} {named : Bool} (h : mbrIndex s d a named = some i) : i < 2 ^ 9 := by
  have hcount : mbrCount d < 2 ^ 9 := fld_lt d 29 9
  simp only [mbrIndex] at h
  split_ifs at h <;> simp only [Option.some.injEq] at h <;> omega

theorem mbrResult_lt (s : State) (a : Nat) (named : Bool) : mbrResult s a named < 2 ^ 64 := by
  simp only [mbrResult]
  split
  · decide
  next x hx =>
    have hindex := mbrIndex_lt hx
    have hstate := fld_lt (tget 0 s.tbl.mbr (fld (tget 0 s.tbl.mbrSet (fld a 16 12)) 0 16 + x)) 30 2
    have hdata := fld_lt (tget 0 s.tbl.mbr (fld (tget 0 s.tbl.mbrSet (fld a 16 12)) 0 16 + x)) 8 16
    have hport := fld_lt (tget 0 s.tbl.mbr (fld (tget 0 s.tbl.mbrSet (fld a 16 12)) 0 16 + x)) 0 8
    omega

theorem lookupResults_lt (s : State) (y : Thread) (op mimm k0 k1 : Nat) :
    (lookupResults s y op mimm k0 k1).1 < 2 ^ 64 ∧ (lookupResults s y op mimm k0 k1).2 < 2 ^ 64 := by
  unfold lookupResults
  split
  · exact ⟨macResult_lt .., Nat.two_pow_pos 64⟩
  · exact natResult_lt ..
  · exact ⟨routeResult_lt fun x hx => (lpmFind_length_le hx).trans (by decide), Nat.two_pow_pos 64⟩
  · exact ⟨routeResult_lt fun x hx => lpmFind_length_le hx, Nat.two_pow_pos 64⟩
  · exact ⟨mcgResult_lt .., Nat.two_pow_pos 64⟩
  · exact ⟨mbrResult_lt .., Nat.two_pow_pos 64⟩

/-! ## Results written (R116) -/

theorem setReg_foldl_pend (l : List (Nat × Nat)) (y : Thread) : (l.foldl (fun x r => x.setReg r.1 r.2) y).pend = y.pend :=
  List.foldlRecOn (motive := fun x : Thread => x.pend = y.pend) l _ rfl fun _ hx _ _ => hx

section
variable (s : State) (k i : Nat) (p : Pend) (v w : Nat)

theorem writeResult_pend (l : List Nat) : ((writeResult s k i p l).th k).pend = (s.th k).pend.eraseIdx i := by
  rw [writeResult, State.modTh, State.th_setTh_same, setReg_foldl_pend]

variable {p}

theorem writeResult_one (h : p.n = 1) (hv : v < 2 ^ 64) : ((writeResult s k i p [v, w]).th k).g = (s.th k).g.set p.reg v := by
  rw [writeResult, State.modTh, State.th_setTh_same, h]
  exact congrArg ((s.th k).g.set p.reg) (Nat.mod_eq_of_lt hv)

theorem writeResult_two (h : p.n = 2) (hv : v < 2 ^ 64) (hw : w < 2 ^ 64) :
    ((writeResult s k i p [v, w]).th k).g = ((s.th k).g.set p.reg v).set (p.reg + 1) w := by
  rw [writeResult, State.modTh, State.th_setTh_same, h]
  exact congrArg₂ (fun a b => ((s.th k).g.set p.reg a).set (p.reg + 1) b) (Nat.mod_eq_of_lt hv) (Nat.mod_eq_of_lt hw)

end

theorem operationResult_lookup {s : State} {k i : Nat} {p : Pend} {op mimm k0 k1 : Nat} (hp : (s.th k).pend[i]? = some p)
    (hkind : p.kind = .lookup op mimm k0 k1) (hbad : s.tbl.bad = []) (pos : Nat) (fsu : FsuEcc) :
    operationResult s k i .good pos fsu =
      writeResult s k i p [(lookupResults s (s.th k) op mimm k0 k1).1, (lookupResults s (s.th k) op mimm k0 k1).2] := by
  simp only [operationResult, hp, hkind, serveLookup_good hbad]

/-- Settles O13: each lookup row is one of the codes of R143, and its result is that of its table, which leaves the tables and fits its
registers. -/
theorem lookupRowsIssue : Obligations.LookupRowsIssue := by
  refine ⟨fun r hr => ?issue, fun k i pos fsu s p op mimm k0 k1 hp hkind hbad => ?result⟩
  case issue =>
    simp only [List.mem_cons, List.not_mem_nil, or_false] at hr
    obtain rfl | rfl | rfl | rfl | rfl | rfl := hr
    all_goals exact lookupRow_issues (by decide) fun _ _ _ => rfl
  case result =>
    obtain ⟨hv, hw⟩ := lookupResults_lt s (s.th k) op mimm k0 k1
    refine ⟨_, _, _, congrArg Host.Outcome.next (operationResult_lookup hp hkind hbad pos fsu), writeResult_pend .., rfl,
      fun h => writeResult_one _ _ _ _ _ h hv, fun h => writeResult_two _ _ _ _ _ h hv hw, ?mac, ?nat, ?lpm4, ?lpm6, ?mcg, ?mbr⟩
    all_goals rintro rfl
    case lpm6 =>
      have route : (routeResult (lpm6Match s (mimm % 16) k0 k1), 0) = match lpm6Match s (mimm % 16) k0 k1 with
        | none => (0, 0)
        | some (len, _, d) => (2 ^ 63 + len * 2 ^ 48 + fld d 0 48, 0) := by
        rcases lpm6Match s (mimm % 16) k0 k1 with _ | ⟨_, _, _⟩ <;> rfl
      exact route
    all_goals rfl

end Sys2Proof.Machine
end

section
/-! Spray and the reorder stage (R118 to R120, R125, R171, R173): what a packet that spray takes leaves, and the head of a ring as it is
released, discarded or skipped. -/

namespace Sys2Proof.Machine

/-! ## What a packet that leaves its ring does elsewhere (R76, R489) -/

/-- The spray unit, the reorder stages, the traffic manager and the counters of the reorder stages are in `t` as in `s`. -/
structure KeepsReorder (s t : State) : Prop where
  sk : t.sk = s.sk
  tm : t.tm = s.tm
  rd : ∀ o i, 0x4810 * 256 ≤ o.key i → o.key i < 0x4900 * 256 → t.rd o i = s.rd o i

namespace KeepsReorder

theorem refl (s : State) : KeepsReorder s s := ⟨rfl, rfl, fun _ _ _ _ => rfl⟩

theorem trans {s t u : State} (h : KeepsReorder s t) (h' : KeepsReorder t u) : KeepsReorder s u :=
  ⟨h'.sk.trans h.sk, h'.tm.trans h.tm, fun o i hlo hhi => (h'.rd o i hlo hhi).trans (h.rd o i hlo hhi)⟩

/-- A write of an object of the stream port. -/
theorem wr_stream {s t : State} (h : KeepsReorder s t) {o : Obj} (ho : o.m = 64 ∧ 0x7800 ≤ o.idx) (c v : Nat) : KeepsReorder s (t.wr o c v) := by
  obtain ⟨hm, hidx⟩ := ho
  refine h.trans ⟨rfl, rfl, fun p i hlo hhi => DictUnit.rd_wr_other ?_ ?_⟩ <;> simp only [Obj.key, hm, idKey] at hlo hhi ⊢ <;> omega

theorem raise {s t : State} (h : KeepsReorder s t) (src unit : Nat) : KeepsReorder s (t.raise src unit) := h.trans ⟨rfl, rfl, fun _ _ _ _ => rfl⟩

/-- A record that is offered is admitted, or dropped for one of three reasons (R483). -/
theorem offer (s : State) (c ty : Nat) (body : List Byte) : KeepsReorder s (s.offer c ty body) := by
  have seq : KeepsReorder s (s.wr Objs.str_chan_seq c ((s.rd Objs.str_chan_seq c + 1) % 2 ^ 32)) := (refl s).wr_stream (by decide) c _
  by_cases hok : s.wouldAdmit c (16 + body.length) = true
  · obtain ⟨u, d, m, h, hd⟩ := offer_admitted (ty := ty) (r := .none) hok
    rw [h, hd]
    exact ⟨rfl, rfl, seq.rd⟩
  · simp only [State.wouldAdmit, Bool.and_eq_true, decide_eq_true_eq] at hok
    unfold State.offer
    dsimp only
    split
    · exact seq.wr_stream (by decide) c _
    next hoff =>
      split
      · exact (seq.wr_stream (by decide) c _).raise ..
      · split
        · exact (seq.wr_stream (by decide) c _).raise ..
        · exact absurd ⟨⟨by simpa using hoff, by omega⟩, by omega⟩ hok

theorem postcard (s : State) (chan : Option Nat) (md outcome thread status : Nat) :
    KeepsReorder s (s.postcard chan md outcome thread status) := by
  unfold State.postcard
  split
  · exact refl s
  · exact offer ..

theorem holdDrop (s : State) (pid : Nat) : KeepsReorder s (s.holdDrop pid) := by
  obtain ⟨u, d, h, hd⟩ := s.holdDrop_frame pid
  rw [h]
  exact ⟨rfl, rfl, fun o i hlo _ => hd o i (by simp only [Obj.key] at hlo ⊢; omega)⟩

end KeepsReorder

/-! ## The head of a ring (R125) -/

theorem State.setRing_ring (s : State) (p : Nat) (l : List REntry) : (s.setRing p l).ring p = l := tget_tset_same ..

/-- What is counted for a packet as it leaves the ring stays counted. -/
theorem KeepsReorder.counted {s t : State} {o : Obj} {p : Nat} (h : KeepsReorder (s.bump o p) t) (hlo : 0x4810 * 256 ≤ o.key p)
    (hhi : o.key p < 0x4900 * 256) : t.rd o p = satAdd (8 * o.ty.size) (s.rd o p) 1 :=
  (h.rd o p hlo hhi).trans (s.bump_rd_same (by simp only [idKey]; omega) 1)

theorem KeepsReorder.ring {s t : State} (h : KeepsReorder s t) (p : Nat) : t.ring p = s.ring p := by
  rw [State.ring, h.sk]
  rfl

section
variable {s : State} {p : Nat} {e : REntry} {rest : List REntry} (hring : s.ring p = e :: rest)
include hring

theorem reorderRelease_drop {k : Packet} (hdone : e.done = some k) (hdrop : e.drop = true) :
    reorderRelease s p .good .none = discardPacket (s.setRing p rest) p e k := by
  simp only [reorderRelease, hring, hdone, hdrop, reduceCtorEq, if_false, if_true]

theorem reorderRelease_keep {k : Packet} (hdone : e.done = some k) (hdrop : e.drop = false) :
    reorderRelease s p .good .none = releasePacket (s.setRing p rest) p e k .none := by
  simp only [reorderRelease, hring, hdone, hdrop, reduceCtorEq, if_false, Bool.false_eq_true]

theorem reorderTimeout_expired (hdone : e.done = none) (hrun : s.elapsed e.alloc e.timeout = true) :
    reorderTimeout s p = (((markLate s p e.id).setRing p rest).bump Objs.reorder_timeout_count p).raise 64 p := by
  simp [reorderTimeout, hring, hdone, hrun]

end

theorem discardPacket_keepsReorder (s : State) (p : Nat) (e : REntry) (k : Packet) :
    KeepsReorder (s.bump Objs.prog_drop p) (discardPacket s p e k) := (KeepsReorder.postcard ..).trans (KeepsReorder.holdDrop ..)

/-- A packet that is neither punted nor mirrored enters step 9 alone. -/
theorem releasePacket_plain {s : State} {p : Nat} {e : REntry} {k : Packet} (hpunt : bit k.md 42 = false) (hmirror : bit k.md 43 = false) :
    releasePacket s p e k .none =
      ((s.bump Objs.reorder_released p).postcard e.postcard k.md 0 e.thread e.status).enterTm (itemOf k k.md) := by
  simp only [releasePacket, hpunt, hmirror, Bool.false_eq_true, if_false]

/-! ## Spray (R118 to R120, R171, R173) -/

theorem State.th_sk {s t : State} (h : t.sk = s.sk) (k : Nat) : t.th k = s.th k := by rw [State.th, h]; rfl

theorem State.traceAdd_sk (s : State) (t evt addr nxt mop top flags data : Nat) : (s.traceAdd t evt addr nxt mop top flags data).sk = s.sk := by
  unfold State.traceAdd
  dsimp only
  split_ifs <;> rfl

theorem State.traceAdd_cu (s : State) (t evt addr nxt mop top flags data : Nat) : (s.traceAdd t evt addr nxt mop top flags data).cu = s.cu := by
  unfold State.traceAdd
  dsimp only
  split_ifs <;> rfl

theorem State.assign_cu (s : State) (k : Nat) (j : Job) : (s.assign k j).cu = s.cu := by
  rw [State.assign, State.traceEvt, State.traceAdd_cu]
  rfl

/-- An assignment changes its thread and the turn of its clutch alone in the spray unit. -/
theorem State.assign_sk (s : State) (k : Nat) (j : Job) : ∃ y n, (s.assign k j).sk = { s.sk with threads := y, lastSkink := n } := by
  rw [State.assign, State.traceEvt, State.traceAdd_sk]
  exact ⟨_, _, rfl⟩

theorem State.assign_loads (s : State) (k : Nat) (j : Job) : ((s.assign k j).th k).st = .loading ∧ ((s.assign k j).th k).job = some j := by
  rw [State.assign, State.traceEvt, State.th_sk (State.traceAdd_sk ..), State.th_sk (State.bump_sk ..)]
  rw [State.th_setTh_same]
  exact ⟨rfl, rfl⟩

theorem State.addClaim_sk (s : State) (lsn : Nat) (h : Nat × Nat) : (s.addClaim lsn h).sk = s.sk := by
  unfold State.addClaim
  split <;> rfl

theorem State.addClaim_cu (s : State) (lsn : Nat) (h : Nat × Nat) : ∃ l, (s.addClaim lsn h).cu = { s.cu with claims := l } := by
  unfold State.addClaim
  split <;> exact ⟨_, rfl⟩

/-- A packet that waited is counted, and waits no longer. -/
theorem sprayGo_frame (s : State) (p : Nat) : ∃ x d, sprayGo s p = { s with sk := { s.sk with stall := x }, dict := d } := by
  unfold sprayGo
  split <;> exact ⟨_, _, rfl⟩

section
variable (s : State) (p : Nat) (pkt : Packet) (sf : Bool)

theorem takePacket_pkt : (takePacket s p pkt sf).1.pkt = pkt := rfl

theorem takePacket_lsn : (takePacket s p pkt sf).1.lsn = s.cu.lsnNext := rfl

theorem takePacket_join : tget [] (takePacket s p pkt sf).2.sk.join p = (tget [] s.sk.join p).drop 1 := by
  rw [takePacket, State.wr_sk, State.addClaim_sk, tget_tset_same]

/-- The packet's reorder entry is the last of its ring, and waits for it (R120). -/
theorem takePacket_ring : ∃ e, (takePacket s p pkt sf).2.ring p = s.ring p ++ [e] ∧ e.pid = pkt.pid ∧ e.done = none := by
  rw [takePacket, State.ring, State.wr_sk, State.addClaim_sk, tget, tfind_tput_same]
  exact ⟨_, rfl, rfl, rfl⟩

/-- The packet takes the next LSN, and its reservation (R171, R173). -/
theorem takePacket_cu : (takePacket s p pkt sf).2.cu.lsnNext = (s.cu.lsnNext + 1) % 2 ^ 48 ∧
    s.cu.lsnNext ∈ (takePacket s p pkt sf).2.cu.reserved := by
  rw [takePacket, State.wr_cu]
  obtain ⟨l, h⟩ := State.addClaim_cu _ s.cu.lsnNext _
  rw [h]
  exact ⟨rfl, List.mem_append_right _ (List.mem_singleton_self _)⟩

end

/-- A new packet of a pipe is taken and assigned to a thread. -/
def State.sprayed (s : State) (p k : Nat) (pkt : Packet) : State :=
  ((takePacket s p pkt false).2.picked k).assign k (takePacket s p pkt false).1

section
variable (s : State) (p k : Nat) (pkt : Packet)

theorem State.sprayed_join : tget [] (s.sprayed p k pkt).sk.join p = (tget [] s.sk.join p).drop 1 := by
  obtain ⟨y, n, h⟩ := State.assign_sk ((takePacket s p pkt false).2.picked k) k (takePacket s p pkt false).1
  rw [State.sprayed, h]
  exact takePacket_join s p pkt false

theorem State.sprayed_ring : ∃ e, (s.sprayed p k pkt).ring p = s.ring p ++ [e] ∧ e.pid = pkt.pid ∧ e.done = none := by
  obtain ⟨y, n, h⟩ := State.assign_sk ((takePacket s p pkt false).2.picked k) k (takePacket s p pkt false).1
  rw [State.ring, State.sprayed, h]
  exact takePacket_ring s p pkt false

theorem State.sprayed_cu : (s.sprayed p k pkt).cu.lsnNext = (s.cu.lsnNext + 1) % 2 ^ 48 ∧ s.cu.lsnNext ∈ (s.sprayed p k pkt).cu.reserved := by
  rw [State.sprayed, State.assign_cu]
  exact takePacket_cu s p pkt false

theorem State.sprayed_loads : ((s.sprayed p k pkt).th k).st = .loading ∧ ((s.sprayed p k pkt).th k).job = some (takePacket s p pkt false).1 :=
  State.assign_loads ..

end

/-- What SPRAY does with a released packet that has a place, and is not steered (R118, R119). -/
theorem spray_takes {s : State} {p k : Nat} {h : JoinItem} {rest : List JoinItem} (hreplay : tget [] s.sk.replay p = [])
    (hjoin : tget [] s.sk.join p = h :: rest) (hreleased : h.released = true) (hring : (s.ring p).length < 2048) (hroom : s.claimRoom = true)
    (hquota : s.pipeThreads p < s.rd Objs.spray_pipe_quota) (hsf : s.sfFind (fld h.pkt.md 176 32, fld h.pkt.md 208 32) = none)
    (hpick : s.pickThread (fld h.pkt.md 48 16) none = some k) :
    spray s p = (sprayGo s p).sprayed p k h.pkt := by
  simp only [spray, hreplay, hjoin, hreleased, hroom, hsf, hpick, Bool.true_eq_false, or_false, Nat.not_le.2 hring, Nat.not_le.2 hquota, if_false,
    State.sprayed]

/-- Settles O17: a packet that has a place is taken and assigned, and the head of a ring leaves it; what it does elsewhere as it leaves (its
postcard, its hue's count) moves neither the ring, nor step 9, nor what was counted. -/
theorem sprayAndReorder : Obligations.SprayAndReorder := by
  intro p s
  refine ⟨fun h rest k hreplay hjoin hreleased hring hroom hquota hsf hpick => ?spray, fun since b hstall hrun => ?stall,
    fun e rest k hring hdone hdrop => ?discard, fun e rest k hring hdone hdrop hpunt hmirror => ?release,
    fun e rest hring hdone hrun => ?skip⟩
  case spray =>
    have taken := spray_takes hreplay hjoin hreleased hring hroom hquota hsf hpick
    obtain ⟨x, d, hgo⟩ := sprayGo_frame s p
    rw [hgo] at taken
    obtain ⟨e, hentry, hpid, hdone⟩ := State.sprayed_ring { s with sk := { s.sk with stall := x }, dict := d } p k h.pkt
    obtain ⟨hst, hjob⟩ := State.sprayed_loads { s with sk := { s.sk with stall := x }, dict := d } p k h.pkt
    obtain ⟨hlsn, hreserved⟩ := State.sprayed_cu { s with sk := { s.sk with stall := x }, dict := d } p k h.pkt
    refine ⟨_, _, e, congrArg Host.Outcome.next taken, (State.sprayed_join ..).trans ?_, hentry, hpid, hdone, hst, hjob, takePacket_pkt ..,
      takePacket_lsn .., hlsn, hreserved⟩
    rw [hjoin]
    rfl
  case stall =>
    have raised : sprayStall s p = { s with sk := { s.sk with stall := tput p (since, true, b) s.sk.stall } }.raise 66 p := by
      simp [sprayStall, hstall, hrun]
    exact ⟨_, congrArg Host.Outcome.next raised, State.raise_raised rfl 66 p, tfind_tput_same ..⟩
  case discard =>
    have left := discardPacket_keepsReorder (s.setRing p rest) p e k
    refine ⟨_, congrArg Host.Outcome.next (reorderRelease_drop hring hdone hdrop), (left.ring p).trans (s.setRing_ring p rest),
      congrArg (·.items) left.tm, left.counted ?_ ?_⟩ <;> simp only [Obj.key] <;> omega
  case release =>
    have left : KeepsReorder ((s.setRing p rest).bump Objs.reorder_released p) _ :=
      .postcard _ e.postcard k.md 0 e.thread e.status
    refine ⟨_, congrArg Host.Outcome.next ((reorderRelease_keep hring hdone hdrop).trans (releasePacket_plain hpunt hmirror)),
      (left.ring p).trans (s.setRing_ring p rest), congrArg (fun u : TmUnit => u.items ++ [itemOf k k.md]) left.tm, left.counted ?_ ?_⟩ <;>
        simp only [Obj.key] <;> omega
  case skip =>
    refine ⟨_, congrArg Host.Outcome.next (reorderTimeout_expired hring hdone hrun), State.setRing_ring .., State.raise_raised rfl 64 p,
      State.bump_rd_same ((markLate s p e.id).setRing p rest) ?_ 1⟩
    simp only [Obj.key, idKey]
    omega

end Sys2Proof.Machine
end

section
/-! Numbers beyond those of the device, as the type of a state admits them: the counters of such a pipe or clutch have the keys of other
objects (Obj.key), so that counting for it changes what those read. -/

namespace Sys2Proof.Machine

/-- A job of a packet of `pipe` without a header, whose OPCODE and hue are 0. -/
def strayJob (pipe : Nat) (late : Bool) : Job := ⟨⟨0, 0, 0, 0, 0, [], [], none⟩, 0, pipe, 0, late, none, false, false, false⟩

/-! ## TRAP (R126, R153) -/

/-- The pipe whose count of late packets has the key of ucode_trap_addr. -/
def trapPipe : Nat := 124

theorem lateDrop_key_trapPipe : Objs.reorder_late_drop.key trapPipe = Objs.ucode_trap_addr.key 0 := by decide

/-- Thread 0 stands at address 0, at a word whose NXT is TRAP, with a late packet of that pipe. -/
def strayTrap : State :=
  (State.reset.setTh 0 { Thread.init with st := .running, job := some (strayJob trapPipe true) }).setCs 0
    { ClutchStore.init with words := [(0, 3 * 2 ^ 126)] }

theorem strayTrap_issues : Issues strayTrap 0 3 ∧ (issued strayTrap 0).1 = false ∧ ((issued strayTrap 0).2.th 0).job ≠ none := by
  decide +kernel

/-- TRAP writes the address 0 of its word, to which the count of the late packet then adds 1. -/
theorem strayTrap_trapAddr : (issueRow 3 0 .good strayTrap).rd Objs.ucode_trap_addr 0 = 1 ∧ (strayTrap.th 0).pc = 0 := by decide +kernel

/-- Refutes O15, in its clause on TRAP: the type of a state admits a job of a pipe that the device has not (SPRAY makes none), and the count of
its late packet is kept where ucode_trap_addr is. -/
theorem not_nextAddressMovesThread : ¬ Obligations.NextAddressMovesThread := by
  intro h
  obtain ⟨-, -, -, -, traps⟩ := h 0 strayTrap
  obtain ⟨hissues, hgoes, hjob⟩ := strayTrap_issues
  obtain ⟨t, hexec, haddr, -⟩ := traps hissues hgoes hjob
  obtain rfl : issueRow 3 0 .good strayTrap = t := Host.Outcome.next.inj hexec
  obtain ⟨hone, hpc⟩ := strayTrap_trapAddr
  rw [Fin.val_zero, hpc, hone] at haddr
  exact absurd haddr (by decide)

/-! ## The timeout of a wait for a lock (R124, R192) -/

/-- The clutch whose count of packets has the key of leap_lock_timeout. -/
def timeoutClutch : Nat := 32740

theorem clutchPackets_key_timeoutClutch : Objs.clutch_packets.key timeoutClutch = Objs.leap_lock_timeout.key 0 := by decide

/-- The operation that waits, and the handle that it names, of a record that a lock covers. -/
def waitingOp : LeapOp := ⟨.lset, 0, 4, 0, 0⟩

/-- The handle of the record of key 77, which its bind found. -/
def waitingHandle : Handle := ⟨77, false, .found, 0, 0, none, none, false, false⟩

/-- Thread 0 waits for the lock of its record past lock_timeout, with lock_break 0, and serves single-file entry 0, whose own thread is
thread 0 of that clutch and whose queue holds a packet. -/
def strayWait : State :=
  let s := (State.reset.wr Objs.lock_break 0 0).wr Objs.lock_timeout 0 0
  let t : Thread := { Thread.init with st := .running, job := some (strayJob 0 false), bound := some 0, lockWait := some (waitingOp, 0),
                                       leap := { Leap.empty with handles := [(0, waitingHandle)] } }
  { s.setTh 0 t with fsu := { s.fsu with locks := [⟨.key 77, .dict 0, true, none⟩] },
                     sk := { (s.setTh 0 t).sk with sf := [(0, ⟨0, 0, false, 128 * timeoutClutch, [strayJob 0 false], 0, false⟩)] } }

theorem strayWait_waits : strayWait.flowLocked waitingHandle.key = true ∧ strayWait.elapsed 0 (strayWait.rd Objs.lock_timeout) = true ∧
    strayWait.rd Objs.lock_break = 0 := by decide +kernel

/-- The timeout is counted once; then the entry's next packet starts, and its count adds 1 more. -/
theorem strayWait_lockTimeouts : (lockWaitTimeout strayWait 0).rd Objs.leap_lock_timeout 0 = 2 ∧
    strayWait.rd Objs.leap_lock_timeout 0 = 0 := by decide +kernel

/-- Refutes O16, in its clause on the timeout of a wait for a lock: the type of a state admits a single-file entry bound to a thread that the
device has not (R122 binds none), and the count of the packets of that thread's clutch is kept where leap_lock_timeout is. -/
theorem not_commitUnitDecides : ¬ Obligations.CommitUnitDecides := by
  intro h
  obtain ⟨-, -, -, -, -, -, -, waits⟩ := h 0 strayWait
  obtain ⟨hlocked, hrun, hbreak⟩ := strayWait_waits
  obtain ⟨t, hexec, hfreed, -⟩ := waits waitingOp 0 (strayJob 0 false) waitingHandle rfl rfl rfl hlocked hrun
  obtain rfl : lockWaitTimeout strayWait 0 = t := Host.Outcome.next.inj hexec
  obtain ⟨hcount, -⟩ := hfreed hbreak
  obtain ⟨htwo, hzero⟩ := strayWait_lockTimeouts
  rw [htwo, hzero] at hcount
  exact absurd hcount (by decide)

/-! ## The status of a late packet's leap (R126, R489) -/

/-- The pipe whose count of late packets has the key of channel 0's str_chan_seq. -/
def seqPipe : Nat := 49092

theorem lateDrop_key_seqPipe : Objs.reorder_late_drop.key seqPipe = Objs.str_chan_seq.key 0 := by decide

/-- Thread 0 has committed, with a late packet of that pipe and a postcard for channel 0. -/
def strayLate : State :=
  State.reset.setTh 0 { Thread.init with st := .committing, job := some (strayJob seqPipe true), status := some 0, postcard := some 0 }

/-- The late packet is counted, and the offer of its postcard then takes the SEQ of channel 0. -/
theorem strayLate_lateDrops : (statusDelivered strayLate 0).rd Objs.reorder_late_drop (strayJob seqPipe true).pipe = 2 ∧
    strayLate.rd Objs.reorder_late_drop (strayJob seqPipe true).pipe = 0 := by decide +kernel

/-- Refutes O18, in its clause on a late packet: the type of a state admits a job of a pipe that the device has not (SPRAY makes none), and the
count of its late packet is kept where the next SEQ of its postcard's channel is. -/
theorem not_steeringObjects : ¬ Obligations.SteeringObjects := by
  intro h
  obtain ⟨-, -, -, -, -, late, -⟩ := h .pcie [] strayLate
  obtain ⟨t, hexec, -, hcount, -⟩ := late 0 (strayJob seqPipe true) rfl rfl rfl rfl
  obtain rfl : statusDelivered strayLate 0 = t := Host.Outcome.next.inj hexec
  obtain ⟨htwo, hzero⟩ := strayLate_lateDrops
  rw [htwo, hzero] at hcount
  exact absurd hcount (by decide)

end Sys2Proof.Machine
end

section
/-! Rows of one ALU operation or of one edit (R139 to R141, R145, R162): the fields of their word, and what of it takes effect. -/

namespace Sys2Proof.Machine

/-! ## The fields of a word that holds an ALU operation alone -/

section
variable (op : Nat) (x : AluArgs)

/-- The fields below IMM are 0. -/
theorem aluWord_dvd : aluWord op x % 2 ^ 68 = 0 := by
  simp only [aluWord]
  omega

theorem mwMop_aluWord : mwMop (aluWord op x) = 0 := by
  have := aluWord_dvd op x
  simp only [mwMop, fld_eq]
  omega

theorem mwEop_aluWord : mwEop (aluWord op x) = 0 := by
  have := aluWord_dvd op x
  simp only [mwEop, fld_eq]
  omega

theorem mwImm_aluWord : mwImm (aluWord op x) = x.imm.toNat := by
  simp only [mwImm, aluWord, fld_eq]
  omega

theorem mwBImm_aluWord : mwBImm (aluWord op x) = x.bImm := by
  have field : fld (aluWord op x) 84 1 = b2n x.bImm := by
    have := b2n_le x.bImm
    simp only [aluWord, fld_eq]
    omega
  rw [mwBImm, bit, field]
  cases x.bImm <;> rfl

theorem mwB_aluWord : mwB (aluWord op x) = x.b := by
  have := b2n_le x.bImm
  simp only [mwB, aluWord, fld_eq]
  omega

theorem mwA_aluWord : mwA (aluWord op x) = x.a := by
  have := b2n_le x.bImm
  simp only [mwA, aluWord, fld_eq]
  omega

theorem mwDst_aluWord : mwDst (aluWord op x) = x.dst := by
  have := b2n_le x.bImm
  simp only [mwDst, aluWord, fld_eq]
  omega

variable {op} (hop : op < 64)
include hop

theorem mwAlu_aluWord : mwAlu (aluWord op x) = op := by
  have := b2n_le x.bImm
  simp only [mwAlu, aluWord, fld_eq]
  omega

theorem mwTst_aluWord : mwTst (aluWord op x) = 0 := by
  have := b2n_le x.bImm
  simp only [mwTst, aluWord, fld_eq]
  omega

end

/-! ## The fields of a word that holds an edit alone -/

section
variable (op : Nat) (x : EditArgs)

theorem mwEimm_editWord : mwEimm (editWord op x) = x.imm.toNat := by
  simp only [mwEimm, editWord, fld_eq]
  omega

theorem mwEsrc_editWord : mwEsrc (editWord op x) = x.src := by
  simp only [mwEsrc, editWord, fld_eq]
  omega

variable {op} (hop : op < 32)
include hop

theorem mwEop_editWord : mwEop (editWord op x) = op := by
  simp only [mwEop, editWord, fld_eq]
  omega

/-- The fields above EOP are 0. -/
theorem editWord_lt : editWord op x < 2 ^ 32 := by
  simp only [editWord]
  omega

theorem mwMop_editWord : mwMop (editWord op x) = 0 := by
  have := editWord_lt x hop
  simp only [mwMop, fld_eq]
  omega

theorem mwAlu_editWord : mwAlu (editWord op x) = 0 := by
  have := editWord_lt x hop
  simp only [mwAlu, fld_eq]
  omega

theorem mwTst_editWord : mwTst (editWord op x) = 0 := by
  have := editWord_lt x hop
  simp only [mwTst, fld_eq]
  omega

end

/-! ## What takes effect -/

/-- R139: an ALU write reaches registers and metadata only. -/
theorem Thread.setSel_flags (t : Thread) (k v : Nat) : (t.setSel k v).flags = t.flags := by
  unfold Thread.setSel
  split_ifs <;> rfl

theorem Thread.setSel_top (t : Thread) (k v : Nat) : (t.setSel k v).top = t.top := by
  unfold Thread.setSel
  split_ifs <;> rfl

theorem aluStep_top (t : Thread) (op dst a b : Nat) (bImm : Bool) (imm : Nat) : (aluStep t op dst a b bImm imm).top = t.top := by
  unfold aluStep
  dsimp only
  split
  · exact t.setSel_top ..
  · rfl

theorem editStep_top (old t : Thread) (eop src imm : Nat) : (editStep old t eop src imm).top = t.top := by
  unfold editStep
  dsimp only
  split <;> rfl

/-- Where TST is 0, TOP stays. -/
theorem withTop_topAfter_keep {t : Thread} {top : Nat} (h : t.top = top) (flags pflags status anyMatch fvValid : Nat) :
    { t with top := topAfter 0 top flags pflags status anyMatch fvValid } = t := by
  subst h
  rfl

theorem memOp_none (s : State) (y : Thread) (k : Nat) {w : Nat} (h : mwMop w = 0) : memOp s y k w = (false, s) := by
  simp only [memOp, h]

theorem runFields_aluWord {op : Nat} (hop : op < 64) (s : State) (k : Nat) (x : AluArgs) :
    runFields s k (aluWord op x) = (false, s.setTh k (aluStep (s.th k) op x.dst x.a x.b x.bImm x.imm.toNat)) := by
  unfold runFields
  dsimp only
  rw [memOp_none _ _ _ (mwMop_aluWord op x), mwAlu_aluWord x hop, mwTst_aluWord x hop, mwEop_aluWord, mwDst_aluWord, mwA_aluWord,
    mwB_aluWord, mwBImm_aluWord, mwImm_aluWord, editStep_none, withTop_topAfter_keep (aluStep_top ..)]

theorem runFields_editWord {op : Nat} (hop : op < 32) (s : State) (k : Nat) (x : EditArgs) :
    runFields s k (editWord op x) = (false, s.setTh k (editStep (s.th k) (s.th k) op x.src x.imm.toNat)) := by
  unfold runFields
  dsimp only
  rw [memOp_none _ _ _ (mwMop_editWord x hop), mwAlu_editWord x hop, mwTst_editWord x hop, mwEop_editWord x hop, mwEsrc_editWord,
    mwEimm_editWord, aluStep_nop, withTop_topAfter_keep (editStep_top ..)]

/-- A row without a memory operation leaves what its fields leave. -/
theorem opRow_of_mop_none {s t : State} {k w : Nat} (h : ReadyFor s k w) (hmop : mwMop w = 0) (hrun : runFields s k w = (false, t)) :
    opRow k w s = t := by
  rw [opRow_of_ready h, hrun, if_neg Bool.false_ne_true]
  exact bindBreaks_of_mop_ne (by rw [hmop]; decide) ..

/-! ## The rows -/

theorem opRow_aluWord {op : Nat} (hop : op < 64) {s : State} {k : Nat} {x : AluArgs} (h : ReadyFor s k (aluWord op x)) :
    opRow k (aluWord op x) s = s.setTh k (aluStep (s.th k) op x.dst x.a x.b x.bImm x.imm.toNat) :=
  opRow_of_mop_none h (mwMop_aluWord op x) (runFields_aluWord hop s k x)

/-- The values of the operations on A − B. The difference stands as a variable in the proof, where the kernel would compute its modulus. -/
theorem aluVal_difference (a b imm : Nat) :
    aluVal 0x03 a b imm = sub64 a b ∧ aluVal 0x0F a b imm = sext64 (imm % 64 + 1) (sub64 a b) ∧ aluVal 0x10 a b imm = sub64 a b ∧
      aluVal 0x12 a b imm = (toSigned 64 (sub64 a b)).natAbs % 2 ^ 64 := by
  obtain ⟨d, hd⟩ : ∃ d, sub64 a b = d := ⟨_, rfl⟩
  refine ⟨?_, ?_, ?_, ?_⟩ <;> rw [aluVal.eq_def, hd] <;> rfl

/-- A row that writes DST is described by its value and its flags. -/
theorem aluWrites_of_aluVal {row : Fin 2048 → AluArgs → Instr} {op : Nat} {f : Nat → Nat → Nat → Nat} {g : Nat → Nat → Nat → Nat → Nat}
    (hexec : ∀ k x s, exec (row k x) s = .next (opRow k (aluWord op x) s) := by intros; rfl) (hop : op < 64 := by decide)
    (hwrites : ∀ z, aluWrites op z = true := by intros; rfl) (hval : ∀ a b imm, aluVal op a b imm = f a b imm := by intros; rfl)
    (hflags : ∀ a b v old, aluFlags op a b v old = g a b v old := by intros; rfl) : AluWrites row op f g := by
  intro k x s h
  dsimp only
  rw [hexec, opRow_aluWord hop h, aluStep, hwrites, if_pos rfl, hval, hflags]
  rfl

/-- A row that writes no DST sets the flags of its value. -/
theorem aluStep_of_not_writes {t : Thread} {op : Nat} {x : AluArgs} {v : Nat} {c o : Bool} (hwrites : ∀ z, aluWrites op z = false)
    (hval : aluVal op (t.sel x.a) (aluB t x) x.imm.toNat = v) (hflags : aluFlags op (t.sel x.a) (aluB t x) v t.flags = valFlags v c o) :
    aluStep t op x.dst x.a x.b x.bImm x.imm.toNat = { t with flags := valFlags v c o } := by
  rw [← hflags, ← hval, aluStep, hwrites]
  rfl

/-- R140: MOVZ and MOVNZ write DST or leave the thread as it is. -/
theorem aluStep_move {t : Thread} {op : Nat} (hop : op = 0x16 ∨ op = 0x17) (x : AluArgs) :
    aluStep t op x.dst x.a x.b x.bImm x.imm.toNat = if aluWrites op (flagZ t.flags) then t.setSel x.dst (aluB t x) else t := by
  have value (a b imm : Nat) : aluVal op a b imm = b := by obtain rfl | rfl := hop <;> rfl
  have flags (a b v : Nat) : aluFlags op a b v t.flags = t.flags := by obtain rfl | rfl := hop <;> rfl
  unfold aluStep
  dsimp only
  rw [value, flags, ← aluB]
  cases aluWrites op (flagZ t.flags)
  · rfl
  · rw [if_pos rfl, ← t.setSel_flags x.dst (aluB t x)]

/-- An edit row is described by its edit. -/
theorem editRow_of_editStep {row : Fin 2048 → EditArgs → Instr} {op : Nat} {f : EditArgs → Thread → Thread}
    (hexec : ∀ k x s, exec (row k x) s = .next (opRow k (editWord op x) s) := by intros; rfl) (hop : op < 32 := by decide)
    (hedit : ∀ (x : EditArgs) (t : Thread), editStep t t op x.src x.imm.toNat = f x t := by intros; rfl) : EditRow row op f := by
  intro k x s h
  rw [hexec, opRow_of_mop_none h (mwMop_editWord x hop) (runFields_editWord hop s k x), hedit]

/-! ## Reserved encodings (R162) -/

theorem wordBad_of_alu {w : Nat} (h : 0x18 ≤ mwAlu w) : wordBad w = true := by
  simp [wordBad, h]

theorem wordBad_of_bImm {w : Nat} (h : mwAlu w ∈ [0x0B, 0x0C, 0x0F, 0x15]) (hb : mwBImm w = true) : wordBad w = true := by
  simp only [wordBad, h, hb, decide_true, Bool.and_self, Bool.or_true, Bool.true_or]

theorem wordBad_of_ins {w : Nat} (h : mwAlu w = 0x0C) (himm : 64 < mwImm w % 64 + fld (mwImm w) 6 6 + 1) : wordBad w = true := by
  simp only [wordBad, h, himm, beq_self_eq_true, decide_true, Bool.and_self, Bool.or_true, Bool.true_or]

theorem wordBad_of_bswap {w : Nat} (h : mwAlu w = 0x15) (himm : mwImm w % 4 = 3) : wordBad w = true := by
  simp only [wordBad, h, himm, beq_self_eq_true, Bool.and_self, Bool.or_true, Bool.true_or]

/-- A reserved encoding at a ready thread is a machine check with EV080. -/
theorem opRow_bad {s : State} {k w : Nat} (hlock : (s.th k).lockWait = none) (hready : (s.th k).ready w = true) (hbad : wordBad w = true) :
    opRow k w s = ((s.bump Objs.cs_mchk (clutchOf k)).raise 80 (clutchOf k)).machineCheck k := by
  simp only [opRow, State.settleLock_of_none hlock, hready, hbad, Bool.true_eq_false, if_false, if_true]

/-- Settles O10: each row is the ALU step of its code, whose value and flags are those of R140 and R141. -/
theorem aluRowsCompute : Obligations.AluRowsCompute := by
  obtain ⟨sub, sdiff, cmp, absd⟩ := by simpa only [forall_and] using aluVal_difference
  refine ⟨aluWrites_of_aluVal, aluWrites_of_aluVal, aluWrites_of_aluVal (hval := sub), ?_⟩
  iterate 11 refine ⟨aluWrites_of_aluVal, ?_⟩
  refine ⟨aluWrites_of_aluVal (hval := sdiff), aluWrites_of_aluVal (hval := absd), ?_⟩
  iterate 3 refine ⟨aluWrites_of_aluVal, ?_⟩
  refine fun k x s => ⟨fun h => ?nop, fun h => ?cmp, fun h => ?tstb, fun h => ?movz, fun h => ?movnz, fun op hlo hhi => ?code,
    fun op hop hb => ?bImm, fun himm => ?ins, fun himm => ?bswap, fun hlock hready hbad => ?check⟩
  case nop => exact congrArg Host.Outcome.next ((opRow_aluWord (by decide) h).trans (congrArg (s.setTh k) (aluStep_nop ..)))
  case cmp =>
    exact congrArg Host.Outcome.next ((opRow_aluWord (by decide) h).trans (congrArg (s.setTh k) (aluStep_of_not_writes (fun _ => rfl) (cmp ..) rfl)))
  case tstb => exact congrArg Host.Outcome.next ((opRow_aluWord (by decide) h).trans (congrArg (s.setTh k) (aluStep_of_not_writes (fun _ => rfl) rfl rfl)))
  case movz => exact congrArg Host.Outcome.next ((opRow_aluWord (by decide) h).trans (congrArg (s.setTh k) (aluStep_move (.inl rfl) x)))
  case movnz =>
    refine congrArg Host.Outcome.next ((opRow_aluWord (by decide) h).trans (congrArg (s.setTh k) ((aluStep_move (.inr rfl) x).trans ?_)))
    cases hz : flagZ (s.th k).flags <;> simp only [aluWrites] <;> rfl
  case code => exact wordBad_of_alu (by rwa [mwAlu_aluWord x hhi])
  case bImm =>
    have hlt : op < 64 := by
      simp only [List.mem_cons, List.not_mem_nil, or_false] at hop
      omega
    exact wordBad_of_bImm (by rwa [mwAlu_aluWord x hlt]) (by rwa [mwBImm_aluWord])
  case ins => exact wordBad_of_ins (mwAlu_aluWord x (by decide)) (by rw [mwImm_aluWord]; omega)
  case bswap => exact wordBad_of_bswap (mwAlu_aluWord x (by decide)) (by rwa [mwImm_aluWord])
  case check =>
    refine ⟨_, congrArg Host.Outcome.next (opRow_bad hlock hready hbad), ?_⟩
    exact (State.machineCheck_keepsClutches _ k.isLt).toKeepsObjs.event (State.mem_raise_raised ..)

/-- Settles O11: each row is the edit of its code (R145). -/
theorem editRowsEdit : Obligations.EditRowsEdit := by
  iterate 9 refine ⟨editRow_of_editStep, ?_⟩
  exact editRow_of_editStep

end Sys2Proof.Machine
end

section
/-! Repairs of a control store (R131, R164): the count of its reloads, where no copy can be read. -/

namespace Sys2Proof.Machine

/-- The pipe whose count of late packets has the key of clutch 0's cs_reloads. -/
def reloadPipe : Nat := 60

/-- A word of clutch 0 waits for its repair, and its thread 0 has committed, with a late packet of that pipe. -/
def strayRepair : State :=
  (State.reset.setTh 0 { Thread.init with st := .committing, job := some (strayJob reloadPipe true), status := some 0 }).setCs 0
    { ClutchStore.init with repairing := [0] }

theorem strayRepair_repairs : (∃ i ∈ (strayRepair.cs 0).repairing, isBank0 i = false) ∧ strayRepair.rd Objs.clutch_state 0 < 3 := by
  decide +kernel

/-- No copy can be read, and no reload runs; but the isolation of the clutch counts the late packet. -/
theorem strayRepair_reloads : (csRepair strayRepair 0 .neither 0).rd Objs.cs_reloads 0 = 1 ∧ strayRepair.rd Objs.cs_reloads 0 = 0 := by
  decide +kernel

/-- Refutes O28, in its clause on a store of which no copy can be read: the type of a state admits a job of a pipe that the device has not
(SPRAY makes none), and the count of its late packet, which leaves its thread as the clutch is isolated, is kept where cs_reloads is. -/
theorem not_controlStoreIsRepaired : ¬ Obligations.ControlStoreIsRepaired := by
  intro h
  obtain ⟨-, reloads⟩ := h 0 strayRepair
  obtain ⟨hword, hstate⟩ := strayRepair_repairs
  obtain ⟨-, -, -, -, none⟩ := reloads .neither 0 hword
  obtain ⟨t, hexec, -, -, -, hcount⟩ := none rfl hstate
  obtain rfl : csRepair strayRepair 0 .neither 0 = t := Host.Outcome.next.inj hexec
  obtain ⟨hone, hzero⟩ := strayRepair_reloads
  rw [Fin.val_zero, hone, hzero] at hcount
  exact absurd hcount (by decide)

end Sys2Proof.Machine
end

section
/-! What the ends of command entries, and the isolation of a clutch, leave of the control stores and of the loads that run (R129, R157,
R433, R434). -/

namespace Sys2Proof.Machine

/-! ## The relation -/

/-- The control stores and the loads are in `t` as in `s`. -/
structure KeepsStores (s t : State) : Prop where
  stores : t.sk.stores = s.sk.stores
  loads : t.sk.loads = s.sk.loads

namespace KeepsStores

variable {s t u : State}

theorem of_sk (h : t.sk = s.sk) : KeepsStores s t := ⟨congrArg SkinkUnit.stores h, congrArg SkinkUnit.loads h⟩

theorem refl (s : State) : KeepsStores s s := ⟨rfl, rfl⟩

theorem trans (h : KeepsStores s t) (h' : KeepsStores t u) : KeepsStores s u := ⟨h'.stores.trans h.stores, h'.loads.trans h.loads⟩

/-- What is kept after an update of other units is kept from before it. -/
theorem of_updated (h : KeepsStores t u) (hst : t.sk.stores = s.sk.stores) (hl : t.sk.loads = s.sk.loads) : KeepsStores s u :=
  .trans ⟨hst, hl⟩ h

theorem ite {c : Prop} [Decidable c] (ht : KeepsStores s t) (hu : KeepsStores s u) : KeepsStores s (if c then t else u) := by
  split
  · exact ht
  · exact hu

/-- A step that is taken in one case only. -/
theorem ite_then {c : Prop} [Decidable c] (ht : KeepsStores s t) (hu : KeepsStores t u) : KeepsStores s (if c then u else t) :=
  .ite (ht.trans hu) ht

theorem foldl {α : Type} {f : State → α → State} (h : ∀ s a, KeepsStores s (f s a)) (l : List α) (s : State) : KeepsStores s (l.foldl f s) :=
  List.foldlRecOn (motive := KeepsStores s) l f (refl s) fun t ht a _ => ht.trans (h t a)

theorem cs (h : KeepsStores s t) (c : Nat) : t.cs c = s.cs c := congrArg (tget ClutchStore.init · c) h.stores

end KeepsStores

/-! ## Command entries (R192, R433, R434) -/

theorem insertStatus_sk (s : State) (x : Thread) (h : Handle) : (insertStatus s x h).2.2.sk = s.sk := by
  unfold insertStatus
  split_ifs
  · rfl
  · rfl
  · rfl
  · rfl
  · split <;> rfl

theorem acceptOp_keepsStores (s : State) (t : Nat) (o : LeapOp) : KeepsStores s (acceptOp s t o) := by
  unfold acceptOp
  dsimp only
  split
  · exact .refl s
  · split
    · exact .trans (.of_sk (insertStatus_sk ..)) ⟨rfl, rfl⟩
    · exact ⟨rfl, rfl⟩
    · exact ⟨rfl, rfl⟩

theorem State.settleLock_keepsStores (s : State) (t : Nat) : KeepsStores s (s.settleLock t) := by
  unfold State.settleLock
  dsimp only
  split
  · exact .refl s
  · split
    · exact .refl s
    · exact .ite (.refl s) (acceptOp_keepsStores ..)

theorem State.releaseRing_keepsStores (s : State) (r : Nat) : KeepsStores s (s.releaseRing r) := by
  have dropped : KeepsStores s (s.dropLocks (.ring r)) := .of_updated (.foldl (fun t _ => t.settleLock_keepsStores _) _ _) rfl rfl
  exact .ite dropped (dropped.trans ⟨rfl, rfl⟩)

theorem abortRest_sk (n r : Nat) (s : State) : (abortRest n r s).sk = s.sk := by
  induction n generalizing s with
  | zero => rfl
  | succ n ih =>
    unfold abortRest
    dsimp only
    split
    · rfl
    · exact ih _

theorem State.msix_sk (s : State) (v : Nat) : (s.msix v).sk = s.sk := by
  unfold State.msix
  dsimp only
  split <;> rfl

theorem State.finishStop_keepsStores (s : State) (r : Nat) : KeepsStores s (s.finishStop r) := by
  have aborted := abortRest_sk 65536 r s
  unfold State.finishStop
  dsimp only
  generalize abortRest 65536 r s = u at aborted ⊢
  have told (t : State) (x : CmdRing) : KeepsStores t (t.abortIrqs x) := .ite (.foldl (fun t _ => .of_sk (t.msix_sk _)) _ t) (.refl t)
  have put (x : Output) : KeepsStores s (u.put x) := .of_sk aborted
  have stopped (t : State) (x : CmdRing) : KeepsStores t (t.setCr r x) := ⟨rfl, rfl⟩
  exact (((put _).trans (told ..)).trans (stopped ..)).trans (State.releaseRing_keepsStores ..)

theorem State.cmdComplete_keepsStores (s : State) (r status result flags : Nat) : KeepsStores s (s.cmdComplete r status result flags) := by
  unfold State.cmdComplete
  dsimp only
  have counted (u : State) (o : Obj) : KeepsStores u (u.bump o r) := ⟨rfl, rfl⟩
  have put (u : State) (x : Output) : KeepsStores u (u.put x) := ⟨rfl, rfl⟩
  refine .ite ⟨rfl, rfl⟩ (.ite_then (.ite_then (.trans (.ite_then ?_ (counted ..)) (put ..)) (.of_sk (State.msix_sk ..)))
    (State.finishStop_keepsStores ..))
  exact .of_updated (counted ..) rfl rfl

theorem State.cmdWaitDone_keepsStores (s : State) (r : Nat) (w : RingWait) (status result : Nat) :
    KeepsStores s (s.cmdWaitDone r w status result) := by
  unfold State.cmdWaitDone
  split
  · exact .ite (State.cmdComplete_keepsStores ..) (.refl s)
  · exact .refl s

/-! ## Threads (R124, R131) -/

theorem State.assign_keepsStores (s : State) (k : Nat) (j : Job) : KeepsStores s (s.assign k j) := by
  obtain ⟨y, n, h⟩ := s.assign_sk k j
  exact ⟨by rw [h], by rw [h]⟩

theorem State.sfMoved_keepsStores {s t : State} {i : Nat} {e f : SfEntry} (h : s.sfMoved i e = some (t, f)) : KeepsStores s t := by
  unfold State.sfMoved at h
  split_ifs at h
  · obtain ⟨k, -, hk⟩ := Option.map_eq_some_iff.1 h
    obtain ⟨rfl, -⟩ := Prod.mk.inj hk
    exact ⟨rfl, rfl⟩
  · obtain ⟨rfl, -⟩ := Prod.mk.inj (Option.some.inj h)
    exact .refl s

theorem State.sfService_keepsStores (s : State) (i : Nat) : KeepsStores s (s.sfService i) := by
  unfold State.sfService
  split
  · exact .refl s
  · refine .ite (.refl s) ?_
    split
    · exact .refl s
    next moved =>
      have kept := State.sfMoved_keepsStores moved
      refine .ite kept ?_
      split
      · exact kept.trans ⟨rfl, rfl⟩
      · exact .ite (kept.trans (.of_updated (State.assign_keepsStores ..) rfl rfl)) kept

theorem State.drainCheck_sk (s : State) (c : Nat) : (s.drainCheck c).sk = s.sk := by
  unfold State.drainCheck
  split <;> rfl

theorem State.packetLeft_keepsStores (s : State) (t : Nat) (j : Job) (status : Nat) : KeepsStores s (s.packetLeft t j status) := by
  have late : KeepsStores s (((s.setTh t (s.th t).freed).bump Objs.reorder_late_drop j.pipe).raise 65 j.pipe) := ⟨rfl, rfl⟩
  exact .ite ((late.trans (.of_sk (KeepsReorder.postcard ..).sk)).trans (.of_sk (KeepsReorder.holdDrop ..).sk)) ⟨rfl, rfl⟩

theorem State.threadFree_keepsStores (s : State) (t status : Nat) : KeepsStores s (s.threadFree t status) := by
  unfold State.threadFree
  dsimp only
  split
  · exact .refl s
  next j _ =>
    have left := s.packetLeft_keepsStores t j status
    refine .trans ?_ (.of_sk (State.drainCheck_sk ..))
    split
    · exact left.trans (State.sfService_keepsStores ..)
    · exact left

theorem State.machineCheck_keepsStores (s : State) (t : Nat) : KeepsStores s (s.machineCheck t) := by
  unfold State.machineCheck
  dsimp only
  split
  · exact .refl s
  next j _ =>
    refine .ite (s.threadFree_keepsStores t 0) (.trans ?_ (.of_sk (State.drainCheck_sk ..)))
    have traced : KeepsStores s ((s.dropInserts (s.th t).leap).traceEvt t 3 j.lsn) := .of_updated (.of_sk (State.traceAdd_sk ..)) rfl rfl
    have counted := traced.trans (.of_sk (State.bump_sk _ Objs.leap_abort_mchk 0 1))
    have told (u : State) (md : Nat) : KeepsStores u (u.replaySat t md) := .ite (.of_sk rfl) (.refl u)
    have queued {u : State} (h : KeepsStores s u) (x : Thread) (l : Tab (List Job)) :
        KeepsStores s { u.setTh t x with sk := { (u.setTh t x).sk with replay := l } } := h.trans ⟨rfl, rfl⟩
    have back := queued (counted.trans (told _ j.pkt.md))
    split
    · exact (back _ _).trans (State.sfService_keepsStores ..)
    · exact back _ _

theorem State.clearUnit_keepsStores (s : State) (hit : Nat → Bool) (l : List Nat) (c src unit n : Nat) :
    KeepsStores s (s.clearUnit hit l c src unit n) := by
  have ended (t : State) (b : Nat) : KeepsStores t (t.wr Objs.breakpoint (c * 4 + b) 0) := ⟨rfl, rfl⟩
  have cleared : KeepsStores s (clearHalts s l c) := .of_updated (.foldl ended _ _) rfl rfl
  have rebound (t : State) : KeepsStores t (t.sfRebind hit) :=
    .of_updated (.foldl (fun t (e : Nat × SfEntry) => t.sfService_keepsStores e.1) _ _) rfl rfl
  have returned (t : State) : KeepsStores t (returnPackets t l) := .foldl (fun t a => t.machineCheck_keepsStores a) _ t
  have low (t : State) : KeepsStores t (t.clutchesLow n) := .ite (.of_sk rfl) (.refl t)
  have raised (t : State) : KeepsStores t (t.raise src unit) := ⟨rfl, rfl⟩
  exact (((cleared.trans (rebound _)).trans (returned _)).trans (raised _)).trans (low _)

theorem State.isolateClutch_keepsStores (s : State) (c : Nat) : KeepsStores s (s.isolateClutch c) := by
  by_cases h : 3 ≤ s.rd Objs.clutch_state c
  · rw [State.isolateClutch, if_pos h]
    exact .refl s
  · rw [State.isolateClutch_eq h]
    exact .of_updated (State.clearUnit_keepsStores ..) rfl rfl

end Sys2Proof.Machine
end

section
/-! Loads of a clutch's image (R157, R158, R431). -/

namespace Sys2Proof.Machine

/-! ## The end of a load (R158) -/

theorem State.endRun_frame (s : State) (c k r : Nat) :
    ∃ d, s.endRun c k r = { s with dict := d } ∧ ∀ o i, d.rd o i = s.dict.rd o i := by
  unfold State.endRun
  dsimp only
  split
  · exact ⟨_, rfl, fun _ _ => rfl⟩
  · exact ⟨_, rfl, fun _ _ => rfl⟩

theorem State.endClaim_frame (s : State) (c : Nat) : ∃ x, s.endClaim c = { s with sk := { s.sk with bufClaim := x } } := by
  unfold State.endClaim
  split
  · split
    · exact ⟨_, rfl⟩
    · exact ⟨_, rfl⟩
  · exact ⟨_, rfl⟩

/-- What the end of a load leaves: the stores, the loads, and the objects of the clutches. -/
structure KeepsLoads (s t : State) : Prop extends KeepsStores s t, KeepsParse s t

theorem KeepsLoads.trans {s t u : State} (h : KeepsLoads s t) (h' : KeepsLoads t u) : KeepsLoads s u :=
  ⟨h.toKeepsStores.trans h'.toKeepsStores, h.toKeepsParse.trans h'.toKeepsParse⟩

theorem KeepsLoads.refl (s : State) : KeepsLoads s s := ⟨.refl s, .refl s⟩

theorem State.endRun_keepsLoads (s : State) (c k r : Nat) : KeepsLoads s (s.endRun c k r) := by
  obtain ⟨d, h, hd⟩ := s.endRun_frame c k r
  rw [h]
  exact ⟨⟨rfl, rfl⟩, ⟨⟨rfl, rfl, rfl, rfl, rfl, ⟨[], List.append_nil _⟩, fun o i _ _ => hd o i⟩, rfl⟩⟩

theorem State.endClaim_keepsLoads (s : State) (c : Nat) : KeepsLoads s (s.endClaim c) := by
  obtain ⟨x, h⟩ := s.endClaim_frame c
  rw [h]
  exact ⟨⟨rfl, rfl⟩, .of_units rfl⟩

theorem State.cmdWaitDone_keepsLoads (s : State) (r : Nat) (w : RingWait) (status result : Nat) :
    KeepsLoads s (s.cmdWaitDone r w status result) := by
  refine ⟨s.cmdWaitDone_keepsStores .., ?_⟩
  unfold State.cmdWaitDone
  split
  · exact .ite (State.cmdComplete_keepsParse ..) (.refl s)
  · exact .refl s

theorem State.loadEnd_keepsLoads (s : State) (l : CsLoad) (code : Nat) : KeepsLoads s (s.loadEnd l code) := by
  obtain ⟨c, g, ring, ctx⟩ := l
  have told (t : State) (n : Nat) : KeepsLoads t ((t.endRun n (Objs.cs_load.key 0) code).endClaim n) :=
    (t.endRun_keepsLoads ..).trans (State.endClaim_keepsLoads ..)
  cases ring with
  | none =>
    cases ctx with
    | none => exact .refl s
    | some n => exact told s n
  | some r =>
    cases ctx with
    | none => exact s.cmdWaitDone_keepsLoads ..
    | some n => exact (told s n).trans (State.cmdWaitDone_keepsLoads ..)

theorem KeepsLoads.clutch {s t : State} (h : KeepsLoads s t) {o : Obj} {c : Nat} (ho : o = Objs.clutch_image ∨ o = Objs.clutch_state)
    (hc : c < 16) : t.rd o c = s.rd o c := by
  obtain rfl | rfl := ho <;> refine h.rd _ c ?_ ?_ <;> simp only [Obj.key, ParseCounter] <;> omega

theorem KeepsLoads.event {s t : State} (h : KeepsLoads s t) {src unit : Nat} (he : ∃ e ∈ s.fm.raised, e.src = src ∧ e.unit = unit) :
    ∃ e ∈ t.fm.raised, e.src = src ∧ e.unit = unit := by
  obtain ⟨e, hmem, he⟩ := he
  exact ⟨e, h.raised.subset hmem, he⟩

/-! ## What reaches the clutch (R158) -/

theorem State.cs_setCs (s : State) (c : Nat) (x : ClutchStore) : (s.setCs c x).cs c = x := tget_tset_same ..

/-- The content of a load is in its clutch, which names the image. -/
theorem State.loadStore_clutch (s : State) (l : CsLoad) :
    (s.loadStore l).cs l.clutch = storeOf (s.cs l.clutch) l.golden ∧ (s.loadStore l).rd Objs.clutch_image l.clutch = l.golden.image ∧
      (s.loadStore l).sk.loads = s.sk.loads :=
  ⟨s.cs_setCs .., DictUnit.rd_wr_same (by simp only [Obj.key, idKey]; omega), rfl⟩

/-- A clutch that is in no isolation yet is taken out of service; what was raised stays raised. -/
theorem State.isolateClutch_out {s : State} {c : Nat} (hc : c < 16) (h : s.rd Objs.clutch_state c < 3) :
    (s.isolateClutch c).rd Objs.clutch_state c = 3 ∧ ∀ e ∈ s.fm.raised, e ∈ (s.isolateClutch c).fm.raised := by
  have isolated : (s.wr Objs.clutch_state c 3).rd Objs.clutch_state c = 3 := DictUnit.rd_wr_same (clutchState_key_ne_idKey c)
  obtain ⟨keeps, -⟩ := State.clearUnit_effects (fun t => mem_clutchThreads hc) (s.wr Objs.clutch_state c 3) (fun t => clutchOf t == c) c 75 c
    s.eligibleClutches
  rw [State.isolateClutch_eq (by omega)]
  exact ⟨(keeps.isolated hc isolated.ge).trans isolated, fun e he => keeps.mem_raised he⟩

/-! ## CS_LOAD_DONE (R158, R431) -/

/-- A clutch's load is one that runs no longer. -/
def State.takeLoad (s : State) (c : Nat) : State :=
  { s with sk := { s.sk with loads := s.sk.loads.filter (fun x => x.clutch ≠ c) } }

section
variable {s : State} {c : Nat} {l : CsLoad} (hl : s.sk.loads.find? (fun l => l.clutch = c) = some l)
include hl

theorem clutch_of_find : l.clutch = c := by simpa using List.find?_some hl

theorem csLoadDone_stored {m : Nat} (hm : m < 2) : csLoadDone s c m .same = ((s.takeLoad c).loadStore l).loadEnd l 0 := by
  simp [csLoadDone, hl, State.takeLoad, Nat.not_le.2 hm]

theorem csLoadDone_mismatch : csLoadDone s c 2 .same =
    (((((s.takeLoad c).setCs c (storeOf ((s.takeLoad c).cs c) l.golden)).raise 82 c).isolateClutch c).loadEnd l 7) := by
  simp [csLoadDone, hl, State.takeLoad]

theorem csLoadDone_changed (h : s.hostImage l = true) (m : Nat) : csLoadDone s c m .changed = (s.takeLoad c).loadEnd l 7 := by
  simp [csLoadDone, hl, State.takeLoad, h]

theorem csLoadDone_failed (h : s.hostImage l = true) (m : Nat) : csLoadDone s c m .failed = (s.takeLoad c).loadDmaError l := by
  simp [csLoadDone, hl, State.takeLoad, h]

end

/-- The image of a load came from a ring, whose entry ends with DMA_ERROR and EV210. -/
theorem State.loadDmaError_effects {s t : State} {l : CsLoad} (h : t.hostImage l = true) :
    KeepsStores s (s.loadDmaError l) ∧ ∃ e ∈ (s.loadDmaError l).fm.raised, e.src = 210 := by
  obtain ⟨c, g, ring, ctx⟩ := l
  cases ring with
  | none => exact absurd h (by simp [State.hostImage])
  | some r =>
    obtain ⟨e, he, hsrc, -⟩ := State.mem_raise_raised (s.cmdWaitDone r .csLoad 0x8006 0) 210 r
    exact ⟨.trans (s.cmdWaitDone_keepsStores r .csLoad 0x8006 0) ⟨rfl, rfl⟩, e, he, hsrc⟩

end Sys2Proof.Machine
end

section
/-! The staging of a hue image's records (R156, R161): what it leaves of the dictionary and of the staged image. -/

namespace Sys2Proof.Machine

/-- The dictionary, the fault manager and the staged hue_next_image are in `t` as in `s`. -/
structure Stages (s t : State) : Prop where
  dict : t.dict = s.dict
  fm : t.fm = s.fm
  image : t.hue.imageStaged = s.hue.imageStaged

theorem Stages.refl (s : State) : Stages s s := ⟨rfl, rfl, rfl⟩

theorem Stages.trans {s t u : State} (h : Stages s t) (h' : Stages t u) : Stages s u :=
  ⟨h'.dict.trans h.dict, h'.fm.trans h.fm, h'.image.trans h.image⟩

/-- The clutches take one after another a change of their stores. -/
theorem foldl_setCs_stages (f : State → Nat → ClutchStore) (l : List Nat) (s : State) :
    Stages s (l.foldl (fun (s : State) c => s.setCs c (f s c)) s) :=
  List.foldlRecOn (motive := Stages s) l _ (.refl s) fun _ ht _ _ => ht.trans ⟨rfl, rfl, rfl⟩

theorem State.setRule_stages (s : State) (i : Nat) (t : Tagged) : Stages s (s.setRule i t) := ⟨rfl, rfl, rfl⟩

theorem State.setPatSet_stages (s : State) (i : Nat) (t : Tagged) : Stages s (s.setPatSet i t) := ⟨rfl, rfl, rfl⟩

theorem State.setTmplSlot_stages (s : State) (i : Nat) (t : Tagged) : Stages s (s.setTmplSlot i t) := ⟨rfl, rfl, rfl⟩

theorem State.putWord_stages (s : State) (w x : Nat) : Stages s (s.putWord w x) := ⟨rfl, rfl, rfl⟩

theorem State.modBank0_stages (s : State) (i : Nat) (f : Nat → Nat) : Stages s (s.modBank0 i f) := by
  have shadow : Stages s (({ s with hue := { s.hue with disp0 := tmod 0 s.hue.disp0 i f } } : State).shadowWrite 3 i) := ⟨rfl, rfl, rfl⟩
  rw [State.modBank0]
  exact shadow.trans (foldl_setCs_stages (fun s c => { s.cs c with disp := tmod 0 (s.cs c).disp i f }) _ _)

theorem eq_of_stageIf {k : Code} {s t : State} (h : stageIf k s = .ok t) : s = t := by
  unfold stageIf at h
  split at h
  · exact Except.ok.inj h
  · exact absurd h (by simp)

theorem stageRule_stages {s t : State} {r : List Byte} (h : stageRule s r = .ok t) : Stages s t := by
  unfold stageRule at h
  dsimp only at h
  split_ifs at h
  · rw [← eq_of_stageIf h]
    exact s.setRule_stages ..
  · rw [← Except.ok.inj h]
    exact (((s.setRule_stages ..).trans (State.setRule_stages ..)).trans (State.setRule_stages ..)).trans (State.setRule_stages ..)

theorem stageSet_stages {s t : State} {r : List Byte} (h : stageSet s r = .ok t) : Stages s t := by
  unfold stageSet at h
  dsimp only at h
  split_ifs at h
  all_goals
    rw [← eq_of_stageIf h]
    exact s.setPatSet_stages ..

theorem stageTmpl_stages {s t : State} {r : List Byte} (h : stageTmpl s r = .ok t) : Stages s t := by
  unfold stageTmpl at h
  dsimp only at h
  split_ifs at h
  split at h
  · exact absurd h (by simp)
  · rw [← Except.ok.inj h]
    split
    · exact (s.setTmplSlot_stages ..).trans (State.setTmplSlot_stages ..)
    · exact s.setTmplSlot_stages ..

theorem stageRecord_stages {s t : State} {ty : Nat} {r : List Byte} (h : stageRecord s ty r = .ok t) : Stages s t := by
  unfold stageRecord at h
  dsimp only at h
  split at h
  · split_ifs at h
    rw [← Except.ok.inj h]
    exact ⟨rfl, rfl, rfl⟩
  · exact stageRule_stages h
  · split_ifs at h
    rw [← eq_of_stageIf h]
    exact s.putWord_stages ..
  · exact stageSet_stages h
  · split_ifs at h
    rw [← eq_of_stageIf h]
    exact s.modBank0_stages ..
  · exact stageTmpl_stages h

theorem stageRecords_stages (ty k : Nat) (l : List (List Byte)) (s : State) : Stages s (stageRecords ty k l s).1 := by
  induction l generalizing k s with
  | nil => exact .refl s
  | cons r rest ih =>
    rw [stageRecords]
    split
    next staged => exact (stageRecord_stages staged).trans (ih ..)
    · exact .refl s

theorem stageSections_stages (n : Nat) (l : List Section) (s : State) : Stages s (stageSections n l s).1 := by
  induction l generalizing n s with
  | nil => exact .refl s
  | cons x rest ih =>
    have staged := stageRecords_stages x.ty 0 x.recs s
    rw [stageSections]
    split
    next s1 h =>
      rw [h] at staged
      exact staged.trans (ih ..)
    next h =>
      rw [h] at staged
      exact staged

/-! ## A hue image (R161) -/

section
variable {s : State} {b : List Byte} {limit : Nat}

theorem stageImage_badHeader (h : headerBad true b limit = true) : stageImage s b limit = (s, 2) := by rw [stageImage, if_pos h]

theorem stageImage_badCrc (h : headerBad true b limit = false) (hcrc : crcBad b = true) : stageImage s b limit = (s, 3) := by
  simp only [stageImage, h, hcrc, Bool.false_eq_true, if_false, if_true]

theorem stageImage_staged (h : headerBad true b limit = false) (hcrc : crcBad b = false) (hst : s.bank0Staged = true) :
    stageImage s b limit = (s.wr Objs.hue_load_fail 0 Code.state.num, 10) := by
  simp only [stageImage, h, hcrc, hst, Bool.false_eq_true, if_false, if_true]

/-- An image that passes its checks is staged under its own ID, whatever record stops it. -/
theorem stageImage_image (h : headerBad true b limit = false) (hcrc : crcBad b = false) (hst : s.bank0Staged = false) :
    (stageImage s b limit).1.hue.imageStaged = some (imgId b) := by
  have staged := (stageSections_stages 0 (imgSectionList b) (s.stageValue 0 (imgId b))).image
  simp only [stageImage, h, hcrc, hst, Bool.false_eq_true, if_false]
  split
  all_goals
    next eq =>
      rw [eq] at staged
      exact staged

end

end Sys2Proof.Machine
end

section
/-! Loads of images (R157, R158, R161): what cs_load and hue_image_load answer, what starts, and how a run of staging ends. -/

namespace Sys2Proof.Machine

/-! ## Results (R448) -/

theorem State.setResult_result (s : State) (c : Ctx) (k r : Nat) : (s.setResult c k r).result c k = r := tget_tset_same ..

theorem State.startRun_result (s : State) (c : Ctx) (k r : Nat) : (s.startRun c k r).result c k = r := s.setResult_result ..

theorem State.put_result (s : State) (x : Output) (c : Ctx) (k : Nat) : (s.put x).result c k = s.result c k := rfl

theorem State.endClaim_dict (s : State) (c : Nat) : (s.endClaim c).dict = s.dict := by
  obtain ⟨x, h⟩ := s.endClaim_frame c
  rw [h]

theorem State.endClaim_hue (s : State) (c : Nat) : (s.endClaim c).hue = s.hue := by
  obtain ⟨x, h⟩ := s.endClaim_frame c
  rw [h]

theorem State.endClaim_result (s : State) (n : Nat) (c : Ctx) (k : Nat) : (s.endClaim n).result c k = s.result c k := by
  rw [State.result, State.endClaim_dict]
  rfl

theorem State.endRun_result (s : State) (c : Ctx) (k r : Nat)
    (h : s.dict.running.any (fun x => x.ctx == ctxCode c && x.key == k) = true) : (s.endRun (ctxCode c) k r).result c k = r := by
  rw [State.endRun, if_pos h]
  exact s.setResult_result c k r

/-! ## CS_LOAD through a context (R157) -/

section
variable {c : Ctx} {x n : Nat} {u : State} {b : List Byte} (hsrc : loadSource u c = (b, n))
include hsrc

theorem csLoadApply_refused {k : Nat} (h : loadCheck u x b n = .error k) :
    csLoadApply c x u = (u.setResult c (Objs.cs_load.key 0) k).endClaim (ctxCode c) := by
  simp only [csLoadApply, hsrc, h]

theorem csLoadApply_started {g : Golden} (h : loadCheck u x b n = .ok g) :
    csLoadApply c x u = (u.startRun c (Objs.cs_load.key 0) 8).startLoad x g none (some (ctxCode c)) := by
  simp only [csLoadApply, hsrc, h]

end

theorem acceptBase_sk (c : Ctx) (o : Obj) (i : Nat) (v : List Byte) (s : State) (hid : o.key i ≠ idKey) :
    (acceptBase c o i v s).sk = s.sk := by
  obtain ⟨u, d, m, h, -⟩ := acceptBase_frame c o i v s hid
  rw [h]

theorem csLoad_dict {c : Ctx} {v : List Byte} {s u : State} {b : List Byte} {n : Nat} (hacc : Accepted c Objs.cs_load 0 v (claimCheck c) s)
    (hu : u = acceptBase c Objs.cs_load 0 v s) (hsrc : loadSource u c = (b, n)) :
    (∀ k, loadCheck u (leNat v) b n = .error k →
      ∃ t, exec (.csLoad (.dict c v)) s = .next t ∧ Answered c Objs.cs_load 0 .ok t ∧
        t.result c (Objs.cs_load.key 0) = k ∧ t.sk.loads = s.sk.loads ∧ t.sk.stores = s.sk.stores) ∧
    (∀ g, loadCheck u (leNat v) b n = .ok g →
      ∃ t, exec (.csLoad (.dict c v)) s = .next t ∧ Answered c Objs.cs_load 0 .ok t ∧
        t.result c (Objs.cs_load.key 0) = 8 ∧ t.sk.loads = s.sk.loads ++ [⟨leNat v, g, none, some (ctxCode c)⟩]) := by
  have hsk : u.sk = s.sk := by rw [hu, acceptBase_sk _ _ _ _ _ (by decide)]
  have hexec : exec (.csLoad (.dict c v)) s = .next ((csLoadApply c (leNat v) u).put (.answer c (Objs.cs_load.key 0 / 256)
      (Objs.cs_load.key 0 % 256) 0 [])) := by
    rw [hu]
    exact congrArg Host.Outcome.next (writeObj_accepted hacc.1 hacc.2)
  refine ⟨fun k hk => ⟨_, hexec, answered_ok .., ?_⟩, fun g hg => ⟨_, hexec, answered_ok .., ?_⟩⟩
  · rw [csLoadApply_refused hsrc hk]
    have kept := (u.setResult c (Objs.cs_load.key 0) k).endClaim_keepsLoads (ctxCode c)
    refine ⟨(State.endClaim_result ..).trans (State.setResult_result ..), kept.loads.trans ?_, kept.stores.trans ?_⟩
    · exact congrArg SkinkUnit.loads hsk
    · exact congrArg SkinkUnit.stores hsk
  · rw [csLoadApply_started hsrc hg]
    exact ⟨u.startRun_result c (Objs.cs_load.key 0) 8, congrArg (fun k : SkinkUnit => k.loads ++ _) hsk⟩

/-! ## CS_LOAD of a ring (R427, R429, R433) -/

/-- A ring whose entry can start runs, and the host function is not HALTED. -/
theorem running_of_canStart {s : State} {r : Nat} (h : canStart s r = true) : (s.cr r).st = .running ∧ s.hostHalted = false := by
  simp only [canStart, Bool.and_eq_true, decide_eq_true_eq, Bool.not_eq_true'] at h
  obtain ⟨⟨hnext, hhost⟩, -⟩ := h
  have work := List.find?_some hnext
  simp only [State.ringWork, Bool.and_eq_true, decide_eq_true_eq] at work
  exact ⟨work.1.1, hhost⟩

/-- An entry whose checks pass is carried out, its ring the one served last. -/
theorem cmdStart_of_starts {s : State} {r e op : Nat} {buf : List Byte} {dma : Dma} (h : Starts s r e op buf dma) (body : State → State) :
    cmdStart s r e buf dma (entOp e == op) body = body (s.serving r) := by
  obtain ⟨hstart, hop, hcheck⟩ := h
  have hcheck' : cmdCheck s e buf dma = none := hcheck
  simp only [cmdStart, hstart, hop, hcheck', beq_self_eq_true, if_true, true_or]

/-- What follows the write of an entry's status leaves the threads' side and the rings alone, and takes nothing back that was put out. -/
structure KeepsEntry (r : Nat) (s t : State) : Prop where
  sk : t.sk = s.sk
  cr : t.cr r = s.cr r
  outbox : s.outbox ⊆ t.outbox

namespace KeepsEntry

variable {r : Nat} {s t u : State}

theorem trans (h : KeepsEntry r s t) (h' : KeepsEntry r t u) : KeepsEntry r s u :=
  ⟨h'.sk.trans h.sk, h'.cr.trans h.cr, fun _ hx => h'.outbox (h.outbox hx)⟩

theorem ite_then {c : Prop} [Decidable c] (h : KeepsEntry r s t) (h' : KeepsEntry r t u) : KeepsEntry r s (if c then u else t) := by
  split
  · exact h.trans h'
  · exact h

theorem bump (s : State) (o : Obj) (i : Nat) : KeepsEntry r s (s.bump o i) := ⟨rfl, rfl, fun _ h => h⟩

theorem put (s : State) (x : Output) : KeepsEntry r s (s.put x) := ⟨rfl, rfl, List.subset_append_left ..⟩

theorem msix (s : State) (v : Nat) : KeepsEntry r s (s.msix v) := by
  unfold State.msix
  dsimp only
  split
  · exact ⟨rfl, rfl, fun _ h => h⟩
  · exact put ..

end KeepsEntry

/-- The entry at H of a ring that runs completes (R433). -/
theorem State.cmdComplete_running {s : State} {r : Nat} (hrun : (s.cr r).st = .running) (hhost : s.hostHalted = false)
    (status result flags : Nat) :
    Completes r status result s (s.cmdComplete r status result flags) ∧ (s.cmdComplete r status result flags).sk = s.sk := by
  have told (x : CmdRing) : ((s.put (statusWrite (s.cr r) status result)).setCr r x).cr r = x ∧
      statusWrite (s.cr r) status result ∈ ((s.put (statusWrite (s.cr r) status result)).setCr r x).outbox :=
    ⟨tget_tset_same .., List.mem_append_right _ (List.mem_singleton_self _)⟩
  have kept : KeepsEntry r ((s.put (statusWrite (s.cr r) status result)).setCr r
      { s.cr r with h := ((s.cr r).h + 1) % 2 ^ 32, busy := none }) (s.cmdComplete r status result flags) := by
    have stops : (s.cr r).st ≠ .stopping := by rw [hrun]; decide
    simp only [State.cmdComplete, hhost, stops, Bool.false_eq_true, if_false]
    exact .ite_then (.trans (.ite_then (.bump ..) (.bump ..)) (.put ..)) (.msix ..)
  obtain ⟨hcr, hout⟩ := told { s.cr r with h := ((s.cr r).h + 1) % 2 ^ 32, busy := none }
  have own := kept.cr.trans hcr
  exact ⟨⟨kept.outbox hout, congrArg CmdRing.h own, congrArg CmdRing.busy own⟩, kept.sk⟩

section
variable {s : State} {r e : Nat} {image : List Byte} (hregion : bit (entFlags e) 3 = false)
include hregion

/-- An image in the data buffer, which the device reads whole (R431), fails one of its checks. -/
theorem ringCsLoad_refused {k : Nat}
    (h : loadCheck s (fld (entParam e) 0 4) (padTo 0 (min (entLen e) 1048576) image) (entLen e) = .error k) :
    ringCsLoad s r e image .good = s.cmdComplete r 0x800A k (entFlags e) := by
  simp only [ringCsLoad, hregion, dmaReadable, lt_irrefl, and_false, Bool.false_eq_true, if_false, h]

/-- Such an image passes its checks. -/
theorem ringCsLoad_started {g : Golden}
    (h : loadCheck s (fld (entParam e) 0 4) (padTo 0 (min (entLen e) 1048576) image) (entLen e) = .ok g) :
    ringCsLoad s r e image .good = (s.startLoad (fld (entParam e) 0 4) g (some r) none).cmdWait r e .csLoad := by
  simp only [ringCsLoad, hregion, dmaReadable, lt_irrefl, and_false, Bool.false_eq_true, if_false, h]

end

theorem csLoad_ring {s : State} {r : Fin 64} {e : BitVec 256} {image : List Byte} (h : Starts s r e.toNat 0x21 image .good)
    (hregion : bit (entFlags e.toNat) 3 = false) :
    (∀ k, loadCheck (s.serving r) (fld (entParam e.toNat) 0 4) (padTo 0 (min (entLen e.toNat) 1048576) image) (entLen e.toNat) = .error k →
      ∃ t, exec (.csLoad (.ring r e image .good)) s = .next t ∧ Completes r 0x800A k s t ∧ t.sk = s.sk) ∧
    (∀ g, loadCheck (s.serving r) (fld (entParam e.toNat) 0 4) (padTo 0 (min (entLen e.toNat) 1048576) image) (entLen e.toNat) = .ok g →
      ∃ t, exec (.csLoad (.ring r e image .good)) s = .next t ∧ WaitsFor r e.toNat .csLoad t ∧
        t.sk.loads = s.sk.loads ++ [⟨fld (entParam e.toNat) 0 4, g, some r.val, none⟩]) := by
  have hexec : exec (.csLoad (.ring r e image .good)) s = .next (ringCsLoad (s.serving r) r e.toNat image .good) :=
    congrArg Host.Outcome.next (cmdStart_of_starts h _)
  obtain ⟨hrun, hhost⟩ := running_of_canStart h.1
  refine ⟨fun k hk => ⟨_, hexec, ?_⟩, fun g hg => ⟨_, hexec, ?_⟩⟩
  · rw [ringCsLoad_refused hregion hk]
    exact State.cmdComplete_running (s := s.serving r) hrun hhost 0x800A k _
  · rw [ringCsLoad_started hregion hg]
    exact ⟨congrArg CmdRing.busy (tget_tset_same ..), rfl⟩

/-! ## The image of a hue (R161) -/

/-- The next hue, and whether an entry of bank 0 is staged for it, do not turn on what an accepted write does before its object's own
effect. -/
theorem acceptBase_hueN {c : Ctx} {o : Obj} (ho : HueObj o) (hne : Objs.hue_active.key 0 ≠ o.key 0) (v : List Byte) (s : State) :
    (acceptBase c o 0 v s).hueN = s.hueN := by
  have active : HueObj Objs.hue_active := by decide
  rw [State.hueN, State.hueActive, acceptBase_rd ho hne active.not_writeSide]
  rfl

theorem acceptBase_bank0Staged {c : Ctx} {o : Obj} (ho : HueObj o) (hne : Objs.hue_active.key 0 ≠ o.key 0) (v : List Byte) (s : State) :
    (acceptBase c o 0 v s).bank0Staged = s.bank0Staged := by
  have entry (i : Nat) : (acceptBase c o 0 v s).entryStaged i = s.entryStaged i := by
    rw [State.entryStaged, acceptBase_hue ho, acceptBase_hueN ho hne]
    rfl
  rw [State.bank0Staged, funext entry]
  rfl

section
variable {c : Ctx} {s : State} {b : List Byte} {n : Nat} (hsrc : loadSource s c = (b, n)) (x : Nat)
include hsrc

/-- An image that fails a check ends its load at once. -/
theorem hueLoadApply_ended (h : headerBad true b n = true ∨ crcBad b = true ∨ s.bank0Staged = true) :
    hueLoadApply c x s =
      ((stageImage s b n).1.setResult c (Objs.hue_image_load.key 0) (stageImage s b n).2).endClaim (ctxCode c) := by
  simp only [hueLoadApply, hsrc, h, if_true]

/-- The load of any other runs until a tick ends it. -/
theorem hueLoadApply_runs (hh : headerBad true b n = false) (hcrc : crcBad b = false) (hst : s.bank0Staged = false) :
    hueLoadApply c x s = ((stageImage s b n).1.startRun c (Objs.hue_image_load.key 0) Code.busy.num).startStage (some (ctxCode c)) none 0
      (stageImage s b n).2 := by
  simp only [hueLoadApply, hsrc, hh, hcrc, hst, Bool.false_eq_true, or_self, if_false]

/-- A load that has ended reads its code, and has left what the staging left. -/
theorem hueLoadApply_ended_effects (h : headerBad true b n = true ∨ crcBad b = true ∨ s.bank0Staged = true) {u : State} {k : Nat}
    (himage : stageImage s b n = (u, k)) :
    (hueLoadApply c x s).result c (Objs.hue_image_load.key 0) = k ∧ (hueLoadApply c x s).hue = u.hue ∧
      (hueLoadApply c x s).rd Objs.hue_load_fail = u.rd Objs.hue_load_fail := by
  rw [hueLoadApply_ended hsrc x h, himage]
  refine ⟨(State.endClaim_result ..).trans (State.setResult_result ..), State.endClaim_hue .., ?_⟩
  rw [State.rd, State.endClaim_dict]
  rfl

end

theorem hueImageLoad_effects {c : Ctx} {v : List Byte} {s : State} {b : List Byte} {n : Nat}
    (hacc : Accepted c Objs.hue_image_load 0 v (claimCheck c) s) (hsrc : loadSource (acceptBase c Objs.hue_image_load 0 v s) c = (b, n)) :
    ∃ t, exec (.hueImageLoad c v) s = .next t ∧ Answered c Objs.hue_image_load 0 .ok t ∧
      (headerBad true b n = true → t.result c (Objs.hue_image_load.key 0) = 2 ∧ t.hue = s.hue) ∧
      (headerBad true b n = false → crcBad b = true → t.result c (Objs.hue_image_load.key 0) = 3 ∧ t.hue = s.hue) ∧
      (headerBad true b n = false → crcBad b = false → s.bank0Staged = true →
        t.result c (Objs.hue_image_load.key 0) = 10 ∧ t.hue = s.hue ∧ t.rd Objs.hue_load_fail = Code.state.num) ∧
      (headerBad true b n = false → crcBad b = false → s.bank0Staged = false →
        t.hue.imageStaged = some (imgId b) ∧ t.result c (Objs.hue_image_load.key 0) = Code.busy.num ∧ t.hue.staging ≠ []) := by
  have obj : HueObj Objs.hue_image_load := by decide
  have hhue := acceptBase_hue (c := c) obj (v := v) (s := s)
  have hbank := acceptBase_bank0Staged (c := c) obj (by decide) v s
  refine ⟨_, congrArg Host.Outcome.next (writeObj_accepted hacc.1 hacc.2), answered_ok .., ?_⟩
  simp only [State.put_result, State.put_hue, State.put_rd]
  refine ⟨fun hh => ?_, fun hh hcrc => ?_, fun hh hcrc hst => ?_, fun hh hcrc hst => ?_⟩
  · obtain ⟨hres, heff, -⟩ := hueLoadApply_ended_effects hsrc (leNat v) (.inl hh) (stageImage_badHeader hh)
    exact ⟨hres, heff.trans hhue⟩
  · obtain ⟨hres, heff, -⟩ := hueLoadApply_ended_effects hsrc (leNat v) (.inr (.inl hcrc)) (stageImage_badCrc hh hcrc)
    exact ⟨hres, heff.trans hhue⟩
  · rw [← hbank] at hst
    obtain ⟨hres, heff, hfail⟩ := hueLoadApply_ended_effects hsrc (leNat v) (.inr (.inr hst)) (stageImage_staged hh hcrc hst)
    exact ⟨hres, heff.trans hhue, hfail.trans (DictUnit.rd_wr_same (by decide))⟩
  · rw [← hbank] at hst
    rw [hueLoadApply_runs hsrc (leNat v) hh hcrc hst]
    exact ⟨stageImage_image hh hcrc hst, (stageImage _ b n).1.startRun_result .., List.append_ne_nil_of_right_ne_nil _ (List.cons_ne_nil _ _)⟩

/-- A run of staging that no ring waits for ends with its result (R161). -/
theorem State.stageEnd_result {c : Ctx} (s : State) {x : StageRun} (hctx : x.ctx = some (ctxCode c)) (hring : x.ring = none)
    (h : s.dict.running.any (fun y => y.ctx == ctxCode c && y.key == Objs.hue_image_load.key 0) = true) :
    (s.stageEnd x).result c (Objs.hue_image_load.key 0) = x.result := by
  simp only [State.stageEnd, hctx, hring]
  exact (State.endClaim_result ..).trans (s.endRun_result c _ _ h)

/-! ## The statement -/

/-- The end of a load (R158): its content is in the clutch, or the clutch is out of service, or the store is what it was. -/
theorem csLoadDone_effects {s : State} {c : Fin 16} {l : CsLoad} (hl : s.sk.loads.find? (fun l => l.clutch = c.val) = some l) :
    (∀ m : Fin 3, m < 2 → ∃ t, exec (.csLoadDone c m .same) s = .next t ∧ t.rd Objs.clutch_image c = l.golden.image ∧
      (t.cs c).words = (storeOf (s.cs c) l.golden).words ∧ (t.cs c).disp = (storeOf (s.cs c) l.golden).disp ∧
      (t.cs c).entries = l.golden.entries ∧ t.sk.loads = s.sk.loads.filter (fun y => y.clutch ≠ c.val)) ∧
    (s.rd Objs.clutch_state c < 3 →
      ∃ t, exec (.csLoadDone c 2 .same) s = .next t ∧ t.rd Objs.clutch_state c = 3 ∧
        t.sk.loads = s.sk.loads.filter (fun y => y.clutch ≠ c.val) ∧ ∃ o ∈ t.fm.raised, o.src = 82 ∧ o.unit = c) ∧
    (s.hostImage l = true → ∀ (m : Fin 3) (second : SecondRead), second ≠ .same →
      ∃ t, exec (.csLoadDone c m second) s = .next t ∧ t.sk.stores = s.sk.stores ∧
        t.sk.loads = s.sk.loads.filter (fun y => y.clutch ≠ c.val) ∧ (second = .failed → ∃ o ∈ t.fm.raised, o.src = 210)) := by
  have hc := clutch_of_find hl
  refine ⟨fun m hm => ⟨_, rfl, ?_⟩, fun hstate => ⟨_, rfl, ?_⟩, fun himage m second hsecond => ⟨_, rfl, ?_⟩⟩
  · rw [csLoadDone_stored hl (by omega)]
    have ended := ((s.takeLoad c).loadStore l).loadEnd_keepsLoads l 0
    obtain ⟨hcs, hid, hloads⟩ := (s.takeLoad c).loadStore_clutch l
    rw [hc] at hcs hid
    rw [ended.cs, hcs]
    exact ⟨(ended.clutch (.inl rfl) c.isLt).trans hid, rfl, rfl, rfl, ended.loads.trans hloads⟩
  · rw [show (2 : Fin 3).val = 2 from rfl, csLoadDone_mismatch hl]
    generalize hu : ((s.takeLoad c).setCs c (storeOf ((s.takeLoad c).cs c) l.golden)).raise 82 c = u
    have low : u.rd Objs.clutch_state c < 3 := by rw [← hu]; exact hstate
    have hloads : u.sk.loads = s.sk.loads.filter (fun y => y.clutch ≠ c.val) := by rw [← hu]; rfl
    have hraised : ∃ e ∈ u.fm.raised, e.src = 82 ∧ e.unit = c := by rw [← hu]; exact State.mem_raise_raised ..
    obtain ⟨e, he, hevent⟩ := hraised
    obtain ⟨hout, hkept⟩ := State.isolateClutch_out c.isLt low
    have ended := (u.isolateClutch c).loadEnd_keepsLoads l 7
    exact ⟨(ended.clutch (.inr rfl) c.isLt).trans hout, ended.loads.trans ((u.isolateClutch_keepsStores c).loads.trans hloads),
      ended.event ⟨e, hkept e he, hevent⟩⟩
  · cases second with
    | same => exact absurd rfl hsecond
    | changed =>
      rw [csLoadDone_changed hl himage]
      have ended := (s.takeLoad c).loadEnd_keepsLoads l 7
      exact ⟨ended.stores, ended.loads, fun h => absurd h (by decide)⟩
    | failed =>
      rw [csLoadDone_failed hl himage]
      obtain ⟨kept, hevent⟩ := State.loadDmaError_effects (s := s.takeLoad c) himage
      exact ⟨kept.stores, kept.loads, fun _ => hevent⟩

/-- Settles O27: a load is judged by the first check that fails and joins the loads that run; as it ends, neither its sender's answer nor
the isolation of its clutch touches a store or the loads that are left. -/
theorem imagesAreLoaded : Obligations.ImagesAreLoaded := by
  intro c v s
  exact ⟨fun u b n hacc hu hsrc => csLoad_dict hacc hu hsrc, fun r e image h hregion => csLoad_ring h hregion,
    fun x l hl => csLoadDone_effects hl, fun b n hacc hsrc => hueImageLoad_effects hacc hsrc,
    fun x hctx hring h => s.stageEnd_result hctx hring h⟩

end Sys2Proof.Machine
end

section
/-! The image buffer, its claim, and staged entries of bank 0 (R151, R159, R455). -/

namespace Sys2Proof.Machine

/-! ## The image buffer (R159, R391) -/

theorem judgeWrite_length {c : Ctx} {o : Obj} {i : Nat} {v : List Byte} {check : Nat → State → Code} {s : State}
    (h : judgeWrite c o i v check s = .ok) : v.length = o.ty.size := by
  unfold judgeWrite at h
  dsimp only at h
  split_ifs at h with _ _ hlength
  all_goals exact not_not.1 hlength

theorem tget_foldl_store (base : Nat) (l : List Byte) (n : Nat) (m : Tab Byte) (b : Nat) :
    tget 0 ((l.zipIdx n).foldl (fun t p => tset 0 t (base + p.2) p.1) m) b =
      if base + n ≤ b ∧ b < base + n + l.length then l.getD (b - (base + n)) 0 else tget 0 m b := by
  induction l generalizing n m with
  | nil => simp
  | cons c l ih =>
    rw [List.zipIdx_cons, List.foldl_cons, ih]
    obtain hb | rfl | hb := Nat.lt_trichotomy b (base + n)
    · rw [if_neg (by omega), if_neg (by omega), tget_tset_other (by omega)]
    · rw [if_neg (by omega), if_pos (by simp), tget_tset_same, Nat.sub_self, List.getD_cons_zero]
    · have shift : b - (base + n) = b - (base + (n + 1)) + 1 := by omega
      have range : (base + (n + 1) ≤ b ∧ b < base + (n + 1) + l.length) ↔ (base + n ≤ b ∧ b < base + n + (c :: l).length) := by
        rw [List.length_cons]
        omega
      rw [tget_tset_other (by omega), shift, List.getD_cons_succ]
      simp only [range]

/-- The bytes of a store are there, and every other byte as before. -/
theorem tget_swStore (m : Tab Byte) (a : Nat) (l : List Byte) (b : Nat) :
    tget 0 (swStore m a l) b = if a ≤ b ∧ b < a + l.length then l.getD (b - a) 0 else tget 0 m b := tget_foldl_store a l 0 m b

theorem State.rdCtx_wrCtx_local (s : State) (c : Ctx) {o : Obj} (h : pathLocal (o.key 0) = true) (x : Nat) :
    (s.wrCtx c o 0 x).rdCtx c o = x := by
  rw [State.rdCtx, if_pos h, State.wrCtx, if_pos h]
  exact tget_tset_same ..

theorem State.put_rdCtx (s : State) (x : Output) (c : Ctx) (o : Obj) : (s.put x).rdCtx c o = s.rdCtx c o := rfl

/-- The image buffer lies in the first 32 pseudo-channels. -/
theorem bufferPc_lt (off : Nat) : bufferPc off < 32 := by
  simp only [bufferPc, imagePc]
  omega

/-- A write of another object's value leaves what a pseudo-channel answers. -/
theorem acceptBase_pcRefuses {c : Ctx} {o : Obj} (ho : HueObj o) (v : List Byte) (s : State) {p : Nat} (hp : p < 128) :
    (acceptBase c o 0 v s).pcRefuses p = s.pcRefuses p := by
  obtain ⟨hlo, hhi⟩ := ho
  have hkey : UnitRange (Objs.hbm_state.key p) := by simp only [UnitRange, Obj.key]; omega
  have hne : Objs.hbm_state.key p ≠ o.key 0 := by simp only [Obj.key] at hhi ⊢; omega
  rw [State.pcRefuses, State.pcState, acceptBase_rd ⟨hlo, hhi⟩ hne hkey.not_writeSide]
  rfl

/-- A write of cs_buf_data where the buffer takes it. -/
theorem bufApply_stores {c : Ctx} {v : List Byte} {s : State} (h : s.pcRefuses (bufferPc (s.rdCtx c Objs.cs_buf_offset)) = false) :
    (bufApply c v s).sk.buffer = swStore s.sk.buffer (s.rdCtx c Objs.cs_buf_offset) v ∧
      (bufApply c v s).rdCtx c Objs.cs_buf_offset = s.rdCtx c Objs.cs_buf_offset + 256 ∧
      (bufApply c v s).sk.bufClaim = some (ctxCode c, s.fNs) := by
  simp only [bufApply, h, Bool.false_eq_true, if_false]
  exact ⟨rfl, State.rdCtx_wrCtx_local _ c (by decide) _, rfl⟩

theorem csBufData_effects {c : Ctx} {v : List Byte} {s : State} (hacc : Accepted c Objs.cs_buf_data 0 v (bufCheck c) s)
    (hserves : s.pcRefuses (bufferPc (s.rdCtx c Objs.cs_buf_offset)) = false) :
    ∃ t, exec (.csBufData c v) s = .next t ∧ Answered c Objs.cs_buf_data 0 .ok t ∧
      (∀ k < 256, tget 0 t.sk.buffer (s.rdCtx c Objs.cs_buf_offset + k) = v.getD k 0) ∧
      (∀ a, a < s.rdCtx c Objs.cs_buf_offset ∨ s.rdCtx c Objs.cs_buf_offset + 256 ≤ a →
        tget 0 t.sk.buffer a = tget 0 s.sk.buffer a) ∧
      t.rdCtx c Objs.cs_buf_offset = s.rdCtx c Objs.cs_buf_offset + 256 ∧ t.sk.bufClaim = some (ctxCode c, s.fNs) := by
  have obj : HueObj Objs.cs_buf_data := by decide
  have hlen : v.length = 256 := judgeWrite_length hacc.2
  have hoff : (acceptBase c Objs.cs_buf_data 0 v s).rdCtx c Objs.cs_buf_offset = s.rdCtx c Objs.cs_buf_offset :=
    acceptBase_rdCtx obj (by decide) (by decide) (by decide)
  have htime : (acceptBase c Objs.cs_buf_data 0 v s).fNs = s.fNs := by
    obtain ⟨u, d, m, h, -⟩ := acceptBase_frame c Objs.cs_buf_data 0 v s (by decide)
    rw [h]
    rfl
  have hsk := acceptBase_sk c Objs.cs_buf_data 0 v s (by decide)
  rw [← acceptBase_pcRefuses obj v s (by have := bufferPc_lt (s.rdCtx c Objs.cs_buf_offset); omega), ← hoff] at hserves
  obtain ⟨hbuf, hnext, hclaim⟩ := bufApply_stores (v := v) hserves
  rw [hoff, hsk] at hbuf
  rw [hoff] at hnext
  rw [htime] at hclaim
  refine ⟨_, congrArg Host.Outcome.next (writeObj_accepted hacc.1 hacc.2), answered_ok .., ?_⟩
  simp only [State.put_sk, State.put_rdCtx, hbuf, hnext, hclaim, tget_swStore, hlen]
  refine ⟨fun k hk => ?_, fun a ha => if_neg (by omega), trivial, trivial⟩
  rw [if_pos (by omega), Nat.add_sub_cancel_left]

/-- A claim that has lasted 10 s ends; the buffer stays as it is (R455). -/
theorem claimExpiry_effects {s : State} {k x : Nat} (h : s.sk.bufClaim = some (k, x)) :
    (claimExpiry s).sk.buffer = s.sk.buffer ∧
      (claimExpiry s).sk.bufClaim = (if s.elapsed x 10000000000 then none else some (k, x)) := by
  unfold claimExpiry
  rw [h]
  dsimp only
  split
  · exact ⟨rfl, rfl⟩
  · exact ⟨rfl, h⟩

/-! ## Bank 0 (R151) -/

theorem State.cs_setCs_other (s : State) {c d : Nat} (h : c ≠ d) (x : ClutchStore) : (s.setCs c x).cs d = s.cs d := tget_tset_other h ..

/-- The clutches that are named once each take a change of their own store. -/
theorem foldl_setCs_cs (g : ClutchStore → ClutchStore) {l : List Nat} (hl : l.Nodup) (s : State) {k : Nat} :
    (l.foldl (fun (s : State) c => s.setCs c (g (s.cs c))) s).cs k = if k ∈ l then g (s.cs k) else s.cs k := by
  induction l generalizing s with
  | nil => rfl
  | cons c l ih =>
    obtain ⟨hc, hl⟩ := List.nodup_cons.1 hl
    rw [List.foldl_cons, ih hl]
    by_cases hk : k = c
    · subst hk
      rw [if_neg hc, if_pos List.mem_cons_self, State.cs_setCs]
    · simp only [List.mem_cons, hk, false_or, s.cs_setCs_other (Ne.symm hk)]

theorem foldl_setCs_hue (g : ClutchStore → ClutchStore) (l : List Nat) (s : State) :
    (l.foldl (fun (s : State) c => s.setCs c (g (s.cs c))) s).hue = s.hue :=
  List.foldlRecOn (motive := fun t : State => t.hue = s.hue) l _ rfl fun _ ht _ _ => ht

/-- A change of a bank-0 entry reaches the shadow and every clutch, and no other entry of the shadow. -/
theorem State.modBank0_entries (s : State) (i : Nat) (f : Nat → Nat) :
    tget 0 (s.modBank0 i f).hue.disp0 i = f (tget 0 s.hue.disp0 i) ∧
      (∀ j, j ≠ i → tget 0 (s.modBank0 i f).hue.disp0 j = tget 0 s.hue.disp0 j) ∧
      ∀ k < 16, tget 0 ((s.modBank0 i f).cs k).disp i = f (tget 0 (s.cs k).disp i) := by
  rw [State.modBank0, foldl_setCs_hue (fun x => { x with disp := tmod 0 x.disp i f })]
  refine ⟨tget_tset_same .., fun j hj => tget_tset_other (Ne.symm hj) .., fun k hk => ?_⟩
  rw [foldl_setCs_cs (fun x => { x with disp := tmod 0 x.disp i f }) List.nodup_range, if_pos (List.mem_range.2 hk)]
  exact tget_tset_same ..

/-- As an entry is staged (R151), the shadow and every clutch hold it, and the shadow's other entries stay. -/
theorem State.putDisp0_entries (s : State) (i x : Nat) :
    tget 0 (s.putDisp0 i x).hue.disp0 i = entryStage (tget 0 s.hue.disp0 i) s.hueN (bit x 15) (x % 2 ^ 14) ∧
      (∀ j, j ≠ i → tget 0 (s.putDisp0 i x).hue.disp0 j = tget 0 s.hue.disp0 j) ∧
      ∀ k < 16, tget 0 ((s.putDisp0 i x).cs k).disp i = entryStage (tget 0 (s.cs k).disp i) s.hueN (bit x 15) (x % 2 ^ 14) :=
  s.modBank0_entries i _

theorem disp0Stage_effects {c : Ctx} {v : List Byte} {s : State}
    (hacc : Accepted c Objs.disp0_stage 0 v (fun x s => s.disp0Code (s.rdCtx c Objs.disp_select) x) s) :
    ∃ t, exec (.disp0Stage c v) s = .next t ∧ Answered c Objs.disp0_stage 0 .ok t ∧
      tget 0 t.hue.disp0 (s.rdCtx c Objs.disp_select) =
        entryStage (tget 0 s.hue.disp0 (s.rdCtx c Objs.disp_select)) s.hueN (bit (leNat v) 15) (leNat v % 2 ^ 14) ∧
      (∀ i, i ≠ s.rdCtx c Objs.disp_select → tget 0 t.hue.disp0 i = tget 0 s.hue.disp0 i) ∧
      ∀ k < 16, tget 0 (t.cs k).disp (s.rdCtx c Objs.disp_select) =
        entryStage (tget 0 (s.cs k).disp (s.rdCtx c Objs.disp_select)) s.hueN (bit (leNat v) 15) (leNat v % 2 ^ 14) := by
  have obj : HueObj Objs.disp0_stage := by decide
  have hsel : (acceptBase c Objs.disp0_stage 0 v s).rdCtx c Objs.disp_select = s.rdCtx c Objs.disp_select :=
    acceptBase_rdCtx obj (by decide) (by decide) (by decide)
  have hexec : exec (.disp0Stage c v) s = .next (((acceptBase c Objs.disp0_stage 0 v s).putDisp0 (s.rdCtx c Objs.disp_select) (leNat v)).put
      (.answer c (Objs.disp0_stage.key 0 / 256) (Objs.disp0_stage.key 0 % 256) 0 [])) := by
    rw [← hsel]
    exact congrArg Host.Outcome.next (writeObj_accepted hacc.1 hacc.2)
  have hhue := acceptBase_hue (c := c) obj (v := v) (s := s)
  have hn := acceptBase_hueN (c := c) obj (by decide) v s
  have hsk := acceptBase_sk c Objs.disp0_stage 0 v s (by decide)
  generalize acceptBase c Objs.disp0_stage 0 v s = b at hexec hhue hn hsk
  obtain ⟨own, others, disp⟩ := b.putDisp0_entries (s.rdCtx c Objs.disp_select) (leNat v)
  refine ⟨_, hexec, answered_ok .., ?_, fun j hj => ?_, fun k hk => ?_⟩
  · rw [State.put_hue, own, hhue, hn]
  · rw [State.put_hue, others j hj, hhue]
  · rw [KeepsStores.cs (.of_sk (State.put_sk ..)), disp k hk, KeepsStores.cs (.of_sk hsk), hn]

end Sys2Proof.Machine
end

section
/-! The stopped boot (R577 to R580): what boot_load keeps, and the boot from the two images. -/

namespace Sys2Proof.Machine

/-! ## boot_load (R580) -/

section
variable {c : Ctx} {s : State} {b : List Byte} {n : Nat} (hsrc : loadSource s c = (b, n))
include hsrc

theorem bootLoadApply_full : bootLoadApply c 1 s =
    ({ s with eft := { s.eft with bootFull := if fullCode b n = 0 then some b else none } } : State).setResult c (Objs.boot_load.key 0)
      (fullCode b n) := by
  simp only [bootLoadApply, hsrc, if_true]

theorem bootLoadApply_hue : bootLoadApply c 2 s =
    ({ s with eft := { s.eft with bootHue := if hueCheck b n = 0 then some b else none } } : State).setResult c (Objs.boot_load.key 0)
      (hueCheck b n) := by
  simp [bootLoadApply, hsrc]

end

/-- boot_load keeps the image that it does not check. -/
theorem bootLoadApply_other (c : Ctx) (s : State) :
    (bootLoadApply c 1 s).eft.bootHue = s.eft.bootHue ∧ (bootLoadApply c 2 s).eft.bootFull = s.eft.bootFull := by
  rw [bootLoadApply_full rfl, bootLoadApply_hue rfl]
  exact ⟨rfl, rfl⟩

theorem acceptBase_eft (c : Ctx) (o : Obj) (i : Nat) (v : List Byte) (s : State) (hid : o.key i ≠ idKey) :
    (acceptBase c o i v s).eft = s.eft := by
  obtain ⟨u, d, m, h, -⟩ := acceptBase_frame c o i v s hid
  rw [h]

theorem bootLoadFull_effects {c : Ctx} {s : State} (hacc : Accepted c Objs.boot_load 0 [1] bootCheck s) :
    ∃ t, exec (.bootLoadFull c) s = .next t ∧ Answered c Objs.boot_load 0 .ok t ∧
      (∀ b n, loadSource (acceptBase c Objs.boot_load 0 [1] s) c = (b, n) → t.result c (Objs.boot_load.key 0) = fullCode b n ∧
        t.eft.bootFull = (if fullCode b n = 0 then some b else none)) ∧
      t.eft.bootHue = s.eft.bootHue := by
  have heft := acceptBase_eft c Objs.boot_load 0 [1] s (by decide)
  have hexec : exec (.bootLoadFull c) s = .next ((bootLoadApply c 1 (acceptBase c Objs.boot_load 0 [1] s)).put
      (.answer c (Objs.boot_load.key 0 / 256) (Objs.boot_load.key 0 % 256) 0 [])) :=
    congrArg Host.Outcome.next (writeObj_accepted hacc.1 hacc.2)
  generalize acceptBase c Objs.boot_load 0 [1] s = u at hexec heft ⊢
  refine ⟨_, hexec, answered_ok .., fun b n hsrc => ?_, ?_⟩
  · rw [State.put_eft, State.put_result, bootLoadApply_full hsrc]
    exact ⟨State.setResult_result .., rfl⟩
  · rw [State.put_eft, (bootLoadApply_other c u).1, heft]

theorem bootLoadHue_effects {c : Ctx} {s : State} (hacc : Accepted c Objs.boot_load 0 [2] bootCheck s) :
    ∃ t, exec (.bootLoadHue c) s = .next t ∧ Answered c Objs.boot_load 0 .ok t ∧
      (∀ b n, loadSource (acceptBase c Objs.boot_load 0 [2] s) c = (b, n) → t.result c (Objs.boot_load.key 0) = hueCheck b n ∧
        t.eft.bootHue = (if hueCheck b n = 0 then some b else none)) ∧
      t.eft.bootFull = s.eft.bootFull := by
  have heft := acceptBase_eft c Objs.boot_load 0 [2] s (by decide)
  have hexec : exec (.bootLoadHue c) s = .next ((bootLoadApply c 2 (acceptBase c Objs.boot_load 0 [2] s)).put
      (.answer c (Objs.boot_load.key 0 / 256) (Objs.boot_load.key 0 % 256) 0 [])) :=
    congrArg Host.Outcome.next (writeObj_accepted hacc.1 hacc.2)
  generalize acceptBase c Objs.boot_load 0 [2] s = u at hexec heft ⊢
  refine ⟨_, hexec, answered_ok .., fun b n hsrc => ?_, ?_⟩
  · rw [State.put_eft, State.put_result, bootLoadApply_hue hsrc]
    exact ⟨State.setResult_result .., rfl⟩
  · rw [State.put_eft, (bootLoadApply_other c u).2, heft]

/-! ## The clutches of a boot (R129, R158) -/

/-- A step of the boot's load of the clutches. -/
def State.bootClutch (g : Golden) (bad : List Nat) (s : State) (c : Nat) : State :=
  if bad.contains c then ((s.setCs c (storeOf ClutchStore.init g)).raise 82 c).isolateClutch c
  else ((s.setCs c (storeOf ClutchStore.init g)).wr Objs.clutch_image c g.image).raise 84 c

theorem State.isolateClutch_keepsIsolated (s : State) {c k : Nat} (hc : c < 16) (hk : k < 16) (h : 3 ≤ s.rd Objs.clutch_state k) :
    3 ≤ (s.isolateClutch c).rd Objs.clutch_state k := by
  by_cases hs : 3 ≤ s.rd Objs.clutch_state c
  · rw [State.isolateClutch, if_pos hs]
    exact h
  · have hkc : Objs.clutch_state.key c ≠ Objs.clutch_state.key k := by
      have : c ≠ k := fun he => hs (he ▸ h)
      simp only [Obj.key]
      omega
    have before : 3 ≤ (s.wr Objs.clutch_state c 3).rd Objs.clutch_state k := by
      rwa [State.rd, State.wr_dict, DictUnit.rd_wr_other hkc (clutchState_key_ne_idKey c)]
    obtain ⟨keeps, -⟩ := State.clearUnit_effects (fun t => mem_clutchThreads hc) (s.wr Objs.clutch_state c 3) (fun t => clutchOf t == c) c 75 c
      s.eligibleClutches
    rw [State.isolateClutch_eq hs, keeps.isolated hk before]
    exact before

/-- A clutch that a boot's step loads leaves those that are isolated so; one that is bad is isolated. -/
theorem State.bootClutch_isolated (g : Golden) (bad : List Nat) (s : State) {c k : Nat} (hc : c < 16) (hk : k < 16)
    (h : k ∈ bad ∧ k = c ∨ 3 ≤ s.rd Objs.clutch_state k) : 3 ≤ (s.bootClutch g bad c).rd Objs.clutch_state k := by
  unfold State.bootClutch
  split
  next hbad =>
    obtain ⟨-, rfl⟩ | h := h
    · exact State.isolateClutch_isolated hk
    · exact State.isolateClutch_keepsIsolated _ hc hk h
  next hbad =>
    obtain ⟨hmem, rfl⟩ | h := h
    · exact absurd (List.contains_iff_mem.2 hmem) hbad
    · have other : ((s.setCs c (storeOf ClutchStore.init g)).wr Objs.clutch_image c g.image).rd Objs.clutch_state k =
          s.rd Objs.clutch_state k := DictUnit.rd_wr_other (by simp only [Obj.key]; omega) (by simp only [Obj.key, idKey]; omega)
      exact h.trans other.ge

theorem foldl_bootClutch_isolated (g : Golden) (bad : List Nat) {l : List Nat} (hl : ∀ c ∈ l, c < 16) (s : State) {k : Nat} (hk : k < 16)
    (h : k ∈ bad ∧ k ∈ l ∨ 3 ≤ s.rd Objs.clutch_state k) : 3 ≤ (l.foldl (State.bootClutch g bad) s).rd Objs.clutch_state k := by
  induction l generalizing s with
  | nil => exact h.resolve_left fun h => absurd h.2 List.not_mem_nil
  | cons c l ih =>
    refine ih (fun d hd => hl d (List.mem_cons_of_mem _ hd)) _ ?_
    obtain ⟨hbad, hmem⟩ | h := h
    · obtain rfl | hmem := List.mem_cons.1 hmem
      · exact .inr (s.bootClutch_isolated g bad hk hk (.inl ⟨hbad, rfl⟩))
      · exact .inl ⟨hbad, hmem⟩
    · exact .inr (s.bootClutch_isolated g bad (hl c List.mem_cons_self) hk (.inr h))

theorem State.bootClutches_isolated (s : State) (g : Golden) {bad : List Nat} {k : Nat} (hk : k < 16) (hbad : k ∈ bad) :
    3 ≤ (s.bootClutches g bad).rd Objs.clutch_state k :=
  foldl_bootClutch_isolated g bad (fun _ => List.mem_range.1) _ hk (.inl ⟨hbad, List.mem_range.2 hk⟩)

/-! ## Hue 0 (R69, R578) -/

theorem stageImage_ok {s t : State} {b : List Byte} {limit : Nat} (h : stageImage s b limit = (t, 0)) : t.dict = s.dict ∧ t.fm = s.fm := by
  have staged := stageSections_stages 0 (imgSectionList b) (s.stageValue 0 (imgId b))
  unfold stageImage at h
  split_ifs at h
  · exact absurd (Prod.mk.inj h).2 (by decide)
  · exact absurd (Prod.mk.inj h).2 (by decide)
  · exact absurd (Prod.mk.inj h).2 (by decide)
  · split at h
    next eq =>
      rw [eq, (Prod.mk.inj h).1] at staged
      exact ⟨staged.dict, staged.fm⟩
    · exact absurd (Prod.mk.inj h).2 (by decide)

/-- A boot's changes of bank 0 are of the shadow and the stores alone. -/
theorem State.freshBank0_units (s : State) : s.freshBank0.dict = s.dict ∧ s.freshBank0.fm = s.fm := by
  have stores := foldl_setCs_stages (fun s c => { s.cs c with disp := bootBank0 ++ (s.cs c).disp.filter (fun p => 256 ≤ p.1) }) (List.range 16)
    { s with hue := { s.hue with disp0 := bootBank0 } }
  exact ⟨stores.dict, stores.fm⟩

theorem State.settleBank0_units (s : State) : s.settleBank0.dict = s.dict ∧ s.settleBank0.fm = s.fm := by
  have stores := foldl_setCs_stages (fun s c => { s.cs c with disp := bootedBank0 (s.cs c).disp }) (List.range 16)
    { s with hue := { s.hue with disp0 := bootedBank0 s.hue.disp0 } }
  exact ⟨stores.dict, stores.fm⟩

/-- What an advance does once the active hue has been written: the time of the commit, the scrubber's pass, and the hues reclaimed. -/
theorem advanceHue_rest_keepsObjs {P : Nat → Prop} (htime : ¬ P (Objs.hue_commit_time.key 0)) (hscrub : ¬ P (Objs.hue_scrub_busy.key 0))
    (hold : ¬ P (Objs.hue_oldest.key 0)) (s : State) (x : Nat) (u : HueUnit) :
    KeepsObjs P s (Sys2Proof.Machine.reclaim 4 (({ s.wr Objs.hue_commit_time 0 x with hue := u } : State).wr Objs.hue_scrub_busy 0 1)) := by
  have time : KeepsObjs P s { s.wr Objs.hue_commit_time 0 x with hue := u } :=
    (s.wr_keepsObjs x htime (by decide)).trans (.of_units rfl rfl)
  exact (time.trans (State.wr_keepsObjs _ 1 hscrub (by decide))).trans (reclaim_keepsObjs hold 4 _)

/-- The objects of the clutches are as before, and the active hue is the one after that of `s`. -/
theorem State.advanceHue_effects (s : State) : KeepsObjs ThreadKey s s.advanceHue ∧ s.advanceHue.rd Objs.hue_active = s.hueN := by
  have named : KeepsObjs ThreadKey s ((s.wr Objs.hue_active_image 0 s.nextImage).wr Objs.hue_active 0 s.hueN) :=
    (s.wr_keepsObjs s.nextImage (o := Objs.hue_active_image) (by decide) (by decide)).trans
      (State.wr_keepsObjs _ s.hueN (o := Objs.hue_active) (by decide) (by decide))
  have rest := advanceHue_rest_keepsObjs (P := (· = Objs.hue_active.key 0)) (by decide) (by decide) (by decide)
    ((s.wr Objs.hue_active_image 0 s.nextImage).wr Objs.hue_active 0 s.hueN)
  rw [State.advanceHue]
  exact ⟨named.trans (advanceHue_rest_keepsObjs (by decide) (by decide) (by decide) ..),
    ((rest _ _).rd _ 0 rfl).trans (DictUnit.rd_wr_same (by decide))⟩

/-- The objects of the clutches are as before, and the active hue is 0. -/
theorem State.bootHue_effects {s t : State} {b : List Byte} {limit : Nat} (h : s.bootHue b limit = some t) :
    KeepsObjs ThreadKey s t ∧ t.rd Objs.hue_active = 0 := by
  have first : KeepsObjs ThreadKey s ((s.wr Objs.hue_active 0 65535).wr Objs.hue_oldest 0 65535) :=
    (s.wr_keepsObjs 65535 (by decide) (by decide)).trans (State.wr_keepsObjs _ 65535 (by decide) (by decide))
  have active : ((s.wr Objs.hue_active 0 65535).wr Objs.hue_oldest 0 65535).rd Objs.hue_active = 65535 :=
    (DictUnit.rd_wr_other (by decide) (by decide)).trans (DictUnit.rd_wr_same (by decide))
  unfold State.bootHue at h
  dsimp only at h
  generalize (s.wr Objs.hue_active 0 65535).wr Objs.hue_oldest 0 65535 = u at h first active
  split at h
  next v image =>
    obtain ⟨hdict, hfm⟩ := stageImage_ok image
    have staged : KeepsObjs ThreadKey u v.settleBank0 := .of_units
      ((v.settleBank0_units.1.trans hdict).trans u.freshBank0_units.1) ((v.settleBank0_units.2.trans hfm).trans u.freshBank0_units.2)
    have hn : v.settleBank0.hueN = 0 := by
      rw [State.hueN, State.hueActive, State.rd, v.settleBank0_units.1, hdict, u.freshBank0_units.1, ← State.rd, active]
    obtain ⟨kept, hactive⟩ := v.settleBank0.advanceHue_effects
    rw [← Option.some.inj h]
    refine ⟨(((first.trans staged).trans kept).trans (State.wr_keepsObjs _ 0 (by decide) (by decide))).trans
      (State.wr_keepsObjs _ 0 (by decide) (by decide)), ?_⟩
    rw [State.rd, State.wr_dict, State.wr_dict, DictUnit.rd_wr_other (by decide) (by decide), DictUnit.rd_wr_other (by decide) (by decide)]
    exact hactive.trans hn
  · exact absurd h (by simp)

end Sys2Proof.Machine
end

section
/-! The end of a boot (R579, R580): the ports, boot_status and ACTIVE, and the statement on the image buffer and the stopped boot. -/

namespace Sys2Proof.Machine

/-! ## Ports and the stream port (R35, R479) -/

/-- The keys of the objects of hues and clutches, and of boot_status and boot_slot. -/
abbrev BootKey (k : Nat) : Prop :=
  0x4000 * 256 ≤ k ∧ k < 0x4900 * 256 ∨ k = Objs.boot_status.key 0 ∨ k = Objs.boot_slot.key 0

theorem KeepsObjs.foldl_mem {P : Nat → Prop} {α : Type} {f : State → α → State} {l : List α} (h : ∀ s, ∀ a ∈ l, KeepsObjs P s (f s a))
    (s : State) : KeepsObjs P s (l.foldl f s) :=
  List.foldlRecOn (motive := KeepsObjs P s) l f (.refl s) fun t ht a ha => ht.trans (h t a ha)

/-- An object of a port. -/
theorem State.wr_port_keepsBoot (s : State) {o : Obj} (ho : o.m = 1 ∧ 0x2000 ≤ o.idx ∧ o.idx < 0x3000 ∧ o.sub < 256) {p : Nat}
    (hp : p < 256) (v : Nat) : KeepsObjs BootKey s (s.wr o p v) := by
  obtain ⟨hm, hlo, hhi, hsub⟩ := ho
  refine s.wr_keepsObjs v ?_ ?_ <;> simp only [Obj.key, hm, BootKey, idKey] <;> omega

theorem State.powerUp_keepsBoot (s : State) {p : Nat} (hp : p < 256) : KeepsObjs BootKey s (s.powerUp p) := by
  have link : KeepsObjs BootKey s (s.setLink p 1) := .ite (.refl s)
    ((s.wr_port_keepsBoot (o := Objs.link_state) (by decide) hp 1).trans (State.wr_port_keepsBoot _ (o := Objs.last_change) (by decide) hp _))
  exact (link.trans (State.wr_port_keepsBoot _ (o := Objs.lane_lock) (by decide) hp 0)).trans (.of_units rfl rfl)

theorem State.startPorts_keepsBoot (s : State) : KeepsObjs BootKey s s.startPorts := by
  have speed (t : State) : ∀ p ∈ List.range 256, KeepsObjs BootKey t
      (let v := speedOf (t.portMode p) (t.rd Objs.usx_speed p) 0
       if v = 0 then t else t.wr Objs.speed_active p v) := fun p hp =>
    .ite (.refl t) (t.wr_port_keepsBoot (o := Objs.speed_active) (by decide) (List.mem_range.1 hp) _)
  have start (t : State) : ∀ p ∈ List.range 256, KeepsObjs BootKey t
      (if t.isUp p then t.setPl p { t.pl p with since := t.fNs } else if t.rd Objs.admin_up p = 1 ∧ t.link p = 0 then t.powerUp p else t) :=
    fun p hp => .ite (.of_units rfl rfl) (.ite (t.powerUp_keepsBoot (List.mem_range.1 hp)) (.refl t))
  have told (l : List Nat) (t : State) : KeepsObjs BootKey t (l.foldl (fun (s : State) p => s.raise 12 p) t) :=
    .foldl (fun t p => t.raise_keepsObjs 12 p ..) l t
  rw [State.startPorts]
  exact ((KeepsObjs.foldl_mem speed s).trans (told ..)).trans (.foldl_mem start _)

theorem relink_keepsBoot (s : State) : KeepsObjs BootKey s (relink s) := by
  have told (t : State) (x : Nat) : KeepsObjs BootKey t (setLink t x) :=
    .trans (t.wr_keepsObjs (o := Objs.str_link_state) x (by decide) (by decide))
      (.ite (State.raise_keepsObjs ..) (.ite (State.raise_keepsObjs ..) (.refl _)))
  exact .ite (told ..) (.ite (.of_updated (told ..) rfl rfl) (.ite (told ..) (told ..)))

/-! ## ACTIVE (R544, R579) -/

theorem State.passOut_keepsBoot (s : State) (all : Bool) : KeepsObjs BootKey s (s.passOut all) := by
  have sent (q : Nat) (t : State) (f : List Byte × Nat) : KeepsObjs BootKey t (t.passSent q f) :=
    .of_updated (State.bump_keepsObjs _ (o := Objs.pass_frames) (i := 0) 1 (by decide) (by decide)) rfl rfl
  unfold State.passOut
  split
  · exact .refl s
  · exact .of_updated ((KeepsObjs.foldl (sent _) _ _).trans (.foldl (sent _) _ _)) rfl rfl

theorem State.nowActive_effects (s : State) :
    (∀ o i, BootKey (o.key i) → s.nowActive.rd o i = s.rd o i) ∧ s.nowActive.rd Objs.power_state = 0 ∧ s.nowActive.eft.phase = .running := by
  have passed := s.passOut_keepsBoot true
  unfold State.nowActive
  dsimp only
  generalize s.passOut true = u at passed ⊢
  refine ⟨fun o i hk => ?_, ?_, rfl⟩
  · have power : Objs.power_state.key 0 ≠ o.key i := by rintro he; rw [← he] at hk; revert hk; decide
    have reset : Objs.last_reset.key 0 ≠ o.key i := by rintro he; rw [← he] at hk; revert hk; decide
    exact (DictUnit.rd_wr_other reset (by decide)).trans ((DictUnit.rd_wr_other power (by decide)).trans (passed.rd o i hk))
  · exact (DictUnit.rd_wr_other (by decide) (by decide)).trans (DictUnit.rd_wr_same (by decide))

theorem State.croakBooted_effects (s : State) (failed : Bool) :
    (∀ o i, Objs.croak_level.key 0 ≠ o.key i → (s.croakBooted failed).rd o i = s.rd o i) ∧ (s.croakBooted failed).eft = s.eft := by
  have written (c : Croak) (o : Obj) (i : Nat) (h : Objs.croak_level.key 0 ≠ o.key i) : (s.setCroak c).rd o i = s.rd o i :=
    DictUnit.rd_wr_other h (by decide)
  unfold State.croakBooted
  split_ifs
  · exact ⟨written _, rfl⟩
  · exact ⟨written _, rfl⟩
  · exact ⟨written _, rfl⟩
  · exact ⟨fun _ _ _ => rfl, rfl⟩

/-- A boot's end: boot_status and boot_slot, ACTIVE, and the objects of hues and clutches as before. -/
theorem State.bootDone_effects (s : State) (slot : Nat) :
    (∀ o i, 0x4000 * 256 ≤ o.key i → o.key i < 0x4900 * 256 → (s.bootDone slot).rd o i = s.rd o i) ∧
      (s.bootDone slot).rd Objs.boot_status = 3 ∧ (s.bootDone slot).rd Objs.boot_slot = slot ∧
      (s.bootDone slot).rd Objs.power_state = 0 ∧ (s.bootDone slot).eft.phase = .running := by
  have started := s.startPorts_keepsBoot.trans (relink_keepsBoot _)
  rw [State.bootDone]
  generalize relink s.startPorts = u at started ⊢
  obtain ⟨hrd, hpower, hphase⟩ := ((u.wr Objs.boot_status 0 3).wr Objs.boot_slot 0 slot).nowActive_effects
  obtain ⟨hcroak, heft⟩ := ((u.wr Objs.boot_status 0 3).wr Objs.boot_slot 0 slot).nowActive.croakBooted_effects false
  refine ⟨fun o i hlo hhi => ?_, ?_, ?_, ?_, ?_⟩
  · rw [hcroak o i (by simp only [Obj.key] at hhi ⊢; omega), hrd o i (.inl ⟨hlo, hhi⟩), State.rd, State.wr_dict, State.wr_dict,
      DictUnit.rd_wr_other (by simp only [Obj.key] at hhi ⊢; omega) (by decide),
      DictUnit.rd_wr_other (by simp only [Obj.key] at hhi ⊢; omega) (by decide)]
    exact started.rd o i (.inl ⟨hlo, hhi⟩)
  · rw [hcroak _ _ (by decide), hrd _ _ (by decide)]
    exact (DictUnit.rd_wr_other (by decide) (by decide)).trans (DictUnit.rd_wr_same (by decide))
  · rw [hcroak _ _ (by decide), hrd _ _ (by decide)]
    exact DictUnit.rd_wr_same (by decide)
  · rw [hcroak _ _ (by decide), hpower]
  · rw [heft, hphase]

/-! ## boot_go (R580) -/

theorem KeepsObjs.clutchState {s t : State} (h : KeepsObjs ThreadKey s t) {c : Nat} (hc : c < 16) :
    t.rd Objs.clutch_state c = s.rd Objs.clutch_state c := h.rd _ c (by simp only [Obj.key, ThreadKey]; omega)

/-- A boot that both images let go on loads a content into the clutches, then makes hue 0. -/
theorem State.bootHue_of_bootLoad {s t : State} {full hue : List Byte} {bad : List Nat} (h : s.bootLoad full hue bad = some t) :
    ∃ g, (s.bootClutches g bad).bootHue hue hue.length = some t := by
  unfold State.bootLoad at h
  split at h
  · exact absurd h (by simp)
  next g _ =>
    split_ifs at h
    exact ⟨g, h⟩

theorem State.bootLoad_of_loadedBoot {s t : State} {bad : List Nat} (h : s.loadedBoot bad = some t) :
    ∃ full hue, s.bootLoad full hue bad = some t := by
  unfold State.loadedBoot at h
  split at h
  · exact ⟨_, _, h⟩
  · exact absurd h (by simp)

/-- The clutches that are bad are isolated, and the active hue is 0. -/
theorem State.loadedBoot_effects {s t : State} {bad : List Nat} (h : s.loadedBoot bad = some t) :
    (∀ k < 16, k ∈ bad → 3 ≤ t.rd Objs.clutch_state k) ∧ t.rd Objs.hue_active = 0 := by
  obtain ⟨full, hue, hload⟩ := State.bootLoad_of_loadedBoot h
  obtain ⟨g, hhue⟩ := State.bootHue_of_bootLoad hload
  obtain ⟨kept, hactive⟩ := State.bootHue_effects hhue
  exact ⟨fun k hk hbad => (s.bootClutches_isolated g hk hbad).trans (kept.clutchState hk).ge, hactive⟩

theorem bootGo_effects {c : Ctx} {s : State} {bad : List (Fin 16)} (hacc : Accepted c Objs.boot_go 0 [1] bootGoCheck s)
    (hboot : ((acceptBase c Objs.boot_go 0 [1] s).loadedBoot (bad.map (·.val))).isSome = true) :
    ∃ t, exec (.bootGo c bad) s = .next t ∧ (∀ k ∈ bad, 3 ≤ t.rd Objs.clutch_state k) ∧ Answered c Objs.boot_go 0 .ok t ∧
      t.rd Objs.boot_status = 3 ∧ t.rd Objs.boot_slot = 3 ∧ t.rd Objs.power_state = 0 ∧ t.rd Objs.hue_active = 0 ∧
      t.eft.phase = .running := by
  obtain ⟨u, hu⟩ := Option.isSome_iff_exists.1 hboot
  have hexec : exec (.bootGo c bad) s = .next ((u.bootDone 3).put (.answer c (Objs.boot_go.key 0 / 256) (Objs.boot_go.key 0 % 256) 0 [])) := by
    have hgo : bootGoApply (bad.map (·.val)) (acceptBase c Objs.boot_go 0 [1] s) = u.bootDone 3 := by rw [bootGoApply, hu]
    rw [← hgo]
    exact congrArg Host.Outcome.next (writeObj_accepted hacc.1 hacc.2)
  obtain ⟨hisolated, hactive⟩ := State.loadedBoot_effects hu
  obtain ⟨hkeeps, hstatus, hslot, hpower, hphase⟩ := u.bootDone_effects 3
  refine ⟨_, hexec, fun k hk => ?_, answered_ok .., ?_⟩
  · rw [State.put_rd, hkeeps _ _ (by simp only [Obj.key]; omega) (by simp only [Obj.key]; omega)]
    exact hisolated k k.isLt (List.mem_map_of_mem hk)
  · rw [State.put_rd, State.put_rd, State.put_rd, State.put_rd, State.put_eft, hkeeps Objs.hue_active 0 (by decide) (by decide)]
    exact ⟨hstatus, hslot, hpower, hactive, hphase⟩

/-- Settles O26: each clause is one of the effects above; of a boot's steps none but the isolation of its own clutch moves a clutch's
state, and none after the advance to hue 0 the active hue. -/
theorem imageBufferBankZeroAndBoot : Obligations.ImageBufferBankZeroAndBoot := by
  intro c v s
  exact ⟨csBufData_effects, fun k x h => ⟨_, rfl, claimExpiry_effects h⟩, disp0Stage_effects, bootLoadFull_effects, bootLoadHue_effects,
    fun bad => bootGo_effects⟩

end Sys2Proof.Machine
end

section
/-! Records in their places (R216 to R229): what the writes of the flow store leave of the rest of the state, and what each place then holds. -/

namespace Sys2Proof.Machine

/-! ## The relation -/

/-- `t` differs from `s` at most in the records in their places, BKT_ALT, the controllers of HBM, and what has been raised. -/
def MovesRecords (s t : State) : Prop :=
  ∃ slots stash alt hbm fm, t = { s with fsu := { s.fsu with slots := slots, stash := stash, bktAlt := alt }, hbm := hbm, fm := fm }

namespace MovesRecords

variable {s t u : State}

theorem refl (s : State) : MovesRecords s s := ⟨_, _, _, _, _, rfl⟩

theorem trans (h : MovesRecords s t) (h' : MovesRecords t u) : MovesRecords s u := by
  obtain ⟨_, _, _, _, _, rfl⟩ := h
  obtain ⟨_, _, _, _, _, rfl⟩ := h'
  exact ⟨_, _, _, _, _, rfl⟩

theorem ite {c : Prop} [Decidable c] (ht : MovesRecords s t) (hu : MovesRecords s u) : MovesRecords s (if c then t else u) := by
  split
  · exact ht
  · exact hu

theorem foldl {α : Type} {f : State → α → State} (h : ∀ s a, MovesRecords s (f s a)) (l : List α) (s : State) : MovesRecords s (l.foldl f s) :=
  List.foldlRecOn (motive := MovesRecords s) l f (refl s) fun t ht a _ => ht.trans (h t a)

theorem dict (h : MovesRecords s t) : t.dict = s.dict := by
  obtain ⟨_, _, _, _, _, rfl⟩ := h
  rfl

theorem sk (h : MovesRecords s t) : t.sk = s.sk := by
  obtain ⟨_, _, _, _, _, rfl⟩ := h
  rfl

theorem cu (h : MovesRecords s t) : t.cu = s.cu := by
  obtain ⟨_, _, _, _, _, rfl⟩ := h
  rfl

theorem lines (h : MovesRecords s t) : t.fsu.lines = s.fsu.lines := by
  obtain ⟨_, _, _, _, _, rfl⟩ := h
  rfl

theorem placeServes (h : MovesRecords s t) (p : Nat) : t.placeServes p = s.placeServes p := by
  rw [State.placeServes, State.placeServes, State.pcServes, State.pcServes, State.pcState, State.pcState, State.rd, State.rd, h.dict]

end MovesRecords

/-! ## Writes of bursts (R220, R225) -/

theorem State.pcRefuses_of_serves {s : State} {p : Nat} (h : s.pcServes p = true) : s.pcRefuses p = false := by
  simp only [State.pcServes, beq_iff_eq] at h
  simp [State.pcRefuses, h]

/-- The FSU writes where the pseudo-channel serves, so no write of its is lost at once. -/
theorem State.fsuWrite_frame (s : State) (b off : Nat) (u : HbmUndo) : ∃ h, s.fsuWrite b off u = { s with hbm := h } := by
  unfold State.fsuWrite
  split
  next h =>
    rw [State.hbmWrite, State.pcRefuses_of_serves h]
    exact ⟨_, rfl⟩
  · exact ⟨_, rfl⟩

theorem State.fsuWrite_moves (s : State) (b off : Nat) (u : HbmUndo) : MovesRecords s (s.fsuWrite b off u) := by
  obtain ⟨h, he⟩ := s.fsuWrite_frame b off u
  rw [he]
  exact ⟨_, _, _, _, _, rfl⟩

theorem State.fsuWrite_fsu (s : State) (b off : Nat) (u : HbmUndo) : (s.fsuWrite b off u).fsu = s.fsu := by
  obtain ⟨h, he⟩ := s.fsuWrite_frame b off u
  rw [he]

theorem State.slotWrites_moves (s : State) (i old img : Nat) : MovesRecords s (s.slotWrites i old img) :=
  .foldl (fun t _ => t.fsuWrite_moves ..) _ s

theorem State.slotWrites_fsu (s : State) (i old img : Nat) : (s.slotWrites i old img).fsu = s.fsu :=
  List.foldlRecOn (motive := fun t : State => t.fsu = s.fsu) _ _ rfl fun t ht _ _ => (t.fsuWrite_fsu ..).trans ht

theorem State.setAlt_moves (s : State) (b n : Nat) : MovesRecords s (s.setAlt b n) := by
  have counted : MovesRecords s { s with fsu := { s.fsu with bktAlt := tset 0 s.fsu.bktAlt b n } } := ⟨_, _, _, _, _, rfl⟩
  exact .ite counted (.ite (counted.trans (State.fsuWrite_moves ..)) (.refl s))

/-- BKT_ALT is no part of a place. -/
theorem State.setAlt_fsu (s : State) (b n : Nat) : ∃ a, (s.setAlt b n).fsu = { s.fsu with bktAlt := a } := by
  unfold State.setAlt
  dsimp only
  split_ifs
  · exact ⟨_, rfl⟩
  · exact ⟨_, State.fsuWrite_fsu ..⟩
  · exact ⟨_, rfl⟩

/-! ## Places (R217, R225) -/

theorem State.homeImg_congr {s t : State} (hslots : t.fsu.slots = s.fsu.slots) (hstash : t.fsu.stash = s.fsu.stash) (p : Nat) :
    t.homeImg p = s.homeImg p := by
  rw [State.homeImg, State.homeImg, hslots, hstash]

theorem State.setAlt_homeImg (s : State) (b n p : Nat) : (s.setAlt b n).homeImg p = s.homeImg p := by
  obtain ⟨a, h⟩ := s.setAlt_fsu b n
  exact State.homeImg_congr (by rw [h]) (by rw [h]) p

theorem State.setHome_moves (s : State) (p img : Nat) : MovesRecords s (s.setHome p img) := by
  have slot (x : Tab Nat) : MovesRecords s { s with fsu := { s.fsu with slots := x } } := ⟨_, _, _, _, _, rfl⟩
  have stash (x : Tab Nat) : MovesRecords s { s with fsu := { s.fsu with stash := x } } := ⟨_, _, _, _, _, rfl⟩
  exact .ite (.ite (.refl s) ((slot _).trans (State.slotWrites_moves ..))) (.ite ((stash _).trans ⟨_, _, _, _, _, rfl⟩) (stash _))

/-- A slot of a pseudo-channel that serves takes an image. -/
theorem State.setHome_slot {s : State} {p : Nat} (hp : p < stashBase) (hserves : s.placeServes p = true) (img : Nat) :
    (s.setHome p img).fsu = { s.fsu with slots := tput p img s.fsu.slots } := by
  have serves : s.pcServes (bucketPc (p / 2)) = true := by simpa [State.placeServes, Nat.not_le.2 hp] using hserves
  rw [State.setHome, if_pos hp, if_neg (by simp [serves])]
  exact State.slotWrites_fsu ..

theorem State.clearHome_moves (s : State) (p : Nat) : MovesRecords s (s.clearHome p) := by
  have slot (x : Tab Nat) : MovesRecords s { s with fsu := { s.fsu with slots := x } } := ⟨_, _, _, _, _, rfl⟩
  refine .ite ?_ ⟨_, _, _, _, _, rfl⟩
  split
  · exact .refl s
  · exact .ite (.refl s) ((slot _).trans (State.fsuWrite_moves ..))

theorem tfind_of_tdel {α : Type} {t : Tab α} {j k : Nat} {v : α} (h : tfind (tdel j t) k = some v) : tfind t k = some v := by
  obtain rfl | hne := eq_or_ne j k
  · rw [tfind_tdel_same] at h
    exact absurd h (by simp)
  · rwa [tfind_tdel_other hne] at h

/-- No place gains a record from `s` to `t`. -/
def LosesRecords (s t : State) : Prop := ∀ p r, t.homeImg p = some r → s.homeImg p = some r

theorem LosesRecords.trans {s t u : State} (h : LosesRecords s t) (h' : LosesRecords t u) : LosesRecords s u :=
  fun p r hr => h p r (h' p r hr)

theorem LosesRecords.empty {s t : State} (h : LosesRecords s t) {p : Nat} (hp : s.homeImg p = none) : t.homeImg p = none :=
  Option.eq_none_iff_forall_ne_some.2 fun r hr => absurd (hp.symm.trans (h p r hr)) (by simp)

theorem LosesRecords.of_fsu {s t : State} (h : t.fsu = s.fsu) : LosesRecords s t := fun p _ hr =>
  (State.homeImg_congr (by rw [h]) (by rw [h]) p).symm.trans hr

theorem LosesRecords.foldl {α : Type} {f : State → α → State} (h : ∀ s a, LosesRecords s (f s a)) (l : List α) (s : State) :
    LosesRecords s (l.foldl f s) :=
  List.foldlRecOn (motive := LosesRecords s) l f (fun _ _ hr => hr) fun t ht a _ => ht.trans (h t a)

theorem State.clearHome_loses (s : State) (q : Nat) : LosesRecords s (s.clearHome q) := by
  have slot : LosesRecords s { s with fsu := { s.fsu with slots := tdel q s.fsu.slots } } := fun p r hr => by
    unfold State.homeImg at hr ⊢
    split at hr
    next hp => rw [if_pos hp, tfind_of_tdel hr]
    next hp => rw [if_neg hp, hr]
  unfold State.clearHome
  split
  · split
    · exact .of_fsu rfl
    · split
      · exact .of_fsu rfl
      · exact slot.trans (.of_fsu (State.fsuWrite_fsu ..))
  · intro p r hr
    unfold State.homeImg at hr ⊢
    split at hr
    next hp => rw [if_pos hp, hr]
    next hp => rw [if_neg hp, tfind_of_tdel hr]

theorem State.clearHome_empty {s : State} {p : Nat} (hserves : s.placeServes p = true) : (s.clearHome p).homeImg p = none := by
  by_cases hp : p < stashBase
  · have serves : s.pcServes (bucketPc (p / 2)) = true := by simpa [State.placeServes, Nat.not_le.2 hp] using hserves
    unfold State.homeImg
    rw [if_pos hp, State.clearHome, if_pos hp]
    split
    next h => exact h
    · rw [if_neg (by simp [serves]), State.fsuWrite_fsu]
      exact tfind_tdel_same ..
  · rw [State.homeImg, if_neg hp, State.clearHome, if_neg hp]
    exact tfind_tdel_same ..

/-! ## Copies of a record (R220, R229, R232) -/

theorem State.dropCopy_moves (s : State) (key p : Nat) : MovesRecords s (s.dropCopy key p) := by
  unfold State.dropCopy
  split
  · exact .refl s
  · exact .ite (.ite ((s.clearHome_moves p).trans (State.setAlt_moves ..)) (s.clearHome_moves p)) (.refl s)

/-- A copy is dropped by the clearing of its place. -/
theorem State.dropCopy_cases (s : State) (key p : Nat) :
    (s.dropCopy key p = s ∧ ∀ r, s.homeImg p = some r → recKey r = key → s.placeServes p = false) ∨
      ∀ q, (s.dropCopy key p).homeImg q = (s.clearHome p).homeImg q := by
  unfold State.dropCopy
  split
  next h => exact .inl ⟨rfl, fun r hr => absurd (h.symm.trans hr) (by simp)⟩
  next r h =>
    split
    · refine .inr fun q => ?_
      dsimp only
      split
      · exact State.setAlt_homeImg ..
      · rfl
    next hne =>
      refine .inl ⟨rfl, fun x hx hkey => ?_⟩
      obtain rfl := Option.some.inj (h.symm.trans hx)
      simpa [hkey] using hne

theorem State.dropCopy_empty {s : State} {key p : Nat} (hkey : ∀ r, s.homeImg p = some r → recKey r = key)
    (hserves : s.placeServes p = true) : (s.dropCopy key p).homeImg p = none := by
  obtain ⟨he, hrefuses⟩ | he := s.dropCopy_cases key p
  · rw [he]
    refine Option.eq_none_iff_forall_ne_some.2 fun r hr => ?_
    rw [hrefuses r hr (hkey r hr)] at hserves
    exact absurd hserves (by decide)
  · rw [he]
    exact State.clearHome_empty hserves

theorem State.dropCopy_loses (s : State) (key q : Nat) : LosesRecords s (s.dropCopy key q) := by
  obtain ⟨he, -⟩ | he := s.dropCopy_cases key q
  · rw [he]
    exact fun _ _ hr => hr
  · exact fun p r hr => s.clearHome_loses q p r ((he p).symm.trans hr)

theorem State.putRec_moves (s : State) (key home img : Nat) : MovesRecords s (s.putRec key home img) :=
  .foldl (fun t p => t.setHome_moves p _) _ s

theorem State.placeRec_moves (s : State) (key p img : Nat) : MovesRecords s (s.placeRec key p img) := by
  have counted : MovesRecords s (if s.altAt key p then s.bktInc (s.flowBuckets key).1 else s) := by
    split
    · exact s.setAlt_moves ..
    · exact .refl s
  exact counted.trans (State.setHome_moves ..)

/-- A new record in a slot stands there with its own ALT; every other part of the FSU but BKT_ALT is as before. -/
theorem State.placeRec_slot {s : State} {p : Nat} (hp : p < stashBase) (hserves : s.placeServes p = true) (key img : Nat) :
    ∃ a, (s.placeRec key p img).fsu =
      { s.fsu with bktAlt := a, slots := tput p (setFld img 486 1 (b2n (s.altAt key p))) s.fsu.slots } := by
  unfold State.placeRec
  dsimp only
  split
  next h =>
    obtain ⟨a, ha⟩ := s.setAlt_fsu (s.flowBuckets key).1 (min (tget 0 s.fsu.bktAlt (s.flowBuckets key).1 + 1) 255)
    refine ⟨a, ?_⟩
    rw [State.bktInc, State.setHome_slot hp (by rw [(State.setAlt_moves ..).placeServes]; exact hserves), ha]
  · exact ⟨_, State.setHome_slot hp hserves _⟩

theorem State.delCopies_moves (s : State) (key : Nat) : MovesRecords s (s.delCopies key) := by
  have copies := MovesRecords.foldl (fun t p => State.dropCopy_moves t key p) (bucketSlots (s.flowBuckets key)) s
  unfold State.delCopies
  dsimp only
  split
  · exact copies.trans (State.clearHome_moves ..)
  · exact copies

/-- Copies dropped one after another: a place of the record among them is empty in the end. -/
theorem foldl_dropCopy_empty {key home : Nat} {l : List Nat} {s : State} (hmem : home ∈ l)
    (hkey : ∀ r, s.homeImg home = some r → recKey r = key) (hserves : s.placeServes home = true) :
    (l.foldl (fun s p => s.dropCopy key p) s).homeImg home = none := by
  obtain ⟨front, rest, rfl⟩ := List.append_of_mem hmem
  have dropped (l : List Nat) (t : State) : LosesRecords t (l.foldl (fun s p => s.dropCopy key p) t) :=
    .foldl (fun t p => t.dropCopy_loses key p) l t
  rw [List.foldl_append, List.foldl_cons]
  refine (dropped rest _).empty (State.dropCopy_empty (fun r hr => hkey r (dropped front s home r hr)) ?_)
  rw [(MovesRecords.foldl (fun t p => t.dropCopy_moves key p) front s).placeServes]
  exact hserves

/-- The home of a key is its place in the stash, or a slot of one of its buckets. -/
theorem State.homeOf_cases {s : State} {key home : Nat} (h : s.homeOf key = some home) :
    s.stashFind key = some home ∨ s.stashFind key = none ∧ home ∈ bucketSlots (s.flowBuckets key) := by
  unfold State.homeOf State.copies at h
  cases hstash : s.stashFind key with
  | some p =>
    rw [hstash] at h
    exact .inl h
  | none =>
    rw [hstash, Option.toList_none, List.nil_append] at h
    exact .inr ⟨rfl, List.mem_of_mem_filter (List.mem_of_mem_head? h)⟩

theorem State.delCopies_home {s : State} {key home : Nat} (hhome : s.homeOf key = some home)
    (hkey : ∀ r, s.homeImg home = some r → recKey r = key) (hserves : s.placeServes home = true) :
    (s.delCopies key).homeImg home = none := by
  have dropped := MovesRecords.foldl (fun t p => State.dropCopy_moves t key p) (bucketSlots (s.flowBuckets key)) s
  unfold State.delCopies
  obtain hstash | ⟨hstash, hmem⟩ := State.homeOf_cases hhome
  · rw [hstash]
    exact State.clearHome_empty (by rw [dropped.placeServes]; exact hserves)
  · rw [hstash]
    exact foldl_dropCopy_empty hmem hkey hserves

theorem State.delRec_of_uncached {s : State} {key : Nat} (h : s.line key = none) : s.delRec key = s.delPlaces key := by
  have uncached : (s.delPlaces key).line key = none := by rw [State.line, State.delPlaces, (s.delCopies_moves key).lines]; exact h
  rw [State.delRec_eq, uncached]

end Sys2Proof.Machine
end

section
/-! Binds that wait for their answers (R174, R221 to R224): what a lookup leaves of the leaps of all threads, and the answer that each of its
ends gives to the binds of its key. -/

namespace Sys2Proof.Machine

/-! ## Threads and handles -/

theorem tfind_map {α β : Type} {f : Nat × α → Nat × β} (hf : ∀ p, (f p).1 = p.1) (t : Tab α) (k : Nat) :
    tfind (t.map f) k = (tfind t k).map (fun v => (f (k, v)).2) := by
  induction t with
  | nil => rfl
  | cons p t ih =>
    rw [List.map_cons, show f p = (p.1, (f p).2) from Prod.ext (hf p) rfl]
    unfold tfind
    split
    next h =>
      rw [h]
      rfl
    · exact ih

theorem tfind_mem {α : Type} {t : Tab α} {k : Nat} {v : α} (h : tfind t k = some v) : (k, v) ∈ t := by
  induction t with
  | nil => exact absurd h (by simp)
  | cons p t ih =>
    unfold tfind at h
    split at h
    next hk =>
      rw [hk, ← Option.some.inj h]
      exact List.mem_cons_self ..
    · exact List.mem_cons_of_mem _ (ih h)

/-- A thread that is not FREE as from reset is listed. -/
theorem State.th_mem {s : State} {k : Nat} (h : s.th k ≠ Thread.init) : (k, s.th k) ∈ s.sk.threads := by
  unfold State.th tget at h ⊢
  cases hfind : tfind s.sk.threads k with
  | none => exact absurd (by rw [hfind]; rfl) h
  | some x => exact tfind_mem hfind

theorem State.th_setTh_other {k j : Nat} (h : k ≠ j) (s : State) (x : Thread) : (s.setTh k x).th j = s.th j := tget_tset_other h ..

/-! ## What the leaps have bound -/

/-- Every thread's leap is used and binds the same records under the same handles in `t` as in `s`. -/
def KeepsBound (s t : State) : Prop :=
  ∀ k, (t.th k).leap.used = (s.th k).leap.used ∧ ∀ n, ((t.th k).handle n).map (·.key) = ((s.th k).handle n).map (·.key)

namespace KeepsBound

variable {s t u : State}

theorem of_sk (h : t.sk = s.sk) : KeepsBound s t := fun k => by
  rw [State.th_sk h]
  exact ⟨rfl, fun _ => rfl⟩

theorem refl (s : State) : KeepsBound s s := of_sk rfl

theorem trans (h : KeepsBound s t) (h' : KeepsBound t u) : KeepsBound s u :=
  fun k => ⟨(h' k).1.trans (h k).1, fun n => ((h' k).2 n).trans ((h k).2 n)⟩

theorem ite {c : Prop} [Decidable c] (ht : KeepsBound s t) (hu : KeepsBound s u) : KeepsBound s (if c then t else u) := by
  split
  · exact ht
  · exact hu

theorem foldl {α : Type} {f : State → α → State} (h : ∀ s a, KeepsBound s (f s a)) (l : List α) (s : State) : KeepsBound s (l.foldl f s) :=
  List.foldlRecOn (motive := KeepsBound s) l f (refl s) fun t ht a _ => ht.trans (h t a)

/-- A change of a thread outside its leap. -/
theorem modTh (s : State) (k : Nat) {f : Thread → Thread} (hf : ∀ x, (f x).leap = x.leap) : KeepsBound s (s.modTh k f) := fun j => by
  obtain rfl | hne := eq_or_ne k j
  · rw [State.modTh, State.th_setTh_same]
    exact ⟨by rw [hf], fun n => by rw [Thread.handle, Thread.handle, hf]⟩
  · rw [State.modTh, State.th_setTh_other hne]
    exact ⟨rfl, fun _ => rfl⟩

end KeepsBound

/-! ## Answers (R174) -/

theorem bindAnswer_handle (key : Nat) (st : BindSt) (code gen seen : Nat) (x : Thread) (n : Nat) :
    (bindAnswer key st code gen seen x).handle n =
      (x.handle n).map (fun h => if h.key = key ∧ h.st = .pending then { h with st := st, gen := gen, seen := seen } else h) := by
  refine (tfind_map (fun p => ?_) _ _).trans (congrArg (Option.map · _) (funext fun h => ?_))
  · split <;> rfl
  · split <;> rfl

theorem State.th_answerBinds (s : State) (key : Nat) (st : BindSt) (code gen seen k : Nat) :
    (s.answerBinds key st code gen seen).th k = bindAnswer key st code gen seen (s.th k) := by
  have found : tfind (s.answerBinds key st code gen seen).sk.threads k = (tfind s.sk.threads k).map (bindAnswer key st code gen seen) :=
    tfind_map (f := fun p => (p.1, bindAnswer key st code gen seen p.2)) (fun _ => rfl) _ _
  unfold State.th tget
  rw [found]
  cases tfind s.sk.threads k <;> rfl

/-- The binds of `key` that wait in `s` have their answer in `t`: a result and the state of their handles. -/
def Answers (key code : Nat) (st : BindSt) (s t : State) : Prop := ∃ gen seen, ∀ k, t.th k = bindAnswer key st code gen seen (s.th k)

namespace Answers

variable {key code : Nat} {st : BindSt} {s t u : State}

theorem of_sk (h : Answers key code st t u) (hsk : t.sk = s.sk) : Answers key code st s u := by
  obtain ⟨gen, seen, h⟩ := h
  exact ⟨gen, seen, fun k => by rw [h, State.th_sk hsk]⟩

theorem sk (h : Answers key code st s t) (hsk : u.sk = t.sk) : Answers key code st s u := by
  obtain ⟨gen, seen, h⟩ := h
  exact ⟨gen, seen, fun k => by rw [State.th_sk hsk, h]⟩

theorem keepsBound (h : Answers key code st s t) : KeepsBound s t := fun k => by
  obtain ⟨gen, seen, h⟩ := h
  rw [h k]
  refine ⟨rfl, fun n => ?_⟩
  rw [bindAnswer_handle, Option.map_map]
  refine congrArg (Option.map · _) (funext fun x => ?_)
  dsimp only [Function.comp_apply]
  split <;> rfl

theorem bindsEnd (h : Answers key code st s t) : BindsEnd key code st s t := by
  intro k i n x p hp hbind hx hkey hpending
  obtain ⟨gen, seen, h⟩ := h
  rw [h k, bindAnswer_handle, hx]
  have waits : (match tfind (s.th k).leap.handles n with
      | some y => y.key == key && decide (y.st = .pending)
      | none => false) = true := by
    rw [show tfind (s.th k).leap.handles n = some x from hx]
    simp [hkey, hpending]
  constructor
  · rw [bindAnswer, List.getElem?_map, hp, Option.map_some, hbind]
    exact congrArg some (if_pos waits)
  · rw [Option.map_some, if_pos ⟨hkey, hpending⟩]
    rfl

end Answers

/-- Where no bind of a key waits, none is left without its answer. -/
theorem bindsEnd_of_none_waits {key : Nat} {s : State} (h : s.bindsWaiting key = 0) (code : Nat) (st : BindSt) (t : State) :
    BindsEnd key code st s t := by
  intro k i n x p hp hbind hx hkey hpending
  have listed : (k, s.th k) ∈ s.sk.threads := State.th_mem fun hinit => by
    rw [hinit] at hp
    exact absurd hp (by simp [Thread.init])
  have count : (s.sk.threads.map (fun t =>
      (t.2.leap.handles.filter (fun h => h.2.key = key && decide (h.2.st = .pending))).length)).sum = 0 := by
    rw [← h, State.bindsWaiting, List.sum_eq_foldl, List.foldl_map]
  have none_waits := List.sum_eq_zero_iff.1 count _ (List.mem_map_of_mem listed)
  have waits : (n, x) ∈ (s.th k).leap.handles.filter (fun h => h.2.key = key && decide (h.2.st = .pending)) :=
    List.mem_filter.2 ⟨tfind_mem hx, by simp [hkey, hpending]⟩
  rw [List.length_eq_zero_iff.1 none_waits] at waits
  exact absurd waits List.not_mem_nil

/-! ## Lines of the flow cache (R223, R224) -/

theorem State.touchLine_effects {s : State} {key : Nat} {l : Line} (h : s.line key = some l) :
    (s.touchLine key).sk = s.sk ∧ ∃ n, (s.touchLine key).line key = some { l with used := n } := by
  unfold State.touchLine
  rw [h]
  exact ⟨rfl, _, tfind_tput_same ..⟩

theorem State.evict_sk (s : State) (key : Nat) (l : Line) : (s.evict key l).sk = s.sk := by
  unfold State.evict
  dsimp only
  split
  · rfl
  · split
    · exact (State.putRec_moves ..).sk
    · rfl

/-- A line that is allocated holds what it was allocated for. -/
theorem State.allocLine_effects {s t : State} {key : Nat} {l : Line} (h : s.allocLine key l = some t) :
    t.sk = s.sk ∧ ∃ x, t.line key = some x ∧ x.st = l.st := by
  have put (u : State) (l : Line) (hu : u.sk = s.sk) :
      ((u.setLine key l).touchLine key).sk = s.sk ∧ ∃ x, ((u.setLine key l).touchLine key).line key = some x ∧ x.st = l.st := by
    obtain ⟨hsk, n, hline⟩ := State.touchLine_effects (s := u.setLine key l) (l := l) (tfind_tput_same ..)
    exact ⟨hsk.trans hu, _, hline, rfl⟩
  unfold State.allocLine at h
  dsimp only at h
  split at h
  · exact Option.some.inj h ▸ put s { l with overflow := false } rfl
  · split at h
    · exact Option.some.inj h ▸ put _ { l with overflow := false } (s.evict_sk ..)
    · split_ifs at h
      exact Option.some.inj h ▸ put s { l with overflow := true } rfl

theorem State.answerFromLine_absent {s : State} {key : Nat} {l : Line} (h : s.line key = some l) (hst : l.st = .absent) :
    Answers key 1 .absent s (s.answerFromLine key) := by
  unfold State.answerFromLine
  simp only [h, hst, if_true]
  exact .of_sk ⟨_, _, State.th_answerBinds _ key .absent 1 _ _⟩ (State.touchLine_effects h).1

theorem State.answerFromLine_found {s : State} {key : Nat} {l : Line} (h : s.line key = some l) (hst : l.st ≠ .absent) :
    Answers key 0 .found s (s.answerFromLine key) := by
  unfold State.answerFromLine
  simp only [h, hst, if_false]
  exact .of_sk ⟨_, _, State.th_answerBinds _ key .found 0 _ _⟩ (State.touchLine_effects h).1

theorem State.answerFromLine_keepsBound (s : State) (key : Nat) : KeepsBound s (s.answerFromLine key) := by
  cases h : s.line key with
  | none =>
    rw [State.answerFromLine, h]
    exact .refl s
  | some l =>
    by_cases hst : l.st = .absent
    · exact (State.answerFromLine_absent h hst).keepsBound
    · exact (State.answerFromLine_found h hst).keepsBound

/-! ## The ends of a lookup (R221, R226) -/

theorem State.delRec_sk (s : State) (key : Nat) : (s.delRec key).sk = s.sk := by
  have places : (s.delPlaces key).sk = s.sk := (s.delCopies_moves key).sk
  rw [State.delRec_eq]
  split
  · exact places
  · split <;> exact places

theorem State.delStale_sk (s : State) (key : Nat) : (s.delStale key).sk = s.sk := by
  rw [State.delStale, State.raise_sk, State.bump_sk, State.bump_sk, State.delRec_sk]

/-- The record that a lookup found goes into a line, which answers FOUND. -/
theorem State.checkOut_answers {s t : State} {key found : Nat} (h : s.checkOut key found = some t) : Answers key 0 .found s t := by
  obtain ⟨u, hu, rfl⟩ := Option.map_eq_some_iff.1 h
  obtain ⟨hsk, x, hline, hst⟩ := State.allocLine_effects hu
  generalize s.movesTo key = home
  have moved := u.putRec_moves key (home.getD found) (setOut ((s.homeImg (home.getD found)).getD 0) true)
  refine (State.answerFromLine_found (l := x) ?_ (by rw [hst]; exact LineSt.noConfusion)).of_sk (moved.sk.trans hsk)
  rw [State.line, moved.lines]
  exact hline

/-- A key of which no record is found goes into an ABSENT line where binds wait for it. -/
theorem State.absentLine_cases {s t : State} {key : Nat} (h : s.absentLine key = some t) :
    (s.bindsWaiting key = 0 ∧ t = s) ∨ Answers key 1 .absent s t := by
  unfold State.absentLine at h
  split_ifs at h with hnone
  · exact .inl ⟨hnone, (Option.some.inj h).symm⟩
  · obtain ⟨u, hu, rfl⟩ := Option.map_eq_some_iff.1 h
    obtain ⟨hsk, x, hline, hst⟩ := State.allocLine_effects hu
    exact .inr ((State.answerFromLine_absent hline hst).of_sk hsk)

theorem State.absentLine_bindsEnd {s t : State} {key : Nat} (h : s.absentLine key = some t) : BindsEnd key 1 .absent s t := by
  obtain ⟨hnone, -⟩ | answers := State.absentLine_cases h
  · exact bindsEnd_of_none_waits hnone 1 .absent t
  · exact answers.bindsEnd

theorem State.absentLine_keepsBound {s t : State} {key : Nat} (h : s.absentLine key = some t) : KeepsBound s t := by
  obtain ⟨-, rfl⟩ | answers := State.absentLine_cases h
  · exact .refl t
  · exact answers.keepsBound

theorem State.answerUnavail_answers (s : State) (key : Nat) (frozen : List Nat) :
    Answers key 2 .unavailable s (s.answerUnavail key frozen) := by
  have told (l : List Nat) (t : State) (f : State → Option (Nat × Nat)) :
      (l.foldl (fun u _ => (u.bump Objs.rec_unavailable).raise 109 0 0 (f u)) t).sk = t.sk :=
    List.foldlRecOn (motive := fun u : State => u.sk = t.sk) l _ rfl fun _ hu _ _ => hu
  exact .sk ⟨_, _, State.th_answerBinds s key .unavailable 2 0 0⟩ (told _ _ fun u => u.unavailCause key frozen)

theorem State.fillAnswer_keepsBound {s t : State} {f : Fill} (h : s.fillAnswer f = some t) : KeepsBound s t := by
  unfold State.fillAnswer at h
  split at h
  · split_ifs at h
    · exact .trans (.of_sk (s.delStale_sk f.key)) (State.absentLine_keepsBound h)
    · exact (State.checkOut_answers h).keepsBound
  · split_ifs at h
    · exact Option.some.inj h ▸ (s.answerUnavail_answers ..).keepsBound
    · exact State.absentLine_keepsBound h

/-- A lookup ends with its answer, or waits for a line. -/
theorem State.fillEnd_cases (s : State) (f : Fill) :
    ({ s with fsu := { s.fsu with fills := s.fsu.fills.filter (fun x => x.key ≠ f.key) } } : State).fillAnswer f = some (s.fillEnd f) ∨
      (s.fillEnd f).sk = s.sk ∧ ∃ g ∈ (s.fillEnd f).fsu.fills, g.key = f.key ∧ g.ready = true := by
  unfold State.fillEnd
  dsimp only
  split
  next h => exact .inl h
  · exact .inr ⟨rfl, _, List.mem_append_right _ (List.mem_singleton_self _), rfl, rfl⟩

theorem State.fillEnd_keepsBound (s : State) (f : Fill) : KeepsBound s (s.fillEnd f) := by
  obtain h | ⟨hsk, -⟩ := s.fillEnd_cases f
  · have closed : KeepsBound s { s with fsu := { s.fsu with fills := s.fsu.fills.filter (fun x => x.key ≠ f.key) } } := .of_sk rfl
    exact closed.trans (State.fillAnswer_keepsBound h)
  · exact .of_sk hsk

/-! ## Its start (R221, R396) -/

/-- The FSU's own reads change the controllers alone. -/
theorem State.hbmRead_fsu (s : State) (p : Nat) (r : HbmReq) (h : r.client = 0) : ∃ m, s.hbmRead p r = { s with hbm := m } := by
  unfold State.hbmRead State.endRead
  split
  · rw [h]
    exact ⟨_, rfl⟩
  · exact ⟨_, rfl⟩

theorem State.readBucket_sk (s : State) (b : Nat) : (s.readBucket b).2.sk = s.sk :=
  List.foldlRecOn (motive := fun t : State => t.sk = s.sk) _ _ rfl fun t ht k _ => by
    obtain ⟨m, h⟩ := t.hbmRead_fsu (bucketPc b) ⟨0, bucketOff b + 32 * k, s.fsu.nextTag, true⟩ rfl
    rw [h]
    exact ht

theorem State.readB1_sk (s : State) (void : Bool) (b : Nat) : (s.readB1 void b).2.sk = s.sk := by
  unfold State.readB1
  split
  · rfl
  · exact s.readBucket_sk b

theorem State.readB2_sk (s : State) (both : Bool) (b : Nat) : (s.readB2 both b).2.sk = s.sk := by
  unfold State.readB2
  split
  · exact (State.bump_sk ..).trans (s.readBucket_sk b)
  · rfl

theorem State.startFill_sk (s : State) (key : Nat) (void1 both : Bool) : (s.startFill key void1 both).sk = s.sk := by
  dsimp only [State.startFill]
  rw [State.readB2_sk, State.readB1_sk, State.bump_sk]

theorem State.startLookup_keepsBound (s : State) (key : Nat) : KeepsBound s (s.startLookup key) := by
  cases h : s.line key with
  | some l =>
    rw [State.startLookup, h]
    exact .ite (s.answerFromLine_keepsBound key) (.trans (t := s.bump Objs.cache_hits) (.of_sk rfl) (State.answerFromLine_keepsBound _ key))
  | none =>
    rw [State.startLookup_of_miss h]
    exact .ite (.refl s) (.ite (s.fillEnd_keepsBound _) (.ite (s.answerUnavail_answers ..).keepsBound (.of_sk (s.startFill_sk ..))))

end Sys2Proof.Machine
end

section
/-! Leap operations at issue (R174, R178 to R181, R189, R190): what each leaves in the leap of its thread. -/

namespace Sys2Proof.Machine

/-! ## Words -/

section
variable (op : Nat) (x : MemArgs)

theorem mwHnd_memWord : mwHnd (memWord op x) = x.hnd := by
  simp only [mwHnd, memWord, fld_eq]
  omega

theorem mwSeg_memWord : mwSeg (memWord op x) = x.seg := by
  simp only [mwSeg, memWord, fld_eq]
  omega

end

section
variable (s : State) (y : Thread) (k : Nat) (x : MemArgs)

theorem memOp_lbind : memOp s y k (memWord 0x10 x) = memBind s y k (memWord 0x10 x) := by
  simp only [memOp, mwMop_memWord x (show 0x10 < 64 by decide)]

theorem memOp_lrd : memOp s y k (memWord 0x11 x) = leapRead s k x.mdst x.hnd x.seg := by
  simp only [memOp, mwMop_memWord x (show 0x11 < 64 by decide), mwMdst_memWord, mwHnd_memWord, mwSeg_memWord]

theorem memOp_lins : memOp s y k (memWord 0x1C x) =
    leapWrite s k ⟨.lins, x.hnd, 3, if bit x.mimm.toNat 4 then x.mimm.toNat % 16 else fld y.md 172 4, x.mdst⟩ := by
  simp only [memOp, mwMop_memWord x (show 0x1C < 64 by decide), memWrite, mwMimm_memWord, mwHnd_memWord, mwMdst_memWord]

theorem memOp_ldel : memOp s y k (memWord 0x1D x) = leapWrite s k ⟨.ldel, x.hnd, 3, 0, x.mdst⟩ := by
  simp only [memOp, mwMop_memWord x (show 0x1D < 64 by decide), memWrite, mwHnd_memWord, mwMdst_memWord]

theorem memOp_labort : memOp s y k (memWord 0x1F x) = leapAbort s k := by
  simp only [memOp, mwMop_memWord x (show 0x1F < 64 by decide)]

end

/-- The codes of the operations that write a segment (R178). -/
def segWriteCodes : List (Nat × WKind) :=
  [(0x12, .lset), (0x13, .ladd), (0x14, .lmax), (0x15, .lmin), (0x16, .lor), (0x18, .lseq), (0x19, .ldup), (0x1A, .ltok)]

section
variable {op : Nat} {kind : WKind} (h : (op, kind) ∈ segWriteCodes)
include h

theorem segWriteCode_bounds : op < 64 ∧ op ≠ 0x10 ∧ kind ≠ .lins ∧ kind ≠ .ldel := by
  have all : ∀ p ∈ segWriteCodes, p.1 < 64 ∧ p.1 ≠ 0x10 ∧ p.2 ≠ .lins ∧ p.2 ≠ .ldel := by decide
  exact all (op, kind) h

theorem memOp_segWrite (s : State) (y : Thread) (k : Nat) (x : MemArgs) :
    memOp s y k (memWord op x) = leapWrite s k ⟨kind, x.hnd, x.seg, x.mimm.toNat, y.reg x.msrc⟩ := by
  have hmop := mwMop_memWord x (segWriteCode_bounds h).1
  have hwrite : memOp s y k (memWord op x) = memWrite s y k (memWord op x) kind := by
    simp only [segWriteCodes, List.mem_cons, Prod.mk.injEq, List.not_mem_nil, or_false] at h
    obtain ⟨rfl, rfl⟩ | ⟨rfl, rfl⟩ | ⟨rfl, rfl⟩ | ⟨rfl, rfl⟩ | ⟨rfl, rfl⟩ | ⟨rfl, rfl⟩ | ⟨rfl, rfl⟩ | ⟨rfl, rfl⟩ := h <;>
      simp only [memOp, hmop]
  obtain ⟨-, -, hins, hdel⟩ := segWriteCode_bounds h
  rw [hwrite, memWrite.eq_3 _ _ _ _ _ hins hdel, mwHnd_memWord, mwSeg_memWord, mwMimm_memWord, mwMsrc_memWord]

end

/-! ## LRD and LABORT (R179, R181) -/

theorem leapRead_accepted {s : State} {k mdst hnd seg : Nat} (hleap : (s.th k).leap.abandoned = false)
    (hhandle : handleRefuses (s.th k) hnd (seg == 3) = false) :
    leapRead s k mdst hnd seg = (false, s.setTh k { s.th k with
      leap := { (s.th k).leap with used := true }
      pend := (s.th k).pend ++ [⟨mdst, 2, .lrd hnd seg (s.th k).leap.ops.length⟩] }) := by
  simp only [leapRead, hleap, hhandle, Bool.or_self, Bool.false_eq_true, if_false]

theorem leapAbort_open {s : State} {k : Nat} (h : (s.th k).leap.abandoned = false) : leapAbort s k = (false, s.abandon k) := by
  rw [leapAbort, h]
  rfl

/-- An abandoned leap holds neither operations nor handles. -/
theorem State.abandon_leap {s : State} {k : Nat} (h : (s.th k).job ≠ none) :
    ((s.abandon k).th k).leap = { Leap.empty with used := true, abandoned := true, learn := (s.th k).leap.learn } := by
  obtain ⟨j, hj⟩ := Option.ne_none_iff_exists'.1 h
  simp only [State.abandon, hj, State.th_setTh_same]

/-! ## Write-class operations (R178, R182, R192) -/

/-- A thread that issues a write-class operation: its leap is used, and its binding closes. -/
def Thread.writes (x : Thread) : Thread :=
  { x with leap := { x.leap with used := true }, job := x.job.map (fun j => { j with bindOpen := false }) }

section
variable {s : State} {k : Nat} {o : LeapOp} {h : Handle} (hgo : writeRefuses s (s.th k) o = false) (hbound : (s.th k).handle o.hnd = some h)
include hgo hbound

theorem leapWrite_goes : leapWrite s k o = if s.flowLocked h.key then
    (false, (s.setTh k (s.th k).writes).setTh k { (s.th k).writes with lockWait := some (o, s.fNs) })
    else (false, acceptOp (s.setTh k (s.th k).writes) k o) := by
  unfold leapWrite
  dsimp only
  rw [hgo, if_neg Bool.false_ne_true, hbound]
  rfl

theorem leapWrite_free (hfree : s.flowLocked h.key = false) : leapWrite s k o = (false, acceptOp (s.setTh k (s.th k).writes) k o) :=
  (leapWrite_goes hgo hbound).trans (if_neg (by rw [hfree]; exact Bool.false_ne_true))

theorem leapWrite_locked (hlocked : s.flowLocked h.key = true) :
    leapWrite s k o = (false, (s.setTh k (s.th k).writes).setTh k { (s.th k).writes with lockWait := some (o, s.fNs) }) :=
  (leapWrite_goes hgo hbound).trans (if_pos hlocked)

end

section
variable {s : State} {k : Nat} {o : LeapOp} {h : Handle} (hbound : (s.th k).handle o.hnd = some h)
include hbound

/-- An accepted write of a segment is in the leap's buffer. -/
theorem acceptOp_segWrite (hins : o.kind ≠ .lins) (hdel : o.kind ≠ .ldel) :
    acceptOp s k o = s.setTh k { s.th k with
      leap := { (s.th k).leap with used := true, ops := (s.th k).leap.ops ++ [o] }, lockWait := none } := by
  unfold acceptOp
  dsimp only
  rw [hbound]
  dsimp only
  split
  next he => exact absurd he hins
  next he => exact absurd he hdel
  · rfl

/-- An accepted LDEL ends its handle and reports whether there was a record (R190). -/
theorem acceptOp_ldel (hkind : o.kind = .ldel) :
    acceptOp s k o = s.setTh k { s.th k with
      leap := { (s.th k).leap with
        used := true, ops := (s.th k).leap.ops ++ [o]
        handles := tput o.hnd { h with dead := true, del := decide (h.st = .found) } (s.th k).leap.handles }
      lockWait := none
      pend := (s.th k).pend ++ [⟨o.data, 1, .value [if h.st = .found then 0x10 else 0x12]⟩] } := by
  unfold acceptOp
  dsimp only
  rw [hbound]
  dsimp only
  rw [hkind]

/-- An accepted LINS reports its status. -/
theorem acceptOp_lins (hkind : o.kind = .lins) :
    ((acceptOp s k o).th k).pend = (s.th k).pend ++ [⟨o.data, 1, .value [(insertStatus s (s.th k) h).1]⟩] ∧
      (acceptOp s k o).fsu = (insertStatus s (s.th k) h).2.2.fsu := by
  unfold acceptOp
  dsimp only
  rw [hbound]
  dsimp only
  rw [hkind]
  dsimp only
  rw [State.th_setTh_same]
  exact ⟨rfl, rfl⟩

end

/-- R189: the record is there already. -/
theorem insertStatus_found {h : Handle} (hst : h.st = .found) (s : State) (x : Thread) : insertStatus s x h = (0x11, none, s) :=
  if_pos (.inl hst)

theorem State.atLimit_of_freePlace {s : State} {key p : Nat} (h : s.freePlace key = some p) : s.atLimit = false := by
  unfold State.freePlace at h
  split at h
  · exact absurd h (by simp)
  next hlimit => exact Bool.eq_false_iff.2 hlimit

/-- R189: a record that is not there gets the free place of its key. -/
theorem insertStatus_absent {s : State} {x : Thread} {h : Handle} {p : Nat} (hst : h.st = .absent) (hins : h.ins = none)
    (hlearn : s.rd Objs.learn_mode (fld x.md 32 8) ≠ 1) (hvoid : s.bothVoid h.key = false) (hplace : s.freePlace h.key = some p) :
    insertStatus s x h = (0x10, some p, { s with fsu := { s.fsu with reserved := s.fsu.reserved ++ [p] } }) := by
  simp only [insertStatus, hst, hins, hlearn, hvoid, State.atLimit_of_freePlace hplace, hplace, reduceCtorEq, Option.isSome_none,
    Bool.false_eq_true, or_self, if_false]

/-- An LINS that no lock keeps: its thread gets the status. -/
theorem leapWrite_lins {s : State} {k hnd tmpl data : Nat} {h : Handle} (hgo : writeRefuses s (s.th k) ⟨.lins, hnd, 3, tmpl, data⟩ = false)
    (hbound : (s.th k).handle hnd = some h) (hfree : s.flowLocked h.key = false) :
    ∃ t, leapWrite s k ⟨.lins, hnd, 3, tmpl, data⟩ = (false, t) ∧
      (t.th k).pend = (s.th k).pend ++ [⟨data, 1, .value [(insertStatus (s.setTh k (s.th k).writes) (s.th k).writes h).1]⟩] ∧
      t.fsu = (insertStatus (s.setTh k (s.th k).writes) (s.th k).writes h).2.2.fsu := by
  have issued : (s.setTh k (s.th k).writes).th k = (s.th k).writes := s.th_setTh_same ..
  have accepted := acceptOp_lins (s := s.setTh k (s.th k).writes) (k := k) (o := ⟨.lins, hnd, 3, tmpl, data⟩) (h := h)
    (by rw [issued]; exact hbound) rfl
  rw [issued] at accepted
  exact ⟨_, leapWrite_free hgo hbound hfree, accepted⟩

/-- An LINS of a record that is not there reserves its place. -/
theorem leapWrite_linsAbsent {s : State} {k hnd tmpl data p : Nat} {h : Handle} (hgo : writeRefuses s (s.th k) ⟨.lins, hnd, 3, tmpl, data⟩ = false)
    (hbound : (s.th k).handle hnd = some h) (hfree : s.flowLocked h.key = false) (hst : h.st = .absent) (hins : h.ins = none)
    (hlearn : s.rd Objs.learn_mode (fld (s.th k).md 32 8) ≠ 1) (hvoid : s.bothVoid h.key = false) (hplace : s.freePlace h.key = some p) :
    ∃ t, leapWrite s k ⟨.lins, hnd, 3, tmpl, data⟩ = (false, t) ∧
      (t.th k).pend = (s.th k).pend ++ [⟨data, 1, .value [0x10]⟩] ∧ t.fsu.reserved = s.fsu.reserved ++ [p] := by
  obtain ⟨t, hrun, hpend, hfsu⟩ := leapWrite_lins hgo hbound hfree
  rw [insertStatus_absent (s := s.setTh k (s.th k).writes) (x := (s.th k).writes) hst hins hlearn hvoid hplace] at hpend hfsu
  exact ⟨t, hrun, hpend, by rw [hfsu]; rfl⟩

/-- A write of a segment is buffered, or waits for the lock on its record. -/
theorem segWrite_buffers {row : Fin 2048 → MemArgs → Instr} {op : Nat} {kind : WKind} (hcode : (op, kind) ∈ segWriteCodes)
    (hexec : ∀ k x s, exec (row k x) s = .next (opRow k (memWord op x) s)) :
    MemRow row op (fun k x s => writeRefuses s (s.th k) ⟨kind, x.hnd, x.seg, x.mimm.toNat, (s.th k).reg x.msrc⟩ = false)
      (fun k x s t => ∀ h, (s.th k).handle x.hnd = some h →
        (s.flowLocked h.key = false →
          (t.th k).leap.ops = (s.th k).leap.ops ++ [⟨kind, x.hnd, x.seg, x.mimm.toNat, (s.th k).reg x.msrc⟩] ∧
          (t.th k).lockWait = none) ∧
        (s.flowLocked h.key = true → (t.th k).leap.ops = (s.th k).leap.ops ∧
          (t.th k).lockWait = some (⟨kind, x.hnd, x.seg, x.mimm.toNat, (s.th k).reg x.msrc⟩, s.fNs))) := by
  obtain ⟨hop, hbind, hins, hdel⟩ := segWriteCode_bounds hcode
  refine memRow_of_memOp hop hbind hexec fun k x s hgo => ?_
  rw [memOp_segWrite hcode]
  generalize ho : (⟨kind, x.hnd, x.seg, x.mimm.toNat, (s.th k).reg x.msrc⟩ : LeapOp) = o at hgo ⊢
  have hkind : o.kind = kind := by rw [← ho]
  have hhnd : o.hnd = x.hnd := by rw [← ho]
  have same : (s.setTh k (s.th k)).th k = s.th k := s.th_setTh_same ..
  have goes : writeRefuses (s.setTh k (s.th k)) ((s.setTh k (s.th k)).th k) o = false := by rw [same]; exact hgo
  cases hbound : (s.th k).handle x.hnd with
  | none => simp [writeRefuses, handleRefuses, hhnd, hbound] at hgo
  | some h =>
    have bound : ((s.setTh k (s.th k)).th k).handle o.hnd = some h := by rw [same, hhnd, hbound]
    cases hlock : s.flowLocked h.key with
    | true =>
      refine ⟨_, leapWrite_locked goes bound hlock, fun g hg => ?_⟩
      obtain rfl := Option.some.inj hg
      rw [State.th_setTh_same, same, hlock]
      exact ⟨fun h => absurd h (by decide), fun _ => ⟨rfl, rfl⟩⟩
    | false =>
      refine ⟨_, leapWrite_free goes bound hlock, fun g hg => ?_⟩
      obtain rfl := Option.some.inj hg
      rw [acceptOp_segWrite (by rw [State.th_setTh_same]; exact bound) (hkind ▸ hins) (hkind ▸ hdel), State.th_setTh_same,
        State.th_setTh_same, same, hlock]
      exact ⟨fun _ => ⟨rfl, rfl⟩, fun h => absurd h (by decide)⟩

end Sys2Proof.Machine
end

section
/-! The leap rows (R143, R174): LBIND with the breakpoints that follow it, and what each row leaves in the leap's buffer. -/

namespace Sys2Proof.Machine

/-! ## Debug halts and breakpoints keep what is bound (R565, R571) -/

theorem State.enterHalt_keepsBound (s : State) (k : Nat) : KeepsBound s (s.enterHalt k) :=
  (KeepsBound.modTh s k (f := fun x => { x with
    st := .debugHalt, haltSince := s.fNs, stepLeft := 0, job := x.job.map (fun j => { j with bindOpen := false }) }) fun _ => rfl).trans
    (.of_sk (State.traceAdd_sk ..))

theorem State.haltThread_keepsBound (s : State) (k : Nat) : KeepsBound s (s.haltThread k) := by
  unfold State.haltThread
  split
  · exact s.enterHalt_keepsBound k
  · exact .refl s
  · exact .of_sk rfl

theorem State.haltSkink_keepsBound (s : State) (k : Nat) : KeepsBound s (s.haltSkink k) := by
  have noted : KeepsBound s { s with dbg := { s.dbg with skinkHalt := k :: s.dbg.skinkHalt.filter (· ≠ k) } } := .of_sk rfl
  exact noted.trans (.foldl State.haltThread_keepsBound _ _)

theorem State.traceTrigger_sk (s : State) (c : Nat) : (s.traceTrigger c).sk = s.sk := by
  unfold State.traceTrigger
  dsimp only
  split <;> rfl

theorem State.bpAct_keepsBound (s : State) (k pc w top flags action : Nat) : KeepsBound s (s.bpAct k pc w top flags action) := by
  have noted : KeepsBound s ((s.bump Objs.bp_hits (clutchOf k)).traceAdd k 4 pc (mwNxt w) (mwMop w) top flags 0) :=
    .of_sk ((State.traceAdd_sk ..).trans (State.bump_sk ..))
  unfold State.bpAct
  dsimp only
  split
  · exact noted.trans (State.haltThread_keepsBound _ k)
  · exact noted.trans (State.haltSkink_keepsBound _ (skinkOf k))
  · exact noted.trans (.of_sk (State.traceTrigger_sk ..))

theorem State.bpCheck_keepsBound (s : State) (k kind pc w top flags : Nat) (hit : Nat → Bool) :
    KeepsBound s (s.bpCheck k kind pc w top flags hit) :=
  .foldl (fun s _ => .ite (s.bpAct_keepsBound k pc w top flags _) (.refl s)) _ s

theorem bindBreaks_keepsBound (s : State) (x y : Thread) (k w : Nat) : KeepsBound s (bindBreaks s x y k w) := by
  unfold bindBreaks
  split
  · split
    · exact .ite (s.bpCheck_keepsBound k 3 x.pc w y.top y.flags _) (.refl s)
    · exact .refl s
  · exact .refl s

/-! ## LBIND (R174) -/

/-- The handle of a bind names the record, also where another handle names it already. -/
theorem bindHandle_key (l : Tab Handle) (key : Nat) (own : Bool) :
    (match (l.find? (fun p => p.2.key = key)).map (·.2) with
      | some g => { g with own := own || g.own, st := .pending, dead := false, del := false }
      | none => ⟨key, own, .pending, 0, 0, none, none, false, false⟩ : Handle).key = key := by
  cases h : l.find? (fun p => p.2.key = key) with
  | none => rfl
  | some p =>
    have named := List.find?_some h
    exact of_decide_eq_true named

/-- A bind puts its handle into the leap, and its lookup starts. -/
theorem leapBind_binds {s : State} {k hnd : Nat} (hjob : (s.th k).job ≠ none) (hleap : (s.th k).leap.abandoned = false)
    (hfree : (s.th k).handle hnd = none) (mdst : Nat) (own : Bool) (key : Nat) :
    ∃ (u : State) (y : Thread), leapBind s k mdst hnd own key = (false, (u.setTh k y).startLookup key) ∧
      y.leap.used = true ∧ (y.handle hnd).map (·.key) = some key := by
  obtain ⟨j, hj⟩ := Option.ne_none_iff_exists'.1 hjob
  have goes : ¬((s.th k).leap.abandoned ∨ ((s.th k).handle hnd).isSome = true) := by
    rw [hleap, hfree]
    decide
  unfold leapBind
  dsimp only
  rw [hj]
  dsimp only
  rw [if_neg goes]
  refine ⟨_, _, rfl, rfl, ?_⟩
  rw [Thread.handle, tfind_tput_same, Option.map_some]
  exact congrArg some (bindHandle_key ..)

/-- The key of an LBIND: that of its packet, or that in G[MADR] and the five registers after it (R174, R209). -/
theorem memOp_lbind_key (s : State) (y : Thread) (k : Nat) (x : MemArgs) :
    memOp s y k (memWord 0x10 x) = leapBind s k x.mdst x.hnd (bit x.mimm.toNat 9)
      (if bit x.mimm.toNat 9 then (y.job.map (fun j => j.pkt.key)).getD 0
        else leNat ((((List.range 6).map (fun i => leBytes 8 (y.reg (x.madr + i)))).flatten).take 47) +
          (x.mimm.toNat % 16) * 2 ^ 376) := by
  rw [memOp_lbind]
  simp only [memBind, memBind.flowKeyBytes, mwMimm_memWord, mwMadr_memWord, mwMdst_memWord, mwHnd_memWord]

theorem lbind_binds : MemRow .lbind 0x10
    (fun k x s => (s.th k).job ≠ none ∧ (s.th k).leap.abandoned = false ∧ (s.th k).handle x.hnd = none)
    (fun k x s t => (t.th k).leap.used = true ∧ ∃ h, (t.th k).handle x.hnd = some h ∧
      h.key = (if bit x.mimm.toNat 9 then ((s.th k).job.map (fun j => j.pkt.key)).getD 0
        else leNat ((((List.range 6).map (fun i => leBytes 8 ((s.th k).reg (x.madr + i)))).flatten).take 47) +
          (x.mimm.toNat % 16) * 2 ^ 376)) := by
  intro k x s hready ⟨hjob, hleap, hfree⟩
  beta_reduce
  have same : (s.setTh k (s.th k)).th k = s.th k := s.th_setTh_same ..
  have hrun := runFields_memWord (op := 0x10) (by decide) s k x
  rw [memOp_lbind_key] at hrun
  generalize (if bit x.mimm.toNat 9 then ((s.th k).job.map (fun j => j.pkt.key)).getD 0
    else leNat ((((List.range 6).map (fun i => leBytes 8 ((s.th k).reg (x.madr + i)))).flatten).take 47) +
      (x.mimm.toNat % 16) * 2 ^ 376) = key at hrun ⊢
  obtain ⟨u, y, hbinds, hused, hkey⟩ := leapBind_binds (s := s.setTh k (s.th k)) (by rw [same]; exact hjob) (by rw [same]; exact hleap)
    (by rw [same]; exact hfree) x.mdst (bit x.mimm.toNat 9) key
  rw [hbinds] at hrun
  have kept := ((u.setTh k y).startLookup_keepsBound key).trans
    (bindBreaks_keepsBound _ (s.th k) (((u.setTh k y).startLookup key).th k) k (memWord 0x10 x)) k
  rw [State.th_setTh_same] at kept
  obtain ⟨keptUsed, keptKey⟩ := kept
  refine ⟨_, congrArg Host.Outcome.next ((opRow_of_ready hready).trans (by rw [hrun]; exact if_neg Bool.false_ne_true)), keptUsed.trans hused, ?_⟩
  exact Option.map_eq_some_iff.1 ((keptKey x.hnd).trans hkey)

/-- Settles O14: each row is its leap operation; what that leaves in the thread's leap is what the row leaves there, and the breakpoints that
follow an LBIND leave what is bound. -/
theorem leapRowsBuffer : Obligations.LeapRowsBuffer := by
  have same (k : Nat) (s : State) : (s.setTh k (s.th k)).th k = s.th k := s.th_setTh_same ..
  refine ⟨lbind_binds, memRow_of_memOp (by decide) (by decide) (fun _ _ _ => rfl) fun k x s ⟨hleap, hhandle⟩ => ?lrd, ?segWrites,
    memRow_of_memOp (by decide) (by decide) (fun _ _ _ => rfl) fun k x s ⟨h, hbound, hfree, hst, hgo⟩ => ?linsFound,
    memRow_of_memOp (by decide) (by decide) (fun _ _ _ => rfl)
      fun k x s ⟨h, p, hbound, hfree, hst, hins, hlearn, hvoid, hplace, hgo⟩ => ?linsAbsent,
    memRow_of_memOp (by decide) (by decide) (fun _ _ _ => rfl) fun k x s ⟨h, hbound, hfree, hst, hgo⟩ => ?ldel,
    memRow_of_memOp (by decide) (by decide) (fun _ _ _ => rfl) fun k x s ⟨hjob, hleap⟩ => ?labort⟩
  case lrd =>
    refine ⟨_, (memOp_lrd ..).trans (leapRead_accepted (by rw [same]; exact hleap) (by rw [same]; exact hhandle)), ?_⟩
    rw [State.th_setTh_same, same]
    exact ⟨rfl, rfl⟩
  case segWrites =>
    intro r hr
    simp only [List.mem_cons, List.not_mem_nil, or_false] at hr
    obtain rfl | rfl | rfl | rfl | rfl | rfl | rfl | rfl := hr <;> exact segWrite_buffers (by decide) fun _ _ _ => rfl
  case linsFound =>
    obtain ⟨t, hrun, hpend, -⟩ := leapWrite_lins (s := s.setTh k (s.th k)) (k := k) (by rw [same]; exact hgo) (by rw [same]; exact hbound) hfree
    refine ⟨t, (memOp_lins ..).trans hrun, ?_⟩
    rw [hpend, same, insertStatus_found hst]
  case linsAbsent =>
    obtain ⟨t, hrun, hpend, hreserved⟩ := leapWrite_linsAbsent (s := s.setTh k (s.th k)) (k := k) (by rw [same]; exact hgo)
      (by rw [same]; exact hbound) hfree hst hins (by rw [same]; exact hlearn) hvoid hplace
    refine ⟨t, (memOp_lins ..).trans hrun, ?_, p, hreserved⟩
    rw [hpend, same]
  case ldel =>
    have issued := (s.setTh k (s.th k)).th_setTh_same k (s.th k).writes
    refine ⟨_, (memOp_ldel ..).trans (leapWrite_free (by rw [same]; exact hgo) (by rw [same]; exact hbound) hfree), ?_⟩
    rw [same, acceptOp_ldel (by rw [issued]; exact hbound) rfl, State.th_setTh_same, issued]
    refine ⟨by rw [if_pos hst]; rfl, _, tfind_tput_same .., rfl, decide_eq_true hst⟩
  case labort =>
    refine ⟨_, (memOp_labort ..).trans (leapAbort_open (by rw [same]; exact hleap)), ?_⟩
    rw [State.abandon_leap (by rw [same]; exact hjob)]
    exact ⟨rfl, rfl, rfl⟩

end Sys2Proof.Machine
end

section
/-! Bucket reads that return (R221, R222): what the last one of a lookup gives the binds of its key. -/

namespace Sys2Proof.Machine

/-! ## A read that returns -/

theorem State.releaseUnused_frame (s : State) (p b : Nat) : ∃ m, s.releaseUnused p b = { s with hbm := m } := by
  unfold State.releaseUnused
  split <;> exact ⟨_, rfl⟩

theorem State.releaseUnused_fsu (s : State) (p b : Nat) : (s.releaseUnused p b).fsu = s.fsu := by
  obtain ⟨m, h⟩ := s.releaseUnused_frame p b
  rw [h]

theorem State.releaseUnused_sk (s : State) (p b : Nat) : (s.releaseUnused p b).sk = s.sk := by
  obtain ⟨m, h⟩ := s.releaseUnused_frame p b
  rw [h]

/-- The read `tag` of bucket `b` has left its controller, which holds `rest` still, and is no longer awaited. -/
def State.readTaken (s : State) (tag b : Nat) (rest : List HbmDone) : State :=
  { s.setCtl (bucketPc b) { s.ctl (bucketPc b) with done := rest } with
    fsu := { s.fsu with bucketReads := s.fsu.bucketReads.filter (fun r => r.1 ≠ tag) } }

section
variable {s : State} {tag b : Nat} {frozen : Bool} {rest : List HbmDone}
  (hread : s.fsu.bucketReads.find? (fun r => r.1 = tag) = some (tag, b))
  (hdone : takeDone (s.ctl (bucketPc b)).done 0 tag 8 = some (frozen, rest))
include hread hdone

theorem bucketReturn_good : bucketReturn s tag .good =
    match s.fsu.fills.find? (fun f => f.wait.contains tag) with
    | none => (s.readTaken tag b rest).releaseUnused (bucketPc b) b
    | some f => (fillStep (s.readTaken tag b rest)
        { f with wait := f.wait.erase tag, frozen := if frozen then b :: f.frozen else f.frozen }).releaseUnused (bucketPc b) b := by
  unfold bucketReturn
  rw [hread]
  dsimp only
  rw [hdone]
  rfl

/-- A read for no lookup leaves the lookups. -/
theorem bucketReturn_unasked (hfill : s.fsu.fills.any (fun f => f.wait.contains tag) = false) :
    (bucketReturn s tag .good).fsu = (s.readTaken tag b rest).fsu := by
  have unasked : s.fsu.fills.find? (fun f => f.wait.contains tag) = none :=
    List.find?_eq_none.2 fun f hf => by simpa using List.any_eq_false.1 hfill f hf
  rw [bucketReturn_good hread hdone, unasked]
  exact State.releaseUnused_fsu ..

/-- A read that is not the last one of its lookup leaves it waiting for the others. -/
theorem bucketReturn_waits {f : Fill} (hfill : s.fsu.fills.find? (fun f => f.wait.contains tag) = some f) (hwait : f.wait.erase tag ≠ []) :
    (bucketReturn s tag .good).fsu = { (s.readTaken tag b rest).fsu with fills := s.fsu.fills.map (fun y => if y.key = f.key then
      { f with wait := f.wait.erase tag, frozen := if frozen then b :: f.frozen else f.frozen } else y) } := by
  rw [bucketReturn_good hread hdone, hfill]
  dsimp only
  rw [State.releaseUnused_fsu, fillStep, if_pos hwait]
  rfl

/-- The last read of a lookup ends it. -/
theorem bucketReturn_last {f : Fill} (hfill : s.fsu.fills.find? (fun f => f.wait.contains tag) = some f) (hwait : f.wait = [tag])
    (hboth : f.readB2 = true) :
    bucketReturn s tag .good = ((s.readTaken tag b rest).fillEnd
      { f with wait := [], frozen := if frozen then b :: f.frozen else f.frozen }).releaseUnused (bucketPc b) b := by
  have last : f.wait.erase tag = [] := by rw [hwait, List.erase_cons_head]
  rw [bucketReturn_good hread hdone, hfill]
  dsimp only
  rw [last, fillStep, if_neg (fun h => h rfl)]
  dsimp only
  rw [hboth, Bool.true_or, Bool.true_or, Bool.true_or, if_pos rfl]

end

/-! ## The answers -/

theorem BindsEnd.of_sk {key code : Nat} {st : BindSt} {s s' t t' : State} (h : BindsEnd key code st s t) (hs : s.sk = s'.sk)
    (ht : t'.sk = t.sk) : BindsEnd key code st s' t' := by
  intro k
  rw [State.th_sk ht, ← State.th_sk hs]
  exact h k

section
variable {s t : State} {f : Fill} (h : s.fillAnswer f = some t)
include h

theorem State.fillAnswer_found {p : Nat} (hread : s.homeRead f.key f.frozen = some p) (hout : recOut ((s.homeImg p).getD 0) = false) :
    BindsEnd f.key 0 .found s t := by
  simp only [State.fillAnswer, hread, hout, Bool.false_eq_true, if_false] at h
  exact (State.checkOut_answers h).bindsEnd

theorem State.fillAnswer_absent (hread : s.homeRead f.key f.frozen = none) (hfrozen : f.frozen = []) (hvoid : s.bothVoid f.key = false) :
    BindsEnd f.key 1 .absent s t := by
  rw [State.fillAnswer, hread] at h
  dsimp only at h
  rw [if_neg (by simp [hfrozen, hvoid])] at h
  exact State.absentLine_bindsEnd h

theorem State.fillAnswer_unavailable (hread : s.homeRead f.key f.frozen = none) (hlost : f.frozen ≠ [] ∨ s.bothVoid f.key = true) :
    BindsEnd f.key 2 .unavailable s t := by
  rw [State.fillAnswer, hread] at h
  dsimp only at h
  rw [if_pos hlost] at h
  exact Option.some.inj h ▸ (s.answerUnavail_answers ..).bindsEnd

end

/-- The last read of a lookup leaves it ready for a line, or answers its binds by what the reads found. -/
theorem bucketReturn_answers {s : State} {tag b : Nat} {frozen : Bool} {rest : List HbmDone} {f : Fill}
    (hread : s.fsu.bucketReads.find? (fun r => r.1 = tag) = some (tag, b))
    (hdone : takeDone (s.ctl (bucketPc b)).done 0 tag 8 = some (frozen, rest))
    (hfill : s.fsu.fills.find? (fun f => f.wait.contains tag) = some f) (hwait : f.wait = [tag]) (hboth : f.readB2 = true) :
    let lost := if frozen then b :: f.frozen else f.frozen
    let t := bucketReturn s tag .good
    (∃ g ∈ t.fsu.fills, g.key = f.key ∧ g.ready = true) ∨
      (∀ p, s.homeRead f.key lost = some p → recOut ((s.homeImg p).getD 0) = false → BindsEnd f.key 0 .found s t) ∧
      (s.homeRead f.key lost = none → lost = [] → s.bothVoid f.key = false → BindsEnd f.key 1 .absent s t) ∧
      (s.homeRead f.key lost = none → lost ≠ [] ∨ s.bothVoid f.key = true → BindsEnd f.key 2 .unavailable s t) := by
  dsimp only
  rw [bucketReturn_last hread hdone hfill hwait hboth, State.releaseUnused_fsu]
  generalize (if frozen then b :: f.frozen else f.frozen) = lost
  have hsk := State.releaseUnused_sk ((s.readTaken tag b rest).fillEnd { f with wait := [], frozen := lost }) (bucketPc b) b
  obtain h | ⟨-, ready⟩ := (s.readTaken tag b rest).fillEnd_cases { f with wait := [], frozen := lost }
  · exact .inr ⟨fun p hp hout => (State.fillAnswer_found h hp hout).of_sk rfl hsk,
      fun hnone hlost hvoid => (State.fillAnswer_absent h hnone hlost hvoid).of_sk rfl hsk,
      fun hnone hlost => (State.fillAnswer_unavailable h hnone hlost).of_sk rfl hsk⟩
  · exact .inl ready

end Sys2Proof.Machine
end

section
/-! Moves of records (R228, R229, R238): a walk that finds a free slot at once, and the end of a move. -/

namespace Sys2Proof.Machine

theorem MovesRecords.paths {s t : State} (h : MovesRecords s t) : t.fsu.paths = s.fsu.paths := by
  obtain ⟨_, _, _, _, _, rfl⟩ := h
  rfl

theorem MovesRecords.rd {s t : State} (h : MovesRecords s t) (o : Obj) (i : Nat) : t.rd o i = s.rd o i := by
  rw [State.rd, State.rd, h.dict]

/-! ## The end of a move (R229, R238) -/

theorem State.lineHome_frame (s : State) (key home : Nat) : ∃ l, s.lineHome key home = { s with fsu := { s.fsu with lines := l } } := by
  unfold State.lineHome
  split
  · split <;> exact ⟨_, rfl⟩
  · exact ⟨_, rfl⟩

theorem State.twice_keys {s : State} {m : Move} (h : s.twice m = true) :
    (∀ r, s.homeImg m.src = some r → recKey r = m.key) ∧ ∀ r, s.homeImg m.dst = some r → recKey r = m.key := by
  obtain ⟨hsrc, hdst⟩ := Bool.and_eq_true_iff.1 h
  exact ⟨fun r hr => by simpa [State.holdsKey, hr] using hsrc, fun r hr => by simpa [State.holdsKey, hr] using hdst⟩

theorem State.endMove_effects {s : State} {m : Move} (htwice : s.twice m = true) (hserves : s.placeServes m.src = true) :
    (s.endMove m).fsu.paths = s.fsu.paths ∧ (s.endMove m).homeImg m.src = none ∧
      (s.endMove m).rd Objs.reloc_moves = satAdd 64 (s.rd Objs.reloc_moves) 1 := by
  have moved := s.dropCopy_moves m.key m.src
  rw [State.endMove, if_pos htwice, State.bump_fsu, moved.paths, State.bump_rd_same _ (by decide), moved.rd]
  exact ⟨rfl, (State.homeImg_congr (by rw [State.bump_fsu]) (by rw [State.bump_fsu]) _).trans (State.dropCopy_empty (s.twice_keys htwice).1 hserves), rfl⟩

theorem State.undoMove_effects {s : State} {m : Move} (htwice : s.twice m = true) (hserves : s.placeServes m.dst = true) :
    (s.undoMove m).fsu.paths = s.fsu.paths ∧ (s.undoMove m).homeImg m.dst = none ∧
      (s.undoMove m).rd Objs.reloc_moves = s.rd Objs.reloc_moves := by
  have moved := s.dropCopy_moves m.key m.dst
  obtain ⟨l, hline⟩ := (s.dropCopy m.key m.dst).lineHome_frame m.key m.src
  rw [State.undoMove, if_pos htwice, hline]
  exact ⟨moved.paths, (State.homeImg_congr rfl rfl _).trans (State.dropCopy_empty (State.twice_keys htwice).2 hserves), moved.rd ..⟩

section
variable {s : State} {i : Nat} {p : Path} {m : Move} (hpath : s.fsu.paths[i]? = some p) (hmoves : p.moves = [m])
  (hwaits : p.waits.any (fun x => s.fsu.bucketReads.any (fun r => r.1 == x)) = false)
include hpath hmoves hwaits

theorem relocDone_ends (hfree : s.slotLocked m.src = false) :
    relocDone s i = { s.endMove m with fsu := { (s.endMove m).fsu with paths := (s.endMove m).fsu.paths.eraseIdx i } } := by
  simp only [relocDone, hpath, hwaits, hmoves, hfree, Bool.false_eq_true, if_false]

theorem relocDone_undoes (hlocked : s.slotLocked m.src = true) :
    relocDone s i = { s.undoMove m with fsu := { (s.undoMove m).fsu with paths := (s.undoMove m).fsu.paths.eraseIdx i } } := by
  simp only [relocDone, hpath, hwaits, hmoves, hlocked, Bool.false_eq_true, if_false, if_true]

end

/-! ## A walk of one move (R228, R229) -/

theorem setFld_low_lt {v : Nat} (h : v < 2 ^ 27) (b : Nat) : setFld v 0 7 b < 2 ^ 27 := by
  simp only [setFld]
  omega

theorem State.flowBuckets_lt (s : State) (key : Nat) : (s.flowBuckets key).1 < 2 ^ 27 ∧ (s.flowBuckets key).2 < 2 ^ 27 := by
  dsimp only [State.flowBuckets]
  refine ⟨Nat.mod_lt _ (by decide), ?_⟩
  split
  · exact setFld_low_lt (Nat.mod_lt _ (by decide)) _
  · exact Nat.mod_lt _ (by decide)

/-- Reads of records none of which is stale remove none. -/
theorem foldl_purgeKey_fresh {s : State} {l : List Nat} (h : ∀ k ∈ l, s.stale k = false) : l.foldl State.purgeKey s = s := by
  induction l with
  | nil => rfl
  | cons k l ih =>
    rw [List.foldl_cons, State.purgeKey, h k (List.mem_cons_self ..), if_neg Bool.false_ne_true]
    exact ih fun k hk => h k (List.mem_cons_of_mem _ hk)

/-- The reads of a bucket without stale records change the controllers alone. -/
theorem State.fsuSees_bucket {s : State} {b : Nat} (h : ∀ k ∈ s.targetKeys (.bucket b), s.stale k = false) :
    s.fsuSees (.bucket b) = s.bgRead b :=
  foldl_purgeKey_fresh (s := s.bgRead b) h

/-- A walk from a bucket with a free slot ends at once. -/
theorem relocWalk_free {s : State} {b : Nat} (hopen : bucketOpen s b = true) (hfree : s.slotFree (2 * b) = true ∨ s.slotFree (2 * b + 1) = true)
    (hstale : ∀ k ∈ s.targetKeys (.bucket b), s.stale k = false) (n : Nat) :
    ∃ q, relocWalk (n + 1) s b [] = (some (q, []), false, s.bgRead b) ∧ q / 2 = b ∧ s.slotFree q = true := by
  have found : ([2 * b, 2 * b + 1].find? s.slotFree).isSome = true := by
    rw [List.find?_isSome]
    obtain h | h := hfree
    · exact ⟨_, by simp, h⟩
    · exact ⟨_, by simp, h⟩
  obtain ⟨q, hq⟩ := Option.isSome_iff_exists.1 found
  refine ⟨q, ?_, ?_, List.find?_some hq⟩
  · have hq' : [2 * b, 2 * b + 1].find? (s.bgRead b).slotFree = some q := hq
    rw [relocWalk, if_neg (by simp [hopen]), State.fsuSees_bucket hstale]
    dsimp only
    rw [hq']
  · have := List.mem_of_find?_eq_some hq
    simp only [List.mem_cons, List.not_mem_nil, or_false] at this
    omega

/-- A move out of a place that no lock keeps into a free slot: the record stands in the slot too. -/
theorem writeMove_slot {s : State} {m : Move} {r : Nat} (hsrc : s.homeImg m.src = some r) (hkey : recKey r = m.key)
    (hfree : s.slotFree m.dst = true) (hlock : s.slotLocked m.src = false) (hdst : m.dst < stashBase) :
    ∃ w t, writeMove s m = some (w, t) ∧ t.fsu.paths = s.fsu.paths ∧ t.fsu.stash = s.fsu.stash ∧
      tfind t.fsu.slots m.dst = some (setFld r 486 1 (b2n (s.altAt m.key m.dst))) := by
  have serves : s.placeServes m.dst = true := (Bool.and_eq_true_iff.1 hfree).2
  obtain ⟨a, hplaced⟩ := State.placeRec_slot hdst serves m.key r
  obtain ⟨l, hline⟩ := (s.placeRec m.key m.dst r).lineHome_frame m.key m.dst
  rw [writeMove, hsrc]
  refine ⟨_, _, if_pos ⟨hkey, hfree, hlock⟩, ?_⟩
  rw [hline, hplaced]
  exact ⟨rfl, rfl, tfind_tput_same ..⟩

/-- Each walk starts in a bucket of its record. -/
theorem walkStart_cases (s : State) (x b1 b2 : Nat) : walkStart s x b1 b2 = b1 ∨ walkStart s x b1 b2 = b2 := by
  unfold walkStart
  split_ifs <;> simp

theorem State.homeImg_stash (s : State) (i : Nat) : s.homeImg (stashBase + i) = tfind s.fsu.stash i := by
  rw [State.homeImg, if_neg (by omega), Nat.add_sub_cancel_left]

/-- The record of a stash place moves at once where the buckets of its key have free slots. -/
theorem relocStart_moves {s : State} {place r : Nat} (hrec : tfind s.fsu.stash place = some r) (hpaths : s.fsu.paths.length < 16)
    (hidle : s.fsu.paths.any (fun p => p.moves.any (fun m => m.key == recKey r)) = false)
    (hroom : ∀ b, b = (s.flowBuckets (recKey r)).1 ∨ b = (s.flowBuckets (recKey r)).2 →
      bucketOpen s b = true ∧ (s.slotFree (2 * b) = true ∨ s.slotFree (2 * b + 1) = true) ∧
        ∀ k ∈ s.targetKeys (.bucket b), s.stale k = false)
    (hlock : s.slotLocked (stashBase + place) = false) :
    ∃ q w, (q / 2 = (s.flowBuckets (recKey r)).1 ∨ q / 2 = (s.flowBuckets (recKey r)).2) ∧
      (relocStart s place).fsu.paths = s.fsu.paths ++ [⟨[⟨recKey r, stashBase + place, q⟩], w⟩] ∧
      (relocStart s place).fsu.stash = s.fsu.stash ∧
      tfind (relocStart s place).fsu.slots q = some (setFld r 486 1 (b2n (decide (q / 2 ≠ (s.flowBuckets (recKey r)).1)))) := by
  have starts := walkStart_cases s.draw.2 s.draw.1 (s.flowBuckets (recKey r)).1 (s.flowBuckets (recKey r)).2
  generalize hb : walkStart s.draw.2 s.draw.1 (s.flowBuckets (recKey r)).1 (s.flowBuckets (recKey r)).2 = b at starts
  obtain ⟨hopen, hfree, hstale⟩ := hroom b starts
  obtain ⟨q, (hwalk : relocWalk 64 s.draw.2 b [] = _), hq, hqfree⟩ := relocWalk_free (s := s.draw.2) hopen hfree hstale 63
  have bound : b < 2 ^ 27 := by
    obtain ⟨h1, h2⟩ := s.flowBuckets_lt (recKey r)
    obtain rfl | rfl := starts
    · exact h1
    · exact h2
  have slot : q < stashBase := by unfold stashBase; omega
  obtain ⟨w, t, hwrite, hpathsT, hstash, hslot⟩ := writeMove_slot (s := s.draw.2.bgRead b) (m := ⟨recKey r, stashBase + place, q⟩)
    ((State.homeImg_stash ..).trans hrec) rfl hqfree hlock slot
  have run : relocStart s place = { t with fsu := { t.fsu with paths := t.fsu.paths ++ [⟨[⟨recKey r, stashBase + place, q⟩], w⟩] } } := by
    rw [relocStart, hrec]
    dsimp only
    rw [if_neg (by rw [hidle]; simpa using hpaths)]
    have start : walkStart s.draw.2 s.draw.1 (s.draw.2.flowBuckets (recKey r)).1 (s.draw.2.flowBuckets (recKey r)).2 = b := hb
    rw [start, hwalk]
    dsimp only [chainMoves]
    rw [hwrite]
  have alt : (s.draw.2.bgRead b).altAt (recKey r) q = decide (q / 2 ≠ (s.flowBuckets (recKey r)).1) := by
    have same : (s.draw.2.bgRead b).flowBuckets (recKey r) = s.flowBuckets (recKey r) := rfl
    rw [State.altAt, decide_eq_true slot, Bool.true_and, same, bne, decide_not]
    rfl
  rw [run]
  exact ⟨q, w, by rw [hq]; exact starts, by rw [hpathsT]; rfl, hstash, by rw [← alt]; exact hslot⟩

end Sys2Proof.Machine
end

section
/-! The sweeper (R232, R233, R247): its visit of an aged record, and the end of its pass. -/

namespace Sys2Proof.Machine

/-! ## Objects that a hash, a place or a home depends on -/

theorem State.flowHash_congr {s t : State} (h : t.rd Objs.hash_salt = s.rd Objs.hash_salt) (key : Nat) : t.flowHash key = s.flowHash key := by
  rw [State.flowHash, State.flowHash, h]

theorem State.homeOf_congr {s t : State} (hsalt : t.rd Objs.hash_salt = s.rd Objs.hash_salt) (hfsu : t.fsu = s.fsu) (key : Nat) :
    t.homeOf key = s.homeOf key := by
  simp only [State.homeOf, State.copies, State.stashFind, State.flowBuckets, State.flowHash_congr hsalt, hfsu]

/-! ## Lookups that are counted (R221, R246) -/

/-- `t` differs from `s` at most in the counters of lookups and in the controllers of HBM. -/
structure CountsReads (s t : State) : Prop where
  frame : ∃ d h, t = { s with dict := d, hbm := h }
  rd : ∀ o i, o.key i ∉ [Objs.cache_hits.key 0, Objs.cache_misses.key 0, Objs.second_reads.key 0] → t.rd o i = s.rd o i

namespace CountsReads

variable {s t u : State}

theorem refl (s : State) : CountsReads s s := ⟨⟨_, _, rfl⟩, fun _ _ _ => rfl⟩

theorem trans (h : CountsReads s t) (h' : CountsReads t u) : CountsReads s u where
  frame := by
    obtain ⟨_, _, rfl⟩ := h.frame
    obtain ⟨_, _, rfl⟩ := h'.frame
    exact ⟨_, _, rfl⟩
  rd o i ho := (h'.rd o i ho).trans (h.rd o i ho)

theorem ite {c : Prop} [Decidable c] (ht : CountsReads s t) (hu : CountsReads s u) : CountsReads s (if c then t else u) := by
  split
  · exact ht
  · exact hu

theorem bump (s : State) {c : Obj} (hc : c.key 0 ∈ [Objs.cache_hits.key 0, Objs.cache_misses.key 0, Objs.second_reads.key 0])
    (hid : c.key 0 ≠ idKey) : CountsReads s (s.bump c) where
  frame := ⟨_, _, rfl⟩
  rd o i ho := DictUnit.rd_wr_other (fun he => ho (by rw [← he]; exact hc)) hid

theorem bgRead (s : State) (b : Nat) : CountsReads s (s.bgRead b) := ⟨⟨_, _, rfl⟩, fun _ _ _ => rfl⟩

theorem countLookup (s : State) (key : Nat) : CountsReads s (s.countLookup key) := by
  unfold State.countLookup
  split
  · exact .ite (.refl s) (.bump s (by decide) (by decide))
  · dsimp only
    have missed : CountsReads s (if (s.lookupReads key).1 || (s.lookupReads key).2 then s.bump Objs.cache_misses else s) :=
      .ite (.bump s (by decide) (by decide)) (.refl s)
    generalize (if (s.lookupReads key).1 || (s.lookupReads key).2 then s.bump Objs.cache_misses else s) = t at missed ⊢
    have first : CountsReads s (if (s.lookupReads key).1 then t.bgRead (s.flowBuckets key).1 else t) := .ite (missed.trans (.bgRead ..)) missed
    exact .ite ((first.trans (.bgRead ..)).trans (.bump _ (by decide) (by decide))) first

variable (h : CountsReads s t)
include h

theorem fsu : t.fsu = s.fsu := by
  obtain ⟨_, _, rfl⟩ := h.frame
  rfl

theorem cu : t.cu = s.cu := by
  obtain ⟨_, _, rfl⟩ := h.frame
  rfl

theorem seenNow : t.seenNow = s.seenNow := by
  obtain ⟨_, _, rfl⟩ := h.frame
  rfl

theorem flowHash (key : Nat) : t.flowHash key = s.flowHash key := State.flowHash_congr (h.rd _ _ (by decide)) key

theorem homeOf (key : Nat) : t.homeOf key = s.homeOf key := State.homeOf_congr (h.rd _ _ (by decide)) h.fsu key

theorem hueActive : t.hueActive = s.hueActive := h.rd _ _ (by decide)

theorem placeServes (p : Nat) : t.placeServes p = s.placeServes p := by
  have state : t.rd Objs.hbm_state (bucketPc (p / 2)) = s.rd Objs.hbm_state (bucketPc (p / 2)) :=
    h.rd _ _ (by simp only [Obj.key, List.mem_cons, List.not_mem_nil, or_false]; omega)
  rw [State.placeServes, State.placeServes, State.pcServes, State.pcServes, State.pcState, State.pcState, state]

end CountsReads

/-! ## Records that are offered (R483) -/

/-- The flow store and the objects below those of the stream port are in `t` as in `s`. -/
structure KeepsFlow (s t : State) : Prop where
  fsu : t.fsu = s.fsu
  rd : ∀ o i, o.key i < 0x7800 * 256 → t.rd o i = s.rd o i

namespace KeepsFlow

variable {s t : State}

theorem wr_stream (h : KeepsFlow s t) {o : Obj} (ho : o.m = 64 ∧ 0x7800 ≤ o.idx) (c v : Nat) : KeepsFlow s (t.wr o c v) where
  fsu := h.fsu
  rd p i hp := by
    obtain ⟨hm, hidx⟩ := ho
    refine (DictUnit.rd_wr_other ?_ ?_).trans (h.rd p i hp) <;> simp only [Obj.key, hm, idKey] at hp ⊢ <;> omega

theorem raise (h : KeepsFlow s t) (src unit : Nat) : KeepsFlow s (t.raise src unit) := ⟨h.fsu, h.rd⟩

theorem offer (s : State) (c ty : Nat) (body : List Byte) : KeepsFlow s (s.offer c ty body) := by
  have seq : KeepsFlow s (s.wr Objs.str_chan_seq c ((s.rd Objs.str_chan_seq c + 1) % 2 ^ 32)) :=
    wr_stream ⟨rfl, fun _ _ _ => rfl⟩ (by decide) c _
  by_cases hok : s.wouldAdmit c (16 + body.length) = true
  · obtain ⟨u, d, m, h, hd⟩ := offer_admitted (ty := ty) (r := .none) hok
    rw [h, hd]
    exact ⟨rfl, seq.rd⟩
  · simp only [State.wouldAdmit, Bool.and_eq_true, decide_eq_true_eq] at hok
    unfold State.offer
    dsimp only
    split
    · exact seq.wr_stream (by decide) c _
    next hoff =>
      split
      · exact (seq.wr_stream (by decide) c _).raise ..
      · split
        · exact (seq.wr_stream (by decide) c _).raise ..
        · exact absurd ⟨⟨by simpa using hoff, by omega⟩, by omega⟩ hok

end KeepsFlow

/-! ## An aged record (R232, R233) -/

/-- An uncached record leaves its home; the sweeper stands where it stood. -/
theorem State.delRec_uncached {s : State} {key home : Nat} (hline : s.line key = none) (hhome : s.homeOf key = some home)
    (hkey : ∀ r, s.homeImg home = some r → recKey r = key) (hserves : s.placeServes home = true) :
    (s.delRec key).fsu.sweepPos = s.fsu.sweepPos ∧ (s.delRec key).homeImg home = none ∧ ∀ o i, (s.delRec key).rd o i = s.rd o i := by
  have moved := s.delCopies_moves key
  rw [State.delRec_of_uncached hline]
  refine ⟨?_, (State.homeImg_congr rfl rfl _).trans (State.delCopies_home hhome hkey hserves), moved.rd⟩
  obtain ⟨_, _, _, _, _, h⟩ := moved
  rw [State.delPlaces, h]

/-- The sweeper at a record that has aged, that no lock and no leap keeps. -/
theorem sweepOne_aged {s : State} {home r d : Nat} (hrec : s.homeImg home = some r) (hhome : s.homeOf (recKey r) = some home)
    (hserves : s.placeServes home = true) (hline : s.line (recKey r) = none) (hlock : s.flowLocked (recKey r) = false)
    (hclaim : s.claimed (s.flowHash (recKey r)) = false) (hstep : s.fsu.stepPass = 0) (hflush : s.fsu.flushes.any (·.running) = false)
    (htmpl : s.tmplBody (recTmpl r) s.hueActive = some d) (hlimit : fld d 0 32 ≠ 0)
    (hage : (fld d 0 32 : Int) ≤ wrapDiff 32 s.seenNow (recSeen r)) :
    (sweepOne s home (recKey r)).fsu.sweepPos = s.fsu.sweepPos ∧ (sweepOne s home (recKey r)).homeImg home = none ∧
      (sweepOne s home (recKey r)).rd Objs.aged = satAdd 64 (s.rd Objs.aged) 1 := by
  obtain ⟨hpos, hempty, hrd⟩ := State.delRec_uncached hline hhome (fun x hx => by rw [Option.some.inj (hrec.symm.trans hx)]) hserves
  have image : s.curImg (recKey r) home = r := by rw [State.curImg, hline, hrec]; rfl
  have gone : ((s.delRec (recKey r)).bump Objs.aged).homeImg home = none :=
    (State.homeImg_congr (by rw [State.bump_fsu]) (by rw [State.bump_fsu]) _).trans hempty
  have counted : ((s.delRec (recKey r)).bump Objs.aged).rd Objs.aged = satAdd 64 (s.rd Objs.aged) 1 := by
    rw [State.bump_rd_same _ (by decide), hrd]
    rfl
  have run : sweepOne s home (recKey r) =
      if bit d 58 then ((s.delRec (recKey r)).bump Objs.aged).offer (fld d 52 6) 2
        (exportBody home (ofSigned 32 (wrapDiff 32 s.seenNow (recSeen r))) (s.recImage home r))
      else (s.delRec (recKey r)).bump Objs.aged := by
    unfold sweepOne
    simp only [hstep, Nat.lt_irrefl, false_and, if_false, image, hlock, hclaim, Bool.or_self, hflush, Bool.false_eq_true, htmpl,
      Option.getD_some, ne_eq, hlimit, not_false_eq_true, hage, and_self, if_true]
  rw [run]
  split
  · have kept := KeepsFlow.offer ((s.delRec (recKey r)).bump Objs.aged) (fld d 52 6) 2
      (exportBody home (ofSigned 32 (wrapDiff 32 s.seenNow (recSeen r))) (s.recImage home r))
    refine ⟨by rw [kept.fsu, State.bump_fsu, hpos], ?_, (kept.rd _ _ (by decide)).trans counted⟩
    exact (State.homeImg_congr (by rw [kept.fsu]) (by rw [kept.fsu]) _).trans gone
  · exact ⟨by rw [State.bump_fsu, hpos], gone, counted⟩

/-! ## A visit (R232, R247) -/

theorem State.sweepLate_frame (s : State) : ∃ b f, s.sweepLate = { s with fsu := { s.fsu with slowRaised := b }, fm := f } := by
  unfold State.sweepLate
  split <;> exact ⟨_, _, rfl⟩

/-- The sweeper as it comes to a record: what is late has been raised, and the next visit is past that record's home. -/
def State.sweptTo (s : State) (home : Nat) : State := { s.sweepLate with fsu := { s.sweepLate.fsu with sweepPos := home + 1 } }

theorem State.sweptTo_frame (s : State) (home : Nat) :
    ∃ b f, s.sweptTo home = { s with fsu := { s.fsu with slowRaised := b, sweepPos := home + 1 }, fm := f } := by
  obtain ⟨b, f, hlate⟩ := s.sweepLate_frame
  exact ⟨b, f, by rw [State.sweptTo, hlate]⟩

/-- The sweeper visits the next record. -/
theorem sweepVisit_record {s : State} {home r : Nat} (hnext : nextRec s s.fsu.sweepPos = some (home, r)) (hrec : s.homeImg home = some r)
    (hout : recOut r = false) : sweepVisit s .good = sweepOne ((s.sweptTo home).countLookup (recKey r)) home (recKey r) := by
  obtain ⟨b, f, hlate⟩ := s.sweepLate_frame
  obtain ⟨b', f', hswept⟩ := s.sweptTo_frame home
  have next : nextRec s.sweepLate s.sweepLate.fsu.sweepPos = some (home, r) := by rw [hlate]; exact hnext
  have there : ¬((s.sweptTo home).homeImg home).isNone = true := by
    rw [(State.homeImg_congr (by rw [hswept]) (by rw [hswept]) home).trans hrec]
    exact Bool.false_ne_true
  unfold sweepVisit
  dsimp only
  rw [next]
  exact (if_neg there).trans (if_neg (by simp [hout]))

/-- Past the last record a regular pass that has lasted its period ends. -/
theorem sweepVisit_end {s : State} (hnext : nextRec s s.fsu.sweepPos = none) (hflush : s.fsu.flushes.any (·.running) = false)
    (hperiod : s.elapsed s.fsu.sweepStart (s.fsu.sweepLen * 1000000000) = true) :
    (sweepVisit s .good).fsu.sweepPos = 0 ∧ (sweepVisit s .good).fsu.sweepStart = s.fNs := by
  obtain ⟨b, f, hlate⟩ := s.sweepLate_frame
  have next : nextRec s.sweepLate s.sweepLate.fsu.sweepPos = none := by rw [hlate]; exact hnext
  have run : sweepVisit s .good = newPass s.sweepLate := by
    unfold sweepVisit
    dsimp only
    rw [next]
    dsimp only
    rw [hlate, if_neg (by rw [hflush]; exact Bool.false_ne_true)]
    exact if_pos hperiod
  rw [run, hlate]
  exact ⟨rfl, rfl⟩

/-- Settles O30: a returned read goes out of the lookups that wait for it, and the last one ends its lookup; a walk that finds a free slot
at once is one move, whose end clears one of the two places; and the sweeper deletes an aged record and ends its pass. -/
theorem flowRecordsMoveAndAge : Obligations.FlowRecordsMoveAndAge := by
  intro s
  refine ⟨fun tag b frozen rest hread hdone hfill => ⟨_, rfl, ?unasked⟩,
    fun tag b frozen rest f hread hdone hfill hwait => ⟨_, rfl, ?waits⟩,
    fun tag b frozen rest f hread hdone hfill hwait hboth => ⟨_, rfl, bucketReturn_answers hread hdone hfill hwait hboth⟩,
    fun place r hrec hpaths hidle hroom hlock => ?walk, fun i p m hpath hmoves hwaits htwice => ⟨fun hfree hserves => ⟨_, rfl, ?ends⟩,
      fun hlocked hserves => ⟨_, rfl, ?undoes⟩⟩,
    fun home r d hnext hrec hout hhome hserves hline hlock hclaim hstep hflush htmpl hlimit hage => ⟨_, rfl, ?aged⟩,
    fun hnext hflush hperiod => ⟨_, rfl, sweepVisit_end hnext hflush hperiod⟩⟩
  case unasked =>
    rw [bucketReturn_unasked hread hdone hfill]
    exact ⟨rfl, rfl⟩
  case waits =>
    rw [bucketReturn_waits hread hdone hfill hwait]
    exact ⟨rfl, rfl⟩
  case walk =>
    obtain ⟨q, w, hq, hpath, hstash, hslot⟩ := relocStart_moves hrec hpaths hidle hroom hlock
    exact ⟨_, q, w, rfl, hq, hpath, by rw [hstash]; exact hrec, hslot⟩
  case ends =>
    obtain ⟨hpaths, hempty, hcount⟩ := State.endMove_effects htwice hserves
    rw [relocDone_ends hpath hmoves hwaits hfree]
    exact ⟨by rw [hpaths], hempty, hcount⟩
  case undoes =>
    obtain ⟨hpaths, hempty, hcount⟩ := State.undoMove_effects htwice hserves
    rw [relocDone_undoes hpath hmoves hwaits hlocked]
    exact ⟨by rw [hpaths], hempty, hcount⟩
  case aged =>
    obtain ⟨b, f, hswept⟩ := s.sweptTo_frame home
    have reads := CountsReads.countLookup (s.sweptTo home) (recKey r)
    rw [sweepVisit_record hnext hrec hout]
    rw [hswept] at reads ⊢
    generalize State.countLookup _ (recKey r) = t at reads ⊢
    have aged := sweepOne_aged (s := t) (home := home) (r := r) (d := d) ((State.homeImg_congr (by rw [reads.fsu]) (by rw [reads.fsu]) _).trans hrec)
      ((reads.homeOf _).trans hhome) ((reads.placeServes _).trans hserves) (by rw [State.line, reads.fsu]; exact hline) ?lock ?claim
      (by rw [reads.fsu]; exact hstep) (by rw [reads.fsu]; exact hflush) ?tmpl hlimit (by rw [reads.seenNow]; exact hage)
    case lock => simpa only [State.flowLocked, State.targetKeys, reads.fsu] using hlock
    case claim => rw [reads.flowHash, State.claimed, reads.cu]; exact hclaim
    case tmpl => rw [reads.hueActive, State.tmplBody, reads.fsu]; exact htmpl
    obtain ⟨hpos, hempty, hcount⟩ := aged
    rw [reads.fsu] at hpos
    exact ⟨hpos, hempty, by rw [hcount, reads.rd _ _ (by decide)]; rfl⟩

end Sys2Proof.Machine
end

section
/-! The flush of the flow cache (R231): what it leaves of each line. -/

namespace Sys2Proof.Machine

/-- The line of `k` in `t`, where there is one still, is not DIRTY, and was one in `s` that could not leave the cache. -/
def LineFlushed (s t : State) (k : Nat) : Prop :=
  ∀ l, t.line k = some l → l.st ≠ .dirty ∧ ∃ x, s.line k = some x ∧ s.evictable k x = false

/-- From `s` to `t` lines of the flow cache have at most been flushed. -/
structure FlushesLines (s t : State) : Prop where
  sk : t.sk = s.sk
  cu : t.cu = s.cu
  lines : ∀ k, t.line k = s.line k ∨ LineFlushed s t k

theorem State.evictable_congr {s t : State} (hsk : t.sk = s.sk) (hcu : t.cu = s.cu) (k : Nat) (l : Line) : t.evictable k l = s.evictable k l := by
  rw [State.evictable, State.evictable, State.keyBound, State.keyBound, State.oldestLsn, State.oldestLsn, hsk, hcu]

theorem LineFlushed.of_line_none {s t : State} {k : Nat} (h : t.line k = none) : LineFlushed s t k := fun _ hl => absurd (h.symm.trans hl) (by simp)

namespace FlushesLines

variable {s t u : State}

theorem refl (s : State) : FlushesLines s s := ⟨rfl, rfl, fun _ => .inl rfl⟩

/-- What has been flushed stays so. -/
theorem flushed_left (h : FlushesLines t u) {k : Nat} (hk : LineFlushed s t k) : LineFlushed s u k := by
  obtain heq | hflushed := h.lines k
  · exact fun l hl => hk l (heq.symm.trans hl)
  · intro l hl
    obtain ⟨hst, x, hx, -⟩ := hflushed l hl
    exact ⟨hst, (hk x hx).2⟩

/-- What is flushed later was there before. -/
theorem flushed_right (h : FlushesLines s t) {k : Nat} (hk : LineFlushed t u k) : LineFlushed s u k := by
  intro l hl
  obtain ⟨hst, x, hx, hstays⟩ := hk l hl
  obtain heq | hflushed := h.lines k
  · exact ⟨hst, x, heq.symm.trans hx, (State.evictable_congr h.sk h.cu k x).symm.trans hstays⟩
  · exact ⟨hst, (hflushed x hx).2⟩

theorem trans (h : FlushesLines s t) (h' : FlushesLines t u) : FlushesLines s u where
  sk := h'.sk.trans h.sk
  cu := h'.cu.trans h.cu
  lines k := by
    obtain heq | hflushed := h'.lines k
    · obtain heq' | hflushed' := h.lines k
      · exact .inl (heq.trans heq')
      · exact .inr (h'.flushed_left hflushed')
    · exact .inr (h.flushed_right hflushed)

/-- A flush of the line of one key. -/
theorem of_key {k : Nat} (hsk : t.sk = s.sk) (hcu : t.cu = s.cu) (hother : ∀ j, k ≠ j → t.line j = s.line j) (hk : LineFlushed s t k) :
    FlushesLines s t where
  sk := hsk
  cu := hcu
  lines j := by
    obtain rfl | hne := eq_or_ne k j
    · exact .inr hk
    · exact .inl (hother j hne)

end FlushesLines

theorem MovesRecords.line {s t : State} (h : MovesRecords s t) (k : Nat) : t.line k = s.line k := by rw [State.line, State.line, h.lines]

theorem State.line_dropLine_same (s : State) (k : Nat) : (s.dropLine k).line k = none := tfind_tdel_same ..

theorem State.line_dropLine_other {j k : Nat} (h : k ≠ j) (s : State) : (s.dropLine k).line j = s.line j := tfind_tdel_other h ..

theorem State.line_setLine_same (s : State) (k : Nat) (l : Line) : (s.setLine k l).line k = some l := tfind_tput_same ..

theorem State.line_setLine_other {j k : Nat} (h : k ≠ j) (s : State) (l : Line) : (s.setLine k l).line j = s.line j := tfind_tput_other h ..

/-- An evicted line is gone; where it is written back, records move. -/
theorem State.evict_cases (s : State) (k : Nat) (l : Line) :
    MovesRecords (s.dropLine k) (s.evict k l) ∨ s.evict k l = (s.dropLine k).bump Objs.rec_lost := by
  unfold State.evict
  dsimp only
  split
  · exact .inl (.refl _)
  · split
    · exact .inl (State.putRec_moves ..)
    · exact .inr rfl

/-- A line that is lost is gone, or ABSENT (R244). -/
theorem State.loseLine_cases (s : State) (k : Nat) (l : Line) :
    s.loseLine k l = (s.dropLine k).bump Objs.rec_lost ∨ ∃ x : Line, x.st = .absent ∧ s.loseLine k l = (s.setLine k x).bump Objs.rec_lost := by
  unfold State.loseLine
  dsimp only
  split
  · exact .inr ⟨_, rfl, rfl⟩
  · exact .inl rfl

section
variable {s t : State} {k : Nat}

theorem flushesLines_dropLine (h : MovesRecords (s.dropLine k) t ∨ t = (s.dropLine k).bump Objs.rec_lost) : FlushesLines s t ∧ LineFlushed s t k := by
  have gone : t.sk = s.sk ∧ t.cu = s.cu ∧ ∀ j, t.line j = (s.dropLine k).line j := by
    obtain h | rfl := h
    · exact ⟨h.sk, h.cu, h.line⟩
    · exact ⟨rfl, rfl, fun _ => rfl⟩
  obtain ⟨hsk, hcu, hline⟩ := gone
  have flushed : LineFlushed s t k := .of_line_none ((hline k).trans (s.line_dropLine_same k))
  exact ⟨.of_key hsk hcu (fun j hj => (hline j).trans (State.line_dropLine_other hj s)) flushed, flushed⟩

theorem flushesLines_setLine {l x : Line} (hline : s.line k = some l) (hstays : s.evictable k l = false) (hx : x.st ≠ .dirty)
    (h : MovesRecords (s.setLine k x) t ∨ t = (s.setLine k x).bump Objs.rec_lost) : FlushesLines s t ∧ LineFlushed s t k := by
  have changed : t.sk = s.sk ∧ t.cu = s.cu ∧ ∀ j, t.line j = (s.setLine k x).line j := by
    obtain h | rfl := h
    · exact ⟨h.sk, h.cu, h.line⟩
    · exact ⟨rfl, rfl, fun _ => rfl⟩
  obtain ⟨hsk, hcu, hlines⟩ := changed
  have flushed : LineFlushed s t k := fun y hy => by
    rw [hlines, State.line_setLine_same] at hy
    exact ⟨Option.some.inj hy ▸ hx, l, hline, hstays⟩
  exact ⟨.of_key hsk hcu (fun j hj => (hlines j).trans (State.line_setLine_other hj s x)) flushed, flushed⟩

end

/-- A line leaves the cache, or it stays and is not DIRTY. -/
theorem flushLine_flushes (s : State) (k : Nat) : FlushesLines s (flushLine s k) ∧ LineFlushed s (flushLine s k) k := by
  unfold flushLine
  cases hline : s.line k with
  | none => exact ⟨.refl s, .of_line_none hline⟩
  | some l =>
    dsimp only
    split
    · exact flushesLines_dropLine (s.evict_cases k l)
    next hstays =>
      rw [Bool.not_eq_true] at hstays
      split
      · split
        · exact flushesLines_setLine hline hstays LineSt.noConfusion (.inl (State.putRec_moves ..))
        · obtain h | ⟨x, hx, h⟩ := s.loseLine_cases k l
          · exact flushesLines_dropLine (.inr h)
          · exact flushesLines_setLine hline hstays (by rw [hx]; exact LineSt.noConfusion) (.inr h)
      next hclean =>
        refine ⟨.refl s, fun x hx => ?_⟩
        obtain rfl := Option.some.inj (hline.symm.trans hx)
        exact ⟨hclean, l, hline, hstays⟩

theorem foldl_flushLine_flushes (keys : List Nat) (s : State) :
    FlushesLines s (keys.foldl flushLine s) ∧ ∀ k ∈ keys, LineFlushed s (keys.foldl flushLine s) k := by
  induction keys generalizing s with
  | nil => exact ⟨.refl s, fun k hk => absurd hk List.not_mem_nil⟩
  | cons j keys ih =>
    obtain ⟨first, flushed⟩ := flushLine_flushes s j
    obtain ⟨rest, others⟩ := ih (flushLine s j)
    refine ⟨first.trans rest, fun k hk => ?_⟩
    obtain rfl | hk := List.mem_cons.1 hk
    · exact rest.flushed_left flushed
    · exact first.flushed_right (others k hk)

/-- A flush of the cache: every line that could leave it has gone, and none is DIRTY. -/
theorem State.flushCache_flushed (s : State) (k : Nat) : LineFlushed s s.flushCache k := by
  obtain ⟨flushes, listed⟩ := foldl_flushLine_flushes (s.fsu.lines.map (·.1)) s
  cases hline : s.line k with
  | some l => exact listed k (List.mem_map_of_mem (tfind_mem hline))
  | none =>
    obtain heq | hflushed := flushes.lines k
    · exact .of_line_none (heq.trans hline)
    · exact hflushed

end Sys2Proof.Machine
end

section
/-! Flow locks and flow flushes (R193, R231, R240, R243): the grant of a lock, the end of a flush pass, the flush of the cache, and the salt. -/

namespace Sys2Proof.Machine

theorem MovesRecords.host {s t : State} (h : MovesRecords s t) : t.host = s.host := by
  obtain ⟨_, _, _, _, _, rfl⟩ := h
  rfl

/-! ## The grant of a lock (R193) -/

/-- The completion of an entry of a ring that is not stopping concerns neither records nor threads. -/
theorem State.cmdComplete_units {s : State} {r : Nat} (h : (s.cr r).st ≠ .stopping) (status result flags : Nat) :
    (s.cmdComplete r status result flags).fsu = s.fsu ∧ (s.cmdComplete r status result flags).sk = s.sk := by
  have told (t : State) (v : Nat) : (t.msix v).fsu = t.fsu ∧ (t.msix v).sk = t.sk := by
    unfold State.msix
    dsimp only
    split <;> exact ⟨rfl, rfl⟩
  unfold State.cmdComplete
  dsimp only
  rw [if_neg h]
  split
  · exact ⟨rfl, rfl⟩
  · generalize hu : State.bump _ Objs.cmd_entries r = u
    have counted : u.fsu = s.fsu ∧ u.sk = s.sk := by rw [← hu]; exact ⟨rfl, rfl⟩
    split
    · refine ⟨(told ..).1.trans ?_, (told ..).2.trans ?_⟩ <;> split
      · exact counted.1
      · exact counted.1
      · exact counted.2
      · exact counted.2
    · split
      · exact counted
      · exact counted

/-- The end of a lock command of a path, or of a ring that is not stopping. -/
theorem lockEnd_units {s : State} {l : FlowLock} (h : ∀ r, l.owner = .ring r → (s.cr r).st ≠ .stopping) (status : Nat) :
    (lockEnd s l status).fsu = s.fsu ∧ (lockEnd s l status).sk = s.sk := by
  have ring (r : Nat) (hr : l.owner = .ring r) (w : RingWait) (n : Nat) :
      (s.cmdWaitDone r w status n).fsu = s.fsu ∧ (s.cmdWaitDone r w status n).sk = s.sk := by
    unfold State.cmdWaitDone
    split
    · split
      · exact State.cmdComplete_units (h r hr) ..
      · exact ⟨rfl, rfl⟩
    · exact ⟨rfl, rfl⟩
  have run (c k : Nat) : (s.endRun c k status).fsu = s.fsu ∧ (s.endRun c k status).sk = s.sk := by
    obtain ⟨d, hd, -⟩ := s.endRun_frame c k status
    rw [hd]
    exact ⟨rfl, rfl⟩
  unfold lockEnd
  split
  next hr _ => exact ring _ hr ..
  next hr _ => exact ring _ hr ..
  · exact run ..
  · exact run ..

section
variable {s : State} {i : Nat} {l : FlowLock} (hlock : s.fsu.locks[i]? = some l)
include hlock

/-- A leap that writes a record of a lock's target keeps the lock from being granted. -/
theorem lockGrant_waits {k : Nat} (hk : k ∈ s.targetKeys l.target) (hwrites : leapWrites s k = true) : lockGrant s i = s := by
  have kept : (s.targetKeys l.target).any (leapWrites s) = true := List.any_eq_true.2 ⟨k, hk, hwrites⟩
  rw [lockGrant, hlock]
  exact if_pos (by rw [kept, Bool.or_true])

theorem lockGrant_free (hpending : l.granted = false) (hfree : ∀ k ∈ s.targetKeys l.target, leapWrites s k = false) :
    lockGrant s i = lockTaken s i l := by
  have free : (s.targetKeys l.target).any (leapWrites s) = false := List.any_eq_false.2 fun k hk => by rw [hfree k hk]; exact Bool.false_ne_true
  rw [lockGrant, hlock]
  exact if_neg (by rw [hpending, free]; decide)

end

/-- A lock that no insert waits for is held. -/
theorem lockTaken_held {s : State} {l : FlowLock} (hins : l.ins = none) (hring : ∀ r, l.owner = .ring r → (s.cr r).st ≠ .stopping) (i : Nat) :
    (lockTaken s i l).fsu = { s.fsu with locks := s.fsu.locks.set i { l with granted := true } } := by
  unfold lockTaken
  split
  next hsome => exact absurd (hins.symm.trans hsome) (by simp)
  · exact (lockEnd_units (s := { s with fsu := { s.fsu with locks := s.fsu.locks.set i { l with granted := true } } }) hring 1).1

/-! ## An insert of software (R240) -/

theorem insertRec_units (s : State) (key img : Nat) : (insertRec s key img).2.host = s.host ∧ (insertRec s key img).2.sk = s.sk := by
  unfold insertRec
  split
  · exact ⟨rfl, rfl⟩
  · split
    · exact ⟨rfl, rfl⟩
    · dsimp only
      split
      · exact ⟨(State.placeRec_moves ..).host, (State.placeRec_moves ..).sk⟩
      · exact ⟨(State.placeRec_moves ..).host, (State.placeRec_moves ..).sk⟩

theorem State.settleLocks_of_none {s : State} (h : ∀ x ∈ s.sk.threads, x.2.lockWait = none) : s.settleLocks = s := by
  have none_waits : s.sk.threads.filter (fun t => t.2.lockWait.isSome) = [] :=
    List.filter_eq_nil_iff.2 fun x hx => by rw [h x hx]; exact Bool.false_ne_true
  rw [State.settleLocks, none_waits]
  rfl

/-- The lock of an insert that waited is gone, and the record has its place. -/
theorem lockTaken_insert {s : State} {k img : Nat} {o : Owner} (hring : ∀ r, o = .ring r → (s.cr r).st ≠ .stopping)
    (hwait : ∀ x ∈ s.sk.threads, x.2.lockWait = none) (i : Nat) :
    (lockTaken s i ⟨.key k, o, false, some img⟩).fsu =
      (insertRec { s with fsu := { s.fsu with locks := s.fsu.locks.eraseIdx i } } k img).2.fsu := by
  obtain ⟨hhost, hsk⟩ := insertRec_units { s with fsu := { s.fsu with locks := s.fsu.locks.eraseIdx i } } k img
  unfold lockTaken
  dsimp only
  generalize insertRec { s with fsu := { s.fsu with locks := s.fsu.locks.eraseIdx i } } k img = x at hhost hsk ⊢
  have ring (r : Nat) (hr : o = .ring r) : (x.2.cr r).st ≠ .stopping := by
    rw [State.cr, hhost]
    exact hring r hr
  obtain ⟨hfsu, hsk'⟩ := lockEnd_units (l := ⟨.key k, o, false, some img⟩) ring x.1
  rw [State.settleLocks_of_none (by rw [hsk', hsk]; exact hwait), hfsu]

end Sys2Proof.Machine
end

section
/-! The end of a pass of flow flushes (R243): completions keep the flushes that wait, and report their end. -/

namespace Sys2Proof.Machine

/-- Time and the flow flushes are in `t` as in `s`, and what `s` had raised `t` has raised too. -/
structure KeepsPass (s t : State) : Prop where
  time : t.time = s.time
  flushes : t.fsu.flushes = s.fsu.flushes
  raised : ∀ e ∈ s.fm.raised, e ∈ t.fm.raised

namespace KeepsPass

variable {s t u : State}

theorem of_units (htime : t.time = s.time) (hfsu : t.fsu = s.fsu) (hfm : t.fm = s.fm) : KeepsPass s t :=
  ⟨htime, by rw [hfsu], by rw [hfm]; exact fun _ he => he⟩

theorem refl (s : State) : KeepsPass s s := .of_units rfl rfl rfl

theorem trans (h : KeepsPass s t) (h' : KeepsPass t u) : KeepsPass s u :=
  ⟨h'.time.trans h.time, h'.flushes.trans h.flushes, fun e he => h'.raised e (h.raised e he)⟩

theorem ite {c : Prop} [Decidable c] (ht : KeepsPass s t) (hu : KeepsPass s u) : KeepsPass s (if c then t else u) := by
  split
  · exact ht
  · exact hu

/-- A step that is taken in one case only. -/
theorem ite_then {c : Prop} [Decidable c] (ht : KeepsPass s t) (hu : KeepsPass t u) : KeepsPass s (if c then u else t) := .ite (ht.trans hu) ht

theorem foldl {α : Type} {f : State → α → State} (h : ∀ s a, KeepsPass s (f s a)) (l : List α) (s : State) : KeepsPass s (l.foldl f s) :=
  List.foldlRecOn (motive := KeepsPass s) l f (refl s) fun t ht a _ => ht.trans (h t a)

end KeepsPass

/-- Occurrences are only added. -/
theorem State.raise_keepsPass (s : State) (src unit detail : Nat) (cause : Option (Nat × Nat)) (item : Nat) :
    KeepsPass s (s.raise src unit detail cause item) := ⟨rfl, rfl, fun _ he => List.mem_append_left _ he⟩

theorem State.wr_keepsPass (s : State) (o : Obj) (i v : Nat) : KeepsPass s (s.wr o i v) := .of_units rfl rfl rfl

theorem State.bump_keepsPass (s : State) (o : Obj) (i n : Nat) : KeepsPass s (s.bump o i n) := .of_units rfl rfl rfl

theorem State.put_keepsPass (s : State) (x : Output) : KeepsPass s (s.put x) := .of_units rfl rfl rfl

theorem State.setCr_keepsPass (s : State) (r : Nat) (x : CmdRing) : KeepsPass s (s.setCr r x) := .of_units rfl rfl rfl

theorem State.setTh_keepsPass (s : State) (k : Nat) (x : Thread) : KeepsPass s (s.setTh k x) := .of_units rfl rfl rfl

/-! ## Operations that waited for a lock (R189, R192) -/

theorem insertStatus_keepsPass (s : State) (x : Thread) (h : Handle) : KeepsPass s (insertStatus s x h).2.2 := by
  have reserved (l : List Nat) : KeepsPass s { s with fsu := { s.fsu with reserved := l } } := ⟨rfl, rfl, fun _ he => he⟩
  unfold insertStatus
  split_ifs
  · exact .refl s
  · exact .refl s
  · exact (s.bump_keepsPass ..).trans (State.raise_keepsPass ..)
  · exact (s.bump_keepsPass ..).trans (State.raise_keepsPass ..)
  · split
    · exact (s.bump_keepsPass ..).trans (State.raise_keepsPass ..)
    · exact reserved _

theorem acceptOp_keepsPass (s : State) (k : Nat) (o : LeapOp) : KeepsPass s (acceptOp s k o) := by
  unfold acceptOp
  dsimp only
  split
  · exact .refl s
  · split
    · exact (insertStatus_keepsPass ..).trans (State.setTh_keepsPass ..)
    · exact s.setTh_keepsPass ..
    · exact s.setTh_keepsPass ..

theorem State.settleLock_keepsPass (s : State) (k : Nat) : KeepsPass s (s.settleLock k) := by
  unfold State.settleLock
  dsimp only
  split
  · exact .refl s
  · split
    · exact .refl s
    · exact .ite (.refl s) (acceptOp_keepsPass ..)

/-! ## Completions (R425, R430) -/

theorem State.releaseRing_keepsPass (s : State) (r : Nat) : KeepsPass s (s.releaseRing r) := by
  have settled (t : State) : KeepsPass t t.settleLocks := .foldl (fun u _ => u.settleLock_keepsPass _) _ t
  have dropped : KeepsPass s (s.dropLocks (.ring r)) := by
    unfold State.dropLocks
    refine .trans ?_ (settled _)
    exact ⟨rfl, rfl, fun _ he => he⟩
  exact .ite dropped ((dropped.trans (State.bump_keepsPass ..)).trans (State.raise_keepsPass ..))

theorem State.msix_keepsPass (s : State) (v : Nat) : KeepsPass s (s.msix v) := .ite (.of_units rfl rfl rfl) (s.put_keepsPass _)

theorem abortRest_keepsPass (n r : Nat) (s : State) : KeepsPass s (abortRest n r s) := by
  induction n generalizing s with
  | zero => exact .refl s
  | succ n ih =>
    unfold abortRest
    dsimp only
    refine .ite (.refl s) (.trans ?_ (ih _))
    exact (((s.put_keepsPass _).trans (State.setCr_keepsPass ..)).trans (State.bump_keepsPass ..)).trans (State.bump_keepsPass ..)

theorem State.finishStop_keepsPass (s : State) (r : Nat) : KeepsPass s (s.finishStop r) := by
  have told (t : State) (x : CmdRing) : KeepsPass t (t.abortIrqs x) := .ite (.foldl (fun t _ => t.msix_keepsPass _) _ t) (.refl t)
  unfold State.finishStop
  exact ((((abortRest_keepsPass 65536 r s).trans (State.put_keepsPass ..)).trans (told ..)).trans (State.setCr_keepsPass ..)).trans
    (State.releaseRing_keepsPass ..)

theorem State.cmdComplete_keepsPass (s : State) (r status result flags : Nat) : KeepsPass s (s.cmdComplete r status result flags) := by
  have entered (x y : CmdRing) : KeepsPass s (((s.put (statusWrite x status result)).setCr r y).bump Objs.cmd_entries r) :=
    ((s.put_keepsPass _).trans (State.setCr_keepsPass ..)).trans (State.bump_keepsPass ..)
  unfold State.cmdComplete
  exact .ite (s.setCr_keepsPass ..) (.ite_then (.ite_then (.trans (.ite_then (entered ..) (State.bump_keepsPass ..)) (State.put_keepsPass ..))
    (State.msix_keepsPass ..)) (State.finishStop_keepsPass ..))

theorem State.bufWrite_keepsPass (s : State) (addr : Nat) (data : List Byte) (dma : Dma) : KeepsPass s (s.bufWrite addr data dma) :=
  .ite (.refl s) (s.put_keepsPass _)

theorem State.flushRing_keepsPass (s : State) (r deleted skipped : Nat) (dma : Dma) : KeepsPass s (s.flushRing r deleted skipped dma) := by
  have failed (t : State) : KeepsPass t t.aerUncorr := .of_units rfl rfl rfl
  unfold State.flushRing
  split
  · refine .ite (.ite (.ite ?_ ?_) (s.cmdComplete_keepsPass ..)) (.refl s)
    · exact (s.bufWrite_keepsPass ..).trans (State.cmdComplete_keepsPass ..)
    · exact (((s.bufWrite_keepsPass ..).trans (failed _)).trans (State.cmdComplete_keepsPass ..)).trans (State.raise_keepsPass ..)
  · exact .refl s

theorem State.endRun_keepsPass (s : State) (c k r : Nat) : KeepsPass s (s.endRun c k r) := by
  obtain ⟨d, h, -⟩ := s.endRun_frame c k r
  rw [h]
  exact .of_units rfl rfl rfl

/-! ## The end of a pass (R243) -/

/-- A flush that ends raises EV114 and then tells who asked for it. -/
theorem flushEnd_tells (dma : List (Fin 64 × Dma)) (s : State) (f : FlowFlush) :
    KeepsPass ((s.wr Objs.flow_flush_deleted 0 f.deleted).raise 114 0) (flushEnd dma s f) := by
  unfold flushEnd
  split
  · exact State.endRun_keepsPass ..
  · exact State.flushRing_keepsPass ..

theorem flushEnd_keepsPass (dma : List (Fin 64 × Dma)) (s : State) (f : FlowFlush) : KeepsPass s (flushEnd dma s f) :=
  ((s.wr_keepsPass ..).trans (State.raise_keepsPass ..)).trans (flushEnd_tells dma s f)

theorem flushEnd_raises (dma : List (Fin 64 × Dma)) (s : State) (f : FlowFlush) : ∃ e ∈ (flushEnd dma s f).fm.raised, e.src = 114 :=
  ⟨_, (flushEnd_tells dma s f).raised _ (List.mem_append_right _ (List.mem_singleton_self _)), rfl⟩

/-- The flushes that end, one after another. -/
theorem foldl_flushEnd_raises (dma : List (Fin 64 × Dma)) {l : List FlowFlush} (h : l ≠ []) (s : State) :
    ∃ e ∈ (l.foldl (flushEnd dma) s).fm.raised, e.src = 114 := by
  obtain ⟨f, rest, rfl⟩ := List.exists_cons_of_ne_nil h
  obtain ⟨e, he, hsrc⟩ := flushEnd_raises dma s f
  exact ⟨e, (KeepsPass.foldl (flushEnd_keepsPass dma) rest _).raised e he, hsrc⟩

/-- A flush pass that has visited every record ends after its second: the flushes that ran end, and those that wait start. -/
theorem flowFlushDone_ends {s : State} (hruns : s.fsu.flushes.any (·.running) = true) (hnext : nextRec s s.fsu.sweepPos = none)
    (htime : s.elapsed s.fsu.sweepStart 1000000000 = true) (dma : List (Fin 64 × Dma)) :
    (flowFlushDone s dma).fsu.sweepPos = 0 ∧ (flowFlushDone s dma).fsu.sweepStart = s.fNs ∧
      (flowFlushDone s dma).fsu.flushes = startRunning 4 (s.fsu.flushes.filter (fun f => !f.running)) ∧
      ∃ e ∈ (flowFlushDone s dma).fm.raised, e.src = 114 := by
  obtain ⟨b, f, hlate⟩ := s.sweepLate_frame
  have run : flowFlushDone s dma = newPass ((s.fsu.flushes.filter (·.running)).foldl (flushEnd dma)
      { s with fsu := { s.fsu with slowRaised := b, flushes := s.fsu.flushes.filter (fun f => !f.running) }, fm := f }) := by
    unfold flowFlushDone
    rw [if_pos ⟨hruns, by rw [hnext]; rfl, htime⟩, hlate]
  have some_run : s.fsu.flushes.filter (·.running) ≠ [] := by
    obtain ⟨x, hx, hrun⟩ := List.any_eq_true.1 hruns
    exact List.ne_nil_of_mem (List.mem_filter.2 ⟨hx, hrun⟩)
  have ended := KeepsPass.foldl (flushEnd_keepsPass dma) (s.fsu.flushes.filter (·.running))
    { s with fsu := { s.fsu with slowRaised := b, flushes := s.fsu.flushes.filter (fun f => !f.running) }, fm := f }
  have raised := foldl_flushEnd_raises dma some_run
    { s with fsu := { s.fsu with slowRaised := b, flushes := s.fsu.flushes.filter (fun f => !f.running) }, fm := f }
  rw [run]
  generalize List.foldl (flushEnd dma) _ (s.fsu.flushes.filter (·.running)) = t at ended raised ⊢
  refine ⟨rfl, ?_, congrArg (startRunning 4) ended.flushes, raised⟩
  rw [State.fNs, ← ended.time]
  rfl

/-! ## The obligation -/

/-- Settles O29: a grant ends the command that waits for it, an insert with its lock; the flushes that end keep those that wait; and a flush of
the cache takes each line in turn. -/
theorem flowLocksAndFlushes : Obligations.FlowLocksAndFlushes := by
  intro c v s
  refine ⟨fun i l hlock hpending hins hring hfree => ⟨_, rfl, ?grant⟩, fun i l k hlock hk hwrites => ?waits,
    fun i k img o hlock hfree hring hwait => ⟨_, rfl, ?insert⟩,
    fun dma hruns hnext htime => ⟨_, rfl, flowFlushDone_ends hruns hnext htime dma⟩, fun ⟨hserved, hjudge⟩ => ?cache, fun ⟨hserved, hjudge⟩ => ?salt⟩
  case grant =>
    rw [lockGrant_free hlock hpending hfree]
    exact lockTaken_held hins hring i
  case waits => exact congrArg Host.Outcome.next (lockGrant_waits hlock hk hwrites)
  case insert =>
    rw [lockGrant_free hlock rfl fun x hx => by rw [List.mem_singleton.1 hx]; exact hfree]
    exact lockTaken_insert hring hwait i
  case cache =>
    refine ⟨_, congrArg Host.Outcome.next (writeObj_accepted hserved hjudge), answered_ok .., ?_⟩
    obtain ⟨u, d, m, hbase, -⟩ := acceptBase_frame c Objs.flow_cache_flush 0 v s (by decide)
    have flushed := (acceptBase c Objs.flow_cache_flush 0 v s).flushCache_flushed
    rw [hbase] at flushed ⊢
    refine ⟨fun k l hl hleaves => Option.eq_none_iff_forall_ne_some.2 fun x hx => ?_, fun k l hl => (flushed k l hl).1⟩
    obtain ⟨-, y, hy, hstays⟩ := flushed k x hx
    obtain rfl := Option.some.inj (hl.symm.trans hy)
    exact absurd (hleaves.symm.trans hstays) (by decide)
  case salt =>
    have ho : HueObj Objs.hash_salt := by decide
    refine ⟨_, congrArg Host.Outcome.next (writeObj_accepted hserved hjudge), answered_ok .., ?_, acceptBase_fsu ho⟩
    obtain ⟨u, d, m, hbase, -, hvalue⟩ := acceptBase_frame c Objs.hash_salt 0 v s ho.key_ne_idKey
    rw [State.put_rd, noApply, hbase]
    exact hvalue (by decide) rfl (by decide) ho.not_writeSide

end Sys2Proof.Machine
end

section
/-! Entries of the MAC table (R276 to R278, R296): their fields, and what an insert leaves in the table. -/

namespace Sys2Proof.Machine

/-! ## Fields (R276) -/

/-- The entry that a learn request makes. -/
def learntEntry (r : LearnReq) : Nat := r.key * 2 ^ 68 + r.port * 2 ^ 60 + macTime r.ts * 2 ^ 44 + 256 + b2n r.pair * 8

theorem macTime_lt (lin : Nat) : macTime lin < 2 ^ 16 := Nat.mod_lt _ (by decide)

theorem learntEntry_fields {r : LearnReq} (hkey : r.key < 2 ^ 60) (hport : r.port < 256) :
    macKey (learntEntry r) = r.key ∧ macPort (learntEntry r) = r.port ∧ macSeen (learntEntry r) = macTime r.ts ∧
      macStatic (learntEntry r) = false := by
  have time := macTime_lt r.ts
  have pair : b2n r.pair ≤ 1 := by cases r.pair <;> decide
  simp only [macKey, macPort, macSeen, macStatic, bit, fld_eq, learntEntry, beq_eq_false_iff_ne]
  refine ⟨?_, ?_, ?_, ?_⟩ <;> omega

/-- Fields above ALT, and STATIC, do not depend on the slot that an entry is in. -/
theorem State.fixAlt_fld (s : State) (i e : Nat) {lo w : Nat} (h : 7 ≤ lo) : fld (s.fixAlt i e) lo w = fld e lo w :=
  fld_setFld_other (.inr h)

theorem State.fixAlt_key (s : State) (i e : Nat) : macKey (s.fixAlt i e) = macKey e := s.fixAlt_fld i e (by decide)

/-! ## Searches (R296) -/

theorem State.macFind_eq_none {s : State} {k : Nat} : s.macFind k = none ↔ ∀ p ∈ s.tbl.mac, macKey p.2 ≠ k := by
  simp only [State.macFind, Option.map_eq_none_iff, List.find?_eq_none, decide_eq_true_eq, ne_eq]

/-- A key that no other entry has is found where its entry was put. -/
theorem State.macFind_setMac_tput {s : State} {i e : Nat} {u : Tab Nat} (h : ∀ p ∈ u, macKey p.2 ≠ macKey e) :
    (s.setMac (tput i e u)).macFind (macKey e) = some i := by
  have put : (i, e) ∈ tput i e u := tfind_mem (tfind_tput_same i e u)
  obtain ⟨p, hfind⟩ := Option.isSome_iff_exists.1 (List.find?_isSome.2 ⟨_, put, by simp only [decide_true]⟩ :
    ((tput i e u).find? (fun p => macKey p.2 = macKey e)).isSome)
  have hkey : macKey p.2 = macKey e := by simpa only [decide_eq_true_eq] using List.find?_some hfind
  obtain rfl | hp := mem_tput (List.mem_of_find?_eq_some hfind)
  · exact congrArg (Option.map (·.1)) hfind
  · exact absurd hkey (h p hp)

/-! ## Inserts (R278) -/

/-- Every entry of `u` has the key of an entry of `t`. -/
def KeysAmong (t u : Tab Nat) : Prop := ∀ p ∈ u, ∃ q ∈ t, macKey q.2 = macKey p.2

theorem KeysAmong.refl (t : Tab Nat) : KeysAmong t t := fun p hp => ⟨p, hp, rfl⟩

theorem KeysAmong.trans {t u v : Tab Nat} (h : KeysAmong t u) (h' : KeysAmong u v) : KeysAmong t v := fun p hp => by
  obtain ⟨q, hq, hkey⟩ := h' p hp
  obtain ⟨x, hx, hkey'⟩ := h q hq
  exact ⟨x, hx, hkey'.trans hkey⟩

/-- An entry that is moved keeps its key. -/
theorem keysAmong_move {t : Tab Nat} {i j e x : Nat} (hj : tfind t j = some e) (hkey : macKey x = macKey e) :
    KeysAmong t (tdel j (tput i x t)) := fun p hp => by
  obtain rfl | hp := mem_tput (List.mem_of_mem_filter hp)
  · exact ⟨_, tfind_mem hj, hkey.symm⟩
  · exact ⟨p, hp, rfl⟩

theorem runPath_keysAmong {fix : Nat → Nat → Nat} (hfix : ∀ i e, macKey (fix i e) = macKey e) (path : List Nat) (t : Tab Nat) :
    KeysAmong t (runPath fix path t).1 := by
  induction path generalizing t with
  | nil => exact .refl t
  | cons i path ih =>
    cases path with
    | nil => exact .refl t
    | cons j rest =>
      unfold runPath
      split
      next hj => exact (keysAmong_move hj (hfix ..)).trans (ih _)
      · exact .refl t

/-- An insert that finds a place puts the entry there, and beside it leaves the keys that the table had. -/
theorem State.macInsert_some {s t : State} {e : Nat} (h : s.macInsert e = some t) :
    ∃ i u, t = s.setMac (tput i (s.fixAlt i e) u) ∧ KeysAmong s.tbl.mac u := by
  unfold State.macInsert at h
  dsimp only at h
  split at h
  next path _ =>
    have kept := runPath_keysAmong s.fixAlt_key path s.tbl.mac
    split at h
    next hrun =>
      rw [hrun] at kept
      exact ⟨_, _, (Option.some.inj h).symm, kept⟩
    · cases h
  · split at h
    · exact ⟨_, _, (Option.some.inj h).symm, .refl _⟩
    · cases h

end Sys2Proof.Machine
end

section
/-! The learn unit (R282 to R285): a request that is applied as a new entry, a refresh, a violation of a static entry, or a move. -/

namespace Sys2Proof.Machine

/-! ## The request that is taken (R282) -/

/-- The oldest request has left the sort buffer. -/
def State.learnTaken (s : State) (r : LearnReq) (rest : List LearnReq) : State :=
  { s with tbl := { s.tbl with sort := rest, applied := some r.ts } }

theorem learnApply_due {s : State} {r : LearnReq} {rest : List LearnReq} (hsort : s.tbl.sort = r :: rest)
    (hdue : ((s.rd Objs.learn_sort_window * 65536 : Nat) : Int) ≤ linDiff (toLin s.time.w) r.ts) (pos : Nat) :
    learnApply s .good pos = learnOne (s.learnTaken r rest) r := by
  rw [learnApply, hsort]
  exact if_pos hdue

/-! ## Its cases (R284) -/

section
variable {s : State} {r : LearnReq} (hflush : s.tbl.flush = none) (hlock : s.macLocked r.key = false)
include hflush hlock

/-- A key that is not in the table. -/
theorem learnOne_absent (hfind : s.macFind r.key = none) (hmode : s.rd Objs.learn_mode r.inPort ≠ 1) :
    learnOne s r = (macPut (s.macFresh r.key) (learntEntry r)).2 := by
  unfold learnOne
  simp only [hflush, hlock, hfind, Bool.false_eq_true, if_false, beq_eq_false_iff_ne.2 hmode]
  rfl

variable {i e : Nat} (hfind : s.macFind r.key = some i) (he : tfind s.tbl.mac i = some e)
include hfind he

/-- A key that is in the table. -/
theorem learnOne_present :
    learnOne s r =
      if macPort e = r.port then (s.setMac (tput i (setFld e 44 16 (macTime r.ts)) s.tbl.mac)).macFresh r.key
      else if macStatic e = true then (s.bump Objs.static_violation).raise 124 0
      else if (s.rd Objs.learn_mode r.inPort == 1) = true then s.bump Objs.learn_denied
      else macMove s i e r (macTime r.ts) := by
  unfold learnOne
  simp only [hflush, hlock, hfind, he, Bool.false_eq_true, if_false, Option.getD_some]

theorem learnOne_refresh (hport : macPort e = r.port) :
    learnOne s r = (s.setMac (tput i (setFld e 44 16 (macTime r.ts)) s.tbl.mac)).macFresh r.key := by
  rw [learnOne_present hflush hlock hfind he, if_pos hport]

theorem learnOne_violation (hport : macPort e ≠ r.port) (hstatic : macStatic e = true) :
    learnOne s r = (s.bump Objs.static_violation).raise 124 0 := by
  rw [learnOne_present hflush hlock hfind he, if_neg hport, if_pos hstatic]

theorem learnOne_move (hport : macPort e ≠ r.port) (hstatic : macStatic e = false) (hmode : s.rd Objs.learn_mode r.inPort ≠ 1) :
    learnOne s r = macMove s i e r (macTime r.ts) := by
  rw [learnOne_present hflush hlock hfind he, if_neg hport, if_neg (by rw [hstatic]; decide), if_neg (by rwa [beq_iff_eq])]

end

/-! ## A new entry (R278, R284) -/

/-- An insert concerns no learn request. -/
theorem macPut_requests (s : State) (e : Nat) : (macPut s e).2.tbl.sort = s.tbl.sort ∧ (macPut s e).2.tbl.applied = s.tbl.applied := by
  unfold macPut
  cases hput : s.macInsert e with
  | none => exact ⟨rfl, rfl⟩
  | some t =>
    obtain ⟨i, u, rfl, -⟩ := State.macInsert_some hput
    exact ⟨rfl, rfl⟩

/-- A new entry is found with the fields of its request, or the table is full. -/
theorem macPut_learnt {s : State} {r : LearnReq} (hkey : r.key < 2 ^ 60) (hport : r.port < 256) (hfind : s.macFind r.key = none) :
    (∃ i e, (macPut s (learntEntry r)).2.macFind r.key = some i ∧ tfind (macPut s (learntEntry r)).2.tbl.mac i = some e ∧
      macPort e = r.port ∧ macSeen e = macTime r.ts ∧ macStatic e = false) ∨ (macPut s (learntEntry r)).2 = s.raise 123 0 := by
  obtain ⟨key, port, seen, static⟩ := learntEntry_fields hkey hport
  unfold macPut
  cases hput : s.macInsert (learntEntry r) with
  | none => exact .inr rfl
  | some t =>
    obtain ⟨i, u, rfl, kept⟩ := State.macInsert_some hput
    have hkey' := (s.fixAlt_key i (learntEntry r)).trans key
    have alone : ∀ p ∈ u, macKey p.2 ≠ macKey (s.fixAlt i (learntEntry r)) := fun p hp heq => by
      obtain ⟨q, hq, hsame⟩ := kept p hp
      exact State.macFind_eq_none.1 hfind q hq (hsame.trans (heq.trans hkey'))
    have found := State.macFind_setMac_tput (s := s) (i := i) alone
    rw [hkey'] at found
    refine .inl ⟨i, _, found, tfind_tput_same .., (s.fixAlt_fld i _ (by decide)).trans port, (s.fixAlt_fld i _ (by decide)).trans seen, ?_⟩
    exact (congrArg (· == 1) (s.fixAlt_fld i _ (by decide))).trans static

/-! ## A move (R285) -/

/-- Whether a move is the first of its window. -/
def State.moveFresh (s : State) (e now : Nat) : Bool :=
  decide (macMoves e = 0) || decide ((macUnits (s.rd Objs.move_window * 1000000000) : Int) ≤ wrapDiff 16 now (macMoveFirst e))

/-- An entry with a move counted. -/
def countedMove (e now : Nat) (fresh : Bool) : Nat :=
  if fresh then setFld (setFld e 28 16 now) 9 3 1 else setFld e 9 3 (min (macMoves e + 1) 7)

/-- An entry that has moved to the port of a request. -/
def movedEntry (e now : Nat) (fresh : Bool) (r : LearnReq) : Nat :=
  setFld (setFld (setFld (setFld (countedMove e now fresh) 12 16 now) 60 8 r.port) 44 16 now) 3 1 (b2n r.pair)

theorem macMove_held {s : State} {i e now : Nat} {r : LearnReq} (h : s.macHeld e now = true) :
    macMove s i e r now = s.bump Objs.move_refused := if_pos h

/-- A move with its count and its event, EV120. -/
def State.moved (s : State) (i x key : Nat) : State :=
  (((s.setMac (tput i x s.tbl.mac)).macFresh key).bump Objs.moves).raise 120 0

theorem macMove_free {s : State} {i e now : Nat} {r : LearnReq} (h : s.macHeld e now = false) :
    macMove s i e r now =
      if s.rd Objs.move_limit < macMoves (movedEntry e now (s.moveFresh e now) r) then
        (s.moved i (movedEntry e now (s.moveFresh e now) r) r.key).raise 121 0
      else s.moved i (movedEntry e now (s.moveFresh e now) r) r.key := by
  unfold macMove
  rw [if_neg (by rw [h]; decide)]
  rfl

section
variable (e now : Nat) (fresh : Bool)

/-- A count of moves leaves the other fields. -/
theorem countedMove_fld {lo w : Nat} (h : lo + w ≤ 9 ∨ 44 ≤ lo) : fld (countedMove e now fresh) lo w = fld e lo w := by
  unfold countedMove
  split
  · rw [fld_setFld_other (by omega), fld_setFld_other (by omega)]
  · rw [fld_setFld_other (by omega)]

theorem countedMove_moves : macMoves (countedMove e now fresh) = if fresh then 1 else min (macMoves e + 1) 7 := by
  unfold countedMove
  split
  · exact fld_setFld_same ..
  · refine (fld_setFld_same ..).trans (Nat.mod_eq_of_lt ?_)
    omega

theorem countedMove_first (hnow : now < 2 ^ 16) : macMoveFirst (countedMove e now fresh) = if fresh then now else macMoveFirst e := by
  unfold countedMove macMoveFirst
  split
  · rw [fld_setFld_other (by omega), fld_setFld_same, Nat.mod_eq_of_lt hnow]
  · exact fld_setFld_other (by omega)

variable (r : LearnReq)

/-- A move writes PORT, LAST_SEEN, MOVE_LAST and PAIR beside the count. -/
theorem movedEntry_fld {lo w : Nat} (hlast : lo + w ≤ 12 ∨ 28 ≤ lo) (hport : lo + w ≤ 60 ∨ 68 ≤ lo) (hseen : lo + w ≤ 44 ∨ 60 ≤ lo)
    (hpair : lo + w ≤ 3 ∨ 4 ≤ lo) : fld (movedEntry e now fresh r) lo w = fld (countedMove e now fresh) lo w := by
  unfold movedEntry
  rw [fld_setFld_other hpair, fld_setFld_other hseen, fld_setFld_other hport, fld_setFld_other hlast]

theorem movedEntry_key : macKey (movedEntry e now fresh r) = macKey e :=
  (movedEntry_fld e now fresh r (by decide) (by decide) (by decide) (by decide)).trans (countedMove_fld e now fresh (by decide))

theorem movedEntry_static : macStatic (movedEntry e now fresh r) = macStatic e :=
  congrArg (· == 1)
    ((movedEntry_fld e now fresh r (by decide) (by decide) (by decide) (by decide)).trans (countedMove_fld e now fresh (by decide)))

theorem movedEntry_moves : macMoves (movedEntry e now fresh r) = if fresh then 1 else min (macMoves e + 1) 7 :=
  (movedEntry_fld e now fresh r (by decide) (by decide) (by decide) (by decide)).trans (countedMove_moves e now fresh)

variable {now} (hnow : now < 2 ^ 16)
include hnow

theorem movedEntry_first : macMoveFirst (movedEntry e now fresh r) = if fresh then now else macMoveFirst e :=
  (movedEntry_fld e now fresh r (by decide) (by decide) (by decide) (by decide)).trans (countedMove_first e now fresh hnow)

theorem movedEntry_seen : macSeen (movedEntry e now fresh r) = now := by
  rw [macSeen, movedEntry, fld_setFld_other (by omega), fld_setFld_same, Nat.mod_eq_of_lt hnow]

theorem movedEntry_last : macMoveLast (movedEntry e now fresh r) = now := by
  rw [macMoveLast, movedEntry, fld_setFld_other (by omega), fld_setFld_other (by omega), fld_setFld_other (by omega), fld_setFld_same,
    Nat.mod_eq_of_lt hnow]

omit hnow in
theorem movedEntry_port {r : LearnReq} (hport : r.port < 256) : macPort (movedEntry e now fresh r) = r.port := by
  rw [macPort, movedEntry, fld_setFld_other (by omega), fld_setFld_other (by omega), fld_setFld_same]
  exact Nat.mod_eq_of_lt hport

end

end Sys2Proof.Machine
end

section
/-! The MAC sweeper, and the start of the flush of a port (R286, R287). -/

namespace Sys2Proof.Machine

/-! ## The sweeper (R286) -/

/-- The sweeper has gone past a place. -/
def State.macSwept (s : State) (pos : Nat) : State := { s with tbl := { s.tbl with sweepPos := pos } }

theorem macSweep_entry {s : State} {i e : Nat} (h : s.tbl.mac.find? (fun p => s.tbl.sweepPos ≤ p.1) = some (i, e)) :
    macSweep s .good = macSweepOne (s.macSwept (i + 1)) i e := by
  rw [macSweep, h]
  rfl

theorem macSweep_end {s : State} (h : s.tbl.mac.find? (fun p => s.tbl.sweepPos ≤ p.1) = none) (ecc : WordEcc) :
    macSweep s ecc = { s with tbl := { s.tbl with sweepPos := 0, stepPass := s.tbl.stepPass - 1 } } := by
  rw [macSweep, h]

/-- An entry that has aged leaves the table, outside the passes that R375 protects. -/
theorem macSweepOne_aged {s : State} {i e : Nat} (hstatic : macStatic e = false) (hlock : s.macLocked (macKey e) = false)
    (hlimit : s.rd Objs.mac_age_limit ≠ 0) (hpass : s.tbl.stepPass = 0)
    (hage : (macUnits (s.rd Objs.mac_age_limit * 1000000000) : Int) ≤ wrapDiff 16 s.macNow (macSeen e)) :
    macSweepOne s i e = (((s.setMac (tput i e s.tbl.mac)).macFresh (macKey e)).macDelete i).bump Objs.mac_aged := by
  have plain : ¬ (0 < s.tbl.stepPass ∧ s.tbl.old.contains (macKey e) = true) := fun h => absurd h.1 (by omega)
  unfold macSweepOne
  simp only [if_neg plain]
  exact if_pos ⟨hstatic, hlock, hlimit, hage, hpass⟩

/-! ## A flush starts (R287) -/

theorem State.startMacFlush_idle {s : State} (h : s.tbl.flush = none) (port : Nat) (o : Option Owner) :
    s.startMacFlush port o = { s with tbl := { s.tbl with flush := some ⟨port, o, 0⟩ } } := if_pos (by rw [h]; rfl)

theorem State.startMacFlush_waits {s : State} (h : s.tbl.flush ≠ none) (hfull : s.macFlushFull = false) (port : Nat) (o : Option Owner) :
    s.startMacFlush port o = { s with tbl := { s.tbl with flushWait := s.tbl.flushWait ++ [⟨port, o, 0⟩] } } := by
  obtain ⟨f, hf⟩ := Option.ne_none_iff_exists'.1 h
  have room : s.tbl.flushWait.length < 4 := by simpa [State.macFlushFull, hf] using hfull
  unfold State.startMacFlush
  dsimp only
  rw [if_neg (by rw [hf]; exact Bool.false_ne_true), if_pos room]

/-- A flush that is accepted starts, or joins those that wait. -/
theorem State.startMacFlush_tbl {s : State} (hfull : s.macFlushFull = false) (port : Nat) (o : Option Owner) :
    (s.startMacFlush port o).dict = s.dict ∧ (s.startMacFlush port o).tbl.mac = s.tbl.mac ∧
      (s.tbl.flush = none → (s.startMacFlush port o).tbl.flush = some ⟨port, o, 0⟩) ∧
      (s.tbl.flush ≠ none → (s.startMacFlush port o).tbl.flush = s.tbl.flush ∧
        (s.startMacFlush port o).tbl.flushWait = s.tbl.flushWait ++ [⟨port, o, 0⟩]) := by
  by_cases h : s.tbl.flush = none
  · rw [s.startMacFlush_idle h]
    exact ⟨rfl, rfl, fun _ => rfl, fun hne => absurd h hne⟩
  · rw [s.startMacFlush_waits h hfull]
    exact ⟨rfl, rfl, fun hnone => absurd hnone h, fun _ => ⟨rfl, rfl⟩⟩

/-- What an accepted write finds of the tables as it takes effect. -/
theorem acceptBase_tbl {c : Ctx} {o : Obj} {i : Nat} {v : List Byte} {s : State} (hid : o.key i ≠ idKey) : (acceptBase c o i v s).tbl = s.tbl := by
  obtain ⟨u, d, m, h, -⟩ := acceptBase_frame c o i v s hid
  rw [h]

/-- An accepted write of mac_flush_port: its run reads BUSY, and its flush starts or waits. -/
theorem macFlushPort_base {c : Ctx} {v : List Byte} {s u : State} (hroom : s.macFlushFull = false)
    (hu : u = (acceptBase c Objs.mac_flush_port 0 v s).startRun c (Objs.mac_flush_port.key 0) 8) (port : Nat) (o : Option Owner) :
    (u.startMacFlush port o).result c (Objs.mac_flush_port.key 0) = 8 ∧ (u.startMacFlush port o).tbl.mac = s.tbl.mac ∧
      (s.tbl.flush = none → (u.startMacFlush port o).tbl.flush = some ⟨port, o, 0⟩) ∧
      (s.tbl.flush ≠ none → (u.startMacFlush port o).tbl.flush = s.tbl.flush ∧
        (u.startMacFlush port o).tbl.flushWait = s.tbl.flushWait ++ [⟨port, o, 0⟩]) := by
  have htbl : u.tbl = s.tbl := by rw [hu, State.startRun_tbl, acceptBase_tbl (by decide)]
  have hrun : u.result c (Objs.mac_flush_port.key 0) = 8 := by rw [hu, State.startRun_result]
  obtain ⟨hdict, hflush⟩ := State.startMacFlush_tbl (s := u) (by rw [State.macFlushFull, htbl]; exact hroom) port o
  rw [htbl] at hflush
  exact ⟨(congrArg (fun d : DictUnit => tget 0 d.results _) hdict).trans hrun, hflush⟩

end Sys2Proof.Machine
end

section
/-! The end of the flush of a port (R287): what it deletes, and what the completion of its owner's entry leaves of the MAC table (R433, R434). -/

namespace Sys2Proof.Machine

/-! ## Completions (R433, R434) -/

/-- The tables, but for the locks of MAC entries, and mac_flushed are in `t` as in `s`. -/
structure KeepsMac (s t : State) : Prop where
  tbl : ∃ l, t.tbl = { s.tbl with macLocks := l }
  flushed : t.rd Objs.mac_flushed = s.rd Objs.mac_flushed

namespace KeepsMac

variable {s t u : State}

theorem of_units (htbl : t.tbl = s.tbl) (hdict : t.dict = s.dict) : KeepsMac s t :=
  ⟨⟨_, htbl⟩, congrArg (DictUnit.rd · Objs.mac_flushed 0) hdict⟩

theorem refl (s : State) : KeepsMac s s := .of_units rfl rfl

theorem trans (h : KeepsMac s t) (h' : KeepsMac t u) : KeepsMac s u where
  tbl := by
    obtain ⟨l, hl⟩ := h.tbl
    obtain ⟨m, hm⟩ := h'.tbl
    exact ⟨m, by rw [hm, hl]⟩
  flushed := h'.flushed.trans h.flushed

theorem ite {c : Prop} [Decidable c] (ht : KeepsMac s t) (hu : KeepsMac s u) : KeepsMac s (if c then t else u) := by
  split
  · exact ht
  · exact hu

/-- A step that is taken in one case only. -/
theorem ite_then {c : Prop} [Decidable c] (ht : KeepsMac s t) (hu : KeepsMac t u) : KeepsMac s (if c then u else t) := .ite (ht.trans hu) ht

theorem foldl {α : Type} {f : State → α → State} (h : ∀ s a, KeepsMac s (f s a)) (l : List α) (s : State) : KeepsMac s (l.foldl f s) :=
  List.foldlRecOn (motive := KeepsMac s) l f (refl s) fun t ht a _ => ht.trans (h t a)

end KeepsMac

theorem State.bump_keepsMac (s : State) {o : Obj} {i : Nat} (h : o.key i ≠ Objs.mac_flushed.key 0) (hid : o.key i ≠ idKey) (n : Nat) :
    KeepsMac s (s.bump o i n) := ⟨⟨_, rfl⟩, DictUnit.rd_wr_other h hid⟩

/-- The counters of a command ring lie above 0x7100. -/
theorem State.bump_ring_keepsMac (s : State) {o : Obj} (ho : o.m = 1 ∧ 0x7100 ≤ o.idx) (r n : Nat) : KeepsMac s (s.bump o r n) := by
  obtain ⟨hm, hidx⟩ := ho
  refine s.bump_keepsMac ?_ ?_ n <;> simp only [Obj.key, hm, idKey] <;> omega

theorem State.raise_keepsMac (s : State) (src unit detail : Nat) (cause : Option (Nat × Nat)) (item : Nat) :
    KeepsMac s (s.raise src unit detail cause item) := .of_units rfl rfl

theorem State.put_keepsMac (s : State) (x : Output) : KeepsMac s (s.put x) := .of_units rfl rfl

theorem State.setCr_keepsMac (s : State) (r : Nat) (x : CmdRing) : KeepsMac s (s.setCr r x) := .of_units rfl rfl

theorem State.setTh_keepsMac (s : State) (k : Nat) (x : Thread) : KeepsMac s (s.setTh k x) := .of_units rfl rfl

theorem insertStatus_keepsMac (s : State) (x : Thread) (h : Handle) : KeepsMac s (insertStatus s x h).2.2 := by
  have full : KeepsMac s (s.bump Objs.ins_full) := s.bump_keepsMac (by decide) (by decide) 1
  unfold insertStatus
  split_ifs
  · exact .refl s
  · exact .refl s
  · exact full.trans (State.raise_keepsMac ..)
  · exact (s.bump_keepsMac (by decide) (by decide) 1).trans (State.raise_keepsMac ..)
  · split
    · exact full.trans (State.raise_keepsMac ..)
    · exact .of_units rfl rfl

theorem acceptOp_keepsMac (s : State) (k : Nat) (o : LeapOp) : KeepsMac s (acceptOp s k o) := by
  unfold acceptOp
  dsimp only
  split
  · exact .refl s
  · split
    · exact (insertStatus_keepsMac ..).trans (State.setTh_keepsMac ..)
    · exact s.setTh_keepsMac ..
    · exact s.setTh_keepsMac ..

theorem State.settleLock_keepsMac (s : State) (k : Nat) : KeepsMac s (s.settleLock k) := by
  unfold State.settleLock
  dsimp only
  split
  · exact .refl s
  · split
    · exact .refl s
    · exact .ite (.refl s) (acceptOp_keepsMac ..)

theorem State.releaseRing_keepsMac (s : State) (r : Nat) : KeepsMac s (s.releaseRing r) := by
  have dropped : KeepsMac s (s.dropLocks (.ring r)) := by
    unfold State.dropLocks State.settleLocks
    refine .trans ?_ (.foldl (fun u (x : Nat × Thread) => u.settleLock_keepsMac x.1) _ _)
    exact ⟨⟨_, rfl⟩, rfl⟩
  exact .ite dropped ((dropped.trans (State.bump_ring_keepsMac _ (by decide) ..)).trans (State.raise_keepsMac ..))

theorem State.msix_keepsMac (s : State) (v : Nat) : KeepsMac s (s.msix v) := .ite (.of_units rfl rfl) (s.put_keepsMac _)

theorem abortRest_keepsMac (n r : Nat) (s : State) : KeepsMac s (abortRest n r s) := by
  induction n generalizing s with
  | zero => exact .refl s
  | succ n ih =>
    unfold abortRest
    dsimp only
    refine .ite (.refl s) (.trans ?_ (ih _))
    exact (((s.put_keepsMac _).trans (State.setCr_keepsMac ..)).trans (State.bump_ring_keepsMac _ (by decide) ..)).trans
      (State.bump_ring_keepsMac _ (by decide) ..)

theorem State.finishStop_keepsMac (s : State) (r : Nat) : KeepsMac s (s.finishStop r) := by
  have told (t : State) (x : CmdRing) : KeepsMac t (t.abortIrqs x) := .ite (.foldl (fun t _ => t.msix_keepsMac _) _ t) (.refl t)
  unfold State.finishStop
  exact ((((abortRest_keepsMac 65536 r s).trans (State.put_keepsMac ..)).trans (told ..)).trans (State.setCr_keepsMac ..)).trans
    (State.releaseRing_keepsMac ..)

theorem State.cmdComplete_keepsMac (s : State) (r status result flags : Nat) : KeepsMac s (s.cmdComplete r status result flags) := by
  have counted (t : State) {o : Obj} (ho : o.m = 1 ∧ 0x7100 ≤ o.idx) : KeepsMac t (t.bump o r) := t.bump_ring_keepsMac ho r 1
  have entered (x y : CmdRing) : KeepsMac s (((s.put (statusWrite x status result)).setCr r y).bump Objs.cmd_entries r) :=
    ((s.put_keepsMac _).trans (State.setCr_keepsMac ..)).trans (counted _ (by decide))
  unfold State.cmdComplete
  exact .ite (s.setCr_keepsMac ..) (.ite_then (.ite_then (.trans (.ite_then (entered ..) (counted _ (by decide))) (State.put_keepsMac ..))
    (State.msix_keepsMac ..)) (State.finishStop_keepsMac ..))

theorem State.flushRing_keepsMac (s : State) (r deleted skipped : Nat) (dma : Dma) : KeepsMac s (s.flushRing r deleted skipped dma) := by
  have written (addr : Nat) (data : List Byte) : KeepsMac s (s.bufWrite addr data dma) := .ite (.refl s) (s.put_keepsMac _)
  have failed (t : State) : KeepsMac t t.aerUncorr := .of_units rfl rfl
  unfold State.flushRing
  split
  · refine .ite (.ite (.ite ?_ ?_) (s.cmdComplete_keepsMac ..)) (.refl s)
    · exact (written ..).trans (State.cmdComplete_keepsMac ..)
    · exact (((written ..).trans (failed _)).trans (State.cmdComplete_keepsMac ..)).trans (State.raise_keepsMac ..)
  · exact .refl s

theorem State.endRun_keepsMac (s : State) (c k r : Nat) : KeepsMac s (s.endRun c k r) := by
  obtain ⟨d, h, hd⟩ := s.endRun_frame c k r
  rw [h]
  exact ⟨⟨_, rfl⟩, hd ..⟩

/-- The owner of a flush learns of its end; the tables and what has been raised stay. -/
theorem flushOwnerDone_keeps (s : State) (o : Option Owner) (key deleted skipped : Nat) (dma : Dma) :
    KeepsMac s (flushOwnerDone s o key deleted skipped dma) ∧ KeepsPass s (flushOwnerDone s o key deleted skipped dma) := by
  unfold flushOwnerDone
  split
  · exact ⟨s.flushRing_keepsMac .., s.flushRing_keepsPass ..⟩
  · exact ⟨s.endRun_keepsMac .., s.endRun_keepsPass ..⟩
  · exact ⟨.refl s, .refl s⟩

/-! ## A flush ends (R287) -/

/-- Words without an uncorrectable error at most raise events. -/
theorem foldl_slotEcc {words : List (BitVec 22 × WordEcc)} (h : ∀ w ∈ words, w.2 ≠ .uncorrected) (s : State) :
    ∃ f, words.foldl (fun s w => slotEcc s w.1.toNat w.2) s = { s with fm := f } := by
  induction words generalizing s with
  | nil => exact ⟨s.fm, rfl⟩
  | cons w words ih =>
    have rest := ih (fun x hx => h x (List.mem_cons_of_mem w hx))
    have first := h w List.mem_cons_self
    obtain ⟨slot, ecc⟩ := w
    cases ecc with
    | good => exact rest s
    | corrected => exact rest (s.raise 125 0)
    | uncorrected => exact absurd rfl first

/-- Of the state, deletions change the MAC table with its locks and marks. -/
theorem foldl_macDelete_frame (gone : Tab Nat) (s : State) :
    ∃ m l o, gone.foldl (fun s p => s.macDelete p.1) s = { s with tbl := { s.tbl with mac := m, macLocks := l, old := o } } ∧
      ∀ i e, tfind m i = some e → tfind s.tbl.mac i = some e ∧ ∀ x, (i, x) ∉ gone := by
  induction gone generalizing s with
  | nil => exact ⟨_, _, _, rfl, fun _ _ he => ⟨he, fun _ => List.not_mem_nil⟩⟩
  | cons p gone ih =>
    obtain ⟨m, l, o, h, hkept⟩ := ih (s.macDelete p.1)
    refine ⟨m, l, o, h, fun i e he => ?_⟩
    obtain ⟨hfind, hout⟩ := hkept i e he
    have hfind' : tfind (tdel p.1 s.tbl.mac) i = some e := hfind
    have hne : p.1 ≠ i := by
      rintro rfl
      rw [tfind_tdel_same] at hfind'
      cases hfind'
    refine ⟨(tfind_tdel_other hne _).symm.trans hfind', fun x hx => ?_⟩
    obtain rfl | hx := List.mem_cons.1 hx
    · exact hne rfl
    · exact hout x hx

/-- The entries that fall to a flush by a port. -/
def State.macFalling (s : State) (port : Nat) : Tab Nat := s.tbl.mac.filter (fun p => macFlushes s port p.2)

/-- The first of the flushes that wait runs. -/
def State.nextMacFlush (s : State) (waiting : List MacFlush) : State :=
  { s with tbl := { s.tbl with flush := waiting.head?, flushWait := waiting.drop 1 } }

/-- The walk of a flush has deleted what falls to it, the next flush starts, and the owner learns of the end. -/
theorem macFlushDone_eq {s : State} {f : MacFlush} {words : List (BitVec 22 × WordEcc)} (hrun : s.tbl.flush = some f)
    (hwords : ∀ w ∈ words, w.2 ≠ .uncorrected) (dma : Dma) :
    ∃ (t : State) (skipped : Nat), macFlushDone s words dma = flushOwnerDone ((t.bump Objs.mac_flushed 0 (s.macFalling f.port).length).raise 127 0)
        f.owner (Objs.mac_flush_port.key 0) (s.macFalling f.port).length skipped dma ∧
      t.dict = s.dict ∧ t.tbl.flush = s.tbl.flushWait.head? ∧ t.tbl.flushWait = s.tbl.flushWait.drop 1 ∧
      ∀ i e, tfind t.tbl.mac i = some e → tfind s.tbl.mac i = some e ∧ macFlushes s f.port e = false := by
  obtain ⟨fm, hread⟩ := foldl_slotEcc hwords s
  obtain ⟨m, l, o, hgone, hkept⟩ := foldl_macDelete_frame (s.macFalling f.port) { s with fm := fm }
  refine ⟨State.nextMacFlush { s with fm := fm, tbl := { s.tbl with mac := m, macLocks := l, old := o } } s.tbl.flushWait,
    (s.tbl.mac.filter (fun p => macSkips s f.port p.2)).length, ?_, rfl, rfl, rfl, fun i e he => ?_⟩
  · rw [macFlushDone, hrun]
    dsimp only
    rw [hread]
    exact congrArg (fun u : State => flushOwnerDone (((u.nextMacFlush s.tbl.flushWait).bump Objs.mac_flushed 0 _).raise 127 0) f.owner _ _ _ dma)
      hgone
  · obtain ⟨hfind, hout⟩ := hkept i e he
    exact ⟨hfind, Bool.eq_false_iff.2 fun hfalls => hout e (List.mem_filter.2 ⟨tfind_mem hfind, hfalls⟩)⟩

/-- The completion of the owner's entry takes nothing of the end of a flush back. -/
theorem macFlushDone_ends {s : State} {f : MacFlush} {words : List (BitVec 22 × WordEcc)} (hrun : s.tbl.flush = some f)
    (hwords : ∀ w ∈ words, w.2 ≠ .uncorrected) (dma : Dma) :
    (macFlushDone s words dma).tbl.flush = s.tbl.flushWait.head? ∧ (macFlushDone s words dma).tbl.flushWait = s.tbl.flushWait.drop 1 ∧
      (∀ i e, tfind (macFlushDone s words dma).tbl.mac i = some e → tfind s.tbl.mac i = some e ∧ macFlushes s f.port e = false) ∧
      (∃ e ∈ (macFlushDone s words dma).fm.raised, e.src = 127) ∧
      (macFlushDone s words dma).rd Objs.mac_flushed = satAdd 64 (s.rd Objs.mac_flushed) (s.macFalling f.port).length := by
  obtain ⟨t, skipped, run, hdict, hflush, hwait, hkept⟩ := macFlushDone_eq hrun hwords dma
  generalize (s.macFalling f.port).length = n at run ⊢
  obtain ⟨⟨⟨l, htbl⟩, hcount⟩, told⟩ :=
    flushOwnerDone_keeps ((t.bump Objs.mac_flushed 0 n).raise 127 0) f.owner (Objs.mac_flush_port.key 0) n skipped dma
  rw [← run] at htbl hcount told
  rw [htbl]
  refine ⟨hflush, hwait, hkept, ⟨_, told.raised _ (List.mem_append_right _ (List.mem_singleton_self _)), rfl⟩, hcount.trans ?_⟩
  exact (t.bump_rd_same (by decide) n).trans (congrArg (fun d : DictUnit => satAdd 64 (d.rd Objs.mac_flushed 0) n) hdict)

end Sys2Proof.Machine
end

section
/-! The MAC table (R282 to R287, R298): the effects of a move, the rewrite of a table word, and the statement. -/

namespace Sys2Proof.Machine

/-! ## A move that is counted (R285) -/

/-- A move leaves the entry in its slot with the fields of R285, counts it, and raises EV120, and beyond move_limit EV121. -/
theorem macMove_counts {s : State} {i e now : Nat} {r : LearnReq} (hheld : s.macHeld e now = false) {x : Nat}
    (hx : x = movedEntry e now (s.moveFresh e now) r) :
    (macMove s i e r now).tbl.sort = s.tbl.sort ∧ (macMove s i e r now).tbl.mac = tput i x s.tbl.mac ∧
      (macMove s i e r now).rd Objs.moves = satAdd 64 (s.rd Objs.moves) 1 ∧ (∃ o ∈ (macMove s i e r now).fm.raised, o.src = 120) ∧
      (s.rd Objs.move_limit < macMoves x → ∃ o ∈ (macMove s i e r now).fm.raised, o.src = 121) := by
  have counted (u : State) (hu : u = (s.moved i x r.key).raise 121 0 ∨ u = s.moved i x r.key) :
      u.tbl.sort = s.tbl.sort ∧ u.tbl.mac = tput i x s.tbl.mac ∧ u.rd Objs.moves = satAdd 64 (s.rd Objs.moves) 1 ∧
        ∃ o ∈ u.fm.raised, o.src = 120 := by
    have own : (s.moved i x r.key).rd Objs.moves = satAdd 64 (s.rd Objs.moves) 1 := State.bump_rd_same _ (by decide) 1
    obtain ⟨o, ho, hsrc, -⟩ := State.mem_raise_raised (((s.setMac (tput i x s.tbl.mac)).macFresh r.key).bump Objs.moves) 120 0
    obtain rfl | rfl := hu
    · exact ⟨rfl, rfl, own, o, List.mem_append_left _ ho, hsrc⟩
    · exact ⟨rfl, rfl, own, o, ho, hsrc⟩
  rw [macMove_free hheld, ← hx]
  split
  next =>
    obtain ⟨hsort, hmac, hmoves, hevent⟩ := counted _ (.inl rfl)
    obtain ⟨o, ho, hsrc, -⟩ := State.mem_raise_raised (s.moved i x r.key) 121 0
    exact ⟨hsort, hmac, hmoves, hevent, fun _ => ⟨o, ho, hsrc⟩⟩
  next hlimit =>
    obtain ⟨hsort, hmac, hmoves, hevent⟩ := counted _ (.inr rfl)
    exact ⟨hsort, hmac, hmoves, hevent, fun h => absurd h hlimit⟩

/-! ## The rewrite of a word (R298) -/

section
variable {s : State} {x item : Nat} (hbad : tfind s.tbl.bad (badKey x item) = some true)
include hbad

theorem tableRewriteDone_whole (hshadow : s.shadowRead 2 (badKey x item) .first ≠ .neither) :
    tableRewriteDone s x item true = s.wordWhole x item := by
  rw [tableRewriteDone, hbad]
  exact if_pos (by simpa using hshadow)

theorem tableRewriteDone_unreadable {readable : Bool}
    (h : readable = false ∨ s.shadowRead 2 (badKey x item) .first = .neither) :
    tableRewriteDone s x item readable =
      ({ s with tbl := { s.tbl with bad := tput (badKey x item) false s.tbl.bad } } : State).raise 126 0 0
        (s.shadowRefused 2 (badKey x item)) (badKey x item) := by
  rw [tableRewriteDone, hbad]
  exact if_neg (by obtain h | h := h <;> simp [h])

end

/-! ## The obligation -/

/-- Settles O31: the request that is due is taken and falls under one case of R284; a flush deletes exactly what falls to it, and its completion
concerns no entry; the sweeper and a rewrite each delete at most one place. -/
theorem macTableLearnsAndAges : Obligations.MacTableLearnsAndAges := by
  intro c v s
  refine ⟨fun r rest pos hsort hkey hport hdue hflush hlock => ?learn, fun hend => ⟨_, rfl, ?sweepEnd⟩,
    fun i e hnext hstatic hlock hlimit hpass hage => ⟨_, rfl, ?aged⟩, fun ⟨hserved, hjudge⟩ => ?flush,
    fun f words dma hrun hwords => ⟨_, rfl, macFlushDone_ends hrun hwords dma⟩, fun x item hbad => ?rewrite⟩
  case learn =>
    have hexec : exec (.learnApply .good pos) s = .next (learnOne (s.learnTaken r rest) r) :=
      congrArg Host.Outcome.next (learnApply_due hsort hdue pos)
    have htime := macTime_lt r.ts
    refine ⟨fun hfind hmode => ⟨_, hexec, ?new⟩, fun i e hfind he => ⟨fun hsame => ⟨_, hexec, ?refresh⟩,
      fun hmoved hstatic => ⟨_, hexec, ?violation⟩, fun hmoved hstatic hmode => ⟨fun hheld => ⟨_, hexec, ?held⟩,
        fun hheld => ⟨_, movedEntry e (macTime r.ts) (s.moveFresh e (macTime r.ts)) r, hexec, ?move⟩⟩⟩⟩
    case new =>
      rw [learnOne_absent (s := s.learnTaken r rest) hflush hlock hfind hmode]
      obtain ⟨hrest, htaken⟩ := macPut_requests ((s.learnTaken r rest).macFresh r.key) (learntEntry r)
      refine ⟨hrest, htaken, ?_⟩
      obtain hfound | hfull := macPut_learnt (s := (s.learnTaken r rest).macFresh r.key) hkey hport hfind
      · exact .inl hfound
      · exact .inr (by rw [hfull]; exact ⟨rfl, State.raise_raised rfl 123 0⟩)
    case refresh =>
      rw [learnOne_refresh (s := s.learnTaken r rest) hflush hlock hfind he hsame]
      exact ⟨rfl, tfind_tput_same .., fun j hj => tfind_tput_other hj.symm ..⟩
    case violation =>
      rw [learnOne_violation (s := s.learnTaken r rest) hflush hlock hfind he hmoved hstatic]
      exact ⟨rfl, rfl, State.raise_raised rfl 124 0, State.bump_rd_same (s.learnTaken r rest) (by decide) 1⟩
    case held =>
      rw [learnOne_move (s := s.learnTaken r rest) hflush hlock hfind he hmoved hstatic hmode,
        macMove_held (s := s.learnTaken r rest) hheld]
      exact ⟨rfl, rfl, State.bump_rd_same (s.learnTaken r rest) (by decide) 1⟩
    case move =>
      rw [learnOne_move (s := s.learnTaken r rest) hflush hlock hfind he hmoved hstatic hmode]
      obtain ⟨hrest, hmac, hmoves, hevent, hlimit⟩ := macMove_counts (s := s.learnTaken r rest) (i := i) (r := r) hheld rfl
      rw [hmac]
      exact ⟨hrest, tfind_tput_same .., movedEntry_port _ _ hport, movedEntry_seen _ _ _ htime, movedEntry_last _ _ _ htime,
        movedEntry_first _ _ _ htime, movedEntry_moves .., movedEntry_key .., (movedEntry_static ..).trans hstatic,
        fun n hn => tfind_tput_other hn.symm .., hmoves, hevent, hlimit⟩
  case sweepEnd =>
    rw [macSweep_end hend]
    exact ⟨rfl, rfl⟩
  case aged =>
    rw [macSweep_entry hnext, macSweepOne_aged (s := s.macSwept (i + 1)) hstatic hlock hlimit hpass hage]
    exact ⟨rfl, tfind_tdel_same .., fun j hj => (tfind_tdel_other hj.symm _).trans (tfind_tput_other hj.symm ..),
      State.bump_rd_same _ (by decide) 1⟩
  case flush =>
    obtain ⟨-, hjudged⟩ := judgeWrite_ok hjudge
    have hroom : s.macFlushFull = false := by
      cases hfull : s.macFlushFull with
      | false => rfl
      | true => simp [refuseIf, hfull] at hjudged
    exact ⟨_, congrArg Host.Outcome.next (writeObj_accepted hserved hjudge), answered_ok .., macFlushPort_base hroom rfl ..⟩
  case rewrite =>
    refine ⟨fun hshadow => ⟨_, rfl, ?_⟩, fun hshadow => congrArg Host.Outcome.next ?_, _, rfl, ?_⟩
    · rw [tableRewriteDone_whole hbad hshadow]
      exact tfind_tdel_same ..
    · rw [tableRewriteDone_unreadable hbad (.inr hshadow), tableRewriteDone_unreadable hbad (.inl rfl)]
    · rw [tableRewriteDone_unreadable hbad (.inl rfl)]
      exact ⟨tfind_tput_same .., _, rfl, rfl, rfl⟩

end Sys2Proof.Machine
end

section
/-! What the end of a packet leaves of the traffic manager and the fabric (R76, R428, R433): all but the packets in flight, and the objects of
the buffers, the fabric and RED. -/

namespace Sys2Proof.Machine

/-! ## The relation -/

/-- The keys of the pools' and the fabric's values and counters, and of RED's counters. -/
abbrev FabricKey (k : Nat) : Prop := 0x6010 * 256 ≤ k ∧ k < 0x6030 * 256 ∨ 0x3600 * 256 ≤ k ∧ k < 0x3700 * 256

/-- The traffic manager but for its packets in flight, and those objects, are in `t` as in `s`; what was raised stays raised. -/
structure KeepsFabric (s t : State) : Prop extends KeepsObjs FabricKey s t where
  tm : ∃ f, t.tm = { s.tm with flights := f }

namespace KeepsFabric

variable {s t u : State}

theorem of_objs (h : KeepsObjs FabricKey s t) (htm : t.tm = s.tm) : KeepsFabric s t := ⟨h, _, htm⟩

theorem of_units (hdict : t.dict = s.dict) (hfm : t.fm = s.fm) (htm : t.tm = s.tm) : KeepsFabric s t := .of_objs (.of_units hdict hfm) htm

theorem refl (s : State) : KeepsFabric s s := .of_units rfl rfl rfl

theorem trans (h : KeepsFabric s t) (h' : KeepsFabric t u) : KeepsFabric s u where
  toKeepsObjs := h.toKeepsObjs.trans h'.toKeepsObjs
  tm := by
    obtain ⟨f, hf⟩ := h.tm
    obtain ⟨g, hg⟩ := h'.tm
    exact ⟨g, by rw [hg, hf]⟩

theorem ite {c : Prop} [Decidable c] (ht : KeepsFabric s t) (hu : KeepsFabric s u) : KeepsFabric s (if c then t else u) := by
  split
  · exact ht
  · exact hu

/-- A step that is taken in one case only. -/
theorem ite_then {c : Prop} [Decidable c] (ht : KeepsFabric s t) (hu : KeepsFabric t u) : KeepsFabric s (if c then u else t) :=
  .ite (ht.trans hu) ht

theorem foldl {α : Type} {f : State → α → State} (h : ∀ s a, KeepsFabric s (f s a)) (l : List α) (s : State) : KeepsFabric s (l.foldl f s) :=
  List.foldlRecOn (motive := KeepsFabric s) l f (refl s) fun t ht a _ => ht.trans (h t a)

theorem bump (s : State) {o : Obj} {i : Nat} (h : ¬ FabricKey (o.key i)) (hid : o.key i ≠ idKey) (n : Nat) : KeepsFabric s (s.bump o i n) :=
  .of_objs (s.bump_keepsObjs n h hid) rfl

/-- The counters of a command ring lie above 0x7100. -/
theorem bump_ring (s : State) {o : Obj} (ho : o.m = 1 ∧ 0x7100 ≤ o.idx) (r n : Nat) : KeepsFabric s (s.bump o r n) := by
  obtain ⟨hm, hidx⟩ := ho
  refine bump s ?_ ?_ n <;> simp only [Obj.key, hm, idKey] <;> omega

theorem raise (s : State) (src unit detail : Nat) (cause : Option (Nat × Nat)) (item : Nat) :
    KeepsFabric s (s.raise src unit detail cause item) := .of_objs (s.raise_keepsObjs ..) rfl

theorem put (s : State) (x : Output) : KeepsFabric s (s.put x) := .of_units rfl rfl rfl

theorem setCr (s : State) (r : Nat) (x : CmdRing) : KeepsFabric s (s.setCr r x) := .of_units rfl rfl rfl

theorem setTh (s : State) (k : Nat) (x : Thread) : KeepsFabric s (s.setTh k x) := .of_units rfl rfl rfl

/-! ## Completions (R192, R433, R434) -/

theorem insertStatus (s : State) (x : Thread) (h : Handle) : KeepsFabric s (insertStatus s x h).2.2 := by
  have full : KeepsFabric s (s.bump Objs.ins_full) := bump s (by decide) (by decide) 1
  unfold Machine.insertStatus
  split_ifs
  · exact refl s
  · exact refl s
  · exact full.trans (raise ..)
  · exact (bump s (by decide) (by decide) 1).trans (raise ..)
  · split
    · exact full.trans (raise ..)
    · exact .of_units rfl rfl rfl

theorem settleLock (s : State) (k : Nat) : KeepsFabric s (s.settleLock k) := by
  have accepted (o : LeapOp) : KeepsFabric s (acceptOp s k o) := by
    unfold acceptOp
    dsimp only
    split
    · exact refl s
    · split
      · exact (insertStatus ..).trans (setTh ..)
      · exact setTh ..
      · exact setTh ..
  unfold State.settleLock
  dsimp only
  split
  · exact refl s
  · split
    · exact refl s
    · exact .ite (refl s) (accepted _)

theorem releaseRing (s : State) (r : Nat) : KeepsFabric s (s.releaseRing r) := by
  have dropped : KeepsFabric s (s.dropLocks (.ring r)) := by
    unfold State.dropLocks State.settleLocks
    refine .trans ?_ (.foldl (fun u (x : Nat × Thread) => settleLock u x.1) _ _)
    exact .of_units rfl rfl rfl
  exact .ite dropped ((dropped.trans (bump_ring _ (by decide) ..)).trans (raise ..))

theorem msix (s : State) (v : Nat) : KeepsFabric s (s.msix v) := .ite (.of_units rfl rfl rfl) (put ..)

theorem abortRest (n r : Nat) (s : State) : KeepsFabric s (abortRest n r s) := by
  induction n generalizing s with
  | zero => exact refl s
  | succ n ih =>
    have aborted (x : Output) (y : CmdRing) : KeepsFabric s ((((s.put x).setCr r y).bump Objs.cmd_aborted r).bump Objs.cmd_entries r) :=
      (((put s x).trans (setCr ..)).trans (bump_ring _ (by decide) ..)).trans (bump_ring _ (by decide) ..)
    exact .ite (refl s) ((aborted ..).trans (ih _))

theorem finishStop (s : State) (r : Nat) : KeepsFabric s (s.finishStop r) := by
  have told (t : State) (x : CmdRing) : KeepsFabric t (t.abortIrqs x) := .ite (.foldl (fun t _ => msix t _) _ t) (refl t)
  unfold State.finishStop
  exact ((((abortRest 65536 r s).trans (put ..)).trans (told ..)).trans (setCr ..)).trans (releaseRing ..)

theorem cmdComplete (s : State) (r status result flags : Nat) : KeepsFabric s (s.cmdComplete r status result flags) := by
  have entered (x : Output) (y : CmdRing) : KeepsFabric s (((s.put x).setCr r y).bump Objs.cmd_entries r) :=
    ((put s x).trans (setCr ..)).trans (bump_ring _ (by decide) ..)
  unfold State.cmdComplete
  exact .ite (setCr ..) (.ite_then (.ite_then (.trans (.ite_then (entered ..) (bump_ring _ (by decide) ..)) (put ..)) (msix ..))
    (finishStop ..))

/-! ## The end of a packet (R76, R428) -/

theorem injectDone (s : State) (r : Option Nat) (status result : Nat) : KeepsFabric s (s.injectDone r status result) := by
  unfold State.injectDone State.cmdWaitDone
  split
  · split
    · exact .ite (cmdComplete ..) (refl s)
    · exact refl s
  · exact refl s

theorem reclaim (n : Nat) (s : State) : KeepsFabric s (reclaim n s) := by
  refine .of_objs (reclaim_keepsObjs (by decide) n s) ?_
  obtain ⟨u, d, h, -⟩ := reclaim_frame n s
  rw [h]

theorem holdEnd (s : State) (pid : Nat) : KeepsFabric s (s.holdEnd pid) := by
  unfold State.holdEnd
  split
  · exact refl s
  · refine .ite (.of_units rfl rfl rfl) (.trans ?_ (reclaim 4 _))
    exact .of_units rfl rfl rfl

theorem itemDrop (s : State) (it : TmItem) : KeepsFabric s (s.itemDrop it) := (injectDone ..).trans (holdEnd ..)

/-- The flights lose one: an injected packet's entry completes, and its hue's count falls. -/
theorem ended (s : State) (f : Tab Flight) (r : Option Nat) (pid : Nat) :
    KeepsFabric s ((({ s with tm := { s.tm with flights := f } } : State).injectDone r 1 1).holdEnd pid) := by
  have moved : KeepsFabric s { s with tm := { s.tm with flights := f } } := ⟨.of_units rfl rfl, _, rfl⟩
  exact (moved.trans (injectDone ..)).trans (holdEnd ..)

theorem flightLost (s : State) (item : Nat) : KeepsFabric s (s.flightLost item) := by
  unfold State.flightLost
  split
  · exact refl s
  · exact ended ..

theorem flightEnd (s : State) (item g : Nat) : KeepsFabric s (s.flightEnd item g) := by
  unfold State.flightEnd
  split
  · exact refl s
  · exact .ite (ended ..) ⟨.of_units rfl rfl, _, rfl⟩

theorem cellLost (s : State) (c : Cell) (g : Nat) : KeepsFabric s (s.cellLost c g) := .ite (flightEnd ..) (flightLost ..)

/-! ## What is read of it -/

section
variable (h : KeepsFabric s t)
include h

theorem voqs : t.tm.voqs = s.tm.voqs := by
  obtain ⟨f, hf⟩ := h.tm
  rw [hf]

theorem voq (id : Nat) : t.voq id = s.voq id := congrArg (tget Voq.empty · id) h.voqs

end

end KeepsFabric

end Sys2Proof.Machine
end

section
/-! VOQs and the pools (R309 to R312): what each reads after it is written, and what RED learns of a VOQ that has become empty. -/

namespace Sys2Proof.Machine

@[simp] theorem State.voq_setVoq (s : State) (id : Nat) (v : Voq) : (s.setVoq id v).voq id = v := tget_tset_same ..

theorem State.voq_setVoq_other {j id : Nat} (h : j ≠ id) (s : State) (v : Voq) : (s.setVoq id v).voq j = s.voq j := tget_tset_other h.symm ..

theorem State.grpOf_le (s : State) (st : Nat) : s.grpOf st ≤ st := by
  unfold State.grpOf
  split_ifs <;> omega

theorem poolFree_key_ne_idKey (pipe : Nat) : Objs.pool_free.key pipe ≠ idKey := by
  simp only [Obj.key, idKey]
  omega

theorem State.poolAdd_free (s : State) (pipe : Nat) (d : Int) :
    (s.poolAdd pipe d).rd Objs.pool_free pipe = ((s.rd Objs.pool_free pipe : Int) + d).toNat := DictUnit.rd_wr_same (poolFree_key_ne_idKey pipe)

/-- Cells that leave the pool. -/
theorem State.poolAdd_neg_free (s : State) (pipe n : Nat) : (s.poolAdd pipe (-(n : Int))).rd Objs.pool_free pipe = s.rd Objs.pool_free pipe - n := by
  rw [State.poolAdd_free]
  omega

theorem freeBlocks_voq (s : State) (id : Nat) (v : Voq) :
    ∃ l, (freeBlocks s id v).voq id = { v with blocks := l, spilling := !v.spill.isEmpty } := ⟨_, tget_tset_same ..⟩

theorem freeBlocks_free (s : State) (id : Nat) (v : Voq) (pipe : Nat) :
    (freeBlocks s id v).rd Objs.pool_free pipe = s.rd Objs.pool_free pipe := DictUnit.rd_wr_other (by simp only [Obj.key]; omega) (by decide)

/-- RED learns that a VOQ is empty; nothing else changes. -/
theorem idleVoq_frame (s : State) (id : Nat) : ∃ r, idleVoq s id = { s with tm := { s.tm with reds := r } } := by
  unfold idleVoq
  split_ifs
  · exact ⟨_, rfl⟩
  · exact ⟨s.tm.reds, rfl⟩

theorem idleVoq_voq (s : State) (id j : Nat) : (idleVoq s id).voq j = s.voq j := by
  obtain ⟨r, h⟩ := idleVoq_frame s id
  rw [h]
  rfl

theorem idleVoq_fm (s : State) (id : Nat) : (idleVoq s id).fm = s.fm := by
  obtain ⟨r, h⟩ := idleVoq_frame s id
  rw [h]

end Sys2Proof.Machine
end

section
/-! The refill of a VOQ (R312) and the return of its fetches (R315). -/

namespace Sys2Proof.Machine

/-! ## Fetches (R312) -/

/-- The reads of a spill slot wait at their controller, or end there. -/
theorem State.spillReads_hbm (s : State) (p off tag n : Nat) : ∃ m, s.hbmReads p 1 off tag n false = { s with hbm := m } := by
  have read (t : State) (k : Nat) : ∃ m, t.hbmRead p ⟨1, off + 32 * k, tag, false⟩ = { t with hbm := m } := by
    unfold State.hbmRead State.endRead
    split_ifs with _ hbg hstr hbar
    · simp at hbg
    · simp at hstr
    · simp at hbar
    · exact ⟨_, rfl⟩
    · exact ⟨_, rfl⟩
  refine List.foldlRecOn (motive := fun t : State => ∃ m, t = { s with hbm := m }) _ _ ⟨s.hbm, rfl⟩ fun t ht k _ => ?_
  obtain ⟨m, rfl⟩ := ht
  obtain ⟨m', hm'⟩ := read { s with hbm := m } k
  exact ⟨m', hm'⟩

theorem issueFetches_hbm (id n : Nat) (l : List SpillCell) (s : State) : ∃ m, (issueFetches id n l s).2 = { s with hbm := m } := by
  fun_induction issueFetches id n l s with
  | case1 => exact ⟨_, rfl⟩
  | case2 => exact ⟨_, rfl⟩
  | case3 n c cs s hc l s1 h ih => 
    rw [h] at ih
    exact ih
  | case4 n c cs s hc s1 l s2 h ih => 
    obtain ⟨m, hm⟩ := ih
    obtain ⟨m', hm'⟩ := s.spillReads_hbm (slotPc c.slot) (slotOff c.block c.slot) (spillTag id c.pos) 4
    rw [h] at hm
    refine ⟨m, hm.trans ?_⟩
    simp only [s1, hm']

/-- A fetch that is issued leaves its cell where it is. -/
theorem issueFetches_cells (id n : Nat) (l : List SpillCell) (s : State) : (issueFetches id n l s).1.map (·.cell) = l.map (·.cell) := by
  fun_induction issueFetches id n l s with
  | case1 => rfl
  | case2 => rfl
  | case3 n c cs s hc l s1 h ih => 
    rw [h] at ih
    simp [ih]
  | case4 n c cs s hc s1 l s2 h ih => 
    rw [h] at ih
    simp [ih]

/-- Cells are fetched while there are cells that are not and `n` lasts. -/
theorem issueFetches_count (id n : Nat) (l : List SpillCell) (s : State) :
    ((issueFetches id n l s).1.filter (·.fetching)).length = min ((l.filter (·.fetching)).length + n) l.length := by
  fun_induction issueFetches id n l s with
  | case1 => simp
  | case2 l => simpa using List.length_filter_le _ l
  | case3 n c cs s hc l s1 h ih => 
    rw [h] at ih
    simp [hc, ih]
    omega
  | case4 n c cs s hc s1 l s2 h ih => 
    rw [h] at ih
    simp [hc, ih]
    omega

theorem spillRefill_low {s : State} {id : Nat} (hspill : (s.voq id).spilling = true) (hlow : (s.voq id).cells.length ≤ s.rd Objs.refill_level) :
    spillRefill s id =
      (issueFetches id (64 - ((s.voq id).spill.filter (·.fetching)).length) (s.voq id).spill s).2.setVoq id
        { s.voq id with spill := (issueFetches id (64 - ((s.voq id).spill.filter (·.fetching)).length) (s.voq id).spill s).1 } :=
  if_pos ⟨hspill, hlow⟩

/-! ## Returns (R315) -/

/-- The fetch of a spilled cell is taken from those that its controller has ended. -/
def State.fetchTaken (s : State) (x : SpillCell) (done : List HbmDone) : State :=
  s.setCtl (slotPc x.slot) { s.ctl (slotPc x.slot) with done := done }

/-- The cells on chip of a spilled cell's packet, which fall with it where its slot does not hold it, are counted with it, and give their places
back; EV137 tells of the loss. -/
def State.spillLoss (s : State) (id : Nat) (x : SpillCell) (frozen : Bool) (done : List HbmDone) : State :=
  let pipe := grpPipe (fld id 10 5)
  let mine := (s.voq id).cells.filter (fun y => y.item = x.cell.item)
  (((s.fetchTaken x done).bump Objs.spill_lost pipe (1 + mine.length)).raise 137 pipe 0
    (if frozen then some (8, slotPc x.slot) else none)).poolAdd pipe mine.length

section
variable {s : State} {id : Nat} {x : SpillCell} {rest : List SpillCell} {done : List HbmDone} (hspill : (s.voq id).spill = x :: rest)
include hspill

theorem spillFetchReturn_onChip (hdone : takeDone (s.ctl (slotPc x.slot)).done 1 (spillTag id x.pos) 4 = some (false, done))
    (hlost : x.lost = false) (hskip : (s.voq id).skipping = false) (hroom : 0 < s.rd Objs.pool_free (grpPipe (fld id 10 5))) :
    spillFetchReturn s id false =
      (freeBlocks (s.fetchTaken x done) id
        { s.voq id with spill := rest, cells := (s.voq id).cells ++ [x.cell], skipping := false }).poolAdd (grpPipe (fld id 10 5)) (-1) := by
  have room : s.rd Objs.pool_free (grpPipe (fld id 10 5)) ≠ 0 := hroom.ne'
  simp only [spillFetchReturn, hspill, hdone, hlost, hskip, room]
  rfl

theorem spillFetchReturn_lost {frozen : Bool}
    (hdone : takeDone (s.ctl (slotPc x.slot)).done 1 (spillTag id x.pos) 4 = some (frozen, done)) :
    spillFetchReturn s id true =
      (idleVoq (freeBlocks (s.spillLoss id x frozen done) id
        { s.voq id with spill := rest, cells := (s.voq id).cells.filter (fun y => y.item ≠ x.cell.item), skipping := true }) id).cellLost
          x.cell 32 := by
  simp only [spillFetchReturn, hspill, hdone, Bool.or_true, Bool.true_or, if_true]
  rfl

end

/-- Settles O33: a refill issues its fetches and leaves the cells where they are; a fetch that returns takes its cell out of spill, and the
loss of the cell's packet leaves the VOQ as the return left it. -/
theorem spilledCellsReturn : Obligations.SpilledCellsReturn := by
  intro id s
  refine ⟨fun hspill hlow hflight => ⟨_, congrArg Host.Outcome.next (spillRefill_low hspill hlow), ?refill⟩,
    fun x rest frozen done hspill hdone => ⟨?chip, _, congrArg Host.Outcome.next (spillFetchReturn_lost hspill hdone), ?lost⟩⟩
  case refill =>
    rw [State.voq_setVoq]
    refine ⟨issueFetches_cells .., (issueFetches_count ..).trans ?_, rfl⟩
    have := List.length_filter_le (·.fetching) (s.voq id.toNat).spill
    omega
  case chip =>
    rintro rfl hlost hskip hroom
    refine ⟨_, congrArg Host.Outcome.next (spillFetchReturn_onChip hspill hdone hlost hskip hroom), ?_⟩
    set v : Voq := { s.voq id.toNat with spill := rest, cells := (s.voq id.toNat).cells ++ [x.cell], skipping := false }
    obtain ⟨l, hl⟩ := freeBlocks_voq (s.fetchTaken x done) id.toNat v
    refine ⟨congrArg Voq.cells hl, congrArg Voq.spill hl, congrArg Voq.spilling hl, (State.poolAdd_neg_free _ _ 1).trans ?_⟩
    exact congrArg (· - 1) (freeBlocks_free (s.fetchTaken x done) id.toNat v _)
  case lost =>
    set v : Voq := { s.voq id.toNat with
      spill := rest, cells := (s.voq id.toNat).cells.filter (fun y => y.item ≠ x.cell.item), skipping := true }
    set u := freeBlocks (s.spillLoss id.toNat x frozen done) id.toNat v
    obtain ⟨l, hl⟩ := freeBlocks_voq (s.spillLoss id.toNat x frozen done) id.toNat v
    have fell := KeepsFabric.cellLost (idleVoq u id.toNat) x.cell 32
    have left : ((idleVoq u id.toNat).cellLost x.cell 32).voq id.toNat = { v with blocks := l, spilling := !v.spill.isEmpty } :=
      (fell.voq _).trans ((idleVoq_voq ..).trans hl)
    refine ⟨congrArg Voq.spill left, congrArg Voq.skipping left, congrArg Voq.cells left, fell.event ?_⟩
    rw [idleVoq_fm]
    exact State.mem_raiseOf_raised ..

end Sys2Proof.Machine
end

section
/-! The reorder contexts (R321 to R324): what the release of cells, a dropped run, and a declaration of XOFF leave of a context. -/

namespace Sys2Proof.Machine

/-! ## The relation -/

theorem KeepsObjs.mono {P Q : Nat → Prop} {s t : State} (h : KeepsObjs P s t) (hQ : ∀ k, Q k → P k) : KeepsObjs Q s t :=
  ⟨h.fm, fun o i hk => h.rd o i (hQ _ hk)⟩

/-- The keys of reorder_skips and late_cells. -/
abbrev SkipKey (k : Nat) : Prop := 0x6020 * 256 ≤ k ∧ k < 0x6022 * 256

/-- The cells on their way to the outputs, E and the held cells of a context, and the counts of skips and late cells are in `t` as in `s`; what
was raised stays raised. -/
structure KeepsHeld (key : Nat) (s t : State) : Prop extends KeepsObjs SkipKey s t where
  wire2 : t.tm.wire2 = s.tm.wire2
  held : (t.reordCtx key).held = (s.reordCtx key).held
  e : (t.reordCtx key).e = (s.reordCtx key).e

@[simp] theorem State.reordCtx_setReord (s : State) (key : Nat) (x : Reord) : (s.setReord key x).reordCtx key = x := tget_tset_same ..

namespace KeepsHeld

variable {key : Nat} {s t u : State}

theorem refl (s : State) : KeepsHeld key s s := ⟨.refl s, rfl, rfl, rfl⟩

theorem trans (h : KeepsHeld key s t) (h' : KeepsHeld key t u) : KeepsHeld key s u :=
  ⟨h.toKeepsObjs.trans h'.toKeepsObjs, h'.wire2.trans h.wire2, h'.held.trans h.held, h'.e.trans h.e⟩

theorem foldl {α : Type} {f : State → α → State} (h : ∀ s a, KeepsHeld key s (f s a)) (l : List α) (s : State) :
    KeepsHeld key s (l.foldl f s) :=
  List.foldlRecOn (motive := KeepsHeld key s) l f (refl s) fun t ht a _ => ht.trans (h t a)

theorem ite {c : Prop} [Decidable c] (ht : KeepsHeld key s t) (hu : KeepsHeld key s u) : KeepsHeld key s (if c then t else u) := by
  split
  · exact ht
  · exact hu

theorem of_fabric (h : KeepsFabric s t) : KeepsHeld key s t := by
  obtain ⟨f, hf⟩ := h.tm
  have ctx : t.reordCtx key = s.reordCtx key := by rw [State.reordCtx, hf, State.reordCtx]
  exact ⟨h.toKeepsObjs.mono fun k hk => .inl ⟨by omega, by omega⟩, by rw [hf], by rw [ctx], by rw [ctx]⟩

/-- A write of the context that leaves E and the held cells. -/
theorem setReord {x : Reord} (hheld : x.held = (s.reordCtx key).held) (he : x.e = (s.reordCtx key).e) : KeepsHeld key s (s.setReord key x) :=
  ⟨.of_units rfl rfl, rfl, by rw [State.reordCtx_setReord, hheld], by rw [State.reordCtx_setReord, he]⟩

/-- The write of an object of another count. -/
theorem wr {o : Obj} {i : Nat} (s : State) (h : ¬ SkipKey (o.key i)) (hid : o.key i ≠ idKey) (v : Nat) : KeepsHeld key s (s.wr o i v) :=
  ⟨s.wr_keepsObjs v h hid, rfl, rfl, rfl⟩

theorem raise (s : State) (src unit detail : Nat) (cause : Option (Nat × Nat)) : KeepsHeld key s (s.raise src unit detail cause) :=
  ⟨s.raise_keepsObjs .., rfl, rfl, rfl⟩

/-! ## Runs (R323) -/

theorem dropRun (s : State) (g key : Nat) (cause : Option (Nat × Nat)) : KeepsHeld key s (dropRun s g key cause) := by
  have counted (t : State) : KeepsHeld key t ((t.bump Objs.reasm_drop g).raise 132 g 0 cause) :=
    (wr t (by simp only [Obj.key]; omega) (by simp only [Obj.key, idKey]; omega) _).trans (raise ..)
  unfold Machine.dropRun
  have emptied : KeepsHeld key s (s.setReord key { s.reordCtx key with run := [] }) := setReord rfl rfl
  exact .ite (refl s) ((emptied.trans (counted _)).trans (.foldl (fun t i => .of_fabric (.flightEnd t i g)) _ _))

/-- A released cell joins the run of its context, and may end it. -/
theorem pushRun (s : State) (g ing key : Nat) (c : Cell) : KeepsHeld key s (pushRun s g ing key c) := by
  have dropped (t : State) : KeepsHeld key t (Machine.dropRun t g key) := dropRun t g key none
  have begun : KeepsHeld key s (if c.first then Machine.dropRun s g key else s) := .ite (dropped s) (refl s)
  have ready (t : State) (l : List Ready) : KeepsHeld key t { t with tm := { t.tm with ready := l } } := ⟨.of_units rfl rfl, rfl, rfl, rfl⟩
  refine begun.trans ?_
  unfold Machine.pushRun
  dsimp only
  generalize (if c.first then Machine.dropRun s g key else s) = t
  have run (l : List Cell) : KeepsHeld key t (t.setReord key { t.reordCtx key with run := l }) := setReord rfl rfl
  refine .ite ?_ (run _)
  split
  · exact refl t
  · exact .ite ((run _).trans (.ite (.of_fabric (.flightEnd ..)) (ready ..))) ((run _).trans (dropped _))

/-! ## XOFF (R322, R324) -/

/-- A change of contexts that leaves E and the held cells of each. -/
theorem map (s : State) {f : Nat × Reord → Nat × Reord} (hf : ∀ p, (f p).1 = p.1 ∧ (f p).2.held = p.2.held ∧ (f p).2.e = p.2.e) :
    KeepsHeld key s { s with tm := { s.tm with reord := s.tm.reord.map f } } := by
  have ctx : (tget Reord.init (s.tm.reord.map f) key).held = (s.reordCtx key).held ∧
      (tget Reord.init (s.tm.reord.map f) key).e = (s.reordCtx key).e := by
    rw [State.reordCtx, tget, tget, tfind_map fun p => (hf p).1]
    cases tfind s.tm.reord key with
    | none => exact ⟨rfl, rfl⟩
    | some x => exact (hf (key, x)).2
  exact ⟨.of_units rfl rfl, rfl, ctx.1, ctx.2⟩

theorem timersXoff (s : State) (g c : Nat) (off : Bool) : KeepsHeld key s (timersXoff s g c off) := by
  refine map s fun p => ?_
  dsimp only
  split
  · split
    · exact ⟨rfl, rfl, rfl⟩
    · split <;> exact ⟨rfl, rfl, rfl⟩
    · exact ⟨rfl, rfl, rfl⟩
  · exact ⟨rfl, rfl, rfl⟩

theorem xoffUpdate (s : State) (g : Nat) : KeepsHeld key s (s.xoffUpdate g) := by
  have declared (a : Tab Bool) (b : Tab Nat) : KeepsHeld key s { s with tm := { s.tm with xoffTotal := a, xoffClass := b } } :=
    ⟨.of_units rfl rfl, rfl, rfl, rfl⟩
  unfold State.xoffUpdate
  refine .trans (.trans (declared ..) (wr (o := Objs.xoff_map) (i := g) _ ?_ ?_ _)) (.foldl (fun t c => .ite (refl t) (timersXoff ..)) _ _)
  all_goals
    simp only [Obj.key, idKey]
    omega

end KeepsHeld

/-! ## Releases (R321) -/

section
variable {s : State} {g ing key n : Nat}

theorem releaseRun_next {c : Cell} (h : (s.reordCtx key).held.find? (fun c => c.seq = (s.reordCtx key).e) = some c) :
    releaseRun (n + 1) s g ing key = releaseRun n (pushRun (s.setReord key { s.reordCtx key with
      e := ((s.reordCtx key).e + 1) % 2 ^ 15, held := (s.reordCtx key).held.erase c, skipAt := none }) g ing key c) g ing key := by
  simp only [releaseRun, h]

/-- Where no held cell has the SEQ of E, the timer restarts or stops. -/
theorem releaseRun_gap (h : (s.reordCtx key).held.find? (fun c => c.seq = (s.reordCtx key).e) = none) :
    KeepsHeld key s (releaseRun (n + 1) s g ing key) := by
  simp only [releaseRun, h]
  exact .setReord rfl rfl

end

/-- A release puts no cell into a context, and counts neither a skip nor a late cell. -/
theorem releaseRun_keeps (n : Nat) (s : State) (g ing key : Nat) :
    KeepsObjs SkipKey s (releaseRun n s g ing key) ∧ ((releaseRun n s g ing key).reordCtx key).held.length ≤ (s.reordCtx key).held.length := by
  induction n generalizing s with
  | zero => exact ⟨.refl s, le_rfl⟩
  | succ n ih =>
    cases h : (s.reordCtx key).held.find? (fun c => c.seq = (s.reordCtx key).e) with
    | none => exact ⟨(releaseRun_gap h).toKeepsObjs, by rw [(releaseRun_gap h).held]⟩
    | some c =>
      rw [releaseRun_next h]
      set x : Reord := { s.reordCtx key with
        e := ((s.reordCtx key).e + 1) % 2 ^ 15, held := (s.reordCtx key).held.erase c, skipAt := none }
      have pushed := KeepsHeld.pushRun (s.setReord key x) g ing key c
      obtain ⟨hobjs, hlen⟩ := ih (pushRun (s.setReord key x) g ing key c)
      have taken : KeepsObjs SkipKey s (s.setReord key x) := .of_units rfl rfl
      refine ⟨(taken.trans pushed.toKeepsObjs).trans hobjs, hlen.trans ?_⟩
      rw [pushed.held, State.reordCtx_setReord]
      exact List.length_erase_le

end Sys2Proof.Machine
end

section
/-! The way of a cell (R316 to R323): from its VOQ to a middle, from the middle to an output, through its reorder context, and past a gap. -/

namespace Sys2Proof.Machine

/-! ## Stage 1 (R317) -/

section
variable {s : State} {i id : Nat} {served : Option Nat} {x : Cell} {rest : List Cell} (hsent : tget 0 s.tm.sent1 i ≠ s.slotNo + 1)
  (hmid : s.middleIn ((i + s.slotNo) % 32) = true) (hvoq : chooseVoq s i ((i + s.slotNo) % 32) = some (id, served))
  (hcells : (s.voq id).cells = x :: rest)
include hsent hmid hvoq hcells

/-- The slot of an input station takes the first cell of the VOQ that it chooses, and puts it on the way to its middle. -/
theorem inputSlot_sends : ∃ u : State, inputSlot s i .good = idleVoq u id ∧ (u.voq id).cells = rest ∧
    tget 0 u.tm.sent1 i = s.slotNo + 1 ∧
    u.tm.wire1 = s.tm.wire1 ++
      [⟨s.slotNo + 2, (i + s.slotNo) % 32, { x with src := i, seq := if x.mc then x.seq else (s.voq id).seq }⟩] := by
  unfold inputSlot
  simp only [hsent, hmid, hvoq, hcells, cellEcc]
  exact ⟨_, rfl, congrArg Voq.cells (s.voq_setVoq id _), congrArg (Option.getD · 0) (tfind_tput_same ..), rfl⟩

end

/-! ## Middles (R318, R319) -/

@[simp] theorem State.mid_setMid (s : State) (m g k : Nat) (l : List Cell) : (s.setMid m g k l).mid m g k = l := tget_tset_same ..

theorem midQueue_queue (s : State) (m g : Nat) (c : Cell) :
    (midQueue s m g c).tm.wire1 = s.tm.wire1 ∧ (midQueue s m g c).mid m g c.kind = s.mid m g c.kind ++ [c] := by
  have queued : (s.setMid m g c.kind (s.mid m g c.kind ++ [c])).mid m g c.kind = s.mid m g c.kind ++ [c] := s.mid_setMid ..
  unfold midQueue
  dsimp only
  split_ifs
  · exact ⟨rfl, queued⟩
  · exact ⟨rfl, queued⟩

theorem cellAtMiddle_unicast {s : State} {m : Nat} {w : OnWire} {rest : List OnWire} (hwire : takeWire s.tm.wire1 m s.slotNo = some (w, rest))
    (hmc : w.cell.mc = false) (hmid : s.middleIn m = true) (word : WordEcc) :
    cellAtMiddle s m .good word = midQueue { s with tm := { s.tm with wire1 := rest } } m w.cell.dst w.cell := by
  simp only [cellAtMiddle, hwire, hmid, cellEcc, hmc]
  rfl

/-- Middle `m` has sent the first cell of a queue. -/
def State.middleSent (s : State) (m k : Nat) (x : Cell) (rest : List Cell) : State :=
  let o := (m + s.slotNo) % 32
  { s with tm := { s.tm with
    sent2 := tput m (s.slotNo + 1) s.tm.sent2, mids := tset [] s.tm.mids (midKey m (s.grpOf o) k) rest,
    wire2 := s.tm.wire2 ++ [⟨s.slotNo + 2, o, x⟩] } }

/-- The slot of a middle sends the first cell of the queue that it chooses, whose quota it may release, then its control word. -/
theorem middleSlot_sends {s : State} {m k : Nat} {x : Cell} {rest : List Cell} (hsent : tget 0 s.tm.sent2 m ≠ s.slotNo + 1)
    (hmid : s.middleIn m = true) (hqueue : chooseMid s m (s.grpOf ((m + s.slotNo) % 32)) = some k)
    (hcells : s.mid m (s.grpOf ((m + s.slotNo) % 32)) k = x :: rest) :
    ∃ q, middleSlot s m .good false =
      controlWord { s.middleSent m k x rest with tm := { (s.middleSent m k x rest).tm with quota := q } } m ((m + s.slotNo) % 32) := by
  have released (u : State) (b : Prop) [Decidable b] :
      ∃ q, (if b then u else quotaRelease u m x) = { u with tm := { u.tm with quota := q } } := by
    split_ifs
    · exact ⟨u.tm.quota, rfl⟩
    · exact ⟨_, rfl⟩
  obtain ⟨q, hq⟩ := released (s.middleSent m k x rest) (midHolds (s.middleSent m k x rest) m x = true)
  refine ⟨q, ?_⟩
  rw [← hq]
  simp only [middleSlot, hsent, hmid, hqueue, hcells, cellEcc]
  rfl

/-! ## Outputs (R321) -/

theorem wrapDiff_self (w a : Nat) : wrapDiff w a a = 0 := by
  have h : (a + 2 ^ w - a % 2 ^ w) % 2 ^ w = 0 := Nat.sub_mod_eq_zero_of_mod_eq (by simp)
  simp [wrapDiff, toSigned, h]

/-- The reorder context of a unicast cell at an output group. -/
abbrev Cell.ctx (c : Cell) (g ing : Nat) : Nat := ctxKey g ing false c.kind

/-- A cell is held in a context. -/
def State.cellHeld (s : State) (key : Nat) (c : Cell) : State :=
  s.setReord key { s.reordCtx key with held := (s.reordCtx key).held ++ [c] }

section
variable {s : State} {g ing : Nat} {c : Cell}

/-- A cell ahead of E is held. -/
theorem reorderCell_early (h : 0 < wrapDiff 15 c.seq (s.reordCtx (c.ctx g ing)).e) :
    KeepsHeld (c.ctx g ing) (s.cellHeld (c.ctx g ing) c) (reorderCell s g ing c) := by
  unfold reorderCell
  simp only [h.le.not_gt, h.ne', if_false]
  exact .ite (.setReord rfl rfl) (.refl _)

/-- A cell that is E's goes on, and E with it. -/
theorem reorderCell_next (hseq : c.seq = (s.reordCtx (c.ctx g ing)).e) (hheld : (s.reordCtx (c.ctx g ing)).held = []) :
    KeepsHeld (c.ctx g ing)
      (s.setReord (c.ctx g ing) { s.reordCtx (c.ctx g ing) with e := ((s.reordCtx (c.ctx g ing)).e + 1) % 2 ^ 15, skipAt := none })
      (reorderCell s g ing c) := by
  have due : wrapDiff 15 c.seq (s.reordCtx (c.ctx g ing)).e = 0 := by rw [hseq, wrapDiff_self]
  have ctx : (s.cellHeld (c.ctx g ing) c).reordCtx (c.ctx g ing) = { s.reordCtx (c.ctx g ing) with held := [c] } := by
    rw [State.cellHeld, State.reordCtx_setReord, hheld]
    rfl
  have released : reorderCell s g ing c = releaseRun 2 (s.cellHeld (c.ctx g ing) c) g ing (c.ctx g ing) := by
    simp only [reorderCell, due, hheld]
    rw [State.cellHeld, hheld]
    rfl
  have first : ((s.cellHeld (c.ctx g ing) c).reordCtx (c.ctx g ing)).held.find?
      (fun y => y.seq = ((s.cellHeld (c.ctx g ing) c).reordCtx (c.ctx g ing)).e) = some c := by
    rw [ctx]
    simp [hseq]
  rw [released, releaseRun_next first]
  set v : Reord := { (s.cellHeld (c.ctx g ing) c).reordCtx (c.ctx g ing) with
    e := (((s.cellHeld (c.ctx g ing) c).reordCtx (c.ctx g ing)).e + 1) % 2 ^ 15
    held := ((s.cellHeld (c.ctx g ing) c).reordCtx (c.ctx g ing)).held.erase c
    skipAt := none }
  have none_held : v.held = [] := by simp [v, ctx]
  have moved : KeepsHeld (c.ctx g ing)
      (s.setReord (c.ctx g ing) { s.reordCtx (c.ctx g ing) with e := ((s.reordCtx (c.ctx g ing)).e + 1) % 2 ^ 15, skipAt := none })
      ((s.cellHeld (c.ctx g ing) c).setReord (c.ctx g ing) v) :=
    ⟨.of_units rfl rfl, rfl, by simp [none_held, hheld], by simp [v, ctx]⟩
  have pushed := KeepsHeld.pushRun ((s.cellHeld (c.ctx g ing) c).setReord (c.ctx g ing) v) g ing (c.ctx g ing) c
  refine (moved.trans pushed).trans (releaseRun_gap ?_)
  rw [pushed.held, State.reordCtx_setReord, none_held]
  rfl

theorem reorderCell_late (h : wrapDiff 15 c.seq (s.reordCtx (c.ctx g ing)).e < 0) :
    reorderCell s g ing c = ((s.bump Objs.late_cells g).raise 131 g).flightLost c.item := if_pos h

end

theorem cellAtOutput_unicast {s : State} {o : Nat} {w : OnWire} {rest : List OnWire} (hwire : takeWire s.tm.wire2 o s.slotNo = some (w, rest))
    (hmc : w.cell.mc = false) (hroom : s.storeCells (s.grpOf o) < s.storeSize (s.grpOf o)) :
    cellAtOutput s o .good =
      (reorderCell { s with tm := { s.tm with wire2 := rest } } (s.grpOf o) (s.grpOf w.cell.src) w.cell).xoffUpdate (s.grpOf o) := by
  simp only [cellAtOutput, hwire, cellEcc, hroom.not_ge, hmc]
  rfl

/-! ## Gaps (R322) -/

theorem lowestHeld_mem {x : Reord} {c : Cell} (h : lowestHeld x = some c) : c ∈ x.held := by
  refine List.foldlRecOn (motive := fun best : Option Cell => ∀ c, best = some c → c ∈ x.held) x.held _ (by simp) ?_ c h
  intro best ih d hd c hc
  split at hc
  · rwa [← Option.some.inj hc]
  · split_ifs at hc
    · rwa [← Option.some.inj hc]
    · rw [← Option.some.inj hc]
      exact ih _ rfl

/-- A release that begins with a held cell takes it out of the context. -/
theorem releaseRun_shortens {s : State} {key : Nat} {c : Cell} (hmem : c ∈ (s.reordCtx key).held) (hseq : c.seq = (s.reordCtx key).e)
    (n g ing : Nat) : ((releaseRun (n + 1) s g ing key).reordCtx key).held.length < (s.reordCtx key).held.length := by
  obtain ⟨d, hd⟩ : ∃ d, (s.reordCtx key).held.find? (fun y => y.seq = (s.reordCtx key).e) = some d :=
    Option.isSome_iff_exists.1 (List.find?_isSome.2 ⟨c, hmem, by simp [hseq]⟩)
  rw [releaseRun_next hd]
  refine (releaseRun_keeps n _ g ing key).2.trans_lt ?_
  rw [(KeepsHeld.pushRun _ g ing key d).held, State.reordCtx_setReord, List.length_erase_of_mem (List.mem_of_find?_eq_some hd)]
  exact Nat.sub_one_lt (List.length_pos_of_mem hmem).ne'

/-- The context as its gap is skipped: without its run, E at the lowest held SEQ. -/
def State.gapSkipped (s : State) (g key : Nat) (c : Cell) : State :=
  let cause := (s.reordCtx key).skipAt.map (fun t => (10, t.2))
  let u := dropRun s g key cause
  ((u.setReord key { u.reordCtx key with e := c.seq, skipAt := none }).bump Objs.reorder_skips g).raise 130 g 0 cause

theorem fabTimeout_due {s : State} {g ing k : Nat} {c : Cell} (hlow : lowestHeld (s.reordCtx (ctxKey g ing false k)) = some c)
    (hdue : skipDue s (s.reordCtx (ctxKey g ing false k)) k = true) :
    fabTimeout s g ing k =
      (releaseRun ((s.reordCtx (ctxKey g ing false k)).held.length + 2) (s.gapSkipped g (ctxKey g ing false k) c) g ing
        (ctxKey g ing false k)).xoffUpdate g := by
  simp only [fabTimeout, hlow, hdue]
  rfl

theorem fabTimeout_early {s : State} {g ing k : Nat} {c : Cell} (hlow : lowestHeld (s.reordCtx (ctxKey g ing false k)) = some c)
    (hdue : skipDue s (s.reordCtx (ctxKey g ing false k)) k = false) : fabTimeout s g ing k = s := by
  simp only [fabTimeout, hlow, hdue]
  rfl

theorem reorderSkips_key {g : Nat} (hg : g < 32) : SkipKey (Objs.reorder_skips.key g) := by
  simp only [Obj.key]
  omega

theorem lateCells_key {g : Nat} (hg : g < 32) : SkipKey (Objs.late_cells.key g) := by
  simp only [Obj.key]
  omega

theorem SkipKey.ne_idKey {k : Nat} (h : SkipKey k) : k ≠ idKey := by
  simp only [idKey]
  omega

theorem State.gapSkipped_effects (s : State) {g : Nat} (hg : g < 32) (key : Nat) (c : Cell) :
    ((s.gapSkipped g key c).reordCtx key).held = (s.reordCtx key).held ∧ ((s.gapSkipped g key c).reordCtx key).e = c.seq ∧
      (s.gapSkipped g key c).rd Objs.reorder_skips g = satAdd 64 (s.rd Objs.reorder_skips g) 1 ∧
      ∃ e ∈ (s.gapSkipped g key c).fm.raised, e.src = 130 ∧ e.unit = g := by
  have dropped := KeepsHeld.dropRun s g key ((s.reordCtx key).skipAt.map (fun t => (10, t.2)))
  have ctx : (s.gapSkipped g key c).reordCtx key = _ := State.reordCtx_setReord _ key _
  refine ⟨by rw [ctx, dropped.held], by rw [ctx], ?_, State.mem_raiseOf_raised ..⟩
  refine (State.bump_rd_same _ (reorderSkips_key hg).ne_idKey 1).trans ?_
  exact congrArg (satAdd 64 · 1) (dropped.rd _ _ (reorderSkips_key hg))

/-- The gap of a context is skipped: counted, reported, and the cell at the lowest held SEQ released. -/
theorem fabTimeout_effects {s : State} {g ing k : Nat} {c : Cell} (hg : g < 32)
    (hlow : lowestHeld (s.reordCtx (ctxKey g ing false k)) = some c) (hdue : skipDue s (s.reordCtx (ctxKey g ing false k)) k = true) :
    (fabTimeout s g ing k).rd Objs.reorder_skips g = satAdd 64 (s.rd Objs.reorder_skips g) 1 ∧
      (∃ e ∈ (fabTimeout s g ing k).fm.raised, e.src = 130 ∧ e.unit = g) ∧
      ((fabTimeout s g ing k).reordCtx (ctxKey g ing false k)).held.length < (s.reordCtx (ctxKey g ing false k)).held.length := by
  rw [fabTimeout_due hlow hdue]
  have hmem := lowestHeld_mem hlow
  generalize ctxKey g ing false k = key at hmem ⊢
  obtain ⟨hheld, he, hcount, hevent⟩ := s.gapSkipped_effects hg key c
  obtain ⟨released, -⟩ := releaseRun_keeps ((s.reordCtx key).held.length + 2) (s.gapSkipped g key c) g ing key
  have shorter := releaseRun_shortens (hheld ▸ hmem) he.symm ((s.reordCtx key).held.length + 1) g ing
  have declared := KeepsHeld.xoffUpdate (key := key) (releaseRun ((s.reordCtx key).held.length + 2) (s.gapSkipped g key c) g ing key) g
  have kept := released.trans declared.toKeepsObjs
  exact ⟨(kept.rd _ _ (reorderSkips_key hg)).trans hcount, kept.event hevent,
    by rw [declared.held]; exact shorter.trans_eq (congrArg List.length hheld)⟩

/-- Settles O34: each clause is one of the moves above; what a declaration of XOFF and the end of a packet then change is neither a count of
late cells or skips nor E and the held cells of a context. -/
theorem cellsCrossTheFabric : Obligations.CellsCrossTheFabric := by
  intro s
  refine ⟨fun i id o x rest hsent hmid hvoq hcells => ?input, fun i hsent => congrArg Host.Outcome.next (if_pos (.inl hsent)),
    fun m w rest word hwire hmc hmid => ⟨_, congrArg Host.Outcome.next (cellAtMiddle_unicast hwire hmc hmid word), midQueue_queue ..⟩,
    fun m k x rest hsent hmid hqueue hcells => ?middleSlot,
    fun o w rest hwire hmc hroom => ⟨fun hd => ⟨_, congrArg Host.Outcome.next (cellAtOutput_unicast hwire hmc hroom), ?early⟩,
      fun hseq hheld => ⟨_, congrArg Host.Outcome.next (cellAtOutput_unicast hwire hmc hroom), ?next⟩,
      fun hd => ⟨_, congrArg Host.Outcome.next (cellAtOutput_unicast hwire hmc hroom), ?late⟩⟩,
    fun g i k x hlow => ⟨fun hdue => ⟨_, rfl, fabTimeout_effects g.isLt hlow hdue⟩,
      fun hdue => congrArg Host.Outcome.next (fabTimeout_early hlow hdue)⟩⟩
  case input =>
    obtain ⟨u, hsends, hleft, hslot, hwire⟩ := inputSlot_sends hsent hmid hvoq hcells
    obtain ⟨r, hr⟩ := idleVoq_frame u id
    exact ⟨_, congrArg Host.Outcome.next (hsends.trans hr), hleft, hslot, hwire⟩
  case middleSlot =>
    obtain ⟨q, hsends⟩ := middleSlot_sends hsent hmid hqueue hcells
    exact ⟨_, congrArg Host.Outcome.next hsends, tget_tset_same .., congrArg (Option.getD · 0) (tfind_tput_same ..), rfl, tget_tset_same ..⟩
  case early =>
    have kept := (reorderCell_early (s := { s with tm := { s.tm with wire2 := rest } }) hd).trans (.xoffUpdate _ (s.grpOf o))
    exact ⟨kept.wire2, kept.held.trans (by rw [State.cellHeld, State.reordCtx_setReord]; rfl),
      kept.e.trans (by rw [State.cellHeld, State.reordCtx_setReord]; rfl)⟩
  case next =>
    have kept := (reorderCell_next (s := { s with tm := { s.tm with wire2 := rest } }) hseq hheld).trans (.xoffUpdate _ (s.grpOf o))
    exact ⟨kept.wire2, kept.held.trans (by rw [State.reordCtx_setReord]; exact hheld),
      kept.e.trans (by rw [State.reordCtx_setReord]; rfl)⟩
  case late =>
    have hkey := lateCells_key ((s.grpOf_le o).trans_lt o.isLt)
    rw [reorderCell_late (s := { s with tm := { s.tm with wire2 := rest } }) hd]
    have kept (key : Nat) := (KeepsHeld.of_fabric (key := key) (.flightLost ((State.bump { s with tm := { s.tm with wire2 := rest } }
      Objs.late_cells (s.grpOf o)).raise 131 (s.grpOf o)) w.cell.item)).trans (.xoffUpdate _ (s.grpOf o))
    exact ⟨(kept 0).wire2, ((kept 0).rd _ _ hkey).trans (State.bump_rd_same _ hkey.ne_idKey 1), (kept _).held⟩

end Sys2Proof.Machine
end

section
/-! Where the cells of a packet go (R310 to R313, R332): on chip, into spill slots, or nowhere. -/

namespace Sys2Proof.Machine

/-! ## An item that meets the buffer -/

/-- The pipe whose pool takes the cells of an item. -/
abbrev State.itemPipe (s : State) (it : TmItem) : Nat := grpPipe (s.grpOfPort (fld it.md 32 8))

theorem State.itemPipe_lt (s : State) (it : TmItem) : s.itemPipe it < 4 := by
  have hport := fld_lt it.md 32 8
  have hgrp := s.grpOf_le (stationOf (fld it.md 32 8))
  simp only [State.itemPipe, grpPipe, State.grpOfPort, stationOf] at hgrp ⊢
  omega

/-- However it is marked, a packet has the same number of cells, at least one. -/
theorem State.itemCells_length (s : State) (it : TmItem) (mark : Bool) : (s.itemCells it mark).length = cellCount (it.body.length + 4) := by
  simp [State.itemCells, makeCells]

theorem State.itemCells_ne_nil (s : State) (it : TmItem) (mark : Bool) : s.itemCells it mark ≠ [] := by
  apply List.ne_nil_of_length_pos
  rw [State.itemCells_length, cellCount]
  omega

/-- What is kept of the packet of an item as it takes the next item number. -/
def State.itemFlight (s : State) (it : TmItem) : Flight :=
  let mc := bit it.md 259
  ⟨it.pid, it.prv, it.orig, fld it.md 32 8, if mc then 256 else fld it.md 240 8,
    if mc then [32] else [if mc then 0 else s.grpOfPort (fld it.md 240 8)], it.inject⟩

theorem State.itemFlight_outs (s : State) (it : TmItem) :
    (s.itemFlight it).outs = [if bit it.md 259 then 32 else s.grpOfPort (fld it.md 240 8)] := by
  cases h : bit it.md 259 <;> simp [State.itemFlight, h]

/-- A packet is in flight under an item number. -/
def State.takeItem (s : State) (item : Nat) (f : Flight) : State :=
  { s with tm := { s.tm with nextItem := item + 1, flights := tput item f s.tm.flights } }

/-- The buffer's answer for the cells of an item. -/
def State.itemPlace (s : State) (it : TmItem) (mark overload : Bool) : Bool × State :=
  placePacket s (s.itemVoq it) (if bit it.md 44 then 8 else fld it.md 256 3) (s.itemPipe it) (s.itemCells it mark) overload

section
variable {s t : State} {it : TmItem} {mark o : Bool}

theorem admitPlace_dropped (h : s.itemPlace it mark o = (false, t)) : admitPlace s it (fld it.md 46 2) mark o = t.itemDrop it := by
  unfold State.itemPlace State.itemVoq State.itemPipe State.itemCells at h
  simp only [admitPlace, h]

theorem admitPlace_placed (h : s.itemPlace it mark o = (true, t)) :
    admitPlace s it (fld it.md 46 2) mark o = t.takeItem s.tm.nextItem (s.itemFlight it) := by
  unfold State.itemPlace State.itemVoq State.itemPipe State.itemCells at h
  simp only [admitPlace, h]
  rfl

/-! ## The buffer's answer (R310 to R313) -/

/-- The test of R310 and R312, as the buffer makes it. -/
abbrev State.spillsTo (s : State) (id kind pipe : Nat) : Bool :=
  (s.voq id).spilling || (decide (kind < 8) && bit (s.rd Objs.spill_classes) kind &&
    (decide (s.rd Objs.spill_threshold ≤ (s.voq id).cells.length) || decide (s.rd Objs.pool_free pipe < s.rd Objs.spill_pool_reserve)))

theorem itemSpills_iff : s.itemSpills it ↔ s.spillsTo (s.itemVoq it) (if bit it.md 44 then 8 else fld it.md 256 3) (s.itemPipe it) = true := by
  simp only [State.itemSpills, State.spillsTo, Bool.or_eq_true, Bool.and_eq_true, decide_eq_true_eq, and_assoc]

theorem itemPlace_onChip (hspill : ¬ s.itemSpills it) (hfree : (s.itemCells it mark).length ≤ s.rd Objs.pool_free (s.itemPipe it))
    (hroom : (s.voq (s.itemVoq it)).cells.length + (s.itemCells it mark).length ≤ s.rd Objs.voq_onchip_max) :
    s.itemPlace it mark o = (true, (s.setVoq (s.itemVoq it)
      { s.voq (s.itemVoq it) with cells := (s.voq (s.itemVoq it)).cells ++ s.itemCells it mark }).poolAdd (s.itemPipe it)
        (-((s.itemCells it mark).length : Int))) := by
  have has : ¬ (s.rd Objs.pool_free (s.itemPipe it) < (s.itemCells it mark).length ∨
      s.rd Objs.voq_onchip_max < (s.voq (s.itemVoq it)).cells.length + (s.itemCells it mark).length) := by omega
  exact (if_neg (mt itemSpills_iff.2 hspill)).trans (if_neg has)

theorem itemPlace_full (hspill : ¬ s.itemSpills it) (hfull : s.rd Objs.pool_free (s.itemPipe it) < (s.itemCells it mark).length ∨
    s.rd Objs.voq_onchip_max < (s.voq (s.itemVoq it)).cells.length + (s.itemCells it mark).length) :
    s.itemPlace it mark o = (false, (s.bump Objs.pool_drop (s.itemPipe it)).raise 134 (s.itemPipe it)) :=
  (if_neg (mt itemSpills_iff.2 hspill)).trans (if_pos hfull)

theorem itemPlace_refused (hspill : s.itemSpills it) :
    s.itemPlace it mark true = (false, (s.bump Objs.spill_refused (s.itemPipe it)).raise 135 (s.itemPipe it)) :=
  if_pos (itemSpills_iff.1 hspill)

theorem itemPlace_spillFull (hspill : s.itemSpills it)
    (hcells : spillCells s.retiredMask (s.rd Objs.spill_max_blocks) (s.itemCells it mark) (s.voq (s.itemVoq it)) s.tm.used = none) :
    s.itemPlace it mark false = (false, (s.bump Objs.spill_full_drop (s.itemPipe it)).raise 136 (s.itemPipe it)) := by
  refine (if_pos (itemSpills_iff.1 hspill)).trans ?_
  rw [hcells]
  rfl

/-- The cells of a packet in their spill slots, as the writes of the slots are presented. -/
def State.spilled (s : State) (id : Nat) (v : Voq) (used : List Nat) : State :=
  let t := s.setVoq id v
  (v.spill.drop (s.voq id).spill.length).foldl (fun (u : State) c => u.spillWrites id c) { t with tm := { t.tm with used := used } }

theorem itemPlace_spilled (hspill : s.itemSpills it) {v : Voq} {used : List Nat}
    (hcells : spillCells s.retiredMask (s.rd Objs.spill_max_blocks) (s.itemCells it mark) (s.voq (s.itemVoq it)) s.tm.used =
      some (v, used)) :
    s.itemPlace it mark false = (true, ((s.spilled (s.itemVoq it) v used).wr Objs.spill_blocks_used 0 used.length).bump Objs.cells_spilled
      (s.itemPipe it) (s.itemCells it mark).length) := by
  refine (if_pos (itemSpills_iff.1 hspill)).trans ?_
  rw [hcells]
  rfl

end

/-! ## Spill slots (R311, R314) -/

/-- The cells on chip and the spilled cells of a VOQ, which spills, and every other VOQ are in `t` as in `s`, and of the rest of the state only
the controllers of HBM are not. -/
structure KeepsSpilled (id : Nat) (s t : State) : Prop where
  frame : ∃ h v, t = { s with hbm := h, tm := { s.tm with voqs := v } }
  other : ∀ j, j ≠ id → t.voq j = s.voq j
  cells : (t.voq id).cells = (s.voq id).cells
  spilling : (t.voq id).spilling = (s.voq id).spilling
  spill : (t.voq id).spill.map (·.cell) = (s.voq id).spill.map (·.cell)

namespace KeepsSpilled

variable {id : Nat} {s t u : State}

theorem refl (s : State) : KeepsSpilled id s s := ⟨⟨s.hbm, s.tm.voqs, rfl⟩, fun _ _ => rfl, rfl, rfl, rfl⟩

theorem trans (h : KeepsSpilled id s t) (h' : KeepsSpilled id t u) : KeepsSpilled id s u where
  frame := by
    obtain ⟨m, v, rfl⟩ := h.frame
    obtain ⟨m', v', h'⟩ := h'.frame
    exact ⟨m', v', h'⟩
  other j hj := (h'.other j hj).trans (h.other j hj)
  cells := h'.cells.trans h.cells
  spilling := h'.spilling.trans h.spilling
  spill := h'.spill.trans h.spill

theorem foldl {α : Type} {f : State → α → State} (h : ∀ s a, KeepsSpilled id s (f s a)) (l : List α) (s : State) :
    KeepsSpilled id s (l.foldl f s) :=
  List.foldlRecOn (motive := KeepsSpilled id s) l f (refl s) fun t ht a _ => ht.trans (h t a)

/-- A write that a controller refuses marks its cell. -/
theorem hbmWrite (s : State) (p client off pos : Nat) : KeepsSpilled id s (s.hbmWrite p ⟨client, off, [], [.spill id pos]⟩) := by
  unfold State.hbmWrite
  split_ifs
  · have marked : (s.loseWrite ⟨client, off, [], [.spill id pos]⟩).voq id = spillLost pos (s.voq id) := tget_tset_same ..
    have same : (spillLost pos (s.voq id)).spill.map (·.cell) = (s.voq id).spill.map (·.cell) := by
      simp only [spillLost, List.map_map]
      refine List.map_congr_left fun c _ => ?_
      simp only [Function.comp]
      split_ifs <;> rfl
    exact ⟨⟨s.hbm, _, rfl⟩, fun j hj => tget_tset_other hj.symm .., by rw [marked, spillLost], by rw [marked, spillLost],
      by rw [marked, same]⟩
  · exact ⟨⟨_, s.tm.voqs, rfl⟩, fun _ _ => rfl, rfl, rfl, rfl⟩

theorem spillWrites (s : State) (c : SpillCell) : KeepsSpilled id s (s.spillWrites id c) := .foldl (fun t _ => hbmWrite t ..) _ s

end KeepsSpilled

/-- Cells that are given their slots follow those that are spilled, and the cells on chip stay. -/
theorem spillCells_some {retired limit : Nat} {l : List Cell} {v v1 : Voq} {used used1 : List Nat}
    (h : spillCells retired limit l v used = some (v1, used1)) :
    v1.cells = v.cells ∧ v1.spill.map (·.cell) = v.spill.map (·.cell) ++ l ∧ (v.spilling = true ∨ l ≠ [] → v1.spilling = true) := by
  induction l generalizing v used with
  | nil =>
    obtain ⟨rfl, rfl⟩ := Prod.mk.inj (Option.some.inj h)
    simp
  | cons c l ih =>
    unfold spillCells at h
    split at h
    · cases h
    · obtain ⟨hcells, hspill, hspilling⟩ := ih h
      exact ⟨hcells, by simpa using hspill, fun _ => hspilling (.inl rfl)⟩

end Sys2Proof.Machine
end

section
/-! Policers, RED and step 9 (R332 to R338): what the oldest item meets, and the configuration of both. -/

namespace Sys2Proof.Machine

/-! ## RED (R338) -/

/-- The average of a queue of `q` packets after the update of R338, under a profile. -/
def State.redNext (s : State) (key profNo q : Nat) : Nat :=
  let k := fld (tget 0 s.tm.redProf profNo) 120 4
  let a := s.redAvg key
  redStep (if min q 65535 = 0 then redIdle k (min (s.spanNs a.empty / 1000) 64) a.avg else a.avg) (min q 65535) k

/-- The average of a queue is updated, and free values up to `n` are drawn. -/
def State.redSeen (s : State) (key profNo q n : Nat) : State :=
  { s with tm := { s.tm with reds := tset ⟨0, 0⟩ s.tm.reds key ⟨s.redNext key profNo q, (s.redAvg key).empty⟩ }, free := n }

/-- The LFSR's value falls below the chance of R338. -/
abbrev State.redChance (s : State) (mn mx mp avg : Nat) : Prop := s.draw.1 % 65536 * (mx - mn) * 256 < mp * (avg - mn * 65536)

section
variable {s : State} {key profNo c q mn mx mp : Nat} (hcol : redColour (tget 0 s.tm.redProf profNo) c = (mn, mx, mp))
include hcol

theorem State.red_eq : s.red key profNo c q =
    if mx = 0 ∨ s.redNext key profNo q < mn * 65536 then (.pass, s.redSeen key profNo q s.free)
    else if mx * 65536 ≤ s.redNext key profNo q then (.drop, s.redSeen key profNo q s.free)
    else if s.redChance mn mx mp (s.redNext key profNo q) then
      if bit (tget 0 s.tm.redProf profNo) 124 then (.mark, s.redSeen key profNo q (s.free + 1)) else (.drop, s.redSeen key profNo q (s.free + 1))
    else (.pass, s.redSeen key profNo q (s.free + 1)) := by
  simp only [State.red, hcol]
  rfl

theorem State.red_pass (h : mx = 0 ∨ s.redNext key profNo q < mn * 65536 ∨
    s.redNext key profNo q < mx * 65536 ∧ ¬ s.redChance mn mx mp (s.redNext key profNo q)) :
    ∃ n, s.red key profNo c q = (.pass, s.redSeen key profNo q n) := by
  rw [State.red_eq hcol]
  by_cases hlow : mx = 0 ∨ s.redNext key profNo q < mn * 65536
  · exact ⟨_, if_pos hlow⟩
  · obtain ⟨hmax, hchance⟩ := (or_assoc.2 h).resolve_left hlow
    rw [if_neg hlow, if_neg hmax.not_ge, if_neg hchance]
    exact ⟨_, rfl⟩

theorem State.red_drop (hmx : mx ≠ 0) (hmin : mn * 65536 ≤ s.redNext key profNo q) (h : mx * 65536 ≤ s.redNext key profNo q ∨
    s.redChance mn mx mp (s.redNext key profNo q) ∧ bit (tget 0 s.tm.redProf profNo) 124 = false) :
    ∃ n, s.red key profNo c q = (.drop, s.redSeen key profNo q n) := by
  rw [State.red_eq hcol, if_neg (not_or.2 ⟨hmx, hmin.not_gt⟩)]
  by_cases hmax : mx * 65536 ≤ s.redNext key profNo q
  · exact ⟨_, if_pos hmax⟩
  · obtain ⟨hchance, hbit⟩ := h.resolve_left hmax
    rw [if_neg hmax, if_pos hchance, hbit]
    exact ⟨_, rfl⟩

theorem State.red_mark (hmx : mx ≠ 0) (hmin : mn * 65536 ≤ s.redNext key profNo q) (hmax : s.redNext key profNo q < mx * 65536)
    (hchance : s.redChance mn mx mp (s.redNext key profNo q)) (hbit : bit (tget 0 s.tm.redProf profNo) 124 = true) :
    ∃ n, s.red key profNo c q = (.mark, s.redSeen key profNo q n) := by
  rw [State.red_eq hcol, if_neg (not_or.2 ⟨hmx, hmin.not_gt⟩), if_neg hmax.not_ge, if_pos hchance, hbit]
  exact ⟨_, rfl⟩

end

/-! ## Policers (R335) -/

/-- Policer 0 acts on no packet. -/
theorem police_zero (s : State) (len colour : Nat) : s.police 0 len colour = (colour, false, s) := by simp [State.police]

/-- A policer that acts on a packet changes its own state. -/
theorem police_frame (s : State) (n len colour : Nat) : ∃ p, (s.police n len colour).2.2 = { s with tm := { s.tm with pols := p } } := by
  unfold State.police
  dsimp only
  split_ifs
  · exact ⟨s.tm.pols, rfl⟩
  · exact ⟨_, rfl⟩

/-! ## Step 9 (R332) -/

/-- The oldest item is taken, and RED's averages and the free values have gone on. -/
def State.taken (s : State) (rest : List TmItem) (reds : Tab RedAvg) (free : Nat) : State :=
  { s with tm := { s.tm with items := rest, reds := reds }, free := free }

/-- RED's averages after the oldest item has met RED. -/
def State.itemReds (s : State) (it : TmItem) : Tab RedAvg :=
  tset ⟨0, 0⟩ s.tm.reds (s.itemVoq it) ⟨s.itemAvg it, (s.redAvg (s.itemVoq it)).empty⟩

/-- The profile of an item's queue. -/
abbrev State.itemProfNo (s : State) (it : TmItem) : Nat := s.rd Objs.queue_red_profile (fld it.md 240 8 * 8 + fld it.md 256 3)

/-- What RED decides on a unicast item of policer 0. -/
abbrev State.itemMeetsRed (s : State) (it : TmItem) (rest : List TmItem) : RedOut × State :=
  (s.taken rest s.tm.reds s.free).red (s.itemVoq it) (s.itemProfNo it) (colourIn (fld it.md 46 2)) (s.voq (s.itemVoq it)).packets

/-- What a policer does is the same once the item is taken. -/
theorem police_taken (s : State) (rest : List TmItem) (n len colour : Nat) :
    (s.taken rest s.tm.reds s.free).police n len colour =
      ((s.police n len colour).1, (s.police n len colour).2.1, (s.police n len colour).2.2.taken rest s.tm.reds s.free) := by
  by_cases h : n = 0 ∨ fld (tget 0 s.tm.polCfg n) 6 2 = 0
  · have free (t : State) (ht : t.tm.polCfg = s.tm.polCfg) : t.police n len colour = (colour, false, t) := by
      rw [State.police, ht]
      exact if_pos h
    rw [free s rfl]
    exact free _ rfl
  · refine (if_neg h).trans ?_
    rw [State.police, if_neg h]
    rfl

/-- What becomes of an item by RED's decision. -/
def afterRed (it : TmItem) (o : Bool) : RedOut × State → State
  | (.drop, t) => ((t.bump Objs.red_drop (fld it.md 240 8 * 8 + fld it.md 256 3)).raise 145 (fld it.md 240 8)).itemDrop it
  | (.mark, t) => admitPlace (t.bump Objs.red_mark (fld it.md 240 8 * 8 + fld it.md 256 3)) it (fld it.md 46 2) true o
  | (.pass, t) => admitPlace t it (fld it.md 46 2) (bit it.md 41) o

section
variable {s : State} {it : TmItem} {rest : List TmItem} (hitems : s.tm.items = it :: rest)
include hitems

theorem exec_tmAdmit (o : Bool) : exec (.tmAdmit o .good) s = .next (tmAdmit s o) := by
  show execTmAdmit o .good s = _
  rw [execTmAdmit, hitems]
  rfl

/-- An item that its policer drops. -/
theorem tmAdmit_policed (o : Bool) (h : (s.police (fld it.md 320 12) (it.body.length + 4) (fld it.md 46 2)).2.1 = true) :
    tmAdmit s o = ((s.police (fld it.md 320 12) (it.body.length + 4) (fld it.md 46 2)).2.2.taken rest s.tm.reds s.free).itemDrop it := by
  have policed := police_taken s rest (fld it.md 320 12) (it.body.length + 4) (fld it.md 46 2)
  rw [h, State.taken] at policed
  simp only [tmAdmit, hitems, policed]

section
variable (hpol : fld it.md 320 12 = 0) (o : Bool)
include hpol

theorem tmAdmit_multicast (hmc : bit it.md 259 = true) :
    tmAdmit s o = admitPlace (s.taken rest s.tm.reds s.free) it (fld it.md 46 2) (bit it.md 41) o := by
  simp only [tmAdmit, hitems, hpol, police_zero, hmc]
  rfl

theorem tmAdmit_unicast (hmc : bit it.md 259 = false) (hdest : fld it.md 240 16 < 256) :
    tmAdmit s o = afterRed it o (s.itemMeetsRed it rest) := by
  have id : s.itemVoq it = voqId false (s.grpOfPort (fld it.md 32 8)) (s.grpOfPort (fld it.md 240 8))
      (if bit it.md 44 then 8 else fld it.md 256 3) := by simp [State.itemVoq, hmc]
  simp only [tmAdmit, hitems, hpol, police_zero, hmc, hdest.not_ge, Bool.false_eq_true, if_false]
  rw [State.itemMeetsRed, id]
  rfl

end

end

end Sys2Proof.Machine
end

section
/-! Admission (R304 to R314, R332 to R338): what an item that is placed or dropped leaves, and what is written of policers and RED. -/

namespace Sys2Proof.Machine

/-! ## Placed on chip (R310) -/

/-- The cells of an item of `s` are in its VOQ, on chip, in `t`; no other VOQ is touched, and of the objects only its pool's. -/
structure PlacedOnChip (s : State) (it : TmItem) (mark : Bool) (t : State) : Prop where
  items : t.tm.items = s.tm.items
  next : t.tm.nextItem = s.tm.nextItem + 1
  reds : t.tm.reds = s.tm.reds
  cells : (t.voq (s.itemVoq it)).cells = (s.voq (s.itemVoq it)).cells ++ s.itemCells it mark
  spill : (t.voq (s.itemVoq it)).spill = (s.voq (s.itemVoq it)).spill
  other : ∀ j, j ≠ s.itemVoq it → t.voq j = s.voq j
  free : t.rd Objs.pool_free (s.itemPipe it) = s.rd Objs.pool_free (s.itemPipe it) - (s.itemCells it mark).length
  outs : (tfind t.tm.flights s.tm.nextItem).map (·.outs) = some [if bit it.md 259 then 32 else s.grpOfPort (fld it.md 240 8)]
  rd : ∀ o i, o.key i ≠ Objs.pool_free.key (s.itemPipe it) → t.rd o i = s.rd o i

/-- A packet that finds room on chip. -/
abbrev State.itemFits (s : State) (it : TmItem) (mark : Bool) : Prop :=
  ¬ s.itemSpills it ∧ (s.itemCells it mark).length ≤ s.rd Objs.pool_free (s.itemPipe it) ∧
    (s.voq (s.itemVoq it)).cells.length + (s.itemCells it mark).length ≤ s.rd Objs.voq_onchip_max

/-- A mark takes no room. -/
theorem State.itemFits_mark {s : State} {it : TmItem} {m : Bool} (h : s.itemFits it m) (mark : Bool) : s.itemFits it mark := by
  rw [State.itemFits, State.itemCells_length] at h ⊢
  exact h

theorem takeItem_outs (t s : State) (item : Nat) (it : TmItem) :
    (tfind (t.takeItem item (s.itemFlight it)).tm.flights item).map (·.outs) =
      some [if bit it.md 259 then 32 else s.grpOfPort (fld it.md 240 8)] := by
  rw [← s.itemFlight_outs it]
  exact congrArg (Option.map Flight.outs) (tfind_tput_same ..)

theorem admitPlace_onChip {s : State} {it : TmItem} {mark : Bool} (h : s.itemFits it mark) (o : Bool) :
    PlacedOnChip s it mark (admitPlace s it (fld it.md 46 2) mark o) := by
  obtain ⟨hspill, hfree, hroom⟩ := h
  rw [admitPlace_placed (itemPlace_onChip hspill hfree hroom)]
  have placed := s.voq_setVoq (s.itemVoq it)
    { s.voq (s.itemVoq it) with cells := (s.voq (s.itemVoq it)).cells ++ s.itemCells it mark }
  exact ⟨rfl, rfl, rfl, (congrArg Voq.cells placed :), (congrArg Voq.spill placed :), fun j hj => State.voq_setVoq_other hj ..,
    State.poolAdd_neg_free .., takeItem_outs .., fun p i hne => DictUnit.rd_wr_other hne.symm (poolFree_key_ne_idKey _)⟩

/-! ## Placed in spill (R311) -/

/-- The cells of an item of `s` follow the spilled cells of its VOQ in `t`, which spills; no other VOQ is touched, nor the pool. -/
structure PlacedInSpill (s : State) (it : TmItem) (mark : Bool) (used : List Nat) (t : State) : Prop where
  items : t.tm.items = s.tm.items
  next : t.tm.nextItem = s.tm.nextItem + 1
  cells : (t.voq (s.itemVoq it)).cells = (s.voq (s.itemVoq it)).cells
  spilling : (t.voq (s.itemVoq it)).spilling = true
  spill : (t.voq (s.itemVoq it)).spill.map (·.cell) = (s.voq (s.itemVoq it)).spill.map (·.cell) ++ s.itemCells it mark
  other : ∀ j, j ≠ s.itemVoq it → t.voq j = s.voq j
  slots : t.tm.used = used
  blocks : t.rd Objs.spill_blocks_used = used.length
  free : t.rd Objs.pool_free (s.itemPipe it) = s.rd Objs.pool_free (s.itemPipe it)
  counted : t.rd Objs.cells_spilled (s.itemPipe it) = satAdd 64 (s.rd Objs.cells_spilled (s.itemPipe it)) (s.itemCells it mark).length

/-- What the writes of the slots leave. -/
theorem State.spilled_keeps (s : State) (id : Nat) (v : Voq) (used : List Nat) :
    KeepsSpilled id { s.setVoq id v with tm := { (s.setVoq id v).tm with used := used } } (s.spilled id v used) :=
  .foldl (fun t c => .spillWrites t c) _ _

theorem State.spilled_units (s : State) (id : Nat) (v : Voq) (used : List Nat) : (s.spilled id v used).dict = s.dict ∧
    (s.spilled id v used).tm.items = s.tm.items ∧ (s.spilled id v used).tm.used = used := by
  obtain ⟨m, w, h⟩ := (s.spilled_keeps id v used).frame
  rw [h]
  exact ⟨rfl, rfl, rfl⟩

theorem admitPlace_spilled {s : State} {it : TmItem} {mark : Bool} (hspill : s.itemSpills it) {v : Voq} {used : List Nat}
    (hcells : spillCells s.retiredMask (s.rd Objs.spill_max_blocks) (s.itemCells it mark) (s.voq (s.itemVoq it)) s.tm.used =
      some (v, used)) : PlacedInSpill s it mark used (admitPlace s it (fld it.md 46 2) mark false) := by
  rw [admitPlace_placed (itemPlace_spilled hspill hcells)]
  obtain ⟨honchip, hspilled, hspilling⟩ := spillCells_some hcells
  have placed := s.voq_setVoq (s.itemVoq it) v
  have written := s.spilled_keeps (s.itemVoq it) v used
  obtain ⟨hdict, hitems, hslots⟩ := s.spilled_units (s.itemVoq it) v used
  have hpool : ((s.spilled (s.itemVoq it) v used).wr Objs.spill_blocks_used 0 used.length).rd Objs.pool_free (s.itemPipe it) =
      s.rd Objs.pool_free (s.itemPipe it) :=
    (DictUnit.rd_wr_other (by simp only [Obj.key]; omega) (by decide)).trans (congrArg (DictUnit.rd · _ _) hdict)
  have hcount : ((s.spilled (s.itemVoq it) v used).wr Objs.spill_blocks_used 0 used.length).rd Objs.cells_spilled (s.itemPipe it) =
      s.rd Objs.cells_spilled (s.itemPipe it) :=
    (DictUnit.rd_wr_other (by simp only [Obj.key]; omega) (by decide)).trans (congrArg (DictUnit.rd · _ _) hdict)
  have hid : Objs.cells_spilled.key (s.itemPipe it) ≠ idKey := by
    simp only [Obj.key, idKey]
    omega
  exact {
    items := hitems
    next := rfl
    cells := written.cells.trans ((congrArg Voq.cells placed).trans honchip)
    spilling := written.spilling.trans ((congrArg Voq.spilling placed).trans (hspilling (.inr (s.itemCells_ne_nil it mark))))
    spill := written.spill.trans ((congrArg (fun v : Voq => v.spill.map (·.cell)) placed).trans hspilled)
    other := fun j hj => (written.other j hj).trans (State.voq_setVoq_other hj ..)
    slots := hslots
    blocks := (DictUnit.rd_wr_other (by simp only [Obj.key]; omega) hid).trans (DictUnit.rd_wr_same (by decide))
    free := (DictUnit.rd_wr_other (by simp only [Obj.key]; omega) hid).trans hpool
    counted := (State.bump_rd_same _ hid _).trans (congrArg (satAdd 64 · _) hcount) }

/-! ## Dropped -/

/-- What is counted of an item that is dropped stays, and the end of its packet touches no VOQ. -/
theorem taken_itemDropped (s : State) (rest : List TmItem) (r : Tab RedAvg) (n : Nat) (it : TmItem) {o : Obj} {i : Nat} (src unit : Nat)
    (hk : FabricKey (o.key i)) (hty : o.ty.size = 8) :
    ItemDropped s rest o i src unit ((((s.taken rest r n).bump o i).raise src unit).itemDrop it) ∧
      ((((s.taken rest r n).bump o i).raise src unit).itemDrop it).tm.reds = r := by
  have dropped := KeepsFabric.itemDrop (((s.taken rest r n).bump o i).raise src unit) it
  have counted : ((s.taken rest r n).bump o i).rd o i = satAdd 64 (s.rd o i) 1 := by
    rw [State.bump_rd_same _ (by simp only [idKey]; omega), hty]
    rfl
  obtain ⟨f, hf⟩ := dropped.tm
  rw [ItemDropped, hf]
  exact ⟨⟨rfl, rfl, rfl, (dropped.rd o i hk).trans counted, dropped.event (State.mem_raise_raised ..)⟩, rfl⟩

/-! ## RED (R338) -/

section
variable {s : State} {it : TmItem} (rest : List TmItem) {mn mx mp : Nat}
  (hcol : redColour (s.itemRed it) (colourIn (fld it.md 46 2)) = (mn, mx, mp))
include hcol

theorem itemMeetsRed_pass (h : mx = 0 ∨ s.itemAvg it < mn * 65536 ∨ s.itemAvg it < mx * 65536 ∧ ¬ s.redChance mn mx mp (s.itemAvg it)) :
    ∃ n, s.itemMeetsRed it rest = (.pass, s.taken rest (s.itemReds it) n) :=
  State.red_pass (s := s.taken rest s.tm.reds s.free) hcol h

theorem itemMeetsRed_drop (hmx : mx ≠ 0) (hmin : mn * 65536 ≤ s.itemAvg it)
    (h : mx * 65536 ≤ s.itemAvg it ∨ s.redChance mn mx mp (s.itemAvg it) ∧ bit (s.itemRed it) 124 = false) :
    ∃ n, s.itemMeetsRed it rest = (.drop, s.taken rest (s.itemReds it) n) :=
  State.red_drop (s := s.taken rest s.tm.reds s.free) hcol hmx hmin h

theorem itemMeetsRed_mark (hmx : mx ≠ 0) (hmin : mn * 65536 ≤ s.itemAvg it) (hmax : s.itemAvg it < mx * 65536)
    (hchance : s.redChance mn mx mp (s.itemAvg it)) (hbit : bit (s.itemRed it) 124 = true) :
    ∃ n, s.itemMeetsRed it rest = (.mark, s.taken rest (s.itemReds it) n) :=
  State.red_mark (s := s.taken rest s.tm.reds s.free) hcol hmx hmin hmax hchance hbit

end

theorem State.itemReds_avg {s t : State} {it : TmItem} (h : t.tm.reds = s.itemReds it) : (t.redAvg (s.itemVoq it)).avg = s.itemAvg it := by
  rw [State.redAvg, h]
  exact congrArg RedAvg.avg (tget_tset_same ..)

/-- Policer 0 and a RED profile without a range let an item through. -/
theorem tmAdmit_admits {s : State} {it : TmItem} {rest : List TmItem} (hitems : s.tm.items = it :: rest) (hpol : fld it.md 320 12 = 0)
    (h : bit it.md 259 = true ∨ fld it.md 240 16 < 256 ∧ (redColour (s.itemRed it) (colourIn (fld it.md 46 2))).2.1 = 0) :
    ∃ r n, ∀ o, tmAdmit s o = admitPlace (s.taken rest r n) it (fld it.md 46 2) (bit it.md 41) o := by
  cases hmc : bit it.md 259 with
  | true => exact ⟨_, _, fun o => tmAdmit_multicast hitems hpol o hmc⟩
  | false =>
    obtain ⟨hdest, hmx⟩ := h.resolve_left (by simp [hmc])
    obtain ⟨n, hn⟩ := itemMeetsRed_pass rest (s := s) (it := it) rfl (.inl hmx)
    refine ⟨s.itemReds it, n, fun o => ?_⟩
    rw [tmAdmit_unicast hitems hpol o hmc hdest, hn]
    rfl

/-! ## A marked item -/

section
variable (s : State) {q : Nat} (hq : q < 2048)
include hq

/-- red_mark lies with RED's counters. -/
theorem redMark_rd {p : Obj} {j : Nat} (h : p.key j < 0x3600 * 256 ∨ 0x3700 * 256 ≤ p.key j) : (s.bump Objs.red_mark q).rd p j = s.rd p j := by
  refine DictUnit.rd_wr_other ?_ ?_ <;> simp only [Obj.key, idKey] at h ⊢ <;> omega

theorem redMark_grpOfPort {p : Nat} (hp : p < 256) : (s.bump Objs.red_mark q).grpOfPort p = s.grpOfPort p := by
  have mode {k : Nat} (hk : k < 256) : (s.bump Objs.red_mark q).portMode k = s.portMode k :=
    redMark_rd s hq (.inl (by simp only [Obj.key]; omega))
  have hst : stationOf p < 32 := by
    rw [stationOf]
    omega
  simp only [State.grpOfPort, State.grpOf, mode (k := 32 * (stationOf p / 4)) (by omega), mode (k := 16 * (stationOf p / 2)) (by omega)]

theorem redMark_itemVoq (it : TmItem) : (s.bump Objs.red_mark q).itemVoq it = s.itemVoq it := by
  simp only [State.itemVoq, redMark_grpOfPort s hq (fld_lt it.md 32 8), redMark_grpOfPort s hq (fld_lt it.md 240 8)]

theorem redMark_itemPipe (it : TmItem) : (s.bump Objs.red_mark q).itemPipe it = s.itemPipe it := by
  simp only [State.itemPipe, redMark_grpOfPort s hq (fld_lt it.md 32 8)]

theorem redMark_itemCells (it : TmItem) (mark : Bool) : (s.bump Objs.red_mark q).itemCells it mark = s.itemCells it mark := by
  simp only [State.itemCells, redMark_grpOfPort s hq (fld_lt it.md 32 8), redMark_grpOfPort s hq (fld_lt it.md 240 8)]
  rfl

/-- The mark's count leaves room for the packet. -/
theorem redMark_itemFits (it : TmItem) (mark : Bool) (h : s.itemFits it mark) : (s.bump Objs.red_mark q).itemFits it mark := by
  have hlt := s.itemPipe_lt it
  have free : (s.bump Objs.red_mark q).rd Objs.pool_free (s.itemPipe it) = s.rd Objs.pool_free (s.itemPipe it) :=
    redMark_rd s hq (.inr (by simp only [Obj.key]; omega))
  have spills : (s.bump Objs.red_mark q).itemSpills it ↔ s.itemSpills it := by
    rw [itemSpills_iff, itemSpills_iff, redMark_itemVoq s hq, redMark_itemPipe s hq, State.spillsTo, free,
      redMark_rd s hq (p := Objs.spill_classes) (.inr (by decide)), redMark_rd s hq (p := Objs.spill_threshold) (.inr (by decide)),
      redMark_rd s hq (p := Objs.spill_pool_reserve) (.inr (by decide))]
    rfl
  rw [State.itemFits, spills, redMark_itemVoq s hq, redMark_itemPipe s hq, redMark_itemCells s hq, free,
    redMark_rd s hq (p := Objs.voq_onchip_max) (.inr (by decide))]
  exact h

end

end Sys2Proof.Machine
end

section
/-! The configuration of policers and RED profiles (R334, R336, R337), and the statement on admission. -/

namespace Sys2Proof.Machine

/-! ## Configuration -/

theorem polApply_tm (n x : Nat) (s : State) : (polApply n x s).tm = { s.tm with
    polCfg := tset 0 s.tm.polCfg n x
    pols := tset PolState.init s.tm.pols n { s.pol n with tc := (polFill x).1, te := (polFill x).2, fill := some s.time.f } } := by
  unfold polApply
  dsimp only
  split_ifs <;> rfl

theorem redApply_tm (n x : Nat) (s : State) : (redApply n x s).tm = { s.tm with redProf := tset 0 s.tm.redProf n x } := by
  unfold redApply
  dsimp only
  split_ifs <;> rfl

/-- An accepted write takes its effect on the traffic manager and the clocks as they are. -/
theorem acceptBase_tm {c : Ctx} {o : Obj} (ho : o.key 0 ≠ idKey) (v : List Byte) (s : State) :
    (acceptBase c o 0 v s).tm = s.tm ∧ (acceptBase c o 0 v s).time = s.time := by
  obtain ⟨u, d, m, h, -⟩ := acceptBase_frame c o 0 v s ho
  rw [h]
  exact ⟨rfl, rfl⟩

theorem polConfigWrite_tm {c : Ctx} {v : List Byte} {s : State} (h : Accepted c Objs.pol_config 0 v polCheck s) :
    ∃ t, exec (.polConfigWrite c v) s = .next t ∧ Answered c Objs.pol_config 0 .ok t ∧
      t.tm = (polApply (s.rdCtx c Objs.pol_select) (leNat v) s).tm := by
  refine ⟨_, congrArg Host.Outcome.next (writeObj_accepted h.1 h.2), answered_ok .., ?_⟩
  obtain ⟨htm, htime⟩ := acceptBase_tm (c := c) (o := Objs.pol_config) (by decide) v s
  rw [State.put_tm, polApply_tm, polApply_tm, State.pol, htm, htime]
  rfl

theorem redProfileWrite_tm {c : Ctx} {v : List Byte} {s : State} (h : Accepted c Objs.red_profile 0 v redCheck s) :
    ∃ t, exec (.redProfileWrite c v) s = .next t ∧ Answered c Objs.red_profile 0 .ok t ∧
      t.tm = (redApply (s.rdCtx c Objs.red_select) (leNat v) s).tm := by
  refine ⟨_, congrArg Host.Outcome.next (writeObj_accepted h.1 h.2), answered_ok .., ?_⟩
  rw [State.put_tm, redApply_tm, redApply_tm, (acceptBase_tm (by decide) v s).1]

/-! ## The obligation -/

/-- Settles O32: the oldest item is taken; it is placed or dropped as the buffer answers, or falls to its policer or to RED; and the end of a
packet that is dropped leaves what was counted and every VOQ. -/
theorem packetsAreAdmitted : Obligations.PacketsAreAdmitted := by
  intro c v s
  refine ⟨fun o hnone => ?none, fun it rest o hitems hpol => ?buffer, fun it rest o hitems hpol hmc hdest mn mx mp hcol => ?red,
    fun it rest o hitems hdrop => ?police, fun h => ?polConfig, fun h => ?redProfile⟩
  case none =>
    show execTmAdmit o .good s = _
    rw [execTmAdmit, hnone]
  case buffer =>
    intro mc pipe id n hlets
    obtain ⟨r, f, hadmit⟩ := tmAdmit_admits hitems hpol hlets
    have hlt : pipe < 4 := s.itemPipe_lt it
    have hexec (o : Bool) := (exec_tmAdmit hitems o).trans (congrArg Host.Outcome.next (hadmit o))
    refine ⟨fun hspill hfree hroom => ⟨_, hexec o, ?chip⟩, fun hspill hfull => ⟨_, hexec o, ?full⟩, fun hspill =>
      ⟨fun v1 used hslots => ⟨_, hexec false, ?spill⟩, fun hslots => ⟨_, hexec false, ?spillFull⟩, _, hexec true, ?refused⟩⟩
    case chip =>
      have placed := admitPlace_onChip (s := s.taken rest r f) (it := it) (mark := bit it.md 41) ⟨hspill, hfree, hroom⟩ o
      exact ⟨placed.items, placed.next, placed.cells, placed.spill, placed.other, placed.free, placed.outs⟩
    case full =>
      rw [admitPlace_dropped (itemPlace_full (s := s.taken rest r f) hspill hfull)]
      exact (taken_itemDropped s rest r f it 134 _ (by simp only [Obj.key]; omega) rfl).1
    case spill =>
      have placed := admitPlace_spilled (s := s.taken rest r f) hspill hslots
      exact ⟨placed.items, placed.next, placed.cells, placed.spilling, placed.spill, placed.other, placed.slots, placed.blocks, placed.free,
        placed.counted⟩
    case spillFull =>
      rw [admitPlace_dropped (itemPlace_spillFull (s := s.taken rest r f) hspill hslots)]
      exact (taken_itemDropped s rest r f it 136 _ (by simp only [Obj.key]; omega) rfl).1
    case refused =>
      rw [admitPlace_dropped (itemPlace_refused (s := s.taken rest r f) hspill)]
      exact (taken_itemDropped s rest r f it 135 _ (by simp only [Obj.key]; omega) rfl).1
  case red =>
    intro pipe q id avg chance room
    have hexec {d : RedOut × State} (h : s.itemMeetsRed it rest = d) : exec (.tmAdmit o .good) s = .next (afterRed it o d) := by
      rw [exec_tmAdmit hitems, tmAdmit_unicast hitems hpol o hmc hdest, h]
    have hq : q < 2048 := by
      have := fld_lt it.md 240 8
      have := fld_lt it.md 256 3
      omega
    refine ⟨fun hlow hroom => ?pass, fun hmx hmin h => ?drop, fun hmx hmin hmax hchance hbit hroom => ?mark⟩
    case pass =>
      obtain ⟨f, hmeets⟩ := itemMeetsRed_pass rest hcol hlow
      have placed := admitPlace_onChip (s := s.taken rest (s.itemReds it) f) (State.itemFits_mark hroom (bit it.md 41)) o
      exact ⟨_, hexec hmeets, State.itemReds_avg placed.reds, placed.cells⟩
    case drop =>
      obtain ⟨f, hmeets⟩ := itemMeetsRed_drop rest hcol hmx hmin h
      obtain ⟨hdropped, hreds⟩ := taken_itemDropped s rest (s.itemReds it) f it (o := Objs.red_drop) (i := q) 145 (fld it.md 240 8)
        (by simp only [Obj.key]; omega) rfl
      exact ⟨_, hexec hmeets, State.itemReds_avg hreds, hdropped⟩
    case mark =>
      obtain ⟨f, hmeets⟩ := itemMeetsRed_mark rest hcol hmx hmin hmax hchance hbit
      have placed := admitPlace_onChip (redMark_itemFits (s.taken rest (s.itemReds it) f) hq it true (State.itemFits_mark hroom _)) o
      have hcells := placed.cells
      rw [redMark_itemVoq _ hq, redMark_itemCells _ hq] at hcells
      refine ⟨_, hexec hmeets, State.itemReds_avg placed.reds, (placed.rd Objs.red_mark q ?_).trans (State.bump_rd_same _ ?_ 1), hcells⟩ <;>
        simp only [Obj.key, idKey] <;> omega
  case police =>
    refine ⟨_, (exec_tmAdmit hitems o).trans (congrArg Host.Outcome.next (tmAdmit_policed hitems o hdrop)), ?_⟩
    obtain ⟨p, hp⟩ := police_frame s (fld it.md 320 12) (it.body.length + 4) (fld it.md 46 2)
    rw [hp]
    obtain ⟨f, hf⟩ := (KeepsFabric.itemDrop (State.taken { s with tm := { s.tm with pols := p } } rest s.tm.reds s.free) it).tm
    rw [State.pol, hf]
    exact ⟨rfl, rfl, rfl, rfl⟩
  case polConfig =>
    intro n
    obtain ⟨t, hexec, hans, htm⟩ := polConfigWrite_tm h
    rw [polApply_tm] at htm
    have acting : t.pol n = { s.pol n with tc := (polFill (leNat v)).1, te := (polFill (leNat v)).2, fill := some s.time.f } := by
      rw [State.pol, htm]
      exact tget_tset_same ..
    refine ⟨t, hexec, hans, ?_, (congrArg PolState.tc acting :), (congrArg PolState.te acting :), (congrArg PolState.fill acting :),
      (congrArg PolState.green acting :), fun j hj => ?_⟩
    · rw [htm]
      exact tget_tset_same ..
    · rw [State.pol, htm]
      exact ⟨tget_tset_other hj.symm .., tget_tset_other hj.symm ..⟩
  case redProfile =>
    intro n
    obtain ⟨t, hexec, hans, htm⟩ := redProfileWrite_tm h
    rw [redApply_tm] at htm
    refine ⟨t, hexec, hans, ?_⟩
    rw [htm]
    exact ⟨tget_tset_same .., fun j hj => tget_tset_other hj.symm ..⟩

end Sys2Proof.Machine
end

section
/-! What the end of a copy leaves (R76, R324, R428): the egress ports, the packets that wait for their ports, and the objects of the chapters
before the hues, those of the ports among them. -/

namespace Sys2Proof.Machine

/-! ## The relation -/

/-- A port of the egress side is as before where the egress unit is. -/
theorem State.ep_congr {s t : State} (h : t.eg = s.eg) (p : Nat) : t.ep p = s.ep p := by
  rw [State.ep, h]
  rfl

/-- The egress ports, the reassembled packets and every object whose key lies below those of the hues are in `t` as in `s`. -/
structure KeepsEgress (s t : State) : Prop where
  eg : t.eg = s.eg
  ready : t.tm.ready = s.tm.ready
  rd : ∀ o i, o.key i < 0x4000 * 256 → t.rd o i = s.rd o i

namespace KeepsEgress

variable {s t u : State}

theorem refl (s : State) : KeepsEgress s s := ⟨rfl, rfl, fun _ _ _ => rfl⟩

theorem trans (h : KeepsEgress s t) (h' : KeepsEgress t u) : KeepsEgress s u :=
  ⟨h'.eg.trans h.eg, h'.ready.trans h.ready, fun o i hk => (h'.rd o i hk).trans (h.rd o i hk)⟩

theorem ep (h : KeepsEgress s t) (p : Nat) : t.ep p = s.ep p := State.ep_congr h.eg p

end KeepsEgress

/-! ## Completions (R192, R433, R434) -/

theorem insertStatus_eg (s : State) (x : Thread) (h : Handle) : (insertStatus s x h).2.2.eg = s.eg := by
  unfold insertStatus
  split_ifs
  · rfl
  · rfl
  · rfl
  · rfl
  · split <;> rfl

theorem State.settleLock_eg (s : State) (k : Nat) : (s.settleLock k).eg = s.eg := by
  have accepted (o : LeapOp) : (acceptOp s k o).eg = s.eg := by
    unfold acceptOp
    dsimp only
    split
    · rfl
    · split
      · exact insertStatus_eg ..
      · rfl
      · rfl
  unfold State.settleLock
  dsimp only
  split
  · rfl
  · split
    · rfl
    · split
      · rfl
      · exact accepted _

theorem State.releaseRing_eg (s : State) (r : Nat) : (s.releaseRing r).eg = s.eg := by
  have dropped : (s.dropLocks (.ring r)).eg = s.eg :=
    List.foldlRecOn (motive := fun t : State => t.eg = s.eg) _ _ rfl fun t ht x _ => (t.settleLock_eg x.1).trans ht
  unfold State.releaseRing
  dsimp only
  split <;> exact dropped

theorem State.msix_eg (s : State) (v : Nat) : (s.msix v).eg = s.eg := by
  unfold State.msix
  dsimp only
  split <;> rfl

theorem State.abortIrqs_eg (s : State) (x : CmdRing) : (s.abortIrqs x).eg = s.eg := by
  unfold State.abortIrqs
  dsimp only
  split
  · exact List.foldlRecOn (motive := fun t : State => t.eg = s.eg) _ _ rfl fun t ht _ _ => (t.msix_eg _).trans ht
  · rfl

theorem abortRest_eg (n r : Nat) (s : State) : (abortRest n r s).eg = s.eg := by
  induction n generalizing s with
  | zero => rfl
  | succ n ih =>
    unfold abortRest
    dsimp only
    split
    · rfl
    · exact ih _

theorem State.finishStop_eg (s : State) (r : Nat) : (s.finishStop r).eg = s.eg :=
  (State.releaseRing_eg ..).trans ((State.abortIrqs_eg ..).trans (abortRest_eg 65536 r s))

theorem State.cmdComplete_eg (s : State) (r status result flags : Nat) : (s.cmdComplete r status result flags).eg = s.eg := by
  have told (t : State) (b : Bool) (v : Nat) : (if b then t.msix v else t).eg = t.eg := by
    split
    · exact t.msix_eg v
    · rfl
  have counted (t : State) (b : Bool) : (if b then t.bump Objs.cmd_errors r else t).eg = t.eg := by split <;> rfl
  unfold State.cmdComplete
  dsimp only
  split
  · rfl
  · split
    · exact (State.finishStop_eg ..).trans ((told ..).trans (counted ..))
    · exact (told ..).trans (counted ..)

namespace KeepsEgress

/-! ## The end of a packet (R76, R428) -/

theorem injectDone (s : State) (r : Option Nat) (status result : Nat) : KeepsEgress s (s.injectDone r status result) where
  eg := by
    unfold State.injectDone State.cmdWaitDone
    split
    · split
      · split
        · exact State.cmdComplete_eg ..
        · rfl
      · rfl
    · rfl
  ready := by
    obtain ⟨f, h⟩ := (KeepsFabric.injectDone s r status result).tm
    rw [h]
  rd o i hk := (s.injectDone_keepsParse r status result).rd o i (by omega) (by omega)

theorem holdEnd (s : State) (pid : Nat) : KeepsEgress s (s.holdEnd pid) := by
  unfold State.holdEnd
  split
  · exact refl s
  · dsimp only
    split
    · exact ⟨rfl, rfl, fun _ _ _ => rfl⟩
    · obtain ⟨u, d, h, hd⟩ := reclaim_frame 4 { s with hue := _ }
      rw [h]
      exact ⟨rfl, rfl, fun o i hk => hd o i fun he => absurd hk (by rw [← he]; decide)⟩

theorem flightEnd (s : State) (item g : Nat) : KeepsEgress s (s.flightEnd item g) := by
  have moved (f : Tab Flight) : KeepsEgress s { s with tm := { s.tm with flights := f } } := ⟨rfl, rfl, fun _ _ _ => rfl⟩
  unfold State.flightEnd
  split
  · exact refl s
  · dsimp only
    split
    · exact ((moved _).trans (injectDone ..)).trans (holdEnd ..)
    · exact moved _

/-! ## XOFF (R324) -/

theorem xoffUpdate (s : State) (g : Nat) : KeepsEgress s (s.xoffUpdate g) where
  eg := s.xoffUpdate_eg g
  ready := by
    have timers (m n : Nat) (t : State) (c : Nat) :
        (if bit m c = bit n c then t else timersXoff t g c (bit n c)).tm.ready = t.tm.ready := by split <;> rfl
    exact List.foldlRecOn (motive := fun t : State => t.tm.ready = s.tm.ready) _ _ rfl fun t ht c _ => (timers _ _ t c).trans ht
  rd o i hk := by
    obtain ⟨v, u, h⟩ := s.xoffUpdate_frame g
    rw [h]
    exact DictUnit.rd_wr_other (by simp only [Obj.key] at hk ⊢; omega) (by simp only [Obj.key, idKey]; omega)

end KeepsEgress

theorem State.xoffUpdate_outbox (s : State) (g : Nat) : (s.xoffUpdate g).outbox = s.outbox := by
  obtain ⟨v, u, h⟩ := s.xoffUpdate_frame g
  rw [h]
  rfl

/-- A queue that is written reads as written. -/
theorem EgPort.q_setQ {x : EgPort} {k : Nat} (h : k < x.queues.length) (l : List EgFrame) : (x.setQ k l).q k = l := by
  simp [EgPort.q, EgPort.setQ, h]

/-- A queue with a head is one of the port's. -/
theorem EgPort.lt_of_q {x : EgPort} {k : Nat} {f : EgFrame} {rest : List EgFrame} (h : x.q k = f :: rest) : k < x.queues.length := by
  by_contra hshort
  rw [EgPort.q, List.getD_eq_default _ _ (Nat.le_of_not_lt hshort)] at h
  cases h

end Sys2Proof.Machine
end

section
/-! Egress admission of a unicast packet (R341): the copy that is queued, and the one that a port that is DOWN refuses. -/

namespace Sys2Proof.Machine

variable {s : State} {p : Nat} {r : Ready}

/-! ## One copy -/

theorem egDecide_queue (hup : s.link p = 2) (hlaunch : bit r.head 23 = false) (hexp : r.exp = false) (hmc : r.mc = false)
    (hroom : ((s.ep p).q r.cls).length < s.rd Objs.queue_max (p * 8 + r.cls)) : egDecide s p r = (.queue, bit r.head 3, s) := by
  simp [egDecide, hup, hlaunch, hexp, hmc, Nat.not_le.2 hroom, -State.rd_dict]

theorem egDecide_down (hdown : s.link p = 1) : egDecide s p r = (.refused 1 1, bit r.head 3, s.bump Objs.tx_drop_down p) := by
  simp [egDecide, hdown]

/-- A queued copy joins its queue with the class, the admission time and the cells of its packet; of the rest only counters change. -/
theorem egCopy_queued (idx seq : Nat) (f : Flight) (hdec : egDecide s p r = (.queue, bit r.head 3, s)) :
    ∃ fr d, (egCopy s p idx seq r f).2 = { s.setEp p ((s.ep p).setQ r.cls ((s.ep p).q r.cls ++ [fr])) with dict := d } ∧
      fr.cls = r.cls ∧ fr.admitT = r.admitT ∧ fr.cells = r.cells := by
  let b := buildCopy s p idx seq r f (bit r.head 3) false
  let s2 := if b.2.1 then s.bump Objs.mark_not_ect p else s
  refine ⟨b.1, (if b.2.2 then s2.bump Objs.ptp_edit_err p else s2).dict, ?_, rfl, rfl, rfl⟩
  have counted (t : State) (c : Bool) (o : Obj) : (if c then t.bump o p else t) = { t with dict := (if c then t.bump o p else t).dict } := by
    cases c <;> rfl
  have moved : (egCopy s p idx seq r f).2 = egPut (if b.2.2 then s2.bump Objs.ptp_edit_err p else s2) p .queue b.1 := by
    simp only [egCopy, hdec]
    rfl
  rw [moved, counted, show s2 = _ from counted ..]
  rfl

theorem egCopy_refused (idx seq : Nat) (f : Flight) (hmc : r.mc = false) {t : State} {a b : Nat} {m : Bool}
    (hdec : egDecide s p r = (.refused a b, m, t)) : (egCopy s p idx seq r f).2 = t := by
  simp [egCopy, hdec, hmc]

/-! ## A packet of a group -/

/-- A reassembled packet leaves the list of those that wait. -/
def State.readyTaken (s : State) (r : Ready) : State := { s with tm := { s.tm with ready := s.tm.ready.erase r } }

/-- The group's oldest packet leaves the list, its copy is admitted or refused, and what then ends is no part of the egress side. -/
theorem egressAdmit_unicast {g : Nat} {f : Flight} (hready : s.tm.ready.find? (fun x => x.grp = g) = some r)
    (hflight : tfind s.tm.flights r.item = some f) (hmc : r.mc = false) (hp : 8 * g + fld r.head 4 3 = p)
    (port : Nat) (ecc : WordEcc) (bad : Option Nat) :
    KeepsEgress (egCopy (s.readyTaken r) p (fld r.head 7 16) (Config.redundancySeq r.item).toNat r f).2
      (egressAdmit s g port .good ecc bad) := by
  simp only [egressAdmit, hready, queueEcc, ite_self, hflight, hmc, hp, Bool.false_eq_true, if_false]
  exact ((KeepsEgress.injectDone ..).trans (.flightEnd ..)).trans (.xoffUpdate ..)

theorem txDropDown_key {p : Nat} (hp : p < 256) : Objs.tx_drop_down.key p < 0x4000 * 256 ∧ Objs.tx_drop_down.key p ≠ idKey := by
  simp only [Obj.key, idKey]
  omega

end Sys2Proof.Machine
end

section
/-! The start of a frame (R343, R345, R378): the choice at an idle MAC with no launch before it, what a start leaves, and a launch that is
due. -/

namespace Sys2Proof.Machine

/-! ## An idle MAC -/

/-- A port is UP, the core sends on it, and its MACs send nothing. -/
structure State.Idle (s : State) (p : Nat) : Prop where
  up : s.isUp p = true
  sends : s.txClosed p = false
  express : (s.ep p).txE = none
  preemptable : (s.ep p).txP = none

section
variable {s : State} {p : Nat}

theorem State.Idle.txSettle (h : s.Idle p) : s.txSettle p = s := by
  simp [State.txSettle, h.express, h.preemptable]

theorem State.Idle.macFree (h : s.Idle p) (pre : Bool) : macFree s p pre = true := by
  simp [Machine.macFree, h.express, h.preemptable]

theorem State.Idle.cutFree (h : s.Idle p) : cutFree s p = true := by
  simp [Machine.cutFree, h.preemptable]

theorem cutFrame_of_no_preemptable (h : (s.ep p).txP = none) : cutFrame s p = s := by
  simp [cutFrame, h]

end

theorem guarded_of_no_launch {s : State} {p : Nat} (hcal : (s.ep p).cal = []) (n : Nat) : guarded s p n = false := by
  simp [guarded, hcal]

/-! ## The start -/

/-- The MAC's frame without a PTP edit, with its check. -/
abbrev EgFrame.wire (f : EgFrame) : List Byte := f.body ++ leBytes 4 (crc32 f.body)

/-- The start of an express frame without a PTP edit puts it out and into the MAC; the rest of the port and its objects stay. -/
theorem startFrame_plain {f : EgFrame} (hptp : f.ptp = none) (s : State) (p e : Nat) :
    (startFrame s p f false e).ep p = { s.ep p with txE := some ⟨f.body.length + 12, f.body.length + 4, s.fNs, false, false⟩ } ∧
      (startFrame s p f false e).outbox = s.outbox ++ [.frame p f.wire e] ∧
      ∀ o i, o.key i < 0x4000 * 256 → (startFrame s p f false e).rd o i = s.rd o i := by
  have started : startFrame s p f false e = ((s.setEp p { s.ep p with
      txE := some ⟨f.wire.length + 8, f.wire.length, s.fNs, false, false⟩ }).put (.frame p f.wire e)).xoffUpdate (s.grpOfPort p) := by
    simp [startFrame, ptpFrame, ptpReport, hptp]
  have kept := KeepsEgress.xoffUpdate ((s.setEp p { s.ep p with
      txE := some ⟨f.wire.length + 8, f.wire.length, s.fNs, false, false⟩ }).put (.frame p f.wire e)) (s.grpOfPort p)
  have hlen : f.wire.length = f.body.length + 4 := by simp [leBytes]
  rw [started]
  refine ⟨(kept.ep p).trans ((State.setEp_ep ..).trans (by rw [hlen])), State.xoffUpdate_outbox .., kept.rd⟩

/-! ## The choice (R343 to R345) -/

section
variable {s : State} {p : Nat}

theorem chooseSrc_express {f : EgFrame} {rest : List EgFrame} (h : (s.ep p).expr = f :: rest) :
    chooseSrc s p false = (some .express, s) := by
  simp [chooseSrc, h]

/-- With no express frame, the strict queue 7 comes first. -/
theorem chooseSrc_strict (hexpr : (s.ep p).expr = []) (hstrict : 1 ≤ s.rd Objs.strict_count p) (hmac : preemptQueue s p 7 = false)
    (hel : eligible s p 7 = true) : chooseSrc s p false = (some (.queue 7), s) := by
  have hn : 8 - s.rd Objs.strict_count p ≤ 7 := by omega
  have first : [7, 6, 5, 4].find? (fun q => decide (8 - s.rd Objs.strict_count p ≤ q) &&
      (preemptQueue s p q == false && eligible s p q)) = some 7 :=
    List.find?_cons_of_pos (by simp only [hn, hmac, hel, decide_true, beq_self_eq_true, Bool.and_self])
  simp only [chooseSrc, hexpr, ne_eq, not_true_eq_false, and_false, if_false, chooseQueue, first]

theorem chooseFrame_head {pre : Bool} {src : Src} {f : EgFrame} (hsrc : chooseSrc s p pre = (some src, s))
    (hhead : srcHead (s.ep p) src = some f) (hfresh : stale s p f = false) (n : Nat) :
    chooseFrame (n + 1) s p pre = (some (src, f), s) := by
  simp [chooseFrame, hsrc, hhead, hfresh]

/-! ## What the MAC serves -/

/-- The express FIFO loses its head. -/
theorem serve_express (hP : (s.ep p).txP = none) (f : EgFrame) (ofs : Nat) :
    serve s p .express f false ofs =
      startFrame (s.setEp p { s.ep p with expr := (s.ep p).expr.drop 1 }) p f false (egressTime s p ofs) := by
  have uncut : cutFrame (srcPop s p .express) p = srcPop s p .express :=
    cutFrame_of_no_preemptable (by rw [srcPop, State.setEp_ep]; exact hP)
  simp only [serve, Bool.false_eq_true, if_false, uncut]
  rfl

/-- A queue loses its head, which pays and is counted. -/
theorem serve_queue (hP : (s.ep p).txP = none) (q : Nat) (f : EgFrame) (ofs : Nat) :
    ∃ u : State, serve s p (.queue q) f false ofs = startFrame u p f false (egressTime s p ofs) ∧
      (u.ep p).queues = (s.ep p).queues.set q (((s.ep p).q q).drop 1) ∧ u.outbox = s.outbox ∧
      (Objs.tx_queue_frames.key (p * 8 + q) ≠ idKey →
        u.rd Objs.tx_queue_frames (p * 8 + q) = satAdd 64 (s.rd Objs.tx_queue_frames (p * 8 + q)) 1) := by
  obtain ⟨m, popped⟩ : ∃ m, srcPop s p (.queue q) = { s.setEp p ((s.ep p).setQ q (((s.ep p).q q).drop 1)) with tm := m } := by
    unfold srcPop
    dsimp only
    split <;> exact ⟨_, rfl⟩
  have left : (srcPop s p (.queue q)).ep p = (s.ep p).setQ q (((s.ep p).q q).drop 1) := by
    rw [popped]
    exact State.setEp_ep ..
  obtain ⟨c, l, x, paid⟩ : ∃ c l x, (queueCost (srcPop s p (.queue q)) p q (f.body.length + 4)).ep p =
      { (s.ep p).setQ q (((s.ep p).q q).drop 1) with credit := c, qsh := l, psh := x } :=
    ⟨_, _, _, (State.setEp_ep ..).trans (by rw [left])⟩
  have uncut := cutFrame_of_no_preemptable (s := queueCost (srcPop s p (.queue q)) p q (f.body.length + 4)) (p := p)
    (by rw [paid]; exact hP)
  refine ⟨queueCost (srcPop s p (.queue q)) p q (f.body.length + 4), ?_, by rw [paid]; rfl, ?_, fun hid => ?_⟩
  · simp only [serve, Bool.false_eq_true, if_false, uncut]
  · rw [popped]
    rfl
  · rw [popped]
    exact State.bump_rd_same _ hid 1

/-! ## FRAME_START -/

/-- An idle port with no launch before it starts the fresh head of the source chosen, which `u` has already given up. -/
theorem frameStart_starts {src : Src} {f : EgFrame} {ofs e : Nat} {u : State} (hidle : s.Idle p) (hcal : (s.ep p).cal = [])
    (hsrc : chooseSrc s p false = (some src, s)) (hhead : srcHead (s.ep p) src = some f) (hfresh : stale s p f = false) (hptp : f.ptp = none)
    (hserve : serve s p src f false ofs = startFrame u p f false e) :
    (frameStart s p false ofs .good).ep p =
        { u.ep p with txE := some ⟨f.body.length + 12, f.body.length + 4, u.fNs, false, false⟩ } ∧
      (frameStart s p false ofs .good).outbox = u.outbox ++ [.frame p f.wire e] ∧
      ∀ o i, o.key i < 0x4000 * 256 → (frameStart s p false ofs .good).rd o i = u.rd o i := by
  have unlaunched : launchStart s p ofs = none := by simp [launchStart, hcal]
  have chosen : startChosen s p false ofs = startFrame u p f false e := by
    simp [startChosen, hidle.macFree, guarded_of_no_launch hcal, chooseFrame_head hsrc hhead hfresh, hserve]
  have started : frameStart s p false ofs .good = (startFrame u p f false e).xoffUpdate (s.grpOfPort p) := by
    simp [frameStart, hidle.up, hidle.sends, hidle.txSettle, queueEcc, unlaunched, chosen]
  obtain ⟨hep, hout, hrd⟩ := startFrame_plain hptp u p e
  have kept := KeepsEgress.xoffUpdate (startFrame u p f false e) (s.grpOfPort p)
  rw [started]
  exact ⟨(kept.ep p).trans hep, (State.xoffUpdate_outbox ..).trans hout, fun o i hk => (kept.rd o i hk).trans (hrd o i hk)⟩

/-! ## LAUNCH_DUE -/

/-- A due head of an idle port's calendar starts, whether or not it has slipped. -/
theorem launchDue_starts {f : EgFrame} {rest : List EgFrame} (hidle : s.Idle p) (hcal : (s.ep p).cal = f :: rest)
    (hdue : headDue s p f = true) (ofs : Nat) :
    ∃ d m n, launchDue s p ofs = startFrame ({ s with dict := d, fm := m }.setEp p { s.ep p with cal := rest, launchEnd := n }) p f false
      (launchTime s p f ofs) := by
  obtain ⟨d, m, slips⟩ : ∃ d m, (if slipped s p f then (s.bump Objs.lt_slip p).raise 203 p else s) = { s with dict := d, fm := m } := by
    split <;> exact ⟨_, _, rfl⟩
  have uncut : cutFrame { s with dict := d, fm := m } p = { s with dict := d, fm := m } := cutFrame_of_no_preemptable hidle.preemptable
  have free : ¬ (headDue s p f = false ∨ (s.ep p).txE.isSome = true ∨ cutFree s p = false) := by simp [hdue, hidle.express, hidle.cutFree]
  have launched : launchStart s p ofs = some (startFrame ({ s with dict := d, fm := m }.setEp p
      { s.ep p with cal := rest, launchEnd := s.fNs + s.sendNs p (f.body.length + 12) }) p f false (launchTime s p f ofs)) := by
    simp only [launchStart, hcal, free, if_false, slips, uncut]
    rfl
  refine ⟨d, m, s.fNs + s.sendNs p (f.body.length + 12), ?_⟩
  simp only [launchDue, hidle.up, hidle.sends, Bool.not_false, Bool.and_self, if_true, hidle.txSettle, launched, Option.getD_some]

end

end Sys2Proof.Machine
end

section
/-! Writes of the scheduler's objects (R344, R346, R347), and the statement on egress admission and starts. -/

namespace Sys2Proof.Machine

/-! ## Configuration -/

/-- The keys of the scheduler's settings. -/
abbrev SchedKey (k : Nat) : Prop := 0x3500 * 256 ≤ k ∧ k < 0x3600 * 256

/-- An accepted write of a setting of the scheduler stores its value; its own effect then meets the egress ports and the clocks as they were. -/
theorem schedulerWrite_effect {c : Ctx} {o : Obj} {i : Nat} {v : List Byte} {check : Nat → State → Code}
    {apply : Nat → State → State} {s : State} (hk : SchedKey (o.key i)) (hrw : o.acc = .rw) (h : Accepted c o i v check s) :
    ∃ b : State, writeObj c o i v check apply s = (apply (leNat v) b).put (.answer c (o.key i / 256) (o.key i % 256) 0 []) ∧
      b.rd o i = leNat v ∧ b.eg = s.eg ∧ b.time = s.time := by
  obtain ⟨hlo, hhi⟩ := hk
  have hid : o.key i ≠ idKey := by
    simp only [idKey]
    omega
  have hbanked : banked (o.key i) = false := by
    simp only [banked, decide_eq_false_iff_not, List.mem_cons, List.not_mem_nil, or_false]
    omega
  have hlocal : pathLocal (o.key i) = false := by
    simp only [pathLocal, Bool.or_eq_false_iff, Bool.and_eq_false_iff, decide_eq_false_iff_not, beq_eq_false_iff_ne, List.mem_cons,
      List.not_mem_nil, or_false]
    omega
  have hside : ¬ writeSide (o.key i) := by
    rintro (he | he | he | ⟨k, he⟩) <;> rw [he] at hlo hhi <;> simp only [Obj.key] at hlo hhi <;> omega
  obtain ⟨u, d, m, hbase, -, hvalue⟩ := acceptBase_frame c o i v s hid
  refine ⟨acceptBase c o i v s, writeObj_accepted h.1 h.2, ?_, ?_, ?_⟩ <;> rw [hbase]
  exact hvalue hbanked hrw hlocal hside

/-- The state of a shaper whose configuration has been written at a time of F. -/
abbrev freshShaper (x time : Nat) : ShState := ⟨if bit x 0 then 0 else ((fld x 56 24 * 2 ^ 32 : Nat) : Int), time⟩

theorem shWritten_port (p x : Nat) (s : State) : (shWritten p 8 x s).ep p = { s.ep p with psh := freshShaper x s.time.f } :=
  State.setEp_ep ..

theorem shWritten_queue {q : Nat} (hq : q ≠ 8) (p x : Nat) (s : State) :
    (shWritten p q x s).ep p = { s.ep p with qsh := (s.ep p).qsh.set q (freshShaper x s.time.f) } := by
  have applied : shApply p q x s = s.setEp p { s.ep p with qsh := (s.ep p).qsh.set q (freshShaper x s.time.f) } := if_neg hq
  rw [shWritten, applied]
  exact State.setEp_ep ..

theorem shWritten_rd (p q x : Nat) (s : State) (o : Obj) (i : Nat) : (shWritten p q x s).rd o i = s.rd o i := by
  have applied : (shApply p q x s).dict = s.dict := by
    unfold shApply
    dsimp only
    split <;> rfl
  exact congrArg (DictUnit.rd · o i) applied

/-! ## The obligation -/

/-- Settles O35: a packet of a group is one copy, and what ends with it is no part of the egress side; an idle port serves the fresh head of
the source it chooses; and a setting's own effect meets the egress ports as they were. -/
theorem egressQueuesAndStarts : Obligations.EgressQueuesAndStarts := by
  intro p ofs s
  have hp := p.isLt
  refine ⟨fun g r f port word edit hready hflight hmc hport => ⟨fun hup hlaunch hexp hcls hroom => ?queued, fun hdown => ?down⟩,
    fun hup hopen hE hP => ⟨fun f rest hcal hexpr hfresh hptp => ?express, fun f rest hcal hexpr hq hstrict hmac hel hfresh hptp => ?strict,
      fun f rest hcal hdue hptp => ?launch⟩,
    fun hdown pre ecc => ?notUp,
    fun c p v => ⟨fun h => ?portShaper, fun q h hlen => ?queueShaper, fun q h => ?weight, fun h => ?strictCount⟩⟩
  case' express | strict | launch => have hidle : s.Idle p := ⟨hup, hopen, hE, hP⟩
  case queued =>
    have ended := egressAdmit_unicast hready hflight hmc hport port word (edit.map (·.val))
    obtain ⟨fr, d, moved, hfr⟩ := egCopy_queued (s := s.readyTaken r) _ _ f (egDecide_queue hup hlaunch hexp hmc hroom)
    rw [moved] at ended
    refine ⟨_, fr, rfl, ended.ready, ?_, hfr⟩
    exact (congrArg (EgPort.q · r.cls) ((ended.ep p).trans (State.setEp_ep ..))).trans (EgPort.q_setQ hcls _)
  case down =>
    have ended := egressAdmit_unicast hready hflight hmc hport port word (edit.map (·.val))
    obtain ⟨hlow, hid⟩ := txDropDown_key hp
    rw [egCopy_refused _ _ f hmc (egDecide_down (s := s.readyTaken r) hdown)] at ended
    exact ⟨_, rfl, ended.ready, ended.eg, (ended.rd _ _ hlow).trans (State.bump_rd_same _ hid 1)⟩
  case express =>
    obtain ⟨hep, hout, -⟩ := frameStart_starts hidle hcal (chooseSrc_express hexpr) (by rw [srcHead, hexpr]; rfl) hfresh hptp
      (serve_express hP f ofs.toNat)
    rw [State.setEp_ep] at hep
    exact ⟨_, rfl, by rw [hep, hexpr]; rfl, by rw [hep], by rw [hep]; rfl, hout⟩
  case strict =>
    obtain ⟨u, hserve, hqueues, hout, hcount⟩ := serve_queue hP 7 f ofs.toNat
    obtain ⟨hep, hput, hrd⟩ := frameStart_starts hidle hcal (chooseSrc_strict hexpr hstrict hmac hel) (by rw [srcHead, hq]; rfl)
      hfresh hptp hserve
    have popped := EgPort.q_setQ (EgPort.lt_of_q hq) (((s.ep p).q 7).drop 1)
    refine ⟨_, rfl, ?_, by rw [← hout]; exact hput, (hrd _ _ ?_).trans (hcount ?_)⟩
    · rw [EgPort.q, hep, hqueues]
      exact popped.trans (by rw [hq]; rfl)
    all_goals
      simp only [Obj.key, idKey]
      omega
  case launch =>
    obtain ⟨d, m, n, hdueStart⟩ := launchDue_starts hidle hcal hdue ofs.toNat
    obtain ⟨hep, hout, -⟩ := startFrame_plain hptp ({ s with dict := d, fm := m }.setEp p { s.ep p with cal := rest, launchEnd := n }) p
      (launchTime s p f ofs.toNat)
    rw [State.setEp_ep, ← hdueStart] at hep
    rw [← hdueStart] at hout
    exact ⟨_, rfl, by rw [hep], by rw [hep], hout⟩
  case notUp =>
    have hoff : ¬ ((s.isUp p && !s.txClosed p) = true) := by simp [hdown]
    exact ⟨congrArg Host.Outcome.next (if_neg hoff), congrArg Host.Outcome.next (if_neg hoff)⟩
  case portShaper =>
    obtain ⟨b, hwrite, hvalue, heg, htime⟩ := schedulerWrite_effect (apply := shWritten p 8) (by simp only [Obj.key]; omega) rfl h
    have hep := shWritten_port p (leNat v) b
    rw [State.ep_congr heg, htime] at hep
    exact ⟨_, congrArg Host.Outcome.next hwrite, answered_ok .., (shWritten_rd ..).trans hvalue, (congrArg EgPort.psh hep :),
      (congrArg EgPort.queues hep :)⟩
  case queueShaper =>
    have hq : q.castSucc.val ≠ 8 := by simp only [Fin.val_castSucc]; omega
    obtain ⟨b, hwrite, hvalue, heg, htime⟩ := schedulerWrite_effect (apply := shWritten p q) (by simp only [Obj.key]; omega) rfl h
    have hep := shWritten_queue hq p (leNat v) b
    rw [State.ep_congr heg, htime] at hep
    refine ⟨_, (if_neg hq).trans (congrArg Host.Outcome.next hwrite), answered_ok .., (shWritten_rd ..).trans hvalue,
      (congrArg (EgPort.sh · q) hep).trans ?_, (congrArg EgPort.psh hep :)⟩
    simp [EgPort.sh, hlen]
  case weight =>
    obtain ⟨b, hwrite, hvalue, heg, -⟩ := schedulerWrite_effect (apply := noApply) (by simp only [Obj.key]; omega) rfl h
    exact ⟨_, congrArg Host.Outcome.next hwrite, answered_ok .., hvalue, heg⟩
  case strictCount =>
    obtain ⟨b, hwrite, hvalue, heg, -⟩ := schedulerWrite_effect (apply := fun _ => strictApply p) (by simp only [Obj.key]; omega) rfl h
    have hep : (strictApply p b).ep p = { b.ep p with credit := List.replicate 8 0 } := State.setEp_ep ..
    rw [State.ep_congr heg] at hep
    exact ⟨_, congrArg Host.Outcome.next hwrite, answered_ok .., hvalue, (congrArg EgPort.credit hep :), (congrArg EgPort.queues hep :)⟩

end Sys2Proof.Machine
end

section
/-! The step and the state after reset: what a step runs (O54), and the invariant at its start (O56). -/

namespace Sys2Proof.Machine

/-- Settles O54: a step looks at the queue alone, and takes its front command or lets time advance. -/
theorem stepRunsFrontCommand : Obligations.StepRunsFrontCommand := by
  unfold Obligations.StepRunsFrontCommand
  refine fun c s => ⟨rfl, fun hnone => ?_⟩
  rw [step, hnone]

/-- Settles O56: the counters start at 0, the two tables are empty and nothing waits. -/
theorem resetMeetsInvariant : Obligations.ResetMeetsInvariant where
  f := by decide
  a := by decide
  b := by decide
  w := by decide
  sw := by decide
  buffer := by decide
  pending := fun _ hwaits => nomatch hwaits

end Sys2Proof.Machine
end

section
/-! The frame of a function, told in pieces of the state: hiding the pieces that a function may change makes the state after it equal to the state before. -/

namespace Sys2Proof.Machine

/-- The pieces of a state in which a command's frame is told: its parts, and of them apart the fault manager's safe state, the counters of the
time unit, the bytes of the software region and of the image buffer, and whether the core's clocks run. -/
inductive Piece where
  | dict | fm | safe | time | clock | counters | str | host | hbm | sw | ports | pat | hue | tm | eg | tbl | sk | buffer | cu | fsu | dbg
  | eft | clocks | outbox | free
deriving DecidableEq

/-- A state with the pieces of `m` taken out: two states that agree in it differ in pieces of `m` alone. -/
def State.off (m : Piece → Bool) (s : State) : State where
  dict := bif m .dict then .init else s.dict
  fm := { (bif m .fm then .init else s.fm : FaultMgr) with safe := bif m .safe then false else s.fm.safe }
  time := { (bif m .time then .init else s.time : TimeUnit) with
    ticks := bif m .clock then 0 else s.time.ticks
    f := bif m .clock then 0 else s.time.f
    a := bif m .counters then 0 else s.time.a
    b := bif m .counters then 0 else s.time.b
    w := bif m .counters then 0 else s.time.w }
  str := bif m .str then .init else s.str
  host := bif m .host then .init else s.host
  hbm := { (bif m .hbm then .init else s.hbm : Hbm) with sw := bif m .sw then [] else s.hbm.sw }
  ports := bif m .ports then .init else s.ports
  pat := bif m .pat then .init else s.pat
  hue := bif m .hue then .init else s.hue
  tm := bif m .tm then .init else s.tm
  eg := bif m .eg then .init else s.eg
  tbl := bif m .tbl then .init else s.tbl
  sk := { (bif m .sk then .init else s.sk : SkinkUnit) with buffer := bif m .buffer then [] else s.sk.buffer }
  cu := bif m .cu then .init else s.cu
  fsu := bif m .fsu then .init else s.fsu
  dbg := bif m .dbg then .init else s.dbg
  eft := { (bif m .eft then .init else s.eft : Eft) with clocks := bif m .clocks then false else s.eft.clocks }
  outbox := bif m .outbox then [] else s.outbox
  free := bif m .free then 0 else s.free
  pending := s.pending

section
variable {m : Piece → Bool}

@[simp] theorem State.off_with_dict {s : State} {x : DictUnit} (h : m .dict) : State.off m { s with dict := x } = s.off m := by
  simp [State.off, h]

@[simp] theorem State.off_with_fm {s : State} {x : FaultMgr} (h : m .fm) (h' : m .safe ∨ x.safe = s.fm.safe) : State.off m { s with fm := x } = s.off m := by
  obtain h' | h' := h' <;> simp [State.off, h, h']

@[simp] theorem State.off_with_time {s : State} {x : TimeUnit} (h : m .time) (h' : m .clock ∨ x.ticks = s.time.ticks ∧ x.f = s.time.f) (h'' : m .counters ∨ x.a = s.time.a ∧ x.b = s.time.b ∧ x.w = s.time.w) : State.off m { s with time := x } = s.off m := by
  obtain h' | ⟨ht, hf⟩ := h' <;> obtain h'' | ⟨ha, hb, hw⟩ := h'' <;> simp [State.off, *]

@[simp] theorem State.off_with_str {s : State} {x : StreamPort} (h : m .str) : State.off m { s with str := x } = s.off m := by
  simp [State.off, h]

@[simp] theorem State.off_with_host {s : State} {x : HostIf} (h : m .host) : State.off m { s with host := x } = s.off m := by
  simp [State.off, h]

@[simp] theorem State.off_with_hbm {s : State} {x : Hbm} (h : m .hbm) (h' : m .sw ∨ x.sw = s.hbm.sw) : State.off m { s with hbm := x } = s.off m := by
  obtain h' | h' := h' <;> simp [State.off, h, h']

@[simp] theorem State.off_with_ports {s : State} {x : PortUnit} (h : m .ports) : State.off m { s with ports := x } = s.off m := by
  simp [State.off, h]

@[simp] theorem State.off_with_pat {s : State} {x : PatternUnit} (h : m .pat) : State.off m { s with pat := x } = s.off m := by
  simp [State.off, h]

@[simp] theorem State.off_with_hue {s : State} {x : HueUnit} (h : m .hue) : State.off m { s with hue := x } = s.off m := by
  simp [State.off, h]

@[simp] theorem State.off_with_tm {s : State} {x : TmUnit} (h : m .tm) : State.off m { s with tm := x } = s.off m := by
  simp [State.off, h]

@[simp] theorem State.off_with_eg {s : State} {x : EgressUnit} (h : m .eg) : State.off m { s with eg := x } = s.off m := by
  simp [State.off, h]

@[simp] theorem State.off_with_tbl {s : State} {x : TableUnit} (h : m .tbl) : State.off m { s with tbl := x } = s.off m := by
  simp [State.off, h]

@[simp] theorem State.off_with_sk {s : State} {x : SkinkUnit} (h : m .sk) (h' : m .buffer ∨ x.buffer = s.sk.buffer) : State.off m { s with sk := x } = s.off m := by
  obtain h' | h' := h' <;> simp [State.off, h, h']

@[simp] theorem State.off_with_cu {s : State} {x : CommitUnit} (h : m .cu) : State.off m { s with cu := x } = s.off m := by
  simp [State.off, h]

@[simp] theorem State.off_with_fsu {s : State} {x : Fsu} (h : m .fsu) : State.off m { s with fsu := x } = s.off m := by
  simp [State.off, h]

@[simp] theorem State.off_with_dbg {s : State} {x : DebugUnit} (h : m .dbg) : State.off m { s with dbg := x } = s.off m := by
  simp [State.off, h]

@[simp] theorem State.off_with_eft {s : State} {x : Eft} (h : m .eft) (h' : m .clocks ∨ x.clocks = s.eft.clocks) : State.off m { s with eft := x } = s.off m := by
  obtain h' | h' := h' <;> simp [State.off, h, h']

@[simp] theorem State.off_with_outbox {s : State} {x : List Output} (h : m .outbox) : State.off m { s with outbox := x } = s.off m := by
  simp [State.off, h]

@[simp] theorem State.off_with_free {s : State} {x : Nat} (h : m .free) : State.off m { s with free := x } = s.off m := by
  simp [State.off, h]

@[simp] theorem State.off_foldl {α : Type} {f : State → α → State} (h : ∀ s a, (f s a).off m = s.off m) (l : List α) (s : State) : (l.foldl f s).off m = s.off m := by
  induction l generalizing s with
  | nil => rfl
  | cons a t ih => rw [List.foldl_cons, ih, h]

theorem State.off_foldl_mem {α : Type} {f : State → α → State} {l : List α} (h : ∀ a ∈ l, ∀ s, (f s a).off m = s.off m) (s : State) :
    (l.foldl f s).off m = s.off m := by
  induction l generalizing s with
  | nil => rfl
  | cons a t ih =>
    rw [List.foldl_cons, ih fun b hb => h b (List.mem_cons_of_mem a hb)]
    exact h a List.mem_cons_self s

theorem State.off_of_eq {α : Type} {x : α × State} {a : α} {t : State} (e : x = (a, t)) : t.off m = x.2.off m := by rw [e]

@[simp] theorem State.off_ite {c : Prop} [Decidable c] (s t : State) : (if c then s else t).off m = if c then s.off m else t.off m := apply_ite (State.off m) c s t

end
end Sys2Proof.Machine
end

section
/-! The frames of the accessors, the HBM controllers, the journal and the dictionary, BAR2 and the first of the flow state unit. -/

namespace Sys2Proof.Machine
section
variable {m : Piece → Bool}

@[simp] theorem State.wr_off (h : m .dict) (s : State) (o : Obj) (i : Nat) (v : Nat) : (s.wr o i v).off m = s.off m := by
  simp [State.wr, h]

@[simp] theorem State.bump_off (h : m .dict) (s : State) (o : Obj) (i : Nat) (n : Nat) : (s.bump o i n).off m = s.off m := by
  simp [State.bump, h]

@[simp] theorem State.setTrace_off (h : m .dbg) (s : State) (c : Nat) (b : TraceBuf) : (s.setTrace c b).off m = s.off m := by
  simp [State.setTrace, h]

@[simp] theorem State.wrInt_off (h : m .dict) (s : State) (o : Obj) (i : Nat) (v : Int) : (s.wrInt o i v).off m = s.off m := by
  simp [State.wrInt, h]

@[simp] theorem State.put_off (h : m .outbox) (s : State) (o : Output) : (s.put o).off m = s.off m := by
  simp [State.put, h]

@[simp] theorem State.draw_off (h : m .free) (s : State) : (s.draw).2.off m = s.off m := by
  simp [State.draw, h]

@[simp] theorem State.raiseOf_off (h : m .fm) (s : State) (src : Nat) (utype : Nat) (unit : Nat) (detail : Nat) (cause : Option (Nat × Nat)) (item : Nat) : (s.raiseOf src utype unit detail cause item).off m = s.off m := by
  simp [State.raiseOf, h]

@[simp] theorem State.raise_off (h : m .fm) (s : State) (src : Nat) (unit : Nat) (detail : Nat) (cause : Option (Nat × Nat)) (item : Nat) : (s.raise src unit detail cause item).off m = s.off m := by
  simp [State.raise, h]

@[simp] theorem State.setCtl_off (h : m .hbm) (s : State) (p : Nat) (x : HbmCtl) : (s.setCtl p x).off m = s.off m := by
  simp [State.setCtl, h]

@[simp] theorem State.setRetired_off (h : m .dict) (s : State) (p : Nat) (b : Bool) : (s.setRetired p b).off m = s.off m := by
  simp [State.setRetired, h]

@[simp] theorem State.takeSpares_off (h : m .fm ∧ m .hbm) (s : State) (p : Nat) (n : Nat) : (s.takeSpares p n).off m = s.off m := by
  simp [State.takeSpares, h]

@[simp] theorem State.setChan_off (h : m .str) (s : State) (c : Nat) (x : StrChan) : (s.setChan c x).off m = s.off m := by
  simp [State.setChan, h]

@[simp] theorem State.undoSlot_off (h : m .dict ∧ m .fsu) (s : State) (i : Nat) (k : Nat) (old : Nat) : (s.undoSlot i k old).off m = s.off m := by
  simp [State.undoSlot, h]

@[simp] theorem bar2Frozen_off (h : m .dict ∧ m .fm) (s : State) (a : Nat) : (bar2Frozen s a).off m = s.off m := by
  simp [bar2Frozen, h]

@[simp] theorem State.bar2Discard_off (h : m .dict ∧ m .fm ∧ m .hbm) (s : State) (tag : Nat) (a : Nat) : (s.bar2Discard tag a).off m = s.off m := by
  simp [State.bar2Discard, h]

/-- The pieces that a lost write may take something from lie in `m`. -/
@[simp] def HbmUndo.within (m : Piece → Bool) : HbmUndo → Prop
  | .slot .. => m .dict ∧ m .fsu
  | .alt .. => m .fsu
  | .spill .. => m .tm
  | .stage .. => m .str
  | .bar2 .. => m .dict ∧ m .fm ∧ m .hbm
  | _ => m .hbm

theorem HbmUndo.within_of (h : m .dict ∧ m .fm ∧ m .str ∧ m .hbm ∧ m .tm ∧ m .fsu) (u : HbmUndo) : u.within m := by
  cases u <;> simp [HbmUndo.within, h]

/-- All that the loss of a write takes something from lies in `m`. -/
def HbmWrite.within (m : Piece → Bool) (w : HbmWrite) : Prop := ∀ u ∈ w.undo, u.within m

@[simp] theorem HbmWrite.within_mk (client off : Nat) (data : List Byte) (undo : List HbmUndo) :
    (HbmWrite.mk client off data undo).within m ↔ ∀ u ∈ undo, u.within m := Iff.rfl

@[simp] theorem Hbm.undo_sw (x : Hbm) (u : HbmUndo) : (x.undo u).sw = x.sw := by cases u <;> rfl

@[simp] theorem State.undo_off {u : HbmUndo} (h : u.within m) (s : State) : (s.undo u).off m = s.off m := by
  cases u <;> simp only [HbmUndo.within] at h <;> simp [State.undo, h]

@[simp] theorem State.loseWrite_off {w : HbmWrite} (h : w.within m) (s : State) : (s.loseWrite w).off m = s.off m :=
  State.off_foldl_mem (fun u hu s => State.undo_off (h u hu) s) s

@[simp] theorem State.bar2End_off (h : m .dict ∧ m .fm ∧ m .outbox) (s : State) (b : Bar2Read) : (s.bar2End b).off m = s.off m := by
  simp only [State.bar2End]; split <;> simp [*]

@[simp] theorem State.bar2Got_off (h : m .dict ∧ m .fm ∧ m .hbm ∧ m .outbox) (s : State) (tag : Nat) (addr : Nat) (frozen : Bool) (data : List Byte) : (s.bar2Got tag addr frozen data).off m = s.off m := by
  simp only [State.bar2Got]; split <;> simp [*]

@[simp] theorem State.endRead_off {r : HbmReq} (h : m .hbm) (h3 : r.client = 3 → m .str)
    (h4 : r.client = 4 → m .dict ∧ m .fm ∧ m .outbox) (s : State) (p : Nat) (frozen : Bool) (data : List Byte) :
    (s.endRead p r frozen data).off m = s.off m := by
  simp only [State.endRead]
  split_ifs <;> simp_all

@[simp] theorem State.hbmRead_off {r : HbmReq} (h : m .hbm) (h3 : r.client = 3 → m .str)
    (h4 : r.client = 4 → m .dict ∧ m .fm ∧ m .outbox) (s : State) (p : Nat) : (s.hbmRead p r).off m = s.off m := by
  simp only [State.hbmRead]
  split_ifs <;> simp_all

@[simp] theorem State.hbmReads_off {client : Nat} (h : m .hbm) (h3 : client = 3 → m .str)
    (h4 : client = 4 → m .dict ∧ m .fm ∧ m .outbox) (s : State) (p off tag n : Nat) (fill : Bool) :
    (s.hbmReads p client off tag n fill).off m = s.off m := by
  simp only [State.hbmReads]
  exact State.off_foldl (fun s k => State.hbmRead_off h h3 h4 s p) _ s

@[simp] theorem State.hbmWrite_off {w : HbmWrite} (h : m .hbm) (hw : w.within m) (s : State) (p : Nat) :
    (s.hbmWrite p w).off m = s.off m := by
  simp only [State.hbmWrite]
  split_ifs
  · exact State.loseWrite_off hw s
  · exact State.setCtl_off h ..

@[simp] theorem Hbm.present_sw (x : Hbm) (p : Nat) (q : HbmAsk) : (x.present p q).sw = x.sw := rfl

theorem Hbm.foldl_sw {α : Type} {f : Hbm → α → Hbm} (h : ∀ x a, (f x a).sw = x.sw) (l : List α) (x : Hbm) : (l.foldl f x).sw = x.sw := by
  induction l generalizing x with
  | nil => rfl
  | cons a t ih => rw [List.foldl_cons, ih, h]

@[simp] theorem State.bgRead_off (h : m .hbm) (s : State) (b : Nat) : (s.bgRead b).off m = s.off m := by
  refine State.off_with_hbm h (.inr ?_)
  split_ifs
  · rfl
  · exact Hbm.foldl_sw (fun x k => Hbm.present_sw ..) _ _

@[simp] theorem State.imageWrites_off (h : m .hbm) (s : State) (l : List (Nat × Nat × HbmUndo)) : (s.imageWrites l).off m = s.off m := by
  refine State.off_with_hbm h (.inr (Hbm.foldl_sw (fun x w => ?_) l s.hbm))
  split_ifs
  · exact Hbm.undo_sw ..
  · exact Hbm.present_sw ..

@[simp] theorem State.shadowWrite_off (h : m .hbm) (s : State) (kind : Nat) (item : Nat) : (s.shadowWrite kind item).off m = s.off m := by
  simp [State.shadowWrite, h]

@[simp] theorem State.goldenWrites_off (h : m .hbm) (s : State) (image : Nat) : (s.goldenWrites image).off m = s.off m := by
  simp [State.goldenWrites, h]

@[simp] theorem State.macWrites_off (h : m .hbm) (s : State) (places : List Nat) : (s.macWrites places).off m = s.off m := by
  simp [State.macWrites, h]

@[simp] theorem State.addRead_off (h : m .dict ∧ m .fm ∧ m .str ∧ m .hbm ∧ m .outbox) (s : State) (p : Nat) (r : HbmReq) : (s.addRead p r).off m = s.off m := by
  simp only [State.addRead]; split <;> simp [*]

@[simp] theorem State.hbmAccept_off (h : m .dict ∧ m .fm ∧ m .str ∧ m .hbm ∧ m .outbox) (s : State) (p : Nat) : (s.hbmAccept p).off m = s.off m := by
  simp only [State.hbmAccept]; split <;> simp [*]

@[simp] theorem State.issueWrite_off (h : m .hbm ∧ m .sw) (s : State) (p : Nat) : (s.issueWrite p).off m = s.off m := by
  simp only [State.issueWrite]
  split
  · rfl
  · rw [State.off_with_hbm h.1 (.inl h.2), State.setCtl_off h.1]

@[simp] theorem State.writeBack_off (h : m .hbm) (s : State) (p : Nat) : (s.writeBack p).off m = s.off m := by
  simp only [State.writeBack]; split <;> simp [*]

@[simp] theorem State.mclk_off (h : m .dict ∧ m .fm ∧ m .str ∧ m .hbm ∧ m .sw ∧ m .outbox) (s : State) (p : Nat) : (s.mclk p).off m = s.off m := by
  simp [State.mclk, h]

@[simp] theorem State.ctlsTick_off (h : m .dict ∧ m .fm ∧ m .str ∧ m .hbm ∧ m .sw ∧ m .outbox) (s : State) : s.ctlsTick.off m = s.off m := by
  simp only [State.ctlsTick]
  refine State.off_foldl (fun s p => ?_) _ s
  split_ifs
  · exact State.off_foldl (fun s _ => State.mclk_off (by simp [h]) s p) _ s
  · rfl

@[simp] theorem swQueue_off (h : m .dict ∧ m .fm ∧ m .hbm) (s : State) (tag : Nat) (addr : Nat) (data : List Byte) : (swQueue s tag addr data).off m = s.off m := by
  simp [swQueue, h]

@[simp] theorem State.stageWrites_off (h : m .str ∧ m .hbm) (s : State) (c : Nat) (seq : Nat) (places : List Nat) : (s.stageWrites c seq places).off m = s.off m := by
  simp [State.stageWrites, h]

@[simp] theorem State.stageFetch_off (h : m .str ∧ m .hbm) (s : State) (c : Nat) : (s.stageFetch c).off m = s.off m := by
  simp only [State.stageFetch]; split <;> simp [*]

@[simp] theorem State.offer_off (h : m .dict ∧ m .fm ∧ m .str ∧ m .hbm) (s : State) (c ty : Nat) (body : List Byte) (ref : RecRef) :
    (s.offer c ty body ref).off m = s.off m := by
  simp only [State.offer]
  split_ifs
  · simp [h]
  · simp [h]
  · simp [h]
  all_goals
    simp only [State.stageFetch_off, State.stageWrites_off, h, and_self]
    rw [State.off_with_str (by simp [h]), State.setChan_off (by simp [h]), State.wr_off (by simp [h])]

@[simp] theorem State.journalMark_off (h : m .dict) (s : State) (seq : Nat) (exported : Bool) (offered : Bool) : (s.journalMark seq exported offered).off m = s.off m := by
  simp [State.journalMark, h]

@[simp] theorem State.journalOffer_off (h : m .dict ∧ m .fm ∧ m .str ∧ m .hbm) (s : State) : (s.journalOffer).off m = s.off m := by
  simp only [State.journalOffer]; (repeat' split) <;> simp [*]

@[simp] theorem State.deliver_off (h : m .host) (s : State) (ring : Nat) (kind : Nat) (data : List Byte) : (s.deliver ring kind data).off m = s.off m := by
  simp [State.deliver, h]

@[simp] theorem State.setPending_off (h : m .host) (s : State) (v : Nat) (b : Bool) : (s.setPending v b).off m = s.off m := by
  simp [State.setPending, h]

@[simp] theorem State.mbWrite_off (h : m .dict) (s : State) (off : Nat) (l : List Byte) : (s.mbWrite off l).off m = s.off m := by
  simp [State.mbWrite, h]

@[simp] theorem State.msix_off (h : m .host ∧ m .outbox) (s : State) (v : Nat) : (s.msix v).off m = s.off m := by
  simp only [State.msix]; split <;> simp [*]

@[simp] theorem State.sdpTick_off (h : m .dbg) (s : State) : (s.sdpTick).off m = s.off m := by
  simp [State.sdpTick, h]

@[simp] theorem State.mbTick_off (h : m .dict ∧ m .host ∧ m .outbox) (s : State) : (s.mbTick).off m = s.off m := by
  simp [State.mbTick, h]

@[simp] theorem State.wrCtx_off (h : m .dict) (s : State) (c : Ctx) (o : Obj) (i : Nat) (v : Nat) : (s.wrCtx c o i v).off m = s.off m := by
  simp [State.wrCtx, h]

@[simp] theorem State.journalAdd_off (h : m .dict) (s : State) (c : Ctx) (o : Obj) (i : Nat) (v : List Byte) : (s.journalAdd c o i v).off m = s.off m := by
  simp only [State.journalAdd]; (repeat' split) <;> simp [*]

@[simp] theorem State.setResultN_off (h : m .dict) (s : State) (c : Nat) (k : Nat) (r : Nat) : (s.setResultN c k r).off m = s.off m := by
  simp [State.setResultN, h]

@[simp] theorem State.setResult_off (h : m .dict) (s : State) (c : Ctx) (k : Nat) (r : Nat) : (s.setResult c k r).off m = s.off m := by
  simp [State.setResult, h]

@[simp] theorem State.startRunOn_off (h : m .dict) (s : State) (c : Ctx) (k : Nat) (unit : Nat) (r : Nat) : (s.startRunOn c k unit r).off m = s.off m := by
  simp [State.startRunOn, h]

@[simp] theorem State.startRun_off (h : m .dict) (s : State) (c : Ctx) (k : Nat) (r : Nat) : (s.startRun c k r).off m = s.off m := by
  simp [State.startRun, h]

@[simp] theorem State.endRun_off (h : m .dict) (s : State) (c : Nat) (k : Nat) (r : Nat) : (s.endRun c k r).off m = s.off m := by
  simp [State.endRun, h]

@[simp] theorem State.endRuns_off (h : m .dict) (s : State) (k : Nat) (unit : Nat) (r : Nat) : (s.endRuns k unit r).off m = s.off m := by
  simp [State.endRuns, h]

@[simp] theorem State.storeWritten_off (h : m .dict) (s : State) (c : Ctx) (o : Obj) (i : Nat) (x : Nat) : (s.storeWritten c o i x).off m = s.off m := by
  simp only [State.storeWritten]; split_ifs <;> simp [*]

@[simp] theorem acceptBase_off (h : m .dict ∧ m .fm ∧ m .str ∧ m .hbm) (c : Ctx) (o : Obj) (i : Nat) (v : List Byte) (s : State) : (acceptBase c o i v s).off m = s.off m := by
  simp [acceptBase, h]

@[simp] theorem acceptWrite_off (h : m .dict ∧ m .fm ∧ m .str ∧ m .hbm) {apply : Nat → State → State}
    (ha : ∀ n s, (apply n s).off m = s.off m) (c : Ctx) (o : Obj) (i : Nat) (v : List Byte) (s : State) :
    (acceptWrite c o i v apply s).off m = s.off m := by
  rw [acceptWrite, ha, acceptBase_off h]

@[simp] theorem writeObj_off (h : m .dict ∧ m .fm ∧ m .str ∧ m .hbm ∧ m .outbox) {apply : Nat → State → State} {refused : Code → State → State}
    (ha : ∀ n s, (apply n s).off m = s.off m) (hr : ∀ k s, (refused k s).off m = s.off m) (c : Ctx) (o : Obj) (i : Nat) (v : List Byte)
    (check : Nat → State → Code) (s : State) : (writeObj c o i v check apply s refused).off m = s.off m := by
  simp only [writeObj]
  split_ifs <;> simp [h, ha, hr]

@[simp] theorem readObj_off (h : m .outbox) {effect : State → State} (he : ∀ s, (effect s).off m = s.off m) (c : Ctx) (o : Obj)
    (i : Nat) (value : State → Nat) (check : State → Code) (s : State) : (readObj c o i value check effect s).off m = s.off m := by
  simp only [readObj]
  split_ifs <;> simp [h, he]

@[simp] theorem noApply_off (x : Nat) (y : State) : (noApply x y).off m = y.off m := by
  simp [noApply]

@[simp] theorem State.flushCtl_off (h : m .dict ∧ m .fm ∧ m .str ∧ m .hbm ∧ m .tm ∧ m .fsu ∧ m .outbox) (s : State) (p : Nat) :
    (s.flushCtl p).off m = s.off m := by
  have lost (w : HbmWrite) : w.within m := fun u _ => HbmUndo.within_of (by simp [h]) u
  simp only [State.flushCtl]
  rw [State.off_foldl fun s w => State.loseWrite_off (lost w) s, State.off_foldl fun s r => ?_, State.setCtl_off (by simp [h])]
  exact State.endRead_off (by simp [h]) (by simp [h]) (by simp [h]) ..

@[simp] theorem hbmFreeze_off (h : m .dict ∧ m .fm ∧ m .str ∧ m .hbm ∧ m .tm ∧ m .fsu ∧ m .outbox) (s : State) (p : Nat) (cause : Nat) (sev : Nat) (syndrome : Nat) (client : Nat) (off : Nat) (write : Bool) : (hbmFreeze s p cause sev syndrome client off write).off m = s.off m := by
  simp [hbmFreeze, h]

@[simp] theorem hbmRetireCtl_off (h : m .dict ∧ m .fm ∧ m .str ∧ m .hbm ∧ m .tm ∧ m .fsu ∧ m .outbox) (s : State) (p : Nat) : (hbmRetireCtl s p).off m = s.off m := by
  simp [hbmRetireCtl, h]

@[simp] theorem hbmTrainingDone_off (h : m .dict ∧ m .fm ∧ m .str ∧ m .hbm ∧ m .tm ∧ m .fsu ∧ m .outbox) (s : State) (p : Nat) (pass : Bool) (spares : Nat) : (hbmTrainingDone s p pass spares).off m = s.off m := by
  simp [hbmTrainingDone, h]

@[simp] theorem State.retrained_off (h : m .dict ∧ m .fm ∧ m .str ∧ m .hbm ∧ m .tm ∧ m .fsu ∧ m .outbox) (s : State) (p : Nat) (pass : Bool) (spare : Bool) : (s.retrained p pass spare).off m = s.off m := by
  simp [State.retrained, h]

@[simp] theorem hbmRetrain_off (h : m .dict ∧ m .fm ∧ m .str ∧ m .hbm ∧ m .tm ∧ m .fsu ∧ m .outbox) (s : State) (p : Nat) (pass : Bool) (spare : Bool) : (hbmRetrain s p pass spare).off m = s.off m := by
  grind [hbmRetrain, State.setCtl_off, State.retrained_off]

@[simp] theorem hbmRefresh_off (h : m .hbm) (s : State) (p : Nat) : (hbmRefresh s p).off m = s.off m := by
  simp [hbmRefresh, h]

@[simp] theorem hbmTempSample_off (h : m .dict ∧ m .fm) (s : State) (stack : Nat) (temp : Nat) : (hbmTempSample s stack temp).off m = s.off m := by
  simp [hbmTempSample, h]

@[simp] theorem readServed_off (h : m .dict ∧ m .fm ∧ m .str ∧ m .hbm ∧ m .outbox) (s : State) (p i : Nat) (r : HbmReq) :
    (readServed s p i r).off m = s.off m := by
  simp only [readServed]
  rw [State.endRead_off (by simp [h]) (by simp [h]) (by simp [h]), State.setCtl_off (by simp [h])]

@[simp] theorem State.correct_off (h : m .hbm) (s : State) (p : Nat) (off : Nat) : (s.correct p off).off m = s.off m := by
  simp [State.correct, h]

@[simp] theorem hbmReadComplete_off (h : m .dict ∧ m .fm ∧ m .str ∧ m .hbm ∧ m .tm ∧ m .fsu ∧ m .outbox) (s : State) (p : Nat) (e : BurstEcc) : (hbmReadComplete s p e).off m = s.off m := by
  simp only [hbmReadComplete]; split <;> simp [*]

@[simp] theorem releaseRow_off (h : m .hbm) (s : State) (p : Nat) (bank : Nat) : (releaseRow s p bank).off m = s.off m := by
  simp [releaseRow, h]

@[simp] theorem rowHoldExpiry_off (h : m .hbm) (s : State) (p : Nat) (bank : Nat) : (rowHoldExpiry s p bank).off m = s.off m := by
  simp [rowHoldExpiry, h]

@[simp] theorem hbmPatrolScrub_off (h : m .hbm) (s : State) (p : Nat) : (hbmPatrolScrub s p).off m = s.off m := by
  grind [hbmPatrolScrub, State.setCtl_off, State.hbmRead_off]

@[simp] theorem thawApply_off (h : m .dict ∧ m .hbm) (c : Ctx) (p : Nat) (s : State) : (thawApply c p s).off m = s.off m := by
  simp [thawApply, h]

@[simp] theorem pprApply_off (h : m .dict ∧ m .hbm) (c : Ctx) (x : Nat) (s : State) : (pprApply c x s).off m = s.off m := by
  simp [pprApply, h]

@[simp] theorem writePpr_off (h : m .dict ∧ m .fm ∧ m .str ∧ m .hbm ∧ m .outbox) (c : Ctx) (v : List Byte) (s : State) : (writePpr c v s).off m = s.off m := by
  simp [writePpr, h]

@[simp] theorem barRead_off (h : m .dict ∧ m .fm ∧ m .hbm ∧ m .outbox) (s : State) (r : Nat) (n : Nat) : (barRead s r n).off m = s.off m := by
  simp [barRead, h]

@[simp] theorem barWrite_off (h : m .dict ∧ m .fm ∧ m .hbm) (s : State) (r : Nat) (data : List Byte) : (barWrite s r data).off m = s.off m := by
  simp only [barWrite]; (repeat' split) <;> simp [*]

@[simp] theorem State.barServe_off (h : m .dict ∧ m .fm ∧ m .hbm ∧ m .outbox) (s : State) (x : BarAsk) : (s.barServe x).off m = s.off m := by
  simp only [State.barServe]; split <;> simp [*]

@[simp] theorem State.barAccess_off (h : m .dict ∧ m .fm ∧ m .hbm ∧ m .outbox) (s : State) (a : BarAsk) : (s.barAccess a).off m = s.off m := by
  simp [State.barAccess, h]

@[simp] theorem barRetry_off (h : m .dict ∧ m .fm ∧ m .hbm ∧ m .outbox) (x : List BarAsk) (y : State) : (barRetry x y).off m = y.off m := by
  fun_induction barRetry x y <;> simp_all

@[simp] theorem State.hbmTick_off (h : m .dict ∧ m .fm ∧ m .str ∧ m .hbm ∧ m .sw ∧ m .outbox) (s : State) : (s.hbmTick).off m = s.off m := by
  simp [State.hbmTick, h]

@[simp] theorem reclaim_off (h : m .dict ∧ m .hue) (n : Nat) (s : State) : (reclaim n s).off m = s.off m := by
  induction n generalizing s with
  | zero => rfl
  | succ n ih =>
    simp only [reclaim]
    split_ifs
    · rfl
    · rw [ih]
      simp [State.off, h]

@[simp] theorem State.hueTake_off (h : m .hue) (s : State) (pid : Nat) (h' : Nat) : (s.hueTake pid h').off m = s.off m := by
  simp [State.hueTake, h]

@[simp] theorem State.holdMore_off (h : m .hue) (s : State) (pid : Nat) (n : Nat) : (s.holdMore pid n).off m = s.off m := by
  simp only [State.holdMore]; split <;> simp [*]

@[simp] theorem State.holdEnd_off (h : m .dict ∧ m .hue) (s : State) (pid : Nat) : (s.holdEnd pid).off m = s.off m := by
  simp only [State.holdEnd]; split <;> simp [*]

@[simp] theorem State.holdDrop_off (h : m .dict ∧ m .hue) (s : State) (pid : Nat) : (s.holdDrop pid).off m = s.off m := by
  simp only [State.holdDrop]; split <;> simp [*]

@[simp] theorem State.newPid_off (h : m .hue) (s : State) : (s.newPid).2.off m = s.off m := by
  simp [State.newPid, h]

@[simp] theorem State.fsuWrite_off (h : m .hbm) (s : State) (b off : Nat) (u : HbmUndo) : (s.fsuWrite b off u).off m = s.off m := by
  simp only [State.fsuWrite, State.hbmWrite, State.pcServes, State.pcRefuses, beq_iff_eq, decide_eq_true_eq]
  split_ifs
  · omega
  · exact State.setCtl_off h ..
  · rfl

@[simp] theorem State.slotWrites_off (h : m .hbm) (s : State) (i : Nat) (old : Nat) (img : Nat) : (s.slotWrites i old img).off m = s.off m := by
  simp [State.slotWrites, h]

@[simp] theorem State.setHome_off (h : m .fm ∧ m .hbm ∧ m .fsu) (s : State) (p : Nat) (img : Nat) : (s.setHome p img).off m = s.off m := by
  simp [State.setHome, h]

@[simp] theorem State.clearHome_off (h : m .hbm ∧ m .fsu) (s : State) (p : Nat) : (s.clearHome p).off m = s.off m := by
  simp only [State.clearHome]; (repeat' split) <;> simp [*]

@[simp] theorem State.setAlt_off (h : m .hbm ∧ m .fsu) (s : State) (b : Nat) (n : Nat) : (s.setAlt b n).off m = s.off m := by
  simp [State.setAlt, h]

@[simp] theorem State.bktInc_off (h : m .hbm ∧ m .fsu) (s : State) (b : Nat) : (s.bktInc b).off m = s.off m := by
  simp [State.bktInc, h]

@[simp] theorem State.bktDec_off (h : m .hbm ∧ m .fsu) (s : State) (b : Nat) : (s.bktDec b).off m = s.off m := by
  simp [State.bktDec, h]

@[simp] theorem State.setLine_off (h : m .fsu) (s : State) (key : Nat) (l : Line) : (s.setLine key l).off m = s.off m := by
  simp [State.setLine, h]

@[simp] theorem State.dropLine_off (h : m .fsu) (s : State) (key : Nat) : (s.dropLine key).off m = s.off m := by
  simp [State.dropLine, h]

@[simp] theorem State.touchLine_off (h : m .fsu) (s : State) (key : Nat) : (s.touchLine key).off m = s.off m := by
  simp only [State.touchLine]; split <;> simp [*]

@[simp] theorem State.putRec_off (h : m .fm ∧ m .hbm ∧ m .fsu) (s : State) (key : Nat) (home : Nat) (img : Nat) : (s.putRec key home img).off m = s.off m := by
  simp [State.putRec, h]

@[simp] theorem State.evict_off (h : m .dict ∧ m .fm ∧ m .hbm ∧ m .fsu) (s : State) (key : Nat) (l : Line) : (s.evict key l).off m = s.off m := by
  simp only [State.evict]; split <;> simp [*]

@[simp] theorem State.loseLine_off (h : m .dict ∧ m .fsu) (s : State) (key : Nat) (l : Line) : (s.loseLine key l).off m = s.off m := by
  simp [State.loseLine, h]

theorem State.allocLine_off (h : m .dict ∧ m .fm ∧ m .hbm ∧ m .fsu) (s : State) (key : Nat) (l : Line) {u : State} (e : s.allocLine key l = some u) : u.off m = s.off m := by
  grind [State.allocLine, State.setLine_off, State.touchLine_off, State.evict_off]

@[simp] theorem State.dropCopy_off (h : m .hbm ∧ m .fsu) (s : State) (key : Nat) (p : Nat) : (s.dropCopy key p).off m = s.off m := by
  simp only [State.dropCopy]; split <;> simp [*]

@[simp] theorem State.delRec_off (h : m .hbm ∧ m .fsu) (s : State) (key : Nat) : (s.delRec key).off m = s.off m := by
  simp only [State.delRec]; (repeat' split) <;> simp [*]

@[simp] theorem State.delStale_off (h : m .dict ∧ m .fm ∧ m .hbm ∧ m .fsu) (s : State) (key : Nat) : (s.delStale key).off m = s.off m := by
  simp [State.delStale, h]

@[simp] theorem State.purgeKey_off (h : m .dict ∧ m .fm ∧ m .hbm ∧ m .fsu) (s : State) (key : Nat) : (s.purgeKey key).off m = s.off m := by
  simp [State.purgeKey, h]

@[simp] theorem State.countLookup_off (h : m .dict ∧ m .hbm) (s : State) (key : Nat) : (s.countLookup key).off m = s.off m := by
  simp only [State.countLookup]; split <;> simp [*]

@[simp] theorem State.readTarget_off (h : m .hbm) (s : State) (x : LockTarget) : (s.readTarget x).off m = s.off m := by
  simp only [State.readTarget]; split <;> simp [*]

@[simp] theorem State.fsuSees_off (h : m .dict ∧ m .fm ∧ m .hbm ∧ m .fsu) (s : State) (t : LockTarget) : (s.fsuSees t).off m = s.off m := by
  simp only [State.fsuSees]; split <;> simp [*]

@[simp] theorem State.recFresh_off (h : m .fsu) (s : State) (key : Nat) : (s.recFresh key).off m = s.off m := by
  simp [State.recFresh, h]

@[simp] theorem State.placeRec_off (h : m .fm ∧ m .hbm ∧ m .fsu) (s : State) (key : Nat) (p : Nat) (img : Nat) : (s.placeRec key p img).off m = s.off m := by
  simp [State.placeRec, h]

@[simp] theorem State.answerBinds_off (h : m .sk) (s : State) (key : Nat) (st : BindSt) (code : Nat) (gen : Nat) (seen : Nat) : (s.answerBinds key st code gen seen).off m = s.off m := by
  simp [State.answerBinds, h]

@[simp] theorem State.answerFromLine_off (h : m .sk ∧ m .fsu) (s : State) (key : Nat) : (s.answerFromLine key).off m = s.off m := by
  simp only [State.answerFromLine]; split <;> simp [*]

@[simp] theorem State.answerUnavail_off (h : m .dict ∧ m .fm ∧ m .sk) (s : State) (key : Nat) (frozen : List Nat) : (s.answerUnavail key frozen).off m = s.off m := by
  simp [State.answerUnavail, h]

theorem State.checkOut_off (h : m .dict ∧ m .fm ∧ m .hbm ∧ m .sk ∧ m .fsu) (s : State) (key found : Nat) {u : State}
    (e : s.checkOut key found = some u) : u.off m = s.off m := by
  simp only [State.checkOut, Option.map_eq_some_iff] at e
  obtain ⟨t, ht, rfl⟩ := e
  simp [h, State.allocLine_off (m := m) (by simp [h]) _ _ _ ht]

theorem State.absentLine_off (h : m .dict ∧ m .fm ∧ m .hbm ∧ m .sk ∧ m .fsu) (s : State) (key : Nat) {u : State} (e : s.absentLine key = some u) :
    u.off m = s.off m := by
  simp only [State.absentLine] at e
  split_ifs at e
  · rw [Option.some.inj e]
  · obtain ⟨t, ht, rfl⟩ := Option.map_eq_some_iff.mp e
    simp [h, State.allocLine_off (m := m) (by simp [h]) _ _ _ ht]

theorem State.fillAnswer_off (h : m .dict ∧ m .fm ∧ m .hbm ∧ m .sk ∧ m .fsu) (s : State) (f : Fill) {u : State} (e : s.fillAnswer f = some u) :
    u.off m = s.off m := by
  simp only [State.fillAnswer] at e
  split at e <;> split_ifs at e
  · rw [State.absentLine_off (by simp [h]) _ _ e]
    simp [h]
  · exact State.checkOut_off (by simp [h]) _ _ _ e
  · simp [← Option.some.inj e, h]
  · exact State.absentLine_off (by simp [h]) _ _ e

@[simp] theorem State.fillEnd_off (h : m .dict ∧ m .fm ∧ m .hbm ∧ m .sk ∧ m .fsu) (s : State) (f : Fill) : (s.fillEnd f).off m = s.off m := by
  simp only [State.fillEnd]
  split
  next e => rw [State.fillAnswer_off h _ _ e, State.off_with_fsu (by simp [h])]
  next => exact State.off_with_fsu (by simp [h])

@[simp] theorem State.readBucket_off (h : m .hbm ∧ m .fsu) (s : State) (b : Nat) : (s.readBucket b).2.off m = s.off m := by
  simp [State.readBucket, h]

@[simp] theorem State.startLookup_off (h : m .dict ∧ m .fm ∧ m .hbm ∧ m .sk ∧ m .fsu) (s : State) (key : Nat) : (s.startLookup key).off m = s.off m := by
  simp only [State.startLookup]
  split
  · split_ifs <;> simp [h]
  · split_ifs
    · rfl
    · simp [h]
    · simp [h]
    all_goals
      rw [State.off_with_fsu (by simp [h])]
      simp [h]

@[simp] theorem State.fsuTick_off (h : m .dict ∧ m .fm ∧ m .hbm ∧ m .sk ∧ m .fsu) (s : State) : (s.fsuTick).off m = s.off m := by
  simp [State.fsuTick, h]

@[simp] theorem State.lineBad_off (h : m .dict ∧ m .fm ∧ m .hbm ∧ m .fsu) (s : State) (key : Nat) : (s.lineBad key).off m = s.off m := by
  simp only [State.lineBad]; (repeat' split) <;> simp [*]

@[simp] theorem State.stashBad_off (h : m .dict ∧ m .fm ∧ m .hbm ∧ m .fsu) (s : State) (p : Nat) : (s.stashBad p).off m = s.off m := by
  simp only [State.stashBad]; split <;> simp [*]

@[simp] theorem State.fsuEcc_off (h : m .dict ∧ m .fm ∧ m .hbm ∧ m .fsu) (s : State) (keys : List Nat) (x : FsuEcc) : (s.fsuEcc keys x).off m = s.off m := by
  simp only [State.fsuEcc]; (repeat' split) <;> simp [*]

end
end Sys2Proof.Machine
end

section
/-! The frames of the threads, the lines of the single file, the MAC and NAT tables and the leaps. -/

namespace Sys2Proof.Machine
section
variable {m : Piece → Bool}

@[simp] theorem State.setTh_off (h : m .sk) (s : State) (t : Nat) (x : Thread) : (s.setTh t x).off m = s.off m := by
  simp [State.setTh, h]

@[simp] theorem State.modTh_off (h : m .sk) (s : State) (t : Nat) (f : Thread → Thread) : (s.modTh t f).off m = s.off m := by
  simp [State.modTh, h]

@[simp] theorem insertStatus_off (h : m .dict ∧ m .fm ∧ m .fsu) (s : State) (x : Thread) (h' : Handle) : (insertStatus s x h').2.2.off m = s.off m := by
  simp only [insertStatus]; (repeat' split) <;> simp [*]

@[simp] theorem acceptOp_off (h : m .dict ∧ m .fm ∧ m .sk ∧ m .fsu) (s : State) (t : Nat) (o : LeapOp) : (acceptOp s t o).off m = s.off m := by
  simp only [acceptOp]; (repeat' split) <;> simp [*]

@[simp] theorem State.settleLock_off (h : m .dict ∧ m .fm ∧ m .sk ∧ m .fsu) (s : State) (t : Nat) : (s.settleLock t).off m = s.off m := by
  simp only [State.settleLock]; (repeat' split) <;> simp [*]

@[simp] theorem State.settleLocks_off (h : m .dict ∧ m .fm ∧ m .sk ∧ m .fsu) (s : State) : (s.settleLocks).off m = s.off m := by
  simp [State.settleLocks, h]

@[simp] theorem State.dropLocks_off (h : m .dict ∧ m .fm ∧ m .tbl ∧ m .sk ∧ m .fsu) (s : State) (o : Owner) : (s.dropLocks o).off m = s.off m := by
  rw [State.dropLocks, State.settleLocks_off (by simp [h])]
  simp [State.off, h]

@[simp] theorem State.setCs_off (h : m .sk) (s : State) (c : Nat) (x : ClutchStore) : (s.setCs c x).off m = s.off m := by
  simp [State.setCs, h]

@[simp] theorem State.traceAdd_off (h : m .dict ∧ m .dbg) (s : State) (t : Nat) (evt : Nat) (addr : Nat) (nxt : Nat) (mop : Nat) (top : Nat) (flags : Nat) (data : Nat) : (s.traceAdd t evt addr nxt mop top flags data).off m = s.off m := by
  simp only [State.traceAdd]; split_ifs <;> simp [*]

@[simp] theorem State.traceEvt_off (h : m .dict ∧ m .dbg) (s : State) (t : Nat) (evt : Nat) (data : Nat) : (s.traceEvt t evt data).off m = s.off m := by
  simp [State.traceEvt, h]

@[simp] theorem State.traceTrigger_off (h : m .dbg) (s : State) (c : Nat) : (s.traceTrigger c).off m = s.off m := by
  simp only [State.traceTrigger]; split <;> simp [*]

@[simp] theorem State.enterHalt_off (h : m .dict ∧ m .sk ∧ m .dbg) (s : State) (t : Nat) : (s.enterHalt t).off m = s.off m := by
  simp [State.enterHalt, h]

@[simp] theorem State.haltThread_off (h : m .dict ∧ m .sk ∧ m .dbg) (s : State) (t : Nat) : (s.haltThread t).off m = s.off m := by
  simp only [State.haltThread]; split <;> simp [*]

@[simp] theorem State.haltSkink_off (h : m .dict ∧ m .sk ∧ m .dbg) (s : State) (k : Nat) : (s.haltSkink k).off m = s.off m := by
  simp [State.haltSkink, h]

@[simp] theorem State.bpAct_off (h : m .dict ∧ m .sk ∧ m .dbg) (s : State) (t : Nat) (pc : Nat) (w : Nat) (top : Nat) (flags : Nat) (action : Nat) : (s.bpAct t pc w top flags action).off m = s.off m := by
  simp only [State.bpAct]; split <;> simp [*]

@[simp] theorem State.bpCheck_off (h : m .dict ∧ m .sk ∧ m .dbg) (s : State) (t : Nat) (kind : Nat) (pc : Nat) (w : Nat) (top : Nat) (flags : Nat) (hit : Nat → Bool) : (s.bpCheck t kind pc w top flags hit).off m = s.off m := by
  simp [State.bpCheck, h]

@[simp] theorem State.releaseLsn_off (h : m .cu) (s : State) (lsn : Nat) : (s.releaseLsn lsn).off m = s.off m := by
  simp [State.releaseLsn, h]

@[simp] theorem State.addClaim_off (h : m .cu) (s : State) (lsn : Nat) (h' : Nat × Nat) : (s.addClaim lsn h').off m = s.off m := by
  simp [State.addClaim, h]

@[simp] theorem State.orderBreach_off (h : m .dict ∧ m .fm) (s : State) (key : Nat) (lsn : Nat) : (s.orderBreach key lsn).off m = s.off m := by
  simp [State.orderBreach, h]

@[simp] theorem State.setRing_off (h : m .sk) (s : State) (p : Nat) (l : List REntry) : (s.setRing p l).off m = s.off m := by
  simp [State.setRing, h]

@[simp] theorem State.modEntry_off (h : m .sk) (s : State) (p : Nat) (id : Nat) (f : REntry → REntry) : (s.modEntry p id f).off m = s.off m := by
  simp [State.modEntry, h]

@[simp] theorem State.assign_off (h : m .dict ∧ m .sk ∧ m .dbg) (s : State) (t : Nat) (j : Job) : (s.assign t j).off m = s.off m := by
  simp [State.assign, h]

@[simp] theorem State.drainCheck_off (h : m .dict ∧ m .fm) (s : State) (c : Nat) : (s.drainCheck c).off m = s.off m := by
  simp [State.drainCheck, h]

@[simp] theorem State.setSf_off (h : m .sk) (s : State) (i : Nat) (e : SfEntry) : (s.setSf i e).off m = s.off m := by
  simp [State.setSf, h]

@[simp] theorem State.bindSf_off (h : m .sk) (s : State) (i : Nat) (k : Nat) : (s.bindSf i k).off m = s.off m := by
  simp [State.bindSf, h]

theorem State.sfMoved_off (h : m .sk) (s : State) (i : Nat) (x : SfEntry) {u : State × SfEntry} (e : s.sfMoved i x = some u) : u.1.off m = s.off m := by
  simp only [State.sfMoved] at e
  split_ifs at e
  · obtain ⟨k, -, rfl⟩ := Option.map_eq_some_iff.mp e
    simp [h]
  · rw [← Option.some.inj e]

@[simp] theorem State.sfService_off (h : m .dict ∧ m .sk ∧ m .dbg) (s : State) (i : Nat) : (s.sfService i).off m = s.off m := by
  simp only [State.sfService]
  split
  · rfl
  · split_ifs
    · rfl
    · split
      · rfl
      next e =>
        have moved := State.sfMoved_off (m := m) (by simp [h]) _ _ _ e
        split_ifs
        · exact moved
        · split
          · simpa [h] using moved
          · split_ifs <;> simpa [h] using moved

@[simp] theorem State.sfRetry_off (h : m .dict ∧ m .sk ∧ m .dbg) (s : State) : (s.sfRetry).off m = s.off m := by
  simp [State.sfRetry, h]

@[simp] theorem State.sfDrop_off (h : m .dict ∧ m .fm ∧ m .hue ∧ m .sk ∧ m .cu) (s : State) (j : Job) : (s.sfDrop j).off m = s.off m := by
  simp [State.sfDrop, h]

@[simp] theorem State.sfEnqueue_off (h : m .dict ∧ m .fm ∧ m .hue ∧ m .sk ∧ m .cu ∧ m .dbg) (s : State) (i : Nat) (j : Job) : (s.sfEnqueue i j).off m = s.off m := by
  simp only [State.sfEnqueue]; split <;> simp [*]

theorem State.sfMake_off (h : m .sk) (s : State) (i : Nat) (h1 : Nat) (h2 : Nat) (pinned : Bool) {u : State} (e : s.sfMake i h1 h2 pinned = some u) : u.off m = s.off m := by
  grind [State.sfMake, State.off_with_sk, State.setSf_off, State.bindSf_off]

@[simp] theorem State.sfRebind_off (h : m .dict ∧ m .sk ∧ m .dbg) (s : State) (hit : Nat → Bool) : (s.sfRebind hit).off m = s.off m := by
  simp [State.sfRebind, h]

@[simp] theorem State.dropInserts_off (h : m .fsu) (s : State) (l : Leap) : (s.dropInserts l).off m = s.off m := by
  simp [State.dropInserts, h]

@[simp] theorem freePends_off (h : m .free) (l : List Pend) (s : State) : (freePends l s).2.off m = s.off m := by
  induction l generalizing s with
  | nil => rfl
  | cons p t ih =>
    simp only [freePends]
    split <;> simp [ih, h]

@[simp] theorem State.abandon_off (h : m .sk ∧ m .cu ∧ m .fsu ∧ m .free) (s : State) (t : Nat) : (s.abandon t).off m = s.off m := by
  simp only [State.abandon]; split <;> simp [*]

@[simp] theorem State.postcard_off (h : m .dict ∧ m .fm ∧ m .str ∧ m .hbm) (s : State) (chan : Option Nat) (md : Nat) (outcome : Nat) (thread : Nat) (status : Nat) : (s.postcard chan md outcome thread status).off m = s.off m := by
  simp only [State.postcard]; split <;> simp [*]

@[simp] theorem State.threadFree_off (h : m .dict ∧ m .fm ∧ m .str ∧ m .hbm ∧ m .hue ∧ m .sk ∧ m .dbg) (s : State) (t : Nat) (status : Nat) : (s.threadFree t status).off m = s.off m := by
  simp only [State.threadFree]; (repeat' split) <;> simp [*]

@[simp] theorem State.endAbandoned_off (h : m .dict ∧ m .fm ∧ m .str ∧ m .hbm ∧ m .hue ∧ m .sk ∧ m .dbg) (s : State) (t : Nat) : (s.endAbandoned t).off m = s.off m := by
  simp [State.endAbandoned, h]

@[simp] theorem State.trapRun_off (h : m .dict ∧ m .fm ∧ m .str ∧ m .hbm ∧ m .hue ∧ m .sk ∧ m .cu ∧ m .fsu ∧ m .dbg ∧ m .free) (s : State) (t : Nat) (place : Nat) (isEntry : Bool) : (s.trapRun t place isEntry).off m = s.off m := by
  simp only [State.trapRun]; split <;> simp [*]

@[simp] theorem State.wordLimit_off (h : m .dict ∧ m .fm ∧ m .str ∧ m .hbm ∧ m .hue ∧ m .sk ∧ m .cu ∧ m .fsu ∧ m .dbg ∧ m .free) (s : State) (t : Nat) : (s.wordLimit t).off m = s.off m := by
  simp only [State.wordLimit]; split <;> simp [*]

@[simp] theorem State.replaySat_off (h : m .fm) (s : State) (t : Nat) (md : Nat) (cause : Option (Nat × Nat)) : (s.replaySat t md cause).off m = s.off m := by
  simp [State.replaySat, h]

@[simp] theorem State.machineCheck_off (h : m .dict ∧ m .fm ∧ m .str ∧ m .hbm ∧ m .hue ∧ m .sk ∧ m .fsu ∧ m .dbg) (s : State) (t : Nat) (cause : Option (Nat × Nat)) : (s.machineCheck t cause).off m = s.off m := by
  simp only [State.machineCheck]; (repeat' split) <;> simp [*]

@[simp] theorem State.skinkParity_off (h : m .dict ∧ m .fm ∧ m .str ∧ m .hbm ∧ m .hue ∧ m .sk ∧ m .fsu ∧ m .dbg) (s : State) (t : Nat) : (s.skinkParity t).off m = s.off m := by
  simp [State.skinkParity, h]

@[simp] theorem State.reclaim_off (h : m .dict ∧ m .fm ∧ m .cu) (s : State) (j : Job) : (s.reclaim j).off m = s.off m := by
  simp [State.reclaim, h]

@[simp] theorem State.picked_off (h : m .sk) (s : State) (t : Nat) : (s.picked t).off m = s.off m := by
  simp [State.picked, h]

@[simp] theorem State.releaseRing_off (h : m .dict ∧ m .fm ∧ m .tbl ∧ m .sk ∧ m .fsu) (s : State) (r : Nat) : (s.releaseRing r).off m = s.off m := by
  simp [State.releaseRing, h]

@[simp] theorem State.setCr_off (h : m .host) (s : State) (r : Nat) (x : CmdRing) : (s.setCr r x).off m = s.off m := by
  simp [State.setCr, h]

@[simp] theorem abortRest_off (h : m .dict ∧ m .host ∧ m .outbox) (n r : Nat) (s : State) : (abortRest n r s).off m = s.off m := by
  induction n generalizing s with
  | zero => rfl
  | succ n ih =>
    simp only [abortRest]
    split_ifs
    · rfl
    · rw [ih]
      simp [h]

@[simp] theorem State.abortIrqs_off (h : m .host ∧ m .outbox) (s : State) (x : CmdRing) : (s.abortIrqs x).off m = s.off m := by
  simp [State.abortIrqs, h]

@[simp] theorem State.finishStop_off (h : m .dict ∧ m .fm ∧ m .host ∧ m .tbl ∧ m .sk ∧ m .fsu ∧ m .outbox) (s : State) (r : Nat) : (s.finishStop r).off m = s.off m := by
  simp [State.finishStop, h]

@[simp] theorem State.cmdComplete_off (h : m .dict ∧ m .fm ∧ m .host ∧ m .tbl ∧ m .sk ∧ m .fsu ∧ m .outbox) (s : State) (r : Nat) (status : Nat) (result : Nat) (flags : Nat) : (s.cmdComplete r status result flags).off m = s.off m := by
  simp [State.cmdComplete, h]

@[simp] theorem State.bufWrite_off (h : m .outbox) (s : State) (addr : Nat) (data : List Byte) (dma : Dma) : (s.bufWrite addr data dma).off m = s.off m := by
  simp [State.bufWrite, h]

@[simp] theorem State.aerUncorr_off (h : m .host) (s : State) : (s.aerUncorr).off m = s.off m := by
  simp [State.aerUncorr, h]

@[simp] theorem State.flushRing_off (h : m .dict ∧ m .fm ∧ m .host ∧ m .tbl ∧ m .sk ∧ m .fsu ∧ m .outbox) (s : State) (r : Nat) (deleted : Nat) (skipped : Nat) (dma : Dma) : (s.flushRing r deleted skipped dma).off m = s.off m := by
  simp only [State.flushRing]; split <;> simp [*]

@[simp] theorem State.cmdWaitDone_off (h : m .dict ∧ m .fm ∧ m .host ∧ m .tbl ∧ m .sk ∧ m .fsu ∧ m .outbox) (s : State) (r : Nat) (w : RingWait) (status : Nat) (result : Nat) : (s.cmdWaitDone r w status result).off m = s.off m := by
  simp only [State.cmdWaitDone]; split <;> simp [*]

@[simp] theorem State.setMac_off (h : m .tbl) (s : State) (t : Tab Nat) : (s.setMac t).off m = s.off m := by
  simp [State.setMac, h]

theorem State.macInsert_off (h : m .tbl) (s : State) (e : Nat) {u : State} (e : s.macInsert e = some u) : u.off m = s.off m := by
  grind [State.macInsert, State.setMac_off]

@[simp] theorem macPut_off (h : m .fm ∧ m .tbl) (s : State) (e : Nat) : (macPut s e).2.off m = s.off m := by
  grind [macPut, State.raise_off, State.macInsert_off]

@[simp] theorem State.macFresh_off (h : m .tbl) (s : State) (k : Nat) : (s.macFresh k).off m = s.off m := by
  simp [State.macFresh, h]

@[simp] theorem State.macDelete_off (h : m .tbl) (s : State) (slot : Nat) : (s.macDelete slot).off m = s.off m := by
  simp [State.macDelete, h]

@[simp] theorem readWord_off (h : m .fm ∧ m .tbl) (s : State) (target : Nat) (item : Nat) (ecc : WordEcc) : (readWord s target item ecc).2.off m = s.off m := by
  simp only [readWord]; (repeat' split) <;> simp [*]

@[simp] theorem State.wordWhole_off (h : m .tbl) (s : State) (target : Nat) (item : Nat) : (s.wordWhole target item).off m = s.off m := by
  simp [State.wordWhole, h]

@[simp] theorem State.wordWritten_off (h : m .hbm ∧ m .tbl) (s : State) (target : Nat) (item : Nat) : (s.wordWritten target item).off m = s.off m := by
  simp [State.wordWritten, h]

@[simp] theorem tableRewriteDone_off (h : m .fm ∧ m .tbl) (s : State) (target : Nat) (item : Nat) (readable : Bool) : (tableRewriteDone s target item readable).off m = s.off m := by
  simp only [tableRewriteDone]; split <;> simp [*]

@[simp] theorem macDamaged_off (h : m .fm ∧ m .tbl) (s : State) (slot : Nat) : (macDamaged s slot).off m = s.off m := by
  simp [macDamaged, h]

@[simp] theorem slotEcc_off (h : m .fm ∧ m .tbl) (s : State) (slot : Nat) (x : WordEcc) : (slotEcc s slot x).off m = s.off m := by
  simp only [slotEcc]; split <;> simp [*]

@[simp] theorem macEcc_off (h : m .fm ∧ m .tbl) (s : State) (k : Nat) (ecc : WordEcc) (pos : Nat) : (macEcc s k ecc pos).off m = s.off m := by
  simp [macEcc, h]

@[simp] theorem lkMac_off (h : m .fm ∧ m .tbl) (s : State) (a : Nat) (ecc : WordEcc) (pos : Nat) : (lkMac s a ecc pos).2.off m = s.off m := by
  simp only [lkMac]; split <;> simp [*]

@[simp] theorem lkNat_off (h : m .fm ∧ m .tbl) (s : State) (a : Nat) (ecc : WordEcc) (pos : Nat) : (lkNat s a ecc pos).2.off m = s.off m := by
  grind [lkNat, readWord_off]

@[simp] theorem lpmResult_off (h : m .fm ∧ m .tbl) (s : State) (target root : Nat) (r : Option (Nat × Nat × Nat)) (ecc : WordEcc) :
    (lpmResult s target root r ecc).2.off m = s.off m := by
  simp only [lpmResult]
  split
  all_goals next e => exact (State.off_of_eq e).trans (readWord_off h ..)

@[simp] theorem lkLpm4_off (h : m .fm ∧ m .tbl) (s : State) (t : Nat) (a : Nat) (ecc : WordEcc) : (lkLpm4 s t a ecc).2.off m = s.off m := by
  simp [lkLpm4, h]

@[simp] theorem lkLpm6_off (h : m .fm ∧ m .tbl) (s : State) (t : Nat) (hi : Nat) (lo : Nat) (ecc : WordEcc) : (lkLpm6 s t hi lo ecc).2.off m = s.off m := by
  simp [lkLpm6, h]

@[simp] theorem lkMcg_off (h : m .fm ∧ m .tbl) (s : State) (g : Nat) (inPort : Nat) (ecc : WordEcc) : (lkMcg s g inPort ecc).2.off m = s.off m := by
  grind [lkMcg, readWord_off]

@[simp] theorem lkMbr_off (h : m .fm ∧ m .tbl) (s : State) (a : Nat) (named : Bool) (ecc : WordEcc) (pos : Nat) :
    (lkMbr s a named ecc pos).2.off m = s.off m := by
  have read {t u : State} {target item : Nat} {x : WordEcc} {b : Bool} (e : readWord t target item x = (b, u)) : u.off m = t.off m :=
    (State.off_of_eq e).trans (readWord_off h ..)
  have bucket {t u : State} {item : Nat} {x : WordEcc} {b : Bool}
      (e : (if named = true then (true, t) else readWord t 0x19 item x) = (b, u)) : u.off m = t.off m := by
    split_ifs at e
    · rw [(Prod.mk.inj e).2]
    · exact read e
  simp only [lkMbr]
  split
  next e => exact read e
  next e1 =>
    split
    · exact read e1
    · split
      next e2 => exact (bucket e2).trans (read e1)
      next e2 =>
        have named := (bucket e2).trans (read e1)
        split
        · exact named
        · split
          all_goals next e3 => exact (read e3).trans named

@[simp] theorem macWrite_off (h : m .fm ∧ m .tbl) (s : State) (k : Nat) (d : Nat) (o : Owner) : (macWrite s k d o).2.off m = s.off m := by
  grind [macWrite, State.setMac_off, macPut_off, State.macFresh_off]

@[simp] theorem natPut_off (h : m .fm ∧ m .hbm ∧ m .tbl) (s : State) (k : Nat) (d : Nat) : (natPut s k d).2.off m = s.off m := by
  simp only [natPut]; (repeat' split) <;> simp [*]

@[simp] theorem lpmPut_off (h : m .fm ∧ m .hbm ∧ m .tbl) (s : State) (target : Nat) (k : Nat) (d : Nat) (cost : Nat) : (lpmPut s target k d cost).2.off m = s.off m := by
  simp only [lpmPut]; split_ifs <;> simp [*]

@[simp] theorem softRead_off (h : m .fm ∧ m .tbl ∧ m .free) (s : State) (target : Nat) (index : Nat) (key : List Byte) (ecc : WordEcc) : (softRead s target index key ecc).2.2.off m = s.off m := by
  grind [softRead, State.draw_off, readWord_off, slotEcc_off]

@[simp] theorem tblWrite_off (h : m .fm ∧ m .hbm ∧ m .tbl) (s : State) (target index : Nat) (key : List Byte) (d : Nat) (o : Owner) :
    (tblWrite s target index key d o).2.off m = s.off m := by
  simp only [tblWrite]
  split
  · rfl
  · split
    case h_3 =>
      split
      · rfl
      · split
        all_goals next e => exact (State.off_of_eq e).trans (natPut_off (by simp [h]) ..)
    all_goals (try split) <;> simp [h]

@[simp] theorem tblDelete_off (h : m .hbm ∧ m .tbl) (s : State) (target : Nat) (key : List Byte) (o : Owner) : (tblDelete s target key o).2.off m = s.off m := by
  simp only [tblDelete]; (repeat' split) <;> simp [*]

@[simp] theorem macLock_off (h : m .tbl) (s : State) (key : List Byte) (o : Owner) : (macLock s key o).2.off m = s.off m := by
  simp only [macLock]; split_ifs <;> simp [*]

@[simp] theorem macUnlock_off (h : m .tbl) (s : State) (key : List Byte) (o : Owner) : (macUnlock s key o).2.off m = s.off m := by
  simp only [macUnlock]; split_ifs <;> simp [*]

@[simp] theorem State.learnEnqueue_off (h : m .dict ∧ m .fm ∧ m .tbl) (s : State) (key : Nat) (inPort : Nat) (ts : Nat) : (s.learnEnqueue key inPort ts).off m = s.off m := by
  grind [State.learnEnqueue, State.off_with_tbl, State.bump_off, State.raise_off]

@[simp] theorem macMove_off (h : m .dict ∧ m .fm ∧ m .tbl) (s : State) (i : Nat) (e : Nat) (r : LearnReq) (now : Nat) : (macMove s i e r now).off m = s.off m := by
  grind [macMove, State.bump_off, State.raise_off, State.setMac_off, State.macFresh_off]

@[simp] theorem learnOne_off (h : m .dict ∧ m .fm ∧ m .tbl) (s : State) (r : LearnReq) : (learnOne s r).off m = s.off m := by
  simp only [learnOne]; (repeat' split) <;> simp [*]

@[simp] theorem learnApply_off (h : m .dict ∧ m .fm ∧ m .tbl) (s : State) (ecc : WordEcc) (pos : Nat) : (learnApply s ecc pos).off m = s.off m := by
  simp only [learnApply]; split <;> simp [*]

@[simp] theorem macSweepOne_off (h : m .dict ∧ m .tbl) (s : State) (i : Nat) (e : Nat) : (macSweepOne s i e).off m = s.off m := by
  simp [macSweepOne, h]

@[simp] theorem macSweep_off (h : m .dict ∧ m .fm ∧ m .tbl) (s : State) (ecc : WordEcc) : (macSweep s ecc).off m = s.off m := by
  simp only [macSweep]; (repeat' split) <;> simp [*]

@[simp] theorem State.startMacFlush_off (h : m .tbl) (s : State) (port : Nat) (o : Option Owner) : (s.startMacFlush port o).off m = s.off m := by
  simp [State.startMacFlush, h]

@[simp] theorem flushOwnerDone_off (h : m .dict ∧ m .fm ∧ m .host ∧ m .tbl ∧ m .sk ∧ m .fsu ∧ m .outbox) (s : State) (o : Option Owner) (key : Nat) (deleted : Nat) (skipped : Nat) (dma : Dma) : (flushOwnerDone s o key deleted skipped dma).off m = s.off m := by
  simp only [flushOwnerDone]; split <;> simp [*]

@[simp] theorem macFlushDone_off (h : m .dict ∧ m .fm ∧ m .host ∧ m .tbl ∧ m .sk ∧ m .fsu ∧ m .outbox) (s : State) (words : List (BitVec 22 × WordEcc)) (dma : Dma) : (macFlushDone s words dma).off m = s.off m := by
  simp only [macFlushDone]; split <;> simp [*]

@[simp] theorem State.addPend_off (h : m .sk) (s : State) (t : Nat) (p : Pend) : (s.addPend t p).off m = s.off m := by
  simp [State.addPend, h]

@[simp] theorem leapBind_off (h : m .dict ∧ m .fm ∧ m .hbm ∧ m .sk ∧ m .cu ∧ m .fsu) (s : State) (t : Nat) (mdst : Nat) (hnd : Nat) (own : Bool) (key : Nat) : (leapBind s t mdst hnd own key).2.off m = s.off m := by
  grind [leapBind, State.bump_off, State.startLookup_off, State.setTh_off, State.addClaim_off, State.orderBreach_off]

@[simp] theorem leapRead_off (h : m .sk) (s : State) (t : Nat) (mdst : Nat) (hnd : Nat) (seg : Nat) : (leapRead s t mdst hnd seg).2.off m = s.off m := by
  grind [leapRead, State.setTh_off]

@[simp] theorem leapWrite_off (h : m .dict ∧ m .fm ∧ m .sk ∧ m .fsu) (s : State) (t : Nat) (o : LeapOp) : (leapWrite s t o).2.off m = s.off m := by
  grind [leapWrite, State.setTh_off, acceptOp_off]

@[simp] theorem leapAbort_off (h : m .sk ∧ m .cu ∧ m .fsu ∧ m .free) (s : State) (t : Nat) : (leapAbort s t).2.off m = s.off m := by
  grind [leapAbort, State.abandon_off]

@[simp] theorem learnNotice_off (h : m .dict ∧ m .host ∧ m .fsu) (s : State) (md : Nat) (key : Nat) (tmpl : Nat) : (learnNotice s md key tmpl).off m = s.off m := by
  simp only [learnNotice]; split <;> simp [*]

theorem commitOp_off (h : m .dict ∧ m .fm ∧ m .host ∧ m .hbm ∧ m .tbl ∧ m .sk ∧ m .fsu) (x : Thread) (c : Commit) (o : LeapOp) :
    (commitOp x c o).st.off m = c.st.off m := by
  simp only [commitOp]
  (repeat' split) <;> simp [h]

@[simp] theorem commitRecord_off (h : m .fsu) (lsn : Nat) (lin : Nat) (written : List (Nat × Nat)) (seen : Nat → Bool) (s : State) (h' : Handle) : (commitRecord lsn lin written seen s h').off m = s.off m := by
  simp only [commitRecord]; split <;> simp [*]

@[simp] theorem commitLeap_off (h : m .dict ∧ m .fm ∧ m .host ∧ m .hbm ∧ m .tbl ∧ m .sk ∧ m .cu ∧ m .fsu ∧ m .dbg) (s : State) (t : Nat)
    (x : Thread) (j : Job) : (commitLeap s t x j).off m = s.off m := by
  have ops (l : List LeapOp) (c : Commit) : (l.foldl (commitOp x) c).st.off m = c.st.off m := by
    induction l generalizing c with
    | nil => rfl
    | cons o l ih => rw [List.foldl_cons, ih, commitOp_off (by simp [h])]
  simp only [commitLeap]
  (repeat' split) <;> simp [h, ops]

@[simp] theorem sfCount_off (h : m .fm ∧ m .sk ∧ m .cu) (s : State) (j : Job) : (sfCount s j).off m = s.off m := by
  simp only [sfCount]
  split
  · rfl
  · split
    · split
      · simp [h]
      · split
        · simp [h]
        next e => simp [h, State.sfMake_off (m := m) (by simp [h]) _ _ _ _ _ e]
    · simp [h]

@[simp] theorem abortLeap_off (h : m .dict ∧ m .fm ∧ m .sk ∧ m .cu ∧ m .fsu ∧ m .dbg) (s : State) (t : Nat) (x : Thread) (j : Job) (key : Nat) : (abortLeap s t x j key).off m = s.off m := by
  simp [abortLeap, h]

theorem reseat_off (h : m .fsu) (key tmpl place : Nat) (s : State) (x : Thread) {u : State × Thread} (e : reseat key tmpl place s x = some u) :
    u.1.off m = s.off m := by
  simp only [reseat] at e
  split_ifs at e
  · rw [← Option.some.inj e]
  · obtain ⟨q, -, rfl⟩ := Option.map_eq_some_iff.mp e
    simp [h]

theorem reseatAll_off (h : m .fsu) (x : Thread) (s : State) {u : State × Thread} (e : reseatAll x s = some u) : u.1.off m = s.off m := by
  refine List.foldlRecOn (motive := fun r => ∀ u, r = some u → u.1.off m = s.off m) (leapRecords x.leap) _ ?_ ?_ u e
  · rintro u ⟨⟩
    rfl
  · intro r hr g _ u hu
    split at hu
    · exact (reseat_off h _ _ _ _ _ hu).trans (hr _ rfl)
    · exact hr u hu

@[simp] theorem leapTest_off (h : m .dict ∧ m .fm ∧ m .str ∧ m .host ∧ m .hbm ∧ m .hue ∧ m .tbl ∧ m .sk ∧ m .cu ∧ m .fsu ∧ m .dbg) (s : State)
    (t : Nat) (err : LeapErr) : (leapTest s t err).off m = s.off m := by
  unfold leapTest
  extract_lets x _ r
  split
  · rfl
  · split
    · rfl
    · have raised : r.off m = s.off m := by
        simp only [r]
        split <;> simp [h]
      clear_value r
      split
      · simp [h, raised]
      · split
        · exact raised
        · simp [h, raised]
        · split
          · simp [h, raised]
          · split
            · exact raised
            next e => rw [commitLeap_off (by simp [h]), reseatAll_off (m := m) (by simp [h]) _ _ e, raised]

@[simp] theorem replayHere_off (h : m .dict ∧ m .fm ∧ m .sk ∧ m .dbg) (s : State) (t : Nat) (x : Thread) (j : Job) : (replayHere s t x j).off m = s.off m := by
  simp [replayHere, h]

@[simp] theorem statusDelivered_off (h : m .dict ∧ m .fm ∧ m .str ∧ m .hbm ∧ m .hue ∧ m .sk ∧ m .dbg) (s : State) (t : Nat) : (statusDelivered s t).off m = s.off m := by
  simp only [statusDelivered]; split <;> simp [*]

@[simp] theorem leapWaitLimit_off (h : m .fm ∧ m .sk) (s : State) (t : Nat) : (leapWaitLimit s t).off m = s.off m := by
  simp only [leapWaitLimit]; split <;> simp [*]

@[simp] theorem fillStep_off (h : m .dict ∧ m .fm ∧ m .hbm ∧ m .sk ∧ m .fsu) (s : State) (f : Fill) : (fillStep s f).off m = s.off m := by
  grind [fillStep, State.off_with_fsu, State.bump_off, State.fillEnd_off, State.readBucket_off]

end
end Sys2Proof.Machine
end

section
/-! The frames of relocation, sweeping and flushing of the flow state unit, and of the egress accounting. -/

namespace Sys2Proof.Machine
section
variable {m : Piece → Bool}

@[simp] theorem State.releaseUnused_off (h : m .hbm) (s : State) (p : Nat) (b : Nat) : (s.releaseUnused p b).off m = s.off m := by
  simp [State.releaseUnused, h]

@[simp] theorem bucketReturn_off (h : m .dict ∧ m .fm ∧ m .hbm ∧ m .sk ∧ m .fsu) (s : State) (tag : Nat) (ecc : FsuEcc) : (bucketReturn s tag ecc).off m = s.off m := by
  simp only [bucketReturn]; (repeat' split) <;> simp [*]

@[simp] theorem relocWalk_off (h : m .dict ∧ m .fm ∧ m .hbm ∧ m .fsu ∧ m .free) (n : Nat) (s : State) (b : Nat) (chain : List (Nat × Nat)) :
    (relocWalk n s b chain).2.2.off m = s.off m := by
  induction n generalizing s b chain with
  | zero => rfl
  | succ n ih =>
    simp only [relocWalk]
    split
    · rfl
    · split
      · simp [h]
      · split
        · simp [h]
        · rw [ih]
          simp [h]

@[simp] theorem State.lineHome_off (h : m .fsu) (s : State) (key : Nat) (home : Nat) : (s.lineHome key home).off m = s.off m := by
  simp only [State.lineHome]; split <;> simp [*]

theorem writeMove_off (h : m .fm ∧ m .hbm ∧ m .fsu) (s : State) (m' : Move) {u : List Nat × State} (e : writeMove s m' = some u) : u.2.off m = s.off m := by
  grind [writeMove, State.placeRec_off, State.lineHome_off]

@[simp] theorem relocStart_off (h : m .dict ∧ m .fm ∧ m .hbm ∧ m .fsu ∧ m .free) (s : State) (place : Nat) : (relocStart s place).off m = s.off m := by
  simp only [relocStart]
  split
  · rfl
  · split
    · rfl
    · have walked {n : Nat} {t : State} {b : Nat} {c : List (Nat × Nat)} {x y u} (e : relocWalk n t b c = (x, y, u)) : u.off m = t.off m := by
        rw [← relocWalk_off (by simp [h]) n t b c, e]
      split
      next e => simp [h, walked e]
      next e => simp [h, walked e]
      next e =>
        split
        · simp [h, walked e]
        · split
          · simp [h, walked e]
          next e2 => simp [h, walked e, writeMove_off (m := m) (by simp [h]) _ _ e2]

@[simp] theorem State.endMove_off (h : m .dict ∧ m .hbm ∧ m .fsu) (s : State) (m' : Move) : (s.endMove m').off m = s.off m := by
  simp [State.endMove, h]

@[simp] theorem State.undoMove_off (h : m .hbm ∧ m .fsu) (s : State) (m' : Move) : (s.undoMove m').off m = s.off m := by
  simp [State.undoMove, h]

@[simp] theorem relocDone_off (h : m .dict ∧ m .fm ∧ m .hbm ∧ m .fsu) (s : State) (i : Nat) : (relocDone s i).off m = s.off m := by
  simp only [relocDone]
  split
  · rfl
  · split
    · rfl
    · split
      · simp [h]
      · split
        · simp [h]
        · split
          · simp [h]
          · split
            · simp [h]
            next e => simp [h, writeMove_off (m := m) (by simp [h]) _ _ e]

@[simp] theorem newPass_off (h : m .fsu) (s : State) : (newPass s).off m = s.off m := by
  simp [newPass, h]

@[simp] theorem sweepSeen_off (h : m .fm ∧ m .hbm ∧ m .fsu) (s : State) (key : Nat) (home : Nat) (t : Nat) : (sweepSeen s key home t).off m = s.off m := by
  simp only [sweepSeen]; (repeat' split) <;> simp [*]

@[simp] theorem sweepOne_off (h : m .dict ∧ m .fm ∧ m .str ∧ m .hbm ∧ m .fsu) (s : State) (home : Nat) (key : Nat) : (sweepOne s home key).off m = s.off m := by
  simp [sweepOne, h]

@[simp] theorem State.sweepLate_off (h : m .fm ∧ m .fsu) (s : State) : (s.sweepLate).off m = s.off m := by
  simp [State.sweepLate, h]

@[simp] theorem sweepVisit_off (h : m .dict ∧ m .fm ∧ m .str ∧ m .hbm ∧ m .fsu) (s : State) (ecc : FsuEcc) : (sweepVisit s ecc).off m = s.off m := by
  simp only [sweepVisit]; split <;> simp [*]

theorem State.startFlowFlush_off (h : m .fsu) (s : State) (byPort : Bool) (value : Nat) (o : Owner) {u : State} (e : s.startFlowFlush byPort value o = some u) : u.off m = s.off m := by
  grind [State.startFlowFlush, State.off_with_fsu]

@[simp] theorem flushEnd_off (h : m .dict ∧ m .fm ∧ m .host ∧ m .tbl ∧ m .sk ∧ m .fsu ∧ m .outbox) (dma : List (Fin 64 × Dma)) (s : State) (f : FlowFlush) : (flushEnd dma s f).off m = s.off m := by
  simp only [flushEnd]; split <;> simp [*]

@[simp] theorem flowFlushDone_off (h : m .dict ∧ m .fm ∧ m .host ∧ m .tbl ∧ m .sk ∧ m .fsu ∧ m .outbox) (s : State) (dma : List (Fin 64 × Dma)) : (flowFlushDone s dma).off m = s.off m := by
  simp [flowFlushDone, h]

@[simp] theorem flushLine_off (h : m .dict ∧ m .fm ∧ m .hbm ∧ m .fsu) (s : State) (key : Nat) : (flushLine s key).off m = s.off m := by
  simp only [flushLine]; split <;> simp [*]

@[simp] theorem State.flushCache_off (h : m .dict ∧ m .fm ∧ m .hbm ∧ m .fsu) (s : State) : (s.flushCache).off m = s.off m := by
  simp [State.flushCache, h]

@[simp] theorem State.served_off (h : m .dict ∧ m .fm ∧ m .hbm ∧ m .fsu) (s : State) (t : LockTarget) : (s.served t).off m = s.off m := by
  simp [State.served, h]

@[simp] theorem flowLock_off (h : m .dict ∧ m .fm ∧ m .hbm ∧ m .sk ∧ m .fsu) (s : State) (t : LockTarget) (o : Owner) : (flowLock s t o).2.off m = s.off m := by
  simp only [flowLock]; split_ifs <;> simp [*]

@[simp] theorem flowUnlock_off (h : m .dict ∧ m .fm ∧ m .sk ∧ m .fsu) (s : State) (t : LockTarget) (o : Owner) : (flowUnlock s t o).2.off m = s.off m := by
  simp only [flowUnlock]; (repeat' split) <;> simp [*]

@[simp] theorem insertRec_off (h : m .dict ∧ m .fm ∧ m .hbm ∧ m .fsu) (s : State) (key : Nat) (img : Nat) : (insertRec s key img).2.off m = s.off m := by
  simp only [insertRec]; (repeat' split) <;> simp [*]

@[simp] theorem lockEnd_off (h : m .dict ∧ m .fm ∧ m .host ∧ m .tbl ∧ m .sk ∧ m .fsu ∧ m .outbox) (s : State) (l : FlowLock) (status : Nat) : (lockEnd s l status).off m = s.off m := by
  simp only [lockEnd]; split <;> simp [*]

@[simp] theorem lockTaken_off (h : m .dict ∧ m .fm ∧ m .host ∧ m .hbm ∧ m .tbl ∧ m .sk ∧ m .fsu ∧ m .outbox) (s : State) (i : Nat) (l : FlowLock) : (lockTaken s i l).off m = s.off m := by
  simp only [lockTaken]; split <;> simp [*]

@[simp] theorem lockGrant_off (h : m .dict ∧ m .fm ∧ m .host ∧ m .hbm ∧ m .tbl ∧ m .sk ∧ m .fsu ∧ m .outbox) (s : State) (i : Nat) : (lockGrant s i).off m = s.off m := by
  simp only [lockGrant]; split <;> simp [*]

@[simp] theorem breakLock_off (h : m .dict ∧ m .fm ∧ m .host ∧ m .tbl ∧ m .sk ∧ m .fsu ∧ m .outbox) (s : State) (l : FlowLock) : (breakLock s l).off m = s.off m := by
  grind [breakLock, State.off_with_fsu, State.bump_off, State.raise_off, State.settleLocks_off, lockEnd_off]

@[simp] theorem writeRec_off (h : m .dict ∧ m .fm ∧ m .hbm ∧ m .fsu) (s : State) (key : Nat) (home : Nat) (img : Nat) : (writeRec s key home img).2.off m = s.off m := by
  simp only [writeRec]; (repeat' split) <;> simp [*]

@[simp] theorem writeSlot_off (h : m .dict ∧ m .fm ∧ m .hbm ∧ m .fsu) (s : State) (n : Nat) (img : Nat) : (writeSlot s n img).2.off m = s.off m := by
  simp only [writeSlot]; split <;> simp [*]

@[simp] theorem flowWrite_off (h : m .dict ∧ m .fm ∧ m .hbm ∧ m .fsu) (s : State) (t : LockTarget) (o : Owner) (data : List Byte) : (flowWrite s t o data).2.off m = s.off m := by
  simp only [flowWrite]; (repeat' split) <;> simp [*]

@[simp] theorem flowInsert_off (h : m .dict ∧ m .fm ∧ m .hbm ∧ m .sk ∧ m .fsu) (s : State) (key : Nat) (data : List Byte) (o : Owner) : (flowInsert s key data o).2.off m = s.off m := by
  simp only [flowInsert]; split_ifs <;> simp [*]

@[simp] theorem nextFound_off (h : m .dict ∧ m .fm ∧ m .hbm ∧ m .fsu) (x : List (Nat × Nat)) (y : State) : (nextFound x y).2.off m = y.off m := by
  fun_induction nextFound x y <;> simp_all

@[simp] theorem State.nextReads_off (h : m .hbm) (s : State) (cursor : Nat) : (s.nextReads cursor).off m = s.off m :=
  State.off_with_hbm h (.inr (Hbm.foldl_sw (fun _ _ => Hbm.foldl_sw (fun _ _ => Hbm.present_sw ..) _ _) _ _))

@[simp] theorem flowNext_off (h : m .dict ∧ m .fm ∧ m .hbm ∧ m .fsu) (s : State) (cursor : Nat) : (flowNext s cursor).2.2.2.off m = s.off m := by
  grind [flowNext, nextFound_off, State.nextReads_off]

@[simp] theorem State.setEp_off (h : m .eg) (s : State) (p : Nat) (x : EgPort) : (s.setEp p x).off m = s.off m := by
  simp [State.setEp, h]

@[simp] theorem State.red_off (h : m .tm ∧ m .free) (s : State) (key : Nat) (profNo : Nat) (c : Nat) (q : Nat) : (s.red key profNo c q).2.off m = s.off m := by
  simp only [State.red]; split_ifs <;> simp [*]

@[simp] theorem State.redEmpty_off (h : m .tm) (s : State) (key : Nat) : (s.redEmpty key).off m = s.off m := by
  simp [State.redEmpty, h]

@[simp] theorem State.egFlush_off (h : m .dict ∧ m .tm ∧ m .eg) (s : State) (p : Nat) : (s.egFlush p).off m = s.off m := by
  simp [State.egFlush, h]

@[simp] theorem State.egFlushHeld_off (h : m .dict ∧ m .tm ∧ m .eg) (s : State) (p : Nat) : (s.egFlushHeld p).off m = s.off m := by
  simp [State.egFlushHeld, h]

@[simp] theorem State.raiseEach_off (h : m .fm) (s : State) (n : Nat) (src : Nat) (unit : Nat) : (s.raiseEach n src unit).off m = s.off m := by
  simp [State.raiseEach, h]

@[simp] theorem State.txCount_off (h : m .dict) (s : State) (p : Nat) (t : TxFrame) : (s.txCount p t).off m = s.off m := by
  simp [State.txCount, h]

@[simp] theorem State.txSettle_off (h : m .dict ∧ m .eg) (s : State) (p : Nat) : (s.txSettle p).off m = s.off m := by
  simp only [State.txSettle]; (repeat' split) <;> simp [*]

@[simp] theorem State.txAbort_off (h : m .dict ∧ m .fm ∧ m .eg ∧ m .outbox) (s : State) (p : Nat) : (s.txAbort p).off m = s.off m := by
  simp [State.txAbort, h]

end
end Sys2Proof.Machine
end

section
/-! The frames of the traffic manager, the fabric, the time unit and the egress ports. -/

namespace Sys2Proof.Machine
section
variable {m : Piece → Bool}

@[simp] theorem State.setVoq_off (h : m .tm) (s : State) (id : Nat) (v : Voq) : (s.setVoq id v).off m = s.off m := by
  simp [State.setVoq, h]

@[simp] theorem State.injectDone_off (h : m .dict ∧ m .fm ∧ m .host ∧ m .tbl ∧ m .sk ∧ m .fsu ∧ m .outbox) (s : State) (r : Option Nat) (status : Nat) (result : Nat) : (s.injectDone r status result).off m = s.off m := by
  simp only [State.injectDone]; split <;> simp [*]

@[simp] theorem State.flightEnd_off (h : m .dict ∧ m .fm ∧ m .host ∧ m .hue ∧ m .tm ∧ m .tbl ∧ m .sk ∧ m .fsu ∧ m .outbox) (s : State) (item : Nat) (g : Nat) : (s.flightEnd item g).off m = s.off m := by
  simp only [State.flightEnd]; split <;> simp [*]

@[simp] theorem State.flightLost_off (h : m .dict ∧ m .fm ∧ m .host ∧ m .hue ∧ m .tm ∧ m .tbl ∧ m .sk ∧ m .fsu ∧ m .outbox) (s : State) (item : Nat) : (s.flightLost item).off m = s.off m := by
  simp only [State.flightLost]; split <;> simp [*]

@[simp] theorem State.cellLost_off (h : m .dict ∧ m .fm ∧ m .host ∧ m .hue ∧ m .tm ∧ m .tbl ∧ m .sk ∧ m .fsu ∧ m .outbox) (s : State) (c : Cell) (g : Nat) : (s.cellLost c g).off m = s.off m := by
  simp [State.cellLost, h]

@[simp] theorem State.setPol_off (h : m .tm) (s : State) (n : Nat) (p : PolState) : (s.setPol n p).off m = s.off m := by
  simp [State.setPol, h]

@[simp] theorem State.police_off (h : m .tm) (s : State) (n : Nat) (len : Nat) (colour : Nat) : (s.police n len colour).2.2.off m = s.off m := by
  simp only [State.police]; split <;> simp [*]

@[simp] theorem polApply_off (h : m .dict ∧ m .hbm ∧ m .tm) (n : Nat) (x : Nat) (s : State) : (polApply n x s).off m = s.off m := by
  simp [polApply, h]

@[simp] theorem redApply_off (h : m .dict ∧ m .tm) (n : Nat) (x : Nat) (s : State) : (redApply n x s).off m = s.off m := by
  simp [redApply, h]

@[simp] theorem State.poolAdd_off (h : m .dict) (s : State) (pipe : Nat) (d : Int) : (s.poolAdd pipe d).off m = s.off m := by
  simp [State.poolAdd, h]

@[simp] theorem State.spillWrites_off (h : m .hbm ∧ m .tm) (s : State) (voq : Nat) (c : SpillCell) : (s.spillWrites voq c).off m = s.off m := by
  simp [State.spillWrites, h]

@[simp] theorem placePacket_off (h : m .dict ∧ m .fm ∧ m .hbm ∧ m .tm) (s : State) (id : Nat) (kind : Nat) (pipe : Nat) (cells : List Cell) (overload : Bool) : (placePacket s id kind pipe cells overload).2.off m = s.off m := by
  simp only [placePacket]; (repeat' split) <;> simp [*]

@[simp] theorem State.itemDrop_off (h : m .dict ∧ m .fm ∧ m .host ∧ m .hue ∧ m .tbl ∧ m .sk ∧ m .fsu ∧ m .outbox) (s : State) (it : TmItem) : (s.itemDrop it).off m = s.off m := by
  simp [State.itemDrop, h]

@[simp] theorem admitPlace_off (h : m .dict ∧ m .fm ∧ m .host ∧ m .hbm ∧ m .hue ∧ m .tm ∧ m .tbl ∧ m .sk ∧ m .fsu ∧ m .outbox) (s : State) (it : TmItem) (colour : Nat) (mark : Bool) (overload : Bool) : (admitPlace s it colour mark overload).off m = s.off m := by
  grind [admitPlace, State.off_with_tm, placePacket_off, State.itemDrop_off]

@[simp] theorem tmAdmit_off (h : m .dict ∧ m .fm ∧ m .host ∧ m .hbm ∧ m .hue ∧ m .tm ∧ m .tbl ∧ m .sk ∧ m .fsu ∧ m .outbox ∧ m .free)
    (s : State) (overload : Bool) : (tmAdmit s overload).off m = s.off m := by
  simp only [tmAdmit]
  split
  · rfl
  · have policed {t : State} {p n k : Nat} {x y u} (e : t.police p n k = (x, y, u)) : u.off m = t.off m := by
      rw [← State.police_off (by simp [h]) t p n k, e]
    have red {t : State} {i p k n : Nat} {x u} (e : t.red i p k n = (x, u)) : u.off m = t.off m :=
      (State.off_of_eq e).trans (State.red_off (by simp [h]) ..)
    split
    next e => simp [h, policed e]
    next e =>
      split
      · simp [h, policed e]
      · split
        · simp [h, policed e]
        · split
          all_goals next e2 => simp [h, red e2, policed e]

@[simp] theorem meterEcc_off (h : m .fm ∧ m .tm) (s : State) (n : Nat) (x : MeterEcc) : (meterEcc s n x).off m = s.off m := by
  simp only [meterEcc]; split <;> simp [*]

@[simp] theorem issueFetches_off (h : m .hbm) (id n : Nat) (l : List SpillCell) (s : State) : (issueFetches id n l s).2.off m = s.off m := by
  fun_induction issueFetches id n l s with
  | case1 => rfl
  | case2 => rfl
  | case3 => simp_all
  | case4 n c cs s hf s1 l t e ih =>
    rw [e] at ih
    exact ih.trans (State.hbmReads_off h (by simp) (by simp) ..)

@[simp] theorem spillRefill_off (h : m .hbm ∧ m .tm) (s : State) (id : Nat) : (spillRefill s id).off m = s.off m := by
  simp only [spillRefill]; split <;> simp [*]

@[simp] theorem freeBlocks_off (h : m .dict ∧ m .tm) (s : State) (id : Nat) (v : Voq) : (freeBlocks s id v).off m = s.off m := by
  simp [freeBlocks, h]

@[simp] theorem idleVoq_off (h : m .tm) (s : State) (id : Nat) : (idleVoq s id).off m = s.off m := by
  simp [idleVoq, h]

@[simp] theorem spillFetchReturn_off (h : m .dict ∧ m .fm ∧ m .host ∧ m .hbm ∧ m .hue ∧ m .tm ∧ m .tbl ∧ m .sk ∧ m .fsu ∧ m .outbox) (s : State) (id : Nat) (mismatch : Bool) : (spillFetchReturn s id mismatch).off m = s.off m := by
  simp only [spillFetchReturn]; (repeat' split) <;> simp [*]

@[simp] theorem State.setQuota_off (h : m .tm) (s : State) (i : Nat) (m' : Nat) (q : Quota) : (s.setQuota i m' q).off m = s.off m := by
  simp [State.setQuota, h]

@[simp] theorem voqDiscard_off (h : m .dict ∧ m .fm ∧ m .host ∧ m .hue ∧ m .tm ∧ m .tbl ∧ m .sk ∧ m .fsu ∧ m .outbox) (s : State) (id : Nat) : (voqDiscard s id).off m = s.off m := by
  simp [voqDiscard, h]

@[simp] theorem cellEcc_off (h : m .fm) (s : State) (ecc : BufEcc) (c : Cell) : (cellEcc s ecc c).2.off m = s.off m := by
  simp only [cellEcc]; split <;> simp [*]

@[simp] theorem inputSlot_off (h : m .dict ∧ m .fm ∧ m .host ∧ m .hue ∧ m .tm ∧ m .tbl ∧ m .sk ∧ m .fsu ∧ m .outbox) (s : State) (i : Nat) (ecc : BufEcc) : (inputSlot s i ecc).off m = s.off m := by
  simp only [inputSlot]; (repeat' split) <;> simp [*]

@[simp] theorem State.setMid_off (h : m .tm) (s : State) (m' : Nat) (g : Nat) (k : Nat) (l : List Cell) : (s.setMid m' g k l).off m = s.off m := by
  simp [State.setMid, h]

@[simp] theorem midQueue_off (h : m .dict ∧ m .fm ∧ m .tm) (s : State) (m' : Nat) (g : Nat) (c : Cell) : (midQueue s m' g c).off m = s.off m := by
  simp [midQueue, h]

@[simp] theorem quotaRelease_off (h : m .tm) (s : State) (m' : Nat) (c : Cell) : (quotaRelease s m' c).off m = s.off m := by
  simp [quotaRelease, h]

@[simp] theorem mcLink_off (h : m .dict ∧ m .fm ∧ m .tm) (s : State) (m' : Nat) (c : Cell) (groups : List Nat) : (mcLink s m' c groups).off m = s.off m := by
  simp [mcLink, h]

@[simp] theorem mcArrive_off (h : m .dict ∧ m .fm ∧ m .host ∧ m .hue ∧ m .tm ∧ m .tbl ∧ m .sk ∧ m .fsu ∧ m .outbox) (s : State) (m' : Nat) (c : Cell) (word : WordEcc) : (mcArrive s m' c word).off m = s.off m := by
  grind [mcArrive, State.off_with_tm, State.bump_off, readWord_off, State.flightLost_off, quotaRelease_off, mcLink_off]

@[simp] theorem cellAtMiddle_off (h : m .dict ∧ m .fm ∧ m .host ∧ m .hue ∧ m .tm ∧ m .tbl ∧ m .sk ∧ m .fsu ∧ m .outbox) (s : State) (m' : Nat) (ecc : BufEcc) (word : WordEcc) : (cellAtMiddle s m' ecc word).off m = s.off m := by
  simp only [cellAtMiddle]; split <;> simp [*]

@[simp] theorem controlWord_off (h : m .tm) (s : State) (m' : Nat) (i : Nat) : (controlWord s m' i).off m = s.off m := by
  simp [controlWord, h]

@[simp] theorem middleSlot_off (h : m .fm ∧ m .tm) (s : State) (m' : Nat) (ecc : BufEcc) (parity : Bool) : (middleSlot s m' ecc parity).off m = s.off m := by
  simp only [middleSlot]; (repeat' split) <;> simp [*]

@[simp] theorem State.setReord_off (h : m .tm) (s : State) (key : Nat) (x : Reord) : (s.setReord key x).off m = s.off m := by
  simp [State.setReord, h]

@[simp] theorem timersXoff_off (h : m .tm) (s : State) (g : Nat) (c : Nat) (off : Bool) : (timersXoff s g c off).off m = s.off m := by
  simp [timersXoff, h]

@[simp] theorem State.xoffUpdate_off (h : m .dict ∧ m .tm) (s : State) (g : Nat) : (s.xoffUpdate g).off m = s.off m := by
  have timers (old new : Nat) (t : State) (c : Nat) : State.off m (if bit old c = bit new c then t else timersXoff t g c (bit new c)) = t.off m := by
    split_ifs <;> simp [h]
  simp only [State.xoffUpdate]
  rw [State.off_foldl (timers _ _), State.wr_off (by simp [h]), State.off_with_tm (by simp [h])]

@[simp] theorem State.xoffUpdateAll_off (h : m .dict ∧ m .tm) (s : State) : (s.xoffUpdateAll).off m = s.off m := by
  simp [State.xoffUpdateAll, h]

@[simp] theorem dropRun_off (h : m .dict ∧ m .fm ∧ m .host ∧ m .hue ∧ m .tm ∧ m .tbl ∧ m .sk ∧ m .fsu ∧ m .outbox) (s : State) (g : Nat) (key : Nat) (cause : Option (Nat × Nat)) : (dropRun s g key cause).off m = s.off m := by
  simp [dropRun, h]

@[simp] theorem pushRun_off (h : m .dict ∧ m .fm ∧ m .host ∧ m .hue ∧ m .tm ∧ m .tbl ∧ m .sk ∧ m .fsu ∧ m .outbox) (s : State) (g : Nat) (ing : Nat) (key : Nat) (c : Cell) : (pushRun s g ing key c).off m = s.off m := by
  simp [pushRun, h]

@[simp] theorem releaseRun_off (h : m .dict ∧ m .fm ∧ m .host ∧ m .hue ∧ m .tm ∧ m .tbl ∧ m .sk ∧ m .fsu ∧ m .outbox) (n : Nat) (s : State)
    (g ing key : Nat) : (releaseRun n s g ing key).off m = s.off m := by
  induction n generalizing s with
  | zero => rfl
  | succ n ih =>
    simp only [releaseRun]
    split
    · simp [h]
    · rw [ih]
      simp [h]

@[simp] theorem reorderCell_off (h : m .dict ∧ m .fm ∧ m .host ∧ m .hue ∧ m .tm ∧ m .tbl ∧ m .sk ∧ m .fsu ∧ m .outbox) (s : State) (g : Nat) (ing : Nat) (c : Cell) : (reorderCell s g ing c).off m = s.off m := by
  simp [reorderCell, h]

@[simp] theorem storeFull_off (h : m .dict ∧ m .fm ∧ m .host ∧ m .hue ∧ m .tm ∧ m .tbl ∧ m .sk ∧ m .fsu ∧ m .outbox) (s : State) (g : Nat) (ing : Nat) (c : Cell) : (storeFull s g ing c).off m = s.off m := by
  simp [storeFull, h]

@[simp] theorem cellAtOutput_off (h : m .dict ∧ m .fm ∧ m .host ∧ m .hue ∧ m .tm ∧ m .tbl ∧ m .sk ∧ m .fsu ∧ m .outbox) (s : State) (o : Nat) (ecc : BufEcc) : (cellAtOutput s o ecc).off m = s.off m := by
  simp only [cellAtOutput]; split <;> simp [*]

@[simp] theorem fabTimeout_off (h : m .dict ∧ m .fm ∧ m .host ∧ m .hue ∧ m .tm ∧ m .tbl ∧ m .sk ∧ m .fsu ∧ m .outbox) (s : State) (g : Nat) (ing : Nat) (k : Nat) : (fabTimeout s g ing k).off m = s.off m := by
  simp only [fabTimeout]; split <;> simp [*]

@[simp] theorem State.isolateMiddle_off (h : m .dict ∧ m .fm ∧ m .host ∧ m .hue ∧ m .tm ∧ m .tbl ∧ m .sk ∧ m .fsu ∧ m .outbox) (s : State) (m' : Nat) : (s.isolateMiddle m').off m = s.off m := by
  simp [State.isolateMiddle, h]

@[simp] theorem State.startRegrow_off (h : m .fm) (s : State) (utype : Nat) (unit : Nat) : (s.startRegrow utype unit).off m = s.off m := by
  simp [State.startRegrow, h]

@[simp] theorem State.eftTick_off (h : m .dict ∧ m .eft) (s : State) : (s.eftTick).off m = s.off m := by
  simp [State.eftTick, h]

@[simp] theorem State.carryOver_off (h : m .eft) (s : State) : (s.carryOver).off m = s.off m := by
  simp only [State.carryOver]; split_ifs <;> simp [*]

@[simp] theorem State.passSent_off (h : m .dict ∧ m .outbox) (q : Nat) (s : State) (f : List Byte × Nat) : (State.passSent q s f).off m = s.off m := by
  simp [State.passSent, h]

@[simp] theorem State.passOut_off (h : m .dict ∧ m .eft ∧ m .outbox) (s : State) (all : Bool) : (s.passOut all).off m = s.off m := by
  simp only [State.passOut]; split <;> simp [*]

@[simp] theorem State.eftRaise_off (h : m .dict ∧ m .fm ∧ m .eft) (s : State) (src : Nat) (unit : Nat) (detail : Nat) : (s.eftRaise src unit detail).off m = s.off m := by
  simp [State.eftRaise, h]

@[simp] theorem State.tick_off (h : m .dict ∧ m .time ∧ m .clock ∧ m .counters ∧ m .eft) (s : State) : (s.tick).off m = s.off m := by
  grind [State.tick, State.off_with_time, State.eftTick_off]

@[simp] theorem State.setTrk_off (h : m .time) (s : State) (d : Nat) (t : Tracker) : (s.setTrk d t).off m = s.off m := by
  simp [State.setTrk, h]

@[simp] theorem State.setCtr_off (h : m .counters) (s : State) (d t : Nat) : (s.setCtr d t).off m = s.off m := by
  simp only [State.setCtr]
  cases e : m .time <;> split_ifs <;> simp [State.off, h, e]

@[simp] theorem State.setDomInc_off (h : m .dict ∧ m .time) (s : State) (d : Nat) (v : Nat) : (s.setDomInc d v).off m = s.off m := by
  simp [State.setDomInc, h]

@[simp] theorem wActiveLost_off (h : m .dict ∧ m .fm ∧ m .time) (s : State) (d : Nat) : (wActiveLost s d).off m = s.off m := by
  grind [wActiveLost, State.off_with_time, State.wr_off, State.raise_off]

@[simp] theorem State.setDomState_off (h : m .dict ∧ m .fm ∧ m .time) (s : State) (d : Nat) (st : Nat) : (s.setDomState d st).off m = s.off m := by
  grind [State.setDomState, State.off_with_time, State.wr_off, wActiveLost_off]

@[simp] theorem domFilter_off (h : m .dict ∧ m .time) (s : State) (d : Nat) (th : Int) (t2 : Nat) : (domFilter s d th t2).off m = s.off m := by
  simp [domFilter, h]

@[simp] theorem domHold_off (h : m .dict ∧ m .time) (s : State) (d : Nat) : (domHold s d).off m = s.off m := by
  simp [domHold, h]

@[simp] theorem domHoldover_off (h : m .dict ∧ m .fm ∧ m .time) (s : State) (d : Nat) : (domHoldover s d).off m = s.off m := by
  simp [domHoldover, h]

@[simp] theorem State.holdAll_off (h : m .dict ∧ m .fm ∧ m .time) (s : State) : s.holdAll.off m = s.off m := by
  have held (l : List Nat) (s : State) : State.off m (l.foldl (fun (s : State) d =>
      if s.rd Objs.dom_state d = 0 then s else (domHold s d).wr Objs.dom_state d 4) s) = s.off m := by
    refine State.off_foldl (fun s d => ?_) l s
    split_ifs <;> simp [h]
  simp only [State.holdAll]
  split_ifs
  · rw [wActiveLost_off h, held]
  · exact held _ s

@[simp] theorem domAccept_off (h : m .dict ∧ m .fm ∧ m .time) (s : State) (d : Nat) (coarse : Bool) (th : Int) (t2 : Nat) : (domAccept s d coarse th t2).off m = s.off m := by
  grind [domAccept, State.raise_off, State.setTrk_off, State.setDomState_off, domFilter_off]

@[simp] theorem TimeUnit.spoil_keeps (u : TimeUnit) (i : Nat) : (u.spoil i).ticks = u.ticks ∧ (u.spoil i).f = u.f ∧ (u.spoil i).a = u.a ∧
    (u.spoil i).b = u.b ∧ (u.spoil i).w = u.w := ⟨rfl, rfl, rfl, rfl, rfl⟩

@[simp] theorem offsetSample_off (h : m .dict ∧ m .fm ∧ m .time) (s : State) (d pd ts : Nat) (bad : TimeFault) :
    (offsetSample s d pd ts bad).off m = s.off m := by
  fun_cases offsetSample s d pd ts bad <;>
    simp +zetaDelta only [domAccept_off h, State.setTrk_off h.2.2, State.wrInt_off h.1, State.bump_off h.1, State.raise_off h.2.1]
  all_goals cases bad <;> simp [h]

@[simp] theorem domLossTimeout_off (h : m .dict ∧ m .fm ∧ m .time) (s : State) (d : Nat) : (domLossTimeout s d).off m = s.off m := by
  simp only [domLossTimeout]; split <;> simp [*]

@[simp] theorem domEnableApply_off (h : m .dict ∧ m .fm ∧ m .time) (d : Nat) (x : Nat) (s : State) : (domEnableApply d x s).off m = s.off m := by
  simp only [domEnableApply]; split_ifs <;> simp [*]

@[simp] theorem domSoftApply_off (h : m .dict ∧ m .fm ∧ m .time) (d : Nat) (s : State) : (domSoftApply d s).off m = s.off m := by
  simp only [domSoftApply]; split_ifs <;> simp [*]

@[simp] theorem domIncApply_off (h : m .time) (d : Nat) (x : Nat) (s : State) : (domIncApply d x s).off m = s.off m := by
  simp [domIncApply, h]

@[simp] theorem domStepApply_off (h : m .time) (d : Nat) (x : Nat) (s : State) : (domStepApply d x s).off m = s.off m := by
  simp [domStepApply, h]

@[simp] theorem wSelectApply_off (h : m .dict ∧ m .fm) (x : Nat) (s : State) : (wSelectApply x s).off m = s.off m := by
  simp only [wSelectApply]; split <;> simp [*]

@[simp] theorem wSetApply_off (h : m .time) (x : Nat) (s : State) : (wSetApply x s).off m = s.off m := by
  simp [wSetApply, h]

@[simp] theorem TimeUnit.mendHistory_keeps (u : TimeUnit) : u.mendHistory.ticks = u.ticks ∧ u.mendHistory.f = u.f ∧ u.mendHistory.a = u.a ∧
    u.mendHistory.b = u.b ∧ u.mendHistory.w = u.w := by
  unfold TimeUnit.mendHistory
  split <;> simp

@[simp] theorem wUpdate_off (h : m .dict ∧ m .fm ∧ m .time) (s : State) : (wUpdate s).off m = s.off m := by
  simp only [wUpdate]
  split_ifs
  · simp only [State.raise_off, State.wr_off, State.wrInt_off, h]
    simp [State.off, h]
  · simp only [State.wr_off, State.wrInt_off, h]
    simp [State.off, h]
  · simp [h]
  · rfl

@[simp] theorem snapshotApply_off (h : m .dict) (n : Nat) (s : State) : (snapshotApply n s).off m = s.off m := by
  simp [snapshotApply, h]

@[simp] theorem setPps_off (h : m .time) (s : State) (k : Nat) (high : Bool) : (setPps s k high).off m = s.off m := by
  simp [setPps, h]

@[simp] theorem rclkEdge_off (h : m .time) (s : State) (k : Nat) : (rclkEdge s k).off m = s.off m := by
  simp [rclkEdge, h]

@[simp] theorem ppsModeApply_off (h : m .time) (k : Nat) (s : State) : (ppsModeApply k s).off m = s.off m := by
  simp [ppsModeApply, h]

@[simp] theorem ppsEdge_off (h : m .time) (s : State) (k : Nat) (rise : Bool) : (ppsEdge s k rise).off m = s.off m := by
  grind [ppsEdge, setPps_off, rclkEdge_off]

@[simp] theorem State.sendReport_off (h : m .host) (s : State) (r : List Byte) : (s.sendReport r).off m = s.off m := by
  simp [State.sendReport, h]

@[simp] theorem evtEdge_off (h : m .dict ∧ m .fm ∧ m .time ∧ m .host) (s : State) (k : Nat) (falling : Bool) (samples : Nat) : (evtEdge s k falling samples).off m = s.off m := by
  simp [evtEdge, h]

@[simp] theorem evtPop_off (h : m .time) (k : Nat) (s : State) : (evtPop k s).off m = s.off m := by
  simp [evtPop, h]

@[simp] theorem readEvtFifo_off (h : m .time ∧ m .outbox) (c : Ctx) (k : Nat) (s : State) : (readEvtFifo c k s).off m = s.off m := by
  simp [readEvtFifo, h]

@[simp] theorem launchAdmit_off (h : m .dict ∧ m .fm) (s : State) (p : Nat) (r : Ready) : (launchAdmit s p r).2.off m = s.off m := by
  simp only [launchAdmit]; split_ifs <;> simp [*]

@[simp] theorem egDecide_off (h : m .dict ∧ m .fm ∧ m .tm ∧ m .free) (s : State) (p : Nat) (r : Ready) : (egDecide s p r).2.2.off m = s.off m := by
  grind [egDecide, State.bump_off, State.raise_off, State.red_off, launchAdmit_off]

@[simp] theorem egPut_off (h : m .eg) (s : State) (p : Nat) (d : EgDest) (f : EgFrame) : (egPut s p d f).off m = s.off m := by
  simp only [egPut]; split <;> simp [*]

@[simp] theorem egCopy_off (h : m .dict ∧ m .fm ∧ m .tm ∧ m .eg ∧ m .free) (s : State) (p : Nat) (idx : Nat) (seq : Nat) (r : Ready) (f : Flight) : (egCopy s p idx seq r f).2.off m = s.off m := by
  grind [egCopy, State.off_with_tm, State.bump_off, egDecide_off, egPut_off]

@[simp] theorem mcEdit_off (h : m .fm ∧ m .tbl) (s : State) (m' : Nat) (p : Nat) (ecc : WordEcc) : (mcEdit s m' p ecc).2.off m = s.off m := by
  grind [mcEdit, readWord_off]

@[simp] theorem egCopies_off (h : m .dict ∧ m .fm ∧ m .tm ∧ m .eg ∧ m .tbl ∧ m .free) (x seq : Nat) (r : Ready) (f : Flight) (ecc : WordEcc)
    (bad : Option Nat) (l : List Nat) (s : State) : (egCopies x seq r f ecc bad l s).off m = s.off m := by
  induction l generalizing s with
  | nil => rfl
  | cons p l ih =>
    simp only [egCopies]
    split
    all_goals next e =>
      rw [ih]
      simp [h, (State.off_of_eq e).trans (mcEdit_off (m := m) (by simp [h]) ..)]

@[simp] theorem queueEcc_off (h : m .dict ∧ m .fm ∧ m .tm ∧ m .eg) (s : State) (p : Nat) (x : QueueEcc) : (queueEcc s p x).off m = s.off m := by
  simp only [queueEcc]; split <;> simp [*]

@[simp] theorem egressAdmit_off (h : m .dict ∧ m .fm ∧ m .host ∧ m .hue ∧ m .tm ∧ m .eg ∧ m .tbl ∧ m .sk ∧ m .fsu ∧ m .outbox ∧ m .free)
    (s : State) (g port : Nat) (desc : QueueEcc) (ecc : WordEcc) (bad : Option Nat) : (egressAdmit s g port desc ecc bad).off m = s.off m := by
  unfold egressAdmit
  split
  · rfl
  · extract_lets r u v
    have hv : v.off m = s.off m := by
      simp only [v, u, r]
      rw [State.off_with_tm (by simp [h])]
      split_ifs <;> simp [h]
    clear_value v
    split
    · simp [h, hv]
    · split
      · split
        all_goals next e => simp [h, hv, (State.off_of_eq e).trans (readWord_off (m := m) (by simp [h]) ..)]
      · simp [h, hv]

@[simp] theorem shApply_off (h : m .eg) (p : Nat) (q : Nat) (x : Nat) (s : State) : (shApply p q x s).off m = s.off m := by
  simp [shApply, h]

@[simp] theorem shWritten_off (h : m .hbm ∧ m .eg) (p : Nat) (q : Nat) (x : Nat) (s : State) : (shWritten p q x s).off m = s.off m := by
  simp [shWritten, h]

@[simp] theorem strictApply_off (h : m .eg) (p : Nat) (s : State) : (strictApply p s).off m = s.off m := by
  simp [strictApply, h]

@[simp] theorem ptpReport_off (h : m .host) (s : State) (p : Nat) (f : EgFrame) (body : List Byte) (e : Nat) : (ptpReport s p f body e).off m = s.off m := by
  simp only [ptpReport]; split <;> simp [*]

@[simp] theorem cutFrame_off (h : m .dict ∧ m .eg) (s : State) (p : Nat) : (cutFrame s p).off m = s.off m := by
  simp only [cutFrame]; split <;> simp [*]

@[simp] theorem startFrame_off (h : m .dict ∧ m .host ∧ m .tm ∧ m .eg ∧ m .outbox) (s : State) (p : Nat) (f : EgFrame) (preemptable : Bool) (e : Nat) : (startFrame s p f preemptable e).off m = s.off m := by
  simp [startFrame, h]

theorem launchStart_off (h : m .dict ∧ m .fm ∧ m .host ∧ m .tm ∧ m .eg ∧ m .outbox) (s : State) (p : Nat) (ofs : Nat) {u : State} (e : launchStart s p ofs = some u) : u.off m = s.off m := by
  grind [launchStart, State.bump_off, State.raise_off, State.setEp_off, cutFrame_off, startFrame_off]

@[simp] theorem launchDue_off (h : m .dict ∧ m .fm ∧ m .host ∧ m .tm ∧ m .eg ∧ m .outbox) (s : State) (p ofs : Nat) :
    (launchDue s p ofs).off m = s.off m := by
  simp only [launchDue]
  split_ifs
  · cases e : launchStart ((s.txSettle p).txSettle p) p ofs with
    | none => simp [h]
    | some t => simp [h, launchStart_off (m := m) h _ _ _ e]
  · rfl

@[simp] theorem newRound_off (h : m .eg) (s : State) (p : Nat) (strict : Nat) : (newRound s p strict).off m = s.off m := by
  simp [newRound, h]

@[simp] theorem chooseQueue_off (h : m .eg) (s : State) (p : Nat) (ok : Nat → Bool) : (chooseQueue s p ok).2.off m = s.off m := by
  simp only [chooseQueue]; (repeat' split) <;> simp [*]

@[simp] theorem chooseSrc_off (h : m .eg) (s : State) (p : Nat) (preemptable : Bool) : (chooseSrc s p preemptable).2.off m = s.off m := by
  grind [chooseSrc, chooseQueue_off]

@[simp] theorem srcPop_off (h : m .tm ∧ m .eg) (s : State) (p : Nat) (x : Src) : (srcPop s p x).off m = s.off m := by
  simp only [srcPop]; split <;> simp [*]

@[simp] theorem chooseFrame_off (h : m .dict ∧ m .fm ∧ m .tm ∧ m .eg) (n : Nat) (s : State) (p : Nat) (pre : Bool) :
    (chooseFrame n s p pre).2.off m = s.off m := by
  induction n generalizing s with
  | zero => rfl
  | succ n ih =>
    have chosen {x u} (e : chooseSrc s p pre = (x, u)) : u.off m = s.off m :=
      (State.off_of_eq e).trans (chooseSrc_off (by simp [h]) ..)
    simp only [chooseFrame]
    split
    next e => exact chosen e
    next e =>
      split
      · exact chosen e
      · split
        · rw [ih]
          simp [h, chosen e]
        · exact chosen e

@[simp] theorem queueCost_off (h : m .dict ∧ m .eg) (s : State) (p : Nat) (q : Nat) (len : Nat) : (queueCost s p q len).off m = s.off m := by
  simp [queueCost, h]

@[simp] theorem serve_off (h : m .dict ∧ m .host ∧ m .tm ∧ m .eg ∧ m .outbox) (s : State) (p : Nat) (src : Src) (f : EgFrame) (pre : Bool) (ofs : Nat) : (serve s p src f pre ofs).off m = s.off m := by
  simp only [serve]; (repeat' split) <;> simp [*]

@[simp] theorem startChosen_off (h : m .dict ∧ m .fm ∧ m .host ∧ m .tm ∧ m .eg ∧ m .outbox) (s : State) (p : Nat) (pre : Bool) (ofs : Nat) : (startChosen s p pre ofs).off m = s.off m := by
  grind [startChosen, chooseFrame_off, serve_off]

@[simp] theorem frameStart_off (h : m .dict ∧ m .fm ∧ m .host ∧ m .tm ∧ m .eg ∧ m .outbox) (s : State) (p : Nat) (pre : Bool) (ofs : Nat)
    (ecc : QueueEcc) : (frameStart s p pre ofs ecc).off m = s.off m := by
  simp only [frameStart]
  split
  · rw [State.xoffUpdate_off (by simp [h])]
    split
    next e =>
      split_ifs at e
      simp [h, launchStart_off (m := m) h _ _ _ e]
    · simp [h]
  · rfl

@[simp] theorem State.txResume_off (h : m .dict ∧ m .fm ∧ m .tm ∧ m .eg) (s : State) (p : Nat) : (s.txResume p).off m = s.off m := by
  simp only [State.txResume]; split <;> simp [*]

@[simp] theorem State.guardCut_off (h : m .dict ∧ m .eg) (s : State) (p : Nat) : (s.guardCut p).off m = s.off m := by
  simp only [State.guardCut]; split <;> simp [*]

@[simp] theorem State.txTick_off (h : m .dict ∧ m .fm ∧ m .tm ∧ m .eg) (s : State) : (s.txTick).off m = s.off m := by
  simp [State.txTick, h]

end
end Sys2Proof.Machine
end

section
/-! The frames of the ports, the Skinks, the parser, the pattern engines and the rules. -/

namespace Sys2Proof.Machine
section
variable {m : Piece → Bool}

@[simp] theorem State.setPl_off (h : m .ports) (s : State) (p : Nat) (x : PortLink) : (s.setPl p x).off m = s.off m := by
  simp [State.setPl, h]

@[simp] theorem State.unpower_off (h : m .ports) (s : State) (lanes : List Nat) : (s.unpower lanes).off m = s.off m := by
  simp [State.unpower, h]

@[simp] theorem State.refresh_off (h : m .ports) (s : State) (p : Nat) : (s.refresh p).off m = s.off m := by
  simp [State.refresh, h]

@[simp] theorem tellPairs_off (h : m .fm) (s t : State) : (tellPairs s t).off m = t.off m := by
  simp only [tellPairs]
  refine State.off_foldl (fun s r => ?_) _ t
  split <;> simp [h]

@[simp] theorem State.setLink_off (h : m .dict) (s : State) (p : Nat) (x : Nat) : (s.setLink p x).off m = s.off m := by
  simp [State.setLink, h]

@[simp] theorem State.mmStart_off (h : m .dict) (s : State) (p : Nat) : (s.mmStart p).off m = s.off m := by
  simp [State.mmStart, h]

theorem State.off_setQuiet (h : m .dict ∧ m .time) (s : State) (o : Obj) (i v : Nat) (q : Tab Nat) :
    State.off m { s.wr o i v with time := { s.time with quiet := q } } = s.off m := by
  simp [State.off, h]

@[simp] theorem State.leaveUp_off (h : m .dict ∧ m .fm ∧ m .time ∧ m .eg ∧ m .tbl ∧ m .outbox) (s : State) (p : Nat) (x : Nat) : (s.leaveUp p x).off m = s.off m := by
  simp only [State.leaveUp]
  split <;> simp only [State.startMacFlush_off, State.off_setQuiet, h, and_self] <;> simp [h]

@[simp] theorem State.declareDown_off (h : m .dict ∧ m .fm ∧ m .time ∧ m .ports ∧ m .tm ∧ m .eg ∧ m .tbl ∧ m .outbox) (s : State) (p : Nat) : (s.declareDown p).off m = s.off m := by
  simp only [State.declareDown]; split <;> simp [*]

@[simp] theorem State.lateHeld_off (h : m .dict ∧ m .fm ∧ m .eg) (s : State) (p : Nat) : (s.lateHeld p).off m = s.off m := by
  simp [State.lateHeld, h]

@[simp] theorem State.enterUp_off (h : m .dict ∧ m .fm ∧ m .time ∧ m .tm ∧ m .eg) (s : State) (p : Nat) : (s.enterUp p).off m = s.off m := by
  simp only [State.enterUp, State.xoffUpdate_off ⟨h.1, h.2.2.2.1⟩, apply_ite (State.off m), State.lateHeld_off ⟨h.1, h.2.1, h.2.2.2.2⟩, ite_self,
    State.off_setQuiet ⟨h.1, h.2.2.1⟩]
  simp [h]

@[simp] theorem State.powerUp_off (h : m .dict ∧ m .ports) (s : State) (p : Nat) : (s.powerUp p).off m = s.off m := by
  simp [State.powerUp, h]

@[simp] theorem State.powerDown_off (h : m .dict ∧ m .fm ∧ m .time ∧ m .ports ∧ m .tm ∧ m .eg ∧ m .tbl ∧ m .outbox) (s : State) (p : Nat) (x : Nat) : (s.powerDown p x).off m = s.off m := by
  simp [State.powerDown, h]

@[simp] theorem State.isolatePort_off (h : m .dict ∧ m .fm ∧ m .time ∧ m .ports ∧ m .tm ∧ m .eg ∧ m .tbl ∧ m .outbox) (s : State) (p : Nat) : (s.isolatePort p).off m = s.off m := by
  simp [State.isolatePort, h]

@[simp] theorem State.readmitPort_off (h : m .dict ∧ m .ports) (s : State) (p : Nat) : (s.readmitPort p).off m = s.off m := by
  simp only [State.readmitPort]; split_ifs <;> simp [*]

@[simp] theorem downExpiry_off (h : m .dict ∧ m .fm ∧ m .time ∧ m .ports ∧ m .tm ∧ m .eg ∧ m .tbl ∧ m .outbox) (s : State) (p : Nat) : (downExpiry s p).off m = s.off m := by
  simp [downExpiry, h]

@[simp] theorem upExpiry_off (h : m .dict ∧ m .fm ∧ m .time ∧ m .tm ∧ m .eg) (s : State) (p : Nat) : (upExpiry s p).off m = s.off m := by
  simp [upExpiry, h]

@[simp] theorem holdExpiry_off (h : m .dict ∧ m .fm ∧ m .tm ∧ m .eg) (s : State) (p : Nat) : (holdExpiry s p).off m = s.off m := by
  simp [holdExpiry, h]

@[simp] theorem signalChange_off (h : m .fm ∧ m .ports) (s : State) (l : Nat) (on : Bool) : (signalChange s l on).off m = s.off m := by
  simp [signalChange, h]

@[simp] theorem State.resolveSpeed_off (h : m .dict ∧ m .fm) (s : State) (p : Nat) : (s.resolveSpeed p).off m = s.off m := by
  simp only [State.resolveSpeed]
  (repeat' split) <;> simp [h]

@[simp] theorem lockChange_off (h : m .dict ∧ m .fm ∧ m .ports) (s : State) (p : Nat) (lock : Nat) (speed : Nat) : (lockChange s p lock speed).off m = s.off m := by
  simp [lockChange, h]

@[simp] theorem faultReceive_off (h : m .fm ∧ m .ports) (s : State) (p : Nat) (kind : Nat) : (faultReceive s p kind).off m = s.off m := by
  simp [faultReceive, h]

@[simp] theorem trainDone_off (h : m .ports) (s : State) (l : Nat) : (trainDone s l).off m = s.off m := by
  simp only [trainDone]; split <;> simp [*]

@[simp] theorem trainTimeout_off (h : m .fm ∧ m .ports) (s : State) (l : Nat) : (trainTimeout s l).off m = s.off m := by
  simp only [trainTimeout]; split <;> simp [*]

@[simp] theorem verifyDone_off (h : m .dict ∧ m .fm) (s : State) (p : Nat) (ok : Bool) : (verifyDone s p ok).off m = s.off m := by
  simp only [verifyDone]; split <;> simp [*]

@[simp] theorem pllUnlock_off (h : m .dict ∧ m .fm ∧ m .time ∧ m .ports ∧ m .tm ∧ m .eg ∧ m .tbl ∧ m .outbox) (s : State) (l : Nat) : (pllUnlock s l).off m = s.off m := by
  simp only [pllUnlock]
  split
  · rfl
  · refine (State.off_foldl (fun s p => ?_) _ _).trans (State.raise_off h.2.1 ..)
    split <;> simp [h]

@[simp] theorem phaseInterval_off (h : m .dict ∧ m .fm ∧ m .time) (s : State) (p : Nat) (move : Nat) : (phaseInterval s p move).off m = s.off m := by
  simp [phaseInterval, h]

@[simp] theorem State.modeFlush_off (h : m .dict ∧ m .fm ∧ m .time ∧ m .tm ∧ m .eg ∧ m .tbl ∧ m .outbox) (s : State) (p : Nat) : (s.modeFlush p).off m = s.off m := by
  simp [State.modeFlush, h]

@[simp] theorem portModeApply_off (h : m .dict ∧ m .fm ∧ m .time ∧ m .ports ∧ m .tm ∧ m .eg ∧ m .tbl ∧ m .outbox) (p : Nat) (old : Nat) (x : Nat) (s : State) : (portModeApply p old x s).off m = s.off m := by
  simp [portModeApply, h]

@[simp] theorem adminUpApply_off (h : m .dict ∧ m .fm ∧ m .time ∧ m .ports ∧ m .tm ∧ m .eg ∧ m .tbl ∧ m .outbox) (p : Nat) (x : Nat) (s : State) : (adminUpApply p x s).off m = s.off m := by
  simp [adminUpApply, h]

@[simp] theorem clearCounters_off (h : m .dict) (p : Nat) (s : State) : (clearCounters p s).off m = s.off m := by
  simp [clearCounters, h]

@[simp] theorem portObjApply_off (h : m .dict ∧ m .fm) (p : Nat) (k : Nat) (s : State) : (portObjApply p k s).off m = s.off m := by
  simp only [portObjApply]; split <;> simp [*]

@[simp] theorem State.enqueuePacket_off (h : m .ports ∧ m .hue) (s : State) (p : Nat) (lin : Nat) (frame : List Byte) (inject : Option Nat) : (s.enqueuePacket p lin frame inject).off m = s.off m := by
  simp [State.enqueuePacket, h]

@[simp] theorem State.fecCount_off (h : m .dict ∧ m .fm ∧ m .ports) (s : State) (p : Nat) (corrected : Nat) (bad : Nat) : (s.fecCount p corrected bad).off m = s.off m := by
  simp [State.fecCount, h]

@[simp] theorem macReceive_off (h : m .dict ∧ m .fm ∧ m .ports ∧ m .hue) (s : State) (p : Nat) (frame : List Byte) (r : RxInfo) : (macReceive s p frame r).off m = s.off m := by
  simp [macReceive, h]

@[simp] theorem frameReceive_off (h : m .dict ∧ m .fm ∧ m .ports ∧ m .hue) (s : State) (p : Nat) (frame : List Byte) (r : RxInfo) : (frameReceive s p frame r).off m = s.off m := by
  simp [frameReceive, h]

@[simp] theorem scratchStore_off (h : m .sk) (s : State) (t : Nat) (a : Nat) (bytes : List Byte) : (scratchStore s t a bytes).off m = s.off m := by
  simp [scratchStore, h]

@[simp] theorem memScratch_off (h : m .sk) (s : State) (x : Thread) (t : Nat) (w : Nat) (store : Bool) : (memScratch s x t w store).2.off m = s.off m := by
  grind [memScratch, State.addPend_off, scratchStore_off]

@[simp] theorem memHeader_off (h : m .sk) (s : State) (x : Thread) (t : Nat) (w : Nat) : (memHeader s x t w).2.off m = s.off m := by
  grind [memHeader, State.addPend_off]

@[simp] theorem memHash_off (h : m .sk) (s : State) (x : Thread) (t : Nat) (w : Nat) : (memHash s x t w).2.off m = s.off m := by
  grind [memHash, State.addPend_off]

@[simp] theorem memLookup_off (h : m .sk) (s : State) (x : Thread) (t : Nat) (w : Nat) : (memLookup s x t w).2.off m = s.off m := by
  grind [memLookup, State.addPend_off]

@[simp] theorem memLearn_off (h : m .sk) (s : State) (x : Thread) (t : Nat) (w : Nat) : (memLearn s x t w).2.off m = s.off m := by
  grind [memLearn, State.modTh_off]

@[simp] theorem memBind_off (h : m .dict ∧ m .fm ∧ m .hbm ∧ m .sk ∧ m .cu ∧ m .fsu) (s : State) (x : Thread) (t : Nat) (w : Nat) : (memBind s x t w).2.off m = s.off m := by
  grind [memBind, leapBind_off]

@[simp] theorem memWrite_off (h : m .dict ∧ m .fm ∧ m .sk ∧ m .fsu) (s : State) (x : Thread) (t : Nat) (w : Nat) (k : WKind) : (memWrite s x t w k).2.off m = s.off m := by
  simp only [memWrite]
  (repeat' split) <;> simp [h]

@[simp] theorem memOp_off (h : m .dict ∧ m .fm ∧ m .hbm ∧ m .sk ∧ m .cu ∧ m .fsu ∧ m .free) (s : State) (x : Thread) (t : Nat) (w : Nat) : (memOp s x t w).2.off m = s.off m := by
  grind [memOp, leapRead_off, leapAbort_off, memScratch_off, memHeader_off, memHash_off, memLookup_off, memLearn_off, memBind_off, memWrite_off]

@[simp] theorem runFields_off (h : m .dict ∧ m .fm ∧ m .hbm ∧ m .sk ∧ m .cu ∧ m .fsu ∧ m .free) (s : State) (t : Nat) (w : Nat) : (runFields s t w).2.off m = s.off m := by
  grind [runFields, State.setTh_off, memOp_off]

@[simp] theorem bindBreaks_off (h : m .dict ∧ m .sk ∧ m .dbg) (s : State) (x : Thread) (y : Thread) (t : Nat) (w : Nat) : (bindBreaks s x y t w).off m = s.off m := by
  simp only [bindBreaks]; (repeat' split) <;> simp [*]

@[simp] theorem opRow_off (h : m .dict ∧ m .fm ∧ m .str ∧ m .hbm ∧ m .hue ∧ m .sk ∧ m .cu ∧ m .fsu ∧ m .dbg ∧ m .free) (t : Nat) (w : Nat) (s : State) : (opRow t w s).off m = s.off m := by
  simp only [opRow]
  split_ifs <;> simp [h]

@[simp] theorem State.csDamaged_off (h : m .dict ∧ m .sk) (s : State) (c : Nat) (item : Nat) : (s.csDamaged c item).off m = s.off m := by
  simp [State.csDamaged, h]

@[simp] theorem parityCheck_off (h : m .dict ∧ m .fm ∧ m .str ∧ m .hbm ∧ m .hue ∧ m .sk ∧ m .fsu ∧ m .dbg) (s : State) (t : Nat) (item : Nat) : (parityCheck s t item).off m = s.off m := by
  simp [parityCheck, h]

@[simp] theorem flipBit_off (h : m .sk) (s : State) (c : Nat) (item : Nat) (b : Nat) : (flipBit s c item b).off m = s.off m := by
  simp [flipBit, h]

@[simp] theorem takeEntry_off (h : m .dict ∧ m .fm ∧ m .str ∧ m .hbm ∧ m .hue ∧ m .sk ∧ m .cu ∧ m .fsu ∧ m .dbg ∧ m .free) (s : State) (t : Nat) (entry : Nat) (err : IssueErr) : (takeEntry s t entry err).off m = s.off m := by
  simp only [takeEntry]; split <;> simp [*]

@[simp] theorem haltRun_off (h : m .dict ∧ m .fm ∧ m .str ∧ m .hbm ∧ m .hue ∧ m .tbl ∧ m .sk ∧ m .cu ∧ m .dbg) (s : State) (t : Nat) : (haltRun s t).off m = s.off m := by
  simp only [haltRun]; (repeat' split) <;> simp [*]

@[simp] theorem afterWord_off (h : m .dict ∧ m .fm ∧ m .str ∧ m .hbm ∧ m .hue ∧ m .sk ∧ m .cu ∧ m .fsu ∧ m .dbg ∧ m .free) (s : State) (t : Nat) (_w : Nat) : (afterWord s t _w).off m = s.off m := by
  simp [afterWord, h]

@[simp] theorem wordBreaks_off (h : m .dict ∧ m .sk ∧ m .dbg) (s : State) (x : Thread) (y : Thread) (t : Nat) (w : Nat) : (wordBreaks s x y t w).off m = s.off m := by
  simp [wordBreaks, h]

@[simp] theorem State.lastIssued_off (h : m .sk) (s : State) (t : Nat) : (s.lastIssued t).off m = s.off m := by
  simp [State.lastIssued, h]

@[simp] theorem issueWord_off (h : m .dict ∧ m .fm ∧ m .str ∧ m .hbm ∧ m .hue ∧ m .tbl ∧ m .sk ∧ m .cu ∧ m .fsu ∧ m .dbg ∧ m .free) (s : State) (t : Nat) (w : Nat) (err : IssueErr) : (issueWord s t w err).off m = s.off m := by
  simp only [issueWord]
  (repeat' split) <;> simp [h]

@[simp] theorem issueRow_off (h : m .dict ∧ m .fm ∧ m .str ∧ m .hbm ∧ m .hue ∧ m .tbl ∧ m .sk ∧ m .cu ∧ m .fsu ∧ m .dbg ∧ m .free) (nxt : Nat) (t : Nat) (err : IssueErr) (s : State) : (issueRow nxt t err s).off m = s.off m := by
  unfold issueRow
  extract_lets r x c u w y
  have hu : u.off m = s.off m := by
    simp only [u, r]
    split <;> simp [h]
  clear_value u w
  split
  · simp [r, h]
  split
  · simp [hu, h]
  split
  · exact hu
  have hy : y.off m = s.off m := by
    simp only [y]
    split <;> simp [hu, h]
  clear_value y
  split_ifs <;> simp [hy, h]

@[simp] theorem contextLoaded_off (h : m .dict ∧ m .fm ∧ m .str ∧ m .hbm ∧ m .hue ∧ m .sk ∧ m .cu ∧ m .fsu ∧ m .dbg ∧ m .free) (s : State) (t : Nat) (err : IssueErr) : (contextLoaded s t err).off m = s.off m := by
  simp [contextLoaded, h]

@[simp] theorem writeResult_off (h : m .sk) (s : State) (t : Nat) (i : Nat) (p : Pend) (v : List Nat) : (writeResult s t i p v).off m = s.off m := by
  simp [writeResult, h]

@[simp] theorem lookupDrop_off (h : m .dict ∧ m .sk ∧ m .cu ∧ m .fsu ∧ m .free) (s : State) (t : Nat) (i : Nat) (p : Pend) : (lookupDrop s t i p).off m = s.off m := by
  simp [lookupDrop, h]

@[simp] theorem serveLookup_off (h : m .fm ∧ m .tbl) (s : State) (x : Thread) (op : Nat) (mimm : Nat) (k0 : Nat) (k1 : Nat) (ecc : WordEcc) (pos : Nat) : (serveLookup s x op mimm k0 k1 ecc pos).2.off m = s.off m := by
  simp only [serveLookup]; split <;> simp [*]

@[simp] theorem serveRead_off (h : m .sk) (s : State) (t : Nat) (i : Nat) (p : Pend) (hnd : Nat) (seg : Nat) (ops : Nat) : (serveRead s t i p hnd seg ops).off m = s.off m := by
  simp only [serveRead]; (repeat' split) <;> simp [*]

@[simp] theorem operationResult_off (h : m .dict ∧ m .fm ∧ m .str ∧ m .hbm ∧ m .hue ∧ m .tbl ∧ m .sk ∧ m .cu ∧ m .fsu ∧ m .dbg ∧ m .free) (s : State) (t : Nat) (i : Nat) (word : WordEcc) (pos : Nat) (fsu : FsuEcc) : (operationResult s t i word pos fsu).off m = s.off m := by
  simp only [operationResult]
  split
  · rfl
  split
  · rfl
  · simp [h]
  · split <;> simp [h]
  · split
    all_goals
      next e =>
        have served := (State.off_of_eq (m := m) e).trans (serveLookup_off ⟨h.2.1, h.2.2.2.2.2.1⟩ ..)
        simp [h, served]
  · simp [h]

@[simp] theorem lockWaitTimeout_off (h : m .dict ∧ m .fm ∧ m .str ∧ m .host ∧ m .hbm ∧ m .hue ∧ m .tbl ∧ m .sk ∧ m .cu ∧ m .fsu ∧ m .dbg ∧ m .outbox ∧ m .free) (s : State) (t : Nat) : (lockWaitTimeout s t).off m = s.off m := by
  simp only [lockWaitTimeout]; (repeat' split) <;> simp [*]

@[simp] theorem sprayWait_off (h : m .fm ∧ m .sk) (s : State) (p : Nat) (quota : Bool) : (sprayWait s p quota).off m = s.off m := by
  simp [sprayWait, h]

@[simp] theorem sprayGo_off (h : m .dict ∧ m .sk) (s : State) (p : Nat) : (sprayGo s p).off m = s.off m := by
  simp only [sprayGo]; split <;> simp [*]

@[simp] theorem takePacket_off (h : m .dict ∧ m .sk ∧ m .cu) (s : State) (p : Nat) (pkt : Packet) (sf : Bool) : (takePacket s p pkt sf).2.off m = s.off m := by
  simp only [takePacket]
  rw [State.wr_off h.1, State.addClaim_off (by simp [h])]
  simp [State.off, h]

@[simp] theorem sprayReplay_off (h : m .dict ∧ m .fm ∧ m .hue ∧ m .sk ∧ m .cu ∧ m .dbg) (s : State) (p : Nat) (j : Job) (rest : List Job) : (sprayReplay s p j rest).off m = s.off m := by
  simp only [sprayReplay]; (repeat' split) <;> simp [*]

@[simp] theorem spray_off (h : m .dict ∧ m .fm ∧ m .hue ∧ m .sk ∧ m .cu ∧ m .dbg) (s : State) (p : Nat) : (spray s p).off m = s.off m := by
  simp only [spray]; (repeat' split) <;> simp [*]

@[simp] theorem sprayStall_off (h : m .fm ∧ m .sk) (s : State) (p : Nat) : (sprayStall s p).off m = s.off m := by
  simp only [sprayStall]; split <;> simp [*]

@[simp] theorem markLate_off (h : m .sk) (s : State) (p : Nat) (id : Nat) : (markLate s p id).off m = s.off m := by
  simp [markLate, h]

@[simp] theorem reorderTimeout_off (h : m .dict ∧ m .fm ∧ m .sk) (s : State) (p : Nat) : (reorderTimeout s p).off m = s.off m := by
  simp only [reorderTimeout]; split <;> simp [*]

@[simp] theorem sfClear_off (h : m .dict ∧ m .sk ∧ m .dbg) (s : State) (i : Nat) : (sfClear s i).off m = s.off m := by
  simp only [sfClear]; split <;> simp [*]

@[simp] theorem sfWrite_off (h : m .dict ∧ m .sk ∧ m .dbg) (c : Ctx) (v : Nat) (s : State) : (sfWrite c v s).off m = s.off m := by
  simp only [sfWrite]
  split
  · split
    · simp [h]
    · cases e : s.sfMake (s.rdCtx c Objs.sf_select) (fld v 0 32) (fld v 32 32) (bit v 126) with
      | none => rfl
      | some u => exact State.sfMake_off (by simp [h]) _ _ _ _ _ e
  · simp [h]

@[simp] theorem sfRefused_off (h : m .fm) (k : Code) (s : State) : (sfRefused k s).off m = s.off m := by
  simp [sfRefused, h]

@[simp] theorem sfIdle_off (h : m .dict ∧ m .sk ∧ m .dbg) (s : State) (i : Nat) : (sfIdle s i).off m = s.off m := by
  simp only [sfIdle]; (repeat' split) <;> simp [*]

@[simp] theorem State.clutchesLow_off (h : m .fm) (s : State) (before : Nat) : (s.clutchesLow before).off m = s.off m := by
  simp only [State.clutchesLow]; split <;> simp [*]

@[simp] theorem drainStart_off (h : m .dict ∧ m .fm ∧ m .sk ∧ m .dbg) (c : Nat) (s : State) : (drainStart c s).off m = s.off m := by
  simp [drainStart, h]

@[simp] theorem clearHalts_off (h : m .dict ∧ m .dbg) (s : State) (threads : List Nat) (c : Nat) : (clearHalts s threads c).off m = s.off m := by
  simp [clearHalts, h]

@[simp] theorem returnPackets_off (h : m .dict ∧ m .fm ∧ m .str ∧ m .hbm ∧ m .hue ∧ m .sk ∧ m .fsu ∧ m .dbg) (s : State) (threads : List Nat) : (returnPackets s threads).off m = s.off m := by
  simp [returnPackets, h]

@[simp] theorem State.isolateSkink_off (h : m .dict ∧ m .fm ∧ m .str ∧ m .hbm ∧ m .hue ∧ m .sk ∧ m .fsu ∧ m .dbg) (s : State) (k : Nat) : (s.isolateSkink k).off m = s.off m := by
  simp only [State.isolateSkink]; split <;> simp [*]

@[simp] theorem State.isolateClutch_off (h : m .dict ∧ m .fm ∧ m .str ∧ m .hbm ∧ m .hue ∧ m .sk ∧ m .fsu ∧ m .dbg) (s : State) (c : Nat) : (s.isolateClutch c).off m = s.off m := by
  simp only [State.isolateClutch]; split <;> simp [*]

@[simp] theorem State.clearSkink_off (h : m .sk) (s : State) (k : Nat) : (s.clearSkink k).off m = s.off m := by
  simp [State.clearSkink, h]

@[simp] theorem State.setRule_off (h : m .hbm ∧ m .hue) (s : State) (i : Nat) (t : Tagged) : (s.setRule i t).off m = s.off m := by
  simp [State.setRule, h]

@[simp] theorem State.putRuleHeader_off (h : m .hbm ∧ m .hue) (s : State) (i : Nat) (x : Nat) : (s.putRuleHeader i x).off m = s.off m := by
  simp [State.putRuleHeader, h]

@[simp] theorem State.putRulePart_off (h : m .hbm ∧ m .hue) (s : State) (i : Nat) (k : Nat) (x : Nat) : (s.putRulePart i k x).off m = s.off m := by
  simp [State.putRulePart, h]

@[simp] theorem State.setPatSet_off (h : m .hbm ∧ m .pat) (s : State) (i : Nat) (t : Tagged) : (s.setPatSet i t).off m = s.off m := by
  simp [State.setPatSet, h]

@[simp] theorem setPartApply_off (h : m .hbm ∧ m .pat) (c : Ctx) (k : Nat) (x : Nat) (s : State) : (setPartApply c k x s).off m = s.off m := by
  simp [setPartApply, h]

@[simp] theorem State.putWord_off (h : m .hbm ∧ m .pat) (s : State) (w : Nat) (x : Nat) : (s.putWord w x).off m = s.off m := by
  simp [State.putWord, h]

@[simp] theorem State.setTmplSlot_off (h : m .hbm ∧ m .fsu) (s : State) (i : Nat) (t : Tagged) : (s.setTmplSlot i t).off m = s.off m := by
  simp [State.setTmplSlot, h]

@[simp] theorem tmplDescApply_off (h : m .hbm ∧ m .fsu) (c : Ctx) (x : Nat) (s : State) : (tmplDescApply c x s).off m = s.off m := by
  simp [tmplDescApply, h]

@[simp] theorem State.modBank0_off (h : m .hbm ∧ m .hue ∧ m .sk) (s : State) (i : Nat) (f : Nat → Nat) : (s.modBank0 i f).off m = s.off m := by
  simp [State.modBank0, h]

@[simp] theorem State.stageValue_off (h : m .hue) (s : State) (k : Nat) (x : Nat) : (s.stageValue k x).off m = s.off m := by
  simp [State.stageValue, h]

@[simp] theorem commitRefused_off (h : m .dict ∧ m .fm) (c : Ctx) (k : Code) (s : State) : (commitRefused c k s).off m = s.off m := by
  simp [commitRefused, h]

@[simp] theorem State.hueAbort_off (h : m .hbm ∧ m .pat ∧ m .hue ∧ m .sk ∧ m .fsu) (s : State) : (s.hueAbort).off m = s.off m := by
  simp only [State.hueAbort]
  rw [State.off_foldl fun s i => State.modBank0_off (by simp [h]) ..]
  simp [State.off, h]

@[simp] theorem State.advanceHue_off (h : m .dict ∧ m .hue) (s : State) : (s.advanceHue).off m = s.off m := by
  simp only [State.advanceHue]
  rw [Sys2Proof.Machine.reclaim_off h, State.wr_off h.1, State.off_with_hue h.2]
  simp [h]

@[simp] theorem hueDrain_off (h : m .fm ∧ m .hue) (s : State) (h' : Nat) : (hueDrain s h').off m = s.off m := by
  simp only [hueDrain]; split <;> simp [*]

@[simp] theorem State.scrubAt_off (h : m .pat ∧ m .hue ∧ m .sk ∧ m .fsu) (s : State) (k : Nat) : (s.scrubAt k).off m = s.off m := by
  simp [State.scrubAt, h]

@[simp] theorem hueScrub_off (h : m .dict ∧ m .pat ∧ m .hue ∧ m .sk ∧ m .fsu) (s : State) : (hueScrub s).off m = s.off m := by
  simp [hueScrub, h]

@[simp] theorem State.setEngine_off (h : m .pat) (s : State) (e : Nat) (x : PatEngine) : (s.setEngine e x).off m = s.off m := by
  simp [State.setEngine, h]

@[simp] theorem State.joinDrop_off (h : m .dict ∧ m .hue ∧ m .sk) (s : State) (pipe : Nat) (pid : Nat) : (s.joinDrop pipe pid).off m = s.off m := by
  simp [State.joinDrop, h]

@[simp] theorem State.handOver_off (h : m .dict ∧ m .fm ∧ m .pat ∧ m .hue ∧ m .sk) (s : State) (w : Window) (avoid : Option Nat) : (s.handOver w avoid).off m = s.off m := by
  simp only [State.handOver]; split <;> simp [*]

@[simp] theorem State.rerun_off (h : m .dict ∧ m .fm ∧ m .pat ∧ m .hue ∧ m .sk) (s : State) (w : Window) (avoid : Option Nat) : (s.rerun w avoid).off m = s.off m := by
  simp [State.rerun, h]

@[simp] theorem State.isolateEngine_off (h : m .dict ∧ m .fm ∧ m .pat ∧ m .hue ∧ m .sk) (s : State) (e : Nat) : (s.isolateEngine e).off m = s.off m := by
  simp [State.isolateEngine, h]

@[simp] theorem State.readmitEngine_off (h : m .dict) (s : State) (e : Nat) : (s.readmitEngine e).off m = s.off m := by
  simp [State.readmitEngine, h]

@[simp] theorem State.parseDrop_off (h : m .dict ∧ m .hue) (s : State) (k : Packet) : (s.parseDrop k).off m = s.off m := by
  simp [State.parseDrop, h]

@[simp] theorem State.ruleDrop_off (h : m .dict ∧ m .fm ∧ m .hue) (s : State) (k : Packet) (pipe : Nat) (slot : Nat) : (s.ruleDrop k pipe slot).off m = s.off m := by
  simp [State.ruleDrop, h]

@[simp] theorem State.classifyPacket_off (h : m .dict ∧ m .fm ∧ m .hbm ∧ m .pat ∧ m .hue ∧ m .sk ∧ m .fsu) (s : State) (pipe : Nat) (k : Packet) (cfg : ParseCfg) (f : List Byte) (p : Parsed) : (s.classifyPacket pipe k cfg f p).off m = s.off m := by
  simp only [State.classifyPacket]; (repeat' split) <;> simp [*]

@[simp] theorem parsePacket_off (h : m .dict ∧ m .fm ∧ m .host ∧ m .hbm ∧ m .ports ∧ m .pat ∧ m .hue ∧ m .tbl ∧ m .sk ∧ m .fsu ∧ m .outbox) (s : State) (pipe : Nat) (err : ParseErr) : (parsePacket s pipe err).off m = s.off m := by
  unfold parsePacket; (repeat' split) <;> simp [*]

@[simp] theorem ruleRewrite_off (h : m .fm ∧ m .hue) (s : State) (i : Nat) (copy : CopyRead) : (ruleRewrite s i copy).off m = s.off m := by
  simp [ruleRewrite, h]

@[simp] theorem State.wordDrop_off (h : m .dict ∧ m .fm ∧ m .hue ∧ m .sk) (s : State) (w : Window) (word : Nat) : (s.wordDrop w word).off m = s.off m := by
  simp [State.wordDrop, h]

@[simp] theorem State.scanWindow_off (h : m .pat) (s : State) (e : Nat) (w : Window) : (s.scanWindow e w).off m = s.off m := by
  simp [State.scanWindow, h]

@[simp] theorem patternScan_off (h : m .dict ∧ m .fm ∧ m .pat ∧ m .hue ∧ m .sk) (s : State) (e : Nat) (err : PatErr) : (patternScan s e err).off m = s.off m := by
  simp only [patternScan]; (repeat' split) <;> simp [*]

@[simp] theorem patternResult_off (h : m .dict ∧ m .fm ∧ m .pat ∧ m .sk) (s : State) (e : Nat) : (patternResult s e).off m = s.off m := by
  simp only [patternResult]; split <;> simp [*]

@[simp] theorem patRewrite_off (h : m .fm ∧ m .pat) (s : State) (w : Nat) (copy : CopyRead) : (patRewrite s w copy).off m = s.off m := by
  simp [patRewrite, h]

@[simp] theorem joinRelease_off (h : m .sk) (s : State) (pipe : Nat) : (joinRelease s pipe).off m = s.off m := by
  simp only [joinRelease]; split <;> simp [*]

end
end Sys2Proof.Machine
end

section
/-! The frames of the control store, the host interface, the debug unit, repairs and regrowth. -/

namespace Sys2Proof.Machine
section
variable {m : Piece → Bool}

@[simp] theorem State.endClaim_off (h : m .sk) (s : State) (c : Nat) : (s.endClaim c).off m = s.off m := by
  simp only [State.endClaim]; split <;> simp [*]

@[simp] theorem bufApply_off (h : m .dict ∧ m .sk ∧ m .buffer) (c : Ctx) (v : List Byte) (s : State) : (bufApply c v s).off m = s.off m := by
  simp [bufApply, h]

@[simp] theorem claimExpiry_off (h : m .sk) (s : State) : (claimExpiry s).off m = s.off m := by
  simp only [claimExpiry]; split <;> simp [*]

@[simp] theorem State.startLoad_off (h : m .sk) (s : State) (c : Nat) (g : Golden) (ring : Option Nat) (ctx : Option Nat) : (s.startLoad c g ring ctx).off m = s.off m := by
  simp [State.startLoad, h]

@[simp] theorem csLoadApply_off (h : m .dict ∧ m .sk) (c : Ctx) (x : Nat) (s : State) : (csLoadApply c x s).off m = s.off m := by
  simp only [csLoadApply]; split <;> simp [*]

@[simp] theorem State.freeGolden_off (h : m .sk) (s : State) : (s.freeGolden).off m = s.off m := by
  simp [State.freeGolden, h]

@[simp] theorem State.loadEnd_off (h : m .dict ∧ m .fm ∧ m .host ∧ m .tbl ∧ m .sk ∧ m .fsu ∧ m .outbox) (s : State) (l : CsLoad) (code : Nat) : (s.loadEnd l code).off m = s.off m := by
  simp only [State.loadEnd]; (repeat' split) <;> simp [*]

theorem State.off_with_sk_hbm (h : m .hbm ∧ m .sk) (s : State) (x : SkinkUnit) (y : Hbm) (hx : x.buffer = s.sk.buffer) (hy : y.sw = s.hbm.sw) :
    State.off m { s with sk := x, hbm := y } = s.off m := by
  simp [State.off, h, hx, hy]

@[simp] theorem State.loadStore_off (h : m .dict ∧ m .fm ∧ m .hbm ∧ m .sk) (s : State) (l : CsLoad) : (s.loadStore l).off m = s.off m := by
  simp only [State.loadStore]
  rw [State.raise_off h.2.1, State.goldenWrites_off h.2.2.1, State.freeGolden_off h.2.2.2, State.off_with_sk_hbm h.2.2]
  · simp [h]
  all_goals rfl

@[simp] theorem State.loadDmaError_off (h : m .dict ∧ m .fm ∧ m .host ∧ m .tbl ∧ m .sk ∧ m .fsu ∧ m .outbox) (s : State) (l : CsLoad) : (s.loadDmaError l).off m = s.off m := by
  simp only [State.loadDmaError]; split <;> simp [*]

@[simp] theorem csLoadDone_off (h : m .dict ∧ m .fm ∧ m .str ∧ m .host ∧ m .hbm ∧ m .hue ∧ m .tbl ∧ m .sk ∧ m .fsu ∧ m .dbg ∧ m .outbox) (s : State) (c : Nat) (mismatches : Nat) (second : SecondRead) : (csLoadDone s c mismatches second).off m = s.off m := by
  simp only [csLoadDone]; split <;> simp [*]

@[simp] theorem State.putDisp0_off (h : m .hbm ∧ m .hue ∧ m .sk) (s : State) (i : Nat) (x : Nat) : (s.putDisp0 i x).off m = s.off m := by
  simp [State.putDisp0, h]

theorem stageIf_off (k : Code) (s : State) {u : State} (e : stageIf k s = .ok u) : u.off m = s.off m := by
  grind [stageIf]

theorem stageRule_off (h : m .hbm ∧ m .hue) (s : State) (r : List Byte) {u : State} (e : stageRule s r = .ok u) : u.off m = s.off m := by
  simp only [stageRule] at e
  split_ifs at e
  · exact (stageIf_off _ _ e).trans (by simp [h])
  · cases e
    simp [h]

theorem stageSet_off (h : m .hbm ∧ m .pat) (s : State) (r : List Byte) {u : State} (e : stageSet s r = .ok u) : u.off m = s.off m := by
  simp only [stageSet] at e
  split_ifs at e <;> exact (stageIf_off _ _ e).trans (by simp [h])

theorem stageTmpl_off (h : m .hbm ∧ m .fsu) (s : State) (r : List Byte) {u : State} (e : stageTmpl s r = .ok u) : u.off m = s.off m := by
  grind [stageTmpl, State.setTmplSlot_off]

theorem stageRecord_off (h : m .hbm ∧ m .pat ∧ m .hue ∧ m .sk ∧ m .fsu) (s : State) (ty : Nat) (r : List Byte) {u : State} (e : stageRecord s ty r = .ok u) : u.off m = s.off m := by
  simp only [stageRecord] at e
  split at e
  · split at e <;> cases e
    simp [h]
  · exact stageRule_off (by simp [h]) _ _ e
  · split at e
    · cases e
    · exact (stageIf_off _ _ e).trans (by simp [h])
  · exact stageSet_off (by simp [h]) _ _ e
  · split at e
    · cases e
    · exact (stageIf_off _ _ e).trans (by simp [h])
  · exact stageTmpl_off (by simp [h]) _ _ e

@[simp] theorem stageRecords_off (h : m .hbm ∧ m .pat ∧ m .hue ∧ m .sk ∧ m .fsu) (ty k : Nat) (l : List (List Byte)) (s : State) :
    (stageRecords ty k l s).1.off m = s.off m := by
  induction l generalizing k s with
  | nil => rfl
  | cons r rest ih =>
    rw [stageRecords]
    split
    next e => rw [ih, stageRecord_off h _ _ _ e]
    · rfl

@[simp] theorem stageSections_off (h : m .hbm ∧ m .pat ∧ m .hue ∧ m .sk ∧ m .fsu) (n : Nat) (l : List Section) (s : State) :
    (stageSections n l s).1.off m = s.off m := by
  induction l generalizing n s with
  | nil => rfl
  | cons x rest ih =>
    have records := stageRecords_off h x.ty 0 x.recs s
    rw [stageSections]
    split
    all_goals
      next e =>
        rw [e] at records
        simp [ih, records]

@[simp] theorem stageImage_off (h : m .dict ∧ m .hbm ∧ m .pat ∧ m .hue ∧ m .sk ∧ m .fsu) (s : State) (b : List Byte) (limit : Nat) : (stageImage s b limit).1.off m = s.off m := by
  grind [stageImage, State.wr_off, State.stageValue_off, stageSections_off]

@[simp] theorem State.startStage_off (h : m .hue) (s : State) (ctx : Option Nat) (ring : Option Nat) (status : Nat) (result : Nat) : (s.startStage ctx ring status result).off m = s.off m := by
  simp [State.startStage, h]

@[simp] theorem State.stageEnd_off (h : m .dict ∧ m .fm ∧ m .host ∧ m .tbl ∧ m .sk ∧ m .fsu ∧ m .outbox) (s : State) (x : StageRun) : (s.stageEnd x).off m = s.off m := by
  simp only [State.stageEnd]; (repeat' split) <;> simp [*]

@[simp] theorem State.stageTick_off (h : m .dict ∧ m .fm ∧ m .host ∧ m .hue ∧ m .tbl ∧ m .sk ∧ m .fsu ∧ m .outbox) (s : State) : (s.stageTick).off m = s.off m := by
  simp [State.stageTick, h]

@[simp] theorem hueLoadApply_off (h : m .dict ∧ m .hbm ∧ m .pat ∧ m .hue ∧ m .sk ∧ m .fsu) (c : Ctx) (n : Nat) (s : State) : (hueLoadApply c n s).off m = s.off m := by
  simp [hueLoadApply, h]

@[simp] theorem repairBank0_off (h : m .sk) (s : State) (c : Nat) : (repairBank0 s c).off m = s.off m := by
  simp [repairBank0, h]

@[simp] theorem reloadClutch_off (h : m .dict ∧ m .fm ∧ m .str ∧ m .hbm ∧ m .hue ∧ m .sk ∧ m .fsu ∧ m .dbg) (s : State) (c : Nat) (found : CopyRead) (mismatches : Nat) : (reloadClutch s c found mismatches).off m = s.off m := by
  simp only [reloadClutch]; split_ifs <;> simp [*]

@[simp] theorem csRepair_off (h : m .dict ∧ m .fm ∧ m .str ∧ m .hbm ∧ m .hue ∧ m .sk ∧ m .fsu ∧ m .dbg) (s : State) (c : Nat) (copy : CopyRead) (mismatches : Nat) : (csRepair s c copy mismatches).off m = s.off m := by
  simp [csRepair, h]

@[simp] theorem State.ctxEnd_off (h : m .dict ∧ m .fm ∧ m .tbl ∧ m .sk ∧ m .fsu) (s : State) (n : Nat) : (s.ctxEnd n).off m = s.off m := by
  simp [State.ctxEnd, h]

@[simp] theorem State.setDr_off (h : m .host) (s : State) (r : Nat) (x : DelRing) : (s.setDr r x).off m = s.off m := by
  simp [State.setDr, h]

@[simp] theorem State.dropDelivery_off (h : m .dict ∧ m .fm ∧ m .host ∧ m .hue) (s : State) (it : DItem) : (s.dropDelivery it).off m = s.off m := by
  simp only [State.dropDelivery]; split <;> simp [*]

@[simp] theorem State.dropAllItems_off (h : m .dict ∧ m .fm ∧ m .host ∧ m .hue) (s : State) : (s.dropAllItems).off m = s.off m := by
  simp [State.dropAllItems, h]

@[simp] theorem State.publish_off (h : m .host ∧ m .outbox) (s : State) (r : Nat) (e : Nat) : (s.publish r e).off m = s.off m := by
  simp [State.publish, h]

@[simp] theorem State.signal_off (h : m .host ∧ m .outbox) (s : State) (r : Nat) : (s.signal r).off m = s.off m := by
  simp [State.signal, h]

@[simp] theorem State.writeItem_off (h : m .dict ∧ m .host ∧ m .hue ∧ m .outbox) (s : State) (it : DItem) (entry : Nat) : (s.writeItem it entry).2.off m = s.off m := by
  simp only [State.writeItem]; (repeat' split) <;> simp [*]

@[simp] theorem deliverHeld_off (h : m .dict ∧ m .fm ∧ m .host ∧ m .hue ∧ m .outbox) (s : State) (r : Nat) (entry : Nat) (bad : Bool) (it : DItem) (rest : List DItem) : (deliverHeld s r entry bad it rest).off m = s.off m := by
  grind [deliverHeld, State.setDr_off, State.dropDelivery_off, State.writeItem_off]

@[simp] theorem deliverNew_off (h : m .dict ∧ m .fm ∧ m .host ∧ m .hue ∧ m .outbox) (s : State) (r : Nat) (entry : Nat) (bad : Bool) (it : DItem) (rest : List DItem) : (deliverNew s r entry bad it rest).off m = s.off m := by
  grind [deliverNew, State.off_with_host, State.setDr_off, State.dropDelivery_off, State.writeItem_off]

@[simp] theorem deliverItem_off (h : m .dict ∧ m .fm ∧ m .host ∧ m .hue ∧ m .outbox) (s : State) (r : Nat) (entry : Nat) (bad : Bool) : (deliverItem s r entry bad).off m = s.off m := by
  simp only [deliverItem]; (repeat' split) <;> simp [*]

@[simp] theorem dlvHoldExpiry_off (h : m .dict ∧ m .fm ∧ m .host ∧ m .hue) (s : State) (r : Nat) : (dlvHoldExpiry s r).off m = s.off m := by
  simp only [dlvHoldExpiry]; split <;> simp [*]

@[simp] theorem coalTimer_off (h : m .host ∧ m .outbox) (s : State) (r : Nat) : (coalTimer s r).off m = s.off m := by
  simp [coalTimer, h]

@[simp] theorem State.dropInjected_off (h : m .dict ∧ m .ports ∧ m .hue ∧ m .tm) (s : State) : (s.dropInjected).off m = s.off m := by
  simp only [State.dropInjected]
  rw [State.off_foldl fun s it => State.holdEnd_off (by simp [h]) ..]
  simp [State.off, h]

theorem State.off_forget (h : m .ports ∧ m .hue ∧ m .tm ∧ m .tbl ∧ m .sk ∧ m .fsu) (s : State) (f : Fsu) (t : TableUnit) (k : SkinkUnit)
    (u : HueUnit) (p : PortUnit) (q : TmUnit) (hk : k.buffer = s.sk.buffer) :
    State.off m { s with fsu := f, tbl := t, sk := k, hue := u, ports := p, tm := q } = s.off m := by
  simp [State.off, h, hk]

@[simp] theorem State.forgetRings_off (h : m .ports ∧ m .hue ∧ m .tm ∧ m .tbl ∧ m .sk ∧ m .fsu) (s : State) : (s.forgetRings).off m = s.off m :=
  State.off_forget h _ _ _ _ _ _ _ rfl

@[simp] theorem State.releaseAll_off (h : m .dict ∧ m .fm ∧ m .tbl ∧ m .sk ∧ m .fsu) (s : State) : (s.releaseAll).off m = s.off m := by
  simp [State.releaseAll, h]

@[simp] theorem State.hostHalt_off (h : m .dict ∧ m .fm ∧ m .host ∧ m .ports ∧ m .hue ∧ m .tm ∧ m .tbl ∧ m .sk ∧ m .fsu ∧ m .outbox) (s : State) (cause : Nat) (ring : Nat) : (s.hostHalt cause ring).off m = s.off m := by
  simp [State.hostHalt, h]

@[simp] theorem ringFault_off (h : m .dict ∧ m .fm ∧ m .host ∧ m .ports ∧ m .hue ∧ m .tm ∧ m .tbl ∧ m .sk ∧ m .fsu ∧ m .outbox) (s : State) (r : Nat) (dlv : Bool) (f : RingFault) : (ringFault s r dlv f).off m = s.off m := by
  simp only [ringFault]; split <;> simp [*]

@[simp] theorem State.dbIgnored_off (h : m .dict ∧ m .fm) (s : State) (r : Nat) (unit : Nat) : (s.dbIgnored r unit).off m = s.off m := by
  simp [State.dbIgnored, h]

@[simp] theorem crDoorbell_off (h : m .dict ∧ m .fm ∧ m .host ∧ m .ports ∧ m .hue ∧ m .tm ∧ m .tbl ∧ m .sk ∧ m .fsu ∧ m .outbox) (s : State) (r : Nat) (d : Nat) : (crDoorbell s r d).off m = s.off m := by
  simp [crDoorbell, h]

@[simp] theorem drDoorbell_off (h : m .dict ∧ m .fm ∧ m .host ∧ m .ports ∧ m .hue ∧ m .tm ∧ m .tbl ∧ m .sk ∧ m .fsu ∧ m .outbox) (s : State) (r : Nat) (d : Nat) : (drDoorbell s r d).off m = s.off m := by
  simp [drDoorbell, h]

@[simp] theorem brDoorbell_off (h : m .dict ∧ m .fm ∧ m .host ∧ m .ports ∧ m .hue ∧ m .tm ∧ m .tbl ∧ m .sk ∧ m .fsu ∧ m .outbox) (s : State) (r : Nat) (d : Nat) : (brDoorbell s r d).off m = s.off m := by
  simp [brDoorbell, h]

@[simp] theorem crStop_off (h : m .dict ∧ m .fm ∧ m .host ∧ m .tbl ∧ m .sk ∧ m .fsu ∧ m .outbox) (s : State) (r : Nat) (posted : List Nat) : (crStop s r posted).off m = s.off m := by
  simp only [crStop]; (repeat' split) <;> simp [*]

@[simp] theorem State.hostReg_off (h : m .dict ∧ m .host ∧ m .outbox) (s : State) (x : HostReg) : (s.hostReg x).off m = s.off m := by
  simp only [State.hostReg]; split <;> simp [*]

@[simp] theorem crCtrlWrite_off (h : m .dict ∧ m .fm ∧ m .host ∧ m .ports ∧ m .hue ∧ m .tm ∧ m .tbl ∧ m .sk ∧ m .fsu ∧ m .outbox) (s : State) (r : Nat) (base : Nat) (wb : Nat) (v : Nat) (posted : List Nat) : (crCtrlWrite s r base wb v posted).off m = s.off m := by
  simp [crCtrlWrite, h]

@[simp] theorem State.drDisable_off (h : m .dict ∧ m .fm ∧ m .host ∧ m .hue) (s : State) (r : Nat) : (s.drDisable r).off m = s.off m := by
  simp [State.drDisable, h]

@[simp] theorem drCtrlWrite_off (h : m .dict ∧ m .fm ∧ m .host ∧ m .ports ∧ m .hue ∧ m .tm ∧ m .tbl ∧ m .sk ∧ m .fsu ∧ m .outbox) (s : State) (r : Nat) (g : DelRegs) (v : Nat) : (drCtrlWrite s r g v).off m = s.off m := by
  simp [drCtrlWrite, h]

@[simp] theorem State.hostReset_off (h : m .dict ∧ m .fm ∧ m .host ∧ m .ports ∧ m .hue ∧ m .tm ∧ m .tbl ∧ m .sk ∧ m .fsu) (s : State) : (s.hostReset).off m = s.off m := by
  have ends : ((s.releaseAll.forgetRings.dropAllItems.wr Objs.hi_state 0 0).ctxEnd 0).off m = s.off m := by simp [h]
  rw [← ends]
  simp [State.hostReset, State.off, h]

@[simp] theorem State.hostTrigger_off (h : m .dict ∧ m .fm ∧ m .host ∧ m .ports ∧ m .hue ∧ m .tm ∧ m .tbl ∧ m .sk ∧ m .fsu) (s : State) (src : Nat) : (s.hostTrigger src).off m = s.off m := by
  simp [State.hostTrigger, h]

theorem cmdStart_off (h : m .dict ∧ m .fm ∧ m .host ∧ m .tbl ∧ m .sk ∧ m .fsu ∧ m .outbox) {body : State → State}
    (hbody : ∀ s, (body s).off m = s.off m) (s : State) (r e : Nat) (buf : List Byte) (dma : Dma) (mine : Bool) :
    (cmdStart s r e buf dma mine body).off m = s.off m := by
  simp only [cmdStart]
  split_ifs
  · split <;> simp [h, hbody]
  · rfl
  · rfl

@[simp] theorem State.cmdWait_off (h : m .host) (s : State) (r : Nat) (e : Nat) (w : RingWait) : (s.cmdWait r e w).off m = s.off m := by
  simp [State.cmdWait, h]

@[simp] theorem State.cmdDmaError_off (h : m .dict ∧ m .fm ∧ m .host ∧ m .tbl ∧ m .sk ∧ m .fsu ∧ m .outbox) (s : State) (r : Nat) (e : Nat) (result : Nat) : (s.cmdDmaError r e result).off m = s.off m := by
  simp [State.cmdDmaError, h]

@[simp] theorem State.cmdEnd_off (h : m .dict ∧ m .fm ∧ m .host ∧ m .tbl ∧ m .sk ∧ m .fsu ∧ m .outbox) (s : State) (r : Nat) (e : Nat) (status : Nat) (result : Nat) (dma : Dma) : (s.cmdEnd r e status result dma).off m = s.off m := by
  simp [State.cmdEnd, h]

@[simp] theorem pktInject_off (h : m .dict ∧ m .fm ∧ m .host ∧ m .ports ∧ m .hue ∧ m .tm ∧ m .tbl ∧ m .sk ∧ m .fsu ∧ m .outbox) (s : State) (r : Nat) (e : Nat) (buf : List Byte) (dma : Dma) : (pktInject s r e buf dma).off m = s.off m := by
  simp only [pktInject]; split <;> simp [*]

@[simp] theorem itemServed_off (h : m .dict ∧ m .fm ∧ m .hbm ∧ m .fsu) (target : Nat) (index : Nat) (buf : List Byte) (s : State) : (itemServed target index buf s).off m = s.off m := by
  simp [itemServed, h]

@[simp] theorem itemRead_off (h : m .fm ∧ m .tbl ∧ m .free) (s : State) (target : Nat) (index : Nat) (buf : List Byte) (ecc : WordEcc) : (itemRead s target index buf ecc).2.2.off m = s.off m := by
  simp only [itemRead]; split <;> simp [*]

@[simp] theorem readItems_off (h : m .dict ∧ m .fm ∧ m .hbm ∧ m .tbl ∧ m .fsu ∧ m .free) (target index : Nat) (buf : List Byte)
    (words : List WordEcc) (n i : Nat) (s : State) : (readItems target index buf words n i s).2.2.2.off m = s.off m := by
  induction n generalizing i s with
  | zero => rfl
  | succ n ih =>
    have read {k d u} (e : itemRead (itemServed target (index + i) buf s) target (index + i) buf (words.getD i .good) = (k, d, u)) :
        u.off m = s.off m := by
      have := itemRead_off (m := m) (by simp [h]) (itemServed target (index + i) buf s) target (index + i) buf (words.getD i .good)
      rw [e] at this
      exact this.trans (itemServed_off (by simp [h]) ..)
    simp only [readItems]
    split
    all_goals
      next e => simp [ih, read e]

@[simp] theorem tblDmaRead_off (h : m .dict ∧ m .fm ∧ m .host ∧ m .hbm ∧ m .tbl ∧ m .sk ∧ m .fsu ∧ m .outbox ∧ m .free) (s : State) (r : Nat) (e : Nat) (buf : List Byte) (words : List WordEcc) (dma : Dma) : (tblDmaRead s r e buf words dma).off m = s.off m := by
  simp [tblDmaRead, h]

@[simp] theorem itemWrite_off (h : m .dict ∧ m .fm ∧ m .hbm ∧ m .tbl ∧ m .fsu) (s : State) (target : Nat) (index : Nat) (buf : List Byte) (data : List Byte) (o : Owner) : (itemWrite s target index buf data o).2.off m = s.off m := by
  simp only [itemWrite]; split <;> simp [*]

@[simp] theorem writeItems_off (h : m .dict ∧ m .fm ∧ m .hbm ∧ m .tbl ∧ m .fsu) (target index : Nat) (buf : List Byte) (o : Owner)
    (held n i : Nat) (s : State) : (writeItems target index buf o held n i s).2.2.off m = s.off m := by
  induction n generalizing i s with
  | zero => rfl
  | succ n ih =>
    simp only [writeItems]
    split_ifs
    · rfl
    · split
      all_goals
        next e => simp [ih, (State.off_of_eq (m := m) e).trans (itemWrite_off h ..)]

@[simp] theorem tblDmaWrite_off (h : m .dict ∧ m .fm ∧ m .host ∧ m .hbm ∧ m .tbl ∧ m .sk ∧ m .fsu ∧ m .outbox) (s : State) (r : Nat) (e : Nat) (buf : List Byte) (dma : Dma) : (tblDmaWrite s r e buf dma).off m = s.off m := by
  have wrote := writeItems_off (m := m) (by simp [h]) (entTarget e) (entIndex e) buf (.ring r) (dmaReadable dma (entLen e)) (entCount e) 0 s
  simp only [tblDmaWrite]
  split_ifs <;> simp [h, wrote]

@[simp] theorem tblDmaInsert_off (h : m .dict ∧ m .fm ∧ m .host ∧ m .hbm ∧ m .tbl ∧ m .sk ∧ m .fsu ∧ m .outbox) (s : State) (r : Nat) (e : Nat) (buf : List Byte) (dma : Dma) : (tblDmaInsert s r e buf dma).off m = s.off m := by
  grind [tblDmaInsert, State.cmdComplete_off, flowInsert_off, State.cmdWait_off, State.cmdDmaError_off]

@[simp] theorem tblDmaDelete_off (h : m .dict ∧ m .fm ∧ m .host ∧ m .hbm ∧ m .tbl ∧ m .sk ∧ m .fsu ∧ m .outbox) (s : State) (r : Nat) (e : Nat) (buf : List Byte) (dma : Dma) : (tblDmaDelete s r e buf dma).off m = s.off m := by
  simp [tblDmaDelete, h]

@[simp] theorem tblLock_off (h : m .dict ∧ m .fm ∧ m .host ∧ m .hbm ∧ m .tbl ∧ m .sk ∧ m .fsu ∧ m .outbox) (s : State) (r : Nat) (e : Nat) (buf : List Byte) (dma : Dma) : (tblLock s r e buf dma).off m = s.off m := by
  grind [tblLock, State.cmdComplete_off, macLock_off, flowLock_off, State.cmdWait_off, State.cmdDmaError_off]

@[simp] theorem tblUnlock_off (h : m .dict ∧ m .fm ∧ m .host ∧ m .tbl ∧ m .sk ∧ m .fsu ∧ m .outbox) (s : State) (r : Nat) (e : Nat) (buf : List Byte) (dma : Dma) : (tblUnlock s r e buf dma).off m = s.off m := by
  simp only [tblUnlock]; split_ifs <;> simp [*]

@[simp] theorem tblSearch_off (h : m .dict ∧ m .fm ∧ m .host ∧ m .hbm ∧ m .tbl ∧ m .sk ∧ m .fsu ∧ m .outbox) (s : State) (r : Nat) (e : Nat) (buf : List Byte) (dma : Dma) : (tblSearch s r e buf dma).off m = s.off m := by
  simp [tblSearch, h]

@[simp] theorem tblNext_off (h : m .dict ∧ m .fm ∧ m .host ∧ m .hbm ∧ m .tbl ∧ m .sk ∧ m .fsu ∧ m .outbox) (s : State) (r : Nat) (e : Nat) (dma : Dma) : (tblNext s r e dma).off m = s.off m := by
  simp only [tblNext]; split <;> simp [*]

@[simp] theorem ringFlowFlush_off (h : m .dict ∧ m .fm ∧ m .host ∧ m .tbl ∧ m .sk ∧ m .fsu ∧ m .outbox) (s : State) (r : Nat) (e : Nat) (byPort : Bool) : (ringFlowFlush s r e byPort).off m = s.off m := by
  grind [ringFlowFlush, State.cmdComplete_off, State.startFlowFlush_off, State.cmdWait_off]

@[simp] theorem tblFlushPort_off (h : m .dict ∧ m .fm ∧ m .host ∧ m .tbl ∧ m .sk ∧ m .fsu ∧ m .outbox) (s : State) (r : Nat) (e : Nat) : (tblFlushPort s r e).off m = s.off m := by
  simp [tblFlushPort, h]

@[simp] theorem hueStage_off (h : m .host ∧ m .hbm ∧ m .pat ∧ m .hue ∧ m .sk ∧ m .fsu) (s : State) (r : Nat) (e : Nat) (buf : List Byte) (dma : Dma) : (hueStage s r e buf dma).off m = s.off m := by
  grind [hueStage, stageRecords_off, State.startStage_off, State.cmdWait_off]

@[simp] theorem ringCsLoad_off (h : m .dict ∧ m .fm ∧ m .host ∧ m .tbl ∧ m .sk ∧ m .fsu ∧ m .outbox) (s : State) (r : Nat) (e : Nat) (image : List Byte) (dma : Dma) : (ringCsLoad s r e image dma).off m = s.off m := by
  simp only [ringCsLoad]; (repeat' split) <;> simp [*]

@[simp] theorem dbgHalt_off (h : m .dict ∧ m .sk ∧ m .dbg) (x : Nat) (s : State) : (dbgHalt x s).off m = s.off m := by
  simp [dbgHalt, h]

@[simp] theorem State.resumeThread_off (h : m .dict ∧ m .fm ∧ m .str ∧ m .hbm ∧ m .hue ∧ m .sk ∧ m .dbg) (s : State) (t : Nat) : (s.resumeThread t).off m = s.off m := by
  simp [State.resumeThread, h]

@[simp] theorem dbgResume_off (h : m .dict ∧ m .fm ∧ m .str ∧ m .hbm ∧ m .hue ∧ m .sk ∧ m .dbg) (x : Nat) (s : State) : (dbgResume x s).off m = s.off m := by
  simp [dbgResume, h]

@[simp] theorem dbgStep_off (h : m .sk) (x : Nat) (s : State) : (dbgStep x s).off m = s.off m := by
  simp [dbgStep, h]

@[simp] theorem haltLeapTimeout_off (h : m .dict ∧ m .sk ∧ m .cu ∧ m .fsu ∧ m .free) (s : State) (t : Nat) : (haltLeapTimeout s t).off m = s.off m := by
  simp only [haltLeapTimeout]; split <;> simp [*]

@[simp] theorem State.clearDebug_off (h : m .dict ∧ m .fm ∧ m .str ∧ m .hbm ∧ m .hue ∧ m .sk ∧ m .dbg) (s : State) : (s.clearDebug).off m = s.off m := by
  simp [State.clearDebug, h]

@[simp] theorem traceApply_off (h : m .dbg) (c : Nat) (s : State) : (traceApply c s).off m = s.off m := by
  simp [traceApply, h]

@[simp] theorem traceExport_off (h : m .dict ∧ m .fm ∧ m .str ∧ m .hbm ∧ m .dbg) (s : State) (c : Nat) : (traceExport s c).off m = s.off m := by
  simp [traceExport, h]

@[simp] theorem State.unknownBytes_off (h : m .free) (s : State) : (s.unknownBytes).2.off m = s.off m := by
  simp [State.unknownBytes, h]

@[simp] theorem State.hbmBytes_off (h : m .dict ∧ m .fm ∧ m .hbm ∧ m .fsu ∧ m .free) (s : State) (pc : Nat) (o : Nat) : (s.hbmBytes pc o).2.off m = s.off m := by
  simp only [State.hbmBytes]; (repeat' split) <;> simp [*]

@[simp] theorem dbgRead_off (h : m .dict ∧ m .fm ∧ m .hbm ∧ m .fsu ∧ m .free) (s : State) (space : Nat) (a : Nat) : (dbgRead s space a).2.off m = s.off m := by
  simp only [dbgRead]; (repeat' split) <;> simp [*]

@[simp] theorem memFrozenResult_off (h : m .dict) (c : Ctx) (s : State) : (memFrozenResult c s).off m = s.off m := by
  simp [memFrozenResult, h]

@[simp] theorem dbgParity_off (h : m .dict ∧ m .fm ∧ m .str ∧ m .hbm ∧ m .hue ∧ m .sk ∧ m .fsu ∧ m .dbg ∧ m .free) (s : State) (t : Nat) : (dbgParity s t).2.off m = s.off m := by
  simp [dbgParity, h]

@[simp] theorem dbgMemGet_off (h : m .dict ∧ m .fm ∧ m .str ∧ m .hbm ∧ m .hue ∧ m .sk ∧ m .fsu ∧ m .dbg ∧ m .free) (c : Ctx) (parity : Bool) (s : State) : (dbgMemGet c parity s).off m = s.off m := by
  grind [dbgMemGet, State.wrCtx_off, dbgRead_off, memFrozenResult_off, dbgParity_off]

@[simp] theorem dbgMemPut_off (h : m .dict ∧ m .hbm ∧ m .sk) (c : Ctx) (s : State) : (dbgMemPut c s).off m = s.off m := by
  simp only [dbgMemPut]; split <;> simp [*]

@[simp] theorem memApply_off (h : m .dict ∧ m .fm ∧ m .str ∧ m .hbm ∧ m .hue ∧ m .sk ∧ m .fsu ∧ m .dbg ∧ m .free) (c : Ctx) (parity : Bool) (x : Nat) (s : State) : (memApply c parity x s).off m = s.off m := by
  simp [memApply, h]

@[simp] theorem prbsApply_off (h : m .dict) (l : Nat) (s : State) : (prbsApply l s).off m = s.off m := by
  simp [prbsApply, h]

@[simp] theorem prbsSeen_off (h : m .dict) (l : Nat) (pattern : Option Nat) (s : State) : (prbsSeen l pattern s).off m = s.off m := by
  simp only [prbsSeen]; (repeat' split) <;> simp [*]

@[simp] theorem State.voidSlot_off (h : m .hbm ∧ m .fsu) (s : State) (p : Nat) : (s.voidSlot p).off m = s.off m := by
  simp only [State.voidSlot]; split <;> simp [*]

@[simp] theorem State.loseRecords_off (h : m .dict ∧ m .hbm ∧ m .fsu) (s : State) (f : Nat → Bool) : (s.loseRecords f).off m = s.off m := by
  simp [State.loseRecords, h]

@[simp] theorem State.repairBucket_off (h : m .dict ∧ m .hbm ∧ m .fsu) (s : State) (b : Nat) : (s.repairBucket b).off m = s.off m := by
  simp [State.repairBucket, h]

theorem State.off_setBuffer (h : m .buffer) (s : State) (x : List Host.Cell) :
    State.off m { s with sk := { s.sk with buffer := x } } = s.off m := by
  cases e : m .sk <;> simp [State.off, h, e]

theorem State.off_setSw (h : m .hbm ∧ m .sw) (s : State) (x : Hbm) : State.off m { s with hbm := x } = s.off m := by
  simp [State.off, h]

@[simp] theorem State.zeroBurst_off (h : m .str ∧ m .hbm ∧ m .sw ∧ m .tm ∧ m .buffer) (s : State) (p : Nat) (off : Nat) : (s.zeroBurst p off).off m = s.off m := by
  simp only [State.zeroBurst]
  split
  · rfl
  split
  · split <;> simp [h]
  split
  · simp [h]
  split
  · split
    · exact State.off_setBuffer h.2.2.2.2 ..
    all_goals simp [h]
  · simp [h]

@[simp] theorem State.setGoldenBad_off (h : m .hbm) (s : State) (stack : Nat) (image : Nat) (burst : Nat) (bad : Bool) : (s.setGoldenBad stack image burst bad).off m = s.off m := by
  simp [State.setGoldenBad, h]

@[simp] theorem State.goldenBurst_off (h : m .fm ∧ m .hbm) (s : State) (stack : Nat) (index : Nat) (burst : Nat) : (s.goldenBurst stack index burst).off m = s.off m := by
  simp only [State.goldenBurst]; split <;> simp [*]

@[simp] theorem thawBurst_off (h : m .dict ∧ m .fm ∧ m .str ∧ m .hbm ∧ m .sw ∧ m .tm ∧ m .buffer ∧ m .fsu) (s : State) (p : Nat) (off : Nat) : (thawBurst s p off).off m = s.off m := by
  simp only [thawBurst]; (repeat' split) <;> simp [*]

@[simp] theorem State.thawFailed_off (h : m .dict ∧ m .fm) (s : State) (p : Nat) (diag : Nat) : (s.thawFailed p diag).off m = s.off m := by
  simp [State.thawFailed, h]

@[simp] theorem hbmThawDone_off (h : m .dict ∧ m .fm ∧ m .str ∧ m .hbm ∧ m .sw ∧ m .tm ∧ m .buffer ∧ m .fsu) (s : State) (p : Nat) (res : ThawEnd) (spare : Bool) (bad : List (BitVec 30)) : (hbmThawDone s p res spare bad).off m = s.off m := by
  simp only [hbmThawDone]; (repeat' split) <;> simp [*]

@[simp] theorem State.pprBurst_off (h : m .str ∧ m .hbm ∧ m .sw ∧ m .tm ∧ m .buffer ∧ m .fsu) (s : State) (p : Nat) (off : Nat) : (s.pprBurst p off).off m = s.off m := by
  simp only [State.pprBurst]; (repeat' split) <;> simp [*]

@[simp] theorem State.pprEnd_off (h : m .dict ∧ m .fm ∧ m .str ∧ m .hbm ∧ m .sw ∧ m .tm ∧ m .buffer ∧ m .fsu) (s : State) (p : Nat) (bank : Nat) (row : Nat) (pass : Bool) (bad : List (BitVec 30)) (count : HbmCtl → HbmCtl) : (s.pprEnd p bank row pass bad count).off m = s.off m := by
  simp [State.pprEnd, h]

@[simp] theorem hbmPprDone_off (h : m .dict ∧ m .fm ∧ m .str ∧ m .hbm ∧ m .sw ∧ m .tm ∧ m .buffer ∧ m .fsu) (s : State) (p : Nat) (pass : Bool) (bad : List (BitVec 30)) : (hbmPprDone s p pass bad).off m = s.off m := by
  simp only [hbmPprDone]; split <;> simp [*]

@[simp] theorem State.retirePc_off (h : m .dict ∧ m .fm ∧ m .str ∧ m .hbm ∧ m .tm ∧ m .fsu ∧ m .outbox) (s : State) (p : Nat) : (s.retirePc p).off m = s.off m := by
  simp [State.retirePc, h]

@[simp] theorem State.regrowPc_off (h : m .dict ∧ m .fm ∧ m .hbm) (s : State) (p : Nat) : (s.regrowPc p).off m = s.off m := by
  simp [State.regrowPc, h]

@[simp] theorem State.regrownImages_off (h : m .hbm ∧ m .buffer) (s : State) (p : Nat) : (s.regrownImages p).off m = s.off m := by
  cases e : m .sk <;> simp [State.regrownImages, State.off, h, e]

@[simp] theorem State.regrownPc_off (h : m .dict ∧ m .hbm ∧ m .sw ∧ m .buffer ∧ m .fsu) (s : State) (p : Nat) : (s.regrownPc p).off m = s.off m := by
  simp only [State.regrownPc]
  rw [State.endRuns_off (by simp [h]), State.setRetired_off h.1, State.setCtl_off h.2.1, State.regrownImages_off (by simp [h])]
  simp [State.off, h]

@[simp] theorem State.regrowPcFailed_off (h : m .dict ∧ m .hbm) (s : State) (p : Nat) : (s.regrowPcFailed p).off m = s.off m := by
  simp [State.regrowPcFailed, h]

@[simp] theorem State.readmitPc_off (h : m .dict ∧ m .fm) (s : State) (p : Nat) : (s.readmitPc p).off m = s.off m := by
  simp [State.readmitPc, h]

@[simp] theorem State.isolateUnit_off (h : m .dict ∧ m .fm ∧ m .time ∧ m .str ∧ m .host ∧ m .hbm ∧ m .ports ∧ m .pat ∧ m .hue ∧ m .tm ∧ m .eg ∧ m .tbl ∧ m .sk ∧ m .fsu ∧ m .dbg ∧ m .outbox) (s : State) (utype : Nat) (unit : Nat) : (s.isolateUnit utype unit).off m = s.off m := by
  simp only [State.isolateUnit]; split <;> simp [*]

@[simp] theorem State.regrowUnit_off (h : m .dict ∧ m .fm ∧ m .hbm) (s : State) (utype : Nat) (unit : Nat) : (s.regrowUnit utype unit).off m = s.off m := by
  simp only [State.regrowUnit]; split <;> simp [*]

@[simp] theorem State.reloadStore_off (h : m .fm ∧ m .sk) (s : State) (c : Nat) : (s.reloadStore c).off m = s.off m := by
  simp only [State.reloadStore]; split <;> simp [*]

@[simp] theorem State.toDefault_off (h : m .dict) (s : State) (os : List Obj) (i : Nat) : (s.toDefault os i).off m = s.off m := by
  simp [State.toDefault, h]

@[simp] theorem State.unitDefaults_off (h : m .dict ∧ m .dbg) (s : State) (utype : Nat) (unit : Nat) : (s.unitDefaults utype unit).off m = s.off m := by
  simp only [State.unitDefaults]; split <;> simp [*]

@[simp] theorem State.regrownUnit_off (h : m .dict ∧ m .fm ∧ m .hbm ∧ m .sw ∧ m .sk ∧ m .buffer ∧ m .fsu) (s : State) (utype : Nat) (unit : Nat) : (s.regrownUnit utype unit).off m = s.off m := by
  simp only [State.regrownUnit]; split <;> simp [*]

@[simp] theorem State.regrowFailed_off (h : m .dict ∧ m .fm ∧ m .hbm) (s : State) (utype : Nat) (unit : Nat) : (s.regrowFailed utype unit).off m = s.off m := by
  simp only [State.regrowFailed]; split <;> simp [*]

@[simp] theorem State.endRegrowRuns_off (h : m .dict) (s : State) (utype : Nat) (unit : Nat) : (s.endRegrowRuns utype unit).off m = s.off m := by
  simp only [State.endRegrowRuns]; split <;> simp [*]

@[simp] theorem regrowthDone_off (h : m .dict ∧ m .fm ∧ m .hbm ∧ m .sw ∧ m .sk ∧ m .buffer ∧ m .fsu ∧ m .dbg) (s : State) (utype : Nat) (unit : Nat) (pass : Bool) (spares : Nat) : (regrowthDone s utype unit pass spares).off m = s.off m := by
  simp [regrowthDone, h]

@[simp] theorem State.readmit_off (h : m .dict ∧ m .fm ∧ m .ports) (s : State) (utype : Nat) (unit : Nat) : (s.readmit utype unit).off m = s.off m := by
  simp only [State.readmit]; split <;> simp [*]

@[simp] theorem commitPoint_off (h : m .dict ∧ m .fm ∧ m .ports ∧ m .hue ∧ m .sk ∧ m .dbg) (s : State) : (commitPoint s).off m = s.off m := by
  simp only [commitPoint]
  split
  · rfl
  rw [State.sfRetry_off (by simp [h]), State.clutchesLow_off (by simp [h]), State.raise_off h.2.1, State.advanceHue_off (by simp [h]),
    State.off_foldl fun s u => State.readmit_off (by simp [h]) .., State.off_with_fm h.2.1]
  · split <;> simp [h]
  · exact .inr rfl

@[simp] theorem State.setRec_off (h : m .dict ∧ m .fm) (s : State) (r : EvRec) : (s.setRec r).off m = s.off m := by
  simp [State.setRec, h]

@[simp] theorem State.countWindow_off (h : m .dict ∧ m .fm) (s : State) (src : Nat) (n : Nat) : (s.countWindow src n).2.off m = s.off m := by
  simp only [State.countWindow]; split_ifs <;> simp [*]

@[simp] theorem State.clearWindow_off (h : m .fm) (s : State) (src : Nat) : (s.clearWindow src).off m = s.off m := by
  simp [State.clearWindow, h]

@[simp] theorem State.closeRecs_off (h : m .dict ∧ m .fm) (s : State) : (s.closeRecs).off m = s.off m := by
  simp [State.closeRecs, h]

@[simp] theorem State.mergeInto_off (h : m .dict ∧ m .fm) (s : State) (r : EvRec) (n : Nat) : (s.mergeInto r n).off m = s.off m := by
  simp [State.mergeInto, h]

@[simp] theorem State.setCroak_off (h : m .dict ∧ m .fm) (s : State) (c : Croak) : (s.setCroak c).off m = s.off m := by
  simp [State.setCroak, h]

@[simp] theorem State.croakTimer_off (h : m .fm) (s : State) : (s.croakTimer).off m = s.off m := by
  simp [State.croakTimer, h]

@[simp] theorem State.croakReact_off (h : m .dict ∧ m .fm) (s : State) : (s.croakReact).off m = s.off m := by
  simp [State.croakReact, h]

@[simp] theorem State.croakBooted_off (h : m .dict ∧ m .fm) (s : State) (failed : Bool) : (s.croakBooted failed).off m = s.off m := by
  simp [State.croakBooted, h]

@[simp] theorem croakExpiry_off (h : m .dict ∧ m .fm) (s : State) : (croakExpiry s).off m = s.off m := by
  simp [croakExpiry, h]

@[simp] theorem croakWrite_off (h : m .dict ∧ m .fm) (x : Nat) (s : State) : (croakWrite x s).off m = s.off m := by
  simp only [croakWrite]; split <;> simp [*]

theorem State.logRoom_off (h : m .dict ∧ m .fm) (s : State) (c : Nat) {u : State} (e : s.logRoom c = some u) : u.off m = s.off m := by
  simp only [State.logRoom] at e
  split at e
  · cases e
    rfl
  · obtain ⟨r, -, rfl⟩ := Option.map_eq_some_iff.mp e
    simp [h]

@[simp] theorem State.forgetRecs_off (h : m .fm) (s : State) : (s.forgetRecs).off m = s.off m := by
  simp [State.forgetRecs, h]

@[simp] theorem State.notify_off (h : m .dict ∧ m .fm ∧ m .str ∧ m .host ∧ m .hbm) (s : State) (r : EvRec) : (s.notify r).off m = s.off m := by
  simp only [State.notify]; split_ifs <;> simp [*]

@[simp] theorem State.summarise_off (h : m .fm) (s : State) (cls : Nat) : (s.summarise cls).off m = s.off m := by
  simp [State.summarise, h]

@[simp] theorem State.autotomy_off (h : m .dict ∧ m .fm ∧ m .time ∧ m .str ∧ m .host ∧ m .hbm ∧ m .ports ∧ m .pat ∧ m .hue ∧ m .tm ∧ m .eg ∧ m .tbl ∧ m .sk ∧ m .fsu ∧ m .dbg ∧ m .outbox) (s : State) (r : EvRec) : (s.autotomy r).2.off m = s.off m := by
  simp only [State.autotomy]; (repeat' split) <;> simp [*]

@[simp] theorem State.createRec_off (h : m .dict ∧ m .fm ∧ m .time ∧ m .str ∧ m .host ∧ m .hbm ∧ m .ports ∧ m .pat ∧ m .hue ∧ m .tm ∧ m .eg ∧ m .tbl ∧ m .sk ∧ m .fsu ∧ m .dbg ∧ m .outbox) (s : State) (o : Occ) (cls : Nat) (count : Nat) (dt : Nat) (mask : Nat) (esc : Bool) (multi : Bool) : (s.createRec o cls count dt mask esc multi).off m = s.off m := by
  unfold State.createRec
  extract_lets seq first r s1
  have h1 : s1.off m = s.off m := by simp [s1, h]
  clear_value s1
  split
  next r1 s2 e =>
    have h2 : s2.off m = s.off m := by
      refine (State.off_of_eq e).trans ?_
      split <;> simp [h, h1]
    split
    next r2 s3 e =>
      have h3 : s3.off m = s.off m := by
        refine (State.off_of_eq e).trans ?_
        split
        · split
          next e => exact (State.logRoom_off ⟨h.1, h.2.1⟩ _ _ e).trans h2
          · simp [h, h2]
        · exact h2
      extract_lets r3 f s4 g s5 s6
      have h4 : s4.off m = s.off m := by simp [s4, f, h, h3]
      have h5 : s5.off m = s.off m := by
        simp only [s5]
        split <;> simp [g, h, h4]
      have h6 : s6.off m = s.off m := by
        simp only [s6]
        split <;> simp [h, h5]
      split <;> simp [h, h6]

@[simp] theorem State.enterSafe_off (h : m .dict ∧ m .fm ∧ m .safe ∧ m .eft) (s : State) : (s.enterSafe).off m = s.off m := by
  grind [State.enterSafe, State.off_with_eft, State.off_with_fm, State.wr_off, State.carryOver_off, State.setCroak_off, State.croakTimer_off]

@[simp] theorem State.safeCopy_off (h : m .eft) (s : State) : (s.safeCopy).off m = s.off m := by
  simp [State.safeCopy, h]

@[simp] theorem State.takeGroup_off (h : m .dict ∧ m .fm ∧ m .safe ∧ m .time ∧ m .str ∧ m .host ∧ m .hbm ∧ m .ports ∧ m .pat ∧ m .hue ∧ m .tm ∧ m .eg ∧ m .tbl ∧ m .sk ∧ m .fsu ∧ m .dbg ∧ m .eft ∧ m .outbox) (s : State) (o : Occ) (l : Occ) (n : Nat) (multi : Bool) : (s.takeGroup o l n multi).off m = s.off m := by
  simp only [State.takeGroup]; (repeat' split) <;> simp [*]

@[simp] theorem State.takeNext_off (h : m .dict ∧ m .fm ∧ m .safe ∧ m .time ∧ m .str ∧ m .host ∧ m .hbm ∧ m .ports ∧ m .pat ∧ m .hue ∧ m .tm ∧ m .eg ∧ m .tbl ∧ m .sk ∧ m .fsu ∧ m .dbg ∧ m .eft ∧ m .outbox) (s : State) : (s.takeNext).off m = s.off m := by
  simp only [State.takeNext]; (repeat' split) <;> simp [*]

@[simp] theorem eventOccurrence_off (h : m .dict ∧ m .fm ∧ m .safe ∧ m .time ∧ m .str ∧ m .host ∧ m .hbm ∧ m .ports ∧ m .pat ∧ m .hue ∧ m .tm ∧ m .eg ∧ m .tbl ∧ m .sk ∧ m .fsu ∧ m .dbg ∧ m .eft ∧ m .outbox) (s : State) (found : DeviceCheck) : (eventOccurrence s found).off m = s.off m := by
  simp only [eventOccurrence]; split <;> simp [*]

@[simp] theorem openLimit_off (h : m .dict ∧ m .fm) (s : State) (seq : Nat) : (openLimit s seq).off m = s.off m := by
  grind [openLimit, State.setRec_off]

@[simp] theorem evConfig_off (h : m .dict ∧ m .fm ∧ m .str ∧ m .hbm ∧ m .outbox) (c : Ctx) (src : Nat) (obj : Nat) (v : List Byte) (s : State) : (evConfig c src obj v s).off m = s.off m := by
  simp [evConfig, h]

@[simp] theorem evClear_off (h : m .dict ∧ m .fm ∧ m .str ∧ m .hbm ∧ m .outbox) (c : Ctx) (src : Nat) (v : List Byte) (s : State) : (evClear c src v s).off m = s.off m := by
  simp [evClear, h]

@[simp] theorem logAck_off (h : m .fm) (x : Nat) (s : State) : (logAck x s).off m = s.off m := by
  simp [logAck, h]

@[simp] theorem xoffAccount_off (h : m .dict ∧ m .str) (s : State) : (xoffAccount s).off m = s.off m := by
  simp [xoffAccount, h]

@[simp] theorem fcSettle_off (h : m .dict ∧ m .str) (s : State) : (fcSettle s).off m = s.off m := by
  simp [fcSettle, h]

@[simp] theorem setLink_off (h : m .dict ∧ m .fm) (s : State) (st : Nat) : (setLink s st).off m = s.off m := by
  simp only [setLink]; split_ifs <;> simp [*]

@[simp] theorem relink_off (h : m .dict ∧ m .fm ∧ m .str) (s : State) : (relink s).off m = s.off m := by
  simp [relink, h]

@[simp] theorem clearSeqs_off (h : m .dict) (s : State) : (clearSeqs s).off m = s.off m := by
  simp [clearSeqs, h]

@[simp] theorem writeStrEnable_off (h : m .dict ∧ m .fm ∧ m .str ∧ m .hbm ∧ m .outbox) (c : Ctx) (v : List Byte) (s : State) : (writeStrEnable c v s).off m = s.off m := by
  simp [writeStrEnable, h]

@[simp] theorem strLaneLock_off (h : m .dict ∧ m .fm ∧ m .str) (lock : Nat) (deskewed : Bool) (s : State) : (strLaneLock lock deskewed s).off m = s.off m := by
  grind [strLaneLock, State.off_with_str, State.wr_off, fcSettle_off, relink_off]

@[simp] theorem fcWord_off (h : m .dict ∧ m .fm ∧ m .str) (crcOk : Bool) (reset : Bool) (status : Nat) (s : State) : (fcWord crcOk reset status s).off m = s.off m := by
  simp [fcWord, h]

@[simp] theorem fcTimeout_off (h : m .dict ∧ m .str) (s : State) : (fcTimeout s).off m = s.off m := by
  simp only [fcTimeout]; split <;> simp [*]

@[simp] theorem State.traceAgain_off (h : m .dict ∧ m .dbg) (s : State) (c : Nat) (a : Nat) (n : Nat) : (s.traceAgain c a n).off m = s.off m := by
  simp [State.traceAgain, h]

@[simp] theorem refEnd_off (h : m .dict ∧ m .dbg) (s : State) (r : RecRef) (sent : Bool) : (refEnd s r sent).off m = s.off m := by
  simp only [refEnd]; split <;> simp [*]

@[simp] theorem dropHead_off (h : m .dict ∧ m .str ∧ m .hbm ∧ m .dbg) (s : State) (c : Nat) : (dropHead s c).off m = s.off m := by
  simp only [dropHead]; split <;> simp [*]

@[simp] theorem sendBurst_off (h : m .dict ∧ m .str ∧ m .hbm ∧ m .dbg ∧ m .outbox) (s : State) (c : Nat) : (sendBurst s c).off m = s.off m := by
  simp only [sendBurst]
  split
  · rfl
  split
  · rw [refEnd_off (by simp [h]), State.bump_off h.1, State.stageFetch_off (by simp [h]), State.setChan_off h.2.1, State.off_with_str h.2.1]
    simp [h]
  · rw [State.stageFetch_off (by simp [h]), State.setChan_off h.2.1, State.off_with_str h.2.1]
    simp [h]

@[simp] theorem strBurstSend_off (h : m .dict ∧ m .fm ∧ m .str ∧ m .hbm ∧ m .dbg ∧ m .outbox) (g : StageRead) (s : State) : (strBurstSend g s).off m = s.off m := by
  simp only [strBurstSend]; (repeat' split) <;> simp [*]

end
end Sys2Proof.Machine
end

section
/-! The frames of resets, boot, power, the Eft, and what remains of the commands. -/

namespace Sys2Proof.Machine
section
variable {m : Piece → Bool}

@[simp] theorem State.sleepPc_off (h : m .dict ∧ m .fm ∧ m .str ∧ m .hbm ∧ m .sw ∧ m .tm ∧ m .fsu) (s : State) (p : Nat) (orderly : Bool) (now : Nat) : (s.sleepPc p orderly now).off m = s.off m := by
  simp only [State.sleepPc]
  rw [State.setCtl_off (by simp [h]), State.off_setSw (by simp [h])]
  exact State.off_foldl (fun s w => State.loseWrite_off (fun u _ => u.within_of (by simp [h])) s) _ s

@[simp] theorem State.hbmSleep_off (h : m .dict ∧ m .fm ∧ m .str ∧ m .hbm ∧ m .sw ∧ m .tm ∧ m .fsu) (s : State) (orderly : Bool) (now : Nat) : (s.hbmSleep orderly now).off m = s.off m := by
  simp [State.hbmSleep, h]

@[simp] theorem State.endHbmJobs_off (h : m .dict) (s : State) : (s.endHbmJobs).off m = s.off m := by
  simp [State.endHbmJobs, h]

@[simp] theorem State.reloadAll_off (h : m .dict ∧ m .fm ∧ m .str ∧ m .hbm ∧ m .hue ∧ m .sk ∧ m .fsu ∧ m .dbg) (s : State) (reloads : List StoreReload) : (s.reloadAll reloads).off m = s.off m := by
  refine State.off_foldl (fun s c => ?_) _ s
  dsimp only
  split <;> simp [h]

@[simp] theorem State.freshTokens_off (h : m .tm ∧ m .eg) (s : State) : (s.freshTokens).off m = s.off m := by
  simp [State.freshTokens, h]

theorem FaultMgr.after_safe {r : CoreReset} (hr : r ≠ .cold) (x : FaultMgr) : (x.after r).safe = x.safe := by
  cases r with
  | warm => rfl
  | brumation => rfl
  | cold => exact absurd rfl hr

@[simp] theorem State.clearCore_off (h : m .dict ∧ m .fm ∧ m .str ∧ m .host ∧ m .ports ∧ m .tm ∧ m .eg ∧ m .tbl ∧ m .sk ∧ m .cu ∧ m .fsu ∧ m .dbg) (a : State) {r : CoreReset} (hr : m .safe ∨ r ≠ .cold) : (a.clearCore r).off m = a.off m := by
  rw [← State.releaseAll_off (m := m) (by simp [h]) a]
  obtain hr | hr := hr <;> simp [State.clearCore, State.off, h, hr, FaultMgr.after_safe]

@[simp] theorem State.keepLink_off (h : m .dict ∧ m .ports) (a s : State) (p : Nat) : (a.keepLink s p).off m = s.off m := by
  simp only [State.keepLink]
  split
  · rw [State.wr_off h.1, State.wr_off h.1, State.wr_off h.1, State.wr_off h.1, State.off_with_ports h.2]
    exact State.setPl_off h.2 ..
  · rfl

@[simp] theorem State.coreWarm_off (h : m .dict ∧ m .fm ∧ m .time ∧ m .str ∧ m .host ∧ m .hbm ∧ m .sw ∧ m .ports ∧ m .pat ∧ m .hue ∧ m .tm ∧ m .eg ∧ m .tbl ∧ m .sk ∧ m .buffer ∧ m .cu ∧ m .fsu ∧ m .dbg) (s : State) {r : CoreReset} (hr : r ≠ .cold) (mac : Bool) : (s.coreWarm r mac).off m = s.off m := by
  have slept : ((s.hbmSleep (s.eft.orderly || r = .brumation) (if r = .warm then s.fNs else 0)).hueAbort).off m = s.off m := by simp [h]
  simp only [State.coreWarm]
  rw [State.off_foldl fun s p => State.keepLink_off (by simp [h]) .., State.freshTokens_off (by simp [h]), State.endHbmJobs_off (by simp [h]),
    State.wr_off h.1, State.wr_off h.1, ← slept]
  generalize (s.hbmSleep (s.eft.orderly || r = .brumation) (if r = .warm then s.fNs else 0)).hueAbort = a
  have cleared : (a.clearCore r).off m = a.off m := State.clearCore_off (by simp [h]) _ (.inr hr)
  have time := congrArg State.time cleared
  rw [← cleared]
  simp only [State.off, h, cond_true, TimeUnit.mk.injEq] at time ⊢
  simp [TimeUnit.warm, time]

@[simp] theorem State.coreCold_off (h : m .dict ∧ m .fm ∧ m .safe ∧ m .time ∧ m .clock ∧ m .counters ∧ m .str ∧ m .host ∧ m .hbm ∧ m .sw ∧ m .ports ∧ m .pat ∧ m .hue ∧ m .tm ∧ m .eg ∧ m .tbl ∧ m .sk ∧ m .buffer ∧ m .cu ∧ m .fsu ∧ m .dbg) (s : State) : (s.coreCold).off m = s.off m := by
  have cleared : (s.clearCore .cold).off m = s.off m := State.clearCore_off (by simp [h]) s (.inl (by simp [h]))
  rw [← cleared]
  simp [State.coreCold, State.off, h]

@[simp] theorem State.startDomain_off (h : m .dict) (s : State) (d : Nat) : (s.startDomain d).off m = s.off m := by
  simp [State.startDomain, h]

@[simp] theorem State.lockClocks_off (h : m .dict ∧ m .time ∧ m .clock ∧ m .counters ∧ m .str ∧ m .tm ∧ m .eg ∧ m .eft ∧ m .clocks) (s : State) (t : Nat) : (s.lockClocks t).off m = s.off m := by
  simp only [State.lockClocks]
  rw [State.freshTokens_off (by simp [h]), State.startDomain_off h.1, State.startDomain_off h.1, State.wr_off h.1, State.wr_off h.1,
    State.wr_off h.1, State.wr_off h.1]
  simp [State.off, h]

@[simp] theorem State.coarseLoad_off (h : m .dict) (s : State) : (s.coarseLoad).off m = s.off m := by
  simp [State.coarseLoad, h]

@[simp] theorem State.endMoves_off (h : m .dict ∧ m .hbm ∧ m .fsu) (s : State) : (s.endMoves).off m = s.off m := by
  simp only [State.endMoves]
  rw [State.off_with_fsu (by simp [h])]
  refine State.off_foldl (fun s p => ?_) _ s
  split <;> simp [h]

@[simp] theorem State.flowScan_off (h : m .dict ∧ m .fm ∧ m .hbm ∧ m .fsu) (s : State) : (s.flowScan).off m = s.off m := by
  simp [State.flowScan, h]

@[simp] theorem State.startPorts_off (h : m .dict ∧ m .fm ∧ m .ports) (s : State) : (s.startPorts).off m = s.off m := by
  simp only [State.startPorts]
  rw [State.off_foldl, State.off_foldl fun s p => State.raise_off h.2.1 .., State.off_foldl]
  · intro s p
    split <;> simp [h]
  · intro s p
    split_ifs <;> simp [h]

@[simp] theorem State.saveMac_off (h : m .hbm) (s : State) : (s.saveMac).off m = s.off m := by
  simp [State.saveMac, h]

@[simp] theorem State.restoreMac_off (h : m .hbm ∧ m .tbl) (s : State) : (s.restoreMac).off m = s.off m := by
  simp [State.restoreMac, h]

@[simp] theorem State.nowActive_off (h : m .dict ∧ m .fm ∧ m .eft ∧ m .outbox) (s0 : State) : (s0.nowActive).off m = s0.off m := by
  have passed : (s0.passOut true).off m = s0.off m := State.passOut_off (by simp [h]) ..
  simp only [State.nowActive]
  rw [State.raise_off h.2.1, State.wr_off h.1, State.wr_off h.1, ← passed]
  simp [State.off, h]

@[simp] theorem State.bootClutches_off (h : m .dict ∧ m .fm ∧ m .str ∧ m .hbm ∧ m .hue ∧ m .sk ∧ m .fsu ∧ m .dbg) (s : State) (g : Golden) (bad : List Nat) : (s.bootClutches g bad).off m = s.off m := by
  simp [State.bootClutches, h]

@[simp] theorem State.freshBank0_off (h : m .hue ∧ m .sk) (s : State) : (s.freshBank0).off m = s.off m := by
  simp [State.freshBank0, h]

@[simp] theorem State.settleBank0_off (h : m .hue ∧ m .sk) (s : State) : (s.settleBank0).off m = s.off m := by
  simp [State.settleBank0, h]

theorem State.bootHue_off (h : m .dict ∧ m .hbm ∧ m .pat ∧ m .hue ∧ m .sk ∧ m .fsu) (s : State) (b : List Byte) (limit : Nat) {u : State} (e : s.bootHue b limit = some u) : u.off m = s.off m := by
  simp only [State.bootHue] at e
  split at e
  next s2 staged =>
    have load : s2.off m = s.off m := by
      have := stageImage_off (m := m) (by simp [h]) ((s.wr Objs.hue_active 0 65535).wr Objs.hue_oldest 0 65535).freshBank0 b limit
      rw [staged] at this
      exact this.trans (by simp [h])
    cases e
    simp [h, load]
  · cases e

theorem State.bootLoad_off (h : m .dict ∧ m .fm ∧ m .str ∧ m .hbm ∧ m .pat ∧ m .hue ∧ m .sk ∧ m .fsu ∧ m .dbg) (s : State) (full : List Byte) (hue : List Byte) (bad : List Nat) {u : State} (e : s.bootLoad full hue bad = some u) : u.off m = s.off m := by
  simp only [State.bootLoad] at e
  split at e
  · cases e
  split at e
  · exact (State.bootHue_off (by simp [h]) _ _ _ e).trans (State.bootClutches_off (by simp [h]) ..)
  · cases e

@[simp] theorem State.bootDone_off (h : m .dict ∧ m .fm ∧ m .str ∧ m .ports ∧ m .eft ∧ m .outbox) (s : State) (slot : Nat) : (s.bootDone slot).off m = s.off m := by
  simp [State.bootDone, h]

theorem bootFrom_cons (bad : List Nat) (k : Nat) (b : List Byte) (rest : List (Nat × List Byte)) (s : State) :
    bootFrom bad ((k, b) :: rest) s = match s.bootLoad (slotFull b) (slotHue b) bad with
      | some t => some (k, t)
      | none => bootFrom bad rest s := by
  delta bootFrom
  generalize State.bootLoad = load
  rfl

theorem bootFrom_off (h : m .dict ∧ m .fm ∧ m .str ∧ m .hbm ∧ m .pat ∧ m .hue ∧ m .sk ∧ m .fsu ∧ m .dbg) (bad : List Nat)
    (l : List (Nat × List Byte)) (s : State) {u : Nat × State} (e : bootFrom bad l s = some u) : u.2.off m = s.off m := by
  induction l with
  | nil => exact nomatch e
  | cons x rest ih =>
    rw [bootFrom_cons] at e
    split at e
    next loaded =>
      cases e
      exact State.bootLoad_off h _ _ _ _ loaded
    · exact ih e

theorem State.stopped_off (h : m .dict ∧ m .eft) (s : State) (k : Nat) :
    State.off m (({ s with eft := { s.eft with phase := .stopped } } : State).wr Objs.boot_status 0 k) = s.off m := by
  rw [State.wr_off h.1, State.off_with_eft h.2]
  exact .inr rfl

@[simp] theorem State.bootCore_off (h : m .dict ∧ m .fm ∧ m .str ∧ m .hbm ∧ m .ports ∧ m .pat ∧ m .hue ∧ m .sk ∧ m .fsu ∧ m .dbg ∧ m .eft ∧ m .outbox) (s : State) (bad : List Nat) : (s.bootCore bad).off m = s.off m := by
  unfold State.bootCore
  extract_lets straps stop
  dsimp only [stop]
  split
  · exact State.stopped_off (by simp [h]) s 1
  split
  next e => exact (State.bootDone_off (by simp [h]) ..).trans (bootFrom_off (by simp [h]) _ _ _ e)
  · exact (State.croakBooted_off (by simp [h]) ..).trans (State.stopped_off (by simp [h]) s 2)

@[simp] theorem State.bootStep_off (h : m .dict ∧ m .fm ∧ m .str ∧ m .hbm ∧ m .ports ∧ m .pat ∧ m .hue ∧ m .sk ∧ m .fsu ∧ m .dbg ∧ m .eft ∧ m .outbox) (s : State) (bad : List Nat) : (s.bootStep bad).off m = s.off m := by
  simp [State.bootStep, h]

@[simp] theorem State.startTraining_off (h : m .dict ∧ m .fm ∧ m .time ∧ m .clock ∧ m .counters ∧ m .str ∧ m .hbm ∧ m .ports ∧ m .pat ∧ m .hue ∧ m .tm ∧ m .eg ∧ m .sk ∧ m .fsu ∧ m .dbg ∧ m .eft ∧ m .clocks ∧ m .outbox) (s : State) : (s.startTraining).off m = s.off m := by
  simp [State.startTraining, h]

@[simp] theorem State.railsUp_off (h : m .dict ∧ m .fm ∧ m .time ∧ m .clock ∧ m .counters ∧ m .str ∧ m .hbm ∧ m .ports ∧ m .pat ∧ m .hue ∧ m .tm ∧ m .eg ∧ m .sk ∧ m .fsu ∧ m .dbg ∧ m .eft ∧ m .clocks ∧ m .outbox) (s : State) : (s.railsUp).off m = s.off m := by
  simp [State.railsUp, h]

@[simp] theorem State.coldReset_off (h : m .dict ∧ m .fm ∧ m .safe ∧ m .time ∧ m .clock ∧ m .counters ∧ m .str ∧ m .host ∧ m .hbm ∧ m .sw ∧ m .ports ∧ m .pat ∧ m .hue ∧ m .tm ∧ m .eg ∧ m .tbl ∧ m .sk ∧ m .buffer ∧ m .cu ∧ m .fsu ∧ m .dbg ∧ m .eft ∧ m .clocks ∧ m .outbox) (s : State) (trigger : Nat) (straps : Nat) (low : Bool) : (s.coldReset trigger straps low).off m = s.off m := by
  have cold : s.coreCold.off m = s.off m := State.coreCold_off (by simp [h]) s
  rw [State.coldReset, ← cold]
  generalize s.coreCold = t
  simp only
  rw [State.railsUp_off (by simp [h]), State.wr_off h.1, State.wr_off h.1, State.wr_off h.1, State.wr_off h.1, State.off_with_eft (by simp [h])]
  simp [h]

@[simp] theorem State.startDrain_off (h : m .dict ∧ m .eft) (s : State) (phase : Phase) (power : Nat) : (s.startDrain phase power).off m = s.off m := by
  simp [State.startDrain, h]

@[simp] theorem State.warmCommand_off (h : m .dict ∧ m .fm ∧ m .str ∧ m .hbm ∧ m .hue ∧ m .sk ∧ m .dbg ∧ m .eft) (s : State) : (s.warmCommand).off m = s.off m := by
  simp [State.warmCommand, h]

@[simp] theorem State.resetWarm_off (h : m .dict ∧ m .fm ∧ m .time ∧ m .str ∧ m .host ∧ m .hbm ∧ m .sw ∧ m .ports ∧ m .pat ∧ m .hue ∧ m .tm ∧ m .eg ∧ m .tbl ∧ m .sk ∧ m .buffer ∧ m .cu ∧ m .fsu ∧ m .dbg ∧ m .eft) (s : State) : (s.resetWarm).off m = s.off m := by
  grind [State.resetWarm, State.off_with_eft, State.bump_off, State.coreWarm_off]

@[simp] theorem State.warmUnorderly_off (h : m .dict ∧ m .fm ∧ m .time ∧ m .str ∧ m .host ∧ m .hbm ∧ m .sw ∧ m .ports ∧ m .pat ∧ m .hue ∧ m .tm ∧ m .eg ∧ m .tbl ∧ m .sk ∧ m .buffer ∧ m .cu ∧ m .fsu ∧ m .dbg ∧ m .eft) (s : State) (trigger : Nat) : (s.warmUnorderly trigger).off m = s.off m := by
  simp [State.warmUnorderly, h]

@[simp] theorem State.enterBrumation_off (h : m .dict ∧ m .fm ∧ m .eft) (s : State) : (s.enterBrumation).off m = s.off m := by
  simp [State.enterBrumation, h]

theorem State.off_with_cu_fsu (h : m .cu ∧ m .fsu) (s : State) (x : CommitUnit) (y : Fsu) :
    State.off m { s with cu := x, fsu := y } = s.off m := by
  simp [State.off, h]

@[simp] theorem State.emptySkinks_off (h : m .sk ∧ m .cu ∧ m .fsu ∧ m .free) (s : State) : (s.emptySkinks).off m = s.off m := by
  simp only [State.emptySkinks]
  rw [State.off_with_cu_fsu (by simp [h])]
  exact State.off_foldl (fun s p => State.abandon_off (by simp [h]) s _) _ s

@[simp] theorem State.drained_off (h : m .dict ∧ m .fm ∧ m .hbm ∧ m .sk ∧ m .cu ∧ m .fsu ∧ m .eft ∧ m .free) (s : State) : (s.drained).off m = s.off m := by
  simp only [State.drained]
  split <;>
  · rw [State.off_with_eft]
    · simp [h]
    · simp [h]
    · exact .inr rfl

@[simp] theorem State.goToSleep_off (h : m .dict ∧ m .fm ∧ m .time ∧ m .str ∧ m .host ∧ m .hbm ∧ m .sw ∧ m .ports ∧ m .pat ∧ m .hue ∧ m .tm ∧ m .eg ∧ m .tbl ∧ m .sk ∧ m .buffer ∧ m .cu ∧ m .fsu ∧ m .dbg ∧ m .eft ∧ m .clocks) (s : State) : (s.goToSleep).off m = s.off m := by
  grind [State.goToSleep, State.off_with_eft, State.bump_off, State.coreWarm_off, State.coarseLoad_off]

@[simp] theorem warmDrainDone_off (h : m .dict ∧ m .fm ∧ m .time ∧ m .str ∧ m .host ∧ m .hbm ∧ m .sw ∧ m .ports ∧ m .pat ∧ m .hue ∧ m .tm ∧ m .eg ∧ m .tbl ∧ m .sk ∧ m .buffer ∧ m .cu ∧ m .fsu ∧ m .dbg ∧ m .eft ∧ m .clocks ∧ m .free) (s : State) : (warmDrainDone s).off m = s.off m := by
  simp only [warmDrainDone]; (repeat' split) <;> simp [*]

@[simp] theorem restartSequence_off (h : m .dict ∧ m .fm ∧ m .str ∧ m .hbm ∧ m .ports ∧ m .hue ∧ m .tbl ∧ m .sk ∧ m .fsu ∧ m .dbg ∧ m .eft ∧ m .outbox) (s : State) (reloads : List StoreReload) : (restartSequence s reloads).off m = s.off m := by
  simp [restartSequence, h]

@[simp] theorem State.startWake_off (h : m .dict ∧ m .eft) (s : State) : (s.startWake).off m = s.off m := by
  simp [State.startWake, h]

@[simp] theorem brumationReached_off (h : m .dict ∧ m .eft) (s : State) : (brumationReached s).off m = s.off m := by
  simp [brumationReached, h]

@[simp] theorem State.wakeCore_off (h : m .dict ∧ m .time ∧ m .clock ∧ m .counters ∧ m .str ∧ m .tm ∧ m .eg ∧ m .eft ∧ m .clocks) (s : State) : (s.wakeCore).off m = s.off m := by
  simp [State.wakeCore, h]

@[simp] theorem State.coldTrigger_off (h : m .dict ∧ m .fm ∧ m .safe ∧ m .time ∧ m .clock ∧ m .counters ∧ m .str ∧ m .host ∧ m .hbm ∧ m .sw ∧ m .ports ∧ m .pat ∧ m .hue ∧ m .tm ∧ m .eg ∧ m .tbl ∧ m .sk ∧ m .buffer ∧ m .cu ∧ m .fsu ∧ m .dbg ∧ m .eft ∧ m .clocks ∧ m .outbox) (s : State) (trigger : Nat) (straps : Nat) (low : Bool) : (s.coldTrigger trigger straps low).off m = s.off m := by
  simp [State.coldTrigger, h]

@[simp] theorem resetRelease_off (h : m .dict ∧ m .fm ∧ m .time ∧ m .clock ∧ m .counters ∧ m .str ∧ m .hbm ∧ m .ports ∧ m .pat ∧ m .hue ∧ m .tm ∧ m .eg ∧ m .sk ∧ m .fsu ∧ m .dbg ∧ m .eft ∧ m .clocks ∧ m .outbox) (s : State) : (resetRelease s).off m = s.off m := by
  simp [resetRelease, h]

@[simp] theorem State.railReached_off (h : m .eft) (s : State) : (s.railReached).off m = s.off m := by
  simp [State.railReached, h]

@[simp] theorem State.raiseEnable_off (h : m .eft) (s : State) (k : Nat) : (s.raiseEnable k).off m = s.off m := by
  simp [State.raiseEnable, h]

@[simp] theorem railEnable_off (h : m .dict ∧ m .fm ∧ m .time ∧ m .clock ∧ m .counters ∧ m .str ∧ m .hbm ∧ m .ports ∧ m .pat ∧ m .hue ∧ m .tm ∧ m .eg ∧ m .sk ∧ m .fsu ∧ m .dbg ∧ m .eft ∧ m .clocks ∧ m .outbox) (s : State) (held : Bool) : (railEnable s held).off m = s.off m := by
  simp only [railEnable]; (repeat' split) <;> simp [*]

@[simp] theorem State.dropEnable_off (h : m .eft) (s : State) (k : Nat) : (s.dropEnable k).off m = s.off m := by
  simp [State.dropEnable, h]

@[simp] theorem railRelease_off (h : m .eft) (s : State) : (railRelease s).off m = s.off m := by
  simp [railRelease, h]

@[simp] theorem State.dropHighest_off (h : m .eft) (s : State) : (s.dropHighest).off m = s.off m := by
  simp [State.dropHighest, h]

@[simp] theorem State.releaseRails_off (h : m .dbg ∧ m .eft ∧ m .clocks) (s : State) : (s.releaseRails).off m = s.off m := by
  simp only [State.releaseRails]
  rw [State.dropHighest_off (by simp [h])]
  simp [State.off, h]

@[simp] theorem railTimeout_off (h : m .dict ∧ m .fm ∧ m .safe ∧ m .time ∧ m .str ∧ m .host ∧ m .hbm ∧ m .ports ∧ m .pat ∧ m .hue ∧ m .tm ∧ m .eg ∧ m .tbl ∧ m .sk ∧ m .fsu ∧ m .dbg ∧ m .eft ∧ m .clocks ∧ m .outbox) (s : State) : (railTimeout s).off m = s.off m := by
  simp [railTimeout, h]

@[simp] theorem coreRailFault_off (h : m .dict ∧ m .fm ∧ m .safe ∧ m .time ∧ m .str ∧ m .host ∧ m .hbm ∧ m .ports ∧ m .pat ∧ m .hue ∧ m .tm ∧ m .eg ∧ m .tbl ∧ m .sk ∧ m .fsu ∧ m .dbg ∧ m .eft ∧ m .outbox) (s : State) (rail : Nat) : (coreRailFault s rail).off m = s.off m := by
  simp [coreRailFault, h]

@[simp] theorem pwrgoodFall_off (h : m .dict ∧ m .dbg ∧ m .eft ∧ m .clocks) (s : State) : (pwrgoodFall s).off m = s.off m := by
  grind [pwrgoodFall, State.off_with_eft, State.wr_off, State.releaseRails_off]

@[simp] theorem coarseTimeLoad_off (h : m .dict) (s : State) : (coarseTimeLoad s).off m = s.off m := by
  simp [coarseTimeLoad, h]

@[simp] theorem refclkCheck_off (h : m .dict ∧ m .fm ∧ m .time) (s : State) : (refclkCheck s).off m = s.off m := by
  simp [refclkCheck, h]

@[simp] theorem aonclkFault_off (h : m .dict ∧ m .fm ∧ m .eft) (s : State) : (aonclkFault s).off m = s.off m := by
  simp only [aonclkFault]; split <;> simp [*]

@[simp] theorem tjSample_off (h : m .fm ∧ m .eft) (s : State) (sensor : Nat) (mc : Int) : (tjSample s sensor mc).off m = s.off m := by
  simp [tjSample, h]

@[simp] theorem State.passDrop_off (h : m .dict ∧ m .fm ∧ m .eft) (s : State) (p : Nat) : (s.passDrop p).off m = s.off m := by
  simp [State.passDrop, h]

@[simp] theorem passFrame_off (h : m .dict ∧ m .fm ∧ m .eft ∧ m .outbox) (s0 : State) (fromB : Bool) (f : List Byte) (lost : Bool) : (passFrame s0 fromB f lost).off m = s0.off m := by
  simp only [passFrame]; (repeat' split) <;> simp [*]

@[simp] theorem State.setSampler_off (h : m .eft) (s : State) (c : Nat) (x : Sampler) : (s.setSampler c x).off m = s.off m := by
  simp [State.setSampler, h]

@[simp] theorem State.sampleAccept_off (h : m .dict ∧ m .eft ∧ m .free) (s : State) (c : Nat) (x : Int) : (s.sampleAccept c x).off m = s.off m := by
  simp only [State.sampleAccept]; split <;> simp [*]

@[simp] theorem State.sampleReject_off (h : m .dict ∧ m .fm ∧ m .eft) (s : State) (c : Nat) : (s.sampleReject c).off m = s.off m := by
  simp [State.sampleReject, h]

@[simp] theorem samplerSample_off (h : m .dict ∧ m .fm ∧ m .eft ∧ m .free) (s : State) (c : Nat) (x : Int) : (samplerSample s c x).off m = s.off m := by
  simp only [samplerSample]; split_ifs <;> simp [*]

@[simp] theorem linear11_off (h : m .free) (w : Nat) (s : State) : (linear11 w s).2.off m = s.off m := by
  simp only [linear11]; split_ifs <;> simp [*]

@[simp] theorem sampleValue_off (h : m .free) (cfg : Nat) (x : BitVec 32) (s : State) : (sampleValue cfg x s).2.off m = s.off m := by
  simp only [sampleValue]; (repeat' split) <;> simp [*]

@[simp] theorem samplerTake_off (h : m .dict ∧ m .fm ∧ m .eft ∧ m .free) (s : State) (c : Nat) (x : BitVec 32) : (samplerTake s c x).off m = s.off m := by
  simp only [samplerTake]; split <;> simp [*]

@[simp] theorem State.freeBus_off (h : m .outbox) (s : State) (c : Nat) (held : Bool) : (s.freeBus c held).off m = s.off m := by
  simp [State.freeBus, h]

@[simp] theorem samplerTimeout_off (h : m .dict ∧ m .fm ∧ m .eft ∧ m .outbox) (s0 : State) (c : Nat) (held : Bool) : (samplerTimeout s0 c held).off m = s0.off m := by
  simp only [samplerTimeout]; split <;> simp [*]

@[simp] theorem samplerApply_off (h : m .dict ∧ m .eft) (c : Nat) (s : State) : (samplerApply c s).off m = s.off m := by
  simp [samplerApply, h]

@[simp] theorem State.setRuleState_off (h : m .eft) (s : State) (r : Nat) (x : RuleState) : (s.setRuleState r x).off m = s.off m := by
  simp [State.setRuleState, h]

@[simp] theorem evalRule_off (h : m .dict ∧ m .eft) (s : State) (r : Nat) : (evalRule s r).2.off m = s.off m := by
  grind [evalRule, State.bump_off, State.setRuleState_off]

@[simp] theorem evalRules_off (h : m .dict ∧ m .eft) (n r : Nat) (s : State) : (evalRules n r s).2.off m = s.off m := by
  induction n generalizing r s with
  | zero => rfl
  | succ n ih => simp [evalRules, ih, h]

@[simp] theorem State.eftLog_off (h : m .dict ∧ m .eft) (s : State) (r : Nat) (x : Nat) : (s.eftLog r x).off m = s.off m := by
  simp [State.eftLog, h]

@[simp] theorem State.sendCanned_off (h : m .dict ∧ m .fm ∧ m .eg ∧ m .outbox) (s : State) (param : Nat) : (s.sendCanned param).off m = s.off m := by
  simp only [State.sendCanned]; split_ifs <;> simp [*]

@[simp] theorem ruleAction_off (h : m .dict ∧ m .fm ∧ m .eg ∧ m .eft ∧ m .outbox) (wake : Bool) (s : State) (r : Nat) : (ruleAction wake s r).off m = s.off m := by
  simp only [ruleAction]; (repeat' split) <;> simp [*]

@[simp] theorem eftMemory_off (h : m .dict ∧ m .fm ∧ m .eft) (s : State) (x : EftMemory) : (eftMemory s x).off m = s.off m := by
  simp only [eftMemory]; split <;> simp [*]

@[simp] theorem ruleEval_off (h : m .dict ∧ m .fm ∧ m .eg ∧ m .eft ∧ m .outbox) (s : State) (m' : EftMemory) : (ruleEval s m').off m = s.off m := by
  simp [ruleEval, h]

@[simp] theorem wdogTimeout_off (h : m .dict ∧ m .fm ∧ m .safe ∧ m .time ∧ m .clock ∧ m .counters ∧ m .str ∧ m .host ∧ m .hbm ∧ m .sw ∧ m .ports ∧ m .pat ∧ m .hue ∧ m .tm ∧ m .eg ∧ m .tbl ∧ m .sk ∧ m .buffer ∧ m .cu ∧ m .fsu ∧ m .dbg ∧ m .eft ∧ m .clocks ∧ m .outbox) (s : State) (last : Nat) (straps : Nat) : (wdogTimeout s last straps).off m = s.off m := by
  simp only [wdogTimeout]; split_ifs <;> simp [*]

@[simp] theorem firstFaultWritten_off (h : m .dict ∧ m .fm ∧ m .dbg ∧ m .eft ∧ m .clocks) (s : State) (ok : Bool) : (firstFaultWritten s ok).off m = s.off m := by
  unfold firstFaultWritten
  split
  · rfl
  extract_lets newest seq i f t e u
  have ht : t.off m = s.off m := by simp [t, f, h]
  have hu : u.off m = s.off m := by
    simp only [u]
    split <;> simp [e, h, ht]
  clear_value u
  split
  · split <;> simp [h, hu]
  · exact hu

@[simp] theorem bootLoadApply_off (h : m .dict ∧ m .eft) (c : Ctx) (x : Nat) (s : State) : (bootLoadApply c x s).off m = s.off m := by
  simp [bootLoadApply, h]

theorem State.loadedBoot_off (h : m .dict ∧ m .fm ∧ m .str ∧ m .hbm ∧ m .pat ∧ m .hue ∧ m .sk ∧ m .fsu ∧ m .dbg) (s : State) (bad : List Nat) {u : State} (e : s.loadedBoot bad = some u) : u.off m = s.off m := by
  grind [State.loadedBoot, State.bootLoad_off]

@[simp] theorem bootGoApply_off (h : m .dict ∧ m .fm ∧ m .str ∧ m .hbm ∧ m .ports ∧ m .pat ∧ m .hue ∧ m .sk ∧ m .fsu ∧ m .dbg ∧ m .eft ∧ m .outbox) (bad : List Nat) (s : State) : (bootGoApply bad s).off m = s.off m := by
  grind [bootGoApply, State.bootDone_off, State.loadedBoot_off]

@[simp] theorem State.tapSelect_off (h : m .dbg ∧ m .outbox) (s : State) (code : Nat) : (s.tapSelect code).off m = s.off m := by
  simp [State.tapSelect, h]

@[simp] theorem State.tapScan_off (h : m .dbg ∧ m .outbox ∧ m .free) (s : State) (code : Nat) (bits : List Bool) : (s.tapScan code bits).off m = s.off m := by
  simp [State.tapScan, h]

@[simp] theorem State.tapBypass_off (h : m .dbg ∧ m .outbox) (s : State) (code : Nat) (bits : List Bool) : (s.tapBypass code bits).off m = s.off m := by
  simp [State.tapBypass, h]

@[simp] theorem ended_off (h : m .dict) (c : Ctx) (o : Obj) (r : Nat × State) : (ended c o r).off m = r.2.off m :=
  State.setResult_off h ..

@[simp] theorem flowSearchApply_off (h : m .dict ∧ m .fm ∧ m .hbm ∧ m .fsu) (c : Ctx) (s : State) : (flowSearchApply c s).off m = s.off m := by
  simp only [flowSearchApply]; split <;> simp [*]

@[simp] theorem flowLockApply_off (h : m .dict ∧ m .fm ∧ m .hbm ∧ m .sk ∧ m .fsu) (c : Ctx) (s : State) : (flowLockApply c s).off m = s.off m := by
  grind [flowLockApply, State.startRun_off, State.endRun_off, flowLock_off]

@[simp] theorem flowUnlockApply_off (h : m .dict ∧ m .fm ∧ m .sk ∧ m .fsu) (c : Ctx) (s : State) : (flowUnlockApply c s).off m = s.off m := by
  simp [flowUnlockApply, h]

@[simp] theorem flowWriteApply_off (h : m .dict ∧ m .fm ∧ m .hbm ∧ m .sk ∧ m .fsu) (c : Ctx) (x : Nat) (s : State) : (flowWriteApply c x s).off m = s.off m := by
  simp only [flowWriteApply]
  split
  · have inserted := flowInsert_off (m := m) (by simp [h]) (s.startRun c (Objs.flow_write.key 0) 0) (s.dictKey c)
      ((leBytes 136 (s.rdCtx c Objs.flow_record)).take 128) (ctxOwner c)
    split
    all_goals
      next e =>
        rw [e] at inserted
        simp_all
  · simp [h]

@[simp] theorem flowNextApply_off (h : m .dict ∧ m .fm ∧ m .hbm ∧ m .fsu) (c : Ctx) (s : State) : (flowNextApply c s).off m = s.off m := by
  simp [flowNextApply, h]

@[simp] theorem flowFlushApply_off (h : m .dict ∧ m .fsu) (c : Ctx) (byPort : Bool) (x : Nat) (s : State) : (flowFlushApply c byPort x s).off m = s.off m := by
  simp only [flowFlushApply]
  split
  next e => exact (State.startFlowFlush_off h.2 _ _ _ _ e).trans (State.startRun_off h.1 ..)
  · simp [h]

@[simp] theorem tblCmdGets_off (h : m .fm ∧ m .tbl ∧ m .free) (index n : Nat) (s : State) : (tblCmdGets index n s).2.2.off m = s.off m := by
  induction n generalizing index s with
  | zero => rfl
  | succ n ih => simp [tblCmdGets, ih, h]

@[simp] theorem tblCmdRead_off (h : m .dict ∧ m .fm ∧ m .tbl ∧ m .free) (c : Ctx) (s : State) (target : Nat) (index : Nat) (key : List Byte) : (tblCmdRead c s target index key).2.off m = s.off m := by
  simp only [tblCmdRead]; split <;> simp [*]

@[simp] theorem tblCmdPuts_off (h : m .fm ∧ m .hbm ∧ m .tbl) (target : Nat) (index : Nat) (o : Owner) (x : List Byte) (y : State) : (tblCmdPuts target index o x y).off m = y.off m := by
  fun_induction tblCmdPuts target index o x y <;> simp_all

@[simp] theorem tblCmdWrite_off (h : m .fm ∧ m .hbm ∧ m .tbl) (c : Ctx) (s : State) (target : Nat) (index : Nat) (key : List Byte) : (tblCmdWrite c s target index key).2.off m = s.off m := by
  simp only [tblCmdWrite]; split <;> simp [*]

@[simp] theorem tblCmdRun_off (h : m .dict ∧ m .fm ∧ m .hbm ∧ m .tbl ∧ m .free) (c : Ctx) (x : Nat) (s : State) : (tblCmdRun c x s).2.off m = s.off m := by
  simp only [tblCmdRun]; (repeat' split) <;> simp [*]

@[simp] theorem tblCmdApply_off (h : m .dict ∧ m .fm ∧ m .hbm ∧ m .tbl ∧ m .free) (c : Ctx) (x : Nat) (s : State) : (tblCmdApply c x s).off m = s.off m := by
  simp [tblCmdApply, h]

@[simp] theorem epochDomain_off (h : m .dict ∧ m .fm ∧ m .time ∧ m .counters) (s : State) (d : Nat) : (epochDomain s d).off m = s.off m := by
  simp [epochDomain, h]

theorem State.off_with_fsu_tbl (h : m .tbl ∧ m .fsu) (s : State) (x : Fsu) (y : TableUnit) :
    State.off m { s with fsu := x, tbl := y } = s.off m := by
  simp [State.off, h]

@[simp] theorem State.wStepped_off (h : m .dict ∧ m .fm ∧ m .tm ∧ m .eg ∧ m .tbl ∧ m .fsu) (s : State) (step : Int) : (s.wStepped step).off m = s.off m := by
  simp only [State.wStepped]
  rw [State.off_with_fsu_tbl (by simp [h]), State.off_foldl]
  · simp [h]
  · simp [h]

@[simp] theorem epochWork_off (h : m .dict ∧ m .fm ∧ m .time ∧ m .counters ∧ m .tm ∧ m .eg ∧ m .tbl ∧ m .fsu) (s : State) : (epochWork s).off m = s.off m := by
  grind [epochWork, State.off_with_time, State.wr_off, State.raise_off, State.wStepped_off]

@[simp] theorem timeFault_off (h : m .dict ∧ m .fm ∧ m .time) (s : State) (x : TimeFault) : (timeFault s x).off m = s.off m := by
  cases x with
  | none => rfl
  | corrected => exact State.raise_off h.2.1 ..
  | tracker d =>
    simp only [timeFault]
    split <;> simp [h]
  | history i => exact State.off_with_time h.2.2 (.inr ⟨rfl, rfl⟩) (.inr ⟨rfl, rfl, rfl⟩)

@[simp] theorem epochRows_off (h : m .dict ∧ m .fm ∧ m .time) (s : State) (d : Nat) : (epochRows s d).off m = s.off m := by
  simp only [epochRows]; split_ifs <;> simp [*]

/-- What an epoch boundary leaves of the time unit beside its steps: the ticks, F, and the three other counters. -/
def TimeUnit.sameCounters (u v : TimeUnit) : Prop := (u.ticks = v.ticks ∧ u.f = v.f) ∧ u.a = v.a ∧ u.b = v.b ∧ u.w = v.w

theorem pushHistory_sameCounters (u : TimeUnit) : (pushHistory u).sameCounters u := by
  unfold pushHistory
  exact ⟨⟨rfl, rfl⟩, rfl, rfl, rfl⟩

theorem TimeUnit.newBoards_sameCounters (u : TimeUnit) (rx tx : Tab Int) : (u.newBoards rx tx).sameCounters u := by
  unfold TimeUnit.newBoards
  split <;> split <;> exact ⟨⟨rfl, rfl⟩, rfl, rfl, rfl⟩

theorem TimeUnit.sameCounters.trans {u v w : TimeUnit} (h : u.sameCounters v) (h' : v.sameCounters w) : u.sameCounters w := by
  obtain ⟨⟨ht, hf⟩, ha, hb, hw⟩ := h
  obtain ⟨⟨ht', hf'⟩, ha', hb', hw'⟩ := h'
  exact ⟨⟨ht.trans ht', hf.trans hf'⟩, ha.trans ha', hb.trans hb', hw.trans hw'⟩

@[simp] theorem epochBoundary_off (h : m .dict ∧ m .fm ∧ m .time ∧ m .counters ∧ m .tm ∧ m .eg ∧ m .tbl ∧ m .fsu) (s : State) (fault : TimeFault) : (epochBoundary s fault).off m = s.off m := by
  simp only [epochBoundary]
  split
  · rfl
  rw [epochRows_off (by simp [h]), epochRows_off (by simp [h]), State.off_with_time (by simp [h]), State.wr_off h.1,
    State.off_with_time (by simp [h])]
  · simp [h]
  · exact .inr ⟨rfl, rfl⟩
  · exact .inr ⟨rfl, rfl, rfl⟩
  · exact .inr ((pushHistory_sameCounters _).trans (TimeUnit.newBoards_sameCounters ..)).1
  · exact .inr ((pushHistory_sameCounters _).trans (TimeUnit.newBoards_sameCounters ..)).2

@[simp] theorem readEffect_off (h : m .dict ∧ m .time) (o : Obj) (i : Nat) (s : State) : (readEffect o i s).off m = s.off m := by
  simp [readEffect, h]

@[simp] theorem saveStart_off (h : m .dict ∧ m .eft) (c : Ctx) (s : State) : (saveStart c s).off m = s.off m := by
  simp [saveStart, h]

@[simp] theorem saveErase_off (h : m .eft) (s : State) : (saveErase s).off m = s.off m := by
  simp [saveErase, h]

@[simp] theorem saveApply_off (h : m .dict ∧ m .eft) (c : Ctx) (x : Nat) (s : State) : (saveApply c x s).off m = s.off m := by
  simp [saveApply, h]

@[simp] theorem State.writeBank_off (h : m .eft) (s : State) (x : NImage) : (s.writeBank x).off m = s.off m := by
  simp only [State.writeBank]; split <;> simp [*]

@[simp] theorem State.spoilBank_off (h : m .eft) (s : State) : (s.spoilBank).off m = s.off m := by
  simp only [State.spoilBank]; split <;> simp [*]

@[simp] theorem saveDone_off (h : m .dict ∧ m .fm ∧ m .eft) (s : State) (ok : Bool) : (saveDone s ok).off m = s.off m := by
  simp only [saveDone]; split <;> simp [*]

@[simp] theorem resetCmdApply_off (h : m .dict ∧ m .fm ∧ m .safe ∧ m .time ∧ m .clock ∧ m .counters ∧ m .str ∧ m .host ∧ m .hbm ∧ m .sw ∧ m .ports ∧ m .pat ∧ m .hue ∧ m .tm ∧ m .eg ∧ m .tbl ∧ m .sk ∧ m .buffer ∧ m .cu ∧ m .fsu ∧ m .dbg ∧ m .eft ∧ m .clocks ∧ m .outbox ∧ m .free) (x : Nat) (s : State) : (resetCmdApply x s).off m = s.off m := by
  simp [resetCmdApply, h]

@[simp] theorem answerItem_off (h : m .outbox) (c : Ctx) (idx : Nat) (sub : Nat) (k : Code) (s : State) : (answerItem c idx sub k s).off m = s.off m := by
  simp [answerItem, h]

@[simp] theorem dictRead_off (h : m .dict ∧ m .time ∧ m .outbox) (c : Ctx) (idx : Nat) (sub : Nat) (v : List Byte) (s : State) : (dictRead c idx sub v s).off m = s.off m := by
  simp only [dictRead]; split <;> simp [*]

@[simp] theorem takeAnswer_off (h : m .outbox) (before : Nat) (s : State) : (takeAnswer before s).2.off m = s.off m := by
  simp only [takeAnswer]; (repeat' split) <;> simp [*]






@[simp] theorem dictCapture_off (h : m .outbox) (s : State) (data : Nat) : (dictCapture s data).off m = s.off m := by
  simp [dictCapture, h]

theorem dictOp_off (h : m .dbg ∧ m .outbox) {f : State → State} (hf : ∀ s, (f s).off m = s.off m) (s : State) : (dictOp f s).off m = s.off m := by
  simp only [dictOp]
  split_ifs <;> simp [h, hf]

@[simp] theorem dictPut_off (h : m .dbg) (byte : Byte) (s : State) : (dictPut byte s).off m = s.off m := by
  simp [dictPut, h]

@[simp] theorem dictGet_off (h : m .dbg ∧ m .outbox ∧ m .free) (s : State) : (dictGet s).off m = s.off m := by
  simp only [dictGet]; split <;> simp [*]

@[simp] theorem State.setSessions_off (h : m .dict) (s : State) (p : OapPath) (t : Tab Session) : (s.setSessions p t).off m = s.off m := by
  simp only [State.setSessions]; split <;> simp [*]

@[simp] theorem State.setOapCount_off (h : m .dict) (s : State) (p : OapPath) (x : Nat × Nat) : (s.setOapCount p x).off m = s.off m := by
  simp only [State.setOapCount]; split <;> simp [*]

@[simp] theorem endSession_off (h : m .dict ∧ m .fm ∧ m .tbl ∧ m .sk ∧ m .fsu) (p : OapPath) (n : Nat) (s : State) : (endSession p n s).off m = s.off m := by
  simp [endSession, h]

theorem State.freeSession_off (h : m .dict ∧ m .fm ∧ m .tbl ∧ m .sk ∧ m .fsu) (s : State) (p : OapPath) {u : Nat × State} (e : s.freeSession p = some u) : u.2.off m = s.off m := by
  simp only [State.freeSession] at e
  split at e
  · cases e
    rfl
  · obtain ⟨n, -, rfl⟩ := Option.map_eq_some_iff.mp e
    exact endSession_off (by simp [h]) ..


theorem oapLimit_off (h : m .dict) (p : OapPath) (s : State) {u : State} (e : oapLimit p s = some u) : u.off m = s.off m := by
  grind [oapLimit, State.setOapCount_off]


@[simp] theorem sessionExpiry_off (h : m .dict ∧ m .fm ∧ m .tbl ∧ m .sk ∧ m .fsu) (p : OapPath) (n : Nat) (s : State) : (sessionExpiry p n s).off m = s.off m := by
  grind [sessionExpiry, endSession_off]

@[simp] theorem agentSend_off (h : m .hue ∧ m .tm) (port : Nat) (frame : List Byte) (s : State) : (agentSend port frame s).off m = s.off m := by
  simp [agentSend, h]

@[simp] theorem agentUdp_off (h : m .free) (s : State) (dst : Nat) (port : Nat) (payload : List Byte) : (agentUdp s dst port payload).2.off m = s.off m := by
  simp [agentUdp, h]


@[simp] theorem savedPass_off (h : m .dict) (s : State) : (savedPass s).off m = s.off m := by
  simp [savedPass, h]

@[simp] theorem savedSettle_off (h : m .dict) (n : Nat) (s : State) : (savedSettle n s).off m = s.off m := by
  induction n generalizing s with
  | zero => rfl
  | succ n ih =>
    simp only [savedSettle]
    split <;> simp [ih, h]

@[simp] theorem subModes_off (h : m .dict) (s : State) : (subModes s).off m = s.off m := by
  simp [subModes, h]

@[simp] theorem putSaved_off (h : m .dict) (s : State) (p : Nat × Nat) : (putSaved s p).off m = s.off m := by
  simp only [putSaved]; split <;> simp [*]

@[simp] theorem loadImage_off (h : m .dict ∧ m .tm ∧ m .fsu) (x : NImage) (s : State) : (loadImage x s).off m = s.off m := by
  simp only [loadImage]
  rw [subModes_off (by simp [h]), savedSettle_off h.1, State.off_foldl fun s p => putSaved_off h.1 ..]
  simp [State.off, h]

@[simp] theorem loadSaved_off (h : m .dict ∧ m .tm ∧ m .fsu) (s : State) : (loadSaved s).off m = s.off m := by
  simp only [loadSaved]; split <;> simp [*]

theorem State.bare_off (h : ∀ p, m p) (s : State) (slot0 slot1 : List Byte) : (s.bare slot0 slot1).off m = s.off m := by
  simp [State.bare, State.off, h]

theorem powerOn_off (h : ∀ p, m p) (s : State) (device straps : Nat) (slot0 slot1 : List Byte) : (powerOn s device straps slot0 slot1).off m = s.off m := by
  simp only [powerOn]
  rw [State.railsUp_off (by simp [h]), State.put_off (h _), State.off_with_eft (h _) (.inl (h _))]
  simp [h, State.bare_off]

@[simp] theorem puntSample_off (h : m .dict ∧ m .fm ∧ m .time) (s : State) (md : Nat) (fault : TimeFault) : (puntSample s md fault).off m = s.off m := by
  simp [puntSample, h]

@[simp] theorem State.enterTm_off (h : m .tm) (s : State) (it : TmItem) : (s.enterTm it).off m = s.off m := by
  simp [State.enterTm, h]

@[simp] theorem mirrorCopy_off (h : m .dict ∧ m .fm ∧ m .str ∧ m .hbm ∧ m .hue ∧ m .tm) (s : State) (k : Packet) : (mirrorCopy s k).off m = s.off m := by
  simp [mirrorCopy, h]

@[simp] theorem discardPacket_off (h : m .dict ∧ m .fm ∧ m .str ∧ m .hbm ∧ m .hue) (s : State) (p : Nat) (e : REntry) (k : Packet) : (discardPacket s p e k).off m = s.off m := by
  simp [discardPacket, h]

@[simp] theorem sdoSend_off (h : m .outbox) (cmd : Nat) (rest : List Byte) (s : State) : (sdoSend cmd rest s).off m = s.off m := by
  simp [sdoSend, h]

@[simp] theorem sdoIdle_off (h : m .dict) (s : State) : (sdoIdle s).off m = s.off m := by
  simp [sdoIdle, h]

@[simp] theorem sdoGoing_off (h : m .dict) (x : SdoXfer) (s : State) : (sdoGoing x s).off m = s.off m := by
  simp [sdoGoing, h]

@[simp] theorem sdoAbort_off (h : m .dict ∧ m .outbox) (idx : Nat) (sub : Nat) (code : Nat) (s : State) : (sdoAbort idx sub code s).off m = s.off m := by
  simp [sdoAbort, h]




@[simp] theorem uploadSegment_off (h : m .dict ∧ m .outbox) (d : List Byte) (x : SdoXfer) (s : State) : (uploadSegment d x s).off m = s.off m := by
  simp [uploadSegment, h]


@[simp] theorem sdoTimeout_off (h : m .dict ∧ m .outbox) (s : State) : (sdoTimeout s).off m = s.off m := by
  grind [sdoTimeout, sdoAbort_off]




end
end Sys2Proof.Machine
end

section
/-! The frames of the commands that write one object or end an entry of a command ring. -/

namespace Sys2Proof.Machine
section
variable {m : Piece → Bool}

@[simp] theorem execTmAdmit_off (h : m .dict ∧ m .fm ∧ m .host ∧ m .hbm ∧ m .hue ∧ m .tm ∧ m .tbl ∧ m .sk ∧ m .fsu ∧ m .outbox ∧ m .free) (overload : Bool) (ecc : MeterEcc) (s : State) :
    (Out.state s (execTmAdmit overload ecc s)).off m = s.off m := by
  simp only [execTmAdmit]
  split
  · rfl
  · simp [Out.state, h]

@[simp] theorem execPortModeWrite_off (h : m .dict ∧ m .fm ∧ m .time ∧ m .str ∧ m .hbm ∧ m .ports ∧ m .tm ∧ m .eg ∧ m .tbl ∧ m .outbox) (c : Ctx) (port : Fin 256) (v : List Byte) (s : State) :
    (Out.state s (execPortModeWrite c port v s)).off m = s.off m := by
  simp [execPortModeWrite, Out.state, h]

@[simp] theorem execAdminUpWrite_off (h : m .dict ∧ m .fm ∧ m .time ∧ m .str ∧ m .hbm ∧ m .ports ∧ m .tm ∧ m .eg ∧ m .tbl ∧ m .outbox) (c : Ctx) (port : Fin 256) (v : List Byte) (s : State) :
    (Out.state s (execAdminUpWrite c port v s)).off m = s.off m := by
  simp [execAdminUpWrite, Out.state, h]

@[simp] theorem execLinkFilterWrite_off (h : m .dict ∧ m .fm ∧ m .time ∧ m .str ∧ m .hbm ∧ m .ports ∧ m .tm ∧ m .eg ∧ m .tbl ∧ m .outbox) (c : Ctx) (port : Fin 256) (up : Bool) (v : List Byte) (s : State) :
    (Out.state s (execLinkFilterWrite c port up v s)).off m = s.off m := by
  simp [execLinkFilterWrite, Out.state, h]

@[simp] theorem execPortCountersClear_off (h : m .dict ∧ m .fm ∧ m .str ∧ m .hbm ∧ m .outbox) (c : Ctx) (port : Fin 256) (v : List Byte) (s : State) :
    (Out.state s (execPortCountersClear c port v s)).off m = s.off m := by
  simp [execPortCountersClear, Out.state, h]

@[simp] theorem execHueCommit_off (h : m .dict ∧ m .fm ∧ m .str ∧ m .hbm ∧ m .hue ∧ m .outbox) (c : Ctx) (v : List Byte) (s : State) :
    (Out.state s (execHueCommit c v s)).off m = s.off m := by
  simp [execHueCommit, Out.state, h]

@[simp] theorem execHueAbort_off (h : m .dict ∧ m .fm ∧ m .str ∧ m .hbm ∧ m .pat ∧ m .hue ∧ m .sk ∧ m .fsu ∧ m .outbox) (c : Ctx) (v : List Byte) (s : State) :
    (Out.state s (execHueAbort c v s)).off m = s.off m := by
  simp [execHueAbort, Out.state, h]

@[simp] theorem execRuleHeaderWrite_off (h : m .dict ∧ m .fm ∧ m .str ∧ m .hbm ∧ m .hue ∧ m .outbox) (c : Ctx) (v : List Byte) (s : State) :
    (Out.state s (execRuleHeaderWrite c v s)).off m = s.off m := by
  simp [execRuleHeaderWrite, Out.state, h]

@[simp] theorem execRuleContentWrite_off (h : m .dict ∧ m .fm ∧ m .str ∧ m .hbm ∧ m .hue ∧ m .outbox) (c : Ctx) (part : Fin 3) (v : List Byte) (s : State) :
    (Out.state s (execRuleContentWrite c part v s)).off m = s.off m := by
  simp [execRuleContentWrite, Out.state, h]

@[simp] theorem execRwhValueWrite_off (h : m .dict ∧ m .fm ∧ m .str ∧ m .hbm ∧ m .hue ∧ m .outbox) (c : Ctx) (obj : Fin 3) (v : List Byte) (s : State) :
    (Out.state s (execRwhValueWrite c obj v s)).off m = s.off m := by
  simp [execRwhValueWrite, Out.state, h]

@[simp] theorem execPatSetHeaderWrite_off (h : m .dict ∧ m .fm ∧ m .str ∧ m .hbm ∧ m .pat ∧ m .outbox) (c : Ctx) (v : List Byte) (s : State) :
    (Out.state s (execPatSetHeaderWrite c v s)).off m = s.off m := by
  simp [execPatSetHeaderWrite, Out.state, h]

@[simp] theorem execPatWordWrite_off (h : m .dict ∧ m .fm ∧ m .str ∧ m .hbm ∧ m .pat ∧ m .outbox) (c : Ctx) (v : List Byte) (s : State) :
    (Out.state s (execPatWordWrite c v s)).off m = s.off m := by
  simp [execPatWordWrite, Out.state, h]

@[simp] theorem execPatEngineIsolate_off (h : m .dict ∧ m .fm ∧ m .str ∧ m .hbm ∧ m .pat ∧ m .hue ∧ m .sk ∧ m .outbox) (c : Ctx) (v : List Byte) (s : State) :
    (Out.state s (execPatEngineIsolate c v s)).off m = s.off m := by
  simp [execPatEngineIsolate, Out.state, h]

@[simp] theorem execPatEngineRegrow_off (h : m .dict ∧ m .fm ∧ m .str ∧ m .hbm ∧ m .outbox) (c : Ctx) (v : List Byte) (s : State) :
    (Out.state s (execPatEngineRegrow c v s)).off m = s.off m := by
  simp [execPatEngineRegrow, Out.state, h]

@[simp] theorem execClutchDrain_off (h : m .dict ∧ m .fm ∧ m .str ∧ m .hbm ∧ m .sk ∧ m .dbg ∧ m .outbox) (c : Ctx) (v : List Byte) (s : State) :
    (Out.state s (execClutchDrain c v s)).off m = s.off m := by
  simp [execClutchDrain, Out.state, h]

@[simp] theorem execClutchReturn_off (h : m .dict ∧ m .fm ∧ m .str ∧ m .hbm ∧ m .sk ∧ m .dbg ∧ m .outbox) (c : Ctx) (v : List Byte) (s : State) :
    (Out.state s (execClutchReturn c v s)).off m = s.off m := by
  simp [execClutchReturn, Out.state, h]

@[simp] theorem execSkinkIsolate_off (h : m .dict ∧ m .fm ∧ m .str ∧ m .hbm ∧ m .hue ∧ m .sk ∧ m .fsu ∧ m .dbg ∧ m .outbox) (c : Ctx) (v : List Byte) (s : State) :
    (Out.state s (execSkinkIsolate c v s)).off m = s.off m := by
  simp [execSkinkIsolate, Out.state, h]

@[simp] theorem execSkinkRegrow_off (h : m .dict ∧ m .fm ∧ m .str ∧ m .hbm ∧ m .outbox) (c : Ctx) (v : List Byte) (s : State) :
    (Out.state s (execSkinkRegrow c v s)).off m = s.off m := by
  simp [execSkinkRegrow, Out.state, h]

@[simp] theorem execSfEntryWrite_off (h : m .dict ∧ m .fm ∧ m .str ∧ m .hbm ∧ m .sk ∧ m .dbg ∧ m .outbox) (c : Ctx) (v : List Byte) (s : State) :
    (Out.state s (execSfEntryWrite c v s)).off m = s.off m := by
  simp [execSfEntryWrite, Out.state, h]

@[simp] theorem execReorderTimeoutWrite_off (h : m .dict ∧ m .fm ∧ m .str ∧ m .hbm ∧ m .outbox) (c : Ctx) (v : List Byte) (s : State) :
    (Out.state s (execReorderTimeoutWrite c v s)).off m = s.off m := by
  simp [execReorderTimeoutWrite, Out.state, h]

@[simp] theorem execCsBufData_off (h : m .dict ∧ m .fm ∧ m .str ∧ m .hbm ∧ m .sk ∧ m .buffer ∧ m .outbox) (c : Ctx) (v : List Byte) (s : State) :
    (Out.state s (execCsBufData c v s)).off m = s.off m := by
  simp [execCsBufData, Out.state, h]

@[simp] theorem execCsLoad_off (h : m .dict ∧ m .fm ∧ m .str ∧ m .host ∧ m .hbm ∧ m .tbl ∧ m .sk ∧ m .fsu ∧ m .outbox) (source : LoadFrom) (s : State) :
    (Out.state s (execCsLoad source s)).off m = s.off m := by
  simp only [execCsLoad]
  split
  · simp [Out.state, h]
  · simp only [Out.state]
    exact cmdStart_off (by simp [h]) (fun s => by simp [h]) ..

@[simp] theorem execHueImageLoad_off (h : m .dict ∧ m .fm ∧ m .str ∧ m .hbm ∧ m .pat ∧ m .hue ∧ m .sk ∧ m .fsu ∧ m .outbox) (c : Ctx) (v : List Byte) (s : State) :
    (Out.state s (execHueImageLoad c v s)).off m = s.off m := by
  simp [execHueImageLoad, Out.state, h]

@[simp] theorem execDisp0Stage_off (h : m .dict ∧ m .fm ∧ m .str ∧ m .hbm ∧ m .hue ∧ m .sk ∧ m .outbox) (c : Ctx) (v : List Byte) (s : State) :
    (Out.state s (execDisp0Stage c v s)).off m = s.off m := by
  simp [execDisp0Stage, Out.state, h]

@[simp] theorem execTblDmaRead_off (h : m .dict ∧ m .fm ∧ m .host ∧ m .hbm ∧ m .tbl ∧ m .sk ∧ m .fsu ∧ m .outbox ∧ m .free) (ring : Fin 64) (entry : BitVec 256) (buf : List Byte) (words : List WordEcc) (dma : Dma) (s : State) :
    (Out.state s (execTblDmaRead ring entry buf words dma s)).off m = s.off m := by
  simp only [execTblDmaRead, Out.state]
  exact cmdStart_off (by simp [h]) (fun s => by simp [h]) ..

@[simp] theorem execTblDmaWrite_off (h : m .dict ∧ m .fm ∧ m .host ∧ m .hbm ∧ m .tbl ∧ m .sk ∧ m .fsu ∧ m .outbox) (ring : Fin 64) (entry : BitVec 256) (buf : List Byte) (dma : Dma) (s : State) :
    (Out.state s (execTblDmaWrite ring entry buf dma s)).off m = s.off m := by
  simp only [execTblDmaWrite, Out.state]
  exact cmdStart_off (by simp [h]) (fun s => by simp [h]) ..

@[simp] theorem execTblDmaInsert_off (h : m .dict ∧ m .fm ∧ m .host ∧ m .hbm ∧ m .tbl ∧ m .sk ∧ m .fsu ∧ m .outbox) (ring : Fin 64) (entry : BitVec 256) (buf : List Byte) (dma : Dma) (s : State) :
    (Out.state s (execTblDmaInsert ring entry buf dma s)).off m = s.off m := by
  simp only [execTblDmaInsert, Out.state]
  exact cmdStart_off (by simp [h]) (fun s => by simp [h]) ..

@[simp] theorem execTblDmaDelete_off (h : m .dict ∧ m .fm ∧ m .host ∧ m .hbm ∧ m .tbl ∧ m .sk ∧ m .fsu ∧ m .outbox) (ring : Fin 64) (entry : BitVec 256) (buf : List Byte) (dma : Dma) (s : State) :
    (Out.state s (execTblDmaDelete ring entry buf dma s)).off m = s.off m := by
  simp only [execTblDmaDelete, Out.state]
  exact cmdStart_off (by simp [h]) (fun s => by simp [h]) ..

@[simp] theorem execTblLock_off (h : m .dict ∧ m .fm ∧ m .host ∧ m .hbm ∧ m .tbl ∧ m .sk ∧ m .fsu ∧ m .outbox) (ring : Fin 64) (entry : BitVec 256) (buf : List Byte) (dma : Dma) (s : State) :
    (Out.state s (execTblLock ring entry buf dma s)).off m = s.off m := by
  simp only [execTblLock, Out.state]
  exact cmdStart_off (by simp [h]) (fun s => by simp [h]) ..

@[simp] theorem execTblUnlock_off (h : m .dict ∧ m .fm ∧ m .host ∧ m .tbl ∧ m .sk ∧ m .fsu ∧ m .outbox) (ring : Fin 64) (entry : BitVec 256) (buf : List Byte) (dma : Dma) (s : State) :
    (Out.state s (execTblUnlock ring entry buf dma s)).off m = s.off m := by
  simp only [execTblUnlock, Out.state]
  exact cmdStart_off (by simp [h]) (fun s => by simp [h]) ..

@[simp] theorem execTblSearch_off (h : m .dict ∧ m .fm ∧ m .host ∧ m .hbm ∧ m .tbl ∧ m .sk ∧ m .fsu ∧ m .outbox) (ring : Fin 64) (entry : BitVec 256) (buf : List Byte) (dma : Dma) (s : State) :
    (Out.state s (execTblSearch ring entry buf dma s)).off m = s.off m := by
  simp only [execTblSearch, Out.state]
  exact cmdStart_off (by simp [h]) (fun s => by simp [h]) ..

@[simp] theorem execTblNext_off (h : m .dict ∧ m .fm ∧ m .host ∧ m .hbm ∧ m .tbl ∧ m .sk ∧ m .fsu ∧ m .outbox) (ring : Fin 64) (entry : BitVec 256) (dma : Dma) (s : State) :
    (Out.state s (execTblNext ring entry dma s)).off m = s.off m := by
  simp only [execTblNext, Out.state]
  exact cmdStart_off (by simp [h]) (fun s => by simp [h]) ..

@[simp] theorem execTblFlushPort_off (h : m .dict ∧ m .fm ∧ m .host ∧ m .tbl ∧ m .sk ∧ m .fsu ∧ m .outbox) (ring : Fin 64) (entry : BitVec 256) (s : State) :
    (Out.state s (execTblFlushPort ring entry s)).off m = s.off m := by
  simp only [execTblFlushPort, Out.state]
  exact cmdStart_off (by simp [h]) (fun s => by simp [h]) ..

@[simp] theorem execTblFlushTemplate_off (h : m .dict ∧ m .fm ∧ m .host ∧ m .tbl ∧ m .sk ∧ m .fsu ∧ m .outbox) (ring : Fin 64) (entry : BitVec 256) (s : State) :
    (Out.state s (execTblFlushTemplate ring entry s)).off m = s.off m := by
  simp only [execTblFlushTemplate, Out.state]
  exact cmdStart_off (by simp [h]) (fun s => by simp [h]) ..

@[simp] theorem execFlowCacheFlush_off (h : m .dict ∧ m .fm ∧ m .str ∧ m .hbm ∧ m .fsu ∧ m .outbox) (c : Ctx) (v : List Byte) (s : State) :
    (Out.state s (execFlowCacheFlush c v s)).off m = s.off m := by
  simp [execFlowCacheFlush, Out.state, h]

@[simp] theorem execKeyTmplWrite_off (h : m .dict ∧ m .fm ∧ m .str ∧ m .hbm ∧ m .fsu ∧ m .outbox) (c : Ctx) (v : List Byte) (s : State) :
    (Out.state s (execKeyTmplWrite c v s)).off m = s.off m := by
  simp [execKeyTmplWrite, Out.state, h]

@[simp] theorem execHashSaltWrite_off (h : m .dict ∧ m .fm ∧ m .str ∧ m .hbm ∧ m .outbox) (c : Ctx) (v : List Byte) (s : State) :
    (Out.state s (execHashSaltWrite c v s)).off m = s.off m := by
  simp [execHashSaltWrite, Out.state, h]

@[simp] theorem execTmplHeaderWrite_off (h : m .dict ∧ m .fm ∧ m .str ∧ m .hbm ∧ m .fsu ∧ m .outbox) (c : Ctx) (v : List Byte) (s : State) :
    (Out.state s (execTmplHeaderWrite c v s)).off m = s.off m := by
  simp [execTmplHeaderWrite, Out.state, h]

@[simp] theorem execMacFlushPort_off (h : m .dict ∧ m .fm ∧ m .str ∧ m .hbm ∧ m .tbl ∧ m .outbox) (c : Ctx) (v : List Byte) (s : State) :
    (Out.state s (execMacFlushPort c v s)).off m = s.off m := by
  simp [execMacFlushPort, Out.state, h]

@[simp] theorem execMiddleIsolate_off (h : m .dict ∧ m .fm ∧ m .str ∧ m .host ∧ m .hbm ∧ m .hue ∧ m .tm ∧ m .tbl ∧ m .sk ∧ m .fsu ∧ m .outbox) (c : Ctx) (v : List Byte) (s : State) :
    (Out.state s (execMiddleIsolate c v s)).off m = s.off m := by
  simp [execMiddleIsolate, Out.state, h]

@[simp] theorem execMiddleRegrow_off (h : m .dict ∧ m .fm ∧ m .str ∧ m .hbm ∧ m .outbox) (c : Ctx) (v : List Byte) (s : State) :
    (Out.state s (execMiddleRegrow c v s)).off m = s.off m := by
  simp [execMiddleRegrow, Out.state, h]

@[simp] theorem execPolConfigWrite_off (h : m .dict ∧ m .fm ∧ m .str ∧ m .hbm ∧ m .tm ∧ m .outbox) (c : Ctx) (v : List Byte) (s : State) :
    (Out.state s (execPolConfigWrite c v s)).off m = s.off m := by
  simp [execPolConfigWrite, Out.state, h]

@[simp] theorem execShaperWrite_off (h : m .dict ∧ m .fm ∧ m .str ∧ m .hbm ∧ m .eg ∧ m .outbox) (c : Ctx) (port : Fin 256) (queue : Fin 9) (v : List Byte) (s : State) :
    (Out.state s (execShaperWrite c port queue v s)).off m = s.off m := by
  simp only [execShaperWrite, Out.state]
  split_ifs <;> simp [*]

@[simp] theorem execRedProfileWrite_off (h : m .dict ∧ m .fm ∧ m .str ∧ m .hbm ∧ m .tm ∧ m .outbox) (c : Ctx) (v : List Byte) (s : State) :
    (Out.state s (execRedProfileWrite c v s)).off m = s.off m := by
  simp [execRedProfileWrite, Out.state, h]

@[simp] theorem execQueueWeightWrite_off (h : m .dict ∧ m .fm ∧ m .str ∧ m .hbm ∧ m .outbox) (c : Ctx) (port : Fin 256) (queue : Fin 8) (v : List Byte) (s : State) :
    (Out.state s (execQueueWeightWrite c port queue v s)).off m = s.off m := by
  simp [execQueueWeightWrite, Out.state, h]

@[simp] theorem execStrictCountWrite_off (h : m .dict ∧ m .fm ∧ m .str ∧ m .hbm ∧ m .eg ∧ m .outbox) (c : Ctx) (port : Fin 256) (v : List Byte) (s : State) :
    (Out.state s (execStrictCountWrite c port v s)).off m = s.off m := by
  simp [execStrictCountWrite, Out.state, h]

@[simp] theorem execDomEnableWrite_off (h : m .dict ∧ m .fm ∧ m .time ∧ m .str ∧ m .hbm ∧ m .outbox) (c : Ctx) (d : Fin 2) (v : List Byte) (s : State) :
    (Out.state s (execDomEnableWrite c d v s)).off m = s.off m := by
  simp [execDomEnableWrite, Out.state, h]

@[simp] theorem execWSelectWrite_off (h : m .dict ∧ m .fm ∧ m .str ∧ m .hbm ∧ m .outbox) (c : Ctx) (v : List Byte) (s : State) :
    (Out.state s (execWSelectWrite c v s)).off m = s.off m := by
  simp [execWSelectWrite, Out.state, h]

@[simp] theorem execWSet_off (h : m .dict ∧ m .fm ∧ m .time ∧ m .str ∧ m .hbm ∧ m .outbox) (c : Ctx) (v : List Byte) (s : State) :
    (Out.state s (execWSet c v s)).off m = s.off m := by
  simp [execWSet, Out.state, h]

@[simp] theorem execDomStep_off (h : m .dict ∧ m .fm ∧ m .time ∧ m .str ∧ m .hbm ∧ m .outbox) (c : Ctx) (d : Fin 2) (v : List Byte) (s : State) :
    (Out.state s (execDomStep c d v s)).off m = s.off m := by
  simp [execDomStep, Out.state, h]

@[simp] theorem execDomIncWrite_off (h : m .dict ∧ m .fm ∧ m .time ∧ m .str ∧ m .hbm ∧ m .outbox) (c : Ctx) (d : Fin 2) (v : List Byte) (s : State) :
    (Out.state s (execDomIncWrite c d v s)).off m = s.off m := by
  simp [execDomIncWrite, Out.state, h]

@[simp] theorem execTimeSnapshot_off (h : m .dict ∧ m .fm ∧ m .str ∧ m .hbm ∧ m .outbox) (c : Ctx) (v : List Byte) (s : State) :
    (Out.state s (execTimeSnapshot c v s)).off m = s.off m := by
  simp [execTimeSnapshot, Out.state, h]

@[simp] theorem execHbmThaw_off (h : m .dict ∧ m .fm ∧ m .str ∧ m .hbm ∧ m .outbox) (c : Ctx) (v : List Byte) (s : State) :
    (Out.state s (execHbmThaw c v s)).off m = s.off m := by
  simp [execHbmThaw, Out.state, h]

@[simp] theorem execHbmRetire_off (h : m .dict ∧ m .fm ∧ m .str ∧ m .hbm ∧ m .tm ∧ m .fsu ∧ m .outbox) (c : Ctx) (v : List Byte) (s : State) :
    (Out.state s (execHbmRetire c v s)).off m = s.off m := by
  simp [execHbmRetire, Out.state, h]

@[simp] theorem execHbmRegrow_off (h : m .dict ∧ m .fm ∧ m .str ∧ m .hbm ∧ m .outbox) (c : Ctx) (v : List Byte) (s : State) :
    (Out.state s (execHbmRegrow c v s)).off m = s.off m := by
  simp [execHbmRegrow, Out.state, h]

@[simp] theorem execCmdNop_off (h : m .dict ∧ m .fm ∧ m .host ∧ m .tbl ∧ m .sk ∧ m .fsu ∧ m .outbox) (ring : Fin 64) (entry : BitVec 256) (s : State) :
    (Out.state s (execCmdNop ring entry s)).off m = s.off m := by
  simp only [execCmdNop, Out.state]
  exact cmdStart_off (by simp [h]) (fun s => by simp [h]) ..

@[simp] theorem execPktInject_off (h : m .dict ∧ m .fm ∧ m .host ∧ m .ports ∧ m .hue ∧ m .tm ∧ m .tbl ∧ m .sk ∧ m .fsu ∧ m .outbox) (ring : Fin 64) (entry : BitVec 256) (buf : List Byte) (dma : Dma) (s : State) :
    (Out.state s (execPktInject ring entry buf dma s)).off m = s.off m := by
  simp only [execPktInject, Out.state]
  exact cmdStart_off (by simp [h]) (fun s => by simp [h]) ..

@[simp] theorem execHueStage_off (h : m .dict ∧ m .fm ∧ m .host ∧ m .hbm ∧ m .pat ∧ m .hue ∧ m .tbl ∧ m .sk ∧ m .fsu ∧ m .outbox) (ring : Fin 64) (entry : BitVec 256) (buf : List Byte) (dma : Dma) (s : State) :
    (Out.state s (execHueStage ring entry buf dma s)).off m = s.off m := by
  simp only [execHueStage, Out.state]
  exact cmdStart_off (by simp [h]) (fun s => by simp [h]) ..

@[simp] theorem execSave_off (h : m .dict ∧ m .fm ∧ m .str ∧ m .hbm ∧ m .eft ∧ m .outbox) (c : Ctx) (s : State) :
    (Out.state s (execSave c s)).off m = s.off m := by
  simp [execSave, Out.state, h]

@[simp] theorem execErase_off (h : m .dict ∧ m .fm ∧ m .str ∧ m .hbm ∧ m .eft ∧ m .outbox) (c : Ctx) (s : State) :
    (Out.state s (execErase c s)).off m = s.off m := by
  simp [execErase, Out.state, h]

@[simp] theorem execCroakLevelWrite_off (h : m .dict ∧ m .fm ∧ m .str ∧ m .hbm ∧ m .outbox) (c : Ctx) (v : List Byte) (s : State) :
    (Out.state s (execCroakLevelWrite c v s)).off m = s.off m := by
  simp [execCroakLevelWrite, Out.state, h]

@[simp] theorem execFmLogAck_off (h : m .dict ∧ m .fm ∧ m .str ∧ m .hbm ∧ m .outbox) (c : Ctx) (v : List Byte) (s : State) :
    (Out.state s (execFmLogAck c v s)).off m = s.off m := by
  simp [execFmLogAck, Out.state, h]

@[simp] theorem execFmSummaryClear_off (h : m .dict ∧ m .fm ∧ m .str ∧ m .hbm ∧ m .outbox) (c : Ctx) (v : List Byte) (s : State) :
    (Out.state s (execFmSummaryClear c v s)).off m = s.off m := by
  simp [execFmSummaryClear, Out.state, h]

@[simp] theorem execFmFirstClear_off (h : m .dict ∧ m .fm ∧ m .str ∧ m .hbm ∧ m .outbox) (c : Ctx) (v : List Byte) (s : State) :
    (Out.state s (execFmFirstClear c v s)).off m = s.off m := by
  simp [execFmFirstClear, Out.state, h]

@[simp] theorem execFmIsolate_off (h : m .dict ∧ m .fm ∧ m .time ∧ m .str ∧ m .host ∧ m .hbm ∧ m .ports ∧ m .pat ∧ m .hue ∧ m .tm ∧ m .eg ∧ m .tbl ∧ m .sk ∧ m .fsu ∧ m .dbg ∧ m .outbox) (c : Ctx) (v : List Byte) (s : State) :
    (Out.state s (execFmIsolate c v s)).off m = s.off m := by
  refine writeObj_off (by simp [h]) (fun x s => ?_) (fun k s => rfl) ..
  split <;> simp [h]

@[simp] theorem execFmRegrow_off (h : m .dict ∧ m .fm ∧ m .str ∧ m .hbm ∧ m .outbox) (c : Ctx) (v : List Byte) (s : State) :
    (Out.state s (execFmRegrow c v s)).off m = s.off m := by
  refine writeObj_off (by simp [h]) (fun x s => ?_) (fun k s => rfl) ..
  split <;> simp [h]

@[simp] theorem execResetCmdWarm_off (h : m .dict ∧ m .fm ∧ m .str ∧ m .hbm ∧ m .hue ∧ m .sk ∧ m .dbg ∧ m .eft ∧ m .outbox) (c : Ctx) (s : State) :
    (Out.state s (execResetCmdWarm c s)).off m = s.off m := by
  simp [execResetCmdWarm, Out.state, h]

@[simp] theorem execBrumate_off (h : m .dict ∧ m .fm ∧ m .str ∧ m .hbm ∧ m .eft ∧ m .outbox) (c : Ctx) (v : List Byte) (s : State) :
    (Out.state s (execBrumate c v s)).off m = s.off m := by
  simp [execBrumate, Out.state, h]

@[simp] theorem execWake_off (h : m .dict ∧ m .fm ∧ m .str ∧ m .hbm ∧ m .eft ∧ m .outbox) (c : Ctx) (v : List Byte) (s : State) :
    (Out.state s (execWake c v s)).off m = s.off m := by
  simp [execWake, Out.state, h]

@[simp] theorem execSamplerCfgWrite_off (h : m .dict ∧ m .fm ∧ m .str ∧ m .hbm ∧ m .eft ∧ m .outbox) (c : Ctx) (chan : Fin 16) (v : List Byte) (s : State) :
    (Out.state s (execSamplerCfgWrite c chan v s)).off m = s.off m := by
  simp [execSamplerCfgWrite, Out.state, h]

@[simp] theorem execDbgHalt_off (h : m .dict ∧ m .fm ∧ m .str ∧ m .hbm ∧ m .sk ∧ m .dbg ∧ m .outbox) (c : Ctx) (v : List Byte) (s : State) :
    (Out.state s (execDbgHalt c v s)).off m = s.off m := by
  simp [execDbgHalt, Out.state, h]

@[simp] theorem execDbgStep_off (h : m .dict ∧ m .fm ∧ m .str ∧ m .hbm ∧ m .sk ∧ m .outbox) (c : Ctx) (v : List Byte) (s : State) :
    (Out.state s (execDbgStep c v s)).off m = s.off m := by
  simp [execDbgStep, Out.state, h]

@[simp] theorem execDbgResume_off (h : m .dict ∧ m .fm ∧ m .str ∧ m .hbm ∧ m .hue ∧ m .sk ∧ m .dbg ∧ m .outbox) (c : Ctx) (v : List Byte) (s : State) :
    (Out.state s (execDbgResume c v s)).off m = s.off m := by
  simp [execDbgResume, Out.state, h]

@[simp] theorem execBreakpointWrite_off (h : m .dict ∧ m .fm ∧ m .str ∧ m .hbm ∧ m .outbox) (c : Ctx) (clutch : Fin 16) (b : Fin 4) (v : List Byte) (s : State) :
    (Out.state s (execBreakpointWrite c clutch b v s)).off m = s.off m := by
  simp [execBreakpointWrite, Out.state, h]

@[simp] theorem execTraceCtrlWrite_off (h : m .dict ∧ m .fm ∧ m .str ∧ m .hbm ∧ m .dbg ∧ m .outbox) (c : Ctx) (clutch : Fin 16) (v : List Byte) (s : State) :
    (Out.state s (execTraceCtrlWrite c clutch v s)).off m = s.off m := by
  simp [execTraceCtrlWrite, Out.state, h]

@[simp] theorem execDbgMemRead_off (h : m .dict ∧ m .fm ∧ m .str ∧ m .hbm ∧ m .hue ∧ m .sk ∧ m .fsu ∧ m .dbg ∧ m .outbox ∧ m .free) (c : Ctx) (parity : Bool) (s : State) :
    (Out.state s (execDbgMemRead c parity s)).off m = s.off m := by
  simp [execDbgMemRead, Out.state, h]

@[simp] theorem execDbgMemWrite_off (h : m .dict ∧ m .fm ∧ m .str ∧ m .hbm ∧ m .hue ∧ m .sk ∧ m .fsu ∧ m .dbg ∧ m .outbox ∧ m .free) (c : Ctx) (s : State) :
    (Out.state s (execDbgMemWrite c s)).off m = s.off m := by
  simp [execDbgMemWrite, Out.state, h]

@[simp] theorem execLanePrbsWrite_off (h : m .dict ∧ m .fm ∧ m .str ∧ m .hbm ∧ m .outbox) (c : Ctx) (lane : Fin 64) (v : List Byte) (pattern : Option Nat) (s : State) :
    (Out.state s (execLanePrbsWrite c lane v pattern s)).off m = s.off m := by
  simp [execLanePrbsWrite, Out.state, h]

@[simp] theorem execBootLoadFull_off (h : m .dict ∧ m .fm ∧ m .str ∧ m .hbm ∧ m .eft ∧ m .outbox) (c : Ctx) (s : State) :
    (Out.state s (execBootLoadFull c s)).off m = s.off m := by
  simp [execBootLoadFull, Out.state, h]

@[simp] theorem execBootLoadHue_off (h : m .dict ∧ m .fm ∧ m .str ∧ m .hbm ∧ m .eft ∧ m .outbox) (c : Ctx) (s : State) :
    (Out.state s (execBootLoadHue c s)).off m = s.off m := by
  simp [execBootLoadHue, Out.state, h]

@[simp] theorem execBootGo_off (h : m .dict ∧ m .fm ∧ m .str ∧ m .hbm ∧ m .ports ∧ m .pat ∧ m .hue ∧ m .sk ∧ m .fsu ∧ m .dbg ∧ m .eft ∧ m .outbox) (c : Ctx) (bad : List (Fin 16)) (s : State) :
    (Out.state s (execBootGo c bad s)).off m = s.off m := by
  simp [execBootGo, Out.state, h]

end
end Sys2Proof.Machine
end

section
/-! What every command but a power-on reset does to what the invariant, the safe state and counter F speak of, and the safe state. -/

namespace Sys2Proof.Machine
section
variable {m : Piece → Bool} {s t u : State}

/-- Every piece but those of `l`. -/
def Piece.keep (l : List Piece) (p : Piece) : Bool := decide (p ∉ l)

@[simp] theorem Piece.keep_iff (l : List Piece) (p : Piece) : Piece.keep l p = true ↔ p ∉ l := decide_eq_true_iff

/-- The pieces of which the invariant, the safe state and counter F do not speak. -/
abbrev Piece.plain : Piece → Bool := Piece.keep [.safe, .clock, .counters, .sw, .buffer, .clocks]

/-- What every command but a power-on reset does to the state: the queue stays, the safe state is not left, F and the ticks go on or start
again from 0 (and do so where the core's clocks start), and the invariant holds on. -/
structure State.Leads (s t : State) : Prop where
  pending : t.pending = s.pending
  safe : s.fm.safe = true → t.fm.safe = true
  clock : t.time.f = s.time.f ∧ t.time.ticks = s.time.ticks ∧ (t.eft.clocks = true → s.eft.clocks = true) ∨ t.time.f = 0 ∧ t.time.ticks = 0
  inv : s.Inv → t.Inv

theorem State.Leads.refl (s : State) : s.Leads s := ⟨rfl, id, .inl ⟨rfl, rfl, id⟩, id⟩

theorem State.Leads.trans (h : s.Leads t) (h' : t.Leads u) : s.Leads u where
  pending := h'.pending.trans h.pending
  safe := h'.safe ∘ h.safe
  inv := h'.inv ∘ h.inv
  clock := by
    obtain ⟨hf, ht, hc⟩ | ⟨hf, ht⟩ := h'.clock
    · obtain ⟨hf', ht', hc'⟩ | ⟨hf', ht'⟩ := h.clock
      · exact .inl ⟨hf.trans hf', ht.trans ht', hc' ∘ hc⟩
      · exact .inr ⟨hf.trans hf', ht.trans ht'⟩
    · exact .inr ⟨hf, ht⟩

theorem State.Leads.foldl {α : Type} {f : State → α → State} (h : ∀ (s : State) a, s.Leads (f s a)) (l : List α) (s : State) : s.Leads (l.foldl f s) := by
  induction l generalizing s with
  | nil => exact .refl s
  | cons a l ih => exact (h s a).trans (ih _)

theorem State.pending_of_off (h : t.off m = s.off m) : t.pending = s.pending := by
  have e := congrArg State.pending h
  exact e

theorem State.safe_of_off (h : t.off m = s.off m) (hm : m .safe = false) : t.fm.safe = s.fm.safe := by
  simpa [State.off, hm] using congrArg (·.fm.safe) h

theorem State.clock_of_off (h : t.off m = s.off m) (hm : m .clock = false) : t.time.f = s.time.f ∧ t.time.ticks = s.time.ticks := by
  have hf := congrArg (·.time.f) h
  have ht := congrArg (·.time.ticks) h
  simp only [State.off, hm, cond_false] at hf ht
  exact ⟨hf, ht⟩

theorem State.clocks_of_off (h : t.off m = s.off m) (hm : m .clocks = false) : t.eft.clocks = s.eft.clocks := by
  simpa [State.off, hm] using congrArg (·.eft.clocks) h

theorem State.counters_of_off (h : t.off m = s.off m) (hm : m .counters = false) :
    t.time.a = s.time.a ∧ t.time.b = s.time.b ∧ t.time.w = s.time.w := by
  have ha := congrArg (·.time.a) h
  have hb := congrArg (·.time.b) h
  have hw := congrArg (·.time.w) h
  simp only [State.off, hm, cond_false] at ha hb hw
  exact ⟨ha, hb, hw⟩

theorem State.sw_of_off (h : t.off m = s.off m) (hm : m .sw = false) : t.hbm.sw = s.hbm.sw := by
  simpa [State.off, hm] using congrArg (·.hbm.sw) h

theorem State.buffer_of_off (h : t.off m = s.off m) (hm : m .buffer = false) : t.sk.buffer = s.sk.buffer := by
  simpa [State.off, hm] using congrArg (·.sk.buffer) h

/-- A step that hides F and the safe state from nobody leads on where it keeps what else the invariant speaks of. -/
theorem State.Leads.of_off (h : t.off m = s.off m) (hm : m .safe = false ∧ m .clock = false ∧ m .clocks = false)
    (hcounters : s.Inv → t.time.a < ctrWrap ∧ t.time.b < ctrWrap ∧ t.time.w < ctrWrap)
    (hsw : s.Inv → twf 0 t.hbm.sw = true) (hbuffer : s.Inv → twf 0 t.sk.buffer = true) : s.Leads t where
  pending := State.pending_of_off h
  safe := by rw [State.safe_of_off h hm.1]; exact id
  clock := by
    obtain ⟨hf, ht⟩ := State.clock_of_off h hm.2.1
    exact .inl ⟨hf, ht, by rw [State.clocks_of_off h hm.2.2]; exact id⟩
  inv hs := by
    obtain ⟨ha, hb, hw⟩ := hcounters hs
    exact ⟨by rw [(State.clock_of_off h hm.2.1).1]; exact hs.f, ha, hb, hw, hsw hs, hbuffer hs, by rw [State.pending_of_off h]; exact hs.pending⟩

theorem State.Inv.counters_off (hs : s.Inv) (h : t.off m = s.off m) (hm : m .counters = false) :
    t.time.a < ctrWrap ∧ t.time.b < ctrWrap ∧ t.time.w < ctrWrap := by
  obtain ⟨ha, hb, hw⟩ := State.counters_of_off h hm
  exact ⟨by rw [ha]; exact hs.a, by rw [hb]; exact hs.b, by rw [hw]; exact hs.w⟩

theorem State.Inv.sw_off (hs : s.Inv) (h : t.off m = s.off m) (hm : m .sw = false) : twf 0 t.hbm.sw = true := by
  rw [State.sw_of_off h hm]
  exact hs.sw

theorem State.Inv.buffer_off (hs : s.Inv) (h : t.off m = s.off m) (hm : m .buffer = false) : twf 0 t.sk.buffer = true := by
  rw [State.buffer_of_off h hm]
  exact hs.buffer

/-- A step that changes plain pieces alone leads on. -/
theorem State.Leads.of_plain (h : t.off Piece.plain = s.off Piece.plain) : s.Leads t :=
  .of_off h ⟨rfl, rfl, rfl⟩ (·.counters_off h rfl) (·.sw_off h rfl) (·.buffer_off h rfl)

theorem State.Leads.of_sw (h : t.off (Piece.keep [.safe, .clock, .counters, .buffer, .clocks]) = s.off (Piece.keep [.safe, .clock, .counters, .buffer, .clocks]))
    (hsw : s.Inv → twf 0 t.hbm.sw = true) : s.Leads t :=
  .of_off h ⟨rfl, rfl, rfl⟩ (·.counters_off h rfl) hsw (·.buffer_off h rfl)

theorem State.Leads.of_buffer (h : t.off (Piece.keep [.safe, .clock, .counters, .sw, .clocks]) = s.off (Piece.keep [.safe, .clock, .counters, .sw, .clocks]))
    (hbuffer : s.Inv → twf 0 t.sk.buffer = true) : s.Leads t :=
  .of_off h ⟨rfl, rfl, rfl⟩ (·.counters_off h rfl) (·.sw_off h rfl) hbuffer

/-- From a state that is not safe, a step on which F starts again from 0. -/
theorem State.Leads.of_start (hpending : t.pending = s.pending) (hsafe : s.fm.safe = true → t.fm.safe = true)
    (hclock : t.time.f = 0 ∧ t.time.ticks = 0) (hinv : s.Inv → t.Inv) : s.Leads t :=
  ⟨hpending, hsafe, .inr hclock, hinv⟩

/-! ### The safe state -/

theorem State.enterSafe_leads (s : State) : s.Leads s.enterSafe := by
  have base : s.Leads { s with fm := { s.fm with safe := true, releasePending := false, firstFaultPending := true } } :=
    ⟨rfl, fun _ => rfl, .inl ⟨rfl, rfl, id⟩, fun h => ⟨h.f, h.a, h.b, h.w, h.sw, h.buffer, h.pending⟩⟩
  refine base.trans (.of_plain ?_)
  simp only [State.enterSafe]
  split
  · simp
  · rw [State.off_with_eft (by simp)]
    · simp
    · exact .inr rfl

theorem State.takeGroup_leads (s : State) (o l : Occ) (n : Nat) (multi : Bool) : s.Leads (s.takeGroup o l n multi) := by
  unfold State.takeGroup
  extract_lets s0 cls dt was
  have counted : s.Leads s0 := .of_plain (by simp [s0])
  clear_value s0
  refine counted.trans ?_
  split
  · exact .of_plain (by simp)
  split
  · exact (State.enterSafe_leads s0).trans (.of_plain (by simp))
  split
  next now s1 e =>
    have window : s0.Leads s1 := by
      have h := State.countWindow_off (m := Piece.plain) (by simp) s0 o.src n
      rw [e] at h
      exact .of_plain h
    refine window.trans (.of_plain ?_)
    extract_lets cls1 s2 esc mask
    split <;> simp [s2]

theorem State.takeNext_leads (s : State) : s.Leads s.takeNext := by
  unfold State.takeNext
  split
  · exact .refl s
  extract_lets mine f t
  split
  · extract_lets multi
    refine State.Leads.trans (t := t) (.of_plain ?_) (State.takeGroup_leads ..)
    simp [t, f]
  · exact .refl s

theorem State.takeNext_leads_of_plain (h : t.off Piece.plain = s.off Piece.plain) : s.Leads t.takeNext :=
  (State.Leads.of_plain h).trans (State.takeNext_leads t)

theorem eventOccurrence_leads (s : State) (found : DeviceCheck) : s.Leads (eventOccurrence s found) := by
  refine State.takeNext_leads_of_plain ?_
  cases found <;> simp

theorem coreRailFault_leads (s : State) (rail : Nat) : s.Leads (coreRailFault s rail) := by
  unfold coreRailFault
  split
  · exact State.takeNext_leads_of_plain (by simp)
  · exact .refl s

/-- The core's clocks stop. -/
theorem State.clocksOff_leads (s : State) (e : Eft) (h : e.clocks = false) : s.Leads { s with eft := e } :=
  ⟨rfl, id, .inl ⟨rfl, rfl, by simp [h]⟩, fun h => ⟨h.f, h.a, h.b, h.w, h.sw, h.buffer, h.pending⟩⟩

theorem State.releaseRails_leads (s : State) : s.Leads s.releaseRails := by
  unfold State.releaseRails
  refine (State.clocksOff_leads s { s.eft with clocks := false, phase := .releasing } rfl).trans (.of_plain ?_)
  rw [State.dropHighest_off (by simp)]
  exact State.off_with_dbg (s := { s with eft := { s.eft with clocks := false, phase := .releasing } }) rfl

theorem railTimeout_leads (s : State) : s.Leads (railTimeout s) := by
  unfold railTimeout
  split
  · exact (State.releaseRails_leads s).trans (State.takeNext_leads_of_plain (by simp))
  · exact .refl s

theorem pwrgoodFall_leads (s : State) : s.Leads (pwrgoodFall s) := by
  unfold pwrgoodFall
  refine (State.releaseRails_leads s).trans (.of_plain ?_)
  simp only
  rw [State.off_with_eft (by simp)]
  · simp
  · exact .inr rfl

theorem firstFaultWritten_leads (s : State) (ok : Bool) : s.Leads (firstFaultWritten s ok) := by
  unfold firstFaultWritten
  split
  · exact .refl s
  extract_lets newest seq i f t e u
  have hu : s.Leads u := by
    have ht : t.off Piece.plain = s.off Piece.plain := by simp [t, f]
    refine .of_plain ?_
    simp only [u]
    split <;> simp [e, ht]
  clear_value u
  split
  · split
    · exact hu.trans (State.releaseRails_leads u)
    · exact hu
  · exact hu

end
end Sys2Proof.Machine
end

section
/-! The software region and the image buffer stay canonical tables. -/

namespace Sys2Proof.Machine
section
variable {m : Piece → Bool} {s t u : State}

/-! ### The software region and the image buffer -/

theorem swStore_twf {sw : List Host.Cell} (h : twf 0 sw = true) (a : Nat) (d : List Byte) : twf 0 (swStore sw a d) = true := by
  unfold swStore
  induction d.zipIdx generalizing sw with
  | nil => exact h
  | cons x l ih => exact ih (tset_twf h)

theorem Hbm.stored_twf {x : Hbm} (h : twf 0 x.sw = true) (p : Nat) (w : HbmWrite) : twf 0 (x.stored p w).sw = true := by
  unfold Hbm.stored
  split
  · exact h
  · exact swStore_twf h ..

theorem Hbm.foldl_stored_twf {x : Hbm} (h : twf 0 x.sw = true) (p : Nat) (l : List HbmWrite) :
    twf 0 (l.foldl (fun x w => x.stored p w) x).sw = true := by
  induction l generalizing x with
  | nil => exact h
  | cons w l ih => exact ih (Hbm.stored_twf h p w)

theorem State.issueWrite_leads (s : State) (p : Nat) : s.Leads (s.issueWrite p) := by
  refine .of_sw (by simp) fun hs => ?_
  simp only [State.issueWrite]
  split
  · exact hs.sw
  · exact Hbm.stored_twf (by rw [State.sw_of_off (State.setCtl_off (m := Piece.plain) (by simp) ..) rfl]; exact hs.sw) ..

theorem State.mclk_leads (s : State) (p : Nat) : s.Leads (s.mclk p) := by
  unfold State.mclk
  extract_lets t x u
  have hu : s.Leads u := .of_plain (by simp [u, t])
  split
  · exact hu.trans (u.issueWrite_leads p)
  · exact hu

theorem State.ctlsTick_leads (s : State) : s.Leads s.ctlsTick := by
  refine .foldl (fun s p => ?_) _ s
  split
  · exact .foldl (fun s _ => s.mclk_leads p) _ s
  · exact .refl s

theorem State.hbmTick_leads (s : State) : s.Leads s.hbmTick := by
  unfold State.hbmTick
  extract_lets t x
  refine s.ctlsTick_leads.trans ?_
  split
  · exact .refl _
  · exact .of_plain (by simp [t, x])

theorem State.sleepPc_leads (s : State) (p : Nat) (orderly : Bool) (now : Nat) : s.Leads (s.sleepPc p orderly now) := by
  refine .of_sw (by simp) fun hs => ?_
  simp only [State.sleepPc]
  rw [State.sw_of_off (State.setCtl_off (m := Piece.plain) (by simp) ..) rfl]
  refine Hbm.foldl_stored_twf ?_ ..
  rw [State.sw_of_off (m := Piece.plain) (State.off_foldl (fun s w => State.loseWrite_off (fun u _ => u.within_of (by simp)) s) _ s) rfl]
  exact hs.sw

theorem State.hbmSleep_leads (s : State) (orderly : Bool) (now : Nat) : s.Leads (s.hbmSleep orderly now) := by
  unfold State.hbmSleep
  extract_lets t x
  exact (State.Leads.foldl (fun s p => s.sleepPc_leads p orderly now) (List.range 128) s).trans (.of_plain (by simp [t, x]))

theorem State.zeroBurst_leads (s : State) (p off : Nat) : s.Leads (s.zeroBurst p off) := by
  unfold State.zeroBurst
  split
  · exact .refl s
  split
  · split
    · exact .of_plain (by simp)
    · exact .refl s
  split
  · exact .of_plain (by simp)
  split
  · split
    · refine .of_buffer (State.off_setBuffer (by simp) ..) fun hs => ?_
      dsimp only
      exact swStore_twf hs.buffer _ _
    · exact .of_plain (by simp)
    · exact .of_plain (by simp)
    · exact .refl s
  · refine .of_sw (by simp) fun hs => ?_
    dsimp only [Hbm.zeroSw]
    exact swStore_twf hs.sw _ _

theorem thawBurst_leads (s : State) (p off : Nat) : s.Leads (thawBurst s p off) := by
  unfold thawBurst
  split
  · exact .of_plain (by simp)
  split
  · split
    · exact .of_plain (by simp)
    · exact .of_plain (by simp)
    · exact s.zeroBurst_leads p off
  · exact s.zeroBurst_leads p off

theorem hbmThawDone_leads (s : State) (p : Nat) (res : ThawEnd) (spare : Bool) (bad : List (BitVec 30)) :
    s.Leads (hbmThawDone s p res spare bad) := by
  unfold hbmThawDone
  extract_lets x s1 list s2 y s3
  split
  · have hs1 : s.Leads s1 := .of_plain (by simp [s1])
    split
    · exact hs1.trans (.of_plain (by simp))
    · have hs2 : s.Leads s2 :=
        hs1.trans (State.Leads.trans (.of_plain (by simp)) (.foldl (fun s o => thawBurst_leads s p o) _ (s1.takeSpares p (b2n spare))))
      split
      · exact hs2.trans (.of_plain (by simp))
      · exact hs2.trans (.of_plain (by simp [s3, y]))
  · exact .refl s

theorem State.pprBurst_leads (s : State) (p off : Nat) : s.Leads (s.pprBurst p off) := by
  unfold State.pprBurst
  split
  · extract_lets i k f t g
    have ht : s.Leads t := by
      simp only [t]
      split
      · exact .of_plain (by simp [f])
      · exact .refl s
    split
    · exact ht
    · exact ht.trans (.of_plain (by simp [g]))
  split
  · split
    · split
      · exact .of_plain (by simp)
      · exact .refl s
    · exact s.zeroBurst_leads p off
  · exact s.zeroBurst_leads p off

theorem State.pprEnd_leads (s : State) (p bank row : Nat) (pass : Bool) (bad : List (BitVec 30)) (count : HbmCtl → HbmCtl) :
    s.Leads (s.pprEnd p bank row pass bad count) := by
  unfold State.pprEnd
  extract_lets x s1 diag l y s2
  have hs1 : s.Leads s1 := .of_plain (by simp [s1])
  split
  · have hs2 : s1.Leads s2 := .of_plain (by simp [s2])
    exact (hs1.trans hs2).trans ((State.Leads.foldl (fun s o => s.pprBurst_leads p o) l s2).trans (.of_plain (by simp)))
  · exact hs1.trans (.of_plain (by simp))

theorem hbmPprDone_leads (s : State) (p : Nat) (pass : Bool) (bad : List (BitVec 30)) : s.Leads (hbmPprDone s p pass bad) := by
  unfold hbmPprDone
  split
  · extract_lets t
    have ht : s.Leads t := s.pprEnd_leads ..
    split
    · exact ht.trans (.of_plain (by simp))
    · exact ht
  · exact s.pprEnd_leads ..
  · exact .refl s

theorem State.regrownImages_leads (s : State) (p : Nat) : s.Leads (s.regrownImages p) :=
  .of_buffer (by simp) fun hs => filter_twf _ hs.buffer

theorem State.off_with_hbm_fsu (h : m .hbm ∧ m .sw ∧ m .fsu) (s : State) (x : Hbm) (y : Fsu) :
    State.off m { s with hbm := x, fsu := y } = s.off m := by
  simp [State.off, h]

theorem State.regrownPc_leads (s : State) (p : Nat) : s.Leads (s.regrownPc p) := by
  unfold State.regrownPc
  extract_lets alt x y s1 s2 z
  have hs1 : s.Leads s1 := .of_sw (State.off_with_hbm_fsu (by simp) ..) fun hs => filter_twf _ hs.sw
  exact (hs1.trans (s1.regrownImages_leads p)).trans (.of_plain (by simp [s2, z]))

theorem State.regrownUnit_leads (s : State) (utype unit : Nat) : s.Leads (s.regrownUnit utype unit) := by
  unfold State.regrownUnit
  split
  · exact .of_plain (by simp)
  · exact .of_plain (by simp)
  · exact s.regrownPc_leads unit
  · exact .refl s

theorem regrowthDone_leads (s : State) (utype unit : Nat) (pass : Bool) (spares : Nat) : s.Leads (regrowthDone s utype unit pass spares) := by
  unfold regrowthDone
  split
  · extract_lets f s1 s2 g
    have hs1 : s.Leads s1 := .of_plain (by simp [s1, f])
    split
    · have hs2 : s1.Leads s2 := by
        have spare : s1.Leads (if utype = 8 then s1.takeSpares unit spares else s1) := by
          split
          · exact .of_plain (by simp)
          · exact .refl s1
        exact (spare.trans (State.regrownUnit_leads _ utype unit)).trans (.of_plain (State.unitDefaults_off (by simp) ..))
      exact (hs1.trans hs2).trans (.of_plain (by simp [g]))
    · exact hs1.trans (.of_plain (by simp))
  · exact .refl s

theorem bufApply_leads (c : Ctx) (v : List Byte) (s : State) : s.Leads (bufApply c v s) := by
  refine .of_buffer (by simp) fun hs => ?_
  unfold bufApply
  extract_lets o buffer s1
  rw [State.buffer_of_off (State.wrCtx_off (m := Piece.plain) (by simp) ..) rfl]
  show twf 0 buffer = true
  simp only [buffer]
  split
  · exact hs.buffer
  · exact swStore_twf hs.buffer ..

end
end Sys2Proof.Machine
end

section
/-! The counters of the time unit stay below their wrap, over epochs, locks and resets. -/

namespace Sys2Proof.Machine
section
variable {m : Piece → Bool} {s t u : State}

/-! ### The counters of the time unit -/

theorem ctrWrap_pos : 0 < ctrWrap := by decide

theorem ctrAdd_lt (t : Nat) (d : Int) : ctrAdd t d < ctrWrap := by
  have hpos : (0 : Int) < (ctrWrap : Int) := by exact_mod_cast ctrWrap_pos
  have hlt := Int.emod_lt_of_pos ((t : Int) + d) hpos
  have hnn := Int.emod_nonneg ((t : Int) + d) hpos.ne'
  unfold ctrAdd
  omega

/-- Counters that stay below their wrap. -/
def TimeUnit.Bounded (u : TimeUnit) : Prop := u.a < ctrWrap ∧ u.b < ctrWrap ∧ u.w < ctrWrap

theorem State.Inv.bounded (h : s.Inv) : s.time.Bounded := ⟨h.a, h.b, h.w⟩

theorem State.Leads.of_counters (h : t.off (Piece.keep [.safe, .clock, .sw, .buffer, .clocks]) = s.off (Piece.keep [.safe, .clock, .sw, .buffer, .clocks]))
    (hcounters : s.Inv → t.time.Bounded) : s.Leads t :=
  .of_off h ⟨rfl, rfl, rfl⟩ hcounters (·.sw_off h rfl) (·.buffer_off h rfl)

theorem State.setCtr_leads (s : State) (d : Nat) {n : Nat} (h : n < ctrWrap) : s.Leads (s.setCtr d n) := by
  refine .of_counters (by simp) fun hs => ?_
  unfold State.setCtr
  split
  · exact ⟨h, hs.b, hs.w⟩
  · exact ⟨hs.a, h, hs.w⟩

theorem epochDomain_leads (s : State) (d : Nat) : s.Leads (epochDomain s d) := by
  unfold epochDomain
  extract_lets t s1
  have steps : s.Leads s1 := by
    refine .foldl (fun s x => ?_) t.pendStep s
    exact (s.setCtr_leads d (ctrAdd_lt (s.ctr d) x)).trans (.of_plain (by simp))
  exact steps.trans (.of_plain (by simp))


theorem State.ctr_lt (h : s.time.Bounded) (d : Nat) : s.ctr d < ctrWrap := by
  obtain ⟨ha, hb, -⟩ := h
  unfold State.ctr
  split
  · exact ha
  · exact hb

theorem epochWork_leads (s : State) : s.Leads (epochWork s) := by
  unfold epochWork
  extract_lets st f s1 g
  split
  next d _ =>
    split
    · extract_lets s1 _ s2
      have hs1 : s.Leads s1 := .of_plain (by simp [s1])
      have hs2 : s1.Leads s2 := .of_counters (State.off_with_time (by simp) (.inr ⟨rfl, rfl⟩) (.inl (by simp))) fun hs =>
        ⟨hs.a, hs.b, State.ctr_lt (s := s1) hs.bounded d⟩
      exact (hs1.trans hs2).trans (.of_plain (by simp))
    split
    · exact .of_plain (by simp)
    split
    · exact .of_plain (by simp)
    · exact .refl s
  · split
    next ns _ =>
      have hs1 : s.Leads s1 := .of_plain (State.off_with_time (by simp) (.inr ⟨rfl, rfl⟩) (.inr ⟨rfl, rfl, rfl⟩))
      split
      · have hs2 : s1.Leads { s1 with time := { s1.time with w := ns * 2 ^ 40 % ctrWrap } } :=
          .of_counters (State.off_with_time (by simp) (.inr ⟨rfl, rfl⟩) (.inl (by simp))) fun hs => ⟨hs.a, hs.b, Nat.mod_lt _ ctrWrap_pos⟩
        exact (hs1.trans hs2).trans (.of_plain (State.wStepped_off (by simp) ..))
      · exact hs1
    · exact .refl s

theorem epochBoundary_leads (s : State) (fault : TimeFault) : s.Leads (epochBoundary s fault) := by
  unfold epochBoundary
  split
  · exact .refl s
  extract_lets f s1 s2 g s3 s4 u
  have hs1 : s.Leads s1 := by
    refine .of_plain ?_
    simp only [s1, timeFault_off (m := Piece.plain) (by simp)]
    exact State.off_with_time (by simp) (.inr ⟨rfl, rfl⟩) (.inr ⟨rfl, rfl, rfl⟩)
  have hs2 : s1.Leads s2 := ((epochDomain_leads s1 0).trans (epochDomain_leads _ 1)).trans (epochWork_leads _)
  have hs3 : s2.Leads s3 := .of_plain (State.off_with_time (by simp) (.inr ⟨rfl, rfl⟩) (.inr ⟨rfl, rfl, rfl⟩))
  have hs4 : s3.Leads s4 := .of_plain (by simp [s4])
  have same : u.sameCounters s4.time := (pushHistory_sameCounters _).trans (TimeUnit.newBoards_sameCounters ..)
  have hs5 : s4.Leads { s4 with time := u } := .of_plain (State.off_with_time (by simp) (.inr same.1) (.inr same.2))
  exact ((((hs1.trans hs2).trans hs3).trans hs4).trans hs5).trans (.of_plain (by simp))

/-! ### The core's clocks -/

theorem State.lockClocks_leads (s : State) {n : Nat} (h : n < ctrWrap) : s.Leads (s.lockClocks n) := by
  unfold State.lockClocks
  extract_lets e f g u v
  have hu : s.Leads u := ⟨rfl, id, .inr ⟨rfl, rfl⟩, fun hs => ⟨ctrWrap_pos, h, h, h, hs.sw, hs.buffer, hs.pending⟩⟩
  exact hu.trans (.of_plain (by simp [v]))

theorem State.startTraining_leads (s : State) : s.Leads s.startTraining := by
  unfold State.startTraining
  extract_lets t u e
  refine (s.lockClocks_leads (n := 0) ctrWrap_pos).trans (.of_plain ?_)
  have hu : u.off Piece.plain = t.off Piece.plain := State.off_foldl (fun s p => by split <;> simp) _ t
  rw [← hu, State.bootStep_off (by simp)]
  exact State.off_with_eft (by simp) (.inr rfl)

theorem State.wakeCore_leads (s : State) : s.Leads s.wakeCore := by
  unfold State.wakeCore
  extract_lets t e
  refine (s.lockClocks_leads (n := s.coarseUnits) (Nat.mod_lt _ ctrWrap_pos)).trans (.of_plain ?_)
  exact State.off_with_eft (by simp) (.inr rfl)

theorem State.railsUp_leads (s : State) : s.Leads s.railsUp := by
  unfold State.railsUp
  split
  · split
    · exact .of_plain (by simp)
    · exact s.startTraining_leads
  · exact .of_plain (by simp)

theorem resetRelease_leads (s : State) : s.Leads (resetRelease s) := by
  unfold resetRelease
  extract_lets e t
  have ht : s.Leads t := .of_plain (State.off_with_eft (by simp) (.inr rfl))
  split
  · exact ht.trans t.startTraining_leads
  · exact ht

theorem railEnable_leads (s : State) (held : Bool) : s.Leads (railEnable s held) := by
  unfold railEnable
  split
  · exact .refl s
  split
  · exact .of_plain (by simp)
  · split
    · split
      · exact .of_plain (by simp)
      · exact .of_plain (by simp)
      · split
        · exact s.wakeCore_leads
        · exact s.railsUp_leads
      · exact .refl s
    · exact .refl s
  · exact .refl s

/-! ### Resets -/

/-- A core reset that is not a cold one keeps the software region as the sleep of the HBM leaves it, and empties the image buffer. -/
theorem State.coreWarm_tables (s : State) (r : CoreReset) (mac : Bool) :
    (s.coreWarm r mac).hbm.sw = (s.hbmSleep (s.eft.orderly || r = .brumation) (if r = .warm then s.fNs else 0)).hbm.sw ∧
      (s.coreWarm r mac).sk.buffer = [] := by
  unfold State.coreWarm
  extract_lets a h t p0 pat nat t0 tbl f0 fsu h0 k0 u v
  have ha : a.off Piece.plain = (s.hbmSleep (s.eft.orderly || r = .brumation) (if r = .warm then s.fNs else 0)).off Piece.plain := by
    simp [a]
  have hv : ([240, 244, 248, 252].foldl a.keepLink v).off Piece.plain = u.off Piece.plain := by
    rw [State.off_foldl fun s p => State.keepLink_off (by simp) a s p]
    simp [v]
  have hu : u.hbm.sw = a.hbm.sw ∧ u.sk.buffer = [] := by
    dsimp only [u, h0, k0]
    exact ⟨rfl, rfl⟩
  exact ⟨((State.sw_of_off hv rfl).trans hu.1).trans (State.sw_of_off ha rfl), (State.buffer_of_off hv rfl).trans hu.2⟩

theorem State.coreWarm_leads (s : State) {r : CoreReset} (hr : r ≠ .cold) (mac : Bool) : s.Leads (s.coreWarm r mac) := by
  have kept := s.coreWarm_off (m := Piece.keep [.safe, .clock, .counters, .clocks]) (by simp) hr mac
  obtain ⟨hsw, hbuffer⟩ := s.coreWarm_tables r mac
  refine .of_off kept ⟨rfl, rfl, rfl⟩ (·.counters_off kept rfl) (fun hs => ?_) fun hs => ?_
  · rw [hsw]
    exact ((s.hbmSleep_leads ..).inv hs).sw
  · rw [hbuffer]
    rfl

theorem State.resetWarm_leads (s : State) : s.Leads s.resetWarm := by
  unfold State.resetWarm
  extract_lets n mac t u e
  have ht : s.Leads t := s.coreWarm_leads (by simp) mac
  have hu : t.Leads u := by
    refine .of_plain ?_
    simp only [u]
    split <;> simp
  exact (ht.trans hu).trans (.of_plain (State.off_with_eft (by simp) (.inr rfl)))

theorem State.warmUnorderly_leads (s : State) (trigger : Nat) : s.Leads (s.warmUnorderly trigger) := by
  unfold State.warmUnorderly
  split
  · exact .refl s
  extract_lets carried e t
  have hc : s.Leads carried := by
    refine .of_plain ?_
    simp only [carried]
    split <;> simp
  have ht : carried.Leads t := .of_plain (State.off_with_eft (by simp) (.inr rfl))
  exact ((hc.trans ht).trans (.of_plain (by simp))).trans (t.wr Objs.power_state 0 4).resetWarm_leads

theorem State.goToSleep_leads (s : State) : s.Leads s.goToSleep := by
  unfold State.goToSleep
  extract_lets n t e
  have ht : s.Leads t := by
    refine (State.Leads.of_plain ?_).trans ((s.coarseLoad.coreWarm_leads (r := .brumation) (by simp) s.eft.macSaved).trans (.of_plain ?_))
    · simp
    · simp [t]
  exact ht.trans (t.clocksOff_leads _ rfl)

theorem warmDrainDone_leads (s : State) : s.Leads (warmDrainDone s) := by
  unfold warmDrainDone
  extract_lets ended
  have hd : s.Leads s.drained := .of_plain (by simp)
  split
  · exact .refl s
  split
  · exact hd.trans s.drained.resetWarm_leads
  · exact hd.trans s.drained.goToSleep_leads
  · exact .refl s

theorem State.coreCold_leads (s : State) (h : s.fm.safe = false) : s.Leads s.coreCold where
  pending := State.pending_of_off (s.coreCold_off (m := Piece.keep []) (by simp))
  safe hs := absurd hs (by simp [h])
  clock := .inr ⟨rfl, rfl⟩
  inv hs := ⟨ctrWrap_pos, ctrWrap_pos, ctrWrap_pos, ctrWrap_pos, rfl, rfl,
    (State.pending_of_off (s.coreCold_off (m := Piece.keep []) (by simp))).symm ▸ hs.pending⟩

theorem State.coldReset_leads (s : State) (trigger straps : Nat) (low : Bool) (h : s.fm.safe = false) :
    s.Leads (s.coldReset trigger straps low) := by
  unfold State.coldReset
  extract_lets t e0 e u
  have hu : s.Leads u := (s.coreCold_leads h).trans (t.clocksOff_leads e rfl)
  exact (hu.trans (.of_plain (by simp))).trans (State.railsUp_leads ((((u.wr Objs.power_state 0 4).wr Objs.boot_status 0 0).wr Objs.boot_slot 0 0).wr Objs.boot_mode 0 straps))

theorem State.coldTrigger_leads (s : State) (trigger straps : Nat) (low : Bool) : s.Leads (s.coldTrigger trigger straps low) := by
  unfold State.coldTrigger
  split
  · exact .refl s
  next h =>
    simp only [Bool.or_eq_true, not_or, Bool.not_eq_true] at h
    exact s.coldReset_leads trigger straps low h.1

theorem wdogTimeout_leads (s : State) (last straps : Nat) : s.Leads (wdogTimeout s last straps) := by
  unfold wdogTimeout
  split
  · exact .refl s
  extract_lets now recent limit e t
  have ht : s.Leads t := .of_plain (State.off_with_eft (by simp) (.inr rfl))
  split
  · exact (ht.trans (t.coldTrigger_leads 3 straps false)).trans (.of_plain (by simp))
  · exact (ht.trans (t.warmUnorderly_leads 6)).trans (.of_plain (by simp))

end
end Sys2Proof.Machine
end

section
/-! The same of a write through the dictionary, whatever object it names. -/

namespace Sys2Proof.Machine
section
variable {m : Piece → Bool} {s t u : State}

/-! ### Writes of the dictionary -/

theorem writeObj_leads {apply : Nat → State → State} {refused : Code → State → State} (ha : ∀ n (s : State), s.Leads (apply n s))
    (hr : ∀ k (s : State), s.Leads (refused k s)) (c : Ctx) (o : Obj) (i : Nat) (v : List Byte) (check : Nat → State → Code) (s : State) :
    s.Leads (writeObj c o i v check apply s refused) := by
  unfold writeObj
  split
  · exact .refl s
  extract_lets k t
  have ht : s.Leads t := by
    simp only [t]
    split
    · exact (State.Leads.of_plain (acceptBase_off (by simp) ..)).trans (ha ..)
    · exact hr ..
  exact ht.trans (.of_plain (by simp))

theorem execCsBufData_leads (c : Ctx) (v : List Byte) (s : State) : s.Leads (Out.state s (execCsBufData c v s)) :=
  writeObj_leads (fun _ s => bufApply_leads c v s) (fun _ s => .refl s) ..

theorem resetCmdApply_leads (x : Nat) (s : State) : s.Leads (resetCmdApply x s) := by
  unfold resetCmdApply
  split
  · exact .of_plain (by simp)
  · exact (State.Leads.of_plain (State.draw_off (by simp) s)).trans (State.coldTrigger_leads ..)

/-- Every writer of a list changes plain pieces alone. -/
def WritersPlain (l : List (Obj × Writer)) : Prop := ∀ p ∈ l, ∀ c i v s, (p.2 c i v s).off Piece.plain = s.off Piece.plain

@[simp] theorem Out.state_next (s t : State) : Out.state s (.next t) = t := rfl

theorem writersDevice_plain : WritersPlain writersDevice := by
  simp [WritersPlain, writersDevice, pathWrite, refusing]

theorem writersPort_plain : WritersPlain writersPort := by
  simp [WritersPlain, writersPort, byExecAt, portWrite, pairWrite, execLinkFilterWrite]

theorem writersTime_plain : WritersPlain writersTime := by
  have pps (p : Prop) [Decidable p] (k : Nat) (t : State) : (if p then t else ppsModeApply k t).off Piece.plain = t.off Piece.plain := by
    split <;> simp
  simp [WritersPlain, writersTime, byExecAt, byExec, refusing]
  exact fun c k v s => writeObj_off (by simp) (fun x t => pps _ k t) (fun _ _ => rfl) ..

theorem writersEgress_plain : WritersPlain writersEgress := by
  simp [WritersPlain, writersEgress, byExecAt, byExec, refusing]

theorem writersHue_plain : WritersPlain writersHue := by
  simp [WritersPlain, writersHue, byExecAt, byExec, refusing]

theorem writersPattern_plain : WritersPlain writersPattern := by
  simp [WritersPlain, writersPattern, byExecAt, byExec, refusing]

theorem writersFlow_plain : WritersPlain writersFlow := by
  simp [WritersPlain, writersFlow, byExecAt, byExec, refusing]

theorem writersTable_plain : WritersPlain writersTable := by
  simp [WritersPlain, writersTable, byExecAt, byExec, refusing]

theorem writersFabric_plain : WritersPlain writersFabric := by
  simp [WritersPlain, writersFabric, byExecAt, byExec, refusing]

theorem writersHbm_plain : WritersPlain writersHbm := by
  simp [WritersPlain, writersHbm, byExecAt, byExec, refusing]

theorem writersStream_plain : WritersPlain writersStream := by
  simp [WritersPlain, writersStream, byExecAt, byExec, refusing, execStrEnableWrite]

theorem writersFault_plain : WritersPlain writersFault := by
  simp [WritersPlain, writersFault, byExecAt, byExec, refusing, execEvConfigWrite, execEvClear, execCroakLevelWrite]

theorem writersDebug_plain : WritersPlain writersDebug := by
  simp [WritersPlain, writersDebug, byExecAt, byExec, refusing]


theorem writersSkink_plain : ∀ p ∈ writersSkink, p.2 = byExec execCsBufData ∨ ∀ c i v s, (p.2 c i v s).off Piece.plain = s.off Piece.plain := by
  simp [writersSkink, byExecAt, byExec, refusing]

theorem writersEft_plain : ∀ p ∈ writersEft, p.2 = (fun c _ v => writeObj c Objs.reset_cmd 0 v resetCheck resetCmdApply) ∨
    ∀ c i v s, (p.2 c i v s).off Piece.plain = s.off Piece.plain := by
  simp [writersEft, byExecAt, byExec, refusing]

/-- Every writer of a list leads on. -/
def WritersLead (l : List (Obj × Writer)) : Prop := ∀ p ∈ l, ∀ c i v (s : State), s.Leads (p.2 c i v s)

theorem WritersPlain.lead {l : List (Obj × Writer)} (h : WritersPlain l) : WritersLead l :=
  fun p hp c i v s => .of_plain (h p hp c i v s)

theorem writersSkink_lead : WritersLead writersSkink := by
  intro p hp c i v s
  obtain h | h := writersSkink_plain p hp
  · rw [h]
    exact execCsBufData_leads c v s
  · exact .of_plain (h c i v s)

theorem writersEft_lead : WritersLead writersEft := by
  intro p hp c i v s
  obtain h | h := writersEft_plain p hp
  · rw [h]
    exact writeObj_leads resetCmdApply_leads (fun _ s => .refl s) ..
  · exact .of_plain (h c i v s)

theorem WritersLead.ite {c : Prop} [Decidable c] {l l' : List (Obj × Writer)} (h : WritersLead l) (h' : WritersLead l') :
    WritersLead (if c then l else l') := by
  split
  · exact h
  · exact h'

theorem writersOf_lead (idx : Nat) : WritersLead (writersOf idx) :=
  have none : WritersLead [] := fun _ hp => absurd hp List.not_mem_nil
  writersDevice_plain.lead.ite <| writersPort_plain.lead.ite <| writersTime_plain.lead.ite <| writersEgress_plain.lead.ite <|
    writersHue_plain.lead.ite <| writersPattern_plain.lead.ite <| writersSkink_lead.ite <| writersFlow_plain.lead.ite <|
    writersTable_plain.lead.ite <| writersFabric_plain.lead.ite <| writersHbm_plain.lead.ite <| none.ite <|
    writersStream_plain.lead.ite <| writersFault_plain.lead.ite <| writersEft_lead.ite <| writersDebug_plain.lead.ite none

theorem writeAny_leads (c : Ctx) (o : Obj) (i : Nat) (v : List Byte) (s : State) : s.Leads (writeAny c o i v s) := by
  unfold writeAny
  split
  next h => exact writersOf_lead _ _ (List.mem_of_find?_eq_some h) c i v s
  · exact .of_plain (by simp)

theorem dictWrite_leads (c : Ctx) (idx sub : Nat) (v : List Byte) (s : State) : s.Leads (dictWrite c idx sub v s) := by
  unfold dictWrite
  split
  · exact writeAny_leads ..
  · split
    · exact .refl s
    · exact .of_plain (by simp)

/-! ### Requests -/

theorem runItem_leads (c : Ctx) (i : Item) (s : State) : s.Leads (runItem c i s).2 := by
  unfold runItem
  extract_lets t
  have ht : s.Leads t := by
    simp only [t]
    split
    · exact .of_plain (by simp)
    · exact dictWrite_leads ..
  have taken := takeAnswer_off (m := Piece.plain) (by simp) s.outbox.length t
  split
  all_goals
    next e =>
      rw [e] at taken
      exact ht.trans (.of_plain taken)

theorem runItems_leads (c : Ctx) (old : Nat) (l : List Item) (new : Nat) (done : List Reply) (s : State) :
    s.Leads (runItems c old l new done s).2 := by
  induction l generalizing new done s with
  | nil => exact .of_plain (by simp [runItems])
  | cons i rest ih =>
    have item := runItem_leads c i s
    rw [runItems]
    split
    next e =>
      rw [e] at item
      extract_lets own new'
      split
      · exact ih ..
      · exact (item.trans (.of_plain (State.wr_off (by simp) ..))).trans (ih ..)
    next e =>
      rw [e] at item
      exact item.trans (.of_plain (by simp))

theorem runRequest_leads (c : Ctx) (seq : Nat) (l : List Item) (s : State) : s.Leads (runRequest c seq l s).2 := by
  have items := runItems_leads c (s.rd (ownEnable c)) l (s.rd (ownEnable c)) [] s
  unfold runRequest
  extract_lets old
  split
  all_goals
    next e =>
      rw [e] at items
      exact items

theorem localRequest_leads (c : Ctx) (b : List Byte) (s : State) : s.Leads (localRequest c b s).2 := by
  unfold localRequest
  split
  · exact .of_plain (by simp)
  · exact .refl s
  · exact runRequest_leads ..

theorem State.mbExecute_leads (s : State) : s.Leads s.mbExecute := by
  have base : s.Leads { s with dict := { s.dict with mbStatus := 1 } } := .of_plain (by simp)
  unfold State.mbExecute
  exact (base.trans (localRequest_leads .pcie (mbPdu s.dict.mbRequest) _)).trans (.of_plain (by simp))

theorem mailbox_leads (s : State) (request : List Byte) (ctrl : Nat) : s.Leads (mailbox s request ctrl) := by
  unfold mailbox
  split
  · exact .refl s
  extract_lets s1 d t
  have hs1 : s.Leads s1 := by
    simp only [s1]
    split
    · exact .refl s
    · exact .of_plain (by simp)
  have ht : s.Leads t := hs1.trans (.of_plain (State.off_with_dict rfl))
  split
  · exact ht.trans (.of_plain (by simp))
  · exact ht.trans t.mbExecute_leads

theorem dictGo_leads (s : State) : s.Leads (dictGo s) := by
  unfold dictGo
  split
  · exact .refl s
  extract_lets d t
  have ht : s.Leads t := .of_plain (State.off_with_dbg rfl)
  exact (ht.trans (localRequest_leads ..)).trans (.of_plain (State.off_with_dbg rfl))

end
end Sys2Proof.Machine
end

section
/-! The same of the sessions, the release of a packet to the agent, and the SDO server. -/

namespace Sys2Proof.Machine
section
variable {m : Piece → Bool} {s t u : State}

/-! ### Sessions and the in-band agent -/

theorem sessionRun_leads (p : OapPath) (n ip port seq : Nat) (l : List Item) (s : State) : s.Leads (sessionRun p n ip port seq l s).2 := by
  unfold sessionRun
  extract_lets keep
  have kept (r : List Byte) (t : State) : (keep r t).off Piece.plain = t.off Piece.plain := by simp [keep]
  have run := (State.Leads.of_plain (kept [] s)).trans (runRequest_leads (p.ctx (Fin.ofNat 8 n)) seq l (keep [] s))
  split
  next e =>
    rw [e] at run
    refine run.trans (.of_plain ?_)
    dsimp only
    split
    · exact kept ..
    · rfl
  next e =>
    rw [e] at run
    exact run

theorem sessionRequest_leads (p : OapPath) (ip port seq : Nat) (l : List Item) (s : State) :
    s.Leads (sessionRequest p ip port seq l s).2 := by
  unfold sessionRequest
  split
  · split
    · exact .of_plain (by simp)
    split
    · exact sessionRun_leads ..
    · exact .of_plain (by simp)
  · split
    next e => exact (State.Leads.of_plain (State.freeSession_off (by simp) _ _ e)).trans (sessionRun_leads ..)
    · exact .refl s

theorem oapDatagram_leads (p : OapPath) (ip port : Nat) (pdu : List Byte) (s : State) : s.Leads (oapDatagram p ip port pdu s).2 := by
  unfold oapDatagram
  split
  · exact .of_plain (by simp)
  split
  · exact .of_plain (by simp)
  next e =>
    refine (State.Leads.of_plain (oapLimit_off (by simp) _ _ e)).trans ?_
    split
    · exact .of_plain (by simp)
    · exact .refl _
    · exact sessionRequest_leads ..

theorem mgmtFrame_leads (port : Nat) (f : List Byte) (s : State) : s.Leads (mgmtFrame port f s) := by
  unfold mgmtFrame
  split
  · exact .refl s
  extract_lets mine sa ip drop
  have hd : s.Leads drop := .of_plain (by simp [drop])
  split
  · exact hd
  split
  · split
    · split
      · exact .of_plain (by simp)
      · exact hd
    · exact hd
  · split
    next src dst sp dp pdu _ =>
      split
      · have taken := oapDatagram_leads .mgmt src sp pdu s
        split
        all_goals
          next e =>
            rw [e] at taken
            exact taken.trans (.of_plain (by simp))
      · exact hd
    · exact hd
  · exact hd

theorem agentTake_leads (port reason : Nat) (f : List Byte) (s : State) : s.Leads (agentTake port reason f s) := by
  unfold agentTake
  extract_lets ip drop etype body
  have hd : s.Leads drop := .of_plain (by simp [drop])
  split
  · exact hd
  split
  · split
    · split
      · exact .of_plain (by simp)
      · exact hd
    · exact hd
  split
  · exact hd
  split
  next src dst sp dp pdu _ _ =>
    split
    · have taken := oapDatagram_leads .inband src sp pdu s
      split
      all_goals
        next e =>
          rw [e] at taken
          exact taken.trans (.of_plain (by simp))
    · exact hd
  · exact hd

theorem puntCopy_leads (s : State) (k : Packet) (fault : TimeFault) : s.Leads (puntCopy s k fault) := by
  unfold puntCopy
  extract_lets reason t h
  split
  · exact agentTake_leads ..
  · have ht : s.Leads t := .of_plain (by simp [t])
    exact ht.trans (.of_plain (State.off_with_host (by simp)))

theorem releasePacket_leads (s : State) (p : Nat) (e : REntry) (k : Packet) (fault : TimeFault) :
    s.Leads (releasePacket s p e k fault) := by
  unfold releasePacket
  extract_lets a b c
  have ha : s.Leads a := .of_plain (by simp [a])
  have hb : a.Leads b := by
    simp only [b]
    split
    · exact puntCopy_leads ..
    · exact .refl a
  have hc : b.Leads c := .of_plain (by simp [c])
  refine ((ha.trans hb).trans hc).trans ?_
  split
  · exact .of_plain (by simp)
  · exact .refl c

theorem reorderRelease_leads (s : State) (p : Nat) (ecc : Ecc) (fault : TimeFault) : s.Leads (reorderRelease s p ecc fault) := by
  unfold reorderRelease
  split
  · exact .refl s
  split
  · exact .refl s
  extract_lets t
  have ht : s.Leads t := .of_plain (by simp [t])
  split
  · exact ht.trans (.of_plain (by simp))
  split
  · exact ht.trans (.of_plain (by simp))
  · exact ht.trans (releasePacket_leads ..)

/-! ### The SDO server -/

theorem sdoWrite_leads (idx sub : Nat) (v : List Byte) (done : Nat) (mux : List Byte) (s : State) :
    s.Leads (sdoWrite idx sub v done mux s) := by
  have item := (State.Leads.of_plain (sdoIdle_off (by simp) s)).trans (runItem_leads .can ⟨2, sub, idx, v⟩ (sdoIdle s))
  unfold sdoWrite
  split
  next e =>
    rw [e] at item
    exact item.trans (.of_plain (by split <;> simp))
  next e =>
    rw [e] at item
    exact item

theorem sdoDownload_leads (d : List Byte) (s : State) : s.Leads (sdoDownload d s) := by
  unfold sdoDownload
  extract_lets cmd idx sub n
  split
  · exact sdoWrite_leads ..
  · exact .of_plain (by split_ifs <;> simp)

theorem sdoUpload_leads (d : List Byte) (s : State) : s.Leads (sdoUpload d s) := by
  unfold sdoUpload
  extract_lets idx sub
  have item := (State.Leads.of_plain (sdoIdle_off (by simp) s)).trans (runItem_leads .can ⟨1, sub, idx, []⟩ (sdoIdle s))
  split
  next e =>
    rw [e] at item
    exact item
  next e =>
    rw [e] at item
    exact item.trans (.of_plain (by split_ifs <;> simp))

theorem downloadSegment_leads (d : List Byte) (x : SdoXfer) (s : State) : s.Leads (downloadSegment d x s) := by
  unfold downloadSegment
  extract_lets cmd v ack
  split
  · exact .of_plain (by simp)
  split
  · exact .of_plain (by simp)
  split
  · exact sdoWrite_leads ..
  · exact .of_plain (by simp)

theorem sdoServe_leads (d : List Byte) (s : State) : s.Leads (sdoServe d s) := by
  unfold sdoServe
  extract_lets unknown
  have hu : s.Leads unknown := .of_plain (by simp [unknown])
  split
  · split
    · exact hu
    · exact downloadSegment_leads ..
  · exact sdoDownload_leads d s
  · exact sdoUpload_leads d s
  · split
    · exact .of_plain (by simp)
    · exact hu
  · exact .of_plain (by simp)
  · exact hu

theorem sdoRequest_leads (cobId : Nat) (fd : Bool) (d : List Byte) (s : State) : s.Leads (sdoRequest cobId fd d s) := by
  unfold sdoRequest
  split
  · exact .refl s
  split
  · exact .of_plain (by simp)
  split
  · exact .refl s
  split
  · exact .of_plain (by simp)
  split
  · exact .of_plain (by simp)
  · exact sdoServe_leads d s

end
end Sys2Proof.Machine
end

section
/-! The frame of every command in one statement. -/

namespace Sys2Proof.Machine

/-- The part of the state of which a piece is one. -/
def Piece.part : Piece → Part
  | .dict => .dict | .fm | .safe => .fm | .time | .clock | .counters => .time | .str => .str | .host => .host | .hbm | .sw => .hbm
  | .ports => .ports | .pat => .pat | .hue => .hue | .tm => .tm | .eg => .eg | .tbl => .tbl | .sk | .buffer => .sk | .cu => .cu
  | .fsu => .fsu | .dbg => .dbg | .eft | .clocks => .eft | .outbox => .outbox | .free => .free

/-- The pieces of which the invariant, the safe state and counter F speak. -/
def watched : List Piece := [.safe, .clock, .counters, .sw, .buffer, .clocks]

/-- Those that a command may change. -/
def changes : Instr → List Piece
  | .reorderRelease .. | .mbDoorbell .. | .dictWrite .. | .oapRequest .. | .oapArpRequest .. | .sdoRequest .. | .resetN .. | .resetCmdCold .. | .wdogTimeout .. | .dictGo .. | .powerOnReset .. => watched
  | .csBufData .. => [.buffer]
  | .epochBoundary .. => [.counters]
  | .hbmThawDone .. | .hbmPprDone .. | .unitRegrowthDone .. | .warmN .. => [.sw, .buffer]
  | .eventOccurrence .. | .coreRailFault .. | .thermalTrip .. | .rpllUnlock .. => [.safe]
  | .firstFaultWritten .. | .pwrgoodFall .. => [.clocks]
  | .warmDrainDone .. => [.sw, .buffer, .clocks]
  | .railEnableStep .. | .resetNRelease .. => [.clock, .counters, .clocks]
  | .railTimeout .. => [.safe, .clocks]
  | _ => []

/-- The pieces that a command may change: of the parts it touches, the watched pieces only where `changes` lists them. -/
def mask (i : Instr) (p : Piece) : Bool := (touches i).contains p.part && (!watched.contains p || (changes i).contains p)

theorem State.off_of_all {m : Piece → Bool} {s t : State} (h : ∀ p, m p) (hp : t.pending = s.pending) : t.off m = s.off m := by
  simp [State.off, h, hp]

theorem dictOp_leads {f : State → State} (hf : ∀ s : State, s.Leads (f s)) (s : State) : s.Leads (dictOp f s) := by
  have hsel : ∀ s : State, s.Leads (s.tapSelect 0x10) := fun s => .of_plain (by simp)
  unfold dictOp
  split
  · refine .trans ?_ (hf _)
    split
    · exact .refl s
    · exact hsel s
  · exact .refl s

theorem powerOn_pending (s : State) (device straps : Nat) (slot0 slot1 : List Byte) : (powerOn s device straps slot0 slot1).pending = s.pending :=
  State.pending_of_off (powerOn_off (m := fun _ => true) (fun _ => rfl) s device straps slot0 slot1)

theorem exec_off (i : Instr) (s : State) : (Out.state s (exec i s)).off (mask i) = s.off (mask i) := by
  cases i with
  | frameReceive port frame rx => exact frameReceive_off ⟨rfl, rfl, rfl, rfl⟩ ..
  | parse pipe err => exact parsePacket_off ⟨rfl, rfl, rfl, rfl, rfl, rfl, rfl, rfl, rfl, rfl, rfl⟩ ..
  | ruleRewriteDone slot copy => exact ruleRewrite_off ⟨rfl, rfl⟩ ..
  | patternScan engine err => exact patternScan_off ⟨rfl, rfl, rfl, rfl, rfl⟩ ..
  | patMemRewriteDone word copy => exact patRewrite_off ⟨rfl, rfl⟩ ..
  | patternResult engine => exact patternResult_off ⟨rfl, rfl, rfl, rfl⟩ ..
  | joinRelease pipe => exact joinRelease_off rfl ..
  | spray pipe => exact spray_off ⟨rfl, rfl, rfl, rfl, rfl, rfl⟩ ..
  | sprayStallTimeout pipe => exact sprayStall_off ⟨rfl, rfl⟩ ..
  | contextLoaded thread err => exact contextLoaded_off ⟨rfl, rfl, rfl, rfl, rfl, rfl, rfl, rfl, rfl, rfl⟩ ..
  | seq thread err => exact issueRow_off ⟨rfl, rfl, rfl, rfl, rfl, rfl, rfl, rfl, rfl, rfl, rfl⟩ ..
  | disp thread err => exact issueRow_off ⟨rfl, rfl, rfl, rfl, rfl, rfl, rfl, rfl, rfl, rfl, rfl⟩ ..
  | halt thread err => exact issueRow_off ⟨rfl, rfl, rfl, rfl, rfl, rfl, rfl, rfl, rfl, rfl, rfl⟩ ..
  | trap thread err => exact issueRow_off ⟨rfl, rfl, rfl, rfl, rfl, rfl, rfl, rfl, rfl, rfl, rfl⟩ ..
  | nop thread x => exact opRow_off ⟨rfl, rfl, rfl, rfl, rfl, rfl, rfl, rfl, rfl, rfl⟩ ..
  | mov thread x => exact opRow_off ⟨rfl, rfl, rfl, rfl, rfl, rfl, rfl, rfl, rfl, rfl⟩ ..
  | add thread x => exact opRow_off ⟨rfl, rfl, rfl, rfl, rfl, rfl, rfl, rfl, rfl, rfl⟩ ..
  | sub thread x => exact opRow_off ⟨rfl, rfl, rfl, rfl, rfl, rfl, rfl, rfl, rfl, rfl⟩ ..
  | and thread x => exact opRow_off ⟨rfl, rfl, rfl, rfl, rfl, rfl, rfl, rfl, rfl, rfl⟩ ..
  | or thread x => exact opRow_off ⟨rfl, rfl, rfl, rfl, rfl, rfl, rfl, rfl, rfl, rfl⟩ ..
  | xor thread x => exact opRow_off ⟨rfl, rfl, rfl, rfl, rfl, rfl, rfl, rfl, rfl, rfl⟩ ..
  | andn thread x => exact opRow_off ⟨rfl, rfl, rfl, rfl, rfl, rfl, rfl, rfl, rfl, rfl⟩ ..
  | shl thread x => exact opRow_off ⟨rfl, rfl, rfl, rfl, rfl, rfl, rfl, rfl, rfl, rfl⟩ ..
  | shr thread x => exact opRow_off ⟨rfl, rfl, rfl, rfl, rfl, rfl, rfl, rfl, rfl, rfl⟩ ..
  | sar thread x => exact opRow_off ⟨rfl, rfl, rfl, rfl, rfl, rfl, rfl, rfl, rfl, rfl⟩ ..
  | ext thread x => exact opRow_off ⟨rfl, rfl, rfl, rfl, rfl, rfl, rfl, rfl, rfl, rfl⟩ ..
  | ins thread x => exact opRow_off ⟨rfl, rfl, rfl, rfl, rfl, rfl, rfl, rfl, rfl, rfl⟩ ..
  | min thread x => exact opRow_off ⟨rfl, rfl, rfl, rfl, rfl, rfl, rfl, rfl, rfl, rfl⟩ ..
  | max thread x => exact opRow_off ⟨rfl, rfl, rfl, rfl, rfl, rfl, rfl, rfl, rfl, rfl⟩ ..
  | sdiff thread x => exact opRow_off ⟨rfl, rfl, rfl, rfl, rfl, rfl, rfl, rfl, rfl, rfl⟩ ..
  | cmp thread x => exact opRow_off ⟨rfl, rfl, rfl, rfl, rfl, rfl, rfl, rfl, rfl, rfl⟩ ..
  | tstb thread x => exact opRow_off ⟨rfl, rfl, rfl, rfl, rfl, rfl, rfl, rfl, rfl, rfl⟩ ..
  | absd thread x => exact opRow_off ⟨rfl, rfl, rfl, rfl, rfl, rfl, rfl, rfl, rfl, rfl⟩ ..
  | popc thread x => exact opRow_off ⟨rfl, rfl, rfl, rfl, rfl, rfl, rfl, rfl, rfl, rfl⟩ ..
  | ffs thread x => exact opRow_off ⟨rfl, rfl, rfl, rfl, rfl, rfl, rfl, rfl, rfl, rfl⟩ ..
  | bswap thread x => exact opRow_off ⟨rfl, rfl, rfl, rfl, rfl, rfl, rfl, rfl, rfl, rfl⟩ ..
  | movz thread x => exact opRow_off ⟨rfl, rfl, rfl, rfl, rfl, rfl, rfl, rfl, rfl, rfl⟩ ..
  | movnz thread x => exact opRow_off ⟨rfl, rfl, rfl, rfl, rfl, rfl, rfl, rfl, rfl, rfl⟩ ..
  | lds thread x => exact opRow_off ⟨rfl, rfl, rfl, rfl, rfl, rfl, rfl, rfl, rfl, rfl⟩ ..
  | sts thread x => exact opRow_off ⟨rfl, rfl, rfl, rfl, rfl, rfl, rfl, rfl, rfl, rfl⟩ ..
  | ldh thread x => exact opRow_off ⟨rfl, rfl, rfl, rfl, rfl, rfl, rfl, rfl, rfl, rfl⟩ ..
  | hash thread x => exact opRow_off ⟨rfl, rfl, rfl, rfl, rfl, rfl, rfl, rfl, rfl, rfl⟩ ..
  | lkmac thread x => exact opRow_off ⟨rfl, rfl, rfl, rfl, rfl, rfl, rfl, rfl, rfl, rfl⟩ ..
  | lknat thread x => exact opRow_off ⟨rfl, rfl, rfl, rfl, rfl, rfl, rfl, rfl, rfl, rfl⟩ ..
  | lklpm4 thread x => exact opRow_off ⟨rfl, rfl, rfl, rfl, rfl, rfl, rfl, rfl, rfl, rfl⟩ ..
  | lklpm6 thread x => exact opRow_off ⟨rfl, rfl, rfl, rfl, rfl, rfl, rfl, rfl, rfl, rfl⟩ ..
  | lkmcg thread x => exact opRow_off ⟨rfl, rfl, rfl, rfl, rfl, rfl, rfl, rfl, rfl, rfl⟩ ..
  | lkmbr thread x => exact opRow_off ⟨rfl, rfl, rfl, rfl, rfl, rfl, rfl, rfl, rfl, rfl⟩ ..
  | learn thread x => exact opRow_off ⟨rfl, rfl, rfl, rfl, rfl, rfl, rfl, rfl, rfl, rfl⟩ ..
  | lbind thread x => exact opRow_off ⟨rfl, rfl, rfl, rfl, rfl, rfl, rfl, rfl, rfl, rfl⟩ ..
  | lrd thread x => exact opRow_off ⟨rfl, rfl, rfl, rfl, rfl, rfl, rfl, rfl, rfl, rfl⟩ ..
  | lset thread x => exact opRow_off ⟨rfl, rfl, rfl, rfl, rfl, rfl, rfl, rfl, rfl, rfl⟩ ..
  | ladd thread x => exact opRow_off ⟨rfl, rfl, rfl, rfl, rfl, rfl, rfl, rfl, rfl, rfl⟩ ..
  | lmax thread x => exact opRow_off ⟨rfl, rfl, rfl, rfl, rfl, rfl, rfl, rfl, rfl, rfl⟩ ..
  | lmin thread x => exact opRow_off ⟨rfl, rfl, rfl, rfl, rfl, rfl, rfl, rfl, rfl, rfl⟩ ..
  | lor thread x => exact opRow_off ⟨rfl, rfl, rfl, rfl, rfl, rfl, rfl, rfl, rfl, rfl⟩ ..
  | lseq thread x => exact opRow_off ⟨rfl, rfl, rfl, rfl, rfl, rfl, rfl, rfl, rfl, rfl⟩ ..
  | ldup thread x => exact opRow_off ⟨rfl, rfl, rfl, rfl, rfl, rfl, rfl, rfl, rfl, rfl⟩ ..
  | ltok thread x => exact opRow_off ⟨rfl, rfl, rfl, rfl, rfl, rfl, rfl, rfl, rfl, rfl⟩ ..
  | lins thread x => exact opRow_off ⟨rfl, rfl, rfl, rfl, rfl, rfl, rfl, rfl, rfl, rfl⟩ ..
  | ldel thread x => exact opRow_off ⟨rfl, rfl, rfl, rfl, rfl, rfl, rfl, rfl, rfl, rfl⟩ ..
  | labort thread x => exact opRow_off ⟨rfl, rfl, rfl, rfl, rfl, rfl, rfl, rfl, rfl, rfl⟩ ..
  | hset thread x => exact opRow_off ⟨rfl, rfl, rfl, rfl, rfl, rfl, rfl, rfl, rfl, rfl⟩ ..
  | setdest thread x => exact opRow_off ⟨rfl, rfl, rfl, rfl, rfl, rfl, rfl, rfl, rfl, rfl⟩ ..
  | setq thread x => exact opRow_off ⟨rfl, rfl, rfl, rfl, rfl, rfl, rfl, rfl, rfl, rfl⟩ ..
  | flags thread x => exact opRow_off ⟨rfl, rfl, rfl, rfl, rfl, rfl, rfl, rfl, rfl, rfl⟩ ..
  | setedit thread x => exact opRow_off ⟨rfl, rfl, rfl, rfl, rfl, rfl, rfl, rfl, rfl, rfl⟩ ..
  | setlaunch thread x => exact opRow_off ⟨rfl, rfl, rfl, rfl, rfl, rfl, rfl, rfl, rfl, rfl⟩ ..
  | reason thread x => exact opRow_off ⟨rfl, rfl, rfl, rfl, rfl, rfl, rfl, rfl, rfl, rfl⟩ ..
  | colour thread x => exact opRow_off ⟨rfl, rfl, rfl, rfl, rfl, rfl, rfl, rfl, rfl, rfl⟩ ..
  | postcard thread x => exact opRow_off ⟨rfl, rfl, rfl, rfl, rfl, rfl, rfl, rfl, rfl, rfl⟩ ..
  | progdata thread x => exact opRow_off ⟨rfl, rfl, rfl, rfl, rfl, rfl, rfl, rfl, rfl, rfl⟩ ..
  | operationResult thread place word pos fsu => exact operationResult_off ⟨rfl, rfl, rfl, rfl, rfl, rfl, rfl, rfl, rfl, rfl, rfl⟩ ..
  | leapCommit thread err => exact leapTest_off ⟨rfl, rfl, rfl, rfl, rfl, rfl, rfl, rfl, rfl, rfl, rfl⟩ ..
  | leapStatusDelivered thread => exact statusDelivered_off ⟨rfl, rfl, rfl, rfl, rfl, rfl, rfl⟩ ..
  | leapWaitLimit thread => exact leapWaitLimit_off ⟨rfl, rfl⟩ ..
  | lockWaitTimeout thread => exact lockWaitTimeout_off ⟨rfl, rfl, rfl, rfl, rfl, rfl, rfl, rfl, rfl, rfl, rfl, rfl, rfl⟩ ..
  | reorderTimeout pipe => exact reorderTimeout_off ⟨rfl, rfl, rfl⟩ ..
  | tmAdmit overload ecc => exact execTmAdmit_off ⟨rfl, rfl, rfl, rfl, rfl, rfl, rfl, rfl, rfl, rfl, rfl⟩ ..
  | spillRefill voq => exact spillRefill_off ⟨rfl, rfl⟩ ..
  | spillFetchReturn voq mismatch => exact spillFetchReturn_off ⟨rfl, rfl, rfl, rfl, rfl, rfl, rfl, rfl, rfl, rfl⟩ ..
  | inputSlot station ecc => exact inputSlot_off ⟨rfl, rfl, rfl, rfl, rfl, rfl, rfl, rfl, rfl⟩ ..
  | cellAtMiddle middle ecc word => exact cellAtMiddle_off ⟨rfl, rfl, rfl, rfl, rfl, rfl, rfl, rfl, rfl⟩ ..
  | middleSlot middle ecc parity => exact middleSlot_off ⟨rfl, rfl⟩ ..
  | cellAtOutput station ecc => exact cellAtOutput_off ⟨rfl, rfl, rfl, rfl, rfl, rfl, rfl, rfl, rfl⟩ ..
  | fabReorderTimeout grp inGrp kind => exact fabTimeout_off ⟨rfl, rfl, rfl, rfl, rfl, rfl, rfl, rfl, rfl⟩ ..
  | egressAdmit grp port desc word edit => exact egressAdmit_off ⟨rfl, rfl, rfl, rfl, rfl, rfl, rfl, rfl, rfl, rfl, rfl⟩ ..
  | frameStart port preemptable ofs ecc => exact frameStart_off ⟨rfl, rfl, rfl, rfl, rfl, rfl⟩ ..
  | launchDue port ofs => exact launchDue_off ⟨rfl, rfl, rfl, rfl, rfl, rfl⟩ ..
  | portModeWrite c port v => exact execPortModeWrite_off ⟨rfl, rfl, rfl, rfl, rfl, rfl, rfl, rfl, rfl, rfl⟩ ..
  | adminUpWrite c port v => exact execAdminUpWrite_off ⟨rfl, rfl, rfl, rfl, rfl, rfl, rfl, rfl, rfl, rfl⟩ ..
  | linkFilterWrite c port up v => exact execLinkFilterWrite_off ⟨rfl, rfl, rfl, rfl, rfl, rfl, rfl, rfl, rfl, rfl⟩ ..
  | signalDetectChange lane on => exact signalChange_off ⟨rfl, rfl⟩ ..
  | pcsLockChange port lock speed => exact lockChange_off ⟨rfl, rfl, rfl⟩ ..
  | linkFaultReceive port kind => exact faultReceive_off ⟨rfl, rfl⟩ ..
  | linkDownFilterExpiry port => exact downExpiry_off ⟨rfl, rfl, rfl, rfl, rfl, rfl, rfl, rfl⟩ ..
  | linkUpFilterExpiry port => exact upExpiry_off ⟨rfl, rfl, rfl, rfl, rfl⟩ ..
  | downHoldExpiry port => exact holdExpiry_off ⟨rfl, rfl, rfl, rfl⟩ ..
  | trainingTimeout lane => exact trainTimeout_off ⟨rfl, rfl⟩ ..
  | mmVerifyDone port ok => exact verifyDone_off ⟨rfl, rfl⟩ ..
  | lanePllUnlock lane => exact pllUnlock_off ⟨rfl, rfl, rfl, rfl, rfl, rfl, rfl, rfl⟩ ..
  | portCountersClear c port v => exact execPortCountersClear_off ⟨rfl, rfl, rfl, rfl, rfl⟩ ..
  | hueCommit c v => exact execHueCommit_off ⟨rfl, rfl, rfl, rfl, rfl, rfl⟩ ..
  | commitPoint  => exact commitPoint_off ⟨rfl, rfl, rfl, rfl, rfl, rfl⟩ ..
  | hueAbort c v => exact execHueAbort_off ⟨rfl, rfl, rfl, rfl, rfl, rfl, rfl, rfl, rfl⟩ ..
  | ruleHeaderWrite c v => exact execRuleHeaderWrite_off ⟨rfl, rfl, rfl, rfl, rfl, rfl⟩ ..
  | ruleContentWrite c part v => exact execRuleContentWrite_off ⟨rfl, rfl, rfl, rfl, rfl, rfl⟩ ..
  | rwhValueWrite c obj v => exact execRwhValueWrite_off ⟨rfl, rfl, rfl, rfl, rfl, rfl⟩ ..
  | hueDrainLimit hue => exact hueDrain_off ⟨rfl, rfl⟩ ..
  | hueScrubVisit  => exact hueScrub_off ⟨rfl, rfl, rfl, rfl, rfl⟩ ..
  | patSetHeaderWrite c v => exact execPatSetHeaderWrite_off ⟨rfl, rfl, rfl, rfl, rfl, rfl⟩ ..
  | patWordWrite c v => exact execPatWordWrite_off ⟨rfl, rfl, rfl, rfl, rfl, rfl⟩ ..
  | patEngineIsolate c v => exact execPatEngineIsolate_off ⟨rfl, rfl, rfl, rfl, rfl, rfl, rfl, rfl⟩ ..
  | patEngineRegrow c v => exact execPatEngineRegrow_off ⟨rfl, rfl, rfl, rfl, rfl⟩ ..
  | clutchDrain c v => exact execClutchDrain_off ⟨rfl, rfl, rfl, rfl, rfl, rfl, rfl⟩ ..
  | clutchReturn c v => exact execClutchReturn_off ⟨rfl, rfl, rfl, rfl, rfl, rfl, rfl⟩ ..
  | skinkIsolate c v => exact execSkinkIsolate_off ⟨rfl, rfl, rfl, rfl, rfl, rfl, rfl, rfl, rfl⟩ ..
  | skinkRegrow c v => exact execSkinkRegrow_off ⟨rfl, rfl, rfl, rfl, rfl⟩ ..
  | sfEntryWrite c v => exact execSfEntryWrite_off ⟨rfl, rfl, rfl, rfl, rfl, rfl, rfl⟩ ..
  | sfIdleExpiry entry => exact sfIdle_off ⟨rfl, rfl, rfl⟩ ..
  | reorderTimeoutWrite c v => exact execReorderTimeoutWrite_off ⟨rfl, rfl, rfl, rfl, rfl⟩ ..
  | reorderHighWaterRead c pipe => exact readObj_off (m := mask (.reorderHighWaterRead c pipe)) rfl (fun s => State.wr_off rfl ..) c Objs.reorder_high_water pipe.val (fun s => s.rd Objs.reorder_high_water pipe.val) _ s
  | csBufData c v => exact execCsBufData_off ⟨rfl, rfl, rfl, rfl, rfl, rfl, rfl⟩ ..
  | imageBufferClaimExpiry  => exact claimExpiry_off rfl ..
  | csLoad source => exact execCsLoad_off ⟨rfl, rfl, rfl, rfl, rfl, rfl, rfl, rfl, rfl⟩ ..
  | csLoadDone clutch mismatches second => exact csLoadDone_off ⟨rfl, rfl, rfl, rfl, rfl, rfl, rfl, rfl, rfl, rfl, rfl⟩ ..
  | hueImageLoad c v => exact execHueImageLoad_off ⟨rfl, rfl, rfl, rfl, rfl, rfl, rfl, rfl, rfl⟩ ..
  | disp0Stage c v => exact execDisp0Stage_off ⟨rfl, rfl, rfl, rfl, rfl, rfl, rfl⟩ ..
  | csRepairDone clutch copy mismatches => exact csRepair_off ⟨rfl, rfl, rfl, rfl, rfl, rfl, rfl, rfl⟩ ..
  | tblDmaRead ring entry buf words dma => exact execTblDmaRead_off ⟨rfl, rfl, rfl, rfl, rfl, rfl, rfl, rfl, rfl⟩ ..
  | tblDmaWrite ring entry buf dma => exact execTblDmaWrite_off ⟨rfl, rfl, rfl, rfl, rfl, rfl, rfl, rfl⟩ ..
  | tblDmaInsert ring entry buf dma => exact execTblDmaInsert_off ⟨rfl, rfl, rfl, rfl, rfl, rfl, rfl, rfl⟩ ..
  | tblDmaDelete ring entry buf dma => exact execTblDmaDelete_off ⟨rfl, rfl, rfl, rfl, rfl, rfl, rfl, rfl⟩ ..
  | tblLock ring entry buf dma => exact execTblLock_off ⟨rfl, rfl, rfl, rfl, rfl, rfl, rfl, rfl⟩ ..
  | tblLockGrant lock => exact lockGrant_off ⟨rfl, rfl, rfl, rfl, rfl, rfl, rfl, rfl⟩ ..
  | tblUnlock ring entry buf dma => exact execTblUnlock_off ⟨rfl, rfl, rfl, rfl, rfl, rfl, rfl⟩ ..
  | tblSearch ring entry buf dma => exact execTblSearch_off ⟨rfl, rfl, rfl, rfl, rfl, rfl, rfl, rfl⟩ ..
  | tblNext ring entry dma => exact execTblNext_off ⟨rfl, rfl, rfl, rfl, rfl, rfl, rfl, rfl⟩ ..
  | tblFlushPort ring entry => exact execTblFlushPort_off ⟨rfl, rfl, rfl, rfl, rfl, rfl, rfl⟩ ..
  | tblFlushTemplate ring entry => exact execTblFlushTemplate_off ⟨rfl, rfl, rfl, rfl, rfl, rfl, rfl⟩ ..
  | flowFlushDone dma => exact flowFlushDone_off ⟨rfl, rfl, rfl, rfl, rfl, rfl, rfl⟩ ..
  | flowCacheFlush c v => exact execFlowCacheFlush_off ⟨rfl, rfl, rfl, rfl, rfl, rfl⟩ ..
  | bucketReadReturn tag ecc => exact bucketReturn_off ⟨rfl, rfl, rfl, rfl, rfl⟩ ..
  | relocWalk place => exact relocStart_off ⟨rfl, rfl, rfl, rfl, rfl⟩ ..
  | relocMoveDone path => exact relocDone_off ⟨rfl, rfl, rfl, rfl⟩ ..
  | sweeperVisit ecc => exact sweepVisit_off ⟨rfl, rfl, rfl, rfl, rfl⟩ ..
  | keyTmplWrite c v => exact execKeyTmplWrite_off ⟨rfl, rfl, rfl, rfl, rfl, rfl⟩ ..
  | hashSaltWrite c v => exact execHashSaltWrite_off ⟨rfl, rfl, rfl, rfl, rfl⟩ ..
  | tmplHeaderWrite c v => exact execTmplHeaderWrite_off ⟨rfl, rfl, rfl, rfl, rfl, rfl⟩ ..
  | learnApply ecc pos => exact learnApply_off ⟨rfl, rfl, rfl⟩ ..
  | macSweepVisit ecc => exact macSweep_off ⟨rfl, rfl, rfl⟩ ..
  | macFlushPort c v => exact execMacFlushPort_off ⟨rfl, rfl, rfl, rfl, rfl, rfl⟩ ..
  | macFlushDone words dma => exact macFlushDone_off ⟨rfl, rfl, rfl, rfl, rfl, rfl, rfl⟩ ..
  | middleIsolate c v => exact execMiddleIsolate_off ⟨rfl, rfl, rfl, rfl, rfl, rfl, rfl, rfl, rfl, rfl, rfl⟩ ..
  | middleRegrow c v => exact execMiddleRegrow_off ⟨rfl, rfl, rfl, rfl, rfl⟩ ..
  | polConfigWrite c v => exact execPolConfigWrite_off ⟨rfl, rfl, rfl, rfl, rfl, rfl⟩ ..
  | shaperWrite c port queue v => exact execShaperWrite_off ⟨rfl, rfl, rfl, rfl, rfl, rfl⟩ ..
  | redProfileWrite c v => exact execRedProfileWrite_off ⟨rfl, rfl, rfl, rfl, rfl, rfl⟩ ..
  | queueWeightWrite c port queue v => exact execQueueWeightWrite_off ⟨rfl, rfl, rfl, rfl, rfl⟩ ..
  | strictCountWrite c port v => exact execStrictCountWrite_off ⟨rfl, rfl, rfl, rfl, rfl, rfl⟩ ..
  | epochBoundary fault => exact epochBoundary_off ⟨rfl, rfl, rfl, rfl, rfl, rfl, rfl, rfl⟩ ..
  | wUpdate  => exact wUpdate_off ⟨rfl, rfl, rfl⟩ ..
  | domLossTimeout d => exact domLossTimeout_off ⟨rfl, rfl, rfl⟩ ..
  | domEnableWrite c d v => exact execDomEnableWrite_off ⟨rfl, rfl, rfl, rfl, rfl, rfl⟩ ..
  | wSelectWrite c v => exact execWSelectWrite_off ⟨rfl, rfl, rfl, rfl, rfl⟩ ..
  | wSet c v => exact execWSet_off ⟨rfl, rfl, rfl, rfl, rfl, rfl⟩ ..
  | domStep c d v => exact execDomStep_off ⟨rfl, rfl, rfl, rfl, rfl, rfl⟩ ..
  | domIncWrite c d v => exact execDomIncWrite_off ⟨rfl, rfl, rfl, rfl, rfl, rfl⟩ ..
  | timeSnapshot c v => exact execTimeSnapshot_off ⟨rfl, rfl, rfl, rfl, rfl⟩ ..
  | evtInEdge k falling samples => exact evtEdge_off ⟨rfl, rfl, rfl, rfl⟩ ..
  | evtFifoRead c k => exact readEvtFifo_off ⟨rfl, rfl⟩ ..
  | ppsEdge k rise => exact ppsEdge_off rfl ..
  | phaseInterval port move => exact phaseInterval_off ⟨rfl, rfl, rfl⟩ ..
  | hbmTrainingDone pc pass spares bad => exact (State.bootStep_off (m := mask (.hbmTrainingDone pc pass spares bad)) ⟨rfl, rfl, rfl, rfl, rfl, rfl, rfl, rfl, rfl, rfl, rfl, rfl⟩ ..).trans (hbmTrainingDone_off ⟨rfl, rfl, rfl, rfl, rfl, rfl, rfl⟩ ..)
  | hbmRetrain pc pass spare => exact hbmRetrain_off ⟨rfl, rfl, rfl, rfl, rfl, rfl, rfl⟩ ..
  | hbmRefresh pc => exact hbmRefresh_off rfl ..
  | hbmTempSample stack temp => exact hbmTempSample_off ⟨rfl, rfl⟩ ..
  | hbmReadComplete pc ecc => exact hbmReadComplete_off ⟨rfl, rfl, rfl, rfl, rfl, rfl, rfl⟩ ..
  | hbmCaParity pc offset write client => exact hbmFreeze_off ⟨rfl, rfl, rfl, rfl, rfl, rfl, rfl⟩ ..
  | rowHoldExpiry pc bank => exact rowHoldExpiry_off rfl ..
  | hbmPatrolScrub pc => 
    rw [show exec (.hbmPatrolScrub pc) s = .next (hbmPatrolScrub s pc.val) from rfl, Out.state_next]
    exact hbmPatrolScrub_off rfl ..
  | hbmThaw c v => exact execHbmThaw_off ⟨rfl, rfl, rfl, rfl, rfl⟩ ..
  | hbmThawDone pc res spare bad => exact hbmThawDone_off ⟨rfl, rfl, rfl, rfl, rfl, rfl, rfl, rfl⟩ ..
  | hbmRetire c v => exact execHbmRetire_off ⟨rfl, rfl, rfl, rfl, rfl, rfl, rfl⟩ ..
  | hbmRegrow c v => exact execHbmRegrow_off ⟨rfl, rfl, rfl, rfl, rfl⟩ ..
  | hbmPprSoft c => exact writePpr_off ⟨rfl, rfl, rfl, rfl, rfl⟩ ..
  | hbmPprHard c => exact writePpr_off ⟨rfl, rfl, rfl, rfl, rfl⟩ ..
  | hbmPprDone pc pass bad => exact hbmPprDone_off ⟨rfl, rfl, rfl, rfl, rfl, rfl, rfl, rfl⟩ ..
  | crDoorbell ring value => exact crDoorbell_off ⟨rfl, rfl, rfl, rfl, rfl, rfl, rfl, rfl, rfl, rfl⟩ ..
  | drDoorbell ring value => exact drDoorbell_off ⟨rfl, rfl, rfl, rfl, rfl, rfl, rfl, rfl, rfl, rfl⟩ ..
  | brDoorbell ring value => exact brDoorbell_off ⟨rfl, rfl, rfl, rfl, rfl, rfl, rfl, rfl, rfl, rfl⟩ ..
  | crCtrlWrite ring base wb ctrl posted regs => exact (crCtrlWrite_off (m := mask (.crCtrlWrite ring base wb ctrl posted regs)) ⟨rfl, rfl, rfl, rfl, rfl, rfl, rfl, rfl, rfl, rfl⟩ ..).trans (State.off_foldl (State.hostReg_off ⟨rfl, rfl, rfl⟩) ..)
  | crStop ring posted => exact crStop_off ⟨rfl, rfl, rfl, rfl, rfl, rfl, rfl⟩ ..
  | drCtrlWrite ring regs ctrl => exact drCtrlWrite_off ⟨rfl, rfl, rfl, rfl, rfl, rfl, rfl, rfl, rfl, rfl⟩ ..
  | cmdNop ring entry => exact execCmdNop_off ⟨rfl, rfl, rfl, rfl, rfl, rfl, rfl⟩ ..
  | pktInject ring entry buf dma => exact execPktInject_off ⟨rfl, rfl, rfl, rfl, rfl, rfl, rfl, rfl, rfl, rfl⟩ ..
  | hueStage ring entry buf dma => exact execHueStage_off ⟨rfl, rfl, rfl, rfl, rfl, rfl, rfl, rfl, rfl, rfl⟩ ..
  | deliverItem ring entry bad => exact deliverItem_off ⟨rfl, rfl, rfl, rfl, rfl⟩ ..
  | deliveryHoldExpiry ring => exact dlvHoldExpiry_off ⟨rfl, rfl, rfl, rfl⟩ ..
  | deliveryCoalTimer ring => exact coalTimer_off ⟨rfl, rfl⟩ ..
  | functionLevelReset  => exact State.hostTrigger_off ⟨rfl, rfl, rfl, rfl, rfl, rfl, rfl, rfl, rfl⟩ ..
  | pcieLinkDown  => exact State.hostTrigger_off ⟨rfl, rfl, rfl, rfl, rfl, rfl, rfl, rfl, rfl⟩ ..
  | bar2Read offset len => exact State.barAccess_off ⟨rfl, rfl, rfl, rfl⟩ ..
  | bar2Write offset data => exact State.barAccess_off ⟨rfl, rfl, rfl, rfl⟩ ..
  | pathEnableWrite c path v => exact writeObj_off (m := mask (.pathEnableWrite c path v)) ⟨rfl, rfl, rfl, rfl, rfl⟩ (fun _ _ => rfl) (fun _ _ => rfl) ..
  | oapSessionExpiry inband session => exact sessionExpiry_off ⟨rfl, rfl, rfl, rfl, rfl⟩ ..
  | sdoSegmentTimeout  => exact sdoTimeout_off ⟨rfl, rfl⟩ ..
  | save c => exact execSave_off ⟨rfl, rfl, rfl, rfl, rfl, rfl⟩ ..
  | erase c => exact execErase_off ⟨rfl, rfl, rfl, rfl, rfl, rfl⟩ ..
  | saveDone ok => exact saveDone_off ⟨rfl, rfl, rfl⟩ ..
  | strEnableWrite c v => exact writeStrEnable_off ⟨rfl, rfl, rfl, rfl, rfl⟩ ..
  | strLaneLockChange lock deskewed => exact strLaneLock_off ⟨rfl, rfl, rfl⟩ ..
  | fcControlWord crcOk reset status => exact fcWord_off ⟨rfl, rfl, rfl⟩ ..
  | fcTimeout  => exact fcTimeout_off ⟨rfl, rfl⟩ ..
  | strBurstSend staged => exact strBurstSend_off ⟨rfl, rfl, rfl, rfl, rfl, rfl⟩ ..
  | eventOccurrence found => exact eventOccurrence_off ⟨rfl, rfl, rfl, rfl, rfl, rfl, rfl, rfl, rfl, rfl, rfl, rfl, rfl, rfl, rfl, rfl, rfl, rfl⟩ ..
  | firstFaultWritten ok => exact firstFaultWritten_off ⟨rfl, rfl, rfl, rfl, rfl⟩ ..
  | recordOpenLimit seq => exact openLimit_off ⟨rfl, rfl⟩ ..
  | croakTimerExpiry  => exact croakExpiry_off ⟨rfl, rfl⟩ ..
  | croakLevelWrite c v => exact execCroakLevelWrite_off ⟨rfl, rfl, rfl, rfl, rfl⟩ ..
  | evClear c src v => exact evClear_off ⟨rfl, rfl, rfl, rfl, rfl⟩ ..
  | evConfigWrite c src obj v => exact evConfig_off ⟨rfl, rfl, rfl, rfl, rfl⟩ ..
  | fmLogAck c v => exact execFmLogAck_off ⟨rfl, rfl, rfl, rfl, rfl⟩ ..
  | fmSummaryClear c v => exact execFmSummaryClear_off ⟨rfl, rfl, rfl, rfl, rfl⟩ ..
  | fmFirstClear c v => exact execFmFirstClear_off ⟨rfl, rfl, rfl, rfl, rfl⟩ ..
  | fmIsolate c v => exact execFmIsolate_off ⟨rfl, rfl, rfl, rfl, rfl, rfl, rfl, rfl, rfl, rfl, rfl, rfl, rfl, rfl, rfl, rfl⟩ ..
  | fmRegrow c v => exact execFmRegrow_off ⟨rfl, rfl, rfl, rfl, rfl⟩ ..
  | unitRegrowthDone utype unit pass spares => exact regrowthDone_off ⟨rfl, rfl, rfl, rfl, rfl, rfl, rfl, rfl⟩ ..
  | pwrgoodFall  => exact pwrgoodFall_off ⟨rfl, rfl, rfl, rfl⟩ ..
  | resetN straps => exact State.coldTrigger_off ⟨rfl, rfl, rfl, rfl, rfl, rfl, rfl, rfl, rfl, rfl, rfl, rfl, rfl, rfl, rfl, rfl, rfl, rfl, rfl, rfl, rfl, rfl, rfl, rfl⟩ ..
  | warmN  => exact State.warmUnorderly_off ⟨rfl, rfl, rfl, rfl, rfl, rfl, rfl, rfl, rfl, rfl, rfl, rfl, rfl, rfl, rfl, rfl, rfl, rfl, rfl⟩ ..
  | resetCmdWarm c => exact execResetCmdWarm_off ⟨rfl, rfl, rfl, rfl, rfl, rfl, rfl, rfl, rfl⟩ ..
  | resetCmdCold c straps => exact writeObj_off (m := mask (.resetCmdCold c straps)) ⟨rfl, rfl, rfl, rfl, rfl⟩ (fun _ s => State.coldTrigger_off ⟨rfl, rfl, rfl, rfl, rfl, rfl, rfl, rfl, rfl, rfl, rfl, rfl, rfl, rfl, rfl, rfl, rfl, rfl, rfl, rfl, rfl, rfl, rfl, rfl⟩ ..) (fun _ _ => rfl) ..
  | warmDrainDone  => exact warmDrainDone_off ⟨rfl, rfl, rfl, rfl, rfl, rfl, rfl, rfl, rfl, rfl, rfl, rfl, rfl, rfl, rfl, rfl, rfl, rfl, rfl, rfl, rfl⟩ ..
  | restartSequence reloads => exact restartSequence_off ⟨rfl, rfl, rfl, rfl, rfl, rfl, rfl, rfl, rfl, rfl, rfl, rfl⟩ ..
  | brumate c v => exact execBrumate_off ⟨rfl, rfl, rfl, rfl, rfl, rfl⟩ ..
  | brumationReached  => exact brumationReached_off ⟨rfl, rfl⟩ ..
  | wake c v => exact execWake_off ⟨rfl, rfl, rfl, rfl, rfl, rfl⟩ ..
  | coarseTimeLoad  => exact coarseTimeLoad_off rfl ..
  | passFrame fromB frame lost => exact passFrame_off ⟨rfl, rfl, rfl, rfl⟩ ..
  | samplerSample chan x => exact samplerTake_off ⟨rfl, rfl, rfl, rfl⟩ ..
  | samplerTimeout chan held => exact samplerTimeout_off ⟨rfl, rfl, rfl, rfl⟩ ..
  | samplerCfgWrite c chan v => exact execSamplerCfgWrite_off ⟨rfl, rfl, rfl, rfl, rfl, rfl⟩ ..
  | eftRuleEval memory => exact ruleEval_off ⟨rfl, rfl, rfl, rfl, rfl⟩ ..
  | wdogTimeout last straps => exact wdogTimeout_off ⟨rfl, rfl, rfl, rfl, rfl, rfl, rfl, rfl, rfl, rfl, rfl, rfl, rfl, rfl, rfl, rfl, rfl, rfl, rfl, rfl, rfl, rfl, rfl, rfl⟩ ..
  | refclkWindowCheck  => exact refclkCheck_off ⟨rfl, rfl, rfl⟩ ..
  | aonclkFault  => exact aonclkFault_off ⟨rfl, rfl, rfl⟩ ..
  | railEnableStep held => exact railEnable_off ⟨rfl, rfl, rfl, rfl, rfl, rfl, rfl, rfl, rfl, rfl, rfl, rfl, rfl, rfl, rfl, rfl, rfl, rfl⟩ ..
  | railTimeout  => exact railTimeout_off ⟨rfl, rfl, rfl, rfl, rfl, rfl, rfl, rfl, rfl, rfl, rfl, rfl, rfl, rfl, rfl, rfl, rfl, rfl, rfl⟩ ..
  | coreRailFault rail => exact coreRailFault_off ⟨rfl, rfl, rfl, rfl, rfl, rfl, rfl, rfl, rfl, rfl, rfl, rfl, rfl, rfl, rfl, rfl, rfl, rfl⟩ ..
  | tjSample sensor mc => exact tjSample_off ⟨rfl, rfl⟩ ..
  | thermalTrip  => exact (State.takeNext_off (m := mask .thermalTrip) ⟨rfl, rfl, rfl, rfl, rfl, rfl, rfl, rfl, rfl, rfl, rfl, rfl, rfl, rfl, rfl, rfl, rfl, rfl⟩ ..).trans (State.raise_off rfl ..)
  | rpllUnlock  => exact (State.off_ite (m := mask .rpllUnlock) ..).trans (by rw [State.takeNext_off ⟨rfl, rfl, rfl, rfl, rfl, rfl, rfl, rfl, rfl, rfl, rfl, rfl, rfl, rfl, rfl, rfl, rfl, rfl⟩, State.raise_off rfl, ite_self])
  | dbgHalt c v => exact execDbgHalt_off ⟨rfl, rfl, rfl, rfl, rfl, rfl, rfl⟩ ..
  | dbgStep c v => exact execDbgStep_off ⟨rfl, rfl, rfl, rfl, rfl, rfl⟩ ..
  | dbgResume c v => exact execDbgResume_off ⟨rfl, rfl, rfl, rfl, rfl, rfl, rfl, rfl⟩ ..
  | haltLeapTimeout thread => exact haltLeapTimeout_off ⟨rfl, rfl, rfl, rfl, rfl⟩ ..
  | breakpointWrite c clutch b v => exact execBreakpointWrite_off ⟨rfl, rfl, rfl, rfl, rfl⟩ ..
  | traceCtrlWrite c clutch v => exact execTraceCtrlWrite_off ⟨rfl, rfl, rfl, rfl, rfl, rfl⟩ ..
  | traceExport clutch => exact traceExport_off ⟨rfl, rfl, rfl, rfl, rfl⟩ ..
  | dbgMemRead c parity => exact execDbgMemRead_off ⟨rfl, rfl, rfl, rfl, rfl, rfl, rfl, rfl, rfl, rfl⟩ ..
  | dbgMemWrite c => exact execDbgMemWrite_off ⟨rfl, rfl, rfl, rfl, rfl, rfl, rfl, rfl, rfl, rfl⟩ ..
  | lanePrbsWrite c lane v pattern => exact execLanePrbsWrite_off ⟨rfl, rfl, rfl, rfl, rfl⟩ ..
  | bootLoadFull c => exact execBootLoadFull_off ⟨rfl, rfl, rfl, rfl, rfl, rfl⟩ ..
  | bootLoadHue c => exact execBootLoadHue_off ⟨rfl, rfl, rfl, rfl, rfl, rfl⟩ ..
  | bootGo c bad => exact execBootGo_off ⟨rfl, rfl, rfl, rfl, rfl, rfl, rfl, rfl, rfl, rfl, rfl, rfl⟩ ..
  | tapReset  => exact (State.off_ite (m := mask .tapReset) ..).trans (by rw [State.off_with_dbg rfl, ite_self])
  | extest bits => exact State.tapScan_off ⟨rfl, rfl, rfl⟩ ..
  | samplePreload bits => exact State.tapScan_off ⟨rfl, rfl, rfl⟩ ..
  | idcode  => exact (State.off_ite (m := mask .idcode) ..).trans (by rw [State.put_off rfl, State.tapSelect_off ⟨rfl, rfl⟩, ite_self])
  | bypass code bits => exact State.tapBypass_off ⟨rfl, rfl⟩ ..
  | dictStatus  => exact dictOp_off (m := mask .dictStatus) ⟨rfl, rfl⟩ (fun s => dictCapture_off rfl ..) ..
  | dictPut byte => exact dictOp_off (m := mask (.dictPut byte)) ⟨rfl, rfl⟩ (fun s => dictPut_off rfl byte s) s
  | dictGet  => exact dictOp_off (m := mask .dictGet) ⟨rfl, rfl⟩ (fun s => dictGet_off ⟨rfl, rfl, rfl⟩ s) s
  | tableRewriteDone target item readable => exact tableRewriteDone_off ⟨rfl, rfl⟩ ..
  | hbmQueueParity pc client => exact hbmFreeze_off ⟨rfl, rfl, rfl, rfl, rfl, rfl, rfl⟩ ..
  | pcieCompletionTimeout ring delivery fault => exact ringFault_off ⟨rfl, rfl, rfl, rfl, rfl, rfl, rfl, rfl, rfl, rfl⟩ ..
  | resetNRelease  => exact resetRelease_off ⟨rfl, rfl, rfl, rfl, rfl, rfl, rfl, rfl, rfl, rfl, rfl, rfl, rfl, rfl, rfl, rfl, rfl, rfl⟩ ..
  | railReleaseStep  => exact railRelease_off rfl ..
  | linkTrainingDone lane => exact trainDone_off rfl ..
  | strRxPacket  => exact State.bump_off rfl ..
  | reorderRelease pipe ecc fault => exact State.off_of_all (fun p => by cases p <;> rfl) (reorderRelease_leads ..).pending
  | mbDoorbell request ctrl => exact State.off_of_all (fun p => by cases p <;> rfl) (mailbox_leads ..).pending
  | dictWrite c idx sub v => exact State.off_of_all (fun p => by cases p <;> rfl) (dictWrite_leads ..).pending
  | oapRequest port frame => exact State.off_of_all (fun p => by cases p <;> rfl) (mgmtFrame_leads ..).pending
  | oapArpRequest port frame => exact State.off_of_all (fun p => by cases p <;> rfl) (mgmtFrame_leads ..).pending
  | sdoRequest cobId fd data => exact State.off_of_all (fun p => by cases p <;> rfl) (sdoRequest_leads ..).pending
  | powerOnReset device straps slot0 slot1 => exact State.off_of_all (fun p => by cases p <;> rfl) (powerOn_pending ..)
  | dictGo  => exact State.off_of_all (fun p => by cases p <;> rfl) (show s.Leads (Out.state s (exec .dictGo s)) from dictOp_leads dictGo_leads s).pending

end Sys2Proof.Machine
end

section
/-! The frame of every command, and what it leads to. -/

namespace Sys2Proof.Machine

theorem exec_leads_of_changes {i : Instr} {s : State} (hi : ∀ d m a b, i ≠ .powerOnReset d m a b) (hc : changes i ≠ []) :
    s.Leads (Out.state s (exec i s)) := by
  cases i with
  | reorderRelease pipe ecc fault => exact reorderRelease_leads ..
  | mbDoorbell request ctrl => exact mailbox_leads ..
  | dictWrite c idx sub v => exact dictWrite_leads ..
  | oapRequest port frame => exact mgmtFrame_leads ..
  | oapArpRequest port frame => exact mgmtFrame_leads ..
  | sdoRequest cobId fd data => exact sdoRequest_leads ..
  | resetN straps => exact State.coldTrigger_leads ..
  | resetCmdCold c straps => exact writeObj_leads (fun _ s => State.coldTrigger_leads ..) (fun _ s => .refl s) ..
  | wdogTimeout last straps => exact wdogTimeout_leads ..
  | dictGo => exact dictOp_leads dictGo_leads s
  | powerOnReset d m a b => exact absurd rfl (hi d m a b)
  | csBufData c v => exact execCsBufData_leads ..
  | epochBoundary fault => exact epochBoundary_leads ..
  | hbmThawDone pc res spare bad => exact hbmThawDone_leads ..
  | hbmPprDone pc pass bad => exact hbmPprDone_leads ..
  | unitRegrowthDone utype unit pass spares => exact regrowthDone_leads ..
  | warmN => exact State.warmUnorderly_leads ..
  | eventOccurrence found => exact eventOccurrence_leads ..
  | coreRailFault rail => exact coreRailFault_leads ..
  | thermalTrip => exact State.takeNext_leads_of_plain (State.raise_off rfl ..)
  | rpllUnlock =>
    show s.Leads (if s.eft.clocks then (s.raise 233 0).takeNext else s)
    split
    · exact State.takeNext_leads_of_plain (State.raise_off rfl ..)
    · exact .refl s
  | firstFaultWritten ok => exact firstFaultWritten_leads ..
  | pwrgoodFall => exact pwrgoodFall_leads ..
  | warmDrainDone => exact warmDrainDone_leads ..
  | railEnableStep held => exact railEnable_leads ..
  | resetNRelease => exact resetRelease_leads ..
  | railTimeout => exact railTimeout_leads ..
  | _ => exact absurd rfl hc

theorem State.off_mono {m m' : Piece → Bool} {s t : State} (hm : ∀ p, m p → m' p) (h : t.off m = s.off m) : t.off m' = s.off m' := by
  have key : ∀ u : State, (u.off m).off m' = u.off m' := fun u => by
    have hb : ∀ p, m' p = false → m p = false := fun p hp => by
      cases e : m p
      · rfl
      · rw [hm p e] at hp; exact hp
    have hc : ∀ {α : Type} (p : Piece) (a b : α), (bif m' p then a else bif m p then a else b) = bif m' p then a else b := fun p a b => by
      cases e : m' p <;> simp [hb, e]
    simp only [State.off, hc]
    cases e1 : m' .fm <;> cases e2 : m' .time <;> cases e3 : m' .hbm <;> cases e4 : m' .sk <;> cases e5 : m' .eft <;> simp [hb, *]
  rw [← key t, h, key s]

@[simp] theorem mask_iff {i : Instr} {p : Piece} : mask i p = true ↔ p.part ∈ touches i ∧ (p ∈ watched → p ∈ changes i) := by
  simp [mask]; tauto

theorem exec_leads {i : Instr} (hi : ∀ d m a b, i ≠ .powerOnReset d m a b) (s : State) : s.Leads (Out.state s (exec i s)) := by
  by_cases hc : changes i = []
  · refine .of_plain (State.off_mono (fun p hp => ?_) (exec_off i s))
    rw [mask_iff, hc] at hp
    exact (Piece.keep_iff _ _).2 fun h => List.not_mem_nil (hp.2 h)
  · exact exec_leads_of_changes hi hc

theorem Part.same_of_off {m : Piece → Bool} {s t : State} {p : Part} (h : t.off m = s.off m) (hp : ∀ q : Piece, q.part = p → m q = false) : p.same s t := by
  cases p with
  | fm =>
    have e := congrArg State.fm h
    simp only [State.off, hp .fm rfl, hp .safe rfl, cond_false] at e
    exact e
  | time =>
    have e := congrArg State.time h
    simp only [State.off, hp .time rfl, hp .clock rfl, hp .counters rfl, cond_false] at e
    exact e
  | hbm =>
    have e := congrArg State.hbm h
    simp only [State.off, hp .hbm rfl, hp .sw rfl, cond_false] at e
    exact e
  | sk =>
    have e := congrArg State.sk h
    simp only [State.off, hp .sk rfl, hp .buffer rfl, cond_false] at e
    exact e
  | eft =>
    have e := congrArg State.eft h
    simp only [State.off, hp .eft rfl, hp .clocks rfl, cond_false] at e
    exact e
  | dict =>
    have e := congrArg State.dict h
    simp only [State.off, hp .dict rfl, cond_false] at e
    exact e
  | str =>
    have e := congrArg State.str h
    simp only [State.off, hp .str rfl, cond_false] at e
    exact e
  | host =>
    have e := congrArg State.host h
    simp only [State.off, hp .host rfl, cond_false] at e
    exact e
  | ports =>
    have e := congrArg State.ports h
    simp only [State.off, hp .ports rfl, cond_false] at e
    exact e
  | pat =>
    have e := congrArg State.pat h
    simp only [State.off, hp .pat rfl, cond_false] at e
    exact e
  | hue =>
    have e := congrArg State.hue h
    simp only [State.off, hp .hue rfl, cond_false] at e
    exact e
  | tm =>
    have e := congrArg State.tm h
    simp only [State.off, hp .tm rfl, cond_false] at e
    exact e
  | eg =>
    have e := congrArg State.eg h
    simp only [State.off, hp .eg rfl, cond_false] at e
    exact e
  | tbl =>
    have e := congrArg State.tbl h
    simp only [State.off, hp .tbl rfl, cond_false] at e
    exact e
  | cu =>
    have e := congrArg State.cu h
    simp only [State.off, hp .cu rfl, cond_false] at e
    exact e
  | fsu =>
    have e := congrArg State.fsu h
    simp only [State.off, hp .fsu rfl, cond_false] at e
    exact e
  | dbg =>
    have e := congrArg State.dbg h
    simp only [State.off, hp .dbg rfl, cond_false] at e
    exact e
  | outbox =>
    have e := congrArg State.outbox h
    simp only [State.off, hp .outbox rfl, cond_false] at e
    exact e
  | free =>
    have e := congrArg State.free h
    simp only [State.off, hp .free rfl, cond_false] at e
    exact e

theorem state_of_next {i : Instr} {s t : State} (h : exec i s = .next t) : Out.state s (exec i s) = t := by rw [h]; rfl

/-- Settles O58: from the frame of each command in pieces. -/
theorem commandsKeepOtherParts : Obligations.CommandsKeepOtherParts := by
  intro i s t h
  have hoff := exec_off i s
  rw [state_of_next h] at hoff
  refine ⟨State.pending_of_off hoff, fun p hp => Part.same_of_off hoff fun q hq => ?_⟩
  rw [← Bool.not_eq_true, mask_iff, hq]
  exact fun hm => hp hm.1

end Sys2Proof.Machine
end

section
/-! Every step keeps the invariant of a safe run; counter F; the safe state. -/

namespace Sys2Proof.Machine

theorem State.bare_inv {s : State} (h : s.Inv) (slot0 slot1 : List Byte) : (s.bare slot0 slot1).Inv :=
  { resetMeetsInvariant with sw := resetMeetsInvariant.sw, pending := h.pending }

theorem powerOn_leads (s : State) (device straps : Nat) (slot0 slot1 : List Byte) : (s.bare slot0 slot1).Leads (powerOn s device straps slot0 slot1) := by
  unfold powerOn
  extract_lets t first u e v
  refine .trans (.of_plain ?_) (State.railsUp_leads _)
  have hv : v.off Piece.plain = u.off Piece.plain := State.off_with_eft rfl (.inr rfl)
  rw [State.put_off rfl, hv]
  simp [u, t]

theorem powerOn_clock (s : State) (device straps : Nat) (slot0 slot1 : List Byte) :
    (powerOn s device straps slot0 slot1).time.f = 0 ∧ (powerOn s device straps slot0 slot1).time.ticks = 0 := by
  obtain ⟨hf, ht, -⟩ | h := (powerOn_leads s device straps slot0 slot1).clock
  · exact ⟨hf, ht⟩
  · exact h

theorem powerOn_inv {s : State} (h : s.Inv) (device straps : Nat) (slot0 slot1 : List Byte) : (powerOn s device straps slot0 slot1).Inv :=
  (powerOn_leads s device straps slot0 slot1).inv (State.bare_inv h slot0 slot1)

theorem exec_inv (i : Instr) {s : State} (h : s.Inv) : (Out.state s (exec i s)).Inv := by
  by_cases hi : ∃ d m a b, i = .powerOnReset d m a b
  · obtain ⟨d, m, a, b, rfl⟩ := hi
    exact powerOn_inv h d.toNat m.toNat a b
  · exact (exec_leads (fun d m a b e => hi ⟨d, m, a, b, e⟩) s).inv h

theorem State.tick_inv {s : State} (h : s.Inv) : s.tick.Inv := by
  have ht := (State.Leads.of_plain (State.eftTick_off ⟨rfl, rfl⟩ s)).inv h
  unfold State.tick
  extract_lets t
  split
  · have hpos : 0 < ctrWrap := by decide
    exact { ht with f := Nat.mod_lt _ hpos, a := Nat.mod_lt _ hpos, b := Nat.mod_lt _ hpos, w := Nat.mod_lt _ hpos }
  · exact ht

theorem State.advance_inv {s : State} (h : s.Inv) : s.advance.Inv := by
  unfold State.advance
  extract_lets t u
  have ht : t.Inv := State.tick_inv h
  have hu : u.Inv := by
    unfold u
    split
    · exact t.hbmTick_leads.inv ht
    · exact ht
  refine (State.Leads.of_plain ?_).inv hu
  simp

/-- Settles O57: a command leads on from the invariant (`exec_leads`, and `powerOn_inv` for a power-on reset), and so does a tick. -/
theorem stepKeepsInvariant : Obligations.StepKeepsInvariant := by
  intro s t h hs
  unfold step at hs
  split at hs
  · rw [← Host.Outcome.next.inj hs]
    exact State.advance_inv h
  · next i rest hp =>
    rw [← state_of_next hs]
    exact exec_inv i { h with pending := fun j hj => h.pending j (hp ▸ List.mem_cons_of_mem i hj) }

theorem State.tick_clock {s : State} (h : s.eft.clocks = true) : s.tick.eft.clocks = true ∧ s.tick.time.ticks = s.time.ticks + 1 ∧
    s.tick.time.f = (s.time.f + fInc s.time.ticks) % ctrWrap := by
  have hoff := State.eftTick_off (m := Piece.plain) ⟨rfl, rfl⟩ s
  have hc : s.eftTick.eft.clocks = true := (State.clocks_of_off hoff rfl).trans h
  obtain ⟨hf, ht⟩ := State.clock_of_off hoff rfl
  have e : s.tick = { s.eftTick with time := tickTime s.eftTick.time } := if_pos hc
  rw [e]
  exact ⟨hc, congrArg (· + 1) ht, by show (s.eftTick.time.f + fInc s.eftTick.time.ticks) % ctrWrap = _; rw [hf, ht]⟩

theorem fInc_five (n : Nat) : fInc n + fInc (n + 1) + fInc (n + 2) + fInc (n + 3) + fInc (n + 4) = 8 * 2 ^ 40 := by
  unfold fInc
  split_ifs <;> omega

theorem State.tick_five {s : State} (h : s.eft.clocks = true) : s.tick.tick.tick.tick.tick.time.f = (s.time.f + 8 * 2 ^ 40) % ctrWrap := by
  obtain ⟨hc1, ht1, hf1⟩ := State.tick_clock h
  obtain ⟨hc2, ht2, hf2⟩ := State.tick_clock hc1
  obtain ⟨hc3, ht3, hf3⟩ := State.tick_clock hc2
  obtain ⟨hc4, ht4, hf4⟩ := State.tick_clock hc3
  obtain ⟨-, -, hf5⟩ := State.tick_clock hc4
  rw [hf5, hf4, hf3, hf2, hf1, ht4, ht3, ht2, ht1, ← fInc_five s.time.ticks]
  simp only [Nat.mod_add_mod, Nat.add_assoc]

theorem changes_clock (i : Instr) : (changes i).contains .clock = restartsF i := by
  cases i <;> rfl

theorem exec_clock (i : Instr) (s : State) : (Out.state s (exec i s)).time.f = s.time.f ∧ (Out.state s (exec i s)).time.ticks = s.time.ticks ∧
      ((Out.state s (exec i s)).eft.clocks = true → s.eft.clocks = true) ∨
    (Out.state s (exec i s)).time.f = 0 ∧ (Out.state s (exec i s)).time.ticks = 0 := by
  by_cases hi : ∃ d m a b, i = .powerOnReset d m a b
  · obtain ⟨d, m, a, b, rfl⟩ := hi
    exact .inr (powerOn_clock s d.toNat m.toNat a b)
  · exact (exec_leads (fun d m a b e => hi ⟨d, m, a, b, e⟩) s).clock

/-- Settles O59: the frame of each command leaves the clock out but for those of `restartsF`. -/
theorem counterFIsNeverWritten : Obligations.CounterFIsNeverWritten := by
  refine ⟨fun s h => (State.tick_clock h).2, fun s h => State.tick_five h, fun i s t h hr => ?_, fun i s t h => ?_, fun i s t h h0 h1 => ?_⟩
  · rw [← state_of_next h]
    refine State.clock_of_off (exec_off i s) (Bool.eq_false_iff.2 fun hm => ?_)
    rw [← changes_clock, List.contains_iff_mem.2 ((mask_iff.1 hm).2 (by decide))] at hr
    cases hr
  · rw [← state_of_next h]
    exact (exec_clock i s).imp_left fun h => ⟨h.1, h.2.1⟩
  · rw [← state_of_next h] at h1 ⊢
    refine (exec_clock i s).resolve_left fun hk => ?_
    rw [hk.2.2 h1] at h0
    cases h0

section
variable {s : State} (h : s.fm.safe = true)
include h

theorem State.coldTrigger_safe (trigger straps : Nat) (low : Bool) : s.coldTrigger trigger straps low = s := by simp [State.coldTrigger, h]

theorem State.warmCommand_safe : s.warmCommand = s := by simp [State.warmCommand, h]

theorem pathServed_safe (c : Ctx) : s.pathServed c = true ↔ c = .can ∨ (c = .sdp ∧ s.eft.pwrEn % 8 = 7) := by
  cases c <;> simp [State.pathServed, h, ctxPath]

theorem resetCmd_safe {c : Ctx} {v : List Byte} {apply : Nat → State → State} (ha : ∀ n (t : State), t.fm.safe = true → apply n t = t)
    (hacc : Accepted c Objs.reset_cmd 0 v resetCheck s) : (writeObj c Objs.reset_cmd 0 v resetCheck apply s).eft = s.eft ∧
      (writeObj c Objs.reset_cmd 0 v resetCheck apply s).fm = s.fm := by
  rw [writeObj_accepted hacc.1 hacc.2]
  obtain ⟨u, d, m, e, -⟩ := acceptBase_frame c Objs.reset_cmd 0 v s (by decide)
  rw [e, ha (leNat v) { s with str := u, dict := d, hbm := m } h]
  exact ⟨rfl, rfl⟩

end

/-- Settles O60: no command but a power-on reset leads out of the safe state, and each trigger asks for it first. -/
theorem safeStateIsLeftOnlyByPowerOn : Obligations.SafeStateIsLeftOnlyByPowerOn := by
  intro s hsafe
  refine ⟨fun i t hi h => ?_, ?_, fun m => ⟨?_, fun last => ?_⟩, ?_, ?_, pathServed_safe hsafe, fun c => ⟨fun h => ⟨_, rfl, ?_⟩, fun m h => ⟨_, rfl, ?_⟩⟩⟩
  · rw [← state_of_next h]
    exact (exec_leads hi s).safe hsafe
  · exact congrArg Host.Outcome.next (by simp [State.warmUnorderly, hsafe])
  · exact congrArg Host.Outcome.next (State.coldTrigger_safe hsafe ..)
  · exact congrArg Host.Outcome.next (by simp [wdogTimeout, hsafe])
  · exact congrArg Host.Outcome.next (by simp [State.hostTrigger, hsafe])
  · exact congrArg Host.Outcome.next (by simp [State.hostTrigger, hsafe])
  · exact resetCmd_safe hsafe (fun _ _ ht => State.warmCommand_safe ht) h
  · exact resetCmd_safe hsafe (fun _ _ ht => State.coldTrigger_safe ht ..) h

end Sys2Proof.Machine
end

section
/-! What an accepted write of one object has done before the object's own effect (R451, R458): the relation that proofs about a command cite
instead of the store and the journal. -/

namespace Sys2Proof.Machine

/-- `b` is `s` with `v` written to `o` at `i` and the write journaled. -/
structure Written (o : Obj) (i : Nat) (v : List Byte) (s b : State) : Prop where
  units : ∃ u d m, b = { s with str := u, dict := d, hbm := m }
  rd : ∀ p j, p.key j ≠ o.key i → ¬ writeSide (p.key j) → b.rd p j = s.rd p j
  value : banked (o.key i) = false → o.acc = .rw → pathLocal (o.key i) = false → ¬ writeSide (o.key i) → b.rd o i = leNat v

namespace Written

variable {o : Obj} {i : Nat} {v : List Byte} {s b : State} (h : Written o i v s b)
include h

theorem fm : b.fm = s.fm := by obtain ⟨u, d, m, rfl⟩ := h.units; rfl
theorem time : b.time = s.time := by obtain ⟨u, d, m, rfl⟩ := h.units; rfl
theorem host : b.host = s.host := by obtain ⟨u, d, m, rfl⟩ := h.units; rfl
theorem ports : b.ports = s.ports := by obtain ⟨u, d, m, rfl⟩ := h.units; rfl
theorem sk : b.sk = s.sk := by obtain ⟨u, d, m, rfl⟩ := h.units; rfl
theorem fsu : b.fsu = s.fsu := by obtain ⟨u, d, m, rfl⟩ := h.units; rfl
theorem tbl : b.tbl = s.tbl := by obtain ⟨u, d, m, rfl⟩ := h.units; rfl
theorem dbg : b.dbg = s.dbg := by obtain ⟨u, d, m, rfl⟩ := h.units; rfl
theorem eft : b.eft = s.eft := by obtain ⟨u, d, m, rfl⟩ := h.units; rfl
theorem outbox : b.outbox = s.outbox := by obtain ⟨u, d, m, rfl⟩ := h.units; rfl

end Written

/-- The sequence numbers of the channels have the keys from 0x780301 on. -/
theorem not_writeSide {k : Nat} (h : k < 0x780300) (hdirty : k ≠ Objs.n_dirty.key 0) : ¬ writeSide k := by
  have hseq : Objs.journal_next_seq.key 0 = 0xF00001 ∧ Objs.journal_lost.key 0 = 0xF00004 := ⟨rfl, rfl⟩
  rintro (rfl | rfl | rfl | ⟨c, rfl⟩)
  · omega
  · omega
  · exact hdirty rfl
  · simp only [Obj.key] at h
    omega

/-- An accepted write is the object's own effect on a written state, and the answer OK. -/
theorem writeObj_written {c : Ctx} {o : Obj} {i : Nat} {v : List Byte} {check : Nat → State → Code} {s : State} (h : Accepted c o i v check s)
    (hid : o.key i ≠ idKey) : ∃ b, Written o i v s b ∧ ∀ apply : Nat → State → State,
      writeObj c o i v check apply s = (apply (leNat v) b).put (.answer c (o.key i / 256) (o.key i % 256) 0 []) := by
  obtain ⟨u, d, m, hb, hrd, hval⟩ := acceptBase_frame c o i v s hid
  refine ⟨acceptBase c o i v s, ⟨⟨u, d, m, hb⟩, ?_, ?_⟩, fun apply => writeObj_accepted h.1 h.2⟩
  · rw [hb]
    exact hrd
  · rw [hb]
    exact hval

end Sys2Proof.Machine
end

section
/-! Refused writes of one object (O43). -/

namespace Sys2Proof.Machine

/-- A row of O43: a command that is a write of one object, with the object, its index, the value and the refusals of its chapter. -/
abbrev WriteRow := Instr × Obj × Nat × List Byte × (Nat → State → Code)

/-- Where R451 refuses it, the command of a row is the write of its object, whatever the write's effect is. -/
def WriteRow.Writes (c : Ctx) (s : State) (row : WriteRow) : Prop :=
  judgeWrite c row.2.1 row.2.2.1 row.2.2.2.1 row.2.2.2.2 s ≠ .ok →
    ∃ apply, exec row.1 s = .next (writeObj c row.2.1 row.2.2.1 row.2.2.2.1 row.2.2.2.2 apply s)

theorem WriteRow.Writes.refused {c : Ctx} {s : State} {row : WriteRow} (h : row.Writes c s) (hserved : s.pathServed c = true)
    (hcode : judgeWrite c row.2.1 row.2.2.1 row.2.2.2.1 row.2.2.2.2 s ≠ .ok) :
    exec row.1 s = .next (s.put (.answer c (row.2.1.key row.2.2.1 / 256) (row.2.1.key row.2.2.1 % 256)
      (judgeWrite c row.2.1 row.2.2.1 row.2.2.2.1 row.2.2.2.2 s).num [])) := by
  obtain ⟨apply, h⟩ := h hcode
  rw [h, writeObj_refused hserved hcode]

theorem exec_strEnableWrite_refused {c : Ctx} {v : List Byte} {s : State} (h : judgeWrite c Objs.str_enable 0 v noCheck s ≠ .ok) :
    exec (.strEnableWrite c v) s = .next (writeObj c Objs.str_enable 0 v noCheck (fun _ s => relink s) s) := by
  have hstarts : s.strStarts c v = false := by simp [State.strStarts, h]
  show Host.Outcome.next (writeStrEnable c v s) = _
  simp [writeStrEnable, h, hstarts]

theorem exec_shaperWrite_queue (c : Ctx) (p : Fin 256) (q : Fin 8) (v : List Byte) (s : State) :
    exec (.shaperWrite c p q.castSucc v) s = .next (writeObj c Objs.queue_shaper (p.val * 8 + q.val) v shCheck (shWritten p.val q.val) s) :=
  if_neg (Nat.ne_of_lt q.isLt)

/-- Settles O43: each command of the list is the write of its object (`writeObj_refused`). -/
theorem refusedWritesChangeNothing : Obligations.RefusedWritesChangeNothing := by
  intro c v p d k b part lane q src path bad found straps parity s hserved row hrow
  refine WriteRow.Writes.refused ?_ hserved
  revert row
  simp only [List.forall_mem_cons]
  repeat refine ⟨fun _ => ⟨_, rfl⟩, ?_⟩
  refine ⟨fun hcode => ⟨_, exec_strEnableWrite_refused hcode⟩, ?_⟩
  repeat refine ⟨fun _ => ⟨_, rfl⟩, ?_⟩
  refine ⟨fun _ => ⟨_, exec_shaperWrite_queue c p q v s⟩, ?_⟩
  repeat refine ⟨fun _ => ⟨_, rfl⟩, ?_⟩
  exact fun _ h => nomatch h

end Sys2Proof.Machine
end

section
/-! PPS outputs, the divided recovered clock and the capture of event inputs (O38). -/

namespace Sys2Proof.Machine

/-! ## PPS -/

theorem ppsEdge_off_mode {s : State} {k : Nat} (h1 : s.rd Objs.pps_mode k ≠ 1) (h2 : s.rd Objs.pps_mode k ≠ 2) (rise : Bool) :
    ppsEdge s k rise = s := by
  simp only [ppsEdge, if_neg h2, if_pos h1]

theorem ppsEdge_rclk {s : State} {k : Nat} (h : s.rd Objs.pps_mode k = 2) (rise : Bool) : ppsEdge s k rise = rclkEdge s k := by
  simp only [ppsEdge, if_pos h]

theorem ppsEdge_low {s : State} {k : Nat} (h : s.rd Objs.pps_mode k = 1) (hlow : ppsHeldLow s k = true) (rise : Bool) :
    ppsEdge s k rise = setPps s k false := by
  simp [ppsEdge, h, hlow, -State.rd_dict]

theorem ppsEdge_rise {s : State} {k : Nat} (h : s.rd Objs.pps_mode k = 1) (hlow : ppsHeldLow s k = false)
    (hturn : (ppsTime s k - (sourceInc s.time (s.rd Objs.pps_source k) : Int)) / ((ppsPeriod (s.rd Objs.pps_rate k) : Int) * 2 ^ 40) <
      ppsTime s k / ((ppsPeriod (s.rd Objs.pps_rate k) : Int) * 2 ^ 40)) : ppsEdge s k true = setPps s k true := by
  unfold ppsEdge
  extract_lets period t
  rw [if_neg (by omega), if_neg (by omega), if_neg (by simp [hlow]), if_pos rfl, if_pos hturn]

theorem rclkEdge_time (s : State) (k : Nat) : rclkEdge s k = { s with time := (rclkEdge s k).time } := by
  unfold rclkEdge setPps
  extract_lets n turn s1
  split_ifs <;> rfl

theorem rclkEdge_gone {s : State} {k : Nat} (h : s.rclkSignal k = false) :
    (rclkEdge s k).time.ppsHigh = s.time.ppsHigh.set k false ∧ (rclkEdge s k).time.rclkCount = s.time.rclkCount.set k 0 := by
  simp [rclkEdge, h, setPps]

theorem rclkEdge_count {s : State} {k : Nat} (h : s.rclkSignal k = true) (hn : s.time.rclkCount.getD k 0 + 1 < s.rd Objs.rclk_div k) :
    (rclkEdge s k).time.ppsHigh = s.time.ppsHigh ∧
      (rclkEdge s k).time.rclkCount = s.time.rclkCount.set k (s.time.rclkCount.getD k 0 + 1) := by
  unfold rclkEdge
  extract_lets n turn old s1
  have hturn : turn = false := decide_eq_false (Nat.not_le.2 hn)
  rw [if_pos h, if_neg (by simp [hturn])]
  simp only [s1, hturn]
  exact ⟨rfl, rfl⟩

theorem rclkEdge_turn {s : State} {k : Nat} (h : s.rclkSignal k = true) (hn : s.rd Objs.rclk_div k ≤ s.time.rclkCount.getD k 0 + 1) :
    (rclkEdge s k).time.ppsHigh = s.time.ppsHigh.set k (!(s.time.ppsHigh.getD k false)) ∧
      (rclkEdge s k).time.rclkCount = s.time.rclkCount.set k 0 := by
  unfold rclkEdge
  extract_lets n turn old s1
  have hturn : turn = true := decide_eq_true hn
  rw [if_pos h, if_pos hturn]
  simp only [s1, hturn]
  exact ⟨rfl, rfl⟩

/-! ## Event inputs -/

/-- The instant to which an edge that is taken over `n` samples belongs (R383). -/
abbrev State.edgeAt (s : State) (n : Nat) : Nat := (s.fNs + wrapNs - n / 5) % wrapNs

/-- A capture that is lost. -/
abbrev State.evtLost (s : State) (k : Nat) : State := (s.bump Objs.evt_overflow k).raise 204 k

/-- The FIFO after a capture: it takes the capture where it has room. -/
def State.captured (s : State) (k : Nat) (x : EvtCapture) : State :=
  if 64 ≤ (s.time.evtFifo.getD k []).length then s.evtLost k
  else { s with time := { s.time with evtFifo := s.time.evtFifo.set k (s.time.evtFifo.getD k [] ++ [x]) } }

/-- The taken edge of a pin, counted and dated. -/
def State.edgeSeen (s : State) (k n : Nat) : State :=
  { s with time := { s.time with evtCount := s.time.evtCount.set k (s.time.evtCount.getD k 0 + 1), evtLast := s.time.evtLast.set k (some (s.edgeAt n)) } }

section
variable {s : State} {k n : Nat} {falling : Bool}

theorem State.captured_full (x : EvtCapture) (h : 64 ≤ (s.time.evtFifo.getD k []).length) : s.captured k x = s.evtLost k := if_pos h

theorem State.captured_room (x : EvtCapture) (h : (s.time.evtFifo.getD k []).length < 64) :
    (s.captured k x).time.evtFifo = s.time.evtFifo.set k (s.time.evtFifo.getD k [] ++ [x]) := by
  rw [State.captured, if_neg (Nat.not_le.2 h)]

theorem State.evtLost_overflow (h : k < 4) : (s.evtLost k).rd Objs.evt_overflow k = satAdd 64 (s.rd Objs.evt_overflow k) 1 :=
  s.bump_rd_same (by simp only [Obj.key, Objs.evt_overflow, idKey]; omega) 1

section
variable (hen : s.rd Objs.evt_enable k = 1) (hedge : s.rd Objs.evt_edge k = b2n falling) (hfilter : s.rd Objs.evt_filter k * 5 ≤ n)
include hen hedge hfilter

theorem evtEdge_soon (hsoon : s.evtTooSoon k (s.edgeAt n) = true) : evtEdge s k falling n = s.evtLost k := by
  unfold evtEdge
  extract_lets wanted first
  have hwanted : wanted = true := by simp only [wanted, hedge]; cases falling <;> rfl
  rw [if_pos ⟨hen, hwanted, hfilter⟩]
  exact if_pos hsoon

/-- A taken edge is counted and captured, and reported where the pin reports. -/
theorem evtEdge_taken (hsoon : s.evtTooSoon k (s.edgeAt n) = false) : ∃ x : EvtCapture, x.edge = b2n falling ∧
    ((evtEdge s k falling n).dict = ((s.edgeSeen k n).captured k x).dict ∧ (evtEdge s k falling n).time = ((s.edgeSeen k n).captured k x).time) := by
  unfold evtEdge
  extract_lets wanted first src back t
  have hwanted : wanted = true := by simp only [wanted, hedge]; cases falling <;> rfl
  rw [if_pos ⟨hen, hwanted, hfilter⟩, if_neg (by simp only [first, hsoon, Bool.false_eq_true, not_false_eq_true])]
  refine ⟨⟨t, b2n falling⟩, rfl, ?_⟩
  split
  · exact ⟨rfl, rfl⟩
  · exact ⟨rfl, rfl⟩

end
end

theorem readEvtFifo_served {c : Ctx} {k : Nat} {s : State} (hserved : s.pathServed c = true)
    (hok : judgeRead c Objs.evt_fifo (fun _ => .ok) s = .ok) :
    readEvtFifo c k s = (evtPop k s).put (.answer c (Objs.evt_fifo.key k / 256) (Objs.evt_fifo.key k % 256) 0
      (leBytes Objs.evt_fifo.ty.size (evtHead k s))) := by
  simp [readEvtFifo, readObj, hserved, hok]

/-- Settles O38: one lemma for each mode of a PPS output, and for each end of an edge that an event input takes. -/
theorem ppsAndEventPins : Obligations.PpsAndEventPins := by
  intro s
  refine ⟨fun k rise => ⟨fun h1 h2 => ?_, fun h => ?_, fun h hlow => ?_, ?_⟩, fun k falling n hen hedge hfilter hk => ⟨fun hsoon => ?_, fun hsoon hroom => ?_, fun hsoon hfull => ?_⟩,
    fun c k hserved hok => ⟨_, congrArg Host.Outcome.next (readEvtFifo_served hserved hok), rfl, rfl⟩⟩
  · exact congrArg Host.Outcome.next (ppsEdge_off_mode h1 h2 rise)
  · exact ⟨_, congrArg Host.Outcome.next (ppsEdge_rclk h rise), rclkEdge_time s k, rclkEdge_gone, rclkEdge_count, rclkEdge_turn⟩
  · exact congrArg Host.Outcome.next (ppsEdge_low h hlow rise)
  · rintro h hlow rfl hturn
    exact congrArg Host.Outcome.next (ppsEdge_rise h hlow hturn)
  · exact ⟨_, congrArg Host.Outcome.next (evtEdge_soon hen hedge hfilter hsoon), rfl, ⟨_, rfl, rfl, rfl⟩, State.evtLost_overflow k.isLt⟩
  · obtain ⟨x, hx, -, htime⟩ := evtEdge_taken hen hedge hfilter hsoon
    refine ⟨_, x, rfl, ?_, hx⟩
    show (evtEdge s k falling n).time.evtFifo.getD k [] = _
    rw [htime, State.captured_room (s := s.edgeSeen k n) x hroom]
    simp [hk, State.edgeSeen]
  · obtain ⟨x, -, hdict, htime⟩ := evtEdge_taken hen hedge hfilter hsoon
    rw [State.captured_full (s := s.edgeSeen k n) x hfull] at hdict htime
    refine ⟨_, rfl, ?_, ?_⟩
    · show (evtEdge s k falling n).time.evtFifo = _
      rw [htime]
      rfl
    · exact (congrArg (DictUnit.rd · Objs.evt_overflow k) hdict).trans (State.evtLost_overflow k.isLt)

end Sys2Proof.Machine
end

section
/-! What an epoch boundary makes effective, and the update of W (O36). -/

namespace Sys2Proof.Machine

/-! ## The trackers and counters of the domains -/

/-- The two domains. -/
abbrev OtherDomain (d e : Nat) : Prop := d = 0 ∧ e = 1 ∨ d = 1 ∧ e = 0

section
variable {s : State} {d e : Nat}

theorem State.setTrk_time (s : State) (d : Nat) (x : Tracker) :
    (s.setTrk d x).time = if d = 0 then { s.time with trkA := x } else { s.time with trkB := x } := by
  unfold State.setTrk
  split <;> rfl

theorem State.setTrk_trk (s : State) (d : Nat) (x : Tracker) : (s.setTrk d x).trk d = x := by
  unfold State.trk
  rw [State.setTrk_time]
  split <;> rfl

theorem State.setTrk_trk_other (x : Tracker) (h : OtherDomain d e) : (s.setTrk d x).trk e = s.trk e := by
  obtain ⟨rfl, rfl⟩ | ⟨rfl, rfl⟩ := h <;> rfl

theorem State.setTrk_ctr (s : State) (d : Nat) (x : Tracker) (e : Nat) : (s.setTrk d x).ctr e = s.ctr e := by
  unfold State.ctr
  rw [State.setTrk_time]
  split <;> split <;> rfl

theorem State.setCtr_ctr (s : State) (d x : Nat) : (s.setCtr d x).ctr d = x := by
  unfold State.ctr State.setCtr
  split <;> rfl

theorem State.setCtr_ctr_other (x : Nat) (h : OtherDomain d e) : (s.setCtr d x).ctr e = s.ctr e := by
  obtain ⟨rfl, rfl⟩ | ⟨rfl, rfl⟩ := h <;> rfl

end

/-! ## The rows of a domain's states (R369) -/

/-- The keys that a row of another domain than `d` leaves alone: those of the domain `d`, and the increment of W. -/
abbrev RowKey (d k : Nat) : Prop := k = Objs.w_inc.key 0 ∨ k / 256 = 0x3001 + d

/-- What a row of domain `d` leaves of the time unit and of domain `e`. -/
structure RowKeeps (d e : Nat) (s t : State) : Prop where
  objs : KeepsObjs (RowKey e) s t
  time : t.time = { s.time with trkA := t.time.trkA, trkB := t.time.trkB, newLocked := t.time.newLocked, pendIncW := t.time.pendIncW }
  own : (t.trk d).inc = (s.trk d).inc ∧ (t.trk d).pendStep = (s.trk d).pendStep
  other : t.trk e = s.trk e

section
variable {s t u : State} {d e : Nat}

theorem RowKeeps.of_dict (h : KeepsObjs (RowKey e) s t) (htime : t.time = s.time) : RowKeeps d e s t where
  objs := h
  time := by rw [htime]
  own := by simp [State.trk, htime]
  other := by simp [State.trk, htime]

theorem RowKeeps.refl (s : State) : RowKeeps d e s s := .of_dict (.refl s) rfl

theorem RowKeeps.trans (h : RowKeeps d e s t) (h' : RowKeeps d e t u) : RowKeeps d e s u where
  objs := h.objs.trans h'.objs
  time := by rw [h'.time, h.time]
  own := ⟨h'.own.1.trans h.own.1, h'.own.2.trans h.own.2⟩
  other := h'.other.trans h.other

theorem RowKeeps.wr (s : State) {o : Obj} {i : Nat} (v : Nat) (h : ¬ RowKey e (o.key i)) (hid : o.key i ≠ idKey) : RowKeeps d e s (s.wr o i v) :=
  .of_dict (s.wr_keepsObjs v h hid) rfl

theorem RowKeeps.raise (s : State) (src unit : Nat) : RowKeeps d e s (s.raise src unit) := .of_dict (s.raise_keepsObjs ..) rfl

theorem RowKeeps.of_time (x : TimeUnit) (h : x = { s.time with newLocked := x.newLocked, pendIncW := x.pendIncW }) :
    RowKeeps d e s { s with time := x } where
  objs := .of_units rfl rfl
  time := by
    show x = { s.time with trkA := x.trkA, trkB := x.trkB, newLocked := x.newLocked, pendIncW := x.pendIncW }
    rw [h]
  own := by simp only [State.trk]; rw [h]; exact ⟨rfl, rfl⟩
  other := by simp only [State.trk]; rw [h]

theorem RowKeeps.setTrk (hde : OtherDomain d e) (s : State) (x : Tracker) (hinc : x.inc = (s.trk d).inc) (hstep : x.pendStep = (s.trk d).pendStep) :
    RowKeeps d e s (s.setTrk d x) where
  objs := .of_units (by simp) (by simp)
  time := by rw [State.setTrk_time]; split <;> rfl
  own := by rw [State.setTrk_trk]; exact ⟨hinc, hstep⟩
  other := State.setTrk_trk_other x hde

theorem wActiveLost_keepsObjs {P : Nat → Prop} (hP : ¬ P (Objs.w_state.key 0) ∧ ¬ P (Objs.w_active.key 0)) (s : State) (x : Nat) :
    KeepsObjs P s (wActiveLost s x) := by
  have hstate : ∀ (s : State) v, KeepsObjs P s (s.wr Objs.w_state 0 v) := fun s v => s.wr_keepsObjs v hP.1 (by decide)
  have hactive : ∀ (s : State) v, KeepsObjs P s (s.wr Objs.w_active 0 v) := fun s v => s.wr_keepsObjs v hP.2 (by decide)
  unfold wActiveLost
  extract_lets st u f v
  split
  · split
    · exact ((hstate ..).trans (hactive ..)).trans (State.raise_keepsObjs ..)
    · have hv : KeepsObjs P u v := .of_units rfl rfl
      exact ((hstate s 3).trans hv).trans (v.raise_keepsObjs ..)
  · exact .refl s

theorem wActiveLost_time (s : State) (x : Nat) : (wActiveLost s x).time = { s.time with pendIncW := (wActiveLost s x).time.pendIncW } := by
  unfold wActiveLost
  extract_lets st u f v
  split_ifs <;> rfl

theorem not_rowKey_zero {k : Nat} (hk : k / 256 = 0x3000) (hw : k ≠ Objs.w_inc.key 0) : ¬ RowKey e k := by
  rintro (h | h)
  · exact hw h
  · omega

theorem RowKeeps.of_pend (h : KeepsObjs (RowKey e) s t) (htime : t.time = { s.time with newLocked := t.time.newLocked, pendIncW := t.time.pendIncW }) :
    RowKeeps d e s t where
  objs := h
  time := by rw [htime]
  own := by simp only [State.trk]; rw [htime]; exact ⟨rfl, rfl⟩
  other := by simp only [State.trk]; rw [htime]

theorem State.setDomState_cases (s : State) (d x : Nat) : s.setDomState d x = wActiveLost (s.wr Objs.dom_state d x) d ∨
    ∃ n, s.setDomState d x = { s.wr Objs.dom_state d x with time := { s.time with newLocked := n } } := by
  unfold State.setDomState
  extract_lets was u f
  split
  · exact .inr ⟨_, rfl⟩
  split
  · exact .inl rfl
  · exact .inr ⟨_, rfl⟩

theorem wInc_key : Objs.w_inc.key 0 = 0x3000 * 256 + 11 := rfl

theorem domState_key (d : Nat) : Objs.dom_state.key d = (0x3001 + d) * 256 + 3 := by simp [Obj.key, Nat.mod_one]

theorem domInc_key (d : Nat) : Objs.dom_inc.key d = (0x3001 + d) * 256 + 5 := by simp [Obj.key, Nat.mod_one]

theorem State.setDomState_keepsObjs {P : Nat → Prop} (hP : ¬ P (Objs.w_state.key 0) ∧ ¬ P (Objs.w_active.key 0)) {x : Nat} (h : ¬ P (Objs.dom_state.key d)) (s : State) :
    KeepsObjs P s (s.setDomState d x) := by
  have hwr : KeepsObjs P s (s.wr Objs.dom_state d x) := s.wr_keepsObjs x h (by rw [domState_key, idKey]; omega)
  obtain hlost | ⟨n, hset⟩ := s.setDomState_cases d x
  · rw [hlost]
    exact hwr.trans (wActiveLost_keepsObjs hP ..)
  · rw [hset]
    exact hwr.trans (.of_units rfl rfl)

theorem State.setDomState_time (s : State) (d x : Nat) :
    (s.setDomState d x).time = { s.time with newLocked := (s.setDomState d x).time.newLocked, pendIncW := (s.setDomState d x).time.pendIncW } := by
  obtain hlost | ⟨n, hset⟩ := s.setDomState_cases d x
  · rw [hlost, wActiveLost_time]
    rfl
  · rw [hset]

theorem State.setDomState_rd (s : State) (d x : Nat) : (s.setDomState d x).rd Objs.dom_state d = x := by
  have hsame : (s.wr Objs.dom_state d x).rd Objs.dom_state d = x := DictUnit.rd_wr_same (by rw [domState_key, idKey]; omega)
  obtain hlost | ⟨n, hset⟩ := s.setDomState_cases d x
  · rw [hlost]
    refine Eq.trans ((wActiveLost_keepsObjs (P := (0x3001 * 256 ≤ ·)) (by decide) (s.wr Objs.dom_state d x) d).rd _ _ ?_) hsame
    rw [domState_key]
    omega
  · rw [hset]
    exact hsame

variable (hde : OtherDomain d e)
include hde

theorem setDomState_rowKeeps (s : State) (x : Nat) : RowKeeps d e s (s.setDomState d x) := by
  refine .of_pend (s.setDomState_keepsObjs (P := RowKey e) ⟨not_rowKey_zero rfl (by decide), not_rowKey_zero rfl (by decide)⟩ ?_) (s.setDomState_time d x)
  rw [RowKey, domState_key, wInc_key]
  omega

theorem domHold_rowKeeps (s : State) : RowKeeps d e s (domHold s d) := by
  unfold domHold
  extract_lets x u
  have hu : RowKeeps d e s u := .setTrk hde s _ rfl rfl
  split
  · refine hu.trans ?_
    unfold State.setDomInc
    extract_lets y v
    have hv : RowKeeps d e u v := .setTrk hde u _ rfl rfl
    exact hv.trans (.wr v _ (by rw [RowKey, domInc_key, wInc_key]; omega) (by rw [domInc_key, idKey]; omega))
  · exact hu

theorem domHoldover_rowKeeps (s : State) : RowKeeps d e s (domHoldover s d) := (domHold_rowKeeps hde s).trans (setDomState_rowKeeps hde _ 4)

theorem domLossTimeout_rowKeeps (s : State) : RowKeeps d e s (domLossTimeout s d) := by
  unfold domLossTimeout
  extract_lets st
  split
  · exact (domHoldover_rowKeeps hde s).trans (.raise ..)
  · exact .refl s

theorem epochRows_rowKeeps (s : State) : RowKeeps d e s (epochRows s d) := by
  unfold epochRows
  extract_lets st
  split
  · exact .refl s
  split
  · exact (setDomState_rowKeeps hde s 3).trans (.raise ..)
  split
  · exact (domHoldover_rowKeeps hde s).trans (.raise ..)
  · exact domLossTimeout_rowKeeps hde s

end

section
variable {s : State} {d : Nat}

theorem epochRows_lock (h : LockDue s d) : epochRows s d = (s.setDomState d 3).raise 192 d := by
  obtain ⟨hmode, hstate, hrun⟩ := h
  unfold epochRows
  extract_lets st
  rw [if_neg (not_not.2 hmode), if_pos ⟨hstate, hrun⟩]

theorem epochRows_plaus (h : PlausDue s d) : epochRows s d = (domHoldover s d).raise 194 d := by
  obtain ⟨hmode, hstate, hrun⟩ := h
  unfold epochRows
  extract_lets st
  rw [if_neg (not_not.2 hmode), if_neg (fun hl => by have := hl.1.symm.trans hstate; omega), if_pos ⟨hstate, hrun⟩]

theorem epochRows_rest (hlock : ¬ LockDue s d) (hplaus : ¬ PlausDue s d) (hmode : s.rd Objs.dom_mode d = 0) : epochRows s d = domLossTimeout s d := by
  unfold epochRows
  extract_lets st
  rw [if_neg (not_not.2 hmode), if_neg (fun hl => hlock ⟨hmode, hl⟩), if_neg (fun hp => hplaus ⟨hmode, hp⟩)]

theorem domLossTimeout_due (h : LossDue s d) : domLossTimeout s d = (domHoldover s d).raise 193 d := if_pos ⟨h.2.1, h.1, h.2.2⟩

theorem domLossTimeout_not_due (h : ¬ LossDue s d) : domLossTimeout s d = s := if_neg fun hl => h ⟨hl.2.1, hl.1, hl.2.2⟩

theorem epochRows_none (hlock : ¬ LockDue s d) (hplaus : ¬ PlausDue s d) (hloss : ¬ LossDue s d) : epochRows s d = s := by
  by_cases hmode : s.rd Objs.dom_mode d = 0
  · rw [epochRows_rest hlock hplaus hmode, domLossTimeout_not_due hloss]
  · exact if_pos hmode

end

/-! ## The steps of a domain that wait (R371) -/

/-- The keys of the domains' objects, without their counters of steps. -/
abbrev EpochKey (k : Nat) : Prop := (k / 256 = 0x3001 ∨ k / 256 = 0x3002) ∧ k % 256 ≠ 0x15

/-- What steps of domain `d` by the values of `l` do. -/
structure Stepped (d e : Nat) (l : List Int) (s t : State) : Prop where
  ctr : t.ctr d = l.foldl ctrAdd (s.ctr d)
  other : t.ctr e = s.ctr e
  time : t.time = { s.time with a := t.time.a, b := t.time.b }
  objs : KeepsObjs (· % 256 ≠ 0x15) s t

section
variable {d e : Nat} (hde : OtherDomain d e)
include hde

theorem stepped_one (s : State) (x : Int) :
    Stepped d e [x] s (((s.setCtr d (ctrAdd (s.ctr d) x)).bump Objs.dom_steps d).raise 195 d) where
  ctr := State.setCtr_ctr s d _
  other := State.setCtr_ctr_other _ hde
  time := by obtain ⟨rfl, -⟩ | ⟨rfl, -⟩ := hde <;> rfl
  objs := by
    have hkey : Objs.dom_steps.key d = (0x3001 + d) * 256 + 0x15 := by simp [Obj.key, Nat.mod_one]
    have hset : KeepsObjs (· % 256 ≠ 0x15) s (s.setCtr d (ctrAdd (s.ctr d) x)) := .of_units (by simp) (by simp)
    refine (hset.trans (State.bump_keepsObjs _ 1 ?_ ?_)).trans (State.raise_keepsObjs ..)
    · rw [hkey]; omega
    · rw [hkey, idKey]; omega

theorem stepped_foldl (l : List Int) (s : State) : Stepped d e l s
    (l.foldl (fun (s : State) x => ((s.setCtr d (ctrAdd (s.ctr d) x)).bump Objs.dom_steps d).raise 195 d) s) := by
  induction l generalizing s with
  | nil => exact ⟨rfl, rfl, rfl, .refl s⟩
  | cons x l ih =>
    have h1 := stepped_one hde s x
    have h2 := ih (((s.setCtr d (ctrAdd (s.ctr d) x)).bump Objs.dom_steps d).raise 195 d)
    exact ⟨by rw [List.foldl_cons, h2.ctr, h1.ctr]; rfl, h2.other.trans h1.other, by rw [List.foldl_cons, h2.time, h1.time], h1.objs.trans h2.objs⟩

/-- The tracker of a domain after its boundary. -/
abbrev Tracker.turned (x : Tracker) : Tracker := { x with pendStep := [], pendInc := none, inc := x.pendInc.getD x.inc }

/-- What the boundary of domain `d` does. -/
structure EpochDomain (d e : Nat) (s t : State) : Prop where
  ctr : t.ctr d = (s.trk d).pendStep.foldl ctrAdd (s.ctr d)
  ctr_other : t.ctr e = s.ctr e
  trk : t.trk d = (s.trk d).turned
  trk_other : t.trk e = s.trk e
  time : t.time = { s.time with a := t.time.a, b := t.time.b, trkA := t.time.trkA, trkB := t.time.trkB }
  objs : KeepsObjs (· % 256 ≠ 0x15) s t

theorem epochDomain_effects (s : State) : EpochDomain d e s (epochDomain s d) := by
  unfold epochDomain
  extract_lets x u
  have hu : Stepped d e (s.trk d).pendStep s u := stepped_foldl hde _ s
  have htrk : ∀ c, u.trk c = s.trk c := fun c => by simp only [State.trk]; rw [hu.time]
  exact {
    ctr := by rw [State.setTrk_ctr, hu.ctr]
    ctr_other := by rw [State.setTrk_ctr, hu.other]
    trk := State.setTrk_trk ..
    trk_other := by rw [State.setTrk_trk_other _ hde, htrk]
    time := by rw [State.setTrk_time, hu.time]; split <;> rfl
    objs := hu.objs.trans (.of_units (by simp) (by simp)) }

end

/-! ## The boundary's work on W (R372) -/

/-- The keys that a step of W leaves alone. -/
abbrev StepKey (k : Nat) : Prop := k < 0x3100 * 256 ∧ k ≠ Objs.w_step_size.key 0

theorem State.xoffUpdate_keeps (s : State) (g : Nat) : KeepsObjs StepKey s (s.xoffUpdate g) ∧ (s.xoffUpdate g).time = s.time := by
  have hkey : 0x6025 * 256 ≤ Objs.xoff_map.key g := by simp only [Obj.key]; omega
  obtain ⟨v, u, h⟩ := s.xoffUpdate_frame g
  rw [h]
  exact ⟨(s.wr_keepsObjs v (by omega) (by rw [idKey]; omega)).trans (.of_units rfl rfl), rfl⟩

theorem keepsObjs_time_foldl {P : Nat → Prop} {α : Type} {f : State → α → State} (h : ∀ s a, KeepsObjs P s (f s a) ∧ (f s a).time = s.time)
    (l : List α) (s : State) : KeepsObjs P s (l.foldl f s) ∧ (l.foldl f s).time = s.time := by
  induction l generalizing s with
  | nil => exact ⟨.refl s, rfl⟩
  | cons a l ih =>
    obtain ⟨hobjs, htime⟩ := ih (f s a)
    exact ⟨(h s a).1.trans hobjs, htime.trans (h s a).2⟩

theorem State.wStepped_keeps (s : State) (x : Int) : KeepsObjs StepKey s (s.wStepped x) ∧ (s.wStepped x).time = s.time := by
  unfold State.wStepped
  extract_lets s1 s2
  have h1 : KeepsObjs StepKey s s1 := (s.wr_keepsObjs _ (by decide) (by decide)).trans (State.raise_keepsObjs ..)
  have h2 : KeepsObjs StepKey s1 s2 ∧ s2.time = s1.time := by
    refine keepsObjs_time_foldl (fun s p => ?_) _ s1
    have hkey : 0x3100 * 256 ≤ Objs.lt_late_drop.key p := by simp only [Obj.key]; omega
    have hcal : ∀ (t : State) n, KeepsObjs StepKey t (t.bump Objs.lt_late_drop p n) := fun t n => t.bump_keepsObjs n (by omega) (by rw [idKey]; omega)
    have hep : KeepsObjs StepKey s (s.setEp p { s.ep p with cal := [] }) := .of_units rfl rfl
    obtain ⟨hobjs, htime⟩ := ((s.setEp p { s.ep p with cal := [] }).bump Objs.lt_late_drop p (s.ep p).cal.length).xoffUpdate_keeps (s.grpOfPort p)
    exact ⟨(hep.trans (hcal ..)).trans hobjs, htime⟩
  exact ⟨(h1.trans h2.1).trans (.of_units rfl rfl), h2.2⟩

/-- What the boundary's work on W leaves of the time unit and of the domains. -/
structure EpochWork (s t : State) : Prop where
  objs : KeepsObjs EpochKey s t
  time : t.time = { s.time with w := t.time.w, incW := t.time.incW, incWBase := t.time.incWBase, pendIncW := t.time.pendIncW, wPend := t.time.wPend }

theorem State.wStepped_work {s t : State} (h : KeepsObjs EpochKey s t)
    (htime : t.time = { s.time with w := t.time.w, incW := t.time.incW, incWBase := t.time.incWBase, pendIncW := t.time.pendIncW, wPend := t.time.wPend })
    (x : Int) : EpochWork s (t.wStepped x) := by
  obtain ⟨hobjs, hsame⟩ := t.wStepped_keeps x
  exact ⟨h.trans (hobjs.mono fun k hk => ⟨by omega, by rintro rfl; exact absurd hk (by decide)⟩), by rw [hsame]; exact htime⟩

theorem wr_w_work (s : State) {o : Obj} (ho : o.key 0 / 256 = 0x3000) (v : Nat) : KeepsObjs EpochKey s (s.wr o 0 v) :=
  s.wr_keepsObjs v (by rw [EpochKey, ho]; omega) (by rw [idKey]; omega)

/-- A number of nanoseconds as a counter (R353). -/
def ctrOfNs (ns : Nat) : Nat := ns * 2 ^ 40 % ctrWrap

/-- W, started at a counter of a domain. -/
def State.wStarted (s : State) (d : Nat) : State :=
  { (s.wr Objs.w_state 0 1).wr Objs.w_active 0 d with
    time := { s.time with w := s.ctr d, incW := (s.trk d).inc, incWBase := (s.trk d).inc, pendIncW := none, wPend := none } }

/-- W, set to a value that waited. -/
def State.wWritten (s : State) (v : Nat) : State := { s with time := { s.time with w := v, wPend := none } }

section
variable {s : State} {d ns : Nat}

theorem epochWork_start (hnew : s.newDomain = some d) (hidle : s.rd Objs.w_state = 0) :
    epochWork s = (s.wStarted d).wStepped (ctrDiff (s.ctr d) s.time.w) := by
  unfold epochWork
  rw [hnew]
  exact if_pos hidle

theorem epochWork_set (hnew : s.newDomain = none) (hpend : s.time.wPend = some ns) (hidle : s.rd Objs.w_state = 0) :
    epochWork s = (s.wWritten (ctrOfNs ns)).wStepped (ctrDiff (ctrOfNs ns) s.time.w) := by
  unfold epochWork
  rw [hnew, hpend]
  exact if_pos hidle

theorem epochWork_start_effects (hnew : s.newDomain = some d) (hidle : s.rd Objs.w_state = 0) :
    (epochWork s).time.w = s.ctr d ∧ (epochWork s).rd Objs.w_state = 1 ∧ (epochWork s).rd Objs.w_active = d := by
  obtain ⟨hobjs, htime⟩ := (s.wStarted d).wStepped_keeps (ctrDiff (s.ctr d) s.time.w)
  rw [epochWork_start hnew hidle]
  refine ⟨congrArg TimeUnit.w htime, ?_, ?_⟩
  · rw [hobjs.rd Objs.w_state 0 (by decide)]
    exact (DictUnit.rd_wr_other (by decide) (by decide)).trans (DictUnit.rd_wr_same (by decide))
  · rw [hobjs.rd Objs.w_active 0 (by decide)]
    exact DictUnit.rd_wr_same (by decide)

theorem epochWork_set_effects (hnew : s.newDomain = none) (hpend : s.time.wPend = some ns) (hidle : s.rd Objs.w_state = 0) :
    (epochWork s).time.w = ctrOfNs ns := by
  rw [epochWork_set hnew hpend hidle]
  exact congrArg TimeUnit.w (State.wStepped_keeps ..).2

end

theorem epochWork_keeps (s : State) : EpochWork s (epochWork s) := by
  have hmove : ∀ (x d : Nat), EpochWork s (((s.wr Objs.w_state 0 x).wr Objs.w_active 0 d).raise 197 0) := fun x d =>
    ⟨((wr_w_work s rfl x).trans (wr_w_work _ rfl d)).trans (State.raise_keepsObjs ..), rfl⟩
  have hstart : ∀ d x, EpochWork s ((s.wStarted d).wStepped x) := fun d x => by
    have hwr : KeepsObjs EpochKey s ((s.wr Objs.w_state 0 1).wr Objs.w_active 0 d) := (wr_w_work s rfl 1).trans (wr_w_work _ rfl d)
    exact State.wStepped_work (t := s.wStarted d) (hwr.trans (.of_units rfl rfl)) rfl x
  have hset : ∀ v x, EpochWork s ((s.wWritten v).wStepped x) := fun v x => State.wStepped_work (s := s) (t := s.wWritten v) (.of_units rfl rfl) rfl x
  unfold epochWork
  extract_lets st
  split
  next d _ =>
    split
    · exact hstart d _
    split
    · exact hmove 2 d
    split
    · exact hmove 2 d
    · exact ⟨.refl s, rfl⟩
  · split
    next ns _ =>
      split
      · exact hset (ctrOfNs ns) _
      · exact ⟨.of_units rfl rfl, rfl⟩
    · exact ⟨.refl s, rfl⟩

/-! ## The boundary -/

/-- The state of an epoch boundary before the rows of the domains' states. -/
def epochTurned (s : State) : State :=
  let s1 : State := { s with time := { s.time with epochs := s.time.epochs + 1 } }
  let s2 := epochWork (epochDomain (epochDomain s1 0) 1)
  let s3 : State := { s2 with time := { s2.time with incW := s2.time.pendIncW.getD s2.time.incW, pendIncW := none, newLocked := 0 } }
  let s4 := s3.wr Objs.w_inc 0 s3.time.incW
  { s4 with time := pushHistory (s4.time.newBoards (boardDelays s4 Objs.ts_rx_board) (boardDelays s4 Objs.ts_tx_board)) }

theorem epochBoundary_due {s : State} (h : (s.time.epochs + 1) * epochTicks ≤ s.time.ticks) :
    epochBoundary s .none = epochRows (epochRows (epochTurned s) 0) 1 := if_neg (Nat.not_lt.2 h)

theorem pushHistory_length (u : TimeUnit) : (pushHistory u).history.length = min 4096 (u.history.length + 1) := by
  simp only [pushHistory, List.length_drop, List.length_append, List.length_singleton]
  omega

theorem pushHistory_time (u : TimeUnit) : pushHistory u = { u with history := (pushHistory u).history } := by
  simp only [pushHistory]

theorem TimeUnit.newBoards_time (u : TimeUnit) (rx tx : Tab Int) : u.newBoards rx tx = { u with boards := (u.newBoards rx tx).boards } := by
  unfold TimeUnit.newBoards
  split
  · split <;> rfl
  · split <;> rfl

/-- What stands before the rows of the domains' states. -/
structure EpochTurned (s t : State) : Prop where
  objs : KeepsObjs EpochKey s t
  f : t.time.f = s.time.f
  epochs : t.time.epochs = s.time.epochs + 1
  history : t.time.history.length = min 4096 (s.time.history.length + 1)
  inc : t.rd Objs.w_inc = t.time.incW
  trk : ∀ d : Fin 2, t.trk d = (s.trk d).turned
  ctr : ∀ d : Fin 2, t.ctr d = (s.trk d).pendStep.foldl ctrAdd (s.ctr d)
  spent : t.time.newLocked = 0 ∧ t.time.pendIncW = none
  start : ∀ d, s.newDomain = some d → s.rd Objs.w_state = 0 → t.time.w = t.ctr d ∧ t.rd Objs.w_state = 1 ∧ t.rd Objs.w_active = d
  written : ∀ ns, s.newDomain = none → s.time.wPend = some ns → s.rd Objs.w_state = 0 → t.time.w = ctrOfNs ns

theorem State.newDomain_congr {s t : State} (hsel : t.rd Objs.w_select = s.rd Objs.w_select) (hnew : t.time.newLocked = s.time.newLocked)
    (hstate : ∀ d, t.rd Objs.dom_state d = s.rd Objs.dom_state d) : t.newDomain = s.newDomain := by
  unfold State.newDomain State.domLocked
  rw [hsel, hnew]
  simp only [hstate]

/-- What stands after the steps of both domains. -/
structure EpochSteps (s t : State) : Prop where
  objs : KeepsObjs (· % 256 ≠ 0x15) s t
  time : t.time = { s.time with a := t.time.a, b := t.time.b, trkA := t.time.trkA, trkB := t.time.trkB }
  trk : ∀ d : Fin 2, t.trk d = (s.trk d).turned
  ctr : ∀ d : Fin 2, t.ctr d = (s.trk d).pendStep.foldl ctrAdd (s.ctr d)

theorem epochDomains_effects (s : State) : EpochSteps s (epochDomain (epochDomain s 0) 1) := by
  have hA : EpochDomain 0 1 s (epochDomain s 0) := epochDomain_effects (.inl ⟨rfl, rfl⟩) s
  have hB : EpochDomain 1 0 (epochDomain s 0) (epochDomain (epochDomain s 0) 1) := epochDomain_effects (.inr ⟨rfl, rfl⟩) _
  refine ⟨hA.objs.trans hB.objs, by rw [hB.time, hA.time], fun d => ?_, fun d => ?_⟩
  · match d with
    | 0 => exact hB.trk_other.trans hA.trk
    | 1 => exact hB.trk.trans (congrArg Tracker.turned hA.trk_other)
  · match d with
    | 0 => exact hB.ctr_other.trans hA.ctr
    | 1 =>
      refine hB.ctr.trans ?_
      rw [hA.trk_other, hA.ctr_other]
      rfl

theorem epochTurned_effects (s : State) : EpochTurned s (epochTurned s) := by
  unfold epochTurned
  extract_lets src1 s1 s2 src2 s3 s4
  have hS : EpochSteps s1 (epochDomain (epochDomain s1 0) 1) := epochDomains_effects s1
  have hW : EpochWork (epochDomain (epochDomain s1 0) 1) s2 := epochWork_keeps _
  have hnew : (epochDomain (epochDomain s1 0) 1).newDomain = s.newDomain :=
    State.newDomain_congr (hS.objs.rd _ _ (by decide)) (by rw [hS.time]) fun d => hS.objs.rd _ _ (by simp only [domState_key]; omega)
  have hstart := @epochWork_start_effects (epochDomain (epochDomain s1 0) 1)
  have hset := @epochWork_set_effects (epochDomain (epochDomain s1 0) 1)
  have hstate : (epochDomain (epochDomain s1 0) 1).rd Objs.w_state = s.rd Objs.w_state := hS.objs.rd _ _ (by decide)
  rw [hnew, hstate] at hstart hset
  change ∀ {d}, _ → _ → s2.time.w = _ ∧ s2.rd _ = _ ∧ s2.rd _ = _ at hstart
  change ∀ {ns}, _ → _ → _ → s2.time.w = _ at hset
  generalize hd : epochDomain (epochDomain s1 0) 1 = sd at hS hW hnew hstart hset hstate
  clear_value s2
  obtain ⟨h, b, htime, hlen⟩ : ∃ h b, pushHistory (s4.time.newBoards (boardDelays s4 Objs.ts_rx_board) (boardDelays s4 Objs.ts_tx_board)) =
      { s3.time with history := h, boards := b } ∧ h.length = min 4096 (s.time.history.length + 1) := by
    refine ⟨_, _, (pushHistory_time _).trans (by rw [TimeUnit.newBoards_time]; rfl), ?_⟩
    rw [pushHistory_length, TimeUnit.newBoards_time]
    show min 4096 (s2.time.history.length + 1) = _
    rw [hW.time, hS.time]
  rw [htime]
  have hwinc : s4.rd Objs.w_inc = s3.time.incW := DictUnit.rd_wr_same (by decide)
  have hobjs : KeepsObjs (· ≠ Objs.w_inc.key 0) s2 s4 := .trans (t := s3) (.of_units rfl rfl) (s3.wr_keepsObjs _ (by simp) (by decide))
  have htrk : ∀ d, s2.trk d = sd.trk d := fun d => by simp only [State.trk]; rw [hW.time]
  have hctr : ∀ d, s2.ctr d = sd.ctr d := fun d => by simp only [State.ctr]; rw [hW.time]
  have hbefore : KeepsObjs EpochKey s sd := .trans (t := s1) (.of_units rfl rfl) (hS.objs.mono fun k hk => hk.2)
  have hafter : KeepsObjs EpochKey s2 s4 := hobjs.mono fun k hk => by rintro rfl; exact absurd hk (by decide)
  exact {
    objs := ((hbefore.trans hW.objs).trans hafter).trans (.of_units rfl rfl)
    f := by
      show s2.time.f = s.time.f
      rw [hW.time, hS.time]
    epochs := by
      show s2.time.epochs = s.time.epochs + 1
      rw [hW.time, hS.time]
    history := hlen
    inc := hwinc
    trk := fun d => (htrk d).trans (hS.trk d)
    ctr := fun d => (hctr d).trans (hS.ctr d)
    spent := ⟨rfl, rfl⟩
    start := fun d hsome hidle => by
      obtain ⟨hw, hst, hact⟩ := hstart hsome hidle
      exact ⟨hw.trans (hctr d).symm, (hobjs.rd _ _ (by decide)).trans hst, (hobjs.rd _ _ (by decide)).trans hact⟩
    written := fun ns h1 h2 h3 => hset h1 (by rw [hS.time]; exact h2) h3 }

/-! ## The rows of both domains -/

section
variable {s t : State} {d e : Nat}

/-- What the rows of a domain read. -/
structure RowReads (d : Nat) (s t : State) : Prop where
  rd : ∀ o ∈ [Objs.dom_mode, Objs.dom_state, Objs.dom_lock_count, Objs.dom_plaus_count, Objs.dom_loss_timeout], t.rd o d = s.rd o d
  f : t.time.f = s.time.f
  trk : (t.trk d).lockRun = (s.trk d).lockRun ∧ (t.trk d).rejectRun = (s.trk d).rejectRun ∧ (t.trk d).lastF = (s.trk d).lastF

theorem RowReads.lockDue (h : RowReads d s t) : LockDue t d ↔ LockDue s d := by
  simp only [LockDue, h.rd Objs.dom_mode (by simp), h.rd Objs.dom_state (by simp), h.rd Objs.dom_lock_count (by simp), h.trk.1]

theorem RowReads.plausDue (h : RowReads d s t) : PlausDue t d ↔ PlausDue s d := by
  simp only [PlausDue, h.rd Objs.dom_mode (by simp), h.rd Objs.dom_state (by simp), h.rd Objs.dom_plaus_count (by simp), h.trk.2.1]

theorem RowReads.lossDue (h : RowReads d s t) : LossDue t d ↔ LossDue s d := by
  have helapsed : ∀ start ns, t.elapsed start ns = s.elapsed start ns := fun start ns => by
    unfold State.elapsed State.sinceNs State.fNs
    rw [h.f]
  simp only [LossDue, h.rd Objs.dom_mode (by simp), h.rd Objs.dom_state (by simp), h.rd Objs.dom_loss_timeout (by simp), h.trk.2.2, helapsed]

theorem RowReads.trans {u : State} (h : RowReads d s t) (h' : RowReads d t u) : RowReads d s u where
  rd o ho := (h'.rd o ho).trans (h.rd o ho)
  f := h'.f.trans h.f
  trk := by
    obtain ⟨h1, h2, h3⟩ := h.trk
    obtain ⟨h1', h2', h3'⟩ := h'.trk
    exact ⟨h1'.trans h1, h2'.trans h2, h3'.trans h3⟩

theorem rowObj_key {o : Obj} (ho : o ∈ [Objs.dom_mode, Objs.dom_state, Objs.dom_lock_count, Objs.dom_plaus_count, Objs.dom_loss_timeout]) (d : Nat) :
    o.key d / 256 = 0x3001 + d ∧ o.key d % 256 ≠ 0x15 := by
  simp only [List.mem_cons, List.not_mem_nil, or_false] at ho
  rcases ho with rfl | rfl | rfl | rfl | rfl <;> simp only [Obj.key] <;> omega

theorem EpochTurned.reads {t : State} (h : EpochTurned s t) (d : Fin 2) : RowReads d s t where
  rd o ho := h.objs.rd o d (by have := rowObj_key ho d; omega)
  f := h.f
  trk := by rw [h.trk d]; exact ⟨rfl, rfl, rfl⟩

theorem RowKeeps.reads (h : RowKeeps d e s t) : RowReads e s t where
  rd o ho := h.objs.rd o e (.inr (rowObj_key ho e).1)
  f := by rw [h.time]
  trk := by rw [h.other]; exact ⟨rfl, rfl, rfl⟩

/-- A row that is due has taken the domain to state `x`, with the event `src`. -/
abbrev RowTaken (d x src : Nat) (t : State) : Prop := t.rd Objs.dom_state d = x ∧ ∃ e ∈ t.fm.raised, e.src = src ∧ e.unit = d

theorem State.setDomState_taken (s : State) (d x src : Nat) : RowTaken d x src ((s.setDomState d x).raise src d) :=
  ⟨s.setDomState_rd d x, State.mem_raiseOf_raised ..⟩

/-- What the rows of domain `d` have done in `t`, by what was due in `s`. -/
structure RowsTaken (d : Nat) (s t : State) : Prop where
  lock : LockDue s d → RowTaken d 3 192 t
  plaus : PlausDue s d → RowTaken d 4 194 t
  loss : ¬ LockDue s d → ¬ PlausDue s d → LossDue s d → RowTaken d 4 193 t

theorem epochRows_taken (s : State) (d : Nat) : RowsTaken d s (epochRows s d) where
  lock h := by rw [epochRows_lock h]; exact State.setDomState_taken ..
  plaus h := by rw [epochRows_plaus h]; exact State.setDomState_taken ..
  loss hlock hplaus h := by rw [epochRows_rest hlock hplaus h.1, domLossTimeout_due h]; exact State.setDomState_taken ..

theorem RowTaken.kept {x src : Nat} (h : RowKeeps d e s t) (ht : RowTaken e x src s) : RowTaken e x src t :=
  ⟨(h.objs.rd _ _ (.inr (rowObj_key (by simp) e).1)).trans ht.1, h.objs.event ht.2⟩

theorem RowsTaken.kept {u : State} (h : RowKeeps d e t u) (ht : RowsTaken e s t) : RowsTaken e s u :=
  ⟨fun hl => (ht.lock hl).kept h, fun hp => (ht.plaus hp).kept h, fun h1 h2 h3 => (ht.loss h1 h2 h3).kept h⟩

theorem RowsTaken.of_reads {u : State} (h : RowReads d s t) (ht : RowsTaken d t u) : RowsTaken d s u :=
  ⟨fun hl => ht.lock (h.lockDue.2 hl), fun hp => ht.plaus (h.plausDue.2 hp),
    fun h1 h2 h3 => ht.loss (h1 ∘ h.lockDue.1) (h2 ∘ h.plausDue.1) (h.lossDue.2 h3)⟩

end

/-- No row of the domain is due. -/
abbrev NoRow (s : State) (d : Nat) : Prop := ¬ LockDue s d ∧ ¬ PlausDue s d ∧ ¬ LossDue s d

/-- The rows of both domains, one after the other. -/
theorem epochRows_both (s t : State) (ht : EpochTurned s t) :
    let u := epochRows (epochRows t 0) 1
    (∀ d : Fin 2, RowsTaken d s u) ∧ ((∀ d : Fin 2, NoRow s d) → u = t) ∧ u.rd Objs.w_inc = t.rd Objs.w_inc ∧
      (∀ d : Fin 2, (u.trk d).inc = (t.trk d).inc ∧ (u.trk d).pendStep = (t.trk d).pendStep) ∧
      u.time = { t.time with trkA := u.time.trkA, trkB := u.time.trkB, newLocked := u.time.newLocked, pendIncW := u.time.pendIncW } := by
  intro u
  have h0 : RowKeeps 0 1 t (epochRows t 0) := epochRows_rowKeeps (.inl ⟨rfl, rfl⟩) t
  have h1 : RowKeeps 1 0 (epochRows t 0) u := epochRows_rowKeeps (.inr ⟨rfl, rfl⟩) _
  refine ⟨fun d => ?_, fun hnone => ?_, (h1.objs.rd _ _ (.inl rfl)).trans (h0.objs.rd _ _ (.inl rfl)), fun d => ?_, by rw [h1.time, h0.time]⟩
  · match d with
    | 0 => exact .of_reads (ht.reads 0) (.kept h1 (epochRows_taken t 0))
    | 1 => exact .of_reads ((ht.reads 1).trans h0.reads) (epochRows_taken (epochRows t 0) 1)
  · have skip : ∀ d : Fin 2, epochRows t d = t := fun d => by
      obtain ⟨hlock, hplaus, hloss⟩ := hnone d
      exact epochRows_none (hlock ∘ (ht.reads d).lockDue.1) (hplaus ∘ (ht.reads d).plausDue.1) (hloss ∘ (ht.reads d).lossDue.1)
    show epochRows (epochRows t 0) 1 = t
    rw [show epochRows t 0 = t from skip 0]
    exact skip 1
  · match d with
    | 0 => exact ⟨(congrArg Tracker.inc h1.other).trans h0.own.1, (congrArg Tracker.pendStep h1.other).trans h0.own.2⟩
    | 1 => exact ⟨h1.own.1.trans (congrArg Tracker.inc h0.other), h1.own.2.trans (congrArg Tracker.pendStep h0.other)⟩

/-! ## The update of W (R375) -/

theorem TimeUnit.mendHistory_time (u : TimeUnit) : u.mendHistory = { u with history := u.mendHistory.history } := by
  unfold TimeUnit.mendHistory
  split <;> simp only []

theorem wUpdate_idle {s : State} (hdue : s.time.wUpdates < s.time.epochs / 512) (hidle : s.rd Objs.w_state = 0 ∨ s.rd Objs.w_state = 3) :
    wUpdate s = { s with time := { s.time with wUpdates := s.time.epochs / 512 } } := by
  unfold wUpdate
  extract_lets st
  rw [if_pos hdue]
  exact if_neg (by omega)

/-- What an update of W does while W follows a domain. -/
theorem wUpdate_follows {s : State} (hdue : s.time.wUpdates < s.time.epochs / 512) (hst : s.rd Objs.w_state = 1 ∨ s.rd Objs.w_state = 2) :
    (wUpdate s).time.w = s.time.w ∧ (wUpdate s).time.wUpdates = s.time.epochs / 512 ∧ (wUpdate s).rd Objs.w_inc = (wUpdate s).time.incW ∧
      (wUpdate s).time.incWBase = (s.trk (s.rd Objs.w_active)).inc ∧
      (s.rd Objs.w_state = 2 → 2 * |ctrDiff (s.ctr (s.rd Objs.w_active)) s.time.w| ≤ 2 ^ 40 →
        (wUpdate s).rd Objs.w_state = 1 ∧ Raised 198 0 s (wUpdate s)) := by
  unfold wUpdate
  extract_lets st f s1 x d incX inc g s2 s3
  simp only [if_pos hdue]
  rw [if_pos hst]
  clear_value inc
  have htime : s3.time.w = s.time.w ∧ s3.time.wUpdates = s.time.epochs / 512 ∧ s3.time.incW = inc ∧ s3.time.incWBase = incX := by
    simp only [s3, State.wrInt_time, State.wr_time, s2]
    rw [TimeUnit.mendHistory_time]
    exact ⟨rfl, rfl, rfl, rfl⟩
  obtain ⟨hw, hupd, hincW, hbase⟩ := htime
  have hinc : s3.rd Objs.w_inc = inc :=
    (DictUnit.rd_wr_other (by decide) (by decide)).trans (DictUnit.rd_wr_same (by decide))
  split
  · refine ⟨hw, hupd, ?_, hbase, fun _ _ => ⟨DictUnit.rd_wr_same (by decide), ⟨_, rfl, rfl, rfl⟩⟩⟩
    exact (DictUnit.rd_wr_other (by decide) (by decide)).trans (hinc.trans hincW.symm)
  next hfar => exact ⟨hw, hupd, hinc.trans hincW.symm, hbase, fun htwo hnear => absurd ⟨htwo, hnear⟩ hfar⟩

/-- Settles O36: what stands before the rows (`epochTurned_effects`), the rows of both domains, and the update of W. -/
theorem epochBoundaryTakesEffect : Obligations.EpochBoundaryTakesEffect := by
  intro s
  refine ⟨fun hearly x => congrArg Host.Outcome.next (if_pos hearly), fun hdue => ?_, fun hdue => ⟨fun hidle => congrArg Host.Outcome.next (wUpdate_idle hdue hidle), fun hst => ⟨_, rfl, wUpdate_follows hdue hst⟩⟩⟩
  have ht := epochTurned_effects s
  obtain ⟨hrows, hnone, hinc, htrk, htime⟩ := epochRows_both s (epochTurned s) ht
  refine ⟨_, congrArg Host.Outcome.next (epochBoundary_due hdue), ?_⟩
  generalize epochTurned s = b at *
  generalize epochRows (epochRows b 0) 1 = t at *
  have hctr : ∀ d, t.ctr d = b.ctr d := fun d => by simp only [State.ctr]; rw [htime]
  refine ⟨by rw [htime]; exact ht.epochs, by rw [htime]; exact ht.history, by rw [hinc, htime]; exact ht.inc, fun d => ?_, fun ns h1 h2 h3 => ?_,
    fun d h1 h2 => ?_, fun hnodue => ?_⟩
  · obtain ⟨hincd, hstep⟩ := htrk d
    obtain ⟨hlock, hplaus, hloss⟩ := hrows d
    have hfold : t.ctr d = (s.trk d).pendStep.foldl ctrAdd (s.ctr d) := (hctr d).trans (ht.ctr d)
    refine ⟨hincd.trans (by rw [ht.trk d]), hstep.trans (by rw [ht.trk d]), fun hnil => ?_, fun x hx => ?_, hfold, hlock, hplaus, hloss⟩
    · rw [hfold, hnil]
      rfl
    · rw [hfold, hx]
      rfl
  · rw [htime]
    exact ht.written ns h1 h2 h3
  · rw [hctr, htime]
    exact (ht.start d h1 h2).1
  · obtain rfl := hnone hnodue
    obtain ⟨hlocked, hpend⟩ := ht.spent
    exact ⟨hlocked, hpend, fun d => by rw [ht.trk d], fun d h1 h2 => (ht.start d h1 h2).2⟩

end Sys2Proof.Machine
end

section
/-! Loss of a domain's samples, and the writes of the time unit's objects (O37). -/

namespace Sys2Proof.Machine

/-- The keys of the time unit's objects. -/
theorem timeKey_plain {k : Nat} (hlo : 0x300000 ≤ k) (hhi : k < 0x302000) :
    banked k = false ∧ pathLocal k = false ∧ ¬ writeSide k ∧ k ≠ idKey := by
  refine ⟨?_, ?_, not_writeSide (by omega) (by rintro rfl; revert hlo; decide), by rw [idKey]; omega⟩
  · simp only [banked, decide_eq_false_iff_not, List.mem_cons, List.not_mem_nil, or_false]
    omega
  · simp only [pathLocal, Bool.or_eq_false_iff, Bool.and_eq_false_iff, decide_eq_false_iff_not, beq_eq_false_iff_ne, List.mem_cons,
      List.not_mem_nil, or_false]
    omega

/-- An accepted write of an object of the time unit. -/
theorem timeWrite_ok {c : Ctx} {o : Obj} {i : Nat} {v : List Byte} {check : Nat → State → Code} {s : State} (hlo : 0x300000 ≤ o.key i)
    (hhi : o.key i < 0x302000) (h : Accepted c o i v check s) {apply : Nat → State → State} {P : State → Prop}
    (hP : ∀ b, Written o i v s b → P ((apply (leNat v) b).put (.answer c (o.key i / 256) (o.key i % 256) 0 []))) :
    ∃ t, (Host.Outcome.next (writeObj c o i v check apply s) : Out) = .next t ∧ Answered c o i .ok t ∧ P t := by
  obtain ⟨b, hb, he⟩ := writeObj_written h (timeKey_plain hlo hhi).2.2.2
  exact ⟨_, rfl, by rw [he]; exact answered_ok .., by rw [he]; exact hP b hb⟩

section
variable {o : Obj} {i : Nat} {v : List Byte} {s b : State} (h : Written o i v s b)
include h

theorem Written.time_rd {p : Obj} {j : Nat} (hlo : 0x300000 ≤ p.key j) (hhi : p.key j < 0x302000) (hne : p.key j ≠ o.key i) : b.rd p j = s.rd p j :=
  h.rd p j hne (timeKey_plain hlo hhi).2.2.1

theorem Written.time_value (hlo : 0x300000 ≤ o.key i) (hhi : o.key i < 0x302000) (hrw : o.acc = .rw) : b.rd o i = leNat v := by
  obtain ⟨hbank, hlocal, hside, -⟩ := timeKey_plain hlo hhi
  exact h.value hbank hrw hlocal hside

theorem Written.trk (d : Nat) : b.trk d = s.trk d := by simp only [State.trk, h.time]

end

/-! ## The domains -/

theorem State.setDomState_trk (s : State) (d x e : Nat) : (s.setDomState d x).trk e = s.trk e := by
  simp only [State.trk]
  rw [State.setDomState_time]

theorem State.setDomInc_trk (s : State) (d x : Nat) : (s.setDomInc d x).trk d = { s.trk d with pendInc := some x } := State.setTrk_trk ..

theorem State.setDomInc_keepsObjs {P : Nat → Prop} {d : Nat} (h : ¬ P (Objs.dom_inc.key d)) (s : State) (x : Nat) : KeepsObjs P s (s.setDomInc d x) := by
  have htrk : KeepsObjs P s (s.setTrk d { s.trk d with pendInc := some x }) := .of_units (by simp) (by simp)
  exact htrk.trans (State.wr_keepsObjs _ x h (by rw [domInc_key, idKey]; omega))

theorem domHoldover_trk {s : State} {d : Nat} (h : s.rd Objs.dom_mode d = 0) : ((domHoldover s d).trk d).pendInc = some (incFor (s.trk d).i) := by
  rw [domHoldover, State.setDomState_trk]
  unfold domHold
  extract_lets x u
  have hmode : u.rd Objs.dom_mode d = s.rd Objs.dom_mode d := by simp [u]
  rw [if_pos (hmode.trans h), State.setDomInc_trk]

theorem domLossTimeout_effects {s : State} {d : Nat} (h : LossDue s d) :
    (domLossTimeout s d).rd Objs.dom_state d = 4 ∧ ((domLossTimeout s d).trk d).pendInc = some (incFor (s.trk d).i) ∧
      ∃ e ∈ (domLossTimeout s d).fm.raised, e.src = 193 ∧ e.unit = d := by
  rw [domLossTimeout_due h]
  exact ⟨State.setDomState_rd .., domHoldover_trk h.1, State.mem_raiseOf_raised ..⟩

theorem domEnableApply_disabled (s : State) (d : Nat) : (domEnableApply d 0 s).rd Objs.dom_state d = 0 ∧
    ((domEnableApply d 0 s).trk d).pendInc = some incNom ∧ ((domEnableApply d 0 s).trk d).i = 0 := by
  unfold domEnableApply
  extract_lets u
  rw [if_pos rfl, State.setDomState_trk, State.setDomInc_trk]
  exact ⟨State.setDomState_rd .., rfl, congrArg Tracker.i (State.setTrk_trk ..)⟩

theorem domEnableApply_on {s : State} {d x : Nat} (hx : x ≠ 0) (hstate : s.rd Objs.dom_state d = 0) (hmode : s.rd Objs.dom_mode d ≠ 1) :
    (domEnableApply d x s).rd Objs.dom_state d = 1 := by
  unfold domEnableApply
  rw [if_neg hx, if_pos hstate, if_neg hmode]
  exact State.setDomState_rd ..

theorem domEnable_key (d : Nat) : Objs.dom_enable.key d = (0x3001 + d) * 256 + 1 := by simp [Obj.key, Nat.mod_one]

theorem domEnableApply_enable (s : State) (d x : Nat) : (domEnableApply d x s).rd Objs.dom_enable d = s.rd Objs.dom_enable d := by
  have hstate : ∀ (s : State) y, (s.setDomState d y).rd Objs.dom_enable d = s.rd Objs.dom_enable d := fun s y =>
    (s.setDomState_keepsObjs (P := (· % 256 = 1)) (by decide) (by rw [domState_key]; omega)).rd _ _ (by rw [domEnable_key]; omega)
  unfold domEnableApply
  extract_lets old u
  split
  · rw [hstate, (State.setDomInc_keepsObjs (P := (· % 256 = 1)) (by rw [domInc_key]; omega) u incNom).rd _ _ (by rw [domEnable_key]; omega)]
    simp [u]
  · split
    · exact hstate ..
    · rfl

/-! ## The selection of W -/

theorem wSelectApply_moves {s : State} {x : Nat} (hst : s.rd Objs.w_state = 1 ∨ s.rd Objs.w_state = 2) (hx : s.rd Objs.w_active ≠ x) :
    (wSelectApply x s).rd Objs.w_state = 2 ∧ (wSelectApply x s).rd Objs.w_active = x ∧ Raised 197 0 s (wSelectApply x s) := by
  have happly : wSelectApply x s = ((s.wr Objs.w_state 0 2).wr Objs.w_active 0 x).raise 197 0 := if_pos ⟨hst, hx⟩
  rw [happly]
  exact ⟨(DictUnit.rd_wr_other (by decide) (by decide)).trans (DictUnit.rd_wr_same (by decide)), DictUnit.rd_wr_same (by decide), ⟨_, rfl, rfl, rfl⟩⟩

theorem wSelectApply_select (s : State) (x : Nat) : (wSelectApply x s).rd Objs.w_select = s.rd Objs.w_select := by
  unfold wSelectApply
  extract_lets st
  split
  · exact (DictUnit.rd_wr_other (by decide) (by decide)).trans (DictUnit.rd_wr_other (by decide) (by decide))
  · rfl

/-! ## The snapshot -/

/-- The four counters, as their stamps, in the objects of the snapshot. -/
def State.snapped (s : State) (f a b w : Nat) : State := (((s.wr Objs.snap_f 0 f).wr Objs.snap_a 0 a).wr Objs.snap_b 0 b).wr Objs.snap_w 0 w

theorem snapshotApply_eq (x : Nat) (s : State) :
    snapshotApply x s = s.snapped (stamp96 s.time.f) (stamp96 s.time.a) (stamp96 s.time.b) (stamp96 s.time.w) := rfl

theorem State.snapped_rd (s : State) (f a b w : Nat) (x : Output) : ((s.snapped f a b w).put x).rd Objs.snap_f = f ∧
    ((s.snapped f a b w).put x).rd Objs.snap_a = a ∧ ((s.snapped f a b w).put x).rd Objs.snap_b = b ∧
    ((s.snapped f a b w).put x).rd Objs.snap_w = w := by
  have other : ∀ (u : DictUnit) (o p : Obj) v, o.key 0 ≠ p.key 0 → o.key 0 ≠ idKey → (u.wr o 0 v).rd p 0 = u.rd p 0 := fun u o p v h hid =>
    DictUnit.rd_wr_other h hid
  have same : ∀ (u : DictUnit) (o : Obj) v, o.key 0 ≠ idKey → (u.wr o 0 v).rd o 0 = v := fun u o v hid => DictUnit.rd_wr_same hid
  simp only [State.snapped, State.rd_dict, State.put_dict, State.wr_dict]
  refine ⟨?_, ?_, ?_, same _ _ _ (by decide)⟩
  · rw [other _ _ _ _ (by decide) (by decide), other _ _ _ _ (by decide) (by decide), other _ _ _ _ (by decide) (by decide), same _ _ _ (by decide)]
  · rw [other _ _ _ _ (by decide) (by decide), other _ _ _ _ (by decide) (by decide), same _ _ _ (by decide)]
  · rw [other _ _ _ _ (by decide) (by decide), same _ _ _ (by decide)]

theorem State.snapped_time (s : State) (f a b w : Nat) (x : Output) : ((s.snapped f a b w).put x).time = s.time := rfl

/-- An accepted snapshot writes the stamps of the four counters as they stand. -/
theorem timeSnapshot_snapped {c : Ctx} {v : List Byte} {s : State} (h : Accepted c Objs.time_snapshot 0 v noCheck s) :
    ∃ (b : State) (x : Output), b.time = s.time ∧
      let t := (b.snapped (stamp96 s.time.f) (stamp96 s.time.a) (stamp96 s.time.b) (stamp96 s.time.w)).put x
      exec (.timeSnapshot c v) s = .next t ∧ Answered c Objs.time_snapshot 0 .ok t := by
  obtain ⟨b, hb, he⟩ := writeObj_written h (by decide)
  have hexec := he snapshotApply
  rw [snapshotApply_eq, hb.time] at hexec
  exact ⟨b, _, hb.time, congrArg (Host.Outcome.next : State → Out) hexec, answered_ok ..⟩

theorem timeSnapshot_effects {c : Ctx} {v : List Byte} {s : State} (h : Accepted c Objs.time_snapshot 0 v noCheck s) :
    ∃ t, exec (.timeSnapshot c v) s = .next t ∧ Answered c Objs.time_snapshot 0 .ok t ∧ t.time = s.time ∧
      t.rd Objs.snap_f = stamp96 s.time.f ∧ t.rd Objs.snap_a = stamp96 s.time.a ∧ t.rd Objs.snap_b = stamp96 s.time.b ∧
      t.rd Objs.snap_w = stamp96 s.time.w := by
  obtain ⟨b, x, hb, hexec, hans⟩ := timeSnapshot_snapped h
  exact ⟨_, hexec, hans, (State.snapped_time ..).trans hb, State.snapped_rd ..⟩

/-- Settles O37: each write is its effect on a written state (`Written`), and a loss of samples is the row LOSS of its domain. -/
theorem timeObjectsTakeEffect : Obligations.TimeObjectsTakeEffect := by
  intro c d v s
  have hd := d.isLt
  refine ⟨fun hst hmode hlast => ⟨_, rfl, domLossTimeout_effects ⟨hmode, hst, hlast⟩⟩, fun h => congrArg Host.Outcome.next (if_neg h), fun h => ?_,
    fun h => ?_, fun h => ?_, fun h => ?_, fun h => ?_, fun h => ?_⟩
  · have hkey := domEnable_key d
    refine timeWrite_ok (by omega) (by omega) h fun b hb => ⟨?_, fun hx => ?_, fun hx hst hmode => ?_⟩
    · exact (domEnableApply_enable b d _).trans (hb.time_value (by omega) (by omega) rfl)
    · rw [hx]
      exact domEnableApply_disabled b d
    · have hstk := domState_key d
      have hmk : Objs.dom_mode.key d = (0x3001 + d.val) * 256 + 2 := by simp [Obj.key, Nat.mod_one]
      refine domEnableApply_on hx ((hb.time_rd (by omega) (by omega) (by omega)).trans hst) ?_
      rw [hb.time_rd (by omega) (by omega) (by omega)]
      exact hmode
  · refine timeWrite_ok (by decide) (by decide) h fun b hb => ⟨?_, fun hst hact => ?_⟩
    · exact (wSelectApply_select b _).trans (hb.time_value (by decide) (by decide) rfl)
    · have hstate : b.rd Objs.w_state = s.rd Objs.w_state := hb.time_rd (by decide) (by decide) (by decide)
      have hactive : b.rd Objs.w_active = s.rd Objs.w_active := hb.time_rd (by decide) (by decide) (by decide)
      obtain ⟨h1, h2, e, hraised, he⟩ := wSelectApply_moves (s := b) (by rw [hstate]; exact hst) (by rw [hactive]; exact hact)
      exact ⟨h1, h2, e, by rw [← hb.fm]; exact hraised, he⟩
  · exact timeWrite_ok (by decide) (by decide) h fun b hb => ⟨by show b.time.w = s.time.w; rw [hb.time], rfl⟩
  · have hkey : Objs.dom_step.key d = (0x3001 + d.val) * 256 + 6 := by simp [Obj.key, Nat.mod_one]
    refine timeWrite_ok (by omega) (by omega) h fun b hb => ⟨?_, ?_⟩
    · exact (State.setTrk_ctr ..).trans (by simp only [State.ctr, hb.time])
    · refine (congrArg Tracker.pendStep (State.setTrk_trk ..)).trans ?_
      rw [hb.trk]
  · have hkey := domInc_key d
    refine timeWrite_ok (by omega) (by omega) h fun b hb => ⟨?_, ?_, ?_⟩
    · refine Eq.trans ?_ (hb.time_value (by omega) (by omega) rfl)
      exact congrArg (DictUnit.rd · Objs.dom_inc d) (State.setTrk_dict ..)
    · exact (congrArg Tracker.inc (State.setTrk_trk ..)).trans (by rw [hb.trk])
    · exact congrArg Tracker.pendInc (State.setTrk_trk ..)
  · exact timeSnapshot_effects h

end Sys2Proof.Machine
end

section
/-! States of no run whose journal_channel names no channel (its range is 0 to 63 and 255): the model numbers the record of an accepted write
in an object of another chapter, beside its own store (O21, O42, O51, O52, O53). -/

namespace Sys2Proof.Machine

/-- The number of a channel whose sequence number, as the model numbers it, has the key of `o` at `i`. -/
def strayChannel (o : Obj) (i : Nat) : Nat := (o.key i / 256 - 0x7803) * 64 + (o.key i % 256 - 1)

/-- A state whose journal goes to that channel, while the stream port is enabled. -/
def strayJournal (o : Obj) (i : Nat) : State := (State.reset.wr Objs.journal_channel 0 (strayChannel o i)).wr Objs.str_enable 0 1

/-! ## A path enable (O42) -/

theorem strayJournal_pathEnable : Accepted .sdp (pathObj 0) 0 [1] (pathCheck 0) (strayJournal Objs.journal_next_seq 0) ∧
    (pathWrite 0 .sdp 0 [1] (strayJournal Objs.journal_next_seq 0)).rd Objs.journal_next_seq = 2 ∧
    (strayJournal Objs.journal_next_seq 0).rd Objs.journal_next_seq = 0 := by decide +kernel

/-- Refutes O42, in its clause on a path enable: the type of a state admits a value of journal_channel that names no channel. The write adds
its entry, which takes number 0, and the offer of that entry counts on in journal_next_seq itself, which goes on by 2. -/
theorem not_dictionaryWritesStore : ¬ Obligations.DictionaryWritesStore := by
  intro h
  obtain ⟨haccepted, htwo, hzero⟩ := strayJournal_pathEnable
  obtain ⟨-, enables, -⟩ := h .sdp [1] (strayJournal Objs.journal_next_seq 0)
  obtain ⟨t, hexec, -, -, ⟨hnext, -⟩, -⟩ := enables 0 haccepted
  obtain rfl : pathWrite 0 .sdp 0 [1] (strayJournal Objs.journal_next_seq 0) = t := Host.Outcome.next.inj hexec
  rw [htwo, hzero] at hnext
  exact absurd hnext (by decide)

/-! ## A source's configuration (O21) -/

theorem strayJournal_evConfig : Accepted .sdp (evObj 0) 0 [0] (evCheck 0 0) (strayJournal Objs.ev_reaction 0) ∧
    (evConfig .sdp 0 0 [0] (strayJournal Objs.ev_reaction 0)).rd Objs.ev_reaction 0 = 1 := by decide +kernel

/-- Refutes O21, in its clause on a source's configuration: the offer of the entry that journals a write of ev_reaction counts on in
ev_reaction itself, where journal_channel names no channel. -/
theorem not_faultManagerObjects : ¬ Obligations.FaultManagerObjects := by
  intro h
  obtain ⟨haccepted, hone⟩ := strayJournal_evConfig
  obtain ⟨-, configures, -⟩ := h .sdp [0] (strayJournal Objs.ev_reaction 0)
  obtain ⟨t, hexec, -, hvalue⟩ := configures 0 0 haccepted
  obtain rfl : evConfig .sdp 0 0 [0] (strayJournal Objs.ev_reaction 0) = t := Host.Outcome.next.inj hexec
  exact absurd (hone.symm.trans hvalue) (by decide)

/-! ## A sampler's configuration (O51) -/

/-- A write of zeros to sampler_cfg 0. -/
def samplerOff (s : State) : State :=
  writeObj .sdp Objs.sampler_cfg 0 (List.replicate 16 0) samplerCheck (fun _ => samplerApply 0) s

theorem strayJournal_sampler :
    Accepted .sdp Objs.sampler_cfg 0 (List.replicate 16 0) samplerCheck (strayJournal Objs.sampler_cfg 0) ∧
      (samplerOff (strayJournal Objs.sampler_cfg 0)).rd Objs.sampler_cfg 0 = 1 := by decide +kernel

/-- Refutes O51, in its clause on a sampler's configuration: the offer of the entry that journals a write of sampler_cfg counts on in
sampler_cfg itself, where journal_channel names no channel. -/
theorem not_eftWatches : ¬ Obligations.EftWatches := by
  intro h
  obtain ⟨haccepted, hone⟩ := strayJournal_sampler
  obtain ⟨-, -, samplers, -⟩ := h (strayJournal Objs.sampler_cfg 0)
  obtain ⟨-, -, -, -, -, -, -, -, configures⟩ := samplers 0 0
  obtain ⟨t, hexec, -, hvalue, -⟩ := configures .sdp _ haccepted
  obtain rfl : samplerOff (strayJournal Objs.sampler_cfg 0) = t := Host.Outcome.next.inj hexec
  exact absurd (hone.symm.trans hvalue) (by decide)

/-! ## A breakpoint (O52) -/

/-- A write of zeros to breakpoint 0. -/
def breakpointOff (s : State) : State := writeObj .sdp Objs.breakpoint 0 (List.replicate 8 0) bpWriteCheck noApply s

theorem strayJournal_breakpoint : Accepted .sdp Objs.breakpoint 0 (List.replicate 8 0) bpWriteCheck (strayJournal Objs.breakpoint 0) ∧
    (breakpointOff (strayJournal Objs.breakpoint 0)).rd Objs.breakpoint 0 = 1 := by decide +kernel

/-- Refutes O52, in its clause on a breakpoint: the offer of the entry that journals a write of a breakpoint counts on in the breakpoint
itself, where journal_channel names no channel. -/
theorem not_debugHaltsThreads : ¬ Obligations.DebugHaltsThreads := by
  intro h
  obtain ⟨haccepted, hone⟩ := strayJournal_breakpoint
  obtain ⟨-, -, -, -, -, -, breakpoints⟩ := h .sdp (List.replicate 8 0) (strayJournal Objs.breakpoint 0)
  obtain ⟨t, hexec, -, hvalue, -⟩ := breakpoints 0 0 haccepted
  obtain rfl : breakpointOff (strayJournal Objs.breakpoint 0) = t := Host.Outcome.next.inj hexec
  exact absurd (hone.symm.trans hvalue) (by decide)

/-! ## A lane's pattern (O53) -/

/-- A write of zero to lane_prbs 0. -/
def prbsOff (s : State) : State :=
  writeObj .sdp Objs.lane_prbs 0 [0] (prbsCheck 0) (fun _ s => prbsSeen 0 none (prbsApply 0 s)) s

theorem strayJournal_prbs : Accepted .sdp Objs.lane_prbs 0 [0] (prbsCheck 0) (strayJournal Objs.lane_prbs 0) ∧
    (prbsOff (strayJournal Objs.lane_prbs 0)).rd Objs.lane_prbs 0 = 1 := by decide +kernel

/-- Refutes O53, in its clause on a lane's pattern: the offer of the entry that journals a write of lane_prbs counts on in lane_prbs itself,
where journal_channel names no channel. -/
theorem not_traceMemoryAndPatterns : ¬ Obligations.TraceMemoryAndPatterns := by
  intro h
  obtain ⟨haccepted, hone⟩ := strayJournal_prbs
  obtain ⟨-, -, -, patterns⟩ := h .sdp [0] (strayJournal Objs.lane_prbs 0)
  obtain ⟨t, hexec, -, hvalue, -⟩ := patterns 0 none haccepted
  obtain rfl : prbsOff (strayJournal Objs.lane_prbs 0) = t := Host.Outcome.next.inj hexec
  exact absurd (hone.symm.trans hvalue) (by decide)

end Sys2Proof.Machine
end

section
/-! States of no run whose channels are out of their range (R483 has 64 channels, and 255 names none): the model numbers the record it offers in an
object of another chapter (O20, O47, O50). -/

namespace Sys2Proof.Machine

/-- A state whose event records go to a channel whose sequence number has the key of the count of source `src`. -/
def strayEvents (src : Nat) : State := State.reset.wr Objs.str_event_channel 0 (strayChannel Objs.ev_count src)

/-! ## An occurrence (O20) -/

/-- An occurrence of EV216, a doorbell that goes back. -/
def doorbellBack : Occ := ⟨216, 0, 0, 0, 0, 0, none, 0⟩

/-- Such a state in which that occurrence waits; its record is logged and a copy of it offered (R501), and autotomy is off. -/
def strayDoorbell : State :=
  let s := ((strayEvents 216).wr Objs.fm_autotomy_enable 0 0).wr Objs.ev_reaction 216 3
  { s with fm := { s.fm with raised := [doorbellBack] } }

theorem strayDoorbell_eventCount : strayDoorbell.rd Objs.fm_autotomy_enable = 0 ∧ strayDoorbell.rd Objs.ev_count 216 = 0 ∧
    (eventOccurrence strayDoorbell .none).rd Objs.ev_count 216 = 2 := by decide +kernel

/-- Refutes O20, in its clause on the count: the type of a state admits a value of str_event_channel that names no channel. One occurrence is
taken, and the offer of its record counts on in the source's ev_count itself, which goes on by 2. -/
theorem not_occurrenceIsTaken : ¬ Obligations.OccurrenceIsTaken := by
  intro h
  obtain ⟨hautotomy, hzero, htwo⟩ := strayDoorbell_eventCount
  obtain ⟨t, hexec, hcount, -⟩ := h doorbellBack strayDoorbell rfl hautotomy (by decide)
  obtain rfl : eventOccurrence strayDoorbell .none = t := Host.Outcome.next.inj hexec
  rw [show doorbellBack.src = 216 from rfl, htwo, hzero] at hcount
  exact absurd hcount (by decide)

/-! ## A thermal trip (O50) -/

theorem strayEvents_thermalTrip : (strayEvents 235).fm.safe = false ∧ (strayEvents 235).fm.raised = [] ∧
    (strayEvents 235).rd Objs.ev_count 235 = 0 ∧ ((strayEvents 235).raise 235 0).takeNext.rd Objs.ev_count 235 = 2 := by decide +kernel

/-- Refutes O50, in its clause on the thermal trip: the offer of the record of EV235 counts on in the source's ev_count itself, which goes on
by 2, where str_event_channel names no channel. -/
theorem not_railsClocksAndTemperature : ¬ Obligations.RailsClocksAndTemperature := by
  intro h
  obtain ⟨hsafe, hraised, hzero, htwo⟩ := strayEvents_thermalTrip
  obtain ⟨-, -, -, -, lines, -⟩ := h (strayEvents 235)
  obtain ⟨-, -, t, hexec, -, -, -, -, hcount, -⟩ := lines hsafe (by simp [hraised])
  obtain rfl : ((strayEvents 235).raise 235 0).takeNext = t := Host.Outcome.next.inj hexec
  rw [htwo, hzero] at hcount
  exact absurd hcount (by decide)

/-! ## A burst (O47) -/

/-- A record of one byte that waits in a channel. -/
def waitingRecord : StrRec := ⟨[0], .none, 0, [], false⟩

/-- An entry of the journal that is neither exported nor in its channel. -/
def waitingEntry : JEntry := ⟨0, 0, 0, 0, 0, 0, 0, 0, 0, false, false⟩

/-- Such a state in which the entry waits, the link is up, and channel 0 holds the record and is XON. -/
def strayBurst : State :=
  let s := (strayJournal Objs.str_records 0).wr Objs.str_link_state 0 2
  { s with str := { s.str with chans := [(0, ⟨[waitingRecord], 0, 0, 0⟩)], xon := 1, fcLost := false, rr := 63 },
           dict := { s.dict with journal := [waitingEntry] } }

theorem strayBurst_records : nextChan strayBurst = some 0 ∧ (strayBurst.chan 0).recs = [waitingRecord] ∧ strayBurst.headLost 0 = false ∧
    (strayBurst.chan 0).sent = 0 ∧ strayBurst.rd Objs.str_records 0 = 0 ∧
    (strBurstSend .good strayBurst).rd Objs.str_records 0 = 2 := by decide +kernel

/-- Refutes O47, in its clause on a burst: the burst sends a record's last bytes, and the offer of a waiting entry of the journal counts on in
the channel's str_records, which goes on by 2, where journal_channel names no channel. -/
theorem not_streamPortCommands : ¬ Obligations.StreamPortCommands := by
  intro h
  obtain ⟨hnext, hrecs, hhead, hsent, hzero, htwo⟩ := strayBurst_records
  obtain ⟨-, -, -, -, -, -, bursts, -⟩ := h strayBurst
  obtain ⟨sends, -⟩ := bursts 0 waitingRecord [] hnext hrecs
  obtain ⟨⟨t, hexec, ⟨_, -, -, hlast, -⟩, -⟩, -⟩ := sends hhead
  obtain rfl : strBurstSend .good strayBurst = t := Host.Outcome.next.inj hexec
  obtain ⟨-, -, hrecords⟩ := hlast (by rw [hsent]; decide)
  rw [htwo, hzero] at hrecords
  exact absurd hrecords (by decide)

end Sys2Proof.Machine
end

section
/-! One part of a state from the frame of a function. -/

namespace Sys2Proof.Machine

/-- Every piece but those of a part. -/
def Part.others (p : Part) : Piece → Bool := fun q => decide (q.part ≠ p)

/-- A function whose frame leaves a part out keeps it. -/
theorem Part.same_of_others {p : Part} {s t : State} (h : t.off p.others = s.off p.others) : p.same s t :=
  Part.same_of_off h fun q hq => by simp [Part.others, hq]

end Sys2Proof.Machine
end

section
/-! What the locks that a ring gives up, the items it drops and the hues that their packets held leave of the dictionary's objects and of the
host interface (R432, R438, R439). -/

namespace Sys2Proof.Machine

/-! ## Objects -/

section
variable {P : Nat → Prop}

/-- `P` tells none of the counters of inserts that a lock lets go on. -/
abbrev SparesInserts (P : Nat → Prop) : Prop := ¬ P (Objs.ins_full.key 0) ∧ ¬ P (Objs.rec_unavailable.key 0)

theorem insertStatus_keeps (hP : SparesInserts P) (s : State) (x : Thread) (h : Handle) : KeepsObjs P s (insertStatus s x h).2.2 := by
  obtain ⟨hfull, hvoid⟩ := hP
  unfold insertStatus
  split_ifs
  · exact .refl s
  · exact .refl s
  · exact s.bump_raise_keepsObjs _ _ _ _ _ _ hfull (by decide)
  · exact s.bump_raise_keepsObjs _ _ _ _ _ _ hvoid (by decide)
  · split
    · exact s.bump_raise_keepsObjs _ _ _ _ _ _ hfull (by decide)
    · exact .of_units rfl rfl

theorem acceptOp_keeps (hP : SparesInserts P) (s : State) (t : Nat) (o : LeapOp) : KeepsObjs P s (acceptOp s t o) := by
  unfold acceptOp
  dsimp only
  split
  · exact .refl s
  · split
    · exact (insertStatus_keeps hP s _ _).trans (.of_units rfl rfl)
    · exact .of_units rfl rfl
    · exact .of_units rfl rfl

theorem State.settleLock_keeps (hP : SparesInserts P) (s : State) (t : Nat) : KeepsObjs P s (s.settleLock t) := by
  unfold State.settleLock
  dsimp only
  split
  · exact .refl s
  · split
    · exact .refl s
    · exact .ite (.refl s) (acceptOp_keeps hP s t _)

theorem State.dropLocks_keeps (hP : SparesInserts P) (s : State) (o : Owner) : KeepsObjs P s (s.dropLocks o) :=
  .of_updated (.foldl (fun t _ => t.settleLock_keeps hP _) _ _) rfl rfl

theorem State.releaseRing_keeps (hP : SparesInserts P) (hr : ∀ r, ¬ P (Objs.locks_released.key r)) (s : State) (r : Nat) :
    KeepsObjs P s (s.releaseRing r) :=
  .ite (s.dropLocks_keeps hP _) ((s.dropLocks_keeps hP _).trans
    (State.bump_raise_keepsObjs _ _ _ _ _ _ _ (hr r) (by simp only [Obj.key, idKey]; omega)))

theorem State.releaseAll_keeps (hP : SparesInserts P) (hr : ∀ r, ¬ P (Objs.locks_released.key r)) (s : State) : KeepsObjs P s s.releaseAll :=
  .foldl (fun t r => t.releaseRing_keeps hP hr r) _ s

theorem State.holdEnd_keeps (hP : ¬ P (Objs.hue_oldest.key 0)) (s : State) (pid : Nat) : KeepsObjs P s (s.holdEnd pid) := by
  unfold State.holdEnd
  split
  · exact .refl s
  · exact .ite (.of_units rfl rfl) (.of_updated (reclaim_keepsObjs hP 4 _) rfl rfl)

theorem State.dropDelivery_keeps (hP : ¬ P (Objs.hue_oldest.key 0)) (hr : ∀ r, ¬ P (Objs.dlv_drop.key r)) (s : State) (it : DItem) :
    KeepsObjs P s (s.dropDelivery it) := by
  have dropped (x : DelRing) : KeepsObjs P s (((s.setDr it.ring x).bump Objs.dlv_drop it.ring).raise 211 it.ring) :=
    .of_updated (State.bump_raise_keepsObjs (s.setDr it.ring x) _ _ _ _ _ _ (hr _) (by simp only [Obj.key, idKey]; omega)) rfl rfl
  unfold State.dropDelivery
  dsimp only
  split
  · exact (dropped _).trans (State.holdEnd_keeps hP ..)
  · exact dropped _

theorem State.dropAllItems_keeps (hP : ¬ P (Objs.hue_oldest.key 0)) (hr : ∀ r, ¬ P (Objs.dlv_drop.key r)) (s : State) :
    KeepsObjs P s s.dropAllItems :=
  .of_updated (.foldl (fun t it => t.dropDelivery_keeps hP hr it) _ _) rfl rfl

theorem State.dropInjected_keeps (hP : ¬ P (Objs.hue_oldest.key 0)) (s : State) : KeepsObjs P s s.dropInjected :=
  .of_updated (.foldl (fun t (it : TmItem) => t.holdEnd_keeps hP it.pid) _ _) rfl rfl

end

/-! ## The host interface -/

theorem State.holdEnd_host (s : State) (pid : Nat) : (s.holdEnd pid).host = s.host :=
  Part.same_of_others (p := .host) (State.holdEnd_off (by decide) s pid)

theorem State.releaseRing_host (s : State) (r : Nat) : (s.releaseRing r).host = s.host :=
  Part.same_of_others (p := .host) (State.releaseRing_off (by decide) s r)

theorem State.releaseAll_host (s : State) : s.releaseAll.host = s.host :=
  Part.same_of_others (p := .host) (State.releaseAll_off (by decide) s)

theorem State.dropInjected_host (s : State) : s.dropInjected.host = s.host :=
  Part.same_of_others (p := .host) (State.dropInjected_off (by decide) s)

/-- An item that is dropped changes a delivery ring, and nothing else of the host interface. -/
structure KeepsRings (s t : State) : Prop where
  cmd : t.host.cmd = s.host.cmd
  items : t.host.items = s.host.items
  pcie : t.host.pcie = s.host.pcie

theorem KeepsRings.trans {s t u : State} (h : KeepsRings s t) (h' : KeepsRings t u) : KeepsRings s u :=
  ⟨h'.cmd.trans h.cmd, h'.items.trans h.items, h'.pcie.trans h.pcie⟩

theorem State.dropDelivery_keepsRings (s : State) (it : DItem) : KeepsRings s (s.dropDelivery it) := by
  unfold State.dropDelivery
  dsimp only
  split
  · exact KeepsRings.trans (t := ((s.setDr it.ring _).bump Objs.dlv_drop it.ring).raise 211 it.ring) ⟨rfl, rfl, rfl⟩ (by
      constructor <;> rw [State.holdEnd_host])
  · exact ⟨rfl, rfl, rfl⟩

/-- The host interface with no item left and no entry of a delivery ring held. -/
theorem State.dropAllItems_host (s : State) : s.dropAllItems.host.cmd = s.host.cmd ∧ s.dropAllItems.host.items = [] ∧
    s.dropAllItems.host.pcie = s.host.pcie := by
  unfold State.dropAllItems
  dsimp only
  generalize hu : ({ s with host := { s.host with del := _, items := [] } } : State) = u
  have dropped (l : List DItem) : KeepsRings u (l.foldl (fun (s : State) it => s.dropDelivery it) u) :=
    List.foldlRecOn (motive := KeepsRings u) l _ ⟨rfl, rfl, rfl⟩ fun t ht it _ => ht.trans (t.dropDelivery_keepsRings it)
  obtain ⟨hcmd, hitems, hpcie⟩ := dropped (List.flatMap (fun p => p.2.hold) s.host.del ++ s.host.items)
  subst hu
  exact ⟨hcmd, hitems, hpcie⟩

/-! ## A ring-level error (R439) -/

/-- The keys of hi_state, hi_halt_cause and hi_halt_ring. -/
abbrev HaltKey (k : Nat) : Prop := 0x700001 ≤ k ∧ k ≤ 0x700003

theorem haltKey_sparesInserts : SparesInserts HaltKey := by decide

theorem locks_released_not_haltKey (r : Nat) : ¬ HaltKey (Objs.locks_released.key r) := by
  simp only [Obj.key, HaltKey]
  omega

theorem dlv_drop_not_haltKey (r : Nat) : ¬ HaltKey (Objs.dlv_drop.key r) := by
  simp only [Obj.key, HaltKey]
  omega

/-- What a function that has not halted shows once it halts. -/
structure Halted (cause ring : Nat) (t : State) : Prop where
  state : t.rd Objs.hi_state = 1
  cause : t.rd Objs.hi_halt_cause = cause
  ring : t.rd Objs.hi_halt_ring = ring
  items : t.host.items = []
  busy : ∀ k, (t.cr k).busy = none

/-- The objects of R439 at a ring-level error, with its event and its vector. -/
def State.haltRecorded (s : State) (cause ring : Nat) : State :=
  let s1 := ((s.wr Objs.hi_halt_cause 0 cause).wr Objs.hi_halt_ring 0 ring).wr Objs.hi_halt_time 0 s.wStamp
  (((s1.bump Objs.hi_halts).raise 208 0).msix (s1.rd Objs.err_vector)).wr Objs.hi_state 0 1

/-- No entry of a command ring is in execution. -/
def State.noneBusy (s : State) : State :=
  { s with host := { s.host with cmd := s.host.cmd.map (fun p => (p.1, { p.2 with busy := none })) } }

/-- What a function lets go as it halts. -/
def State.letGo (s : State) : State := s.noneBusy.dropInjected.forgetRings.dropAllItems

theorem State.hostHalt_eq {s : State} (h : s.hostHalted = false) (cause ring : Nat) :
    s.hostHalt cause ring = (s.haltRecorded cause ring).releaseAll.letGo := by
  simp only [State.hostHalt, h, Bool.false_eq_true, if_false, State.haltRecorded, State.noneBusy, State.letGo]

theorem State.haltRecorded_rd (s : State) (cause ring : Nat) : (s.haltRecorded cause ring).rd Objs.hi_state = 1 ∧
    (s.haltRecorded cause ring).rd Objs.hi_halt_cause = cause ∧ (s.haltRecorded cause ring).rd Objs.hi_halt_ring = ring := by
  have told (t : State) (v : Nat) : KeepsObjs (fun k => 0x700002 ≤ k ∧ k ≤ 0x700003) t
      ((((t.wr Objs.hi_halt_time 0 s.wStamp).bump Objs.hi_halts).raise 208 0).msix v |>.wr Objs.hi_state 0 1) :=
    ((((t.wr_keepsObjs _ (by decide) (by decide)).trans (State.bump_raise_keepsObjs _ _ _ _ _ _ _ (by decide) (by decide))).trans
      (State.msix_keepsObjs ..)).trans (State.wr_keepsObjs _ _ (by decide) (by decide)))
  refine ⟨DictUnit.rd_wr_same (by decide), ?_, ?_⟩
  · exact ((told _ _).rd _ _ (by decide)).trans ((DictUnit.rd_wr_other (by decide) (by decide)).trans (DictUnit.rd_wr_same (by decide)))
  · exact ((told _ _).rd _ _ (by decide)).trans (DictUnit.rd_wr_same (by decide))

theorem State.noneBusy_cr (s : State) (k : Nat) : (s.noneBusy.cr k).busy = none := by
  unfold State.cr State.noneBusy tget
  dsimp only
  generalize s.host.cmd = l
  induction l with
  | nil => rfl
  | cons p l ih =>
    obtain ⟨j, x⟩ := p
    rw [List.map_cons, tfind]
    split
    · rfl
    · exact ih

theorem State.noneBusy_keeps {P : Nat → Prop} (s : State) : KeepsObjs P s s.noneBusy := .of_units rfl rfl

theorem State.forgetRings_keeps {P : Nat → Prop} (s : State) : KeepsObjs P s s.forgetRings := .of_units rfl rfl

theorem State.forgetRings_host (s : State) : s.forgetRings.host = s.host := rfl

theorem State.letGo_keeps (s : State) : KeepsObjs HaltKey s s.letGo :=
  ((s.noneBusy_keeps.trans (State.dropInjected_keeps (by decide) s.noneBusy)).trans (State.forgetRings_keeps _)).trans
    (State.dropAllItems_keeps (by decide) dlv_drop_not_haltKey _)

theorem State.letGo_host (s : State) : s.letGo.host.cmd = s.noneBusy.host.cmd ∧ s.letGo.host.items = [] := by
  obtain ⟨hcmd, hitems, -⟩ := s.noneBusy.dropInjected.forgetRings.dropAllItems_host
  refine ⟨hcmd.trans ?_, hitems⟩
  rw [State.forgetRings_host, State.dropInjected_host]

theorem State.hostHalt_halted {s : State} (h : s.hostHalted = false) (cause ring : Nat) : Halted cause ring (s.hostHalt cause ring) := by
  rw [State.hostHalt_eq h]
  obtain ⟨hstate, hcause, hring⟩ := s.haltRecorded_rd cause ring
  have kept := (State.releaseAll_keeps haltKey_sparesInserts locks_released_not_haltKey (s.haltRecorded cause ring)).trans (State.letGo_keeps _)
  obtain ⟨hcmd, hitems⟩ := (s.haltRecorded cause ring).releaseAll.letGo_host
  refine ⟨(kept.rd _ _ (by decide)).trans hstate, (kept.rd _ _ (by decide)).trans hcause, (kept.rd _ _ (by decide)).trans hring, hitems, ?_⟩
  intro k
  have busy := (s.haltRecorded cause ring).releaseAll.noneBusy_cr k
  rw [State.cr, ← hcmd] at busy
  exact busy

end Sys2Proof.Machine
end

section
/-! The doorbells and the control registers of the rings (O22). -/

namespace Sys2Proof.Machine

/-! ## Locks that a ring gives up (R432) -/

theorem acceptOp_locks (s : State) (t : Nat) (o : LeapOp) : (acceptOp s t o).fsu.locks = s.fsu.locks := by
  have placed (x : Thread) (h : Handle) : (insertStatus s x h).2.2.fsu.locks = s.fsu.locks := by
    unfold insertStatus
    split_ifs
    · rfl
    · rfl
    · rfl
    · rfl
    · split <;> rfl
  unfold acceptOp
  dsimp only
  split
  · rfl
  · split
    · exact placed _ _
    · rfl
    · rfl

theorem State.settleLock_locks (s : State) (t : Nat) : (s.settleLock t).fsu.locks = s.fsu.locks := by
  unfold State.settleLock
  dsimp only
  split
  · rfl
  · split
    · rfl
    · split
      · rfl
      · exact acceptOp_locks ..

theorem State.settleLocks_locks (s : State) : s.settleLocks.fsu.locks = s.fsu.locks :=
  List.foldlRecOn (motive := fun (t : State) => t.fsu.locks = s.fsu.locks) _ _ rfl fun t ht _ _ => (t.settleLock_locks _).trans ht

/-- Of the locks of an owner only those stay that an insert in execution waits for, and none of them is granted. -/
theorem State.dropLocks_heldLocks (s : State) (o : Owner) : (s.dropLocks o).heldLocks o = 0 := by
  have htbl : (s.dropLocks o).tbl.macLocks = s.tbl.macLocks.filter (fun p => decide (p.2 ≠ o)) :=
    congrArg TableUnit.macLocks (Part.same_of_others (p := .tbl) (State.settleLocks_off (by decide) _))
  unfold State.heldLocks
  rw [htbl, State.dropLocks, State.settleLocks_locks, Nat.add_eq_zero_iff, List.length_eq_zero_iff, List.length_eq_zero_iff]
  simp only [List.filter_filter, List.filter_eq_nil_iff]
  constructor
  · intro l _
    cases l.granted <;> simp
  · simp

theorem State.releaseRing_heldLocks (s : State) (r : Nat) : (s.releaseRing r).heldLocks (.ring r) = 0 := by
  unfold State.releaseRing
  dsimp only
  split <;> exact s.dropLocks_heldLocks (.ring r)

/-! ## The stop of a ring (R434) -/

theorem abortRest_of_empty {s : State} {r : Nat} (h : (s.cr r).h = (s.cr r).p) (n : Nat) : abortRest n r s = s := by
  cases n with
  | zero => rfl
  | succ n => rw [abortRest, if_pos h]

theorem State.abortIrqs_of_empty (s : State) {x : CmdRing} (h : x.h = x.p) : s.abortIrqs x = s := by
  have none : (x.p + 2 ^ 32 - x.h) % 2 ^ 32 = 0 := by omega
  simp only [State.abortIrqs, none, List.take_zero, List.filter_nil, List.foldl_nil, ite_self]

/-- A ring without an entry ends at once. -/
theorem State.finishStop_of_empty {s : State} {r : Nat} (h : (s.cr r).h = (s.cr r).p) :
    ((s.finishStop r).cr r).st = .disabled ∧ Output.hostWrite (s.cr r).wb (leBytes 4 (s.cr r).p) ∈ (s.finishStop r).outbox ∧
      (s.finishStop r).heldLocks (.ring r) = 0 := by
  unfold State.finishStop
  dsimp only
  rw [abortRest_of_empty h, State.abortIrqs_of_empty _ h]
  refine ⟨?_, ?_, State.releaseRing_heldLocks ..⟩
  · rw [State.cr, State.releaseRing_host]
    exact congrArg CmdRing.st (tget_tset_same ..)
  · rw [show (State.releaseRing _ r).outbox = _ from Part.same_of_others (p := .outbox) (State.releaseRing_off (by decide) _ r)]
    exact List.mem_append_right _ (List.mem_singleton_self _)

/-! ## Registers written beside CTRL (log 71) -/

theorem State.hostReg_rings (s : State) (g : HostReg) : (s.hostReg g).host.cmd = s.host.cmd ∧ (s.hostReg g).hostHalted = s.hostHalted := by
  have told (t : State) (v : Nat) : (t.msix v).host.cmd = t.host.cmd ∧ (t.msix v).hostHalted = t.hostHalted := by
    unfold State.msix
    dsimp only
    split <;> exact ⟨rfl, rfl⟩
  cases g with
  | msix v e =>
    simp only [State.hostReg]
    split
    · exact told _ _
    · exact ⟨rfl, rfl⟩
  | mbRequest off l =>
    simp only [State.hostReg, State.mbWrite]
    split
    · exact ⟨rfl, congrArg (· == 1) (DictUnit.rd_wr_other (by decide) (by decide))⟩
    · exact ⟨rfl, rfl⟩
  | power d => exact ⟨rfl, rfl⟩
  | aer c u => exact ⟨rfl, rfl⟩
  | control a b => exact ⟨rfl, rfl⟩
  | mbCtrl v => exact ⟨rfl, rfl⟩

theorem State.hostRegs_rings (regs : List HostReg) (s : State) : (regs.foldl State.hostReg s).host.cmd = s.host.cmd ∧
    (regs.foldl State.hostReg s).hostHalted = s.hostHalted :=
  List.foldlRecOn (motive := fun (t : State) => t.host.cmd = s.host.cmd ∧ t.hostHalted = s.hostHalted) regs _ ⟨rfl, rfl⟩
    fun t ht g _ => ⟨(t.hostReg_rings g).1.trans ht.1, (t.hostReg_rings g).2.trans ht.2⟩

/-- A doorbell that goes back. -/
theorem State.dbIgnored_raised (s : State) (r unit : Nat) : (s.dbIgnored r unit).host = s.host ∧ Raised 216 unit s (s.dbIgnored r unit) :=
  ⟨rfl, _, rfl, rfl, rfl⟩

section
variable {s : State} {r : Nat}

theorem crCtrlWrite_starts {base wb v : Nat} (hhost : s.hostHalted = false) (hst : (s.cr r).st = .disabled) (hen : bit v 0 = true)
    (hsize : log2Ok (fld v 8 5) = true) (hbase : base % 4096 = 0) (hwb : wb % 8 = 0) (posted : List Nat) :
    crCtrlWrite s r base wb v posted = s.setCr r { s.cr r with
      base := base, wb := wb, ctrl := setFld (crCtrlClean v) 0 1 0 + 1, st := .running, h := 0, p := 0, posted := [] } := by
  unfold crCtrlWrite
  simp only [hhost, hst, hen, hsize, hbase, hwb, ne_eq, not_true, or_self, Bool.false_eq_true, Bool.true_eq_false, if_false]

theorem drCtrlWrite_starts {g : DelRegs} {v : Nat} (hhost : s.hostHalted = false) (hoff : (s.dr r).running = false) (hen : bit v 0 = true)
    (hsize : log2Ok (fld v 8 5) = true) (hbuf : log2Ok (fld v 3 5) = true) (hbase : g.base.toNat % 4096 = 0) (hwb : g.wb.toNat % 8 = 0)
    (hbr : g.brBase.toNat % 4096 = 0) :
    drCtrlWrite s r g v = s.setDr r { s.dr r with
      base := g.base.toNat, wb := g.wb.toNat, brBase := g.brBase.toNat, holdLimit := g.holdLimit.val, coalTime := g.coalTime.val,
      ctrl := setFld (drCtrlClean v) 0 1 0 + 1, running := true, h := 0, p := 0, pb := 0, unsig := 0, unsigSince := 0 } := by
  unfold drCtrlWrite
  simp only [hhost, hoff, hen, hsize, hbuf, hbase, hwb, hbr, ne_eq, not_true, or_self, Bool.false_eq_true, Bool.true_eq_false, if_false]

theorem crStop_ends {posted : List Nat} (hrun : (s.cr r).st = .running) (hhost : s.hostHalted = false) (hstop : bit (s.cr r).ctrl 1 = true)
    (hbusy : (s.cr r).busy = none) :
    crStop s r posted = (s.setCr r { s.cr r with st := .stopping, posted := posted }).finishStop r := by
  unfold crStop
  simp only [hrun, hhost, hstop, hbusy, ne_eq, not_true, or_self, Bool.false_eq_true, Bool.true_eq_false, if_false]

end

/-- A write of CTRL takes the registers written beside it first. -/
theorem exec_crCtrlWrite (r : Fin 64) (base wb : BitVec 64) (v : BitVec 32) (posted : List (BitVec 8)) (regs : List HostReg) (s : State) :
    exec (.crCtrlWrite r base wb v posted regs) s =
      .next (crCtrlWrite (regs.foldl State.hostReg s) r base.toNat wb.toNat v.toNat (posted.map (·.toNat))) := rfl

theorem exec_crStop (r : Fin 64) (posted : List (BitVec 8)) (s : State) :
    exec (.crStop r posted) s = .next (crStop s r (posted.map (·.toNat))) := rfl

/-- Settles O22: each clause is the branch of the ring's function that its hypotheses choose. -/
theorem ringRegisters : Obligations.RingRegisters := by
  unfold Obligations.RingRegisters
  intro r d s hhost
  have runs (x : RingState) (h : x = .running) : ¬ (x ≠ .running ∨ s.hostHalted = true) := by simp [h, hhost]
  have on (x : Bool) (h : x = true) : ¬ (x = false ∨ s.hostHalted = true) := by simp [h, hhost]
  refine ⟨?_, ?_, ?_, ?_, ?_, ?_, ?_, ?_⟩
  · intro hrun hnew hroom
    refine ⟨crDoorbell s r d.toNat, rfl, ?_⟩
    have taken : crDoorbell s r d.toNat = s.setCr r { s.cr r with p := d.toNat } := by
      rw [crDoorbell, if_neg (runs _ hrun), if_neg (not_lt.2 hnew), if_neg (not_lt.2 hroom)]
    rw [taken]
    exact ⟨congrArg CmdRing.p (tget_tset_same ..), rfl⟩
  · intro hrun hnew hroom
    refine ⟨crDoorbell s r d.toNat, rfl, ?_⟩
    rw [crDoorbell, if_neg (runs _ hrun), if_neg (not_lt.2 hnew), if_pos hroom]
    have halted := State.hostHalt_halted hhost 1 r
    exact ⟨halted.state, halted.cause, halted.ring, halted.items⟩
  · intro hrun hold
    refine ⟨crDoorbell s r d.toNat, rfl, ?_⟩
    rw [crDoorbell, if_neg (runs _ hrun), if_pos hold]
    exact s.dbIgnored_raised r r
  · intro hrun hnew hwritten
    refine ⟨drDoorbell s r d.toNat, rfl, ?_⟩
    rw [drDoorbell, if_neg (on _ hrun), if_neg (not_lt.2 hnew), if_neg (not_lt.2 hwritten)]
  · intro hrun hnew hroom
    refine ⟨brDoorbell s r d.toNat, rfl, ?_⟩
    rw [brDoorbell, if_neg (on _ hrun), if_neg (not_lt.2 hnew), if_neg (not_lt.2 hroom)]
  · intro base wb v posted regs hdisabled hen hsize hbase hwb
    obtain ⟨hcmd, hhalt⟩ := State.hostRegs_rings regs s
    have hst : ((regs.foldl State.hostReg s).cr r).st = .disabled := by rw [State.cr, hcmd]; exact hdisabled
    refine ⟨_, exec_crCtrlWrite .., ?_⟩
    rw [crCtrlWrite_starts (hhalt.trans hhost) hst hen hsize hbase hwb, State.cr, State.setCr, tget_tset_same]
    exact ⟨rfl, rfl, rfl, rfl, rfl⟩
  · intro posted hrun hstop hbusy hempty
    refine ⟨_, exec_crStop .., ?_⟩
    rw [crStop_ends hrun hhost hstop hbusy]
    have own : (s.setCr r { s.cr r with st := .stopping, posted := posted.map (·.toNat) }).cr r =
        { s.cr r with st := .stopping, posted := posted.map (·.toNat) } := tget_tset_same ..
    have ended := State.finishStop_of_empty (s := s.setCr r { s.cr r with st := .stopping, posted := posted.map (·.toNat) }) (r := r)
      (by rw [own]; exact hempty)
    rw [own] at ended
    exact ended
  · intro g v hoff hen hsize hbuf hbase hwb hbr
    refine ⟨drCtrlWrite s r g v.toNat, rfl, ?_⟩
    rw [drCtrlWrite_starts hhost hoff hen hsize hbuf hbase hwb hbr, State.dr, State.setDr, tget_tset_same]
    exact ⟨rfl, rfl, rfl, rfl, rfl⟩

end Sys2Proof.Machine
end

section
/-! Delivery of an item, its timers, and errors and resets of the function (O25). -/

namespace Sys2Proof.Machine

/-! ## A delivery ring -/

section
variable {s : State} {r : Nat}

/-- What the signal of an item leaves. -/
theorem State.signal_effects (s : State) (r : Nat) : ((s.signal r).dr r).p = (s.dr r).p ∧ ((s.signal r).dr r).drops = (s.dr r).drops ∧
    s.outbox ⊆ (s.signal r).outbox ∧ (s.signal r).dict = s.dict := by
  have told (t : State) (v : Nat) : (t.msix v).dr r = t.dr r ∧ t.outbox ⊆ (t.msix v).outbox ∧ (t.msix v).dict = t.dict := by
    unfold State.msix
    dsimp only
    split
    · exact ⟨rfl, fun _ h => h, rfl⟩
    · exact ⟨rfl, List.subset_append_left .., rfl⟩
  unfold State.signal
  dsimp only
  split
  · obtain ⟨hdr, hout, hdict⟩ := told (s.setDr r { s.dr r with unsig := 0, unsigSince := 0 }) (fld (s.dr r).ctrl 16 7)
    rw [hdr, show (s.setDr r _).dr r = _ from tget_tset_same ..]
    exact ⟨rfl, rfl, hout, hdict⟩
  · rw [show (s.setDr r _).dr r = _ from tget_tset_same ..]
    exact ⟨rfl, rfl, fun _ h => h, rfl⟩

/-- What the entry of an item leaves (R437). -/
theorem State.publish_effects (s : State) (r e : Nat) : ((s.publish r e).dr r).p = ((s.dr r).p + 1) % 2 ^ 32 ∧ ((s.publish r e).dr r).drops = 0 ∧
    s.outbox ⊆ (s.publish r e).outbox ∧ (s.publish r e).dict = s.dict := by
  have own : (s.publish r e).dr r = { s.dr r with p := ((s.dr r).p + 1) % 2 ^ 32, drops := 0 } := tget_tset_same ..
  rw [own]
  exact ⟨rfl, rfl, fun _ h => List.mem_append_left _ (List.mem_append_left _ h), rfl⟩

/-- An item that goes into a buffer. -/
structure ItemWritten (r : Nat) (it : DItem) (entry : Nat) (s t : State) : Prop where
  p : (t.dr r).p = ((s.dr r).p + 1) % 2 ^ 32
  drops : (t.dr r).drops = 0
  data : Output.hostWrite (fld entry 0 64) (it.data.take (fld entry 128 32)) ∈ t.outbox
  counted : t.rd Objs.dlv_items r = satAdd 64 (s.rd Objs.dlv_items r) 1

theorem State.writeItem_written (s : State) {it : DItem} {entry : Nat} (hmin : 64 ≤ fld entry 128 32) (hmax : fld entry 128 32 ≤ 65536)
    (hpid : it.pid = none) (hring : it.ring = r) : ∃ t, s.writeItem it entry = (true, t) ∧ ItemWritten r it entry s t := by
  subst hring
  have served : ¬ (fld entry 128 32 < 64 ∨ 65536 < fld entry 128 32) := by omega
  unfold State.writeItem
  simp only [if_neg served, hpid]
  refine ⟨_, rfl, ?_⟩
  generalize hb : s.put (.hostWrite (fld entry 0 64) (it.data.take (fld entry 128 32))) = b
  generalize delEntry it _ _ _ _ _ = e
  obtain ⟨hp, hdrops, hout, hdict⟩ := b.publish_effects it.ring e
  generalize hv : b.publish it.ring e = v at *
  have counted : KeepsObjs (· = Objs.dlv_items.key it.ring) (v.bump Objs.dlv_items it.ring)
      (if decide (fld entry 128 32 < it.data.length) = true then (v.bump Objs.dlv_items it.ring).bump Objs.dlv_truncated it.ring
        else v.bump Objs.dlv_items it.ring) :=
    .ite (State.bump_keepsObjs _ _ (by simp only [Obj.key]; omega) (by simp only [Obj.key, idKey]; omega)) (.refl _)
  have same : ∀ u : State, u = (if decide (fld entry 128 32 < it.data.length) = true then (v.bump Objs.dlv_items it.ring).bump Objs.dlv_truncated it.ring
        else v.bump Objs.dlv_items it.ring) → u.dr it.ring = v.dr it.ring ∧ u.outbox = v.outbox := by
    rintro u rfl
    split <;> exact ⟨rfl, rfl⟩
  generalize hw : (if decide (fld entry 128 32 < it.data.length) = true then (v.bump Objs.dlv_items it.ring).bump Objs.dlv_truncated it.ring
    else v.bump Objs.dlv_items it.ring) = w at *
  obtain ⟨hwdr, hwout⟩ := same w rfl
  obtain ⟨sp, sdrops, sout, sdict⟩ := w.signal_effects it.ring
  refine ⟨?_, ?_, ?_, ?_⟩
  · rw [sp, hwdr, hp, ← hb]
    rfl
  · rw [sdrops, hwdr, hdrops]
  · refine sout ?_
    rw [hwout]
    refine hout ?_
    rw [← hb]
    exact List.mem_append_right _ (List.mem_singleton_self _)
  · have hrd : v.rd Objs.dlv_items it.ring = s.rd Objs.dlv_items it.ring := by
      rw [State.rd, hdict, ← hb]
      rfl
    rw [State.rd, sdict]
    refine (counted.rd Objs.dlv_items it.ring rfl).trans ?_
    rw [State.bump_rd_same _ (by simp only [Obj.key, idKey]; omega), hrd]
    rfl

end

/-! ## The end of a context, and a reset of the function (R441, R454) -/

theorem State.endClaim_keeps {P : Nat → Prop} (s : State) (c : Nat) : KeepsObjs P s (s.endClaim c) := by
  unfold State.endClaim
  split
  · exact .ite (.of_units rfl rfl) (.refl s)
  · exact .refl s

theorem State.ctxEnd_keeps {P : Nat → Prop} (hP : SparesInserts P) (s : State) (n : Nat) : KeepsObjs P s (s.ctxEnd n) := by
  unfold State.ctxEnd
  dsimp only
  refine .trans (.trans ?_ (State.dropLocks_keeps hP _ _)) (State.endClaim_keeps _ n)
  exact .of_fm rfl fun _ _ _ => rfl

theorem State.ctxEnd_host (s : State) (n : Nat) : (s.ctxEnd n).host = s.host :=
  Part.same_of_others (p := .host) (State.ctxEnd_off (by decide) s n)

theorem HostIf.restart_congr {g h : HostIf} (e : g.pcie = h.pcie) : g.restart = h.restart := by
  unfold HostIf.restart
  rw [e]

theorem State.hostReset_effects (s : State) : s.hostReset.host = s.host.restart ∧ s.hostReset.rd Objs.hi_state = 0 ∧
    s.hostReset.dict.mbStatus = 0 := by
  unfold State.hostReset
  dsimp only
  obtain ⟨-, -, hpcie⟩ := s.releaseAll.forgetRings.dropAllItems_host
  rw [State.forgetRings_host, State.releaseAll_host] at hpcie
  generalize s.releaseAll.forgetRings.dropAllItems = u at hpcie
  have kept := State.ctxEnd_keeps haltKey_sparesInserts (u.wr Objs.hi_state 0 0) 0
  have hhost := (u.wr Objs.hi_state 0 0).ctxEnd_host 0
  refine ⟨?_, ?_, rfl⟩
  · rw [hhost]
    exact HostIf.restart_congr hpcie
  · exact (kept.rd Objs.hi_state 0 (by decide)).trans (DictUnit.rd_wr_same (by decide))

theorem State.hostTrigger_effects {s : State} (hsafe : s.fm.safe = false) (hkind : s.eft.kind = 0) (hclocks : s.eft.clocks = true) (src : Nat) :
    (s.hostTrigger src).host = s.host.restart ∧ (s.hostTrigger src).rd Objs.hi_state = 0 ∧ (s.hostTrigger src).dict.mbStatus = 0 ∧
      ∃ e ∈ (s.hostTrigger src).fm.raised, e.src = src := by
  have resets : s.hostTrigger src = s.hostReset.raise src 0 := by
    simp [State.hostTrigger, hsafe, hkind, hclocks]
  obtain ⟨hhost, hstate, hmb⟩ := s.hostReset_effects
  rw [resets]
  generalize s.hostReset = u at *
  exact ⟨hhost, hstate, hmb, _, List.mem_append_right _ (List.mem_singleton_self _), rfl⟩

theorem State.hostTrigger_ignored {s : State} (h : s.fm.safe = true ∨ s.eft.kind ≠ 0) (src : Nat) : s.hostTrigger src = s := by
  obtain h | h := h <;> simp [State.hostTrigger, h]

/-! ## MSI-X (R419, R440) -/

theorem State.msix_sent {s : State} (hhost : s.hostHalted = false) {v : Nat} (hmask : bit (s.msixEntry v) 96 = false) :
    (s.msix v).outbox = s.outbox ++ [.msix v (fld (s.msixEntry v) 0 64) (fld (s.msixEntry v) 64 32)] := by
  have open' : ¬ (s.rd Objs.hi_state = 1 ∨ bit (s.msixEntry v) 96 = true) := by
    rw [hmask]
    simpa [State.hostHalted] using hhost
  rw [State.msix, if_neg open']
  rfl

theorem State.msix_held {s : State} {v : Nat} (h : s.rd Objs.hi_state = 1 ∨ bit (s.msixEntry v) 96 = true) :
    (s.msix v).outbox = s.outbox ∧ bit (s.msix v).host.msixPending v = true := by
  rw [State.msix, if_pos h]
  exact ⟨rfl, bit_setFld_b2n _ _ _⟩

/-- Settles O25: each clause is the branch of the delivery's or the function's command that its hypotheses choose. -/
theorem deliveryAndHostReset : Obligations.DeliveryAndHostReset := by
  unfold Obligations.DeliveryAndHostReset
  intro r s
  refine ⟨?_, ?_, ?_, ?_, ?_, ?_⟩
  · rintro it rest en htake hring hpid hrun hhost hhold hspace hmin hmax
    obtain ⟨t, ht, hwritten⟩ := s.writeItem_written hmin hmax hpid hring
    refine ⟨_, rfl, ?_⟩
    rw [show deliverItem s r en.toNat false = { t with host := { t.host with items := rest } } by
      simp [deliverItem, deliverNew, hhold, htake, hrun, hhost, hspace, ht]]
    exact ⟨rfl, hwritten.p, hwritten.drops, hwritten.data, hwritten.counted⟩
  · rintro it rest hhold hring hpid hdue
    refine ⟨_, rfl, ?_⟩
    rw [show dlvHoldExpiry s r = (s.setDr r { s.dr r with hold := rest }).dropDelivery it by
      simp only [dlvHoldExpiry, hhold, hdue, if_true]]
    simp only [State.dropDelivery, hpid, hring]
    have own (x : DelRing) : (s.setDr r x).dr r = x := tget_tset_same ..
    have again (t : State) (x : DelRing) : (((t.setDr r x).bump Objs.dlv_drop r).raise 211 r).dr r = x := tget_tset_same ..
    refine ⟨?_, ⟨_, rfl, rfl, rfl⟩, ?_⟩
    · rw [again, own]
    · exact State.bump_rd_same _ (by simp only [Obj.key, idKey]; omega) 1
  · intro hrun hcoal hunsig hdue hhost
    refine ⟨_, rfl, ?_⟩
    rw [show coalTimer s r = (s.setDr r { s.dr r with unsig := 0, unsigSince := 0 }).msix (fld (s.dr r).ctrl 16 7) by
      simp only [coalTimer, hrun, hcoal, hunsig, hdue, and_self, if_true]]
    have own (t : State) (v : Nat) : (t.msix v).dr r = t.dr r := by
      unfold State.msix
      dsimp only
      split <;> rfl
    rw [own, show (s.setDr r _).dr r = _ from tget_tset_same ..]
    exact ⟨rfl, fun hmask => State.msix_sent (s := s.setDr r { s.dr r with unsig := 0, unsigSince := 0 }) hhost hmask,
      fun hmask => State.msix_held (s := s.setDr r { s.dr r with unsig := 0, unsigSince := 0 }) (.inr hmask)⟩
  · intro hhost hrun hposted
    refine ⟨_, rfl, ?_⟩
    rw [show ringFault s r false .ur = s.aerUncorr.hostHalt 5 r by simp [ringFault, hrun, hposted]]
    have halted := State.hostHalt_halted (s := s.aerUncorr) hhost 5 r
    exact ⟨halted.state, halted.cause, halted.ring, halted.busy r⟩
  · intro hsafe hkind hclocks
    obtain ⟨hhost, hstate, hmb, hevent⟩ := State.hostTrigger_effects hsafe hkind hclocks 213
    obtain ⟨hhost', hstate', hmb', hevent'⟩ := State.hostTrigger_effects hsafe hkind hclocks 212
    exact ⟨⟨_, rfl, hhost, hstate, hmb, hevent⟩, ⟨_, rfl, hhost', hstate', hmb', hevent'⟩⟩
  · intro h
    exact ⟨congrArg Host.Outcome.next (State.hostTrigger_ignored h 213), congrArg Host.Outcome.next (State.hostTrigger_ignored h 212)⟩

end Sys2Proof.Machine
end

section
/-! An entry of a command ring that a check refuses (O23). -/

namespace Sys2Proof.Machine

theorem cmdStart_of_not_canStart {s : State} {r e : Nat} {buf : List Byte} {dma : Dma} (h : canStart s r = false) (mine : Bool)
    (body : State → State) : cmdStart s r e buf dma mine body = s := by
  rw [cmdStart, h]
  rfl

theorem cmdStart_of_refused {s : State} {r e code : Nat} {buf : List Byte} {dma : Dma} {mine : Bool} (h : canStart s r = true)
    (hcheck : cmdCheck s e buf dma = some code) (hmine : mine = true ∨ opFlags (entOp e) = none) (body : State → State) :
    cmdStart s r e buf dma mine body = ((s.serving r).cmdComplete r code 0 (entFlags e)).raise 209 r := by
  have hcase : mine = true ∨ (opFlags (entOp e)).isNone = true := hmine.imp_right fun h => by rw [h]; rfl
  rw [cmdStart, h, if_pos rfl, if_pos hcase, hcheck]

/-- The rings, the dictionary's counters and the outputs may differ, and nothing else. -/
def RingsTold (s t : State) : Prop := ∃ h d l, t = { s with host := h, dict := d, outbox := l }

namespace RingsTold

variable {s t u : State}

theorem trans (h : RingsTold s t) (h' : RingsTold t u) : RingsTold s u := by
  obtain ⟨_, _, _, rfl⟩ := h
  obtain ⟨_, _, _, rfl⟩ := h'
  exact ⟨_, _, _, rfl⟩

theorem ite_then {c : Prop} [Decidable c] (h : RingsTold s t) (h' : RingsTold t u) : RingsTold s (if c then u else t) := by
  split
  · exact h.trans h'
  · exact h

theorem bump (s : State) (o : Obj) (i : Nat) : RingsTold s (s.bump o i) := ⟨s.host, _, s.outbox, rfl⟩

theorem put (s : State) (x : Output) : RingsTold s (s.put x) := ⟨s.host, s.dict, _, rfl⟩

theorem msix (s : State) (v : Nat) : RingsTold s (s.msix v) := by
  unfold State.msix
  dsimp only
  split
  · exact ⟨_, s.dict, s.outbox, rfl⟩
  · exact put ..

/-- The end of an entry of a ring that is not stopping. -/
theorem cmdComplete {r : Nat} (h : (s.cr r).st ≠ .stopping) (status result flags : Nat) :
    RingsTold s (s.cmdComplete r status result flags) := by
  unfold State.cmdComplete
  simp only [if_neg h]
  split
  · exact ⟨_, s.dict, s.outbox, rfl⟩
  · refine .ite_then (.trans (.ite_then (.trans ?_ (bump ..)) (bump ..)) (put ..)) (msix ..)
    exact ⟨_, s.dict, _, rfl⟩

end RingsTold

/-- Settles O23: every command of an entry is one start of its ring, which completes the entry with the code of its first failing check. -/
theorem refusedEntriesComplete : Obligations.RefusedEntriesComplete := by
  unfold Obligations.RefusedEntriesComplete
  intro r e buf words dma s o f rows row hrow
  have starts : ∃ body, exec row.1 s = .next (cmdStart s r e.toNat row.2.1 row.2.2.1 row.2.2.2 body) := by
    simp only [rows, List.mem_cons, List.not_mem_nil, or_false] at hrow
    rcases hrow with rfl | rfl | rfl | rfl | rfl | rfl | rfl | rfl | rfl | rfl | rfl | rfl | rfl | rfl <;> exact ⟨_, rfl⟩
  obtain ⟨body, hexec⟩ := starts
  rw [hexec]
  refine ⟨fun h => congrArg Host.Outcome.next (cmdStart_of_not_canStart h _ _), fun code hstart hcheck hmine => ⟨_, rfl, ?_⟩⟩
  rw [cmdStart_of_refused hstart hcheck hmine]
  obtain ⟨hrun, hhost⟩ := running_of_canStart hstart
  obtain ⟨⟨hout, hh, hbusy⟩, -⟩ := State.cmdComplete_running (s := s.serving r) hrun hhost code 0 (entFlags e.toNat)
  refine ⟨⟨hout, hh, hbusy⟩, State.mem_raiseOf_raised .., fun hop => ?_, ?_⟩
  · rw [cmdCheck, hop] at hcheck
    exact (Option.some.inj hcheck).symm
  · have goes : ((s.serving r).cr r).st ≠ .stopping := ne_of_eq_of_ne hrun (by decide)
    obtain ⟨h, d, l, e⟩ := RingsTold.cmdComplete goes code 0 (entFlags e.toNat)
    rw [e]
    rfl

end Sys2Proof.Machine
end

section
/-! What each opcode of a command ring does once its checks pass (O24). -/

namespace Sys2Proof.Machine

/-! ## Whether the function is HALTED -/

/-- hi_state reads as before. -/
def KeepsHalt (s t : State) : Prop := t.rd Objs.hi_state = s.rd Objs.hi_state

namespace KeepsHalt

variable {s t u : State}

theorem refl (s : State) : KeepsHalt s s := rfl

theorem trans (h : KeepsHalt s t) (h' : KeepsHalt t u) : KeepsHalt s u := Eq.trans h' h

theorem of_dict (h : t.dict = s.dict) : KeepsHalt s t := congrArg (DictUnit.rd · Objs.hi_state 0) h

theorem of_moves (h : MovesRecords s t) : KeepsHalt s t := h.rd ..

theorem of_objs (h : KeepsObjs HaltKey s t) : KeepsHalt s t := h.rd Objs.hi_state 0 (by decide)

theorem ite {c : Prop} [Decidable c] (ht : KeepsHalt s t) (hu : KeepsHalt s u) : KeepsHalt s (if c then t else u) := by
  split
  · exact ht
  · exact hu

theorem foldl {α : Type} {f : State → α → State} (h : ∀ s a, KeepsHalt s (f s a)) (l : List α) (s : State) : KeepsHalt s (l.foldl f s) :=
  List.foldlRecOn (motive := KeepsHalt s) l f (refl s) fun t ht a _ => ht.trans (h t a)

theorem bump (s : State) {o : Obj} {i : Nat} (n : Nat) (h : o.key i ≠ Objs.hi_state.key 0) (hid : o.key i ≠ idKey) :
    KeepsHalt s (s.bump o i n) := DictUnit.rd_wr_other h hid

end KeepsHalt

theorem State.settleLocks_keepsHalt (s : State) : KeepsHalt s s.settleLocks :=
  .foldl (fun t _ => .of_objs (t.settleLock_keeps haltKey_sparesInserts _)) _ s

/-! ### The flow store -/

theorem State.delRec_keepsHalt (s : State) (key : Nat) : KeepsHalt s (s.delRec key) := by
  have places : KeepsHalt s (s.delPlaces key) := (KeepsHalt.of_moves (s.delCopies_moves key)).trans (.of_dict rfl)
  rw [State.delRec_eq]
  split
  · exact places
  · exact .ite (places.trans (.of_dict rfl)) (places.trans (.of_dict rfl))

theorem State.delStale_keepsHalt (s : State) (key : Nat) : KeepsHalt s (s.delStale key) :=
  (((s.delRec_keepsHalt key).trans (.bump _ 1 (by decide) (by decide))).trans (.bump _ 1 (by decide) (by decide))).trans (.of_dict rfl)

theorem State.purgeKey_keepsHalt (s : State) (key : Nat) : KeepsHalt s (s.purgeKey key) := .ite (s.delStale_keepsHalt key) (.refl s)

theorem State.countLookup_keepsHalt (s : State) (key : Nat) : KeepsHalt s (s.countLookup key) := by
  have counted (c : Bool) (t : State) (o : Obj) (h : o.key 0 ≠ Objs.hi_state.key 0) (hid : o.key 0 ≠ idKey) :
      KeepsHalt t (if c = true then t.bump o else t) := .ite (.bump _ 1 h hid) (.refl t)
  unfold State.countLookup
  dsimp only
  split
  · exact .ite (.refl s) (.bump _ 1 (by decide) (by decide))
  · have missed := counted ((s.lookupReads key).1 || (s.lookupReads key).2) s Objs.cache_misses (by decide) (by decide)
    have first : KeepsHalt s (if (s.lookupReads key).1 = true then State.bgRead _ (s.flowBuckets key).1 else _) :=
      missed.trans (.ite (.of_dict rfl) (.refl _))
    exact first.trans (.ite (.trans (.of_dict rfl) (.bump _ 1 (by decide) (by decide))) (.refl _))

theorem State.fsuSees_keepsHalt (s : State) (t : LockTarget) : KeepsHalt s (s.fsuSees t) := by
  have purged (l : List Nat) (u : State) : KeepsHalt u (l.foldl State.purgeKey u) := .foldl State.purgeKey_keepsHalt l u
  cases t with
  | key k => exact (s.countLookup_keepsHalt k).trans (State.purgeKey_keepsHalt ..)
  | slot n => exact .trans (t := s.readTarget (.slot n)) (.of_dict rfl) (purged ..)
  | bucket b => exact .trans (t := s.readTarget (.bucket b)) (.of_dict rfl) (purged ..)

theorem State.served_keepsHalt (s : State) (t : LockTarget) : KeepsHalt s (s.served t) := .ite (.refl s) (s.fsuSees_keepsHalt t)

theorem writeRec_keepsHalt (s : State) (key home img : Nat) : KeepsHalt s (writeRec s key home img).2 := by
  unfold writeRec
  split
  · exact .refl s
  · split
    · exact (s.delRec_keepsHalt key).trans (.bump _ 1 (by decide) (by decide))
    · dsimp only
      split
      · exact .of_dict rfl
      · exact .trans (t := s.recFresh key) (.of_dict rfl) (.of_moves (State.putRec_moves ..))

theorem writeSlot_keepsHalt (s : State) (n img : Nat) : KeepsHalt s (writeSlot s n img).2 := by
  unfold writeSlot
  split
  · exact writeRec_keepsHalt ..
  · exact .refl s

theorem flowWrite_keepsHalt (s : State) (t : LockTarget) (o : Owner) (data : List Byte) : KeepsHalt s (flowWrite s t o data).2 := by
  have seen := s.fsuSees_keepsHalt t
  unfold flowWrite
  split_ifs
  · exact .refl s
  · exact .of_dict rfl
  · exact .refl s
  · dsimp only
    split
    · split
      · exact seen.trans (writeRec_keepsHalt ..)
      · exact seen
    · split
      · exact seen.trans (writeRec_keepsHalt ..)
      · exact seen
    · split
      · exact seen
      · exact seen
      · exact (seen.trans (writeSlot_keepsHalt ..)).trans (writeSlot_keepsHalt ..)

theorem insertRec_keepsHalt (s : State) (key img : Nat) : KeepsHalt s (insertRec s key img).2 := by
  have counted : KeepsHalt s (s.bump Objs.inserts) := .bump _ 1 (by decide) (by decide)
  unfold insertRec
  split
  · exact .refl s
  · split
    · exact .of_dict rfl
    · dsimp only
      split
      · exact (counted.trans (.of_moves (State.placeRec_moves ..))).trans (.of_dict rfl)
      · exact counted.trans (.of_moves (State.placeRec_moves ..))

theorem flowInsert_keepsHalt (s : State) (key : Nat) (data : List Byte) (o : Owner) : KeepsHalt s (flowInsert s key data o).2 := by
  have seen := s.settleLocks_keepsHalt.trans (s.settleLocks.fsuSees_keepsHalt (.key key))
  unfold flowInsert
  dsimp only
  split_ifs
  · exact seen
  · exact seen
  · exact seen.trans (.of_dict rfl)
  · exact seen.trans (insertRec_keepsHalt ..)

theorem flowLock_keepsHalt (s : State) (t : LockTarget) (o : Owner) : KeepsHalt s (flowLock s t o).2 := by
  have seen := s.settleLocks_keepsHalt.trans (s.settleLocks.served_keepsHalt t)
  unfold flowLock
  dsimp only
  split_ifs
  · exact seen
  · exact seen.trans (.of_dict rfl)
  · exact seen
  · exact seen.trans (.of_dict rfl)

theorem flowUnlock_keepsHalt (s : State) (t : LockTarget) (o : Owner) : KeepsHalt s (flowUnlock s t o).2 := by
  unfold flowUnlock
  split_ifs
  · exact .refl s
  · exact .of_dict rfl
  · split
    · exact .trans (.of_dict rfl) (State.settleLocks_keepsHalt _)
    · exact .refl s

theorem nextFound_keepsHalt (l : List (Nat × Nat)) (s : State) : KeepsHalt s (nextFound l s).2 := by
  induction l generalizing s with
  | nil => exact .refl s
  | cons p l ih =>
    unfold nextFound
    split
    · exact (s.delStale_keepsHalt _).trans (ih _)
    · exact .refl s

theorem flowNext_keepsHalt (s : State) (cursor : Nat) : KeepsHalt s (flowNext s cursor).2.2.2 := by
  have found : KeepsHalt s (nextFound (s.nextPlaces cursor) (s.nextReads cursor)).2 :=
    .trans (t := s.nextReads cursor) (.of_dict rfl) (nextFound_keepsHalt ..)
  unfold flowNext
  split
  next p r t h =>
    rw [h] at found
    split <;> exact found
  next t h =>
    rw [h] at found
    exact found

/-! ### Items -/

theorem itemServed_keepsHalt (target index : Nat) (buf : List Byte) (s : State) : KeepsHalt s (itemServed target index buf s) :=
  .ite (s.served_keepsHalt _) (.refl s)

theorem itemRead_keepsHalt (s : State) (target index : Nat) (buf : List Byte) (ecc : WordEcc) : KeepsHalt s (itemRead s target index buf ecc).2.2 :=
  .of_dict (Part.same_of_others (p := .dict) (itemRead_off (by decide) ..))

theorem readItems_keepsHalt (target index : Nat) (buf : List Byte) (words : List WordEcc) (n i : Nat) (s : State) :
    KeepsHalt s (readItems target index buf words n i s).2.2.2 := by
  induction n generalizing i s with
  | zero => exact .refl s
  | succ n ih =>
    have read := (itemServed_keepsHalt target (index + i) buf s).trans
      (itemRead_keepsHalt (itemServed target (index + i) buf s) target (index + i) buf (words.getD i .good))
    unfold readItems
    dsimp only
    split
    next d s1 h =>
      rw [h] at read
      exact read.trans (ih ..)
    next k d s1 _ h =>
      rw [h] at read
      exact read

theorem itemWrite_keepsHalt (s : State) (target index : Nat) (buf data : List Byte) (o : Owner) :
    KeepsHalt s (itemWrite s target index buf data o).2 := by
  unfold itemWrite
  split
  · exact flowWrite_keepsHalt ..
  · exact .of_dict (Part.same_of_others (p := .dict) (tblWrite_off (by decide) ..))

theorem writeItems_keepsHalt (target index : Nat) (buf : List Byte) (o : Owner) (have' n i : Nat) (s : State) :
    KeepsHalt s (writeItems target index buf o have' n i s).2.2 := by
  induction n generalizing i s with
  | zero => exact .refl s
  | succ n ih =>
    unfold writeItems
    dsimp only
    split
    · exact .refl s
    · have written := itemWrite_keepsHalt s target (index + i) buf
        (padTo 0 (itemBytes target) (slice buf (itemBase target + i * itemBytes target) (itemBytes target))) o
      split
      next t h =>
        rw [h] at written
        exact written.trans (ih ..)
      next k t _ h =>
        rw [h] at written
        exact written

/-! ## The end of an entry -/

/-- What an entry does to the tables leaves its ring, whether the function is HALTED, and the outputs. -/
structure Serves (r : Nat) (s u : State) : Prop where
  cr : u.cr r = s.cr r
  halt : u.hostHalted = s.hostHalted

theorem Serves.of_host {r : Nat} {s u : State} (hhost : u.host = (s.serving r).host) (h : KeepsHalt (s.serving r) u) : Serves r s u :=
  ⟨(congrArg (fun x : HostIf => tget CmdRing.init x.cmd r) hhost : tget CmdRing.init u.host.cmd r = tget CmdRing.init (s.serving r).host.cmd r),
    congrArg (· == 1) h⟩

section
variable {s u : State} {r : Nat}

theorem State.cmdComplete_outbox (h : (u.cr r).st ≠ .stopping) (hhost : u.hostHalted = false) (status result flags : Nat) :
    u.outbox ⊆ (u.cmdComplete r status result flags).outbox := by
  have kept : KeepsEntry r ((u.put (statusWrite (u.cr r) status result)).setCr r
      { u.cr r with h := ((u.cr r).h + 1) % 2 ^ 32, busy := none }) (u.cmdComplete r status result flags) := by
    simp only [State.cmdComplete, hhost, h, Bool.false_eq_true, if_false]
    exact .ite_then (.trans (.ite_then (.bump ..) (.bump ..)) (.put ..)) (.msix ..)
  exact fun x hx => kept.outbox (List.mem_append_left _ hx)

/-- An entry that has started completes (R433). -/
structure Ended (r status result : Nat) (s u t : State) : Prop where
  completes : Completes r status result s t
  tbl : t.tbl = u.tbl
  fsu : t.fsu = u.fsu
  outbox : u.outbox ⊆ t.outbox

theorem Serves.ended (h : Serves r s u) (hstart : canStart s r = true) (status result flags : Nat) :
    Ended r status result s u (u.cmdComplete r status result flags) := by
  obtain ⟨hrun, hhost⟩ := running_of_canStart hstart
  have hrun' : (u.cr r).st = .running := by rw [h.cr]; exact hrun
  have goes : (u.cr r).st ≠ .stopping := by rw [hrun']; decide
  obtain ⟨hdone, -⟩ := State.cmdComplete_running hrun' (h.halt.trans hhost) status result flags
  obtain ⟨_, _, _, e⟩ := RingsTold.cmdComplete goes status result flags
  refine ⟨?_, ?_, ?_, State.cmdComplete_outbox goes (h.halt.trans hhost) ..⟩
  · rw [Completes, h.cr] at hdone
    exact hdone
  · rw [e]
  · rw [e]

/-- Data that goes into the entry's buffer is written before the entry completes. -/
theorem State.bufWrite_good {addr : Nat} {data : List Byte} (h : data ≠ []) :
    s.bufWrite addr data .good = s.put (.hostWrite addr data) := by
  exact if_neg h

theorem State.bufWrite_empty (s : State) (addr : Nat) : s.bufWrite addr [] .good = s := by
  show (if ([] : List Byte) = [] then s else s.put (.hostWrite addr [])) = s
  exact if_pos rfl

theorem State.cmdWait_waits (u : State) (r e : Nat) (w : RingWait) : WaitsFor r e w (u.cmdWait r e w) :=
  congrArg CmdRing.busy (tget_tset_same ..)

end


/-! ## The opcodes -/

/-- A WRITE with INSERT that passes its checks has a buffer of one key and one record (R426, R427). -/
theorem entLen_of_insert {s : State} {e : Nat} {buf : List Byte} (h : cmdCheck s e buf .good = none) (hop : entOp e = 0x11)
    (hinsert : bit (entFlags e) 1 = true) : entLen e = 192 := by
  obtain ⟨htarget, hlength⟩ : badTarget s e buf .good = false ∧ badLength s e buf .good = false := by
    have hflags : opFlags (entOp e) = some 0x07 := by rw [hop]; rfl
    simp only [cmdCheck, hflags] at h
    split_ifs at h with _ htarget hlength
    exact ⟨Bool.eq_false_iff.2 htarget, Bool.eq_false_iff.2 hlength⟩
  obtain ⟨hone, hkeeps⟩ : entTarget e = 1 ∧ bit (entFlags e) 2 = false := by
    rw [badTarget, Bool.or_eq_false_iff, Bool.not_eq_false'] at htarget
    have hok := htarget.1
    simpa only [targetOk, hop, hinsert, if_true, Bool.and_eq_true, beq_iff_eq, Bool.not_eq_true'] using hok
  have hkeyed : keyed 1 = true ∧ itemBase 1 = 64 ∧ itemBytes 1 = 128 := ⟨rfl, rfl, rfl⟩
  obtain ⟨hkey, hbase, hbytes⟩ := hkeyed
  simp only [badLength, hone, hop, hkey, hbase, hbytes, if_true, hkeeps, Bool.false_eq_true, if_false, Bool.or_eq_false_iff, bne_eq_false_iff_eq]
    at hlength
  omega

/-- A page of records of its COUNT. -/
theorem min_entCount {n len size : Nat} (hlen : len = n * size) (hsize : 0 < size) : min n (len / size) = n := by
  rw [hlen, Nat.mul_div_cancel _ hsize, min_self]

section
variable {s : State} {r e : Nat} {buf : List Byte}

theorem Serves.self (s : State) (r : Nat) : Serves r s (s.serving r) := ⟨rfl, rfl⟩

theorem pktInject_egress (hflag : bit (entFlags e) 4 = true) : ∃ it, WaitsFor r e .inject (pktInject (s.serving r) r e buf .good) ∧
    (pktInject (s.serving r) r e buf .good).tm.items = s.tm.items ++ [it] ∧ it.body = padTo 0 (entLen e) buf ∧ it.inject = some r := by
  simp only [pktInject, hflag, if_true]
  exact ⟨_, State.cmdWait_waits (s.serving r) r e .inject, rfl, rfl, rfl⟩

theorem pktInject_parser (hflag : bit (entFlags e) 4 = false) : ∃ k : Packet,
    WaitsFor r e .inject (pktInject (s.serving r) r e buf .good) ∧
    tget [] (pktInject (s.serving r) r e buf .good).ports.inq (pipeOf (fld (entParam e) 0 8)) =
      tget [] s.ports.inq (pipeOf (fld (entParam e) 0 8)) ++ [k] ∧ k.inject = some r := by
  simp only [pktInject, hflag, Bool.false_eq_true, if_false]
  exact ⟨_, State.cmdWait_waits (s.serving r) r e .inject, tget_tset_same .., rfl⟩

theorem tblDmaRead_done {words : List WordEcc} {k n : Nat} {data : List Byte} {u : State} (h : Starts s r e 0x10 buf .good)
    (hread : readItems (entTarget e) (entIndex e) buf words (entCount e) 0 (s.serving r) = (k, n, data, u)) :
    Completes r k n s (tblDmaRead (s.serving r) r e buf words .good) ∧ (tblDmaRead (s.serving r) r e buf words .good).tbl = u.tbl ∧
      (tblDmaRead (s.serving r) r e buf words .good).fsu = u.fsu ∧
      (data ≠ [] → Output.hostWrite (entAddr e + itemBase (entTarget e)) data ∈ (tblDmaRead (s.serving r) r e buf words .good).outbox) := by
  have serves : Serves r s u := by
    have hhost := Part.same_of_others (p := .host)
      (readItems_off (by decide) (entTarget e) (entIndex e) buf words (entCount e) 0 (s.serving r))
    have halt := readItems_keepsHalt (entTarget e) (entIndex e) buf words (entCount e) 0 (s.serving r)
    rw [hread] at hhost halt
    exact .of_host hhost halt
  have done : tblDmaRead (s.serving r) r e buf words .good =
      (u.bufWrite (entAddr e + itemBase (entTarget e)) data .good).cmdComplete r k n (entFlags e) := by
    simp only [tblDmaRead, dmaReadable, lt_irrefl, if_false, hread, State.cmdEnd, if_true]
  rw [done]
  by_cases hdata : data = []
  · subst hdata
    rw [State.bufWrite_empty]
    have ended := serves.ended h.1 k n (entFlags e)
    exact ⟨ended.completes, ended.tbl, ended.fsu, fun h => absurd rfl h⟩
  · rw [State.bufWrite_good hdata]
    have ended := Serves.ended (u := u.put (.hostWrite (entAddr e + itemBase (entTarget e)) data)) ⟨serves.cr, serves.halt⟩ h.1 k n (entFlags e)
    exact ⟨ended.completes, ended.tbl, ended.fsu, fun _ => ended.outbox (List.mem_append_right _ (List.mem_singleton_self _))⟩

theorem tblDmaWrite_done {k n : Nat} {u : State} (h : Starts s r e 0x11 buf .good)
    (hwrite : writeItems (entTarget e) (entIndex e) buf (.ring r) (entLen e) (entCount e) 0 (s.serving r) = (k, n, u)) (hk : k ≠ 0x8006) :
    Ended r k n s u (tblDmaWrite (s.serving r) r e buf .good) := by
  have serves : Serves r s u := by
    have hhost := Part.same_of_others (p := .host)
      (writeItems_off (by decide) (entTarget e) (entIndex e) buf (.ring r) (entLen e) (entCount e) 0 (s.serving r))
    have halt := writeItems_keepsHalt (entTarget e) (entIndex e) buf (.ring r) (entLen e) (entCount e) 0 (s.serving r)
    rw [hwrite] at hhost halt
    exact .of_host hhost halt
  simp only [tblDmaWrite, dmaReadable, hwrite, if_neg hk]
  exact serves.ended h.1 ..

theorem flowInsert_serves {o : Option Nat} {u : State} {key : Nat} {data : List Byte} {ow : Owner}
    (hinsert : flowInsert (s.serving r) key data ow = (o, u)) : Serves r s u := by
  have hhost := Part.same_of_others (p := .host) (flowInsert_off (by decide) (s.serving r) key data ow)
  have halt := flowInsert_keepsHalt (s.serving r) key data ow
  rw [hinsert] at hhost halt
  exact .of_host hhost halt

theorem tblDmaInsert_some {k : Nat} {u : State} (h : Starts s r e 0x11 buf .good) (hinsert : bit (entFlags e) 1 = true)
    (hflow : flowInsert (s.serving r) (flowKeyOf (buf.take 47) (buf.getD 48 0).toNat) (padTo 0 128 (slice buf 64 128)) (.ring r) = (some k, u)) :
    tblDmaInsert (s.serving r) r e buf .good = u.cmdComplete r k (b2n (k == 1)) (entFlags e) := by
  simp only [tblDmaInsert, dmaReadable, entLen_of_insert h.2.2 h.2.1 hinsert, lt_irrefl, if_false, hflow]

theorem tblDmaInsert_none {u : State} (h : Starts s r e 0x11 buf .good) (hinsert : bit (entFlags e) 1 = true)
    (hflow : flowInsert (s.serving r) (flowKeyOf (buf.take 47) (buf.getD 48 0).toNat) (padTo 0 128 (slice buf 64 128)) (.ring r) = (none, u)) :
    tblDmaInsert (s.serving r) r e buf .good = u.cmdWait r e .insert := by
  simp only [tblDmaInsert, dmaReadable, entLen_of_insert h.2.2 h.2.1 hinsert, lt_irrefl, if_false, hflow]

theorem tblDmaDelete_done {k : Nat} {u : State} (h : Starts s r e 0x11 buf .good)
    (hdelete : tblDelete (s.serving r) (entTarget e) buf (.ring r) = (k, u)) :
    Ended r k (b2n (decide (k = 1))) s u (tblDmaDelete (s.serving r) r e buf .good) := by
  have serves : Serves r s u := by
    have hhost := Part.same_of_others (p := .host) (tblDelete_off (by decide) (s.serving r) (entTarget e) buf (.ring r))
    have hdict := Part.same_of_others (p := .dict) (tblDelete_off (by decide) (s.serving r) (entTarget e) buf (.ring r))
    rw [hdelete] at hhost hdict
    exact .of_host hhost (.of_dict hdict)
  simp only [tblDmaDelete, dmaReadable, lt_irrefl, if_false, hdelete]
  exact serves.ended h.1 ..

theorem tblLock_waits {u : State} (htarget : entTarget e ≠ 0x10)
    (hlock : flowLock (s.serving r) (flowTarget (entTarget e) (entIndex e) buf) (.ring r) = (none, u)) :
    tblLock (s.serving r) r e buf .good = u.cmdWait r e .lock := by
  simp only [tblLock, dmaReadable, lt_irrefl, if_false, htarget, hlock]

theorem tblUnlock_done {k : Nat} {u : State} (h : Starts s r e 0x13 buf .good) (htarget : entTarget e ≠ 0x10)
    (hunlock : flowUnlock (s.serving r) (flowTarget (entTarget e) (entIndex e) buf) (.ring r) = (k, u)) :
    Ended r k 0 s u (tblUnlock (s.serving r) r e buf .good) := by
  have serves : Serves r s u := by
    have hhost := Part.same_of_others (p := .host)
      (flowUnlock_off (by decide) (s.serving r) (flowTarget (entTarget e) (entIndex e) buf) (.ring r))
    have halt := flowUnlock_keepsHalt (s.serving r) (flowTarget (entTarget e) (entIndex e) buf) (.ring r)
    rw [hunlock] at hhost halt
    exact .of_host hhost halt
  simp only [tblUnlock, dmaReadable, lt_irrefl, if_false, htarget, hunlock]
  exact serves.ended h.1 ..

theorem leBytes_ne_nil {n : Nat} (h : 0 < n) (v : Nat) : leBytes n v ≠ [] := by
  rw [← List.length_pos_iff, leBytes_length]
  exact h

/-- An entry that completes once its data has gone into the buffer. -/
theorem Serves.ended_put {u : State} (serves : Serves r s u) (hstart : canStart s r = true) {addr : Nat} {data : List Byte} (hdata : data ≠ [])
    (status result : Nat) :
    Ended r status result s (u.put (.hostWrite addr data)) ((u.bufWrite addr data .good).cmdEnd r e status result .good) := by
  rw [State.bufWrite_good hdata, State.cmdEnd, if_pos rfl]
  exact Serves.ended (u := u.put (.hostWrite addr data)) ⟨serves.cr, serves.halt⟩ hstart ..

theorem Ended.written {t u : State} {status result addr : Nat} {data : List Byte}
    (h : Ended r status result s (u.put (.hostWrite addr data)) t) : Output.hostWrite addr data ∈ t.outbox :=
  h.outbox (List.mem_append_right _ (List.mem_singleton_self _))

theorem tblSearch_done {img place : Nat} (h : Starts s r e 0x14 buf .good)
    (hfind : flowSearch ((s.serving r).served (.key (flowKeyOf (buf.take 47) (buf.getD 48 0).toNat)))
      (flowKeyOf (buf.take 47) (buf.getD 48 0).toNat) = (1, img, place)) :
    Completes r 1 place s (tblSearch (s.serving r) r e buf .good) ∧
      Output.hostWrite (entAddr e + 64) (leBytes 128 img) ∈ (tblSearch (s.serving r) r e buf .good).outbox := by
  have serves : Serves r s ((s.serving r).served (.key (flowKeyOf (buf.take 47) (buf.getD 48 0).toNat))) :=
    .of_host (Part.same_of_others (p := .host) (State.served_off (by decide) ..)) (State.served_keepsHalt ..)
  have ended := serves.ended_put (e := e) h.1 (addr := entAddr e + 64) (leBytes_ne_nil (n := 128) (by decide) img) 1 place
  simp only [tblSearch, dmaReadable, lt_irrefl, if_false, hfind, if_true]
  exact ⟨ended.completes, ended.written⟩

theorem flowNext_serves {k c : Nat} {found : Option (Nat × Nat)} {u : State} (hnext : flowNext (s.serving r) (entIndex e) = (k, found, c, u)) :
    Serves r s u := by
  have hhost := Part.same_of_others (p := .host) (flowNext_off (by decide) (s.serving r) (entIndex e))
  have halt := flowNext_keepsHalt (s.serving r) (entIndex e)
  rw [hnext] at hhost halt
  exact .of_host hhost halt

theorem tblNext_found {k c img p : Nat} {u : State} (h : Starts s r e 0x15 [] .good)
    (hnext : flowNext (s.serving r) (entIndex e) = (k, some (img, p), c, u)) :
    Completes r 1 1 s (tblNext (s.serving r) r e .good) ∧ (tblNext (s.serving r) r e .good).fsu = u.fsu ∧
      Output.hostWrite (entAddr e + 64) (leBytes 128 img ++ leBytes 4 p ++ (leBytes 4 c ++ leBytes 8 (u.rd Objs.reloc_moves))) ∈
        (tblNext (s.serving r) r e .good).outbox := by
  have hdata : leBytes 128 img ++ leBytes 4 p ++ (leBytes 4 c ++ leBytes 8 (u.rd Objs.reloc_moves)) ≠ [] := by
    simp [leBytes_ne_nil]
  have ended := (flowNext_serves hnext).ended_put (e := e) h.1 (addr := entAddr e + 64) hdata 1 1
  simp only [tblNext, hnext]
  exact ⟨ended.completes, ended.fsu, ended.written⟩

theorem tblNext_none {k c : Nat} {u : State} (h : Starts s r e 0x15 [] .good)
    (hnext : flowNext (s.serving r) (entIndex e) = (k, none, c, u)) :
    Completes r k 0 s (tblNext (s.serving r) r e .good) ∧ (tblNext (s.serving r) r e .good).fsu = u.fsu ∧
      (k = 1 → Output.hostWrite (entAddr e + 196) (leBytes 4 c ++ leBytes 8 (u.rd Objs.reloc_moves)) ∈
        (tblNext (s.serving r) r e .good).outbox) := by
  have serves := flowNext_serves hnext
  simp only [tblNext, hnext]
  split
  next hk =>
    subst hk
    have hdata : leBytes 4 c ++ leBytes 8 (u.rd Objs.reloc_moves) ≠ [] := by simp [leBytes_ne_nil]
    have ended := serves.ended_put (e := e) h.1 (addr := entAddr e + 196) hdata 1 0
    exact ⟨ended.completes, ended.fsu, fun _ => ended.written⟩
  next hk =>
    have ended := serves.ended h.1 k 0 (entFlags e)
    exact ⟨ended.completes, ended.fsu, fun h => absurd h hk⟩

theorem hueStage_waits {u : State}
    (hstage : stageRecords (entParam e % 65536) 0 (records (recordSize (entParam e % 65536)) (entCount e)
        (padTo 0 (entCount e * recordSize (entParam e % 65536)) buf)) (s.serving r) = (u, none))
    (hlen : entLen e = entCount e * recordSize (entParam e % 65536)) (hsize : 0 < recordSize (entParam e % 65536)) :
    hueStage (s.serving r) r e buf .good = (u.startStage none (some r) 1 (entCount e)).cmdWait r e .stage := by
  have hall : min (entCount e) (entLen e / recordSize (entParam e % 65536)) = entCount e := min_entCount hlen hsize
  simp only [hueStage, dmaReadable, hall, hstage, lt_irrefl, if_false]

theorem State.stageEnd_done {b : RingBusy} {x : StageRun} (hbusy : (s.cr r).busy = some b) (hwait : b.wait = .stage)
    (hhost : s.hostHalted = false) (hrun : (s.cr r).st = .running) (hctx : x.ctx = none) (hring : x.ring = some r) :
    Completes r x.status x.result s (s.stageEnd x) := by
  obtain ⟨hdone, -⟩ := State.cmdComplete_running hrun hhost x.status x.result b.flags
  simp only [State.stageEnd, hctx, hring, State.cmdWaitDone, hbusy, hwait, if_true]
  split
  · exact hdone
  · exact hdone

end

/-- Settles O24: each opcode is its function on the serving state, whose units keep the ring, and the end or the wait of the entry. -/
theorem ringEntriesExecute : Obligations.RingEntriesExecute := by
  unfold Obligations.RingEntriesExecute
  intro r en buf words s
  have begins {op : Nat} {b : List Byte} {dma : Dma} (h : Starts s r en.toNat op b dma) (body : State → State) :
      (Host.Outcome.next (cmdStart s r en.toNat b dma (entOp en.toNat == op) body) : Out) = .next (body (s.serving r)) :=
    congrArg _ (cmdStart_of_starts h body)
  have writes {b : List Byte} {dma : Dma} {mine : Bool} (h : Starts s r en.toNat 0x11 b dma) (hmine : mine = true) (body : State → State) :
      (Host.Outcome.next (cmdStart s r en.toNat b dma mine body) : Out) = .next (body (s.serving r)) := by
    rw [hmine, ← begins h body, h.2.1, beq_self_eq_true]
  refine ⟨?_, ?_, ?_, ?_, ?_, ?_, ?_, ?_, ?_, ?_, ?_, ?_, ?_, ?_, ?_, ?_, ?_, ?_⟩
  · intro h
    exact ⟨_, begins h _, ((Serves.self s r).ended h.1 1 0 _).completes⟩
  · intro h hflag
    obtain ⟨it, hit⟩ := pktInject_egress (s := s) (r := r) (buf := buf) hflag
    exact ⟨_, it, begins h _, hit⟩
  · intro h hflag
    obtain ⟨k, hk⟩ := pktInject_parser (s := s) (r := r) (buf := buf) hflag
    exact ⟨_, k, begins h _, hk⟩
  · intro k n data u h hread
    exact ⟨_, begins h _, tblDmaRead_done h hread⟩
  · intro k n u h hinsert hdelete hwrite hk
    have ended := tblDmaWrite_done h hwrite hk
    exact ⟨_, writes h (by simp [h.2.1, hinsert, hdelete]) _, ended.completes, ended.tbl, ended.fsu⟩
  · intro k u h hinsert hflow
    refine ⟨_, writes h (by simp [h.2.1, hinsert]) _, ?_⟩
    rw [tblDmaInsert_some h hinsert hflow]
    have ended := (flowInsert_serves hflow).ended h.1 k (b2n (k == 1)) (entFlags en.toNat)
    exact ⟨ended.completes, ended.fsu⟩
  · intro u h hinsert hflow
    refine ⟨_, writes h (by simp [h.2.1, hinsert]) _, ?_⟩
    rw [tblDmaInsert_none h hinsert hflow]
    exact ⟨u.cmdWait_waits .., rfl⟩
  · intro k u h hinsert hdelete hflow
    have ended := tblDmaDelete_done h hflow
    exact ⟨_, writes h (by simp [h.2.1, hinsert, hdelete]) _, ended.completes, ended.tbl⟩
  · intro u h htarget hlock
    refine ⟨_, begins h _, ?_⟩
    rw [tblLock_waits htarget hlock]
    exact ⟨u.cmdWait_waits .., rfl⟩
  · intro k u h htarget hunlock
    have ended := tblUnlock_done h htarget hunlock
    exact ⟨_, begins h _, ended.completes, ended.fsu⟩
  · intro img place h hfind
    exact ⟨_, begins h _, tblSearch_done h hfind⟩
  · intro k c u h
    exact ⟨fun img p hnext => ⟨_, begins h _, tblNext_found h hnext⟩, fun hnext => ⟨_, begins h _, tblNext_none h hnext⟩⟩
  · intro h htarget hroom
    refine ⟨_, begins h _, ?_⟩
    rw [tblFlushPort, if_pos htarget, show (s.serving r).macFlushFull = false from hroom]
    exact ⟨State.cmdWait_waits .., rfl⟩
  · intro h htarget hfull
    refine ⟨_, begins h _, ?_⟩
    rw [tblFlushPort, if_pos htarget, show (s.serving r).macFlushFull = true from hfull]
    have ended := (Serves.self s r).ended h.1 0x800A 0 (entFlags en.toNat)
    exact ⟨ended.completes, ended.tbl⟩
  · intro h htarget
    refine ⟨fun u hflush => ⟨_, begins h _, ?_⟩, fun hflush => ⟨_, begins h _, ?_⟩⟩
    · rw [tblFlushPort, if_neg htarget, ringFlowFlush, hflush]
      exact ⟨u.cmdWait_waits .., rfl⟩
    · rw [tblFlushPort, if_neg htarget, ringFlowFlush, hflush]
      have ended := (Serves.self s r).ended h.1 0x800A 0 (entFlags en.toNat)
      exact ⟨ended.completes, ended.fsu⟩
  · intro u h hflush
    refine ⟨_, begins h _, ?_⟩
    rw [ringFlowFlush, hflush]
    exact ⟨u.cmdWait_waits .., rfl⟩
  · intro u h hstage hlen hsize
    refine ⟨_, begins h _, ?_⟩
    rw [hueStage_waits hstage hlen hsize]
    exact ⟨State.cmdWait_waits .., rfl, rfl⟩
  · intro b x hbusy hwait hhost hrun hctx hring
    exact State.stageEnd_done hbusy hwait hhost hrun hctx hring

end Sys2Proof.Machine
end

section
/-! A request of one item: what the read of an object, and the plain write of one, make of it (R453, R464). -/

namespace Sys2Proof.Machine

/-! ## The servers' parts of the dictionary -/

/-- Of the dictionary only objects, journal, results and what a context keeps have changed: sessions, mailbox and SDO transfer are as before. -/
def KeepsServers (s t : State) : Prop :=
  ∃ objs locals results running journal, t.dict =
    { s.dict with objs := objs, locals := locals, results := results, running := running, journal := journal }

namespace KeepsServers

variable {s t u : State}

theorem of_dict (h : t.dict = s.dict) : KeepsServers s t := ⟨_, _, _, _, _, h⟩

theorem refl (s : State) : KeepsServers s s := of_dict rfl

theorem trans (h : KeepsServers s t) (h' : KeepsServers t u) : KeepsServers s u := by
  obtain ⟨_, _, _, _, _, h⟩ := h
  obtain ⟨_, _, _, _, _, h'⟩ := h'
  rw [h] at h'
  exact ⟨_, _, _, _, _, h'⟩

theorem ite {c : Prop} [Decidable c] (ht : KeepsServers s t) (hu : KeepsServers s u) : KeepsServers s (if c then t else u) := by
  split
  · exact ht
  · exact hu

theorem foldl {α : Type} {f : State → α → State} (h : ∀ s a, KeepsServers s (f s a)) (l : List α) (s : State) : KeepsServers s (l.foldl f s) :=
  List.foldlRecOn (motive := KeepsServers s) l f (refl s) fun t ht a _ => ht.trans (h t a)

theorem wr (s : State) (o : Obj) (i v : Nat) : KeepsServers s (s.wr o i v) := ⟨_, _, _, _, _, rfl⟩

theorem bump (s : State) (o : Obj) (i n : Nat) : KeepsServers s (s.bump o i n) := wr ..

theorem sessMgmt (h : KeepsServers s t) : t.dict.sessMgmt = s.dict.sessMgmt := by obtain ⟨_, _, _, _, _, h⟩ := h; rw [h]
theorem sdo (h : KeepsServers s t) : t.dict.sdo = s.dict.sdo := by obtain ⟨_, _, _, _, _, h⟩ := h; rw [h]
theorem mbResponse (h : KeepsServers s t) : t.dict.mbResponse = s.dict.mbResponse := by obtain ⟨_, _, _, _, _, h⟩ := h; rw [h]
theorem mbStatus (h : KeepsServers s t) : t.dict.mbStatus = s.dict.mbStatus := by obtain ⟨_, _, _, _, _, h⟩ := h; rw [h]

end KeepsServers

theorem State.journalOffer_keepsServers (s : State) : KeepsServers s s.journalOffer := by
  obtain h | ⟨c, e, hadmit, h⟩ := journalOffer_cases s
  · rw [h]
    exact .refl s
  · obtain ⟨u, d, m, hoffer, hd⟩ := offer_admitted (s := s) (c := c) (ty := 4) (b := e.bytes) (r := .journal e.seq)
      (by rw [JEntry.bytes_length]; exact hadmit)
    rw [h, hoffer, hd]
    exact ⟨_, _, _, _, _, rfl⟩

theorem State.storeWritten_keepsServers (s : State) (c : Ctx) (o : Obj) (i x : Nat) : KeepsServers s (s.storeWritten c o i x) := by
  have wrote : KeepsServers s (s.wrCtx c o i x) := by
    unfold State.wrCtx
    split
    · exact ⟨_, _, _, _, _, rfl⟩
    · exact .wr ..
  unfold State.storeWritten
  dsimp only
  split
  · exact .refl s
  · split
    · split
      · exact wrote.trans (.wr ..)
      · exact wrote
    · split
      · exact ⟨_, _, _, _, _, rfl⟩
      · exact .refl s

theorem State.journalAdd_keepsServers (s : State) (c : Ctx) (o : Obj) (i : Nat) (v : List Byte) : KeepsServers s (s.journalAdd c o i v) := by
  unfold State.journalAdd
  dsimp only
  split
  · split
    · exact ⟨_, _, _, _, _, rfl⟩
    · split <;> exact ⟨_, _, _, _, _, rfl⟩
  · exact ⟨_, _, _, _, _, rfl⟩

theorem acceptBase_keepsServers (c : Ctx) (o : Obj) (i : Nat) (v : List Byte) (s : State) : KeepsServers s (acceptBase c o i v s) := by
  have stored := s.storeWritten_keepsServers c o i (leNat v)
  unfold acceptBase
  dsimp only
  split
  · exact stored
  · exact (stored.trans (State.journalAdd_keepsServers ..)).trans (State.journalOffer_keepsServers _)

/-! ## The end of a request -/

theorem ownEnable_key (c : Ctx) : (ownEnable c).key 0 ≠ idKey := by
  have path (k : Nat) : (pathObj k).key 0 ≠ idKey := by
    unfold pathObj
    split <;> decide
  exact path _

theorem ownEnable_not_writeSide (c : Ctx) : ¬ writeSide ((ownEnable c).key 0) := by
  have path (k : Nat) : ¬ writeSide ((pathObj k).key 0) := by
    unfold pathObj
    split <;> exact not_writeSide (by decide) (by decide)
  exact path _

theorem State.pathEnable_eq (s : State) (c : Ctx) : s.pathEnable c = s.rd (ownEnable c) := by
  cases c <;> rfl

/-- A path that is enabled keeps the five from being all disabled (R457). -/
theorem State.not_allDisabled {s : State} {c : Ctx} (h : s.rd (ownEnable c) ≠ 0) : s.allDisabled = false := by
  rw [Bool.eq_false_iff]
  intro hall
  rw [State.allDisabled, List.all_eq_true] at hall
  have own := hall (ctxPath c) (by rw [List.mem_range]; cases c <;> simp [ctxPath])
  exact h (by simpa [ownEnable] using own)

/-- The enable of the path that carried a request, written back to what it was (log 94). -/
def State.restored (s : State) (c : Ctx) (old : Nat) : State := (s.wr (ownEnable c) 0 old).wr (ownEnable c) 0 old

theorem State.restored_rd {s : State} {c : Ctx} {p : Obj} {j : Nat} (h : p.key j ≠ (ownEnable c).key 0) (old : Nat) :
    (s.restored c old).rd p j = s.rd p j :=
  (DictUnit.rd_wr_other h.symm (ownEnable_key c)).trans (DictUnit.rd_wr_other h.symm (ownEnable_key c))

theorem State.restored_keepsServers (s : State) (c : Ctx) (old : Nat) : KeepsServers s (s.restored c old) := (KeepsServers.wr ..).trans (.wr ..)

/-- An item answered OK that leaves some path enabled. -/
theorem runItems_one {c : Ctx} {i : Item} {s t : State} {v : List Byte} (h : runItem c i s = (some ⟨i.op, i.sub, i.idx, 0, v⟩, t))
    (hown : i.op = 2 → s.rd (ownEnable c) ≠ 0 ∧ t.rd (ownEnable c) = s.rd (ownEnable c)) :
    runItems c (s.rd (ownEnable c)) [i] (s.rd (ownEnable c)) [] s =
      (some [⟨i.op, i.sub, i.idx, 0, v⟩], t.restored c (s.rd (ownEnable c))) := by
  have enabled : ¬ (i.op = 2 ∧ True ∧ (t.wr (ownEnable c) 0 (s.rd (ownEnable c))).allDisabled = true) := by
    rintro ⟨hop, -, hall⟩
    have on : (t.wr (ownEnable c) 0 (s.rd (ownEnable c))).rd (ownEnable c) ≠ 0 := by
      rw [show (t.wr (ownEnable c) 0 (s.rd (ownEnable c))).rd (ownEnable c) = _ from DictUnit.rd_wr_same (ownEnable_key c)]
      exact (hown hop).1
    rw [State.not_allDisabled on] at hall
    exact absurd hall (by decide)
  have next : (if i.op = 2 ∧ True ∧ i.idx = (ownEnable c).idx ∧ i.sub = (ownEnable c).sub then t.rd (ownEnable c)
      else s.rd (ownEnable c)) = s.rd (ownEnable c) := by
    split
    next own => exact (hown own.1).2
    next => rfl
  simp only [runItems, h, next, if_neg enabled, List.reverse_singleton, State.restored]

theorem readEffect_outbox (o : Obj) (i : Nat) (s : State) : (readEffect o i s).outbox = s.outbox := by
  unfold readEffect
  split
  · rfl
  · split <;> rfl

theorem readEffect_keepsServers (o : Obj) (i : Nat) (s : State) : KeepsServers s (readEffect o i s) := by
  unfold readEffect
  split
  · exact .wr ..
  · split
    · exact .of_dict rfl
    · exact .refl s

/-- An answer that has just been put out is taken back. -/
theorem takeAnswer_put {n : Nat} {s : State} (h : s.outbox.length = n) (c : Ctx) (idx sub code : Nat) (v : List Byte) :
    takeAnswer n (s.put (.answer c idx sub code v)) = (some (code, v), s) := by
  subst h
  have hlast : (s.put (.answer c idx sub code v)).outbox = s.outbox ++ [.answer c idx sub code v] := rfl
  unfold takeAnswer
  rw [hlast, List.getLast?_concat, List.dropLast_concat, if_pos (by simp)]
  rfl

theorem runItem_read {c : Ctx} {o : Obj} {idx sub : Nat} {s : State} (h : ReadsAt c o idx sub s) :
    runItem c ⟨1, sub, idx, []⟩ s =
      (some ⟨1, sub, idx, 0, readBytes c o idx sub s⟩, readEffect o (instOf o (idx * 256 + sub)) s) := by
  obtain ⟨hobj, hserved, hjudge⟩ := h
  have answers : dictRead c idx sub [] s = (readEffect o (instOf o (idx * 256 + sub)) s).put
      (.answer c (o.key (instOf o (idx * 256 + sub)) / 256) (o.key (instOf o (idx * 256 + sub)) % 256) 0 (readBytes c o idx sub s)) := by
    simp only [dictRead, hobj, ne_eq, not_true, false_and, if_false, readObj, hserved, Bool.true_eq_false, hjudge, if_true]
  simp only [runItem, if_true, answers, takeAnswer_put (congrArg List.length (readEffect_outbox ..))]

theorem runItem_plainWrite {c : Ctx} {o : Obj} {idx sub : Nat} {v : List Byte} {s : State} (h : PlainWrite c o idx sub v s) :
    runItem c ⟨2, sub, idx, v⟩ s = (some ⟨2, sub, idx, 0, []⟩, acceptBase c o (instOf o (idx * 256 + sub)) v s) := by
  obtain ⟨hobj, hplain, haccepted, -, -, -, -, hid, -⟩ := h
  obtain ⟨u, d, m, hb, -⟩ := acceptBase_frame c o (instOf o (idx * 256 + sub)) v s hid
  have hout : (acceptBase c o (instOf o (idx * 256 + sub)) v s).outbox = s.outbox := by rw [hb]
  have answers : dictWrite c idx sub v s = (acceptBase c o (instOf o (idx * 256 + sub)) v s).put
      (.answer c (o.key (instOf o (idx * 256 + sub)) / 256) (o.key (instOf o (idx * 256 + sub)) % 256) 0 []) := by
    simp only [dictWrite, hobj, writeAny, hplain]
    exact writeObj_accepted haccepted.1 haccepted.2
  simp only [runItem, OfNat.ofNat_ne_one, if_false, answers, takeAnswer_put (congrArg List.length hout)]

/-! ## A request of one item -/

/-- A request that reads one object. -/
theorem runRequest_read {c : Ctx} {o : Obj} {idx sub : Nat} {s : State} (h : ReadsAt c o idx sub s) (seq : Nat) :
    ∃ t, runRequest c seq [⟨1, sub, idx, []⟩] s = (some (oneReply s seq 1 idx sub (readBytes c o idx sub s)), t) ∧ KeepsServers s t ∧
      t.outbox = s.outbox ∧ t.dbg = s.dbg ∧ t.eft = s.eft := by
  refine ⟨(readEffect o (instOf o (idx * 256 + sub)) s).restored c (s.rd (ownEnable c)), ?_, ?_, readEffect_outbox .., ?_, ?_⟩
  · rw [runRequest, runItems_one (i := ⟨1, sub, idx, []⟩) (runItem_read h) fun hop => absurd (show 1 = 2 from hop) (by decide)]
  · exact (readEffect_keepsServers ..).trans (State.restored_keepsServers ..)
  · exact Part.same_of_others (p := .dbg) (readEffect_off (m := Part.dbg.others) (by decide) o _ s)
  · exact Part.same_of_others (p := .eft) (readEffect_off (m := Part.eft.others) (by decide) o _ s)

/-- A request with a plain write of one object. -/
theorem runRequest_plainWrite {c : Ctx} {o : Obj} {idx sub : Nat} {v : List Byte} {s : State} (h : PlainWrite c o idx sub v s) (seq : Nat) :
    ∃ t, runRequest c seq [⟨2, sub, idx, v⟩] s = (some (oneReply s seq 2 idx sub []), t) ∧ KeepsServers s t ∧
      t.outbox = s.outbox ∧ t.dbg = s.dbg ∧ t.eft = s.eft ∧ t.rd o (instOf o (idx * 256 + sub)) = leNat v := by
  have ran := runItem_plainWrite h
  obtain ⟨-, -, haccepted, hrw, hbanked, hlocal, hside, hid, hown⟩ := h
  obtain ⟨u, d, m, hb, hrd, hval⟩ := acceptBase_frame c o (instOf o (idx * 256 + sub)) v s hid
  have servers := acceptBase_keepsServers c o (instOf o (idx * 256 + sub)) v s
  have value : (acceptBase c o (instOf o (idx * 256 + sub)) v s).rd o (instOf o (idx * 256 + sub)) = leNat v := by
    rw [hb]
    exact hval hbanked hrw hlocal hside
  have enable : (acceptBase c o (instOf o (idx * 256 + sub)) v s).rd (ownEnable c) = s.rd (ownEnable c) := by
    rw [hb]
    exact hrd _ _ (fun e => hown e.symm) (ownEnable_not_writeSide c)
  have on : s.rd (ownEnable c) ≠ 0 := by
    rw [← State.pathEnable_eq]
    intro h0
    have hjudge := haccepted.2
    rw [judgeWrite, if_pos (by omega)] at hjudge
    exact absurd hjudge (by decide)
  refine ⟨(acceptBase c o (instOf o (idx * 256 + sub)) v s).restored c (s.rd (ownEnable c)), ?_, ?_, ?_, ?_, ?_, ?_⟩
  · rw [runRequest, runItems_one (i := ⟨2, sub, idx, v⟩) ran fun _ => ⟨on, enable⟩]
  · exact servers.trans (State.restored_keepsServers ..)
  · show (acceptBase c o (instOf o (idx * 256 + sub)) v s).outbox = s.outbox
    rw [hb]
  · show (acceptBase c o (instOf o (idx * 256 + sub)) v s).dbg = s.dbg
    rw [hb]
  · show (acceptBase c o (instOf o (idx * 256 + sub)) v s).eft = s.eft
    rw [hb]
  · rw [State.restored_rd hown, value]

end Sys2Proof.Machine
end

section
/-! The instructions of the TAP and the DICT data register (O46). -/

namespace Sys2Proof.Machine

section
variable {s : State}

theorem State.tapSelect_served (h : s.tapServed = true) (code : Nat) :
    s.tapSelect code = ({ s with dbg := { s.dbg with ir := code } } : State).put (.tapIr 1) := by
  rw [State.tapSelect, if_pos h]

/-- The boundary scan: what comes out has as many bits as go in. -/
theorem State.tapScan_served (h : s.tapServed = true) (code : Nat) (bits : List Bool) : ∃ v : List Bool, v.length = bits.length ∧
    s.tapScan code bits = { s with dbg := { s.dbg with ir := code, boundary := bits }, outbox := s.outbox ++ [.tapIr 1, .tapBits v], free := s.free + 1 } := by
  refine ⟨bitsOf bits.length (Config.freeValue s.free), by simp [bitsOf], ?_⟩
  rw [State.tapScan, if_pos h, State.tapSelect_served h]
  simp only [State.draw, State.put, List.append_assoc, List.singleton_append]

theorem State.tapBypass_served (h : s.tapServed = true) {code : Nat} (hcode : code ∉ [0x00, 0x01, 0x02, 0x10]) (bits : List Bool) :
    s.tapBypass code bits = { s with dbg := { s.dbg with ir := code, bypass := bits.getLastD false },
                                     outbox := s.outbox ++ [.tapIr 1, .tapBits ((false :: bits).take bits.length)] } := by
  have hbypass : bypassCode code = true := by simpa [bypassCode, and_assoc] using hcode
  rw [State.tapBypass, if_pos (by rw [h, hbypass]; rfl), State.tapSelect_served h]
  simp only [State.put, List.append_assoc, List.singleton_append]

theorem State.tapBypass_other {code : Nat} (hcode : code ∈ [0x00, 0x01, 0x02, 0x10]) (bits : List Bool) : s.tapBypass code bits = s := by
  have hbypass : bypassCode code = false := by
    rw [← Bool.not_eq_true]
    simpa [bypassCode, and_assoc, or_iff_not_imp_left] using hcode
  rw [State.tapBypass, if_neg (by rw [hbypass, Bool.and_false]; decide)]

/-- The state in which a DICT operation acts: DICT is the instruction. -/
def State.atDict (s : State) : State := if s.dbg.ir = 0x10 then s else s.tapSelect 0x10

theorem dictOp_served (h : s.tapServed = true) (f : State → State) : dictOp f s = f s.atDict := by
  rw [dictOp, if_pos h]
  rfl

/-- Selecting DICT changes the instruction and what comes out of it. -/
theorem State.atDict_eq (h : s.tapServed = true) : ∃ l, s.atDict = { s with dbg := { s.dbg with ir := 0x10 }, outbox := s.outbox ++ l } := by
  unfold State.atDict
  split
  next hir => exact ⟨[], by rw [← hir, List.append_nil]⟩
  next => exact ⟨_, State.tapSelect_served h _⟩

end

/-- GO, with the state before the request is executed. -/
def State.dictReady (s : State) : State := { s with dbg := { s.dbg with respAt := 0, response := [] } }

theorem dictGo_of {s : State} (hstate : s.dbg.state ≠ 1) (hserved : s.pathServed .sdp = true) {r : Option (List Byte)} {u : State}
    (h : localRequest .sdp s.dbg.request s.dictReady = (r, u)) : dictGo s = { u with dbg := { u.dbg with response := r.getD [], state := 1 } } := by
  have goes : ¬ (s.dbg.state = 1 ∨ s.pathServed .sdp = false) := by simp [hstate, hserved]
  rw [dictGo, if_neg goes]
  show (match localRequest .sdp s.dbg.request s.dictReady with
    | (r, u) => ({ u with dbg := { u.dbg with response := r.getD [], state := 1 } } : State)) = _
  rw [h]

theorem localRequest_error {c : Ctx} {b : List Byte} {k : Nat} (h : judgePdu none b = .error k) (s : State) :
    localRequest c b s = (some (errorPdu s (pduSeq b) k), s) := by rw [localRequest, h]

theorem localRequest_discard {c : Ctx} {b : List Byte} (h : judgePdu none b = .discard) (s : State) :
    localRequest c b s = (none, s.bump Objs.oap_drop) := by rw [localRequest, h]

theorem localRequest_items {c : Ctx} {b : List Byte} {l : List Item} (h : judgePdu none b = .items l) (s : State) :
    localRequest c b s = runRequest c (pduSeq b) l s := by rw [localRequest, h]

theorem dictGet_byte {d : State} {b : Byte} (hstate : d.dbg.state ≠ 1) (hbyte : d.dbg.response[d.dbg.respAt]? = some b) :
    (dictGet d).dbg = { d.dbg with respAt := d.dbg.respAt + 1 } ∧ (dictGet d).outbox = d.outbox ++ [.tap (d.dbg.state * 2 ^ 12 + b.toNat)] := by
  simp only [dictGet, if_neg hstate, hbyte]
  exact ⟨rfl, rfl⟩

theorem dictGet_free {d : State} (h : d.dbg.state = 1 ∨ d.dbg.response[d.dbg.respAt]? = none) : ∃ b : Byte,
    (dictGet d).dbg = { d.dbg with respAt := d.dbg.respAt + 1 } ∧ (dictGet d).outbox = d.outbox ++ [.tap (d.dbg.state * 2 ^ 12 + b.toNat)] := by
  have none : (if d.dbg.state = 1 then none else d.dbg.response[d.dbg.respAt]?) = none := by
    obtain h | h := h
    · rw [if_pos h]
    · rw [h, ite_self]
  simp only [dictGet, none]
  refine ⟨BitVec.ofNat 8 (Config.freeValue d.free % 256), rfl, ?_⟩
  rw [show (BitVec.ofNat 8 (Config.freeValue d.free % 256)).toNat = Config.freeValue d.free % 256 by simp]
  rfl

/-- Settles O46: each instruction is its function where the TAP is served, and a request is executed as its items are. -/
theorem tapInstructions : Obligations.TapInstructions := by
  unfold Obligations.TapInstructions
  intro s
  refine ⟨fun hserved => ?_, ?_, ?_⟩
  · intro d
    have hd : d = s.atDict := rfl
    have op (f : State → State) : (Host.Outcome.next (dictOp f s) : Out) = .next (f d) := congrArg _ (dictOp_served hserved f)
    obtain ⟨l, hl⟩ := s.atDict_eq hserved
    rw [← hd] at hl
    have hstate : d.dbg.state = s.dbg.state := by rw [hl]
    have hreq : d.dbg.request = s.dbg.request := by rw [hl]
    have hpath : d.pathServed .sdp = s.pathServed .sdp := by rw [hl]; rfl
    clear_value d
    refine ⟨?_, ?_, by decide, by decide, by decide, by decide, ?_, ?_, ?_, ?_, ?_, ?_, ?_, ?_, ?_, ?_⟩
    · exact congrArg Host.Outcome.next (if_pos hserved)
    · refine congrArg Host.Outcome.next ((if_pos hserved).trans ?_)
      rw [State.tapSelect_served hserved]
      simp only [State.put, List.append_assoc, List.singleton_append]
      rfl
    · intro bits row hrow
      rw [List.mem_cons, List.mem_singleton] at hrow
      obtain rfl | rfl := hrow
      · obtain ⟨v, hv, h⟩ := State.tapScan_served hserved 0x00 bits
        exact ⟨v, hv, congrArg Host.Outcome.next h⟩
      · obtain ⟨v, hv, h⟩ := State.tapScan_served hserved 0x01 bits
        exact ⟨v, hv, congrArg Host.Outcome.next h⟩
    · intro code bits
      exact ⟨fun h => congrArg Host.Outcome.next (State.tapBypass_served hserved h bits),
        fun h => congrArg Host.Outcome.next (State.tapBypass_other h bits)⟩
    · refine (op _).trans ?_
      rw [dictCapture, hstate, Nat.add_zero]
    · intro b h
      refine (op _).trans ?_
      rw [dictPut, if_pos (hstate.trans h)]
    · intro b h hroom
      refine (op _).trans ?_
      rw [dictPut, hstate, hreq, h, if_neg (by decide), if_neg (by simp; omega)]
    · intro b h hfull
      refine (op _).trans ?_
      rw [dictPut, hstate, hreq, h, if_neg (by decide), if_pos (.inr hfull)]
    · intro b h
      refine ⟨(op _).trans ?_, (op _).trans ?_⟩
      · rw [dictPut, hstate, h, if_neg (by decide), if_pos (.inl rfl)]
      · rw [dictGo, hstate, h, if_pos (.inl rfl)]
    · intro b h hbyte
      have got := dictGet_byte (d := d) (b := b) (by rw [hstate]; exact h) (by rw [hl]; exact hbyte)
      rw [hstate] at got
      exact ⟨dictGet d, op _, by rw [got.1, hl], got.2⟩
    · intro h
      obtain ⟨b, hdbg, hout⟩ := dictGet_free (d := d) (by rw [hl]; exact h)
      rw [hstate] at hout
      exact ⟨dictGet d, b, op _, by rw [hdbg, hl], hout⟩
    · intro h hsdp b s0
      have h' : d.dbg.state ≠ 1 := by rw [hstate]; exact h
      have hsdp' : d.pathServed .sdp = true := by rw [hpath]; exact hsdp
      have go {r : Option (List Byte)} {u : State} (hr : localRequest .sdp b s0 = (r, u)) :
          (Host.Outcome.next (dictOp dictGo s) : Out) = .next { u with dbg := { u.dbg with response := r.getD [], state := 1 } } :=
        (op _).trans (congrArg _ (dictGo_of h' hsdp' (by rw [hreq]; exact hr)))
      have hdev : s0.devId = s.devId := by rw [show s0 = d.dictReady from rfl, hl]; rfl
      have herr (k : Nat) : errorPdu s0 (pduSeq b) k = errorPdu s (pduSeq b) k := by rw [errorPdu, errorPdu, pduHeader, pduHeader, hdev]
      have hone (x y z : Nat) (v : List Byte) : oneReply s0 (pduSeq b) x y z v = oneReply s (pduSeq b) x y z v := by
        rw [oneReply, oneReply, responsePdu, responsePdu, pduHeader, pduHeader, hdev]
      refine ⟨?_, ?_, ?_, ?_, ?_⟩
      · intro k hk
        exact (go (localRequest_error hk s0)).trans (by rw [herr]; rfl)
      · intro hk
        refine ⟨_, go (localRequest_discard hk s0), rfl, rfl, rfl, ?_⟩
        refine (State.bump_rd_same s0 (o := Objs.oap_drop) (i := 0) (by decide) 1).trans ?_
        rw [show s0 = d.dictReady from rfl, hl]
        rfl
      · intro l' r u hk hrun
        exact go ((localRequest_items hk s0).trans hrun)
      · intro o idx sub hk hreads
        obtain ⟨t, hrun, -, hout, hdbg, -⟩ := runRequest_read hreads (pduSeq b)
        refine ⟨_, go ((localRequest_items hk s0).trans hrun), rfl, ?_, hone .., hout⟩
        exact congrArg DebugUnit.respAt hdbg
      · intro o idx sub v hk hplain
        obtain ⟨t, hrun, -, -, hdbg, -, hvalue⟩ := runRequest_plainWrite hplain (pduSeq b)
        refine ⟨_, go ((localRequest_items hk s0).trans hrun), rfl, ?_, hone .., hvalue⟩
        exact congrArg DebugUnit.respAt hdbg
  · intro h
    have empty : (if s.dbg.response.isEmpty = true then 0 else 2) = if s.dbg.response = [] then 0 else 2 := by
      cases s.dbg.response <;> rfl
    rw [State.sdpTick, if_pos h, empty]
  · intro h bits code b i hi
    have off (f : State → State) : (Host.Outcome.next (dictOp f s) : Out) = .next s := by rw [dictOp, h]; rfl
    have unserved (t : State) : (Host.Outcome.next (if s.tapServed = true then t else s) : Out) = .next s := by rw [h]; rfl
    have bypassed : s.tapBypass code.toNat bits = s := by rw [State.tapBypass, h]; rfl
    simp only [List.mem_cons, List.not_mem_nil, or_false] at hi
    rcases hi with rfl | rfl | rfl | rfl | rfl | rfl | rfl | rfl | rfl
    · exact unserved _
    · exact unserved _
    · exact unserved _
    · exact congrArg Host.Outcome.next bypassed
    · exact unserved _
    · exact off _
    · exact off _
    · exact off _
    · exact off _

end Sys2Proof.Machine
end

section
/-! Requests of the mailbox and of the management ports (O44). -/

namespace Sys2Proof.Machine

/-! ## The mailbox (R469) -/

theorem satAdd_satAdd (w a m n : Nat) : satAdd w (satAdd w a m) n = satAdd w a (m + n) := by
  unfold satAdd
  omega

theorem oneReply_congr {s t : State} (h : t.devId = s.devId) (seq op idx sub : Nat) (v : List Byte) :
    oneReply t seq op idx sub v = oneReply s seq op idx sub v := by
  rw [oneReply, oneReply, responsePdu, responsePdu, pduHeader, pduHeader, h]

theorem errorPdu_congr {s t : State} (h : t.devId = s.devId) (seq k : Nat) : errorPdu t seq k = errorPdu s seq k := by
  rw [errorPdu, errorPdu, pduHeader, pduHeader, h]

/-- What a doorbell leaves in MB_REQUEST. -/
def mbHeld (s : State) (request : List Byte) : List Byte := if request = [] then s.dict.mbRequest else mbOverlay s.dict.mbRequest 0 request

/-- The state in which the mailbox executes its request. -/
def State.mbBusy (s : State) (request : List Byte) (ctrl : Nat) : State :=
  { s with dict := { s.dict with mbRequest := mbHeld s request, mbCtrl := ctrl, mbStatus := 1 } }

theorem State.mbExecute_of {s : State} {r : Option (List Byte)} {u : State}
    (h : localRequest .pcie (mbPdu s.dict.mbRequest) { s with dict := { s.dict with mbStatus := 1 } } = (r, u)) :
    s.mbExecute = { u with dict := { u.dict with mbRun := r.getD [] } } := by
  unfold State.mbExecute
  rw [h]

theorem mailbox_executes {s : State} (hserved : s.pathServed .pcie = true) (hidle : s.dict.mbStatus ≠ 1) (request : List Byte) (ctrl : Nat)
    {r : Option (List Byte)} {u : State} (h : localRequest .pcie (mbPdu (mbHeld s request)) (s.mbBusy request ctrl) = (r, u)) :
    mailbox s request ctrl = { u with dict := { u.dict with mbRun := r.getD [] } } := by
  have written : (if request.isEmpty = true then s else s.mbWrite 0 request) = { s with dict := { s.dict with mbRequest := mbHeld s request } } := by
    unfold mbHeld
    cases request with
    | nil => rfl
    | cons b l => rw [List.isEmpty_cons, if_neg Bool.false_ne_true, State.mbWrite, if_neg hidle, if_neg (List.cons_ne_nil b l)]
  unfold State.mbBusy at h
  unfold mailbox
  rw [if_neg (by rw [hserved]; decide), written]
  generalize mbHeld s request = held at h
  dsimp only
  rw [if_neg hidle]
  exact State.mbExecute_of h

theorem mailbox_busy {s : State} (hserved : s.pathServed .pcie = true) (hbusy : s.dict.mbStatus = 1) (request : List Byte) (ctrl : Nat) :
    mailbox s request ctrl =
      ({ (if request = [] then s else s.bump Objs.mb_ignored) with dict :=
        { (if request = [] then s else s.bump Objs.mb_ignored).dict with mbCtrl := ctrl } } : State).bump Objs.mb_ignored := by
  have written : (if request.isEmpty = true then s else s.mbWrite 0 request) = if request = [] then s else s.bump Objs.mb_ignored := by
    cases request with
    | nil => rfl
    | cons b l => simp [State.mbWrite, hbusy]
  have still : (if request = [] then s else s.bump Objs.mb_ignored).dict.mbStatus = 1 := by
    split <;> exact hbusy
  simp only [mailbox, hserved, Bool.true_eq_false, if_false, written, still, if_true]

theorem State.bump_bump_rd {s : State} {o : Obj} {i : Nat} (h : o.key i ≠ idKey) :
    ((s.bump o i).bump o i).rd o i = satAdd (8 * o.ty.size) (s.rd o i) 2 := by
  rw [State.bump_rd_same _ h, State.bump_rd_same _ h, satAdd_satAdd]

theorem State.msix_keepsServers (s : State) (v : Nat) : KeepsServers s (s.msix v) := by
  unfold State.msix
  dsimp only
  exact .ite (.of_dict rfl) (.of_dict rfl)

/-! ## The end of a session (R467) -/

theorem insertStatus_keepsServers (s : State) (x : Thread) (h : Handle) : KeepsServers s (insertStatus s x h).2.2 := by
  have counted (o : Obj) (src a b : Nat) (c : Option (Nat × Nat)) : KeepsServers s ((s.bump o).raise src a b c) :=
    (KeepsServers.bump s o 0 1).trans (.of_dict rfl)
  unfold insertStatus
  split_ifs
  · exact .refl s
  · exact .refl s
  · exact counted ..
  · exact counted ..
  · split
    · exact counted ..
    · exact .of_dict rfl

theorem acceptOp_keepsServers (s : State) (t : Nat) (o : LeapOp) : KeepsServers s (acceptOp s t o) := by
  unfold acceptOp
  dsimp only
  split
  · exact .refl s
  · split
    · exact (insertStatus_keepsServers s _ _).trans (.of_dict rfl)
    · exact .of_dict rfl
    · exact .of_dict rfl

theorem State.settleLock_keepsServers (s : State) (t : Nat) : KeepsServers s (s.settleLock t) := by
  unfold State.settleLock
  dsimp only
  split
  · exact .refl s
  · split
    · exact .refl s
    · exact .ite (.refl s) (acceptOp_keepsServers s t _)

theorem State.dropLocks_keepsServers (s : State) (o : Owner) : KeepsServers s (s.dropLocks o) :=
  KeepsServers.trans (.of_dict rfl) (.foldl (fun t _ => t.settleLock_keepsServers _) _ _)

theorem State.endClaim_keepsServers (s : State) (n : Nat) : KeepsServers s (s.endClaim n) := by
  unfold State.endClaim
  split
  · exact .ite (.of_dict rfl) (.refl s)
  · exact .refl s

/-- A state without what a context keeps in the dictionary. -/
def State.forgotten (s : State) (n : Nat) : State :=
  { s with dict := { s.dict with locals := tclear s.dict.locals (n * 2 ^ 24) (2 ^ 24), results := tclear s.dict.results (n * 2 ^ 24) (2 ^ 24),
                                 running := s.dict.running.filter (fun p => p.ctx ≠ n) } }

theorem State.ctxEnd_keepsServers (s : State) (n : Nat) : KeepsServers s (s.ctxEnd n) :=
  KeepsServers.trans (t := s.forgotten n) ⟨_, _, _, _, _, rfl⟩ ((State.dropLocks_keepsServers _ (.dict n)).trans (State.endClaim_keepsServers _ n))

theorem endSession_sessMgmt (n : Nat) (s : State) : (endSession .mgmt n s).dict.sessMgmt = tdel n s.dict.sessMgmt :=
  (State.ctxEnd_keepsServers _ _).sessMgmt

theorem sessionExpiry_idle {p : OapPath} {n : Nat} {s : State} {x : Session} (hx : tfind (s.sessions p) n = some x)
    (hidle : s.elapsed x.lastF (s.rd Objs.oap_session_timeout * 1000000000) = true) : sessionExpiry p n s = endSession p n s := by
  rw [sessionExpiry, hx]
  exact if_pos hidle

theorem sessionExpiry_not_idle {p : OapPath} {n : Nat} {s : State} {x : Session} (hx : tfind (s.sessions p) n = some x)
    (hbusy : s.elapsed x.lastF (s.rd Objs.oap_session_timeout * 1000000000) = false) : sessionExpiry p n s = s := by
  rw [sessionExpiry, hx]
  exact if_neg (by rw [hbusy]; decide)

/-! ## The response of the mailbox -/

theorem mbTick_empty {s : State} (hbusy : s.dict.mbStatus = 1) (hrun : s.dict.mbRun = []) :
    s.mbTick = { s with dict := { s.dict with mbStatus := 0 } } := by
  unfold State.mbTick
  rw [if_neg (not_not_intro hbusy), hrun, List.isEmpty_nil, if_pos rfl]

/-- The mailbox with its response complete, before the vector. -/
def State.mbDone (s : State) : State := { s with dict := { s.dict with mbResponse := s.dict.mbRun, mbRun := [], mbStatus := 2 } }

theorem mbTick_done {s : State} (hbusy : s.dict.mbStatus = 1) (hrun : s.dict.mbRun ≠ []) :
    s.mbTick = if bit s.dict.mbCtrl 7 then s.mbDone.msix (fld s.dict.mbCtrl 0 7) else s.mbDone := by
  unfold State.mbTick
  rw [if_neg (not_not_intro hbusy), if_neg (by simpa using hrun)]
  rfl

/-! ## Datagrams (R464 to R467) -/

section
variable {s : State} {f b : List Byte} (hserved : s.pathServed (.oapMgmt 0) = true) (hmac : f.take 6 = s.macBytes Objs.mgmt_mac)
include hserved hmac

theorem mgmtFrame_arp (hpayload : mgmtPayload f = some (0x0806, b)) {sha spa : Nat} (harp : arpOf b = some (sha, spa, s.rd Objs.mgmt_ipv4))
    (p : Nat) : mgmtFrame p f s =
      s.put (.mgmt p (beNat (slice f 6 6)) spa 0 (arpReply (s.macBytes Objs.mgmt_mac) (s.rd Objs.mgmt_ipv4) sha spa)) := by
  unfold mgmtFrame
  simp only [hserved, hmac, hpayload, harp, beq_self_eq_true, Bool.true_or, Bool.true_eq_false, if_false, if_true]

theorem mgmtFrame_udp (hpayload : mgmtPayload f = some (0x0800, b)) {src port : Nat} {pdu r : List Byte} {t : State}
    (hudp : udpOf b = some (src, s.rd Objs.mgmt_ipv4, port, oapPort, pdu)) (h : oapDatagram .mgmt src port pdu s = (some r, t)) (p : Nat) :
    mgmtFrame p f s = t.put (.mgmt p (beNat (slice f 6 6)) src port r) := by
  unfold mgmtFrame
  simp only [hserved, hmac, hpayload, hudp, h, beq_self_eq_true, Bool.true_or, Bool.true_eq_false, if_false, and_self, if_true]

end

/-- A state in which a datagram has been counted for the rate of its path. -/
def State.rated (s : State) (x : Nat × Nat) : State := { s with dict := { s.dict with rateMgmt := x } }

theorem oapLimit_eq {s u : State} (h : oapLimit .mgmt s = some u) : ∃ x, u = s.rated x := by
  unfold oapLimit at h
  dsimp only at h
  generalize (if (s.oapCount .mgmt).1 = s.fNs / 1000000000 then (s.oapCount .mgmt).2 else 0) = n at h
  obtain ⟨-, h⟩ := Option.ite_none_left_eq_some.mp h
  exact ⟨_, (Option.some.inj h).symm⟩

section
variable {s : State} {x : Nat × Nat} (henable : s.oapEnable .mgmt ≠ 0) (hlimit : oapLimit .mgmt s = some (s.rated x)) {src port : Nat} {pdu : List Byte}
include henable hlimit

theorem oapDatagram_error {k : Nat} (h : judgePdu (some s.devId) pdu = .error k) :
    oapDatagram .mgmt src port pdu s = (some (errorPdu s (pduSeq pdu) k), s.rated x) := by
  have h' : judgePdu (some (s.rated x).devId) pdu = .error k := h
  simp only [oapDatagram, if_neg henable, hlimit, h']
  rfl

theorem oapDatagram_items {l : List Item} (h : judgePdu (some s.devId) pdu = .items l) :
    oapDatagram .mgmt src port pdu s = sessionRequest .mgmt src port (pduSeq pdu) l (s.rated x) := by
  have h' : judgePdu (some (s.rated x).devId) pdu = .items l := h
  simp only [oapDatagram, if_neg henable, hlimit, h']

end

theorem later_self (w a : Nat) : later w a a = false := by
  have hdiff : (a + 2 ^ w - a % 2 ^ w) % 2 ^ w = 0 := by
    have hparts : a + 2 ^ w - a % 2 ^ w = 2 ^ w * (a / 2 ^ w + 1) := by
      have := Nat.div_add_mod a (2 ^ w)
      rw [Nat.mul_add]
      omega
    rw [hparts, Nat.mul_mod_right]
  simp [later, wrapDiff, toSigned, hdiff]

/-- A request of a session that is new, or newer than the last of its session, is executed. -/
theorem sessionRequest_runs {s : State} {x : Nat × Nat} {src port seq n : Nat} {y : Session}
    (h : (s.sessionOf .mgmt src port = some (n, y) ∧ later 32 seq y.lastSeq = true) ∨
      (s.sessionOf .mgmt src port = none ∧ (List.range 8).find? (fun n => (tfind (s.sessions .mgmt) n).isNone) = some n)) (l : List Item) :
    sessionRequest .mgmt src port seq l (s.rated x) = sessionRun .mgmt n src port seq l (s.rated x) := by
  obtain ⟨hsession, hlater⟩ | ⟨hsession, hplace⟩ := h
  · have hne : y.lastSeq ≠ seq := by
      rintro rfl
      rw [later_self] at hlater
      exact absurd hlater (by decide)
    have hsession : (s.rated x).sessionOf .mgmt src port = some (n, y) := hsession
    simp only [sessionRequest, hsession, if_neg hne, hlater, if_true]
  · have hsession : (s.rated x).sessionOf .mgmt src port = none := hsession
    have hplace : (List.range 8).find? (fun n => (tfind ((s.rated x).sessions .mgmt) n).isNone) = some n := hplace
    simp only [sessionRequest, hsession, State.freeSession, hplace]

theorem sessionRequest_resends {s : State} {x : Nat × Nat} {src port seq n : Nat} {y : Session}
    (h : s.sessionOf .mgmt src port = some (n, y)) (hseq : y.lastSeq = seq) (l : List Item) :
    sessionRequest .mgmt src port seq l (s.rated x) = (some y.lastResp,
      ((s.rated x).setSessions .mgmt (tput n { y with lastF := s.fNs } (s.sessions .mgmt))).bump Objs.oap_resent) := by
  have h : (s.rated x).sessionOf .mgmt src port = some (n, y) := h
  simp only [sessionRequest, h, if_pos hseq]
  rfl

/-- What a session keeps of its last request, where it still stands at its end. -/
def sessionKept (n src port seq start : Nat) (r : List Byte) (z : State) : State :=
  if (z.sessionOf .mgmt src port).isSome then z.setSessions .mgmt (tput n ⟨src, port, seq, r, start⟩ (z.sessions .mgmt)) else z

theorem sessionRun_of {s z : State} {n src port seq : Nat} {l : List Item} {r : List Byte}
    (h : runRequest (.oapMgmt (Fin.ofNat 8 n)) seq l (s.setSessions .mgmt (tput n ⟨src, port, seq, [], s.fNs⟩ (s.sessions .mgmt))) = (some r, z)) :
    sessionRun .mgmt n src port seq l s = (some r, sessionKept n src port seq s.fNs r z) := by
  have h : runRequest (OapPath.ctx .mgmt (Fin.ofNat 8 n)) seq l (s.setSessions .mgmt (tput n ⟨src, port, seq, [], s.fNs⟩ (s.sessions .mgmt))) = (some r, z) := h
  simp only [sessionRun, h]
  rfl

theorem sessionKept_outbox (n src port seq start : Nat) (r : List Byte) (z : State) : (sessionKept n src port seq start r z).outbox = z.outbox := by
  unfold sessionKept
  split <;> rfl

theorem sessionKept_rd (n src port seq start : Nat) (r : List Byte) (z : State) (o : Obj) (i : Nat) :
    (sessionKept n src port seq start r z).rd o i = z.rd o i := by
  unfold sessionKept
  split <;> rfl

theorem mem_tput_same {α : Type} (k : Nat) (v : α) (t : Tab α) : (k, v) ∈ tput k v t := by
  induction t with
  | nil => exact List.mem_singleton_self _
  | cons p t ih =>
    simp only [tput]
    split_ifs
    · exact List.mem_cons_self
    · exact List.mem_cons_self
    · exact List.mem_cons_of_mem _ ih

theorem sessionKept_found {n src port seq start : Nat} {r r' : List Byte} {z : State} {l : Tab Session}
    (h : z.dict.sessMgmt = tput n ⟨src, port, seq, r', start⟩ l) :
    tfind ((sessionKept n src port seq start r z).sessions .mgmt) n = some ⟨src, port, seq, r, start⟩ := by
  have stands : (z.sessionOf .mgmt src port).isSome = true := by
    rw [State.sessionOf, List.find?_isSome]
    exact ⟨(n, ⟨src, port, seq, r', start⟩), by rw [State.sessions, h]; exact mem_tput_same .., by simp⟩
  rw [sessionKept, if_pos stands]
  exact tfind_tput_same ..

/-- Settles O44: what a request does is what its one item does, and a session keeps its answer. -/
theorem requestsAreAnswered : Obligations.RequestsAreAnswered := by
  unfold Obligations.RequestsAreAnswered
  intro s
  refine ⟨?_, ?_, ?_, ?_, ?_, ?_, ?_⟩
  · intro request ctrl hserved hbusy
    refine ⟨_, rfl, ?_⟩
    rw [mailbox_busy hserved hbusy]
    by_cases hreq : request = []
    · simp only [hreq, if_true]
      exact ⟨rfl, hbusy, rfl, rfl, rfl, State.bump_rd_same { s with dict := { s.dict with mbCtrl := ctrl.toNat } } (by decide) 1⟩
    · simp only [if_neg hreq]
      exact ⟨rfl, hbusy, rfl, rfl, rfl, State.bump_bump_rd (s := { s with dict := { s.dict with mbCtrl := ctrl.toNat } }) (by decide)⟩
  · intro request ctrl hserved hidle held b s0
    have go {r : Option (List Byte)} {u : State} (hr : localRequest .pcie b s0 = (r, u)) :
        (exec (.mbDoorbell request ctrl) s : Out) = .next { u with dict := { u.dict with mbRun := r.getD [] } } :=
      congrArg Host.Outcome.next (mailbox_executes hserved hidle request ctrl.toNat hr)
    have hdev : s0.devId = s.devId := rfl
    have hout : s0.outbox = s.outbox := rfl
    have hstat : s0.dict.mbStatus = 1 := rfl
    have hdrop : s0.rd Objs.oap_drop = s.rd Objs.oap_drop := rfl
    clear_value s0
    refine ⟨?_, ?_, ?_, ?_, ?_⟩
    · intro l r u hjudge hrun
      exact go ((localRequest_items hjudge s0).trans hrun)
    · intro o idx sub hjudge hreads
      obtain ⟨t, hrun, hservers, htout, -, -⟩ := runRequest_read hreads (pduSeq b)
      exact ⟨_, go ((localRequest_items hjudge s0).trans hrun), hservers.mbStatus.trans hstat, htout.trans hout, oneReply_congr hdev ..⟩
    · intro o idx sub v hjudge hwrites
      obtain ⟨t, hrun, hservers, htout, -, -, hval⟩ := runRequest_plainWrite hwrites (pduSeq b)
      exact ⟨_, go ((localRequest_items hjudge s0).trans hrun), hservers.mbStatus.trans hstat, htout.trans hout, oneReply_congr hdev .., hval⟩
    · intro k hjudge
      rw [go (localRequest_error hjudge s0), Option.getD_some, errorPdu_congr hdev]
    · intro hjudge
      exact ⟨_, go (localRequest_discard hjudge s0), hstat, rfl, hout, hdrop ▸ State.bump_rd_same s0 (by decide) 1⟩
  · intro hbusy e
    refine ⟨fun hrun => ?_, fun hrun => ?_⟩
    · rw [mbTick_empty hbusy hrun]
      exact ⟨rfl, rfl⟩
    · rw [mbTick_done hbusy hrun]
      have off : ¬ (false = true) := Bool.false_ne_true
      refine ⟨?_, ?_, fun hirq hhost hmask => ?_, fun hirq hheld => ?_, fun hirq => ?_⟩
      · split
        · exact (State.msix_keepsServers s.mbDone _).mbStatus
        · rfl
      · split
        · exact (State.msix_keepsServers s.mbDone _).mbResponse
        · rfl
      · rw [if_pos hirq]
        exact State.msix_sent (s := s.mbDone) (decide_eq_false hhost) hmask
      · rw [if_pos hirq]
        exact State.msix_held (s := s.mbDone) hheld
      · rw [hirq, if_neg off]
        rfl
  · intro p f b sha spa hserved hmac hpayload harp
    exact congrArg Host.Outcome.next (mgmtFrame_arp hserved hmac hpayload harp _)
  · intro p f b pdu src port u hserved hmac hpayload hudp henable hlimit
    obtain ⟨x, rfl⟩ := oapLimit_eq hlimit
    have go {r : List Byte} {t : State} (h : oapDatagram .mgmt src port pdu s = (some r, t)) :
        (exec (.oapRequest p f) s : Out) = .next (t.put (.mgmt p (beNat (slice f 6 6)) src port r)) :=
      congrArg Host.Outcome.next (mgmtFrame_udp hserved hmac hpayload hudp h _)
    refine ⟨fun k hjudge => ⟨_, go (oapDatagram_error henable hlimit hjudge), rfl⟩, ?_, ?_⟩
    · intro n y hsession c w
      have ran {l : List Item} {r : List Byte} {z : State} (hjudge : judgePdu (some s.devId) pdu = .items l)
          (hrun : runRequest c (pduSeq pdu) l w = (some r, z)) :=
        go ((oapDatagram_items henable hlimit hjudge).trans ((sessionRequest_runs hsession l).trans (sessionRun_of hrun)))
      have hdev : w.devId = s.devId := rfl
      have hout : w.outbox = s.outbox := rfl
      have open' : w.dict.sessMgmt = tput n ⟨src, port, pduSeq pdu, [], s.fNs⟩ s.dict.sessMgmt := rfl
      clear_value w
      have kept {r : List Byte} {z : State} (h : KeepsServers w z) := sessionKept_found (r := r) (h.sessMgmt.trans open')
      refine ⟨?_, ?_, ?_⟩
      · intro l r z hjudge hrun
        exact ⟨_, ran hjudge hrun, congrArg (· ++ _) (sessionKept_outbox ..)⟩
      · intro o idx sub hjudge hreads r
        obtain ⟨t, hrun, hservers, htout, -, -⟩ := runRequest_read hreads (pduSeq pdu)
        rw [oneReply_congr hdev] at hrun
        exact ⟨_, ran hjudge hrun, congrArg (· ++ _) ((sessionKept_outbox ..).trans (htout.trans hout)), kept hservers⟩
      · intro o idx sub v hjudge hwrites r
        obtain ⟨t, hrun, hservers, htout, -, -, hval⟩ := runRequest_plainWrite hwrites (pduSeq pdu)
        rw [oneReply_congr hdev] at hrun
        exact ⟨_, ran hjudge hrun, congrArg (· ++ _) ((sessionKept_outbox ..).trans (htout.trans hout)), kept hservers,
          (sessionKept_rd ..).trans hval⟩
    · intro l n y hjudge hsession hseq
      refine ⟨_, go ((oapDatagram_items henable hlimit hjudge).trans (sessionRequest_resends hsession hseq l)), rfl, ?_, rfl, rfl⟩
      exact State.bump_rd_same _ (by decide) 1
  · intro n x hx hidle
    refine ⟨endSession .mgmt n.val s, ?_, ?_, ?_⟩
    · exact congrArg Host.Outcome.next (sessionExpiry_idle (p := .mgmt) hx hidle)
    · exact (congrArg (tfind · n.val) (endSession_sessMgmt n.val s)).trans (tfind_tdel_same ..)
    · intro j hj
      exact (congrArg (tfind · j) (endSession_sessMgmt n.val s)).trans (tfind_tdel_other hj.symm _)
  · intro n x hx hbusy
    exact congrArg Host.Outcome.next (sessionExpiry_not_idle (p := .inband) hx hbusy)

end Sys2Proof.Machine
end

section
/-! The SDO server (O45). -/

namespace Sys2Proof.Machine

/-! ## What the server sends -/

theorem sdoAbort_outbox (idx sub code : Nat) (s : State) : (sdoAbort idx sub code s).outbox =
    s.outbox ++ [.can s.sdoTx (padTo 0 8 (0x80 :: (muxBytes idx sub ++ leBytes 4 code)))] := by
  have tx : ((sdoIdle s).bump Objs.sdo_aborts).sdoTx = s.sdoTx :=
    congrArg (fun n => 0x580 + (n % 127 + 1)) (DictUnit.devId_wr (u := (sdoIdle s).dict) (o := Objs.sdo_aborts) (i := 0) (by decide))
  rw [sdoAbort, sdoSend, tx]
  rfl

theorem sdoAbort_sdo (idx sub code : Nat) (s : State) : (sdoAbort idx sub code s).dict.sdo = none := rfl

theorem sdoAbort_counted (idx sub code : Nat) (s : State) :
    (sdoAbort idx sub code s).rd Objs.sdo_aborts = satAdd 64 (s.rd Objs.sdo_aborts) 1 :=
  State.bump_rd_same (sdoIdle s) (by decide) 1

theorem readEffect_sdoTx (o : Obj) (i : Nat) (s : State) : (readEffect o i s).sdoTx = s.sdoTx := by
  have dev : (readEffect o i s).devId = s.devId := by
    unfold readEffect
    split
    · exact DictUnit.devId_wr (by simp only [Obj.key, idKey]; omega)
    · split <;> rfl
  rw [State.sdoTx, State.nodeId, dev]
  rfl

/-! ## Transfers -/

/-- What a download leaves that ends in an accepted write. -/
structure Stored (s : State) (o : Obj) (i x done : Nat) (mux : List Byte) (t : State) : Prop where
  sdo : t.dict.sdo = none
  value : t.rd o i = x
  sent : t.outbox = s.outbox ++ [.can t.sdoTx (padTo 0 8 (BitVec.ofNat 8 done :: mux))]

theorem sdoWrite_stores {s : State} {o : Obj} {idx sub : Nat} {v : List Byte} (h : PlainWrite .can o idx sub v (sdoIdle s)) (done : Nat)
    (mux : List Byte) : Stored s o (instOf o (idx * 256 + sub)) (leNat v) done mux (sdoWrite idx sub v done mux s) := by
  have ran := runItem_plainWrite h
  obtain ⟨-, -, -, hrw, hbanked, hlocal, hside, hid, -⟩ := h
  obtain ⟨u, d, m, hb, -, hval⟩ := acceptBase_frame .can o (instOf o (idx * 256 + sub)) v (sdoIdle s) hid
  have hsdo := (acceptBase_keepsServers .can o (instOf o (idx * 256 + sub)) v (sdoIdle s)).sdo
  have hout : (acceptBase .can o (instOf o (idx * 256 + sub)) v (sdoIdle s)).outbox = s.outbox := by rw [hb]; rfl
  have value : (acceptBase .can o (instOf o (idx * 256 + sub)) v (sdoIdle s)).rd o (instOf o (idx * 256 + sub)) = leNat v := by
    rw [hb]
    exact hval hbanked hrw hlocal hside
  have eq : sdoWrite idx sub v done mux s = sdoSend done mux (acceptBase .can o (instOf o (idx * 256 + sub)) v (sdoIdle s)) := by
    simp only [sdoWrite, ran, if_true]
  rw [eq]
  exact ⟨hsdo, value, congrArg (· ++ _) hout⟩

/-- The answer to an upload whose value has been read. -/
def sdoUploaded (idx sub : Nat) (v : List Byte) (t : State) : State :=
  if v.length ≤ 4 then sdoSend (0x43 + 4 * (4 - v.length)) (muxBytes idx sub ++ v) t
  else sdoSend 0x41 (muxBytes idx sub ++ leBytes 4 v.length) (sdoGoing ⟨true, idx, sub, false, v, 0⟩ t)

theorem sdoUpload_eq {d : List Byte} {s : State} {o : Obj} (h : ReadsAt .can o (muxIdx d) (muxSub d) (sdoIdle s)) :
    sdoUpload d s = sdoUploaded (muxIdx d) (muxSub d) (readBytes .can o (muxIdx d) (muxSub d) (sdoIdle s))
      (readEffect o (instOf o (muxIdx d * 256 + muxSub d)) (sdoIdle s)) := by
  simp only [sdoUpload, runItem_read h, ne_eq, not_true, if_false, sdoUploaded]

section
variable {idx sub : Nat} {v : List Byte} {s t : State} (hout : t.outbox = s.outbox) (htx : t.sdoTx = s.sdoTx)
include hout htx

theorem sdoUploaded_short (hshort : v.length ≤ 4) (hsdo : t.dict.sdo = none) :
    (sdoUploaded idx sub v t).dict.sdo = none ∧ (sdoUploaded idx sub v t).outbox =
      s.outbox ++ [.can s.sdoTx (padTo 0 8 (BitVec.ofNat 8 (0x43 + 4 * (4 - v.length)) :: (muxBytes idx sub ++ v)))] := by
  rw [sdoUploaded, if_pos hshort, ← hout, ← htx]
  exact ⟨hsdo, rfl⟩

theorem sdoUploaded_long (hlong : 4 < v.length) (hns : t.eftNs = s.eftNs) :
    (sdoUploaded idx sub v t).dict.sdo = some ⟨true, idx, sub, false, v, s.eftNs⟩ ∧ (sdoUploaded idx sub v t).outbox =
      s.outbox ++ [.can s.sdoTx (padTo 0 8 (0x41 :: (muxBytes idx sub ++ leBytes 4 v.length)))] := by
  rw [sdoUploaded, if_neg (by omega), ← hout, ← htx, ← hns]
  exact ⟨rfl, rfl⟩

end

/-! ## Which service a frame asks for (R471, R472) -/

section
variable {d : List Byte} {s : State}

theorem sdoServe_download (h : fld (d.getD 0 0).toNat 5 3 = 1) : sdoServe d s = sdoDownload d s := by
  unfold sdoServe
  rw [h]
  cases s.dict.sdo <;> rfl

theorem sdoServe_upload (h : fld (d.getD 0 0).toNat 5 3 = 2) : sdoServe d s = sdoUpload d s := by
  unfold sdoServe
  rw [h]
  cases s.dict.sdo <;> rfl

theorem sdoServe_cancel (h : fld (d.getD 0 0).toNat 5 3 = 4) : sdoServe d s = sdoIdle s := by
  unfold sdoServe
  rw [h]
  cases s.dict.sdo <;> rfl

theorem sdoServe_unknown (h : 5 ≤ fld (d.getD 0 0).toNat 5 3) : sdoServe d s = sdoAbort (muxIdx d) (muxSub d) 0x05040001 s := by
  obtain ⟨n, hn⟩ := Nat.exists_eq_add_of_le' h
  unfold sdoServe
  rw [hn]
  cases s.dict.sdo <;> rfl

variable {x : SdoXfer} (hx : s.dict.sdo = some x)
include hx

theorem sdoServe_downloadSegment (h : fld (d.getD 0 0).toNat 5 3 = 0) (hdown : x.upload = false) :
    sdoServe d s = downloadSegment d x s := by
  unfold sdoServe
  rw [h, hx]
  exact if_neg (by rw [hdown]; decide)

theorem sdoServe_uploadSegment (h : fld (d.getD 0 0).toNat 5 3 = 3) (hup : x.upload = true) : sdoServe d s = uploadSegment d x s := by
  unfold sdoServe
  rw [h, hx]
  exact if_pos hup

end

/-! ## Segments (R473) -/

section
variable {d : List Byte} {x : SdoXfer} {s : State} (htoggle : bit (d.getD 0 0).toNat 4 = x.toggle)
include htoggle

theorem uploadSegment_eq : uploadSegment d x s =
    sdoSend (16 * fld (d.getD 0 0).toNat 4 1 + 2 * (7 - (x.data.take 7).length) + (if x.data.length ≤ 7 then 1 else 0)) (x.data.take 7)
      (if x.data.length ≤ 7 then sdoIdle s else sdoGoing { x with data := x.data.drop 7, toggle := !x.toggle } s) := by
  unfold uploadSegment
  dsimp only
  rw [if_neg (not_not_intro htoggle)]
  by_cases hlast : x.data.length ≤ 7
  · simp only [hlast, decide_true, if_true, b2n]
  · simp only [hlast, decide_false, Bool.false_eq_true, if_false, b2n]

variable {w : List Byte} (hw : w = x.data ++ slice d 1 (7 - fld (d.getD 0 0).toNat 1 3)) (hsize : w.length ≤ 256)
include hw hsize

theorem downloadSegment_goes (h : bit (d.getD 0 0).toNat 0 = false) : downloadSegment d x s =
    sdoSend (0x20 + 16 * fld (d.getD 0 0).toNat 4 1) [] (sdoGoing { x with data := w, toggle := !x.toggle } s) := by
  subst hw
  unfold downloadSegment
  dsimp only
  rw [if_neg (not_not_intro htoggle), if_neg (by omega), if_neg (by rw [h]; decide)]

theorem downloadSegment_ends (h : bit (d.getD 0 0).toNat 0 = true) : downloadSegment d x s =
    sdoWrite x.idx x.sub w (0x20 + 16 * fld (d.getD 0 0).toNat 4 1) [] s := by
  subst hw
  unfold downloadSegment
  dsimp only
  rw [if_neg (not_not_intro htoggle), if_neg (by omega), if_pos h]

end

theorem sdoDownload_starts {d : List Byte} {s : State} (hseg : bit (d.getD 0 0).toNat 1 = false)
    (hsize : bit (d.getD 0 0).toNat 0 = false ∨ leNat (slice d 4 4) ≤ 256) (hpath : s.pathEnable .can ≠ 0) :
    sdoDownload d s = sdoSend 0x60 (muxBytes (muxIdx d) (muxSub d)) (sdoGoing ⟨false, muxIdx d, muxSub d, false, [], 0⟩ s) := by
  have fits : ¬ (bit (d.getD 0 0).toNat 0 = true ∧ 256 < leNat (slice d 4 4)) := by
    rintro ⟨h, hlong⟩
    obtain hsize | hsize := hsize
    · rw [h] at hsize
      exact absurd hsize (by decide)
    · omega
  unfold sdoDownload
  dsimp only
  rw [if_neg (by rw [hseg]; decide), if_neg fits, if_neg hpath]

/-! ## Which frames are served (R470, R471) -/

section
variable {s : State} {id : Nat} {d : List Byte}

theorem sdoRequest_other (hrx : id ≠ s.sdoRx) (htx : id ≠ s.sdoTx) (fd : Bool) : sdoRequest id fd d s = s := if_pos (.inr ⟨hrx, htx⟩)

variable (hon : s.eft.phase ≠ .off) (hid : id = s.sdoRx)
include hon hid

theorem sdoRequest_fd : sdoRequest id true d s = s.bump Objs.can_drop := by
  rw [sdoRequest, if_neg (by simp [hon, hid]), if_pos rfl]

variable (hlen : d.length = 8)
include hlen

theorem sdoRequest_disabled (hpath : s.pathEnable .can = 0) : sdoRequest id false d s = sdoAbort (muxIdx d) (muxSub d) 0x08000021 s := by
  rw [sdoRequest, if_neg (by simp [hon, hid]), if_neg Bool.false_ne_true, if_neg (not_not_intro hid), if_neg (not_not_intro hlen), if_pos hpath]

theorem sdoRequest_serves (hpath : s.pathEnable .can ≠ 0) : sdoRequest id false d s = sdoServe d s := by
  rw [sdoRequest, if_neg (by simp [hon, hid]), if_neg Bool.false_ne_true, if_neg (not_not_intro hid), if_neg (not_not_intro hlen), if_neg hpath]

end

/-- Settles O45: each frame is served by the branch of its command; a value goes through the item it stands for. -/
theorem sdoServerAnswers : Obligations.SdoServerAnswers := by
  unfold Obligations.SdoServerAnswers
  intro d s
  refine ⟨?_, ?_, ?_, ?_⟩
  · intro id hrx htx fd
    exact congrArg Host.Outcome.next (sdoRequest_other hrx htx fd)
  · intro id hon hid
    refine ⟨?_, ?_, ?_, ?_⟩
    · exact ⟨_, congrArg Host.Outcome.next (sdoRequest_fd hon hid), State.bump_rd_same s (by decide) 1, rfl⟩
    · intro hlen hpath
      exact ⟨_, congrArg Host.Outcome.next (sdoRequest_disabled hon hid hlen hpath), sdoAbort_sdo .., sdoAbort_outbox ..⟩
    · intro hlen hpath hcmd
      exact congrArg Host.Outcome.next ((sdoRequest_serves hon hid hlen hpath).trans (sdoServe_cancel hcmd))
    · intro hlen hpath hcmd
      exact ⟨_, congrArg Host.Outcome.next ((sdoRequest_serves hon hid hlen hpath).trans (sdoServe_unknown hcmd)), sdoAbort_sdo ..,
        sdoAbort_counted .., sdoAbort_outbox ..⟩
  · intro id hon hid hlen hpath cmd idx sub u
    have go {t : State} (h : sdoServe d s = t) : (exec (.sdoRequest id false d) s : Out) = .next t :=
      congrArg Host.Outcome.next ((sdoRequest_serves hon hid hlen hpath).trans h)
    refine ⟨?_, ?_, ?_, ?_⟩
    · intro o hcmd hreads v
      have hkeeps := (readEffect_keepsServers o (instOf o (idx * 256 + sub)) u).sdo
      have hout : (readEffect o (instOf o (idx * 256 + sub)) u).outbox = s.outbox := readEffect_outbox ..
      have htx : (readEffect o (instOf o (idx * 256 + sub)) u).sdoTx = s.sdoTx := readEffect_sdoTx ..
      have heft : (readEffect o (instOf o (idx * 256 + sub)) u).eft = u.eft :=
        Part.same_of_others (p := .eft) (readEffect_off (m := Part.eft.others) (by decide) ..)
      exact ⟨_, go ((sdoServe_upload hcmd).trans (sdoUpload_eq hreads)), fun hshort => sdoUploaded_short hout htx hshort hkeeps,
        fun hlong => sdoUploaded_long hout htx hlong (by rw [State.eftNs, heft]; rfl)⟩
    · intro o hcmd hexp v hwrites
      have stored := sdoWrite_stores hwrites 0x60 (muxBytes idx sub)
      exact ⟨_, go ((sdoServe_download hcmd).trans (if_pos hexp)), stored.sdo, stored.value, stored.sent⟩
    · intro hcmd hseg hsize
      exact ⟨_, go ((sdoServe_download hcmd).trans (sdoDownload_starts hseg hsize hpath)), rfl, rfl⟩
    · intro x hx htoggle w
      refine ⟨?_, ?_, ?_⟩
      · intro hcmd hdown hmore hsize
        exact ⟨_, go ((sdoServe_downloadSegment hx hcmd hdown).trans (downloadSegment_goes htoggle rfl hsize hmore)), rfl, rfl⟩
      · intro o hcmd hdown hlast hsize hwrites
        have stored := sdoWrite_stores hwrites (0x20 + 16 * fld cmd 4 1) []
        exact ⟨_, go ((sdoServe_downloadSegment hx hcmd hdown).trans (downloadSegment_ends htoggle rfl hsize hlast)),
          stored.sdo, stored.value, stored.sent⟩
      · intro hcmd hup
        refine ⟨_, go ((sdoServe_uploadSegment hx hcmd hup).trans (uploadSegment_eq htoggle)), ?_, ?_⟩
        · split <;> rfl
        · split <;> rfl
  · intro x hx hlate
    refine ⟨sdoAbort x.idx x.sub 0x05040000 s, congrArg Host.Outcome.next ?_, sdoAbort_sdo .., sdoAbort_outbox ..⟩
    rw [sdoTimeout, hx]
    exact if_pos hlate

end Sys2Proof.Machine
end

section
/-! BAR2 accesses to the software region (O41): what a client's write leaves to read, and how a read of several bursts ends. -/

namespace Sys2Proof.Machine

/-! ## Queues of a controller -/

theorem State.ctl_setCtl_same (s : State) (p : Nat) (x : HbmCtl) : (s.setCtl p x).ctl p = x := tget_tset_same ..

theorem State.ctl_setCtl_other {p q : Nat} (h : p ≠ q) (s : State) (x : HbmCtl) : (s.setCtl p x).ctl q = s.ctl q := tget_tset_other h ..

/-- A request waits at a controller that serves. -/
def State.presented (s : State) (p : Nat) (q : HbmAsk) : State := s.setCtl p { s.ctl p with wait := (s.ctl p).wait ++ [q] }

section
variable {s : State} {p : Nat} (h : s.pcRefuses p = false)
include h

theorem State.hbmRead_serves (q : HbmReq) : s.hbmRead p q = s.presented p (.read q) := by
  rw [State.hbmRead, if_neg (by rw [h]; decide)]
  rfl

theorem State.hbmWrite_serves (w : HbmWrite) : s.hbmWrite p w = s.presented p (.write w) := by
  rw [State.hbmWrite, if_neg (by rw [h]; decide)]
  rfl

end

/-- The newest write of a burst, once another has been presented. -/
theorem HbmCtl.newest_presented (x : HbmCtl) (w : HbmWrite) (off : Nat) :
    ({ x with wait := x.wait ++ [.write w] } : HbmCtl).newest off = if w.off = off then some w.data else x.newest off := by
  have last : x.wq ++ (x.wait ++ [HbmAsk.write w]).filterMap HbmAsk.asWrite = (x.wq ++ x.wait.filterMap HbmAsk.asWrite) ++ [w] := by
    rw [List.filterMap_append, List.append_assoc]
    rfl
  unfold HbmCtl.newest
  rw [last, List.reverse_append, List.reverse_singleton, List.singleton_append, List.find?_cons]
  by_cases hw : w.off = off
  · simp [hw]
  · simp [hw]

/-! ## Bursts of the region (R390) -/

theorem swBurst_eq {a b : Nat} (ha : a % 32 = 0) (hb : b % 32 = 0) (hpc : swPc a = swPc b) (hoff : swOff a = swOff b) : a = b := by
  unfold swPc at hpc
  unfold swOff at hoff
  omega

theorem swPc_burst (x : Nat) : swPc (x / 32 * 32) = swPc x := by
  unfold swPc
  omega

theorem mem_swBursts {r n k : Nat} (h : k < n) : (r + k) / 32 * 32 ∈ swBursts r n :=
  List.mem_dedup.mpr (List.mem_map.mpr ⟨k, List.mem_range.mpr h, rfl⟩)

theorem burst_of_mem {r n a : Nat} (h : a ∈ swBursts r n) : a % 32 = 0 := by
  obtain ⟨k, -, rfl⟩ := List.mem_map.mp (List.mem_dedup.mp h)
  omega

theorem swBursts_ne_nil {r n : Nat} (h : 0 < n) : swBursts r n ≠ [] := List.ne_nil_of_mem (mem_swBursts h)

/-! ## Writes -/

/-- A byte that an access of `data` at a region offset covers, or the byte that was there. -/
def patched (r : Nat) (data : List Byte) (x : Nat) (old : Byte) : Byte := if r ≤ x then (data[x - r]?).getD old else old

theorem patched_inside {r k : Nat} {data : List Byte} (h : k < data.length) (old : Byte) : patched r data (r + k) old = data.getD k 0 := by
  rw [patched, if_pos (by omega), Nat.add_sub_cancel_left, List.getD_eq_getElem?_getD, List.getElem?_eq_getElem h]
  rfl

theorem patched_outside {r x : Nat} {data : List Byte} (h : x < r ∨ r + data.length ≤ x) (old : Byte) : patched r data x old = old := by
  unfold patched
  split
  · rw [List.getElem?_eq_none (by omega)]
    rfl
  · rfl

theorem patched_patched (r : Nat) (data : List Byte) (x : Nat) (old : Byte) : patched r data x (patched r data x old) = patched r data x old := by
  unfold patched
  split
  · cases data[x - r]? <;> rfl
  · rfl

theorem swPatch_getD (s : State) (r : Nat) (data : List Byte) (x : Nat) :
    (swPatch s (x / 32 * 32) r data).getD (x % 32) 0 = patched r data x (swByte s x) := by
  have hx : x / 32 * 32 + x % 32 = x := by omega
  have hlt : x % 32 < 32 := Nat.mod_lt _ (by decide)
  rw [swPatch, List.getD_eq_getElem?_getD, List.getElem?_map, List.getElem?_range hlt, Option.map_some, Option.getD_some, hx]
  rfl

/-- The host's write of one burst, with the patch that its access gives it. -/
def swWrite (tag r : Nat) (data : List Byte) (s : State) (a : Nat) : State := swQueue s tag a (swPatch s a r data)

section
variable {s : State} {a : Nat} (hserves : s.pcRefuses (swPc a) = false) (tag r : Nat) (data : List Byte)
include hserves

theorem swWrite_eq : swWrite tag r data s a = s.presented (swPc a) (.write ⟨4, swOff a, swPatch s a r data, [.bar2 tag a]⟩) :=
  State.hbmWrite_serves hserves _

theorem swWrite_swByte (ha : a % 32 = 0) (x : Nat) :
    swByte (swWrite tag r data s a) x = if x / 32 * 32 = a then patched r data x (swByte s x) else swByte s x := by
  have hburst : x / 32 * 32 % 32 = 0 := by omega
  rw [swWrite_eq hserves, swByte, State.presented]
  by_cases hpc : swPc a = swPc x
  · rw [← hpc, State.ctl_setCtl_same, HbmCtl.newest_presented]
    by_cases hx : x / 32 * 32 = a
    · subst hx
      rw [if_pos rfl, if_pos rfl]
      exact swPatch_getD s r data x
    · have hoff : swOff a ≠ swOff (x / 32 * 32) := fun e => hx (swBurst_eq hburst ha ((swPc_burst x).trans hpc.symm) e.symm)
      rw [if_neg hoff, if_neg hx, swByte, ← hpc]
      rfl
  · have hx : x / 32 * 32 ≠ a := fun e => hpc (by rw [← e, swPc_burst])
    rw [State.ctl_setCtl_other hpc, if_neg hx]
    rfl

end

/-- What the writes of a host's access leave, where every pseudo-channel they go to serves. -/
structure SwWritten (r : Nat) (data : List Byte) (l : List Nat) (s t : State) : Prop where
  frame : ∃ c, t = { s with hbm := { s.hbm with ctls := c } }
  byte : ∀ x, swByte t x = if x / 32 * 32 ∈ l then patched r data x (swByte s x) else swByte s x

theorem swWrites_written (tag r : Nat) (data : List Byte) (l : List Nat) (hl : ∀ a ∈ l, a % 32 = 0) (s : State)
    (hserves : ∀ a ∈ l, s.pcRefuses (swPc a) = false) : SwWritten r data l s (l.foldl (swWrite tag r data) s) := by
  induction l generalizing s with
  | nil => exact ⟨⟨_, rfl⟩, fun x => (if_neg List.not_mem_nil).symm⟩
  | cons a l ih =>
    have hserve := hserves a List.mem_cons_self
    have hframe := swWrite_eq hserve tag r data
    obtain ⟨⟨c, hc⟩, hbytes⟩ := ih (fun b hb => hl b (List.mem_cons_of_mem _ hb)) (swWrite tag r data s a)
      (fun b hb => by rw [hframe]; exact hserves b (List.mem_cons_of_mem _ hb))
    rw [List.foldl_cons]
    refine ⟨⟨c, ?_⟩, fun x => ?_⟩
    · rw [hc, hframe]
      rfl
    · rw [hbytes, swWrite_swByte hserve tag r data (hl a List.mem_cons_self)]
      by_cases hx : x / 32 * 32 = a
      · simp only [if_pos hx, hx, List.mem_cons_self, if_true, patched_patched, ite_self]
      · simp only [List.mem_cons, hx, false_or, if_false]

/-! ## Reads -/

/-- The reads of a host's access wait at their controllers. -/
theorem reads_presented (tag : Nat) (l : List Nat) (s : State) (hserves : ∀ a ∈ l, s.pcRefuses (swPc a) = false) :
    ∃ t, l.foldl (fun (s : State) a => s.hbmRead (swPc a) ⟨4, swOff a, tag, false⟩) s = t ∧
      (∃ c, t = { s with hbm := { s.hbm with ctls := c } }) ∧
      ∀ p, (t.ctl p).wait = (s.ctl p).wait ++ (l.filter (fun a => swPc a = p)).map (fun a => .read ⟨4, swOff a, tag, false⟩) := by
  induction l generalizing s with
  | nil => exact ⟨s, rfl, ⟨_, rfl⟩, fun p => (List.append_nil _).symm⟩
  | cons a l ih =>
    obtain ⟨t, ht, ⟨c, hc⟩, hwait⟩ := ih (s.presented (swPc a) (.read ⟨4, swOff a, tag, false⟩)) fun b hb => hserves b (List.mem_cons_of_mem _ hb)
    refine ⟨t, ?_, ⟨c, hc⟩, fun p => ?_⟩
    · rw [List.foldl_cons, State.hbmRead_serves (hserves a List.mem_cons_self), ht]
    · rw [hwait, State.presented]
      by_cases hp : swPc a = p
      · subst hp
        rw [State.ctl_setCtl_same, List.filter_cons_of_pos (by simp)]
        simp
      · rw [State.ctl_setCtl_other hp, List.filter_cons_of_neg (by simpa using hp)]

/-- A burst of a host's read ends with MEM_FROZEN. -/
theorem State.hbmRead_refuses {s : State} {p : Nat} (h : s.pcRefuses p = true) (off tag : Nat) :
    s.hbmRead p ⟨4, off, tag, false⟩ = s.bar2Got tag (swOfPc p off) true [] := by
  rw [State.hbmRead, if_pos h]
  rfl

theorem State.bar2Got_frozen {s : State} {tag : Nat} {others : List Bar2Read} {b : Bar2Read} (hbar : s.hbm.bar2 = others ++ [b])
    (hb : b.tag = tag) (hothers : ∀ o ∈ others, o.tag ≠ tag) (a : Nat) : s.bar2Got tag a true [] =
      if b.left - 1 = 0 then (bar2Frozen { s with hbm := { s.hbm with bar2 := others } } a).put (.completion none)
      else { s with hbm := { s.hbm with bar2 := others ++ [{ b with got := (a, []) :: b.got, left := b.left - 1, frozen := some a }] } } := by
  have hfind : s.hbm.bar2.find? (fun b => b.tag = tag) = some b := by
    rw [hbar, List.find?_append, List.find?_eq_none.mpr (by simpa using hothers)]
    simp [hb]
  have hrest : s.hbm.bar2.filter (fun b => b.tag ≠ tag) = others := by
    rw [hbar, List.filter_append, List.filter_eq_self.mpr (by simpa using hothers)]
    simp [hb]
  simp only [State.bar2Got, hfind, hrest, if_true]
  rfl

/-- A host's read whose bursts all end with MEM_FROZEN completes with the last. -/
theorem reads_refused (tag : Nat) (others : List Bar2Read) (hothers : ∀ o ∈ others, o.tag ≠ tag) (l : List Nat) (hl : l ≠ []) (s : State)
    (b : Bar2Read) (hbar : s.hbm.bar2 = others ++ [b]) (hb : b.tag = tag) (hleft : b.left = l.length)
    (hrefuse : ∀ a ∈ l, s.pcRefuses (swPc a) = true) :
    ∃ a, l.foldl (fun (s : State) a => s.hbmRead (swPc a) ⟨4, swOff a, tag, false⟩) s =
      (bar2Frozen { s with hbm := { s.hbm with bar2 := others } } a).put (.completion none) := by
  induction l generalizing s b with
  | nil => exact absurd rfl hl
  | cons a l ih =>
    rw [List.foldl_cons, State.hbmRead_refuses (hrefuse a List.mem_cons_self), State.bar2Got_frozen hbar hb hothers, hleft, List.length_cons,
      Nat.add_sub_cancel]
    cases l with
    | nil => exact ⟨_, rfl⟩
    | cons a' l =>
      rw [if_neg (by simp)]
      exact ih (List.cons_ne_nil a' l) _ _ rfl hb rfl fun c hc => hrefuse c (List.mem_cons_of_mem _ hc)

/-- The last burst of a host's read returns. -/
theorem State.bar2Got_last {s : State} {tag : Nat} {b : Bar2Read} (hb : s.hbm.bar2.find? (fun x => x.tag = tag) = some b) (hleft : b.left = 1)
    (hgood : b.frozen = none) (a : Nat) (data : List Byte) : s.bar2Got tag a false data =
      ({ s with hbm := { s.hbm with bar2 := s.hbm.bar2.filter (fun x => x.tag ≠ tag) } } : State).put (.completion (some
        ((List.range b.len).map (fun k => if (b.off + k) / 32 * 32 = a then data.getD ((b.off + k) % 32) 0 else b.byte k)))) := by
  have hbyte (k : Nat) : Bar2Read.byte { b with got := (a, data) :: b.got, left := 0, frozen := none } k =
      if (b.off + k) / 32 * 32 = a then data.getD ((b.off + k) % 32) 0 else b.byte k := by
    simp only [Bar2Read.byte, List.find?_cons]
    by_cases h : (b.off + k) / 32 * 32 = a
    · simp [h]
    · simp [h, Ne.symm h]
  simp only [State.bar2Got, hb, hleft, hgood, Nat.sub_self, if_true, Bool.false_eq_true, if_false, State.bar2End]
  rw [funext hbyte]

/-! ## Accesses (R417, R418) -/

section
variable {s : State}

theorem barAccess_held (h : ¬ (s.barWaits = false ∧ s.hbm.bar2Held = [])) (a : BarAsk) :
    s.barAccess a = { s with hbm := { s.hbm with bar2Held := s.hbm.bar2Held ++ [a] } } := by
  refine if_pos ?_
  by_cases hwaits : s.barWaits = true
  · exact .inl hwaits
  · exact .inr fun hheld => h ⟨Bool.not_eq_true _ ▸ hwaits, hheld⟩

theorem barAccess_served (h : s.barWaits = false ∧ s.hbm.bar2Held = []) (a : BarAsk) : s.barAccess a = s.barServe a :=
  if_neg (by simp [h.1, h.2])

/-- An access beyond the region. -/
def State.barOutside (s : State) (r : Nat) : State := (s.bump Objs.bar2_range_err).raise 215 0 r

theorem State.barOutside_raised (s : State) (r : Nat) :
    Raised 215 0 s (s.barOutside r) ∧ (s.barOutside r).rd Objs.bar2_range_err = satAdd 64 (s.rd Objs.bar2_range_err) 1 :=
  ⟨⟨_, rfl, rfl, rfl⟩, State.bump_rd_same s (by decide) 1⟩

theorem bar2Frozen_raised (s : State) (a : Nat) :
    Raised 214 0 s (bar2Frozen s a) ∧ (bar2Frozen s a).rd Objs.bar2_frozen = satAdd 64 (s.rd Objs.bar2_frozen) 1 :=
  ⟨⟨_, rfl, rfl, rfl⟩, State.bump_rd_same s (by decide) 1⟩

variable {r : Nat}

theorem barRead_outside (h : swSize ≤ r) (n : Nat) : barRead s r n = (s.barOutside r).put (.completion (some (List.replicate n 0))) := if_pos h

theorem barWrite_outside (h : swSize ≤ r) (data : List Byte) : barWrite s r data = s.barOutside r := if_pos h

variable (h : r < swSize)
include h

theorem barRead_empty : barRead s r 0 = s.put (.completion (some [])) := by
  rw [barRead, if_neg (by omega)]
  rfl

/-- A read of some bytes presents the reads of its bursts. -/
def State.barReading (s : State) (r n : Nat) : State :=
  { s with hbm := { s.hbm with bar2 := s.hbm.bar2 ++ [⟨s.hbm.bar2Tag, r, n, [], (swBursts r n).length, none⟩], bar2Tag := s.hbm.bar2Tag + 1 } }

theorem barRead_bursts {n : Nat} (hn : 0 < n) : barRead s r n =
    (swBursts r n).foldl (fun (s' : State) a => s'.hbmRead (swPc a) ⟨4, swOff a, s.hbm.bar2Tag, false⟩) (s.barReading r n) := by
  rw [barRead, if_neg (by omega), if_neg (swBursts_ne_nil hn)]
  rfl

/-- The state in which the bursts of a write are presented. -/
def State.barWriting (s : State) : State := { s with hbm := { s.hbm with bar2Tag := s.hbm.bar2Tag + 1 } }

/-- The bursts of a write whose pseudo-channels serve. -/
def State.servedBursts (s : State) (r n : Nat) : List Nat := (swBursts r n).filter (fun a => !s.pcRefuses (swPc a))

theorem barWrite_inside (data : List Byte) : barWrite s r data =
    match (swBursts r data.length).find? (fun a => s.pcRefuses (swPc a)) with
    | some a => ((s.servedBursts r data.length).foldl (swWrite s.hbm.bar2Tag r data) s.barWriting).bar2Discard s.hbm.bar2Tag a
    | none => (s.servedBursts r data.length).foldl (swWrite s.hbm.bar2Tag r data) s.barWriting := by
  rw [barWrite, if_neg (by omega)]
  rfl

end

theorem servedBursts_written (s : State) (r : Nat) (data : List Byte) :
    SwWritten r data (s.servedBursts r data.length) s.barWriting
      ((s.servedBursts r data.length).foldl (swWrite s.hbm.bar2Tag r data) s.barWriting) := by
  refine swWrites_written _ _ _ _ (fun a ha => burst_of_mem (List.mem_of_mem_filter ha)) _ fun a ha => ?_
  have hserve := (List.mem_filter.mp ha).2
  rw [Bool.not_eq_true'] at hserve
  exact hserve

theorem SwWritten.outside {r : Nat} {data : List Byte} {l : List Nat} {s t : State} (h : SwWritten r data l s t) {x : Nat}
    (hx : x < r ∨ r + data.length ≤ x) : swByte t x = swByte s x := by
  rw [h.byte, patched_outside hx, ite_self]

theorem none_refuse {s : State} {l : List Nat} (h : l.any (fun a => s.pcRefuses (swPc a)) = false) : ∀ a ∈ l, s.pcRefuses (swPc a) = false :=
  fun a ha => Bool.eq_false_of_not_eq_true (List.any_eq_false.mp h a ha)

/-- What a read that ends returns to the host. -/
theorem readServed_host {s : State} {p i : Nat} {q : HbmReq} (hclient : q.client = 4) (hoff : 0x25000000 ≤ q.off) :
    ∃ c, readServed s p i q = ({ s with hbm := { s.hbm with ctls := c } } : State).bar2Got q.tag (swOfPc p q.off) false
      (stackBytes s.hbm (swOfPc p q.off) 32) := by
  unfold readServed
  dsimp only
  rw [if_neg (by omega : ¬ q.off < 0x25000000), State.endRead, if_neg (by omega), if_neg (by omega), if_pos hclient]
  exact ⟨_, rfl⟩

theorem hbmReadComplete_good {s : State} {p i : Nat} {q : HbmReq} (hnext : (s.ctl p).turned.nextRead = some (i, q))
    (hwriting : (s.ctl p).turned.writing = false) (hawake : (s.ctl p).asleep = false) (hpc : s.pcState p = 1) (y : BitVec 16) :
    hbmReadComplete s p ⟨.good, 0, y⟩ = readServed (s.setCtl p (s.ctl p).turned) p i q := by
  have hawake : (s.ctl p).turned.asleep = false := hawake
  have hserves : s.pcState p = 1 ∧ (s.ctl p).turned.asleep = false ∧ (s.ctl p).turned.writing = false := ⟨hpc, hawake, hwriting⟩
  have hgood : ¬ (Ecc.good = .uncorrectable ∨ (0 : Fin 4) = 3) := by decide
  simp only [hbmReadComplete, hnext, if_pos hserves]
  rw [if_neg hgood]
  rfl

/-- Settles O41: an access is its bursts, each at its own controller, and a byte is the newest write of its burst. -/
theorem softwareRegionAccess : Obligations.SoftwareRegionAccess := by
  unfold Obligations.SoftwareRegionAccess
  intro r s free
  have read (n : Fin 4097) {t : State} (hfree : free) (h : barRead s r.toNat n = t) : (exec (.bar2Read r n) s : Out) = .next t :=
    congrArg Host.Outcome.next ((barAccess_served hfree (.read r.toNat n)).trans h)
  have write (data : List Byte) {t : State} (hfree : free) (h : barWrite s r.toNat data = t) : (exec (.bar2Write r data) s : Out) = .next t :=
    congrArg Host.Outcome.next ((barAccess_served hfree (.write r.toNat data)).trans h)
  refine ⟨fun hheld => ⟨fun n => congrArg Host.Outcome.next (barAccess_held hheld _),
    fun data => congrArg Host.Outcome.next (barAccess_held hheld _)⟩, ?_, ?_, ?_, ?_, ?_⟩
  · intro n hfree hr
    refine ⟨?_, ?_, ?_⟩
    · rintro rfl
      exact read 0 hfree (barRead_empty hr)
    · intro hn hserves
      obtain ⟨t, ht, ⟨c, hc⟩, hwait⟩ := reads_presented s.hbm.bar2Tag (swBursts r.toNat n) (s.barReading r.toNat n)
        (none_refuse hserves)
      refine ⟨t, read n hfree ((barRead_bursts hr hn).trans ht), ?_, ?_, ?_, hwait⟩
      · rw [hc]
        rfl
      · rw [hc]
        rfl
      · rw [hc]
        rfl
    · intro hn hrefuse hfresh
      obtain ⟨a, ha⟩ := reads_refused s.hbm.bar2Tag s.hbm.bar2 hfresh (swBursts r.toNat n) (swBursts_ne_nil hn) (s.barReading r.toNat n) _
        rfl rfl rfl (List.all_eq_true.mp hrefuse)
      obtain ⟨hraised, hcount⟩ := bar2Frozen_raised { s.barReading r.toNat n with hbm := { (s.barReading r.toNat n).hbm with bar2 := s.hbm.bar2 } } a
      exact ⟨_, read n hfree ((barRead_bursts hr hn).trans ha), rfl, hraised, hcount⟩
  · intro p i q b y hnext hwriting hawake hpc hclient hoff hbar hleft hgood
    obtain ⟨c, hc⟩ := readServed_host (s := s.setCtl p (s.ctl p).turned) (p := p) (i := i) hclient hoff
    have hbar : ({ s.setCtl p (s.ctl p).turned with hbm := { (s.setCtl p (s.ctl p).turned).hbm with ctls := c } } : State).hbm.bar2.find?
      (fun x => x.tag = q.tag) = some b := hbar
    exact ⟨_, congrArg Host.Outcome.next ((hbmReadComplete_good hnext hwriting hawake hpc y).trans (hc.trans
      (State.bar2Got_last hbar hleft hgood _ _))), rfl, rfl⟩
  · intro n hfree hr
    obtain ⟨hraised, hcount⟩ := s.barOutside_raised r.toNat
    exact ⟨_, read n hfree (barRead_outside hr n), rfl, hraised, hcount⟩
  · intro data hfree hr
    obtain ⟨hraised, hcount⟩ := s.barOutside_raised r.toNat
    exact ⟨_, write data hfree (barWrite_outside hr data), rfl, rfl, hraised, hcount⟩
  · intro data hfree hr
    have written := servedBursts_written s r.toNat data
    obtain ⟨c, hc⟩ := written.frame
    have hwrite := barWrite_inside (s := s) hr data
    refine ⟨fun hserves => ?_, fun hrefuse hfresh => ?_⟩
    · have hall : s.servedBursts r.toNat data.length = swBursts r.toNat data.length :=
        List.filter_eq_self.mpr fun a ha => by rw [none_refuse hserves a ha]; rfl
      have hnone : (swBursts r.toNat data.length).find? (fun a => s.pcRefuses (swPc a)) = none :=
        List.find?_eq_none.mpr fun a ha => by rw [none_refuse hserves a ha]; decide
      rw [hnone] at hwrite
      refine ⟨_, write data hfree hwrite, ?_, ?_, fun k hk => ?_, fun a ha => written.outside ha⟩
      · rw [hc]
        rfl
      · rw [hc]
        rfl
      · rw [written.byte, hall, if_pos (mem_swBursts hk), patched_inside hk]
    · obtain ⟨a, hmem, hrefuses⟩ := List.any_eq_true.mp hrefuse
      cases hfind : (swBursts r.toNat data.length).find? (fun a => s.pcRefuses (swPc a)) with
      | none => exact absurd hrefuses (List.find?_eq_none.mp hfind a hmem)
      | some a =>
        rw [hfind] at hwrite
        generalize (s.servedBursts r.toNat data.length).foldl (swWrite s.hbm.bar2Tag r.toNat data) s.barWriting = u at hwrite written hc
        have hlost : ¬ u.hbm.bar2Lost.contains s.hbm.bar2Tag = true := by
          rw [hc]
          exact Bool.not_eq_true _ ▸ hfresh
        dsimp only at hwrite
        rw [State.bar2Discard, if_neg hlost] at hwrite
        obtain ⟨hraised, hcount⟩ := bar2Frozen_raised { u with hbm := { u.hbm with bar2Lost := (s.hbm.bar2Tag :: u.hbm.bar2Lost).take 1024 } } a
        refine ⟨_, write data hfree hwrite, ?_, ?_, fun x hx => written.outside hx⟩
        · rw [hc] at hraised ⊢
          exact hraised
        · rw [hcount, hc]
          rfl

end Sys2Proof.Machine
end

section
/-! Thaw and row repairs of a pseudo-channel (O40): what the repair of a burst leaves of a controller beside what waits at it. -/

namespace Sys2Proof.Machine

/-! ## What keeps a controller but for its waiting requests -/

/-- At most what waits at the controllers has changed. -/
structure KeepsJobs (s t : State) : Prop where
  ctl : ∀ p, ∃ w, t.ctl p = { s.ctl p with wait := w }

namespace KeepsJobs

variable {s t u : State}

theorem of_ctls (h : t.hbm.ctls = s.hbm.ctls) : KeepsJobs s t :=
  ⟨fun p => ⟨(s.ctl p).wait, by rw [State.ctl, h]; rfl⟩⟩

theorem refl (s : State) : KeepsJobs s s := of_ctls rfl

theorem trans (h : KeepsJobs s t) (h' : KeepsJobs t u) : KeepsJobs s u := by
  refine ⟨fun p => ?_⟩
  obtain ⟨w, hw⟩ := h.ctl p
  obtain ⟨w', hw'⟩ := h'.ctl p
  exact ⟨w', by rw [hw', hw]⟩

theorem of_updated (h : KeepsJobs t u) (ht : t.hbm.ctls = s.hbm.ctls) : KeepsJobs s u := (of_ctls ht).trans h

theorem ite {c : Prop} [Decidable c] (ht : KeepsJobs s t) (hu : KeepsJobs s u) : KeepsJobs s (if c then t else u) := by
  split
  · exact ht
  · exact hu

theorem foldl {α : Type} {f : State → α → State} (h : ∀ s a, KeepsJobs s (f s a)) (l : List α) (s : State) : KeepsJobs s (l.foldl f s) :=
  List.foldlRecOn (motive := KeepsJobs s) l f (refl s) fun t ht a _ => ht.trans (h t a)

theorem presented (s : State) (p : Nat) (q : HbmAsk) : KeepsJobs s (s.presented p q) := by
  refine ⟨fun j => ?_⟩
  by_cases hj : p = j
  · subst hj
    exact ⟨_, State.ctl_setCtl_same ..⟩
  · exact ⟨(s.ctl j).wait, by rw [State.presented, State.ctl_setCtl_other hj]⟩

theorem job (h : KeepsJobs s t) (p : Nat) : (t.ctl p).job = (s.ctl p).job := by obtain ⟨w, hw⟩ := h.ctl p; rw [hw]

end KeepsJobs

theorem State.fsuWrite_keepsJobs (s : State) (b off : Nat) (u : HbmUndo) : KeepsJobs s (s.fsuWrite b off u) := by
  unfold State.fsuWrite
  split
  next hserves =>
    have hrefuses : s.pcRefuses (bucketPc b) = false := by
      rw [State.pcServes, beq_iff_eq] at hserves
      rw [State.pcRefuses, hserves]
      rfl
    rw [State.hbmWrite_serves hrefuses]
    exact .presented ..
  next => exact .refl s

theorem State.clearHome_keepsJobs (s : State) (p : Nat) : KeepsJobs s (s.clearHome p) := by
  refine .ite ?_ (.of_ctls rfl)
  split
  · exact .refl s
  · exact .ite (.refl s) (.of_updated (State.fsuWrite_keepsJobs ..) rfl)

theorem State.bktDec_keepsJobs (s : State) (b : Nat) : KeepsJobs s (s.bktDec b) :=
  .ite (.of_ctls rfl) (.ite (.of_updated (State.fsuWrite_keepsJobs ..) rfl) (.refl s))

theorem State.dropCopy_keepsJobs (s : State) (key p : Nat) : KeepsJobs s (s.dropCopy key p) := by
  unfold State.dropCopy
  split
  · exact .refl s
  · exact .ite (.ite ((s.clearHome_keepsJobs p).trans (State.bktDec_keepsJobs ..)) (s.clearHome_keepsJobs p)) (.refl s)

theorem State.delRec_keepsJobs (s : State) (key : Nat) : KeepsJobs s (s.delRec key) := by
  have copies : KeepsJobs s (s.delCopies key) := by
    have dropped := KeepsJobs.foldl (fun t p => State.dropCopy_keepsJobs t key p) (bucketSlots (s.flowBuckets key)) s
    unfold State.delCopies
    dsimp only
    split
    · exact dropped.trans (State.clearHome_keepsJobs ..)
    · exact dropped
  have places : KeepsJobs s (s.delPlaces key) := copies.trans (.of_ctls rfl)
  rw [State.delRec_eq]
  split
  · exact places
  · exact .ite (places.trans (.of_ctls rfl)) (places.trans (.of_ctls rfl))

theorem State.voidSlot_keepsJobs (s : State) (p : Nat) : KeepsJobs s (s.voidSlot p) := by
  unfold State.voidSlot
  split
  · exact .refl s
  · exact .ite (.of_updated (State.bktDec_keepsJobs ..) rfl) (.of_ctls rfl)

theorem State.repairBucket_keepsJobs (s : State) (b : Nat) : KeepsJobs s (s.repairBucket b) := by
  have lost : KeepsJobs s (s.loseRecords fun i => i / 2 == b) :=
    (KeepsJobs.foldl State.voidSlot_keepsJobs _ s).trans (.foldl (f := fun t key => (t.delRec key).bump Objs.rec_lost) (fun t key => (t.delRec_keepsJobs key).trans (.of_ctls rfl)) _ _)
  exact lost.trans (.of_ctls rfl)

theorem State.zeroBurst_ctls (s : State) (p off : Nat) : (s.zeroBurst p off).hbm.ctls = s.hbm.ctls := by
  unfold State.zeroBurst
  by_cases hslots : off < 0x10000000
  · rw [if_pos hslots]
  rw [if_neg hslots]
  by_cases hspill : off < 0x20000000
  · rw [if_pos hspill]
    split <;> rfl
  rw [if_neg hspill]
  by_cases hstage : off < 0x24000000
  · rw [if_pos hstage]
  rw [if_neg hstage]
  by_cases himage : off < 0x25000000
  · rw [if_pos himage]
    cases imageAt p off <;> rfl
  · rw [if_neg himage, Hbm.zeroSw]

theorem State.goldenBurst_ctls (s : State) (stack index burst : Nat) : (s.goldenBurst stack index burst).hbm.ctls = s.hbm.ctls := by
  unfold State.goldenBurst
  split
  · rfl
  · split_ifs <;> rfl

theorem thawBurst_keepsJobs (s : State) (p off : Nat) : KeepsJobs s (thawBurst s p off) := by
  refine .ite (State.repairBucket_keepsJobs ..) (.ite ?_ (.of_ctls (s.zeroBurst_ctls p off)))
  split
  · exact .of_ctls (State.goldenBurst_ctls ..)
  · exact .of_ctls rfl
  · exact .of_ctls (s.zeroBurst_ctls p off)

theorem State.pprBurst_ctls (s : State) (p off : Nat) : (s.pprBurst p off).hbm.ctls = s.hbm.ctls := by
  have slot (c : Prop) [Decidable c] (x : List (Nat × Nat)) : (if c then { s with fsu := { s.fsu with bktAlt := x } } else s).hbm.ctls = s.hbm.ctls := by
    split <;> rfl
  unfold State.pprBurst
  split
  · dsimp only
    split
    · exact slot ..
    · exact slot ..
  · split
    · split
      · split <;> rfl
      · exact s.zeroBurst_ctls p off
    · exact s.zeroBurst_ctls p off

theorem State.pprBurst_fm (s : State) (p off : Nat) : (s.pprBurst p off).fm = s.fm :=
  Part.same_of_others (p := .fm) (State.pprBurst_off (m := Part.fm.others) (by decide) s p off)

theorem State.takeSpares_ctls (s : State) (p n : Nat) : (s.takeSpares p n).hbm.ctls = s.hbm.ctls :=
  List.foldlRecOn (motive := fun t : State => t.hbm.ctls = s.hbm.ctls) (List.range n) _ rfl fun _ h _ _ => h

/-! ## The contexts that a repair ends -/

theorem State.endRuns_part {p : Part} (hp : p ≠ .dict) (s : State) (k unit r : Nat) : p.same s (s.endRuns k unit r) :=
  Part.same_of_others (State.endRuns_off (m := p.others) (decide_eq_true (Ne.symm hp)) s k unit r)

theorem State.endRuns_hbm (s : State) (k unit r : Nat) : (s.endRuns k unit r).hbm = s.hbm :=
  State.endRuns_part (p := .hbm) (by decide) s k unit r

theorem State.endRuns_objs (s : State) (k unit r : Nat) : (s.endRuns k unit r).dict.objs = s.dict.objs :=
  List.foldlRecOn (motive := fun t : State => t.dict.objs = s.dict.objs) _ _ rfl fun t ht x _ => by
    unfold State.endRun
    split
    · exact ht
    · exact ht

theorem State.endRuns_ctl (s : State) (k unit r p : Nat) : (s.endRuns k unit r).ctl p = s.ctl p := by rw [State.ctl, State.endRuns_hbm]; rfl

theorem State.endRuns_rd (s : State) (k unit r : Nat) (o : Obj) (i : Nat) : (s.endRuns k unit r).rd o i = s.rd o i := by
  unfold State.rd DictUnit.rd DictUnit.devId
  rw [State.endRuns_objs]

/-! ## Thaw (R408) -/

theorem State.thawFailed_effects (s : State) (p diag : Nat) : (s.thawFailed p diag).pcState p = 2 ∧
    (s.thawFailed p diag).ctl p = s.ctl p ∧ ∃ e ∈ (s.thawFailed p diag).fm.raised, e.src = 165 ∧ e.unit = p := by
  refine ⟨?_, State.endRuns_ctl .., State.mem_raiseOf_raised ..⟩
  have hdiag : Objs.hbm_diag.key p ≠ Objs.hbm_state.key p := by
    simp only [Obj.key]
    omega
  calc (s.thawFailed p diag).pcState p = ((s.wr Objs.hbm_state p 2).wr Objs.hbm_diag p diag).rd Objs.hbm_state p := State.endRuns_rd ..
    _ = (s.wr Objs.hbm_state p 2).rd Objs.hbm_state p := DictUnit.rd_wr_other hdiag (by simp only [Obj.key, idKey]; omega)
    _ = 2 := DictUnit.rd_wr_same (hbmState_key_ne_idKey p)

section
variable {s : State} {p : Nat} (hjob : (s.ctl p).job = some .thaw) (spare : Bool) (bad : List (BitVec 30))
include hjob

/-- The state in which the listed bursts of a thaw have been repaired. -/
def State.thawed (s : State) (p : Nat) (spare : Bool) (bad : List (BitVec 30)) : State :=
  (thawList s p bad).foldl (fun (s : State) o => thawBurst s p o) ((s.setCtl p { s.ctl p with job := none }).takeSpares p (b2n spare))

omit hjob in
theorem State.thawed_job (s : State) (p : Nat) (spare : Bool) (bad : List (BitVec 30)) : ((s.thawed p spare bad).ctl p).job = none := by
  have kept : KeepsJobs (s.setCtl p { s.ctl p with job := none }) (s.thawed p spare bad) :=
    .of_updated (.foldl (fun t o => thawBurst_keepsJobs t p o) _ _) (State.takeSpares_ctls ..)
  rw [kept.job, State.ctl_setCtl_same]

theorem hbmThawDone_passed (hspare : b2n spare ≤ s.sparesLeft (stackOf p)) : ∃ t, hbmThawDone s p .passed spare bad = t ∧ t.pcState p = 1 ∧
    (t.ctl p).job = none ∧ ∃ e ∈ t.fm.raised, e.src = 167 ∧ e.unit = p := by
  have starts : ¬ (ThawEnd.passed = .retrainFailed ∨ s.sparesLeft (stackOf p) < b2n spare) := by
    rintro (h | h)
    · cases h
    · omega
  refine ⟨_, rfl, ?_⟩
  unfold hbmThawDone
  dsimp only
  rw [if_pos hjob, if_neg starts]
  refine ⟨DictUnit.rd_wr_same (hbmState_key_ne_idKey p), ?_, State.mem_raiseOf_raised ..⟩
  refine (congrArg HbmCtl.job ((State.endRuns_ctl ..).trans (State.ctl_setCtl_same ..))).trans ?_
  exact s.thawed_job p spare bad

theorem hbmThawDone_failed {res : ThawEnd} (hres : res ≠ .passed) : ∃ (u : State) (diag : Nat), hbmThawDone s p res spare bad = u.thawFailed p diag ∧
    (u.ctl p).job = none := by
  have unlocked : ((s.setCtl p { s.ctl p with job := none }).ctl p).job = none := by rw [State.ctl_setCtl_same]
  unfold hbmThawDone
  dsimp only
  rw [if_pos hjob]
  split
  · exact ⟨_, _, rfl, unlocked⟩
  next hgo =>
    cases res with
    | passed => exact absurd rfl hres
    | retrainFailed => exact absurd (.inl rfl) hgo
    | unreadable off e => exact ⟨_, _, rfl, s.thawed_job p spare bad⟩

end

theorem State.startRunOn_result (s : State) (c : Ctx) (k unit r : Nat) : (s.startRunOn c k unit r).result c k = r := tget_tset_same ..

theorem State.startRunOn_rd (s : State) (c : Ctx) (k unit r : Nat) (o : Obj) (i : Nat) : (s.startRunOn c k unit r).rd o i = s.rd o i := rfl

theorem thawApply_effects (c : Ctx) (p : Nat) (s : State) : (thawApply c p s).pcState p = 3 ∧
    ((thawApply c p s).ctl p).job = some .thaw ∧ ((thawApply c p s).ctl p).rq = [] ∧ ((thawApply c p s).ctl p).wq = [] ∧
    (thawApply c p s).result c (Objs.hbm_thaw.key 0) = 8 := by
  have hctl : (thawApply c p s).ctl p = { s.ctl p with rq := [], wq := [], job := some .thaw } := State.ctl_setCtl_same ..
  rw [hctl]
  exact ⟨(State.startRunOn_rd ..).trans (DictUnit.rd_wr_same (hbmState_key_ne_idKey p)), rfl, rfl, rfl, State.startRunOn_result ..⟩

/-! ## Row repairs (R407) -/

theorem Raised.of_raise {s t : State} (h : t.fm = s.fm) (src unit detail : Nat) (cause : Option (Nat × Nat)) (item : Nat) :
    Raised src unit s (t.raise src unit detail cause item) := by
  refine ⟨⟨src, evUnitType src, unit, detail, t.wStamp, t.fNs, cause, item⟩, ?_, rfl, rfl⟩
  rw [← h]
  rfl

/-- The job that hbm_ppr starts at a target: 1 a soft, 2 a hard repair. -/
def pprJob (n target : Nat) : HbmJob := if n = 1 then .pprSoft (pprBank target) (fld target 0 14) else .pprHard (pprBank target) (fld target 0 14)

theorem pprApply_effects (c : Ctx) (n : Nat) (s : State) :
    (pprApply c n s).result c (Objs.hbm_ppr.key 0) = 8 ∧
    ((pprApply c n s).ctl (pprPc (s.rd Objs.hbm_ppr_target))).job = some (pprJob n (s.rd Objs.hbm_ppr_target)) := by
  have hctl : (pprApply c n s).ctl (pprPc (s.rd Objs.hbm_ppr_target)) =
      { s.ctl (pprPc (s.rd Objs.hbm_ppr_target)) with job := some (pprJob n (s.rd Objs.hbm_ppr_target)) } := State.ctl_setCtl_same ..
  rw [hctl]
  exact ⟨State.startRunOn_result .., rfl⟩

theorem State.pprBursts_frame (s : State) (p : Nat) (l : List Nat) : (l.foldl (fun (s : State) o => s.pprBurst p o) s).fm = s.fm ∧
    (l.foldl (fun (s : State) o => s.pprBurst p o) s).hbm.ctls = s.hbm.ctls :=
  List.foldlRecOn (motive := fun t : State => t.fm = s.fm ∧ t.hbm.ctls = s.hbm.ctls) l _ ⟨rfl, rfl⟩ fun t ht o _ =>
    ⟨(t.pprBurst_fm p o).trans ht.1, (t.pprBurst_ctls p o).trans ht.2⟩

section
variable (s : State) (p bank row : Nat) (bad : List (BitVec 30)) (count : HbmCtl → HbmCtl)

theorem State.pprEnd_passed : (s.pprEnd p bank row true bad count).ctl p =
      count { s.ctl p with job := none, marks := ((s.ctl p).marks ++ inRow bank row bad).dedup } ∧
    Raised 170 p s (s.pprEnd p bank row true bad count) := by
  have hctl : (((s.setCtl p { s.ctl p with job := none }).endRuns (Objs.hbm_ppr.key 0) p 0).ctl p) = { s.ctl p with job := none } :=
    (State.endRuns_ctl ..).trans (State.ctl_setCtl_same ..)
  unfold State.pprEnd
  dsimp only
  rw [if_pos rfl, hctl]
  generalize hu : State.setCtl _ p _ = u
  obtain ⟨hfm, hctls⟩ := u.pprBursts_frame p (inRow bank row bad)
  refine ⟨?_, .of_raise (hfm.trans ?_) ..⟩
  · refine (congrArg (tget HbmCtl.init · p) hctls).trans ?_
    rw [← hu]
    exact State.ctl_setCtl_same ..
  · rw [← hu]
    exact (State.endRuns_fm ..).trans rfl

theorem State.pprEnd_failed {t : State} (h : t = s.pprEnd p bank row false bad count) : (t.ctl p).job = none ∧
    (t.ctl p).sppr = (s.ctl p).sppr ∧ (t.ctl p).hpprUsed = (s.ctl p).hpprUsed ∧ Raised 171 p s t := by
  have hctl : t.ctl p = { s.ctl p with job := none } := by
    rw [h]
    exact (State.endRuns_ctl ..).trans (State.ctl_setCtl_same ..)
  rw [hctl, h]
  exact ⟨rfl, rfl, rfl, Raised.of_raise ((State.endRuns_fm ..).trans rfl) ..⟩

end

theorem mem_marked {l m : List Nat} {o : Nat} (h : o ∈ m) : o ∈ (l ++ m).dedup := List.mem_dedup.mpr (List.mem_append_right _ h)

section
variable {s : State} {p bank row : Nat}

theorem hbmPprDone_soft (h : (s.ctl p).job = some (.pprSoft bank row)) (pass : Bool) (bad : List (BitVec 30)) : hbmPprDone s p pass bad =
    if pass then (s.pprEnd p bank row pass bad (fun x => { x with sppr := bank :: x.sppr })).bump Objs.hbm_sppr_count p
    else s.pprEnd p bank row pass bad (fun x => { x with sppr := bank :: x.sppr }) := by
  unfold hbmPprDone
  rw [h]

theorem hbmPprDone_hard (h : (s.ctl p).job = some (.pprHard bank row)) (pass : Bool) (bad : List (BitVec 30)) : hbmPprDone s p pass bad =
    s.pprEnd p bank row pass bad (fun x => { x with hpprUsed := x.hpprUsed + 1 }) := by
  unfold hbmPprDone
  rw [h]

end

/-- Settles O40: a command starts its job at the controller, and the end of the job is the branch of its kind and result. -/
theorem hbmRepairs : Obligations.HbmRepairs := by
  unfold Obligations.HbmRepairs
  intro c v s
  refine ⟨?_, ?_, ?_, ?_⟩
  · intro h
    obtain ⟨b, -, hwrites⟩ := writeObj_written h (by decide)
    obtain ⟨hstate, hjob, hrq, hwq, hresult⟩ := thawApply_effects c (leNat v) b
    exact ⟨_, congrArg Host.Outcome.next (hwrites (thawApply c)), answered_ok .., hstate, hjob, hrq, hwq, hresult⟩
  · intro p spare bad hjob
    refine ⟨fun hspare => ?_, fun res hres => ?_⟩
    · obtain ⟨t, ht, h⟩ := hbmThawDone_passed hjob spare bad hspare
      exact ⟨t, congrArg Host.Outcome.next ht, h⟩
    · obtain ⟨u, diag, hdone, hnone⟩ := hbmThawDone_failed hjob spare bad hres
      obtain ⟨hstate, hctl, hraised⟩ := u.thawFailed_effects p diag
      exact ⟨_, congrArg Host.Outcome.next hdone, hstate, by rw [hctl, hnone], hraised⟩
  · intro n hn h
    obtain ⟨b, hb, hwrites⟩ := writeObj_written h (by decide)
    have htarget : b.rd Objs.hbm_ppr_target = s.rd Objs.hbm_ppr_target := hb.rd _ 0 (by decide) (not_writeSide (by decide) (by decide))
    obtain ⟨hresult, hjob⟩ := pprApply_effects c n b
    rw [htarget] at hjob
    have hval : leNat [BitVec.ofNat 8 n] = n := by obtain rfl | rfl := hn <;> rfl
    have hwritten := hwrites (pprApply c)
    rw [hval] at hwritten
    have hexec : (exec (if n = 1 then .hbmPprSoft c else .hbmPprHard c) s : Out) =
        .next (writeObj c Objs.hbm_ppr 0 [BitVec.ofNat 8 n] pprCheck (pprApply c) s) := by
      obtain rfl | rfl := hn <;> rfl
    refine ⟨_, hexec.trans (congrArg Host.Outcome.next hwritten), answered_ok .., hresult, hjob.trans ?_⟩
    unfold pprJob
    split <;> rfl
  · intro p bank row bad
    refine ⟨fun hjob => ?_, fun hjob => ?_, fun hjob => ?_⟩
    · obtain ⟨hctl, hraised⟩ := s.pprEnd_passed p bank row bad (fun x => { x with sppr := bank :: x.sppr })
      refine ⟨_, congrArg Host.Outcome.next (hbmPprDone_soft hjob true bad), ?_⟩
      refine ⟨congrArg HbmCtl.job hctl, congrArg HbmCtl.sppr hctl, fun o ho => ?_, hraised⟩
      exact (congrArg HbmCtl.marks hctl).symm ▸ mem_marked ho
    · obtain ⟨hctl, hraised⟩ := s.pprEnd_passed p bank row bad (fun x => { x with hpprUsed := x.hpprUsed + 1 })
      refine ⟨_, congrArg Host.Outcome.next (hbmPprDone_hard hjob true bad), ?_⟩
      refine ⟨congrArg HbmCtl.job hctl, congrArg HbmCtl.hpprUsed hctl, fun o ho => ?_, hraised⟩
      exact (congrArg HbmCtl.marks hctl).symm ▸ mem_marked ho
    · obtain hjob | hjob := hjob
      · exact ⟨_, congrArg Host.Outcome.next (hbmPprDone_soft hjob false bad), State.pprEnd_failed _ _ _ _ _ _ (if_neg Bool.false_ne_true)⟩
      · exact ⟨_, congrArg Host.Outcome.next (hbmPprDone_hard hjob false bad), State.pprEnd_failed _ _ _ _ _ _ rfl⟩

end Sys2Proof.Machine
end

section
/-! The events of an HBM controller (O39): what a freeze, a training and a read that ends leave of controllers and objects. -/

namespace Sys2Proof.Machine

/-! ## Objects of the controllers over requests that end (R404) -/

section
variable {P : Nat → Prop}

/-- `P` tells none of the counters of what lost requests take away. -/
abbrev SparesLost (P : Nat → Prop) : Prop := ¬ P (Objs.rec_lost.key 0) ∧ ¬ P (Objs.bar2_frozen.key 0)

theorem bar2Frozen_keeps (hP : SparesLost P) (s : State) (a : Nat) : KeepsObjs P s (bar2Frozen s a) :=
  s.bump_raise_keepsObjs _ _ _ _ _ _ hP.2 (by decide)

theorem State.undo_keeps (hP : SparesLost P) (s : State) (u : HbmUndo) : KeepsObjs P s (s.undo u) := by
  cases u with
  | slot i k old => exact .ite (.of_updated (State.bump_keepsObjs _ _ hP.1 (by decide)) rfl rfl) (.of_units rfl rfl)
  | bar2 tag a => exact .ite (.refl s) (.of_updated (bar2Frozen_keeps hP _ a) rfl rfl)
  | _ => exact .of_units rfl rfl

theorem State.loseWrite_keeps (hP : SparesLost P) (s : State) (w : HbmWrite) : KeepsObjs P s (s.loseWrite w) :=
  .foldl (fun t u => t.undo_keeps hP u) _ s

theorem State.bar2End_keeps (hP : SparesLost P) (s : State) (b : Bar2Read) : KeepsObjs P s (s.bar2End b) := by
  unfold State.bar2End
  split
  · exact (bar2Frozen_keeps hP s _).trans (State.put_keepsObjs ..)
  · exact s.put_keepsObjs _

theorem State.endRead_keeps (hP : SparesLost P) (s : State) (p : Nat) (r : HbmReq) (frozen : Bool) (data : List Byte) :
    KeepsObjs P s (s.endRead p r frozen data) := by
  refine .ite (.refl s) (.ite (.of_units rfl rfl) (.ite ?_ (.of_units rfl rfl)))
  unfold State.bar2Got
  split
  · exact .refl s
  · exact .ite (.of_updated (State.bar2End_keeps hP ..) rfl rfl) (.of_units rfl rfl)

theorem State.flushCtl_keeps (hP : SparesLost P) (s : State) (p : Nat) : KeepsObjs P s (s.flushCtl p) := by
  have ended (l : List HbmReq) (t : State) : KeepsObjs P t (l.foldl (fun t r => t.endRead p r true []) t) :=
    .foldl (fun t r => t.endRead_keeps hP p r true []) l t
  refine .trans ?_ (.foldl (fun t w => t.loseWrite_keeps hP w) _ _)
  exact .of_updated (ended ..) rfl rfl

end

/-- The keys of the objects of the controllers from hbm_retired_map to hbm_sppr_count. -/
abbrev HbmKey (k : Nat) : Prop := 0x680000 ≤ k ∧ k < 0x680700

theorem hbmKey_sparesLost : SparesLost HbmKey := by decide

/-! ## Controllers over requests that end -/

theorem bar2End_ctls (s : State) (b : Bar2Read) : (s.bar2End b).hbm.ctls = s.hbm.ctls := by
  unfold State.bar2End
  split <;> rfl

theorem State.bar2Got_ctls (s : State) (tag a : Nat) (frozen : Bool) (data : List Byte) : (s.bar2Got tag a frozen data).hbm.ctls = s.hbm.ctls := by
  unfold State.bar2Got
  split
  · rfl
  · dsimp only
    split
    · exact bar2End_ctls ..
    · rfl

theorem State.undo_ctls (s : State) (u : HbmUndo) : (s.undo u).hbm.ctls = s.hbm.ctls := by
  cases u with
  | slot i k old =>
    unfold State.undo State.undoSlot
    dsimp only
    split <;> rfl
  | bar2 tag a =>
    unfold State.undo State.bar2Discard
    dsimp only
    split <;> rfl
  | _ => rfl

theorem State.loseWrite_ctls (s : State) (w : HbmWrite) : (s.loseWrite w).hbm.ctls = s.hbm.ctls :=
  List.foldlRecOn (motive := fun t : State => t.hbm.ctls = s.hbm.ctls) w.undo _ rfl fun t ht u _ => (t.undo_ctls u).trans ht

/-- The clients that act on a read of their own, or wait for none: the FSU's background work, the stream port, the host, and the patrol scrub. -/
abbrev ownRead (client : Nat) : Bool := ([2, 3, 4, 6] : List Nat).contains client

/-- What a read that ends leaves for its client at the controller. -/
def HbmCtl.ended (x : HbmCtl) (l : List HbmReq) (frozen : Bool) : HbmCtl :=
  { x with done := x.done ++ (l.filter (fun q => !ownRead q.client)).map (fun q => ⟨q, frozen⟩) }

theorem State.endRead_ctl (s : State) (p : Nat) (r : HbmReq) (frozen : Bool) (data : List Byte) :
    (s.endRead p r frozen data).ctl p = (s.ctl p).ended [r] frozen := by
  have own (h : ownRead r.client = true) : (s.ctl p).ended [r] frozen = s.ctl p := by
    rw [HbmCtl.ended, List.filter_cons_of_neg (p := fun q : HbmReq => !ownRead q.client) (by rw [h]; decide), List.filter_nil, List.map_nil, List.append_nil]
  unfold State.endRead
  split
  next h => exact (own (by obtain h | h := h <;> rw [h] <;> decide)).symm
  next h26 =>
    split
    next h => exact (own (by rw [h]; decide)).symm
    next h3 =>
      split
      next h => exact (congrArg (tget HbmCtl.init · p) (State.bar2Got_ctls ..)).trans (own (by rw [h]; decide)).symm
      next h4 =>
        have other : (!ownRead r.client) = true := by
          have h2 : r.client ≠ 2 := fun h => h26 (.inr h)
          have h6 : r.client ≠ 6 := fun h => h26 (.inl h)
          simp [h2, h3, h4, h6]
        rw [State.ctl_setCtl_same, HbmCtl.ended, List.filter_cons_of_pos (p := fun q : HbmReq => !ownRead q.client) other, List.filter_nil, List.map_singleton]

theorem State.endReads_ctl (p : Nat) (frozen : Bool) (l : List HbmReq) (s : State) :
    (l.foldl (fun (s : State) r => s.endRead p r frozen []) s).ctl p = (s.ctl p).ended l frozen := by
  induction l generalizing s with
  | nil => rw [List.foldl_nil, HbmCtl.ended, List.filter_nil, List.map_nil, List.append_nil]
  | cons r l ih =>
    rw [List.foldl_cons, ih, State.endRead_ctl]
    simp only [HbmCtl.ended, List.append_assoc, ← List.map_append, ← List.filter_append, List.singleton_append]

theorem State.loseWrites_ctls (l : List HbmWrite) (s : State) : (l.foldl State.loseWrite s).hbm.ctls = s.hbm.ctls :=
  List.foldlRecOn (motive := fun t : State => t.hbm.ctls = s.hbm.ctls) l _ rfl fun t ht w _ => (t.loseWrite_ctls w).trans ht

/-- A controller of which every request has ended with MEM_FROZEN. -/
def HbmCtl.flushed (x : HbmCtl) : HbmCtl :=
  ({ x with rq := [], wq := [], wait := [], fix := [], held := [], writing := false } : HbmCtl).ended (x.rq ++ x.wait.filterMap HbmAsk.asRead) true

theorem State.flushCtl_ctl (s : State) (p : Nat) : (s.flushCtl p).ctl p = (s.ctl p).flushed := by
  refine (congrArg (tget HbmCtl.init · p) (State.loseWrites_ctls ..)).trans ((State.endReads_ctl ..).trans ?_)
  rw [State.ctl_setCtl_same]
  rfl

/-! ## Freeze (R404) -/

/-- What a controller that served leaves when it freezes. -/
structure Frozen (p cause : Nat) (s t : State) : Prop where
  state : t.pcState p = 2
  ctl : t.ctl p = (s.ctl p).flushed
  raised : ∃ e ∈ t.fm.raised, e.src = causeSource cause ∧ e.unit = p
  freezes : t.rd Objs.hbm_freezes p = satAdd 64 (s.rd Objs.hbm_freezes p) 1

section
variable {s : State} {p : Nat}

/-- The record of a freeze: hbm_diag, the count and the event. -/
def State.freezeTold (u : State) (p cause diag : Nat) : State :=
  ((u.wr Objs.hbm_diag p diag).bump Objs.hbm_freezes p).raise (causeSource cause) p (fld diag 0 128)

theorem State.freezeTold_objs (u : State) (p cause diag : Nat) : (u.freezeTold p cause diag).pcState p = u.pcState p ∧
    (u.freezeTold p cause diag).rd Objs.hbm_freezes p = satAdd 64 (u.rd Objs.hbm_freezes p) 1 := by
  have hdiag : Objs.hbm_diag.key p ≠ idKey := by
    simp only [Obj.key, idKey]
    omega
  have hcount : Objs.hbm_freezes.key p ≠ idKey := by
    simp only [Obj.key, idKey]
    omega
  have hstate : (u.wr Objs.hbm_diag p diag).rd Objs.hbm_state p = u.rd Objs.hbm_state p :=
    DictUnit.rd_wr_other (by simp only [Obj.key]; omega) hdiag
  have hfreezes : (u.wr Objs.hbm_diag p diag).rd Objs.hbm_freezes p = u.rd Objs.hbm_freezes p :=
    DictUnit.rd_wr_other (by simp only [Obj.key]; omega) hdiag
  constructor
  · exact (DictUnit.rd_wr_other (by simp only [Obj.key]; omega) hcount).trans hstate
  · exact (State.bump_rd_same (o := Objs.hbm_freezes) (i := p) (u.wr Objs.hbm_diag p diag) hcount 1).trans (congrArg (satAdd 64 · 1) hfreezes)

theorem hbmFreeze_eq (h : s.pcState p = 1) (cause sev syndrome client off : Nat) (write : Bool) :
    ∃ diag, hbmFreeze s p cause sev syndrome client off write = ((s.wr Objs.hbm_state p 2).flushCtl p).freezeTold p cause diag :=
  ⟨_, if_pos h⟩

theorem hbmFreeze_frozen (hp : p < 128) (h : s.pcState p = 1) (cause sev syndrome client off : Nat) (write : Bool) :
    Frozen p cause s (hbmFreeze s p cause sev syndrome client off write) := by
  obtain ⟨diag, hfreeze⟩ := hbmFreeze_eq h cause sev syndrome client off write
  have flushed := (s.wr Objs.hbm_state p 2).flushCtl_keeps hbmKey_sparesLost p
  have hctl := (s.wr Objs.hbm_state p 2).flushCtl_ctl p
  generalize (s.wr Objs.hbm_state p 2).flushCtl p = u at flushed hctl hfreeze
  obtain ⟨hstate, hfreezes⟩ := u.freezeTold_objs p cause diag
  rw [hfreeze]
  refine ⟨hstate.trans ?_, hctl, State.mem_raiseOf_raised .., hfreezes.trans (congrArg (satAdd 64 · 1) ?_)⟩
  · exact (flushed.rd Objs.hbm_state p (by simp only [Obj.key, HbmKey]; omega)).trans (DictUnit.rd_wr_same (hbmState_key_ne_idKey p))
  · exact (flushed.rd Objs.hbm_freezes p (by simp only [Obj.key, HbmKey]; omega)).trans
      (DictUnit.rd_wr_other (by simp only [Obj.key]; omega) (hbmState_key_ne_idKey p))

theorem hbmFreeze_idle (h : s.pcState p ≠ 1) (cause sev syndrome client off : Nat) (write : Bool) :
    hbmFreeze s p cause sev syndrome client off write = s := if_neg h

end

/-! ## Retirement (R409) -/

theorem hbmRetireCtl_keeps (s : State) (p : Nat) : KeepsObjs HbmKey (s.wr Objs.hbm_state p 4) ((s.wr Objs.hbm_state p 4).flushCtl p) :=
  State.flushCtl_keeps hbmKey_sparesLost ..

/-- What a controller that is retired leaves. -/
structure Retired (p : Nat) (s t : State) : Prop where
  state : t.pcState p = 4
  map : t.pcRetired p = true
  other : ∀ q, q < 128 → q ≠ p → t.pcState q = s.pcState q
  eft : t.eft = s.eft

theorem hbmRetireCtl_retired {p : Nat} (hp : p < 128) (s : State) : Retired p s (hbmRetireCtl s p) := by
  have flushed := (s.wr Objs.hbm_state p 4).flushCtl_keeps hbmKey_sparesLost p
  have eft : (hbmRetireCtl s p).eft = s.eft := Part.same_of_others (p := .eft) (hbmRetireCtl_off (m := Part.eft.others) (by decide) s p)
  have mapped (q : Nat) : (hbmRetireCtl s p).rd Objs.hbm_state q = ((s.wr Objs.hbm_state p 4).flushCtl p).rd Objs.hbm_state q :=
    (DictUnit.rd_wr_other (by simp only [Obj.key]; omega) (by decide)).trans
      (DictUnit.rd_wr_other (by simp only [Obj.key]; omega) (by decide))
  have state : (hbmRetireCtl s p).pcState p = 4 :=
    (mapped p).trans ((flushed.rd Objs.hbm_state p (by simp only [Obj.key, HbmKey]; omega)).trans (DictUnit.rd_wr_same (hbmState_key_ne_idKey p)))
  refine ⟨state, ?_, fun q hq hne => ?_, eft⟩
  · rw [State.pcRetired, state]
    exact Bool.or_true _
  · exact (mapped q).trans ((flushed.rd Objs.hbm_state q (by simp only [Obj.key, HbmKey]; omega)).trans
      (DictUnit.rd_wr_other (by simp only [Obj.key]; omega) (hbmState_key_ne_idKey p)))

/-! ## Spare lanes (R392) -/

/-- How many spare lanes have been reported. -/
def spareEvents (s : State) : Nat := (s.fm.raised.filter (fun e => e.src == 166)).length

theorem spareEvents_raise (s : State) (p detail : Nat) : spareEvents (s.raise 166 p detail) = spareEvents s + 1 := by
  refine (congrArg List.length (List.filter_append ..)).trans ?_
  rw [List.length_append]
  rfl

theorem State.takeSpares_events (s : State) (p n : Nat) : spareEvents (s.takeSpares p n) = spareEvents s + n := by
  have told (l : List Nat) (t : State) :
      spareEvents (l.foldl (fun (s : State) _ => s.raise 166 p (fld (s.rd Objs.hbm_diag p) 0 128)) t) = spareEvents t + l.length := by
    induction l generalizing t with
    | nil => rfl
    | cons a l ih =>
      rw [List.foldl_cons, ih, spareEvents_raise, List.length_cons]
      omega
  exact (told (List.range n) _).trans (by rw [List.length_range]; rfl)

/-! ## Training (R392) -/

/-- The boot goes on once every controller has trained. -/
theorem State.bootStep_waits {s : State} (h : s.eft.phase ≠ .training ∨ ∃ q, q < 128 ∧ s.pcState q = 0) (bad : List Nat) : s.bootStep bad = s := by
  refine if_neg fun ⟨hphase, _, htrained⟩ => ?_
  obtain h | ⟨q, hq, hzero⟩ := h
  · exact h hphase
  · rw [State.trained, List.all_eq_true] at htrained
    have := htrained q (List.mem_range.mpr hq)
    rw [hzero] at this
    exact absurd this (by decide)

/-- A training that passes with the spare lanes it needs. -/
theorem hbmTrainingDone_passed {s : State} {p n : Nat} (hp : s.pcState p = 0) (hmap : s.pcRetired p = false) (hn : n ≤ s.sparesLeft (stackOf p)) :
    hbmTrainingDone s p true n = (s.wr Objs.hbm_state p 1).takeSpares p n := by
  rw [hbmTrainingDone, if_pos hp, if_neg (by rw [hmap]; decide), if_pos ⟨rfl, hn⟩]

theorem hbmTrainingDone_failed {s : State} {p n : Nat} (hp : s.pcState p = 0) (hmap : s.pcRetired p = false) {pass : Bool}
    (hfail : pass = true → s.sparesLeft (stackOf p) < n) : ∃ diag, hbmTrainingDone s p pass n = (hbmRetireCtl s p).raise 165 p diag := by
  have fails : ¬ (pass = true ∧ n ≤ s.sparesLeft (stackOf p)) := fun ⟨hpass, hn⟩ => absurd (hfail hpass) (by omega)
  exact ⟨_, (if_pos hp).trans ((if_neg (by rw [hmap]; decide)).trans (if_neg fails))⟩

theorem hbmTrainingDone_retired {s : State} {p n : Nat} (hp : s.pcState p = 0) (hmap : s.pcRetired p = true) (pass : Bool) :
    hbmTrainingDone s p pass n = hbmRetireCtl s p := by
  rw [hbmTrainingDone, if_pos hp, if_pos hmap]

/-! ## Reads that return (R401, R402) -/

theorem State.endRead_background {r : HbmReq} (h : r.client = 2 ∨ r.client = 6) (s : State) (p : Nat) (frozen : Bool) (data : List Byte) :
    s.endRead p r frozen data = s := if_pos h.symm

theorem State.endRead_stream {r : HbmReq} (h : r.client = 3) (s : State) (p : Nat) (frozen : Bool) (data : List Byte) :
    s.endRead p r frozen data = { s with str := { s.str with chans := tmod StrChan.empty s.str.chans r.tag (·.got frozen) } } := by
  rw [State.endRead, if_neg (by omega), if_pos h]

theorem State.endRead_waiting {r : HbmReq} (h : r.client ∉ ([2, 3, 4, 6] : List Nat)) (s : State) (p : Nat) (frozen : Bool) (data : List Byte) :
    s.endRead p r frozen data = s.setCtl p { s.ctl p with done := (s.ctl p).done ++ [⟨r, frozen⟩] } := by
  simp only [List.mem_cons, List.not_mem_nil, or_false, not_or] at h
  obtain ⟨h2, h3, h4, h6⟩ := h
  rw [State.endRead, if_neg (by omega), if_neg h3, if_neg h4]

/-- A controller whose next read is issued: its row is open, and a FILL read holds it (R398). -/
def HbmCtl.served (x : HbmCtl) (i : Nat) (r : HbmReq) (now : Nat) : HbmCtl :=
  { x.opened r.off with
    rq := x.rq.eraseIdx i
    held := if r.fill then (bankOf r.off, rowOf r.off, now) :: x.held.filter (fun h => h.1 ≠ bankOf r.off) else x.held }

theorem HbmCtl.served_rowOpen (x : HbmCtl) (i : Nat) (r : HbmReq) (now : Nat) : (x.served i r now).rowOpen r.off = true := by
  have opened : tget 0 (x.served i r now).openRow (bankOf r.off) = rowOf r.off + 1 := tget_tset_same 0 x.openRow (bankOf r.off) (rowOf r.off + 1)
  rw [HbmCtl.rowOpen, opened]
  exact beq_self_eq_true _

theorem readServed_eq (s : State) (p i : Nat) (r : HbmReq) :
    ∃ data, readServed s p i r = (s.setCtl p ((s.ctl p).served i r s.fNs)).endRead p r false data := ⟨_, rfl⟩

/-- What a read that returns leaves of its controller. -/
theorem readServed_ctl (s : State) (p i : Nat) (r : HbmReq) : (readServed s p i r).ctl p = ((s.ctl p).served i r s.fNs).ended [r] false := by
  obtain ⟨data, h⟩ := readServed_eq s p i r
  rw [h, State.endRead_ctl, State.ctl_setCtl_same]

theorem readServed_keeps (s : State) (p i : Nat) (r : HbmReq) : KeepsObjs HbmKey s (readServed s p i r) := by
  obtain ⟨data, h⟩ := readServed_eq s p i r
  rw [h]
  exact .of_updated (State.endRead_keeps hbmKey_sparesLost ..) rfl rfl

/-- The correction of a burst changes what its controller is to write back, and nothing else of it. -/
theorem State.correct_ctl (s : State) (p off : Nat) : ∃ l, (s.correct p off).ctl p = { s.ctl p with fix := l } ∧
    ((s.ctl p).wq.any (fun w => w.off = off) = false → off ∈ l) := by
  unfold State.correct
  dsimp only
  split
  next h => exact ⟨(s.ctl p).fix, rfl, fun hnone => absurd h (by rw [hnone]; decide)⟩
  next => exact ⟨_, State.ctl_setCtl_same .., fun _ => List.mem_append_right _ (List.mem_singleton_self _)⟩

theorem State.correct_dict (s : State) (p off : Nat) : (s.correct p off).dict = s.dict := by
  unfold State.correct
  dsimp only
  split <;> rfl

section
variable {s : State} {p i : Nat} {r : HbmReq} (hnext : (s.ctl p).turned.nextRead = some (i, r)) (hwriting : (s.ctl p).turned.writing = false)
  (hawake : (s.ctl p).asleep = false) (hpc : s.pcState p = 1)
include hnext hwriting hawake hpc

theorem hbmReadComplete_corrected (y : BitVec 16) : ∃ diag, hbmReadComplete s p ⟨.corrected, 0, y⟩ =
    (((readServed (s.setCtl p (s.ctl p).turned) p i r).correct p r.off).bump Objs.hbm_ecc_corr p).raise 160 p diag := by
  have hawake : (s.ctl p).turned.asleep = false := hawake
  have hserves : s.pcState p = 1 ∧ (s.ctl p).turned.asleep = false ∧ (s.ctl p).turned.writing = false := ⟨hpc, hawake, hwriting⟩
  have hgood : ¬ (Ecc.corrected = .uncorrectable ∨ (0 : Fin 4) = 3) := by decide
  unfold hbmReadComplete
  dsimp only
  rw [hnext]
  dsimp only
  rw [if_pos hserves, if_neg hgood, if_pos rfl]
  exact ⟨_, rfl⟩

theorem hbmReadComplete_uncorrectable (y : BitVec 16) :
    hbmReadComplete s p ⟨.uncorrectable, 0, y⟩ = hbmFreeze s p 1 0 y.toNat r.client r.off false := by
  have hawake : (s.ctl p).turned.asleep = false := hawake
  have hserves : s.pcState p = 1 ∧ (s.ctl p).turned.asleep = false ∧ (s.ctl p).turned.writing = false := ⟨hpc, hawake, hwriting⟩
  have hbad : Ecc.uncorrectable = .uncorrectable ∨ (0 : Fin 4) = 3 := .inl rfl
  unfold hbmReadComplete
  dsimp only
  rw [hnext]
  dsimp only
  rw [if_pos hserves, if_pos hbad]
  rfl

end

/-! ## Retraining (R393, R394) -/

/-- A controller that retrains. -/
def State.retraining (s : State) (p : Nat) : State :=
  s.setCtl p { s.ctl p with lastRetrain := s.fNs, openRow := [], held := [], asleep := false }

theorem hbmRetrain_due {s : State} {p : Nat} (hpc : s.pcState p = 1)
    (hdue : (s.ctl p).asleep = false ∧ s.elapsed (s.ctl p).lastRetrain (s.rd Objs.hbm_retrain_interval * 1000) = true ∨
      (s.ctl p).asleep = true ∧ s.eft.phase = .restart) (pass spare : Bool) :
    hbmRetrain s p pass spare = (s.retraining p).retrained p pass spare := by
  have due : (if (s.ctl p).asleep = true then s.eft.phase == .restart
      else s.elapsed (s.ctl p).lastRetrain (s.rd Objs.hbm_retrain_interval * 1000)) = true := by
    obtain ⟨hasleep, h⟩ | ⟨hasleep, h⟩ := hdue
    · rw [hasleep, if_neg Bool.false_ne_true, h]
    · rw [if_pos hasleep, h]
      rfl
  exact if_pos ⟨hpc, due⟩

theorem State.takeSpares_ctl (s : State) (p n q : Nat) : (s.takeSpares p n).ctl q = s.ctl q :=
  congrArg (tget HbmCtl.init · q) (State.takeSpares_ctls ..)

theorem State.takeSpares_dict (s : State) (p n : Nat) : (s.takeSpares p n).dict = s.dict :=
  Part.same_of_others (p := .dict) (State.takeSpares_off (m := Part.dict.others) (by decide) s p n)

theorem State.takeSpares_hbm (s : State) (p n : Nat) : (s.takeSpares p n).hbm = { s.hbm with spares := tmod 0 s.hbm.spares (stackOf p) (· + n) } :=
  List.foldlRecOn (motive := fun t : State => t.hbm = { s.hbm with spares := tmod 0 s.hbm.spares (stackOf p) (· + n) }) (List.range n) _ rfl
    fun _ h _ _ => h

theorem State.takeSpares_one_spares (s : State) (p : Nat) : (s.takeSpares p 1).sparesLeft (stackOf p) = s.sparesLeft (stackOf p) - 1 := by
  have taken : tget 0 (s.takeSpares p 1).hbm.spares (stackOf p) = tget 0 s.hbm.spares (stackOf p) + 1 :=
    tget_tset_same 0 s.hbm.spares (stackOf p) (tget 0 s.hbm.spares (stackOf p) + 1)
  rw [State.sparesLeft, taken, Nat.sub_add_eq]
  rfl

theorem State.retraining_ctl (s : State) (p : Nat) :
    (s.retraining p).ctl p = { s.ctl p with lastRetrain := s.fNs, openRow := [], held := [], asleep := false } := State.ctl_setCtl_same ..

/-- A retraining that passes. -/
theorem State.retrained_passed {s : State} {p : Nat} {spare : Bool} (h : b2n spare ≤ s.sparesLeft (stackOf p)) :
    s.retrained p true spare = s.takeSpares p (b2n spare) := if_pos ⟨rfl, h⟩

/-! ## Temperature and patrol (R395, R403) -/

theorem hbmTempSample_value (s : State) {stack : Nat} (hstack : stack < 4) (temp : Nat) :
    (hbmTempSample s stack temp).rd Objs.hbm_stack_temp stack = temp := by
  have wrote : (s.wr Objs.hbm_stack_temp stack temp).rd Objs.hbm_stack_temp stack = temp :=
    DictUnit.rd_wr_same (by simp only [Obj.key, idKey]; omega)
  unfold hbmTempSample
  dsimp only
  split
  · exact wrote
  · exact wrote

theorem hbmTempSample_hot (s : State) (stack : Nat) {temp : Nat} (h : 95 < toSigned 32 temp) : Raised 172 stack s (hbmTempSample s stack temp) := by
  have rate : refreshRate (toSigned 32 temp) = 4 := if_pos h
  unfold hbmTempSample
  dsimp only
  rw [if_pos rate]
  exact .of_raise rfl ..

/-- A patrol read is presented. -/
theorem hbmPatrolScrub_due {s : State} {p : Nat} (hperiod : s.rd Objs.hbm_scrub_period ≠ 0) (hpc : s.pcState p = 1)
    (hdue : s.elapsed (s.ctl p).patrolStart ((s.ctl p).patrol * (s.rd Objs.hbm_scrub_period * 1000000000) / pcBursts) = true) :
    ∃ start, hbmPatrolScrub s p =
      (s.setCtl p { s.ctl p with patrol := ((s.ctl p).patrol + 1) % pcBursts, patrolStart := start }).presented p
        (.read ⟨6, (s.ctl p).patrol * 32, 0, false⟩) := by
  have hns : s.rd Objs.hbm_scrub_period * 1000000000 ≠ 0 := by omega
  have hrefuses : s.pcRefuses p = false := by
    rw [State.pcRefuses, hpc]
    rfl
  unfold hbmPatrolScrub
  dsimp only
  rw [if_pos ⟨hns, hpc, hdue⟩]
  generalize (if _ = 0 then _ else (s.ctl p).patrolStart) = start
  exact ⟨start, State.hbmRead_serves (s := s.setCtl p _) hrefuses _⟩

/-- Settles O39: each event is the branch that its hypotheses choose. -/
theorem hbmControllerEvents : Obligations.HbmControllerEvents := by
  unfold Obligations.HbmControllerEvents
  intro p s
  refine ⟨?_, ?_, ?_, ?_, ?_, ?_, ?_, ?_, ?_⟩
  · intro n bad hpc hwaits
    have waits {t : State} (heft : t.eft = s.eft) (hother : ∀ q, q < 128 → q ≠ p.val → t.pcState q = s.pcState q) :
        t.bootStep (bad.map (·.val)) = t := by
      refine State.bootStep_waits ?_ _
      rw [heft]
      refine hwaits.imp id fun ⟨q, hne, hq⟩ => ⟨q, q.isLt, (hother q q.isLt fun e => hne (Fin.ext e)).trans hq⟩
    have done {pass : Bool} {t : State} (h : hbmTrainingDone s p pass n = t) (heft : t.eft = s.eft)
        (hother : ∀ q, q < 128 → q ≠ p.val → t.pcState q = s.pcState q) :
        (exec (.hbmTrainingDone p pass n bad) s : Out) = .next t :=
      congrArg Host.Outcome.next ((congrArg (State.bootStep · _) h).trans (waits heft hother))
    have retired := hbmRetireCtl_retired p.isLt s
    refine ⟨fun hmap hn => ?_, fun hmap pass hfail => ?_, fun hmap pass => ?_⟩
    · have hdict : ((s.wr Objs.hbm_state p 1).takeSpares p n).dict = (s.wr Objs.hbm_state p 1).dict := State.takeSpares_dict ..
      refine ⟨_, done (hbmTrainingDone_passed hpc hmap hn) ?_ fun q hq hne => ?_, ?_, ?_, ?_⟩
      · exact Part.same_of_others (p := .eft) (State.takeSpares_off (m := Part.eft.others) (by decide) (s.wr Objs.hbm_state p 1) p n)
      · exact (congrArg (DictUnit.rd · Objs.hbm_state q) hdict).trans
          (DictUnit.rd_wr_other (by simp only [Obj.key]; omega) (hbmState_key_ne_idKey p))
      · exact (congrArg (DictUnit.rd · Objs.hbm_state p) hdict).trans (DictUnit.rd_wr_same (hbmState_key_ne_idKey p))
      · exact (State.takeSpares_hbm ..).trans (State.takeSpares_hbm s p n).symm
      · exact State.takeSpares_events ..
    · obtain ⟨diag, hdone⟩ := hbmTrainingDone_failed hpc hmap hfail
      exact ⟨_, done hdone retired.eft retired.other, retired.state, retired.map, State.mem_raiseOf_raised ..⟩
    · exact ⟨_, done (hbmTrainingDone_retired hpc hmap pass) retired.eft retired.other, retired.state⟩
  · intro hpc hdue
    have retrains (pass spare : Bool) {t : State} (h : (s.retraining p).retrained p pass spare = t) :
        (exec (.hbmRetrain p pass spare) s : Out) = .next t := congrArg Host.Outcome.next ((hbmRetrain_due hpc hdue pass spare).trans h)
    have taken (n : Nat) : ((s.retraining p).takeSpares p n).pcState p = 1 :=
      (congrArg (DictUnit.rd · Objs.hbm_state p) (State.takeSpares_dict ..)).trans hpc
    refine ⟨?_, fun hspare => ?_, ?_⟩
    · refine ⟨_, retrains true false (State.retrained_passed (Nat.zero_le _)), taken _, ?_⟩
      rw [State.takeSpares_ctl, State.retraining_ctl]
      exact ⟨rfl, rfl, rfl, rfl⟩
    · refine ⟨_, retrains true true (State.retrained_passed hspare), taken _, ?_⟩
      rw [State.takeSpares_ctl, State.retraining_ctl]
      exact ⟨rfl, State.takeSpares_one_spares .., .of_raise rfl ..⟩
    · have frozen := hbmFreeze_frozen (s := s.retraining p) p.isLt hpc 4 0 0 7 0 false
      exact ⟨_, retrains false false (if_neg fun h => absurd h.1 Bool.false_ne_true), frozen.state, frozen.raised⟩
  · intro hpc
    refine ⟨_, congrArg Host.Outcome.next (if_neg hpc), ?_, ?_, rfl⟩
    · exact congrArg HbmCtl.nextBank (State.ctl_setCtl_same ..)
    · exact (congrArg (tfind · _) (congrArg HbmCtl.openRow (State.ctl_setCtl_same ..))).trans (tfind_tdel_same ..)
  · intro hpc
    exact congrArg Host.Outcome.next (if_pos hpc)
  · intro k x
    exact ⟨_, rfl, hbmTempSample_value s k.isLt _, hbmTempSample_hot s k⟩
  · intro i r y hnext hwriting hawake hpc
    have good := hbmReadComplete_good hnext hwriting hawake hpc y
    have uncorrectable := hbmReadComplete_uncorrectable hnext hwriting hawake hpc y
    obtain ⟨diag, corrected⟩ := hbmReadComplete_corrected hnext hwriting hawake hpc y
    have turned : (s.setCtl p (s.ctl p).turned).ctl p = (s.ctl p).turned := State.ctl_setCtl_same ..
    have hctl := readServed_ctl (s.setCtl p (s.ctl p).turned) p i r
    rw [turned] at hctl
    refine ⟨?_, ?_, ?_⟩
    · obtain ⟨data, hserved⟩ := readServed_eq (s.setCtl p (s.ctl p).turned) p i r
      rw [turned] at hserved
      refine ⟨_, congrArg Host.Outcome.next good, congrArg HbmCtl.rq hctl, ?_, fun hown => ?_, fun hstream => ?_, fun hwaits => ?_⟩
      · exact (congrArg (HbmCtl.rowOpen · r.off) hctl).trans (HbmCtl.served_rowOpen (s.ctl p).turned i r s.fNs)
      · rw [hserved, State.endRead_background hown, State.ctl_setCtl_same]
        exact ⟨rfl, rfl, rfl⟩
      · rw [hserved, State.endRead_stream hstream]
        exact ⟨rfl, (congrArg HbmCtl.done (State.ctl_setCtl_same ..)).trans rfl, rfl⟩
      · rw [hserved, State.endRead_waiting hwaits, State.ctl_setCtl_same, State.ctl_setCtl_same]
        exact ⟨rfl, rfl, rfl⟩
    · have hkeeps := readServed_keeps (s.setCtl p (s.ctl p).turned) p i r
      generalize readServed (s.setCtl p (s.ctl p).turned) p i r = u at corrected hctl hkeeps
      obtain ⟨l, hfix, hmem⟩ := u.correct_ctl p r.off
      have hcount : (u.correct p r.off).rd Objs.hbm_ecc_corr p = s.rd Objs.hbm_ecc_corr p :=
        (congrArg (DictUnit.rd · Objs.hbm_ecc_corr p) (u.correct_dict p r.off)).trans
          (hkeeps.rd Objs.hbm_ecc_corr p (by simp only [Obj.key, HbmKey]; omega))
      refine ⟨_, congrArg Host.Outcome.next corrected, ?_, fun hnone => ?_, ?_, State.mem_raiseOf_raised ..⟩
      · exact (congrArg HbmCtl.rq hfix).trans (congrArg HbmCtl.rq hctl)
      · refine (congrArg HbmCtl.fix hfix).symm ▸ hmem ?_
        rw [hctl]
        exact hnone
      · exact (State.bump_rd_same (o := Objs.hbm_ecc_corr) (i := p) (u.correct p r.off) (by simp only [Obj.key, idKey]; omega) 1).trans
          (congrArg (satAdd 64 · 1) hcount)
    · have frozen := hbmFreeze_frozen p.isLt hpc 1 0 y.toNat r.client r.off false
      refine ⟨_, congrArg Host.Outcome.next uncorrectable, frozen.state, ?_⟩
      rw [frozen.ctl]
      exact ⟨rfl, rfl, rfl, rfl, frozen.raised⟩
  · intro o w k
    refine ⟨fun hpc => ?_, fun hpc => ⟨congrArg Host.Outcome.next (hbmFreeze_idle hpc ..), congrArg Host.Outcome.next (hbmFreeze_idle hpc ..)⟩⟩
    have ca := hbmFreeze_frozen p.isLt hpc 2 0 0 k o.toNat w
    have queue := hbmFreeze_frozen p.isLt hpc 3 0 0 k 0 false
    exact ⟨⟨_, rfl, ca.state, ca.raised, ca.freezes⟩, ⟨_, rfl, queue.state, queue.raised, queue.freezes⟩⟩
  · intro b hheld
    exact ⟨_, congrArg Host.Outcome.next (if_pos hheld), congrArg HbmCtl.held (State.ctl_setCtl_same ..)⟩
  · intro hperiod hpc hdue
    obtain ⟨start, hscrub⟩ := hbmPatrolScrub_due hperiod hpc hdue
    refine ⟨_, congrArg Host.Outcome.next hscrub, ?_⟩
    rw [State.presented, State.ctl_setCtl_same, State.ctl_setCtl_same]
    exact ⟨rfl, rfl⟩

end Sys2Proof.Machine
end

section
/-! Power-on and cold resets (O48): what survives them in the dictionary, and how a boot starts. -/

namespace Sys2Proof.Machine

/-! ## The dictionary over a reset (R476, R532) -/

theorem tfind_filter_kept {α : Type} {f : Nat × α → Bool} {k : Nat} (h : ∀ v, f (k, v) = true) (t : Tab α) : tfind (t.filter f) k = tfind t k := by
  induction t with
  | nil => rfl
  | cons p t ih =>
    obtain ⟨j, v⟩ := p
    by_cases hj : k = j
    · subst hj
      rw [List.filter_cons_of_pos (h v)]
      simp only [tfind, if_true]
    · by_cases hf : f (j, v) = true
      · rw [List.filter_cons_of_pos hf]
        simp only [tfind, if_neg hj, ih]
      · rw [List.filter_cons_of_neg hf]
        simp only [tfind, if_neg hj, ih]

theorem tfind_filter_lost {α : Type} {f : Nat × α → Bool} {k : Nat} (h : ∀ v, f (k, v) = false) (t : Tab α) : tfind (t.filter f) k = none := by
  induction t with
  | nil => rfl
  | cons p t ih =>
    obtain ⟨j, v⟩ := p
    by_cases hf : f (j, v) = true
    · have hj : k ≠ j := by
        rintro rfl
        rw [h] at hf
        exact absurd hf (by decide)
      rw [List.filter_cons_of_pos hf]
      simp only [tfind, if_neg hj, ih]
    · rw [List.filter_cons_of_neg hf, ih]

theorem clsOf_idKey : clsOf idKey = .c := by decide +kernel

theorem DictUnit.after_devId (u : DictUnit) (r : CoreReset) : (u.after r).devId = u.devId := by
  have kept : ∀ v : Nat, survives r (clsOf ((idKey, v) : Nat × Nat).1) = true := fun v => by
    rw [clsOf_idKey]
    cases r <;> rfl
  exact congrArg (Option.getD · 0) (tfind_filter_kept kept u.objs)

section
variable {o : Obj} {i : Nat} {r : CoreReset}

theorem DictUnit.after_rd_kept (h : survives r (clsOf (o.key i)) = true) (u : DictUnit) : (u.after r).rd o i = u.rd o i := by
  unfold DictUnit.rd
  rw [DictUnit.after_devId]
  exact congrArg (Option.getD · _) (tfind_filter_kept (fun _ => h) u.objs)

theorem DictUnit.after_rd_lost (h : survives r (clsOf (o.key i)) = false) (u : DictUnit) : (u.after r).rd o i = o.default i u.devId := by
  unfold DictUnit.rd
  rw [DictUnit.after_devId]
  exact congrArg (Option.getD · _) (tfind_filter_lost (fun _ => h) u.objs)

end

theorem clsOf_hbmState : ∀ p : Fin 128, clsOf (Objs.hbm_state.key p) = .w := by decide +kernel

theorem clsOf_retiredMap : clsOf (Objs.hbm_retired_map.key 0) = .n := by decide +kernel

/-! ## The core at a cold reset (R525, R532) -/

theorem State.coreCold_eft (s : State) : s.coreCold.eft = s.eft := Part.same_of_others (p := .eft) (State.coreCold_off (m := Part.eft.others) (by decide) s)

theorem State.coreCold_outbox (s : State) : s.coreCold.outbox = s.outbox :=
  Part.same_of_others (p := .outbox) (State.coreCold_off (m := Part.outbox.others) (by decide) s)

/-- A pseudo-channel that is to be trained. -/
structure Untrained (p : Nat) (s : State) : Prop where
  state : s.pcState p = 0
  map : bit (s.rd Objs.hbm_retired_map) p = false

theorem Untrained.retired {p : Nat} {s : State} (h : Untrained p s) : s.pcRetired p = false := by
  rw [State.pcRetired, h.map, h.state]
  rfl

theorem Untrained.of_retired {p : Nat} {s : State} (hstate : s.pcState p = 0) (h : s.pcRetired p = false) : Untrained p s :=
  ⟨hstate, (Bool.or_eq_false_iff.mp h).1⟩

theorem Untrained.of_keeps {p : Nat} (hp : p < 128) {s t : State} (h : Untrained p s) (hk : KeepsObjs HbmKey s t) : Untrained p t :=
  ⟨(hk.rd Objs.hbm_state p (by simp only [Obj.key, HbmKey]; omega)).trans h.state,
    (congrArg (bit · p) (hk.rd Objs.hbm_retired_map 0 (by decide))).trans h.map⟩

theorem State.coreCold_dict (s : State) : s.coreCold.dict = (s.releaseAll.dict.after .cold).wr Objs.croak_level 0 1 := rfl

theorem State.coreCold_rd {o : Obj} {i : Nat} (h : Objs.croak_level.key 0 ≠ o.key i) (s : State) :
    s.coreCold.rd o i = (s.releaseAll.dict.after .cold).rd o i := DictUnit.rd_wr_other h (by decide)

/-- A pseudo-channel that is not retired trains anew after a cold reset. -/
theorem State.coreCold_untrained {s : State} {p : Nat} (hp : p < 128) (h : s.pcRetired p = false) : Untrained p s.coreCold := by
  have lost : survives .cold (clsOf (Objs.hbm_state.key p)) = false := by
    rw [clsOf_hbmState ⟨p, hp⟩]
    rfl
  have kept : survives .cold (clsOf (Objs.hbm_retired_map.key 0)) = true := by
    rw [clsOf_retiredMap]
    rfl
  have released : KeepsObjs HbmKey s s.releaseAll := s.releaseAll_keeps (by decide) fun r => by
    simp only [Obj.key, HbmKey]
    omega
  refine ⟨?_, ?_⟩
  · exact (State.coreCold_rd (by simp only [Obj.key]; omega) s).trans (DictUnit.after_rd_lost lost _)
  · rw [State.coreCold_rd (by decide), DictUnit.after_rd_kept kept]
    exact (congrArg (bit · p) (released.rd Objs.hbm_retired_map 0 (by decide))).trans (Bool.or_eq_false_iff.mp h).1

/-! ## The start of a boot (R384, R579) -/

section
variable {P : Nat → Prop}

/-- `P` tells none of the objects that a lock of the RPLL starts anew. -/
abbrev SparesClocks (P : Nat → Prop) : Prop :=
  ¬ P (Objs.w_state.key 0) ∧ ¬ P (Objs.w_inc.key 0) ∧ (¬ P (Objs.dom_inc.key 0) ∧ ¬ P (Objs.dom_inc.key 1)) ∧
    ¬ P (Objs.dom_state.key 0) ∧ ¬ P (Objs.dom_state.key 1)

theorem State.freshTokens_dict (s : State) : s.freshTokens.dict = s.dict :=
  Part.same_of_others (p := .dict) (State.freshTokens_off (m := Part.dict.others) (by decide) s)

theorem State.freshTokens_eft (s : State) : s.freshTokens.eft = s.eft :=
  Part.same_of_others (p := .eft) (State.freshTokens_off (m := Part.eft.others) (by decide) s)

theorem State.freshTokens_time (s : State) : s.freshTokens.time = s.time :=
  Part.same_of_others (p := .time) (State.freshTokens_off (m := Part.time.others) (by decide) s)

theorem State.freshTokens_fm (s : State) : s.freshTokens.fm = s.fm :=
  Part.same_of_others (p := .fm) (State.freshTokens_off (m := Part.fm.others) (by decide) s)

theorem State.lockClocks_keeps (hP : SparesClocks P) (s : State) (n : Nat) : KeepsObjs P s (s.lockClocks n) := by
  obtain ⟨hw, hwInc, ⟨hinc0, hinc1⟩, hdom0, hdom1⟩ := hP
  have started (t : State) : KeepsObjs P t ((((t.wr Objs.w_state 0 0).wr Objs.w_inc 0 incNom).wr Objs.dom_inc 0 incNom).wr Objs.dom_inc 1 incNom) :=
    (((t.wr_keepsObjs _ hw (by decide)).trans (State.wr_keepsObjs _ _ hwInc (by decide))).trans
      (State.wr_keepsObjs _ _ hinc0 (by decide))).trans (State.wr_keepsObjs _ _ hinc1 (by decide))
  have domains (t : State) : KeepsObjs P t ((t.startDomain 0).startDomain 1) :=
    (t.wr_keepsObjs _ hdom0 (by decide)).trans (State.wr_keepsObjs _ _ hdom1 (by decide))
  exact .of_updated (((started _).trans (domains _)).trans (.of_units (State.freshTokens_dict _) (State.freshTokens_fm _))) rfl rfl

end

theorem State.lockClocks_eft (s : State) (n : Nat) : (s.lockClocks n).eft = { s.eft with clocks := true } := State.freshTokens_eft _

theorem State.lockClocks_f (s : State) (n : Nat) : (s.lockClocks n).time.f = 0 := congrArg TimeUnit.f (State.freshTokens_time _)

/-- W is FREE once the RPLL has locked. -/
theorem State.lockClocks_w (s : State) (n : Nat) : (s.lockClocks n).rd Objs.w_state = 0 := by
  have rest (t : State) : KeepsObjs (· = Objs.w_state.key 0) t
      (((((t.wr Objs.w_inc 0 incNom).wr Objs.dom_inc 0 incNom).wr Objs.dom_inc 1 incNom).startDomain 0).startDomain 1).freshTokens :=
    (((((t.wr_keepsObjs _ (by decide) (by decide)).trans (State.wr_keepsObjs _ _ (by decide) (by decide))).trans
      (State.wr_keepsObjs _ _ (by decide) (by decide))).trans (State.wr_keepsObjs _ _ (by decide) (by decide))).trans
      (State.wr_keepsObjs _ _ (by decide) (by decide))).trans (.of_units (State.freshTokens_dict _) (State.freshTokens_fm _))
  exact ((rest _).rd Objs.w_state 0 rfl).trans (DictUnit.rd_wr_same (by decide))

/-- The retired pseudo-channels show as such before training (R392). -/
def State.retiredShown (s : State) : State := (List.range 128).foldl (fun (s : State) p => if s.pcRetired p then s.wr Objs.hbm_state p 4 else s) s

theorem State.retiredShown_frame (s : State) : s.retiredShown.eft = s.eft ∧ s.retiredShown.time = s.time :=
  List.foldlRecOn (motive := fun t : State => t.eft = s.eft ∧ t.time = s.time) (List.range 128) _ ⟨rfl, rfl⟩ fun t ht p _ => by
    split
    · exact ht
    · exact ht

theorem State.retiredShown_keeps {P : Nat → Prop} (hP : ∀ p, p < 128 → ¬ P (Objs.hbm_state.key p)) (s : State) : KeepsObjs P s s.retiredShown := by
  have shown : ∀ l : List Nat, (∀ p ∈ l, p < 128) → ∀ s : State,
      KeepsObjs P s (l.foldl (fun (s : State) p => if s.pcRetired p then s.wr Objs.hbm_state p 4 else s) s) := by
    intro l hl
    induction l with
    | nil => exact .refl
    | cons p l ih =>
      intro s
      exact (KeepsObjs.ite (s.wr_keepsObjs _ (hP p (hl p List.mem_cons_self)) (hbmState_key_ne_idKey p)) (.refl s)).trans
        (ih (fun q hq => hl q (List.mem_cons_of_mem _ hq)) _)
  exact shown _ (fun p hp => List.mem_range.mp hp) s

theorem Untrained.shown {p : Nat} {s : State} (h : Untrained p s) : Untrained p s.retiredShown :=
  List.foldlRecOn (motive := Untrained p) (List.range 128) _ h fun t ht q _ => by
    split
    next hq =>
      have hne : Objs.hbm_state.key q ≠ Objs.hbm_state.key p := by
        intro e
        have hqp : q = p := by
          simp only [Obj.key] at e
          omega
        rw [hqp, ht.retired] at hq
        exact absurd hq (by decide)
      exact ⟨(DictUnit.rd_wr_other hne (hbmState_key_ne_idKey q)).trans ht.state,
        (congrArg (bit · p) (DictUnit.rd_wr_other (by simp only [Obj.key]; omega) (hbmState_key_ne_idKey q))).trans ht.map⟩
    next => exact ht

/-- A boot that waits for training. -/
structure Training (s t : State) : Prop where
  eft : t.eft = { s.eft with clocks := true, phase := .training }
  f : t.time.f = 0
  w : t.rd Objs.w_state = 0
  power : t.rd Objs.power_state = s.rd Objs.power_state
  mode : t.rd Objs.boot_mode = s.rd Objs.boot_mode

/-- The clocks have locked and training starts. -/
def State.atTraining (s : State) : State :=
  { (s.lockClocks 0).retiredShown with eft := { (s.lockClocks 0).retiredShown.eft with phase := .training } }

theorem State.startTraining_training {s : State} {p : Nat} (hp : p < 128) (h : Untrained p s) : Training s s.startTraining := by
  have locked : Untrained p (s.lockClocks 0) := h.of_keeps hp (s.lockClocks_keeps (by decide) 0)
  obtain ⟨heft, htime⟩ := (s.lockClocks 0).retiredShown_frame
  have eq : s.startTraining = s.atTraining := State.bootStep_waits (s := s.atTraining) (.inr ⟨p, hp, locked.shown.state⟩) []
  have dict : s.atTraining.dict = (s.lockClocks 0).retiredShown.dict := rfl
  have keeps (o : Obj) (hclocks : SparesClocks (· = o.key 0)) (hstate : ∀ q, q < 128 → Objs.hbm_state.key q ≠ o.key 0) :
      s.atTraining.rd o = s.rd o :=
    (congrArg (DictUnit.rd · o 0) dict).trans (((State.retiredShown_keeps (P := (· = o.key 0)) hstate _).rd o 0 rfl).trans
      ((s.lockClocks_keeps (P := (· = o.key 0)) hclocks 0).rd o 0 rfl))
  rw [eq]
  refine ⟨?_, ?_, ?_, ?_, ?_⟩
  · rw [State.atTraining, heft, State.lockClocks_eft]
  · exact (congrArg TimeUnit.f htime).trans (s.lockClocks_f 0)
  · exact (congrArg (DictUnit.rd · Objs.w_state 0) dict).trans (((State.retiredShown_keeps (P := (· = Objs.w_state.key 0))
      (fun q hq => by simp only [Obj.key]; omega) _).rd Objs.w_state 0 rfl).trans (s.lockClocks_w 0))
  · exact keeps Objs.power_state (by decide) fun q hq => by simp only [Obj.key]; omega
  · exact keeps Objs.boot_mode (by decide) fun q hq => by simp only [Obj.key]; omega

/-! ## Cold resets (R525, R526, R595) -/

/-- The Eft as a cold reset begins its boot. -/
def State.coldEft (s : State) (trigger straps : Nat) (low : Bool) : Eft :=
  { s.eft with kind := 2, trigger := trigger, strapBoot := straps, resetLow := low, clocks := false, carry := none, fifoA := [], fifoB := [],
               queue := [], wakeHeld := false, orderly := false, macSaved := false, since := s.eftNs, bootFull := none, bootHue := none }

/-- The state in which a cold reset begins its boot. -/
def State.coldStarted (s : State) (trigger straps : Nat) (low : Bool) : State :=
  (((({ s.coreCold with eft := s.coldEft trigger straps low } : State).wr Objs.power_state 0 4).wr Objs.boot_status 0 0).wr Objs.boot_slot 0 0).wr Objs.boot_mode 0 straps

theorem State.coldStarted_eft (s : State) (trigger straps : Nat) (low : Bool) :
    (s.coldStarted trigger straps low).eft = s.coldEft trigger straps low := rfl

theorem State.coldStarted_slots (s : State) (trigger straps : Nat) (low : Bool) : (s.coldStarted trigger straps low).fsu.slots = [] := rfl

theorem State.coldStarted_tbl (s : State) (trigger straps : Nat) (low : Bool) : (s.coldStarted trigger straps low).tbl = TableUnit.init := rfl

theorem State.coldStarted_host (s : State) (trigger straps : Nat) (low : Bool) : (s.coldStarted trigger straps low).host = HostIf.init := rfl

theorem State.coldStarted_time (s : State) (trigger straps : Nat) (low : Bool) : (s.coldStarted trigger straps low).time = TimeUnit.init := rfl

theorem State.coldStarted_outbox (s : State) (trigger straps : Nat) (low : Bool) : (s.coldStarted trigger straps low).outbox = s.outbox := by
  simp only [State.coldStarted, State.wr_outbox, State.coreCold_outbox]

theorem State.coldReset_eq (s : State) (trigger straps : Nat) (low : Bool) : s.coldReset trigger straps low = (s.coldStarted trigger straps low).railsUp := by
  unfold State.coldReset State.coldStarted State.coldEft
  dsimp only
  rw [State.coreCold_eft]

section
variable {s : State} (hrails : s.eft.pwrEn % 8 = 7) (trigger straps : Nat)
include hrails

theorem State.coldReset_held : s.coldReset trigger straps true =
    { s.coldStarted trigger straps true with eft := { (s.coldStarted trigger straps true).eft with phase := .held } } :=
  (State.coldReset_eq ..).trans ((if_pos hrails).trans (if_pos rfl))

theorem State.coldReset_boots : s.coldReset trigger straps false = (s.coldStarted trigger straps false).startTraining :=
  (State.coldReset_eq ..).trans ((if_pos hrails).trans (if_neg Bool.false_ne_true))

end

theorem State.coldTrigger_absorbed {s : State} (h : s.fm.safe = true ∨ (2 ≤ s.eft.kind ∧ s.eft.phase ≠ .stopped)) (trigger straps : Nat)
    (low : Bool) : s.coldTrigger trigger straps low = s := if_pos (by simpa using h)

theorem State.coldTrigger_taken {s : State} (hsafe : s.fm.safe = false) (h : s.eft.kind < 2 ∨ s.eft.phase = .stopped) (trigger straps : Nat)
    (low : Bool) : s.coldTrigger trigger straps low = s.coldReset trigger straps low := by
  refine if_neg ?_
  obtain h | h := h
  · simp [hsafe, h]
  · simp [hsafe, h]

theorem State.coldStarted_rd (s : State) (trigger straps : Nat) (low : Bool) : (s.coldStarted trigger straps low).rd Objs.boot_mode = straps ∧
    (s.coldStarted trigger straps low).rd Objs.power_state = 4 ∧ (s.coldStarted trigger straps low).rd Objs.boot_status = 0 := by
  refine ⟨DictUnit.rd_wr_same (by decide), ?_, ?_⟩
  · exact (DictUnit.rd_wr_other (by decide) (by decide)).trans ((DictUnit.rd_wr_other (by decide) (by decide)).trans
      ((DictUnit.rd_wr_other (by decide) (by decide)).trans (DictUnit.rd_wr_same (by decide))))
  · exact (DictUnit.rd_wr_other (by decide) (by decide)).trans ((DictUnit.rd_wr_other (by decide) (by decide)).trans
      (DictUnit.rd_wr_same (by decide)))

theorem State.coldStarted_untrained {s : State} {p : Nat} (hp : p < 128) (h : s.pcRetired p = false) (trigger straps : Nat) (low : Bool) :
    Untrained p (s.coldStarted trigger straps low) := by
  have written (t : State) : KeepsObjs HbmKey t ((((t.wr Objs.power_state 0 4).wr Objs.boot_status 0 0).wr Objs.boot_slot 0 0).wr Objs.boot_mode 0 straps) :=
    (((t.wr_keepsObjs _ (by decide) (by decide)).trans (State.wr_keepsObjs _ _ (by decide) (by decide))).trans
      (State.wr_keepsObjs _ _ (by decide) (by decide))).trans (State.wr_keepsObjs _ _ (by decide) (by decide))
  exact (State.coreCold_untrained hp h).of_keeps hp (.of_updated (written _) rfl rfl)

/-! ## Fall of PWRGOOD (R587) -/

/-- The enables after the last of them has fallen. -/
def lastFallen (en : Nat) : Nat :=
  if bit en 2 then setFld en 2 1 0 else if bit en 1 then setFld en 1 1 0 else if bit en 0 then setFld en 0 1 0 else en

/-- What the release of the rails leaves of the Eft. -/
structure RailsReleased (s t : State) : Prop where
  pwrEn : t.eft.pwrEn = lastFallen s.eft.pwrEn
  clocks : t.eft.clocks = false
  ir : t.dbg.ir = 2

theorem State.releaseRails_released (s : State) : RailsReleased s s.releaseRails := by
  unfold State.releaseRails State.dropHighest
  dsimp only
  split_ifs with h2 h1 h0
  · exact ⟨by rw [lastFallen, if_pos h2]; rfl, rfl, rfl⟩
  · exact ⟨by rw [lastFallen, if_neg h2, if_pos h1]; rfl, rfl, rfl⟩
  · exact ⟨by rw [lastFallen, if_neg h2, if_neg h1, if_pos h0]; rfl, rfl, rfl⟩
  · exact ⟨by rw [lastFallen, if_neg h2, if_neg h1, if_neg h0], rfl, rfl⟩

/-! ## Power on (R476, R586) -/

/-- DEVICE_ID is as before. -/
def KeepsId (s t : State) : Prop := t.devId = s.devId

theorem objOf_bounds {k : Nat} {o : Obj} (h : objOf k = some o) : o.key (instOf o k) = k := by
  have found := List.find?_some h
  simp only [Bool.and_eq_true, decide_eq_true_eq] at found
  obtain ⟨⟨⟨hidx, -⟩, hsub⟩, hm⟩ := found
  have hlt : k % 256 - o.sub < o.m := by omega
  have hrow : instOf o k / o.m = k / 256 - o.idx := by
    rw [instOf, Nat.add_comm, Nat.add_mul_div_right _ _ (by omega), Nat.div_eq_of_lt hlt, Nat.zero_add]
  have hcol : instOf o k % o.m = k % 256 - o.sub := by
    rw [instOf, Nat.add_comm, Nat.add_mul_mod_self_right, Nat.mod_eq_of_lt hlt]
  rw [Obj.key, hrow, hcol]
  omega

theorem putSaved_keepsId (s : State) (p : Nat × Nat) : KeepsId s (putSaved s p) := by
  unfold putSaved
  split
  next o ho =>
    split
    next hcls =>
      refine DictUnit.devId_wr fun e => ?_
      rw [objOf_bounds ho] at e
      have hid := clsOf_idKey
      rw [← e, clsOf, ho] at hid
      rw [Option.map_some, Option.getD_some, hcls] at hid
      exact absurd hid (by decide)
    next => rfl
  next => rfl

theorem savedPass_keepsId (s : State) : KeepsId s (savedPass s) := by
  have kept : ∀ v : Nat, (clsOf ((idKey, v) : Nat × Nat).1 != .n || !savedBad s ((idKey, v) : Nat × Nat).1 ((idKey, v) : Nat × Nat).2) = true :=
    fun v => by
      rw [clsOf_idKey]
      rfl
  exact congrArg (Option.getD · 0) (tfind_filter_kept kept s.dict.objs)

theorem savedSettle_keepsId (n : Nat) (s : State) : KeepsId s (savedSettle n s) := by
  induction n generalizing s with
  | zero => rfl
  | succ n ih =>
    unfold savedSettle
    dsimp only
    split
    · rfl
    · exact (ih (savedPass s)).trans (savedPass_keepsId s)

theorem KeepsId.foldl {α : Type} {f : State → α → State} (h : ∀ s a, KeepsId s (f s a)) (l : List α) (s : State) : KeepsId s (l.foldl f s) :=
  List.foldlRecOn (motive := KeepsId s) l f rfl fun t ht a _ => (h t a).trans ht

theorem subModes_keepsId (s : State) : KeepsId s (subModes s) := by
  have wrote (t : State) (p : Nat) : KeepsId t (t.wr Objs.port_mode p 3) := DictUnit.devId_wr (by simp only [Obj.key, idKey]; omega)
  refine KeepsId.foldl (fun t l => ?_) _ s
  split
  · exact KeepsId.foldl wrote _ t
  · rfl

theorem loadImage_keepsId (x : NImage) (s : State) : KeepsId s (loadImage x s) := by
  unfold loadImage
  exact (subModes_keepsId _).trans ((savedSettle_keepsId _ _).trans (KeepsId.foldl putSaved_keepsId _ _))

theorem loadSaved_keepsId (s : State) : KeepsId s (loadSaved s) := by
  unfold loadSaved
  split
  · exact (DictUnit.devId_wr (by decide)).trans (loadImage_keepsId ..)
  · rfl

theorem loadSaved_part {p : Part} (hp : p ≠ .dict ∧ p ≠ .tm ∧ p ≠ .fsu) (s : State) : p.same s (loadSaved s) :=
  Part.same_of_others (loadSaved_off (m := p.others) ⟨decide_eq_true (Ne.symm hp.1), decide_eq_true (Ne.symm hp.2.1), decide_eq_true (Ne.symm hp.2.2)⟩ s)


/-- The state that a power-on reset has loaded, with DEVICE_ID. -/
def State.loaded (s : State) (device : Nat) (slot0 slot1 : List Byte) : State := loadSaved ((s.bare slot0 slot1).wr Objs.device_id 0 device)

section
variable (s : State) (device straps : Nat) (slot0 slot1 : List Byte)

theorem State.loaded_devId : (s.loaded device slot0 slot1).devId = device :=
  (loadSaved_keepsId ((s.bare slot0 slot1).wr Objs.device_id 0 device)).trans (tget_tset_same 0 [] idKey device)

theorem State.loaded_eft : (s.loaded device slot0 slot1).eft = (s.bare slot0 slot1).eft := loadSaved_part (p := .eft) (by decide) _

theorem State.loaded_fm : (s.loaded device slot0 slot1).fm = (s.bare slot0 slot1).fm := loadSaved_part (p := .fm) (by decide) _

theorem State.loaded_host : (s.loaded device slot0 slot1).host = HostIf.init := loadSaved_part (p := .host) (by decide) _

theorem State.loaded_tbl : (s.loaded device slot0 slot1).tbl = TableUnit.init := loadSaved_part (p := .tbl) (by decide) _

theorem State.loaded_outbox : (s.loaded device slot0 slot1).outbox = s.outbox := loadSaved_part (p := .outbox) (by decide) _

/-- The state in which a power-on reset sends its boot-up message. -/
def State.poweredOn : State :=
  let t := s.loaded device slot0 slot1
  let first := ((ffNewest t.eft.ff).map (·.2)).getD 0
  let u := (((t.wr Objs.croak_level 0 1).wr Objs.power_state 0 4).wr Objs.boot_mode 0 straps).wr Objs.eft_ff_last 0 first
  { u with eft := { u.eft with strapBoot := straps } }

theorem State.poweredOn_devId : (s.poweredOn device straps slot0 slot1).devId = device :=
  ((DictUnit.devId_wr (by decide)).trans ((DictUnit.devId_wr (by decide)).trans ((DictUnit.devId_wr (by decide)).trans
    (DictUnit.devId_wr (by decide))))).trans (s.loaded_devId device slot0 slot1)

theorem State.poweredOn_rd : (s.poweredOn device straps slot0 slot1).rd Objs.boot_mode = straps ∧
    (s.poweredOn device straps slot0 slot1).rd Objs.power_state = 4 ∧ (s.poweredOn device straps slot0 slot1).rd Objs.croak_level = 1 :=
  ⟨(DictUnit.rd_wr_other (by decide) (by decide)).trans (DictUnit.rd_wr_same (by decide)),
    (DictUnit.rd_wr_other (by decide) (by decide)).trans ((DictUnit.rd_wr_other (by decide) (by decide)).trans (DictUnit.rd_wr_same (by decide))),
    (DictUnit.rd_wr_other (by decide) (by decide)).trans ((DictUnit.rd_wr_other (by decide) (by decide)).trans
      ((DictUnit.rd_wr_other (by decide) (by decide)).trans (DictUnit.rd_wr_same (by decide))))⟩

theorem State.poweredOn_eft : (s.poweredOn device straps slot0 slot1).eft = { (s.bare slot0 slot1).eft with strapBoot := straps } :=
  congrArg (fun e : Eft => { e with strapBoot := straps }) (s.loaded_eft device slot0 slot1)

/-- A power-on reset keeps what the flash holds (R476). -/
theorem State.poweredOn_flash : (s.poweredOn device straps slot0 slot1).eft.bank0 = s.eft.bank0 ∧
    (s.poweredOn device straps slot0 slot1).eft.bank1 = s.eft.bank1 ∧ (s.poweredOn device straps slot0 slot1).eft.ff = s.eft.ff := by
  rw [State.poweredOn_eft]
  exact ⟨rfl, rfl, rfl⟩

/-- The Eft once a power-on reset raises the first enable (R586). -/
def Eft.raising (e : Eft) (now : Nat) : Eft := { e with phase := .raising, pwrEn := 1, railSince := now, railIn := none }

theorem powerOn_eq : ∃ now, powerOn s device straps slot0 slot1 =
    { s.poweredOn device straps slot0 slot1 with
      eft := (s.poweredOn device straps slot0 slot1).eft.raising now
      outbox := (s.poweredOn device straps slot0 slot1).outbox ++ [.can (0x700 + (device % 127 + 1)) [0]] } := by
  have hrails : (s.poweredOn device straps slot0 slot1).eft.pwrEn = 0 := congrArg Eft.pwrEn (s.poweredOn_eft device straps slot0 slot1)
  have hnode : (s.poweredOn device straps slot0 slot1).nodeId = device % 127 + 1 :=
    congrArg (· % 127 + 1) (s.poweredOn_devId device straps slot0 slot1)
  have eq : powerOn s device straps slot0 slot1 = ((s.poweredOn device straps slot0 slot1).put
      (.can (0x700 + (s.poweredOn device straps slot0 slot1).nodeId) [0])).railsUp := rfl
  rw [eq, hnode]
  generalize s.poweredOn device straps slot0 slot1 = v at hrails
  unfold State.railsUp
  simp only [State.put_eft, hrails]
  exact ⟨_, rfl⟩

end

/-- Settles O48: a reset keeps exactly the dictionary entries whose class survives it, and a boot waits for a pseudo-channel that trains. -/
theorem coldResets : Obligations.ColdResets := by
  unfold Obligations.ColdResets
  intro straps s
  refine ⟨?_, ?_, ?_, ?_, ?_, ?_⟩
  · intro device slot0 slot1
    obtain ⟨now, hon⟩ := powerOn_eq s device.toNat straps.toNat slot0 slot1
    obtain ⟨hmode, hpower, hcroak⟩ := s.poweredOn_rd device.toNat straps.toNat slot0 slot1
    have hdev := s.poweredOn_devId device.toNat straps.toNat slot0 slot1
    obtain ⟨hbank0, hbank1, hff⟩ := s.poweredOn_flash device.toNat straps.toNat slot0 slot1
    have hfm : (s.poweredOn device.toNat straps.toNat slot0 slot1).fm.croak = .boot := congrArg FaultMgr.croak (s.loaded_fm ..)
    have hhost : (s.poweredOn device.toNat straps.toNat slot0 slot1).host = HostIf.init := s.loaded_host ..
    have htbl : (s.poweredOn device.toNat straps.toNat slot0 slot1).tbl = TableUnit.init := s.loaded_tbl ..
    have hout : (s.poweredOn device.toNat straps.toNat slot0 slot1).outbox = s.outbox := s.loaded_outbox ..
    generalize s.poweredOn device.toNat straps.toNat slot0 slot1 = v at hon hmode hpower hcroak hdev hbank0 hbank1 hff hfm hhost htbl hout
    exact ⟨_, congrArg Host.Outcome.next hon, hdev, hmode, hpower, hcroak, hfm, rfl, rfl, hbank0, hbank1, hff, hhost, htbl, congrArg (· ++ _) hout⟩
  · intro h
    exact congrArg Host.Outcome.next (State.coldTrigger_absorbed h ..)
  · intro hsafe hkind hrails
    refine ⟨?_, fun c hpc hacc => ?_⟩
    · obtain ⟨hmode, hpower, hstatus⟩ := s.coldStarted_rd 1 straps.toNat true
      have held := (State.coldTrigger_taken hsafe hkind 1 straps.toNat true).trans (State.coldReset_held hrails 1 straps.toNat)
      have heft := s.coldStarted_eft 1 straps.toNat true
      have hslots := s.coldStarted_slots 1 straps.toNat true
      have htbl := s.coldStarted_tbl 1 straps.toNat true
      have hhost := s.coldStarted_host 1 straps.toNat true
      have htime := s.coldStarted_time 1 straps.toNat true
      have hout := s.coldStarted_outbox 1 straps.toNat true
      generalize s.coldStarted 1 straps.toNat true = t at held hmode hpower hstatus heft hslots htbl hhost htime hout
      refine ⟨_, congrArg Host.Outcome.next held, rfl, ?_, ?_, ?_, hmode, hpower, hstatus, hslots, htbl, hhost, htime, hout⟩
      · exact congrArg Eft.kind heft
      · exact congrArg Eft.trigger heft
      · exact congrArg Eft.resetLow heft
    · obtain ⟨p, hpc⟩ := hpc
      obtain ⟨b, hb, hwrites⟩ := writeObj_written hacc (by decide)
      have hsafe : b.fm.safe = false := by rw [hb.fm, hsafe]
      have hkind : b.eft.kind < 2 ∨ b.eft.phase = .stopped := by rwa [hb.eft]
      have hrails : b.eft.pwrEn % 8 = 7 := by rwa [hb.eft]
      have hpc : b.pcRetired p = false := by
        rw [State.pcRetired, hb.rd Objs.hbm_retired_map 0 (by decide) (not_writeSide (by decide) (by decide)), State.pcState,
          hb.rd Objs.hbm_state p (by simp only [Obj.key]; omega) (not_writeSide (by simp only [Obj.key]; omega) (by simp only [Obj.key]; omega))]
        exact hpc
      have boots := (State.coldTrigger_taken hsafe hkind 2 straps.toNat false).trans (State.coldReset_boots hrails 2 straps.toNat)
      have training := State.startTraining_training p.isLt (b.coldStarted_untrained p.isLt hpc 2 straps.toNat false)
      obtain ⟨hmode, hpower, -⟩ := b.coldStarted_rd 2 straps.toNat false
      have written := hwrites fun _ s => s.coldTrigger 2 straps.toNat false
      rw [boots] at written
      have heft := b.coldStarted_eft 2 straps.toNat false
      generalize b.coldStarted 2 straps.toNat false = u at written training hmode hpower heft
      have heft := training.eft.trans (congrArg (fun e : Eft => { e with clocks := true, phase := .training }) heft)
      refine ⟨_, congrArg Host.Outcome.next written, answered_ok .., ?_, ?_, ?_, training.mode.trans hmode, training.power.trans hpower, ?_⟩
      · exact congrArg Eft.phase heft
      · exact congrArg Eft.kind heft
      · exact congrArg Eft.trigger heft
      · exact congrArg Eft.clocks heft
  · intro hphase hsafe ⟨p, hstate, hretired⟩
    have training := State.startTraining_training (s := { s with eft := { s.eft with resetLow := false } }) p.isLt (.of_retired hstate hretired)
    refine ⟨_, congrArg Host.Outcome.next (if_pos ⟨hphase, hsafe⟩), ?_, ?_, ?_, training.f, training.w⟩
    · exact congrArg Eft.phase training.eft
    · exact congrArg Eft.clocks training.eft
    · exact congrArg Eft.resetLow training.eft
  · intro hphase
    exact congrArg Host.Outcome.next (if_neg fun h => hphase h.1)
  · have released := s.releaseRails_released
    exact ⟨_, rfl, rfl, rfl, DictUnit.rd_wr_same (by decide), released.clocks, released.pwrEn, released.ir, rfl⟩

end Sys2Proof.Machine
end

section
/-! Warm resets and brumation (O49): what the core reset of a warm reset keeps, and the steps of the sequences around it. -/

namespace Sys2Proof.Machine

/-- The keys of the two objects that count and show resets: warm_resets and power_state. -/
abbrev ResetKey (k : Nat) : Prop := k = Objs.warm_resets.key 0 ∨ k = Objs.power_state.key 0

/-! ## Self-refresh (R394) -/

theorem Hbm.stored_ctls (p : Nat) (l : List HbmWrite) (h : Hbm) : (l.foldl (fun (h : Hbm) w => h.stored p w) h).ctls = h.ctls :=
  List.foldlRecOn (motive := fun t : Hbm => t.ctls = h.ctls) l _ rfl fun t ht w _ => by
    unfold Hbm.stored
    split
    · exact ht
    · exact ht

theorem State.sleepPc_keeps {P : Nat → Prop} (hP : SparesLost P) (s : State) (p : Nat) (orderly : Bool) (now : Nat) :
    KeepsObjs P s (s.sleepPc p orderly now) := by
  unfold State.sleepPc
  exact (KeepsObjs.foldl (fun t w => t.loseWrite_keeps hP w) _ _).trans (.of_units rfl rfl)

theorem State.hbmSleep_keeps {P : Nat → Prop} (hP : SparesLost P) (s : State) (orderly : Bool) (now : Nat) :
    KeepsObjs P s (s.hbmSleep orderly now) := by
  unfold State.hbmSleep
  dsimp only
  have slept : KeepsObjs P s ((List.range 128).foldl (fun (s : State) p => s.sleepPc p orderly now) s) :=
    .foldl (fun t p => t.sleepPc_keeps hP p orderly now) _ s
  generalize (List.range 128).foldl (fun (s : State) p => s.sleepPc p orderly now) s = t at slept
  exact slept.trans (.of_units rfl rfl)

/-- Nothing waits at the controllers. -/
def State.NoneWaits (s : State) : Prop := ∀ p < 128, (s.ctl p).wait = []

/-- The first `n` controllers have gone into self-refresh, and nothing but HBM has changed. -/
structure Slept (n : Nat) (s t : State) : Prop where
  others : ∃ h, t = { s with hbm := h }
  asleep : ∀ p < n, (t.ctl p).asleep = s.pcServes p
  wait : t.NoneWaits

theorem Slept.next {n : Nat} (hn : n < 128) {s t : State} (h : Slept n s t) (now : Nat) : Slept (n + 1) s (t.sleepPc n false now) := by
  obtain ⟨⟨m, rfl⟩, hasleep, hwait⟩ := h
  have eq : ∃ m' x, ({ s with hbm := m } : State).sleepPc n false now = ({ s with hbm := m' } : State).setCtl n x ∧ m'.ctls = m.ctls ∧
      x.asleep = s.pcServes n ∧ x.wait = [] := by
    unfold State.sleepPc
    dsimp only
    rw [hwait n hn]
    exact ⟨_, _, rfl, Hbm.stored_ctls .., rfl, rfl⟩
  obtain ⟨m', x, eq, hctls, hx, hxwait⟩ := eq
  have other : ∀ p, n ≠ p → (({ s with hbm := m' } : State).setCtl n x).ctl p = ({ s with hbm := m } : State).ctl p := fun p hp =>
    (State.ctl_setCtl_other hp _ _).trans (congrArg (tget HbmCtl.init · p) hctls)
  rw [eq]
  refine ⟨⟨_, rfl⟩, fun p hp => ?_, fun p hp => ?_⟩
  · obtain rfl | hne := eq_or_ne n p
    · rw [State.ctl_setCtl_same, hx]
    · rw [other p hne]
      exact hasleep p (by omega)
  · obtain rfl | hne := eq_or_ne n p
    · rw [State.ctl_setCtl_same, hxwait]
    · rw [other p hne]
      exact hwait p hp

theorem State.sleeps {s : State} (h : s.NoneWaits) (now : Nat) {n : Nat} (hn : n ≤ 128) :
    Slept n s ((List.range n).foldl (fun (s : State) p => s.sleepPc p false now) s) := by
  induction n with
  | zero => exact ⟨⟨s.hbm, rfl⟩, fun p hp => absurd hp p.not_lt_zero, h⟩
  | succ n ih =>
    rw [List.range_succ, List.foldl_append]
    exact (ih (by omega)).next hn now

theorem State.hbmSleep_slept {s : State} (h : s.NoneWaits) (now : Nat) : Slept 128 s (s.hbmSleep false now) := by
  have slept := State.sleeps h now (Nat.le_refl 128)
  unfold State.hbmSleep
  dsimp only
  generalize (List.range 128).foldl (fun (s : State) p => s.sleepPc p false now) s = t at slept
  obtain ⟨⟨m, rfl⟩, hasleep, hwait⟩ := slept
  exact ⟨⟨_, rfl⟩, hasleep, hwait⟩

/-! ## The hue that is being committed is aborted (R528) -/

theorem State.imageWrites_keepsJobs (s : State) (l : List (Nat × Nat × HbmUndo)) : KeepsJobs s (s.imageWrites l) :=
  List.foldlRecOn (motive := fun h : Hbm => KeepsJobs s { s with hbm := h }) l _ (.refl s) fun h hh w _ => by
    split
    · refine hh.trans (.of_ctls ?_)
      cases w.2.2 <;> rfl
    · exact hh.trans (.presented _ w.1 _)

theorem State.hueAbort_kept (s : State) : KeepsJobs s s.hueAbort ∧ s.hueAbort.fsu.slots = s.fsu.slots := by
  have stored (l : List Nat) (f : State → Nat → ClutchStore) (t : State) :
      (l.foldl (fun (s : State) c => s.setCs c (f s c)) t).hbm = t.hbm ∧ (l.foldl (fun (s : State) c => s.setCs c (f s c)) t).fsu = t.fsu :=
    List.foldlRecOn (motive := fun u : State => u.hbm = t.hbm ∧ u.fsu = t.fsu) l _ ⟨rfl, rfl⟩ fun _ hu _ _ => hu
  have entry (t : State) (i : Nat) (f : Nat → Nat) : KeepsJobs t (t.modBank0 i f) ∧ (t.modBank0 i f).fsu = t.fsu := by
    obtain ⟨hhbm, hfsu⟩ := stored (List.range 16) (fun s c => { s.cs c with disp := tmod 0 (s.cs c).disp i f })
      (({ t with hue := { t.hue with disp0 := tmod 0 t.hue.disp0 i f } } : State).shadowWrite 3 i)
    refine ⟨?_, hfsu⟩
    have written : KeepsJobs t (({ t with hue := { t.hue with disp0 := tmod 0 t.hue.disp0 i f } } : State).shadowWrite 3 i) :=
      .of_updated (State.imageWrites_keepsJobs ..) rfl
    exact written.trans (.of_ctls (congrArg Hbm.ctls hhbm))
  unfold State.hueAbort
  exact List.foldlRecOn (motive := fun u : State => KeepsJobs s u ∧ u.fsu.slots = s.fsu.slots) _ _ ⟨.of_ctls rfl, rfl⟩ fun u hu i _ =>
    ⟨hu.1.trans (entry u i _).1, (congrArg Fsu.slots (entry u i _).2).trans hu.2⟩

/-! ## The core reset (R525, R529, R532) -/

section
variable {P : Nat → Prop}

theorem State.endHbmJobs_keeps (hstate : ∀ p, p < 128 → ¬ P (Objs.hbm_state.key p)) (hmap : ¬ P (Objs.hbm_retired_map.key 0))
    (hdirty : ¬ P (Objs.n_dirty.key 0)) (s : State) : KeepsObjs P s s.endHbmJobs := by
  refine .foldl_mem (fun t p hp => ?_) s
  have wrote (v : Nat) : KeepsObjs P t (t.wr Objs.hbm_state p v) :=
    t.wr_keepsObjs v (hstate p (List.mem_range.1 hp)) (hbmState_key_ne_idKey p)
  exact .ite (wrote 2) (.ite ((wrote 4).trans ((State.wr_keepsObjs _ _ hmap (by decide)).trans (State.wr_keepsObjs _ _ hdirty (by decide)))) (.refl t))

/-- `P` tells none of the objects of a link. -/
abbrev SparesLink (P : Nat → Prop) (p : Nat) : Prop :=
  ¬ P (Objs.link_state.key p) ∧ ¬ P (Objs.lane_lock.key p) ∧ ¬ P (Objs.speed_active.key p) ∧ ¬ P (Objs.ts_state.key p)

theorem State.keepLink_keeps {p : Nat} (hp : p < 256) (hP : SparesLink P p) (a s : State) : KeepsObjs P s (a.keepLink s p) := by
  obtain ⟨hlink, hlock, hspeed, hts⟩ := hP
  have neId {o : Obj} (ho : o.m = 1 ∧ 0x2000 ≤ o.idx ∧ o.sub < 256) : o.key p ≠ idKey := by
    obtain ⟨hm, hidx, hsub⟩ := ho
    simp only [Obj.key, hm, idKey]
    omega
  unfold State.keepLink
  exact .ite (.of_updated ((((State.wr_keepsObjs _ _ hlink (neId (by decide))).trans (State.wr_keepsObjs _ _ hlock (neId (by decide)))).trans
    (State.wr_keepsObjs _ _ hspeed (neId (by decide)))).trans (State.wr_keepsObjs _ _ hts (neId (by decide)))) rfl rfl) (.refl s)

end

theorem State.clearCore_rd {o : Obj} {i : Nat} (hkey : ResetKey (o.key i)) (s : State) : (s.clearCore .warm).rd o i = s.rd o i := by
  have kept : survives .warm (clsOf (o.key i)) = true := by
    obtain h | h := hkey
    · rw [h]
      decide +kernel
    · rw [h]
      decide +kernel
  have released : KeepsObjs ResetKey s s.releaseAll := s.releaseAll_keeps (by decide) fun r => by
    simp only [Obj.key, ResetKey]
    omega
  exact (DictUnit.after_rd_kept kept _).trans (released.rd o i hkey)

/-- What the core reset of a warm reset makes of the state `a` in which HBM sleeps. -/
structure CoreWarmed (a t : State) : Prop where
  rd : ∀ o i, ResetKey (o.key i) → t.rd o i = a.rd o i
  host : t.host = a.host.restart
  slots : t.fsu.slots = a.fsu.slots
  lpm4 : t.tbl.lpm4 = a.tbl.lpm4
  mac : t.tbl.mac = []
  ctls : t.hbm.ctls = a.hbm.ctls

theorem State.coreWarm_warmed (s : State) (mac : Bool) :
    CoreWarmed (s.hbmSleep (s.eft.orderly || CoreReset.warm = .brumation) (if CoreReset.warm = .warm then s.fNs else 0)).hueAbort (s.coreWarm .warm mac) := by
  unfold State.coreWarm
  generalize (s.hbmSleep (s.eft.orderly || CoreReset.warm = .brumation) (if CoreReset.warm = .warm then s.fNs else 0)).hueAbort = a
  extract_lets b h t pat0 pat nat tbl0 tbl fsu0 fsu hbm0 sk0 u v
  change CoreWarmed b _
  have ended : KeepsObjs ResetKey u v := by
    refine (((State.wr_keepsObjs _ _ (by decide) (by decide)).trans (State.wr_keepsObjs _ _ (by decide) (by decide))).trans
      (State.endHbmJobs_keeps (fun p hp => ?_) (by decide) (by decide) _)).trans (.of_units (State.freshTokens_dict _) (State.freshTokens_fm _))
    simp only [Obj.key, ResetKey]
    omega
  have linked : KeepsObjs ResetKey v ([240, 244, 248, 252].foldl b.keepLink v) := .foldl_mem (fun w p hp => by
    refine State.keepLink_keeps ?_ ?_ b w
    · simp only [List.mem_cons, List.not_mem_nil, or_false] at hp
      omega
    · simp only [SparesLink, Obj.key, ResetKey]
      omega) v
  have part {p : Part} (hp : p ∉ [Part.dict, .tm, .eg, .ports]) : p.same u ([240, 244, 248, 252].foldl b.keepLink v) := by
    simp only [List.mem_cons, List.not_mem_nil, or_false, not_or] at hp
    obtain ⟨hdict, htm, heg, hports⟩ := hp
    have others {q : Part} (h : p ≠ q) {x : Piece} (hx : x.part = q) : p.others x = true := decide_eq_true (hx ▸ Ne.symm h)
    refine Part.same_of_others ?_
    rw [State.off_foldl fun s p => State.keepLink_off ⟨others hdict rfl, others hports rfl⟩ b s p]
    simp only [v]
    rw [State.freshTokens_off ⟨others htm rfl, others heg rfl⟩, State.endHbmJobs_off (others hdict rfl), State.wr_off (others hdict rfl),
      State.wr_off (others hdict rfl)]
  have kept := ended.trans linked
  have hdict : u.dict = (b.clearCore .warm).dict := rfl
  have hhost : u.host = b.releaseAll.host.restart := rfl
  have htbl : u.tbl.lpm4 = b.tbl.lpm4 ∧ u.tbl.mac = [] := ⟨rfl, rfl⟩
  have hslots : u.fsu.slots = b.fsu.slots := rfl
  have hctls : u.hbm.ctls = b.hbm.ctls := rfl
  have host := part (p := .host) (by decide)
  have tables := part (p := .tbl) (by decide)
  have fsus := part (p := .fsu) (by decide)
  have hbms := part (p := .hbm) (by decide)
  generalize [240, 244, 248, 252].foldl b.keepLink v = w at kept host tables fsus hbms ⊢
  clear_value u
  exact ⟨fun o i hk => (kept.rd o i hk).trans ((congrArg (DictUnit.rd · o i) hdict).trans (State.clearCore_rd hk b)),
    host.trans (hhost.trans (congrArg HostIf.restart b.releaseAll_host)), (congrArg Fsu.slots fsus).trans hslots,
    (congrArg TableUnit.lpm4 tables).trans htbl.1, (congrArg TableUnit.mac tables).trans htbl.2, (congrArg Hbm.ctls hbms).trans hctls⟩

/-- HBM in self-refresh, as a warm reset leaves it. -/
def State.warmSlept (s : State) : State := s.hbmSleep s.eft.orderly s.fNs

theorem State.warmSlept_host (s : State) : s.warmSlept.host = s.host :=
  Part.same_of_others (p := .host) (State.hbmSleep_off (m := Part.host.others) (by decide) s ..)

theorem State.warmSlept_tbl (s : State) : s.warmSlept.tbl = s.tbl :=
  Part.same_of_others (p := .tbl) (State.hbmSleep_off (m := Part.tbl.others) (by decide) s ..)

theorem State.hueAbort_dict (s : State) : s.hueAbort.dict = s.dict :=
  Part.same_of_others (p := .dict) (State.hueAbort_off (m := Part.dict.others) (by decide) s)

theorem State.hueAbort_host (s : State) : s.hueAbort.host = s.host :=
  Part.same_of_others (p := .host) (State.hueAbort_off (m := Part.host.others) (by decide) s)

theorem State.hueAbort_tbl (s : State) : s.hueAbort.tbl = s.tbl :=
  Part.same_of_others (p := .tbl) (State.hueAbort_off (m := Part.tbl.others) (by decide) s)

theorem State.coreWarm_eft (s : State) (mac : Bool) : (s.coreWarm .warm mac).eft = s.eft :=
  Part.same_of_others (p := .eft) (State.coreWarm_off (m := Part.eft.others) (by decide) s (by decide) mac)

/-- What a warm reset leaves (R529). -/
structure WarmReset (s t : State) : Prop where
  eft : t.eft = { s.eft with phase := .restart, since := s.eftNs }
  resets : t.rd Objs.warm_resets = satAdd 32 (s.rd Objs.warm_resets) 1
  power : t.rd Objs.power_state = s.rd Objs.power_state
  host : t.host = s.host.restart
  slots : t.fsu.slots = s.warmSlept.fsu.slots
  lpm4 : t.tbl.lpm4 = s.tbl.lpm4
  mac : t.tbl.mac = []
  asleep : ∀ p, (t.ctl p).asleep = (s.warmSlept.ctl p).asleep

/-- The count of the frames that an orderly reset discards tells nothing else. -/
theorem State.discarded_frame (s : State) (orderly : Bool) (n : Nat) :
    (∃ d, (if orderly then s.bump Objs.brum_discarded 0 n else s) = { s with dict := d }) ∧
      KeepsObjs ResetKey s (if orderly then s.bump Objs.brum_discarded 0 n else s) := by
  split
  · exact ⟨⟨_, rfl⟩, s.bump_keepsObjs n (by decide) (by decide)⟩
  · exact ⟨⟨s.dict, rfl⟩, .refl s⟩

theorem State.resetWarm_reset (s : State) : WarmReset s s.resetWarm := by
  have slept : KeepsObjs ResetKey s s.warmSlept := s.hbmSleep_keeps (by decide) ..
  have core (mac : Bool) : CoreWarmed s.warmSlept.hueAbort (s.coreWarm .warm mac) := by
    have warmed := s.coreWarm_warmed mac
    rwa [show (s.eft.orderly || decide (CoreReset.warm = .brumation)) = s.eft.orderly from Bool.or_false _, if_pos rfl] at warmed
  obtain ⟨ctl, slots⟩ := s.warmSlept.hueAbort_kept
  have heft := s.coreWarm_eft (s.eft.orderly && s.eft.macSaved)
  unfold State.resetWarm
  dsimp only
  obtain ⟨hrd, hhost, hslots, hlpm4, hmac, hctls⟩ := core (s.eft.orderly && s.eft.macSaved)
  generalize s.coreWarm .warm (s.eft.orderly && s.eft.macSaved) = c at heft hrd hhost hslots hlpm4 hmac hctls
  obtain ⟨⟨d, hd⟩, counted⟩ := c.discarded_frame s.eft.orderly s.framesHeld
  generalize (if s.eft.orderly then c.bump Objs.brum_discarded 0 s.framesHeld else c) = u at hd counted
  have objs (o : Obj) (hkey : ResetKey (o.key 0)) : u.rd o = s.rd o :=
    (counted.rd o 0 hkey).trans ((hrd o 0 hkey).trans ((congrArg (DictUnit.rd · o 0) s.warmSlept.hueAbort_dict).trans (slept.rd o 0 hkey)))
  refine ⟨?_, ?_, ?_, ?_, ?_, ?_, ?_, ?_⟩
  · rw [← heft, hd]
    rfl
  · exact (u.bump_rd_same (o := Objs.warm_resets) (i := 0) (by decide) 1).trans (congrArg (satAdd 32 · 1) (objs Objs.warm_resets (.inl rfl)))
  · exact (DictUnit.rd_wr_other (by decide) (by decide)).trans (objs Objs.power_state (.inr rfl))
  · exact (congrArg State.host hd).trans (hhost.trans (congrArg HostIf.restart ((State.hueAbort_host _).trans s.warmSlept_host)))
  · exact (congrArg (·.fsu.slots) hd).trans (hslots.trans slots)
  · exact (congrArg (·.tbl.lpm4) hd).trans (hlpm4.trans (congrArg TableUnit.lpm4 ((State.hueAbort_tbl _).trans s.warmSlept_tbl)))
  · exact (congrArg (·.tbl.mac) hd).trans hmac
  · intro p
    have awake : (s.warmSlept.hueAbort.ctl p).asleep = (s.warmSlept.ctl p).asleep := by
      obtain ⟨w, hw⟩ := ctl.ctl p
      rw [hw]
    have hbm : u.hbm.ctls = s.warmSlept.hueAbort.hbm.ctls := (congrArg (·.hbm.ctls) hd).trans hctls
    exact (congrArg (fun l => (tget HbmCtl.init l p).asleep) hbm).trans awake

/-! ## The orderly way into a reset (R528, R537) -/

theorem State.carryOver_frame (s : State) : ∃ c a b x y,
    s.carryOver = { s with eft := { s.eft with carry := c, passA := a, passB := b, fifoA := x, fifoB := y } } := by
  unfold State.carryOver
  extract_lets pair
  split
  · exact ⟨s.eft.carry, s.eft.passA, s.eft.passB, s.eft.fifoA, s.eft.fifoB, rfl⟩
  · exact ⟨_, _, _, _, _, rfl⟩

theorem State.clearDebug_eft (s : State) : s.clearDebug.eft = s.eft :=
  Part.same_of_others (p := .eft) (State.clearDebug_off (m := Part.eft.others) (by decide) s)

/-- The drain has started (R528). -/
structure Draining (phase : Phase) (power : Nat) (s t : State) : Prop where
  phase : t.eft.phase = phase
  orderly : t.eft.orderly = true
  kind : t.eft.kind = s.eft.kind
  trigger : t.eft.trigger = s.eft.trigger
  power : t.rd Objs.power_state = power

theorem State.startDrain_draining (s : State) (phase : Phase) (power : Nat) : Draining phase power s (s.startDrain phase power) := by
  unfold State.startDrain
  dsimp only
  obtain ⟨c, a, b, x, y, h⟩ :=
    (({ s with eft := { s.eft with phase := phase, orderly := true, since := s.eftNs } } : State).wr Objs.power_state 0 power).carryOver_frame
  rw [h]
  exact ⟨rfl, rfl, rfl, rfl, DictUnit.rd_wr_same (by decide)⟩

theorem State.warmCommand_drains {s : State} (hkind : s.eft.kind = 0) (hsafe : s.fm.safe = false) (hup : s.eft.phase.coreUp = true) :
    s.warmCommand = ({ s with eft := { s.eft with kind := 1, trigger := 5 } } : State).clearDebug.startDrain .draining 4 :=
  if_neg (by rw [hkind, hsafe, hup]; decide)

theorem State.warmUnorderly_resets {s : State} (hsafe : s.fm.safe = false) (hkind : s.eft.kind < 2) (hup : s.eft.phase.coreUp = true)
    (hnew : ¬ (s.eft.kind = 1 ∧ s.eft.phase = .restart)) (trigger : Nat) : ∃ e : Eft, s.warmUnorderly trigger =
      (({ s with eft := { e with kind := 1, trigger := trigger, orderly := false, macSaved := false } } : State).wr Objs.power_state 0 4).resetWarm := by
  have taken : ¬ (s.fm.safe || decide (2 ≤ s.eft.kind) || !s.eft.phase.coreUp || (s.eft.kind == 1 && s.eft.phase == .restart)) = true := by
    rw [hsafe, hup, decide_eq_false (by omega)]
    simpa using hnew
  unfold State.warmUnorderly
  rw [if_neg taken]
  dsimp only
  split
  · obtain ⟨c, a, b, x, y, h⟩ := s.carryOver_frame
    rw [h]
    exact ⟨_, rfl⟩
  · exact ⟨_, rfl⟩

/-! ## The drain ends (R528) -/

section
variable {o : Obj} {i : Nat} (h : Objs.rec_lost.key 0 ≠ o.key i)

theorem State.putRec_dict (s : State) (key home img : Nat) : (s.putRec key home img).dict = s.dict :=
  Part.same_of_others (p := .dict) (State.putRec_off (m := Part.dict.others) (by decide) s key home img)

include h

theorem flushLine_rd (s : State) (k : Nat) : (flushLine s k).rd o i = s.rd o i := by
  have lost (t : State) : (t.bump Objs.rec_lost).rd o i = t.rd o i := DictUnit.rd_wr_other h (by decide)
  have moved (t : State) (home img : Nat) : (t.putRec k home img).rd o i = t.rd o i := congrArg (DictUnit.rd · o i) (t.putRec_dict ..)
  unfold flushLine
  split
  · rfl
  next l _ =>
    split_ifs
    · unfold State.evict
      dsimp only
      split
      · rfl
      · split
        · exact moved ..
        · exact lost _
    · exact moved ..
    · obtain eq | ⟨x, -, eq⟩ := s.loseLine_cases k l
      · exact (congrArg (State.rd · o i) eq).trans (lost _)
      · exact (congrArg (State.rd · o i) eq).trans (lost _)
    · rfl

theorem State.flushCache_rd (s : State) : s.flushCache.rd o i = s.rd o i :=
  List.foldlRecOn (motive := fun t : State => t.rd o i = s.rd o i) _ flushLine rfl fun t ht k _ => (flushLine_rd h t k).trans ht

end

theorem State.drained_frame (s : State) : s.drained.host = s.host ∧ s.drained.rd Objs.warm_resets = s.rd Objs.warm_resets := by
  refine ⟨Part.same_of_others (p := .host) (State.drained_off (m := Part.host.others) (by decide) s), ?_⟩
  have empty : s.emptySkinks.dict = s.dict := Part.same_of_others (p := .dict) (State.emptySkinks_off (m := Part.dict.others) (by decide) s)
  have flushed : s.emptySkinks.flushCache.rd Objs.warm_resets = s.rd Objs.warm_resets :=
    (State.flushCache_rd (by decide) _).trans (congrArg (DictUnit.rd · Objs.warm_resets 0) empty)
  unfold State.drained
  dsimp only
  split
  · exact flushed
  · exact flushed

/-- The drain has ended: every thread is FREE, or 10 ms have passed. -/
abbrev State.drainEnded (s : State) : Prop := s.sk.threads.all (fun p => decide (p.2.st = .free)) = true ∨ s.eftElapsed s.eft.since 10000000 = true

theorem warmDrainDone_ended {s : State} (h : s.drainEnded) (hsafe : s.fm.safe = false) :
    warmDrainDone s = match s.eft.phase with
      | .draining => s.drained.resetWarm
      | .entering => s.drained.goToSleep
      | _ => s := by
  unfold warmDrainDone
  dsimp only
  refine if_neg ?_
  rw [hsafe, (Bool.or_eq_true _ _).mpr h]
  decide

theorem warmDrainDone_early {s : State} (h : ¬ s.drainEnded) : warmDrainDone s = s := by
  refine if_pos ?_
  rw [State.drainEnded, ← Bool.or_eq_true, Bool.not_eq_true] at h
  rw [h]
  exact Bool.or_true _

/-! ## The restart sequence (R530) -/

theorem State.fsuWrite_paths (s : State) (b off : Nat) (u : HbmUndo) : (s.fsuWrite b off u).fsu.paths = s.fsu.paths :=
  congrArg Fsu.paths (s.fsuWrite_fsu b off u)

theorem State.clearHome_paths (s : State) (p : Nat) : (s.clearHome p).fsu.paths = s.fsu.paths := by
  unfold State.clearHome
  split
  · split
    · rfl
    · split
      · rfl
      · exact State.fsuWrite_paths ..
  · rfl

theorem State.dropCopy_paths (s : State) (key p : Nat) : (s.dropCopy key p).fsu.paths = s.fsu.paths := by
  have dec (t : State) (b : Nat) : (t.bktDec b).fsu.paths = t.fsu.paths := by
    unfold State.bktDec
    extract_lets n
    obtain ⟨a, ha⟩ := t.setAlt_fsu b (if n = 255 then 255 else n - 1)
    rw [ha]
  unfold State.dropCopy
  split
  · rfl
  · dsimp only
    split
    · split
      · exact (dec _ _).trans (s.clearHome_paths p)
      · exact s.clearHome_paths p
    · rfl

theorem State.delRec_paths (s : State) (key : Nat) : (s.delRec key).fsu.paths = s.fsu.paths := by
  have dropped : ((bucketSlots (s.flowBuckets key)).foldl (fun s p => s.dropCopy key p) s).fsu.paths = s.fsu.paths :=
    List.foldlRecOn (motive := fun t : State => t.fsu.paths = s.fsu.paths) _ _ rfl fun t ht p _ => (t.dropCopy_paths key p).trans ht
  unfold State.delRec
  extract_lets t u fsu v
  have stashed : u.fsu.paths = s.fsu.paths := by
    dsimp only [u]
    split
    · exact (t.clearHome_paths _).trans dropped
    · exact dropped
  have forgotten : v.fsu.paths = s.fsu.paths := stashed
  split
  · exact forgotten
  · split
    · exact forgotten
    · exact forgotten

theorem State.flowScan_paths (s : State) : s.flowScan.fsu.paths = [] :=
  List.foldlRecOn (motive := fun t : State => t.fsu.paths = []) _ State.delStale rfl fun t ht key _ => (t.delRec_paths key).trans ht

/-- What the end of a restart or a boot leaves (R530, R538). -/
structure NowActive (s t : State) : Prop where
  phase : t.eft.phase = .running
  carry : t.eft.carry = none
  power : t.rd Objs.power_state = 0
  last : t.rd Objs.last_reset = s.eft.trigger
  raised : ∀ e ∈ s.fm.raised, e ∈ t.fm.raised
  told : ∃ e ∈ t.fm.raised, e.src = 242 ∧ e.detail = s.eft.trigger

theorem State.passOut_trigger (s : State) (all : Bool) : (s.passOut all).eft.trigger = s.eft.trigger := by
  have sent (q : Nat) (l : List (List Byte × Nat)) (t : State) : (l.foldl (State.passSent q) t).eft = t.eft :=
    List.foldlRecOn (motive := fun u : State => u.eft = t.eft) l _ rfl fun u hu _ _ => hu
  unfold State.passOut
  split
  · rfl
  · dsimp only
    rw [sent, sent]

theorem State.nowActive_active (s : State) : NowActive s s.nowActive := by
  have hfm : (s.passOut true).fm = s.fm := Part.same_of_others (p := .fm) (State.passOut_off (m := Part.fm.others) (by decide) s true)
  have htrigger := s.passOut_trigger true
  unfold State.nowActive
  dsimp only
  generalize s.passOut true = u at hfm htrigger ⊢
  refine ⟨rfl, rfl, ?_, ?_, fun e he => ?_, ?_⟩
  · exact (DictUnit.rd_wr_other (by decide) (by decide)).trans (DictUnit.rd_wr_same (by decide))
  · exact (DictUnit.rd_wr_same (by decide)).trans htrigger
  · rw [← hfm] at he
    exact List.mem_append_left _ (List.mem_append_left _ he)
  · exact ⟨_, List.mem_append_right _ (List.mem_singleton_self _), rfl, htrigger⟩

/-- The flow store, the MAC table, the ports and the stream port are in service again. -/
def State.reconnected (s : State) (reloads : List StoreReload) : State := relink (((s.reloadAll reloads).restoreMac.flowScan).startPorts)

section
variable (s : State) (reloads : List StoreReload)

theorem State.reconnected_eft : (s.reconnected reloads).eft = s.eft :=
  Part.same_of_others (p := .eft) ((relink_off (m := Part.eft.others) (by decide) _).trans ((State.startPorts_off (by decide) _).trans
    ((State.flowScan_off (by decide) _).trans ((State.restoreMac_off (by decide) _).trans (State.reloadAll_off (by decide) s reloads)))))

theorem State.nowActive_fsu : s.nowActive.fsu = s.fsu :=
  Part.same_of_others (p := .fsu) (State.nowActive_off (m := Part.fsu.others) (by decide) s)

theorem State.reconnected_paths : (s.reconnected reloads).fsu.paths = [] := by
  have started : (s.reconnected reloads).fsu = ((s.reloadAll reloads).restoreMac.flowScan).fsu :=
    Part.same_of_others (p := .fsu) ((relink_off (m := Part.fsu.others) (by decide) _).trans (State.startPorts_off (by decide) _))
  exact (congrArg Fsu.paths started).trans (State.flowScan_paths _)

/-- The scan of the flow store has told how many records it deleted. -/
theorem State.reconnected_told : ∃ e ∈ (s.reconnected reloads).fm.raised, e.src = 116 := by
  have scanned : ∃ e ∈ ((s.reloadAll reloads).restoreMac.flowScan).fm.raised, e.src = 116 ∧ e.unit = 0 := State.mem_raiseOf_raised ..
  have kept : KeepsObjs BootKey ((s.reloadAll reloads).restoreMac.flowScan) (s.reconnected reloads) :=
    (State.startPorts_keepsBoot _).trans (relink_keepsBoot _)
  obtain ⟨e, he, hsrc, -⟩ := kept.event scanned
  exact ⟨e, he, hsrc⟩

end

theorem restartSequence_due {s : State} (hphase : s.eft.phase = .restart) (hsafe : s.fm.safe = false)
    (hawake : s.hbm.ctls.all (fun c => !c.2.asleep) = true) (reloads : List StoreReload) :
    restartSequence s reloads = (s.reconnected reloads).nowActive := if_pos ⟨hphase, hsafe, hawake⟩

theorem brumationReached_due {s : State} (h : s.eft.phase = .releasing ∧ s.fm.safe = false ∧ s.eft.pwrEn % 8 = 0) : brumationReached s =
    if s.eft.wakeHeld then (({ s with eft := { s.eft with phase := .asleep } } : State).wr Objs.power_state 0 2).startWake
    else ({ s with eft := { s.eft with phase := .asleep } } : State).wr Objs.power_state 0 2 := if_pos h

/-- Settles O49: a warm reset changes the units one after the other, and each later step keeps what an earlier one has left of the counters, of
the Eft and of the tables. -/
theorem warmResetsAndBrumation : Obligations.WarmResetsAndBrumation := by
  unfold Obligations.WarmResetsAndBrumation
  intro c v s
  refine ⟨?_, ?_, ⟨?_, ?_, ?_⟩, ?_, ?_, ?_, ?_, ?_, ?_, ?_⟩
  · intro hsafe hkind hup hnew hwait
    obtain ⟨e, he⟩ := State.warmUnorderly_resets hsafe hkind hup hnew 4
    generalize hu : (({ s with eft := { e with kind := 1, trigger := 4, orderly := false, macSaved := false } } : State).wr Objs.power_state 0 4) = u at he
    have hpower : u.rd Objs.power_state = 4 := by
      rw [← hu]
      exact DictUnit.rd_wr_same (by decide)
    have hresets : u.rd Objs.warm_resets = s.rd Objs.warm_resets := by
      rw [← hu]
      exact DictUnit.rd_wr_other (by decide) (by decide)
    have hserves (p : Fin 128) : u.pcServes p = s.pcServes p := by
      rw [← hu]
      exact congrArg (· == 1) (DictUnit.rd_wr_other (by simp only [Obj.key]; omega) (by decide))
    have hwait : u.NoneWaits := fun p hp => by
      rw [← hu]
      exact hwait ⟨p, hp⟩
    have heft : u.eft = { e with kind := 1, trigger := 4, orderly := false, macSaved := false } := by rw [← hu]; rfl
    have hparts : u.fsu = s.fsu ∧ u.tbl = s.tbl ∧ u.host = s.host := by
      rw [← hu]
      exact ⟨rfl, rfl, rfl⟩
    clear hu
    obtain ⟨hfsu, htbl, hhost⟩ := hparts
    have slept : Slept 128 u u.warmSlept := by
      rw [State.warmSlept, heft]
      exact State.hbmSleep_slept hwait _
    have reset := u.resetWarm_reset
    obtain ⟨m, hslept⟩ := slept.others
    refine ⟨_, congrArg Host.Outcome.next he, ?_, ?_, ?_, ?_, ?_, ?_, ?_, ?_, reset.mac, ?_, fun p => ?_⟩
    · exact congrArg Eft.phase reset.eft
    · rw [reset.eft, heft]
    · rw [reset.eft, heft]
    · rw [reset.eft, heft]
    · rw [reset.resets, hresets]
    · rw [reset.power, hpower]
    · rw [reset.slots, hslept, ← hfsu]
    · rw [reset.lpm4, htbl]
    · rw [reset.host, hhost]
    · exact (reset.asleep p).trans ((slept.asleep p p.isLt).trans (hserves p))
  · intro hkind hsafe hup hacc
    obtain ⟨b, hb, hwrites⟩ := writeObj_written hacc (by decide)
    have written := hwrites fun _ s => s.warmCommand
    have drains := State.warmCommand_drains (s := b) (by rw [hb.eft, hkind]) (by rw [hb.fm, hsafe]) (by rw [hb.eft, hup])
    have heft := ({ b with eft := { b.eft with kind := 1, trigger := 5 } } : State).clearDebug_eft
    rw [drains] at written
    generalize ({ b with eft := { b.eft with kind := 1, trigger := 5 } } : State).clearDebug = u at written heft
    have draining := u.startDrain_draining .draining 4
    refine ⟨_, congrArg Host.Outcome.next written, answered_ok .., draining.phase, ?_, ?_, draining.orderly, draining.power⟩
    · exact draining.kind.trans (congrArg Eft.kind heft)
    · exact draining.trigger.trans (congrArg Eft.trigger heft)
  · intro ended hsafe hphase
    have drained := warmDrainDone_ended ended hsafe
    rw [hphase] at drained
    obtain ⟨hhost, hresets⟩ := s.drained_frame
    have reset := s.drained.resetWarm_reset
    refine ⟨_, congrArg Host.Outcome.next drained, congrArg Eft.phase reset.eft, ?_, ?_⟩
    · rw [reset.host, hhost]
    · rw [reset.resets, hresets]
  · intro ended hsafe hphase
    have drained := warmDrainDone_ended ended hsafe
    rw [hphase] at drained
    exact ⟨_, congrArg Host.Outcome.next drained, rfl, rfl, bit_setFld_zero ..⟩
  · intro early
    exact congrArg Host.Outcome.next (warmDrainDone_early early)
  · intro hphase hsafe hawake reloads
    have active := (s.reconnected reloads).nowActive_active
    have due := restartSequence_due hphase hsafe hawake reloads
    have heft := s.reconnected_eft reloads
    obtain ⟨e, he, hsrc⟩ := s.reconnected_told reloads
    obtain ⟨d, hd, hdsrc, hdetail⟩ := active.told
    refine ⟨_, congrArg Host.Outcome.next due, active.phase, active.power, ?_, ?_, active.carry, ⟨e, active.raised e he, hsrc⟩, ⟨d, hd, hdsrc, ?_⟩⟩
    · exact active.last.trans (congrArg Eft.trigger heft)
    · exact (congrArg Fsu.paths (State.nowActive_fsu _)).trans (s.reconnected_paths reloads)
    · exact hdetail.trans (congrArg Eft.trigger heft)
  · intro undue reloads
    refine congrArg Host.Outcome.next (if_neg fun ⟨hphase, _, hawake⟩ => ?_)
    obtain h | h := undue
    · exact h hphase
    · rw [hawake] at h
      exact absurd h (by decide)
  · intro hacc
    obtain ⟨b, hb, hwrites⟩ := writeObj_written hacc (by decide)
    have draining := ({ b with eft := { b.eft with wakeHeld := false } } : State).startDrain_draining .entering 1
    exact ⟨_, congrArg Host.Outcome.next (hwrites fun _ s => s.enterBrumation), answered_ok .., draining.phase, draining.power,
      _, List.mem_append_right _ (List.mem_singleton_self _), rfl⟩
  · intro hphase hsafe hrails
    have due := brumationReached_due ⟨hphase, hsafe, hrails⟩
    refine ⟨fun hheld => ?_, fun hheld => ?_⟩
    · rw [hheld] at due
      exact ⟨_, congrArg Host.Outcome.next due, rfl, DictUnit.rd_wr_same (by decide)⟩
    · rw [hheld] at due
      exact ⟨_, congrArg Host.Outcome.next due, rfl, DictUnit.rd_wr_same (by decide), bit_setFld ..⟩
  · intro hacc
    obtain ⟨b, hb, hwrites⟩ := writeObj_written hacc (by decide)
    exact ⟨_, congrArg Host.Outcome.next (hwrites fun _ s => s.startWake), answered_ok .., rfl, DictUnit.rd_wr_same (by decide), rfl⟩
  · intro hclocks
    exact ⟨_, congrArg Host.Outcome.next (if_pos hclocks), rfl, DictUnit.rd_wr_same (by decide)⟩
  · intro hclocks
    exact congrArg Host.Outcome.next (if_neg (by rw [hclocks]; decide))

end Sys2Proof.Machine
end
